-- ==== Sys2Proof/Word.lean ====
section
/-! DEFINITION. The word types of the JX8128 and their plainest arithmetic. Register values are kept as natural numbers of
the width their object's type names (R13); the Turret and RISC-V cores compute on bit vectors. -/

namespace Sys2Proof

/-- A byte of a frame, a memory or a table (R9: multi-byte values are little-endian). -/
abbrev Byte := BitVec 8

/-- A 32-bit machine word of a Turret context, a RISC-V core or a register view (R10). -/
abbrev Word := BitVec 32

end Sys2Proof
end

