-- ==== Sys2Proof/Syntax.lean ====
section
/-! DEFINITION. The commands of the JX8128: one constructor of `Instr` for every row of spec/opcode_table.json, with the
operands the row's rule gives the command. A command comes from outside the model: a register write, a dictionary or mailbox
request, a message that arrives, an edge on a pin, an instruction a core or a Turret context executes, or a happening of a
unit's own time. -/

namespace Sys2Proof

/-- The two sides of the module (R22, R23). -/
inductive Side where
  | host | field
deriving DecidableEq, Repr

/-- The routes of dictionary requests, in the order of the DIC_ROUTE_EN bits (R79), and the own requests of the firmware of each Spire
core. -/
inductive Route where
  | vlp | can0 | can1 | pcie | qspi | par | spire (n : Fin 2)
deriving DecidableEq, Repr

/-- Who makes a register write: a core's store (R55), the PCIe direct window (R75), a field data mover (R261) or a dictionary
WRITE on a route with a session handle (R53). -/
inductive Writer where
  | keep
  | spire (n : Fin 2)
  | pcie
  | mover (n : Fin 16)
  | dict (r : Route) (session : BitVec 8)
deriving DecidableEq, Repr

/-- A dictionary request as the service receives it (R57). `whole` says that CHK, LEN and the frame's length agree (R59
check 1). -/
structure Req where
  route : Route
  slot : Fin 4
  whole : Bool
  tag : BitVec 16
  handle : BitVec 8
  index : BitVec 16
  sub : BitVec 8
  session : BitVec 8
  arg : BitVec 32
  data : List Byte
deriving DecidableEq, Repr

/-- A barrier frame as a receiver sees it (R418, R420): whether SOM, EOM and every character were sound, and the bytes from
TYPE to CRC. -/
structure LinkFrame where
  sound : Bool
  bytes : List Byte
deriving DecidableEq, Repr

/-- The IPv4 and UDP headers of a received VLP frame (R449). -/
structure UdpHdr where
  src : BitVec 32
  /-- The destination address. -/
  dst : BitVec 32
  srcPort : BitVec 16
  dstPort : BitVec 16
  /-- The IPv4 header checksum, and the UDP checksum where it is not zero, are right. -/
  sums : Bool
deriving DecidableEq, Repr

/-- An Ethernet frame that carries VLP, as the MAC hands it up: the source address, whether it is VLAN-tagged (R442), the stamp of its
start-of-frame delimiter in host line time before NET_PORT_LAT_RX (R443), the R-TAG's sequence number (R448), the EtherType of a raw
frame or the IPv4 and UDP headers (R449), and the payload without the MAC's padding. -/
structure VlpFrame where
  src : BitVec 48
  tagged : Bool
  stamp : BitVec 64
  rtag : Option (BitVec 16)
  ethertype : BitVec 16
  udp : Option UdpHdr
  pdu : List Byte
deriving DecidableEq, Repr

/-- A received 802.1AS sync with its follow-up: the origin time plus corrections in ns, and the stamp of its arrival in host
line time before NET_PORT_LAT_RX (R443). -/
structure SyncMsg where
  domain : Byte
  origin : BitVec 64
  stamp : BitVec 64
deriving DecidableEq, Repr

/-- A received 802.1AS announce: the fields the best master clock algorithm compares. -/
structure AnnounceMsg where
  domain : Byte
  prio1 : Byte
  quality : BitVec 32
  prio2 : Byte
  gm : BitVec 64
  steps : BitVec 16
  src : BitVec 80
deriving DecidableEq, Repr

/-- Which counters a network CNT_CLR write names (R476). -/
inductive NetClr where
  | net
  | port (m : Fin 4)
  | cb
deriving DecidableEq, Repr

/-- The PCIe window an access uses: the mailbox window BAR0 or the direct window BAR2 (R74). -/
inductive Bar where
  | bar0 | bar2
deriving DecidableEq, Repr

/-- A shadowed octet object (R275). -/
inductive PwmShadow where
  | period
  | duty (j : Fin 8)
  | phase (j : Fin 8)
  | pairOvr (i : Fin 4)
deriving DecidableEq, Repr

/-- What the ECC checks of an instruction of a core found: nothing, a corrected error, or an uncorrectable one in the fetch or
in the load (R370). -/
inductive CoreEcc where
  | clean | corrected | fetchFatal | dataFatal
deriving DecidableEq, Repr

/-- What the ECC check of a fetched Turret word found (R325). -/
inductive Fetch where
  | clean | corrected | fatal
deriving DecidableEq, Repr

/-- An evaluation of an axis, and whether a read of its node found an error that ECC corrected (R197, R211). -/
structure AxVisit where
  axis : Fin 128
  ecc : Bool
deriving DecidableEq, Repr

/-- What may trip an octet: class B when `clsB`; the input has stood at `v`, in 1/256 of a threshold step, for `n` ticks (R294,
R300). -/
structure TripIn where
  clsB : Bool
  v : BitVec 16
  n : Byte
deriving DecidableEq, Repr

/-- A pin that has differed from its command: the octet's channel, and for how many ticks (R314). -/
structure PinDiff where
  chan : Fin 8
  n : BitVec 16
deriving DecidableEq, Repr

/-- A command of the JX8128: one constructor per row of the table. -/
inductive Instr where
  /-- REGISTER_WRITE: a store of one word to a register address (R10, R52, R55). -/
  | registerWrite (w : Writer) (addr v : Word)
  | read (q : Req)
  | write (q : Req)
  | domainOpenRead (q : Req)
  | domainOpenWrite (q : Req)
  | domainSegment (q : Req)
  | domainClose (q : Req)
  | domainCancel (q : Req)
  | echo (q : Req)
  | challenge (q : Req)
  | prove (q : Req)
  | sessionClose (q : Req)
  | sessionIdleExpiry (handle : BitVec 8)
  | forwardTimeout (xid : Fin 8)
  | domainIdleExpiry (handle : Fin 4)
  | store (w : Writer) (sig : Word)
  | storeComplete
  | reload (w : Writer) (sig : Word)
  | factory (w : Writer) (sig : Word)
  /-- DOORBELL: the slot number written and what the slot holds (R74). -/
  | doorbell (slot : Word) (frame : List Byte)
  | mbxAck (mask : Word)
  /-- BAR2_ACCESS: an access through a PCIe window; `wr` tells a write from a read (R75). -/
  | bar2Access (bar : Bar) (wr : Bool) (off v : Word)
  | qspiWriteFrame (slot : Byte) (frame : List Byte)
  | qspiReadResponse (slot : Byte)
  | qspiReadStatus
  | qspiAck (mask : Byte)
  | pdataWrite (v : BitVec 16)
  | pdataRead
  | submit
  | parAck
  | fifoReset
  /-- USER_OBJECT_DECLARE: index, subindex, type, access code, M- prefix, retention class and default, numbered in the
  order of R13, R14 and R18. -/
  | userObjectDeclare (idx : BitVec 16) (sub : BitVec 8) (ty : Fin 10) (acc : Fin 6) (mach : Bool) (ret : Fin 5)
      (dflt : BitVec 64)
  | ltStep (w : Writer) (v : BitVec 64)
  | holdover
  | gtRunStart (w : Writer) (n : Fin 16)
  | gtRunStop (w : Writer) (n : Fin 16)
  | gtCountLoad (w : Writer) (n : Fin 16) (v : Word)
  | gtCtrlWrite (w : Writer) (n : Fin 16) (v : Word)
  /-- GT_COMPARE_MATCH: timer n (the even timer of a linked pair) and compare 0 or 1. -/
  | gtCompareMatch (n : Fin 16) (c : Fin 2)
  | gtWrap (n : Fin 16)
  | whlEnableOn (w : Writer) (d : Fin 16)
  | whlEnableOff (w : Writer) (d : Fin 16)
  /-- TOOTH_EDGE: an edge on input A in edge form, or in quadrature form the crossing stamped `t`; `dir` is the level of the
  direction input at the edge (R104, R106). -/
  | toothEdge (d : Fin 16) (rise : Bool) (t : BitVec 64) (dir : Bool)
  /-- QUAD_COUNT_EDGE: an edge of input A, or of B when `b` (R105). -/
  | quadCountEdge (d : Fin 16) (b rise : Bool) (t : BitVec 64)
  | indexEdge (d : Fin 16) (rise : Bool) (t : BitVec 64)
  | virtualTooth (d : Fin 16)
  | gapDeadlineMiss (d : Fin 16)
  | stall (d : Fin 16)
  | freewheelExpiry (d : Fin 16)
  | plausCheck (d : Fin 16)
  | whlCntClr (w : Writer) (d : Fin 16) (v : Byte)
  | evtEnableOn (w : Writer) (n : Fin 1024)
  | evtEnableOff (w : Writer) (n : Fin 1024)
  | lanRunOn (w : Writer)
  | lanRunOff (w : Writer)
  | evtTimingWrite (w : Writer) (n : Fin 1024) (v : BitVec 64)
  | arm (w : Writer) (n : Fin 1024)
  | cancel (w : Writer) (n : Fin 1024)
  | cut (w : Writer) (n : Fin 1024)
  | evtClear (w : Writer) (n : Fin 1024)
  | lanClear (w : Writer)
  | lanternRefresh (n : Fin 32)
  | handover (n : Fin 1024)
  | handoverFallback (n : Fin 1024)
  | evtStart (n : Fin 1024)
  | evtEnd (n : Fin 1024)
  | evtRearm (n : Fin 1024)
  | freewheelLimit (n : Fin 1024)
  | demandInterval
  | vmEnableOn (w : Writer) (v : Fin 8)
  | vmEnableOff (w : Writer) (v : Fin 8)
  | axRunOn (w : Writer) (a : Fin 128)
  | axRunOff (w : Writer) (a : Fin 128)
  | resume (w : Writer) (a : Fin 128)
  | axClear (w : Writer) (a : Fin 128)
  | axProfNextWrite (w : Writer) (a : Fin 128) (v : BitVec 16)
  /-- AX_EVALUATION: the evaluation for te begins, 48 T before te (R197). -/
  | axEvaluation (a : AxVisit)
  | axPublish (a : Fin 128)
  | nodeReadEccFatal (a : Fin 128)
  | coastEnd (a : Fin 128)
  | nmStale (n : Fin 32)
  | ocuEnableOn (w : Writer) (u : Fin 16)
  | ocuEnableOff (w : Writer) (u : Fin 16)
  | ocuBindWrite (w : Writer) (u : Fin 16) (v : Word)
  /-- OCU_CAPTURE: the oldest capture delivered to the unit is processed (R213). -/
  | ocuCapture (u : Fin 16)
  | ocuTargetExpiry (u : Fin 16)
  | ocuFwCorr (w : Writer) (u : Fin 16) (v : Word)
  | ocuCntClr (w : Writer) (u : Fin 16) (v : Byte)
  | chModeWrite (w : Writer) (c : Fin 128) (v : Byte)
  | chEnWrite (w : Writer) (c : Fin 128) (v : Bool)
  | chGpioOutWrite (w : Writer) (c : Fin 128) (v : Bool)
  /-- Edges carry whether the pin rises and the fine time of the edge in 1/8 T (R5, R231). -/
  | gpioInputEdge (c : Fin 128) (rise : Bool) (t : BitVec 64)
  | captureEdge (c : Fin 128) (rise : Bool) (t : BitVec 64)
  | lockoutEnd (c : Fin 128)
  | periodEdge (c : Fin 128) (rise : Bool) (t : BitVec 64)
  | noSignal (c : Fin 128)
  | freqGateEnd (c : Fin 128)
  /-- PUSH_LO and the other port accesses: port 0 is Keep, port 1 + m mover m (R234). -/
  | pushLo (port : Fin 17) (c : Fin 128) (v : Word)
  | pushHi (port : Fin 17) (c : Fin 128) (v : Word)
  | popLo (port : Fin 17) (c : Fin 128)
  | popHi (port : Fin 17) (c : Fin 128)
  | chQPush (w : Writer) (c : Fin 128) (v : BitVec 64)
  | chQPop (w : Writer) (c : Fin 128) (v : Bool)
  | chQFlush (w : Writer) (c : Fin 128) (v : Bool)
  | compareArm (c : Fin 128)
  | comparePlay (c : Fin 128)
  | chCntClr (w : Writer) (c : Fin 128) (v : Byte)
  | ptStepHandover (c : Fin 128)
  | ptStepPlay (c : Fin 128)
  | ptStepEnd (c : Fin 128)
  /-- SD_FRAME_RESULT: the samples since the last frame, oldest first, and the fine time of the last sampling edge. -/
  | sdFrameResult (c : Fin 128) (samples : List Bool) (t : BitVec 64)
  | sdClkLoss (c : Fin 128)
  | sdClockReturn (c : Fin 128)
  | movRunOn (w : Writer) (n : Fin 16)
  | movRunOff (w : Writer) (n : Fin 16)
  | trigger (w : Writer) (n : Fin 16)
  | movClear (w : Writer) (n : Fin 16)
  | ringAppend (n : Fin 16) (addr : Word)
  | movTriggerArrival (n : Fin 16)
  /-- MOV_DESC_FETCH: `ecc` tells an uncorrectable error in the read. -/
  | movDescFetch (n : Fin 16) (ecc : Bool)
  | movElement (n : Fin 16) (ecc : Bool)
  | pwmRunOn (w : Writer) (o : Fin 16)
  | pwmRunOff (w : Writer) (o : Fin 16)
  | pwmStart (o : Fin 16)
  | pwmBoundary (o : Fin 16)
  | peak (o : Fin 16)
  | pwmEdgePlay (o : Fin 16) (j : Fin 8)
  | pwmShadowWrite (w : Writer) (o : Fin 16) (obj : PwmShadow) (v : Word)
  | pwmPeriodImm (w : Writer) (o : Fin 16) (v : Word)
  | pwmChOffWrite (w : Writer) (o : Fin 16) (v : Byte)
  | pwmCntClr (w : Writer) (o : Fin 16) (v : BitVec 16)
  /-- SN_CROSSING: pair i of octet o, direction at the comparator, fine time. -/
  | snCrossing (o : Fin 16) (i : Fin 4) (rise : Bool) (t : BitVec 64)
  | tripValid (o : Fin 16) (b : TripIn)
  | trpRearm (w : Writer) (o : Fin 16) (v : Byte)
  | trpRearmRb (w : Writer) (o : Fin 16) (v : Bool)
  | latch (w : Writer) (o : Fin 16)
  | trpClear (w : Writer) (o : Fin 16)
  | readbackFault (o : Fin 16) (j : PinDiff)
  | turRunOn (w : Writer) (e : Fin 8)
  | turRunOff (w : Writer) (e : Fin 8)
  | roundBoundary (e : Fin 8)
  /-- NOP and the other Turret instructions: a slot of context x in which the program word with this OP and low bits `w` is
  issued, and what the fetch found (R325, R327). -/
  | nop (x : Fin 128) (w : BitVec 27) (f : Fetch)
  | ldi (x : Fin 128) (w : BitVec 27) (f : Fetch)
  | ldhi (x : Fin 128) (w : BitVec 27) (f : Fetch)
  | addi (x : Fin 128) (w : BitVec 27) (f : Fetch)
  | mov (x : Fin 128) (w : BitVec 27) (f : Fetch)
  | alu (x : Fin 128) (w : BitVec 27) (f : Fetch)
  | br (x : Fin 128) (w : BitVec 27) (f : Fetch)
  | jal (x : Fin 128) (w : BitVec 27) (f : Fetch)
  | jr (x : Fin 128) (w : BitVec 27) (f : Fetch)
  | waitpin (x : Fin 128) (w : BitVec 27) (f : Fetch)
  | waitflag (x : Fin 128) (w : BitVec 27) (f : Fetch)
  | waittime (x : Fin 128) (w : BitVec 27) (f : Fetch)
  | setpin (x : Fin 128) (w : BitVec 27) (f : Fetch)
  | shout (x : Fin 128) (w : BitVec 27) (f : Fetch)
  | shin (x : Fin 128) (w : BitVec 27) (f : Fetch)
  | take (x : Fin 128) (w : BitVec 27) (f : Fetch)
  | give (x : Fin 128) (w : BitVec 27) (f : Fetch)
  | push (x : Fin 128) (w : BitVec 27) (f : Fetch)
  | pull (x : Fin 128) (w : BitVec 27) (f : Fetch)
  | outat (x : Fin 128) (w : BitVec 27) (f : Fetch)
  | flag (x : Fin 128) (w : BitVec 27) (f : Fetch)
  | signal (x : Fin 128) (w : BitVec 27) (f : Fetch)
  | crcs (x : Fin 128) (w : BitVec 27) (f : Fetch)
  | halt (x : Fin 128) (w : BitVec 27) (f : Fetch)
  | timedEdgePlay (x : Fin 128)
  | ctxRunWrite (w : Writer) (x : Fin 128) (v : Bool)
  | release (w : Writer) (x : Fin 128)
  | ctxClear (w : Writer) (x : Fin 128)
  | txPortPush (port : Fin 17) (x : Fin 128) (v : Word)
  | rxPortPop (port : Fin 17) (x : Fin 128)
  | ctxTxqPush (w : Writer) (x : Fin 128) (v : Word)
  | ctxRxqPop (w : Writer) (x : Fin 128) (v : Bool)
  | ctxQFlush (w : Writer) (x : Fin 128) (v : Byte)
  | turFlagSet (w : Writer) (e : Fin 8) (v : Word)
  | turFlagClr (w : Writer) (e : Fin 8) (v : Word)
  | turXflagSet (w : Writer) (v : BitVec 16)
  | turXflagClr (w : Writer) (v : BitVec 16)
  | ecall (core : Fin 3)
  | ebreak (core : Fin 3) (compressed : Bool)
  | xret (core : Fin 3)
  | wfi (core : Fin 3)
  | fence (core : Fin 3) (w : Word)
  | fenceI (core : Fin 3) (w : Word)
  | csrAccess (core : Fin 3) (w : Word)
  | xssTopRead (core : Fin 3) (w : Word)
  | xssTopWrite (core : Fin 3) (w : Word)
  | xssBotRead (core : Fin 3) (w : Word)
  | xssBotWrite (core : Fin 3) (w : Word)
  | shadowCall (core : Fin 3) (w : Word)
  | shadowReturn (core : Fin 3) (w : Word)
  | atomic (core : Fin 3) (w : Word)
  /-- INSTRUCTION: the word as fetched, a compressed one in its low half, and what the ECC checks of its fetch and load found
  (R370). -/
  | instruction (core : Fin 3) (w : Word) (e : CoreEcc)
  | interruptEntry (core : Fin 3)
  | coreWake (core : Fin 3)
  | lockstepMismatch
  | dapHalt (core : Fin 3)
  | dapResume (core : Fin 3)
  | dapStep (core : Fin 3)
  | ebreakHalt (core : Fin 3) (v : Word)
  | readReg (core : Fin 3) (reg : BitVec 16)
  | writeReg (core : Fin 3) (reg : BitVec 16) (v : Word)
  | setAddr (core : Fin 3) (v : Word)
  | readMem (core : Fin 3)
  | writeMem (core : Fin 3) (v : Word)
  | dapStatus (core : Fin 3)
  | sprRelease (w : Writer) (n : Fin 2) (v : Word)
  | sprCntClr (w : Writer) (n : Fin 2) (v : Word)
  | keepCntClr (w : Writer) (v : Word)
  | dbgTraceLostRead
  | claimN (core : Fin 3)
  | claimF (core : Fin 3)
  | peek (core : Fin 3)
  | complete (core : Fin 3) (v : Word)
  /-- BEL_PEND_SET: word j stands for IDs 32 j to 32 j + 31 (R413). -/
  | belPendSet (w : Writer) (side : Side) (j : Fin 16) (v : Word)
  | belPendClr (w : Writer) (side : Side) (j : Fin 16) (v : Word)
  | belEnSet (w : Writer) (side : Side) (j : Fin 16) (v : Word)
  | belEnClr (w : Writer) (side : Side) (j : Fin 16) (v : Word)
  | belSrcCfgWrite (w : Writer) (id : Fin 512) (v : Word)
  | belCntClr (w : Writer) (side : Side) (v : Byte)
  | groupFire (side : Side) (g : Fin 32)
  | hostTimerMatch (n : Fin 16)
  /-- LANE_ALIGNMENT_LOSS: receive lane `lane` of an end. -/
  | laneAlignmentLoss (side : Side) (lane : Fin 4)
  | ts1Received (side : Side)
  | ts2Received (side : Side)
  | receiverAligned (side : Side)
  | frameDrop (side : Side) (f : LinkFrame)
  | link (side : Side) (f : LinkFrame)
  | linkDue (side : Side)
  | replayTimeout (side : Side)
  | hello (side : Side) (f : LinkFrame)
  | state (side : Side) (f : LinkFrame)
  | beacon (f : LinkFrame)
  | timeReport (f : LinkFrame)
  | strobeCal (f : LinkFrame)
  | dicReq (f : LinkFrame)
  | dicRsp (f : LinkFrame)
  | cycIn (f : LinkFrame)
  | cycOut (f : LinkFrame)
  | event (side : Side) (f : LinkFrame)
  | fwLoad (f : LinkFrame)
  | fwStatus (f : LinkFrame)
  | persRestore (f : LinkFrame)
  | persStore (f : LinkFrame)
  | safeA (f : LinkFrame)
  | safeB (f : LinkFrame)
  | safeStatus (f : LinkFrame)
  | resetReq (side : Side) (f : LinkFrame)
  | echoMessage (side : Side) (f : LinkFrame)
  /-- SAFE_A_STORE: the storing core and the word stored to the port (R427). -/
  | safeAStore (core : Fin 3) (v : Word)
  | safeBStore (core : Fin 3) (v : Word)
  /-- SAFE_DISCREPANCY: `b` tells which channel's copy did not arrive. -/
  | safeDiscrepancy (b : Bool)
  | barrierLoss (side : Side)
  | cstopLimit
  | strobeSend
  /-- STROBE_CAPTURE: the number of the strobe whose edge the field samples. -/
  | strobeCapture (n : Word)
  | calibrationStart
  | cal (w : Writer)
  /-- CALIBRATION_COMPLETE: the mean round trip in ps. -/
  | calibrationComplete (rtt : Word)
  | barEchoCmd (w : Writer) (side : Side)
  | barClear (w : Writer) (side : Side)
  | portLinkChange (p : Fin 4) (up : Bool)
  | gptpSync (p : Fin 4) (f : SyncMsg)
  | gptpAnnounce (p : Fin 4) (f : AnnounceMsg)
  /-- PDELAY_MEASUREMENT: departure and arrival stamps of the port in host line time, and the partner's two stamps, in ns. -/
  | pdelayMeasurement (p : Fin 4) (t1 t2 t3 t4 : BitVec 64)
  /-- ARP_REQUEST: the asking station's addresses and the address asked for. -/
  | arpRequest (p : Fin 4) (mac : BitVec 48) (ip target : Word)
  | vlpCyclic (p : Fin 4) (f : VlpFrame)
  | vlpDicReq (p : Fin 4) (f : VlpFrame)
  /-- CB_STREAM_RESET: the stream, by source address. -/
  | cbStreamReset (mac : BitVec 48)
  | gateEntryChange (p : Fin 2)
  /-- CYCLE_SAMPLE, CYCLE_START and CYCLE_TX carry the number of the cycle (R453). -/
  | cycleSample (n : BitVec 64)
  | cycleStart (n : BitVec 64)
  | cycleTx (n : BitVec 64)
  | netRunOn (w : Writer)
  | netRunOff (w : Writer)
  | redEnWrite (w : Writer) (v : Bool)
  | rejoin (w : Writer)
  | yield (w : Writer)
  | redClear (w : Writer)
  | netCntClr (w : Writer) (which : NetClr) (v : Byte)
  | canEnWrite (w : Writer) (k : Fin 2) (v : Bool)
  | nmtCommand (k : Fin 2) (cmd node : Byte)
  | sdoRequest (k : Fin 2) (d : List Byte)
  | sdoTimeout (k : Fin 2)
  | sync (k : Fin 2)
  | rpdo (k : Fin 2) (cob : BitVec 11) (d : List Byte)
  | tpdoEventTimer (k : Fin 2) (j : Fin 8)
  | heartbeatProduce (k : Fin 2)
  /-- HEARTBEAT_CONSUME: consumer entry, and whether its time expired rather than a heartbeat came. -/
  | heartbeatConsume (k : Fin 2) (i : Fin 4) (expired : Bool)
  | busOffRecovery (k : Fin 2)
  | canCntClr (w : Writer) (k : Fin 2) (v : Byte)
  | erroredFrame (p : Fin 4)
  | grandmasterSync
  | announceReceiptTimeout (p : Fin 4)
  /-- PDELAY_RESPONSE: the request's sequence number, and its arrival and the answer's departure in host line time. -/
  | pdelayResponse (p : Fin 4) (seq : BitVec 16) (t2 t3 : BitVec 64)
  /-- CAN_BUS_ERROR: an error while the controller sends, or while it receives. -/
  | canBusError (k : Fin 2) (tx : Bool)
  | sto (w : Writer)
  | ss1 (w : Writer)
  | ss1Timeout
  | safRelease (w : Writer) (v : Word)
  /-- CLOCK_MONITOR_FAULT: 0 to 3 for causes 2 to 5, 4 for cause 16 (R488). -/
  | clockMonitorFault (k : Fin 5)
  | causeCleared (n : Fin 22)
  /-- STO_TEST_PULSE: the line (false STO_A, true STO_B) and whether both readbacks came in time (R485). -/
  | stoTestPulse (b ok : Bool)
  | stoReadbackFault
  | kaReadbackFault
  | overtemp
  | safWdKick (w : Writer) (key : BitVec 16)
  | fieldWatchdogExpiry
  | fieldWatchdogWarning
  | safDiagSeq (w : Writer) (v : Word)
  | diagIntervalExpiry
  | safKeyCommit (w : Writer) (v : Word)
  | blowDbgLock (w : Writer)
  | blowSafLock (w : Writer)
  | safLogAppend (w : Writer) (v : Word)
  | logRecordWrite
  | safCntClr (w : Writer) (v : Byte)
  /-- POR: the side, and the voltages measured (R506): bank i at 3.3 V, bank i below 1.2 V, VDDIO_H at 3.3 V. -/
  | por (side : Side) (bank33 unpowered : Byte) (vddio33 : Bool)
  | bor (side : Side)
  /-- PIN: how long nRST was held low, in ns (R538). -/
  | pin (side : Side) (ns : Nat)
  | wdr (side : Side)
  | swsOwn (w : Writer) (side : Side)
  | swsOther (w : Writer) (side : Side)
  | swf (w : Writer) (side : Side)
  | railWarningAssert (r : Fin 20)
  | railWarningDeassert (r : Fin 20)
  | pwrRearm (w : Writer) (v : Byte)
  | holdRequest (w : Writer)
  | runRequest (w : Writer)
  | sleepRequest (w : Writer)
  | sleepEntry
  /-- WAKE: by a barrier training set when `bar`, else by a Belfry source (R523). -/
  | wake (bar : Bool)
  | wakeStage
  | hostSleepRequest (w : Writer)
  | hostSleepEntry
  | hostWake (bar : Bool)
  | hostWdKick (w : Writer) (key : BitVec 16)
  | hostWatchdogExpiry
  | hostWatchdogWarning
  | creditAdd
  | governorGrant
  | pwrUnitStop (w : Writer) (v : BitVec 16)
  | reloadField (w : Writer)
  | bootkeyCommit (w : Writer) (v : Word)
  /-- PCIE_STATE_CHANGE: link up, PERST# asserted, MSI-X enabled at the function. -/
  | pcieStateChange (up perst msix : Bool)
deriving DecidableEq, Repr

end Sys2Proof
end

