-- ==== Sys2Proof/Decode.lean ====
section
/-! DEFINITION. Commands by the bits of the table. No row of spec/opcode_table.json gives a command bits, so no word spells
one. -/

namespace Sys2Proof

/-- The command that a word of `nbits` bits spells: none, for the table gives no row any bits. -/
def decodeTableWord (_nbits _w : Nat) : Option Instr := none

end Sys2Proof
end

