-- ==== Sys2Proof/Machine/Maps.lean ====
section
/-! DEFINITION. Sparse maps from numbers to values, kept as lists with strictly rising keys and no entry equal to what an
unlisted key reads as, so that equal contents are equal data. Registers, memories and per-unit records all use them. -/

namespace Sys2Proof.Machine

/-- What key `k` holds; `d` where the list has no entry. -/
def mapGet {α : Type} (d : α) (k : Nat) : List (Nat × α) → α
  | [] => d
  | (a, v) :: rest => if k = a then v else mapGet d k rest

/-- Puts `v` at key `k` whatever the default is, keeping the keys rising. -/
def mapPut {α : Type} (k : Nat) (v : α) : List (Nat × α) → List (Nat × α)
  | [] => [(k, v)]
  | (a, w) :: rest =>
    if k = a then (k, v) :: rest
    else if k < a then (k, v) :: (a, w) :: rest
    else (a, w) :: mapPut k v rest

/-- Removes key `k`. -/
def mapDel {α : Type} (k : Nat) : List (Nat × α) → List (Nat × α)
  | [] => []
  | (a, w) :: rest => if k = a then mapDel k rest else (a, w) :: mapDel k rest

/-- Writes `v` at key `k`; writing the default removes the entry. -/
def mapSet {α : Type} [DecidableEq α] (d : α) (k : Nat) (v : α) (l : List (Nat × α)) : List (Nat × α) :=
  if v = d then mapDel k l else mapPut k v l

/-- The keys rise strictly. -/
def mapSorted {α : Type} : List (Nat × α) → Bool
  | [] => true
  | [_] => true
  | (a, _) :: (b, w) :: rest => a < b && mapSorted ((b, w) :: rest)

/-- The canonical form: keys rise strictly and no entry holds the default. -/
def mapWf {α : Type} [DecidableEq α] (d : α) (l : List (Nat × α)) : Bool :=
  mapSorted l && l.all (fun e => !decide (e.2 = d))

/-! ## Bit fields, signed numbers and byte strings -/

/-- The bits [hi:lo] of a number (R9). -/
def bits (hi lo v : Nat) : Nat := v / 2 ^ lo % 2 ^ (hi + 1 - lo)

/-- Whether bit `i` of a number is 1. -/
def bit (i v : Nat) : Bool := v / 2 ^ i % 2 == 1

/-- A number with bit `i` set. -/
def setBit (i v : Nat) : Nat := if bit i v then v else v + 2 ^ i

/-- A number with bit `i` clear. -/
def clrBit (i v : Nat) : Nat := if bit i v then v - 2 ^ i else v

/-- A number with bit `i` as told. -/
def putBit (i : Nat) (b : Bool) (v : Nat) : Nat := if b then setBit i v else clrBit i v

/-- A number with its bits [hi:lo] replaced. -/
def putBits (hi lo x v : Nat) : Nat :=
  v % 2 ^ lo + (x % 2 ^ (hi + 1 - lo)) * 2 ^ lo + v / 2 ^ (hi + 1) * 2 ^ (hi + 1)

def boolNat (b : Bool) : Nat := if b then 1 else 0

/-- The two's-complement value of an n-bit number. -/
def toSigned (n v : Nat) : Int :=
  let u := v % 2 ^ n
  if u < 2 ^ (n - 1) then (u : Int) else (u : Int) - (2 ^ n : Nat)

/-- The n-bit two's-complement pattern of an integer. -/
def ofSigned (n : Nat) (i : Int) : Nat := (i % ((2 ^ n : Nat) : Int)).toNat

/-- An integer held to a range. -/
def clampInt (lo hi v : Int) : Int := if v < lo then lo else if hi < v then hi else v

/-- An integer saturated to n-bit two's complement. -/
def satSigned (n : Nat) (v : Int) : Int :=
  clampInt (-((2 ^ (n - 1) : Nat) : Int)) (((2 ^ (n - 1) : Nat) : Int) - 1) v

/-- Rounding to the nearest integer, halves away from zero upward for positives and downward for negatives. -/
def ratRound (r : Rat) : Int :=
  if r < 0 then -(((-r) + 1 / 2).floor) else (r + 1 / 2).floor

/-- Rounding up. -/
def ratCeil (r : Rat) : Int := -((-r).floor)

/-- The little-endian value of a byte string (R9). -/
def leNat : List Byte → Nat
  | [] => 0
  | b :: rest => b.toNat + 256 * leNat rest

/-- The n-byte little-endian string of a number. -/
def toLe : Nat → Nat → List Byte
  | 0, _ => []
  | n + 1, v => BitVec.ofNat 8 v :: toLe n (v / 256)

/-- The n-byte big-endian string of a number. -/
def toBe (n v : Nat) : List Byte := (toLe n v).reverse

/-- The value of n bytes at an offset; bytes past the end count as 0. -/
def fieldAt (off n : Nat) (l : List Byte) : Nat := leNat ((l.drop off).take n)

/-! ## Check sums -/

/-- One bit step of a CRC that shifts to the left. -/
def crcLeftBits (width poly : Nat) : Nat → Nat → Nat
  | 0, c => c
  | n + 1, c =>
    let c2 := c * 2 % 2 ^ width
    crcLeftBits width poly n (if bit (width - 1) c then c2 ^^^ poly else c2)

/-- CRC-16 without reflection or final XOR (R57, R427). -/
def crc16 (poly init : Nat) (l : List Byte) : Nat :=
  l.foldl (fun c b => crcLeftBits 16 poly 8 (c ^^^ (b.toNat * 256))) init

/-- One bit step of the reflected CRC-32. -/
def crc32Bits : Nat → Nat → Nat
  | 0, c => c
  | n + 1, c => crc32Bits n (if c % 2 = 1 then (c / 2) ^^^ 0xEDB88320 else c / 2)

/-- CRC-32 of IEEE 802.3 (R64, R418). -/
def crc32 (l : List Byte) : Nat :=
  (l.foldl (fun c b => crc32Bits 8 (c ^^^ b.toNat)) 0xFFFFFFFF) ^^^ 0xFFFFFFFF

end Sys2Proof.Machine
end

