-- ==== Sys2Proof/Config.lean ====
section
/-! DEFINITION. What one part fixes at manufacture, and the values the spec leaves open. None of these has a body a proof
could look into: a statement that mentions one holds for every value of it. -/

namespace Sys2Proof.Config

/-- A fresh value where the spec states none: the n-th free value of a run, taken from the counter in State (log 3). -/
opaque freeValue : Nat → Nat

/-- DIC_SILICON_REV, "Per part" (R79). -/
opaque siliconRev : Nat

/-- DIC_SERIAL, "Per part" (R79). -/
opaque serial : Nat

/-- DIC_BOOTROM_VER, "Per part" (R79). -/
opaque bootromVer : Nat

/-- BAR lane asymmetry measured at manufacture, "Per part" (R433, R550). -/
opaque laneAsym : Nat

/-- The input of a trip comparator of octet `o` (class B when `b`) in tick `t`, in steps of its threshold DAC, where no command states
it (R294, R295). -/
opaque tripInput : Nat → Bool → Nat → Rat

/-- The clock identity and the clock quality (class, accuracy, variance) that the module announces as a grandmaster: values of
IEEE 802.1AS the spec does not give (R444). -/
opaque clockIdentity : Nat
opaque clockQuality : Nat

/-- The byte at an address of the boot ROM of the host side and of the field side: contents the spec does not give (R32, R33). -/
opaque hostRom : Nat → Nat
opaque keepRom : Nat → Nat

/-- What the field trace buffer holds at the n-th read of it: the spec says neither what is recorded nor what a record holds (R68). -/
opaque trace : Nat → List (BitVec 8)

/-- Where the cam store keeps its nodes, by what the profile directory holds (profile, version, active and retiring nodes): for a block
of 32 bytes the profile, whether it is the retiring version's, and the node; none for a block that holds no node (R32, R186). -/
opaque camPlace : List (Nat × Nat × Nat × Nat) → Nat → Option (Nat × Bool × Nat)

/-- A byte of the cam store that belongs to no node. -/
opaque camSpare : List (Nat × Nat × Nat × Nat) → Nat → Nat

/-- SCREENED in DIC_FUSES, "Per part" (R79). -/
opaque screened : Bool

end Sys2Proof.Config
end

