-- ==== Sys2Proof/Machine/Objects.lean ====
section
/-! DEFINITION. The object dictionary of the JX8128 (chapter 2 and every object table of the other chapters): for every
object its name, place, type, access code, default and retention class, and the range its own row or bit table gives.
Every register of the machine is one of these objects. Rows that stand for several instances carry the strides of R10's
index arithmetic. -/

namespace Sys2Proof.Machine

/-- Where an object lives and what it holds until something writes it (R47, R48). -/
structure Obj where
  idx : Nat
  sub : Nat
  dflt : Nat
deriving DecidableEq, Repr

/-- One number for an object's index and subindex. -/
def Obj.key (o : Obj) : Nat := o.idx * 256 + o.sub

/-- The types of R13, by width and signedness (ANG32 is a U32, POS64 an I64, TIME64 and LT64 are U64). -/
inductive Ty where
  | bool | u8 | u16 | u32 | u64 | i16 | i32 | i64 | str | dom
deriving DecidableEq, Repr

/-- The access codes of R14 without the M- prefix, which `Row.mach` holds. -/
inductive Acc where
  | ro | rw | wo | rws | w1c | w1s
deriving DecidableEq, Repr

/-- The retention classes of R18. -/
inductive Ret where
  | k | w | s | v | r
deriving DecidableEq, Repr

/-- The ranges that depend on more than the written number, one name per object row that states one. -/
inductive Rel where
  | align32 | axCfg | axMaster | belSrc | chInCfg | chMode | chPfCfg | chPinCfg | chPtCfg | chSdCfg | chanOrNone | ctxCfg | ctxPins | dtMax | evtPolicy | evtRepeat | fieldReq | fuseCmd | gtCtrl | gtRun | hostReq | inrushCost | inrushMax | keeprun | ltStep | ocuBind | ocuGate | outLead | pairOvr | planWin | plausPartner | portMode | profNext | pwmCfg | pwmChOff | pwmPeriod | pwmPeriodImm | quadHyst | rearm | redExpire | safReact | sprRelease | syncLog | trpCfg | txOff | unitStop | wdMaxF | wdMaxH | wdMinF | wdMinH | whlMode
deriving DecidableEq, Repr

/-- The range an object's row gives (R59 check 14): anything its type holds, only bits of a mask (the bits a bit table
shows as 0 are 0 in every value of the object: DEDUCED, log 7), an inclusive range, or a rule that reads other state. -/
inductive Chk where
  | any
  | bits (mask : Nat)
  | range (lo hi : Nat)
  | rel (r : Rel)
deriving DecidableEq, Repr

/-- One row of an object table. Index `base + s1 * i + s2 * j` for i below n1 and j below n2; subindex `sub + sstep * t`
for t below nsub. -/
structure Row where
  base : Nat
  s1 : Nat
  n1 : Nat
  s2 : Nat
  n2 : Nat
  sub : Nat
  nsub : Nat
  sstep : Nat
  ty : Ty
  acc : Acc
  mach : Bool
  dflt : Nat
  ret : Ret
  chk : Chk
deriving DecidableEq, Repr

/-- A row of objects with one instance each. -/
def row0 (base sub : Nat) (ty : Ty) (acc : Acc) (mach : Bool) (dflt : Nat) (ret : Ret) (chk : Chk) : Row :=
  ⟨base, 1, 1, 1, 1, sub, 1, 1, ty, acc, mach, dflt, ret, chk⟩

/-- A row of objects with `n` instances, `s` indices apart. -/
def row1 (base s n sub : Nat) (ty : Ty) (acc : Acc) (mach : Bool) (dflt : Nat) (ret : Ret) (chk : Chk) : Row :=
  ⟨base, s, n, 1, 1, sub, 1, 1, ty, acc, mach, dflt, ret, chk⟩

/-! ## The objects by name -/

namespace R

def WHL_TOOTH_TBL (d : Nat) : Obj := ⟨0x5000 + d, 0x00, 0⟩
def CAM_PROFILE_GRP (i : Nat) : Obj := ⟨0x5100 + i, 0x00, 0x10⟩
def CAM_PROFILE (i : Nat) (t : Nat) : Obj := ⟨0x5100 + i, 0x01 + t, 0⟩
def TUR_PROGRAM (e : Nat) : Obj := ⟨0x5200 + e, 0x00, 0⟩
def DBG_TRACE : Obj := ⟨0x5300, 0x00, 0⟩
def DIC_ID_COUNT : Obj := ⟨0x1000, 0x00, 0xb⟩
def DIC_VENDOR_ID : Obj := ⟨0x1000, 0x01, 0x537a10⟩
def DIC_PRODUCT_CODE : Obj := ⟨0x1000, 0x02, 0x8128⟩
def DIC_ORDER_CODE : Obj := ⟨0x1000, 0x03, 0⟩
def DIC_SILICON_REV : Obj := ⟨0x1000, 0x04, Config.siliconRev⟩
def DIC_SERIAL : Obj := ⟨0x1000, 0x05, Config.serial⟩
def DIC_BOOTROM_VER : Obj := ⟨0x1000, 0x07, Config.bootromVer⟩
def DIC_HOST_FW_VER : Obj := ⟨0x1000, 0x08, 0⟩
def DIC_FIELD_FW_VER : Obj := ⟨0x1000, 0x09, 0⟩
def DIC_LAYOUT_VER : Obj := ⟨0x1000, 0x0A, 0x10000⟩
def DIC_FUSES : Obj := ⟨0x1000, 0x0B, 0⟩
def DIC_DEVICE_NAME : Obj := ⟨0x1008, 0x00, 0⟩
def DIC_NODE_NAME : Obj := ⟨0x1010, 0x00, 0⟩
def DIC_PERS_COUNT : Obj := ⟨0x1800, 0x00, 7⟩
def DIC_STORE : Obj := ⟨0x1800, 0x01, 0⟩
def DIC_RELOAD : Obj := ⟨0x1800, 0x02, 0⟩
def DIC_FACTORY : Obj := ⟨0x1800, 0x03, 0⟩
def DIC_PERS_STATUS : Obj := ⟨0x1800, 0x04, 0⟩
def DIC_STORE_COUNT : Obj := ⟨0x1800, 0x05, 0⟩
def DIC_STORED_BYTES : Obj := ⟨0x1800, 0x06, 0⟩
def DIC_PERS_ERRORS : Obj := ⟨0x1800, 0x07, 0⟩
def DIC_SVC_COUNT : Obj := ⟨0x1801, 0x00, 0xa⟩
def DIC_FWD_TIMEOUT : Obj := ⟨0x1801, 0x01, 0x32⟩
def DIC_DOMAIN_IDLE : Obj := ⟨0x1801, 0x02, 0x64⟩
def DIC_ROUTE_EN : Obj := ⟨0x1801, 0x03, 0x3f⟩
def DIC_ABORT_COUNT : Obj := ⟨0x1801, 0x04, 0⟩
def DIC_LAST_ABORT : Obj := ⟨0x1801, 0x05, 0⟩
def DIC_LAST_ABORT_OBJ : Obj := ⟨0x1801, 0x06, 0⟩
def DIC_FWD_TIMEOUTS : Obj := ⟨0x1801, 0x07, 0⟩
def DIC_MBX_REJECTS : Obj := ⟨0x1801, 0x08, 0⟩
def DIC_PCIE_DROPPED : Obj := ⟨0x1801, 0x09, 0⟩
def DIC_OPEN_HANDLES : Obj := ⟨0x1801, 0x0A, 0⟩
def FTB_COUNT : Obj := ⟨0x2000, 0x00, 6⟩
def FTB_NOW : Obj := ⟨0x2000, 0x01, 0⟩
def FTB_SLOW : Obj := ⟨0x2000, 0x03, 0⟩
def FTB_SLOW_COUNT : Obj := ⟨0x2000, 0x04, 0⟩
def FTB_SLOW_LAST : Obj := ⟨0x2000, 0x05, 0⟩
def LT_COUNT : Obj := ⟨0x2001, 0x00, 6⟩
def LT_NOW : Obj := ⟨0x2001, 0x01, 0⟩
def LT_ADDEND : Obj := ⟨0x2001, 0x03, 0x80000000⟩
def LT_STEP : Obj := ⟨0x2001, 0x04, 0⟩
def LT_STEP_COUNT : Obj := ⟨0x2001, 0x06, 0⟩
def LT_SERVO_COUNT : Obj := ⟨0x2002, 0x00, 9⟩
def LT_SERVO_MODE : Obj := ⟨0x2002, 0x01, 1⟩
def LT_KP : Obj := ⟨0x2002, 0x02, 0x80⟩
def LT_KI : Obj := ⟨0x2002, 0x03, 0x10⟩
def LT_STEP_THRESH : Obj := ⟨0x2002, 0x04, 0x3e8⟩
def LT_LOCK_THRESH : Obj := ⟨0x2002, 0x05, 0x14⟩
def LT_HOLDOVER : Obj := ⟨0x2002, 0x06, 3⟩
def LT_SERVO_STATUS : Obj := ⟨0x2002, 0x07, 0⟩
def LT_BEACON_ERR : Obj := ⟨0x2002, 0x08, 0⟩
def LT_INTEGRAL : Obj := ⟨0x2002, 0x09, 0⟩
def GT_COUNT_SUB (n : Nat) : Obj := ⟨0x2010 + n, 0x00, 8⟩
def GT_CTRL (n : Nat) : Obj := ⟨0x2010 + n, 0x01, 0⟩
def GT_UNLOCK (n : Nat) : Obj := ⟨0x2010 + n, 0x02, 0⟩
def GT_RUN (n : Nat) : Obj := ⟨0x2010 + n, 0x03, 0⟩
def GT_COUNT (n : Nat) : Obj := ⟨0x2010 + n, 0x04, 0⟩
def GT_CMP0 (n : Nat) : Obj := ⟨0x2010 + n, 0x05, 0⟩
def GT_CMP1 (n : Nat) : Obj := ⟨0x2010 + n, 0x06, 0⟩
def GT_STATUS (n : Nat) : Obj := ⟨0x2010 + n, 0x07, 0⟩
def GT_EVT_EN (n : Nat) : Obj := ⟨0x2010 + n, 0x08, 0⟩
def GT_PAIR_SUB (k : Nat) : Obj := ⟨0x2020 + k, 0x00, 6⟩
def GT_PAIR_COUNT (k : Nat) : Obj := ⟨0x2020 + k, 0x01, 0⟩
def GT_PAIR_CMP0 (k : Nat) : Obj := ⟨0x2020 + k, 0x03, 0⟩
def GT_PAIR_CMP1 (k : Nat) : Obj := ⟨0x2020 + k, 0x05, 0⟩
def WHL_CFG_SUB (d : Nat) : Obj := ⟨0x2100 + 16 * d, 0x00, 9⟩
def WHL_ENABLE (d : Nat) : Obj := ⟨0x2100 + 16 * d, 0x01, 0⟩
def WHL_UNLOCK (d : Nat) : Obj := ⟨0x2100 + 16 * d, 0x02, 0⟩
def WHL_MODE (d : Nat) : Obj := ⟨0x2100 + 16 * d, 0x03, 0⟩
def WHL_IN_A (d : Nat) : Obj := ⟨0x2100 + 16 * d, 0x04, 0xff⟩
def WHL_IN_B (d : Nat) : Obj := ⟨0x2100 + 16 * d, 0x05, 0xff⟩
def WHL_IN_IDX (d : Nat) : Obj := ⟨0x2100 + 16 * d, 0x06, 0xff⟩
def WHL_IN_DIR (d : Nat) : Obj := ⟨0x2100 + 16 * d, 0x07, 0xff⟩
def WHL_QUAD_DIV (d : Nat) : Obj := ⟨0x2100 + 16 * d, 0x08, 1⟩
def WHL_QUAD_HYST (d : Nat) : Obj := ⟨0x2100 + 16 * d, 0x09, 1⟩
def WHL_VAL_SUB (d : Nat) : Obj := ⟨0x2101 + 16 * d, 0x00, 9⟩
def WHL_WIN_LO (d : Nat) : Obj := ⟨0x2101 + 16 * d, 0x01, 0x80⟩
def WHL_WIN_HI (d : Nat) : Obj := ⟨0x2101 + 16 * d, 0x02, 0x19a⟩
def WHL_BLANK_FRAC (d : Nat) : Obj := ⟨0x2101 + 16 * d, 0x03, 0x20⟩
def WHL_BLANK_MIN (d : Nat) : Obj := ⟨0x2101 + 16 * d, 0x04, 0x28⟩
def WHL_VIRT_MAX (d : Nat) : Obj := ⟨0x2101 + 16 * d, 0x05, 2⟩
def WHL_WIN_FAIL_MAX (d : Nat) : Obj := ⟨0x2101 + 16 * d, 0x06, 3⟩
def WHL_IDX_MISS_MAX (d : Nat) : Obj := ⟨0x2101 + 16 * d, 0x07, 2⟩
def WHL_SYNC_CONFIRM (d : Nat) : Obj := ⟨0x2101 + 16 * d, 0x08, 1⟩
def WHL_FW_TEETH (d : Nat) : Obj := ⟨0x2101 + 16 * d, 0x09, 4⟩
def WHL_DIR_SUB (d : Nat) : Obj := ⟨0x2102 + 16 * d, 0x00, 5⟩
def WHL_REV_CONFIRM (d : Nat) : Obj := ⟨0x2102 + 16 * d, 0x01, 2⟩
def WHL_FWD_CONFIRM (d : Nat) : Obj := ⟨0x2102 + 16 * d, 0x02, 4⟩
def WHL_STALL_TIMEOUT (d : Nat) : Obj := ⟨0x2102 + 16 * d, 0x03, 0xc350⟩
def WHL_STALL_KEEP (d : Nat) : Obj := ⟨0x2102 + 16 * d, 0x04, 1⟩
def WHL_DIR_RATIO (d : Nat) : Obj := ⟨0x2102 + 16 * d, 0x05, 0x20⟩
def WHL_PLAUS_SUB (d : Nat) : Obj := ⟨0x2103 + 16 * d, 0x00, 6⟩
def WHL_PLAUS_PARTNER (d : Nat) : Obj := ⟨0x2103 + 16 * d, 0x01, 0xff⟩
def WHL_PLAUS_NUM (d : Nat) : Obj := ⟨0x2103 + 16 * d, 0x02, 1⟩
def WHL_PLAUS_DEN (d : Nat) : Obj := ⟨0x2103 + 16 * d, 0x03, 1⟩
def WHL_PLAUS_OFFSET (d : Nat) : Obj := ⟨0x2103 + 16 * d, 0x04, 0⟩
def WHL_PLAUS_TOL (d : Nat) : Obj := ⟨0x2103 + 16 * d, 0x06, 0x800000⟩
def WHL_STAT_SUB (d : Nat) : Obj := ⟨0x2104 + 16 * d, 0x00, 8⟩
def WHL_STATE (d : Nat) : Obj := ⟨0x2104 + 16 * d, 0x01, 0⟩
def WHL_DIR (d : Nat) : Obj := ⟨0x2104 + 16 * d, 0x02, 0⟩
def WHL_FLAGS (d : Nat) : Obj := ⟨0x2104 + 16 * d, 0x03, 0⟩
def WHL_TOOTH_IDX (d : Nat) : Obj := ⟨0x2104 + 16 * d, 0x04, 0⟩
def WHL_TBL_LEN (d : Nat) : Obj := ⟨0x2104 + 16 * d, 0x05, 0⟩
def WHL_POOL_FREE (d : Nat) : Obj := ⟨0x2104 + 16 * d, 0x06, 0x4000⟩
def WHL_EVT (d : Nat) : Obj := ⟨0x2104 + 16 * d, 0x07, 0⟩
def WHL_EVT_EN (d : Nat) : Obj := ⟨0x2104 + 16 * d, 0x08, 0⟩
def WHL_EST_SUB (d : Nat) : Obj := ⟨0x2105 + 16 * d, 0x00, 8⟩
def WHL_ANGLE (d : Nat) : Obj := ⟨0x2105 + 16 * d, 0x01, 0⟩
def WHL_SPEED (d : Nat) : Obj := ⟨0x2105 + 16 * d, 0x02, 0⟩
def WHL_ACCEL (d : Nat) : Obj := ⟨0x2105 + 16 * d, 0x03, 0⟩
def WHL_POS (d : Nat) : Obj := ⟨0x2105 + 16 * d, 0x04, 0⟩
def WHL_LAST_EDGE (d : Nat) : Obj := ⟨0x2105 + 16 * d, 0x06, 0⟩
def WHL_PRED_INT (d : Nat) : Obj := ⟨0x2105 + 16 * d, 0x08, 0⟩
def WHL_CNT_SUB (d : Nat) : Obj := ⟨0x2106 + 16 * d, 0x00, 9⟩
def WHL_CNT_NOISE (d : Nat) : Obj := ⟨0x2106 + 16 * d, 0x01, 0⟩
def WHL_CNT_EARLY (d : Nat) : Obj := ⟨0x2106 + 16 * d, 0x02, 0⟩
def WHL_CNT_VIRT (d : Nat) : Obj := ⟨0x2106 + 16 * d, 0x03, 0⟩
def WHL_CNT_SYNCLOSS (d : Nat) : Obj := ⟨0x2106 + 16 * d, 0x04, 0⟩
def WHL_CNT_STALL (d : Nat) : Obj := ⟨0x2106 + 16 * d, 0x05, 0⟩
def WHL_CNT_POL (d : Nat) : Obj := ⟨0x2106 + 16 * d, 0x06, 0⟩
def WHL_CNT_IDX_MISS (d : Nat) : Obj := ⟨0x2106 + 16 * d, 0x07, 0⟩
def WHL_CNT_PLAUS (d : Nat) : Obj := ⟨0x2106 + 16 * d, 0x08, 0⟩
def WHL_CNT_CLR (d : Nat) : Obj := ⟨0x2106 + 16 * d, 0x09, 0⟩
def EVT_SUB (s : Nat) : Obj := ⟨0x2200 + s, 0x00, 0x16⟩
def EVT_ENABLE (s : Nat) : Obj := ⟨0x2200 + s, 0x01, 0⟩
def EVT_BIND (s : Nat) : Obj := ⟨0x2200 + s, 0x02, 0⟩
def EVT_TIMING (s : Nat) : Obj := ⟨0x2200 + s, 0x03, 0x100000000⟩
def EVT_REPEAT (s : Nat) : Obj := ⟨0x2200 + s, 0x05, 0x10002⟩
def EVT_CYCLE (s : Nat) : Obj := ⟨0x2200 + s, 0x06, 0⟩
def EVT_POLICY (s : Nat) : Obj := ⟨0x2200 + s, 0x07, 0x200⟩
def EVT_LEAD_MAX (s : Nat) : Obj := ⟨0x2200 + s, 0x08, 0x80000000⟩
def EVT_TOL (s : Nat) : Obj := ⟨0x2200 + s, 0x09, 8⟩
def EVT_CMD (s : Nat) : Obj := ⟨0x2200 + s, 0x0A, 0⟩
def EVT_STATUS (s : Nat) : Obj := ⟨0x2200 + s, 0x0B, 0⟩
def EVT_TARGET (s : Nat) : Obj := ⟨0x2200 + s, 0x0C, 0⟩
def EVT_START (s : Nat) : Obj := ⟨0x2200 + s, 0x0E, 0⟩
def EVT_EVT (s : Nat) : Obj := ⟨0x2200 + s, 0x10, 0⟩
def EVT_EVT_EN (s : Nat) : Obj := ⟨0x2200 + s, 0x11, 0⟩
def EVT_CNT_DONE (s : Nat) : Obj := ⟨0x2200 + s, 0x12, 0⟩
def EVT_CNT_MISS (s : Nat) : Obj := ⟨0x2200 + s, 0x13, 0⟩
def EVT_CNT_LATE (s : Nat) : Obj := ⟨0x2200 + s, 0x14, 0⟩
def EVT_CNT_REPOST (s : Nat) : Obj := ⟨0x2200 + s, 0x15, 0⟩
def EVT_CNT_CUT (s : Nat) : Obj := ⟨0x2200 + s, 0x16, 0⟩
def LAN_SUB : Obj := ⟨0x2600, 0x00, 0xc⟩
def LAN_RUN : Obj := ⟨0x2600, 0x01, 0⟩
def LAN_UNLOCK : Obj := ⟨0x2600, 0x02, 0⟩
def LAN_PLAN_WIN : Obj := ⟨0x2600, 0x03, 0x20000⟩
def LAN_STATUS : Obj := ⟨0x2600, 0x04, 0⟩
def LAN_EVT : Obj := ⟨0x2600, 0x05, 0⟩
def LAN_EVT_EN : Obj := ⟨0x2600, 0x06, 0⟩
def LAN_GRP : Obj := ⟨0x2600, 0x07, 0⟩
def LAN_DEMAND : Obj := ⟨0x2600, 0x08, 0⟩
def LAN_DEMAND_MAX : Obj := ⟨0x2600, 0x09, 0⟩
def LAN_CNT_OVL : Obj := ⟨0x2600, 0x0A, 0⟩
def LAN_CNT_ABANDON : Obj := ⟨0x2600, 0x0B, 0⟩
def LAN_CMD : Obj := ⟨0x2600, 0x0C, 0⟩
def LAN_DEC_SUB (n : Nat) : Obj := ⟨0x2610 + n, 0x00, 6⟩
def LAN_DEC_H (n : Nat) : Obj := ⟨0x2610 + n, 0x01, 0x100⟩
def LAN_DEC_NW (n : Nat) : Obj := ⟨0x2610 + n, 0x02, 0⟩
def LAN_DEC_NW_MAX (n : Nat) : Obj := ⟨0x2610 + n, 0x03, 0⟩
def LAN_DEC_NW_LIM (n : Nat) : Obj := ⟨0x2610 + n, 0x04, 0x1b4⟩
def LAN_DEC_LR_MAX (n : Nat) : Obj := ⟨0x2610 + n, 0x05, 0⟩
def LAN_DEC_SKIP (n : Nat) : Obj := ⟨0x2610 + n, 0x06, 0⟩
def LAN_PEND_SUB : Obj := ⟨0x2640, 0x00, 0x20⟩
def LAN_PEND (t : Nat) : Obj := ⟨0x2640, 0x01 + t, 0⟩
def CAM_SUB : Obj := ⟨0x2800, 0x00, 9⟩
def CAM_NODES_FREE : Obj := ⟨0x2800, 0x01, 0x800000⟩
def CAM_PROFILES : Obj := ⟨0x2800, 0x02, 0⟩
def CAM_CONT_TOL : Obj := ⟨0x2800, 0x03, 0x10⟩
def CAM_LOAD : Obj := ⟨0x2800, 0x04, 0⟩
def CAM_CNT_ECC_CORR : Obj := ⟨0x2800, 0x05, 0⟩
def CAM_CNT_ECC_FATAL : Obj := ⟨0x2800, 0x06, 0⟩
def CAM_EVT : Obj := ⟨0x2800, 0x07, 0⟩
def CAM_EVT_EN : Obj := ⟨0x2800, 0x08, 0⟩
def CAM_GRP : Obj := ⟨0x2800, 0x09, 0⟩
def VM_SUB (v : Nat) : Obj := ⟨0x2810 + v, 0x00, 0xa⟩
def VM_ENABLE (v : Nat) : Obj := ⟨0x2810 + v, 0x01, 0⟩
def VM_TARGET (v : Nat) : Obj := ⟨0x2810 + v, 0x02, 0⟩
def VM_ACCEL (v : Nat) : Obj := ⟨0x2810 + v, 0x03, 0x100⟩
def VM_DECEL (v : Nat) : Obj := ⟨0x2810 + v, 0x04, 0x100⟩
def VM_SPEED (v : Nat) : Obj := ⟨0x2810 + v, 0x05, 0⟩
def VM_POS (v : Nat) : Obj := ⟨0x2810 + v, 0x06, 0⟩
def VM_POS_SET (v : Nat) : Obj := ⟨0x2810 + v, 0x08, 0⟩
def VM_STATUS (v : Nat) : Obj := ⟨0x2810 + v, 0x0A, 0⟩
def NM_SUB (n : Nat) : Obj := ⟨0x2820 + n, 0x00, 8⟩
def NM_POS (n : Nat) : Obj := ⟨0x2820 + n, 0x01, 0⟩
def NM_SPEED (n : Nat) : Obj := ⟨0x2820 + n, 0x03, 0⟩
def NM_LT (n : Nat) : Obj := ⟨0x2820 + n, 0x04, 0⟩
def NM_TIMEOUT (n : Nat) : Obj := ⟨0x2820 + n, 0x06, 0x3e8⟩
def NM_VALID (n : Nat) : Obj := ⟨0x2820 + n, 0x07, 0⟩
def NM_CNT_STALE (n : Nat) : Obj := ⟨0x2820 + n, 0x08, 0⟩
def CAM_DIR_SUB (g : Nat) : Obj := ⟨0x2840 + g, 0x00, 0x80⟩
def CAM_DIR_STAT (g : Nat) (t : Nat) : Obj := ⟨0x2840 + g, 0x01 + t, 0⟩
def AX_SUB (a : Nat) : Obj := ⟨0x2900 + a, 0x00, 0x22⟩
def AX_RUN (a : Nat) : Obj := ⟨0x2900 + a, 0x01, 0⟩
def AX_UNLOCK (a : Nat) : Obj := ⟨0x2900 + a, 0x02, 0⟩
def AX_MASTER (a : Nat) : Obj := ⟨0x2900 + a, 0x03, 0⟩
def AX_CFG (a : Nat) : Obj := ⟨0x2900 + a, 0x04, 0x20⟩
def AX_PROFILE (a : Nat) : Obj := ⟨0x2900 + a, 0x05, 0⟩
def AX_PROF_NEXT (a : Nat) : Obj := ⟨0x2900 + a, 0x06, 0xffff⟩
def AX_GEAR_NUM (a : Nat) : Obj := ⟨0x2900 + a, 0x07, 1⟩
def AX_GEAR_DEN (a : Nat) : Obj := ⟨0x2900 + a, 0x08, 1⟩
def AX_PHASE (a : Nat) : Obj := ⟨0x2900 + a, 0x09, 0⟩
def AX_BASE (a : Nat) : Obj := ⟨0x2900 + a, 0x0B, 0⟩
def AX_EVAL_PER (a : Nat) : Obj := ⟨0x2900 + a, 0x0D, 0xfa0⟩
def AX_LOSS_TIME (a : Nat) : Obj := ⟨0x2900 + a, 0x0E, 0x3e8⟩
def AX_LOSS_DECEL (a : Nat) : Obj := ⟨0x2900 + a, 0x0F, 0x100⟩
def AX_CMD (a : Nat) : Obj := ⟨0x2900 + a, 0x10, 0⟩
def AX_STATE (a : Nat) : Obj := ⟨0x2900 + a, 0x11, 0⟩
def AX_POS (a : Nat) : Obj := ⟨0x2900 + a, 0x12, 0⟩
def AX_SPEED (a : Nat) : Obj := ⟨0x2900 + a, 0x14, 0⟩
def AX_ACCEL (a : Nat) : Obj := ⟨0x2900 + a, 0x15, 0⟩
def AX_MPOS (a : Nat) : Obj := ⟨0x2900 + a, 0x16, 0⟩
def AX_SEG (a : Nat) : Obj := ⟨0x2900 + a, 0x18, 0⟩
def AX_PROF_CUR (a : Nat) : Obj := ⟨0x2900 + a, 0x19, 0⟩
def AX_EVT (a : Nat) : Obj := ⟨0x2900 + a, 0x1A, 0⟩
def AX_EVT_EN (a : Nat) : Obj := ⟨0x2900 + a, 0x1B, 0⟩
def AX_CNT_EVAL (a : Nat) : Obj := ⟨0x2900 + a, 0x1C, 0⟩
def AX_CNT_NODE_LATE (a : Nat) : Obj := ⟨0x2900 + a, 0x1D, 0⟩
def AX_CNT_LOSS (a : Nat) : Obj := ⟨0x2900 + a, 0x1E, 0⟩
def AX_CNT_SWITCH (a : Nat) : Obj := ⟨0x2900 + a, 0x1F, 0⟩
def AX_LAST_EVAL (a : Nat) : Obj := ⟨0x2900 + a, 0x20, 0⟩
def AX_VDEC_STAT (a : Nat) : Obj := ⟨0x2900 + a, 0x22, 0⟩
def OCU_SUB (u : Nat) : Obj := ⟨0x2980 + u, 0x00, 0x1d⟩
def OCU_ENABLE (u : Nat) : Obj := ⟨0x2980 + u, 0x01, 0⟩
def OCU_UNLOCK (u : Nat) : Obj := ⟨0x2980 + u, 0x02, 0⟩
def OCU_BIND (u : Nat) : Obj := ⟨0x2980 + u, 0x03, 0xff000000⟩
def OCU_MODE (u : Nat) : Obj := ⟨0x2980 + u, 0x04, 0⟩
def OCU_EXPECT (u : Nat) : Obj := ⟨0x2980 + u, 0x05, 0⟩
def OCU_WIN (u : Nat) : Obj := ⟨0x2980 + u, 0x06, 0x1000000⟩
def OCU_GATE (u : Nat) : Obj := ⟨0x2980 + u, 0x07, 0x2000000⟩
def OCU_ALPHA (u : Nat) : Obj := ⟨0x2980 + u, 0x08, 0x10000⟩
def OCU_GAIN (u : Nat) : Obj := ⟨0x2980 + u, 0x09, 0x10000⟩
def OCU_DEADBAND (u : Nat) : Obj := ⟨0x2980 + u, 0x0A, 0⟩
def OCU_SLEW (u : Nat) : Obj := ⟨0x2980 + u, 0x0B, 0x100000⟩
def OCU_LIMIT (u : Nat) : Obj := ⟨0x2980 + u, 0x0C, 0x1000000⟩
def OCU_MISS_MAX (u : Nat) : Obj := ⟨0x2980 + u, 0x0D, 4⟩
def OCU_REACQ (u : Nat) : Obj := ⟨0x2980 + u, 0x0E, 2⟩
def OCU_FW_CORR (u : Nat) : Obj := ⟨0x2980 + u, 0x0F, 0⟩
def OCU_STATE (u : Nat) : Obj := ⟨0x2980 + u, 0x10, 0⟩
def OCU_ERR (u : Nat) : Obj := ⟨0x2980 + u, 0x11, 0⟩
def OCU_FILT (u : Nat) : Obj := ⟨0x2980 + u, 0x12, 0⟩
def OCU_ACC (u : Nat) : Obj := ⟨0x2980 + u, 0x13, 0⟩
def OCU_LAST_MARK (u : Nat) : Obj := ⟨0x2980 + u, 0x14, 0⟩
def OCU_EVT (u : Nat) : Obj := ⟨0x2980 + u, 0x16, 0⟩
def OCU_EVT_EN (u : Nat) : Obj := ⟨0x2980 + u, 0x17, 0⟩
def OCU_CNT_GOOD (u : Nat) : Obj := ⟨0x2980 + u, 0x18, 0⟩
def OCU_CNT_MISS (u : Nat) : Obj := ⟨0x2980 + u, 0x19, 0⟩
def OCU_CNT_DOUBLE (u : Nat) : Obj := ⟨0x2980 + u, 0x1A, 0⟩
def OCU_CNT_OUT (u : Nat) : Obj := ⟨0x2980 + u, 0x1B, 0⟩
def OCU_CNT_LIMIT (u : Nat) : Obj := ⟨0x2980 + u, 0x1C, 0⟩
def OCU_CNT_CLR (u : Nat) : Obj := ⟨0x2980 + u, 0x1D, 0⟩
def CH_CFG_SUB (c : Nat) : Obj := ⟨0x3000 + c, 0x00, 0xc⟩
def CH_EN (c : Nat) : Obj := ⟨0x3000 + c, 0x01, 0⟩
def CH_UNLOCK (c : Nat) : Obj := ⟨0x3000 + c, 0x02, 0⟩
def CH_MODE (c : Nat) : Obj := ⟨0x3000 + c, 0x03, 0⟩
def CH_PIN_CFG (c : Nat) : Obj := ⟨0x3000 + c, 0x04, 0⟩
def CH_SAFE_LVL (c : Nat) : Obj := ⟨0x3000 + c, 0x05, 2⟩
def CH_IN_CFG (c : Nat) : Obj := ⟨0x3000 + c, 0x06, 0⟩
def CH_OUT_CFG (c : Nat) : Obj := ⟨0x3000 + c, 0x07, 0⟩
def CH_GPIO_OUT (c : Nat) : Obj := ⟨0x3000 + c, 0x08, 0⟩
def CH_PF_CFG (c : Nat) : Obj := ⟨0x3000 + c, 0x09, 0xa0a00⟩
def CH_PT_CFG (c : Nat) : Obj := ⟨0x3000 + c, 0x0A, 0x404⟩
def CH_PT_STEPS (c : Nat) : Obj := ⟨0x3000 + c, 0x0B, 1⟩
def CH_SD_CFG (c : Nat) : Obj := ⟨0x3000 + c, 0x0C, 0xff5000⟩
def CH_STAT_SUB (c : Nat) : Obj := ⟨0x3080 + c, 0x00, 0x12⟩
def CH_LEVEL (c : Nat) : Obj := ⟨0x3080 + c, 0x01, 0⟩
def CH_OWNER (c : Nat) : Obj := ⟨0x3080 + c, 0x02, 0⟩
def CH_STATUS (c : Nat) : Obj := ⟨0x3080 + c, 0x03, 0⟩
def CH_EVT (c : Nat) : Obj := ⟨0x3080 + c, 0x04, 0⟩
def CH_EVT_EN (c : Nat) : Obj := ⟨0x3080 + c, 0x05, 0⟩
def CH_PERIOD (c : Nat) : Obj := ⟨0x3080 + c, 0x06, 0⟩
def CH_HIGH (c : Nat) : Obj := ⟨0x3080 + c, 0x07, 0⟩
def CH_FREQ (c : Nat) : Obj := ⟨0x3080 + c, 0x08, 0⟩
def CH_SD_RESULT (c : Nat) : Obj := ⟨0x3080 + c, 0x09, 0⟩
def CH_SD_STAMP (c : Nat) : Obj := ⟨0x3080 + c, 0x0A, 0⟩
def CH_PT_COUNT (c : Nat) : Obj := ⟨0x3080 + c, 0x0C, 0⟩
def CH_PT_LAG (c : Nat) : Obj := ⟨0x3080 + c, 0x0D, 0⟩
def CH_CNT_EVENTS (c : Nat) : Obj := ⟨0x3080 + c, 0x0E, 0⟩
def CH_CNT_DROP (c : Nat) : Obj := ⟨0x3080 + c, 0x0F, 0⟩
def CH_CNT_LATE (c : Nat) : Obj := ⟨0x3080 + c, 0x10, 0⟩
def CH_CNT_LOCKOUT (c : Nat) : Obj := ⟨0x3080 + c, 0x11, 0⟩
def CH_CNT_CLR (c : Nat) : Obj := ⟨0x3080 + c, 0x12, 0⟩
def CH_Q_SUB (c : Nat) : Obj := ⟨0x3100 + c, 0x00, 6⟩
def CH_Q_PUSH (c : Nat) : Obj := ⟨0x3100 + c, 0x01, 0⟩
def CH_Q_HEAD (c : Nat) : Obj := ⟨0x3100 + c, 0x03, 0⟩
def CH_Q_POP (c : Nat) : Obj := ⟨0x3100 + c, 0x05, 0⟩
def CH_Q_FLUSH (c : Nat) : Obj := ⟨0x3100 + c, 0x06, 0⟩
def MOV_SUB (m : Nat) : Obj := ⟨0x3180 + m, 0x00, 0xd⟩
def MOV_RUN (m : Nat) : Obj := ⟨0x3180 + m, 0x01, 0⟩
def MOV_DESC (m : Nat) : Obj := ⟨0x3180 + m, 0x02, 0⟩
def MOV_CMD (m : Nat) : Obj := ⟨0x3180 + m, 0x03, 0⟩
def MOV_STATE (m : Nat) : Obj := ⟨0x3180 + m, 0x04, 0⟩
def MOV_CUR (m : Nat) : Obj := ⟨0x3180 + m, 0x05, 0⟩
def MOV_REMAIN (m : Nat) : Obj := ⟨0x3180 + m, 0x06, 0⟩
def MOV_ERR (m : Nat) : Obj := ⟨0x3180 + m, 0x07, 0⟩
def MOV_ERR_ADDR (m : Nat) : Obj := ⟨0x3180 + m, 0x08, 0⟩
def MOV_EVT (m : Nat) : Obj := ⟨0x3180 + m, 0x09, 0⟩
def MOV_EVT_EN (m : Nat) : Obj := ⟨0x3180 + m, 0x0A, 0⟩
def MOV_CNT_DONE (m : Nat) : Obj := ⟨0x3180 + m, 0x0B, 0⟩
def MOV_CNT_TRIG_OVR (m : Nat) : Obj := ⟨0x3180 + m, 0x0C, 0⟩
def MOV_CNT_RING_DROP (m : Nat) : Obj := ⟨0x3180 + m, 0x0D, 0⟩
def PWM_SUB (o : Nat) : Obj := ⟨0x3400 + 16 * o, 0x00, 0xf⟩
def PWM_RUN (o : Nat) : Obj := ⟨0x3400 + 16 * o, 0x01, 0⟩
def PWM_UNLOCK (o : Nat) : Obj := ⟨0x3400 + 16 * o, 0x02, 0⟩
def PWM_CFG (o : Nat) : Obj := ⟨0x3400 + 16 * o, 0x03, 4⟩
def PWM_CH_MASK (o : Nat) : Obj := ⟨0x3400 + 16 * o, 0x04, 0⟩
def PWM_START_AT (o : Nat) : Obj := ⟨0x3400 + 16 * o, 0x05, 0⟩
def PWM_PERIOD (o : Nat) : Obj := ⟨0x3400 + 16 * o, 0x07, 0x30d400⟩
def PWM_PERIOD_IMM (o : Nat) : Obj := ⟨0x3400 + 16 * o, 0x08, 0⟩
def PWM_UPDATE_LOCK (o : Nat) : Obj := ⟨0x3400 + 16 * o, 0x09, 0⟩
def PWM_PMIN (o : Nat) : Obj := ⟨0x3400 + 16 * o, 0x0A, 0x190⟩
def PWM_CH_OFF (o : Nat) : Obj := ⟨0x3400 + 16 * o, 0x0B, 0⟩
def PWM_STATUS (o : Nat) : Obj := ⟨0x3400 + 16 * o, 0x0C, 0⟩
def PWM_COUNT (o : Nat) : Obj := ⟨0x3400 + 16 * o, 0x0D, 0⟩
def PWM_BOUNDARY (o : Nat) : Obj := ⟨0x3400 + 16 * o, 0x0E, 0⟩
def PWM_CH_SUB (o : Nat) (j : Nat) : Obj := ⟨0x3401 + 16 * o + j, 0x00, 5⟩
def PWM_DUTY (o : Nat) (j : Nat) : Obj := ⟨0x3401 + 16 * o + j, 0x01, 0⟩
def PWM_PHASE (o : Nat) (j : Nat) : Obj := ⟨0x3401 + 16 * o + j, 0x02, 0⟩
def PWM_DUTY_ACT (o : Nat) (j : Nat) : Obj := ⟨0x3401 + 16 * o + j, 0x03, 0⟩
def PWM_CARRY (o : Nat) (j : Nat) : Obj := ⟨0x3401 + 16 * o + j, 0x04, 0⟩
def PWM_CNT_SHORT (o : Nat) (j : Nat) : Obj := ⟨0x3401 + 16 * o + j, 0x05, 0⟩
def PWM_PAIR_SUB (o : Nat) (i : Nat) : Obj := ⟨0x3409 + 16 * o + i, 0x00, 0xd⟩
def PWM_DT_CFG (o : Nat) (i : Nat) : Obj := ⟨0x3409 + 16 * o + i, 0x01, 1⟩
def PWM_DT_NOM (o : Nat) (i : Nat) : Obj := ⟨0x3409 + 16 * o + i, 0x02, 0x4b0⟩
def PWM_DT_MIN (o : Nat) (i : Nat) : Obj := ⟨0x3409 + 16 * o + i, 0x03, 0xa0⟩
def PWM_DT_MAX (o : Nat) (i : Nat) : Obj := ⟨0x3409 + 16 * o + i, 0x04, 0x640⟩
def PWM_DT_MARGIN (o : Nat) (i : Nat) : Obj := ⟨0x3409 + 16 * o + i, 0x05, 0x78⟩
def PWM_DT_SLEW (o : Nat) (i : Nat) : Obj := ⟨0x3409 + 16 * o + i, 0x06, 0x28⟩
def PWM_SN_THRESH (o : Nat) (i : Nat) : Obj := ⟨0x3409 + 16 * o + i, 0x07, 0x20⟩
def PWM_PAIR_OVR (o : Nat) (i : Nat) : Obj := ⟨0x3409 + 16 * o + i, 0x08, 0⟩
def PWM_DT_R (o : Nat) (i : Nat) : Obj := ⟨0x3409 + 16 * o + i, 0x09, 0⟩
def PWM_DT_F (o : Nat) (i : Nat) : Obj := ⟨0x3409 + 16 * o + i, 0x0A, 0⟩
def PWM_SN_MEAS_R (o : Nat) (i : Nat) : Obj := ⟨0x3409 + 16 * o + i, 0x0B, 0xffff⟩
def PWM_SN_MEAS_F (o : Nat) (i : Nat) : Obj := ⟨0x3409 + 16 * o + i, 0x0C, 0xffff⟩
def PWM_CNT_NOSN (o : Nat) (i : Nat) : Obj := ⟨0x3409 + 16 * o + i, 0x0D, 0⟩
def PWM_EV_SUB (o : Nat) : Obj := ⟨0x340D + 16 * o, 0x00, 8⟩
def PWM_EVT (o : Nat) : Obj := ⟨0x340D + 16 * o, 0x01, 0⟩
def PWM_EVT_EN (o : Nat) : Obj := ⟨0x340D + 16 * o, 0x02, 0⟩
def PWM_BND_DIV (o : Nat) : Obj := ⟨0x340D + 16 * o, 0x03, 1⟩
def PWM_PCOUNT (o : Nat) : Obj := ⟨0x340D + 16 * o, 0x04, 0⟩
def PWM_CNT_LATE (o : Nat) : Obj := ⟨0x340D + 16 * o, 0x05, 0⟩
def PWM_CNT_HELD (o : Nat) : Obj := ⟨0x340D + 16 * o, 0x06, 0⟩
def PWM_CNT_CLIP (o : Nat) : Obj := ⟨0x340D + 16 * o, 0x07, 0⟩
def PWM_CNT_CLR (o : Nat) : Obj := ⟨0x340D + 16 * o, 0x08, 0⟩
def TRP_CFG_SUB (o : Nat) : Obj := ⟨0x3500 + o, 0x00, 0xc⟩
def TRP_CFG (o : Nat) : Obj := ⟨0x3500 + o, 0x01, 0⟩
def TRP_A_THRESH (o : Nat) : Obj := ⟨0x3500 + o, 0x02, 0x80⟩
def TRP_B_THRESH (o : Nat) : Obj := ⟨0x3500 + o, 0x03, 0x80⟩
def TRP_A_BLANK (o : Nat) : Obj := ⟨0x3500 + o, 0x04, 0x64⟩
def TRP_A_FILT (o : Nat) : Obj := ⟨0x3500 + o, 0x05, 2⟩
def TRP_B_FILT (o : Nat) : Obj := ⟨0x3500 + o, 0x06, 2⟩
def TRP_A_CUT (o : Nat) : Obj := ⟨0x3500 + o, 0x07, 0xff⟩
def TRP_B_CUT (o : Nat) : Obj := ⟨0x3500 + o, 0x08, 0xff⟩
def TRP_A_ESC (o : Nat) : Obj := ⟨0x3500 + o, 0x09, 0⟩
def TRP_B_ESC (o : Nat) : Obj := ⟨0x3500 + o, 0x0A, 1⟩
def TRP_RB_EN (o : Nat) : Obj := ⟨0x3500 + o, 0x0B, 0⟩
def TRP_RB_TOL (o : Nat) : Obj := ⟨0x3500 + o, 0x0C, 0x190⟩
def TRP_ST_SUB (o : Nat) : Obj := ⟨0x3510 + o, 0x00, 0xf⟩
def TRP_STATUS (o : Nat) : Obj := ⟨0x3510 + o, 0x01, 0⟩
def TRP_LAST (o : Nat) : Obj := ⟨0x3510 + o, 0x02, 0⟩
def TRP_LATCH_CAUSE (o : Nat) : Obj := ⟨0x3510 + o, 0x04, 0⟩
def TRP_RB_CH (o : Nat) : Obj := ⟨0x3510 + o, 0x05, 0⟩
def TRP_REARM (o : Nat) : Obj := ⟨0x3510 + o, 0x06, 0⟩
def TRP_REARM_RB (o : Nat) : Obj := ⟨0x3510 + o, 0x07, 0⟩
def TRP_CMD (o : Nat) : Obj := ⟨0x3510 + o, 0x08, 0⟩
def TRP_EVT (o : Nat) : Obj := ⟨0x3510 + o, 0x09, 0⟩
def TRP_EVT_EN (o : Nat) : Obj := ⟨0x3510 + o, 0x0A, 0⟩
def TRP_CNT_A (o : Nat) : Obj := ⟨0x3510 + o, 0x0B, 0⟩
def TRP_CNT_B (o : Nat) : Obj := ⟨0x3510 + o, 0x0C, 0⟩
def TRP_CNT_ESC (o : Nat) : Obj := ⟨0x3510 + o, 0x0D, 0⟩
def TRP_CNT_RB (o : Nat) : Obj := ⟨0x3510 + o, 0x0E, 0⟩
def TRP_CNT_BW (o : Nat) : Obj := ⟨0x3510 + o, 0x0F, 0⟩
def TRP_KR_SUB : Obj := ⟨0x3520, 0x00, 8⟩
def TRP_KEEPRUN (t : Nat) : Obj := ⟨0x3520, 0x01 + t, 0xff⟩
def TUR_SUB (e : Nat) : Obj := ⟨0x3800 + 16 * e, 0x00, 0xc⟩
def TUR_RUN (e : Nat) : Obj := ⟨0x3800 + 16 * e, 0x01, 0⟩
def TUR_STATE (e : Nat) : Obj := ⟨0x3800 + 16 * e, 0x02, 0⟩
def TUR_STATUS (e : Nat) : Obj := ⟨0x3800 + 16 * e, 0x03, 0⟩
def TUR_PROG_GEN (e : Nat) : Obj := ⟨0x3800 + 16 * e, 0x04, 0⟩
def TUR_PROG_LEN (e : Nat) : Obj := ⟨0x3800 + 16 * e, 0x05, 0⟩
def TUR_STICKY (e : Nat) : Obj := ⟨0x3800 + 16 * e, 0x06, 0⟩
def TUR_FLAG_SET (e : Nat) : Obj := ⟨0x3800 + 16 * e, 0x07, 0⟩
def TUR_FLAG_CLR (e : Nat) : Obj := ⟨0x3800 + 16 * e, 0x08, 0⟩
def TUR_EVT (e : Nat) : Obj := ⟨0x3800 + 16 * e, 0x09, 0⟩
def TUR_EVT_EN (e : Nat) : Obj := ⟨0x3800 + 16 * e, 0x0A, 0⟩
def TUR_EVT_CTX (e : Nat) : Obj := ⟨0x3800 + 16 * e, 0x0B, 0⟩
def TUR_CNT_ECC (e : Nat) : Obj := ⟨0x3800 + 16 * e, 0x0C, 0⟩
def TUR_XF_SUB : Obj := ⟨0x380F, 0x00, 2⟩
def TUR_XFLAG_SET : Obj := ⟨0x380F, 0x01, 0⟩
def TUR_XFLAG_CLR : Obj := ⟨0x380F, 0x02, 0⟩
def CTX_SUB (x : Nat) : Obj := ⟨0x3880 + x, 0x00, 0x23⟩
def CTX_RUN (x : Nat) : Obj := ⟨0x3880 + x, 0x01, 0⟩
def CTX_UNLOCK (x : Nat) : Obj := ⟨0x3880 + x, 0x02, 0⟩
def CTX_RESTART (x : Nat) : Obj := ⟨0x3880 + x, 0x03, 0⟩
def CTX_CMD (x : Nat) : Obj := ⟨0x3880 + x, 0x04, 0⟩
def CTX_ENTRY (x : Nat) : Obj := ⟨0x3880 + x, 0x05, 0⟩
def CTX_CFG (x : Nat) : Obj := ⟨0x3880 + x, 0x06, 0xcffc0⟩
def CTX_CRC_POLY (x : Nat) : Obj := ⟨0x3880 + x, 0x07, 7⟩
def CTX_PINS_LO (x : Nat) : Obj := ⟨0x3880 + x, 0x08, 0xffffffff⟩
def CTX_PINS_HI (x : Nat) : Obj := ⟨0x3880 + x, 0x09, 0xffffffff⟩
def CTX_PIN_INIT (x : Nat) : Obj := ⟨0x3880 + x, 0x0A, 0⟩
def CTX_STATE (x : Nat) : Obj := ⟨0x3880 + x, 0x0B, 0⟩
def CTX_PC (x : Nat) : Obj := ⟨0x3880 + x, 0x0C, 0⟩
def CTX_X (x : Nat) : Obj := ⟨0x3880 + x, 0x0D, 0⟩
def CTX_Y (x : Nat) : Obj := ⟨0x3880 + x, 0x0E, 0⟩
def CTX_S (x : Nat) (t : Nat) : Obj := ⟨0x3880 + x, 0x0F + t, 0⟩
def CTX_ISR (x : Nat) : Obj := ⟨0x3880 + x, 0x13, 0⟩
def CTX_OSR (x : Nat) : Obj := ⟨0x3880 + x, 0x14, 0⟩
def CTX_SHCNT (x : Nat) : Obj := ⟨0x3880 + x, 0x15, 0⟩
def CTX_TS (x : Nat) : Obj := ⟨0x3880 + x, 0x16, 0⟩
def CTX_GEN (x : Nat) : Obj := ⟨0x3880 + x, 0x17, 0⟩
def CTX_PINLVL (x : Nat) : Obj := ⟨0x3880 + x, 0x18, 0⟩
def CTX_Q (x : Nat) : Obj := ⟨0x3880 + x, 0x19, 0⟩
def CTX_TXQ_PUSH (x : Nat) : Obj := ⟨0x3880 + x, 0x1A, 0⟩
def CTX_RXQ_HEAD (x : Nat) : Obj := ⟨0x3880 + x, 0x1B, 0⟩
def CTX_RXQ_POP (x : Nat) : Obj := ⟨0x3880 + x, 0x1C, 0⟩
def CTX_Q_FLUSH (x : Nat) : Obj := ⟨0x3880 + x, 0x1D, 0⟩
def CTX_STICKY (x : Nat) : Obj := ⟨0x3880 + x, 0x1E, 0⟩
def CTX_FAULT (x : Nat) : Obj := ⟨0x3880 + x, 0x1F, 0⟩
def CTX_EVT (x : Nat) : Obj := ⟨0x3880 + x, 0x20, 0⟩
def CTX_EVT_EN (x : Nat) : Obj := ⟨0x3880 + x, 0x21, 0⟩
def CTX_CNT_LATE (x : Nat) : Obj := ⟨0x3880 + x, 0x22, 0⟩
def CTX_CNT_TX_DROP (x : Nat) : Obj := ⟨0x3880 + x, 0x23, 0⟩
def SPR_SUB (n : Nat) : Obj := ⟨0x1B00 + n, 0x00, 0xa⟩
def SPR_STATE (n : Nat) : Obj := ⟨0x1B00 + n, 0x01, 0⟩
def SPR_RELEASE (n : Nat) : Obj := ⟨0x1B00 + n, 0x02, 0⟩
def SPR_RESTART_CAUSE (n : Nat) : Obj := ⟨0x1B00 + n, 0x03, 1⟩
def SPR_LAST_ESC (n : Nat) : Obj := ⟨0x1B00 + n, 0x04, 0⟩
def SPR_LAST_ESC_PC (n : Nat) : Obj := ⟨0x1B00 + n, 0x05, 0⟩
def SPR_CNT_ESC (n : Nat) : Obj := ⟨0x1B00 + n, 0x06, 0⟩
def SPR_CNT_DOUBLE (n : Nat) : Obj := ⟨0x1B00 + n, 0x07, 0⟩
def SPR_CNT_ECC_CORR (n : Nat) : Obj := ⟨0x1B00 + n, 0x08, 0⟩
def SPR_CNT_ECC_FATAL (n : Nat) : Obj := ⟨0x1B00 + n, 0x09, 0⟩
def SPR_CNT_CLR (n : Nat) : Obj := ⟨0x1B00 + n, 0x0A, 0⟩
def KEEP_SUB : Obj := ⟨0x3F00, 0x00, 0xa⟩
def KEEP_STATE : Obj := ⟨0x3F00, 0x01, 0⟩
def KEEP_RESTART_CAUSE : Obj := ⟨0x3F00, 0x02, 1⟩
def KEEP_LAST_ESC : Obj := ⟨0x3F00, 0x03, 0⟩
def KEEP_LAST_ESC_PC : Obj := ⟨0x3F00, 0x04, 0⟩
def KEEP_CNT_ESC : Obj := ⟨0x3F00, 0x05, 0⟩
def KEEP_CNT_DOUBLE : Obj := ⟨0x3F00, 0x06, 0⟩
def KEEP_CNT_ECC_CORR : Obj := ⟨0x3F00, 0x07, 0⟩
def KEEP_CNT_ECC_FATAL : Obj := ⟨0x3F00, 0x08, 0⟩
def KEEP_CNT_LS : Obj := ⟨0x3F00, 0x09, 0⟩
def KEEP_CNT_CLR : Obj := ⟨0x3F00, 0x0A, 0⟩
def DBG_SUB : Obj := ⟨0x3F01, 0x00, 1⟩
def DBG_TRACE_LOST : Obj := ⟨0x3F01, 0x01, 0⟩
def BEL_SRC_SUB (id : Nat) : Obj := ⟨0x3C00 + id, 0x00, 1⟩
def BEL_SRC_CFG (id : Nat) : Obj := ⟨0x3C00 + id, 0x01, 0⟩
def BEL_SRC_SUB_H (i : Nat) : Obj := ⟨0x1A80 + i, 0x00, 1⟩
def BEL_SRC_CFG_H (i : Nat) : Obj := ⟨0x1A80 + i, 0x01, 0⟩
def BEL_F_SUB : Obj := ⟨0x3E00, 0x00, 7⟩
def BEL_H_SUB : Obj := ⟨0x1A00, 0x00, 7⟩
def BEL_F_CNT_SAT : Obj := ⟨0x3E00, 0x01, 0⟩
def BEL_H_CNT_SAT : Obj := ⟨0x1A00, 0x01, 0⟩
def BEL_F_CNT_SPUR : Obj := ⟨0x3E00, 0x02, 0⟩
def BEL_H_CNT_SPUR : Obj := ⟨0x1A00, 0x02, 0⟩
def BEL_F_CNT_BADCOMP : Obj := ⟨0x3E00, 0x03, 0⟩
def BEL_H_CNT_BADCOMP : Obj := ⟨0x1A00, 0x03, 0⟩
def BEL_F_CNT_FWD_TX : Obj := ⟨0x3E00, 0x04, 0⟩
def BEL_H_CNT_FWD_TX : Obj := ⟨0x1A00, 0x04, 0⟩
def BEL_F_CNT_FWD_RX : Obj := ⟨0x3E00, 0x05, 0⟩
def BEL_H_CNT_FWD_RX : Obj := ⟨0x1A00, 0x05, 0⟩
def BEL_F_CNT_FWD_LOST : Obj := ⟨0x3E00, 0x06, 0⟩
def BEL_H_CNT_FWD_LOST : Obj := ⟨0x1A00, 0x06, 0⟩
def BEL_F_CNT_CLR : Obj := ⟨0x3E00, 0x07, 0⟩
def BEL_H_CNT_CLR : Obj := ⟨0x1A00, 0x07, 0⟩
def BEL_F_MAP_SUB : Obj := ⟨0x3E01, 0x00, 0x10⟩
def BEL_H_MAP_SUB : Obj := ⟨0x1A01, 0x00, 0x10⟩
def BEL_F_EN_SET (t : Nat) : Obj := ⟨0x3E01, 0x01 + t, 0⟩
def BEL_H_EN_SET (t : Nat) : Obj := ⟨0x1A01, 0x01 + t, 0⟩
def BEL_F_EN_CLR (t : Nat) : Obj := ⟨0x3E02, 0x01 + t, 0⟩
def BEL_H_EN_CLR (t : Nat) : Obj := ⟨0x1A02, 0x01 + t, 0⟩
def BEL_F_PEND_SET (t : Nat) : Obj := ⟨0x3E03, 0x01 + t, 0⟩
def BEL_H_PEND_SET (t : Nat) : Obj := ⟨0x1A03, 0x01 + t, 0⟩
def BEL_F_PEND_CLR (t : Nat) : Obj := ⟨0x3E04, 0x01 + t, 0⟩
def BEL_H_PEND_CLR (t : Nat) : Obj := ⟨0x1A04, 0x01 + t, 0⟩
def BEL_F_INSVC (t : Nat) : Obj := ⟨0x3E05, 0x01 + t, 0⟩
def BEL_H_INSVC (t : Nat) : Obj := ⟨0x1A05, 0x01 + t, 0⟩
def BEL_F_CNT_SUB : Obj := ⟨0x3E06, 0x00, 0x40⟩
def BEL_H_CNT_SUB : Obj := ⟨0x1A06, 0x00, 0x40⟩
def BEL_F_COUNT (t : Nat) : Obj := ⟨0x3E06, 0x01 + t, 0⟩
def BEL_H_COUNT (t : Nat) : Obj := ⟨0x1A06, 0x01 + t, 0⟩
def BEL_F_GRP_SUB (g : Nat) : Obj := ⟨0x3E20 + g, 0x00, 4⟩
def BEL_H_GRP_SUB (g : Nat) : Obj := ⟨0x1A20 + g, 0x00, 4⟩
def BEL_F_GRP_COUNT (g : Nat) : Obj := ⟨0x3E20 + g, 0x01, 1⟩
def BEL_H_GRP_COUNT (g : Nat) : Obj := ⟨0x1A20 + g, 0x01, 1⟩
def BEL_F_GRP_TIME (g : Nat) : Obj := ⟨0x3E20 + g, 0x02, 0x3e8⟩
def BEL_H_GRP_TIME (g : Nat) : Obj := ⟨0x1A20 + g, 0x02, 0x3e8⟩
def BEL_F_GRP_STAT (g : Nat) : Obj := ⟨0x3E20 + g, 0x03, 0⟩
def BEL_H_GRP_STAT (g : Nat) : Obj := ⟨0x1A20 + g, 0x03, 0⟩
def BEL_F_GRP_FIRES (g : Nat) : Obj := ⟨0x3E20 + g, 0x04, 0⟩
def BEL_H_GRP_FIRES (g : Nat) : Obj := ⟨0x1A20 + g, 0x04, 0⟩
def BEL_H_EXT_SUB : Obj := ⟨0x1A10, 0x00, 1⟩
def BEL_H_EXT_CFG : Obj := ⟨0x1A10, 0x01, 0⟩
def BEL_H_TMR_SUB (n : Nat) : Obj := ⟨0x1A40 + n, 0x00, 4⟩
def BEL_H_TMR_CMP (n : Nat) : Obj := ⟨0x1A40 + n, 0x01, 0⟩
def BEL_H_TMR_PER (n : Nat) : Obj := ⟨0x1A40 + n, 0x03, 0⟩
def BEL_H_TMR_EN (n : Nat) : Obj := ⟨0x1A40 + n, 0x04, 0⟩
def BAR_H_SUB : Obj := ⟨0x1200, 0x00, 0xd⟩
def BAR_H_STATE : Obj := ⟨0x1200, 0x01, 0⟩
def BAR_H_LANES : Obj := ⟨0x1200, 0x02, 0⟩
def BAR_H_CNT_FRAME : Obj := ⟨0x1200, 0x03, 0⟩
def BAR_H_CNT_CRC : Obj := ⟨0x1200, 0x04, 0⟩
def BAR_H_CNT_UNKNOWN : Obj := ⟨0x1200, 0x05, 0⟩
def BAR_H_CNT_SEQ : Obj := ⟨0x1200, 0x06, 0⟩
def BAR_H_CNT_RETX : Obj := ⟨0x1200, 0x07, 0⟩
def BAR_H_CNT_LOSS : Obj := ⟨0x1200, 0x08, 0⟩
def BAR_H_LAST_LOSS : Obj := ⟨0x1200, 0x09, 0⟩
def BAR_H_EVT : Obj := ⟨0x1200, 0x0B, 0⟩
def BAR_H_EVT_EN : Obj := ⟨0x1200, 0x0C, 0⟩
def BAR_H_CMD : Obj := ⟨0x1200, 0x0D, 0⟩
def BAR_TIME_SUB : Obj := ⟨0x1201, 0x00, 6⟩
def BAR_STROBE_INT : Obj := ⟨0x1201, 0x01, 0x3e8⟩
def BAR_CAL_PERIOD : Obj := ⟨0x1201, 0x02, 0x3e8⟩
def BAR_H_ASYM : Obj := ⟨0x1201, 0x03, Config.laneAsym⟩
def BAR_H_RTT : Obj := ⟨0x1201, 0x04, 0⟩
def BAR_H_CAL_DELAY : Obj := ⟨0x1201, 0x05, 0⟩
def BAR_H_STROBE_NUM : Obj := ⟨0x1201, 0x06, 0⟩
def BAR_SAFE_SUB : Obj := ⟨0x1202, 0x00, 2⟩
def BAR_H_SAFE_CNT_A : Obj := ⟨0x1202, 0x01, 0⟩
def BAR_H_SAFE_CNT_B : Obj := ⟨0x1202, 0x02, 0⟩
def BAR_F_SUB : Obj := ⟨0x1280, 0x00, 0xf⟩
def BAR_F_STATE : Obj := ⟨0x1280, 0x01, 0⟩
def BAR_F_LANES : Obj := ⟨0x1280, 0x02, 0⟩
def BAR_F_CNT_FRAME : Obj := ⟨0x1280, 0x03, 0⟩
def BAR_F_CNT_CRC : Obj := ⟨0x1280, 0x04, 0⟩
def BAR_F_CNT_UNKNOWN : Obj := ⟨0x1280, 0x05, 0⟩
def BAR_F_CNT_SEQ : Obj := ⟨0x1280, 0x06, 0⟩
def BAR_F_CNT_RETX : Obj := ⟨0x1280, 0x07, 0⟩
def BAR_F_CNT_LOSS : Obj := ⟨0x1280, 0x08, 0⟩
def BAR_F_LAST_LOSS : Obj := ⟨0x1280, 0x09, 0⟩
def BAR_F_CNT_SAFE_REJ : Obj := ⟨0x1280, 0x0B, 0⟩
def BAR_F_CNT_SAFE_DISC : Obj := ⟨0x1280, 0x0C, 0⟩
def BAR_F_CNT_HALT_DROP : Obj := ⟨0x1280, 0x0D, 0⟩
def BAR_F_EVT : Obj := ⟨0x1280, 0x0E, 0⟩
def BAR_F_EVT_EN : Obj := ⟨0x1280, 0x0F, 0⟩
def BAR_REACT_SUB : Obj := ⟨0x1281, 0x00, 7⟩
def BAR_F_LOSS_REACT : Obj := ⟨0x1281, 0x01, 0⟩
def BAR_F_CSTOP_LIMIT : Obj := ⟨0x1281, 0x02, 0x64⟩
def BAR_F_QUIET_REACT : Obj := ⟨0x1281, 0x03, 1⟩
def BAR_F_CAL_DELAY : Obj := ⟨0x1281, 0x04, 0⟩
def BAR_F_SAFE_CNT_A : Obj := ⟨0x1281, 0x05, 0⟩
def BAR_F_SAFE_CNT_B : Obj := ⟨0x1281, 0x06, 0⟩
def BAR_F_CMD : Obj := ⟨0x1281, 0x07, 0⟩
def NET_PORT_SUB (m : Nat) : Obj := ⟨0x1400 + m, 0x00, 8⟩
def NET_PORT_EN (m : Nat) : Obj := ⟨0x1400 + m, 0x01, 0⟩
def NET_PORT_MODE (m : Nat) : Obj := ⟨0x1400 + m, 0x02, 0⟩
def NET_PORT_STATUS (m : Nat) : Obj := ⟨0x1400 + m, 0x03, 0⟩
def NET_PORT_LAT_TX (m : Nat) : Obj := ⟨0x1400 + m, 0x04, 0⟩
def NET_PORT_LAT_RX (m : Nat) : Obj := ⟨0x1400 + m, 0x05, 0⟩
def NET_PORT_CNT_RX (m : Nat) : Obj := ⟨0x1400 + m, 0x06, 0⟩
def NET_PORT_CNT_ERR (m : Nat) : Obj := ⟨0x1400 + m, 0x07, 0⟩
def NET_PORT_CNT_CLR (m : Nat) : Obj := ⟨0x1400 + m, 0x08, 0⟩
def NET_SUB : Obj := ⟨0x1410, 0x00, 0x1d⟩
def NET_RUN : Obj := ⟨0x1410, 0x01, 0⟩
def NET_UNLOCK : Obj := ⟨0x1410, 0x02, 0⟩
def NET_NODE : Obj := ⟨0x1410, 0x03, 0⟩
def NET_LINE_ROLE : Obj := ⟨0x1410, 0x04, 0⟩
def NET_ENCAP : Obj := ⟨0x1410, 0x05, 0⟩
def NET_ETHERTYPE : Obj := ⟨0x1410, 0x06, 0x88b5⟩
def NET_UDP_PORT : Obj := ⟨0x1410, 0x07, 0xbac0⟩
def NET_MCAST : Obj := ⟨0x1410, 0x08, 0x2881007a5301⟩
def NET_IPV4 : Obj := ⟨0x1410, 0x0A, 0⟩
def NET_IP_MCAST : Obj := ⟨0x1410, 0x0B, 0xef537a01⟩
def NET_VLAN : Obj := ⟨0x1410, 0x0C, 0xf000⟩
def NET_PORTS : Obj := ⟨0x1410, 0x0D, 1⟩
def NET_CYCLE : Obj := ⟨0x1410, 0x0E, 0x3d090⟩
def NET_CYCLE_BASE : Obj := ⟨0x1410, 0x0F, 0⟩
def NET_TX_OFF : Obj := ⟨0x1410, 0x11, 0x1388⟩
def NET_OUT_LEAD : Obj := ⟨0x1410, 0x12, 0xfa0⟩
def NET_LOSS_CYCLES : Obj := ⟨0x1410, 0x13, 3⟩
def NET_CYCLE_NUM : Obj := ⟨0x1410, 0x14, 0⟩
def NET_EVT : Obj := ⟨0x1410, 0x15, 0⟩
def NET_EVT_EN : Obj := ⟨0x1410, 0x16, 0⟩
def NET_CNT_LATE : Obj := ⟨0x1410, 0x17, 0⟩
def NET_CNT_BAD : Obj := ⟨0x1410, 0x18, 0⟩
def NET_CNT_OLD_CYCLE : Obj := ⟨0x1410, 0x19, 0⟩
def NET_CNT_STALE_EPOCH : Obj := ⟨0x1410, 0x1A, 0⟩
def NET_CNT_UNMAPPED : Obj := ⟨0x1410, 0x1B, 0⟩
def NET_CNT_MAP_REFUSED : Obj := ⟨0x1410, 0x1C, 0⟩
def NET_CNT_CLR : Obj := ⟨0x1410, 0x1D, 0⟩
def NET_AS_SUB : Obj := ⟨0x1411, 0x00, 0xa⟩
def NET_AS_EN : Obj := ⟨0x1411, 0x01, 0⟩
def NET_AS_DOMAIN : Obj := ⟨0x1411, 0x02, 0⟩
def NET_AS_PRIO1 : Obj := ⟨0x1411, 0x03, 0xf8⟩
def NET_AS_PRIO2 : Obj := ⟨0x1411, 0x04, 0xf8⟩
def NET_AS_SYNC_LOG : Obj := ⟨0x1411, 0x05, 0xFFFD⟩
def NET_AS_STATE : Obj := ⟨0x1411, 0x06, 0⟩
def NET_AS_OFFSET : Obj := ⟨0x1411, 0x07, 0⟩
def NET_AS_GM_ID : Obj := ⟨0x1411, 0x08, 0⟩
def NET_AS_LOCKED : Obj := ⟨0x1411, 0x0A, 0⟩
def NET_GCL_SUB (m : Nat) : Obj := ⟨0x1412 + m, 0x00, 0x12⟩
def NET_GCL_EN (m : Nat) : Obj := ⟨0x1412 + m, 0x01, 0⟩
def NET_GCL_LEN (m : Nat) : Obj := ⟨0x1412 + m, 0x02, 1⟩
def NET_GCL_ENTRY (m : Nat) (t : Nat) : Obj := ⟨0x1412 + m, 0x03 + t, 0xff000000⟩
def NET_CB_SUB : Obj := ⟨0x1414, 0x00, 6⟩
def NET_CB_EN : Obj := ⟨0x1414, 0x01, 0⟩
def NET_CB_HIST : Obj := ⟨0x1414, 0x02, 0x20⟩
def NET_CB_RESET : Obj := ⟨0x1414, 0x03, 0x3e8⟩
def NET_CNT_CB_DUP : Obj := ⟨0x1414, 0x04, 0⟩
def NET_CNT_CB_ROGUE : Obj := ⟨0x1414, 0x05, 0⟩
def NET_CB_CNT_CLR : Obj := ⟨0x1414, 0x06, 0⟩
def NET_PTN_SUB (p : Nat) : Obj := ⟨0x1420 + p, 0x00, 5⟩
def NET_PTN_NODE (p : Nat) : Obj := ⟨0x1420 + p, 0x01, 0⟩
def NET_PTN_STATE (p : Nat) : Obj := ⟨0x1420 + p, 0x02, 0⟩
def NET_PTN_MISSED (p : Nat) : Obj := ⟨0x1420 + p, 0x03, 0⟩
def NET_PTN_LAST_CYCLE (p : Nat) : Obj := ⟨0x1420 + p, 0x04, 0⟩
def NET_PTN_CNT_LOSS (p : Nat) : Obj := ⟨0x1420 + p, 0x05, 0⟩
def NET_TXMAP_SUB : Obj := ⟨0x1500, 0x00, 0x40⟩
def NET_TXMAP (t : Nat) : Obj := ⟨0x1500, 0x01 + 2 * t, 0⟩
def NET_RXMAP_SUB : Obj := ⟨0x1501, 0x00, 0x40⟩
def NET_RXMAP (t : Nat) : Obj := ⟨0x1501, 0x01 + 2 * t, 0⟩
def CAN_SUB (k : Nat) : Obj := ⟨0x1600 + k, 0x00, 0xe⟩
def CAN_EN (k : Nat) : Obj := ⟨0x1600 + k, 0x01, 0⟩
def CAN_NODE_ID (k : Nat) : Obj := ⟨0x1600 + k, 0x02, 1⟩
def CAN_BITRATE (k : Nat) : Obj := ⟨0x1600 + k, 0x03, 2⟩
def CAN_DATA_RATE (k : Nat) : Obj := ⟨0x1600 + k, 0x04, 0⟩
def CAN_SDO_TIMEOUT (k : Nat) : Obj := ⟨0x1600 + k, 0x05, 0x3e8⟩
def CAN_NMT_STATE (k : Nat) : Obj := ⟨0x1600 + k, 0x06, 0⟩
def CAN_BUS_STATE (k : Nat) : Obj := ⟨0x1600 + k, 0x07, 3⟩
def CAN_HB_PROD (k : Nat) : Obj := ⟨0x1600 + k, 0x08, 0⟩
def CAN_SYNC_ID (k : Nat) : Obj := ⟨0x1600 + k, 0x09, 0x80⟩
def CAN_CNT_SDO_ABORT (k : Nat) : Obj := ⟨0x1600 + k, 0x0A, 0⟩
def CAN_CNT_PDO_RX (k : Nat) : Obj := ⟨0x1600 + k, 0x0B, 0⟩
def CAN_CNT_PDO_TX (k : Nat) : Obj := ⟨0x1600 + k, 0x0C, 0⟩
def CAN_CNT_OVERRUN (k : Nat) : Obj := ⟨0x1600 + k, 0x0D, 0⟩
def CAN_CNT_CLR (k : Nat) : Obj := ⟨0x1600 + k, 0x0E, 0⟩
def CAN_HB_CONS_SUB (k : Nat) : Obj := ⟨0x1602 + k, 0x00, 4⟩
def CAN_HB_CONS (k : Nat) (t : Nat) : Obj := ⟨0x1602 + k, 0x01 + t, 0⟩
def CAN_RPDO_COMM_SUB (k : Nat) (j : Nat) : Obj := ⟨0x1610 + 32 * k + j, 0x00, 5⟩
def CAN_RPDO_COMM_ID (k : Nat) (j : Nat) : Obj := ⟨0x1610 + 32 * k + j, 0x01, 0⟩
def CAN_RPDO_COMM_TYPE (k : Nat) (j : Nat) : Obj := ⟨0x1610 + 32 * k + j, 0x02, 0xFF⟩
def CAN_RPDO_COMM_INH (k : Nat) (j : Nat) : Obj := ⟨0x1610 + 32 * k + j, 0x03, 0⟩
def CAN_RPDO_COMM_EVTMR (k : Nat) (j : Nat) : Obj := ⟨0x1610 + 32 * k + j, 0x05, 0⟩
def CAN_RPDO_MAP_N (k : Nat) (j : Nat) : Obj := ⟨0x1618 + 32 * k + j, 0x00, 0⟩
def CAN_RPDO_MAP (k : Nat) (j : Nat) (t : Nat) : Obj := ⟨0x1618 + 32 * k + j, 0x01 + t, 0⟩
def CAN_TPDO_COMM_SUB (k : Nat) (j : Nat) : Obj := ⟨0x1620 + 32 * k + j, 0x00, 5⟩
def CAN_TPDO_COMM_ID (k : Nat) (j : Nat) : Obj := ⟨0x1620 + 32 * k + j, 0x01, 0⟩
def CAN_TPDO_COMM_TYPE (k : Nat) (j : Nat) : Obj := ⟨0x1620 + 32 * k + j, 0x02, 0xFF⟩
def CAN_TPDO_COMM_INH (k : Nat) (j : Nat) : Obj := ⟨0x1620 + 32 * k + j, 0x03, 0⟩
def CAN_TPDO_COMM_EVTMR (k : Nat) (j : Nat) : Obj := ⟨0x1620 + 32 * k + j, 0x05, 0⟩
def CAN_TPDO_MAP_N (k : Nat) (j : Nat) : Obj := ⟨0x1628 + 32 * k + j, 0x00, 0⟩
def CAN_TPDO_MAP (k : Nat) (j : Nat) (t : Nat) : Obj := ⟨0x1628 + 32 * k + j, 0x01 + t, 0⟩
def RED_SUB : Obj := ⟨0x1700, 0x00, 0xe⟩
def RED_EN : Obj := ⟨0x1700, 0x01, 0⟩
def RED_ROLE : Obj := ⟨0x1700, 0x02, 0⟩
def RED_STATE : Obj := ⟨0x1700, 0x03, 0⟩
def RED_EPOCH : Obj := ⟨0x1700, 0x04, 0⟩
def RED_TAKEOVER_CYCLES : Obj := ⟨0x1700, 0x05, 3⟩
def RED_LISTEN_CYCLES : Obj := ⟨0x1700, 0x06, 8⟩
def RED_EXPIRE_CYCLES : Obj := ⟨0x1700, 0x07, 0x3e8⟩
def RED_CMD : Obj := ⟨0x1700, 0x08, 0⟩
def RED_PEER_NODE : Obj := ⟨0x1700, 0x09, 0⟩
def RED_EVT : Obj := ⟨0x1700, 0x0A, 0⟩
def RED_EVT_EN : Obj := ⟨0x1700, 0x0B, 0⟩
def RED_CNT_TAKEOVER : Obj := ⟨0x1700, 0x0C, 0⟩
def RED_CNT_FENCE : Obj := ⟨0x1700, 0x0D, 0⟩
def RED_CNT_CLR : Obj := ⟨0x1700, 0x0E, 0⟩
def RED_SEEN_SUB : Obj := ⟨0x1701, 0x00, 0x40⟩
def RED_SEEN (t : Nat) : Obj := ⟨0x1701, 0x01 + 2 * t, 0⟩
def SAF_SUB : Obj := ⟨0x1900, 0x00, 8⟩
def SAF_STATE : Obj := ⟨0x1900, 0x01, 1⟩
def SAF_ACTIVE : Obj := ⟨0x1900, 0x02, 0⟩
def SAF_LATCHED : Obj := ⟨0x1900, 0x03, 1⟩
def SAF_CAUSE : Obj := ⟨0x1900, 0x04, 0⟩
def SAF_ENTRY_TIME : Obj := ⟨0x1900, 0x05, 0⟩
def SAF_STATUS : Obj := ⟨0x1900, 0x07, 0⟩
def SAF_SS1_LEFT : Obj := ⟨0x1900, 0x08, 0⟩
def SAF_CMD_SUB : Obj := ⟨0x1901, 0x00, 3⟩
def SAF_DEMAND : Obj := ⟨0x1901, 0x01, 0⟩
def SAF_RELEASE : Obj := ⟨0x1901, 0x02, 0⟩
def SAF_FUSE_CMD : Obj := ⟨0x1901, 0x03, 0⟩
def SAF_CFG_SUB : Obj := ⟨0x1902, 0x00, 6⟩
def SAF_REACT : Obj := ⟨0x1902, 0x01, 0x3f7fff⟩
def SAF_SS1_TIME : Obj := ⟨0x1902, 0x02, 0x1f4⟩
def SAF_STO_TEST : Obj := ⟨0x1902, 0x03, 1⟩
def SAF_SD_MASK : Obj := ⟨0x1902, 0x04, 0⟩
def SAF_LOCAL_REL : Obj := ⟨0x1902, 0x05, 0⟩
def SAF_PARAM_CRC : Obj := ⟨0x1902, 0x06, 0⟩
def SAF_WD_SUB : Obj := ⟨0x1903, 0x00, 7⟩
def SAF_WD_MIN : Obj := ⟨0x1903, 0x01, 0⟩
def SAF_WD_MAX : Obj := ⟨0x1903, 0x02, 0x186a0⟩
def SAF_WD_WARN : Obj := ⟨0x1903, 0x03, 0x3e8⟩
def SAF_WD_KICK : Obj := ⟨0x1903, 0x04, 0⟩
def SAF_DTI : Obj := ⟨0x1903, 0x05, 0x3e8⟩
def SAF_DIAG_SEQ : Obj := ⟨0x1903, 0x06, 0⟩
def SAF_DIAG_CNT : Obj := ⟨0x1903, 0x07, 0⟩
def SAF_SESS_SUB : Obj := ⟨0x1904, 0x00, 0xb⟩
def SAF_KEY (t : Nat) : Obj := ⟨0x1904, 0x01 + t, 0⟩
def SAF_KEY_COMMIT : Obj := ⟨0x1904, 0x09, 0⟩
def SAF_SESS_IDLE : Obj := ⟨0x1904, 0x0A, 0x12c⟩
def SAF_SESS_STAT : Obj := ⟨0x1904, 0x0B, 0⟩
def SAF_LOG_SUB : Obj := ⟨0x1905, 0x00, 0xb⟩
def SAF_LOG_HEAD : Obj := ⟨0x1905, 0x01, 0⟩
def SAF_LOG_SEL : Obj := ⟨0x1905, 0x02, 0⟩
def SAF_LOG_REC (t : Nat) : Obj := ⟨0x1905, 0x03 + t, 0⟩
def SAF_LOG_APPEND : Obj := ⟨0x1905, 0x0B, 0⟩
def SAF_EV_SUB : Obj := ⟨0x1906, 0x00, 8⟩
def SAF_EVT : Obj := ⟨0x1906, 0x01, 0⟩
def SAF_EVT_EN : Obj := ⟨0x1906, 0x02, 0⟩
def SAF_CNT_ENTRY : Obj := ⟨0x1906, 0x03, 0⟩
def SAF_CNT_RELEASE : Obj := ⟨0x1906, 0x04, 0⟩
def SAF_CNT_REL_REFUSED : Obj := ⟨0x1906, 0x05, 0⟩
def SAF_CNT_AUTH_FAIL : Obj := ⟨0x1906, 0x06, 0⟩
def SAF_CNT_LOG_LOST : Obj := ⟨0x1906, 0x07, 0⟩
def SAF_CNT_CLR : Obj := ⟨0x1906, 0x08, 0⟩
def PWR_H_SUB : Obj := ⟨0x1100, 0x00, 8⟩
def PWR_H_STATE : Obj := ⟨0x1100, 0x01, 0⟩
def PWR_H_STATE_REQ : Obj := ⟨0x1100, 0x02, 0⟩
def PWR_H_RESET : Obj := ⟨0x1100, 0x03, 0⟩
def PWR_H_RAIL_STAT : Obj := ⟨0x1100, 0x04, 0⟩
def PWR_H_BW_EPISODES : Obj := ⟨0x1100, 0x05, 0⟩
def PWR_H_WAKE_BAR : Obj := ⟨0x1100, 0x06, 1⟩
def PWR_H_EVT : Obj := ⟨0x1100, 0x07, 0⟩
def PWR_H_EVT_EN : Obj := ⟨0x1100, 0x08, 0⟩
def PWR_H_WD_SUB : Obj := ⟨0x1101, 0x00, 4⟩
def PWR_H_WD_MIN : Obj := ⟨0x1101, 0x01, 0⟩
def PWR_H_WD_MAX : Obj := ⟨0x1101, 0x02, 0x186a0⟩
def PWR_H_WD_WARN : Obj := ⟨0x1101, 0x03, 0x3e8⟩
def PWR_H_WD_KICK : Obj := ⟨0x1101, 0x04, 0⟩
def PWR_H_BOOT_SUB : Obj := ⟨0x1102, 0x00, 0xc⟩
def PWR_H_BOOT_STAT : Obj := ⟨0x1102, 0x01, 0⟩
def PWR_H_FW_CMD : Obj := ⟨0x1102, 0x02, 0⟩
def PWR_H_FLD_LOADS : Obj := ⟨0x1102, 0x03, 0⟩
def PWR_H_BOOTKEY (t : Nat) : Obj := ⟨0x1102, 0x04 + t, 0⟩
def PWR_H_BOOTKEY_CMD : Obj := ⟨0x1102, 0x0C, 0⟩
def PWR_F_SUB : Obj := ⟨0x1180, 0x00, 7⟩
def PWR_F_STATE : Obj := ⟨0x1180, 0x01, 0⟩
def PWR_F_STATE_REQ : Obj := ⟨0x1180, 0x02, 0⟩
def PWR_F_RESET : Obj := ⟨0x1180, 0x03, 0⟩
def PWR_F_WAKE_BAR : Obj := ⟨0x1180, 0x04, 1⟩
def PWR_F_WAKE_CAUSE : Obj := ⟨0x1180, 0x05, 0⟩
def PWR_F_EVT : Obj := ⟨0x1180, 0x06, 0⟩
def PWR_F_EVT_EN : Obj := ⟨0x1180, 0x07, 0⟩
def PWR_SUP_SUB : Obj := ⟨0x1181, 0x00, 4⟩
def PWR_F_RAIL_STAT : Obj := ⟨0x1181, 0x01, 0⟩
def PWR_BW_SAFE : Obj := ⟨0x1181, 0x02, 0⟩
def PWR_REARM : Obj := ⟨0x1181, 0x03, 0⟩
def PWR_F_BW_EPISODES : Obj := ⟨0x1181, 0x04, 0⟩
def PWR_GOV_SUB : Obj := ⟨0x1182, 0x00, 9⟩
def PWR_INRUSH_MAX : Obj := ⟨0x1182, 0x01, 0x40⟩
def PWR_INRUSH_RATE : Obj := ⟨0x1182, 0x02, 4⟩
def PWR_INRUSH_COST_OCT : Obj := ⟨0x1182, 0x03, 0x10⟩
def PWR_INRUSH_COST_TUR : Obj := ⟨0x1182, 0x04, 4⟩
def PWR_INRUSH_COST_WAKE : Obj := ⟨0x1182, 0x05, 0x10⟩
def PWR_WAKE_GAP : Obj := ⟨0x1182, 0x06, 0x14⟩
def PWR_INRUSH_CREDITS : Obj := ⟨0x1182, 0x07, 64⟩
def PWR_INRUSH_QUEUE : Obj := ⟨0x1182, 0x08, 0⟩
def PWR_CNT_DEFER : Obj := ⟨0x1182, 0x09, 0⟩
def PWR_UNIT_SUB : Obj := ⟨0x1183, 0x00, 3⟩
def PWR_UNIT_STOP : Obj := ⟨0x1183, 0x01, 0⟩
def PWR_UNIT_LAST : Obj := ⟨0x1183, 0x02, 0⟩
def PWR_CNT_UNIT : Obj := ⟨0x1183, 0x03, 0⟩

end R

/-! ## The tables, one list per range of R47 -/

def rowsDic0 : List Row := [
  row0 0x1000 0x00 .u8 .ro false 0xb .k (.any),
  row0 0x1000 0x01 .u32 .ro false 0x537a10 .k (.any),
  row0 0x1000 0x02 .u32 .ro false 0x8128 .k (.any),
  row0 0x1000 0x03 .str .ro false 0 .k (.any),
  row0 0x1000 0x04 .u32 .ro false Config.siliconRev .k (.any),
  row0 0x1000 0x05 .u64 .ro false Config.serial .k (.any),
  row0 0x1000 0x07 .u32 .ro false Config.bootromVer .k (.any),
  row0 0x1000 0x08 .u32 .ro false 0 .s (.any),
  row0 0x1000 0x09 .u32 .ro false 0 .s (.any),
  row0 0x1000 0x0A .u32 .ro false 0x10000 .k (.any),
  row0 0x1000 0x0B .u32 .ro false 0 .k (.any),
  row0 0x1008 0x00 .str .ro false 0 .k (.any),
  row0 0x1010 0x00 .str .rw false 0 .k (.any)]
def rowsDic : List Row := rowsDic0

def rowsPwrH0 : List Row := [
  row0 0x1100 0x00 .u8 .ro false 8 .k (.any),
  row0 0x1100 0x01 .u8 .ro false 0 .v (.any),
  row0 0x1100 0x02 .u8 .rw false 0 .s (.rel .hostReq),
  row0 0x1100 0x03 .u32 .wo true 0 .v (.range 1920139265 1920139267),
  row0 0x1100 0x04 .u32 .ro false 0 .v (.any),
  row0 0x1100 0x05 .u32 .ro false 0 .w (.any),
  row0 0x1100 0x06 .bool .rw false 1 .k (.any),
  row0 0x1100 0x07 .u32 .w1c false 0 .v (.bits 0xF),
  row0 0x1100 0x08 .u32 .rw false 0 .w (.bits 0xF),
  row0 0x1101 0x00 .u8 .ro false 4 .k (.any),
  row0 0x1101 0x01 .u32 .rw true 0 .k (.rel .wdMinH),
  row0 0x1101 0x02 .u32 .rw true 0x186a0 .k (.rel .wdMaxH),
  row0 0x1101 0x03 .u32 .rw true 0x3e8 .k (.rel .wdMinH),
  row0 0x1101 0x04 .u16 .wo false 0 .v (.any),
  row0 0x1102 0x00 .u8 .ro false 0xc .k (.any),
  row0 0x1102 0x01 .u32 .ro false 0 .s (.any),
  row0 0x1102 0x02 .u8 .wo false 0 .v (.range 1 1),
  row0 0x1102 0x03 .u32 .ro false 0 .s (.any),
  ⟨0x1102, 1, 1, 1, 1, 0x04, 8, 1, .u32, .wo, true, 0, .k, .any⟩,
  row0 0x1102 0x0C .u32 .wo true 0 .v (.range 1802792802 1802792802)]
def rowsPwrH : List Row := rowsPwrH0

def rowsPwrF0 : List Row := [
  row0 0x1180 0x00 .u8 .ro false 7 .k (.any),
  row0 0x1180 0x01 .u8 .ro false 0 .v (.any),
  row0 0x1180 0x02 .u8 .rw false 0 .s (.rel .fieldReq),
  row0 0x1180 0x03 .u32 .wo true 0 .v (.range 1920139265 1920139267),
  row0 0x1180 0x04 .bool .rw false 1 .k (.any),
  row0 0x1180 0x05 .u8 .ro false 0 .s (.any),
  row0 0x1180 0x06 .u32 .w1c false 0 .v (.bits 0x3F),
  row0 0x1180 0x07 .u32 .rw false 0 .w (.bits 0x3F),
  row0 0x1181 0x00 .u8 .ro false 4 .k (.any),
  row0 0x1181 0x01 .u32 .ro false 0 .v (.any),
  row0 0x1181 0x02 .u16 .rw true 0 .k (.any),
  row0 0x1181 0x03 .bool .wo false 0 .v (.rel .rearm),
  row0 0x1181 0x04 .u32 .ro false 0 .w (.any),
  row0 0x1182 0x00 .u8 .ro false 9 .k (.any),
  row0 0x1182 0x01 .u16 .rw false 0x40 .k (.rel .inrushMax),
  row0 0x1182 0x02 .u8 .rw false 4 .k (.range 1 255),
  row0 0x1182 0x03 .u16 .rw false 0x10 .k (.rel .inrushCost),
  row0 0x1182 0x04 .u16 .rw false 4 .k (.rel .inrushCost),
  row0 0x1182 0x05 .u16 .rw false 0x10 .k (.rel .inrushCost),
  row0 0x1182 0x06 .u16 .rw false 0x14 .k (.range 20 1000),
  row0 0x1182 0x07 .u16 .ro false 64 .s (.any),
  row0 0x1182 0x08 .u8 .ro false 0 .v (.any),
  row0 0x1182 0x09 .u32 .ro false 0 .s (.any),
  row0 0x1183 0x00 .u8 .ro false 3 .k (.any),
  row0 0x1183 0x01 .u16 .wo false 0 .v (.rel .unitStop),
  row0 0x1183 0x02 .u16 .ro false 0 .s (.any),
  row0 0x1183 0x03 .u32 .ro false 0 .s (.any)]
def rowsPwrF : List Row := rowsPwrF0

def rowsBar0 : List Row := [
  row0 0x1200 0x00 .u8 .ro false 0xd .k (.any),
  row0 0x1200 0x01 .u8 .ro false 0 .v (.any),
  row0 0x1200 0x02 .u8 .ro false 0 .v (.any),
  row0 0x1200 0x03 .u32 .ro false 0 .s (.any),
  row0 0x1200 0x04 .u32 .ro false 0 .s (.any),
  row0 0x1200 0x05 .u32 .ro false 0 .s (.any),
  row0 0x1200 0x06 .u32 .ro false 0 .s (.any),
  row0 0x1200 0x07 .u32 .ro false 0 .s (.any),
  row0 0x1200 0x08 .u32 .ro false 0 .s (.any),
  row0 0x1200 0x09 .u64 .ro false 0 .s (.any),
  row0 0x1200 0x0B .u32 .w1c false 0 .v (.bits 0x1FF),
  row0 0x1200 0x0C .u32 .rw false 0 .w (.bits 0x1FF),
  row0 0x1200 0x0D .u8 .wo false 0 .v (.range 1 3),
  row0 0x1201 0x00 .u8 .ro false 6 .k (.any),
  row0 0x1201 0x01 .u16 .rw false 0x3e8 .k (.range 125 1000),
  row0 0x1201 0x02 .u16 .rw false 0x3e8 .k (.range 100 60000),
  row0 0x1201 0x03 .i16 .ro false Config.laneAsym .k (.any),
  row0 0x1201 0x04 .u32 .ro false 0 .v (.any),
  row0 0x1201 0x05 .u32 .ro false 0 .v (.any),
  row0 0x1201 0x06 .u32 .ro false 0 .v (.any),
  row0 0x1202 0x00 .u8 .ro false 2 .k (.any),
  row0 0x1202 0x01 .u16 .ro false 0 .s (.any),
  row0 0x1202 0x02 .u16 .ro false 0 .s (.any),
  row0 0x1280 0x00 .u8 .ro false 0xf .k (.any),
  row0 0x1280 0x01 .u8 .ro false 0 .v (.any),
  row0 0x1280 0x02 .u8 .ro false 0 .v (.any),
  row0 0x1280 0x03 .u32 .ro false 0 .s (.any),
  row0 0x1280 0x04 .u32 .ro false 0 .s (.any),
  row0 0x1280 0x05 .u32 .ro false 0 .s (.any),
  row0 0x1280 0x06 .u32 .ro false 0 .s (.any),
  row0 0x1280 0x07 .u32 .ro false 0 .s (.any),
  row0 0x1280 0x08 .u32 .ro false 0 .s (.any),
  row0 0x1280 0x09 .u64 .ro false 0 .s (.any),
  row0 0x1280 0x0B .u32 .ro false 0 .s (.any),
  row0 0x1280 0x0C .u32 .ro false 0 .s (.any),
  row0 0x1280 0x0D .u32 .ro false 0 .s (.any),
  row0 0x1280 0x0E .u32 .w1c false 0 .v (.bits 0x1FF),
  row0 0x1280 0x0F .u32 .rw false 0 .w (.bits 0x1FF),
  row0 0x1281 0x00 .u8 .ro false 7 .k (.any),
  row0 0x1281 0x01 .u8 .rw true 0 .k (.range 0 1)]
def rowsBar1 : List Row := [
  row0 0x1281 0x02 .u16 .rw true 0x64 .k (.range 1 10000),
  row0 0x1281 0x03 .u8 .rw true 1 .k (.range 0 1),
  row0 0x1281 0x04 .u32 .ro false 0 .s (.any),
  row0 0x1281 0x05 .u16 .ro false 0 .s (.any),
  row0 0x1281 0x06 .u16 .ro false 0 .s (.any),
  row0 0x1281 0x07 .u8 .wo false 0 .v (.range 1 2)]
def rowsBar : List Row := rowsBar0 ++ rowsBar1

def rowsNet0 : List Row := [
  row1 0x1400 1 4 0x00 .u8 .ro false 8 .k (.any),
  row1 0x1400 1 4 0x01 .bool .rw false 0 .k (.any),
  row1 0x1400 1 4 0x02 .u8 .rws false 0 .k (.rel .portMode),
  row1 0x1400 1 4 0x03 .u8 .ro false 0 .v (.any),
  row1 0x1400 1 4 0x04 .u16 .rw false 0 .k (.any),
  row1 0x1400 1 4 0x05 .u16 .rw false 0 .k (.any),
  row1 0x1400 1 4 0x06 .u32 .ro false 0 .s (.any),
  row1 0x1400 1 4 0x07 .u32 .ro false 0 .s (.any),
  row1 0x1400 1 4 0x08 .u8 .wo false 0 .v (.any),
  row0 0x1410 0x00 .u8 .ro false 0x1d .k (.any),
  row0 0x1410 0x01 .bool .rw false 0 .s (.any),
  row0 0x1410 0x02 .bool .rw false 0 .s (.any),
  row0 0x1410 0x03 .u16 .rws false 0 .k (.range 1 65534),
  row0 0x1410 0x04 .u8 .rws false 0 .k (.range 0 1),
  row0 0x1410 0x05 .u8 .rws false 0 .k (.range 0 1),
  row0 0x1410 0x06 .u16 .rws false 0x88b5 .k (.any),
  row0 0x1410 0x07 .u16 .rws false 0xbac0 .k (.any),
  row0 0x1410 0x08 .u64 .rws false 0x2881007a5301 .k (.any),
  row0 0x1410 0x0A .u32 .rws false 0 .k (.any),
  row0 0x1410 0x0B .u32 .rws false 0xef537a01 .k (.any),
  row0 0x1410 0x0C .u16 .rws false 0xf000 .k (.any),
  row0 0x1410 0x0D .u8 .rws false 1 .k (.bits 0xF),
  row0 0x1410 0x0E .u32 .rws false 0x3d090 .k (.range 31250 10000000),
  row0 0x1410 0x0F .u64 .rws false 0 .k (.any),
  row0 0x1410 0x11 .u32 .rw false 0x1388 .k (.rel .txOff),
  row0 0x1410 0x12 .u32 .rws false 0xfa0 .k (.rel .outLead),
  row0 0x1410 0x13 .u8 .rw false 3 .k (.range 1 255),
  row0 0x1410 0x14 .u32 .ro false 0 .v (.any),
  row0 0x1410 0x15 .u32 .w1c false 0 .v (.bits 0x3F),
  row0 0x1410 0x16 .u32 .rw false 0 .w (.bits 0x3F),
  row0 0x1410 0x17 .u32 .ro false 0 .s (.any),
  row0 0x1410 0x18 .u32 .ro false 0 .s (.any),
  row0 0x1410 0x19 .u32 .ro false 0 .s (.any),
  row0 0x1410 0x1A .u32 .ro false 0 .s (.any),
  row0 0x1410 0x1B .u32 .ro false 0 .s (.any),
  row0 0x1410 0x1C .u32 .ro false 0 .s (.any),
  row0 0x1410 0x1D .u8 .wo false 0 .v (.any),
  row0 0x1411 0x00 .u8 .ro false 0xa .k (.any),
  row0 0x1411 0x01 .bool .rw false 0 .k (.any),
  row0 0x1411 0x02 .u8 .rw false 0 .k (.range 0 127)]
def rowsNet1 : List Row := [
  row0 0x1411 0x03 .u8 .rw false 0xf8 .k (.any),
  row0 0x1411 0x04 .u8 .rw false 0xf8 .k (.any),
  row0 0x1411 0x05 .i16 .rw false 0xFFFD .k (.rel .syncLog),
  row0 0x1411 0x06 .u8 .ro false 0 .v (.any),
  row0 0x1411 0x07 .i32 .ro false 0 .v (.any),
  row0 0x1411 0x08 .u64 .ro false 0 .v (.any),
  row0 0x1411 0x0A .bool .ro false 0 .v (.any),
  row1 0x1412 1 2 0x00 .u8 .ro false 0x12 .k (.any),
  row1 0x1412 1 2 0x01 .bool .rws false 0 .k (.any),
  row1 0x1412 1 2 0x02 .u8 .rws false 1 .k (.range 1 16),
  ⟨0x1412, 1, 2, 1, 1, 0x03, 16, 1, .u32, .rws, false, 0xff000000, .k, .any⟩,
  row0 0x1414 0x00 .u8 .ro false 6 .k (.any),
  row0 0x1414 0x01 .bool .rws false 0 .k (.any),
  row0 0x1414 0x02 .u8 .rw false 0x20 .k (.range 2 32),
  row0 0x1414 0x03 .u16 .rw false 0x3e8 .k (.range 1 60000),
  row0 0x1414 0x04 .u32 .ro false 0 .s (.any),
  row0 0x1414 0x05 .u32 .ro false 0 .s (.any),
  row0 0x1414 0x06 .u8 .wo false 0 .v (.any),
  row1 0x1420 1 16 0x00 .u8 .ro false 5 .k (.any),
  row1 0x1420 1 16 0x01 .u16 .rws false 0 .k (.any),
  row1 0x1420 1 16 0x02 .u8 .ro false 0 .v (.any),
  row1 0x1420 1 16 0x03 .u8 .ro false 0 .v (.any),
  row1 0x1420 1 16 0x04 .u32 .ro false 0 .v (.any),
  row1 0x1420 1 16 0x05 .u32 .ro false 0 .s (.any),
  row0 0x1500 0x00 .u8 .ro false 0x40 .k (.any),
  ⟨0x1500, 1, 1, 1, 1, 0x01, 32, 2, .u64, .rws, false, 0, .k, .any⟩,
  row0 0x1501 0x00 .u8 .ro false 0x40 .k (.any),
  ⟨0x1501, 1, 1, 1, 1, 0x01, 32, 2, .u64, .rws, false, 0, .k, .any⟩]
def rowsNet : List Row := rowsNet0 ++ rowsNet1

def rowsCan0 : List Row := [
  row1 0x1600 1 2 0x00 .u8 .ro false 0xe .k (.any),
  row1 0x1600 1 2 0x01 .bool .rw false 0 .s (.any),
  row1 0x1600 1 2 0x02 .u8 .rws false 1 .k (.range 1 127),
  row1 0x1600 1 2 0x03 .u8 .rws false 2 .k (.range 0 3),
  row1 0x1600 1 2 0x04 .u8 .rws false 0 .k (.range 0 4),
  row1 0x1600 1 2 0x05 .u16 .rw false 0x3e8 .k (.range 10 60000),
  row1 0x1600 1 2 0x06 .u8 .ro false 0 .v (.any),
  row1 0x1600 1 2 0x07 .u8 .ro false 3 .v (.any),
  row1 0x1600 1 2 0x08 .u16 .rw false 0 .k (.any),
  row1 0x1600 1 2 0x09 .u32 .rw false 0x80 .k (.any),
  row1 0x1600 1 2 0x0A .u32 .ro false 0 .s (.any),
  row1 0x1600 1 2 0x0B .u32 .ro false 0 .s (.any),
  row1 0x1600 1 2 0x0C .u32 .ro false 0 .s (.any),
  row1 0x1600 1 2 0x0D .u32 .ro false 0 .s (.any),
  row1 0x1600 1 2 0x0E .u8 .wo false 0 .v (.any),
  row1 0x1602 1 2 0x00 .u8 .ro false 4 .k (.any),
  ⟨0x1602, 1, 2, 1, 1, 0x01, 4, 1, .u32, .rw, false, 0, .k, .any⟩,
  ⟨0x1610, 32, 2, 1, 8, 0x00, 1, 1, .u8, .ro, false, 5, .k, .any⟩,
  ⟨0x1610, 32, 2, 1, 8, 0x01, 1, 1, .u32, .rws, false, 0, .k, .any⟩,
  ⟨0x1610, 32, 2, 1, 8, 0x02, 1, 1, .u8, .rws, false, 0xFF, .k, .any⟩,
  ⟨0x1610, 32, 2, 1, 8, 0x03, 1, 1, .u16, .rws, false, 0, .k, .any⟩,
  ⟨0x1610, 32, 2, 1, 8, 0x05, 1, 1, .u16, .rws, false, 0, .k, .any⟩,
  ⟨0x1618, 32, 2, 1, 8, 0x00, 1, 1, .u8, .rws, false, 0, .k, .range 0 16⟩,
  ⟨0x1618, 32, 2, 1, 8, 0x01, 16, 1, .u32, .rws, false, 0, .k, .any⟩,
  ⟨0x1620, 32, 2, 1, 8, 0x00, 1, 1, .u8, .ro, false, 5, .k, .any⟩,
  ⟨0x1620, 32, 2, 1, 8, 0x01, 1, 1, .u32, .rws, false, 0, .k, .any⟩,
  ⟨0x1620, 32, 2, 1, 8, 0x02, 1, 1, .u8, .rws, false, 0xFF, .k, .any⟩,
  ⟨0x1620, 32, 2, 1, 8, 0x03, 1, 1, .u16, .rws, false, 0, .k, .any⟩,
  ⟨0x1620, 32, 2, 1, 8, 0x05, 1, 1, .u16, .rws, false, 0, .k, .any⟩,
  ⟨0x1628, 32, 2, 1, 8, 0x00, 1, 1, .u8, .rws, false, 0, .k, .range 0 16⟩,
  ⟨0x1628, 32, 2, 1, 8, 0x01, 16, 1, .u32, .rws, false, 0, .k, .any⟩]
def rowsCan : List Row := rowsCan0

def rowsRed0 : List Row := [
  row0 0x1700 0x00 .u8 .ro false 0xe .k (.any),
  row0 0x1700 0x01 .bool .rw false 0 .k (.any),
  row0 0x1700 0x02 .u8 .rws false 0 .k (.range 1 255),
  row0 0x1700 0x03 .u8 .ro false 0 .v (.any),
  row0 0x1700 0x04 .u32 .ro false 0 .v (.any),
  row0 0x1700 0x05 .u8 .rw false 3 .k (.range 1 255),
  row0 0x1700 0x06 .u8 .rw false 8 .k (.range 1 255),
  row0 0x1700 0x07 .u16 .rw false 0x3e8 .k (.rel .redExpire),
  row0 0x1700 0x08 .u8 .wo false 0 .v (.range 1 3),
  row0 0x1700 0x09 .u16 .ro false 0 .v (.any),
  row0 0x1700 0x0A .u32 .w1c false 0 .v (.bits 0x7),
  row0 0x1700 0x0B .u32 .rw false 0 .w (.bits 0x7),
  row0 0x1700 0x0C .u32 .ro false 0 .s (.any),
  row0 0x1700 0x0D .u32 .ro false 0 .s (.any),
  row0 0x1700 0x0E .u8 .wo false 0 .v (.any),
  row0 0x1701 0x00 .u8 .ro false 0x40 .k (.any),
  ⟨0x1701, 1, 1, 1, 1, 0x01, 32, 2, .u64, .ro, false, 0, .v, .any⟩]
def rowsRed : List Row := rowsRed0

def rowsSvc0 : List Row := [
  row0 0x1800 0x00 .u8 .ro false 7 .k (.any),
  row0 0x1800 0x01 .u32 .wo false 0 .v (.range 1919906931 1919906931),
  row0 0x1800 0x02 .u32 .wo false 0 .v (.range 1685023858 1685023858),
  row0 0x1800 0x03 .u32 .wo false 0 .v (.range 1952670054 1952670054),
  row0 0x1800 0x04 .u32 .ro false 0 .w (.any),
  row0 0x1800 0x05 .u32 .ro false 0 .k (.any),
  row0 0x1800 0x06 .u32 .ro false 0 .k (.any),
  row0 0x1800 0x07 .u32 .ro false 0 .w (.any),
  row0 0x1801 0x00 .u8 .ro false 0xa .k (.any),
  row0 0x1801 0x01 .u32 .rw false 0x32 .k (.range 10 10000),
  row0 0x1801 0x02 .u32 .rw false 0x64 .k (.range 1 60000),
  row0 0x1801 0x03 .u32 .rw false 0x3f .k (.bits 0x3F),
  row0 0x1801 0x04 .u32 .ro false 0 .s (.any),
  row0 0x1801 0x05 .u32 .ro false 0 .s (.any),
  row0 0x1801 0x06 .u32 .ro false 0 .s (.any),
  row0 0x1801 0x07 .u32 .ro false 0 .s (.any),
  row0 0x1801 0x08 .u32 .ro false 0 .s (.any),
  row0 0x1801 0x09 .u32 .ro false 0 .s (.any),
  row0 0x1801 0x0A .u8 .ro false 0 .v (.any)]
def rowsSvc : List Row := rowsSvc0

def rowsSaf0 : List Row := [
  row0 0x1900 0x00 .u8 .ro false 8 .k (.any),
  row0 0x1900 0x01 .u8 .ro false 1 .s (.any),
  row0 0x1900 0x02 .u32 .ro false 0 .s (.any),
  row0 0x1900 0x03 .u32 .ro false 1 .s (.any),
  row0 0x1900 0x04 .u8 .ro false 0 .s (.any),
  row0 0x1900 0x05 .u64 .ro false 0 .s (.any),
  row0 0x1900 0x07 .u32 .ro false 0 .v (.any),
  row0 0x1900 0x08 .u32 .ro false 0 .v (.any),
  row0 0x1901 0x00 .u8 .ro false 3 .k (.any),
  row0 0x1901 0x01 .u8 .wo false 0 .v (.range 1 2),
  row0 0x1901 0x02 .u32 .wo true 0 .v (.range 1936483698 1936483698),
  row0 0x1901 0x03 .u32 .wo true 0 .v (.rel .fuseCmd),
  row0 0x1902 0x00 .u8 .ro false 6 .k (.any),
  row0 0x1902 0x01 .u32 .rw true 0x3f7fff .k (.rel .safReact),
  row0 0x1902 0x02 .u32 .rw true 0x1f4 .k (.range 1 60000),
  row0 0x1902 0x03 .bool .rw true 1 .k (.any),
  row0 0x1902 0x04 .u32 .rw true 0 .k (.any),
  row0 0x1902 0x05 .bool .rw true 0 .k (.any),
  row0 0x1902 0x06 .u32 .ro false 0 .v (.any),
  row0 0x1903 0x00 .u8 .ro false 7 .k (.any),
  row0 0x1903 0x01 .u32 .rw true 0 .k (.rel .wdMinF),
  row0 0x1903 0x02 .u32 .rw true 0x186a0 .k (.rel .wdMaxF),
  row0 0x1903 0x03 .u32 .rw true 0x3e8 .k (.rel .wdMinF),
  row0 0x1903 0x04 .u16 .wo false 0 .v (.any),
  row0 0x1903 0x05 .u16 .rw true 0x3e8 .k (.range 100 1000),
  row0 0x1903 0x06 .u32 .wo false 0 .v (.any),
  row0 0x1903 0x07 .u16 .ro false 0 .s (.any),
  row0 0x1904 0x00 .u8 .ro false 0xb .k (.any),
  ⟨0x1904, 1, 1, 1, 1, 0x01, 8, 1, .u32, .wo, true, 0, .k, .any⟩,
  row0 0x1904 0x09 .u32 .wo true 0 .v (.range 1937335659 1937335659),
  row0 0x1904 0x0A .u16 .rw true 0x12c .k (.range 10 3600),
  row0 0x1904 0x0B .u16 .ro false 0 .v (.any),
  row0 0x1905 0x00 .u8 .ro false 0xb .k (.any),
  row0 0x1905 0x01 .u32 .ro false 0 .k (.any),
  row0 0x1905 0x02 .u32 .rw false 0 .v (.any),
  ⟨0x1905, 1, 1, 1, 1, 0x03, 8, 1, .u32, .ro, false, 0, .v, .any⟩,
  row0 0x1905 0x0B .u32 .wo false 0 .v (.any),
  row0 0x1906 0x00 .u8 .ro false 8 .k (.any),
  row0 0x1906 0x01 .u32 .w1c false 0 .v (.bits 0xFF),
  row0 0x1906 0x02 .u32 .rw false 0 .w (.bits 0xFF)]
def rowsSaf1 : List Row := [
  row0 0x1906 0x03 .u32 .ro false 0 .s (.any),
  row0 0x1906 0x04 .u32 .ro false 0 .s (.any),
  row0 0x1906 0x05 .u32 .ro false 0 .s (.any),
  row0 0x1906 0x06 .u32 .ro false 0 .s (.any),
  row0 0x1906 0x07 .u32 .ro false 0 .s (.any),
  row0 0x1906 0x08 .u8 .wo false 0 .v (.any)]
def rowsSaf : List Row := rowsSaf0 ++ rowsSaf1

def rowsBelH0 : List Row := [
  row1 0x1A80 1 128 0x00 .u8 .ro false 1 .k (.any),
  row1 0x1A80 1 128 0x01 .u32 .rw false 0 .w (.rel .belSrc),
  row0 0x1A00 0x00 .u8 .ro false 7 .k (.any),
  row0 0x1A00 0x01 .u32 .ro false 0 .s (.any),
  row0 0x1A00 0x02 .u32 .ro false 0 .s (.any),
  row0 0x1A00 0x03 .u32 .ro false 0 .s (.any),
  row0 0x1A00 0x04 .u32 .ro false 0 .s (.any),
  row0 0x1A00 0x05 .u32 .ro false 0 .s (.any),
  row0 0x1A00 0x06 .u32 .ro false 0 .s (.any),
  row0 0x1A00 0x07 .u8 .wo false 0 .v (.any),
  row0 0x1A01 0x00 .u8 .ro false 0x10 .k (.any),
  row0 0x1A02 0x00 .u8 .ro false 0x10 .k (.any),
  row0 0x1A03 0x00 .u8 .ro false 0x10 .k (.any),
  row0 0x1A04 0x00 .u8 .ro false 0x10 .k (.any),
  row0 0x1A05 0x00 .u8 .ro false 0x10 .k (.any),
  ⟨0x1A01, 1, 1, 1, 1, 0x01, 16, 1, .u32, .w1s, false, 0, .s, .any⟩,
  ⟨0x1A02, 1, 1, 1, 1, 0x01, 16, 1, .u32, .w1c, false, 0, .s, .any⟩,
  ⟨0x1A03, 1, 1, 1, 1, 0x01, 16, 1, .u32, .w1s, false, 0, .v, .any⟩,
  ⟨0x1A04, 1, 1, 1, 1, 0x01, 16, 1, .u32, .w1c, false, 0, .v, .any⟩,
  ⟨0x1A05, 1, 1, 1, 1, 0x01, 16, 1, .u32, .ro, false, 0, .v, .any⟩,
  row0 0x1A06 0x00 .u8 .ro false 0x40 .k (.any),
  ⟨0x1A06, 1, 1, 1, 1, 0x01, 64, 1, .u32, .ro, false, 0, .v, .any⟩,
  row1 0x1A20 1 32 0x00 .u8 .ro false 4 .k (.any),
  row1 0x1A20 1 32 0x01 .u8 .rw false 1 .w (.range 1 255),
  row1 0x1A20 1 32 0x02 .u16 .rw false 0x3e8 .w (.range 1 65535),
  row1 0x1A20 1 32 0x03 .u16 .ro false 0 .v (.any),
  row1 0x1A20 1 32 0x04 .u32 .ro false 0 .s (.any),
  row0 0x1A10 0x00 .u8 .ro false 1 .k (.any),
  row0 0x1A10 0x01 .u32 .rw false 0 .w (.bits 0x7),
  row1 0x1A40 1 16 0x00 .u8 .ro false 4 .k (.any),
  row1 0x1A40 1 16 0x01 .u64 .rw false 0 .v (.any),
  row1 0x1A40 1 16 0x03 .u32 .rw false 0 .w (.any),
  row1 0x1A40 1 16 0x04 .bool .rw false 0 .s (.any)]
def rowsBelH : List Row := rowsBelH0

def rowsSpr0 : List Row := [
  row1 0x1B00 1 2 0x00 .u8 .ro false 0xa .k (.any),
  row1 0x1B00 1 2 0x01 .u8 .ro false 0 .v (.any),
  row1 0x1B00 1 2 0x02 .bool .rw true 0 .s (.rel .sprRelease),
  row1 0x1B00 1 2 0x03 .u8 .ro false 1 .r (.any),
  row1 0x1B00 1 2 0x04 .u32 .ro false 0 .s (.any),
  row1 0x1B00 1 2 0x05 .u32 .ro false 0 .s (.any),
  row1 0x1B00 1 2 0x06 .u32 .ro false 0 .s (.any),
  row1 0x1B00 1 2 0x07 .u32 .ro false 0 .s (.any),
  row1 0x1B00 1 2 0x08 .u32 .ro false 0 .s (.any),
  row1 0x1B00 1 2 0x09 .u32 .ro false 0 .s (.any),
  row1 0x1B00 1 2 0x0A .u8 .wo false 0 .v (.any)]
def rowsSpr : List Row := rowsSpr0

def rowsTime0 : List Row := [
  row0 0x2000 0x00 .u8 .ro false 6 .k (.any),
  row0 0x2000 0x01 .u64 .ro false 0 .r (.any),
  row0 0x2000 0x03 .bool .ro false 0 .s (.any),
  row0 0x2000 0x04 .u32 .ro false 0 .w (.any),
  row0 0x2000 0x05 .u64 .ro false 0 .w (.any),
  row0 0x2001 0x00 .u8 .ro false 6 .k (.any),
  row0 0x2001 0x01 .u64 .ro false 0 .r (.any),
  row0 0x2001 0x03 .u32 .rws false 0x80000000 .w (.range 2142114939 2152852357),
  row0 0x2001 0x04 .i64 .wo false 0 .v (.rel .ltStep),
  row0 0x2001 0x06 .u32 .ro false 0 .s (.any),
  row0 0x2002 0x00 .u8 .ro false 9 .k (.any),
  row0 0x2002 0x01 .u8 .rw false 1 .k (.range 0 2),
  row0 0x2002 0x02 .u8 .rw false 0x80 .k (.any),
  row0 0x2002 0x03 .u8 .rw false 0x10 .k (.any),
  row0 0x2002 0x04 .u32 .rw false 0x3e8 .k (.range 50 1000000000),
  row0 0x2002 0x05 .u32 .rw false 0x14 .k (.range 5 10000),
  row0 0x2002 0x06 .u8 .rw false 3 .k (.range 1 255),
  row0 0x2002 0x07 .u32 .ro false 0 .s (.any),
  row0 0x2002 0x08 .i32 .ro false 0 .s (.any),
  row0 0x2002 0x09 .i32 .ro false 0 .s (.any),
  row1 0x2010 1 16 0x00 .u8 .ro false 8 .k (.any),
  row1 0x2010 1 16 0x01 .u32 .rws false 0 .w (.rel .gtCtrl),
  row1 0x2010 1 16 0x02 .bool .rw false 0 .s (.any),
  row1 0x2010 1 16 0x03 .bool .rw false 0 .s (.rel .gtRun),
  row1 0x2010 1 16 0x04 .u32 .rws false 0 .s (.any),
  row1 0x2010 1 16 0x05 .u32 .rw false 0 .w (.any),
  row1 0x2010 1 16 0x06 .u32 .rw false 0 .w (.any),
  row1 0x2010 1 16 0x07 .u32 .w1c false 0 .s (.bits 0x7),
  row1 0x2010 1 16 0x08 .u8 .rw false 0 .w (.bits 0x7),
  row1 0x2020 1 8 0x00 .u8 .ro false 6 .k (.any),
  row1 0x2020 1 8 0x01 .u64 .ro false 0 .s (.any),
  row1 0x2020 1 8 0x03 .u64 .rw false 0 .w (.any),
  row1 0x2020 1 8 0x05 .u64 .rw false 0 .w (.any)]
def rowsTime : List Row := rowsTime0

def rowsWhl0 : List Row := [
  row1 0x2100 16 16 0x00 .u8 .ro false 9 .k (.any),
  row1 0x2100 16 16 0x01 .bool .rw false 0 .s (.any),
  row1 0x2100 16 16 0x02 .bool .rw false 0 .s (.any),
  row1 0x2100 16 16 0x03 .u32 .rws false 0 .w (.rel .whlMode),
  row1 0x2100 16 16 0x04 .u8 .rws false 0xff .w (.rel .chanOrNone),
  row1 0x2100 16 16 0x05 .u8 .rws false 0xff .w (.rel .chanOrNone),
  row1 0x2100 16 16 0x06 .u8 .rws false 0xff .w (.rel .chanOrNone),
  row1 0x2100 16 16 0x07 .u8 .rws false 0xff .w (.rel .chanOrNone),
  row1 0x2100 16 16 0x08 .u16 .rws false 1 .w (.range 1 65535),
  row1 0x2100 16 16 0x09 .u16 .rws false 1 .w (.rel .quadHyst),
  row1 0x2101 16 16 0x00 .u8 .ro false 9 .k (.any),
  row1 0x2101 16 16 0x01 .u16 .rw false 0x80 .w (.range 32 240),
  row1 0x2101 16 16 0x02 .u16 .rw false 0x19a .w (.range 272 1024),
  row1 0x2101 16 16 0x03 .u8 .rw false 0x20 .w (.any),
  row1 0x2101 16 16 0x04 .u16 .rw false 0x28 .w (.any),
  row1 0x2101 16 16 0x05 .u8 .rw false 2 .w (.range 0 7),
  row1 0x2101 16 16 0x06 .u8 .rw false 3 .w (.range 1 255),
  row1 0x2101 16 16 0x07 .u8 .rw false 2 .w (.range 1 255),
  row1 0x2101 16 16 0x08 .u8 .rw false 1 .w (.range 0 3),
  row1 0x2101 16 16 0x09 .u8 .rw false 4 .w (.any),
  row1 0x2102 16 16 0x00 .u8 .ro false 5 .k (.any),
  row1 0x2102 16 16 0x01 .u8 .rw false 2 .w (.range 1 255),
  row1 0x2102 16 16 0x02 .u8 .rw false 4 .w (.range 1 255),
  row1 0x2102 16 16 0x03 .u32 .rw false 0xc350 .w (.range 1 10000000),
  row1 0x2102 16 16 0x04 .bool .rw false 1 .w (.any),
  row1 0x2102 16 16 0x05 .u8 .rw false 0x20 .w (.any),
  row1 0x2103 16 16 0x00 .u8 .ro false 6 .k (.any),
  row1 0x2103 16 16 0x01 .u8 .rws true 0xff .k (.rel .plausPartner),
  row1 0x2103 16 16 0x02 .i32 .rws true 1 .k (.any),
  row1 0x2103 16 16 0x03 .u32 .rws true 1 .k (.range 1 4294967295),
  row1 0x2103 16 16 0x04 .i64 .rws true 0 .k (.any),
  row1 0x2103 16 16 0x06 .u32 .rws true 0x800000 .k (.any),
  row1 0x2104 16 16 0x00 .u8 .ro false 8 .k (.any),
  row1 0x2104 16 16 0x01 .u8 .ro false 0 .v (.any),
  row1 0x2104 16 16 0x02 .u8 .ro false 0 .v (.any),
  row1 0x2104 16 16 0x03 .u32 .ro false 0 .v (.any),
  row1 0x2104 16 16 0x04 .u16 .ro false 0 .v (.any),
  row1 0x2104 16 16 0x05 .u16 .ro false 0 .w (.any),
  row1 0x2104 16 16 0x06 .u16 .ro false 0x4000 .w (.any),
  row1 0x2104 16 16 0x07 .u32 .w1c false 0 .v (.bits 0x1FF)]
def rowsWhl1 : List Row := [
  row1 0x2104 16 16 0x08 .u32 .rw false 0 .w (.bits 0x1FF),
  row1 0x2105 16 16 0x00 .u8 .ro false 8 .k (.any),
  row1 0x2105 16 16 0x01 .u32 .ro false 0 .v (.any),
  row1 0x2105 16 16 0x02 .i32 .ro false 0 .v (.any),
  row1 0x2105 16 16 0x03 .i32 .ro false 0 .v (.any),
  row1 0x2105 16 16 0x04 .i64 .ro false 0 .v (.any),
  row1 0x2105 16 16 0x06 .u64 .ro false 0 .v (.any),
  row1 0x2105 16 16 0x08 .u32 .ro false 0 .v (.any),
  row1 0x2106 16 16 0x00 .u8 .ro false 9 .k (.any),
  row1 0x2106 16 16 0x01 .u32 .ro false 0 .s (.any),
  row1 0x2106 16 16 0x02 .u32 .ro false 0 .s (.any),
  row1 0x2106 16 16 0x03 .u32 .ro false 0 .s (.any),
  row1 0x2106 16 16 0x04 .u32 .ro false 0 .s (.any),
  row1 0x2106 16 16 0x05 .u32 .ro false 0 .s (.any),
  row1 0x2106 16 16 0x06 .u32 .ro false 0 .s (.any),
  row1 0x2106 16 16 0x07 .u32 .ro false 0 .s (.any),
  row1 0x2106 16 16 0x08 .u32 .ro false 0 .s (.any),
  row1 0x2106 16 16 0x09 .u8 .wo false 0 .v (.any)]
def rowsWhl : List Row := rowsWhl0 ++ rowsWhl1

def rowsEvt0 : List Row := [
  row1 0x2200 1 1024 0x00 .u8 .ro false 0x16 .k (.any),
  row1 0x2200 1 1024 0x01 .bool .rw false 0 .s (.any),
  row1 0x2200 1 1024 0x02 .u32 .rws false 0 .w (.bits 0x1F7FF0),
  row1 0x2200 1 1024 0x03 .u64 .rw false 0x100000000 .w (.any),
  row1 0x2200 1 1024 0x05 .u32 .rws false 0x10002 .w (.rel .evtRepeat),
  row1 0x2200 1 1024 0x06 .i32 .rws false 0 .w (.any),
  row1 0x2200 1 1024 0x07 .u32 .rws false 0x200 .w (.rel .evtPolicy),
  row1 0x2200 1 1024 0x08 .u32 .rw false 0x80000000 .w (.any),
  row1 0x2200 1 1024 0x09 .u16 .rw false 8 .w (.any),
  row1 0x2200 1 1024 0x0A .u8 .wo false 0 .v (.range 1 4),
  row1 0x2200 1 1024 0x0B .u32 .ro false 0 .v (.any),
  row1 0x2200 1 1024 0x0C .i64 .ro false 0 .v (.any),
  row1 0x2200 1 1024 0x0E .u64 .ro false 0 .v (.any),
  row1 0x2200 1 1024 0x10 .u32 .w1c false 0 .v (.bits 0x3FF),
  row1 0x2200 1 1024 0x11 .u32 .rw false 0 .w (.bits 0x3FF),
  row1 0x2200 1 1024 0x12 .u32 .ro false 0 .s (.any),
  row1 0x2200 1 1024 0x13 .u32 .ro false 0 .s (.any),
  row1 0x2200 1 1024 0x14 .u32 .ro false 0 .s (.any),
  row1 0x2200 1 1024 0x15 .u32 .ro false 0 .s (.any),
  row1 0x2200 1 1024 0x16 .u32 .ro false 0 .s (.any)]
def rowsEvt : List Row := rowsEvt0

def rowsLan0 : List Row := [
  row0 0x2600 0x00 .u8 .ro false 0xc .k (.any),
  row0 0x2600 0x01 .bool .rw false 0 .s (.any),
  row0 0x2600 0x02 .bool .rw false 0 .s (.any),
  row0 0x2600 0x03 .u32 .rws false 0x20000 .w (.rel .planWin),
  row0 0x2600 0x04 .u32 .ro false 0 .v (.any),
  row0 0x2600 0x05 .u32 .w1c false 0 .v (.bits 0xF),
  row0 0x2600 0x06 .u32 .rw false 0 .w (.bits 0xF),
  row0 0x2600 0x07 .u8 .rw false 0 .w (.range 0 15),
  row0 0x2600 0x08 .u32 .ro false 0 .v (.any),
  row0 0x2600 0x09 .u32 .ro false 0 .s (.any),
  row0 0x2600 0x0A .u32 .ro false 0 .s (.any),
  row0 0x2600 0x0B .u32 .ro false 0 .s (.any),
  row0 0x2600 0x0C .u8 .wo false 0 .v (.range 1 1),
  row1 0x2610 1 32 0x00 .u8 .ro false 6 .k (.any),
  row1 0x2610 1 32 0x01 .u16 .rws false 0x100 .w (.range 40 65535),
  row1 0x2610 1 32 0x02 .u16 .ro false 0 .v (.any),
  row1 0x2610 1 32 0x03 .u16 .ro false 0 .s (.any),
  row1 0x2610 1 32 0x04 .u16 .ro false 0x1b4 .v (.any),
  row1 0x2610 1 32 0x05 .u16 .ro false 0 .s (.any),
  row1 0x2610 1 32 0x06 .u32 .ro false 0 .s (.any),
  row0 0x2640 0x00 .u8 .ro false 0x20 .k (.any),
  ⟨0x2640, 1, 1, 1, 1, 0x01, 32, 1, .u32, .w1c, false, 0, .v, .any⟩]
def rowsLan : List Row := rowsLan0

def rowsCam0 : List Row := [
  row0 0x2800 0x00 .u8 .ro false 9 .k (.any),
  row0 0x2800 0x01 .u32 .ro false 0x800000 .w (.any),
  row0 0x2800 0x02 .u16 .ro false 0 .w (.any),
  row0 0x2800 0x03 .u32 .rw false 0x10 .w (.range 0 65535),
  row0 0x2800 0x04 .u32 .ro false 0 .v (.any),
  row0 0x2800 0x05 .u32 .ro false 0 .s (.any),
  row0 0x2800 0x06 .u32 .ro false 0 .s (.any),
  row0 0x2800 0x07 .u32 .w1c false 0 .v (.bits 0x7),
  row0 0x2800 0x08 .u32 .rw false 0 .w (.bits 0x7),
  row0 0x2800 0x09 .u8 .rw false 0 .w (.range 0 15),
  row1 0x2810 1 8 0x00 .u8 .ro false 0xa .k (.any),
  row1 0x2810 1 8 0x01 .bool .rw false 0 .s (.any),
  row1 0x2810 1 8 0x02 .i32 .rw false 0 .w (.any),
  row1 0x2810 1 8 0x03 .u32 .rw false 0x100 .w (.any),
  row1 0x2810 1 8 0x04 .u32 .rw false 0x100 .w (.any),
  row1 0x2810 1 8 0x05 .i32 .ro false 0 .v (.any),
  row1 0x2810 1 8 0x06 .i64 .ro false 0 .v (.any),
  row1 0x2810 1 8 0x08 .i64 .rws false 0 .w (.any),
  row1 0x2810 1 8 0x0A .u32 .ro false 0 .v (.any),
  row1 0x2820 1 32 0x00 .u8 .ro false 8 .k (.any),
  row1 0x2820 1 32 0x01 .i64 .ro false 0 .v (.any),
  row1 0x2820 1 32 0x03 .i32 .ro false 0 .v (.any),
  row1 0x2820 1 32 0x04 .u64 .ro false 0 .v (.any),
  row1 0x2820 1 32 0x06 .u32 .rw false 0x3e8 .w (.range 10 1000000),
  row1 0x2820 1 32 0x07 .bool .ro false 0 .v (.any),
  row1 0x2820 1 32 0x08 .u32 .ro false 0 .s (.any),
  row1 0x2840 1 32 0x00 .u8 .ro false 0x80 .k (.any),
  ⟨0x2840, 1, 32, 1, 1, 0x01, 128, 1, .u32, .ro, false, 0, .w, .any⟩]
def rowsCam : List Row := rowsCam0

def rowsAxis0 : List Row := [
  row1 0x2900 1 128 0x00 .u8 .ro false 0x22 .k (.any),
  row1 0x2900 1 128 0x01 .bool .rw false 0 .s (.any),
  row1 0x2900 1 128 0x02 .bool .rw false 0 .s (.any),
  row1 0x2900 1 128 0x03 .u16 .rws false 0 .w (.rel .axMaster),
  row1 0x2900 1 128 0x04 .u32 .rws false 0x20 .w (.rel .axCfg),
  row1 0x2900 1 128 0x05 .u16 .rws false 0 .w (.range 0 4095),
  row1 0x2900 1 128 0x06 .u16 .rw false 0xffff .v (.rel .profNext),
  row1 0x2900 1 128 0x07 .i32 .rws false 1 .w (.range 1 4294967295),
  row1 0x2900 1 128 0x08 .u32 .rws false 1 .w (.range 1 4294967295),
  row1 0x2900 1 128 0x09 .i64 .rw false 0 .w (.any),
  row1 0x2900 1 128 0x0B .i64 .rws false 0 .w (.any),
  row1 0x2900 1 128 0x0D .u32 .rws false 0xfa0 .w (.range 1600 4000000),
  row1 0x2900 1 128 0x0E .u32 .rw false 0x3e8 .w (.range 0 10000000),
  row1 0x2900 1 128 0x0F .u32 .rw false 0x100 .w (.range 1 4294967295),
  row1 0x2900 1 128 0x10 .u8 .wo false 0 .v (.range 1 2),
  row1 0x2900 1 128 0x11 .u8 .ro false 0 .v (.any),
  row1 0x2900 1 128 0x12 .i64 .ro false 0 .v (.any),
  row1 0x2900 1 128 0x14 .i32 .ro false 0 .v (.any),
  row1 0x2900 1 128 0x15 .i32 .ro false 0 .v (.any),
  row1 0x2900 1 128 0x16 .i64 .ro false 0 .v (.any),
  row1 0x2900 1 128 0x18 .u32 .ro false 0 .v (.any),
  row1 0x2900 1 128 0x19 .u16 .ro false 0 .v (.any),
  row1 0x2900 1 128 0x1A .u32 .w1c false 0 .v (.bits 0xFF),
  row1 0x2900 1 128 0x1B .u32 .rw false 0 .w (.bits 0xFF),
  row1 0x2900 1 128 0x1C .u32 .ro false 0 .s (.any),
  row1 0x2900 1 128 0x1D .u32 .ro false 0 .s (.any),
  row1 0x2900 1 128 0x1E .u32 .ro false 0 .s (.any),
  row1 0x2900 1 128 0x1F .u32 .ro false 0 .s (.any),
  row1 0x2900 1 128 0x20 .u64 .ro false 0 .v (.any),
  row1 0x2900 1 128 0x22 .u8 .ro false 0 .v (.any)]
def rowsAxis : List Row := rowsAxis0

def rowsOcu0 : List Row := [
  row1 0x2980 1 16 0x00 .u8 .ro false 0x1d .k (.any),
  row1 0x2980 1 16 0x01 .bool .rw false 0 .s (.any),
  row1 0x2980 1 16 0x02 .bool .rw false 0 .s (.any),
  row1 0x2980 1 16 0x03 .u32 .rws false 0xff000000 .w (.rel .ocuBind),
  row1 0x2980 1 16 0x04 .u32 .rws false 0 .w (.bits 0x5),
  row1 0x2980 1 16 0x05 .u32 .rw false 0 .w (.any),
  row1 0x2980 1 16 0x06 .u32 .rw false 0x1000000 .w (.range 0 2147483647),
  row1 0x2980 1 16 0x07 .u32 .rw false 0x2000000 .w (.rel .ocuGate),
  row1 0x2980 1 16 0x08 .u32 .rw false 0x10000 .w (.range 1 65536),
  row1 0x2980 1 16 0x09 .i32 .rw false 0x10000 .w (.any),
  row1 0x2980 1 16 0x0A .u32 .rw false 0 .w (.any),
  row1 0x2980 1 16 0x0B .u32 .rw false 0x100000 .w (.any),
  row1 0x2980 1 16 0x0C .u32 .rw false 0x1000000 .w (.range 0 2147483647),
  row1 0x2980 1 16 0x0D .u8 .rw false 4 .w (.range 1 255),
  row1 0x2980 1 16 0x0E .u8 .rw false 2 .w (.any),
  row1 0x2980 1 16 0x0F .i32 .wo false 0 .v (.any),
  row1 0x2980 1 16 0x10 .u8 .ro false 0 .v (.any),
  row1 0x2980 1 16 0x11 .i32 .ro false 0 .v (.any),
  row1 0x2980 1 16 0x12 .i32 .ro false 0 .v (.any),
  row1 0x2980 1 16 0x13 .i32 .ro false 0 .v (.any),
  row1 0x2980 1 16 0x14 .u64 .ro false 0 .v (.any),
  row1 0x2980 1 16 0x16 .u32 .w1c false 0 .v (.bits 0xFF),
  row1 0x2980 1 16 0x17 .u32 .rw false 0 .w (.bits 0xFF),
  row1 0x2980 1 16 0x18 .u32 .ro false 0 .s (.any),
  row1 0x2980 1 16 0x19 .u32 .ro false 0 .s (.any),
  row1 0x2980 1 16 0x1A .u32 .ro false 0 .s (.any),
  row1 0x2980 1 16 0x1B .u32 .ro false 0 .s (.any),
  row1 0x2980 1 16 0x1C .u32 .ro false 0 .s (.any),
  row1 0x2980 1 16 0x1D .u8 .wo false 0 .v (.any)]
def rowsOcu : List Row := rowsOcu0

def rowsChan0 : List Row := [
  row1 0x3000 1 128 0x00 .u8 .ro false 0xc .k (.any),
  row1 0x3000 1 128 0x01 .bool .rw false 0 .s (.any),
  row1 0x3000 1 128 0x02 .bool .rw false 0 .s (.any),
  row1 0x3000 1 128 0x03 .u8 .rws false 0 .w (.rel .chMode),
  row1 0x3000 1 128 0x04 .u32 .rws false 0 .w (.rel .chPinCfg),
  row1 0x3000 1 128 0x05 .u8 .rws true 2 .k (.range 0 2),
  row1 0x3000 1 128 0x06 .u32 .rws false 0 .w (.rel .chInCfg),
  row1 0x3000 1 128 0x07 .u32 .rws false 0 .w (.bits 0xF3),
  row1 0x3000 1 128 0x08 .bool .rw false 0 .s (.any),
  row1 0x3000 1 128 0x09 .u32 .rws false 0xa0a00 .w (.rel .chPfCfg),
  row1 0x3000 1 128 0x0A .u32 .rws false 0x404 .w (.rel .chPtCfg),
  row1 0x3000 1 128 0x0B .u32 .rws false 1 .w (.range 1 16777216),
  row1 0x3000 1 128 0x0C .u32 .rws false 0xff5000 .w (.rel .chSdCfg),
  row1 0x3080 1 128 0x00 .u8 .ro false 0x12 .k (.any),
  row1 0x3080 1 128 0x01 .bool .ro false 0 .v (.any),
  row1 0x3080 1 128 0x02 .u16 .ro false 0 .v (.any),
  row1 0x3080 1 128 0x03 .u32 .ro false 0 .v (.any),
  row1 0x3080 1 128 0x04 .u32 .w1c false 0 .v (.bits 0x3FF),
  row1 0x3080 1 128 0x05 .u32 .rw false 0 .w (.bits 0x3FF),
  row1 0x3080 1 128 0x06 .u32 .ro false 0 .v (.any),
  row1 0x3080 1 128 0x07 .u32 .ro false 0 .v (.any),
  row1 0x3080 1 128 0x08 .u32 .ro false 0 .v (.any),
  row1 0x3080 1 128 0x09 .i32 .ro false 0 .v (.any),
  row1 0x3080 1 128 0x0A .u64 .ro false 0 .v (.any),
  row1 0x3080 1 128 0x0C .i32 .ro false 0 .v (.any),
  row1 0x3080 1 128 0x0D .i32 .ro false 0 .v (.any),
  row1 0x3080 1 128 0x0E .u32 .ro false 0 .s (.any),
  row1 0x3080 1 128 0x0F .u32 .ro false 0 .s (.any),
  row1 0x3080 1 128 0x10 .u32 .ro false 0 .s (.any),
  row1 0x3080 1 128 0x11 .u32 .ro false 0 .s (.any),
  row1 0x3080 1 128 0x12 .u8 .wo false 0 .v (.any),
  row1 0x3100 1 128 0x00 .u8 .ro false 6 .k (.any),
  row1 0x3100 1 128 0x01 .u64 .wo false 0 .v (.any),
  row1 0x3100 1 128 0x03 .u64 .ro false 0 .v (.any),
  row1 0x3100 1 128 0x05 .bool .wo false 0 .v (.any),
  row1 0x3100 1 128 0x06 .bool .wo false 0 .v (.any)]
def rowsChan : List Row := rowsChan0

def rowsMov0 : List Row := [
  row1 0x3180 1 16 0x00 .u8 .ro false 0xd .k (.any),
  row1 0x3180 1 16 0x01 .bool .rw false 0 .s (.any),
  row1 0x3180 1 16 0x02 .u32 .rws false 0 .w (.rel .align32),
  row1 0x3180 1 16 0x03 .u8 .wo false 0 .v (.range 1 2),
  row1 0x3180 1 16 0x04 .u8 .ro false 0 .v (.any),
  row1 0x3180 1 16 0x05 .u32 .ro false 0 .v (.any),
  row1 0x3180 1 16 0x06 .u32 .ro false 0 .v (.any),
  row1 0x3180 1 16 0x07 .u8 .ro false 0 .v (.any),
  row1 0x3180 1 16 0x08 .u32 .ro false 0 .v (.any),
  row1 0x3180 1 16 0x09 .u32 .w1c false 0 .v (.bits 0xF),
  row1 0x3180 1 16 0x0A .u32 .rw false 0 .w (.bits 0xF),
  row1 0x3180 1 16 0x0B .u32 .ro false 0 .s (.any),
  row1 0x3180 1 16 0x0C .u32 .ro false 0 .s (.any),
  row1 0x3180 1 16 0x0D .u32 .ro false 0 .s (.any)]
def rowsMov : List Row := rowsMov0

def rowsPwm0 : List Row := [
  row1 0x3400 16 16 0x00 .u8 .ro false 0xf .k (.any),
  row1 0x3400 16 16 0x01 .bool .rw false 0 .s (.any),
  row1 0x3400 16 16 0x02 .bool .rw false 0 .s (.any),
  row1 0x3400 16 16 0x03 .u32 .rws false 4 .w (.rel .pwmCfg),
  row1 0x3400 16 16 0x04 .u8 .rws false 0 .w (.any),
  row1 0x3400 16 16 0x05 .u64 .rws false 0 .w (.any),
  row1 0x3400 16 16 0x07 .u32 .rw false 0x30d400 .w (.rel .pwmPeriod),
  row1 0x3400 16 16 0x08 .u32 .wo false 0 .v (.rel .pwmPeriodImm),
  row1 0x3400 16 16 0x09 .bool .rw false 0 .s (.any),
  row1 0x3400 16 16 0x0A .u16 .rws false 0x190 .w (.range 16 65535),
  row1 0x3400 16 16 0x0B .u8 .rw false 0 .s (.rel .pwmChOff),
  row1 0x3400 16 16 0x0C .u32 .ro false 0 .v (.any),
  row1 0x3400 16 16 0x0D .u32 .ro false 0 .v (.any),
  row1 0x3400 16 16 0x0E .u64 .ro false 0 .v (.any),
  ⟨0x3401, 16, 16, 1, 8, 0x00, 1, 1, .u8, .ro, false, 5, .k, .any⟩,
  ⟨0x3401, 16, 16, 1, 8, 0x01, 1, 1, .u32, .rw, false, 0, .w, .any⟩,
  ⟨0x3401, 16, 16, 1, 8, 0x02, 1, 1, .u32, .rw, false, 0, .w, .any⟩,
  ⟨0x3401, 16, 16, 1, 8, 0x03, 1, 1, .u32, .ro, false, 0, .v, .any⟩,
  ⟨0x3401, 16, 16, 1, 8, 0x04, 1, 1, .i32, .ro, false, 0, .v, .any⟩,
  ⟨0x3401, 16, 16, 1, 8, 0x05, 1, 1, .u32, .ro, false, 0, .s, .any⟩,
  ⟨0x3409, 16, 16, 1, 4, 0x00, 1, 1, .u8, .ro, false, 0xd, .k, .any⟩,
  ⟨0x3409, 16, 16, 1, 4, 0x01, 1, 1, .u32, .rws, false, 1, .w, .bits 0x3⟩,
  ⟨0x3409, 16, 16, 1, 4, 0x02, 1, 1, .u16, .rws, false, 0x4b0, .w, .any⟩,
  ⟨0x3409, 16, 16, 1, 4, 0x03, 1, 1, .u16, .rws, false, 0xa0, .w, .any⟩,
  ⟨0x3409, 16, 16, 1, 4, 0x04, 1, 1, .u16, .rws, false, 0x640, .w, .rel .dtMax⟩,
  ⟨0x3409, 16, 16, 1, 4, 0x05, 1, 1, .u16, .rw, false, 0x78, .w, .any⟩,
  ⟨0x3409, 16, 16, 1, 4, 0x06, 1, 1, .u16, .rw, false, 0x28, .w, .range 1 65535⟩,
  ⟨0x3409, 16, 16, 1, 4, 0x07, 1, 1, .u8, .rw, false, 0x20, .w, .range 0 63⟩,
  ⟨0x3409, 16, 16, 1, 4, 0x08, 1, 1, .u8, .rw, false, 0, .s, .rel .pairOvr⟩,
  ⟨0x3409, 16, 16, 1, 4, 0x09, 1, 1, .u16, .ro, false, 0, .v, .any⟩,
  ⟨0x3409, 16, 16, 1, 4, 0x0A, 1, 1, .u16, .ro, false, 0, .v, .any⟩,
  ⟨0x3409, 16, 16, 1, 4, 0x0B, 1, 1, .u16, .ro, false, 0xffff, .v, .any⟩,
  ⟨0x3409, 16, 16, 1, 4, 0x0C, 1, 1, .u16, .ro, false, 0xffff, .v, .any⟩,
  ⟨0x3409, 16, 16, 1, 4, 0x0D, 1, 1, .u32, .ro, false, 0, .s, .any⟩,
  row1 0x340D 16 16 0x00 .u8 .ro false 8 .k (.any),
  row1 0x340D 16 16 0x01 .u32 .w1c false 0 .v (.bits 0xFF),
  row1 0x340D 16 16 0x02 .u32 .rw false 0 .w (.bits 0xFF),
  row1 0x340D 16 16 0x03 .u8 .rw false 1 .w (.range 1 255),
  row1 0x340D 16 16 0x04 .u32 .ro false 0 .v (.any),
  row1 0x340D 16 16 0x05 .u32 .ro false 0 .s (.any)]
def rowsPwm1 : List Row := [
  row1 0x340D 16 16 0x06 .u32 .ro false 0 .s (.any),
  row1 0x340D 16 16 0x07 .u32 .ro false 0 .s (.any),
  row1 0x340D 16 16 0x08 .u16 .wo false 0 .v (.bits 0xFFF7)]
def rowsPwm : List Row := rowsPwm0 ++ rowsPwm1

def rowsTrp0 : List Row := [
  row1 0x3500 1 16 0x00 .u8 .ro false 0xc .k (.any),
  row1 0x3500 1 16 0x01 .u32 .rws false 0 .w (.rel .trpCfg),
  row1 0x3500 1 16 0x02 .u8 .rw false 0x80 .w (.any),
  row1 0x3500 1 16 0x03 .u8 .rw false 0x80 .w (.any),
  row1 0x3500 1 16 0x04 .u16 .rw false 0x64 .w (.range 0 4095),
  row1 0x3500 1 16 0x05 .u8 .rw false 2 .w (.range 0 15),
  row1 0x3500 1 16 0x06 .u8 .rw false 2 .w (.range 0 15),
  row1 0x3500 1 16 0x07 .u8 .rw false 0xff .w (.any),
  row1 0x3500 1 16 0x08 .u8 .rw false 0xff .w (.any),
  row1 0x3500 1 16 0x09 .u8 .rw false 0 .w (.any),
  row1 0x3500 1 16 0x0A .u8 .rw false 1 .w (.any),
  row1 0x3500 1 16 0x0B .u8 .rw true 0 .k (.any),
  row1 0x3500 1 16 0x0C .u16 .rw true 0x190 .k (.range 40 796),
  row1 0x3510 1 16 0x00 .u8 .ro false 0xf .k (.any),
  row1 0x3510 1 16 0x01 .u32 .ro false 0 .v (.any),
  row1 0x3510 1 16 0x02 .u64 .ro false 0 .v (.any),
  row1 0x3510 1 16 0x04 .u8 .ro false 0 .s (.any),
  row1 0x3510 1 16 0x05 .u8 .ro false 0 .s (.any),
  row1 0x3510 1 16 0x06 .u8 .wo false 0 .v (.bits 0x7),
  row1 0x3510 1 16 0x07 .bool .wo true 0 .v (.any),
  row1 0x3510 1 16 0x08 .u8 .wo false 0 .v (.range 1 2),
  row1 0x3510 1 16 0x09 .u32 .w1c false 0 .v (.bits 0x3F),
  row1 0x3510 1 16 0x0A .u32 .rw false 0 .w (.bits 0x3F),
  row1 0x3510 1 16 0x0B .u32 .ro false 0 .s (.any),
  row1 0x3510 1 16 0x0C .u32 .ro false 0 .s (.any),
  row1 0x3510 1 16 0x0D .u32 .ro false 0 .s (.any),
  row1 0x3510 1 16 0x0E .u32 .ro false 0 .s (.any),
  row1 0x3510 1 16 0x0F .u32 .ro false 0 .s (.any),
  row0 0x3520 0x00 .u8 .ro false 8 .k (.any),
  ⟨0x3520, 1, 1, 1, 1, 0x01, 8, 1, .u8, .rw, true, 0xff, .k, .rel .keeprun⟩]
def rowsTrp : List Row := rowsTrp0

def rowsTur0 : List Row := [
  row1 0x3800 16 8 0x00 .u8 .ro false 0xc .k (.any),
  row1 0x3800 16 8 0x01 .bool .rw false 0 .s (.any),
  row1 0x3800 16 8 0x02 .u8 .ro false 0 .v (.any),
  row1 0x3800 16 8 0x03 .u32 .ro false 0 .v (.any),
  row1 0x3800 16 8 0x04 .u32 .ro false 0 .w (.any),
  row1 0x3800 16 8 0x05 .u16 .ro false 0 .w (.any),
  row1 0x3800 16 8 0x06 .u32 .w1c false 0 .s (.bits 0x1),
  row1 0x3800 16 8 0x07 .u32 .w1s false 0 .v (.any),
  row1 0x3800 16 8 0x08 .u32 .w1c false 0 .v (.any),
  row1 0x3800 16 8 0x09 .u32 .w1c false 0 .v (.bits 0x1F),
  row1 0x3800 16 8 0x0A .u32 .rw false 0 .w (.bits 0x1F),
  row1 0x3800 16 8 0x0B .u8 .rw false 0 .w (.range 0 15),
  row1 0x3800 16 8 0x0C .u32 .ro false 0 .s (.any),
  row0 0x380F 0x00 .u8 .ro false 2 .k (.any),
  row0 0x380F 0x01 .u16 .w1s false 0 .v (.any),
  row0 0x380F 0x02 .u16 .w1c false 0 .v (.any)]
def rowsTur : List Row := rowsTur0

def rowsCtx0 : List Row := [
  row1 0x3880 1 128 0x00 .u8 .ro false 0x23 .k (.any),
  row1 0x3880 1 128 0x01 .bool .rw false 0 .s (.any),
  row1 0x3880 1 128 0x02 .bool .rw false 0 .s (.any),
  row1 0x3880 1 128 0x03 .bool .rw false 0 .v (.any),
  row1 0x3880 1 128 0x04 .u8 .wo false 0 .v (.range 1 2),
  row1 0x3880 1 128 0x05 .u16 .rws false 0 .w (.range 0 1023),
  row1 0x3880 1 128 0x06 .u32 .rws false 0xcffc0 .w (.rel .ctxCfg),
  row1 0x3880 1 128 0x07 .u32 .rws false 7 .w (.any),
  row1 0x3880 1 128 0x08 .u32 .rws false 0xffffffff .w (.rel .ctxPins),
  row1 0x3880 1 128 0x09 .u32 .rws false 0xffffffff .w (.rel .ctxPins),
  row1 0x3880 1 128 0x0A .u16 .rws false 0 .w (.any),
  row1 0x3880 1 128 0x0B .u8 .ro false 0 .v (.any),
  row1 0x3880 1 128 0x0C .u16 .ro false 0 .v (.any),
  row1 0x3880 1 128 0x0D .u32 .rws false 0 .v (.any),
  row1 0x3880 1 128 0x0E .u32 .rws false 0 .v (.any),
  ⟨0x3880, 1, 128, 1, 1, 0x0F, 4, 1, .u32, .rws, false, 0, .v, .any⟩,
  row1 0x3880 1 128 0x13 .u32 .ro false 0 .v (.any),
  row1 0x3880 1 128 0x14 .u32 .ro false 0 .v (.any),
  row1 0x3880 1 128 0x15 .u16 .ro false 0 .v (.any),
  row1 0x3880 1 128 0x16 .u32 .ro false 0 .v (.any),
  row1 0x3880 1 128 0x17 .u32 .ro false 0 .v (.any),
  row1 0x3880 1 128 0x18 .u16 .ro false 0 .v (.any),
  row1 0x3880 1 128 0x19 .u16 .ro false 0 .v (.any),
  row1 0x3880 1 128 0x1A .u32 .wo false 0 .v (.any),
  row1 0x3880 1 128 0x1B .u32 .ro false 0 .v (.any),
  row1 0x3880 1 128 0x1C .bool .wo false 0 .v (.any),
  row1 0x3880 1 128 0x1D .u8 .wo false 0 .v (.bits 0x3),
  row1 0x3880 1 128 0x1E .u32 .w1c false 0 .s (.bits 0xF),
  row1 0x3880 1 128 0x1F .u32 .ro false 0 .s (.any),
  row1 0x3880 1 128 0x20 .u32 .w1c false 0 .v (.bits 0xFFF),
  row1 0x3880 1 128 0x21 .u32 .rw false 0 .w (.bits 0xFFF),
  row1 0x3880 1 128 0x22 .u32 .ro false 0 .s (.any),
  row1 0x3880 1 128 0x23 .u32 .ro false 0 .s (.any)]
def rowsCtx : List Row := rowsCtx0

def rowsBelSrc0 : List Row := [
  row1 0x3C00 1 384 0x00 .u8 .ro false 1 .k (.any),
  row1 0x3C00 1 384 0x01 .u32 .rw false 0 .w (.rel .belSrc)]
def rowsBelSrc : List Row := rowsBelSrc0

def rowsBelF0 : List Row := [
  row0 0x3E00 0x00 .u8 .ro false 7 .k (.any),
  row0 0x3E00 0x01 .u32 .ro false 0 .s (.any),
  row0 0x3E00 0x02 .u32 .ro false 0 .s (.any),
  row0 0x3E00 0x03 .u32 .ro false 0 .s (.any),
  row0 0x3E00 0x04 .u32 .ro false 0 .s (.any),
  row0 0x3E00 0x05 .u32 .ro false 0 .s (.any),
  row0 0x3E00 0x06 .u32 .ro false 0 .s (.any),
  row0 0x3E00 0x07 .u8 .wo false 0 .v (.any),
  row0 0x3E01 0x00 .u8 .ro false 0x10 .k (.any),
  row0 0x3E02 0x00 .u8 .ro false 0x10 .k (.any),
  row0 0x3E03 0x00 .u8 .ro false 0x10 .k (.any),
  row0 0x3E04 0x00 .u8 .ro false 0x10 .k (.any),
  row0 0x3E05 0x00 .u8 .ro false 0x10 .k (.any),
  ⟨0x3E01, 1, 1, 1, 1, 0x01, 16, 1, .u32, .w1s, false, 0, .s, .any⟩,
  ⟨0x3E02, 1, 1, 1, 1, 0x01, 16, 1, .u32, .w1c, false, 0, .s, .any⟩,
  ⟨0x3E03, 1, 1, 1, 1, 0x01, 16, 1, .u32, .w1s, false, 0, .v, .any⟩,
  ⟨0x3E04, 1, 1, 1, 1, 0x01, 16, 1, .u32, .w1c, false, 0, .v, .any⟩,
  ⟨0x3E05, 1, 1, 1, 1, 0x01, 16, 1, .u32, .ro, false, 0, .v, .any⟩,
  row0 0x3E06 0x00 .u8 .ro false 0x40 .k (.any),
  ⟨0x3E06, 1, 1, 1, 1, 0x01, 64, 1, .u32, .ro, false, 0, .v, .any⟩,
  row1 0x3E20 1 32 0x00 .u8 .ro false 4 .k (.any),
  row1 0x3E20 1 32 0x01 .u8 .rw false 1 .w (.range 1 255),
  row1 0x3E20 1 32 0x02 .u16 .rw false 0x3e8 .w (.range 1 65535),
  row1 0x3E20 1 32 0x03 .u16 .ro false 0 .v (.any),
  row1 0x3E20 1 32 0x04 .u32 .ro false 0 .s (.any)]
def rowsBelF : List Row := rowsBelF0

def rowsKeep0 : List Row := [
  row0 0x3F00 0x00 .u8 .ro false 0xa .k (.any),
  row0 0x3F00 0x01 .u8 .ro false 0 .v (.any),
  row0 0x3F00 0x02 .u8 .ro false 1 .r (.any),
  row0 0x3F00 0x03 .u32 .ro false 0 .s (.any),
  row0 0x3F00 0x04 .u32 .ro false 0 .s (.any),
  row0 0x3F00 0x05 .u32 .ro false 0 .s (.any),
  row0 0x3F00 0x06 .u32 .ro false 0 .s (.any),
  row0 0x3F00 0x07 .u32 .ro false 0 .s (.any),
  row0 0x3F00 0x08 .u32 .ro false 0 .s (.any),
  row0 0x3F00 0x09 .u32 .ro false 0 .s (.any),
  row0 0x3F00 0x0A .u8 .wo false 0 .v (.any),
  row0 0x3F01 0x00 .u8 .ro false 1 .k (.any),
  row0 0x3F01 0x01 .u32 .ro false 0 .s (.any)]
def rowsKeep : List Row := rowsKeep0

def rowsDom0 : List Row := [
  row1 0x5000 1 16 0x00 .dom .rws false 0 .w (.any),
  row1 0x5100 1 256 0x00 .u8 .ro false 0x10 .k (.any),
  ⟨0x5100, 1, 256, 1, 1, 0x01, 16, 1, .dom, .rw, false, 0, .w, .any⟩,
  row1 0x5200 1 8 0x00 .dom .rws false 0 .w (.any),
  row0 0x5300 0x00 .dom .ro false 0 .v (.any)]
def rowsDom : List Row := rowsDom0

/-- The rows of the unit that index `idx` is allocated to (R47); an index outside every range has none. -/
def rowsOf (idx : Nat) : List Row :=
  if 0x1000 ≤ idx ∧ idx ≤ 0x10FF then rowsDic
  else if 0x1100 ≤ idx ∧ idx ≤ 0x117F then rowsPwrH
  else if 0x1180 ≤ idx ∧ idx ≤ 0x11FF then rowsPwrF
  else if 0x1200 ≤ idx ∧ idx ≤ 0x12FF then rowsBar
  else if 0x1400 ≤ idx ∧ idx ≤ 0x15FF then rowsNet
  else if 0x1600 ≤ idx ∧ idx ≤ 0x16FF then rowsCan
  else if 0x1700 ≤ idx ∧ idx ≤ 0x17FF then rowsRed
  else if 0x1800 ≤ idx ∧ idx ≤ 0x18FF then rowsSvc
  else if 0x1900 ≤ idx ∧ idx ≤ 0x19FF then rowsSaf
  else if 0x1A00 ≤ idx ∧ idx ≤ 0x1AFF then rowsBelH
  else if 0x1B00 ≤ idx ∧ idx ≤ 0x1BFF then rowsSpr
  else if 0x2000 ≤ idx ∧ idx ≤ 0x20FF then rowsTime
  else if 0x2100 ≤ idx ∧ idx ≤ 0x21FF then rowsWhl
  else if 0x2200 ≤ idx ∧ idx ≤ 0x25FF then rowsEvt
  else if 0x2600 ≤ idx ∧ idx ≤ 0x26FF then rowsLan
  else if 0x2800 ≤ idx ∧ idx ≤ 0x28FF then rowsCam
  else if 0x2900 ≤ idx ∧ idx ≤ 0x297F then rowsAxis
  else if 0x2980 ≤ idx ∧ idx ≤ 0x298F then rowsOcu
  else if 0x3000 ≤ idx ∧ idx ≤ 0x317F then rowsChan
  else if 0x3180 ≤ idx ∧ idx ≤ 0x31FF then rowsMov
  else if 0x3400 ≤ idx ∧ idx ≤ 0x34FF then rowsPwm
  else if 0x3500 ≤ idx ∧ idx ≤ 0x35FF then rowsTrp
  else if 0x3800 ≤ idx ∧ idx ≤ 0x387F then rowsTur
  else if 0x3880 ≤ idx ∧ idx ≤ 0x38FF then rowsCtx
  else if 0x3C00 ≤ idx ∧ idx ≤ 0x3DFF then rowsBelSrc
  else if 0x3E00 ≤ idx ∧ idx ≤ 0x3EFF then rowsBelF
  else if 0x3F00 ≤ idx ∧ idx ≤ 0x3FFF then rowsKeep
  else if 0x5000 ≤ idx ∧ idx ≤ 0x5FFF then rowsDom
  else []

/-- The instance numbers (i, j) of an index under a row, if the index belongs to the row. -/
def Row.inst (r : Row) (idx : Nat) : Option (Nat × Nat) :=
  if idx < r.base then none
  else
    let d := idx - r.base
    let i := d / r.s1
    let j := d % r.s1 / r.s2
    if i < r.n1 ∧ j < r.n2 ∧ d = i * r.s1 + j * r.s2 then some (i, j) else none

/-- The repetition number t of a subindex under a row, if the subindex belongs to the row. -/
def Row.rep (r : Row) (sub : Nat) : Option Nat :=
  if sub < r.sub then none
  else
    let d := sub - r.sub
    let t := d / r.sstep
    if t < r.nsub ∧ d = t * r.sstep then some t else none

/-- An object found in the tables: its row and its instance numbers. -/
structure Found where
  row : Row
  i : Nat
  j : Nat
  t : Nat
deriving DecidableEq, Repr

def Row.find (r : Row) (idx sub : Nat) : Option Found :=
  match r.inst idx, r.rep sub with
  | some (i, j), some t => some ⟨r, i, j, t⟩
  | _, _ => none

/-- The object at an index and subindex in the dictionary view (R11, R48). -/
def findObj (idx sub : Nat) : Option Found := (rowsOf idx).findSome? (·.find idx sub)

/-- Whether the index is defined by some chapter (R47). -/
def indexDefined (idx : Nat) : Bool := (rowsOf idx).any (fun r => (r.inst idx).isSome)

def Ty.wide : Ty → Bool
  | .u64 | .i64 => true
  | _ => false

/-- The object whose high word stands at this subindex in the register view (R11). -/
def findHigh (idx sub : Nat) : Option Found :=
  if sub = 0 then none
  else match findObj idx (sub - 1) with
    | some f => if f.row.ty.wide then some f else none
    | none => none

/-- The object of a found row. -/
def Found.obj (f : Found) : Obj :=
  ⟨f.row.base + f.row.s1 * f.i + f.row.s2 * f.j, f.row.sub + f.row.sstep * f.t, f.row.dflt⟩

end Sys2Proof.Machine
end

