-- ==== Sys2Proof/Machine/State.lean ====
section
/-! DEFINITION. The state of the JX8128. Every dictionary object has one home, the sparse map `regs` (Objects.lean gives its
default); what the spec gives a unit beyond its objects stands in the structures below. Maps are the sparse lists of
Maps.lean: an instance that is not listed is in its reset condition. -/

namespace Sys2Proof.Machine

/-- Why the machine stops with a fault. -/
inductive Fault where
  /-- Raised by PIN for a low pulse from 200 ns up to below 1 µs, whose outcome R538 calls undefined; safe. -/
  | undefinedResetPulse
deriving DecidableEq, Repr

/-- Why a command has no meaning. -/
inductive Refusal where
  /-- Raised by an arm of `exec` whose command has no meaning yet; safe. -/
  | notModelled (mnemonic : String)
  /-- Raised by INSTRUCTION, READ_MEM and WRITE_MEM for a word of Spire's queue-port region (R33) other than the claim ports
  and the two SAFE ports: the spec names descriptor rings and mailbox buffers there and gives no address and no effect; safe. -/
  | undescribedPort (addr : Nat)
deriving DecidableEq, Repr

/-! ## Cores (chapter 11) -/

/-- One core: Spire0, Spire1 or the Keep pair. -/
structure Core where
  /-- 0 U, 1 S, 2 M (R362). -/
  lvl : Nat := 2
  xmask : Nat := 3
  fast : Bool := false
  eact : Bool := false
  pc : Word := 0
  /-- General registers: number n main bank, 32 + n fast bank, 64 + n floating point (R376). -/
  x : List (Nat × Word) := []
  /-- The control registers that only hold what was written, by number; unlisted at their reset value (R363). -/
  csr : List (Nat × Word) := []
  cycle : Nat := 0
  instret : Nat := 0
  /-- Shadow stacks of U, S and M, top first (R378). -/
  ssU : List Word := []
  ssS : List Word := []
  ssM : List Word := []
  /-- The 32-byte block a load-reserved holds (R386). -/
  resv : Option Nat := none
  /-- The clock is gated by WFI (R377). -/
  gated : Bool := false
  /-- Held before the restart vector: Spire1 until SPR_RELEASE (R391). -/
  held : Bool := false
  /-- Halted in debug (R389). -/
  halted : Bool := false
  /-- A RESUME of Keep waits for the LCLK edge that starts FCLK (R82). -/
  resume : Bool := false
  /-- STEP lets the halted core execute one instruction (R389). -/
  step : Bool := false
  /-- The debug port halts the core at EBREAK (R390). -/
  ebreakHalt : Bool := false
  dapAddr : Word := 0
  /-- Codes of class 7 conditions not yet entered, oldest first (R366, R370). -/
  c7 : List Nat := []
deriving DecidableEq, Repr

/-! ## Belfry (chapter 12) -/

/-- What a Belfry holds of one source (R395, R398). -/
structure Src where
  pend : Bool := false
  cnt : Nat := 0
  sat : Bool := false
  /-- In service for the core with this TARGET number; 0 not in service. -/
  svc : Nat := 0
  /-- Released by its coalescing group (R406). -/
  rel : Bool := false
  /-- BEL_SRC_CFG as the latest assertion carried it. -/
  cfg : Nat := 0
deriving DecidableEq, Repr

/-- A coalescing group (R406, R407). -/
structure Grp where
  cnt : Nat := 0
  /-- The tick or SCLK cycle in which COLLECTING set. -/
  start : Option Nat := none
deriving DecidableEq, Repr

/-- One side's Belfry. -/
structure Belfry where
  src : List (Nat × Src) := []
  grp : List (Nat × Grp) := []
  /-- Forwarded arrivals held during a Keep debug halt: ID, count (16 more on the first of a message) and configuration
  (R411). -/
  held : List (Nat × Nat × Nat) := []
  /-- Arrivals of the present tick, in the same form; they apply in rising ID at its end (R405). -/
  arr : List (Nat × Nat × Nat) := []
  /-- FTB at the tick that a Keep debug halt froze the field Belfry in (R411). -/
  frozen : Option Nat := none
  /-- Host: the HOST_EXT sources that were claimable at the end of the last tick, and whether ball INTH stands low (R405, R409). -/
  ext : List Nat := []
  inthLow : Bool := false
deriving DecidableEq, Repr

/-! ## The barrier (chapter 13) -/

/-- A message of the catalogue: TYPE and payload (R423). -/
structure Msg where
  typ : Nat
  payload : List Byte
deriving DecidableEq, Repr

/-- Where a VLP request came from: port, station address, IPv4 address and UDP port (R449). -/
structure VlpOrg where
  port : Nat
  mac : Nat
  ip : Nat
  udp : Nat
deriving DecidableEq, Repr

/-- A dictionary request with its opcode, and for the route VLP where it came from. -/
structure Ask where
  op : Nat
  q : Req
  org : Option VlpOrg := none
deriving DecidableEq, Repr

/-- A forwarded dictionary request at the host end (R424, R62). -/
structure Fwd where
  ask : Ask
  /-- Host SCLK cycles at the forwarding. -/
  at_ : Nat
  /-- Response bytes so far and the next fragment's index. -/
  got : List Byte := []
  next : Nat := 0
deriving DecidableEq, Repr

/-- A request partly received by the field agent (R424). -/
structure Part where
  got : List Byte := []
  next : Nat := 0
  auth : Bool := false
deriving DecidableEq, Repr

/-- A SAFE copy that waits for its match on the other channel (R429, R430). -/
structure SafeCopy where
  cmd : Nat
  cnt : Nat
  /-- FTB at the arrival, and whether the discrepancy it is part of was raised with another copy. -/
  at_ : Nat
  told : Bool := false
deriving DecidableEq, Repr

/-- One end of the link (R417 to R422). -/
structure BarEnd where
  /-- The end's state, and its receive lanes that are aligned, which BAR_x_STATE and BAR_x_LANES show (R417). -/
  st : Nat := 0
  lanes : Nat := 0
  /-- Sending TS2 rather than TS1 (R417). -/
  ts2 : Bool := false
  /-- The next sequence number to send, and the next expected. -/
  txSeq : Nat := 0
  rxSeq : Nat := 0
  /-- The peer's HELLO was received; the own HELLO was acknowledged. -/
  gotHello : Bool := false
  /-- A sequenced frame was dropped since the last LINK. -/
  nak : Bool := false
  /-- Sequenced messages sent and not acknowledged, oldest first, with their SEQ. -/
  replay : List (Nat × Msg) := []
  /-- Those of them that are still to be sent again (R421). -/
  resend : List (Nat × Msg) := []
  /-- Messages waiting to be sent, with their class, in queueing order (R422). -/
  queue : List (Nat × Msg) := []
  /-- A LINK is due and waits for its turn (R422). -/
  due : Bool := false
  /-- Frames sent and not yet arrived at the other end. -/
  wire : List (List Byte) := []
  /-- Forwarded assertions that wait to be sent: ID and count (R396). -/
  evts : List (Nat × Nat) := []
  /-- Ticks since the last frame that passed the first two checks of R420, since the last LINK sent, and since ACK
  advanced. -/
  quiet : Nat := 0
  sinceLink : Nat := 0
  sinceAck : Nat := 0
deriving DecidableEq, Repr

/-- The barrier and the strobe pair. -/
structure Barrier where
  h : BarEnd := {}
  f : BarEnd := {}
  /-- The field end's reports as the host holds them: HALTED and SAFE of the latest LINK (R423). -/
  peerHalted : Bool := false
  peerSafe : Bool := false
  /-- The field's state as the host knows it from STATE: 0 RUN, 1 DOZE, 2 HOLD, 3 SLEEP. -/
  peerState : Nat := 0
  fwds : List (Nat × Fwd) := []
  parts : List (Nat × Part) := []
  /-- XIDs given up by the service, whose late response is discarded (R62). -/
  dead : List Nat := []
  /-- Valid copies of each channel that wait for their match, oldest first (R429, R430). -/
  copyA : List SafeCopy := []
  copyB : List SafeCopy := []
  /-- Content of the latest SAFE_STATUS (R426): flags and both counters. -/
  status : Option (Nat × Nat × Nat) := none
  /-- A controlled stop runs since this FTB (R436). -/
  cstop : Option Nat := none
  /-- The host has adopted the counters of a SAFE_STATUS since LINKED entry (R431). -/
  adopted : Bool := false
  /-- Counters of the first SAFE_STATUS that came while the host end was still in HELLO (R431). -/
  early : Option (Nat × Nat) := none
  /-- Strobe captures: number and field LT_NOW (R432). -/
  strobe : Option (Nat × Nat × Nat) := none
  /-- A running calibration: strobes still to be sent, the SCLK cycle of the next one, the FTB ticks in which the field echoes those it
  sampled, and the echoes the host sampled with the sum of their round trips in ps (R433). -/
  calLeft : Nat := 0
  calAt : Nat := 0
  echoes : List Nat := []
  calGot : Nat := 0
  calSum : Nat := 0
  /-- Host line time of the last strobe and the last calibration. -/
  lastStrobe : Nat := 0
  lastCal : Nat := 0
  /-- The delay d in force, in ps, and whether a STROBE_CAL was applied since the last field-side reset (R550). -/
  calNs : Int := 0
  calDone : Bool := false
  /-- Host K block bytes restored so far (R25). -/
  restored : List Byte := []
  kReady : Bool := false
  /-- A RELOAD waits for the host K block, and a FACTORY for the field's answer (R73). -/
  reload : Bool := false
  factory : Bool := false
  /-- Restored values of host user objects, for their declaration (R25, R49). -/
  userVals : List (Nat × Nat) := []
  userStrs : List (Nat × List Byte) := []
  /-- Firmware version in the field's latest HELLO (R423). -/
  helloVer : Nat := 0
  /-- Version of the field firmware that runs, 0 for none (R518). -/
  fieldVer : Nat := 0
  /-- Host K block bytes received for a store. -/
  persIn : List Byte := []
  /-- Field image bytes received, and those the host has still to send (R518, R519). -/
  fwIn : List Byte := []
  fwOut : Option Nat := none
deriving DecidableEq, Repr

/-! ## Timebase (chapter 3) -/

/-- What the timebase holds beyond its objects. -/
structure Timebase where
  ftb : Nat := 0
  lt : Nat := 0
  /-- The 32-bit fraction below LT_NOW (R85). -/
  frac : Nat := 0
  /-- Ticks since the last LCLK edge, and FTB at the entry of LCLK mode (R81, R82). -/
  lclk : Nat := 0
  slowFrom : Option Nat := none
  /-- Prescale accumulators (R94) and the counts at the start of the tick of the last advance (R96). -/
  pa : List (Nat × Nat) := []
  /-- A step that the next tick adds to LT_NOW (R87). -/
  step : Int := 0
  /-- Count loads that the next tick performs (R95). -/
  loads : List (Nat × Nat) := []
  /-- Beacons in a row within the lock threshold, and the reference point of R92. -/
  good : Nat := 0
  ref : Nat := 0
  /-- Host SCLK cycles and host line time in half nanoseconds (R410, R445). -/
  sclk : Nat := 0
  hlt2 : Nat := 0
  /-- The latest host line time, in half nanoseconds, and field line time at which compares were tested: a step back repeats no match
  (R88). -/
  hltSeen : Nat := 0
  ltSeen : Nat := 0
deriving DecidableEq, Repr

/-! ## Dictionary service (chapter 2) -/

/-- An open DOMAIN transfer (R64 to R67). -/
structure Xfer where
  route : Route
  idx : Nat
  sub : Nat
  wr : Bool
  total : Nat
  crc : Nat
  /-- Bytes staged by a write, or the content captured by a read. -/
  data : List Byte
  /-- Next expected offset. -/
  next : Nat := 0
  /-- Host SCLK cycles at the last segment. -/
  last : Nat := 0
  /-- Closed by the service for idleness or a barrier loss; the next request on the handle learns it (R67). -/
  closed : Bool := false
deriving DecidableEq, Repr

/-- A mailbox slot (R74, R76, R77). -/
structure Slot where
  busy : Bool := false
  ready : Bool := false
  rsp : List Byte := []
deriving DecidableEq, Repr

/-- A parameter image (R69), with the count of stores and the length that its header keeps (R79). -/
structure Image where
  seq : Nat
  count : Nat := 0
  bytes : Nat := 0
  vals : List (Nat × Nat)
  strs : List (Nat × List Byte)
  key : Option (List Byte)
deriving DecidableEq, Repr

/-- Who waits for the answer to a STORE (R61, R70): nobody, the route of a write command, or a request. -/
inductive StoreFor where
  | nobody
  | route (r : Route)
  | ask (a : Ask)
deriving DecidableEq, Repr

/-- A user object (R49): declared type, access, M- prefix, retention and default. -/
structure User where
  idx : Nat
  sub : Nat
  ty : Ty
  acc : Acc
  mach : Bool
  ret : Ret
  dflt : Nat
deriving DecidableEq, Repr

structure Dic where
  /-- Requests that the service accepted and has not begun to execute, oldest first (R41). -/
  waiting : List Ask := []
  xfers : List (Nat × Xfer) := []
  /-- Slots by 16 × route + slot. -/
  slots : List (Nat × Slot) := []
  mbxIrqEn : Nat := 0
  /-- Words of BAR0 that PCIe writes and reads back: the request slots and the MSI-X table (R74, R409). -/
  bar0 : List (Nat × Nat) := []
  qspiErr : Bool := false
  /-- Words written to the parallel request FIFO, and words of the response not yet read. -/
  parIn : List (BitVec 16) := []
  parOut : List (BitVec 16) := []
  parErr : Bool := false
  /-- STRING objects that were written, by key (R50). -/
  strs : List (Nat × List Byte) := []
  /-- Contents of DOMAIN objects, by key (R68). -/
  doms : List (Nat × List Byte) := []
  /-- Staging words of R52, by port: 0, 1 Spire, 2 PCIe, 3 Keep, 4 field dictionary agent. -/
  stage : List (Nat × Nat) := []
  users : List User := []
  /-- The two parameter images and the one being written (R69, R70). -/
  bankA : Option Image := none
  bankB : Option Image := none
  storing : Option Image := none
  /-- Who waits for the answer to the last STORE, and the host SCLK cycle of its acceptance. -/
  storeFor : StoreFor := .nobody
  storeAt : Nat := 0
  /-- Newest valid bank is B. -/
  newestB : Bool := false
deriving DecidableEq, Repr

/-! ## Safety monitor (chapter 15) -/

/-- A safety session or a challenge that waits for its proof (R495, R496). -/
structure Sess where
  handle : Nat
  route : Route
  nonce : List Byte
  isOpen : Bool
  /-- FTB of the challenge or of the last request naming it. -/
  at_ : Nat
deriving DecidableEq, Repr

/-- A watchdog (R492, R520): the instant of the last good kick, whether the next key is the second one, and whether the
warning was given. -/
structure Wd where
  start : Nat := 0
  second : Bool := false
  warned : Bool := false
deriving DecidableEq, Repr

structure Monitor where
  latchA : Bool := true
  latchB : Bool := true
  /-- FTB of the latest cause or demand (R491), and of the field WDR that cause 8 has announced (R488). -/
  causeAt : Option Nat := none
  wdrAt : Option Nat := none
  /-- FTB of the latest release, with SAF_LATCHED, SAF_EVT and SAF_CNT_RELEASE before it (R491). -/
  relAt : Option (Nat × Nat × Nat × Nat) := none
  /-- The latest STO test pulse: the line and FTB of its start (R485). -/
  test : Option (Bool × Nat) := none
  wd : Wd := {}
  /-- FTB at which STO and keep-alive began to run (R483). -/
  kaFrom : Option Nat := none
  diagStart : Nat := 0
  ss1Start : Nat := 0
  /-- Fuses (R499) and the boot-key hash (R515). -/
  dbgLock : Bool := false
  safLock : Bool := false
  bootKey : Option (List Byte) := none
  /-- What DIC_FUSES shows of the fuses, taken at the host's resets. -/
  fuses : Nat := 0
  /-- The session key that was committed (R497). -/
  key : Option (List Byte) := none
  sess : List Sess := []
  /-- Failed proofs in a row, and the FTB until which CHALLENGE is busy. -/
  fails : Nat := 0
  lockUntil : Nat := 0
  /-- Log records waiting to be written, oldest first (R503), and the SEQ of the next record. -/
  logQ : List (List Byte) := []
  logSeq : Nat := 0
deriving DecidableEq, Repr

/-! ## Power (chapter 16) -/

/-- A request to the start governor (R526). -/
inductive Draw where
  | wake
  | octStart (o : Nat)
  | octRejoin (o : Nat)
  | tur (e : Nat)
deriving DecidableEq, Repr

structure Power where
  gov : List Draw := []
  /-- Requests of the present tick, which the governor takes up at its end (R527, R528). -/
  asked : List Draw := []
  /-- SLEEP of each side, and its request (R522, R524). -/
  fSleep : Bool := false
  fSleepReq : Bool := false
  hSleep : Bool := false
  hSleepReq : Bool := false
  /-- Wake stage to start next: 0 none, 1 to 4 for A to D, whether its draw is granted, and FTB of the last start. -/
  stage : Nat := 0
  granted : Bool := false
  stageAt : Nat := 0
  hWd : Wd := {}
  /-- PCIe link, PERST# and the function's MSI-X enable (R409). -/
  pcieUp : Bool := false
  perst : Bool := false
  msixEn : Bool := false
  /-- VFIO banks and VDDIO_H measured at 3.3 V at the side's POR (R506). -/
  bank33 : Nat := 0
  /-- VFIO rails found unpowered at the field POR (R506). -/
  unpow : Nat := 0
  vddio33 : Bool := false
  /-- The supplies as the monitors see them, which PWR_F_RAIL_STAT and PWR_H_RAIL_STAT show (R508). -/
  railF : Nat := 0
  railH : Nat := 0
  /-- The instant of a reset that an SWF write has announced, by side, in SCLK cycles (R513). -/
  rstH : Option Nat := none
  rstF : Option Nat := none
  /-- The end of the time for which a reset still holds the side, by side, in SCLK cycles (R507, R512). -/
  heldH : Option Nat := none
  heldF : Option Nat := none
  /-- The 5-bit instruction registers of the two test access ports, which select IDCODE at first (R546, log 18). -/
  tapH : Nat := 1
  tapF : Nat := 1
deriving DecidableEq, Repr

/-! ## What the block sends -/

/-- Where something the block sends goes. -/
inductive Port where
  | rsp (r : Route)
  | link (s : Side)
  | strobe
  | eth (p : Nat)
  | can (k : Nat)
  | dap (core : Nat)
  | load (core : Nat)
  | bus
  | msix
  | inth
  | boot
deriving DecidableEq, Repr

/-- One thing sent: the port and its numbers or bytes. -/
structure Out where
  port : Port
  data : List Nat
deriving DecidableEq, Repr

/-! ## Wheel decoders (chapter 4) -/

/-- A validated tooth as the estimator keeps it: its stamp in ticks, the span from the validated tooth before it, its
position, and the speed and acceleration in force from it on (R39, R137). -/
structure Tooth where
  t : Rat
  a : Int
  p : Int
  om : Rat
  al : Rat
deriving DecidableEq, Repr

/-- A change of a decoder that the units bound to it act on in the same tick. -/
inductive Note where
  /-- A tooth of decoder `n` (or an evaluation of a virtual decoder), tracked forward or backward. -/
  | tooth (n : Nat) (back : Bool)
  | state (n old new : Nat)
  | dir (n old new : Nat)
deriving DecidableEq, Repr

/-- A real decoder beyond its objects. Times are in ticks, positions in ANG32 with whole cycles. -/
structure Whl where
  /-- The last validated teeth, newest first, at most four. -/
  hist : List Tooth := []
  /-- Stamp, position and entry of the last tooth, real or virtual, and the spans summed since the last validated one. -/
  prev : Rat := 0
  pos : Int := 0
  k : Nat := 0
  acc : Int := 0
  /-- Entry of the last validated tooth. -/
  realK : Nat := 0
  /-- Teeth are tracked backward (R133). -/
  back : Bool := false
  dp : Option Rat := none
  fail : Nat := 0
  virt : Nat := 0
  virtual : Bool := false
  speedOk : Bool := false
  stalled : Bool := false
  plausFault : Bool := false
  plausArmed : Bool := false
  /-- The pair has not armed since either decoder of it was enabled (R144). -/
  plausWait : Bool := false
  /-- Tick of the last accepted write of WHL_ENABLE, whose edges are discarded (R115). -/
  wrote : Option Nat := none
  /-- The run of direction evidence (R132). -/
  run : Nat := 0
  runRev : Bool := false
  /-- The last validated interval (R131). -/
  lastInt : Option Rat := none
  /-- HUNT: the tooth edges of the search, newest first, at most three; entries that still fit; the last gap candidate. -/
  hunt : List Rat := []
  cands : List Nat := []
  gapAt : Option Rat := none
  /-- The last index event, those since the last tooth, and the REF passage still open: half its interval and whether its
  index came (R125, R126, R129). -/
  idxAt : Option Rat := none
  idxWait : List Rat := []
  refOpen : Option (Rat × Bool) := none
  idxMiss : Nat := 0
  /-- Reference checks passed in SYNC_PENDING (R128). -/
  checks : Nat := 0
  /-- FREEWHEEL: position, tick and speed at entry (R136). -/
  fw : Option (Rat × Rat × Rat) := none
  /-- The last position published, and whether a reference was found since the enable (R130, R140). -/
  pub : Int := 0
  found : Bool := false
  /-- Quadrature: the count, and the boundaries crossed so far with whether their last crossing went up (R105). -/
  cnt : Int := 0
  marks : List (Int × Bool) := []
  /-- Crossings that wait to be processed: fine time and reverse. -/
  waiting : List (Nat × Bool) := []
deriving DecidableEq, Repr

/-! ## Lantern (chapter 5) -/

/-- An event slot beyond its objects. -/
structure EvtSlot where
  /-- EVT_STATE (R171). -/
  st : Nat := 0
  /-- Target, posted or committed start and end in 1/8 T, and the duration of the occurrence. -/
  target : Int := 0
  s : Nat := 0
  e : Nat := 0
  dur : Nat := 0
  frozen : Bool := false
  late : Bool := false
  clamped : Bool := false
  unpred : Bool := false
  /-- BLOCK_CAUSE (R174). -/
  cause : Nat := 0
  /-- The tick at which the freewheel limit of a frozen pair ends (R177). -/
  fwEnd : Option Rat := none
  /-- The tick in which the slot entered DONE or CANCELLED (R172). -/
  ended : Nat := 0
  /-- The start and the end entry of its pair were taken out of the channel's queue (R232, R234, log 66). -/
  noS : Bool := false
  noE : Bool := false
deriving DecidableEq, Repr

/-- A tooth to refresh: its stamp in ticks, position, speed and acceleration, the tick of the decoder's update, and the ticks in which
its batch began and is complete (R166). -/
structure Batch where
  t : Rat
  p : Int
  om : Rat
  al : Rat
  at_ : Nat
  began : Nat := 0
  fin : Nat := 0
deriving DecidableEq, Repr

/-- A refresh lane (R166, R167). -/
structure Lane where
  busy : Option Batch := none
  /-- Teeth that wait, oldest first; two only in a tick in which the batch under way is complete. -/
  wait : List Batch := []
  /-- Refresh-triggering teeth since the last entry to LOCKED (R169). -/
  cnt : Nat := 0
  /-- 0 no sync loss open, 1 one since which SYNC_PENDING was not re-entered, 2 re-entered but not LOCKED (R174). -/
  lost : Nat := 0
deriving DecidableEq, Repr

/-- A pair cut that the output stage still holds: channel, start and cut instant in 1/8 T, and which entries were taken out of the
queue (R175). -/
structure Tail where
  c : Nat
  s : Nat
  e : Nat
  noS : Bool := false
  noE : Bool := false
deriving DecidableEq, Repr

structure Lantern where
  lanes : List (Nat × Lane) := []
  /-- Decimation factor less 1, and the demand of the running interval (R169). -/
  k1 : Nat := 0
  demand : Nat := 0
  /-- Pairs cut that the output stage still holds. -/
  tails : List Tail := []
  /-- Writes of Lantern objects that a refresh under way does not yet see: key, tick and the value before (R156, R179). -/
  past : List (Nat × Nat × Nat) := []
deriving DecidableEq, Repr

/-! ## Cam engine and Oculus (chapter 6) -/

/-- The two directory buffers of a profile (R186): the content of the active version and of one still held by axes. -/
structure Prof where
  act : List Byte := []
  old : List Byte := []
  ver : Nat := 0
  buf : Bool := false
  retiring : Bool := false
deriving DecidableEq, Repr

/-- A virtual master that runs: speed and position in 2^-48 ANG32 (R192), and the ticks of a debug halt still to catch up
(R193). -/
structure Vm where
  run : Bool := false
  speed : Int := 0
  pos : Int := 0
  acc : Int := 0
  owed : Nat := 0
deriving DecidableEq, Repr

/-- The results of one evaluation: te, position, speed in 2^-16 and acceleration in 2^-32 ANG32, effective master (R195). -/
structure AxEval where
  te : Nat
  pos : Int
  sp : Int
  ac : Int
  me : Int
deriving DecidableEq, Repr

/-- The substitute master (R207): position and speed at t_L, and where it began to decelerate, at which rate. -/
structure Subst where
  t : Nat
  p : Rat
  v : Rat
  brake : Option (Nat × Nat) := none
deriving DecidableEq, Repr

/-- An axis beyond its objects. -/
structure Ax where
  /-- The version of AX_PROF_CUR that the axis took. -/
  ver : Nat := 0
  /-- k and node of the last evaluation that evaluated a node; the node the cache stands around (R198). -/
  last : Option (Int × Int) := none
  cache : Option Int := none
  /-- The evaluation that has begun and is not yet published, and the last four published, newest first (R200). -/
  pend : Option AxEval := none
  hist : List AxEval := []
  /-- The last evaluation instant with a valid master, and the master's position and speed there. -/
  good : Option (Nat × Rat × Rat) := none
  sub : Option Subst := none
  /-- A RESUME waits for the next evaluation (R208). -/
  resume : Bool := false
  /-- The virtual decoder the axis publishes to, and its direction (R209). -/
  vdec : Option Nat := none
  vdir : Nat := 0
  /-- Tick and sum of the corrections that landed in AX_PHASE in it (R217). -/
  corr : Option (Nat × Int) := none
deriving DecidableEq, Repr

/-- A target with a capture in its window: its cycle, the captures so far, the correction applied and y before it (R215,
R216). -/
structure Mark where
  c : Int
  n : Nat
  corr : Int
  y : Int
deriving DecidableEq, Repr

/-- An Oculus unit beyond its objects. -/
structure Ocu where
  /-- Fine times of the captures delivered and not yet processed, oldest first. -/
  caps : List Nat := []
  /-- Cycle of the next target to expire, and the open targets that have a capture. -/
  next : Int := 0
  marks : List Mark := []
  /-- The runs of credited good marks and of missed targets (R218). -/
  goods : Nat := 0
  misses : Nat := 0
deriving DecidableEq, Repr

/-! ## Channels (chapter 7) -/

/-- The sinc3 decimator of a DATA channel, modulo 2^32, and the divider of an internal CLOCK channel (R248 to R251). -/
structure Sinc where
  i1 : Nat := 0
  i2 : Nat := 0
  i3 : Nat := 0
  d1 : Nat := 0
  d2 : Nat := 0
  d3 : Nat := 0
  /-- Results since the channel started, up to 2. -/
  done : Nat := 0
  loss : Bool := false
  /-- The clock was lost or the last result saturated: safety cause 18 stands until a result does not (R488). -/
  bad : Bool := false
  /-- Samples of the frame under way, and whether a frame has begun since the channel started. -/
  n : Nat := 0
  begun : Bool := false
  /-- Edges of an external clock before the next one that may begin a frame (R250, log 61). -/
  skip : Nat := 0
  /-- Tick in which the divider of an internal clock started. -/
  clk0 : Option Nat := none
  /-- Tick since which the clock has given this channel no edge. -/
  idle : Nat := 0
deriving DecidableEq, Repr

/-- The step generator of a STEP channel (R244 to R247). -/
structure Steps where
  /-- The steps played, set by the first publication since CH_EN became 1; CH_PT_COUNT shows it modulo 2^32. -/
  cnt : Option Int := none
  /-- The latest publication: te in ticks, position in cycles, speed in cycles per tick, acceleration per tick². -/
  pub : Option (Nat × Rat × Rat × Rat) := none
  /-- The planned step and those handed over, oldest first: instant in 1/8 T and direction. -/
  plan : Option (Int × Bool) := none
  handed : List (Int × Bool) := []
  /-- End of the active pulse and leading edge of the last step, in 1/8 T. -/
  active : Option Int := none
  lead : Option Int := none
  /-- A change of DIR that waits for the end of a pulse, and the last change, in 1/8 T. -/
  turn : Option Bool := none
  dirAt : Option Int := none
  lagging : Bool := false
deriving DecidableEq, Repr

/-- A queue entry: its word, the tick of its push, whether it is armed in the output stage, the instant at which a late one plays, and
who pushed it: 0 Keep, 1 + n mover n, 17 the dictionary (R232, R235, R237). -/
structure Entry where
  w : Nat
  at_ : Nat
  armed : Bool := false
  due : Option Nat := none
  by_ : Nat := 0
deriving DecidableEq, Repr

/-- What a channel holds beyond its objects. -/
structure Chan where
  /-- The mode in force where CH_MODE was written in this tick (R227). -/
  was : Option Nat := none
  /-- Queue entries, oldest first. -/
  q : List Entry := []
  /-- Entries withdrawn too late to be stopped, which still play (R551). -/
  ghost : List Entry := []
  /-- Staged and popped words by port: 0 Keep, 1 + m mover m (R234). -/
  stage : List (Nat × Nat) := []
  pop : List (Nat × Nat) := []
  /-- The logical level the output stage drives, and the level that the outside last gave the pin, if it gave one yet. -/
  lvl : Bool := false
  seen : Bool := false
  ext : Bool := false
  /-- Transitions still to come, oldest first: instant in T61 and level (R238). -/
  fut : List (Nat × Bool) := []
  /-- Instant of the last transition in 1/8 T, and of the latest entries applied: their instant, the transition before them and the
  level before them (R238). -/
  last : Option Nat := none
  join : Option (Nat × Option Nat × Bool) := none
  /-- The last edge at the pin, its fine time and whether it rose, with what the input stage made of it: the logical level and the
  stamp, if it passed (R103, R230); the tick of the last stamp (R231). -/
  edge : Option (Nat × Bool × Option (Bool × Nat)) := none
  stamped : Option Nat := none
  /-- A running lockout: its last tick and the level the accepted edge left (R230). -/
  lock : Option (Nat × Bool) := none
  /-- Tick in which CH_EN became 1, and in which the measurement began. -/
  enAt : Nat := 0
  from_ : Nat := 0
  /-- Last rising edge in 1/8 T (R241). -/
  rise : Option Nat := none
  noSig : Bool := false
  /-- The running gate: start tick, rising edges, first and last of them (R242). -/
  gate : Nat := 0
  gateN : Nat := 0
  gateF : Nat := 0
  gateL : Nat := 0
  /-- Rising edges stamped at or after the end of the running gate. -/
  gateX : List Nat := []
  /-- Entries in the queue of an ANGLE_OUT channel at the end of the last tick (R254). -/
  held : Nat := 0
  sd : Sinc := {}
  pt : Steps := {}
  /-- Edges of the last ticks in mode TURRET, newest first: fine time, the logical level after it, and the tick in which it reaches a
  context that waits for it (R331, R332). -/
  turs : List (Nat × Bool × Nat) := []
deriving DecidableEq, Repr

/-! ## Movers (chapter 7) -/

/-- A descriptor as fetched (R256). -/
structure Desc where
  src : Nat
  dst : Nat
  count : Nat
  ctrl : Nat
  next : Nat
  srcRing : Nat
  dstRing : Nat
deriving DecidableEq, Repr

structure Mover where
  desc : Option Desc := none
  /-- Byte offsets from SRC and DST of the next element. -/
  so : Nat := 0
  dOff : Nat := 0
  /-- Elements released by the current trigger, and a further trigger held (R258). -/
  burst : Nat := 0
  trig : Bool := false
  /-- Descriptor addresses in the ring port, oldest first (R262). -/
  ring : List Nat := []
  /-- Triggers that arrived and were not yet taken. -/
  arrived : Nat := 0
  /-- The address of the descriptor to fetch next. -/
  fetch : Option Nat := none
deriving DecidableEq, Repr

/-! ## PWM octets (chapters 8 and 9) -/

/-- A transition that waits to be played on channel `j` of an octet: its fine time, the level, the node transition it
belongs to (0 none, 1 rising, 2 falling) and that transition's dead time (R272, R281); whether the channel comes with it from its
safe level (R297). -/
structure PwmEdge where
  t : Nat
  j : Nat
  on : Bool
  node : Nat := 0
  dt : Nat := 0
  ret : Bool := false
deriving DecidableEq, Repr

/-- The measurement of one transition kind in a period (R282, R283). -/
inductive Meas where
  | none | unseen | seen (m : Nat)
deriving DecidableEq, Repr

/-- What a pair holds beyond its objects: the latest measurement window of each kind (fine time and dead time, R282) and
the latest transition of each kind in the period. -/
structure PwmPair where
  winR : Option (Nat × Nat) := none
  winF : Option (Nat × Nat) := none
  rise : Meas := .none
  fall : Meas := .none
deriving DecidableEq, Repr

/-- What a boundary or a write in a guard window still owes to counters, events and triggers: a stop of the same tick comes before it
(R280). A counter and its event bit; an event bit of TRP_EVT or PWM_EVT; a late write; a boundary by PWM_PCOUNT and HELD. -/
inductive PwmNote where
  | count (c : Obj) (b : Nat)
  | raise (trip : Bool) (b : Nat)
  | late (defer : Bool)
  | boundary (n : Nat) (held : Bool)
deriving DecidableEq, Repr

/-- What an octet holds beyond its objects. -/
structure Octet where
  /-- PWM_STATE (R268). -/
  st : Nat := 0
  /-- The start draw was granted at β_0 - 16 or before; β_0 (R267). -/
  beta0 : Nat := 0
  deferred : Bool := false
  /-- B_k and P_k in 1/128 T, and k mod 16 (R270). -/
  b : Nat := 0
  p : Nat := 0
  phi : Nat := 0
  /-- B_(k+1) in 1/128 T, and the arc length D' of each channel or pair before an immediate write clamped it (R278). -/
  nb : Nat := 0
  arc : List (Nat × Nat) := []
  held : Bool := false
  lateDefer : Bool := false
  /-- Values in force by channel, and by pair for the override (R275). -/
  duty : List (Nat × Nat) := []
  phase : List (Nat × Nat) := []
  ovr : List (Nat × Nat) := []
  /-- Level at the end of the period of each channel or pair command, and the level that each channel's waveform stands at. -/
  cmd : Nat := 0
  lv : Nat := 0
  edges : List PwmEdge := []
  pairs : List (Nat × PwmPair) := []
  /-- Channels that stay off until they return at a boundary: off by PWM_CH_OFF, or all after a start, a latch or a halt. -/
  away : Nat := 0
  /-- Channels cut in this period (R301). -/
  cut : Nat := 0
  tripA : Bool := false
  tripB : Bool := false
  runA : Nat := 0
  runB : Nat := 0
  /-- End of the last class A window in 1/8 T; the class B timer window is open, the matches not yet seen (their tick, the tick in
  which they are seen, whether they open), and the level of the class B channel in the last two ticks (R297, R298). -/
  blankA : Nat := 0
  bWin : Bool := false
  bWait : List (Nat × Nat × Bool) := []
  bPipe : List Bool := []
  /-- Ticks in a row in RUNNING that were not blanked for class A and for class B (R300). -/
  cleanA : Nat := 0
  cleanB : Nat := 0
  /-- The rejoin: 0 none, 1 draw requested, 2 granted; the tick of the grant, and the waiting draws that a new cause made void
  (R307). -/
  rejoin : Nat := 0
  grantAt : Nat := 0
  voided : Nat := 0
  /-- Tick of an entry to LATCHED by a trip, a readback fault or a supply warning, and the causes these set in a tick (R308). -/
  latchAt : Option Nat := none
  fresh : Option (Nat × Nat) := none
  /-- A Keep debug halt held outputs safe and ended: they rejoin at the next boundary (R290). -/
  haltRet : Bool := false
  /-- What the status objects show, with the tick from whose end on, newest first, over the last 8 ticks (R292). -/
  snaps : List (Nat × List Nat) := []
  /-- What the boundary and the writes of the tick owe (R280), and the trip inputs that the tick's writes come before (R308). -/
  owed : List PwmNote := []
  trips : List TripIn := []
  /-- TRP_CFG and the thresholds before their last changes, with the ticks of these, newest first (R296, R300). -/
  past : List (Nat × Nat × Nat × Nat) := []
  /-- By channel: the first tick that a run of mismatches can hold, after the last in which the channel was high-impedance or not
  checked, and the first one after its last readback fault (R314). -/
  rbFrom : List (Nat × Nat) := []
  rbHit : List (Nat × Nat) := []
deriving DecidableEq, Repr

/-! ## Turret engines (chapter 10) -/

/-- A Turret engine beyond its objects: TUR_STATE and whether its draw is granted; the ticks left in the round and the
contexts whose slot of the round is still to come (R321). -/
structure Engine where
  st : Nat := 0
  granted : Bool := false
  /-- N of the round under way (R321, R322). -/
  n : Nat := 0
  left : Nat := 0
  slots : List Nat := []
deriving DecidableEq, Repr

/-- A posted timed edge (R333): pin, fine time, level, whether its instant had passed when it was armed, the tick of its arming, and
whether that has come. -/
structure TimedEdge where
  pin : Nat
  t : Nat
  on : Bool
  late : Bool := false
  arm : Nat := 0
  armed : Bool := false
deriving DecidableEq, Repr

/-- A TX or RX entry: its word, the tick of its push, the tick from which the other end sees it, and who pushed it: 0 Keep, 1 + n mover
n, 17 the dictionary (R340, R343). -/
structure QWord where
  v : Nat
  at_ : Nat
  vis : Nat
  by_ : Nat := 0
deriving DecidableEq, Repr

/-- A change that a slot made to a pin and that has not reached it (R331): its fine time, the pin, its level and its direction. -/
structure PinChange where
  t : Nat
  pin : Nat
  /-- The level that a change of PINS gives; none where DIRS alone changed. -/
  on : Option Bool
  oe : Bool
deriving DecidableEq, Repr

/-- A Turret context beyond its objects (R326, R340, R347). -/
structure Ctx where
  /-- Direction and output level of P0 to P7, the directions that the pins have, and the changes on their way to the pins, oldest first
  (R331). -/
  dirs : Nat := 0
  pins : Nat := 0
  oe : Nat := 0
  drive : List PinChange := []
  /-- The levels that have come to the pins' output stages (R333), and the levels of the output pins at the ends of the last ticks,
  newest first (R326, R332). -/
  lv : Nat := 0
  seen : List Nat := []
  /-- A CTX_RUN write was accepted and the context has not entered IDLE since (R330). -/
  claim : Bool := false
  /-- How many ticks ago the levels are that the present slot reads (R331). -/
  lag : Nat := 4
  /-- TX and RX queue, oldest first. -/
  tx : List QWord := []
  rx : List QWord := []
  /-- Idle slots left after the last instruction, and whether the slot of this round is spent (R321, R327). -/
  dly : Nat := 0
  used : Bool := true
  /-- The edge a begun WAITPIN waits for, with pin, direction and the tick of its first slot, and the first one that came, with its fine
  time and the tick in which it reached the context (R332). -/
  wait : Option (Nat × Bool × Nat) := none
  got : Option (Nat × Nat) := none
  /-- The current instruction stalled in an earlier slot. -/
  stall : Bool := false
  timed : List TimedEdge := []
deriving DecidableEq, Repr

/-! ## Network and CAN (chapter 14) -/

/-- A role-table entry (R464): role, sender, epoch, and cycles without a PDU that matches it. -/
structure RoleEnt where
  role : Nat
  node : Nat
  epoch : Nat
  idle : Nat := 0
deriving DecidableEq, Repr

/-- A recovery stream of R448: source address, last sequence number, history bits and host line time of the last frame. -/
structure CbStream where
  mac : Nat
  seq : Nat
  hist : Nat
  at_ : Nat
deriving DecidableEq, Repr

/-- What a frame is to the MAC that sends it: a cyclic frame and an 802.1AS event message are stamped at departure, a Sync also has its
follow-up (R443, R444). -/
inductive TxKind where
  | plain | cyclic | event | sync
deriving DecidableEq, Repr

/-- A frame that waits at a port: traffic class, its bytes on the line, what is sent, and what it is. -/
structure TxFrame where
  tc : Nat
  len : Nat
  data : List Nat
  kind : TxKind := .plain
deriving DecidableEq, Repr

/-- A record of a cyclic frame (R451): channel, RTYPE and payload. -/
structure Rec where
  rtype : Nat
  chan : Nat
  data : List Byte
deriving DecidableEq, Repr

/-- The set of one cycle at the host: how many messages the field sent of it, those that came, their records, and the
records of the host's own objects (R454, R455). -/
structure CycSet where
  total : Option Nat := none
  msgs : Nat := 0
  recs : List Rec := []
  own : List Rec := []
deriving DecidableEq, Repr

/-- gPTP beyond its objects (R444, R445). -/
structure Gptp where
  /-- Mean link delay by port, biased by 2^32. -/
  delay : List (Nat × Nat) := []
  /-- The latest announce by port. -/
  ann : List (Nat × AnnounceMsg) := []
  slave : Option Nat := none
  /-- No sync since the entry to SLAVE; syncs in a row within ±50 ns; nanoseconds still to slew. -/
  first : Bool := false
  good : Nat := 0
  slew : Int := 0
deriving DecidableEq, Repr

structure Net where
  gptp : Gptp := {}
  cb : List CbStream := []
  /-- Current gate list entry, waiting frames, and host line time until which each port sends. -/
  gate : List (Nat × Nat) := []
  txq : List (Nat × List TxFrame) := []
  busy : List (Nat × Nat) := []
  /-- The corrected stamp of the latest event message or cyclic frame that each port received and sent (R443). -/
  stampRx : List (Nat × Nat) := []
  stampTx : List (Nat × Nat) := []
  /-- CYCLIC PDUs of this tick with their MACs, in the order in which they act at its end (R459, R469). -/
  inbox : List (Nat × List Byte) := []
  /-- R-TAG sequence number of the next frame. -/
  rtag : Nat := 0
  /-- The sets of the last cycles by cycle number, and the last complete set with its stamps (R454, R455). -/
  sets : List (Nat × CycSet) := []
  lastSet : List Rec := []
  /-- The last CYCLE accepted by role, plus 1 (R459); nodes heard since the last cycle start (R463). -/
  cycles : List (Nat × Nat) := []
  heard : List Nat := []
  roles : List (Nat × RoleEnt) := []
  /-- An own-role ACTIVE frame came since the last cycle start; cycle starts in a row without one (R467). -/
  redHeard : Bool := false
  redCnt : Nat := 0
  /-- The cycle that began in this tick has its partners still to evaluate (R456). -/
  cycDue : Bool := false
  /-- The field's count of refused mapped writes, and the count the host copied last (R460). -/
  refused : Nat := 0
  copied : Nat := 0
deriving DecidableEq, Repr

/-- What an SDO transfer waits for from the dictionary service. -/
inductive SdoWait where
  | none | upload | download | openRead | fetch | openWrite | put | close
deriving DecidableEq, Repr

/-- An SDO transfer (R471): the CiA 301 index and subindex, the direction, what is still to send or was received so far, the
next toggle bit, the announced size, and for a DOMAIN object its handle and the offset reached. -/
structure Sdo where
  idx : Nat
  sub : Nat
  up : Bool
  data : List Byte := []
  toggle : Bool := false
  size : Nat := 0
  wait : SdoWait := .none
  /-- The transfer goes to or from a DOMAIN object. -/
  dom : Bool := false
  handle : Nat := 0
  off : Nat := 0
  /-- The last segment has been received or sent. -/
  last : Bool := false
  /-- Host SCLK cycles at the last frame of the transfer. -/
  at_ : Nat := 0
deriving DecidableEq, Repr

/-- A TPDO that waits for the values of field objects: its number, the tag of its requests, whether it goes out only when its data is
new, and the bytes of each mapped object so far. -/
structure PdoJob where
  j : Nat
  no : Nat
  fresh : Bool
  got : List (Option (List Byte))
deriving DecidableEq, Repr

structure Can where
  sdo : Option Sdo := none
  /-- Transfers begun so far. -/
  sdoNo : Nat := 0
  /-- Transmit and receive error counters. -/
  tec : Nat := 0
  rec_ : Nat := 0
  /-- Consumer entries whose heartbeat runs and the host SCLK cycle of the last one; the cycle of the own one, plus 1. -/
  alive : List (Nat × Nat) := []
  hbSent : Nat := 0
  /-- RPDO data that waits for the next SYNC, and SYNCs counted by TPDO (R474). -/
  held : List (Nat × List Byte) := []
  syncs : List (Nat × Nat) := []
  /-- Data of each TPDO as last sent, and the host SCLK cycle of it. -/
  sent : List (Nat × List Byte) := []
  sentAt : List (Nat × Nat) := []
  /-- The host SCLK cycle from which each TPDO's event timer runs (R474). -/
  timed : List (Nat × Nat) := []
  /-- TPDOs whose field objects are being read, and the number of the next one (R22, R474). -/
  jobs : List PdoJob := []
  jobNo : Nat := 0
deriving DecidableEq, Repr

/-- The machine: everything but the queue of waiting commands. -/
structure Mach where
  /-- Every dictionary object that does not hold its default, by key. -/
  regs : List (Nat × Nat) := []
  tb : Timebase := {}
  belF : Belfry := {}
  belH : Belfry := {}
  cores : List (Nat × Core) := []
  bar : Barrier := {}
  dic : Dic := {}
  saf : Monitor := {}
  pwr : Power := {}
  chans : List (Nat × Chan) := []
  movers : List (Nat × Mover) := []
  /-- The mover that the round robin looks at first (R260). -/
  movNext : Nat := 0
  /-- The element of this tick was granted (R260). -/
  movUsed : Bool := false
  octets : List (Nat × Octet) := []
  engines : List (Nat × Engine) := []
  ctxs : List (Nat × Ctx) := []
  whls : List (Nat × Whl) := []
  notes : List Note := []
  evts : List (Nat × EvtSlot) := []
  lan : Lantern := {}
  profs : List (Nat × Prof) := []
  vms : List (Nat × Vm) := []
  /-- Tick of the last sample of each network master input (R191). -/
  nms : List (Nat × Nat) := []
  axes : List (Nat × Ax) := []
  ocus : List (Nat × Ocu) := []
  net : Net := {}
  cans : List (Nat × Can) := []
  /-- Memories, one byte per cell, in canonical form: Keep's SRAM, DRAM and cam store by address, host SRAM, boot flash, and
  the ferroelectric die by offset (R32, R33). -/
  keepMem : List Host.Cell := []
  hostMem : List Host.Cell := []
  flash : List Host.Cell := []
  fram : List Host.Cell := []
  /-- Bits set and counters incremented in this tick, by key (R147, R148). -/
  setNow : List (Nat × Nat) := []
  incNow : List Nat := []
  /-- Resets and state entries of this tick (R19): the side, and 0 HOLD or SLEEP, 1 a software reset, 2 another reset. -/
  entries : List (Side × Nat) := []
  /-- Run requests that a UNIT stop of this tick wrote 0 (R17, R19), by key. -/
  stopped : List Nat := []
  /-- Writes of movers (1 + n) and of the field dictionary agent (17) in this tick, by key (R43, R261). -/
  ranks : List (Nat × Nat) := []
  /-- Values that such writers wrote and that a writer before them in R261's order has written over since, by key: they are written
  again at the end of the tick. -/
  redos : List (Nat × Nat) := []
  /-- Pops of this tick by CH_Q_POP (false) and CTX_RXQ_POP (true), with channel or context: they come after those of Keep and of the
  movers (R235, R343). -/
  pops : List (Bool × Nat) := []
  /-- Safety causes signalled to the monitor within the command being executed, with the register AUX of their log record
  (R488). -/
  alarms : List Nat := []
  /-- Sources whose owners asserted them in this tick, in order (R405). -/
  asserts : List Nat := []
  /-- Flag writes of the field side on their way: the tick in which they take effect, the flag object, the mask, and set or clear
  (R344). -/
  flagIns : List (Nat × Nat × Nat × Bool) := []
  /-- Changes of cross-flags by instructions of this tick: engine, flag, value, and whether a WAITFLAG consumed it (R345). -/
  xNow : List (Nat × Nat × Bool × Bool) := []
  /-- How many free values were used (log 3). -/
  freeCtr : Nat := 0
  /-- What the block sent, newest first. -/
  out : List Out := []
deriving DecidableEq, Repr

/-- The state of the block: the commands that wait, first in first out, and the machine. -/
structure State where
  pending : List Instr
  m : Mach
deriving DecidableEq, Repr

/-- The machine right after a reset of both sides by power-on: every object at its default, each core at its restart with cause
POR in XCAUSE_M and Spire1 held, the safe state in force with cause 0 (R375, R391, R480), the barrier off. -/
def State.reset : State :=
  ⟨[], { cores := [(0, { csr := [(0x712, 1)] }), (1, { held := true, csr := [(0x712, 1)] }), (2, { csr := [(0x712, 1)] })] }⟩

end Sys2Proof.Machine
end

