-- ==== Sys2Proof/Machine/Ops.lean ====
section
/-! DEFINITION. The named operations over the machine's state: reading and writing an object's home, counters and event
bits, the per-tick logs of R147 and R148, cores, memories, and what the block sends. -/

namespace Sys2Proof.Machine

/-! ## Objects -/

/-- The number an object holds. -/
def Mach.rd (m : Mach) (o : Obj) : Nat := mapGet o.dflt o.key m.regs

/-- Puts a number into an object; holding the default is the same as being unlisted. -/
def Mach.wr (o : Obj) (v : Nat) (m : Mach) : Mach := { m with regs := mapSet o.dflt o.key v m.regs }

/-- Whether a BOOL or bit-0 object reads 1. -/
def Mach.on (m : Mach) (o : Obj) : Bool := m.rd o % 2 == 1

/-- The signed value of an n-bit object. -/
def Mach.rdI (m : Mach) (n : Nat) (o : Obj) : Int := toSigned n (m.rd o)

/-- Writes a signed value into an n-bit object. -/
def Mach.wrI (n : Nat) (o : Obj) (v : Int) (m : Mach) : Mach := m.wr o (ofSigned n v)

/-- Returns an object to its default. -/
def Mach.dflt (o : Obj) (m : Mach) : Mach := m.wr o o.dflt

/-- Returns several objects to their defaults. -/
def Mach.dflts (os : List Obj) (m : Mach) : Mach := os.foldl (fun m o => m.dflt o) m

/-! ## Counters and event bits (R147, R148) -/

/-- Adds to a U32 counter that stops at 0xFFFF_FFFF. -/
def Mach.incBy (o : Obj) (n : Nat) (m : Mach) : Mach :=
  if n = 0 then m
  else { m.wr o (min 0xFFFFFFFF (m.rd o + n)) with
    incNow := if m.incNow.contains o.key then m.incNow else o.key :: m.incNow }

/-- Counts one. -/
def Mach.inc (o : Obj) (m : Mach) : Mach := m.incBy o 1

/-- Clears a counter; an increment in the same tick leaves it at 1 (R148). -/
def Mach.clr (o : Obj) (m : Mach) : Mach := m.wr o (if m.incNow.contains o.key then 1 else 0)

/-- Raises a maximum to a value that exceeds it, and remembers that it was updated in this tick (R182). -/
def Mach.maxTo (o : Obj) (v : Nat) (m : Mach) : Mach :=
  if m.rd o < v then { m.wr o v with incNow := if m.incNow.contains o.key then m.incNow else o.key :: m.incNow } else m

/-- Clears a maximum, unless it was updated in the same tick (R182). -/
def Mach.clrMax (o : Obj) (m : Mach) : Mach := if m.incNow.contains o.key then m else m.wr o 0

/-- Clears the counters whose bit is 1 in a CNT_CLR value; bit i stands for the i-th of the list. -/
def Mach.clrBits (v : Nat) : List Obj → Mach → Mach
  | [], m => m
  | o :: rest, m => Mach.clrBits (v / 2) rest (if v % 2 = 1 then m.clr o else m)

/-- Sets bit `b` of an event or status object and remembers that it set in this tick. -/
def Mach.setEvt (o : Obj) (b : Nat) (m : Mach) : Mach :=
  { m.wr o (setBit b (m.rd o)) with
    setNow := mapSet 0 o.key (setBit b (mapGet 0 o.key m.setNow)) m.setNow }

/-- A write to a W1C object: every 1 clears its bit, but not one that set in this tick (R147). -/
def Mach.w1c (o : Obj) (v : Nat) (m : Mach) : Mach :=
  let keep := mapGet 0 o.key m.setNow
  m.wr o (((m.rd o) ^^^ ((m.rd o) &&& v)) ||| ((m.rd o) &&& keep))

/-- Puts one bit of a status object. -/
def Mach.putBit (o : Obj) (b : Nat) (v : Bool) (m : Mach) : Mach := m.wr o (Machine.putBit b v (m.rd o))

/-! ## Sending, alarms, free values -/

def Mach.send (p : Port) (d : List Nat) (m : Mach) : Mach := { m with out := ⟨p, d⟩ :: m.out }

/-- Signals safety cause `s` to the monitor (R488). -/
def Mach.alarm (s : Nat) (m : Mach) : Mach := { m with alarms := m.alarms ++ [s] }

/-- A value the spec leaves open, and the machine with the next free value in store. -/
def Mach.free (m : Mach) : Nat × Mach := (Config.freeValue m.freeCtr, { m with freeCtr := m.freeCtr + 1 })

/-! ## Cores -/

def Mach.core (m : Mach) (i : Nat) : Core := mapGet {} i m.cores

def Mach.setCore (i : Nat) (c : Core) (m : Mach) : Mach := { m with cores := mapSet {} i c m.cores }

def Mach.updCore (i : Nat) (f : Core → Core) (m : Mach) : Mach := m.setCore i (f (m.core i))

/-- The side a core stands on: 0 and 1 Spire, 2 Keep (R357). -/
def coreSide (i : Nat) : Side := if i = 2 then .field else .host

/-- Keep is halted in debug (R31, R411). -/
def Mach.keepHalted (m : Mach) : Bool := (m.core 2).halted

/-- Raises a class 7 condition on a core (R366, R370). -/
def Mach.class7 (i code : Nat) (m : Mach) : Mach := m.updCore i (fun c => { c with c7 := c.c7 ++ [code] })

/-! ## Time -/

/-- FTB_NOW. -/
def Mach.now (m : Mach) : Nat := m.tb.ftb

/-- The FTB tick that PCLK stands at: in LCLK mode it goes on between the LCLK edges (R29, R30, R82). -/
def Mach.pnow (m : Mach) : Nat := m.tb.ftb + (if m.tb.slowFrom.isSome then m.tb.lclk else 0)

/-- The same in 1/8 T. -/
def Mach.pnow8 (m : Mach) : Nat := 8 * m.pnow

/-- Host line time in ns. -/
def Mach.hlt (m : Mach) : Nat := m.tb.hlt2 / 2

/-! ## Memories -/

/-- One byte of a memory; an unlisted address reads 0 (log 4). -/
def memRd (l : List Host.Cell) (a : Nat) : Byte := mapGet 0 a l

/-- Stores one byte, keeping the canonical form. -/
def memWr (a : Nat) (v : Byte) (l : List Host.Cell) : List Host.Cell := mapSet 0 a v l

/-- The canonical form of a memory. -/
def Memory.wf (l : List Host.Cell) : Bool := mapWf 0 l

/-- The bytes of a memory from an address. -/
def memRdN (l : List Host.Cell) (a : Nat) : Nat → List Byte
  | 0 => []
  | n + 1 => memRd l a :: memRdN l (a + 1) n

/-- Stores a byte string from an address. -/
def memWrN (l : List Host.Cell) (a : Nat) : List Byte → List Host.Cell
  | [] => l
  | b :: rest => memWrN (memWr a b l) (a + 1) rest

/-- A little-endian number of n bytes in a memory. -/
def memNat (l : List Host.Cell) (a n : Nat) : Nat := leNat (memRdN l a n)

/-! ## Side states -/

/-- The barrier end of a side and its state (R417). -/
def Mach.barEnd (m : Mach) : Side → BarEnd
  | .host => m.bar.h
  | .field => m.bar.f

def Mach.updEnd (s : Side) (f : BarEnd → BarEnd) (m : Mach) : Mach :=
  match s with
  | .host => { m with bar := { m.bar with h := f m.bar.h } }
  | .field => { m with bar := { m.bar with f := f m.bar.f } }

def stateObj : Side → Obj
  | .host => R.BAR_H_STATE
  | .field => R.BAR_F_STATE

def lanesObj : Side → Obj
  | .host => R.BAR_H_LANES
  | .field => R.BAR_F_LANES

/-- The state of an end. -/
def Mach.barState (m : Mach) (s : Side) : Nat := (m.barEnd s).st

/-- The end is LINKED. -/
def Mach.linked (m : Mach) (s : Side) : Bool := m.barState s == 3

/-- The other side. -/
def Side.other : Side → Side
  | .host => .field
  | .field => .host

/-- A reset still holds the side (R512). -/
def Mach.inReset (m : Mach) : Side → Bool
  | .host => m.pwr.heldH.isSome
  | .field => m.pwr.heldF.isSome

/-- The host side does nothing: SLEEP, or a reset holds it. -/
def Mach.hostOff (m : Mach) : Bool := m.pwr.hSleep || m.inReset .host

/-- Field side in HOLD (R521). -/
def Mach.inHold (m : Mach) : Bool := m.rd R.PWR_F_STATE == 2

/-- The safe state is in force (R477). -/
def Mach.safe (m : Mach) : Bool := m.saf.latchA || m.saf.latchB

/-- Runs an operation for every number of a list. -/
def Mach.each {α : Type} (l : List α) (f : α → Mach → Mach) (m : Mach) : Mach := l.foldl (fun m a => f a m) m

/-- Puts a number into a rising list without repeats. -/
def insertNat (n : Nat) : List Nat → List Nat
  | [] => [n]
  | a :: rest => if n < a then n :: a :: rest else if n = a then a :: rest else a :: insertNat n rest

/-- The numbers of a list, rising and without repeats. -/
def sortNat (l : List Nat) : List Nat := l.foldr insertNat []

/-- Runs an operation when a condition holds. -/
def Mach.when (b : Bool) (f : Mach → Mach) (m : Mach) : Mach := if b then f m else m

end Sys2Proof.Machine
end

