-- ==== Sys2Proof/Machine/Belfry.lean ====
section
/-! DEFINITION. The Belfry interrupt controllers (chapter 12): assertion, forwarding, holding, coalescing, claiming and
completing. -/

namespace Sys2Proof.Machine

/-! ## BEL_SRC_CFG (R397) -/

def cfgTarget (c : Nat) : Nat := bits 26 24 c
def cfgFast (c : Nat) : Bool := bit 12 c
def cfgPrio (c : Nat) : Nat := bits 11 8 c
def cfgCoal (c : Nat) : Bool := bit 5 c
def cfgGroup (c : Nat) : Nat := bits 4 0 c
def cfgVec (c : Nat) : Nat := bits 31 27 c

/-- The configuration object of a source, held by its owner (R392). -/
def srcCfgObj (id : Nat) : Obj := if id < 384 then R.BEL_SRC_CFG id else R.BEL_SRC_CFG_H (id - 384)

def srcOwner (id : Nat) : Side := if id < 384 then .field else .host

/-- The side that holds a source's state for a TARGET; none for NONE (R395). -/
def holdSide (target : Nat) : Option Side :=
  if target = 1 then some .field else if target = 2 ∨ target = 3 ∨ target = 4 then some .host else none

/-- The TARGET that names a core. -/
def coreTarget (core : Nat) : Nat := if core = 2 then 1 else core + 2

/-! ## Belfry records -/

def Mach.bel (m : Mach) : Side → Belfry
  | .field => m.belF
  | .host => m.belH

def Mach.setBel (s : Side) (b : Belfry) (m : Mach) : Mach :=
  match s with
  | .field => { m with belF := b }
  | .host => { m with belH := b }

def Mach.src (m : Mach) (s : Side) (id : Nat) : Src := mapGet {} id (m.bel s).src

def Mach.grp (m : Mach) (s : Side) (g : Nat) : Grp := mapGet {} g (m.bel s).grp

def Mach.setSrc (s : Side) (id : Nat) (x : Src) (m : Mach) : Mach :=
  m.setBel s { m.bel s with src := mapSet {} id x (m.bel s).src }

def Mach.setGrp (s : Side) (g : Nat) (x : Grp) (m : Mach) : Mach :=
  m.setBel s { m.bel s with grp := mapSet {} g x (m.bel s).grp }

/-- The home of the enable bits: both EN_SET and EN_CLR read it (R404). -/
def enObj : Side → Nat → Obj
  | .field, j => R.BEL_F_EN_SET j
  | .host, j => R.BEL_H_EN_SET j

def belEnabled (m : Mach) (s : Side) (id : Nat) : Bool := bit (id % 32) (m.rd (enObj s (id / 32)))

def cntSat : Side → Obj
  | .field => R.BEL_F_CNT_SAT
  | .host => R.BEL_H_CNT_SAT

def cntSpur : Side → Obj
  | .field => R.BEL_F_CNT_SPUR
  | .host => R.BEL_H_CNT_SPUR

def cntBad : Side → Obj
  | .field => R.BEL_F_CNT_BADCOMP
  | .host => R.BEL_H_CNT_BADCOMP

def cntFwdTx : Side → Obj
  | .field => R.BEL_F_CNT_FWD_TX
  | .host => R.BEL_H_CNT_FWD_TX

def cntFwdRx : Side → Obj
  | .field => R.BEL_F_CNT_FWD_RX
  | .host => R.BEL_H_CNT_FWD_RX

def cntFwdLost : Side → Obj
  | .field => R.BEL_F_CNT_FWD_LOST
  | .host => R.BEL_H_CNT_FWD_LOST

def grpCountObj : Side → Nat → Obj
  | .field, g => R.BEL_F_GRP_COUNT g
  | .host, g => R.BEL_H_GRP_COUNT g

def grpTimeObj : Side → Nat → Obj
  | .field, g => R.BEL_F_GRP_TIME g
  | .host, g => R.BEL_H_GRP_TIME g

def grpFiresObj : Side → Nat → Obj
  | .field, g => R.BEL_F_GRP_FIRES g
  | .host, g => R.BEL_H_GRP_FIRES g

/-- The time a group counts in: FTB ticks on the field side, SCLK cycles on the host side (R407). -/
def belClock (m : Mach) : Side → Nat
  | .field => m.tb.ftb
  | .host => m.tb.sclk

/-- GRP_TIME in the side's clock (R407). -/
def grpLimit (m : Mach) : Side → Nat → Nat
  | .field, g => 400 * m.rd (R.BEL_F_GRP_TIME g)
  | .host, g => 800 * m.rd (R.BEL_H_GRP_TIME g)

/-- Claimable apart from the target (R399). -/
def belReady (m : Mach) (s : Side) (id : Nat) (x : Src) : Bool :=
  x.pend && belEnabled m s id && x.svc == 0 && (!cfgCoal x.cfg || x.rel)

/-- The sources claimable for a target, with the FAST attribute, in rising ID. -/
def belClaimable (m : Mach) (s : Side) (target : Nat) (fast : Bool) : List (Nat × Src) :=
  (m.bel s).src.filter (fun e => belReady m s e.1 e.2 && cfgTarget e.2.cfg == target && cfgFast e.2.cfg == fast)

/-- The entry of highest PRIO, the lowest ID among equals (R402). -/
def belBest : List (Nat × Src) → Option (Nat × Src)
  | [] => none
  | e :: rest =>
    match belBest rest with
    | none => some e
    | some b => if cfgPrio e.2.cfg < cfgPrio b.2.cfg then some b else some e

/-! ## Coalescing (R406, R407) -/

/-- GROUP_FIRE: releases the members that are pending, and starts the group afresh. -/
def belFire (s : Side) (g : Nat) (m : Mach) : Mach :=
  let members := (m.bel s).src.filter (fun e =>
    cfgCoal e.2.cfg && cfgGroup e.2.cfg == g && e.2.pend && !e.2.rel)
  let m1 := m.each members (fun e m => m.setSrc s e.1 { e.2 with rel := true })
  (m1.setGrp s g {}).inc (grpFiresObj s g)

/-- Counts `n` assertions of an unreleased member; the first one starts the group's timer. -/
def belGroupCount (s : Side) (g n : Nat) (m : Mach) : Mach :=
  let x := m.grp s g
  m.setGrp s g ⟨x.cnt + n, match x.start with
    | some t => some t
    | none => some (belClock m s)⟩

/-- Fires a collecting group whose count or time has reached its limit, as the tick's writes left it (R407). -/
def belGroupCheck (s : Side) (g : Nat) (m : Mach) : Mach :=
  let x := m.grp s g
  match x.start with
  | none => m
  | some t =>
    if m.rd (grpCountObj s g) ≤ x.cnt ∨ t + grpLimit m s g ≤ belClock m s then belFire s g m else m

/-! ## Assertion -/

/-- An assertion of `n` events at the holding side with the attributes it carries (R398). -/
def belHold (s : Side) (id n cfg : Nat) (m : Mach) : Mach :=
  let x := m.src s id
  let lost := x.cnt + n - 15
  let m1 := m.setSrc s id
    { x with pend := true, cnt := min 15 (x.cnt + n), sat := x.sat || decide (0 < lost), cfg := cfg }
  let m2 := m1.incBy (cntSat s) lost
  if cfgCoal cfg && !x.rel then belGroupCount s (cfgGroup cfg) n m2 else m2

/-- Adds one assertion to the forwarded ones that wait, up to 15 (R396). -/
def mergeEvt (id : Nat) : List (Nat × Nat) → List (Nat × Nat) × Bool
  | [] => ([(id, 1)], true)
  | (a, n) :: rest =>
    if a = id then (if n < 15 then ((a, n + 1) :: rest, true) else ((a, n) :: rest, false))
    else
      let r := mergeEvt id rest
      ((a, n) :: r.1, r.2)

/-- Forwards one assertion to the other side (R396): merged into the waiting message, lost while the barrier is down. -/
def belForward (owner : Side) (id : Nat) (m : Mach) : Mach :=
  if m.linked owner then
    let r := mergeEvt id (m.barEnd owner).evts
    let m1 := m.updEnd owner (fun e => { e with evts := r.1 })
    if r.2 then m1 else m1.inc (cntSat owner)
  else m.inc (cntFwdLost owner)

/-- Which sources can assert in the state the owner's side is in (R393, R411, R412). -/
def srcAlive (m : Mach) (id : Nat) : Bool :=
  if id < 384 then
    !m.keepHalted && (!m.pwr.fSleep || (decide (336 ≤ id) && decide (id ≤ 351)) || id == 368)
  else
    !(decide (422 ≤ id) && decide (id ≤ 431)) &&
    (!m.pwr.hSleep || (decide (408 ≤ id) && decide (id ≤ 410)) || (decide (432 ≤ id) && decide (id ≤ 447)))

/-- SOURCE_ASSERTION: one event of a source, which its Belfry takes up at the end of the tick (R394, R405). -/
def Mach.assertSrc (id : Nat) (m : Mach) : Mach := { m with asserts := m.asserts ++ [id] }

/-- One event of a source is routed by its TARGET (R395, R398). -/
def belRoute (id : Nat) (m : Mach) : Mach :=
  if srcAlive m id then
    let cfg := m.rd (srcCfgObj id)
    match holdSide (cfgTarget cfg) with
    | none => m
    | some s => if s = srcOwner id then belHold s id 1 cfg m else belForward (srcOwner id) id m
  else m

/-- Raises an event: sets its bit and, where the unit's enable bit is 1, asserts the unit's source (R147, R394). -/
def Mach.raise (evt en : Obj) (b src : Nat) (m : Mach) : Mach :=
  let m1 := m.setEvt evt b
  if bit b (m.rd en) then m1.assertSrc src else m1

/-! ## Claims and completes -/

/-- The word a claim or peek returns (R401). -/
def claimWord (id : Nat) (x : Src) : Nat :=
  boolNat (cfgFast x.cfg) * 2 ^ 31 + boolNat x.sat * 2 ^ 20 + x.cnt * 2 ^ 16 + id

/-- A claim of one class by a core (R402): the word returned and the machine after it. -/
def belClaim (core : Nat) (fast : Bool) (m : Mach) : Nat × Mach :=
  let s := coreSide core
  match belBest (belClaimable m s (coreTarget core) fast) with
  | none => (0x3FF, m.inc (cntSpur s))
  | some (id, x) =>
    (claimWord id x, m.setSrc s id { x with pend := false, cnt := 0, sat := false, rel := false, svc := coreTarget core })

/-- What the next claim of either class would return; FAST ranks above NORMAL at equal PRIO (R401, R402). -/
def belPeek (core : Nat) (m : Mach) : Nat :=
  let s := coreSide core
  match belBest (belClaimable m s (coreTarget core) true), belBest (belClaimable m s (coreTarget core) false) with
  | none, none => 0x3FF
  | some f, none => claimWord f.1 f.2
  | none, some n => claimWord n.1 n.2
  | some f, some n => if cfgPrio f.2.cfg < cfgPrio n.2.cfg then claimWord n.1 n.2 else claimWord f.1 f.2

/-- A COMPLETE store by a core (R403). -/
def belComplete (core v : Nat) (m : Mach) : Mach :=
  let s := coreSide core
  if v = 0x3FF then m
  else
    let id := v % 1024
    let x := m.src s id
    if v < 512 ∧ x.svc = coreTarget core then m.setSrc s id { x with svc := 0 }
    else m.inc (cntBad s)

/-! ## Bitmap writes (R404) -/

/-- The IDs named by the 1 bits of word j. -/
def mapIds (j v : Nat) : List Nat := (List.range 32).filterMap (fun b => if bit b v then some (32 * j + b) else none)

def belPendSetWord (s : Side) (j v : Nat) (m : Mach) : Mach :=
  m.each (mapIds j v) (fun id m => if srcOwner id = s then m.assertSrc id else m)

/-- A source that a write makes unclaimable becomes claimable afresh when it is so again at the end of the tick (R409). -/
def belUnclaim (s : Side) (id : Nat) (m : Mach) : Mach :=
  m.setBel s { m.bel s with ext := (m.bel s).ext.filter (fun e => e != id) }

def belPendClrWord (s : Side) (j v : Nat) (m : Mach) : Mach :=
  m.each (mapIds j v) (fun id m =>
    belUnclaim s id (m.setSrc s id { m.src s id with pend := false, cnt := 0, sat := false, rel := false }))

def belEnSetWord (s : Side) (j v : Nat) (m : Mach) : Mach :=
  m.each (mapIds j v) (fun id m => m.wr (enObj s (id / 32)) (setBit (id % 32) (m.rd (enObj s (id / 32)))))

def belEnClrWord (s : Side) (j v : Nat) (m : Mach) : Mach :=
  m.each (mapIds j v) (fun id m =>
    belUnclaim s id (m.wr (enObj s (id / 32)) (clrBit (id % 32) (m.rd (enObj s (id / 32))))))

def belCounters : Side → List Obj
  | .field => [R.BEL_F_CNT_SAT, R.BEL_F_CNT_SPUR, R.BEL_F_CNT_BADCOMP, R.BEL_F_CNT_FWD_TX, R.BEL_F_CNT_FWD_RX,
      R.BEL_F_CNT_FWD_LOST]
  | .host => [R.BEL_H_CNT_SAT, R.BEL_H_CNT_SPUR, R.BEL_H_CNT_BADCOMP, R.BEL_H_CNT_FWD_TX, R.BEL_H_CNT_FWD_RX,
      R.BEL_H_CNT_FWD_LOST]

/-- An EVENT arrival at the holding side; during a Keep debug halt the field Belfry holds up to 64 (R396, R411). `first`
marks the first event of a message, which counts the message. -/
def belArrive (s : Side) (id n cfg : Nat) (first : Bool) (m : Mach) : Mach :=
  if s = .field ∧ m.keepHalted then
    if m.belF.held.length < 64 then
      { m with belF := { m.belF with held := m.belF.held ++ [(id, n + 16 * boolNat first, cfg)] } }
    else m.incBy R.BEL_F_CNT_FWD_LOST n
  else m.setBel s { m.bel s with arr := (m.bel s).arr ++ [(id, n + 16 * boolNat first, cfg)] }

/-- An arrival takes effect. -/
def belTake (s : Side) (e : Nat × Nat × Nat) (m : Mach) : Mach :=
  (belHold s e.1 (e.2.1 % 16) e.2.2 m).incBy (cntFwdRx s) (e.2.1 / 16)

/-- The arrivals held during a Keep debug halt are applied in order (R411). -/
def belReleaseHeld (m : Mach) : Mach :=
  { m with belF := { m.belF with held := [], arr := m.belF.held ++ m.belF.arr } }

/-- Every collecting group of a side whose limits are reached fires. -/
def belGroups (s : Side) (m : Mach) : Mach := m.each (((m.bel s).grp).map (·.1)) (belGroupCheck s)

/-- The field groups' time stands still in a Keep debug halt: after it their starts lie as much later as it took (R411). -/
def belThaw (m : Mach) : Mach :=
  match m.belF.frozen with
  | some t =>
    { m with belF := { m.belF with
      frozen := none
      grp := m.belF.grp.map (fun e => (e.1, { e.2 with start := e.2.start.map (fun s => s + (m.now - t)) })) } }
  | none => m

/-- The field groups of a tick: frozen while Keep is halted (R411). -/
def belFieldGroups (m : Mach) : Mach :=
  if m.keepHalted then
    { m with belF := { m.belF with frozen := some (m.belF.frozen.getD m.now) } }
  else belGroups .field (belThaw m)

/-- The HOST_EXT sources that are claimable. -/
def belExt (m : Mach) : List Nat :=
  (m.belH.src.filter (fun e => belReady m .host e.1 e.2 && cfgTarget e.2.cfg == 4)).map (·.1)

/-- MSI-X: the vector of a source that has become claimable is signalled once (R409). -/
def belMsix (m : Mach) : Mach :=
  let l := belExt m
  let m1 := m.each (l.filter (fun id => !m.belH.ext.contains id)) (fun id m =>
    let v := cfgVec (m.src .host id).cfg
    if v ≠ 0 ∧ bit 2 (m.rd R.BEL_H_EXT_CFG) ∧ m.pwr.msixEn then m.send .msix [v] else m)
  { m1 with belH := { m1.belH with ext := l } }

/-- INTH stands at its active level (R409). -/
def inthActive (m : Mach) : Bool := bit 0 (m.rd R.BEL_H_EXT_CFG) && !(belExt m).isEmpty

/-- Ball INTH: its active level follows INTH_POL (R409, R545). -/
def inthHigh (m : Mach) : Bool := inthActive m == bit 1 (m.rd R.BEL_H_EXT_CFG)

/-- A change of ball INTH. -/
def belInth (m : Mach) : Mach :=
  if m.belH.inthLow = !inthHigh m then m
  else { m with belH := { m.belH with inthLow := !inthHigh m } }.send .inth [boolNat (inthHigh m)]

/-- The assertions and arrivals of a tick in ascending ID, after them the coalescing fires, then MSI-X and INTH (R405). -/
def belTick (m : Mach) : Mach :=
  let ids := sortNat (m.asserts ++ m.belF.arr.map (·.1) ++ m.belH.arr.map (·.1))
  let m1 := { m with
    asserts := []
    belF := { m.belF with arr := [] }
    belH := { m.belH with arr := [] } }
  let m2 := m1.each ids (fun id m2 =>
    ((m2.each (m.asserts.filter (· == id)) belRoute).each (m.belF.arr.filter (fun e => e.1 == id)) (belTake .field)).each
      (m.belH.arr.filter (fun e => e.1 == id)) (belTake .host))
  belInth (belMsix (belGroups .host (belFieldGroups m2)))

/-- Host timer n: the assertion and what becomes of CMP and EN (R410). -/
def hostTimer (n : Nat) (m : Mach) : Mach :=
  let cmp := m.rd (R.BEL_H_TMR_CMP n)
  let per := m.rd (R.BEL_H_TMR_PER n)
  let m1 := m.assertSrc (432 + n)
  if per = 0 then m1.wr (R.BEL_H_TMR_EN n) 0
  else m1.wr (R.BEL_H_TMR_CMP n) ((cmp + ((m.hlt - cmp) / per + 1) * per) % 2 ^ 64)

/-- A core's class 4 or 5 request (R400). -/
def belRequest (m : Mach) (core : Nat) (fast : Bool) : Bool :=
  !(belClaimable m (coreSide core) (coreTarget core) fast).isEmpty

/-- Some source is claimable at the core, which wakes its side from SLEEP (R412, R523, R524). -/
def belCalls (m : Mach) (core : Nat) : Bool := belRequest m core true || belRequest m core false

/-- Some source targeted at the core is both enabled and pending (R377). -/
def belWakes (m : Mach) (core : Nat) : Bool :=
  (m.bel (coreSide core)).src.any (fun e =>
    e.2.pend && belEnabled m (coreSide core) e.1 && cfgTarget e.2.cfg == coreTarget core)

/-- Reset or HOLD entry of a side clears what its Belfry holds, before the tick's arrivals (R405, R412). -/
def belReset (s : Side) (m : Mach) : Mach := m.setBel s { arr := (m.bel s).arr, inthLow := (m.bel s).inthLow }

end Sys2Proof.Machine
end

