-- ==== Sys2Proof/Machine/Crypto.lean ====
section
/-! DEFINITION. SHA-256 (FIPS 180-4), HMAC-SHA-256 (FIPS 198-1) and ECDSA P-256 verification (FIPS 186-4), which R495 and
R515 name for session proofs and firmware images. -/

namespace Sys2Proof.Machine

/-! ## SHA-256 -/

/-- The largest r with r ^ k ≤ n, bit by bit from bit b - 1 down, on top of the bits found so far. -/
def rootBelow (k n : Nat) : Nat → Nat → Nat
  | 0, r => r
  | b + 1, r => rootBelow k n b (if (r + 2 ^ b) ^ k ≤ n then r + 2 ^ b else r)

/-- The primes below 312: the first 64. -/
def shaPrimes : List Nat := (List.range' 2 310).filter (fun n => (List.range' 2 16).all (fun d => n % d != 0 || n == d))

/-- The first 32 bits of the fraction of the k-th root of p. -/
def rootFraction (k p : Nat) : Nat := rootBelow k (p * 2 ^ (32 * k)) 35 0 % 2 ^ 32

/-- The round constants come from the cube roots of the first 64 primes, the initial state from the square roots of the first 8. -/
def shaK : List Nat := shaPrimes.map (rootFraction 3)

def shaInit : List Nat := (shaPrimes.take 8).map (rootFraction 2)

def rotr32 (n x : Nat) : Nat := x / 2 ^ n ||| x * 2 ^ (32 - n) % 2 ^ 32

/-- The message schedule, newest word first: `n` words more on top of the ones at hand. -/
def shaExpand : Nat → List Nat → List Nat
  | 0, w => w
  | n + 1, w =>
    let a := w.getD 14 0
    let b := w.getD 1 0
    let s0 := (rotr32 7 a ^^^ rotr32 18 a) ^^^ a / 8
    let s1 := (rotr32 17 b ^^^ rotr32 19 b) ^^^ b / 1024
    shaExpand n ((w.getD 15 0 + s0 + w.getD 6 0 + s1) % 2 ^ 32 :: w)

/-- One round for each pair of constant and schedule word. -/
def shaRounds : List (Nat × Nat) → List Nat → List Nat
  | [], st => st
  | (k, w) :: rest, st =>
    match st with
    | [a, b, c, d, e, f, g, h] =>
      let s1 := (rotr32 6 e ^^^ rotr32 11 e) ^^^ rotr32 25 e
      let ch := (e &&& f) ^^^ ((e ^^^ 0xFFFFFFFF) &&& g)
      let t1 := h + s1 + ch + k + w
      let s0 := (rotr32 2 a ^^^ rotr32 13 a) ^^^ rotr32 22 a
      let mj := ((a &&& b) ^^^ (a &&& c)) ^^^ (b &&& c)
      shaRounds rest [(t1 + s0 + mj) % 2 ^ 32, a, b, c, (d + t1) % 2 ^ 32, e, f, g]
    | _ => st

/-- The big-endian words of a block. -/
def beWords : Nat → List Byte → List Nat
  | 0, _ => []
  | n + 1, l => leNat (l.take 4).reverse :: beWords n (l.drop 4)

def shaBlock (st : List Nat) (block : List Byte) : List Nat :=
  let w := (shaExpand 48 (beWords 16 block).reverse).reverse
  (st.zip (shaRounds (shaK.zip w) st)).map (fun p => (p.1 + p.2) % 2 ^ 32)

/-- The blocks of a padded message. -/
def shaBlocks : Nat → List Byte → List Nat → List Nat
  | 0, _, st => st
  | n + 1, l, st => shaBlocks n (l.drop 64) (shaBlock st (l.take 64))

def shaPad (l : List Byte) : List Byte :=
  l ++ [0x80] ++ List.replicate ((119 - l.length % 64) % 64) 0 ++ toBe 8 (8 * l.length)

/-- SHA-256 of a byte string. -/
def sha256 (l : List Byte) : List Byte :=
  let p := shaPad l
  (shaBlocks (p.length / 64) p shaInit).flatMap (toBe 4)

/-- HMAC-SHA-256. -/
def hmac256 (key msg : List Byte) : List Byte :=
  let k0 := if 64 < key.length then sha256 key else key
  let k := k0 ++ List.replicate (64 - k0.length) 0
  sha256 (k.map (· ^^^ 0x5C) ++ sha256 (k.map (· ^^^ 0x36) ++ msg))

/-! ## ECDSA over P-256 -/

def p256P : Nat := 0xFFFFFFFF00000001000000000000000000000000FFFFFFFFFFFFFFFFFFFFFFFF
def p256N : Nat := 0xFFFFFFFF00000000FFFFFFFFFFFFFFFFBCE6FAADA7179E84F3B9CAC2FC632551
def p256B : Nat := 0x5AC635D8AA3A93E7B3EBBD55769886BC651D06B0CC53B0F63BCE3C3E27D2604B
def p256G : Nat × Nat :=
  (0x6B17D1F2E12C4247F8BCE6E563A440F277037D812DEB33A0F4A13945D898C296,
   0x4FE342E2FE1A7F9B8EE7EB4A7C0F9E162BCE33576B315ECECBB6406837BF51F5)

/-- Power modulo m by squaring, over the `n` low bits of the exponent. -/
def powMod (m : Nat) : Nat → Nat → Nat → Nat
  | 0, _, _ => 1
  | n + 1, b, e =>
    let r := powMod m n (b * b % m) (e / 2)
    if e % 2 = 1 then b * r % m else r

/-- Inverse modulo a prime. -/
def invMod (m a : Nat) : Nat := powMod m 256 (a % m) (m - 2)

/-- Addition of points; none is the point at infinity. -/
def ecAdd : Option (Nat × Nat) → Option (Nat × Nat) → Option (Nat × Nat)
  | none, q => q
  | p, none => p
  | some (x1, y1), some (x2, y2) =>
    if x1 = x2 ∧ (y1 + y2) % p256P = 0 then none
    else
      let l :=
        if x1 = x2 then (3 * x1 * x1 + (p256P - 3)) % p256P * invMod p256P (2 * y1) % p256P
        else (y2 + (p256P - y1)) % p256P * invMod p256P (x2 + (p256P - x1)) % p256P
      let x3 := (l * l + (p256P - x1) + (p256P - x2)) % p256P
      some (x3, (l * ((x1 + (p256P - x3)) % p256P) + (p256P - y1)) % p256P)

/-- Multiple of a point over the `n` low bits of the factor. -/
def ecMul : Nat → Nat → Option (Nat × Nat) → Option (Nat × Nat)
  | 0, _, _ => none
  | n + 1, k, p =>
    let r := ecMul n (k / 2) (ecAdd p p)
    if k % 2 = 1 then ecAdd p r else r

def beNat (l : List Byte) : Nat := leNat l.reverse

/-- ECDSA P-256 verification with SHA-256: public key X then Y, message, signature r then s, all big-endian (R514). -/
def ecdsaVerify (pub msg sig : List Byte) : Bool :=
  let x := beNat (pub.take 32)
  let y := beNat (pub.drop 32)
  let r := beNat (sig.take 32)
  let s := beNat (sig.drop 32)
  let onCurve := y * y % p256P == (x * x * x + (p256P - 3) * x + p256B) % p256P
  if x < p256P ∧ y < p256P ∧ onCurve ∧ 0 < r ∧ r < p256N ∧ 0 < s ∧ s < p256N then
    let w := invMod p256N s
    let u1 := beNat (sha256 msg) * w % p256N
    let u2 := r * w % p256N
    match ecAdd (ecMul 256 u1 (some p256G)) (ecMul 256 u2 (some (x, y))) with
    | none => false
    | some (vx, _) => vx % p256N == r
  else false

end Sys2Proof.Machine
end

