-- ==== Sys2Proof/Machine/Boot.lean ====
section
/-! DEFINITION. Firmware images and what the boot ROMs do with them (R514 to R519), and the restart of a core (R375). -/

namespace Sys2Proof.Machine

/-! ## Images (R514, R515) -/

def imgLoad (h : List Byte) : Nat := fieldAt 12 4 h
def imgEntry (h : List Byte) : Nat := fieldAt 16 4 h
def imgLen (h : List Byte) : Nat := fieldAt 20 4 h
def imgVersion (h : List Byte) : Nat := fieldAt 8 4 h
def imgDigest (h : List Byte) : List Byte := (h.drop 24).take 32

/-- Whether a body of `n` bytes at `a` lies in a memory that R514 allows for the side. -/
def imgPlace (s : Side) (a n : Nat) : Bool :=
  match s with
  | .host => decide (0x10000000 ≤ a) && decide (a + n ≤ 0x10200000)
  | .field =>
    (decide (0x10000000 ≤ a) && decide (a + n ≤ 0x10100000)) ||
    (decide (0x90000000 ≤ a) && decide (a + n ≤ 0x9C000000))

/-- MAGIC, SIDE, LOAD_ADDR, ENTRY and LENGTH within the limits of R514. -/
def imgHeaderOk (s : Side) (h : List Byte) : Bool :=
  fieldAt 0 4 h == 0x584A5453 &&
  fieldAt 4 1 h == (match s with | .host => 0 | .field => 1) &&
  imgLoad h % 4 == 0 && imgLen h % 4 == 0 &&
  decide (imgLen h ≤ (match s with | .host => 1966080 | .field => 16777216)) &&
  imgPlace s (imgLoad h) (imgLen h)

/-- The signature over bytes 0 to 119 under the header's own key. -/
def imgSigOk (h : List Byte) : Bool := ecdsaVerify ((h.drop 56).take 64) (h.take 120) ((h.drop 120).take 64)

/-- SECURE in PWR_H_BOOT_STAT (R515). -/
def Mach.secure (m : Mach) : Bool := bit 4 (m.rd R.PWR_H_BOOT_STAT)

/-- Validity of the image at a flash address (R515). -/
def flashImageOk (s : Side) (a : Nat) (m : Mach) : Bool :=
  let h := memRdN m.flash a 256
  imgHeaderOk s h && imgSigOk h && sha256 (memRdN m.flash (a + 256) (imgLen h)) == imgDigest h &&
  (!m.secure || m.saf.bootKey == some (sha256 ((h.drop 56).take 64)))

/-- The first valid slot of a side: its address and 0 primary, 1 alternate; 2 where none is valid (R516). -/
def pickImage (s : Side) (m : Mach) : Nat × Nat :=
  let p := match s with | .host => 0x60000000 | .field => 0x61000000
  let a := match s with | .host => 0x60400000 | .field => 0x63000000
  if flashImageOk s p m then (p, 0) else if flashImageOk s a m then (a, 1) else (0, 2)

/-! ## Restart (R375) -/

def restartCauseObj : Nat → Obj
  | 0 => R.SPR_RESTART_CAUSE 0
  | 1 => R.SPR_RESTART_CAUSE 1
  | _ => R.KEEP_RESTART_CAUSE

/-- Class 0: level M, XMASK 3, every register and shadow stack cleared, the cause in XCAUSE_M and in the core's object. What
belongs to the debug port stays. -/
def restartCore (i cause : Nat) (m : Mach) : Mach :=
  let c := m.core i
  let fresh : Core := {
    csr := mapSet 0 0x712 (BitVec.ofNat 32 cause) []
    c7 := c.c7
    ebreakHalt := c.ebreakHalt
    dapAddr := c.dapAddr }
  (m.setCore i fresh).wr (restartCauseObj i) cause

/-- Spire1 is held before the restart vector (R391). -/
def holdSpire1 (m : Mach) : Mach := m.updCore 1 (fun c => { c with held := true })

/-! ## Host boot (R517) -/

/-- The host boot ROM after a restart of Spire0. -/
def hostBoot (cause : Nat) (m : Mach) : Mach :=
  if cause ≤ 6 then
    let m1 := if cause ≤ 3 then { m with hostMem := [] } else m
    let sec := if m1.saf.bootKey.isSome then 16 else 0
    let m2 := m1.wr R.PWR_H_BOOT_STAT (sec + 12)
    let p := pickImage .host m2
    let m3 := m2.wr R.PWR_H_BOOT_STAT (sec + 12 + p.2)
    if p.2 = 2 then (m3.updCore 0 (fun c => { c with gated := true })).wr R.DIC_HOST_FW_VER 0
    else
      let h := memRdN m3.flash p.1 256
      let m4 := { m3 with hostMem := memWrN m3.hostMem (imgLoad h) (memRdN m3.flash (p.1 + 256) (imgLen h)) }
      (m4.updCore 0 (fun c => { c with pc := BitVec.ofNat 32 (imgEntry h) })).wr R.DIC_HOST_FW_VER (imgVersion h)
  else
    -- causes 7 and 8: the image in SRAM is validated again; its header stands in the flash slot it was booted from
    let a := if bits 1 0 (m.rd R.PWR_H_BOOT_STAT) = 0 then 0x60000000 else 0x60400000
    let h := memRdN m.flash a 256
    if imgHeaderOk .host h && imgSigOk h && bits 1 0 (m.rd R.PWR_H_BOOT_STAT) != 2 &&
        sha256 (memRdN m.hostMem (imgLoad h) (imgLen h)) == imgDigest h then
      m.updCore 0 (fun c => { c with pc := BitVec.ofNat 32 (imgEntry h) })
    else m.updCore 0 (fun c => { c with gated := true })

/-! ## Field boot (R519) -/

/-- Where the field boot ROM keeps the header of the image it started. -/
def keptHeader : Nat := 0x100FFF00

/-- The field boot ROM after a restart of Keep. -/
def fieldBoot (cause : Nat) (m : Mach) : Mach :=
  if cause ≤ 3 then { m with keepMem := [], bar := { m.bar with fieldVer := 0, fwIn := [] } }
  else
    let h := memRdN m.keepMem keptHeader 256
    if imgHeaderOk .field h && sha256 (memRdN m.keepMem (imgLoad h) (imgLen h)) == imgDigest h then
      ({ m with bar := { m.bar with fieldVer := imgVersion h } }).updCore 2
        (fun c => { c with pc := BitVec.ofNat 32 (imgEntry h) })
    else { m with bar := { m.bar with fieldVer := 0, fwIn := [] } }

/-- A received field image: header, then body; accepted when the header passes R514 and the body matches DIGEST (R519). -/
def fieldImageDone (m : Mach) : Bool × Mach :=
  let h := m.bar.fwIn.take 256
  let body := (m.bar.fwIn.drop 256).take (imgLen h)
  if imgHeaderOk .field h && sha256 body == imgDigest h then
    let mem := memWrN (memWrN m.keepMem (imgLoad h) body) keptHeader h
    (true, (({ m with keepMem := mem, bar := { m.bar with fieldVer := imgVersion h, fwIn := [] } }).updCore 2
      (fun c => { c with pc := BitVec.ofNat 32 (imgEntry h), gated := false })).wr R.DIC_FIELD_FW_VER (imgVersion h))
  else (false, { m with bar := { m.bar with fwIn := [] } })

/-! ## Double escalation and lockstep restarts (R359, R374) -/

/-- A restart that is no reset of the side: the core and its boot ROM; Spire1 follows SPR_RELEASE (R357, R517). -/
def restartOnly (i cause : Nat) (m : Mach) : Mach :=
  let m1 := restartCore i cause m
  if i = 0 then hostBoot cause m1 else if i = 2 then fieldBoot cause m1
  else if m1.rd (R.SPR_RELEASE 1) = 1 then m1 else holdSpire1 m1

end Sys2Proof.Machine
end

