-- ==== Sys2Proof/Machine/CpuEntry.lean ====
section
/-! DEFINITION. Entries and returns of the cores (R366 to R374): the one operation every exception and interrupt goes
through, and the return beside it. -/

namespace Sys2Proof.Machine

/-! ## Control registers that entries use (R363) -/

/-- What a control register that only holds its value resets to. -/
def csrReset (n : Nat) : Word := if n = 0x730 then 0x530 else if n = 0x731 then 3 else 0

def Core.csrGet (c : Core) (n : Nat) : Word := mapGet (csrReset n) n c.csr

def Core.csrSet (n : Nat) (v : Word) (c : Core) : Core := { c with csr := mapSet (csrReset n) n v c.csr }

/-- The first control register of a save set: level S, level M or the escalation set. -/
def saveBase (escal : Bool) (l : Nat) : Nat := if escal then 0x720 else if l = 1 then 0x510 else 0x710

/-- Number of XSTACK of a level. -/
def stackCsr (l : Nat) : Nat := if l = 1 then 0x516 else 0x716

/-- XSTATUS or XSTAT from its fields (R363). -/
def statusWord (b5 fast : Bool) (mask lvl : Nat) : Word :=
  BitVec.ofNat 32 (boolNat b5 * 32 + boolNat fast * 16 + mask * 4 + lvl)

/-- x2 is exchanged with the stack pointer of level `l`. -/
def Core.swapStack (l : Nat) (c : Core) : Core :=
  let t := mapGet 0 2 c.x
  { c with x := mapSet 0 2 (c.csrGet (stackCsr l)) c.x }.csrSet (stackCsr l) t

/-- XMASK after an entry (R366). -/
def entryMask (cls l : Nat) (c : Core) : Nat :=
  if cls = 2 then
    (if l = 1 then bits 9 8 (c.csrGet 0x730).toNat else bits 11 10 (c.csrGet 0x730).toNat)
  else if cls = 4 then 1 else if cls = 1 ∨ cls = 3 ∨ cls = 5 then 2 else 3

/-- The address an entry continues at (R366). -/
def entryVector (cls l : Nat) (c : Core) : Word :=
  let base := if l = 1 then 0x510 else 0x710
  if cls = 2 ∧ (c.csrGet (base + 5)).toNat % 2 = 1 then c.csrGet (base + 5) &&& 0xFFFFFFFE
  else c.csrGet (base + 4) + BitVec.ofNat 32 (32 * cls)

/-- An entry of class `cls` to level `l` (R367). -/
def Core.entry (cls l code info : Nat) (resume : Word) (c : Core) : Core :=
  let escal := decide (6 ≤ cls)
  let base := saveBase escal l
  let swap := decide (l ≠ c.lvl)
  let c1 := (((c.csrSet base (resume &&& 0xFFFFFFFE)).csrSet (base + 1) (statusWord swap c.fast c.xmask c.lvl)).csrSet
    (base + 2) (BitVec.ofNat 32 (cls * 2 ^ 28 + code))).csrSet (base + 3) (BitVec.ofNat 32 info)
  let c2 := if swap then c1.swapStack l else c1
  { c2 with
    eact := c2.eact || escal
    fast := c2.fast || decide (cls = 5)
    lvl := l
    xmask := entryMask cls l c
    pc := entryVector cls l c
    resv := none
    gated := false }

/-- Escalation counters and records of a core (R373, R374). -/
def cntEsc : Nat → Obj
  | 0 => R.SPR_CNT_ESC 0
  | 1 => R.SPR_CNT_ESC 1
  | _ => R.KEEP_CNT_ESC

def cntDouble : Nat → Obj
  | 0 => R.SPR_CNT_DOUBLE 0
  | 1 => R.SPR_CNT_DOUBLE 1
  | _ => R.KEEP_CNT_DOUBLE

def lastEsc : Nat → Obj
  | 0 => R.SPR_LAST_ESC 0
  | 1 => R.SPR_LAST_ESC 1
  | _ => R.KEEP_LAST_ESC

def lastEscPc : Nat → Obj
  | 0 => R.SPR_LAST_ESC_PC 0
  | 1 => R.SPR_LAST_ESC_PC 1
  | _ => R.KEEP_LAST_ESC_PC

/-- SYNCHRONOUS_FAULT: a fault of class 1 or 3 enters at S from U and at M from S or M; a masked one escalates to class 6,
and one that would escalate while EACT is set restarts the core with cause DOUBLE (R366, R371, R373, R374). -/
def coreFault (i cls code info : Nat) (resume : Word) (m : Mach) : Mach :=
  let c := m.core i
  if c.xmask = 0 then m.setCore i (c.entry cls (if c.lvl = 0 then 1 else 2) code info resume)
  else if c.eact then
    let m1 := restartOnly i 7 (m.inc (cntDouble i))
    if i = 2 then m1.alarm 7 else m1
  else
    let esc := cls * 256 + code
    let m1 := m.setCore i (c.entry 6 2 esc info resume)
    ((m1.inc (cntEsc i)).wr (lastEsc i) (6 * 2 ^ 28 + esc)).wr (lastEscPc i) (resume &&& 0xFFFFFFFE).toNat

/-- The fault of a refused or impossible store: STORE_ACCESS with the address, precise on the storing instruction (R55,
R370, R384). -/
def storeRefused (i addr : Nat) (m : Mach) : Mach := coreFault i 1 7 addr (m.core i).pc m

/-- XRET (R368) on a core; none where it faults instead. -/
def Core.xret (c : Core) : Except Nat Core :=
  let escal := decide (c.lvl = 2) && c.eact
  let base := saveBase escal c.lvl
  let s := (c.csrGet (base + 1)).toNat
  let plvl := bits 1 0 s
  if plvl = 3 then .error 2
  else if c.lvl < plvl then .error 8
  else
    let c1 := if bit 5 s then c.swapStack c.lvl else c
    .ok { c1 with
      eact := c1.eact && !escal
      fast := bit 4 s
      lvl := plvl
      xmask := if plvl = 0 then 0 else bits 3 2 s
      pc := c.csrGet base
      resv := none }

/-- Where an interrupt class is taken: class 4 and 5 by XIRQ_LVL, class 7 at M (R366). -/
def irqLevel (c : Core) (cls : Nat) : Nat :=
  if cls = 4 then 1 + (c.csrGet 0x731).toNat % 2
  else if cls = 5 then 1 + bits 1 1 (c.csrGet 0x731).toNat
  else 2

/-- Rank of an interrupt class (R371). -/
def irqRank (cls : Nat) : Nat := if cls = 7 then 3 else if cls = 5 then 2 else 1

/-- Whether a pending interrupt of a class is taken at a boundary (R372). -/
def irqTaken (c : Core) (cls : Nat) : Bool :=
  let l := irqLevel c cls
  (decide (c.lvl < l) || (l == c.lvl && decide (c.xmask < irqRank cls))) &&
  !(cls == 5 && c.fast) && !(cls == 7 && c.eact)

/-! ## Region checks (R365) -/

/-- Region n: whether it is enabled and holds an address. -/
def Core.inRegion (c : Core) (n addr : Nat) : Bool :=
  let base := (c.csrGet (0x760 + 2 * n)).toNat / 4096
  let lim := (c.csrGet (0x761 + 2 * n)).toNat
  bit 6 lim && decide (base ≤ addr / 4096) && decide (addr / 4096 ≤ lim / 4096)

/-- Whether the regions allow an access at the core's level: kind 0 reads, 1 writes, 2 executes. -/
def Core.allows (c : Core) (kind addr : Nat) : Bool :=
  if 2 ≤ c.lvl then true
  else
    match (List.range 8).find? (fun n => c.inRegion n addr) with
    | some n => bit (3 * c.lvl + kind) (c.csrGet (0x761 + 2 * n)).toNat
    | none => c.lvl == 1 && bit 5 (c.csrGet 0x730).toNat

end Sys2Proof.Machine
end

