-- ==== Sys2Proof/Machine/Channel.lean ====
section
/-! DEFINITION. Universal channels (chapter 7): the input stage, the channel queue, the COMPARE output stage, measurement,
step outputs and the sigma-delta decimators. -/

namespace Sys2Proof.Machine

/-! ## Abort codes (R63) -/

/-- Why a write or request is refused: the abort codes of R63 by name. -/
inductive Abort where
  | frame | opcode | route | session | noObject | noSub | notDomain | readOnly | machine | running | length | range
  | notReady | halted | fenced | busy | unknown | sequence | size | crc | handle | idle | store
deriving DecidableEq, Repr

/-- The code ARG carries. -/
def Abort.code : Abort → Nat
  | .frame => 0x01000001
  | .opcode => 0x01000002
  | .route => 0x01000003
  | .session => 0x01000004
  | .noObject => 0x02000001
  | .noSub => 0x02000002
  | .notDomain => 0x02000003
  | .readOnly => 0x03000001
  | .machine => 0x03000002
  | .running => 0x03000003
  | .length => 0x04000001
  | .range => 0x04000002
  | .notReady => 0x05000001
  | .halted => 0x05000002
  | .fenced => 0x05000003
  | .busy => 0x05000004
  | .unknown => 0x05000005
  | .sequence => 0x06000001
  | .size => 0x06000002
  | .crc => 0x06000003
  | .handle => 0x06000004
  | .idle => 0x06000005
  | .store => 0x07000001

/-- What a write's effect answers: the machine after it, or the abort that refuses it. -/
abbrev Eff := Except Abort Mach

/-! ## Channel records and configuration -/

def Mach.chan (m : Mach) (c : Nat) : Chan := mapGet {} c m.chans

def Mach.setChan (c : Nat) (x : Chan) (m : Mach) : Mach := { m with chans := mapSet {} c x m.chans }

def Mach.updChan (c : Nat) (f : Chan → Chan) (m : Mach) : Mach := m.setChan c (f (m.chan c))

/-- The mode in force: a write of CH_MODE takes effect in the next tick (R227). -/
def Mach.chMode (m : Mach) (c : Nat) : Nat := (m.chan c).was.getD (m.rd (R.CH_MODE c))
def Mach.chEn (m : Mach) (c : Nat) : Bool := m.on (R.CH_EN c)
def Mach.chInvert (m : Mach) (c : Nat) : Bool := bit 7 (m.rd (R.CH_PIN_CFG c))
def Mach.chDirOut (m : Mach) (c : Nat) : Bool := bit 0 (m.rd (R.CH_PIN_CFG c))

/-- A CLOCK channel of SIGMA_DELTA, and one with an internal clock (R248). -/
def Mach.sdClock (m : Mach) (c : Nat) : Bool := bit 31 (m.rd (R.CH_SD_CFG c))
def Mach.sdInternal (m : Mach) (c : Nat) : Bool := m.sdClock c && !bit 30 (m.rd (R.CH_SD_CFG c))

/-- Output direction by mode (R223); TURRET pins have the direction their context binds, so they are told apart there. -/
def Mach.chIsOut (m : Mach) (c : Nat) : Bool :=
  match m.chMode c with
  | 0 => true
  | 1 => m.chDirOut c
  | 2 => true
  | 6 => true
  | 7 => true
  | 8 => true
  | 10 => m.sdInternal c
  | _ => false

/-- Raises channel event `b` (R252). -/
def chRaise (c b : Nat) (m : Mach) : Mach := m.raise (R.CH_EVT c) (R.CH_EVT_EN c) b c

/-- Units of the field side are stopped: HOLD, SLEEP or a Keep debug halt (R253, R521). -/
def Mach.fieldStill (m : Mach) : Bool := m.inHold || m.pwr.fSleep || m.keepHalted || m.inReset .field

/-- T61 of a fine time (R233). -/
def t61 (t : Nat) : Nat := t % 2 ^ 61

/-- Whether an instant in T61 is in the past (R233). -/
def inPast (instant now8 : Nat) : Bool := decide (2 ^ 60 ≤ (instant % 2 ^ 61 + 2 ^ 61 - now8 % 2 ^ 61) % 2 ^ 61)

/-- FTB_NOW in 1/8 T. -/
def Mach.now8 (m : Mach) : Nat := 8 * m.now

/-- Whether an instant in T61 lies in this tick or before it. -/
def Mach.reached61 (m : Mach) (t : Nat) : Bool := !inPast (m.now8 + 7) t || t61 (m.now8 + 7) == t61 t

/-! ## Input stage (R225, R228, R230, R231) -/

/-- The logical level of a channel's pin as the outside last drove it (R228). -/
def Mach.chIn (m : Mach) (c : Nat) : Bool := (m.chan c).seen != m.chInvert c

/-- The stage stamps at most one transition a tick: a second one of a tick gets the start of the next (R231, log 60). -/
def chStamp (x : Chan) (t : Nat) : Nat :=
  match x.stamped with
  | some k => if t / 8 ≤ k then 8 * (k + 1) else t
  | none => t

/-- LOCKOUT applies in these modes (R230). -/
def lockoutOf (m : Mach) (c : Nat) : Nat :=
  if m.chMode c = 3 ∨ m.chMode c = 4 ∨ m.chMode c = 5 ∨ m.chMode c = 1 then bits 31 16 (m.rd (R.CH_IN_CFG c)) else 0

/-- What the stage makes of an edge: the logical level and the stamp, unless a lockout absorbs it. -/
def chPass (c : Nat) (lvl : Bool) (t : Nat) (m : Mach) : Option (Bool × Nat) × Mach :=
  let x := m.chan c
  let n := lockoutOf m c
  let m1 := m.setChan c { x with stamped := some (t / 8), lock := if n = 0 then none else some (t / 8 + n, lvl) }
  match x.lock with
  | some (last, _) => if t / 8 ≤ last then (none, m.inc (R.CH_CNT_LOCKOUT c)) else (some (lvl, t), m1)
  | none => (some (lvl, t), m1)

/-- An edge at the pin passes the input stage: the logical level it leads to and its stamp, unless the channel delivers nothing or a
lockout absorbs it. One edge may reach several units: the stage does not do again what it did with it (R103). -/
def chAccept (c : Nat) (rise : Bool) (t : Nat) (m : Mach) : Option (Bool × Nat) × Mach :=
  let x := m.chan c
  if m.chIsOut c || !m.chEn c || m.fieldStill then (none, m.setChan c { x with seen := rise, ext := true })
  else
    match x.edge with
    | some (t0, r0, r) => if t0 = t ∧ r0 = rise then (r, m) else fresh
    | none => fresh
where
  fresh : Option (Bool × Nat) × Mach :=
    let r := chPass c (rise != m.chInvert c) (chStamp (m.chan c) t) (m.updChan c (fun x => { x with seen := rise, ext := true }))
    (r.1, r.2.updChan c (fun x => { x with edge := some (t, rise, r.1) }))

/-- Whether EDGE_SEL selects an edge to the given logical level. -/
def edgeSel (m : Mach) (c : Nat) (lvl : Bool) : Bool :=
  match bits 1 0 (m.rd (R.CH_IN_CFG c)) with
  | 0 => lvl
  | 1 => !lvl
  | _ => true

/-! ## The queue (R232 to R236) -/

/-- A result entry of the channel itself. The pops of a tick come before it (R235), so that a queue found full is cut back to 16
entries by `chTrim` at the end of the tick. -/
def chResult (c word : Nat) (m : Mach) : Mach := m.updChan c (fun x => { x with q := x.q ++ [{ w := word, at_ := m.now }] })

/-- A queue with more than 16 entries at the end of a tick: in COMPARE the newest pushes are dropped, else OVF_MODE decides which
entries go (R236, R240). -/
def chTrim (c : Nat) (m : Mach) : Mach :=
  m.each (List.range ((m.chan c).q.length - 16)) (fun _ m =>
    let m1 := chRaise c 2 (m.inc (R.CH_CNT_DROP c))
    m1.updChan c (fun x => { x with
      q := if m.chMode c ≠ 2 ∧ bit 3 (m.rd (R.CH_IN_CFG c)) then x.q.drop 1 else x.q.dropLast }))

/-- The entries of a tick stand in the order of their writers (R235). -/
def byWriter {α : Type} (new : α → Bool) (rank : α → Nat) (l : List α) : List α :=
  l.filter (fun e => !new e) ++ (List.range 18).flatMap (fun k => l.filter (fun e => new e && rank e == k))

/-- The pushes of a tick into a COMPARE queue take their order and their places. -/
def chSettle (c : Nat) (m : Mach) : Mach :=
  if (m.chan c).q.any (fun e => e.at_ == m.now) then
    m.updChan c (fun x => { x with q := byWriter (fun e => e.at_ == m.now) (·.by_) x.q })
  else m

/-- Events of an entry leaving the edge queue (R237, R254). -/
def chLeft (c : Nat) (m : Mach) : Mach :=
  let n := (m.chan c).q.length
  let low := bits 7 4 (m.rd (R.CH_OUT_CFG c))
  if m.chMode c = 2 ∧ (n = 0 ∨ (low ≠ 0 ∧ 16 - n = low)) then chRaise c 1 m else m

/-- An entry refused for its content: action 3, or bit 61 set (R233). -/
def badEntry (word : Nat) : Bool := bits 63 62 word == 3 || bit 61 word

/-- A COMPARE push of a writer: dropped with its event where R236 says so. Whether the queue has a place for it shows at the end of the
tick, for the pops of the tick come before it (R235): `chTrim` drops it then. -/
def chPush (by_ c word : Nat) (m : Mach) : Mach :=
  let x := m.chan c
  if m.chMode c ≠ 2 then chRaise c 2 (m.inc (R.CH_CNT_DROP c))
  else if badEntry word then chRaise c 3 (m.inc (R.CH_CNT_DROP c))
  else m.setChan c { x with q := x.q ++ [{ w := word, at_ := m.now, by_ := by_ }] }

/-- CH_Q_PUSH: a push that would be dropped is refused instead; a queue full when the write comes counts as full (log 66). -/
def chDictPush (c word : Nat) (m : Mach) : Eff :=
  if m.chMode c ≠ 2 ∨ badEntry word ∨ 16 ≤ (m.chan c).q.length then .error .range else .ok (chPush 17 c word m)

/-- Entries removed from an enabled COMPARE queue whose instant lies at or before now + 12 T: they still play (R551, R552). -/
def withdrawn (m : Mach) (c : Nat) (l : List Entry) : List Entry :=
  if m.chMode c = 2 ∧ m.chEn c then l.filter (fun e => inPast e.w (m.now8 + 97)) else []

/-- The entries that a removal finds: those that are not of this tick, for pushes and results follow the flush and the pops
(R235). -/
def chOld (m : Mach) (c : Nat) : List Entry := (m.chan c).q.filter (fun e => e.at_ != m.now)

/-- Removes some of the oldest entries. -/
def chTake (c n : Nat) (m : Mach) : Mach :=
  let x := m.chan c
  if n = 0 then m else chLeft c (m.setChan c { x with q := x.q.drop n, ghost := x.ghost ++ withdrawn m c (x.q.take n) })

/-- Removes the head of the queue. -/
def chPop (c : Nat) (m : Mach) : Mach := chTake c (min 1 (chOld m c).length) m

/-- Empties the queue. -/
def chFlush (c : Nat) (m : Mach) : Mach := chTake c (chOld m c).length m

/-- The head entry, 0 when empty. -/
def chHead (m : Mach) (c : Nat) : Nat := ((m.chan c).q.head?.map (·.w)).getD 0

/-- PUSH_LO. -/
def portPushLo (port c v : Nat) (m : Mach) : Mach :=
  m.updChan c (fun x => { x with stage := mapSet 0 port v x.stage })

/-- PUSH_HI. -/
def portPushHi (port c v : Nat) (m : Mach) : Mach :=
  chPush port c (v * 2 ^ 32 + mapGet 0 port (m.chan c).stage) m

/-- POP_HI. -/
def portPopHi (port c : Nat) (m : Mach) : Nat := mapGet 0 port (m.chan c).pop

/-! ## The COMPARE output stage (R237, R238) -/

/-- The level that the output stage is led to: a transition that was moved is still to come. -/
def Chan.level (x : Chan) : Bool := (x.fut.getLast?.map (·.2)).getD x.lvl

/-- Transitions whose instants lie before the end of this tick reach the pin. -/
def outReach (m : Mach) (x : Chan) : Chan :=
  let l := x.fut.takeWhile (fun e => m.reached61 e.1)
  match l.getLast? with
  | some e => { x with lvl := e.2, fut := x.fut.drop l.length }
  | none => x

/-- The same for one channel. -/
def outsReach (c : Nat) (m : Mach) : Mach := if (m.chan c).fut.isEmpty then m else m.updChan c (outReach m)

/-- The stage as it was before the latest entries applied: its last transition came at `last`, and its level was `lvl`. -/
def Chan.back (last : Option Nat) (lvl : Bool) (x : Chan) : Chan :=
  let kept := x.fut.filter (fun e => match last with
    | some l => !inPast l e.1
    | none => false)
  { x with last := last, fut := kept, lvl := if kept.isEmpty then lvl else x.lvl }

/-- Entries applied at an instant lead the output stage to a level: whether they were discarded, and the machine after them. Entries
of one instant count as one: the last of them decides (R238). A transition due less than 2 T after the one before is moved and late;
in COMPARE, LATE_POL DROP discards it. A level that does not change is no transition. -/
def outApply (c : Nat) (lvl : Bool) (t : Nat) (m : Mach) : Bool × Mach :=
  let x := m.chan c
  let again : Bool := match x.join with
    | some (n, _, _) => n == t61 t
    | none => false
  let y : Chan := match x.join with
    | some (_, l, b) => if again then x.back l b else x
    | none => x
  let z := { y with join := some (t61 t, y.last, y.level) }
  let put (at_ : Nat) : Chan := outReach m { z with fut := z.fut ++ [(t61 at_, lvl)], last := some (t61 at_) }
  if lvl = y.level then (false, m.setChan c z)
  else
    match y.last with
    | none => (false, m.setChan c (put t))
    | some l =>
      if inPast t (l + 16) then
        if again ∧ x.last = some (t61 (l + 16)) then (false, m.setChan c (put (l + 16)))
        else
          let m1 := chRaise c 4 (m.inc (R.CH_CNT_LATE c))
          if m.chMode c = 2 ∧ bit 1 (m.rd (R.CH_OUT_CFG c)) then (true, (m1.setChan c z).inc (R.CH_CNT_DROP c))
          else (false, m1.setChan c (put (l + 16)))
      else (false, m.setChan c (put t))

/-- A transition of the output stage to a level at an instant. -/
def outTransition (c : Nat) (lvl : Bool) (t : Nat) (m : Mach) : Mach := (outApply c lvl t m).2

/-- The level a COMPARE action leads to (R233). -/
def actionLevel (a : Nat) (now : Bool) : Bool := if a = 0 then false else if a = 1 then true else !now

/-- Applies an entry and counts it where it plays. -/
def chPlay (c word t : Nat) (m : Mach) : Mach :=
  let r := outApply c (actionLevel (bits 63 62 word) (m.chan c).level) t m
  if r.1 then r.2 else r.2.inc (R.CH_CNT_EVENTS c)

/-- The instant in T61 at which an armed entry plays. -/
def Entry.plays (e : Entry) : Nat := e.due.getD (t61 e.w)

/-- The entries before the first unarmed one, that one, and those after it. -/
def splitUnarmed : List Entry → Option (List Entry × Entry × List Entry)
  | [] => none
  | e :: rest =>
    if e.armed then
      match splitUnarmed rest with
      | none => none
      | some (pre, x, post) => some (e :: pre, x, post)
    else some ([], e, rest)

/-- An entry reaches the output stage: it waits while an entry before it has a later instant; a late one is dropped, or stays to be
played at the start of the next tick. The list is the queue or the withdrawn entries, which `put` stores. -/
def armIn (c : Nat) (before l : List Entry) (put : List Entry → Mach → Mach) (gone : Mach → Mach) (m : Mach) : Mach :=
  match splitUnarmed l with
  | none => m
  | some (pre, e, post) =>
    if (before ++ pre).any (fun p => t61 p.w ≠ t61 e.w && inPast (t61 e.w) (t61 p.w)) then m
    else if inPast (t61 e.w) m.now8 then
      let m1 := chRaise c 4 (m.inc (R.CH_CNT_LATE c))
      if bit 1 (m.rd (R.CH_OUT_CFG c)) then gone ((put (pre ++ post) m1).inc (R.CH_CNT_DROP c))
      else put (pre ++ { e with armed := true, due := some (t61 (m.now8 + 8)) } :: post) m1
    else put (pre ++ { e with armed := true } :: post) m

/-- COMPARE_ARM: the next entry, withdrawn or in the queue, reaches the output stage. -/
def compareArm (c : Nat) (m : Mach) : Mach :=
  if m.chMode c ≠ 2 ∨ !m.chEn c ∨ m.fieldStill then m
  else
    let x := m.chan c
    if x.ghost.any (fun e => !e.armed) then armIn c [] x.ghost (fun l m => m.updChan c (fun x => { x with ghost := l })) id m
    else armIn c x.ghost x.q (fun l m => m.updChan c (fun x => { x with q := l })) (chLeft c) m

/-- COMPARE_PLAY: the next withdrawn or armed entry plays at its instant. -/
def comparePlay (c : Nat) (m : Mach) : Mach :=
  if m.chMode c ≠ 2 ∨ !m.chEn c ∨ m.fieldStill then m
  else
    let x := m.chan c
    match x.ghost, x.q with
    | g :: rest, _ => if g.armed then chPlay c g.w g.plays (m.setChan c { x with ghost := rest }) else m
    | [], e :: rest => if e.armed then chLeft c (chPlay c e.w e.plays (m.setChan c { x with q := rest })) else m
    | [], [] => m

/-! ## Mode, enable and GPIO writes -/

/-- The level a mode starts with (R227, R239). -/
def initLevel (m : Mach) (c mode : Nat) : Bool :=
  if mode = 2 then bit 0 (m.rd (R.CH_OUT_CFG c)) else if mode = 1 then m.on (R.CH_GPIO_OUT c) else false

/-- An accepted CH_MODE write (R227): the object reads the new mode, which takes effect in the next tick. -/
def setChMode (c v : Nat) (m : Mach) : Mach :=
  (m.updChan c (fun x => { x with was := some (m.chMode c) })).wr (R.CH_MODE c) v

/-- The partner rules of R243 and R248 for CH_EN = 1. -/
def chEnableOk (m : Mach) (c : Nat) : Bool :=
  if m.chMode c = 6 then
    let cfg := m.rd (R.CH_PT_CFG c)
    let p := bits 30 24 cfg
    if bit 31 cfg then true
    else m.chMode p = 6 && bit 31 (m.rd (R.CH_PT_CFG p)) && bits 30 24 (m.rd (R.CH_PT_CFG p)) = c
  else if m.chMode c = 10 then
    let k := bits 4 0 (m.rd (R.CH_SD_CFG c))
    if m.sdClock c then true else m.chMode k = 10 && m.sdClock k && m.chEn k
  else true

/-- A DATA channel starts under an external clock that began before it. -/
def sdUnseen (m : Mach) (c : Nat) : Bool :=
  let k := bits 4 0 (m.rd (R.CH_SD_CFG c))
  m.chMode c == 10 && !m.sdClock c && !m.sdInternal k && decide ((m.chan k).enAt < m.now)

/-- Edges until its next frame: how many edges that clock gave meanwhile is not seen, so it is a free value (R250, log 61). -/
def sdSkip (m : Mach) (c : Nat) : Nat :=
  if sdUnseen m c then m.free.1 % 2 ^ (3 + bits 9 7 (m.rd (R.CH_SD_CFG c))) else 0

/-- The free value is used up. -/
def sdDrawn (c : Nat) (m : Mach) : Mach := if sdUnseen m c then m.free.2 else m

/-- The decimator of a channel that starts: an internal clock without SYNC starts its divider at once (R250). -/
def sdFresh (m : Mach) (c : Nat) : Sinc :=
  { idle := m.now
    bad := (m.chan c).sd.bad
    skip := sdSkip m c
    clk0 := if m.chMode c = 10 ∧ m.sdInternal c ∧ bits 23 16 (m.rd (R.CH_SD_CFG c)) = 0xFF then some m.now else none }

/-- The tick after a CH_MODE write: the queue and the old mode's measurement are gone, and the pin passes to the new mode's initial
level; what the queue ports hold stays (R227, R234). A gate still counts from the tick in which CH_EN became 1 (R242). -/
def chModeTakes (c : Nat) (m : Mach) : Mach :=
  if (m.chan c).was.isNone then m
  else
    let len := max 1 (400 * bits 31 16 (m.rd (R.CH_PF_CFG c)))
    let m1 := m.updChan c (fun x => {
      stage := x.stage
      pop := x.pop
      lvl := initLevel m c (m.rd (R.CH_MODE c))
      seen := x.seen
      ext := x.ext
      last := x.last
      enAt := x.enAt
      from_ := m.now
      gate := x.enAt + (m.now - x.enAt) / len * len })
    let m2 := if m1.chEn c then (sdDrawn c m1).updChan c (fun x => { x with sd := sdFresh m1 c }) else m1
    m2.dflts [R.CH_PERIOD c, R.CH_HIGH c, R.CH_FREQ c, R.CH_SD_RESULT c, R.CH_SD_STAMP c, R.CH_PT_COUNT c, R.CH_PT_LAG c]

/-- Sigma-delta DATA channels that take their samples at clock channel k. -/
def sdUsers (m : Mach) (k : Nat) : List Nat :=
  (List.range 32).filter (fun c => m.chMode c == 10 && !m.sdClock c && bits 4 0 (m.rd (R.CH_SD_CFG c)) == k)

/-- The clock of these channels gives no further edge from now on. -/
def sdClockStops (k : Nat) (m : Mach) : Mach :=
  if m.chMode k = 10 ∧ m.sdClock k then
    m.each (sdUsers m k) (fun c m => m.updChan c (fun x => { x with sd := { x.sd with idle := m.now } }))
  else m

/-- Measurement, steps and clocks begin as CH_EN becomes 1, and a COMPARE or GPIO pin takes its initial level. -/
def chStart (c : Nat) (m : Mach) : Mach :=
  (sdDrawn c m).updChan c (fun x => { x with
    lvl := if m.chMode c = 2 || m.chMode c = 1 then initLevel m c (m.chMode c)
      else if m.chMode c = 6 && !bit 31 (m.rd (R.CH_PT_CFG c)) then false else x.level
    fut := []
    q := x.q.map (fun e => { e with armed := false, due := none })
    ghost := []
    last := none
    join := none
    lock := none
    edge := none
    rise := none
    noSig := false
    enAt := m.now
    from_ := m.now
    gate := m.now
    gateN := 0
    gateX := []
    sd := sdFresh m c
    pt := {} })

/-- A CH_EN write (R225, R239, R243, R247, R248, R552). -/
def setChEn (c : Nat) (v : Bool) (m : Mach) : Eff :=
  if v && !m.chEn c then
    if chEnableOk m c then .ok (chStart c (m.wr (R.CH_EN c) 1)) else .error .range
  else if v then .ok m
  else
    .ok (sdClockStops c ((m.updChan c (fun x => { x with ghost := [], lock := none, pt := {}, sd := { x.sd with clk0 := none } })).wr
      (R.CH_EN c) 0))

/-- A CH_GPIO_OUT write (R239). -/
def setGpio (c : Nat) (v : Bool) (m : Mach) : Mach :=
  let m1 := m.wr (R.CH_GPIO_OUT c) (boolNat v)
  if m.chMode c ≠ 1 then m1
  else if m.chDirOut c ∧ m.chEn c then outTransition c v m.now8 m1
  else m1.updChan c (fun x => { x with lvl := v, fut := [] })

def chCounters (c : Nat) : List Obj := [R.CH_CNT_EVENTS c, R.CH_CNT_DROP c, R.CH_CNT_LATE c, R.CH_CNT_LOCKOUT c]

/-! ## Edges by mode -/

/-- A delivered edge in CAPTURE: DATA and CH_CNT_EVENTS for every selected edge, and an entry unless an Oculus unit takes
the capture (R212, R240). `late` marks a lockout's end. -/
def captureDeliver (c : Nat) (lvl late taken : Bool) (t : Nat) (m : Mach) : Mach :=
  if edgeSel m c lvl then
    let m1 := chRaise c 0 (m.inc (R.CH_CNT_EVENTS c))
    if taken then m1
    else chResult c (2 ^ 63 + boolNat lvl * 2 ^ 62 + boolNat late * 2 ^ 61 + t61 t) m1
  else m

/-- A delivered edge on a GPIO input (R252). -/
def gpioDeliver (c : Nat) (lvl : Bool) (m : Mach) : Mach := if edgeSel m c lvl then chRaise c 0 m else m

/-- A result of PERIOD_FREQ in the queue, if PUSH asks for it (R233, R241). -/
def pfResult (c value : Nat) (noSig : Bool) (m : Mach) : Mach :=
  if bit 0 (m.rd (R.CH_PF_CFG c)) then
    chResult c (2 ^ 63 + boolNat noSig * 2 ^ 62 + m.now % 2 ^ 29 * 2 ^ 32 + value % 2 ^ 32) m
  else m

/-- A rising edge adds to the running gate, or to a later one if it is stamped at or after its end; one stamped before the gate began is
none of its edges (R242). -/
def gateEdge (c t : Nat) (m : Mach) : Mach :=
  let x := m.chan c
  if x.gate + 400 * bits 31 16 (m.rd (R.CH_PF_CFG c)) ≤ t / 8 then m.setChan c { x with gateX := x.gateX ++ [t] }
  else if t / 8 < x.gate then m
  else m.setChan c { x with gateN := x.gateN + 1, gateF := if x.gateN = 0 then t else x.gateF, gateL := t }

/-- A delivered edge in PERIOD_FREQ: PERIOD measures, FREQ adds to its gate. The edge that clears NO_SIGNAL completes no period
(R241, R242). -/
def periodDeliver (c : Nat) (lvl : Bool) (t : Nat) (m : Mach) : Mach :=
  let x := m.chan c
  let m1 := m.setChan c { x with rise := some t, noSig := false }
  let gap (r : Nat) : Nat := min 0xFFFFFFFF (t - r)
  if bit 1 (m.rd (R.CH_PF_CFG c)) then
    if lvl then gateEdge c t m1 else m
  else
    match lvl, x.rise with
    | true, none => m1
    | true, some r =>
      if x.noSig then m1
      else pfResult c (gap r) false (chRaise c 0 ((m1.wr (R.CH_PERIOD c) (gap r)).inc (R.CH_CNT_EVENTS c)))
    | false, none => m
    | false, some r => m.wr (R.CH_HIGH c) (gap r)

/-- NO_SIGNAL (R241). -/
def noSignalEffect (c : Nat) (m : Mach) : Mach :=
  if m.chMode c = 4 ∧ m.chEn c then
    let m1 := m.updChan c (fun x => { x with noSig := true })
    let m2 := m1.dflts [R.CH_PERIOD c, R.CH_HIGH c, R.CH_FREQ c]
    pfResult c 0 true (chRaise c 6 m2)
  else m

/-- The end of a FREQ gate, which the next one follows (R242). -/
def freqGate (c : Nat) (m : Mach) : Mach :=
  if m.chMode c = 4 ∧ m.chEn c ∧ bit 1 (m.rd (R.CH_PF_CFG c)) then
    let x := m.chan c
    let f := if 2 ≤ x.gateN ∧ x.gateF < x.gateL then
        min 0xFFFFFFFF (ratRound (((x.gateN - 1) * 3200000000000 : Nat) / ((x.gateL - x.gateF : Nat) : Rat))).toNat
      else 0
    let m1 := Mach.each x.gateX (gateEdge c) (m.setChan c { x with gate := m.now, gateN := 0, gateX := [] })
    pfResult c f false (chRaise c 0 ((m1.wr (R.CH_FREQ c) f).inc (R.CH_CNT_EVENTS c)))
  else m

/-! ## SIGMA_DELTA (R248 to R251) -/

/-- One sample into the integrators, modulo 2^32. -/
def sincSample (s : Sinc) (b : Bool) : Sinc :=
  let i1 := (s.i1 + boolNat b) % 2 ^ 32
  let i2 := (s.i2 + i1) % 2 ^ 32
  { s with i1 := i1, i2 := i2, i3 := (s.i3 + i2) % 2 ^ 32 }

/-- The comb at the end of a frame: the raw value and the decimator after it. -/
def sincFrame (s : Sinc) : Nat × Sinc :=
  let y1 := (s.i3 + 2 ^ 32 - s.d1) % 2 ^ 32
  let y2 := (y1 + 2 ^ 32 - s.d2) % 2 ^ 32
  let y3 := (y2 + 2 ^ 32 - s.d3) % 2 ^ 32
  (y3, { s with d1 := s.i3, d2 := y1, d3 := y2, done := min 2 (s.done + 1), n := 0 })

def sdOsr (m : Mach) (c : Nat) : Nat := 2 ^ (3 + bits 9 7 (m.rd (R.CH_SD_CFG c)))

/-- The clock channel of a DATA channel, and its divider. -/
def sdClk (m : Mach) (c : Nat) : Nat := bits 4 0 (m.rd (R.CH_SD_CFG c))
def sdDiv (m : Mach) (k : Nat) : Nat := max 1 (bits 15 10 (m.rd (R.CH_SD_CFG k)))

/-- The clock channel gives edges: an external one while its CH_EN is 1, an internal one once its divider has started. -/
def sdClocked (m : Mach) (k : Nat) : Bool :=
  m.chMode k == 10 && m.sdClock k && m.chEn k && (!m.sdInternal k || (m.chan k).sd.clk0.isSome)

/-- The level of an internal clock: high for the first half of each period (R248). -/
def sdLevel (m : Mach) (k : Nat) : Bool :=
  match (m.chan k).sd.clk0 with
  | some s => decide ((m.now - s) % sdDiv m k < sdDiv m k / 2)
  | none => false

/-- The number of the clock edge at a fine time, counted from the start of an internal clock; none for an external one (R250). -/
def sdEdgeNo (m : Mach) (c t : Nat) : Option Nat :=
  let k := sdClk m c
  match (m.chan k).sd.clk0 with
  | some s => if m.sdInternal k then some ((t / 8 - s) / sdDiv m k) else none
  | none => none

/-- A result is published at the end of a frame (R249, R250). A raw value of 0 or OSR³ signals saturation to the watched channels of
safety cause 18 (R488). -/
def sdPublish (c t : Nat) (m : Mach) : Mach :=
  let osr := sdOsr m c
  let x := m.chan c
  let unsettled := decide (x.sd.done < 2)
  let r := sincFrame x.sd
  let full := osr * osr * osr
  let raw := min full r.1
  let res := ofSigned 32 ((2 * (raw : Int) - full) * (2 ^ 30 : Nat) / full)
  let sat := raw == 0 || raw == full
  let m1 := m.setChan c { x with sd := { r.2 with bad := sat } }
  let m2 := ((m1.wr (R.CH_SD_RESULT c) res).wr (R.CH_SD_STAMP c) t).inc (R.CH_CNT_EVENTS c)
  let m3 := chRaise c 0 m2
  let m4 := if sat then chRaise c 7 m3 else m3
  let m5 := if sat && decide (c < 32) && bit c (m.rd R.SAF_SD_MASK) then m4.alarm 18 else m4
  if bit 28 (m.rd (R.CH_SD_CFG c)) then
    chResult c (2 ^ 63 + boolNat unsettled * 2 ^ 62 + boolNat sat * 2 ^ 61 + m.now % 2 ^ 29 * 2 ^ 32 + res) m5
  else m5

/-- One sample of a DATA channel at a clock edge. Frames begin at edges that are whole multiples of OSR from the start of the clock
(R250). -/
def sdSample (c : Nat) (b : Bool) (t : Nat) (m : Mach) : Mach :=
  let x := m.chan c
  let osr := sdOsr m c
  let n := ((sdEdgeNo m c t).map (fun k => k % osr)).getD x.sd.n
  if (sdEdgeNo m c t).isNone ∧ x.sd.skip ≠ 0 then m.setChan c { x with sd := { x.sd with skip := x.sd.skip - 1 } }
  else if !x.sd.begun ∧ n ≠ 0 then m
  else
    let m1 := m.setChan c { x with sd := { sincSample x.sd b with begun := true, n := n + 1 } }
    if n + 1 = osr then sdPublish c t m1 else m1

/-- The sampling clock returns: the channel starts afresh with settling (R251). -/
def sdReturn (c : Nat) (m : Mach) : Mach :=
  if m.chMode c = 10 ∧ m.chEn c ∧ !m.sdClock c ∧ (m.chan c).sd.loss then
    m.updChan c (fun x => { x with sd := {
      idle := m.now
      bad := x.sd.bad
      skip := if x.sd.n = 0 then x.sd.skip else sdOsr m c - x.sd.n } })
  else m

/-- A fine time is one of the clock edges at which the channel samples: rising, or falling with SAMPLE_EDGE 1; the sender of samples
under an external clock takes them at its edges (R248, log 61). -/
def sdEdge (m : Mach) (c t : Nat) : Bool :=
  let k := sdClk m c
  match (m.chan k).sd.clk0 with
  | some s =>
    !m.sdInternal k || (decide (8 * s ≤ t) &&
      (t - 8 * s) % (8 * sdDiv m k) == (if bit 29 (m.rd (R.CH_SD_CFG c)) then 8 * (sdDiv m k / 2) else 0))
  | none => true

/-- Fine times of the n samples that end with one at t: DIV ticks apart under an internal clock. -/
def sdStamps (m : Mach) (c n t : Nat) : List Nat :=
  let step := if m.sdInternal (sdClk m c) then 8 * sdDiv m (sdClk m c) else 0
  (List.range n).map (fun i => t - step * (n - 1 - i))

/-- SD_FRAME_RESULT: the samples since the last one, the newest at t; a result comes at every OSR-th. -/
def sdFrame (c : Nat) (samples : List Bool) (t : Nat) (m : Mach) : Mach :=
  if m.chMode c = 10 ∧ m.chEn c ∧ !m.sdClock c ∧ !m.fieldStill ∧ sdClocked m (sdClk m c) ∧ sdEdge m c t then
    let m1 := (sdReturn c m).updChan c (fun x => { x with sd := { x.sd with idle := m.now } })
    m1.each (samples.zip (sdStamps m c samples.length t)) (fun e m => sdSample c e.1 e.2 m)
  else m

/-- Loss of the sampling clock (R251). -/
def sdLoss (c : Nat) (m : Mach) : Mach :=
  if m.chMode c = 10 ∧ m.chEn c ∧ !m.sdClock c ∧ !m.fieldStill then
    let m1 := m.updChan c (fun x => { x with sd := { x.sd with loss := true, bad := true } })
    let m2 := chRaise c 8 m1
    if decide (c < 32) && bit c (m.rd R.SAF_SD_MASK) then m2.alarm 18 else m2
  else m

/-- An internal clock that has stopped or not started gave no edge for 2 µs; edges of an external clock are seen from outside only
(log 61). -/
def sdLost (m : Mach) (c : Nat) : Bool :=
  m.chMode c == 10 && m.chEn c && !m.sdClock c && !(m.chan c).sd.loss && !sdClocked m (sdClk m c) &&
  decide ((m.chan c).sd.idle + 800 ≤ m.now)

/-- The divider of an internal clock starts: its DATA channels get edges (R250, R251). -/
def sdClockStarts (k : Nat) (m : Mach) : Mach :=
  let m1 := m.updChan k (fun x => { x with sd := { x.sd with clk0 := some m.now } })
  m1.each (sdUsers m1 k) sdReturn

/-! ## PULSE_TRAIN (R244 to R247) -/

/-- The integer square root. -/
def isqrt (n : Nat) : Nat := go (n.log2 / 2 + 1) 0
where
  go : Nat → Nat → Nat
    | 0, r => if (r + 1) * (r + 1) ≤ n then r + 1 else r
    | k + 1, r => let r2 := r + 2 ^ (k + 1); go k (if r2 * r2 ≤ n then r2 else r)

/-- The square root of a non-negative rational to 40 binary places (log 20). -/
def ratSqrt (r : Rat) : Rat := (isqrt (r.num.toNat * r.den * 2 ^ 80) : Rat) / ((r.den * 2 ^ 40 : Nat) : Rat)

/-- The smallest time from 0 at which x + v t + a t² / 2 is 0, if any. -/
def firstRoot (x v a : Rat) : Option Rat :=
  if x = 0 then some 0
  else if a = 0 then (if v = 0 ∨ -x / v < 0 then none else some (-x / v))
  else
    let d := v * v - 2 * a * x
    if d < 0 then none
    else
      let s := ratSqrt d
      let r1 := (-v - s) / a
      let r2 := (-v + s) / a
      let lo := if r1 ≤ r2 then r1 else r2
      let hi := if r1 ≤ r2 then r2 else r1
      if 0 ≤ lo then some lo else if 0 ≤ hi then some hi else none

def ptSteps (m : Mach) (c : Nat) : Nat := m.rd (R.CH_PT_STEPS c)
def ptWidth (m : Mach) (c : Nat) : Nat := bits 15 8 (m.rd (R.CH_PT_CFG c))
def ptSetup (m : Mach) (c : Nat) : Nat := bits 7 0 (m.rd (R.CH_PT_CFG c))
def ptPartner (m : Mach) (c : Nat) : Nat := bits 30 24 (m.rd (R.CH_PT_CFG c))

/-- Position of a publication at a tick, in cycles. -/
def pubAt (p : Nat × Rat × Rat × Rat) (t : Rat) : Rat :=
  let d := t - (p.1 : Rat)
  p.2.1 + p.2.2.1 * d + p.2.2.2 * d * d / 2

/-- Steps played or handed over. -/
def ptBase (pt : Steps) : Int := pt.handed.foldl (fun n e => if e.2 then n + 1 else n - 1) (pt.cnt.getD 0)

/-- The end of what is in progress or handed over, in 1/8 T: a change of DIR waits for it (R246). -/
def ptBusy (m : Mach) (c : Nat) : Option Int :=
  let pt := (m.chan c).pt
  match pt.handed.getLast? with
  | some (t, _) => some (t + 8 * ptWidth m c)
  | none => pt.active

/-- The direction channel stands at or is to change to this level. -/
def ptDirNow (m : Mach) (c : Nat) : Bool := (m.chan c).pt.turn.getD (m.chan (ptPartner m c)).level

/-- The earliest instant in 1/8 T that R246 allows for a step in the direction DIR has or is to take. -/
def ptEarliest (m : Mach) (c : Nat) : Int :=
  let pt := (m.chan c).pt
  let gap : Int := 16 * ptWidth m c
  let a : Int := match pt.handed.getLast?, pt.lead with
    | some (t, _), _ => t + gap
    | none, some t => t + gap
    | none, none => 0
  let b : Int := match pt.turn, pt.dirAt with
    | some _, _ => (ptBusy m c).getD m.now8 + 8 * ptSetup m c
    | none, some t => t + 8 * ptSetup m c
    | none, none => 0
  max (m.now8 : Int) (max a b)

/-- DIR changes once no step is in progress. -/
def ptTurnDue (c : Nat) (at_ : Int) (m : Mach) : Mach :=
  let pt := (m.chan c).pt
  match pt.turn with
  | some d =>
    if pt.active.isSome ∨ pt.handed ≠ [] then m
    else
      outTransition (ptPartner m c) d at_.toNat
        (m.updChan c (fun x => { x with pt := { x.pt with turn := none, dirAt := some at_ } }))
  | none => m

/-- The direction of motion is `d`: DIR changes at once, or after the active pulse (R246). -/
def ptTurn (c : Nat) (d : Bool) (m : Mach) : Mach :=
  if ptDirNow m c = d then m
  else
    let here := (m.chan (ptPartner m c)).level
    ptTurnDue c m.now8 (m.updChan c (fun x => { x with pt := { x.pt with turn := if here = d then none else some d } }))

/-- Plans the next step from the latest publication (R244 to R246): at once where the target is already beyond the steps handed over
in the direction of motion, else at the crossing of the next boundary in that direction. -/
def ptPlan (c : Nat) (m : Mach) : Mach :=
  let pt := (m.chan c).pt
  match pt.pub with
  | none => m
  | some pub =>
    let n := (ptSteps m c : Rat)
    let base := ptBase pt
    let x := pubAt pub (m.now : Rat) * n
    let v := pub.2.2.1 + pub.2.2.2 * ((m.now : Rat) - (pub.1 : Rat))
    let still := v = 0 ∧ pub.2.2.2 = 0
    let d := if still then decide (base < x.floor) else decide (0 < v) || (v = 0 && decide (0 < pub.2.2.2))
    let edge : Int := if d then base + 1 else base
    let beyond := if d then decide (edge ≤ x.floor) else decide (x < (edge : Rat))
    if still ∧ !beyond then m.updChan c (fun x => { x with pt := { x.pt with plan := none } })
    else
      let m1 := ptTurn c d m
      let at_ : Option Int :=
        if beyond then some 0
        else (firstRoot (x - (edge : Rat)) (v * n) (pub.2.2.2 * n)).map (fun dt => (m.now8 : Int) + ratRound (8 * dt))
      m1.updChan c (fun x => { x with pt := { x.pt with plan := at_.map (fun t => (max t (ptEarliest m1 c), d)) } })

/-- CH_PT_COUNT shows the steps played. -/
def ptCount (c : Nat) (n : Int) (m : Mach) : Mach :=
  (m.wrI 32 (R.CH_PT_COUNT c) n).updChan c (fun x => { x with pt := { x.pt with cnt := some n } })

/-- PT_PUBLICATION: a STEP channel receives its axis's publication (R244, R245, R247). -/
def ptPublish (c : Nat) (pub : Nat × Rat × Rat × Rat) (m : Mach) : Mach :=
  if m.chMode c = 6 ∧ m.chEn c ∧ !bit 31 (m.rd (R.CH_PT_CFG c)) ∧ !m.fieldStill then
    let target := (pub.2.1 * (ptSteps m c : Rat)).floor
    let m1 := m.updChan c (fun x => { x with pt := { x.pt with pub := some pub } })
    let m2 := if (m.chan c).pt.cnt.isSome then m1 else ptCount c target m1
    let lag := target - (m2.chan c).pt.cnt.getD 0
    let m3 := m2.wrI 32 (R.CH_PT_LAG c) lag
    let isLag := decide (2 ≤ lag.natAbs)
    let m4 := if isLag && !(m.chan c).pt.lagging then chRaise c 9 m3 else m3
    ptPlan c (m4.updChan c (fun x => { x with pt := { x.pt with lagging := isLag } }))
  else m

/-- The axis that a STEP channel follows publishes no more: no step is planned, and DIR holds its level (R247). -/
def ptQuiet (a : Nat) (m : Mach) : Mach :=
  m.each (m.chans.map (·.1)) (fun c m =>
    if m.chMode c = 6 ∧ bits 22 16 (m.rd (R.CH_PT_CFG c)) = a ∧ !bit 31 (m.rd (R.CH_PT_CFG c)) then
      m.updChan c (fun x => { x with pt := { x.pt with pub := none, plan := none, turn := none } })
    else m)

/-- The planned step is handed to the output stage, and is played unchanged (R245). -/
def ptHandover (c : Nat) (m : Mach) : Mach :=
  let pt := (m.chan c).pt
  match pt.plan with
  | some s =>
    if m.chMode c = 6 ∧ m.chEn c ∧ !m.fieldStill then
      m.updChan c (fun x => { x with pt := { pt with plan := none, handed := pt.handed ++ [s] } })
    else m
  | none => m

/-- The oldest step handed over plays: the pulse starts, the count moves and the next step is planned (R246, R247). -/
def ptPlay (c : Nat) (m : Mach) : Mach :=
  let pt := (m.chan c).pt
  match pt.handed with
  | (t, d) :: rest =>
    if m.chMode c = 6 ∧ m.chEn c ∧ !m.fieldStill then
      let m1 := ptCount c (pt.cnt.getD 0 + (if d then 1 else -1)) (outTransition c true t.toNat m)
      let m2 := m1.updChan c (fun x => { x with
        pt := { x.pt with handed := rest, lead := some t, active := some (t + 8 * ptWidth m c) } })
      if pt.plan.isSome then m2 else ptPlan c m2
    else m
  | [] => m

/-- The STEP pin returns inactive (R244), and DIR takes a change that waited. -/
def ptEnd (c : Nat) (m : Mach) : Mach :=
  match (m.chan c).pt.active with
  | some e =>
    ptTurnDue c e (outTransition c false e.toNat (m.updChan c (fun x => { x with pt := { x.pt with active := none } })))
  | none => m

/-! ## HOLD, SLEEP, resets and the end of a debug halt (R253) -/

/-- Queues flushed and measurement restarted on one channel. The level of the output stage stays, but for a step under way. -/
def chanRestart (c : Nat) (m : Mach) : Mach :=
  (sdDrawn c m).updChan c (fun x => {
    was := x.was
    seen := x.seen
    ext := x.ext
    lvl := x.level && (m.chMode c != 6 || bit 31 (m.rd (R.CH_PT_CFG c)))
    stage := x.stage
    pop := x.pop
    enAt := m.now
    from_ := m.now
    gate := m.now
    sd := if m.chEn c then sdFresh m c else {} })

/-- The same on every channel that holds anything. -/
def chansRestart (m : Mach) : Mach := m.each (m.chans.map (·.1)) chanRestart

end Sys2Proof.Machine
end

