-- ==== Sys2Proof/Machine/Mover.lean ====
section
/-! DEFINITION. Field data movers: run control, triggers and ring ports (R256 to R263). The reads and writes of elements
need the whole object map and stand in MoverRun.lean. -/

namespace Sys2Proof.Machine

def Mach.mov (m : Mach) (n : Nat) : Mover := mapGet {} n m.movers

def Mach.setMov (n : Nat) (x : Mover) (m : Mach) : Mach := { m with movers := mapSet {} n x m.movers }

def Mach.updMov (n : Nat) (f : Mover → Mover) (m : Mach) : Mach := m.setMov n (f (m.mov n))

/-- Raises mover event `b` on source 370 (R263). -/
def movRaise (n b : Nat) (m : Mach) : Mach := m.raise (R.MOV_EVT n) (R.MOV_EVT_EN n) b 370

def Mach.movState (m : Mach) (n : Nat) : Nat := m.rd (R.MOV_STATE n)

/-! ## Fields of CTRL (R256) -/

def Desc.trig (d : Desc) : Nat := bits 27 24 d.ctrl
def Desc.arg (d : Desc) : Nat := bits 23 16 d.ctrl
def Desc.chain (d : Desc) : Bool := bit 5 d.ctrl
def Desc.doneEvt (d : Desc) : Bool := bit 4 d.ctrl
def Desc.dstInc (d : Desc) : Bool := bit 3 d.ctrl
def Desc.srcInc (d : Desc) : Bool := bit 2 d.ctrl
def Desc.size (d : Desc) : Nat := if bits 1 0 d.ctrl = 0 then 4 else 8

/-- Elements one trigger releases, of `left` that remain (R256). -/
def Desc.burstOf (d : Desc) (left : Nat) : Nat :=
  match bits 7 6 d.ctrl with
  | 0 => 1
  | 1 => 4
  | _ => left

/-- A fetch begins at an address. -/
def movFetchAt (n a : Nat) (m : Mach) : Mach :=
  ((m.updMov n (fun x => { x with fetch := some a, desc := none, burst := 0, trig := false, arrived := 0 })).wr
    (R.MOV_CUR n) a).wr (R.MOV_STATE n) 1

/-- MOV_RUN written 1 (R262): an idle or finished mover starts at MOV_DESC; one that runs goes on and one in ERROR stays (log 62). -/
def movStart (n : Nat) (m : Mach) : Mach :=
  let m1 := m.wr (R.MOV_RUN n) 1
  if m.movState n = 0 ∨ m.movState n = 4 then movFetchAt n (m.rd (R.MOV_DESC n)) m1 else m1

/-- MOV_RUN written 0: stops at the element boundary; ERROR ends and its code clears with it (R262, R263). -/
def movStop (n : Nat) (m : Mach) : Mach :=
  let m1 := (m.wr (R.MOV_RUN n) 0).wr (R.MOV_STATE n) 0
  m1.updMov n (fun x => { ring := x.ring })

/-- ERROR with its code and address (R263). -/
def movError (n code addr : Nat) (m : Mach) : Mach :=
  let m1 := ((m.wr (R.MOV_STATE n) 5).wr (R.MOV_ERR n) code).wr (R.MOV_ERR_ADDR n) addr
  let m2 := movRaise n 1 (m1.updMov n (fun x => { ring := x.ring }))
  if code = 3 then m2.alarm 6 else m2

/-- After a descriptor with CHAIN clear: the oldest ring address, or DONE (R262). -/
def movRingNext (n : Nat) (m : Mach) : Mach :=
  match (m.mov n).ring with
  | a :: rest => movFetchAt n a (m.updMov n (fun x => { x with ring := rest }))
  | [] => (m.updMov n (fun x => { ring := x.ring })).wr (R.MOV_STATE n) 4

/-- MOV_DESC_END: the last element of a descriptor completed (R262). -/
def movDescEnd (n : Nat) (d : Desc) (m : Mach) : Mach :=
  let m1 := m.inc (R.MOV_CNT_DONE n)
  let m2 := if d.doneEvt then movRaise n 0 m1 else m1
  if d.chain then movFetchAt n d.next m2 else movRingNext n m2

/-- RING_APPEND: at most 8 addresses; a mover in DONE with MOV_RUN 1 takes the address at once (R262). -/
def ringPut (n a : Nat) (m : Mach) : Mach :=
  let x := m.mov n
  if 8 ≤ x.ring.length then movRaise n 2 (m.inc (R.MOV_CNT_RING_DROP n))
  else
    let m1 := m.setMov n { x with ring := x.ring ++ [a] }
    if m.movState n = 4 ∧ m.on (R.MOV_RUN n) then movRingNext n m1 else m1

/-- A trigger reaches a mover: it releases a burst, is held, or is lost (R258). -/
def movTrigger (n : Nat) (m : Mach) : Mach :=
  let x := m.mov n
  match x.desc with
  | none => m
  | some d =>
    if m.movState n ≠ 2 ∧ m.movState n ≠ 3 then m
    else if x.burst = 0 then
      (m.setMov n { x with burst := d.burstOf (m.rd (R.MOV_REMAIN n)) }).wr (R.MOV_STATE n) 3
    else if x.trig then movRaise n 3 (m.inc (R.MOV_CNT_TRIG_OVR n))
    else m.setMov n { x with trig := true }

/-- A unit's trigger of one kind and argument arrives at every mover whose descriptor selects it (R258). -/
def movArrive (kind arg : Nat) (m : Mach) : Mach :=
  { m with movers := m.movers.map (fun e =>
      match e.2.desc with
      | some d => if d.trig = kind ∧ d.arg = arg then (e.1, { e.2 with arrived := e.2.arrived + 1 }) else e
      | none => e) }

/-- MOV_TRIGGER_ARRIVAL. -/
def movArrival (n : Nat) (m : Mach) : Mach :=
  match (m.mov n).desc with
  | some d =>
    if d.trig = 3 ∨ d.trig = 4 then movTrigger n (m.updMov n (fun x => { x with arrived := x.arrived - 1 })) else m
  | none => m

/-- MOV_CMD TRIGGER releases one burst of a TRIG 7 descriptor (R258). -/
def movCmdTrigger (n : Nat) (m : Mach) : Mach :=
  match (m.mov n).desc with
  | some d => if d.trig = 7 then movTrigger n m else m
  | none => m

def movCounters (n : Nat) : List Obj := [R.MOV_CNT_DONE n, R.MOV_CNT_TRIG_OVR n, R.MOV_CNT_RING_DROP n]

/-- HOLD or SLEEP entry or a field-side reset: every mover stops and its ring port empties (R262). -/
def movsHalt (m : Mach) : Mach :=
  ({ m with movers := [], movNext := 0 }).each (List.range 16) (fun n m => m.wr (R.MOV_STATE n) 0)

/-- Return to RUN: a mover whose MOV_RUN reads 1 starts afresh (R262). -/
def movsRestart (m : Mach) : Mach := m.each (List.range 16) (fun n m => if m.on (R.MOV_RUN n) then movStart n m else m)

end Sys2Proof.Machine
end

