-- ==== Sys2Proof/Machine/Governor.lean ====
section
/-! DEFINITION. The start governor (R526 to R528): credits, the queue of draws, grants and deferrals. -/

namespace Sys2Proof.Machine

def Mach.octet (m : Mach) (o : Nat) : Octet := mapGet {} o m.octets

def Mach.setOctet (o : Nat) (x : Octet) (m : Mach) : Mach := { m with octets := mapSet {} o x m.octets }

def Mach.updOctet (o : Nat) (f : Octet → Octet) (m : Mach) : Mach := m.setOctet o (f (m.octet o))

def Mach.engine (m : Mach) (e : Nat) : Engine := mapGet {} e m.engines

def Mach.setEngine (e : Nat) (x : Engine) (m : Mach) : Mach := { m with engines := mapSet {} e x m.engines }

/-- Raises octet event `b` on source 160 + o (R291). -/
def pwmRaise (o b : Nat) (m : Mach) : Mach := m.raise (R.PWM_EVT o) (R.PWM_EVT_EN o) b (160 + o)

/-- Raises trip event `b` on source 176 + o (R317). -/
def trpRaise (o b : Nat) (m : Mach) : Mach := m.raise (R.TRP_EVT o) (R.TRP_EVT_EN o) b (176 + o)

/-- Raises field power event `b` on source 375 (R530). -/
def pwrRaiseF (b : Nat) (m : Mach) : Mach := m.raise R.PWR_F_EVT R.PWR_F_EVT_EN b 375

/-- Raises host power event `b` on source 415. -/
def pwrRaiseH (b : Nat) (m : Mach) : Mach := m.raise R.PWR_H_EVT R.PWR_H_EVT_EN b 415

/-- Raises engine event `b` on the source of context 16 e + TUR_EVT_CTX (R354). -/
def turRaise (e b : Nat) (m : Mach) : Mach :=
  m.raise (R.TUR_EVT e) (R.TUR_EVT_EN e) b (192 + 16 * e + m.rd (R.TUR_EVT_CTX e))

/-- What a draw costs (R526). -/
def drawCost (m : Mach) : Draw → Nat
  | .wake => m.rd R.PWR_INRUSH_COST_WAKE
  | .octStart _ => m.rd R.PWR_INRUSH_COST_OCT
  | .octRejoin _ => m.rd R.PWR_INRUSH_COST_OCT
  | .tur _ => m.rd R.PWR_INRUSH_COST_TUR

/-- What a grant does for its requester (R267, R307, R346, R523). A rejoin draw whose octet met a new cause is spent and leaves
it LATCHED; in which of the next 8 ticks an engine's first round begins is open (R346, log 3). -/
def drawGranted (d : Draw) (m : Mach) : Mach :=
  match d with
  | .wake => { m with pwr := { m.pwr with granted := true } }
  | .octStart o =>
    let at_ := m.rd (R.PWM_START_AT o)
    let early := m.pnow + 16
    let m1 := m.updOctet o (fun x => { x with st := 2, deferred := false, beta0 := max early at_ })
    if at_ ≠ 0 ∧ at_ < early then pwmRaise o 2 (m1.inc (R.PWM_CNT_LATE o)) else m1
  | .octRejoin o => m.updOctet o (fun x =>
    if x.voided = 0 then { x with rejoin := 2, grantAt := m.pnow, deferred := false }
    else { x with voided := x.voided - 1, deferred := x.rejoin == 1 })
  | .tur e => m.free.2.setEngine e { m.engine e with granted := true, left := m.free.1 % 8 }

/-- Grants one draw: its cost is subtracted and GRANT raised. -/
def govTake (d : Draw) (m : Mach) : Mach :=
  pwrRaiseF 1 (drawGranted d (m.wr R.PWR_INRUSH_CREDITS (m.rd R.PWR_INRUSH_CREDITS - drawCost m d)))

/-- Grants head requests while the credits cover them; no request passes the head (R527). -/
def govGrants : Nat → Mach → Mach
  | 0, m => m
  | n + 1, m =>
    match m.pwr.gov with
    | [] => m
    | d :: rest =>
      if drawCost m d ≤ m.rd R.PWR_INRUSH_CREDITS then
        govGrants n (govTake d { m with pwr := { m.pwr with gov := rest } })
      else m

/-- A request not granted in its own tick is deferred (R527). -/
def govDeferred (d : Draw) (m : Mach) : Mach :=
  let m1 := pwrRaiseF 2 (m.inc R.PWR_CNT_DEFER)
  match d with
  | .octStart o => pwmRaise o 7 (m1.updOctet o (fun x => { x with deferred := true }))
  | .octRejoin o => pwmRaise o 7 (m1.updOctet o (fun x => { x with deferred := true }))
  | .tur e => turRaise e 2 m1
  | .wake => m1

/-- A new request, which the governor takes up at the end of the tick. -/
def govRequest (d : Draw) (m : Mach) : Mach := { m with pwr := { m.pwr with asked := m.pwr.asked ++ [d] } }

/-- A withdrawal (R527). -/
def govWithdraw (d : Draw) (m : Mach) : Mach :=
  { m with pwr := { m.pwr with
    gov := m.pwr.gov.filter (fun x => x ≠ d)
    asked := m.pwr.asked.filter (fun x => x ≠ d) } }

/-- The place of a request within its tick: wake stages, octets, engines (R527). -/
def drawRank : Draw → Nat
  | .wake => 0
  | .octStart o => 1 + o
  | .octRejoin o => 1 + o
  | .tur e => 17 + e

/-- The governor at the end of a tick: new requests in their order, those that cost nothing granted, the others behind the queue, whose
head is granted while the credits cover it; what is new and still waits is deferred (R526 to R528). -/
def govTick (m : Mach) : Mach :=
  let new := (List.range 25).flatMap (fun k => m.pwr.asked.filter (fun d => drawRank d == k))
  let paid := new.filter (fun d => decide (drawCost m d ≠ 0))
  let m1 := { m with pwr := { m.pwr with asked := [], gov := m.pwr.gov ++ paid } }
  let m2 := m1.each (new.filter (fun d => decide (drawCost m d = 0))) govTake
  let m3 := govGrants m2.pwr.gov.length m2
  m3.each (paid.filter (fun d => m3.pwr.gov.contains d)) govDeferred

/-- GOVERNOR_GRANT: the head request is granted when the credits cover it. -/
def govGrantHead (m : Mach) : Mach := govGrants 1 m

/-- CREDIT_ADD (R526). -/
def govCredit (m : Mach) : Mach :=
  m.wr R.PWR_INRUSH_CREDITS (min (m.rd R.PWR_INRUSH_MAX) (m.rd R.PWR_INRUSH_CREDITS + m.rd R.PWR_INRUSH_RATE))

end Sys2Proof.Machine
end

