-- ==== Sys2Proof/Machine/Pwm.lean ====
section
/-! DEFINITION. PWM octets (chapter 8): starts and stops, boundaries, arcs, dither, dead time, minimum pulse and carry,
shadows and immediate periods. A lane is one channel in single mode and one pair (numbered by its even channel) in bridge
mode. -/

namespace Sys2Proof.Machine

/-! ## Configuration -/

def Mach.pwmBridge (m : Mach) (o : Nat) : Bool := bit 0 (m.rd (R.PWM_CFG o))
def Mach.pwmCentre (m : Mach) (o : Nat) : Bool := bit 1 (m.rd (R.PWM_CFG o))
def Mach.pwmCarry (m : Mach) (o : Nat) : Bool := bit 2 (m.rd (R.PWM_CFG o))
def Mach.pwmMask (m : Mach) (o : Nat) : Nat := m.rd (R.PWM_CH_MASK o)

/-- In bridge mode a bit of a channel mask stands for its whole pair (R266, R301). -/
def pairWide (bridge : Bool) (mask : Nat) : Nat :=
  if bridge then
    (List.range 4).foldl (fun a i => if bit (2 * i) mask || bit (2 * i + 1) mask then a + 3 * 4 ^ i else a) 0
  else mask

/-- The lanes of an octet. -/
def octLanes (m : Mach) (o : Nat) : List Nat :=
  (List.range 8).filter (fun j => bit j (m.pwmMask o) && (!m.pwmBridge o || j % 2 == 0))

/-- Channel c is named in TRP_KEEPRUN (R310). -/
def keeprunNamed (m : Mach) (c : Nat) : Bool := (List.range 8).any (fun t => m.rd (R.TRP_KEEPRUN t) == c)

/-- Channels of an octet that a Keep debug halt does not take to their safe level (R311). -/
def keeprunMask (m : Mach) (o : Nat) : Nat :=
  if m.pwmBridge o then 0
  else (List.range 8).foldl (fun a j =>
    if keeprunNamed m (8 * o + j) && m.chMode (8 * o + j) == 7 && m.chEn (8 * o + j) then a + 2 ^ j else a) 0

/-- Channels that cannot play: off by PWM_CH_OFF, or held by a Keep debug halt (R288, R290). -/
def octBarred (m : Mach) (o : Nat) : Nat :=
  pairWide (m.pwmBridge o) (m.rd (R.PWM_CH_OFF o)) ||| (if m.keepHalted then 0xFF - keeprunMask m o else 0)

/-- The octet drives channel j's waveform. -/
def octDrives (m : Mach) (o j : Nat) : Bool :=
  let x := m.octet o
  x.st == 3 && bit j (m.pwmMask o) && !bit j (x.away ||| x.cut ||| octBarred m o)

/-- The limits of R287 for PWM_PERIOD and PWM_PERIOD_IMM. -/
def pwmPeriodOk (m : Mach) (o v : Nat) : Bool :=
  decide (4096 ≤ v) &&
  (!m.pwmBridge o || (octLanes m o).all (fun j =>
    decide (32 * (m.rd (R.PWM_PMIN o) + m.rd (R.PWM_DT_MAX o (j / 2))) ≤ v)))

/-- PWM_RUN = 1 may be accepted (R266). -/
def pwmRunOk (m : Mach) (o : Nat) : Bool :=
  (List.range 8).all (fun j => !bit j (m.pwmMask o) || m.chMode (8 * o + j) == 7) &&
  pwmPeriodOk m o (m.rd (R.PWM_PERIOD o)) &&
  (!m.pwmBridge o || (List.range 4).all (fun i =>
    bit (2 * i) (m.pwmMask o) == bit (2 * i + 1) (m.pwmMask o) &&
    bit (2 * i) (m.rd (R.PWM_CH_OFF o)) == bit (2 * i + 1) (m.rd (R.PWM_CH_OFF o)) &&
    (!bit (2 * i) (m.pwmMask o) ||
      (decide (m.rd (R.PWM_DT_MIN o i) ≤ m.rd (R.PWM_DT_NOM o i)) &&
       decide (m.rd (R.PWM_DT_NOM o i) ≤ m.rd (R.PWM_DT_MAX o i))))))

/-! ## Edges and dither (R271, R272) -/

/-- The 4 bits of a dither phase reversed. -/
def rev4 (phi : Nat) : Nat := phi % 2 * 8 + phi / 2 % 2 * 4 + phi / 4 % 2 * 2 + phi / 8 % 2

/-- The fine time at which an exact instant is played. -/
def ditherQ (e phi : Nat) : Nat := e / 16 + (if rev4 phi < e % 16 then 1 else 0)

/-- Offset a of an arc of length d with phase ph in a period p. -/
def arcStart (centre : Bool) (p d ph : Nat) : Nat :=
  if p = 0 then 0 else if centre then ((p - d) / 2 + ph) % p else ph % p

/-- Whether the arc [a, a + d) of a period p covers offset 0, covers the end of the period, and where its level changes
inside the period. -/
def arcAtStart (p a d : Nat) : Bool := decide (0 < d) && (a == 0 || decide (p < a + d))
def arcAtEnd (p a d : Nat) : Bool := decide (0 < d) && decide (p ≤ a + d)
def arcChanges (p a d : Nat) : List (Nat × Bool) :=
  if d = 0 ∨ p ≤ d then []
  else if a + d ≤ p then (if a = 0 then [] else [(a, true)]) ++ (if a + d = p then [] else [(a + d, false)])
  else [(a + d - p, false), (a, true)]

/-- The command of a lane over a period: its level at the start, its changes and its level at the end. -/
structure LanePlan where
  start : Bool
  changes : List (Nat × Bool)
  fin : Bool
deriving DecidableEq, Repr

/-- The command of an arc, complemented when INVERT is set (R289). -/
def arcPlan (inv : Bool) (p a d : Nat) : LanePlan :=
  ⟨arcAtStart p a d != inv, (arcChanges p a d).map (fun e => (e.1, e.2 != inv)), arcAtEnd p a d != inv⟩

/-! ## Waiting transitions -/

/-- Inserts an edge in order of time, after those of the same time. -/
def edgePut (e : PwmEdge) : List PwmEdge → List PwmEdge
  | [] => [e]
  | f :: rest => if e.t < f.t then e :: f :: rest else f :: edgePut e rest

/-- An earlier transition of the same switch that waits for the instant of a new one, or for a later one. -/
def edgeMeets (e f : PwmEdge) : Bool := f.j == e.j && f.on != e.on && decide (e.t ≤ f.t)

/-- Adds a commanded transition: one that meets a waiting transition of its pin leaves no pulse, and both are void (R274); the
turn-off of a pair's switch stays, as the node transition that voids the turn-on (R281). -/
def edgeAdd (bridge : Bool) (l : List PwmEdge) (e : PwmEdge) : List PwmEdge :=
  if l.any (edgeMeets e) then
    let kept := l.filter (fun f => !edgeMeets e f)
    if bridge then edgePut e kept else kept
  else edgePut e l

/-- Adds the transitions of a plan in the order in which they are commanded. -/
def edgesJoin (bridge : Bool) (old new : List PwmEdge) : List PwmEdge := new.foldl (edgeAdd bridge) old

/-- The channels of a lane that take the high-side and the low-side waveform. -/
def laneHi (swap : Bool) (j : Nat) : Nat := if swap then j + 1 else j
def laneLo (swap : Bool) (j : Nat) : Nat := if swap then j else j + 1

/-- The edges of one change of a lane's command at a fine time (R281). -/
def changeEdges (bridge swap : Bool) (j dtR dtF t : Nat) (lvl : Bool) : List PwmEdge :=
  if !bridge then [{ t := t, j := j, on := lvl }]
  else if lvl then
    [{ t := t, j := laneLo swap j, on := false, node := 1, dt := dtR }, { t := t + dtR, j := laneHi swap j, on := true }]
  else
    [{ t := t, j := laneHi swap j, on := false, node := 2, dt := dtF }, { t := t + dtF, j := laneLo swap j, on := true }]

/-- The turn-ons of a lane that returns at a boundary: no node transition (R282, R303). -/
def returnEdges (bridge swap : Bool) (j dtR dtF t : Nat) (lvl : Bool) : List PwmEdge :=
  if !bridge then (if lvl then [{ t := t, j := j, on := true, ret := true }] else [])
  else if lvl then [{ t := t + dtR, j := laneHi swap j, on := true }]
  else [{ t := t + dtF, j := laneLo swap j, on := true }]

/-- A transfer that exchanges a pair's switches turns both off and the commanded one on after its dead time (log 21). -/
def swapEdges (swap : Bool) (j dtR dtF t : Nat) (was lvl : Bool) : List PwmEdge :=
  let node := if was = lvl then 0 else if lvl then 1 else 2
  let dt := if lvl then dtR else dtF
  [{ t := t, j := laneHi swap j, on := false, node := node, dt := dt }, { t := t, j := laneLo swap j, on := false },
   { t := t + dt, j := if lvl then laneHi swap j else laneLo swap j, on := true }]

/-! ## Safe levels and blanking -/

/-- A played transition opens a class A window (R297). -/
def openBlank (o t : Nat) (m : Mach) : Mach :=
  let w := m.rd (R.TRP_A_BLANK o)
  if w = 0 then m else m.updOctet o (fun x => { x with blankA := max x.blankA (t + 8 * w) })

/-- Channel j's waveform stands on its pin. -/
def octOnPin (m : Mach) (o j : Nat) : Bool :=
  octDrives m o j && m.chEn (8 * o + j) && m.chMode (8 * o + j) == 7 && !m.safe

/-- A waveform's level differs on channel c's pin from its safe level; high under open drain is high-impedance (R228, R297). -/
def safeDiffers (m : Mach) (c : Nat) (lvl : Bool) : Bool :=
  let p := lvl != m.chInvert c
  let float := p && bit 6 (m.rd (R.CH_PIN_CFG c))
  match m.rd (R.CH_SAFE_LVL c) with
  | 0 => p
  | 1 => !p || float
  | _ => !float

/-- Sends channels of an octet to their safe level, which opens a class A window where that is a change on a pin. -/
def octDark (o mask : Nat) (m : Mach) : Mach :=
  let seen := (List.range 8).any (fun j => bit j mask && octOnPin m o j && safeDiffers m (8 * o + j) (bit j (m.octet o).lv))
  let m1 := m.updOctet o (fun x => { x with lv := x.lv - (x.lv &&& mask) })
  if seen then openBlank o m.pnow8 m1 else m1

/-- A lane that returns from its safe level opens a window where its inactive level is a change on a pin; a single channel that
returns active changes with its edge. -/
def returnBlank (o j t : Nat) (on : Bool) (m : Mach) : Mach :=
  let l := if m.pwmBridge o then [j, j + 1] else if on then [] else [j]
  if l.any (fun i => octOnPin m o i && safeDiffers m (8 * o + i) false) then openBlank o t m else m

/-! ## What a tick owes (R280) -/

def octNote (o : Nat) (n : PwmNote) (m : Mach) : Mach := m.updOctet o (fun x => { x with owed := x.owed ++ [n] })

/-! ## Latching (R305) -/

/-- The causes other than SW that were set in this tick, after its writes (R308). -/
def octFresh (m : Mach) (o : Nat) : Nat :=
  match (m.octet o).fresh with
  | some (t, k) => if t = m.pnow then k else 0
  | none => 0

/-- The octet stands in LATCHED since an entry of this tick that its writes did not bring. -/
def latchedNow (m : Mach) (o : Nat) : Bool := (m.octet o).st == 4 && (m.octet o).latchAt == some m.pnow

/-- Sets a latch cause; a RUNNING octet enters LATCHED with it. A cause set again makes the draw of a rejoin void (R307). -/
def octLatch (o cause : Nat) (m : Mach) : Mach :=
  let x := m.octet o
  let esc := decide (cause < 2) && (x.st == 3 || (latchedNow m o && octFresh m o % 4 == 0))
  let m1 := (m.wr (R.TRP_LATCH_CAUSE o) (setBit cause (m.rd (R.TRP_LATCH_CAUSE o)))).when esc (fun m => m.inc (R.TRP_CNT_ESC o))
  let m2 := m1.updOctet o (fun x => { x with
    rejoin := 0
    voided := if x.rejoin = 1 then x.voided + 1 else x.voided
    fresh := if cause = 2 then x.fresh else some (m.pnow, setBit cause (octFresh m o)) })
  if x.st = 3 then
    trpRaise o 2 ((octDark o 0xFF m2).updOctet o (fun x => { x with
      st := 4, away := 0xFF, edges := [], latchAt := if cause = 2 then none else some m.pnow }))
  else m2

/-- The last cause to clear requests the rejoin draw (R307); a clear does not reach a cause of its own tick (R308), but an accepted
PWR_REARM clears BW in its tick (R313). -/
def octClearCauses (o mask : Nat) (m : Mach) : Mach :=
  let old := m.rd (R.TRP_LATCH_CAUSE o)
  let clear := old &&& mask
  let new := old - (clear - (clear &&& (octFresh m o &&& 0xF)))
  let m1 := m.wr (R.TRP_LATCH_CAUSE o) new
  if (m.octet o).st = 4 ∧ old ≠ 0 ∧ new = 0 ∧ (m.octet o).rejoin = 0 then
    govRequest (.octRejoin o) (m1.updOctet o (fun x => { x with rejoin := 1 }))
  else m1

/-! ## Starts and stops (R266, R267, R269) -/

/-- A write of 1 to PWM_RUN. -/
def octRunOn (o : Nat) (m : Mach) : Eff :=
  if pwmRunOk m o then
    let m1 := m.wr (R.PWM_RUN o) 1
    if (m.octet o).st = 0 ∧ !m.inHold ∧ !m.pwr.fSleep then .ok (govRequest (.octStart o) (m1.updOctet o (fun x => { x with st := 1 })))
    else .ok m1
  else .error .range

/-- What an octet keeps through a stop and a start: the status bits of its latest boundary and write, its blanking, and what its
status objects showed. -/
def Octet.kept (x : Octet) : Octet :=
  { held := x.held, lateDefer := x.lateDefer, blankA := x.blankA, bWin := x.bWin, bWait := x.bWait, bPipe := x.bPipe, snaps := x.snaps,
    past := x.past, rbFrom := x.rbFrom, rbHit := x.rbHit }

/-- Any stop: STOPPED, carries cleared, ESC_A, ESC_B and SW cleared, a waiting draw withdrawn (R269, R306, R527). -/
def octStop (o : Nat) (m : Mach) : Mach :=
  let m1 := govWithdraw (.octRejoin o) (govWithdraw (.octStart o) m)
  let m2 := octDark o 0xFF m1
  let m3 := m2.setOctet o (m2.octet o).kept
  let m4 := m3.each (List.range 8) (fun j m => m.wr (R.PWM_CARRY o j) 0)
  let c := m4.rd (R.TRP_LATCH_CAUSE o)
  m4.wr (R.TRP_LATCH_CAUSE o) (c - c % 8)

/-- PWM_RUN written 0, and a UNIT stop, which clears the run request too (R527, R529). -/
def octRunOff (o : Nat) (m : Mach) : Mach := octStop o (m.wr (R.PWM_RUN o) 0)

/-- HOLD or SLEEP entry, which also clears the status bits (R18). -/
def octsHalt (m : Mach) : Mach :=
  m.each (List.range 16) (fun o m =>
    (if (m.octet o).st = 0 then m else octStop o m).updOctet o (fun x => { x with held := false, lateDefer := false }))

/-- Return to RUN: octets whose PWM_RUN reads 1 restart through R267. -/
def octsRestart (m : Mach) : Mach :=
  m.each (List.range 16) (fun o m =>
    if m.on (R.PWM_RUN o) && (m.octet o).st == 0 then
      govRequest (.octStart o) (m.updOctet o (fun x => { x with st := 1 }))
    else m)

/-! ## The boundary (R270, R276, R277, R283, R285, R286) -/

/-- The dead time of one transition kind after the period that ended (R283). -/
def dtUpdate (m : Mach) (o i : Nat) (meas : Meas) (dt : Nat) : Nat × Bool :=
  match meas with
  | .none => (dt, false)
  | .unseen => (m.rd (R.PWM_DT_NOM o i), true)
  | .seen d =>
    let lo := m.rd (R.PWM_DT_MIN o i)
    let hi := m.rd (R.PWM_DT_MAX o i)
    let target := clampInt lo hi ((d : Int) + m.rd (R.PWM_DT_MARGIN o i))
    let slew : Int := m.rd (R.PWM_DT_SLEW o i)
    (((dt : Int) + clampInt (-slew) slew (target - dt)).toNat, false)

/-- A transition that was not seen. -/
def nosn (o i : Nat) (b : Bool) (m : Mach) : Mach := if b then octNote o (.count (R.PWM_CNT_NOSN o i) 5) m else m

/-- ADAPT of pair i. -/
def dtAdapts (m : Mach) (o i : Nat) : Bool := bit 0 (m.rd (R.PWM_DT_CFG o i))

/-- DT_R and DT_F in force: DT_NOM at all times while ADAPT is clear (R283). -/
def dtR (m : Mach) (o i : Nat) : Nat := m.rd (if dtAdapts m o i then R.PWM_DT_R o i else R.PWM_DT_NOM o i)
def dtF (m : Mach) (o i : Nat) : Nat := m.rd (if dtAdapts m o i then R.PWM_DT_F o i else R.PWM_DT_NOM o i)

/-- The transitions of pair i that wait take the dead times that have come into force; one that has begun keeps its own (R275). -/
def octRetime (o i : Nat) (m : Mach) : Mach :=
  m.updOctet o (fun x =>
    let nodes := x.edges.filter (fun e => e.j / 2 == i && e.node != 0)
    let ends (f : PwmEdge) : Bool := nodes.any (fun e => f.node == 0 && f.on && f.j != e.j && f.j / 2 == i && f.t == e.t + e.dt)
    let kept := x.edges.filter (fun f => !(f.j / 2 == i && f.node != 0) && !ends f)
    let again := nodes.flatMap (fun e =>
      let dt := if e.node = 1 then dtR m o i else dtF m o i
      [{ e with dt := dt }, ({ t := e.t + dt, j := 4 * (e.j / 2) + 1 - e.j, on := true } : PwmEdge)])
    { x with edges := edgesJoin true kept again })

/-- A write by which dead times in force may change. -/
def dtWrite (o i : Nat) (f : Mach → Mach) (m : Mach) : Mach :=
  let m1 := f m
  if dtR m1 o i = dtR m o i ∧ dtF m1 o i = dtF m o i then m1 else octRetime o i m1

/-- PWM_DT_CFG: setting ADAPT goes on from the dead times in force. -/
def setDtCfg (o i v : Nat) (m : Mach) : Mach :=
  dtWrite o i (fun m => ((m.wr (R.PWM_DT_R o i) (dtR m o i)).wr (R.PWM_DT_F o i) (dtF m o i)).wr (R.PWM_DT_CFG o i) v) m

/-- PWM_DT_NOM. -/
def setDtNom (o i v : Nat) (m : Mach) : Mach := dtWrite o i (fun m => m.wr (R.PWM_DT_NOM o i) v) m

/-- PWM_CFG: without CARRY every carry is 0 (R286). -/
def setPwmCfg (o v : Nat) (m : Mach) : Mach :=
  let m1 := m.wr (R.PWM_CFG o) v
  if bit 2 v then m1 else m1.each (List.range 8) (fun j m => m.wr (R.PWM_CARRY o j) 0)

/-- The dead times of pair i at a boundary; `nom` is set where R284 asks for DT_NOM. -/
def pairDead (o i : Nat) (nom : Bool) (m : Mach) : Mach :=
  let p : PwmPair := mapGet {} i (m.octet o).pairs
  let m0 := m.updOctet o (fun x => { x with pairs := mapSet {} i { p with rise := .none, fall := .none } x.pairs })
  if nom || !dtAdapts m o i then
    (m0.wr (R.PWM_DT_R o i) (m.rd (R.PWM_DT_NOM o i))).wr (R.PWM_DT_F o i) (m.rd (R.PWM_DT_NOM o i))
  else
    let r := dtUpdate m o i p.rise (m.rd (R.PWM_DT_R o i))
    let f := dtUpdate m o i p.fall (m.rd (R.PWM_DT_F o i))
    nosn o i f.2 ((nosn o i r.2 (m0.wr (R.PWM_DT_R o i) r.1)).wr (R.PWM_DT_F o i) f.1)

/-- The transfer of every shadow of an octet (R275). A pair whose INVERT changes loses its carry (R289). -/
def octTransfer (o : Nat) (m : Mach) : Mach :=
  let x := m.octet o
  let m1 := m.each (List.range 4) (fun i m =>
    if bit 1 (mapGet 0 i x.ovr) != bit 1 (m.rd (R.PWM_PAIR_OVR o i)) then m.wr (R.PWM_CARRY o (2 * i)) 0 else m)
  m1.setOctet o { x with
    p := m.rd (R.PWM_PERIOD o)
    duty := (List.range 8).filterMap (fun j => let d := m.rd (R.PWM_DUTY o j); if d = 0 then none else some (j, d))
    phase := (List.range 8).filterMap (fun j => let d := m.rd (R.PWM_PHASE o j); if d = 0 then none else some (j, d))
    ovr := (List.range 4).filterMap (fun i => let d := m.rd (R.PWM_PAIR_OVR o i); if d = 0 then none else some (i, d)) }

/-- Whether a tested run is suppressed: longer than 0 and, less its dead time, below PMIN (R285). Lengths in 1/128 T. -/
def runShort (len dt pmin : Nat) : Bool := decide (0 < len) && decide (len < 16 * (dt + pmin))

/-- One lane at a boundary of period p that begins at B with phase phi: the arc, the test, the carry and the waiting
transitions. `ret` says that the lane's outputs return at this boundary, `swapped` that its switches were exchanged. -/
def laneBoundary (o j : Nat) (ret swapped : Bool) (m : Mach) : Mach :=
  let x := m.octet o
  let bridge := m.pwmBridge o
  let ovr := if bridge then mapGet 0 (j / 2) x.ovr else 0
  let inv := bit 1 ovr
  let swap := bit 0 ovr
  let p := x.p
  let c := if m.pwmCarry o then m.rdI 32 (R.PWM_CARRY o j) else 0
  let want := ((mapGet 0 j x.duty : Nat) : Int) + c
  let d := (clampInt 0 p want).toNat
  let m1 := if c ≠ 0 ∧ ((p : Int) < want ∨ want < 0) then octNote o (.count (R.PWM_CNT_CLIP o) 4) m else m
  let a := arcStart (m.pwmCentre o) p d (mapGet 0 j x.phase)
  let dtR := if bridge then dtR m o (j / 2) else 0
  let dtF := if bridge then dtF m o (j / 2) else 0
  -- the H run of the command: the arc, or its complement where INVERT is set
  let h := if inv then p - d else d
  let testH := decide (h ≤ p - h)
  let short := if testH then runShort h dtR (m.rd (R.PWM_PMIN o)) else runShort (p - h) dtF (m.rd (R.PWM_PMIN o))
  let m2 := if short then octNote o (.count (R.PWM_CNT_SHORT o (if bridge && !testH then j + 1 else j)) 3) m1 else m1
  let arcTested := testH != inv
  let carry : Int := if short && m.pwmCarry o then (if arcTested then (d : Int) else (d : Int) - p) else 0
  let plan : LanePlan := if short then ⟨!testH, [], !testH⟩ else arcPlan inv p a d
  let was := bit j x.cmd
  let t0 := ditherQ x.b x.phi
  let m3 := m2.when ret (returnBlank o j t0 plan.start)
  let first :=
    if ret then returnEdges bridge swap j dtR dtF t0 plan.start
    else if swapped then swapEdges swap j dtR dtF t0 was plan.start
    else if was = plan.start then []
    else changeEdges bridge swap j dtR dtF t0 plan.start
  let rest := plan.changes.flatMap (fun e => changeEdges bridge swap j dtR dtF (ditherQ (x.b + e.1) x.phi) e.2)
  ((m3.wr (R.PWM_DUTY_ACT o j) d).wrI 32 (R.PWM_CARRY o j) carry).updOctet o (fun x => { x with
    arc := mapSet 0 j d x.arc
    cmd := putBit j plan.fin x.cmd
    edges := edgesJoin bridge x.edges (first ++ rest) })

/-- A lane that PWM_CH_MASK takes up within a period: it joins its waveform of the period in force (R275). -/
def laneEnter (o j : Nat) (m : Mach) : Mach :=
  let x := m.octet o
  let bridge := m.pwmBridge o
  let ovr := if bridge then mapGet 0 (j / 2) x.ovr else 0
  let swap := bit 0 ovr
  let d := min x.p (mapGet 0 j x.duty)
  let plan := arcPlan (bit 1 ovr) x.p (arcStart (m.pwmCentre o) x.p d (mapGet 0 j x.phase)) d
  let dtR := if bridge then dtR m o (j / 2) else 0
  let dtF := if bridge then dtF m o (j / 2) else 0
  let evs := plan.changes.map (fun e => (ditherQ (x.b + e.1) x.phi, e.2))
  let now := match (evs.filter (fun e => decide (e.1 < m.pnow8 + 8))).getLast? with
    | some e => e.2
    | none => plan.start
  let rest := (evs.filter (fun e => decide (m.pnow8 + 8 ≤ e.1))).flatMap (fun e => changeEdges bridge swap j dtR dtF e.1 e.2)
  ((returnBlank o j m.pnow8 now m).wr (R.PWM_DUTY_ACT o j) d).updOctet o (fun x => { x with
    arc := mapSet 0 j d x.arc
    cmd := putBit j plan.fin x.cmd
    edges := edgesJoin bridge x.edges (returnEdges bridge swap j dtR dtF m.pnow8 now ++ rest) })

/-- A write of PWM_CH_MASK: channels that leave go to their safe level, lanes that enter join (R275). -/
def setChMask (o v : Nat) (m : Mach) : Mach :=
  let old := m.pwmMask o
  let gone := old - (old &&& v)
  let m1 := (octDark o gone m).updOctet o (fun x => { x with edges := x.edges.filter (fun e => !bit e.j gone) })
  let m2 := m1.wr (R.PWM_CH_MASK o) v
  if (m.octet o).st = 3 ∨ (m.octet o).st = 4 then
    m2.each ((octLanes m2 o).filter (fun j => !bit j old)) (laneEnter o)
  else m2

/-- BOUNDARY at every BND_DIV-th count, the mover trigger and the sigma-delta SYNC of R250 (R291). -/
def boundaryTriggers (o : Nat) (m : Mach) : Mach :=
  let m1 := m.when (m.rd (R.PWM_PCOUNT o) % max 1 (m.rd (R.PWM_BND_DIV o)) == 0) (pwmRaise o 0)
  let m2 := movArrive 4 o m1
  m2.each (List.range 128) (fun c m =>
    if m.chMode c = 10 ∧ m.sdInternal c ∧ m.chEn c ∧ bits 23 16 (m.rd (R.CH_SD_CFG c)) = o ∧ (m.chan c).sd.clk0 = none then
      sdClockStarts c m
    else m)

/-- The end of a period for cuts, run counts and a granted rejoin (R302, R304, R307). -/
def boundaryTrips (o : Nat) (m : Mach) : Mach :=
  let x := m.octet o
  let causes := m.rd (R.TRP_LATCH_CAUSE o)
  let back := x.st == 4 && x.rejoin == 2 && decide (x.grantAt < m.pnow) && causes == 0
  let m1 := m.setOctet o { x with
    st := if back then 3 else x.st
    rejoin := if back then 0 else x.rejoin
    cleanA := if back then 0 else x.cleanA
    cleanB := if back then 0 else x.cleanB
    away := x.away ||| x.cut
    cut := 0
    runA := if x.tripA then x.runA else 0
    runB := if x.tripB then x.runB else 0
    tripA := false
    tripB := false }
  if back then octNote o (.raise true 3) (m1.each (List.range 8) (fun j m => m.wr (R.PWM_CARRY o j) 0)) else m1

/-- Plans the new period of every lane; channels that may drive again return. -/
def boundaryLanes (o : Nat) (nom : Bool) (oldOvr : List (Nat × Nat)) (m : Mach) : Mach :=
  let x := m.octet o
  let back := x.away - (x.away &&& octBarred m o)
  let ret := if x.st = 3 then back else 0
  let m1 := m.each (List.range 4) (fun i m => pairDead o i nom m)
  let m2 := m1.updOctet o (fun x => { x with
    away := x.away - ret
    edges := x.edges.filter (fun e => !bit e.j ret) })
  m2.each (octLanes m o) (fun j m =>
    laneBoundary o j (bit j ret) (bit 0 (mapGet 0 (j / 2) oldOvr) != bit 0 (mapGet 0 (j / 2) x.ovr) && m.pwmBridge o) m)

/-- What a note stands for. -/
def noteTakes (o : Nat) (n : PwmNote) (m : Mach) : Mach :=
  match n with
  | .count c b => pwmRaise o b (m.inc c)
  | .raise trip b => if trip then trpRaise o b m else pwmRaise o b m
  | .late d => (pwmRaise o 2 (m.inc (R.PWM_CNT_LATE o))).updOctet o (fun x => { x with lateDefer := d })
  | .boundary n held =>
    boundaryTriggers o ((((m.when held (fun m => m.inc (R.PWM_CNT_HELD o))).wr (R.PWM_PCOUNT o) n).wr (R.PWM_BOUNDARY o) (ditherQ (m.octet o).b (m.octet o).phi)).updOctet o
      (fun x => { x with held := held }))

/-- What the tick owes comes about. -/
def octReport (o : Nat) (m : Mach) : Mach :=
  Mach.each (m.octet o).owed (noteTakes o) (m.updOctet o (fun x => { x with owed := [] }))

/-- The start of an octet in tick β_0 but for what it counts and raises (R267, R306). -/
def octBegin (o : Nat) (m : Mach) : Mach :=
  let x := m.octet o
  if x.st ≠ 2 then m
  else
    let m1 := m.setOctet o { x.kept with st := 3, b := 128 * x.beta0, away := 0xFF }
    let m2 := octTransfer o (m1.each (List.range 8) (fun j m => m.wr (R.PWM_CARRY o j) 0))
    let m3 := m2.updOctet o (fun x => { x with nb := x.b + x.p })
    let m4 := octNote o (.boundary 0 false) (octNote o (.raise false 6) (boundaryLanes o true (m3.octet o).ovr m3))
    if m4.rd (R.TRP_LATCH_CAUSE o) = 0 then m4
    else
      octNote o (.raise true 2)
        (m4.updOctet o (fun x => { x with st := 4, away := 0xFF, edges := [], blankA := (m.octet o).blankA }))

/-- PWM_START in tick β_0. -/
def octStart (o : Nat) (m : Mach) : Mach := octReport o (octBegin o m)

/-- The boundary of tick β_(k+1) but for what it counts and raises (R270, R276, R277). -/
def octTurn (o : Nat) (m : Mach) : Mach :=
  let x := m.octet o
  if x.st ≠ 3 ∧ x.st ≠ 4 then m
  else
    let locked := m.on (R.PWM_UPDATE_LOCK o)
    let m1 := boundaryTrips o m
    let left := x.st == 4 && (m1.octet o).st == 3
    let halt := x.haltRet && !m.keepHalted
    let m2 := if halt then m1.each (List.range 8) (fun j m =>
        if bit j (m1.octet o).away then m.wr (R.PWM_CARRY o j) 0 else m) else m1
    let m3 := if locked then m2 else octTransfer o m2
    let m4 := m3.updOctet o (fun y => { y with
      b := x.nb
      nb := x.nb + y.p
      phi := (x.phi + 1) % 16
      haltRet := y.haltRet && m.keepHalted })
    octNote o (.boundary ((m.rd (R.PWM_PCOUNT o) + 1) % 2 ^ 32) locked) (boundaryLanes o (left || halt) x.ovr m4)

/-- PWM_BOUNDARY in tick β_(k+1). -/
def octBoundary (o : Nat) (m : Mach) : Mach := octReport o (octTurn o m)

/-- The boundary, or the start, of an octet that falls in this tick and has not been taken. -/
def octDue (m : Mach) (o : Nat) : Bool :=
  let x := m.octet o
  (x.st == 2 && decide (x.beta0 ≤ m.pnow)) || ((x.st == 3 || x.st == 4) && decide (x.nb / 128 ≤ m.pnow))

/-- The machine in which the tick's boundary has been taken, which still owes what it counts and raises: writes and trips come after
it, stops before it. -/
def octCaught (o : Nat) (m : Mach) : Mach :=
  if octDue m o then (if (m.octet o).st = 2 then octBegin o m else octTurn o m) else m

/-- PEAK in the middle of a centre-aligned period (R271). -/
def octPeak (o : Nat) (m : Mach) : Mach :=
  let x := m.octet o
  if (x.st = 3 ∨ x.st = 4) ∧ m.pwmCentre o then pwmRaise o 1 m else m

/-! ## Playing a transition (R274, R281, R282) -/

/-- A node transition opens its measurement window, and its kind counts as played and not yet seen. -/
def openWindow (o : Nat) (e : PwmEdge) (m : Mach) : Mach :=
  let i := e.j / 2
  let p : PwmPair := mapGet {} i (m.octet o).pairs
  let q : PwmPair := if e.node = 1 then { p with winR := some (e.t, e.dt), rise := .unseen }
    else { p with winF := some (e.t, e.dt), fall := .unseen }
  (m.updOctet o (fun x => { x with pairs := mapSet {} i q x.pairs })).wr
    (if e.node = 1 then R.PWM_SN_MEAS_R o i else R.PWM_SN_MEAS_F o i) 0xFFFF

/-- PWM_EDGE_PLAY: the next waiting transition of channel j. A pair drives while one of its switches does (R282). -/
def octEdge (o j : Nat) (m : Mach) : Mach :=
  let x := m.octet o
  match x.edges.find? (fun e => e.j == j) with
  | none => m
  | some e =>
    let m1 := m.setOctet o { x with edges := x.edges.erase e }
    if octDrives m o j then
      let drives := octOnPin m o j || octOnPin m o (4 * (j / 2) + 1 - j)
      let m2 := if e.node ≠ 0 ∧ drives then openWindow o e m1 else m1
      let seen := octOnPin m o j && (if e.ret then safeDiffers m (8 * o + j) true else bit j x.lv != e.on)
      let m3 := m2.when seen (openBlank o e.t)
      m3.updOctet o (fun x => { x with lv := putBit j e.on x.lv })
    else m1

/-- SN_CROSSING: a crossing in a transition's direction inside its window is its measured delay (R282). -/
def snCrossing (o i : Nat) (rise : Bool) (t : Nat) (m : Mach) : Mach :=
  let p : PwmPair := mapGet {} i (m.octet o).pairs
  let up := rise != bit 1 (m.rd (R.PWM_DT_CFG o i))
  match (if up then p.winR else p.winF) with
  | none => m
  | some (t0, dt) =>
    if t0 < t ∧ t ≤ t0 + dt then
      let q : PwmPair := if up then { p with winR := none, rise := if p.rise = .none then .none else .seen (t - t0) }
        else { p with winF := none, fall := if p.fall = .none then .none else .seen (t - t0) }
      (m.updOctet o (fun x => { x with pairs := mapSet {} i q x.pairs })).wr
        (if up then R.PWM_SN_MEAS_R o i else R.PWM_SN_MEAS_F o i) (t - t0)
    else m

/-! ## Writes -/

/-- A shadow write that lands in a guard window is late (R276), which its tick owes. -/
def shadowLate (o : Nat) (m : Mach) : Mach :=
  let x := m.octet o
  let inRun := x.st == 3 || x.st == 4
  if inRun && m.pnow == x.b / 128 then
    octNote o (.late true) m
  else if (inRun && m.pnow + 1 == x.nb / 128) || (x.st == 2 && m.pnow + 1 == x.beta0) then
    octNote o (.late false) m
  else m

/-- The object a shadow write names. -/
def shadowObj (o : Nat) : PwmShadow → Obj
  | .period => R.PWM_PERIOD o
  | .duty j => R.PWM_DUTY o j
  | .phase j => R.PWM_PHASE o j
  | .pairOvr i => R.PWM_PAIR_OVR o i

/-- A shadow write: the shadow changes after the transfer of a boundary of its tick, and the guard windows count (R275, R276). -/
def setShadow (o : Nat) (obj : PwmShadow) (v : Nat) (m : Mach) : Mach := shadowLate o ((octCaught o m).wr (shadowObj o obj) v)

/-- PWM_PERIOD_IMM may be accepted (R278). -/
def pwmImmOk (m : Mach) (o v : Nat) : Bool :=
  !m.pwmBridge o && ((m.octet o).st == 3 || (m.octet o).st == 4) && pwmPeriodOk m o v

/-- One channel after an immediate period: from tick λ + 1 on its waveform is recomputed with the new period. -/
def laneImm (o j pn : Nat) (forced : Bool) (m : Mach) : Mach :=
  let x := m.octet o
  let from8 := m.pnow8 + 8
  let d := min pn (mapGet 0 j x.arc)
  let m1 := m.wr (R.PWM_DUTY_ACT o j) d
  let kept := x.edges.filter (fun e => e.j != j || decide (e.t < from8))
  let lvl := match (kept.filter (fun e => e.j == j)).getLast? with
    | some e => e.on
    | none => bit j x.lv
  if forced then m1.updOctet o (fun x => { x with edges := kept, cmd := putBit j lvl x.cmd })
  else
    let a := arcStart (m.pwmCentre o) pn d (mapGet 0 j x.phase)
    let plan := arcPlan false pn a d
    let evs := plan.changes.map (fun e => (ditherQ (x.b + e.1) x.phi, e.2))
    let at_ := match (evs.filter (fun e => decide (e.1 ≤ from8))).getLast? with
      | some e => e.2
      | none => plan.start
    let new := (if at_ = lvl then [] else [({ t := from8, j := j, on := at_ } : PwmEdge)]) ++
      (evs.filter (fun e => decide (from8 < e.1))).map (fun e => ({ t := e.1, j := j, on := e.2 } : PwmEdge))
    m1.updOctet o (fun x => { x with edges := edgesJoin false kept new, cmd := putBit j plan.fin x.cmd })

/-- A PWM_PERIOD_IMM write in tick λ of period k (R278, R279). -/
def octImm (o pn : Nat) (m0 : Mach) : Mach :=
  let m := octCaught o m0
  let x := m.octet o
  let forced := decide ((x.b + pn) / 128 ≤ m.pnow)
  let m1 := (m.wr (R.PWM_PERIOD o) pn).setOctet o { x with
    p := pn
    nb := if forced then 128 * (m.pnow + 1) else x.b + pn }
  m1.each (octLanes m o) (fun j m => laneImm o j pn forced m)

/-- A PWM_CH_OFF write: channels sent off clear their carry and their level at once (R288). -/
def octChOff (o v : Nat) (m0 : Mach) : Mach :=
  let m := octCaught o m0
  let off := pairWide (m.pwmBridge o) v
  let m1 := ((octDark o off m).wr (R.PWM_CH_OFF o) v).each (List.range 8) (fun j m =>
    if bit j off then m.wr (R.PWM_CARRY o j) 0 else m)
  m1.updOctet o (fun x => { x with away := x.away ||| off })

/-- A Keep debug halt begins: every output but the KEEPRUN channels goes to its safe level (R290, R311). -/
def octsDapHalt (m : Mach) : Mach :=
  m.each (List.range 16) (fun o m =>
    if (m.octet o).st = 3 then
      let off := 0xFF - keeprunMask m o
      (octDark o off m).updOctet o (fun x => { x with away := x.away ||| off })
    else m)

/-- It ends: the outputs held safe rejoin at the next boundary (R290). -/
def octsDapResume (m : Mach) : Mach :=
  m.each (List.range 16) (fun o m =>
    if (m.octet o).st = 3 ∨ (m.octet o).st = 4 then m.updOctet o (fun x => { x with haltRet := true }) else m)

/-! ## The order within a tick (R280, R308) -/

/-- The matches of the class B timer that the octet sees in this tick (R298). -/
def octSees (o : Nat) (m : Mach) : Mach :=
  let x := m.octet o
  if x.bWait.isEmpty then m
  else
    let now := x.bWait.filter (fun e => decide (e.2.1 ≤ m.pnow))
    m.setOctet o { x with
      bWin := (now.getLast?.map (·.2.2)).getD x.bWin
      bWait := x.bWait.filter (fun e => !decide (e.2.1 ≤ m.pnow)) }

/-- The counters of PWM_CNT_CLR by bit; bit 3 is always 0. -/
def pwmCounters (o : Nat) : List Obj :=
  [R.PWM_CNT_LATE o, R.PWM_CNT_HELD o, R.PWM_CNT_CLIP o, R.PWM_CNT_LATE o, R.PWM_CNT_NOSN o 0, R.PWM_CNT_NOSN o 1,
   R.PWM_CNT_NOSN o 2, R.PWM_CNT_NOSN o 3, R.PWM_CNT_SHORT o 0, R.PWM_CNT_SHORT o 1, R.PWM_CNT_SHORT o 2,
   R.PWM_CNT_SHORT o 3, R.PWM_CNT_SHORT o 4, R.PWM_CNT_SHORT o 5, R.PWM_CNT_SHORT o 6, R.PWM_CNT_SHORT o 7]

end Sys2Proof.Machine
end

