-- ==== Sys2Proof/Machine/Trip.lean ====
section
/-! DEFINITION. Trips, blanking and output safety of the octets (chapter 9). -/

namespace Sys2Proof.Machine

/-! ## TRP_CFG -/

def trpEn (m : Mach) (o : Nat) (b : Bool) : Bool := bit (if b then 2 else 0) (m.rd (R.TRP_CFG o))
def trpBSrc (m : Mach) (o : Nat) : Nat := bits 9 8 (m.rd (R.TRP_CFG o))
def trpBArg (m : Mach) (o : Nat) : Nat := bits 23 16 (m.rd (R.TRP_CFG o))

/-- TRP_CFG and the thresholds of the classes. -/
def trpNow (m : Mach) (o : Nat) : Nat × Nat × Nat := (m.rd (R.TRP_CFG o), m.rd (R.TRP_A_THRESH o), m.rd (R.TRP_B_THRESH o))

/-- The same as they stood in tick t: a new threshold and POL count from the tick in which they land (R296, log 63). -/
def trpThen (m : Mach) (o t : Nat) : Nat × Nat × Nat :=
  match ((m.octet o).past.filter (fun e => decide (t < e.1))).getLast? with
  | some e => e.2
  | none => trpNow m o

/-- A class's comparator asserts under a setting with its input at v, in DAC steps (R294). -/
def comparator (x : Nat × Nat × Nat) (b : Bool) (v : Rat) : Bool :=
  let thresh : Rat := if b then x.2.2 else x.2.1
  if bit (if b then 3 else 1) x.1 then decide (v < thresh) else decide (thresh < v)

/-- It asserts in tick t. -/
def trpAsserts (m : Mach) (o : Nat) (b : Bool) (t : Nat) (v : Rat) : Bool := comparator (trpThen m o t) b v

/-- A write to TRP_CFG or a threshold; what stood before is kept for the 24 ticks in which a count or a status may ask for it. -/
def setTrp (o : Nat) (obj : Obj) (v : Nat) (m : Mach) : Mach :=
  let m1 := m.wr obj v
  if trpNow m1 o = trpNow m o then m1
  else m1.updOctet o (fun x => { x with past := (m.pnow, trpNow m o) :: x.past.filter (fun e => decide (m.pnow < e.1 + 24)) })

/-- Class B is blanked by its source, the channel's level being that of two ticks before, but not during a Keep debug halt (R298,
R299). -/
def blankedB (m : Mach) (o : Nat) : Bool :=
  !m.keepHalted &&
  (match trpBSrc m o with
   | 1 => (m.octet o).bPipe.getD 1 false
   | 2 => (m.octet o).bWin
   | _ => false)

/-- The current tick is blanked for class A (R297). -/
def blankedA (m : Mach) (o : Nat) : Bool := decide (m.pnow8 < (m.octet o).blankA)

/-- The current tick is blanked for a class. -/
def blanked (m : Mach) (o : Nat) (b : Bool) : Bool := if b then blankedB m o else blankedA m o

/-- A compare match of a general timer at an octet whose class B window it drives: the octet sees it 2 or 3 ticks later, which is
open; a CMP1 match voids a CMP0 match of its own tick, whichever is named first (R298). -/
def trpMatch (n c o : Nat) (m : Mach) : Mach :=
  if trpBSrc m o = 2 ∧ trpBArg m o % 16 = n then
    let x := m.octet o
    let old := if c = 1 then x.bWait.filter (fun e => e.1 != m.now) else x.bWait
    if c = 0 ∧ old.any (fun e => e.1 == m.now && !e.2.2) then m
    else m.free.2.setOctet o { x with bWait := old ++ [(m.now, m.now + 2 + m.free.1 % 2, c == 0)] }
  else m

def trpTimerMatch (n c : Nat) (m : Mach) : Mach := m.each (List.range 16) (trpMatch n c)

/-! ## Trips (R300 to R305) -/

/-- Ticks in a row, up to this one, in which the octet acted on a class and it was not blanked. -/
def cleanTicks (m : Mach) (o : Nat) (b : Bool) : Nat :=
  if blanked m o b then 0 else 1 + (if b then (m.octet o).cleanB else (m.octet o).cleanA)

/-- Ticks in a row, of the n up to this one, in which the comparator asserted with its input at v, each by the setting of its time. -/
def assertTicks (m : Mach) (o : Nat) (b : Bool) (v : Rat) (n : Nat) : Nat :=
  ((List.range n).takeWhile (fun k => trpAsserts m o b (m.pnow - k) v)).length

/-- A class's input has stood at v for n ticks, up to this one: the trip is valid (R295, R300). -/
def tripQualified (m : Mach) (o : Nat) (b : Bool) (v : Rat) (n : Nat) : Bool :=
  let x := m.octet o
  (x.st == 3 || latchedNow m o) && trpEn m o b && !(if b then x.tripB else x.tripA) &&
  decide (m.rd (if b then R.TRP_B_FILT o else R.TRP_A_FILT o) < min (assertTicks m o b v n) (cleanTicks m o b))

/-- A valid trip: counted, stamped, the class's channels cut, the run count checked against the escalation count. -/
def tripTake (o : Nat) (b : Bool) (m : Mach) : Mach :=
  let cut := pairWide (m.pwmBridge o) (m.rd (if b then R.TRP_B_CUT o else R.TRP_A_CUT o)) &&& m.pwmMask o
  let run := min 255 ((if b then (m.octet o).runB else (m.octet o).runA) + 1)
  let m1 := (octDark o cut m).updOctet o (fun x =>
    if b then { x with tripB := true, runB := run, cut := x.cut ||| cut }
    else { x with tripA := true, runA := run, cut := x.cut ||| cut })
  let m2 := trpRaise o (if b then 1 else 0)
    ((m1.wr (R.TRP_LAST o) m.pnow8).inc (if b then R.TRP_CNT_B o else R.TRP_CNT_A o))
  let esc := m.rd (if b then R.TRP_B_ESC o else R.TRP_A_ESC o)
  if esc ≠ 0 ∧ esc ≤ run then octLatch o (if b then 1 else 0) m2 else m2

/-- TRIP_VALID: the tick's stops, boundary and writes come before it (R308). -/
def tripValidEffect (o : Nat) (t : TripIn) (m : Mach) : Mach := m.updOctet o (fun x => { x with trips := x.trips ++ [t] })

/-- A trip input is judged. -/
def tripJudge (o : Nat) (t : TripIn) (m : Mach) : Mach :=
  if tripQualified m o t.clsB ((t.v.toNat : Rat) / 256) t.n.toNat then tripTake o t.clsB m else m

/-- The trip inputs of the tick are judged. -/
def octTrips (o : Nat) (m : Mach) : Mach :=
  Mach.each (m.octet o).trips (tripJudge o) (m.updOctet o (fun x => { x with trips := [] }))

/-- At the end of a tick of a RUNNING octet its unblanked ticks are counted (R300). -/
def octQualifies (o : Nat) (m : Mach) : Mach :=
  if (m.octet o).st = 3 then
    m.updOctet o (fun x => { x with
      cleanA := if blankedA m o then 0 else x.cleanA + 1
      cleanB := if blankedB m o then 0 else x.cleanB + 1 })
  else m

/-- TRP_CMD LATCH. -/
def trpLatch (o : Nat) (m : Mach) : Mach := octLatch o 2 (octCaught o m)

/-- TRP_CMD CLEAR. -/
def trpCounters (o : Nat) : List Obj :=
  [R.TRP_CNT_A o, R.TRP_CNT_B o, R.TRP_CNT_ESC o, R.TRP_CNT_RB o, R.TRP_CNT_BW o]

/-- TRP_REARM: bits 0 to 2 clear ESC_A, ESC_B and SW. -/
def trpRearmEffect (o v : Nat) (m : Mach) : Mach := octClearCauses o (v % 8) (octCaught o m)

/-- TRP_REARM_RB written 1 clears RB and TRP_RB_CH, but for what was set in its own tick (R308, R315). -/
def trpRearmRbEffect (o : Nat) (v : Bool) (m : Mach) : Mach :=
  if v then octClearCauses o 8 (Mach.w1c (R.TRP_RB_CH o) 0xFF (octCaught o m)) else m

/-- The first tick of a run of mismatches that has lasted n ticks, up to this one, by the sender's count: no tick in which the channel was
high-impedance or not checked is part of it (R314). -/
def rbStart (m : Mach) (o j n : Nat) : Nat := max (m.pnow + 1 - n) (mapGet 0 j (m.octet o).rbFrom)

/-- READBACK_FAULT on channel j of an octet that checks it: its run of mismatches has reached TRP_RB_TOL, once a run (R314, R315). -/
def readbackEffect (o j n : Nat) (m : Mach) : Mach :=
  let s := rbStart m o j n
  if bit j (m.rd (R.TRP_RB_EN o)) ∧ m.rd (R.TRP_RB_TOL o) ≤ m.pnow + 1 - s ∧ mapGet 0 j (m.octet o).rbHit ≤ s then
    let m1 := ((octCaught o m).setEvt (R.TRP_RB_CH o) j).inc (R.TRP_CNT_RB o)
    let m2 := m1.updOctet o (fun x => { x with rbHit := mapSet 0 j (m.pnow + 1) x.rbHit })
    (octLatch o 3 (trpRaise o 4 m2)).alarm 10
  else m

/-- TRP_RB_EN: a channel is checked from the write on. -/
def setRbEn (o v : Nat) (m : Mach) : Mach :=
  let new := v - (v &&& m.rd (R.TRP_RB_EN o))
  (m.wr (R.TRP_RB_EN o) v).updOctet o (fun x => { x with
    rbFrom := (List.range 8).foldl (fun l j => if bit j new then mapSet 0 j m.pnow l else l) x.rbFrom })

/-- A field rail's supply warning reaches the octets marked in PWR_BW_SAFE (R313). -/
def bwLatch (m : Mach) : Mach :=
  m.each (List.range 16) (fun o m =>
    if bit o (m.rd R.PWR_BW_SAFE) then octLatch o 4 (trpRaise o 5 ((octCaught o m).inc (R.TRP_CNT_BW o))) else m)

/-- An accepted PWR_REARM clears BW on every octet (R313). -/
def bwRearm (m : Mach) : Mach := m.each (List.range 16) (fun o m => octClearCauses o 16 (octCaught o m))

end Sys2Proof.Machine
end

