-- ==== Sys2Proof/Machine/Turret.lean ====
section
/-! DEFINITION. Turret engines (chapter 10): rounds, contexts, pins, queues, flags, shift registers and the instructions.
An instruction's operand `w` holds the low 27 bits of its word; its OP is the row's. -/

namespace Sys2Proof.Machine

def Mach.ctx (m : Mach) (x : Nat) : Ctx := mapGet {} x m.ctxs

def Mach.setCtx (x : Nat) (c : Ctx) (m : Mach) : Mach := { m with ctxs := mapSet {} x c m.ctxs }

def Mach.updCtx (x : Nat) (f : Ctx → Ctx) (m : Mach) : Mach := m.setCtx x (f (m.ctx x))

/-- Raises context event `b` on source 192 + x (R354). -/
def ctxRaise (x b : Nat) (m : Mach) : Mach := m.raise (R.CTX_EVT x) (R.CTX_EVT_EN x) b (192 + x)

def Mach.ctxState (m : Mach) (x : Nat) : Nat := m.rd (R.CTX_STATE x)

/-! ## Program memory (R323) -/

/-- The word at a program address; past TUR_PROG_LEN it reads as all ones. -/
def turWord (m : Mach) (e pc : Nat) : Nat :=
  if pc < m.rd (R.TUR_PROG_LEN e) then fieldAt (4 * pc) 4 (mapGet [] (R.TUR_PROGRAM e).key m.dic.doms) else 0xFFFFFFFF

/-- A commit of TUR_PROGRAM on a stopped engine (R324). -/
def turCommit (e : Nat) (content : List Byte) (m : Mach) : Mach :=
  let m1 := { m with dic := { m.dic with doms := mapSet [] (R.TUR_PROGRAM e).key content m.dic.doms } }
  (m1.wr (R.TUR_PROG_LEN e) (content.length / 4)).wr (R.TUR_PROG_GEN e) ((m.rd (R.TUR_PROG_GEN e) + 1) % 2 ^ 32)

/-- A commit refused because the engine is not STOPPED. -/
def turCommitRefused (e : Nat) (m : Mach) : Mach := turRaise e 3 (m.putBit (R.TUR_STICKY e) 0 true)

/-! ## Pins (R330 to R333) -/

/-- The byte that binds P_i. -/
def pinByte (m : Mach) (x i : Nat) : Nat :=
  if i < 4 then bits (8 * i + 7) (8 * i) (m.rd (R.CTX_PINS_LO x))
  else bits (8 * (i - 4) + 7) (8 * (i - 4)) (m.rd (R.CTX_PINS_HI x))

/-- The channel P_i is bound to. -/
def pinChan (m : Mach) (x i : Nat) : Option Nat := if pinByte m x i < 128 then some (pinByte m x i) else none

/-- The logical level a channel had `lag` ticks ago: before the earliest edge that came since. -/
def levelAgo (m : Mach) (c lag : Nat) : Bool :=
  match ((m.chan c).turs.filter (fun e => decide (m.now8 < e.1 + 8 * lag))).getLast? with
  | some e => !e.2.1
  | none => m.chIn c

/-- The logical level P_i reads, an output's as the pin had it: it is 3 T to 5 T old (R326, R332), which of them being open (log 3). -/
def pinLevel (m : Mach) (x i : Nat) : Bool :=
  match pinChan m x i with
  | none => false
  | some c =>
    match bit i (m.ctx x).dirs, (m.ctx x).seen[(m.ctx x).lag - 1]? with
    | true, some w => bit i w
    | _, _ => m.chEn c && levelAgo m c (m.ctx x).lag

/-- PINS as read. -/
def pinsRead (m : Mach) (x : Nat) : Nat :=
  (List.range 8).foldl (fun a i => if pinLevel m x i then a + 2 ^ i else a) 0

/-- A change reaches pin P_i at a fine time: its direction, and the level that the stage of an output takes, which a change of DIRS alone
leaves as it came last (R331, R333). -/
def pinTake (x : Nat) (d : PinChange) (m : Mach) : Mach :=
  let on := d.on.getD (bit d.pin (m.ctx x).lv)
  let m1 := m.updCtx x (fun c => { c with oe := putBit d.pin d.oe c.oe, lv := putBit d.pin on c.lv })
  match pinChan m1 x d.pin with
  | none => m1
  | some ch => if d.oe ∧ m1.chMode ch = 9 ∧ (m1.chan ch).level ≠ on then outTransition ch on d.t m1 else m1

/-- Every pin stands at once as the context has it. -/
def pinsDrive (x : Nat) (m : Mach) : Mach :=
  let c := m.ctx x
  (m.updCtx x (fun c => { c with drive := [] })).each (List.range 8) (fun i =>
    pinTake x ⟨m.now8, i, some (bit i c.pins), bit i c.dirs⟩)

/-- A slot's change of PINS and DIRS, which reaches the pins 5 T to 7 T later (R333); which of them is open (log 3). -/
def pinsPut (x pins dirs : Nat) (m : Mach) : Mach :=
  let c := m.ctx x
  let t := 8 * (m.now + 5 + m.free.1 % 3)
  let l := (List.range 8).filter (fun i => bit i (c.pins ^^^ pins) || bit i (c.dirs ^^^ dirs))
  m.free.2.updCtx x (fun c => { c with
    pins := pins % 256
    dirs := dirs % 256
    drive := c.drive ++ l.map (fun i => ⟨t, i, if bit i (c.pins ^^^ pins) then some (bit i pins) else none, bit i dirs⟩) })

def setPins (x v : Nat) (m : Mach) : Mach := pinsPut x v (m.ctx x).dirs m
def setDirs (x v : Nat) (m : Mach) : Mach := pinsPut x (m.ctx x).pins v m

/-- The oldest change on its way reaches its pin. -/
def driveNext (x : Nat) (m : Mach) : Mach :=
  match (m.ctx x).drive with
  | [] => m
  | d :: rest => pinTake x d (m.updCtx x (fun c => { c with drive := rest }))

/-- Every channel of an idle context's pins, or of a faulted one, returns to its safe level; changes of DIRS on their way come to it, and
those of PINS are dropped. -/
def pinsDark (x : Nat) (m : Mach) : Mach :=
  (m.updCtx x (fun c => { c with oe := c.dirs, drive := [] })).each (List.range 8) (fun i m =>
    match pinChan m x i with
    | none => m
    | some ch => if bit i (m.ctx x).oe then m.updChan ch (fun y => { y with lvl := false, fut := [] }) else m)

/-- An edge on a channel in mode TURRET is on its way to the context that waits for it; it reaches the engine 4 T to 6 T after the pin
edge, which of them being open (R332, log 3). -/
def turEdge (c : Nat) (lvl : Bool) (t : Nat) (m : Mach) : Mach :=
  let before := match (m.chan c).turs with
    | e :: _ => e.2.2
    | [] => 0
  let reach := max before (t / 8 + 4 + m.free.1 % 3)
  let m1 := m.free.2.updChan c (fun y => { y with turs := (t, lvl, reach) :: y.turs.filter (fun e => decide (m.now8 < e.1 + 64)) })
  { m1 with ctxs := m1.ctxs.map (fun e =>
      match e.2.wait, e.2.got with
      | some (i, up, began), none =>
        if pinChan m e.1 i = some c ∧ !bit i e.2.dirs ∧ up = lvl ∧ began < reach then (e.1, { e.2 with got := some (t, reach) }) else e
      | _, _ => e) }

/-- The first edge of a direction at a pin that reaches the engine after the present tick. -/
def edgeComing (m : Mach) (x i : Nat) (up : Bool) : Option (Nat × Nat) :=
  match pinChan m x i with
  | none => none
  | some c =>
    if bit i (m.ctx x).dirs then none
    else (((m.chan c).turs.filter (fun e => e.2.1 == up && decide (m.now < e.2.2))).getLast?).map (fun e => (e.1, e.2.2))

/-- Edges whose arming tick has come: one whose instant has passed plays at the start of the next tick (R333). -/
def edgesArm (now : Nat) (l : List TimedEdge) : List TimedEdge :=
  l.map (fun e =>
    if e.armed ∨ now < e.arm then e
    else if e.t < 8 * now then { e with armed := true, late := true, t := 8 * now + 8 }
    else { e with armed := true })

/-- TIMED_EDGE_PLAY, at the edge's instant. -/
def edgeDue (m : Mach) (e : TimedEdge) : Bool := e.armed && decide (e.t < m.now8 + 8)

/-- TIMED_EDGE_PLAY: the oldest posted edge of a context plays; a late one counts. A change of PINS on its way to the pin has a later
instant, so the pin ends at its level (R333). -/
def timedEdge (x : Nat) (m : Mach) : Mach :=
  match (m.ctx x).timed with
  | [] => m
  | e :: rest =>
    if m.fieldStill ∨ !edgeDue m e then m
    else
      let m1 := m.updCtx x (fun c => { c with
        timed := rest
        lv := putBit e.pin e.on c.lv
        pins := if c.drive.any (fun d => d.pin == e.pin && d.on.isSome) then c.pins else putBit e.pin e.on c.pins })
      let m2 := if e.late then ctxRaise x 11 (m1.inc (R.CTX_CNT_LATE x)) else m1
      match pinChan m x e.pin with
      | none => m2
      | some ch =>
        if bit e.pin (m.ctx x).oe ∧ m.ctxState x ≠ 0 ∧ m.ctxState x ≠ 4 ∧ m.chMode ch = 9 then
          outTransition ch e.on e.t m2
        else m2

/-! ## CTX_CFG (R335, R340) -/

def cfgCrcW (v : Nat) : Nat := bits 31 27 v + 1
def cfgJoin (v : Nat) : Nat := bits 23 22 v
def cfgInAuto (v : Nat) : Bool := bit 21 v
def cfgOutAuto (v : Nat) : Bool := bit 20 v
def cfgInMsb (v : Nat) : Bool := bit 19 v
def cfgOutMsb (v : Nat) : Bool := bit 18 v
def cfgInBits (v : Nat) : Nat := bits 15 11 v + 1
def cfgOutBits (v : Nat) : Nat := bits 10 6 v + 1

def txDepth (m : Mach) (x : Nat) : Nat :=
  match cfgJoin (m.rd (R.CTX_CFG x)) with
  | 1 => 8
  | 2 => 0
  | _ => 4

def rxDepth (m : Mach) (x : Nat) : Nat :=
  match cfgJoin (m.rd (R.CTX_CFG x)) with
  | 1 => 0
  | 2 => 8
  | _ => 4

def txFull (m : Mach) (x : Nat) : Bool := decide (txDepth m x ≤ (m.ctx x).tx.length)
def rxFull (m : Mach) (x : Nat) : Bool := decide (rxDepth m x ≤ (m.ctx x).rx.length)

/-- Entries that have come through the queue: the TX entries the context sees, the RX entries the field side sees (R343). -/
def qSeen (m : Mach) (l : List QWord) : List QWord := l.takeWhile (fun e => decide (e.vis ≤ m.now))

def txSeen (m : Mach) (x : Nat) : List QWord := qSeen m (m.ctx x).tx
def rxSeen (m : Mach) (x : Nat) : List QWord := qSeen m (m.ctx x).rx

/-- A word pushed in the present tick, which the other end sees 3 or 4 ticks later; which of them is open (log 3). -/
def qWord (m : Mach) (v : Nat) : QWord := { v := v, at_ := m.now, vis := m.now + 3 + m.free.1 % 2 }

/-- A CTX_CFG write that changes JOIN flushes both queues (R340). -/
def setCtxCfg (x v : Nat) (m : Mach) : Mach :=
  let m1 := m.wr (R.CTX_CFG x) v
  if cfgJoin v = cfgJoin (m.rd (R.CTX_CFG x)) then m1 else m1.updCtx x (fun c => { c with tx := [], rx := [] })

/-! ## Queues (R341 to R343, R355) -/

/-- A push into RX; RX_DATA on the first entry. -/
def rxPut (x v : Nat) (m : Mach) : Mach :=
  let m1 := m.free.2.updCtx x (fun c => { c with rx := c.rx ++ [qWord m v] })
  if (m.ctx x).rx.isEmpty then ctxRaise x 4 m1 else m1

/-- A pop by the context from TX; TX_EMPTY when it drains. -/
def txTake (x : Nat) (m : Mach) : Mach :=
  let m1 := m.updCtx x (fun c => { c with tx := c.tx.drop 1 })
  if (m.ctx x).tx.length = 1 then ctxRaise x 5 m1 else m1

/-- A push of a writer of the field side. -/
def txPut (by_ x v : Nat) (m : Mach) : Mach :=
  m.free.2.updCtx x (fun c => { c with tx := c.tx ++ [{ qWord m v with by_ := by_ }] })

/-- A store to the port. Whether the queue has a place for it shows at the end of the tick, for a flush of the tick comes before it
(R343). -/
def txPortPut (port x v : Nat) (m : Mach) : Mach := txPut port x v m

/-- The pushes of a tick into TX take their order and their places: what finds none is dropped (R342, R343). -/
def txSettle (x : Nat) (m : Mach) : Mach :=
  let l := (m.ctx x).tx
  if l.any (fun e => e.at_ == m.now) then
    let m1 := m.updCtx x (fun c => { c with tx := (byWriter (fun e => e.at_ == m.now) (·.by_) l).take (max (txDepth m x)
      (l.filter (fun e => e.at_ != m.now)).length) })
    m1.each (List.range (l.length - (m1.ctx x).tx.length)) (fun _ m =>
      (m.putBit (R.CTX_STICKY x) 3 true).inc (R.CTX_CNT_TX_DROP x))
  else m

/-- A CTX_TXQ_PUSH write; a queue full when it comes counts as full (log 66). -/
def txDictPut (x v : Nat) (m : Mach) : Eff :=
  if txFull m x then .error .range else .ok (txPut 17 x v m)

def rxHead (m : Mach) (x : Nat) : Nat :=
  match rxSeen m x with
  | e :: _ => e.v
  | [] => 0

/-- A load of the port, or CTX_RXQ_POP. -/
def rxPop (x : Nat) (m : Mach) : Mach :=
  if (rxSeen m x).isEmpty then m else m.updCtx x (fun c => { c with rx := c.rx.drop 1 })

/-- CTX_Q_FLUSH: bit 0 TX, bit 1 RX; the pushes of its tick come after it (R343). -/
def ctxFlush (x v : Nat) (m : Mach) : Mach :=
  m.updCtx x (fun c => { c with
    tx := if bit 0 v then c.tx.filter (fun e => e.at_ == m.now) else c.tx
    rx := if bit 1 v then [] else c.rx })

/-- CTX_Q as the field side reads it. -/
def ctxQ (m : Mach) (x : Nat) : Nat := (m.ctx x).tx.length * 256 + (rxSeen m x).length

/-! ## Flags (R344, R345) -/

def flagRead (m : Mach) (x f : Nat) : Bool :=
  if f < 32 then bit f (m.rd (R.TUR_FLAG_SET (x / 16))) else bit (f - 32) (m.rd R.TUR_XFLAG_SET)

/-- An instruction's change of a flag, seen from the next tick on: one of a cross-flag waits for the other engines' of its tick. -/
def flagPut (x f : Nat) (b consume : Bool) (m : Mach) : Mach :=
  if f < 32 then m.putBit (R.TUR_FLAG_SET (x / 16)) f b else { m with xNow := m.xNow ++ [(x / 16, f - 32, b, consume)] }

/-- A cross-flag that a context consumed in this tick. -/
def flagTaken (m : Mach) (f : Nat) : Bool := m.xNow.any (fun e => e.2.1 + 32 == f && e.2.2.2)

/-- The cross-flag changes of the tick, in ascending engine number (R345). -/
def xflagsLand (m : Mach) : Mach :=
  let l := (List.range 8).flatMap (fun e => m.xNow.filter (fun c => c.1 == e))
  Mach.each l (fun c m => m.putBit R.TUR_XFLAG_SET c.2.1 c.2.2.1) { m with xNow := [] }

/-- A flag write of the field side sets or clears the flags of a mask. -/
def flagsPut (o : Obj) (v : Nat) (on : Bool) (m : Mach) : Mach :=
  m.wr o (if on then m.rd o ||| v else m.rd o - (m.rd o &&& v))

/-- It lands 3 to 8 ticks later, after those written before it; which of them is open (R344, log 3). -/
def flagsSend (o : Obj) (v : Nat) (on : Bool) (m : Mach) : Mach :=
  let before := match m.flagIns.getLast? with
    | some e => e.1
    | none => 0
  { m.free.2 with flagIns := m.flagIns ++ [(max before (m.now + 3 + m.free.1 % 6), o.key, v, on)] }

def flagsSet (o : Obj) (v : Nat) (m : Mach) : Mach := flagsSend o v true m
def flagsClr (o : Obj) (v : Nat) (m : Mach) : Mach := flagsSend o v false m

/-- The flag objects. -/
def flagObjs : List Obj := R.TUR_XFLAG_SET :: (List.range 8).map R.TUR_FLAG_SET

/-- The flag writes that land in this tick, in order. -/
def flagsLand (m : Mach) : Mach :=
  let l := m.flagIns.filter (fun e => decide (e.1 ≤ m.now))
  Mach.each l (fun e m => m.each (flagObjs.filter (fun o => o.key == e.2.1)) (fun o => flagsPut o e.2.2.1 e.2.2.2))
    { m with flagIns := m.flagIns.filter (fun e => decide (m.now < e.1)) }

/-! ## Registers (R326, R336) -/

def ctxIsc (m : Mach) (x : Nat) : Nat := bits 5 0 (m.rd (R.CTX_SHCNT x))
def ctxOsc (m : Mach) (x : Nat) : Nat := bits 13 8 (m.rd (R.CTX_SHCNT x))
def setIsc (x n : Nat) (m : Mach) : Mach := m.wr (R.CTX_SHCNT x) (putBits 5 0 n (m.rd (R.CTX_SHCNT x)))
def setOsc (x n : Nat) (m : Mach) : Mach := m.wr (R.CTX_SHCNT x) (putBits 13 8 n (m.rd (R.CTX_SHCNT x)))

/-- The aligned content of ISR (R338). -/
def isrAligned (m : Mach) (x : Nat) : Nat :=
  let n := ctxIsc m x
  let v := m.rd (R.CTX_ISR x)
  if cfgInMsb (m.rd (R.CTX_CFG x)) then v % 2 ^ n else v / 2 ^ (32 - n)

/-- A word loaded into OSR is aligned and OSC becomes OUT_BITS (R336). -/
def osrLoad (x v : Nat) (m : Mach) : Mach :=
  let cfg := m.rd (R.CTX_CFG x)
  let n := cfgOutBits cfg
  setOsc x n (m.wr (R.CTX_OSR x) (if cfgOutMsb cfg then v * 2 ^ (32 - n) % 2 ^ 32 else v))

/-- TIME: the fine time of an instant 4 T to 8 T ago, low 32 bits (R334). Which of them is open (log 3). -/
def turTime (m : Mach) : Nat × Mach :=
  let r := m.free
  (8 * (m.now + 2 ^ 32 - 4 - r.1 % 5) % 2 ^ 32, r.2)

/-- A register as an instruction reads it. -/
def regRead (m : Mach) (x r : Nat) : Nat × Mach :=
  match r with
  | 0 => (m.rd (R.CTX_X x), m)
  | 1 => (m.rd (R.CTX_Y x), m)
  | 2 => (m.rd (R.CTX_S x 0), m)
  | 3 => (m.rd (R.CTX_S x 1), m)
  | 4 => (m.rd (R.CTX_S x 2), m)
  | 5 => (m.rd (R.CTX_S x 3), m)
  | 6 => (isrAligned m x, m)
  | 7 => (m.rd (R.CTX_OSR x), m)
  | 8 => (ctxIsc m x, m)
  | 9 => (ctxOsc m x, m)
  | 10 => (m.rd (R.CTX_TS x), m)
  | 11 => (pinsRead m x, m)
  | 12 => ((m.ctx x).dirs, m)
  | 13 => (m.rd (R.TUR_FLAG_SET (x / 16)), m)
  | 14 => (0, m)
  | _ => turTime m

/-- A register an instruction may write; the others fault with cause REGISTER. -/
def regWritable (r : Nat) : Bool := !(r == 8 || r == 9 || r == 10 || r == 15)

def regWrite (x r v : Nat) (m : Mach) : Mach :=
  match r with
  | 0 => m.wr (R.CTX_X x) v
  | 1 => m.wr (R.CTX_Y x) v
  | 2 => m.wr (R.CTX_S x 0) v
  | 3 => m.wr (R.CTX_S x 1) v
  | 4 => m.wr (R.CTX_S x 2) v
  | 5 => m.wr (R.CTX_S x 3) v
  | 6 => setIsc x 0 (m.wr (R.CTX_ISR x) v)
  | 7 => osrLoad x v m
  | 11 => setPins x v m
  | 12 => setDirs x v m
  | 13 => m.wr (R.TUR_FLAG_SET (x / 16)) v
  | _ => m

/-! ## Slots (R321, R327, R329, R352) -/

/-- What an instruction does with its slot: it completes, with the next PC, or it waits. A fault is the error, with its
cause. -/
inductive SlotEnd where
  | next
  | jump (pc : Nat)
  | wait
  | done
deriving DecidableEq, Repr

abbrev SlotRes := Except Nat (SlotEnd × Mach)

/-- A context fault (R349, R352). -/
def ctxFault (x cause : Nat) (m : Mach) : Mach :=
  let m1 := (m.wr (R.CTX_RUN x) 0).wr (R.CTX_FAULT x) (cause * 2 ^ 24 + m.rd (R.CTX_PC x) % 1024)
  ctxRaise x 9 (pinsDark x (m1.wr (R.CTX_STATE x) 4))

/-- A context may spend a slot: RUNNING on a RUNNING engine that is not frozen, its slot of this round still to come. -/
def slotOpen (m : Mach) (x : Nat) : Bool :=
  (m.engine (x / 16)).st == 2 && m.ctxState x == 1 && !(m.ctx x).used && !m.fieldStill

/-- A slot begins; how old the levels are that it reads is open within R332's bounds (log 3). -/
def slotBegin (x : Nat) (m : Mach) : Mach := m.free.2.updCtx x (fun c => { c with used := true, lag := 3 + m.free.1 % 3 })

/-- A slot of context x in which the word `op`, `w` is issued. Nothing happens unless the context issues in this round and
its program holds that word at PC; a word that is no instruction faults whatever row names it. -/
def turSlot (op x w : Nat) (f : Fetch) (unused : Nat) (run : Mach → SlotRes) (m : Mach) : Mach :=
  let e := x / 16
  if !slotOpen m x then m
  else
    let word := turWord m e (m.rd (R.CTX_PC x))
    let m0 := slotBegin x m
    let m1 := if f = .corrected then turRaise e 4 (m0.inc (R.TUR_CNT_ECC e)) else m0
    if f = .fatal then (ctxFault x 4 m0).alarm 6
    else if 0x18 ≤ word / 2 ^ 27 then ctxFault x 1 m1
    else if word ≠ op * 2 ^ 27 + w then m
    else
      if w &&& unused ≠ 0 then ctxFault x 1 m1
      else
        match run m1 with
        | .error cause => ctxFault x cause m1
        | .ok (.wait, m2) => m2.updCtx x (fun c => { c with stall := true })
        | .ok (r, m2) =>
          let pc := match r with
            | .jump t => t
            | _ => m.rd (R.CTX_PC x) + 1
          let m3 := (m2.wr (R.CTX_PC x) pc).updCtx x (fun c => { c with
            dly := bits 26 24 w
            stall := false
            wait := none
            got := none })
          if r = .done then ctxRaise x 8 ((m3.wr (R.CTX_RUN x) 0).wr (R.CTX_STATE x) 3) else m3

/-- Fields of a word. -/
def fRd (w : Nat) : Nat := bits 23 20 w
def fRs (w : Nat) : Nat := bits 19 16 w
def fRt (w : Nat) : Nat := bits 15 12 w
def fFn (w : Nat) : Nat := bits 11 8 w
def fImm (w : Nat) : Nat := bits 15 0 w
def fPin (w : Nat) : Nat := bits 23 21 w
def fFlag (w : Nat) : Nat := bits 15 10 w
def fN (w : Nat) : Nat := bits 4 0 w + 1
def fTarget (w : Nat) : Nat := bits 9 0 w

/-- Completes by writing a register. -/
def toReg (x r v : Nat) (m : Mach) : SlotRes := if regWritable r then .ok (.next, regWrite x r (v % 2 ^ 32) m) else .error 2

/-! ## Arithmetic -/

def turLdi (x w : Nat) (m : Mach) : SlotRes := toReg x (fRd w) (fImm w) m

def turLdhi (x w : Nat) (m : Mach) : SlotRes :=
  let r := regRead m x (fRd w)
  toReg x (fRd w) (fImm w * 2 ^ 16 + r.1 % 2 ^ 16) r.2

def turAddi (x w : Nat) (m : Mach) : SlotRes :=
  let r := regRead m x (fRs w)
  toReg x (fRd w) (r.1 + ofSigned 32 (toSigned 16 (fImm w))) r.2

/-- The 32 bits of a word reversed. -/
def bitRev32 (v : Nat) : Nat := (List.range 32).foldl (fun a i => if bit i v then a + 2 ^ (31 - i) else a) 0

/-- The 4 bytes of a word reversed. -/
def byteRev32 (v : Nat) : Nat := leNat (toBe 4 v)

def turMov (x w : Nat) (m : Mach) : SlotRes :=
  let r := regRead m x (fRs w)
  match fFn w with
  | 0 => toReg x (fRd w) r.1 r.2
  | 1 => toReg x (fRd w) (0xFFFFFFFF - r.1) r.2
  | 2 => toReg x (fRd w) (bitRev32 r.1) r.2
  | 3 => toReg x (fRd w) (byteRev32 r.1) r.2
  | _ => .error 1

/-- The ALU of FN (R327). -/
def turAluFn (fn a b : Nat) : Option Nat :=
  match fn with
  | 0 => some ((a + b) % 2 ^ 32)
  | 1 => some ((a + 2 ^ 32 - b) % 2 ^ 32)
  | 2 => some (a &&& b)
  | 3 => some (a ||| b)
  | 4 => some (a ^^^ b)
  | 5 => some (a * 2 ^ (b % 32) % 2 ^ 32)
  | 6 => some (a / 2 ^ (b % 32))
  | 7 => some (ofSigned 32 (toSigned 32 a / ((2 ^ (b % 32) : Nat) : Int)))
  | _ => none

def turAlu (x w : Nat) (m : Mach) : SlotRes :=
  let a := regRead m x (fRs w)
  let b := regRead a.2 x (fRt w)
  match turAluFn (fFn w) a.1 b.1 with
  | some v => toReg x (fRd w) v b.2
  | none => .error 1

/-- CRCS (R339). -/
def crcStep (width poly rs : Nat) : Nat → Nat → Nat
  | 0, rd => rd
  | n + 1, rd =>
    let fb := bit (width - 1) rd != bit n rs
    let r := rd * 2 % 2 ^ width
    crcStep width poly rs n (if fb then r ^^^ (poly % 2 ^ width) else r)

def turCrcs (x w : Nat) (m : Mach) : SlotRes :=
  let d := regRead m x (fRd w)
  let s := regRead d.2 x (fRs w)
  toReg x (fRd w) (crcStep (cfgCrcW (m.rd (R.CTX_CFG x))) (m.rd (R.CTX_CRC_POLY x)) s.1 (fN w) d.1) s.2

/-! ## Control flow -/

/-- A pin index must be bound. -/
def pinBound (m : Mach) (x i : Nat) : Bool := (pinChan m x i).isSome

/-- BR (R328). -/
def turBr (x w : Nat) (m : Mach) : SlotRes :=
  let cond := fRd w
  let sel := fFlag w
  let r := regRead m x (fRs w)
  let out (m : Mach) (b : Bool) : SlotRes := .ok (if b then .jump (fTarget w) else .next, m)
  let noRs := fRs w == 0
  let noSel := sel == 0
  match cond with
  | 0 => if noRs && noSel then out m true else .error 1
  | 1 => if noSel then out r.2 (r.1 == 0) else .error 1
  | 2 => if noSel then out r.2 (r.1 != 0) else .error 1
  | 3 =>
    if !noSel then .error 1
    else if 5 < fRs w then .error 2
    else if r.1 = 0 then out m false
    else out (regWrite x (fRs w) (r.1 - 1) m) true
  | 4 => if sel < 32 then out r.2 (bit sel r.1) else .error 1
  | 5 => if sel < 32 then out r.2 (!bit sel r.1) else .error 1
  | 6 => if !noRs || decide (7 < sel) then .error 1 else if pinBound m x sel then out m (pinLevel m x sel) else .error 3
  | 7 => if !noRs || decide (7 < sel) then .error 1 else if pinBound m x sel then out m (!pinLevel m x sel) else .error 3
  | 8 => if noRs && decide (sel < 48) then out m (flagRead m x sel) else .error 1
  | 9 => if noRs && decide (sel < 48) then out m (!flagRead m x sel) else .error 1
  | 10 => if noRs && noSel then out m (!(txSeen m x).isEmpty) else .error 1
  | 11 => if noRs && noSel then out m (!rxFull m x) else .error 1
  | _ => .error 1

def turJal (x w : Nat) (m : Mach) : SlotRes :=
  if regWritable (fRd w) then .ok (.jump (fTarget w), regWrite x (fRd w) (m.rd (R.CTX_PC x) + 1) m) else .error 2

def turJr (x w : Nat) (m : Mach) : SlotRes :=
  let r := regRead m x (fRs w)
  .ok (.jump (r.1 % 1024), r.2)

/-! ## Waits -/

/-- WAITPIN (R332): levels are tested in the slot; an edge counts once the wait has begun. -/
def turWaitpin (x w : Nat) (m : Mach) : SlotRes :=
  let i := fPin w
  let kind := bits 17 16 w
  if !pinBound m x i then .error 3
  else if kind < 2 then .ok (if pinLevel m x i == (kind == 1) then .next else .wait, m)
  else
    match (m.ctx x).wait, (m.ctx x).got with
    | some _, some (t, reach) => .ok (if reach ≤ m.now then (.next, m.wr (R.CTX_TS x) (t % 2 ^ 32)) else (.wait, m))
    | some _, none => .ok (.wait, m)
    | none, _ => .ok (.wait, m.updCtx x (fun c => { c with
      wait := some (i, kind == 2, m.now)
      got := edgeComing m x i (kind == 2) }))

def turWaitflag (x w : Nat) (m : Mach) : SlotRes :=
  let f := fFlag w
  let v := bit 9 w
  let consume := bit 8 w
  if 48 ≤ f ∨ (consume ∧ !v) then .error 1
  else if flagRead m x f = v ∧ !(consume && flagTaken m f) then .ok (.next, if consume then flagPut x f false true m else m)
  else .ok (.wait, m)

def turWaittime (x w : Nat) (m : Mach) : SlotRes :=
  let r := regRead m x (fRs w)
  let t := turTime r.2
  .ok (if (t.1 + 2 ^ 32 - r.1) % 2 ^ 32 < 2 ^ 31 then .next else .wait, t.2)

/-! ## Pins -/

/-- The pins of a mask are all bound. -/
def maskBound (m : Mach) (x mask : Nat) : Bool := (List.range 8).all (fun i => !bit i mask || pinBound m x i)

def turSetpin (x w : Nat) (m : Mach) : SlotRes :=
  let mask := bits 15 8 w
  let v := bits 7 0 w
  if !maskBound m x mask then .error 3
  else
    let merge (old : Nat) : Nat := (List.range 8).foldl (fun a i => if bit i mask then putBit i (bit i v) a else a) old
    .ok (.next, if bit 16 w then setDirs x (merge (m.ctx x).dirs) m else setPins x (merge (m.ctx x).pins) m)

/-- The absolute instant that a 32-bit fine time names (R333). -/
def nearInstant (now8 v : Nat) : Nat :=
  let d := (v % 2 ^ 32 + 2 ^ 32 - now8 % 2 ^ 32) % 2 ^ 32
  if d < 2 ^ 31 then now8 + d else now8 + d - 2 ^ 32

/-- OUTAT: the edge is armed within 16 T; in which of these ticks is open (R333, log 3). -/
def turOutat (x w : Nat) (m : Mach) : SlotRes :=
  let i := fPin w
  if !pinBound m x i then .error 3
  else if 2 ≤ (m.ctx x).timed.length then .ok (.wait, m)
  else
    let r := regRead m x (fRs w)
    let e : TimedEdge := { pin := i, t := nearInstant m.now8 r.1, on := bit 0 w, arm := m.now + r.2.free.1 % 17 }
    .ok (.next, r.2.free.2.updCtx x (fun c => { c with timed := edgesArm m.now (c.timed ++ [e]) }))

/-! ## Shift registers (R337, R338) -/

/-- The next n bits of OSR in the order taken; bits past OSC read 0. -/
def osrBits (m : Mach) (x n : Nat) : List Bool :=
  let v := m.rd (R.CTX_OSR x)
  let msb := cfgOutMsb (m.rd (R.CTX_CFG x))
  (List.range n).map (fun k => decide (k < ctxOsc m x) && (if msb then bit (31 - k) v else bit k v))

/-- OSR after n bits are taken. -/
def osrShift (x n : Nat) (m : Mach) : Mach :=
  let v := m.rd (R.CTX_OSR x)
  let msb := cfgOutMsb (m.rd (R.CTX_CFG x))
  setOsc x (ctxOsc m x - n) (m.wr (R.CTX_OSR x) (if msb then v * 2 ^ n % 2 ^ 32 else v / 2 ^ n))

/-- TXQ_UNDER and its event. -/
def txUnder (x : Nat) (m : Mach) : Mach := ctxRaise x 6 (m.putBit (R.CTX_STICKY x) 0 true)

/-- Refills OSR when it holds fewer than n bits; none is a stall. -/
def osrReady (x n : Nat) (m : Mach) : Option Mach :=
  if n ≤ ctxOsc m x ∨ !cfgOutAuto (m.rd (R.CTX_CFG x)) then some m
  else
    match txSeen m x with
    | [] => none
    | e :: _ => some (osrLoad x e.v (txTake x m))

/-- A stall on an empty TX queue: TXQ_UNDER when it begins. -/
def osrStall (x : Nat) (m : Mach) : SlotRes := .ok (.wait, if (m.ctx x).stall then m else txUnder x m)

def turShout (x w : Nat) (m : Mach) : SlotRes :=
  let n := fN w
  let p := fPin w
  if 8 < p + n ∨ !(List.range n).all (fun k => pinBound m x (p + k)) then .error 3
  else
    match osrReady x n m with
    | none => osrStall x m
    | some m1 =>
      let bs := osrBits m1 x n
      let pins := (bs.zipIdx).foldl (fun a b => putBit (p + b.2) b.1 a) (m1.ctx x).pins
      .ok (.next, setPins x pins (osrShift x n m1))

def turTake (x w : Nat) (m : Mach) : SlotRes :=
  let n := fN w
  if !regWritable (fRd w) then .error 2
  else
    match osrReady x n m with
    | none => osrStall x m
    | some m1 =>
      let v := (osrBits m1 x n).foldl (fun a b => 2 * a + boolNat b) 0
      let r := regRead m1 x (fRd w)
      .ok (.next, regWrite x (fRd w) ((r.1 * 2 ^ n + v) % 2 ^ 32) (osrShift x n r.2))

/-- Bits entering ISR, and the automatic store. -/
def isrShift (x : Nat) (bs : List Bool) (m : Mach) : Mach :=
  let cfg := m.rd (R.CTX_CFG x)
  let v := bs.foldl (fun a b =>
    if cfgInMsb cfg then (2 * a + boolNat b) % 2 ^ 32 else a / 2 + boolNat b * 2 ^ 31) (m.rd (R.CTX_ISR x))
  let m1 := setIsc x (min 32 (ctxIsc m x + bs.length)) (m.wr (R.CTX_ISR x) v)
  if cfgInAuto cfg && decide (cfgInBits cfg ≤ ctxIsc m1 x) then
    setIsc x 0 ((rxPut x (isrAligned m1 x) m1).wr (R.CTX_ISR x) 0)
  else m1

/-- The shift would store into a full RX queue. -/
def isrBlocked (m : Mach) (x n : Nat) : Bool :=
  cfgInAuto (m.rd (R.CTX_CFG x)) && decide (cfgInBits (m.rd (R.CTX_CFG x)) ≤ min 32 (ctxIsc m x + n)) && rxFull m x

def turShin (x w : Nat) (m : Mach) : SlotRes :=
  let n := fN w
  let p := fPin w
  if 8 < p + n ∨ !(List.range n).all (fun k => pinBound m x (p + k)) then .error 3
  else if isrBlocked m x n then .ok (.wait, m)
  else .ok (.next, isrShift x ((List.range n).map (fun k => pinLevel m x (p + k))) m)

def turGive (x w : Nat) (m : Mach) : SlotRes :=
  let n := fN w
  if isrBlocked m x n then .ok (.wait, m)
  else
    let r := regRead m x (fRs w)
    .ok (.next, isrShift x ((List.range n).map (fun k => bit (n - 1 - k) r.1)) r.2)

/-! ## PUSH and PULL (R341) -/

def turPush (x w : Nat) (m : Mach) : SlotRes :=
  if rxFull m x then
    if bit 0 w then .ok (.next, ctxRaise x 7 (m.putBit (R.CTX_STICKY x) 1 true)) else .ok (.wait, m)
  else
    let r := regRead m x (fRs w)
    let m1 := rxPut x r.1 r.2
    .ok (.next, if fRs w = 6 then setIsc x 0 (m1.wr (R.CTX_ISR x) 0) else m1)

def turPull (x w : Nat) (m : Mach) : SlotRes :=
  if !regWritable (fRd w) then .error 2
  else
    match txSeen m x with
    | [] => if bit 0 w then .ok (.next, txUnder x m) else .ok (.wait, m)
    | e :: _ => .ok (.next, regWrite x (fRd w) e.v (txTake x m))

/-! ## FLAG, SIGNAL -/

def turFlag (x w : Nat) (m : Mach) : SlotRes :=
  let f := fFlag w
  if 48 ≤ f then .error 1
  else
    match bits 1 0 w with
    | 0 => .ok (.next, flagPut x f false false m)
    | 1 => .ok (.next, flagPut x f true false m)
    | 2 => .ok (.next, flagPut x f (!flagRead m x f) false m)
    | _ => .error 1

def turSignal (x w : Nat) (m : Mach) : SlotRes := .ok (.next, ctxRaise x (bits 1 0 w) m)

/-! ## Engines and contexts: starts, stops and the round boundary (R346, R348, R349) -/

def ctxsOf (e : Nat) : List Nat := (List.range 16).map (fun c => 16 * e + c)

/-- TUR_RUN written 1. -/
def turRunOnEffect (e : Nat) (m : Mach) : Mach :=
  let m1 := m.wr (R.TUR_RUN e) 1
  if (m.engine e).st = 0 ∧ !m.inHold ∧ !m.pwr.fSleep then govRequest (.tur e) (m1.setEngine e { st := 1 }) else m1

/-- TUR_RUN written 0. -/
def turRunOffEffect (e : Nat) (m : Mach) : Mach :=
  let m1 := m.wr (R.TUR_RUN e) 0
  if (m.engine e).st = 1 then govWithdraw (.tur e) (m1.setEngine e {}) else m1

/-- A start from the entry point (R348). -/
def ctxStart (x : Nat) (m : Mach) : Mach :=
  let init := m.rd (R.CTX_PIN_INIT x)
  let m1 := m.dflts [R.CTX_ISR x, R.CTX_OSR x, R.CTX_SHCNT x, R.CTX_TS x]
  let m2 := ((m1.wr (R.CTX_PC x) (m.rd (R.CTX_ENTRY x))).wr (R.CTX_GEN x) (m.rd (R.TUR_PROG_GEN (x / 16)))).wr
    (R.CTX_RESTART x) 0
  pinsDrive x ((m2.wr (R.CTX_STATE x) 1).updCtx x (fun c => { c with
    dirs := init / 256
    pins := init % 256
    dly := 0
    wait := none
    got := none
    stall := false }))

/-- A pause discards the context's timed edges; which of those within 16 T still play is open (R349, log 3). -/
def ctxPause (x : Nat) (m : Mach) : Mach :=
  let kept (l : List TimedEdge) : List TimedEdge :=
    (l.zipIdx.filter (fun e => decide (e.1.t ≤ m.now8 + 128) && bit e.2 m.free.1)).map (·.1)
  (m.free.2.wr (R.CTX_STATE x) 2).updCtx x (fun c => { c with timed := kept c.timed })

/-- A context at a round boundary of its running engine. -/
def ctxBoundary (x : Nat) (m : Mach) : Mach :=
  let st := m.ctxState x
  if m.on (R.CTX_RUN x) then
    if st = 0 ∨ st = 3 ∨ st = 4 then ctxStart x m
    else if st = 2 then
      if m.on (R.CTX_RESTART x) then ctxStart x m
      else if m.rd (R.CTX_GEN x) = m.rd (R.TUR_PROG_GEN (x / 16)) then m.wr (R.CTX_STATE x) 1
      else ctxRaise x 10 ((m.wr (R.CTX_RUN x) 0).putBit (R.CTX_STICKY x) 2 true)
    else m
  else if st = 1 then ctxPause x m
  else m

/-- A running context's slot of the new round: an idle one of its DLY, or one in which it issues. -/
def ctxRound (x : Nat) (m : Mach) : Mach :=
  if m.ctxState x = 1 then m.updCtx x (fun c => { c with dly := c.dly - 1, used := decide (0 < c.dly) }) else m

/-- ROUND_BOUNDARY of an engine. -/
def turRound (e : Nat) (m : Mach) : Mach :=
  let x := m.engine e
  if m.fieldStill then m
  else if x.st = 2 ∧ !m.on (R.TUR_RUN e) then
    let m1 := m.each (ctxsOf e) (fun x m => if m.ctxState x = 1 then ctxPause x m else m)
    turRaise e 1 (m1.setEngine e {})
  else if x.st = 2 ∨ (x.st = 1 ∧ x.granted) then
    let m1 := if x.st = 1 then turRaise e 0 (m.setEngine e { x with st := 2, granted := false }) else m
    let m2 := (m1.each (ctxsOf e) ctxBoundary).each (ctxsOf e) ctxRound
    m2.setEngine e { m2.engine e with n := ((ctxsOf e).filter (fun x => m2.ctxState x == 1)).length }
  else m

/-- UNIT, HOLD or SLEEP entry: every context to IDLE, its queues flushed and its timed edges discarded. -/
def turStop (e : Nat) (m : Mach) : Mach :=
  let m1 := govWithdraw (.tur e) (m.setEngine e {})
  m1.each (ctxsOf e) (fun x m =>
    ((pinsDark x m).wr (R.CTX_STATE x) 0).updCtx x (fun c => { c with
      tx := []
      rx := []
      timed := []
      claim := false
      dly := 0
      wait := none
      got := none
      stall := false }))

/-- HOLD or SLEEP entry: DIRS and PINS, of class V, read 0 again; the pins that were outputs stand at their safe level (R18, R347). -/
def tursHalt (m : Mach) : Mach :=
  (m.each (List.range 8) turStop).each (m.ctxs.map (·.1)) (fun x m => m.updCtx x (fun c => { c with dirs := 0, pins := 0, lv := 0 }))

/-- Return to RUN: engines whose TUR_RUN reads 1 start through the governor (R351). -/
def tursRestart (m : Mach) : Mach := m.each (List.range 8) (fun e m => if m.on (R.TUR_RUN e) then turRunOnEffect e m else m)

/-- A Keep debug halt discards the timed edges not yet played; at its end the pins stand as the contexts have them (R351). -/
def tursDapHalt (m : Mach) : Mach :=
  let l := (m.ctxs.filter (fun e => !e.2.drive.isEmpty)).map (·.1)
  Mach.each l pinsDrive { m with ctxs := m.ctxs.map (fun e => (e.1, { e.2 with timed := [] })) }

/-- CTX_RUN = 1 may be accepted (R330, R353). -/
def ctxRunOk (m : Mach) (x : Nat) : Bool :=
  decide (m.rd (R.CTX_ENTRY x) < m.rd (R.TUR_PROG_LEN (x / 16))) &&
  (List.range 8).all (fun i =>
    match pinChan m x i with
    | none => true
    | some c =>
      m.chMode c == 9 &&
      (List.range 128).all (fun y =>
        y == x || m.ctxState y == 0 || (List.range 8).all (fun k => pinChan m y k != some c)))

/-- A CTX_RUN write. -/
def setCtxRun (x : Nat) (v : Bool) (m : Mach) : Eff :=
  if v && !ctxRunOk m x then .error .range
  else .ok ((m.wr (R.CTX_RUN x) (boolNat v)).updCtx x (fun c => { c with claim := v }))

/-- CTX_CMD RELEASE. -/
def ctxRelease (x : Nat) (m : Mach) : Mach :=
  let st := m.ctxState x
  if st = 2 ∨ st = 3 ∨ st = 4 then ((pinsDark x m).wr (R.CTX_STATE x) 0).updCtx x (fun c => { c with timed := [], claim := false }) else m

/-- CTX_CMD CLEAR. -/
def ctxCounters (x : Nat) : List Obj := [R.CTX_CNT_LATE x, R.CTX_CNT_TX_DROP x]

/-- A context claims its channels, from an accepted CTX_RUN write until it next enters IDLE (R226, R330, R347). -/
def ctxClaims (m : Mach) (x : Nat) : Bool := m.ctxState x != 0 || (m.ctx x).claim

/-- N and I of an engine's round; an engine that issues in none has neither (R321, R322). -/
def turActive (m : Mach) (e : Nat) : Nat := (m.engine e).n
def turInterval (m : Mach) (e : Nat) : Nat := if (m.engine e).st = 2 then max 4 (m.engine e).n else 0

end Sys2Proof.Machine
end

