-- ==== Sys2Proof/Machine/Wheel.lean ====
section
/-! DEFINITION. Wheel decoders (chapter 4): tooth tables, edge validation, virtual teeth, the reference search, direction,
the estimator, stall and freewheel, plausibility pairs. Times are in ticks as exact rationals, positions in ANG32 with whole
cycles. What bound units must act on is noted in `notes`. -/

namespace Sys2Proof.Machine

def Mach.whl (m : Mach) (d : Nat) : Whl := mapGet {} d m.whls

def Mach.setWhl (d : Nat) (x : Whl) (m : Mach) : Mach := { m with whls := mapSet {} d x m.whls }

def Mach.updWhl (d : Nat) (f : Whl → Whl) (m : Mach) : Mach := m.setWhl d (f (m.whl d))

def Mach.note (n : Note) (m : Mach) : Mach := { m with notes := m.notes ++ [n] }

/-- Raises decoder event `b` on source 128 + d (R147). -/
def whlRaise (d b : Nat) (m : Mach) : Mach := m.raise (R.WHL_EVT d) (R.WHL_EVT_EN d) b (128 + d)

def Mach.whlState (m : Mach) (d : Nat) : Nat := m.rd (R.WHL_STATE d)

/-! ## WHL_MODE -/

def whlQuad (m : Mach) (d : Nat) : Bool := bit 0 (m.rd (R.WHL_MODE d))
def whlDirPol (m : Mach) (d : Nat) : Bool := bit 4 (m.rd (R.WHL_MODE d))
def whlIdxFall (m : Mach) (d : Nat) : Bool := bit 5 (m.rd (R.WHL_MODE d))
def whlEdgeSel (m : Mach) (d : Nat) : Nat := bits 7 6 (m.rd (R.WHL_MODE d))
def whlRefMode (m : Mach) (d : Nat) : Nat := bits 9 8 (m.rd (R.WHL_MODE d))
def whlDirSrc (m : Mach) (d : Nat) : Nat := bits 11 10 (m.rd (R.WHL_MODE d))

/-! ## Tooth tables (R107 to R111) -/

/-- One pattern cycle in ANG32. -/
def cycle32 : Int := 4294967296

/-- ANGLE and the flag word of entry i of a table's content. -/
def entryAngle (t : List Byte) (i : Nat) : Nat := fieldAt (8 * i) 4 t
def entryFlags (t : List Byte) (i : Nat) : Nat := fieldAt (8 * i + 4) 4 t

def tblUniform (t : List Byte) : Bool := bit 31 (entryFlags t 0)

/-- Teeth per cycle. -/
def tblTeeth (t : List Byte) : Nat := if tblUniform t then bits 27 12 (entryFlags t 0) else t.length / 8

/-- Angle of tooth i, taken modulo the number of teeth. -/
def tblAngle (t : List Byte) (i : Nat) : Nat :=
  let n := tblTeeth t
  if tblUniform t then (entryAngle t 0 + i % n * 2 ^ 32 / n) % 2 ^ 32 else entryAngle t (i % n)

/-- The span that ends at tooth i, from the tooth before it. -/
def tblSpan (t : List Byte) (i : Nat) : Nat :=
  let n := tblTeeth t
  if n ≤ 1 then 2 ^ 32 else (tblAngle t i + 2 ^ 32 - tblAngle t (i + n - 1)) % 2 ^ 32

def tblGap (t : List Byte) (i : Nat) : Bool := !tblUniform t && bit 0 (entryFlags t (i % tblTeeth t))

def tblRef (t : List Byte) (i : Nat) : Bool :=
  if tblUniform t then i % tblTeeth t == 0 && bit 1 (entryFlags t 0) else bit 1 (entryFlags t (i % tblTeeth t))

def tblPol (t : List Byte) (i : Nat) : Nat :=
  bits 3 2 (entryFlags t (if tblUniform t then 0 else i % tblTeeth t))

/-- The GAP entries and the REF entry. -/
def tblGaps (t : List Byte) : List Nat := (List.range (tblTeeth t)).filter (tblGap t)
def tblRefIdx (t : List Byte) : Option Nat := (List.range (tblTeeth t)).find? (tblRef t)

/-- The ratio of a GAP entry's span to the span before it, forward or in the mirrored table (R124, R131, R133). -/
def gapRatio (t : List Byte) (mirror : Bool) (g : Nat) : Rat :=
  if mirror then (tblSpan t g : Rat) / (tblSpan t (g + 1) : Rat)
  else (tblSpan t g : Rat) / (tblSpan t (g + tblTeeth t - 1) : Rat)

/-- The rules of R108 and R109 for one entry of a table of n entries. -/
def entryOk (t : List Byte) (n i : Nat) : Bool :=
  let f := entryFlags t i
  bits 30 28 f == 0 && bits 11 4 f == 0 && bits 3 2 f != 3 &&
  (if bit 31 f then n == 1 && bits 27 12 f != 0 && !bit 0 f else bits 27 12 f == 0) &&
  (if i + 1 < n then decide (entryAngle t i + 0x10000 ≤ entryAngle t (i + 1))
   else n == 1 || decide (entryAngle t i + 0x10000 ≤ entryAngle t 0 + 2 ^ 32))

/-- A table commits only if R109 holds; an empty content deletes the table (R107). -/
def tblOk (t : List Byte) : Bool :=
  let n := t.length / 8
  (List.range n).all (entryOk t n) && decide (((List.range n).filter (fun i => bit 1 (entryFlags t i))).length ≤ 1)

/-- The committed table of a decoder. -/
def whlTbl (m : Mach) (d : Nat) : List Byte := mapGet [] (R.WHL_TOOTH_TBL d).key m.dic.doms

/-- A committed write of a decoder's table. -/
def whlCommit (d : Nat) (t : List Byte) (m : Mach) : Mach :=
  ({ m with dic := { m.dic with doms := mapSet [] (R.WHL_TOOTH_TBL d).key t m.dic.doms } }).wr (R.WHL_TBL_LEN d)
    (t.length / 8)

/-! ## The estimator (R137 to R139) -/

/-- Position, speed and acceleration at tick t of the motion that starts at a tooth. -/
def toothAt (h : Tooth) (t : Rat) : Rat := (h.p : Rat) + h.om * (t - h.t) + h.al * (t - h.t) * (t - h.t) / 2

/-- ω and α after a tooth at t with span a, from the teeth before it. -/
def estimate (t : Rat) (a : Int) : List Tooth → Rat × Rat
  | h2 :: h1 :: h0 :: _ =>
    let v3 := (a : Rat) / (t - h2.t)
    let v2 := (h2.a : Rat) / (h2.t - h1.t)
    let v1 := (h1.a : Rat) / (h1.t - h0.t)
    let al := (v3 - v2) / (t - h1.t) + (v2 - v1) / (h2.t - h0.t)
    (v3 + al * (t - h2.t) / 2, al)
  | h :: _ => ((a : Rat) / (t - h.t), 0)
  | [] => (0, 0)

/-- A validated tooth enters the history. -/
def toothPush (t : Rat) (a p : Int) (l : List Tooth) : List Tooth :=
  let e := estimate t a l
  (⟨t, a, p, e.1, e.2⟩ :: l).take 4

/-- The sign of a rational agrees with the sign of a span. -/
def sameSign (r : Rat) (a : Int) : Bool := (decide (0 < r) && decide (0 < a)) || (decide (r < 0) && decide (a < 0))

/-- The predicted interval of the next entry, whose span is `a`; none without an interval (R137, R553). -/
def predict (l : List Tooth) (a : Int) : Option Rat :=
  match l with
  | h :: h' :: _ =>
    if sameSign h.om a then
      let d0 := (a : Rat) / h.om
      let w := h.om + h.al * d0 / 2
      some (if sameSign w a then (a : Rat) / w else d0)
    else
      let v3 := (h.a : Rat) / (h.t - h'.t)
      if v3 = 0 then none else some (if (a : Rat) / v3 < 0 then -((a : Rat) / v3) else (a : Rat) / v3)
  | _ => none

/-- The next entry and the signed span to it (R133). -/
def nextEntry (t : List Byte) (k : Nat) (back : Bool) : Nat × Int :=
  let n := max 1 (tblTeeth t)
  if back then ((k + n - 1) % n, -(tblSpan t k : Int)) else ((k + 1) % n, (tblSpan t (k + 1) : Int))

/-- The prediction is renewed from the last tooth. -/
def whlPredict (d : Nat) (m : Mach) : Mach :=
  m.updWhl d (fun x => { x with dp := predict x.hist (nextEntry (whlTbl m d) x.k x.back).2 })

/-! ## Published position (R136, R140, R141) -/

/-- The motion of a real decoder at tick t without the hold: position, speed, acceleration. -/
def whlMotion (m : Mach) (d : Nat) (t : Rat) : Option (Rat × Rat × Rat) :=
  let x := m.whl d
  match m.whlState d, x.hist, x.fw with
  | 4, _, some (p, t0, w) => some (p + w * (t - t0), w, 0)
  | 5, h :: _, _ => some ((h.p : Rat), 0, 0)
  | 2, h :: _, _ => some (toothAt h t, h.om + h.al * (t - h.t), h.al)
  | 3, h :: _, _ => some (toothAt h t, h.om + h.al * (t - h.t), h.al)
  | _, _, _ => none

/-- The position at a past instant by the teeth in force then; none where the history does not reach back (R39, R141). -/
def whlPast (m : Mach) (d : Nat) (t : Rat) : Option Rat :=
  match m.whlState d with
  | 2 => past
  | 3 => past
  | _ => (whlMotion m d t).map (·.1)
where past := ((m.whl d).hist.find? (fun h => decide (h.t ≤ t))).map (fun h => toothAt h t)

/-- WHL_POS at the current tick: held before the next expected entry (R140), the exact position rounded down (log 60). -/
def whlPosNow (m : Mach) (d : Nat) : Int :=
  let x := m.whl d
  match whlMotion m d (m.now : Rat) with
  | none => x.pub
  | some (p, _, _) =>
    if m.whlState d = 2 ∨ m.whlState d = 3 then
      let hold : Int := x.pos + (nextEntry (whlTbl m d) x.k x.back).2
      if x.back then max p.floor hold else min p.floor hold
    else p.floor

/-- The angle is published (R112). -/
def whlPublished (m : Mach) (d : Nat) : Bool := decide (2 ≤ m.whlState d)

def whlAngle (m : Mach) (d : Nat) : Nat := if whlPublished m d then ofSigned 32 (whlPosNow m d) else 0

/-- Keeps the last position published before the angle becomes invalid or is replaced (R130). -/
def whlMark (d : Nat) (m : Mach) : Mach :=
  if whlPublished m d then m.updWhl d (fun x => { x with pub := whlPosNow m d }) else m

/-- The whole-cycle part that puts an angle within half a cycle of q (R130). -/
def nearCycle (q : Int) (ang : Nat) : Int :=
  q + ((ang - q + 2147483648) % cycle32 - 2147483648)

/-! ## Plausibility pairs (R142 to R144) -/

/-- The partner of decoder d, if it has one. -/
def whlPartner (m : Mach) (d : Nat) : Option Nat :=
  if m.rd (R.WHL_PLAUS_PARTNER d) < 16 then some (m.rd (R.WHL_PLAUS_PARTNER d)) else none

/-- Arming and disarming of decoder d's pair: it arms when both are LOCKED for the first time after an enable of either. -/
def plausArm (d : Nat) (m : Mach) : Mach :=
  match whlPartner m d with
  | none => m.updWhl d (fun x => { x with plausArmed := false })
  | some e =>
    let off (i : Nat) : Bool := m.whlState i == 0 || m.whlState i == 5
    if m.whlState d = 3 ∧ m.whlState e = 3 then
      m.updWhl d (fun x => { x with plausArmed := x.plausArmed || x.plausWait, plausWait := false })
    else if off d && off e then m.updWhl d (fun x => { x with plausArmed := false })
    else m

/-- A check of decoder d's pair fails. -/
def plausFails (m : Mach) (d e : Nat) : Bool :=
  let want : Rat := (whlPosNow m d : Rat) * (m.rdI 32 (R.WHL_PLAUS_NUM d) : Rat) / (max 1 (m.rd (R.WHL_PLAUS_DEN d)) : Rat)
    + (m.rdI 64 (R.WHL_PLAUS_OFFSET d) : Rat)
  let diff : Rat := (whlAngle m e : Rat) - want
  -- the signed 32-bit difference
  let err : Rat := diff - (cycle32 : Rat) * (((diff + 2147483648) / (cycle32 : Rat)).floor : Rat)
  decide ((m.whlState d = 3) ≠ (m.whlState e = 3)) ||
  decide ((m.rd (R.WHL_PLAUS_TOL d) : Rat) < err) || decide (err < -(m.rd (R.WHL_PLAUS_TOL d) : Rat))

/-- One check of an armed pair. -/
def plausRun (d : Nat) (m : Mach) : Mach :=
  match whlPartner m d with
  | none => m
  | some e =>
    if (m.whl d).plausArmed && plausFails m d e then
      (whlRaise d 7 ((m.updWhl d (fun x => { x with plausFault := true })).inc (R.WHL_CNT_PLAUS d))).alarm 13
    else m

/-- The pairs that decoder d belongs to. -/
def plausPairs (m : Mach) (d : Nat) : List Nat := (List.range 16).filter (fun x => x == d || whlPartner m x == some d)

/-! ## State, direction and losses (R113, R114, R131 to R136) -/

/-- Enters a state: STATE, LOCK, and the notes and arming that follow. -/
def whlEnter (d st : Nat) (m : Mach) : Mach :=
  let old := m.whlState d
  if old = st then m
  else
    let m1 := whlRaise d 0 (m.wr (R.WHL_STATE d) st)
    let m2 := if st = 3 then whlRaise d 1 m1 else m1
    (m2.each (plausPairs m2 d) plausArm).note (.state d old st)

/-- Sets WHL_DIR. -/
def whlSetDir (d v : Nat) (m : Mach) : Mach :=
  let old := m.rd (R.WHL_DIR d)
  if old = v then m else (whlRaise d 4 (m.wr (R.WHL_DIR d) v)).note (.dir d old v)

/-- One tooth of direction evidence (R132). -/
def whlEvidence (d : Nat) (rev : Bool) (m : Mach) : Mach :=
  let x := m.whl d
  let n := if x.runRev = rev then x.run + 1 else 1
  let m1 := m.setWhl d { x with run := n, runRev := rev }
  if m.rd (if rev then R.WHL_REV_CONFIRM d else R.WHL_FWD_CONFIRM d) ≤ n then whlSetDir d (if rev then 2 else 1) m1 else m1

/-- HUNT: the search starts afresh and the angle is invalid. -/
def whlToHunt (d : Nat) (m : Mach) : Mach :=
  let m1 := (whlMark d m).updWhl d (fun x => { x with
    hunt := []
    cands := []
    gapAt := none
    idxWait := []
    refOpen := none
    fw := none
    dp := none
    speedOk := false })
  whlEnter d 1 m1

/-- A sync-loss cause (R113, R114). -/
def whlLoss (d : Nat) (m : Mach) : Mach :=
  let st := m.whlState d
  if st ≠ 2 ∧ st ≠ 3 then m
  else
    let m1 := whlMark d (whlRaise d 2 (m.inc (R.WHL_CNT_SYNCLOSS d)))
    let x := m1.whl d
    match x.hist with
    | h :: _ =>
      if st = 3 ∧ m.rd (R.WHL_FW_TEETH d) ≠ 0 ∧ x.speedOk ∧ h.om ≠ 0 then
        whlEnter d 4 (m1.setWhl d { x with
          fw := some ((x.pub : Rat), (m.now : Rat), h.om)
          hunt := []
          cands := []
          gapAt := none
          idxWait := []
          refOpen := none
          dp := none })
      else whlToHunt d m1
    | [] => whlToHunt d m1

/-- STALL (R135): the angle returns to the last validated tooth. -/
def whlStall (d : Nat) (m : Mach) : Mach :=
  let st := m.whlState d
  if st = 2 ∨ st = 3 ∨ st = 4 then
    let m1 := m.updWhl d (fun x => { x with
      pos := (x.hist.head?.map (·.p)).getD x.pos
      k := x.realK
      acc := 0
      pub := (x.hist.head?.map (·.p)).getD x.pos
      fw := none
      dp := none
      stalled := true
      speedOk := false
      virtual := false
      fail := 0
      virt := 0
      run := 0
      lastInt := none
      idxWait := []
      refOpen := none })
    whlEnter d 5 (whlSetDir d 0 (whlRaise d 3 (m1.inc (R.WHL_CNT_STALL d))))
  else m

/-- A stall in the tick of a sync-loss cause: the stall is the one transition, and the loss is counted (R114). -/
def whlLossStall (d : Nat) (m : Mach) : Mach := whlStall d (whlRaise d 2 (m.inc (R.WHL_CNT_SYNCLOSS d)))

/-- FREEWHEEL_EXPIRY (R136). -/
def whlFwExpiry (d : Nat) (m : Mach) : Mach := if m.whlState d = 4 then whlToHunt d m else m

/-- The tick at which the freewheel of a decoder ends. -/
def whlFwEnd (m : Mach) (d : Nat) : Option Rat :=
  (m.whl d).fw.map (fun f =>
    let w := if f.2.2 < 0 then -f.2.2 else f.2.2
    f.2.1 + (m.rd (R.WHL_FW_TEETH d) : Rat) * (cycle32 : Rat) / ((tblTeeth (whlTbl m d) : Rat) * w))

/-! ## References (R124 to R129) -/

/-- LOCKED when enough reference checks passed; without a reference a check is three consecutive real teeth (R128). It is asked at a
validated tooth, so an entry from FREEWHEEL or LOST with SYNC_CONFIRM 0 locks at the next one (DESIGN CHOICE, log 65). -/
def whlConfirm (d : Nat) (m : Mach) : Mach :=
  let need := (if whlRefMode m d = 0 then 3 else 1) * m.rd (R.WHL_SYNC_CONFIRM d)
  if m.whlState d = 2 ∧ need ≤ (m.whl d).checks then whlEnter d 3 m else m

/-- A REF passage whose index came. In REF_MODE INDEX it counts beside the passage of a GAP entry: an entry with both flags counts twice
(DESIGN CHOICE, log 65). -/
def whlRefGood (d : Nat) (m : Mach) : Mach :=
  let m1 := m.updWhl d (fun x => { x with idxMiss := 0 })
  if m.whlState d = 2 ∧ whlRefMode m d = 2 then whlConfirm d (m1.updWhl d (fun x => { x with checks := x.checks + 1 })) else m1

/-- An index event that belongs to no REF edge that has come: where the next entry is REF its edge will judge the event, else an event in
LOCKED is misplaced, a sync-loss cause at once (R129). -/
def whlIndexAlone (d : Nat) (t : Rat) (m : Mach) : Mach :=
  let x := m.whl d
  if m.whlState d = 3 ∧ !tblRef (whlTbl m d) (nextEntry (whlTbl m d) x.k x.back).1 then whlLoss d m
  else m.setWhl d { x with idxWait := x.idxWait ++ [t] }

/-- An index event while tracking: good when it falls within half an interval of the last REF edge (R129). -/
def whlIndex (d : Nat) (t : Rat) (m : Mach) : Mach :=
  let m1 := m.updWhl d (fun x => { x with idxAt := some t })
  if (m.whlState d = 2 ∨ m.whlState d = 3) ∧ 2 ≤ whlRefMode m d then
    match (m.whl d).refOpen with
    | some (half, got) =>
      if t - (m.whl d).prev ≤ half then
        let m2 := m1.updWhl d (fun x => { x with refOpen := some (half, true) })
        if got then m2 else whlRefGood d m2
      else whlIndexAlone d t m1
    | none => whlIndexAlone d t m1
  else m1

/-- The index checks at a tooth at t with interval `int`, which is the REF entry when `ref`: the last passage is judged,
then the events since the last tooth. Says whether sync was lost. -/
def whlRefChecks (d : Nat) (t int : Rat) (ref : Bool) (m : Mach) : Bool × Mach :=
  if whlRefMode m d < 2 then (false, m)
  else
    let locked := m.whlState d == 3
    let missed := match (m.whl d).refOpen with
      | some (_, got) => !got && locked
      | none => false
    let m1 := m.updWhl d (fun x => { x with refOpen := none, idxMiss := x.idxMiss + boolNat missed })
    let m2 := if missed then m1.inc (R.WHL_CNT_IDX_MISS d) else m1
    if missed && decide (m.rd (R.WHL_IDX_MISS_MAX d) ≤ (m2.whl d).idxMiss) then (true, whlLoss d m2)
    else
      let waits := (m2.whl d).idxWait
      let near := waits.filter (fun e => ref && decide (t - e ≤ int / 2))
      let m3 := m2.updWhl d (fun x => { x with idxWait := [] })
      if locked && decide (near.length < waits.length) then (true, whlLoss d m3)
      else if ref then
        let m4 := m3.updWhl d (fun x => { x with refOpen := some (int / 2, !near.isEmpty) })
        (false, if near.isEmpty then m4 else whlRefGood d m4)
      else (false, m3)

/-! ## Noise and rejections (R116, R119, R120) -/

/-- The noise blank for a predicted interval (R116, R553). -/
def whlBlank (m : Mach) (d : Nat) (dp : Option Rat) : Rat :=
  let base : Rat := max (1 / 8) (m.rd (R.WHL_BLANK_MIN d) : Rat)
  match dp with
  | some p => max base ((m.rd (R.WHL_BLANK_FRAC d) : Rat) / 256 * p)
  | none => base

def whlNoise (d : Nat) (m : Mach) : Mach := whlRaise d 6 (m.inc (R.WHL_CNT_NOISE d))

/-- The evidence of an edge under QUAD, PIN and NONE; none under PATTERN (R131). -/
def whlEdgeDir (m : Mach) (d : Nat) (rev : Bool) : Option Bool :=
  match whlDirSrc m d with
  | 0 => some false
  | 3 => none
  | _ => some rev

/-! ## Entering SYNC_PENDING (R113, R130, R139) -/

/-- A reference candidate: the edge at t is entry k; `int` is the interval that ended there, where it counts. -/
def whlSync (d k : Nat) (t : Rat) (back : Bool) (int : Option Rat) (m : Mach) : Mach :=
  let m0 := whlMark d m
  let x := m0.whl d
  let tbl := whlTbl m d
  let ang := tblAngle tbl k
  let p : Int := if x.found then nearCycle x.pub ang else (ang : Int)
  let a : Int := if back then -(tblSpan tbl (k + 1) : Int) else (tblSpan tbl k : Int)
  let hist := match int with
    | none => [(⟨t, 0, p, 0, 0⟩ : Tooth)]
    | some i => [⟨t, a, p, (a : Rat) / i, 0⟩, ⟨t - i, 0, p - a, 0, 0⟩]
  let free := m.whlState d == 4
  let m1 := m0.setWhl d { x with
    hist := hist
    prev := t
    pos := p
    k := k
    realK := k
    acc := 0
    back := back
    fail := 0
    virt := 0
    virtual := false
    speedOk := false
    stalled := false
    lastInt := int
    hunt := []
    cands := []
    gapAt := none
    idxWait := []
    refOpen := none
    idxMiss := 0
    checks := 0
    fw := none
    found := true }
  let m2 := whlPredict d (whlEnter d (if m.rd (R.WHL_SYNC_CONFIRM d) = 0 && !free then 3 else 2) m1)
  m2.note (.tooth d back)

/-- The GAP entries that fit an interval ratio among the entries to test (R124). -/
def gapFits (m : Mach) (d : Nat) (r : Rat) (mirror : Bool) (l : List Nat) : List Nat :=
  l.filter (fun g =>
    let rho := gapRatio (whlTbl m d) mirror g
    decide ((m.rd (R.WHL_WIN_LO d) : Rat) / 256 * rho ≤ r) && decide (r ≤ (m.rd (R.WHL_WIN_HI d) : Rat) / 256 * rho))

/-- The entry an edge stands at when the interval it ends is the span of entry g. -/
def gapEntry (m : Mach) (d : Nat) (mirror : Bool) (g : Nat) : Nat :=
  let n := max 1 (tblTeeth (whlTbl m d))
  if mirror then (g + n - 1) % n else g % n

/-- What HUNT concludes from an edge: the entry of a candidate and the search left over. `l` holds the edges of the search, the new one
first (R124 to R127). The mirrored table is tested while WHL_DIR reads REV, whatever the source of direction: R133 says so for PATTERN
(DESIGN CHOICE, log 65). -/
def huntStep (m : Mach) (d : Nat) (l : List Rat) : Option (Nat × Bool) × (List Nat × Option Rat) :=
  let x := m.whl d
  let tbl := whlTbl m d
  let mirror := m.rd (R.WHL_DIR d) == 2
  let n := max 1 (tblTeeth tbl)
  match whlRefMode m d, l with
  | 0, _ => (some (0, false), [], none)
  | 2, t :: t1 :: _ =>
    match x.idxAt, tblRefIdx tbl with
    | some i, some r => if i ≤ t ∧ t - i < (t - t1) / 2 then (some (r, false), [], none) else (none, [], none)
    | _, _ => (none, [], none)
  | 1, t :: t1 :: t2 :: _ =>
    let r := (t - t1) / (t1 - t2)
    let tests := if x.cands.isEmpty then tblGaps tbl
      else x.cands.map (fun c => if mirror then (c + n - 1) % n else (c + 1) % n)
    let fits := gapFits m d r mirror tests
    match fits with
    | [g] => (some (gapEntry m d mirror g, true), [], none)
    | _ => (none, fits, none)
  | 3, t :: t1 :: t2 :: _ =>
    let r := (t - t1) / (t1 - t2)
    if (gapFits m d r mirror (tblGaps tbl)).isEmpty then (none, [], x.gapAt)
    else
      match x.gapAt with
      | none => (none, [], some t)
      | some g0 =>
        let seen := match x.idxAt with
          | some i => decide (g0 < i)
          | none => false
        match (tblGaps tbl).find? (fun g => tblRef tbl g == seen) with
        | some g => (some (gapEntry m d mirror g, true), [], some t)
        | none => (none, [], some t)
  | 3, _ => (none, [], x.gapAt)
  | _, _ => (none, [], none)

/-- An edge in HUNT or FREEWHEEL (R124 to R127, R553). -/
def whlHunt (d : Nat) (t : Rat) (rev : Bool) (m : Mach) : Mach :=
  let x := m.whl d
  let since := match x.hunt with
    | h :: _ => some (t - h)
    | [] => if x.found then some (t - x.prev) else none
  let blank : Rat := max (1 / 8) (m.rd (R.WHL_BLANK_MIN d) : Rat)
  if (match since with | some i => decide (i < blank) | none => false) then whlNoise d m
  else
    let m1 := match whlEdgeDir m d rev with
      | some r => whlEvidence d r m
      | none => m
    let l := (t :: x.hunt).take 3
    let res := huntStep m1 d l
    let m2 := m1.updWhl d (fun x => { x with hunt := l, cands := res.2.1, gapAt := res.2.2 })
    match res.1 with
    | none => m2
    | some (k, gap) =>
      let back := match whlEdgeDir m d rev with
        | some r => r
        | none => m1.rd (R.WHL_DIR d) == 2
      whlSync d k t back (if gap then (match l with | a :: b :: _ => some (a - b) | _ => none) else none) m2

/-! ## Virtual teeth and deadlines (R121 to R123) -/

/-- Entry k was passed by a tooth, real or virtual, before which the decoder stood as in m0: REF is raised where it was and is LOCKED
(log 60). -/
def whlPassed (d k : Nat) (m0 m : Mach) : Mach :=
  if m0.whlState d = 3 ∧ m.whlState d = 3 ∧ tblRef (whlTbl m d) k then whlRaise d 8 m else m

/-- A virtual tooth for the next expected entry. -/
def whlVirtual (d : Nat) (m : Mach) : Mach :=
  let x := m.whl d
  let tbl := whlTbl m d
  let nx := nextEntry tbl x.k x.back
  match x.dp with
  | none => m
  | some p =>
    if (m.whlState d ≠ 2 ∧ m.whlState d ≠ 3) ∨ tblGap tbl nx.1 then m
    else
      let spent := decide (m.rd (R.WHL_VIRT_MAX d) ≤ x.virt)
      let t := x.prev + p
      let m1 := m.setWhl d { x with
        prev := t
        pos := x.pos + nx.2
        k := nx.1
        acc := x.acc + nx.2
        virt := x.virt + 1
        virtual := true
        checks := if whlRefMode m d = 0 then x.checks / 3 * 3 else x.checks }
      let m2 := whlRaise d 5 (m1.inc (R.WHL_CNT_VIRT d))
      if spent then whlLoss d m2
      else
        let r := whlRefChecks d t p (tblRef tbl nx.1) m2
        if r.1 then r.2 else whlPredict d (whlPassed d nx.1 m r.2)

/-- GAP_DEADLINE_MISS. -/
def whlGapMiss (d : Nat) (m : Mach) : Mach :=
  let x := m.whl d
  if x.dp.isSome ∧ tblGap (whlTbl m d) (nextEntry (whlTbl m d) x.k x.back).1 then whlLoss d m else m

/-- The window of the next entry closes with no edge: a virtual tooth, or at a GAP entry a sync loss (R121, R122). -/
def whlClose (d : Nat) (m : Mach) : Mach :=
  if tblGap (whlTbl m d) (nextEntry (whlTbl m d) (m.whl d).k (m.whl d).back).1 then whlGapMiss d m else whlVirtual d m

/-- The stall comes in the tick in which the next entry's window closes, if `closed`: what the closing does comes first, and where it
would lose sync the stall is the one transition (R114). -/
def whlStallTick (d : Nat) (closed : Bool) (m : Mach) : Mach :=
  if !closed then whlStall d m
  else
    let gap := tblGap (whlTbl m d) (nextEntry (whlTbl m d) (m.whl d).k (m.whl d).back).1
    let m1 := whlClose d m
    if m1.whlState d = m.whlState d then whlStall d m1
    else whlLossStall d (if gap then m else whlRaise d 5 (m.inc (R.WHL_CNT_VIRT d)))

/-- The fine deadline of the next entry's window, in ticks (R117). -/
def whlDeadline (m : Mach) (d : Nat) : Option Rat :=
  (m.whl d).dp.map (fun p => (m.whl d).prev + (m.rd (R.WHL_WIN_HI d) : Rat) / 256 * p)

/-- Windows that closed before an instant are acted on before an edge stamped there, each against its own deadline (R118). A stall
deadline before the stamp does not hold an edge back that reaches the decoder before FTB less 4 T has passed it: the edge is judged, and a
validated one restarts the timeout (DESIGN CHOICE, log 65). -/
def whlExpire : Nat → Nat → Rat → Mach → Mach
  | 0, _, _, m => m
  | n + 1, d, t, m =>
    match whlDeadline m d with
    | some e =>
      if e < t ∧ (m.whlState d = 2 ∨ m.whlState d = 3) then whlExpire n d t (whlClose d m) else m
    | none => m

/-! ## Tracking (R117 to R120, R128, R133, R137, R138) -/

/-- PATTERN evidence of a validated tooth taken as entry k with interval ratio r (R131). -/
def patternEvidence (m : Mach) (d k : Nat) (r : Rat) : Option Bool :=
  let tbl := whlTbl m d
  let rf := (tblSpan tbl k : Rat) / (tblSpan tbl (k + tblTeeth tbl - 1) : Rat)
  let rr := (tblSpan tbl (k + 1) : Rat) / (tblSpan tbl (k + 2) : Rat)
  let ab (q : Rat) : Rat := if q < 0 then -q else q
  if ab (rf - rr) < (m.rd (R.WHL_DIR_RATIO d) : Rat) / 256 then none else some (decide (ab (r - rr) < ab (r - rf)))

/-- An edge that is early or of wrong polarity. -/
def whlReject (d : Nat) (o : Obj) (gap noDp : Bool) (m : Mach) : Mach :=
  let m1 := whlRaise d 6 (m.inc o)
  if noDp then m1
  else
    let m2 := m1.updWhl d (fun x => { x with fail := x.fail + 1 })
    if gap || decide (m.rd (R.WHL_WIN_FAIL_MAX d) ≤ (m2.whl d).fail) then whlLoss d m2 else m2

/-- A validated real tooth at entry k, with signed span a from the last tooth. After a virtual tooth the ratio r divides the interval
from the virtual stamp by that of the last real tooth (log 60). -/
def whlValidate (d k : Nat) (a : Int) (t : Rat) (back : Bool) (ev : Option Bool) (m : Mach) : Mach :=
  let x := m.whl d
  let tbl := whlTbl m d
  let int := t - x.prev
  let p := x.pos + a
  let ratio : Option Rat := x.lastInt.map (fun l => int / l)
  let m1 := m.setWhl d { x with
    hist := toothPush t (x.acc + a) p x.hist
    prev := t
    pos := p
    k := k
    realK := k
    acc := 0
    back := back
    fail := 0
    virt := 0
    virtual := false
    stalled := false
    speedOk := true
    lastInt := some int
    checks := if m.whlState d = 2 ∧ (whlRefMode m d = 0 ∨ tblGap tbl k) then x.checks + 1 else x.checks }
  let ev1 := match ev, ratio with
    | some r, _ => some r
    | none, some q => if whlDirSrc m d = 3 then patternEvidence m d k q else none
    | none, none => none
  let m2 := match ev1 with
    | some r => whlEvidence d r m1
    | none => m1
  let dir := m2.rd (R.WHL_DIR d)
  let r := if whlDirSrc m d = 3 ∧ dir ≠ m.rd (R.WHL_DIR d) ∧ dir ≠ 0 ∧ (dir = 2) ≠ (back = true) then (true, whlLoss d m2)
    else whlRefChecks d t int (tblRef tbl k) m2
  let m3 := if r.1 then r.2 else (whlPredict d (whlConfirm d (whlPassed d k m r.2))).note (.tooth d back)
  m3.each (plausPairs m3 d) plausRun

/-- An edge in SYNC_PENDING or LOCKED: `pol` is its level (true rising), `rev` the evidence of QUAD and PIN. -/
def whlTrack (d : Nat) (t : Rat) (pol rev : Bool) (m : Mach) : Mach :=
  let x := m.whl d
  let tbl := whlTbl m d
  let ev := whlEdgeDir m d rev
  let back := match whlDirSrc m d with
    | 1 => rev
    | 2 => rev
    | _ => x.back
  let nx := nextEntry tbl x.k back
  -- the first tooth of a reversal is expected by the reversed span (R133)
  let dp := if back = x.back then x.dp else predict x.hist nx.2
  let int := t - x.prev
  if int < whlBlank m d dp then whlNoise d m
  else
    let early := match dp with
      | some p => decide (int < (m.rd (R.WHL_WIN_LO d) : Rat) / 256 * p)
      | none => false
    let want := tblPol tbl nx.1
    let wrong := !whlQuad m d && whlEdgeSel m d == 2 && want != 0 && (want == 1) != pol
    if early || wrong then
      let m1 := whlReject d (if early then R.WHL_CNT_EARLY d else R.WHL_CNT_POL d) (tblGap tbl nx.1) dp.isNone m
      match ev with
      | some r => whlEvidence d r m1
      | none => m1
    else whlValidate d nx.1 nx.2 t back ev m

/-- The first tooth edge in LOST (R113). With STALL_KEEP it is taken whatever its interval: R553 gives the noise blank in HUNT and
SYNC_PENDING only (DESIGN CHOICE, log 65). -/
def whlResume (d : Nat) (t : Rat) (rev : Bool) (m : Mach) : Mach :=
  let m0 := m.updWhl d (fun x => { x with stalled := false })
  if m.on (R.WHL_STALL_KEEP d) then
    let x := m0.whl d
    let ev := whlEdgeDir m d rev
    let back := match whlDirSrc m d with
      | 1 => rev
      | 2 => rev
      | _ => x.back
    let k := (nextEntry (whlTbl m d) x.k back).1
    let m1 := match ev with
      | some r => whlEvidence d r m0
      | none => m0
    let p := nearCycle x.pub (tblAngle (whlTbl m d) k)
    let m2 := m1.updWhl d (fun x => { x with
      hist := [⟨t, 0, p, 0, 0⟩]
      prev := t
      pos := p
      k := k
      realK := k
      acc := 0
      back := back
      dp := none
      lastInt := none
      checks := 0
      idxMiss := 0 })
    (whlEnter d 2 m2).note (.tooth d back)
  else whlHunt d t rev (whlToHunt d m0)

/-- An edge with the evidence of a turn that comes after the window of the reversed entry: the decoder has turned, and the windows that
closed on the way back are acted on before the edge (R117, R121, R133). -/
def whlTurned (d : Nat) (t : Rat) (rev : Bool) (m : Mach) : Mach :=
  let x := m.whl d
  let turns := (whlDirSrc m d == 1 || whlDirSrc m d == 2) && rev != x.back && (m.whlState d == 2 || m.whlState d == 3)
  match if turns then predict x.hist (nextEntry (whlTbl m d) x.k rev).2 else none with
  | some p =>
    if (m.rd (R.WHL_WIN_HI d) : Rat) / 256 * p < t - x.prev then
      whlExpire 9 d t (m.setWhl d { x with back := rev, dp := some p })
    else m
  | none => m

/-- A tooth edge reaches the decoder: `t` in ticks, `rev` the evidence of QUAD and PIN. -/
def whlTooth (d : Nat) (t : Rat) (pol rev : Bool) (m : Mach) : Mach :=
  let m0 := whlTurned d t rev (whlExpire 9 d t m)
  match m0.whlState d with
  | 1 => whlHunt d t rev m0
  | 4 => whlHunt d t rev m0
  | 5 => whlResume d t rev m0
  | 2 => whlTrack d t pol rev m0
  | 3 => whlTrack d t pol rev m0
  | _ => m0

/-! ## Inputs (R104 to R106) -/

/-- An edge at the pin of a QUAD channel passes its input stage. -/
def quadAccept (c : Nat) (rise : Bool) (t : Nat) (m : Mach) : Option (Bool × Nat) × Mach :=
  if m.chMode c ≠ 5 then (none, m) else chAccept c rise t m

/-- The logical level of an input of a decoder; 0 where its channel is not enabled or none is named. -/
def whlLevel (m : Mach) (c : Nat) : Bool := decide (c < 128) && m.chEn c && m.chIn c

/-- The level that the direction input's pin has at an edge is taken up by its channel's stage (R106, R228). -/
def dirTaken (d : Nat) (pin : Bool) (m : Mach) : Mach :=
  let c := m.rd (R.WHL_IN_DIR d)
  if c < 128 ∧ !m.chIsOut c then m.updChan c (fun x => { x with seen := pin }) else m

/-- An edge in the tick of an accepted write of WHL_ENABLE is discarded (R115). -/
def whlDeaf (m : Mach) (d : Nat) : Bool := (m.whl d).wrote == some m.now

/-- A delivered edge of input A in edge form. -/
def whlEdgeA (d : Nat) (lvl dir : Bool) (t : Nat) (m : Mach) : Mach :=
  let sel := whlEdgeSel m d
  if (sel = 0 ∧ !lvl) ∨ (sel = 1 ∧ lvl) then m else whlTooth d ((t : Rat) / 8) lvl (dir != whlDirPol m d) m

/-- The boundaries that a count edge to `cnt` crosses: one not last crossed the other way at the first count past it, one that was at
QUAD_HYST counts more (R105; a boundary may be crossed twice in one direction, log 23). -/
def quadCross (m : Mach) (d : Nat) (up : Bool) (cnt : Int) : List Int :=
  let div : Int := max 1 (m.rd (R.WHL_QUAD_DIV d))
  let h : Int := m.rd (R.WHL_QUAD_HYST d)
  let against (b : Int) : Bool := (m.whl d).marks.any (fun e => e.1 == b && e.2 != up)
  let near := if up then cnt else cnt + 1
  let far := if up then near - h else near + h
  (if far % div = 0 ∧ against far then [far] else []) ++ (if near % div = 0 ∧ !against near then [near] else [])

/-- A delivered edge of input A or B in quadrature form: the count moves, and a crossing waits for TOOTH_EDGE. -/
def whlCount (d : Nat) (isB a b : Bool) (t : Nat) (m : Mach) : Mach :=
  let x := m.whl d
  let up := if isB then a == b else a != b
  let cnt := if up then x.cnt + 1 else x.cnt - 1
  let l := quadCross m d up cnt
  m.setWhl d { x with
    cnt := cnt
    marks := l.map (fun b => (b, up)) ++ x.marks.filter (fun e => !l.contains e.1)
    waiting := x.waiting ++ l.map (fun _ => (t, !up)) }

/-- TOOTH_EDGE. -/
def toothEdgeEffect (d : Nat) (rise : Bool) (t : Nat) (dir : Bool) (m : Mach) : Mach :=
  if m.whlState d = 0 then m
  else if whlQuad m d then
    match (m.whl d).waiting.find? (fun e => e.1 == t) with
    | some e =>
      if whlDeaf m d then m.updWhl d (fun x => { x with waiting := x.waiting.erase e })
      else
      let rev := if whlDirSrc m d = 2 then whlLevel (dirTaken d dir m) (m.rd (R.WHL_IN_DIR d)) != whlDirPol m d else e.2
      whlTooth d ((t : Rat) / 8) true rev (m.updWhl d (fun x => { x with waiting := x.waiting.erase e }))
    | none => m
  else
    match quadAccept (m.rd (R.WHL_IN_A d)) rise t (dirTaken d dir m) with
    | (some (lvl, t1), m1) => if whlDeaf m d then m1 else whlEdgeA d lvl (whlLevel m1 (m.rd (R.WHL_IN_DIR d))) t1 m1
    | (none, m1) => m1

/-- QUAD_COUNT_EDGE. -/
def quadCountEffect (d : Nat) (isB rise : Bool) (t : Nat) (m : Mach) : Mach :=
  if m.whlState d = 0 ∨ !whlQuad m d then m
  else
    let c := m.rd (if isB then R.WHL_IN_B d else R.WHL_IN_A d)
    match quadAccept c rise t m with
    | (some (lvl, t1), m1) =>
      let other := whlLevel m1 (m.rd (if isB then R.WHL_IN_A d else R.WHL_IN_B d))
      if whlDeaf m d then m1 else whlCount d isB (if isB then other else lvl) (if isB then lvl else other) t1 m1
    | (none, m1) => m1

/-- A delivered edge of the index input. -/
def whlIdxEdge (d : Nat) (lvl : Bool) (t : Nat) (m : Mach) : Mach :=
  if lvl != whlIdxFall m d then whlIndex d ((t : Rat) / 8) m else m

/-- INDEX_EDGE. -/
def indexEdgeEffect (d : Nat) (rise : Bool) (t : Nat) (m : Mach) : Mach :=
  if m.whlState d = 0 then m
  else
    match quadAccept (m.rd (R.WHL_IN_IDX d)) rise t m with
    | (some (lvl, t1), m1) => if whlDeaf m d then m1 else whlIdxEdge d lvl t1 m1
    | (none, m1) => m1

/-- The edge that a lockout's end delivers on a QUAD channel reaches every decoder the channel feeds (R230). -/
def whlLockoutEdge (c : Nat) (lvl : Bool) (t : Nat) (m : Mach) : Mach :=
  m.each (List.range 16) (fun d m =>
    if m.whlState d = 0 ∨ whlDeaf m d then m
    else
      let seen (o : Obj) : Bool := whlLevel m (m.rd o)
      let m1 :=
        if m.rd (R.WHL_IN_A d) = c then
          if whlQuad m d then whlCount d false lvl (seen (R.WHL_IN_B d)) t m else whlEdgeA d lvl (seen (R.WHL_IN_DIR d)) t m
        else if m.rd (R.WHL_IN_B d) = c ∧ whlQuad m d then whlCount d true (seen (R.WHL_IN_A d)) lvl t m
        else m
      if m.rd (R.WHL_IN_IDX d) = c then whlIdxEdge d lvl t m1 else m1)

/-! ## Enable and disable (R103, R113) -/

/-- The committed table has the entries that REF_MODE requires. -/
def whlRefTable (m : Mach) (d : Nat) : Bool :=
  let tbl := whlTbl m d
  match whlRefMode m d with
  | 0 => true
  | 1 => !(tblGaps tbl).isEmpty
  | 2 => (tblRefIdx tbl).isSome
  | _ =>
    match tblGaps tbl with
    | [g, h] => decide (gapRatio tbl false g = gapRatio tbl false h) && (tblRef tbl g || tblRef tbl h)
    | _ => false

/-- WHL_ENABLE = 1 may be accepted. -/
def whlEnableOk (m : Mach) (d : Nat) : Bool :=
  let ins := [m.rd (R.WHL_IN_A d), m.rd (R.WHL_IN_B d), m.rd (R.WHL_IN_IDX d), m.rd (R.WHL_IN_DIR d)]
  ins.all (fun c => c == 0xFF || m.chMode c == 5) &&
  m.rd (R.WHL_IN_A d) != 0xFF &&
  (!whlQuad m d || m.rd (R.WHL_IN_B d) != 0xFF) &&
  (whlDirSrc m d != 1 || whlQuad m d) &&
  (whlDirSrc m d != 2 || m.rd (R.WHL_IN_DIR d) != 0xFF) &&
  (decide (whlRefMode m d < 2) || m.rd (R.WHL_IN_IDX d) != 0xFF) &&
  m.rd (R.WHL_TBL_LEN d) != 0 && whlRefTable m d

/-- OFF to HUNT: direction UNKNOWN, history cleared, WHL_POS 0; the pairs of the decoder may arm again, and a PLAUS_FAULT set while the
decoder was OFF stays (R144). The quadrature count starts at 0 with no boundary crossed, for the spec gives it no start (R105; DESIGN
CHOICE, log 65). -/
def whlStart (d : Nat) (m : Mach) : Mach :=
  let x := m.whl d
  let m1 := (m.setWhl d { plausArmed := x.plausArmed, plausFault := x.plausFault, wrote := some m.now }).wr (R.WHL_DIR d) 0
  whlEnter d 1 (m1.each (plausPairs m1 d) (fun i m => m.updWhl i (fun x => { x with plausWait := true })))

/-- WHL_ENABLE written 1. -/
def whlEnable (d : Nat) (m : Mach) : Eff :=
  if whlEnableOk m d then
    let m1 := (m.wr (R.WHL_ENABLE d) 1).updWhl d (fun x => { x with wrote := some m.now })
    .ok (if m.whlState d = 0 ∧ !m.inHold ∧ !m.pwr.fSleep then whlStart d m1 else m1)
  else .error .range

/-- To OFF: angle, speed and acceleration invalid; the last position published stays unless HOLD returns it to 0, and the pair stays
armed until both its decoders are OFF or LOST; disabling ends PLAUS_FAULT (R144). -/
def whlOff (d : Nat) (hold : Bool) (m : Mach) : Mach :=
  if m.whlState d = 0 then (if hold then m.setWhl d {} else m.updWhl d (fun x => { x with plausFault := false }))
  else
    let x := (whlMark d m).whl d
    let m2 := m.setWhl d { pub := if hold then 0 else x.pub, plausArmed := x.plausArmed, plausWait := x.plausWait }
    whlEnter d 0 (whlSetDir d 0 m2)

/-- WHL_ENABLE written 0, and a UNIT stop. -/
def whlDisable (d : Nat) (m : Mach) : Mach := whlOff d false (m.wr (R.WHL_ENABLE d) 0)

/-- HOLD or SLEEP entry. -/
def whlsHalt (m : Mach) : Mach := m.each (List.range 16) (fun d m => whlOff d true m)

/-- Return to RUN: the checks of R103 apply again; a decoder that fails them stays OFF with WHL_ENABLE cleared. -/
def whlsRestart (m : Mach) : Mach :=
  m.each (List.range 16) (fun d m =>
    if m.on (R.WHL_ENABLE d) && m.whlState d == 0 then
      if whlEnableOk m d then whlStart d m else m.wr (R.WHL_ENABLE d) 0
    else m)

/-- A write of WHL_PLAUS_PARTNER arms or disarms the pair (R142, R144). The spec does not say what it does to the arming: an armed check
stays armed with the new partner, and after the write the pair may arm as after an enable (DESIGN CHOICE, log 65). -/
def setPartner (d v : Nat) (m : Mach) : Mach :=
  plausArm d ((m.wr (R.WHL_PLAUS_PARTNER d) v).updWhl d (fun x => { x with plausWait := true }))

def whlCounters (d : Nat) : List Obj :=
  [R.WHL_CNT_NOISE d, R.WHL_CNT_EARLY d, R.WHL_CNT_VIRT d, R.WHL_CNT_SYNCLOSS d, R.WHL_CNT_STALL d, R.WHL_CNT_POL d,
   R.WHL_CNT_IDX_MISS d, R.WHL_CNT_PLAUS d]

/-! ## Views (R149) -/

/-- WHL_FLAGS. -/
def whlFlags (m : Mach) (d : Nat) : Nat :=
  let x := m.whl d
  min 255 x.fail * 2 ^ 16 + min 255 x.virt * 2 ^ 8 + boolNat x.plausFault * 128 + boolNat x.plausArmed * 64 +
  boolNat x.stalled * 32 + boolNat x.virtual * 16 + boolNat (m.whlState d == 3) * 8 +
  boolNat (decide (4 ≤ x.hist.length) && (m.whlState d == 2 || m.whlState d == 3)) * 4 + boolNat x.speedOk * 2 +
  boolNat (whlPublished m d)

/-- WHL_SPEED and WHL_ACCEL, rounded to the nearest and saturated (log 60). -/
def whlSpeed (m : Mach) (d : Nat) : Nat :=
  match m.whlState d, (m.whl d).hist, (m.whl d).fw with
  | 4, _, some f => ofSigned 32 (satSigned 32 (ratRound (f.2.2 * 65536)))
  | 2, h :: _, _ => ofSigned 32 (satSigned 32 (ratRound (h.om * 65536)))
  | 3, h :: _, _ => ofSigned 32 (satSigned 32 (ratRound (h.om * 65536)))
  | _, _, _ => 0

def whlAccel (m : Mach) (d : Nat) : Nat :=
  match m.whlState d, (m.whl d).hist with
  | 2, h :: _ => ofSigned 32 (satSigned 32 (ratRound (h.al * 4294967296)))
  | 3, h :: _ => ofSigned 32 (satSigned 32 (ratRound (h.al * 4294967296)))
  | _, _ => 0

def whlPredInt (m : Mach) (d : Nat) : Nat :=
  match (m.whl d).dp with
  | some p => min 0xFFFFFFFF (ratRound (p * 8)).toNat
  | none => 0

end Sys2Proof.Machine
end

