-- ==== Sys2Proof/Machine/Cam.lean ====
section
/-! DEFINITION. The cam engine (chapter 6, R183 to R211): profiles and their versions, masters, and the axes with their
evaluation, switching, loss, resume and outputs. Positions are in ANG32 with whole cycles, times in ticks. -/

namespace Sys2Proof.Machine

/-- Rounding to the nearest integer, ties toward +∞ (R195, R215). -/
def ratNear (r : Rat) : Int := (r + 1 / 2).floor

/-! ## Nodes (R184) -/

/-- One cubic segment. -/
structure CamNode where
  span : Nat
  start : Int
  c1 : Int
  c2 : Int
  c3 : Int
deriving DecidableEq, Repr

/-- The node at a byte string's head; SPAN 0 stands for one cycle. -/
def camNode (l : List Byte) : CamNode :=
  let s := fieldAt 0 4 l
  ⟨if s = 0 then 2 ^ 32 else s, toSigned 64 (fieldAt 4 8 l), toSigned 48 (fieldAt 12 6 l), toSigned 48 (fieldAt 18 6 l),
   toSigned 48 (fieldAt 24 6 l)⟩

/-- The first n nodes of a content. -/
def camNodesN : Nat → List Byte → List CamNode
  | 0, _ => []
  | n + 1, l => camNode l :: camNodesN n (l.drop 32)

def camNodes (l : List Byte) : List CamNode := camNodesN (l.length / 32) l

/-- The segment's end value. -/
def CamNode.stop (n : CamNode) : Int := n.start + n.c1 + n.c2 + n.c3

/-- Slave position at the fraction u of the segment, and the first and second derivative in u. -/
def CamNode.at_ (n : CamNode) (u : Rat) : Rat × Rat × Rat :=
  ((n.start : Rat) + n.c1 * u + n.c2 * u * u + n.c3 * u * u * u, (n.c1 : Rat) + 2 * n.c2 * u + 3 * n.c3 * u * u,
   2 * (n.c2 : Rat) + 6 * n.c3 * u)

/-- PM and RISE. -/
def camPm (l : List CamNode) : Int := l.foldl (fun s n => s + (n.span : Int)) 0
def camStart (l : List CamNode) : Int := (l.head?.map (·.start)).getD 0
def camRise (l : List CamNode) : Int := (l.getLast?.map (·.stop)).getD 0 - camStart l

/-- The node that covers a phase: its index, its cumulated start and itself. -/
def camFind (ph : Int) : List CamNode → Nat → Int → Option (Nat × Int × CamNode)
  | [], _, _ => none
  | n :: rest, i, cum =>
    if rest.isEmpty || decide (ph < cum + (n.span : Int)) then some (i, cum, n) else camFind ph rest (i + 1) (cum + (n.span : Int))

/-- Each node's end is near the next node's START. -/
def camContinuous (tol : Nat) : List CamNode → Bool
  | a :: b :: rest => decide ((a.stop - b.start).natAbs ≤ tol) && camContinuous tol (b :: rest)
  | _ => true

/-- The rules of R185 for a content that is not empty. -/
def camOk (tol : Nat) (l : List CamNode) : Bool :=
  let pm := camPm l
  l.all (fun n => decide (256 ≤ n.span)) && decide (pm % cycle32 = 0) && decide (cycle32 ≤ pm) &&
  decide (pm ≤ 65535 * cycle32) && camContinuous tol l

/-! ## Axes: records -/

def Mach.ax (m : Mach) (a : Nat) : Ax := mapGet {} a m.axes

def Mach.setAx (a : Nat) (x : Ax) (m : Mach) : Mach := { m with axes := mapSet {} a x m.axes }

def Mach.updAx (a : Nat) (f : Ax → Ax) (m : Mach) : Mach := m.setAx a (f (m.ax a))

def Mach.axState (m : Mach) (a : Nat) : Nat := m.rd (R.AX_STATE a)

def axKind (m : Mach) (a : Nat) : Nat := bits 15 12 (m.rd (R.AX_MASTER a))
def axNum (m : Mach) (a : Nat) : Nat := bits 6 0 (m.rd (R.AX_MASTER a))
def axGroup (m : Mach) (a : Nat) : Nat := bits 3 0 (m.rd (R.AX_CFG a))
def axSegment (m : Mach) (a : Nat) : Bool := bit 4 (m.rd (R.AX_CFG a))
def axJoin (m : Mach) (a : Nat) : Bool := bit 5 (m.rd (R.AX_CFG a))
def axOnce (m : Mach) (a : Nat) : Bool := bit 6 (m.rd (R.AX_CFG a))
def axRamp (m : Mach) (a : Nat) : Bool := bit 7 (m.rd (R.AX_CFG a))
def axVdecEn (m : Mach) (a : Nat) : Bool := bit 8 (m.rd (R.AX_CFG a))
def axVdec (m : Mach) (a : Nat) : Nat := bits 12 9 (m.rd (R.AX_CFG a))

/-- Raises axis event `b` (R220). -/
def axRaise (a b : Nat) (m : Mach) : Mach := m.raise (R.AX_EVT a) (R.AX_EVT_EN a) b (320 + axGroup m a)

/-- Raises cam engine event `b`. -/
def camRaise (b : Nat) (m : Mach) : Mach := m.raise R.CAM_EVT R.CAM_EVT_EN b (320 + m.rd R.CAM_GRP)

/-- The axes that are not STOPPED. -/
def axesUp (m : Mach) : List Nat := (List.range 128).filter (fun a => m.axState a != 0)

/-! ## Profiles (R183, R186 to R188) -/

def Mach.prof (m : Mach) (p : Nat) : Prof := mapGet {} p m.profs

def Mach.setProf (p : Nat) (x : Prof) (m : Mach) : Mach := { m with profs := mapSet {} p x m.profs }

def profValid (m : Mach) (p : Nat) : Bool := !(m.prof p).act.isEmpty

/-- Some axis outside STOPPED uses version `v` of profile `p`. -/
def profUsed (m : Mach) (p v : Nat) : Bool :=
  (axesUp m).any (fun a => m.rd (R.AX_PROF_CUR a) == p && (m.ax a).ver == v)

/-- Releases a version that no axis holds any longer. -/
def profRelease (p : Nat) (m : Mach) : Mach :=
  let x := m.prof p
  if x.retiring && !profUsed m p ((x.ver + 31) % 32) then
    camRaise 2 (m.setProf p { x with old := [], retiring := false })
  else m

/-- A closed CAM_PROFILE transfer commits (R185 to R187). -/
def camCommit (p : Nat) (content : List Byte) (m : Mach) : Eff :=
  let x := m.prof p
  if !content.isEmpty && !camOk (m.rd R.CAM_CONT_TOL) (camNodes content) then .error .range
  else if x.retiring then .error .running
  else if content.isEmpty && (axesUp m).any (fun a => m.rd (R.AX_PROF_CUR a) == p || m.rd (R.AX_PROF_NEXT a) == p) then
    .error .running
  else
    let y : Prof := ⟨content, x.act, (x.ver + 1) % 32, !x.buf, !x.act.isEmpty⟩
    .ok (profRelease p (m.setProf p y))

/-- CAM_DIR_STAT. -/
def camDirStat (m : Mach) (p : Nat) : Nat :=
  let x := m.prof p
  boolNat (profValid m p) * 2 ^ 31 + boolNat x.buf * 2 ^ 30 + boolNat x.retiring * 2 ^ 29 + x.ver * 2 ^ 24 +
  x.act.length / 32

/-- CAM_PROFILES. -/
def camProfiles (m : Mach) : Nat := (m.profs.filter (fun e => !e.2.act.isEmpty)).length

/-- Nodes reserved by open write transfers (R183). -/
def camReserved (m : Mach) : Nat :=
  (m.dic.xfers.filter (fun e => e.2.wr && decide (0x5100 ≤ e.2.idx) && decide (e.2.idx ≤ 0x51FF) && !e.2.closed)).foldl
    (fun n e => n + e.2.total / 32) 0

/-- CAM_NODES_FREE. -/
def camFree (m : Mach) : Nat :=
  8388608 - (m.profs.foldl (fun n e => n + (e.2.act.length + e.2.old.length) / 32) 0 + camReserved m)

/-- CAM_LOAD. -/
def camLoad (m : Mach) : Nat :=
  ((axesUp m).foldl (fun (s : Rat) a => s + 400000000 / (max 1 (m.rd (R.AX_EVAL_PER a)) : Rat)) 0).floor.toNat

/-! ## Virtual masters (R192 to R194) -/

def Mach.vm (m : Mach) (v : Nat) : Vm := mapGet {} v m.vms

def Mach.setVm (v : Nat) (x : Vm) (m : Mach) : Mach := { m with vms := mapSet {} v x m.vms }

/-- The speed after one tick: away from zero by `a`, towards it by `d`, never past the target or past zero. -/
def vmSpeed (s t a d : Int) : Int :=
  if s = t then s
  else if 0 ≤ s ∧ s < t then min t (s + a)
  else if s ≤ 0 ∧ t < s then max t (s - a)
  else if 0 < s then max (max t 0) (s - d)
  else min (min t 0) (s + d)

/-- n ticks of integration. -/
def vmRun (t a d : Int) : Nat → Vm → Vm
  | 0, x => x
  | n + 1, x =>
    let s := vmSpeed x.speed t a d
    vmRun t a d n { x with speed := s, pos := x.pos + s, acc := s - x.speed }

/-- Virtual master v after n ticks with its present objects. -/
def vmAfter (m : Mach) (v n : Nat) : Vm :=
  vmRun (m.rdI 32 (R.VM_TARGET v) * 2 ^ 32) (m.rd (R.VM_ACCEL v) * 2 ^ 16) (m.rd (R.VM_DECEL v) * 2 ^ 16) n (m.vm v)

/-- The virtual master starts from VM_POS_SET at zero speed. -/
def vmStart (v : Nat) (m : Mach) : Mach := m.setVm v { run := true, pos := m.rdI 64 (R.VM_POS_SET v) * 2 ^ 48 }

/-- VM_ENABLE written 1: in HOLD and SLEEP it starts on return to RUN. -/
def vmEnableOnEffect (v : Nat) (m : Mach) : Mach :=
  let m1 := m.wr (R.VM_ENABLE v) 1
  if (m.vm v).run || m.inHold || m.pwr.fSleep then m1 else vmStart v m1

/-- VM_ENABLE written 0, a UNIT stop. -/
def vmEnableOffEffect (v : Nat) (m : Mach) : Mach := (m.wr (R.VM_ENABLE v) 0).setVm v {}

/-- A virtual master held by a Keep debug halt while FTB goes on by d ticks. -/
def vmHeld (d v : Nat) (m : Mach) : Mach :=
  let x := m.vm v
  if x.run then m.setVm v { x with owed := x.owed + d } else m

/-- One FCLK tick of a virtual master; the first one after a debug halt catches up by the held speed (R193). -/
def vmTick (v : Nat) (m : Mach) : Mach :=
  let x := m.vm v
  if !x.run then m
  else (m.setVm v { x with pos := x.pos + x.speed * x.owed, owed := 0 }).setVm v
    (vmAfter (m.setVm v { x with pos := x.pos + x.speed * x.owed, owed := 0 }) v 1)

/-- HOLD, SLEEP or a field-side reset stops every virtual master; return to RUN starts the enabled ones. -/
def vmsHalt (m : Mach) : Mach := { m with vms := [] }

def vmsRestart (m : Mach) : Mach :=
  m.each (List.range 8) (fun v m => if m.on (R.VM_ENABLE v) && !(m.vm v).run then vmStart v m else m)

/-- VM_SPEED, VM_POS and VM_STATUS. -/
def vmSpeedView (m : Mach) (v : Nat) : Nat := ofSigned 32 (ratNear (((m.vm v).speed : Rat) / 2 ^ 32))
def vmPosView (m : Mach) (v : Nat) : Nat := ofSigned 64 ((m.vm v).pos / 2 ^ 48)
def vmStatus (m : Mach) (v : Nat) : Nat :=
  if !(m.vm v).run then 0 else if (m.vm v).speed = m.rdI 32 (R.VM_TARGET v) * 2 ^ 32 then 1 else 2

/-! ## Network master inputs (R189, R191) -/

/-- A sample delivered by the cyclic mapping is taken whole. -/
def nmSample (n : Nat) (pos speed lt : Nat) (m : Mach) : Mach :=
  let m1 := (((m.wr (R.NM_POS n) pos).wr (R.NM_SPEED n) speed).wr (R.NM_LT n) lt).wr (R.NM_VALID n) 1
  { m1 with nms := mapSet 0 n m.now m1.nms }

/-- NM_STALE. -/
def nmStaleEffect (n : Nat) (m : Mach) : Mach :=
  if m.on (R.NM_VALID n) then (m.wr (R.NM_VALID n) 0).inc (R.NM_CNT_STALE n) else m

/-! ## Masters at an instant (R189 to R191, R199) -/

/-- LT_NOW n ticks on, at the present rate (R85). -/
def ltAfter (m : Mach) (n : Nat) : Nat :=
  ((m.tb.lt * 2 ^ 32 + m.tb.frac : Nat) + ((2 * 2 ^ 32 + m.rd R.LT_ADDEND : Nat)) * n) / 2 ^ 32

/-- An evaluation's results extrapolated to an instant: position, speed and acceleration. -/
def evalAt (e : AxEval) (te : Nat) : Rat × Rat × Rat :=
  let dt : Rat := (te : Rat) - (e.te : Rat)
  let v : Rat := (e.sp : Rat) / 65536
  let a : Rat := (e.ac : Rat) / 4294967296
  ((e.pos : Rat) + v * dt + a * dt * dt / 2, v + a * dt, a)

/-- Axis b as a master at te: its results for te if it evaluates there, else its latest ones extrapolated. -/
def axAsMaster (m : Mach) (b te : Nat) : Option (Rat × Rat × Rat) :=
  let x := m.ax b
  let st := m.axState b
  match x.hist with
  | [] => none
  | h :: _ =>
    if st ≠ 2 ∧ st ≠ 3 ∧ st ≠ 4 then none
    else
      match x.pend with
      | some e => if e.te = te then some (evalAt e te) else some (evalAt h te)
      | none => some (evalAt h te)

/-- The master of axis a at te, from the state at hand; none while it is not valid. -/
def axMaster (m : Mach) (a te : Nat) : Option (Rat × Rat × Rat) :=
  let n := axNum m a
  match axKind m a with
  | 1 => if n < 16 ∧ (m.whlState n = 3 ∨ m.whlState n = 4) then whlMotion m n (te : Rat) else none
  | 2 =>
    if n < 8 ∧ (m.vm n).run then
      let x := vmAfter m n (te - m.now)
      some ((x.pos : Rat) / 2 ^ 48, (x.speed : Rat) / 2 ^ 48, (x.acc : Rat) / 2 ^ 48)
    else none
  | 3 =>
    if n < 32 ∧ m.on (R.NM_VALID n) then
      let v : Rat := (m.rdI 32 (R.NM_SPEED n) : Rat) / 65536
      let dt : Rat := ((ltAfter m (te - m.now) : Rat) - (m.rd (R.NM_LT n) : Rat)) / (5 / 2)
      some ((m.rdI 64 (R.NM_POS n) : Rat) + v * dt, v, 0)
    else none
  | 4 => if n = a then none else axAsMaster m n te
  | _ => none

/-- The substitute master at te (R207). -/
def substAt (m : Mach) (a te : Nat) (s : Subst) : Rat × Rat × Rat :=
  let br : Nat × Nat := s.brake.getD (s.t + 400 * m.rd (R.AX_LOSS_TIME a), m.rd (R.AX_LOSS_DECEL a))
  let t : Rat := te
  if te ≤ br.1 then (s.p + s.v * (t - s.t), s.v, 0)
  else
    let p1 := s.p + s.v * ((br.1 : Rat) - s.t)
    let rate : Rat := (br.2 : Rat) / 4294967296
    let dec := if s.v < 0 then -rate else rate
    let tau := t - br.1
    let stop := if rate = 0 then tau else (if s.v < 0 then -s.v else s.v) / rate
    if tau < stop then (p1 + s.v * tau - dec * tau * tau / 2, s.v - dec * tau, -dec)
    else (p1 + s.v * stop - dec * stop * stop / 2, 0, 0)

/-! ## Starting (R199, R205) -/

/-- The chain of master axes ends within n more axes. -/
def chainOk (m : Mach) : Nat → Nat → Bool
  | 0, _ => false
  | n + 1, a => axKind m a != 4 || chainOk m n (axNum m a)

/-- The checks of a start. -/
def axStartOk (m : Mach) (a : Nat) : Bool :=
  let n := axNum m a
  (match axKind m a with
    | 1 => decide (n < 16)
    | 2 => decide (n < 8)
    | 3 => decide (n < 32)
    | 4 => n != a
    | _ => false) &&
  profValid m (m.rd (R.AX_PROFILE a)) && chainOk m 8 a &&
  (!axVdecEn m a || (axesUp m).all (fun b => b == a || !(axVdecEn m b && axVdec m b == axVdec m a)))

/-- STOPPED to WAIT: the profile from AX_PROFILE in its active version. -/
def axStart (a : Nat) (m : Mach) : Mach :=
  let p := m.rd (R.AX_PROFILE a)
  ((m.wr (R.AX_STATE a) 1).wr (R.AX_PROF_CUR a) p).setAx a { ver := (m.prof p).ver, corr := (m.ax a).corr }

/-- AX_RUN written 1. -/
def axRunOnEffect (a : Nat) (m : Mach) : Eff :=
  if m.axState a ≠ 0 then .ok (m.wr (R.AX_RUN a) 1)
  else if axStartOk m a then
    let m1 := m.wr (R.AX_RUN a) 1
    .ok (if m.inHold || m.pwr.fSleep then m1 else axStart a m1)
  else .error .range

/-- The virtual decoder of an axis, if it publishes to one now (R204, R209). -/
def axPublishes (m : Mach) (a : Nat) : Option Nat :=
  if m.axState a = 2 ∨ m.axState a = 3 ∨ m.axState a = 4 then (m.ax a).vdec else none

/-- Notes a virtual decoder's change of state between two machines. -/
def vdecNote (was isNow : Option Nat) (m : Mach) : Mach :=
  if was = isNow then m
  else
    let m1 := match was with
      | some v => m.note (.state (16 + v) 3 0)
      | none => m
    match isNow with
    | some v => m1.note (.state (16 + v) 0 3)
    | none => m1

/-- Enters an axis state; the virtual decoder follows, and the pulse trains of an axis without outputs plan no further step. -/
def axEnter (a st : Nat) (m : Mach) : Mach :=
  let m0 := m.wr (R.AX_STATE a) st
  let m1 := if st = 2 ∨ st = 3 ∨ st = 4 then m0 else ptQuiet a m0
  let m2 := if (axPublishes m1 a).isSome then m1 else m1.updAx a (fun x => { x with vdir := 0 })
  vdecNote (axPublishes m a) (axPublishes m2 a) m2

/-- To STOPPED: nothing is published any longer and a retiring version is released. -/
def axStop (a : Nat) (m : Mach) : Mach :=
  if m.axState a = 0 then m
  else
    let p := m.rd (R.AX_PROF_CUR a)
    profRelease p ((axEnter a 0 m).setAx a { corr := (m.ax a).corr })

/-- AX_RUN written 0, a UNIT stop. -/
def axRunOffEffect (a : Nat) (m : Mach) : Mach := axStop a (m.wr (R.AX_RUN a) 0)

/-- HOLD, SLEEP or reset. -/
def axesHalt (m : Mach) : Mach := m.each (axesUp m) axStop

/-- Return to RUN: an axis that fails the checks stays STOPPED with AX_RUN cleared. -/
def axesRestart (m : Mach) : Mach :=
  m.each (List.range 128) (fun a m =>
    if m.on (R.AX_RUN a) && m.axState a == 0 then
      if axStartOk m a then axStart a m else m.wr (R.AX_RUN a) 0
    else m)

/-- A Keep debug halt: the instants that fall in it are skipped (R206). -/
def axesDapHalt (m : Mach) : Mach := m.each (axesUp m) (fun a m => m.updAx a (fun x => { x with pend := none }))

/-! ## Commands (R201, R202, R208, R217) -/

/-- A write of AX_PHASE: corrections that landed in the same tick are added to it. -/
def setAxPhase (a v : Nat) (m : Mach) : Mach :=
  let c : Int := match (m.ax a).corr with
    | some (t, s) => if t = m.now then s else 0
    | none => 0
  m.wrI 64 (R.AX_PHASE a) (toSigned 64 v + c)

/-- A correction of AX_PHASE by an Oculus unit. -/
def axCorrect (a : Nat) (c : Int) (m : Mach) : Mach :=
  let s : Int := match (m.ax a).corr with
    | some (t, s) => if t = m.now then s else 0
    | none => 0
  (m.wrI 64 (R.AX_PHASE a) (m.rdI 64 (R.AX_PHASE a) + c)).updAx a (fun x => { x with corr := some (m.now, s + c) })

/-- AX_PROF_NEXT. -/
def axProfNextEffect (a v : Nat) (m : Mach) : Eff :=
  if v = 0xFFFF ∨ (v < 4096 ∧ profValid m v) then .ok (m.wr (R.AX_PROF_NEXT a) v) else .error .range

/-- AX_CMD RESUME. -/
def axResumeEffect (a : Nat) (m : Mach) : Mach :=
  if m.axState a = 3 ∧ (axMaster m a m.now).isSome then m.updAx a (fun x => { x with resume := true }) else m

def axCounters (a : Nat) : List Obj := [R.AX_CNT_EVAL a, R.AX_CNT_NODE_LATE a, R.AX_CNT_LOSS a, R.AX_CNT_SWITCH a]

/-- AX_CMD CLEAR. -/
def axClearEffect (a : Nat) (m : Mach) : Mach := m.each (axCounters a) (fun o m => m.clr o)

/-- AX_CFG: uniqueness of the virtual decoder among axes that are not STOPPED (R209). -/
def axCfgOk (m : Mach) (a v : Nat) : Bool :=
  m.axState a == 0 || !bit 8 v ||
  (axesUp m).all (fun b => b == a || !(axVdecEn m b && axVdec m b == bits 12 9 v))

/-- NODE_READ_ECC_FATAL (R206, R211). -/
def nodeEccEffect (a : Nat) (m : Mach) : Mach :=
  if m.axState a = 0 then m
  else
    let m1 := (camRaise 1 (m.inc R.CAM_CNT_ECC_FATAL)).alarm 6
    if m.axState a = 5 then m1
    else axRaise a 7 (axEnter a 5 (m1.updAx a (fun x => { x with pend := none, sub := none, resume := false })))

/-- Evaluations of an axis that read a node with a correctable error (R211). -/
def nodeCorrected (a : Nat) (ecc : Bool) (m : Mach) : Mach :=
  if ecc ∧ m.axState a ≠ 0 ∧ m.axState a ≠ 5 ∧ !m.fieldStill then camRaise 0 (m.inc R.CAM_CNT_ECC_CORR) else m

/-- COAST_END: the substitute decelerates from t_L + AX_LOSS_TIME on (R207). -/
def coastEndEffect (a : Nat) (m : Mach) : Mach :=
  match (m.ax a).sub with
  | some s =>
    if m.axState a = 3 ∧ s.brake = none then
      let t := s.t + 400 * m.rd (R.AX_LOSS_TIME a)
      m.updAx a (fun x => { x with sub := some { s with brake := some (t, m.rd (R.AX_LOSS_DECEL a)) } })
    else m
  | none => m

/-! ## Evaluation (R195 to R203) -/

/-- The effective master. -/
def axMe (m : Mach) (a : Nat) (pos : Rat) : Int :=
  (pos * (m.rdI 32 (R.AX_GEAR_NUM a) : Rat) / (max 1 (m.rd (R.AX_GEAR_DEN a)) : Rat)).floor + m.rdI 64 (R.AX_PHASE a)

/-- A profile looked up at an effective master: k × rise + y, dy/dme, d²y/dme², k, node and whether the output is held. -/
structure CamHit where
  y : Rat
  d1 : Rat
  d2 : Rat
  k : Int
  node : Int
  held : Bool
deriving DecidableEq, Repr

def camLook (l : List CamNode) (once : Bool) (me : Int) : CamHit :=
  let pm := max 1 (camPm l)
  if once ∧ me < 0 then ⟨(camStart l : Rat), 0, 0, -1, -1, true⟩
  else if once ∧ pm ≤ me then ⟨((camStart l + camRise l : Int) : Rat), 0, 0, 1, l.length, true⟩
  else
    let k := if once then 0 else me / pm
    let ph := me - k * pm
    match camFind ph l 0 0 with
    | none => ⟨0, 0, 0, k, 0, false⟩
    | some (i, cum, n) =>
      let sp : Rat := n.span
      let r := n.at_ (((ph - cum : Int) : Rat) / sp)
      ⟨((k * camRise l : Int) : Rat) + r.1, r.2.1 / sp, r.2.2 / (sp * sp), k, i, false⟩

/-- The nodes of the version an axis evaluates. -/
def axNodes (m : Mach) (a : Nat) : List CamNode :=
  let x := m.prof (m.rd (R.AX_PROF_CUR a))
  camNodes (if (m.ax a).ver = x.ver then x.act else x.old)

/-- A node outside the cache: more than two away from the one it stands around (R198). -/
def nodeLate (n : Nat) (once : Bool) (cache : Option Int) (node : Int) : Bool :=
  match cache with
  | none => false
  | some c =>
    let d := (node - c).natAbs
    decide (0 ≤ node) && decide (node < n) && decide (2 < (if once then d else min d (n - d)))

/-- The pending switch of an axis: the profile, and whether it is a change of profile (R201). -/
def axPending (m : Mach) (a : Nat) : Option (Nat × Bool) :=
  let nx := m.rd (R.AX_PROF_NEXT a)
  let p := m.rd (R.AX_PROF_CUR a)
  if nx ≠ 0xFFFF ∧ profValid m nx then some (nx, true)
  else if (m.ax a).ver ≠ (m.prof p).ver ∧ profValid m p then some (p, false)
  else none

/-- RUNNING or HELD by the range of ONCE. -/
def axHeld (a : Nat) (held : Bool) (m : Mach) : Mach :=
  if m.axState a = 2 ∧ held then axRaise a 5 (axEnter a 4 m)
  else if m.axState a = 4 ∧ !held then axEnter a 2 m
  else m

/-- The switch: new profile, JOIN, events and the release of the version left (R201, R202). -/
def axSwitch (a : Nat) (p : Nat) (change : Bool) (me : Int) (old : CamHit) (m : Mach) : CamHit × Mach :=
  let p0 := m.rd (R.AX_PROF_CUR a)
  let new := camLook (camNodes (m.prof p).act) (axOnce m a) me
  let m1 := if axJoin m a then m.wrI 64 (R.AX_BASE a) (m.rdI 64 (R.AX_BASE a) + ratNear (old.y - new.y)) else m
  let m2 := ((m1.wr (R.AX_PROF_CUR a) p).updAx a (fun x => { x with ver := (m.prof p).ver })).inc (R.AX_CNT_SWITCH a)
  let m3 := if change then axRaise a 3 (m2.wr (R.AX_PROF_NEXT a) 0xFFFF) else axRaise a 4 m2
  (new, profRelease p0 m3)

/-- One evaluation for te with the master's position, speed and acceleration. -/
def axCompute (a te : Nat) (mp : Rat × Rat × Rat) (m : Mach) : Mach :=
  let me := axMe m a mp.1
  let once := axOnce m a
  let nodes := axNodes m a
  let hit := camLook nodes once me
  let x := m.ax a
  if nodeLate nodes.length once x.cache hit.node then
    let m1 := axRaise a 6 ((axHeld a hit.held m).inc (R.AX_CNT_NODE_LATE a))
    let e : AxEval := match x.pend.toList ++ x.hist with
      | h :: _ =>
        let r := evalAt h te
        ⟨te, ratNear r.1, satSigned 32 (ratNear (r.2.1 * 65536)), h.ac, me⟩
      | [] => ⟨te, 0, 0, 0, me⟩
    m1.updAx a (fun x => { x with cache := some hit.node, pend := some e })
  else
    let point := match x.last with
      | none => false
      | some (k, n) => if axSegment m a then n != hit.node else k != hit.k
    let r := match axPending m a with
      | some (p, change) => if point then axSwitch a p change me hit m else (hit, m)
      | none => (hit, m)
    let h := r.1
    let m2 := axHeld a h.held r.2
    let g : Rat := (m.rdI 32 (R.AX_GEAR_NUM a) : Rat) / (max 1 (m.rd (R.AX_GEAR_DEN a)) : Rat)
    let v := mp.2.1 * g
    let e : AxEval := ⟨te, m2.rdI 64 (R.AX_BASE a) + ratNear h.y, satSigned 32 (ratNear (h.d1 * v * 65536)),
      satSigned 32 (ratNear ((h.d2 * v * v + h.d1 * mp.2.2 * g) * 4294967296)), me⟩
    let m3 := m2.updAx a (fun x => { x with last := some (h.k, h.node), cache := some h.node, pend := some e })
    if h.held then m3 else m3.wr (R.AX_SEG a) h.node.toNat

/-- The axis takes VDEC and VDEC_EN at the begin of an evaluation (R209). -/
def axTakeVdec (a : Nat) (m : Mach) : Mach :=
  let want := if axVdecEn m a then some (axVdec m a) else none
  if (m.ax a).vdec = want then m
  else
    let m1 := m.updAx a (fun x => { x with vdec := want, vdir := 0 })
    vdecNote (axPublishes m a) (axPublishes m1 a) m1

/-- The master is lost: the substitute starts from the last valid evaluation (R206, R207). -/
def axLose (a : Nat) (m : Mach) : Mach :=
  let s : Subst := match (m.ax a).good with
    | some (t, p, v) => { t := t, p := p, v := v, brake := if axRamp m a then some (t, m.rd (R.AX_LOSS_DECEL a)) else none }
    | none => { t := m.now, p := 0, v := 0 }
  axRaise a 1 ((axEnter a 3 (m.updAx a (fun x => { x with sub := some s, resume := false }))).inc (R.AX_CNT_LOSS a))

/-- AX_EVALUATION: te lies 48 T ahead; `ecc` says that a node read met a correctable error. -/
def axEvaluate (a : Nat) (ecc : Bool) (m0 : Mach) : Mach :=
  let m := nodeCorrected a ecc m0
  let st := m.axState a
  let te := m.now + 48
  if st = 0 ∨ st = 5 ∨ m.fieldStill then m
  else
    let m1 := axTakeVdec a m
    match st, axMaster m1 a te with
    | 1, none => m1
    | 1, some mp => axCompute a te mp ((axRaise a 0 (axEnter a 2 m1)).updAx a (fun x => { x with good := some (te, mp.1, mp.2.1) }))
    | 3, mp =>
      match (m1.ax a).sub with
      | none => m1
      | some s =>
        let sp := substAt m1 a te s
        match mp, (m1.ax a).resume with
        | some r, true =>
          let m2 := if axJoin m1 a then
              m1.wrI 64 (R.AX_PHASE a) (m1.rdI 64 (R.AX_PHASE a) + (axMe m1 a sp.1 - axMe m1 a r.1))
            else m1
          axCompute a te r (axRaise a 2 (axEnter a 2
            (m2.updAx a (fun x => { x with sub := none, resume := false, good := some (te, r.1, r.2.1) }))))
        | _, _ => axCompute a te sp (m1.updAx a (fun x => { x with resume := false }))
    | _, some mp => axCompute a te mp (m1.updAx a (fun x => { x with good := some (te, mp.1, mp.2.1) }))
    | _, none =>
      let m2 := axLose a m1
      match (m2.ax a).sub with
      | some s => axCompute a te (substAt m2 a te s) m2
      | none => m2

/-! ## Publication (R197, R200, R209, R210) -/

/-- AX_PUBLISH. -/
def axPublishEffect (a : Nat) (m : Mach) : Mach :=
  let x := m.ax a
  let st := m.axState a
  match x.pend with
  | none => m
  | some e =>
    if m.fieldStill ∨ (st ≠ 2 ∧ st ≠ 3 ∧ st ≠ 4) then m
    else
      let dir := if 0 < e.sp then 1 else if e.sp < 0 then 2 else x.vdir
      let m1 := m.setAx a { x with pend := none, hist := (e :: x.hist).take 4, vdir := dir }
      let m2 := ((((m1.wrI 64 (R.AX_POS a) e.pos).wrI 32 (R.AX_SPEED a) e.sp).wrI 32 (R.AX_ACCEL a) e.ac).wrI 64
        (R.AX_MPOS a) e.me).wr (R.AX_LAST_EVAL a) e.te
      let m3 := m2.inc (R.AX_CNT_EVAL a)
      let m4 := match x.vdec with
        | some v =>
          let m5 := if dir = x.vdir then m3 else m3.note (.dir (16 + v) x.vdir dir)
          m5.note (.tooth (16 + v) (dir == 2))
        | none => m3
      let v : Rat := (e.sp : Rat) / 65536
      let acc : Rat := (e.ac : Rat) / 4294967296
      let c : Rat := cycle32
      m4.each ((List.range 128).filter (fun ch => m.chMode ch == 6 && bits 22 16 (m.rd (R.CH_PT_CFG ch)) == a))
        (fun ch m => ptPublish ch (e.te, (e.pos : Rat) / c, v / c, acc / c) m)

/-- The axis of virtual decoder v, if one publishes to it. -/
def vdecAxis (m : Mach) (v : Nat) : Option Nat := (axesUp m).find? (fun a => axPublishes m a == some v)

/-- AX_VDEC_STAT. -/
def axVdecStat (m : Mach) (a : Nat) : Nat := (m.ax a).vdir * 16 + (if (axPublishes m a).isSome then 3 else 0)

end Sys2Proof.Machine
end

