-- ==== Sys2Proof/Machine/Decoder.lean ====
section
/-! DEFINITION. Decoders by number (R102): 0 to 15 real, 16 to 31 virtual, whose teeth are the evaluations of the axis that
publishes to them (R200, R209). -/

namespace Sys2Proof.Machine

/-- The latest results of the axis behind virtual decoder n. -/
def vdecEvals (m : Mach) (n : Nat) : List AxEval :=
  match vdecAxis m (n - 16) with
  | some a => (m.ax a).hist
  | none => []

/-- The state, as WHL_STATE. -/
def decState (m : Mach) (n : Nat) : Nat :=
  if n < 16 then m.whlState n else if (vdecAxis m (n - 16)).isSome then 3 else 0

/-- The direction, as WHL_DIR. -/
def decDir (m : Mach) (n : Nat) : Nat :=
  if n < 16 then m.rd (R.WHL_DIR n)
  else
    match vdecAxis m (n - 16) with
    | some a => (m.ax a).vdir
    | none => 0

/-- The published position. -/
def decPos (m : Mach) (n : Nat) : Int :=
  if n < 16 then whlPosNow m n
  else
    match vdecAxis m (n - 16) with
    | some a => m.rdI 64 (R.AX_POS a)
    | none => 0

/-- The latest tooth: stamp, position, speed and acceleration. -/
def decTooth (m : Mach) (n : Nat) : Option (Rat × Int × Rat × Rat) :=
  if n < 16 then (m.whl n).hist.head?.map (fun h => (h.t, h.p, h.om, h.al))
  else (vdecEvals m n).head?.map (fun e => ((e.te : Rat), e.pos, (e.sp : Rat) / 65536, (e.ac : Rat) / 4294967296))

/-- θ(t) of R137 without the hold, at an instant not before the latest tooth. -/
def decMotion (m : Mach) (n : Nat) (t : Rat) : Option Rat :=
  if n < 16 then (whlMotion m n t).map (·.1)
  else
    (vdecEvals m n).head?.map (fun e =>
      let dt := t - (e.te : Rat)
      (e.pos : Rat) + (e.sp : Rat) / 65536 * dt + (e.ac : Rat) / 4294967296 * dt * dt / 2)

/-- The position at a past instant by the interpolation valid then (R39, R141). -/
def decPast (m : Mach) (n : Nat) (t : Rat) : Option Rat :=
  if n < 16 then whlPast m n t
  else
    ((vdecEvals m n).find? (fun e => decide ((e.te : Rat) ≤ t))).map (fun e =>
      let dt := t - (e.te : Rat)
      (e.pos : Rat) + (e.sp : Rat) / 65536 * dt + (e.ac : Rat) / 4294967296 * dt * dt / 2)

end Sys2Proof.Machine
end

