-- ==== Sys2Proof/Machine/Lantern.lean ====
section
/-! DEFINITION. Lantern angle-event scheduling (chapter 5): targets, the window, placement, refreshes, commits, block causes
and what decoder happenings do to slots. -/

namespace Sys2Proof.Machine

def Mach.evt (m : Mach) (s : Nat) : EvtSlot := mapGet {} s m.evts

def Mach.setEvtSlot (s : Nat) (x : EvtSlot) (m : Mach) : Mach := { m with evts := mapSet {} s x m.evts }

def Mach.updEvt (s : Nat) (f : EvtSlot → EvtSlot) (m : Mach) : Mach := m.setEvtSlot s (f (m.evt s))

def Mach.lane (m : Mach) (n : Nat) : Lane := mapGet {} n m.lan.lanes

def Mach.setLane (n : Nat) (x : Lane) (m : Mach) : Mach := { m with lan := { m.lan with lanes := mapSet {} n x m.lan.lanes } }

def Mach.updLane (n : Nat) (f : Lane → Lane) (m : Mach) : Mach := m.setLane n (f (m.lane n))

/-! ## Slot configuration -/

def evtDec (m : Mach) (s : Nat) : Nat := bits 20 16 (m.rd (R.EVT_BIND s))
def evtChan (m : Mach) (s : Nat) : Nat := bits 14 8 (m.rd (R.EVT_BIND s))
def evtGroup (m : Mach) (s : Nat) : Nat := bits 7 4 (m.rd (R.EVT_BIND s))
def evtMode (m : Mach) (s : Nat) : Nat := bits 1 0 (m.rd (R.EVT_REPEAT s))
def evtN (m : Mach) (s : Nat) : Nat := bits 31 16 (m.rd (R.EVT_REPEAT s))
def evtFwPol (m : Mach) (s : Nat) : Bool := bit 0 (m.rd (R.EVT_POLICY s))
def evtStallCut (m : Mach) (s : Nat) : Bool := bit 1 (m.rd (R.EVT_POLICY s))
def evtRevTol (m : Mach) (s : Nat) : Bool := bit 2 (m.rd (R.EVT_POLICY s))
def evtPlanPend (m : Mach) (s : Nat) : Bool := bit 3 (m.rd (R.EVT_POLICY s))
def evtLateMode (m : Mach) (s : Nat) : Nat := bits 5 4 (m.rd (R.EVT_POLICY s))
def evtFwLimit (m : Mach) (s : Nat) : Nat := bits 15 8 (m.rd (R.EVT_POLICY s))

/-- The commit horizon of a decoder in 1/8 T, and the limit of its windowed events (R164). -/
def lanH8 (m : Mach) (n : Nat) : Nat := 8 * m.rd (R.LAN_DEC_H n)
def nwLimOf (h : Nat) : Nat := min 1024 (4 * ((h - 38) / 2))
def nwLim (m : Mach) (n : Nat) : Nat := nwLimOf (m.rd (R.LAN_DEC_H n))

/-- The slots bound to a decoder that are not in their reset condition, in ascending order. -/
def slotsOf (m : Mach) (n : Nat) : List Nat := (m.evts.map (·.1)).filter (fun s => evtDec m s == n)

/-- n_w: PLANNED slots of a decoder. -/
def lanNw (m : Mach) (n : Nat) : Nat := ((slotsOf m n).filter (fun s => (m.evt s).st == 2)).length

/-- The places that a pair takes: two until its end has been played, less those of entries that were taken out (R153, log 66). -/
def pairPlaces (started noS noE : Bool) : Nat := if started then (if noE then 0 else 2) else boolNat (!noS) + boolNat (!noE)

/-- The places that each pair of a channel takes, from its first posting; a cut pair leaves at its cut instant (R153, R175). -/
def pairsAt (m : Mach) (c : Nat) : List Nat :=
  (m.evts.filter (fun e => evtChan m e.1 == c && (e.2.st == 2 || e.2.st == 3 || e.2.st == 4))).map (fun e =>
    pairPlaces (e.2.st == 4) e.2.noS e.2.noE) ++
  (m.lan.tails.filter (fun t => t.c == c)).map (fun t => pairPlaces (decide (t.s ≤ m.now8)) t.noS t.noE)

/-- Pairs on a channel's queue. -/
def pairsOn (m : Mach) (c : Nat) : Nat := ((pairsAt m c).filter (fun n => n != 0)).length

/-- Entries in the queue of an ANGLE_OUT channel. -/
def angleCount (m : Mach) (c : Nat) : Nat := (pairsAt m c).foldl (· + ·) 0

/-! ## Events (R180) -/

/-- Raises slot event `b`: the slot's LAN_PEND bit and its group's source. -/
def evtRaise (s b : Nat) (m : Mach) : Mach :=
  let m1 := m.setEvt (R.EVT_EVT s) b
  if bit b (m.rd (R.EVT_EVT_EN s)) then (m1.setEvt (R.LAN_PEND (s / 32)) (s % 32)).assertSrc (352 + evtGroup m s) else m1

/-- Raises global event `b`. -/
def lanRaise (b : Nat) (m : Mach) : Mach := m.raise R.LAN_EVT R.LAN_EVT_EN b (352 + m.rd R.LAN_GRP)

/-! ## Output level (R152, R175) -/

/-- Start and end in 1/8 T of every pair that the output stage of the channel holds; one whose start entry was taken out never raises
the pin (log 66). -/
def angleSpans (m : Mach) (c : Nat) : List (Nat × Nat) :=
  (m.evts.filter (fun e => (e.2.st == 3 || e.2.st == 4) && evtChan m e.1 == c && !e.2.noS)).map (fun e => (e.2.s, e.2.e)) ++
  (m.lan.tails.filter (fun t => t.c == c && !t.noS)).map (fun t => (t.s, t.e))

/-- Inserts a number into a rising list without repeats. -/
def insertRising (k : Nat) : List Nat → List Nat
  | [] => [k]
  | a :: rest => if k < a then k :: a :: rest else if k = a then a :: rest else a :: insertRising k rest

/-- The pin is active at an instant while at least one event is (R152). -/
def angleActive (m : Mach) (c t : Nat) : Bool := (angleSpans m c).any (fun p => decide (p.1 ≤ t) && decide (t < p.2))

/-- The stage plays every edge of the channel's events up to the end of this tick that it has not played, in the order of their
instants; those of one instant are applied together. -/
def angleDrive (c : Nat) (m : Mach) : Mach :=
  if m.chMode c ≠ 8 then m
  else
    let after : Nat := match (m.chan c).join with
      | some (t, _, _) => t + 1
      | none => 0
    let l := ((angleSpans m c).flatMap (fun p => [p.1, p.2])).filter (fun t => decide (after ≤ t61 t) && decide (t < m.now8 + 8))
    let m1 := m.each (l.foldl (fun a t => insertRising t a) []) (fun t m => outTransition c (angleActive m c t) t m)
    -- an end that a command brought before its instant
    let on := angleActive m1 c (m.now8 + 7)
    if (m1.chan c).level = on then m1 else outTransition c on m.now8 m1

/-- The channel's stage is left without events: the pin is inactive. -/
def angleClear (c : Nat) (m : Mach) : Mach := if m.chMode c = 8 then outTransition c false m.now8 m else m

/-! ## Targets (R154, R155) -/

/-- The smallest eligible target above a position; none for ONESHOT_AT once its position is passed. -/
def nextTarget (m : Mach) (s : Nat) (above : Int) : Option Int :=
  let th : Int := m.rd (R.EVT_TIMING s) % 2 ^ 32
  let cyc : Int := m.rdI 32 (R.EVT_CYCLE s)
  -- the smallest cycle whose target lies above
  let c0 : Int := (above - th) / cycle32 + 1
  match evtMode m s with
  | 1 => if above < cyc * cycle32 + th then some (cyc * cycle32 + th) else none
  | 2 =>
    let n : Int := max 1 (evtN m s)
    some ((c0 + (cyc - c0) % n) * cycle32 + th)
  | _ => some (c0 * cycle32 + th)

/-! ## Block causes (R174) -/

/-- The first of causes 1 to 4 that is present for a slot; 0 none. -/
def causeDec (m : Mach) (s : Nat) : Nat :=
  let n := evtDec m s
  let st := decState m n
  let pp := evtPlanPend m s
  let fz := (m.evt s).frozen && evtFwPol m s
  let lost := (m.lane n).lost
  if st = 0 ∨ st = 1 ∨ (st = 2 ∧ !pp ∧ !fz) then 1
  else if !fz ∧ (lost = 1 ∨ (lost = 2 ∧ !pp)) then 2
  else if st = 5 then 3
  else if decDir m n ≠ 1 then 4
  else 0

/-- The first cause present for a slot that needs a place in a window of `lim` slots. -/
def causeIn (lim : Nat) (m : Mach) (s : Nat) : Nat :=
  let c := causeDec m s
  if c ≠ 0 then c
  else if 8 ≤ pairsOn m (evtChan m s) then 5
  else if lim ≤ lanNw m (evtDec m s) then 6
  else 0

def causeAll (m : Mach) (s : Nat) : Nat := causeIn (nwLim m (evtDec m s)) m s

/-- BLOCKED: a posted pair is retracted. -/
def evtBlock (s cause : Nat) (m : Mach) : Mach :=
  let m1 := if (m.evt s).st = 2 then m.inc (R.EVT_CNT_MISS s) else m
  evtRaise s 6 (m1.updEvt s (fun x => { x with st := 6, cause := cause, frozen := false }))

/-- CANCELLED as a miss. -/
def evtMiss (s : Nat) (m : Mach) : Mach :=
  evtRaise s 8 ((m.inc (R.EVT_CNT_MISS s)).updEvt s (fun x => { x with st := 7, frozen := false, cause := 0, ended := m.now }))

/-- What of a slot outlasts its occurrence: UNPREDICTABLE, which only a refresh that computes a start clears (R159). -/
def EvtSlot.rest (x : EvtSlot) : EvtSlot := { unpred := x.unpred }

/-- A target is chosen above a position, and the slot is ARMED, or BLOCKED while a decoder cause stands. -/
def evtAim (s : Nat) (above : Int) (m : Mach) : Mach :=
  match nextTarget m s above with
  | none => evtMiss s (m.updEvt s EvtSlot.rest)
  | some t =>
    let m1 := m.updEvt s (fun x => { x.rest with st := 1, target := t, dur := m.rd (R.EVT_TIMING s) / 2 ^ 32 })
    let c := causeDec m1 s
    if c = 0 then m1 else evtBlock s c m1

/-- A slot arms from IDLE, or by ARM (R154). -/
def evtArm (s : Nat) (m : Mach) : Mach := evtAim s (decPos m (evtDec m s)) m

/-- The next target after an occurrence, or after BLOCKED (R155). -/
def evtNext (s : Nat) (m : Mach) : Mach :=
  let pos := decPos m (evtDec m s)
  evtAim s (if evtMode m s = 1 then pos else max pos (m.evt s).target) m

/-- BLOCKED slots whose causes cleared are ARMED again, in ascending order; the others show the first cause present. -/
def lanUnblock (m : Mach) : Mach :=
  m.each ((m.evts.filter (fun e => e.2.st == 6)).map (·.1)) (fun s m =>
    let c := causeAll m s
    if c = 0 then evtNext s m else m.updEvt s (fun x => { x with cause := c }))

/-- Slots whose state can stand: a block cause that a write brought blocks them, one that it ended frees them (R174). -/
def lanRecheck (slots : List Nat) (m : Mach) : Mach :=
  lanUnblock (m.each slots (fun s m =>
    let st := (m.evt s).st
    if st = 1 ∨ st = 2 then (let c := causeDec m s; if c = 0 then m else evtBlock s c m) else m))

/-! ## Writes that a refresh does not yet see (R156, R179) -/

/-- A Lantern object that a refresh reads. -/
def lanReads (o : Obj) : Bool :=
  (decide (0x2200 ≤ o.idx) && decide (o.idx < 0x2600) && (o.sub == 3 || o.sub == 7 || o.sub == 8 || o.sub == 9)) ||
  (o.idx == 0x2600 && o.sub == 3) || (decide (0x2610 ≤ o.idx) && decide (o.idx < 0x2630) && o.sub == 1)

/-- The value such an object had is kept for the refreshes that began at or before this tick. -/
def lanPast (o : Obj) (m : Mach) : Mach :=
  if lanReads o then { m with lan := { m.lan with past := m.lan.past ++ [(o.key, m.now, m.rd o)] } } else m

/-- What a refresh that began in a tick reads. -/
def rdAt (m : Mach) (began : Nat) (o : Obj) : Nat :=
  match m.lan.past.find? (fun e => e.1 == o.key && decide (began ≤ e.2.1)) with
  | some e => e.2.2
  | none => m.rd o

/-- Past values that no refresh can read any more are forgotten. -/
def lanForget (m : Mach) : Mach :=
  if m.lan.past.isEmpty then m
  else { m with lan := { m.lan with past := m.lan.past.filter (fun e => m.lan.lanes.any (fun l => match l.2.busy with
    | some b => decide (b.began ≤ e.2.1)
    | none => false)) } }

/-! ## Placement (R158 to R160, R162) -/

/-- Start and end in 1/8 T and whether the lead limit held the start; none when unpredictable. -/
def evtPlace (b : Batch) (target : Int) (dur lead : Nat) : Option (Int × Int × Bool) :=
  let dth : Rat := ((target - b.p : Int) : Rat)
  if b.om ≤ 0 then none
  else
    let den := b.om + b.al * (dth / b.om) / 2
    if den ≤ 0 then none
    else
      let te := b.t + dth / den
      let s := te - (dur : Rat)
      let dl := dth - (lead : Rat)
      let den2 := b.om + b.al * (dl / b.om) / 2
      let tl := if dl ≤ 0 ∨ den2 = 0 then b.t else b.t + dl / den2
      let s2 := if s < tl then tl else s
      let s8 := (8 * s2 + 1 / 2).floor
      some (s8, s8 + 8 * dur, decide (s < tl))

/-- A pair is posted or reposted. -/
def evtPost (s : Nat) (s8 e8 : Int) (tol : Nat) (late clamped first : Bool) (m : Mach) : Mach :=
  let x := m.evt s
  let moved := decide (tol < (s8 - x.s).natAbs) || decide (tol < (e8 - x.e).natAbs)
  let y := { x with st := 2, late := late, clamped := clamped, cause := 0 }
  if first then
    let n := evtDec m s
    let m1 := evtRaise s 0 (m.setEvtSlot s { y with s := s8.toNat, e := e8.toNat, noS := false, noE := false })
    m1.maxTo (R.LAN_DEC_NW_MAX n) (lanNw m1 n)
  else if moved then (m.setEvtSlot s { y with s := s8.toNat, e := e8.toNat, noS := false, noE := false }).inc (R.EVT_CNT_REPOST s)
  else m.setEvtSlot s y

/-- One slot computed at a refreshed tooth: `first` for a window entry. -/
def evtCompute (s : Nat) (b : Batch) (first : Bool) (m : Mach) : Mach :=
  let x := m.evt s
  let tol := rdAt m b.began (R.EVT_TOL s)
  match evtPlace b x.target x.dur (rdAt m b.began (R.EVT_LEAD_MAX s)) with
  | none => m.setEvtSlot s { x with st := 1, unpred := true, late := false, frozen := false }
  | some (s8, e8, cl) =>
    let m := m.setEvtSlot s { x with unpred := false }
    let least : Int := (8 * b.t).floor + 8 * rdAt m b.began (R.LAN_DEC_H (evtDec m s))
    if least ≤ s8 then evtPost s s8 e8 tol false cl first m
    else
      let m1 := evtRaise s 5 ((m.inc (R.EVT_CNT_LATE s)).updEvt s (fun x => { x with late := true }))
      match bits 5 4 (rdAt m b.began (R.EVT_POLICY s)) with
      | 0 => evtPost s least (least + 8 * x.dur) tol true cl first m1
      | 1 => if e8 ≤ least then evtMiss s m1 else evtPost s least e8 tol true cl first m1
      | _ => evtMiss s m1

/-- EVT_TIMING as it applies to a refresh of an uncommitted occurrence (R156). -/
def evtRetime (s : Nat) (b : Batch) (m : Mach) : Mach :=
  m.updEvt s (fun x =>
    let v := rdAt m b.began (R.EVT_TIMING s)
    { x with target := x.target / cycle32 * cycle32 + ((v % 2 ^ 32 : Nat) : Int), dur := v / 2 ^ 32 })

/-- The decoder is plannable for the slot, whose policy is `pol` (R168). -/
def plannableBy (pol : Nat) (m : Mach) (s : Nat) : Bool :=
  let n := evtDec m s
  decDir m n == 1 && (decState m n == 3 || (decState m n == 2 && bit 3 pol))

def evtPlannable (m : Mach) (s : Nat) : Bool := plannableBy (m.rd (R.EVT_POLICY s)) m s

/-- One slot of a batch (R157, R159, R163, R177), by the objects as they stood when the refresh began (R179). A tooth tracked backward, or a standing wheel, leaves an ARMED slot unpredictable
wherever its target is (R176). -/
def evtRefresh (s : Nat) (b : Batch) (m : Mach) : Mach :=
  let st := (m.evt s).st
  let h := rdAt m b.began (R.LAN_DEC_H (evtDec m s))
  if (st ≠ 1 ∧ st ≠ 2) ∨ !plannableBy (rdAt m b.began (R.EVT_POLICY s)) m s then m
  else
    let m1 := evtRetime s b m
    let x := m1.evt s
    if st = 2 then
      if (8 * b.t).floor ≤ (x.s : Int) - 8 * h then
        evtCompute s b false (m1.setEvtSlot s { x with frozen := false, fwEnd := none })
      else m
    else if b.om ≤ 0 then m1.setEvtSlot s { x with unpred := true }
    else if x.target - b.p ≤ (rdAt m b.began R.LAN_PLAN_WIN : Int) * 65536 then
      let c := causeIn (nwLimOf h) m1 s
      if c = 0 then evtCompute s b true m1 else evtBlock s c m1
    else m1

/-- Every slot of a batch, in ascending order. -/
def lanBatch (n : Nat) (b : Batch) (m : Mach) : Mach := m.each (slotsOf m n) (fun s m => evtRefresh s b m)

/-- n_w as it stands after a tooth's window entries (R166, R169). -/
def nwAfter (n : Nat) (b : Batch) (m : Mach) : Nat := lanNw (lanBatch n b m) n

/-- A tooth takes the lane: its batch takes L_r (R166). -/
def lanBegin (n : Nat) (b : Batch) (m : Mach) : Mach :=
  let b1 := { b with began := m.now }
  m.updLane n (fun l => { l with busy := some { b1 with fin := m.now + 14 + 2 * ((nwAfter n b1 m + 3) / 4) } })

/-- LANTERN_REFRESH: the batch of lane n completes, and a waiting tooth takes the lane (R166, R167). -/
def lanRefresh (n : Nat) (m : Mach) : Mach :=
  match (m.lane n).busy with
  | none => m
  | some b =>
    let m1 := lanUnblock (((lanBatch n b m).maxTo (R.LAN_DEC_LR_MAX n) (min 0xFFFF (m.now - b.at_))).updLane n (fun l =>
      { l with busy := none, wait := l.wait.drop 1 }))
    match (m.lane n).wait with
    | [] => m1
    | w :: _ => lanBegin n w m1

/-- A tooth is not refreshed. -/
def lanSkip (n : Nat) (m : Mach) : Mach := lanRaise 3 (m.inc (R.LAN_DEC_SKIP n))

/-- A tooth that finds the lane taken waits; it replaces one that waits already, unless that one takes the lane in this tick
(R167). -/
def lanWait (n : Nat) (b c : Batch) (m : Mach) : Mach :=
  let l := (m.lane n).wait
  let free := if b.fin ≤ m.now then 1 else 0
  if l.length ≤ free then m.updLane n (fun x => { x with wait := l ++ [c] })
  else lanSkip n (m.updLane n (fun x => { x with wait := l.dropLast ++ [c] }))

/-- A refresh-triggering tooth reaches its lane (R167, R169). -/
def lanTooth (n : Nat) (m : Mach) : Mach :=
  match decTooth m n with
  | none => m
  | some (t, p, om, al) =>
    let cnt := (m.lane n).cnt + 1
    let m0 := m.updLane n (fun l => { l with cnt := cnt })
    if !m.on R.LAN_RUN then m0
    else
      let b : Batch := { t := t, p := p, om := om, al := al, at_ := m.now, began := m.now }
      let m1 := { m0 with lan := { m0.lan with demand := m.lan.demand + nwAfter n b m } }
      if cnt % (m.lan.k1 + 1) ≠ 0 then lanSkip n m1
      else
        match (m.lane n).busy with
        | none => lanBegin n b m1
        | some c => lanWait n c b m1

/-- DEMAND_INTERVAL (R169, R170). -/
def lanInterval (m : Mach) : Mach :=
  let d := m.lan.demand
  let k := m.lan.k1 + 1
  let k2 := min 64 (max 1 (max ((d + 7999) / 8000) (k - 1)))
  let m1 := { m.wr R.LAN_DEMAND d with lan := { m.lan with demand := 0, k1 := k2 - 1 } }
  let m2 := m1.maxTo R.LAN_DEMAND_MAX d
  let m3 := if 1 < k then m2.inc R.LAN_CNT_OVL else m2
  if k = 1 ∧ 1 < k2 then lanRaise 0 m3 else if 1 < k ∧ k2 = 1 then lanRaise 1 m3 else m3

/-! ## Handover, start and end (R165, R172) -/

/-- Instants of a virtual decoder's evaluation that is not published yet: a tooth stamped there is still to come (R146, R163). -/
def vdecWaits (m : Mach) (n : Nat) : List Nat :=
  if n < 16 then []
  else ((vdecAxis m (n - 16)).bind (fun a => (m.ax a).pend)).toList.map (·.te)

/-- A refresh of the slot is pending for a tooth stamped at or before its commit point; a frozen pair has none while its decoder is
not plannable (R177). -/
def refreshPending (m : Mach) (s : Nat) : Bool :=
  let n := evtDec m s
  let commit : Int := ((m.evt s).s : Int) - lanH8 m n
  (((m.lane n).busy.toList ++ (m.lane n).wait).any (fun b => decide ((8 * b.t).floor ≤ commit)) ||
    (vdecWaits m n).any (fun te => decide (8 * (te : Int) ≤ commit))) &&
  (!(m.evt s).frozen || evtPlannable m s)

/-- The pair's handover falls in this tick: FTB - 4 T is past the commit point and no refresh is pending, or the start is 12 ticks
away. -/
def handoverDue (m : Mach) (s : Nat) : Bool :=
  let x := m.evt s
  x.st == 2 && (decide (x.s / 8 ≤ m.now + 12) ||
    (decide ((x.s : Int) - lanH8 m (evtDec m s) < 8 * ((m.now : Int) - 4)) && !refreshPending m s))

def evtCommit (s : Nat) (m : Mach) : Mach := evtRaise s 1 (m.updEvt s (fun x => { x with st := 3, frozen := false, fwEnd := none }))

/-- HANDOVER. -/
def evtHandover (s : Nat) (m : Mach) : Mach :=
  if (m.evt s).st = 2 ∧ !refreshPending m s ∧ !m.fieldStill then lanUnblock (evtCommit s m) else m

/-- HANDOVER_FALLBACK: the pending refresh is discarded. -/
def evtFallback (s : Nat) (m : Mach) : Mach :=
  if (m.evt s).st = 2 ∧ !m.fieldStill then
    lanUnblock (evtRaise s 9 (lanRaise 2 ((evtCommit s m).inc R.LAN_CNT_ABANDON)))
  else m

/-- A handover that falls in this tick comes before the writes and commands of the tick (R179). -/
def evtHandIf (s : Nat) (m : Mach) : Mach :=
  if !handoverDue m s then m else if refreshPending m s then evtFallback s m else evtHandover s m

/-- An entry of an ANGLE_OUT queue plays: CH_CNT_EVENTS counts it (R254). -/
def anglePlayed (c : Nat) (gone : Bool) (m : Mach) : Mach := if m.chMode c = 8 ∧ !gone then m.inc (R.CH_CNT_EVENTS c) else m

/-- EVT_START. -/
def evtStartPlay (s : Nat) (m : Mach) : Mach :=
  if (m.evt s).st = 3 ∧ !m.fieldStill then
    anglePlayed (evtChan m s) (m.evt s).noS (angleDrive (evtChan m s) (evtRaise s 2 (m.updEvt s (fun x => { x with st := 4 }))))
  else m

/-- The slot may go on to further occurrences. -/
def evtLive (m : Mach) (s : Nat) : Bool := m.on (R.EVT_ENABLE s) && m.on R.LAN_RUN

/-- EVT_END: DONE, or IDLE where the slot or Lantern was stopped meanwhile. -/
def evtEndPlay (s : Nat) (m : Mach) : Mach :=
  if (m.evt s).st = 4 ∧ !m.fieldStill then
    let m1 := (angleDrive (evtChan m s) m).updEvt s (fun x => { x with st := if evtLive m s then 5 else 0, late := false, clamped := false, ended := m.now })
    lanUnblock (anglePlayed (evtChan m s) (m.evt s).noE (angleDrive (evtChan m s) (evtRaise s 3 (m1.inc (R.EVT_CNT_DONE s)))))
  else m

/-- EVT_REARM: the tick after DONE or CANCELLED of an EVERY_N slot. -/
def evtRearmPlay (s : Nat) (m : Mach) : Mach :=
  let st := (m.evt s).st
  if (st = 5 ∨ st = 7) ∧ evtMode m s = 2 ∧ evtLive m s then evtNext s m else m

/-- A committed or active occurrence is cut at c + 12 T (R175). -/
def evtCut (s : Nat) (m : Mach) : Mach :=
  let x := m.evt s
  let at_ := m.now8 + 96
  let c := evtChan m s
  let m1 := { m with lan := { m.lan with tails := m.lan.tails ++ [(⟨c, x.s, min at_ x.e, x.noS, x.noE⟩ : Tail)] } }
  let m2 := m1.updEvt s (fun x => { x with st := if evtLive m s then 7 else 0, late := false, clamped := false, ended := m.now })
  lanUnblock (evtRaise s 7 (m2.inc (R.EVT_CNT_CUT s)))

/-- What the entries of a cut pair that play in this tick count; one that ends before it starts plays none (R175). -/
def tailPlays (t : Tail) (m : Mach) : Mach :=
  let ends := anglePlayed t.c (t.noE || m.now < t.e / 8 || t.e ≤ t.s) m
  anglePlayed t.c (t.noS || m.now != t.s / 8 || t.e ≤ t.s) ends

/-- The output stages play the edges of this tick, and cut pairs whose cut instant it reaches free their place (R152, R153, R175). -/
def anglesPlay (m : Mach) : Mach :=
  let m1 := m.each ((m.evts.filter (fun e => e.2.st == 3 || e.2.st == 4)).map (fun e => evtChan m e.1) ++ m.lan.tails.map (·.c)) angleDrive
  if m.lan.tails.isEmpty then m1
  else
    let m2 := m1.each m.lan.tails tailPlays
    let left := m.lan.tails.filter (fun t => !decide (t.e / 8 ≤ m.now))
    if left.length = m.lan.tails.length then m2 else lanUnblock { m2 with lan := { m2.lan with tails := left } }

/-- FREEWHEEL_LIMIT: a frozen pair is retracted and its slot BLOCKED, by SYNC where no cause stands any more; then it may leave BLOCKED
(R174, R176, R177). -/
def evtFwLimitPlay (s : Nat) (m : Mach) : Mach :=
  if (m.evt s).st = 2 ∧ (m.evt s).frozen then
    let m1 := m.updEvt s (fun x => { x with frozen := false, fwEnd := none })
    let c := causeDec m1 s
    lanUnblock (evtBlock s (if c = 0 then 2 else c) m1)
  else m

/-- The tick at which the freewheel limit of a slot ends, min(FW_LIMIT, WHL_FW_TEETH) mean intervals after the sync loss (R136,
R177). -/
def slotFwTick (m : Mach) (s : Nat) : Option Rat :=
  let d := evtDec m s
  (m.whl d).fw.map (fun f =>
    let w := if f.2.2 < 0 then -f.2.2 else f.2.2
    f.2.1 + (min (evtFwLimit m s) (m.rd (R.WHL_FW_TEETH d)) : Rat) * (cycle32 : Rat) / ((tblTeeth (whlTbl m d) : Rat) * w))

/-- The freewheel limit of a frozen pair is reached. -/
def slotFwEnd (m : Mach) (s : Nat) : Bool :=
  (m.evt s).st == 2 && (m.evt s).frozen && (match (m.evt s).fwEnd with
    | some t => decide (t ≤ (m.now : Rat))
    | none => false)

/-! ## Decoder happenings (R176 to R178) -/

/-- Uncommitted slots of a decoder that now have a decoder cause are BLOCKED. -/
def lanCauses (n : Nat) (m : Mach) : Mach :=
  m.each (slotsOf m n) (fun s m =>
    let st := (m.evt s).st
    if st = 1 ∨ st = 2 then (let c := causeDec m s; if c = 0 then m else evtBlock s c m) else m)

/-- A state change of a decoder. -/
def lanState (n old new : Nat) (m : Mach) : Mach :=
  let loss := (old == 2 || old == 3) && (new == 1 || new == 4)
  let m1 := m.updLane n (fun l => { l with
    lost := if new = 3 then 0 else if loss then 1 else if new = 2 ∧ l.lost = 1 then 2 else l.lost
    cnt := if new = 3 then 0 else l.cnt
    busy := if new = 2 ∨ new = 3 then l.busy else none
    wait := if new = 2 ∨ new = 3 then l.wait else [] })
  let m2 := m1.each (slotsOf m1 n) (fun s m =>
    let x := m.evt s
    if loss && new == 4 && x.st == 2 && evtFwPol m s then
      m.setEvtSlot s { x with frozen := true, fwEnd := slotFwTick m s }
    else if new = 1 ∨ new = 0 ∨ new = 5 then
      let m3 := m.setEvtSlot s { x with frozen := false, fwEnd := none }
      if new = 5 ∧ evtStallCut m s ∧ (x.st = 3 ∨ x.st = 4) then evtCut s m3 else m3
    else m)
  lanUnblock (lanCauses n m2)

/-- A direction change: a confirmed reversal cuts what is not REV_TOLERANT. -/
def lanDir (n new : Nat) (m : Mach) : Mach :=
  let m1 := if new = 2 then
      m.each (slotsOf m n) (fun s m =>
        if ((m.evt s).st = 3 ∨ (m.evt s).st = 4) ∧ !evtRevTol m s then evtCut s m else m)
    else m
  lanUnblock (lanCauses n m1)

/-- What one note does. -/
def lanNote (m : Mach) : Note → Mach
  | .tooth n _ => lanTooth n m
  | .state n old new => lanState n old new m
  | .dir n _ new => lanDir n new m

/-- Acts on every note of the command being executed. -/
def lanNotes (m : Mach) : Mach := m.notes.foldl lanNote { m with notes := [] }

/-! ## Commands (R151, R172, R173, R182) -/

/-- EVT_ENABLE = 1 may be accepted (R151). -/
def evtEnableOk (m : Mach) (s : Nat) : Bool :=
  m.chMode (evtChan m s) == 8 && m.rd (R.EVT_TIMING s) / 2 ^ 32 != 0 &&
  decide (m.rd (R.EVT_LEAD_MAX s) < m.rd R.LAN_PLAN_WIN * 65536) &&
  evtMode m s != 3 && evtN m s != 0 && evtLateMode m s != 3 && evtFwLimit m s != 0

def evtEnableEffect (s : Nat) (m : Mach) : Eff :=
  if evtEnableOk m s then
    let m1 := m.wr (R.EVT_ENABLE s) 1
    .ok (if m.on R.LAN_RUN && (m.evt s).st == 0 && !m.fieldStill then lanUnblock (evtArm s m1) else m1)
  else .error .range

/-- A slot whose run is ended: COMMITTED and ACTIVE occurrences run to their end. -/
def evtIdle (s : Nat) (m : Mach) : Mach :=
  let st := (m.evt s).st
  if st = 3 ∨ st = 4 then m else m.updEvt s EvtSlot.rest

def evtDisableEffect (s : Nat) (m : Mach) : Mach := lanUnblock (evtIdle s ((evtHandIf s m).wr (R.EVT_ENABLE s) 0))

/-- Arms every enabled slot that is IDLE. -/
def lanArmAll (m : Mach) : Mach :=
  m.each (List.range 1024) (fun s m => if m.on (R.EVT_ENABLE s) && (m.evt s).st == 0 then evtArm s m else m)

def lanRunOnEffect (m : Mach) : Mach :=
  let m1 := m.wr R.LAN_RUN 1
  if m.fieldStill then m1 else lanUnblock (lanArmAll m1)

def lanRunOffEffect (m : Mach) : Mach :=
  let slots := m.evts.map (·.1)
  ((m.each slots evtHandIf).wr R.LAN_RUN 0).each slots evtIdle

/-- UNIT stop, HOLD or SLEEP entry, the end of a Keep debug halt: every slot to IDLE, no edge played afterwards. The demand interval and
its factor run on (R169). -/
def lanStop (m : Mach) : Mach :=
  let chans := (m.evts.filter (fun e => e.2.st == 4)).map (fun e => evtChan m e.1) ++ m.lan.tails.map (·.c)
  let idle := m.lan.lanes.map (fun (e : Nat × Lane) => (e.1, { e.2 with busy := none, wait := [] }))
  let kept := idle.filter (fun (e : Nat × Lane) => !decide (e.2 = {}))
  let left := (m.evts.map (fun (e : Nat × EvtSlot) => (e.1, e.2.rest))).filter (fun e => e.2.unpred)
  let m1 := { m with evts := left, lan := { m.lan with lanes := kept, tails := [], past := [] } }
  m1.each chans angleClear

/-- HOLD or SLEEP entry: the status of every slot, of class V, returns to its default too (R18). -/
def lanHalt (m : Mach) : Mach := { lanStop m with evts := [] }

/-- Return to RUN, and the first tick after a Keep debug halt. -/
def lanRestart (m : Mach) : Mach := if m.on R.LAN_RUN then lanUnblock (lanArmAll m) else m

/-- A Lantern object is written that refreshes read: those under way keep the value they began with (R156, R179). -/
def lanWrite (o : Obj) (v : Nat) (m : Mach) : Mach := (lanPast o m).wr o v

/-- EVT_TIMING: a duration of 0 is refused (R156, R181). -/
def setEvtTiming (s v : Nat) (m : Mach) : Eff := if v / 2 ^ 32 = 0 then .error .range else .ok (lanWrite (R.EVT_TIMING s) v m)

/-- EVT_BIND and EVT_POLICY change the causes of their slot, LAN_DEC_H those of its decoder (R174); a handover of their tick comes first
(R179). -/
def setEvtCause (o : Obj) (s v : Nat) (m : Mach) : Mach := lanRecheck [s] (lanWrite o v (evtHandIf s m))
def setDecH (n v : Nat) (m : Mach) : Mach :=
  lanRecheck (slotsOf m n) (lanWrite (R.LAN_DEC_H n) v (m.each (slotsOf m n) evtHandIf))

/-- EVT_CMD ARM. -/
def evtCmdArm (s : Nat) (m : Mach) : Mach :=
  let st := (m.evt s).st
  if (st = 5 ∨ st = 7) ∧ evtMode m s ≠ 2 ∧ evtLive m s then lanUnblock (evtArm s m) else m

/-- EVT_CMD CANCEL, and CUT before commit. -/
def evtCancel (s : Nat) (m : Mach) : Mach :=
  let st := (m.evt s).st
  if st = 1 ∨ st = 2 then
    lanUnblock (evtRaise s 4 (m.updEvt s (fun x => { x with st := 7, frozen := false, fwEnd := none, ended := m.now })))
  else m

def evtCmdCancel (s : Nat) (m : Mach) : Mach := evtCancel s (evtHandIf s m)

/-- EVT_CMD CUT. -/
def evtCmdCut (s : Nat) (m : Mach) : Mach :=
  let m1 := evtHandIf s m
  if (m1.evt s).st = 3 ∨ (m1.evt s).st = 4 then evtCut s m1 else evtCancel s m1

def evtCounters (s : Nat) : List Obj :=
  [R.EVT_CNT_DONE s, R.EVT_CNT_MISS s, R.EVT_CNT_LATE s, R.EVT_CNT_REPOST s, R.EVT_CNT_CUT s]

/-- LAN_CMD CLEAR (R182). -/
def lanClearAll (m : Mach) : Mach :=
  let m1 := ((m.clrMax R.LAN_DEMAND_MAX).clr R.LAN_CNT_OVL).clr R.LAN_CNT_ABANDON
  m1.each (List.range 32) (fun n m =>
    ((m.clrMax (R.LAN_DEC_NW_MAX n)).clrMax (R.LAN_DEC_LR_MAX n)).clr (R.LAN_DEC_SKIP n))

/-! ## Views -/

/-- EVT_STATUS. -/
def evtStatus (m : Mach) (s : Nat) : Nat :=
  let x := m.evt s
  boolNat x.unpred * 2048 + boolNat x.frozen * 1024 + boolNat x.late * 512 + boolNat x.clamped * 256 +
  (if x.st = 6 then x.cause else 0) * 16 + x.st

/-- LAN_STATUS. -/
def lanStatus (m : Mach) : Nat := (m.lan.k1 + 1) * 256 + boolNat (decide (0 < m.lan.k1)) * 2 + boolNat (m.on R.LAN_RUN)

/-- Slots that are enabled or not in their reset condition, ascending. -/
def evtSlots (m : Mach) : List Nat :=
  let on := (m.regs.filter (fun e => decide (0x220001 ≤ e.1) && decide (e.1 ≤ 0x25FF01) && e.1 % 256 == 1 && e.2 != 0)).map (fun e =>
    e.1 / 256 - 0x2200)
  (m.evts.map (·.1)).foldl (fun l s => insertRising s l) on

/-! ## The queue of a channel as its ports and objects see it (R232 to R235) -/

/-- An entry of an ANGLE_OUT queue: instant in 1/8 T, HIGH or LOW, and the slot or cut pair that it belongs to. -/
structure AngleEntry where
  t : Nat
  high : Bool
  cut : Bool
  n : Nat
deriving DecidableEq, Repr

/-- The entries that stand in an ANGLE_OUT queue and have not played. -/
def angleEntries (m : Mach) (c : Nat) : List AngleEntry :=
  let put (started noS noE cut : Bool) (s e n : Nat) : List AngleEntry :=
    (if started || noS then [] else [⟨s, true, cut, n⟩]) ++ (if noE then [] else [⟨e, false, cut, n⟩])
  (m.evts.filter (fun e => evtChan m e.1 == c && (e.2.st == 2 || e.2.st == 3 || e.2.st == 4))).flatMap (fun e =>
    put (e.2.st == 4) e.2.noS e.2.noE false e.2.s e.2.e e.1) ++
  m.lan.tails.zipIdx.flatMap (fun t =>
    if t.1.c = c then put (decide (t.1.s ≤ m.now8)) t.1.noS t.1.noE true t.1.s t.1.e t.2 else [])

/-- The head: the earliest entry. -/
def angleFirst (m : Mach) (c : Nat) : Option AngleEntry :=
  match angleEntries m c with
  | [] => none
  | a :: l => some (l.foldl (fun x y => if y.t < x.t then y else x) a)

/-- An entry taken out is not played (log 66). -/
def angleTake (a : AngleEntry) (m : Mach) : Mach :=
  if a.cut then
    { m with lan := { m.lan with tails := m.lan.tails.zipIdx.map (fun t =>
        if t.2 = a.n then (if a.high then { t.1 with noS := true } else { t.1 with noE := true }) else t.1) } }
  else m.updEvt a.n (fun x => if a.high then { x with noS := true } else { x with noE := true })

/-- Takes entries out, and slots that waited for a pair may go on. -/
def angleOut (l : List AngleEntry) (m : Mach) : Mach := if l.isEmpty then m else lanUnblock (m.each l angleTake)

/-- A pop finds no entry. -/
def qEmpty (m : Mach) (c : Nat) : Bool := if m.chMode c = 8 then (angleEntries m c).isEmpty else (chOld m c).isEmpty

/-- The head entry, 0 when empty: an ANGLE_OUT entry is HIGH or LOW at its instant. -/
def qHead (m : Mach) (c : Nat) : Nat :=
  if m.chMode c = 8 then ((angleFirst m c).map (fun a => boolNat a.high * 2 ^ 62 + t61 a.t)).getD 0 else chHead m c

/-- Removes the head. -/
def qPop (c : Nat) (m : Mach) : Mach := if m.chMode c = 8 then angleOut (angleFirst m c).toList m else chPop c m

/-- Empties the queue. -/
def qFlush (c : Nat) (m : Mach) : Mach := if m.chMode c = 8 then angleOut (angleEntries m c) m else chFlush c m

/-- Entries in the queue, 0 to 16. -/
def chCount (m : Mach) (c : Nat) : Nat := min 16 (if m.chMode c = 8 then angleCount m c else (m.chan c).q.length)

/-- An entry is armed in the output stage; one of a committed pair is (R161). -/
def chArmed (m : Mach) (c : Nat) : Bool :=
  (m.chan c).q.any (·.armed) ||
  (m.chMode c == 8 && (m.evts.any (fun e => (e.2.st == 3 || e.2.st == 4) && evtChan m e.1 == c) || m.lan.tails.any (fun t => t.c == c)))

/-- Entries that left an ANGLE_OUT queue in a tick raise Q_LOW / Q_EMPTY (R254). -/
def angleLeft (c : Nat) (m : Mach) : Mach :=
  let n := if m.chMode c = 8 then angleCount m c else 0
  let was := (m.chan c).held
  let low := bits 7 4 (m.rd (R.CH_OUT_CFG c))
  if n = was then m
  else
    let m1 := m.updChan c (fun x => { x with held := n })
    if m.chMode c = 8 ∧ n < was ∧ (n = 0 ∨ (16 - was < low ∧ low ≤ 16 - n)) then chRaise c 1 m1 else m1

/-- POP_LO: the word loaded and the machine after it. -/
def portPopLo (port c : Nat) (m : Mach) : Nat × Mach :=
  if qEmpty m c then (0, m)
  else
    let w := qHead m c
    (w % 2 ^ 32, (qPop c m).updChan c (fun x => { x with pop := mapSet 0 port (w / 2 ^ 32) x.pop }))

/-- A pop through CH_Q_POP or, with `tur`, CTX_RXQ_POP comes after those of Keep and the movers of its tick (R235, R343). -/
def popLater (tur : Bool) (k : Nat) (m : Mach) : Mach := { m with pops := m.pops ++ [(tur, k)] }

/-- A slot claims its channel (R226, R229). -/
def evtClaims (m : Mach) (s : Nat) : Bool := m.on (R.EVT_ENABLE s) || (m.evt s).st == 3 || (m.evt s).st == 4

end Sys2Proof.Machine
end

