-- ==== Sys2Proof/Machine/Oculus.lean ====
section
/-! DEFINITION. Oculus registration (chapter 6, R212 to R219): marks against targets, the filter, corrections of an axis's
phase and the unit's states. -/

namespace Sys2Proof.Machine

def Mach.ocu (m : Mach) (u : Nat) : Ocu := mapGet {} u m.ocus

def Mach.setOcu (u : Nat) (x : Ocu) (m : Mach) : Mach := { m with ocus := mapSet {} u x m.ocus }

def Mach.updOcu (u : Nat) (f : Ocu → Ocu) (m : Mach) : Mach := m.setOcu u (f (m.ocu u))

def Mach.ocuState (m : Mach) (u : Nat) : Nat := m.rd (R.OCU_STATE u)

def ocuAxis (m : Mach) (u : Nat) : Nat := bits 31 24 (m.rd (R.OCU_BIND u))
def ocuDec (m : Mach) (u : Nat) : Nat := bits 20 16 (m.rd (R.OCU_BIND u))
def ocuChan (m : Mach) (u : Nat) : Nat := bits 6 0 (m.rd (R.OCU_BIND u))
def ocuUndo (m : Mach) (u : Nat) : Bool := bit 2 (m.rd (R.OCU_MODE u))
def ocuFw (m : Mach) (u : Nat) : Bool := bit 0 (m.rd (R.OCU_MODE u))

/-- Raises unit event `b` (R220). -/
def ocuRaise (u b : Nat) (m : Mach) : Mach := m.raise (R.OCU_EVT u) (R.OCU_EVT_EN u) b (144 + u)

/-- The enabled units that a channel's captures are delivered to (R212). -/
def ocuUnits (m : Mach) (c : Nat) : List Nat := (List.range 16).filter (fun u => m.on (R.OCU_ENABLE u) && ocuChan m u == c)

/-- A capture is delivered to every unit bound to the channel. -/
def ocuDeliver (c t : Nat) (m : Mach) : Mach :=
  m.each (ocuUnits m c) (fun u m => if m.ocuState u = 0 then m else m.updOcu u (fun x => { x with caps := x.caps ++ [t] }))

/-! ## Targets (R213, R214) -/

/-- The target of a cycle. -/
def ocuTarget (m : Mach) (u : Nat) (c : Int) : Int := c * cycle32 + (m.rd (R.OCU_EXPECT u) : Int)

/-- The cycle whose target lies nearest to a position. -/
def ocuNearest (m : Mach) (u : Nat) (p : Int) : Int := (p - (m.rd (R.OCU_EXPECT u) : Int) + 2147483648) / cycle32

/-- The first cycle whose window is not yet over at a position. -/
def ocuOpen (m : Mach) (u : Nat) (p : Rat) : Int :=
  -((((m.rd (R.OCU_EXPECT u) + m.rd (R.OCU_WIN u) : Nat) : Rat) - p) / (cycle32 : Rat)).floor

/-- The unit's decoder is LOCKED and runs FWD. -/
def ocuMeasures (m : Mach) (u : Nat) : Bool := decState m (ocuDec m u) == 3 && decDir m (ocuDec m u) == 1

/-! ## States (R218) -/

/-- WAIT, with the filter and the accumulated correction at 0 and no open target. -/
def ocuWait (u : Nat) (m : Mach) : Mach :=
  (((m.wr (R.OCU_STATE u) 1).wr (R.OCU_FILT u) 0).wr (R.OCU_ACC u) 0).setOcu u {}

/-- Transitions by the decoder's state and direction. -/
def ocuPoll (u : Nat) (m : Mach) : Mach :=
  let st := m.ocuState u
  if st = 1 ∧ ocuMeasures m u then
    let p := (decMotion m (ocuDec m u) ((m.now : Rat) - 4)).getD (decPos m (ocuDec m u) : Rat)
    ((m.wr (R.OCU_STATE u) 2).wr (R.OCU_FILT u) 0).setOcu u { next := ocuOpen m u p }
  else if (st = 2 ∨ st = 3) ∧ !ocuMeasures m u then (m.wr (R.OCU_STATE u) 1).setOcu u {}
  else m

/-- The units look at their decoders when one of these changed. -/
def ocuPollAll (m : Mach) : Mach := m.each (List.range 16) ocuPoll

/-- OCU_ENABLE = 1 may be accepted (R212); 3 is channel mode CAPTURE. -/
def ocuEnableOk (m : Mach) (u : Nat) : Bool :=
  m.chMode (ocuChan m u) == 3 && decide (m.rd (R.OCU_WIN u) ≤ m.rd (R.OCU_GATE u))

def ocuEnableOnEffect (u : Nat) (m : Mach) : Eff :=
  if ocuEnableOk m u then
    let m1 := m.wr (R.OCU_ENABLE u) 1
    .ok (if m.ocuState u ≠ 0 ∨ m.inHold ∨ m.pwr.fSleep then m1 else ocuPoll u (ocuWait u m1))
  else .error .range

/-- To OFF. -/
def ocuOff (u : Nat) (m : Mach) : Mach := (m.wr (R.OCU_STATE u) 0).setOcu u {}

def ocuEnableOffEffect (u : Nat) (m : Mach) : Mach := ocuOff u (m.wr (R.OCU_ENABLE u) 0)

/-- HOLD, SLEEP or a field-side reset; return to RUN. -/
def ocusHalt (m : Mach) : Mach := m.each (List.range 16) ocuOff

def ocusRestart (m : Mach) : Mach :=
  m.each (List.range 16) (fun u m =>
    if m.on (R.OCU_ENABLE u) && m.ocuState u == 0 then ocuPoll u (ocuWait u m) else m)

/-- An OCU_BIND write (R212). -/
def setOcuBind (u v : Nat) (m : Mach) : Eff :=
  if m.on (R.OCU_ENABLE u) then
    if m.chMode (bits 6 0 v) = 3 then
      let m1 := m.wr (R.OCU_BIND u) v
      .ok (if m.ocuState u = 0 then m1 else ocuPoll u (ocuWait u m1))
    else .error .range
  else .ok (m.wr (R.OCU_BIND u) v)

/-! ## Corrections (R215) -/

/-- Slew and limit: the correction applied, and whether the limit clipped it. -/
def ocuClamp (m : Mach) (u : Nat) (c : Int) : Int × Bool :=
  let slew : Int := m.rd (R.OCU_SLEW u)
  let lim : Int := m.rd (R.OCU_LIMIT u)
  let acc := m.rdI 32 (R.OCU_ACC u)
  let c1 := clampInt (-slew) slew c
  let cl := clampInt (-lim - acc) (lim - acc) c1
  (cl, decide (cl ≠ c1))

/-- Moves OCU_ACC and the axis's phase by a correction. -/
def ocuApply (u : Nat) (c : Int) (m : Mach) : Mach :=
  let m1 := m.wrI 32 (R.OCU_ACC u) (m.rdI 32 (R.OCU_ACC u) + c)
  if ocuAxis m u < 128 then axCorrect (ocuAxis m u) c m1 else m1

/-- A correction through slew and limit: what was applied, and the machine after it. -/
def ocuCorrect (u : Nat) (c : Int) (m : Mach) : Int × Mach :=
  let r := ocuClamp m u c
  let m1 := if r.2 then ocuRaise u 4 (m.inc (R.OCU_CNT_LIMIT u)) else m
  (r.1, ocuApply u r.1 m1)

/-- OCU_FW_CORR (R219). -/
def ocuFwCorrEffect (u v : Nat) (m : Mach) : Mach :=
  if m.ocuState u = 3 then (ocuCorrect u (toSigned 32 v) m).2 else m

/-! ## Marks (R215, R216, R219) -/

/-- A good mark is credited; the run that OCU_REACQ asks for ends ACQUIRE (R216, R218). -/
def ocuCredit (u : Nat) (m : Mach) : Mach :=
  let m1 := (m.inc (R.OCU_CNT_GOOD u)).updOcu u (fun x => { x with goods := x.goods + 1, misses := 0 })
  if m.ocuState u = 2 ∧ m.rd (R.OCU_REACQ u) ≠ 0 ∧ m.rd (R.OCU_REACQ u) ≤ (m1.ocu u).goods then
    ocuRaise u 5 (m1.wr (R.OCU_STATE u) 3)
  else m1

/-- The filter and the correction of a good mark: the correction applied (R215). -/
def ocuFilter (u : Nat) (e : Int) (m : Mach) : Int × Mach :=
  let y0 := m.rdI 32 (R.OCU_FILT u)
  let y := y0 + ratNear (((e - y0 : Int) : Rat) * (m.rd (R.OCU_ALPHA u) : Rat) / 65536)
  let m1 := m.wrI 32 (R.OCU_FILT u) y
  if m.ocuState u = 3 then
    ocuCorrect u (if y.natAbs ≤ m.rd (R.OCU_DEADBAND u) then 0
      else ratNear ((y : Rat) * (m.rdI 32 (R.OCU_GAIN u) : Rat) / 65536)) m1
  else (0, m1)

/-- The first capture in a target's window. -/
def ocuGood (u t : Nat) (c e : Int) (m : Mach) : Mach :=
  let y0 := m.rdI 32 (R.OCU_FILT u)
  let m0 := if m.ocuState u = 2 ∧ m.rd (R.OCU_REACQ u) = 0 then ocuRaise u 5 (m.wr (R.OCU_STATE u) 3) else m
  let m1 := (m0.wrI 32 (R.OCU_ERR u) e).wr (R.OCU_LAST_MARK u) t
  let r := if ocuFw m u then (0, ocuRaise u 7 m1) else ocuFilter u e (ocuRaise u 0 m1)
  let m2 := r.2.updOcu u (fun x => { x with marks := x.marks ++ [⟨c, 1, r.1, y0⟩] })
  if ocuUndo m u then m2 else ocuCredit u m2

/-- A further capture in the window (R216). -/
def ocuDouble (u : Nat) (k : Mark) (m : Mach) : Mach :=
  let m1 := ocuRaise u 2 (m.inc (R.OCU_CNT_DOUBLE u))
  let m2 := m1.updOcu u (fun x => { x with marks := x.marks.map (fun j => if j = k then { j with n := j.n + 1 } else j) })
  if ocuUndo m u ∧ !ocuFw m u ∧ k.n = 1 then (ocuApply u (-k.corr) m2).wrI 32 (R.OCU_FILT u) k.y else m2

/-- One capture at fine time t (R213). -/
def ocuProcess (u t : Nat) (m : Mach) : Mach :=
  if (m.ocuState u ≠ 2 ∧ m.ocuState u ≠ 3) ∨ !ocuMeasures m u then m
  else
    match decPast m (ocuDec m u) ((t : Rat) / 8) with
    | none => m.inc (R.OCU_CNT_OUT u)
    | some pr =>
      let p := ratNear pr
      let c := ocuNearest m u p
      let d := p - ocuTarget m u c
      if d.natAbs ≤ m.rd (R.OCU_WIN u) then
        if c < (m.ocu u).next then m
        else
          match (m.ocu u).marks.find? (fun k => k.c == c) with
          | none => ocuGood u t c d m
          | some k => ocuDouble u k m
      else if d.natAbs ≤ m.rd (R.OCU_GATE u) then ocuRaise u 3 (m.inc (R.OCU_CNT_OUT u))
      else m

/-- OCU_CAPTURE. -/
def ocuCaptureEffect (u : Nat) (m : Mach) : Mach :=
  match (m.ocu u).caps with
  | [] => m
  | t :: rest => ocuProcess u t (m.updOcu u (fun x => { x with caps := rest }))

/-- The captures that wait are processed, oldest first. -/
def ocuDrain (u : Nat) (m : Mach) : Mach := m.each ((m.ocu u).caps) (fun _ m => ocuCaptureEffect u m)

/-- A missed target (R214, R218). -/
def ocuMiss (u : Nat) (m : Mach) : Mach :=
  let m1 := ocuRaise u 1 ((m.inc (R.OCU_CNT_MISS u)).updOcu u (fun x => { x with goods := 0, misses := x.misses + 1 }))
  if m.ocuState u = 3 ∧ m.rd (R.OCU_MISS_MAX u) ≤ (m1.ocu u).misses then
    ocuRaise u 6 (((m1.wr (R.OCU_STATE u) 2).wr (R.OCU_FILT u) 0).updOcu u (fun x => { x with goods := 0, misses := 0 }))
  else m1

/-- OCU_TARGET_EXPIRY: captures that came before the expiry are taken first. -/
def ocuExpire (u : Nat) (m : Mach) : Mach :=
  let m1 := ocuDrain u m
  if (m1.ocuState u ≠ 2 ∧ m1.ocuState u ≠ 3) ∨ !ocuMeasures m1 u then m1
  else
    let c := (m1.ocu u).next
    let m2 := m1.updOcu u (fun x => { x with next := c + 1, marks := x.marks.filter (fun k => decide (c < k.c)) })
    match (m1.ocu u).marks.find? (fun k => k.c == c) with
    | none => ocuMiss u m2
    | some k => if ocuUndo m u ∧ k.n = 1 then ocuCredit u m2 else m2

/-- The position that the next expiry waits for has been passed at FTB - 4 T. -/
def ocuDue (m : Mach) (u : Nat) : Bool :=
  (m.ocuState u == 2 || m.ocuState u == 3) && ocuMeasures m u &&
  (match decMotion m (ocuDec m u) ((m.now : Rat) - 4) with
    | some p => decide (((ocuTarget m u (m.ocu u).next + (m.rd (R.OCU_WIN u) : Int) : Int) : Rat) < p)
    | none => false)

def ocuCounters (u : Nat) : List Obj :=
  [R.OCU_CNT_GOOD u, R.OCU_CNT_MISS u, R.OCU_CNT_DOUBLE u, R.OCU_CNT_OUT u, R.OCU_CNT_LIMIT u]

end Sys2Proof.Machine
end

