-- ==== Sys2Proof/Machine/Link.lean ====
section
/-! DEFINITION. The barrier link below its messages (chapter 13): frames and their checks, sequence numbers, replay, LINK,
training, and what each end queues. -/

namespace Sys2Proof.Machine

/-! ## Objects of an end -/

def cntFrame : Side → Obj
  | .host => R.BAR_H_CNT_FRAME
  | .field => R.BAR_F_CNT_FRAME

def cntCrc : Side → Obj
  | .host => R.BAR_H_CNT_CRC
  | .field => R.BAR_F_CNT_CRC

def cntUnknown : Side → Obj
  | .host => R.BAR_H_CNT_UNKNOWN
  | .field => R.BAR_F_CNT_UNKNOWN

def cntSeq : Side → Obj
  | .host => R.BAR_H_CNT_SEQ
  | .field => R.BAR_F_CNT_SEQ

def cntRetx : Side → Obj
  | .host => R.BAR_H_CNT_RETX
  | .field => R.BAR_F_CNT_RETX

def cntLoss : Side → Obj
  | .host => R.BAR_H_CNT_LOSS
  | .field => R.BAR_F_CNT_LOSS

/-- The counters that an end's CMD CLEAR clears (R441). -/
def barCounters : Side → List Obj
  | .host => [R.BAR_H_CNT_FRAME, R.BAR_H_CNT_CRC, R.BAR_H_CNT_UNKNOWN, R.BAR_H_CNT_SEQ, R.BAR_H_CNT_RETX, R.BAR_H_CNT_LOSS]
  | .field => [R.BAR_F_CNT_FRAME, R.BAR_F_CNT_CRC, R.BAR_F_CNT_UNKNOWN, R.BAR_F_CNT_SEQ, R.BAR_F_CNT_RETX, R.BAR_F_CNT_LOSS,
      R.BAR_F_CNT_SAFE_REJ, R.BAR_F_CNT_SAFE_DISC, R.BAR_F_CNT_HALT_DROP]

/-- Raises event `b` of an end (R441). -/
def barRaise (s : Side) (b : Nat) (m : Mach) : Mach :=
  match s with
  | .host => m.raise R.BAR_H_EVT R.BAR_H_EVT_EN b 421
  | .field => m.raise R.BAR_F_EVT R.BAR_F_EVT_EN b 371

/-! ## Frames (R418) -/

/-- LEN rounded up to a multiple of 4. -/
def padLen (n : Nat) : Nat := (n + 3) / 4 * 4

/-- The bytes of a message from TYPE to CRC. -/
def frameBytes (g : Msg) (seq : Nat) : List Byte :=
  let n := g.payload.length
  let body := toLe 1 g.typ ++ toLe 1 n ++ toLe 2 seq ++ g.payload ++ List.replicate (padLen n - n) 0
  body ++ toLe 4 (crc32 body)

/-- The catalogue: direction (0 both, 1 host to field, 2 field to host) and the range of LEN (R423). -/
def catalogue (typ : Nat) : Option (Nat × Nat × Nat) :=
  match typ with
  | 1 => some (0, 4, 4)
  | 2 => some (0, 16, 16)
  | 3 => some (0, 4, 4)
  | 4 => some (1, 12, 12)
  | 5 => some (2, 12, 12)
  | 6 => some (1, 8, 8)
  | 7 => some (1, 5, 56)
  | 8 => some (2, 5, 56)
  | 9 => some (1, 4, 56)
  | 10 => some (2, 4, 56)
  | 11 => some (0, 8, 56)
  | 12 => some (1, 5, 56)
  | 13 => some (2, 8, 8)
  | 14 => some (2, 5, 56)
  | 15 => some (1, 5, 56)
  | 16 => some (1, 8, 8)
  | 17 => some (1, 8, 8)
  | 18 => some (2, 8, 8)
  | 19 => some (0, 4, 4)
  | 20 => some (0, 1, 56)
  | _ => none

/-- TYPE in the catalogue, allowed towards this end, with LEN in range; EVENT comes in whole events (R420 check 3). -/
def catalogueOk (dst : Side) (typ len : Nat) : Bool :=
  match catalogue typ with
  | none => false
  | some (dir, lo, hi) =>
    (dir == 0 || dir == (match dst with | .field => 1 | .host => 2)) && decide (lo ≤ len) && decide (len ≤ hi) &&
    (typ != 11 || len % 8 == 0)

/-- The class of a message at a transmitter (R422). -/
def msgClass (typ : Nat) : Nat :=
  match typ with
  | 16 => 1
  | 17 => 1
  | 18 => 1
  | 1 => 2
  | 4 => 3
  | 3 => 3
  | 19 => 3
  | 11 => 4
  | 9 => 5
  | 10 => 5
  | 12 => 7
  | 13 => 7
  | 14 => 7
  | 15 => 7
  | 20 => 7
  | _ => 6

/-! ## Sending -/

/-- Puts a message in an end's queue while the link carries it. -/
def linkQueue (s : Side) (typ : Nat) (payload : List Byte) (m : Mach) : Mach :=
  if m.linked s ∨ (m.barState s = 2 ∧ typ = 2) then
    m.updEnd s (fun e => { e with queue := e.queue ++ [(msgClass typ, ⟨typ, payload⟩)] })
  else m

/-- The first waiting message of the highest class, and the queue without it. -/
def takeBest (l : List (Nat × Msg)) : Option (Msg × List (Nat × Msg)) :=
  match l.find? (fun e => l.all (fun f => decide (e.1 ≤ f.1))) with
  | some e => some (e.2, l.erase e)
  | none => none

/-- Forwarded assertions become one EVENT message of up to seven sources (R396, R425). -/
def eventPayload (m : Mach) (l : List (Nat × Nat)) : List Byte :=
  l.flatMap (fun e => toLe 2 e.1 ++ toLe 1 e.2 ++ [0] ++ toLe 4 (m.rd (srcCfgObj e.1)))

/-- A sequenced message leaves the end: it takes the next SEQ and stays in the replay buffer until acknowledged (R419, R421). -/
def linkSend (s : Side) (g : Msg) (m : Mach) : Mach :=
  m.updEnd s (fun e => { e with
    txSeq := (e.txSeq + 1) % 65536
    replay := e.replay ++ [(e.txSeq, g)]
    wire := e.wire ++ [frameBytes g e.txSeq] })

/-- The waiting message of the highest class leaves, when that class is `top` or a higher one; `other` acts where none does. -/
def linkTake (s : Side) (top : Nat) (other : Mach → Mach) (m : Mach) : Mach :=
  match takeBest (m.barEnd s).queue with
  | some (g, rest) =>
    if msgClass g.typ ≤ top then linkSend s g (m.updEnd s (fun e => { e with queue := rest })) else other m
  | none => other m

/-- The events of up to seven sources that wait at this moment leave as one message (R396, R425). -/
def linkEvents (s : Side) (m : Mach) : Mach :=
  let l := (m.barEnd s).evts.take 7
  (linkSend s ⟨11, eventPayload m l⟩ (m.updEnd s (fun e => { e with evts := e.evts.drop 7 }))).inc (cntFwdTx s)

/-- A LINK leaves: what is expected next, NAK, and from the field HALTED and SAFE (R421, R423). -/
def linkStatus (s : Side) (m : Mach) : Mach :=
  let flags := boolNat (m.barEnd s).nak + (if s = .field then 2 * boolNat m.keepHalted + 4 * boolNat m.safe else 0)
  m.updEnd s (fun e => { e with
    nak := false
    due := false
    sinceLink := 0
    wire := e.wire ++ [frameBytes ⟨1, toLe 2 e.rxSeq ++ toLe 1 flags ++ [0]⟩ e.txSeq] })

/-- A message of class 1 waits and may be sent. -/
def urgent (m : Mach) (s : Side) : Bool :=
  decide ((m.barEnd s).replay.length < 32) && (m.barEnd s).queue.any (fun e => e.1 == 1)

/-- New messages of class 4 and below: events first (R422). -/
def linkLow (s : Side) (m : Mach) : Mach :=
  if 32 ≤ (m.barEnd s).replay.length then m
  else if m.linked s ∧ !(m.barEnd s).evts.isEmpty then linkEvents s m
  else linkTake s 7 (fun m => m) m

/-- The oldest message that is still to be sent again leaves, ahead of new ones of class 4 and below (R421, R422). -/
def linkAgain (s : Side) (m : Mach) : Mach :=
  match (m.barEnd s).resend with
  | r :: rest =>
    (m.updEnd s (fun e => { e with resend := rest, wire := e.wire ++ [frameBytes r.2 r.1] })).inc (cntRetx s)
  | [] => linkLow s m

/-- One message boundary: the end sends the waiting message of the highest class; none that is new and sequenced while the replay
buffer is full (R421, R422). -/
def linkPump (s : Side) (m : Mach) : Mach :=
  if m.barState s ≠ 2 ∧ m.barState s ≠ 3 then m
  else if (m.barEnd s).due ∧ !urgent m s then linkStatus s m
  else if 32 ≤ (m.barEnd s).replay.length then linkAgain s m
  else linkTake s 3 (linkAgain s) m

/-- Everything unacknowledged is to be sent again (R421). -/
def linkResend (s : Side) (m : Mach) : Mach := m.updEnd s (fun e => { e with sinceAck := 0, resend := e.replay })

/-- LINK_DUE: the LINK leaves at once, or behind the messages of class 1 that wait (R421, R422). -/
def linkDueEffect (s : Side) (m : Mach) : Mach :=
  if m.barState s ≠ 2 ∧ m.barState s ≠ 3 then m
  else if urgent m s then m.updEnd s (fun e => { e with due := true })
  else linkStatus s m

/-- REPLAY_TIMEOUT (R421). -/
def replayTimeoutEffect (s : Side) (m : Mach) : Mach :=
  if (m.barState s = 2 ∨ m.barState s = 3) ∧ !(m.barEnd s).replay.isEmpty then linkResend s m else m

/-! ## Receiving (R420) -/

/-- A frame is dropped under one check. -/
def linkDrop (s : Side) (o : Obj) (sequenced : Bool) (m : Mach) : Mach :=
  let m1 := barRaise s 3 (m.inc o)
  if sequenced then m1.updEnd s (fun e => { e with nak := true }) else m1

/-- The checks of R420: the accepted message, if any, and the machine after them. Only an end in HELLO or LINKED receives
messages; one that misses a lane has every frame fail its framing (R414, R416). -/
def linkAccept (s : Side) (f : LinkFrame) (m : Mach) : Option Msg × Mach :=
  let typ := fieldAt 0 1 f.bytes
  let len := fieldAt 1 1 f.bytes
  let p := padLen len
  if m.barState s ≠ 2 ∧ m.barState s ≠ 3 then (none, m)
  else if !f.sound || (m.barEnd s).lanes != 15 || f.bytes.length != 8 + p then (none, linkDrop s (cntFrame s) (typ != 1) m)
  else if fieldAt (4 + p) 4 f.bytes ≠ crc32 (f.bytes.take (4 + p)) then (none, linkDrop s (cntCrc s) (typ != 1) m)
  else
    let m1 := m.updEnd s (fun e => { e with quiet := 0 })
    if !catalogueOk s typ len then (none, linkDrop s (cntUnknown s) (typ != 1) m1)
    else
      let g : Msg := ⟨typ, (f.bytes.drop 4).take len⟩
      if typ = 1 then (some g, m1)
      else if fieldAt 2 2 f.bytes = (m1.barEnd s).rxSeq then
        (some g, m1.updEnd s (fun e => { e with rxSeq := (e.rxSeq + 1) % 65536 }))
      else (none, linkDrop s (cntSeq s) true m1)

/-- A message of one type arrives: what it does when the frame is accepted; a reset or state entry of the tick wins over it (R440). A
frame of another type is not this command's. -/
def linkMessage (s : Side) (typ : Nat) (f : LinkFrame) (act : List Byte → Mach → Mach) (m : Mach) : Mach :=
  match linkAccept s f m with
  | (some g, m1) => if g.typ ≠ typ then m else if m.entries.any (fun e => e.1 == s) then m1 else act g.payload m1
  | (none, m1) => m1

/-- FRAME_DROP: a frame that fails a check. -/
def frameDropEffect (s : Side) (f : LinkFrame) (m : Mach) : Mach :=
  match linkAccept s f m with
  | (some _, _) => m
  | (none, m1) => m1

/-! ## Training (R416, R417) -/

/-- An end enters a state. -/
def barEnter (s : Side) (st : Nat) (m : Mach) : Mach := (m.updEnd s (fun e => { e with st := st })).wr (stateObj s) st

/-- The receive lanes that are aligned. -/
def barLanes (s : Side) (v : Nat) (m : Mach) : Mach := (m.updEnd s (fun e => { e with lanes := v })).wr (lanesObj s) v

/-- TRAIN, sending TS1. -/
def barTrain (s : Side) (m : Mach) : Mach :=
  (barEnter s 1 m).updEnd s (fun e => { e with ts2 := false, queue := [], replay := [], resend := [], due := false, wire := [] })

/-- OFF: the side is in reset or SLEEP; what its transmitter has sent is still on its way. -/
def barOff (s : Side) (m : Mach) : Mach := barLanes s 0 ((barEnter s 0 m).updEnd s (fun e => { wire := e.wire }))

/-- BAR_x_STATE and BAR_x_LANES show the end again once the tick in which R18 reset them is over (log 53). -/
def barShow (s : Side) (m : Mach) : Mach := (m.wr (stateObj s) (m.barEnd s).st).wr (lanesObj s) (m.barEnd s).lanes

/-- How many messages an end has to send. -/
def linkLoad (m : Mach) (s : Side) : Nat :=
  let e := m.barEnd s
  e.queue.length + e.evts.length + e.resend.length + 1

/-- Sends everything that waits at an end. -/
def linkDrain (s : Side) : Nat → Mach → Mach
  | 0, m => m
  | n + 1, m => linkDrain s n (linkPump s m)

/-- A message that an end sends just before it falls silent. -/
def linkFarewell (s : Side) (typ : Nat) (payload : List Byte) (m : Mach) : Mach :=
  let m1 := linkQueue s typ payload m
  linkDrain s (linkLoad m1 s) m1

def ts1Effect (s : Side) (m : Mach) : Mach := if m.barState s = 4 ∨ m.barState s = 5 then barTrain s m else m

def alignedEffect (s : Side) (m : Mach) : Mach :=
  if m.barState s = 1 then (barLanes s 15 m).updEnd s (fun e => { e with ts2 := true }) else m

/-- HELLO's content. -/
def helloPayload (s : Side) (m : Mach) : List Byte :=
  match s with
  | .host => [0] ++ toLe 1 (m.rd (R.SPR_RESTART_CAUSE 0)) ++ [0, 0] ++ toLe 4 (m.rd R.DIC_LAYOUT_VER) ++
      toLe 4 (m.rd R.DIC_HOST_FW_VER) ++ toLe 4 Config.siliconRev
  | .field => [1] ++ toLe 1 (m.rd R.KEEP_RESTART_CAUSE) ++ [0, 0] ++ toLe 4 (m.rd R.DIC_LAYOUT_VER) ++
      toLe 4 m.bar.fieldVer ++ toLe 4 Config.siliconRev

/-- What the host took from an earlier link makes room for this one's first SAFE_STATUS and PERS_RESTORE messages (R25, R431). -/
def hostHello (s : Side) (m : Mach) : Mach :=
  match s with
  | .host => { m with bar := { m.bar with early := none, restored := [] } }
  | .field => m

/-- HELLO: the sequence counters start at 0 and HELLO is sent. The receiver has kept all its lanes. -/
def ts2Effect (s : Side) (m : Mach) : Mach :=
  if m.barState s = 1 ∧ (m.barEnd s).ts2 ∧ (m.barEnd s).lanes = 15 then
    let m1 := hostHello s (barEnter s 2 (m.updEnd s (fun e => { ts2 := true, lanes := 15, evts := e.evts })))
    linkQueue s 2 (helloPayload s m1) m1
  else m

/-- LANE_ALIGNMENT_LOSS: the lane's bit clears; until the receiver is aligned anew every message fails its framing (R414, R416). -/
def laneLossEffect (s : Side) (lane : Nat) (m : Mach) : Mach := barLanes s (clrBit lane (m.barEnd s).lanes) m

/-- What a LINK acknowledges leaves the replay buffer (R421). -/
def linkAck (s : Side) (ack : Nat) (m : Mach) : Mach :=
  let l := (m.barEnd s).replay
  let waits (r : Nat × Msg) : Bool := decide (32768 ≤ (ack + 65536 - r.1 + 65535) % 65536)
  let kept := l.filter waits
  if kept.length = l.length then m
  else m.updEnd s (fun e => { e with replay := kept, resend := e.resend.filter waits, sinceAck := 0 })

/-- A LINK's content at an end: acknowledgement, NAK, the sender's next SEQ, and the field's HALTED and SAFE. -/
def linkContent (s : Side) (seq : Nat) (p : List Byte) (m : Mach) : Mach :=
  let flags := fieldAt 2 1 p
  let m1 := linkAck s (fieldAt 0 2 p) m
  let m2 := if bit 0 flags then linkResend s m1 else m1
  let m3 := if seq = (m2.barEnd s).rxSeq then m2 else m2.updEnd s (fun e => { e with nak := true })
  if s = .host then { m3 with bar := { m3.bar with peerHalted := bit 1 flags, peerSafe := bit 2 flags } } else m3

/-- The own HELLO was acknowledged. -/
def helloAcked (m : Mach) (s : Side) : Bool :=
  (m.barEnd s).txSeq != 0 && !(m.barEnd s).replay.any (fun r => r.2.typ == 2)

/-- BAR_x_CMD ECHO: a barrier ECHO is sent; the spec states no test bytes, so one free byte stands for them. -/
def barEchoEffect (s : Side) (m : Mach) : Mach := linkQueue s 20 [0, BitVec.ofNat 8 m.free.1] m.free.2

/-- An ECHO arrives: answered with REPLY set, or its reply raises ECHO (R426). -/
def echoContent (s : Side) (p : List Byte) (m : Mach) : Mach :=
  if bit 0 (fieldAt 0 1 p) then barRaise s 8 m
  else linkQueue s 20 ((p.take 1).map (fun b => b ||| 1) ++ p.drop 1) m

/-! ## SAFE_STATUS (R423, R426) -/

/-- STO and keep-alive run: the safe state is not in force and the side is not in HOLD, SLEEP or a debug halt (R481, R483). -/
def stoOn (m : Mach) : Bool := !m.safe && !m.inHold && !m.pwr.fSleep && !m.keepHalted

/-- A test pulse runs on a line (R485). -/
def stoTesting (m : Mach) (b : Bool) : Bool :=
  match m.saf.test with
  | some (l, t) => l == b && decide (m.now < t + 400)
  | none => false

/-- Ball levels: STO_A is asserted high, STO_B low (R484). -/
def stoA (m : Mach) : Bool := stoOn m && !stoTesting m false
def stoB (m : Mach) : Bool := !(stoOn m && !stoTesting m true)

def statusContent (m : Mach) : Nat × Nat × Nat :=
  (boolNat m.safe + 2 * boolNat (stoA m) + 4 * boolNat (stoB m) + 8 * boolNat m.bar.cstop.isSome,
   m.rd R.BAR_F_SAFE_CNT_A, m.rd R.BAR_F_SAFE_CNT_B)

def statusPayload (c : Nat × Nat × Nat) : List Byte := toLe 1 c.1 ++ [0] ++ toLe 2 c.2.1 ++ toLe 2 c.2.2 ++ [0, 0]

/-- Keep-alive begins with KA0 rising where it may run, and stops where it may not (R481, R483). -/
def kaSync (m : Mach) : Mach :=
  { m with saf := { m.saf with kaFrom := if stoOn m then some (m.saf.kaFrom.getD m.now) else none } }

/-- The level of ball KA0, and of KA1 in antiphase (R486); at rest where keep-alive does not run. -/
def kaLevel (m : Mach) (one : Bool) : Bool :=
  match m.saf.kaFrom with
  | some t => decide ((m.now - t) / 2000 % 2 = boolNat one)
  | none => false

/-- Keep-alive follows, and SAFE_STATUS is sent when its content changed. -/
def statusSync (m0 : Mach) : Mach :=
  let m := kaSync m0
  let c := statusContent m
  if m.bar.status = some c ∨ !m.linked .field then m
  else linkQueue .field 18 (statusPayload c) { m with bar := { m.bar with status := some c } }

end Sys2Proof.Machine
end

