-- ==== Sys2Proof/Machine/Monitor.lean ====
section
/-! DEFINITION. The safety monitor (chapter 15): causes and reactions, the safe state and its release, SS1, the watchdogs'
rules, the diagnostic interval, the safety event log; and how a command's decoder happenings and safety causes take effect
in its own tick. -/

namespace Sys2Proof.Machine

/-- Raises SAF_EVT bit `b` (R504). -/
def safRaise (b : Nat) (m : Mach) : Mach := m.raise R.SAF_EVT R.SAF_EVT_EN b 372

/-! ## The log (R502, R503) -/

/-- The 32 bytes of a record. -/
def logRecord (m : Mach) (q kind code aux detail : Nat) : List Byte :=
  let body := toLe 8 m.now ++ toLe 8 m.tb.lt ++ toLe 4 q ++ toLe 1 kind ++ toLe 1 code ++ toLe 2 aux ++ toLe 4 detail
  body ++ toLe 4 (crc32 body)

/-- Queues a record; a full queue of 32 drops it. -/
def safLog (kind code aux detail : Nat) (m : Mach) : Mach :=
  if 32 ≤ m.saf.logQ.length then safRaise 7 (m.inc R.SAF_CNT_LOG_LOST)
  else
    { m with saf := { m.saf with
        logQ := m.saf.logQ ++ [logRecord m m.saf.logSeq kind code aux detail]
        logSeq := (m.saf.logSeq + 1) % 2 ^ 32 } }

/-- Offset of record q in the ferroelectric die. -/
def logOffset (q : Nat) : Nat := 0xC0000 + 32 * (q % 8192)

/-- The route's bit in DIC_ROUTE_EN (R79); Spire firmware's own requests have none. -/
def routeBit : Route → Nat
  | .vlp => 0
  | .can0 => 1
  | .can1 => 2
  | .pcie => 3
  | .qspi => 4
  | .par => 5
  | .spire n => 6 + n.val

/-- A route of Spire firmware. -/
def fromSpire : Route → Bool
  | .spire _ => true
  | _ => false

/-- The number of a route in a proof and in a log record; for Spire firmware's own requests the spec gives none. -/
def routeNo (r : Route) (m : Mach) : Nat × Mach := if fromSpire r then (m.free.1 % 256, m.free.2) else (routeBit r, m)

/-- The route that a record names in AUX, of a dictionary request that brought it about, or 0 (R502, DEDUCED, log 71). -/
def recordRoute (w : Writer) (m : Mach) : Nat × Mach :=
  match w with
  | .dict r _ => routeNo r m
  | _ => (0, m)

/-- LOG_RECORD_WRITE: the oldest queued record reaches the die. -/
def logWriteEffect (m : Mach) : Mach :=
  match m.saf.logQ with
  | [] => m
  | r :: rest =>
    let q := fieldAt 16 4 r
    (({ m with saf := { m.saf with logQ := rest }, fram := memWrN m.fram (logOffset q) r }).wr R.SAF_LOG_HEAD q).assertSrc 374

/-- Record q as the die holds it: its 32 bytes when CRC and number agree. -/
def logRead (m : Mach) (q : Nat) : Option (List Byte) :=
  let r := memRdN m.fram (logOffset q) 32
  if fieldAt 28 4 r = crc32 (r.take 28) ∧ fieldAt 16 4 r = q then some r else none

/-! ## Safe state (R478, R488 to R491) -/

/-- The causes that stay in SAF_ACTIVE until their condition clears. -/
def causeHeld (s : Nat) : Bool := [2, 3, 4, 5, 10, 13, 14, 15, 16, 17, 18].contains s

/-- The causes whose reaction SAF_REACT selects. -/
def causeSelected (m : Mach) (s : Nat) : Bool := bit s (m.rd R.SAF_REACT)

/-- A cause's bits. -/
def causeRecord (s : Nat) (m : Mach) : Mach :=
  let m1 := m.wr R.SAF_LATCHED (setBit s (m.rd R.SAF_LATCHED))
  let m2 := if causeHeld s then m1.wr R.SAF_ACTIVE (setBit s (m.rd R.SAF_ACTIVE)) else m1
  { m2 with saf := { m2.saf with causeAt := some m.now } }

/-- Keep restarts for causes 1 and 7; a double escalation has restarted it already (R359, R374, R478). -/
def causeRestart (s : Nat) (m : Mach) : Mach :=
  if s = 1 then restartOnly 2 8 (m.inc R.KEEP_CNT_LS) else m

/-- Entry to the safe state with a cause (R478). -/
def safeEnter (s : Nat) (m : Mach) : Mach :=
  let m1 := { m with
    saf := { m.saf with latchA := true, latchB := true, test := none }
    bar := { m.bar with cstop := none } }
  let m2 := m1.each (List.range 16) (fun o m => octRunOff o m)
  let m3 := ((m2.wr R.SAF_STATE 1).wr R.SAF_CAUSE s).wr R.SAF_ENTRY_TIME m.now
  let m4 := safRaise 0 (m3.inc R.SAF_CNT_ENTRY)
  let m5 := if s = 0 ∨ s = 1 ∨ s = 7 then causeRestart s m4 else m4.class7 2 (0x200 + s)
  statusSync (safLog 1 s 0 0 m5)

/-- A release was executed in this tick. -/
def releasedNow (m : Mach) : Bool := m.saf.relAt.any (fun r => r.1 == m.now)

/-- A RELEASE record of this tick as the REL_REFUSED record it should have been. -/
def recordTurned (now : Nat) (r : List Byte) : List Byte :=
  if fieldAt 0 8 r = now ∧ fieldAt 20 1 r = 2 then
    let body := r.take 20 ++ toLe 1 3 ++ (r.drop 21).take 7
    body ++ toLe 4 (crc32 body)
  else r

/-- A release in the tick of a new cause is refused, also where it was executed before the cause came: the safe state is in force as
before it, and the release counts as refused (R491). -/
def releaseBack (m : Mach) : Mach :=
  match m.saf.relAt with
  | some (t, latched, evt, cnt) =>
    if t ≠ m.now then m
    else
      let m1 := { m with
        saf := { m.saf with latchA := true, latchB := true, relAt := none, logQ := m.saf.logQ.map (recordTurned m.now) }
        asserts := if bit 1 (m.rd R.SAF_EVT_EN) then m.asserts.erase 372 else m.asserts }
      let m2 := (m1.wr R.SAF_LATCHED (latched ||| m.rd R.SAF_LATCHED)).wr R.SAF_STATE 1
      let m3 := if cnt = 0xFFFFFFFF then m2 else m2.wr R.SAF_CNT_RELEASE (m2.rd R.SAF_CNT_RELEASE - 1)
      let m4 := if bit 1 evt then m3 else m3.wr R.SAF_EVT (clrBit 1 (m3.rd R.SAF_EVT))
      statusSync (safRaise 2 (m4.inc R.SAF_CNT_REL_REFUSED))
  | none => m

/-- SAF_CAUSE takes the lowest cause of the tick in which the safe state was entered (R491). -/
def causeLowest (s : Nat) (m : Mach) : Mach :=
  if causeSelected m s ∧ m.rd R.SAF_ENTRY_TIME = m.now ∧ s < m.rd R.SAF_CAUSE then m.wr R.SAF_CAUSE s else m

/-- One cause takes effect, those of one command in rising order. Cause 8 also announces the field WDR 100 µs later. -/
def causeTake (m : Mach) (s : Nat) : Mach :=
  let m0 := causeRecord s (releaseBack m)
  let m1 := if s = 8 ∧ m0.saf.wdrAt = none then { m0 with saf := { m0.saf with wdrAt := some (m.now + 40000) } } else m0
  if m1.safe then causeLowest s (causeRestart s (safRaise 5 (safLog 4 s 0 0 m1)))
  else if causeSelected m s then safeEnter s m1
  else
    let m2 := safRaise 4 (safLog 4 s 0 0 m1)
    if s = 15 then m2 else m2.class7 2 (0x200 + s)

/-- SAFE reactions come before WARN ones, so that SAF_CAUSE takes the lowest cause that asks for the safe state (R491). -/
def causesTake (m : Mach) : Mach :=
  let l := sortNat m.alarms
  let m1 := { m with alarms := [] }
  let safe := l.filter (causeSelected m)
  let warn := l.filter (fun s => !causeSelected m s)
  warn.foldl causeTake (safe.foldl causeTake m1)

/-! ## Settling -/

/-- What a command's decoder happenings and safety causes do in its own tick. -/
def settle (m : Mach) : Mach :=
  let m1 := if m.notes.isEmpty then m else ocuPollAll (lanNotes m)
  if m1.alarms.isEmpty then m1 else causesTake m1

/-- A command's meaning from its effect: always a next state, the queue untouched. -/
def done (f : Mach → Mach) (s : State) : Host.Outcome State Fault Refusal := .next { s with m := settle (f s.m) }

/-! ## Release and demands (R481, R482, R487) -/

/-- A refused release request, with the AUX of its record. -/
def releaseRefused (aux : Nat) (m : Mach) : Mach := safRaise 2 (safLog 3 0 aux 0 (m.inc R.SAF_CNT_REL_REFUSED))

/-- A release request, with the AUX of its record. -/
def releaseRequest (aux : Nat) (m : Mach) : Mach :=
  if m.rd R.SAF_STATE = 1 ∧ m.rd R.SAF_ACTIVE = 0 ∧ m.saf.causeAt ≠ some m.now then
    let m1 := { m with saf := { m.saf with
      latchA := false
      latchB := false
      relAt := some (m.now, m.rd R.SAF_LATCHED, m.rd R.SAF_EVT, m.rd R.SAF_CNT_RELEASE) } }
    let m2 := ((m1.wr R.SAF_LATCHED 0).wr R.SAF_STATE 0).inc R.SAF_CNT_RELEASE
    statusSync (safLog 2 0 aux 0 (safRaise 1 m2))
  else releaseRefused aux m

/-- SAF_RELEASE: through a session, or by Keep's own authority while SAF_LOCAL_REL is 1 and SAF_LOCK is intact. -/
def safReleaseEffect (w : Writer) (v : Nat) (m : Mach) : Eff :=
  if v ≠ 0x736C6572 then .error .range
  else
    match w with
    | .keep => .ok (if m.on R.SAF_LOCAL_REL && !m.saf.safLock then releaseRequest 0 m else releaseRefused 0 m)
    | _ => .ok (releaseRequest (recordRoute w m).1 (recordRoute w m).2)

/-- A demand for STO: cause 19 from the host, 21 from SAF_DEMAND. -/
def demandSto (cause : Nat) (m : Mach) : Mach := m.alarm cause

/-- A demand for SS1 (R487); it comes before a release of its tick, and finds the safe state then (R491). -/
def demandSs1 (m : Mach) : Mach :=
  if m.rd R.SAF_STATE = 0 ∧ !releasedNow m then
    let m1 := ({ m with saf := { m.saf with ss1Start := m.now } }).wr R.SAF_STATE 2
    safLog 5 0 0 0 (safRaise 3 (m1.class7 2 0x214))
  else m

/-- SS1_TIMEOUT. -/
def ss1TimeoutEffect (m : Mach) : Mach := if m.rd R.SAF_STATE = 2 then m.alarm 20 else m

/-- SAF_DEMAND. -/
def safDemandEffect (v : Nat) (m : Mach) : Eff :=
  if v = 1 then .ok (demandSto 21 m) else if v = 2 then .ok (demandSs1 m) else .error .range

/-! ## Detectors (R484 to R486, R488) -/

/-- CLOCK_MONITOR_FAULT. -/
def clockFaultEffect (k : Nat) (m : Mach) : Mach := m.alarm (if k = 4 then 16 else k + 2)

/-- The condition of a held cause that the state shows; the others are the sender's. -/
def causeStands (m : Mach) (s : Nat) : Bool :=
  if s = 10 then (List.range 16).any (fun o => m.rd (R.TRP_RB_CH o) != 0)
  else if s = 13 then (List.range 16).any (fun d => (m.whl d).plausFault)
  else if s = 14 then !m.linked .field
  else if s = 15 then bits 12 0 m.pwr.railF != 0
  else if s = 18 then
    (List.range 32).any (fun c => bit c (m.rd R.SAF_SD_MASK) && m.chMode c == 10 && ((m.chan c).sd.loss || (m.chan c).sd.bad))
  else false

/-- CAUSE_CLEARED. -/
def causeClearedEffect (s : Nat) (m : Mach) : Mach :=
  if causeHeld s && !causeStands m s then m.wr R.SAF_ACTIVE (clrBit s (m.rd R.SAF_ACTIVE)) else m

/-- The tick of a test pulse of STO_A, and of STO_B 50 ms later. -/
def stoPulseDue (m : Mach) (b : Bool) : Bool := m.now % 40000000 == (if b then 20000000 else 0)

/-- STO_TEST_PULSE on a line, in its tick; `ok` tells that both readbacks came in time. -/
def stoPulseEffect (b ok : Bool) (m : Mach) : Mach :=
  if m.on R.SAF_STO_TEST && stoOn m && stoPulseDue m b then
    let m1 := statusSync { m with saf := { m.saf with test := some (b, m.now) } }
    if ok then m1 else m1.alarm 11
  else m

/-- STO_READBACK_FAULT; KA_READBACK_FAULT while the output runs. -/
def stoReadbackEffect (m : Mach) : Mach := m.alarm 11
def kaReadbackEffect (m : Mach) : Mach := if stoOn m then m.alarm 12 else m

/-! ## Watchdogs (R492, R520) -/

/-- Time pauses for the field watchdog and the diagnostic interval. -/
def wdPaused (m : Mach) : Bool := m.pwr.fSleep || m.keepHalted || m.inReset .field

/-- The time of both restarts from 0, when SLEEP or a debug halt ends or Keep restarts. -/
def wdRestart (m : Mach) : Mach :=
  { m with saf := { m.saf with wd := { m.saf.wd with start := m.now, warned := false }, diagStart := m.now } }

/-- A kick is in time and carries the next key. -/
def wdGood (w : Wd) (now min key : Nat) : Bool :=
  decide (min ≤ now - w.start) && key == (if w.second then 0xA53C else 0x5AC3)

/-- SAF_WD_KICK. -/
def safKickEffect (w : Writer) (key : Nat) (m : Mach) : Mach :=
  match w with
  | .keep =>
    if wdGood m.saf.wd m.now (400 * m.rd R.SAF_WD_MIN) key then
      { m with saf := { m.saf with wd := ⟨m.now, !m.saf.wd.second, false⟩ } }
    else m.alarm 8
  | _ => m.alarm 8

/-- FIELD_WATCHDOG_EXPIRY and FIELD_WATCHDOG_WARNING. -/
def fieldWdExpiry (m : Mach) : Mach := if wdPaused m then m else m.alarm 8

def fieldWdWarning (m : Mach) : Mach :=
  if wdPaused m || m.saf.wd.warned then m
  else ({ m with saf := { m.saf with wd := { m.saf.wd with warned := true } } }).assertSrc 373

/-- The host watchdog pauses in host SLEEP and while a Spire core is halted; without a valid image the boot ROM services it (R517). -/
def hostWdPaused (m : Mach) : Bool :=
  m.hostOff || (m.core 0).halted || (m.core 1).halted || bits 1 0 (m.rd R.PWR_H_BOOT_STAT) == 2

/-- The host watchdog's time in ticks of 400 per µs, from the host's SCLK cycles. -/
def hostTicks (m : Mach) : Nat := m.tb.sclk / 2

def hostWdWarning (m : Mach) : Mach :=
  if hostWdPaused m || m.pwr.hWd.warned then m
  else ({ m with pwr := { m.pwr with hWd := { m.pwr.hWd with warned := true } } }).assertSrc 413

/-! ## Diagnostic interval (R493) -/

/-- The word that the next SAF_DIAG_SEQ write must carry. -/
def diagWord (m : Mach) : Nat :=
  let n := (m.rd R.SAF_DIAG_CNT + 1) % 65536
  (65535 - n) * 65536 + n

/-- SAF_DIAG_SEQ. -/
def diagSeqEffect (v : Nat) (m : Mach) : Mach :=
  if v = diagWord m then
    ({ m with saf := { m.saf with diagStart := m.now } }).wr R.SAF_DIAG_CNT ((m.rd R.SAF_DIAG_CNT + 1) % 65536)
  else m.alarm 9

/-- DIAG_INTERVAL_EXPIRY: the next interval starts at once. -/
def diagExpiry (m : Mach) : Mach :=
  if wdPaused m then m else ({ m with saf := { m.saf with diagStart := m.now } }).alarm 9

/-! ## Keys, fuses and log writes (R497, R499, R503) -/

/-- SAF_KEY_COMMIT. -/
def keyCommitEffect (v : Nat) (m : Mach) : Eff :=
  if v = 0x7379656B then
    .ok { m with saf := { m.saf with key := some ((List.range 8).flatMap (fun i => toLe 4 (m.rd (R.SAF_KEY i)))) } }
  else .error .range

/-- SAF_FUSE_CMD; accepted through a session only. The FUSE record's code is a free byte, for no rule numbers the fuses. -/
def fuseCmdEffect (w : Writer) (v : Nat) (m : Mach) : Eff :=
  match w with
  | .dict r _ =>
    let rec_ (m : Mach) : Mach :=
      let n := routeNo r m
      safLog 9 (n.2.free.1 % 256) n.1 0 n.2.free.2
    if v = 0x6B6C6264 then
      if m.linked .field then .ok (rec_ { m with saf := { m.saf with dbgLock := true } }) else .error .notReady
    else if v = 0x6B6C6673 then
      if m.saf.key.isSome then .ok (rec_ { m with saf := { m.saf with safLock := true } }) else .error .range
    else .error .range
  | _ => .error .machine

/-- SAF_LOG_APPEND. -/
def logAppendEffect (w : Writer) (v : Nat) (m : Mach) : Eff :=
  match w with
  | .keep => .ok (safLog 0x80 0 0 v m)
  | _ => .error .range

def safCounters : List Obj :=
  [R.SAF_CNT_ENTRY, R.SAF_CNT_RELEASE, R.SAF_CNT_REL_REFUSED, R.SAF_CNT_AUTH_FAIL, R.SAF_CNT_LOG_LOST]

/-! ## Views -/

/-- SAF_STATUS. -/
def safStatus (m : Mach) : Nat :=
  boolNat (stoOn m) * 128 + boolNat (stoB m) * 64 + boolNat (stoA m) * 32 +
  boolNat (stoTesting m false || stoTesting m true) * 16 + boolNat m.saf.safLock * 8 + boolNat (!m.saf.dbgLock) * 4 +
  boolNat (m.rd R.SAF_STATE == 2) * 2 + boolNat m.safe

/-- SAF_SS1_LEFT. -/
def ss1Left (m : Mach) : Nat :=
  if m.rd R.SAF_STATE = 2 then (400000 * m.rd R.SAF_SS1_TIME - (m.now - m.saf.ss1Start)) / 400 else 0

/-- SAF_SESS_STAT. -/
def sessStat (m : Mach) : Nat := boolNat m.saf.key.isSome * 4 + (m.saf.sess.filter (·.isOpen)).length

end Sys2Proof.Machine
end

