-- ==== Sys2Proof/Machine/Timebase.lean ====
section
/-! DEFINITION. The timebase (chapter 3): the tick of FTB and LT, the line-time servo, the general timers; and the time strobe
and its calibration (R432, R433, R550). -/

namespace Sys2Proof.Machine

/-! ## General timers (R94 to R100) -/

/-- Timer n belongs to a linked pair. -/
def gtLinked (m : Mach) (n : Nat) : Bool := bit 15 (m.rd (R.GT_CTRL (n - n % 2)))

/-- The timer whose GT_CTRL, GT_RUN and GT_EVT_EN govern timer n. -/
def gtGov (m : Mach) (n : Nat) : Nat := if gtLinked m n then n - n % 2 else n

def gtPresc (m : Mach) (n : Nat) : Nat := bits 3 0 (m.rd (R.GT_CTRL (gtGov m n)))

def gtRuns (m : Mach) (n : Nat) : Bool := m.on (R.GT_RUN (gtGov m n))

/-- Sets flag `b` of a timer; source 336 + n when the governing enable has it. -/
def gtFlag (n b : Nat) (m : Mach) : Mach := m.raise (R.GT_STATUS n) (R.GT_EVT_EN (gtGov m n)) b (336 + n)

/-- GT_COMPARE_MATCH: flag, source, and the units that take the compare as a trigger: movers, which stand while FCLK is stopped, and the
class B windows of octets, which run on PCLK (R97, R98, R299). -/
def gtMatchEffect (n c : Nat) (m : Mach) : Mach :=
  if !gtRuns m n || (gtLinked m n && n % 2 == 1) then m
  else
    let m1 := gtFlag n c m
    if m.pwr.fSleep then m1 else trpTimerMatch n c (m1.when (!m.keepHalted) (movArrive 3 (2 * n + c)))

/-- GT_WRAP. -/
def gtWrapEffect (n : Nat) (m : Mach) : Mach := if gtRuns m n then gtFlag n 2 m else m

/-- GT_RUN (R95, R100). -/
def gtRunEffect (n : Nat) (run : Bool) (m : Mach) : Eff :=
  if gtLinked m n && n % 2 == 1 then .error .range
  else if run then
    if m.on (R.GT_RUN n) then .ok m
    else .ok ({ m with tb := { m.tb with pa := mapSet 0 n 0 m.tb.pa } }.wr (R.GT_RUN n) 1)
  else .ok (m.wr (R.GT_RUN n) 0)

/-- GT_COUNT: the next tick loads it (R95). -/
def gtLoadEffect (n v : Nat) (m : Mach) : Mach := { m with tb := { m.tb with loads := mapPut n v m.tb.loads } }

/-- A GT_CTRL write that changes LINK while either timer of the pair runs: out of range, whatever GT_UNLOCK reads (R99). -/
def gtLinkBar (m : Mach) (n v : Nat) : Bool :=
  n % 2 == 0 && bit 15 v != bit 15 (m.rd (R.GT_CTRL n)) && (m.on (R.GT_RUN n) || m.on (R.GT_RUN (n + 1)))

/-- GT_CTRL (R94, R99). -/
def gtCtrlEffect (n v : Nat) (m : Mach) : Eff :=
  if v / 2 ^ 16 ≠ 0 ∨ bits 14 4 v ≠ 0 then .error .range
  else if n % 2 = 1 ∧ bit 15 v then .error .range
  else if gtLinkBar m n v then .error .range
  else .ok (m.wr (R.GT_CTRL n) v)

/-- A compare C matches in an advance by `adv` from `old` modulo `2 ^ w` (R96). -/
def gtPasses (w c old adv : Nat) : Bool :=
  let d := (c + 2 ^ w - old) % 2 ^ w
  decide (0 < d) && decide (d ≤ adv)

/-- The matches of one advance, as the effects of their rows. -/
def gtDue (i : Fin 16) (w c0 c1 old adv : Nat) : List (Mach → Mach) :=
  (if gtPasses w c0 old adv then [gtMatchEffect i 0] else []) ++
  (if gtPasses w c1 old adv then [gtMatchEffect i 1] else [])

/-- One timer that is not linked advances by `d` ticks: the machine and what is due. -/
def gtAdvance (n : Fin 16) (d : Nat) (m : Mach) : Mach × List (Mach → Mach) :=
  match mapGet none n.val (m.tb.loads.map (fun e => (e.1, some e.2))) with
  | some v => ({ m with tb := { m.tb with pa := mapSet 0 n.val 0 m.tb.pa } }.wr (R.GT_COUNT n) v, [])
  | none =>
    if !m.on (R.GT_RUN n) then (m, [])
    else
      let p := 2 ^ gtPresc m n
      let pa := mapGet 0 n.val m.tb.pa + d
      let old := m.rd (R.GT_COUNT n)
      ({ m with tb := { m.tb with pa := mapSet 0 n.val (pa % p) m.tb.pa } }.wr (R.GT_COUNT n) ((old + pa / p) % 2 ^ 32),
       gtDue n 32 (m.rd (R.GT_CMP0 n)) (m.rd (R.GT_CMP1 n)) old (pa / p) ++
       if 2 ^ 32 ≤ old + pa / p then [gtWrapEffect n] else [])

/-- A linked pair advances as one 64-bit count; a load of either half holds the whole pair for its tick. -/
def gtAdvancePair (lo hi : Fin 16) (d : Nat) (m : Mach) : Mach × List (Mach → Mach) :=
  let ld := m.tb.loads.filter (fun e => e.1 == lo.val || e.1 == hi.val)
  if !ld.isEmpty then
    ({ m with tb := { m.tb with pa := mapSet 0 lo.val 0 m.tb.pa } }.each ld (fun e m => m.wr (R.GT_COUNT e.1) e.2), [])
  else if !m.on (R.GT_RUN lo) then (m, [])
  else
    let p := 2 ^ gtPresc m lo
    let pa := mapGet 0 lo.val m.tb.pa + d
    let old := m.rd (R.GT_COUNT hi) * 2 ^ 32 + m.rd (R.GT_COUNT lo)
    let new := (old + pa / p) % 2 ^ 64
    let m1 := { m with tb := { m.tb with pa := mapSet 0 lo.val (pa % p) m.tb.pa } }
    ((m1.wr (R.GT_COUNT lo) (new % 2 ^ 32)).wr (R.GT_COUNT hi) (new / 2 ^ 32),
     gtDue lo 64 (m.rd (R.GT_CMP0 hi) * 2 ^ 32 + m.rd (R.GT_CMP0 lo)) (m.rd (R.GT_CMP1 hi) * 2 ^ 32 + m.rd (R.GT_CMP1 lo))
       old (pa / p) ++
     (if 2 ^ 32 ≤ m.rd (R.GT_COUNT lo) + pa / p then [gtWrapEffect lo] else []) ++
     (if 2 ^ 64 ≤ old + pa / p then [gtWrapEffect hi] else []))

/-- Timers 2k and 2k + 1 advance. -/
def gtPairTick (d : Nat) (s : Mach × List (Mach → Mach)) (k : Fin 8) : Mach × List (Mach → Mach) :=
  let lo : Fin 16 := ⟨2 * k.val, by omega⟩
  let hi : Fin 16 := ⟨2 * k.val + 1, by omega⟩
  if gtLinked s.1 lo then
    let r := gtAdvancePair lo hi d s.1
    (r.1, s.2 ++ r.2)
  else
    let a := gtAdvance lo d s.1
    let b := gtAdvance hi d a.1
    (b.1, s.2 ++ a.2 ++ b.2)

/-- Every general timer advances by d ticks. -/
def gtTick (d : Nat) (m : Mach) : Mach × List (Mach → Mach) :=
  let r := (List.finRange 8).foldl (gtPairTick d) (m, [])
  ({ r.1 with tb := { r.1.tb with loads := [] } }, r.2)

/-! ## FTB and LT (R80 to R87) -/

/-- FCLK is stopped: SLEEP or a Keep debug halt (R30, R81). -/
def lclkMode (m : Mach) : Bool := m.pwr.fSleep || m.keepHalted

/-- FTB and LT advance by d ticks; a step that waits is added once. -/
def tbAdvance (d : Nat) (m : Mach) : Mach :=
  let v := (m.tb.lt * 2 ^ 32 + m.tb.frac + (2 * 2 ^ 32 + m.rd R.LT_ADDEND) * d) % 2 ^ 96
  { m with tb := { m.tb with
      ftb := (m.tb.ftb + d) % 2 ^ 64
      lt := ofSigned 64 ((v / 2 ^ 32 : Nat) + m.tb.step)
      frac := v % 2 ^ 32
      step := 0 } }

/-- LCLK mode begins at an LCLK edge. -/
def slowBegin (m : Mach) : Mach := { m with tb := { m.tb with slowFrom := some m.tb.ftb } }.wr R.FTB_SLOW 1

/-- LCLK mode ends at an LCLK edge. -/
def slowEnd (start : Nat) (m : Mach) : Mach :=
  (({ m with tb := { m.tb with slowFrom := none } }.wr R.FTB_SLOW 0).inc R.FTB_SLOW_COUNT).wr R.FTB_SLOW_LAST (m.tb.ftb - start)

/-- One FCLK period of the field timebase. An LCLK edge comes in every 128th, the place of the first being open (log 1); in LCLK
mode only the edges advance the counts, by 128, and the mode begins and ends at an edge. `wake` is what an edge in LCLK mode lets
run again (R81, R82, R98). -/
def tbTick (wake : Mach → Mach) (m : Mach) : Mach × List (Mach → Mach) :=
  let k := (m.tb.lclk + 1) % 128
  let m0 := { m with tb := { m.tb with lclk := k } }
  match m.tb.slowFrom with
  | none =>
    let r := gtTick 1 (tbAdvance 1 m0)
    if k = 0 ∧ lclkMode m then (slowBegin r.1, r.2) else r
  | some start =>
    if k ≠ 0 then (m0, [])
    else
      let m1 := wake (tbAdvance 128 m0)
      gtTick 128 (if lclkMode m1 then m1 else slowEnd start m1)

/-! ## The servo (R89 to R92) -/

/-- Source 369: changes of LOCKED and HOLDOVER, and servo steps. -/
def ltNotify (m : Mach) : Mach := m.assertSrc 369

/-- The strobe interval in ticks. BAR_STROBE_INT is the host's and no message carries it: the field's servo takes it as it stands
(DESIGN CHOICE, log 36). -/
def strobeTicks (m : Mach) : Nat := 400 * m.rd R.BAR_STROBE_INT

/-- Puts a bit of LT_SERVO_STATUS and notifies a change. -/
def servoBit (b : Nat) (v : Bool) (m : Mach) : Mach :=
  if bit b (m.rd R.LT_SERVO_STATUS) = v then m else ltNotify (m.putBit R.LT_SERVO_STATUS b v)

def ltAddendClamp (v : Int) : Int := clampInt 0x7FAE147B 0x8051EB85 v

/-- LOCKED clears. -/
def servoUnlock (m : Mach) : Mach := servoBit 0 false { m with tb := { m.tb with good := 0 } }

/-- A step of LT, which clears LOCKED: added by the next tick, counted at once (R87, R91). -/
def ltStepBy (v : Int) (m : Mach) : Mach :=
  servoUnlock ({ m with tb := { m.tb with step := m.tb.step + v } }.inc R.LT_STEP_COUNT)

/-- LT_STEP. -/
def ltStepEffect (v : Nat) (m : Mach) : Eff :=
  let x := toSigned 64 v
  if x.natAbs ≤ 2 ^ 62 then .ok (ltStepBy x m) else .error .range

/-- LT_SERVO_MODE: a change is a new reference point of R92. -/
def servoModeEffect (v : Nat) (m : Mach) : Eff :=
  if 2 < v then .error .range
  else if v = m.rd R.LT_SERVO_MODE then .ok m
  else
    let m1 := { m with tb := { m.tb with ref := m.now } }.wr R.LT_SERVO_MODE v
    .ok (if v = 1 then m1 else servoUnlock m1)

/-- HOLDOVER. -/
def holdoverEffect (m : Mach) : Mach :=
  let m1 := servoBit 1 true m
  if m.rd R.LT_SERVO_MODE = 1 then
    (servoUnlock m1).wr R.LT_ADDEND (ltAddendClamp (0x80000000 + m.rdI 32 R.LT_INTEGRAL)).toNat
  else m1

/-- HOLDOVER is due (R92). -/
def holdoverDue (m : Mach) : Bool :=
  !bit 1 (m.rd R.LT_SERVO_STATUS) && decide ((m.rd R.LT_HOLDOVER + 1) * strobeTicks m ≤ m.now - m.tb.ref)

/-- The delay in force, to the nearest ns (R433). -/
def calRounded (m : Mach) : Int := (m.bar.calNs + 500) / 1000

/-- Mode HW with an error beyond the step threshold. -/
def servoStep (e : Int) (m : Mach) : Mach :=
  let m1 := ltNotify ((ltStepBy e m).putBit R.LT_SERVO_STATUS 2 true)
  (m1.wr R.LT_INTEGRAL 0).wr R.LT_ADDEND 0x80000000

/-- Mode HW within the step threshold. -/
def servoTrack (e : Int) (m : Mach) : Mach :=
  let i := (256 * strobeTicks m : Nat)
  let ai := clampInt (-0x0051EB85) 0x0051EB85
    (m.rdI 32 R.LT_INTEGRAL + (m.rd R.LT_KI * e * 4294967296).tdiv i)
  let ap := (m.rd R.LT_KP * e * 4294967296).tdiv i
  let m1 := ((m.putBit R.LT_SERVO_STATUS 2 false).wr R.LT_ADDEND (ltAddendClamp (0x80000000 + ai + ap)).toNat).wrI 32
    R.LT_INTEGRAL ai
  if e.natAbs ≤ m.rd R.LT_LOCK_THRESH then
    let m2 := { m1 with tb := { m1.tb with good := m1.tb.good + 1 } }
    if 8 ≤ m2.tb.good ∧ m2.bar.calDone then servoBit 0 true m2 else m2
  else servoUnlock m1

/-- One beacon: the host's line time at the strobe, the field's capture of it, and FTB at the capture. -/
def beaconServo (host cap at_ : Nat) (m : Mach) : Mach :=
  let e := toSigned 64 (ofSigned 64 ((host : Int) - cap)) - calRounded m
  let m1 := { m with tb := { m.tb with ref := at_ } }.wrI 32 R.LT_BEACON_ERR (satSigned 32 e)
  let m2 := servoBit 1 false m1
  if m.rd R.LT_SERVO_MODE = 1 then
    if m.rd R.LT_STEP_THRESH < e.natAbs then servoStep e m2 else servoTrack e m2
  else m2

/-! ## Strobe and calibration (R432, R433, R550) -/

/-- STROBE_SEND: the strobe leaves at a multiple of the interval and its BEACON follows. -/
def strobeSendEffect (m : Mach) : Mach :=
  if m.barState .host = 0 ∨ m.hostOff then m
  else
    let n := (m.rd R.BAR_H_STROBE_NUM + 1) % 2 ^ 32
    let m1 := { m with bar := { m.bar with lastStrobe := m.hlt } }.wr R.BAR_H_STROBE_NUM n
    linkQueue .host 4 (toLe 8 m.hlt ++ toLe 4 n) (m1.send .strobe [n, m.hlt])

/-- STROBE_CAPTURE: LT_NOW at the tick that samples the edge; FCLK must run. -/
def strobeCaptureEffect (n : Nat) (m : Mach) : Mach :=
  if lclkMode m then m else { m with bar := { m.bar with strobe := some (n, m.tb.lt, m.now) } }

/-- A BEACON's content: paired with the capture of its number, or discarded; a processed one is reported. -/
def beaconContent (p : List Byte) (m : Mach) : Mach :=
  match m.bar.strobe with
  | some (n, cap, at_) =>
    if n = fieldAt 8 4 p then
      let m1 := beaconServo (fieldAt 0 8 p) cap at_ { m with bar := { m.bar with strobe := none } }
      linkQueue .field 5 (toLe 4 n ++ toLe 4 (m1.rd R.LT_BEACON_ERR) ++ toLe 1 (m1.rd R.LT_SERVO_STATUS) ++ [0, 0, 0]) m1
    else m
  | none => m

/-- A TIME_REPORT changes nothing at the host: the spec gives it no object. -/
def timeReportContent (_ : List Byte) (m : Mach) : Mach := m

/-- CALIBRATION_START: 64 strobes follow. -/
def calStartEffect (m : Mach) : Mach :=
  if m.linked .host then
    { m with bar := { m.bar with calLeft := 64, calAt := m.tb.sclk, echoes := [], calGot := 0, calSum := 0, lastCal := m.hlt } }
  else m

/-- A calibration runs. -/
def calRuns (m : Mach) : Bool := m.bar.calLeft != 0 || m.bar.calGot != 0 || !m.bar.echoes.isEmpty

/-- No calibration runs. -/
def calStop (m : Mach) : Mach := { m with bar := { m.bar with calLeft := 0, echoes := [], calGot := 0, calSum := 0 } }

/-- CALIBRATION_COMPLETE with the mean round trip in ps. -/
def calCompleteEffect (rtt : Nat) (m : Mach) : Mach :=
  if calRuns m then
    let d := ((rtt : Int) - 39375).tdiv 2 + m.rdI 16 R.BAR_H_ASYM
    let m2 := ((calStop m).wr R.BAR_H_RTT rtt).wrI 32 R.BAR_H_CAL_DELAY d
    barRaise .host 4 (linkQueue .host 6 (toLe 4 (ofSigned 32 d) ++ toLe 4 64) m2)
  else m

/-- The next strobe of a calibration is due, 10 µs after the last one. -/
def calStrobeDue (m : Mach) : Bool := m.bar.calLeft != 0 && decide (m.bar.calAt ≤ m.tb.sclk)

/-- A calibration strobe leaves, and the field, while FCLK runs, samples it and echoes it 16 T later (R433). -/
def calStrobe (m : Mach) : Mach :=
  { m.send .strobe [m.hlt] with bar := { m.bar with
    calLeft := m.bar.calLeft - 1
    calAt := m.bar.calAt + 8000
    echoes := if lclkMode m then m.bar.echoes else m.bar.echoes ++ [m.now + 16] } }

/-- An echo is due at the field. -/
def calEchoDue (m : Mach) : Bool :=
  match m.bar.echoes with
  | t :: _ => decide (t ≤ m.now)
  | [] => false

/-- The host samples an echo on SCLK: a round trip of so many SCLK periods, which the spec does not give and the strobe lanes make; the
64th one ends the calibration with their mean (R433, log 3). -/
def calEcho (m : Mach) : Mach :=
  let n := m.bar.calGot + 1
  let sum := m.bar.calSum + 1250 * (m.free.1 % 65536)
  let m1 := { m.free.2 with bar := { m.bar with echoes := m.bar.echoes.drop 1, calGot := n, calSum := sum } }
  if n = 64 then calCompleteEffect (sum / 64) m1 else m1

/-- A STROBE_CAL's content. -/
def strobeCalContent (p : List Byte) (m : Mach) : Mach :=
  let d := fieldAt 0 4 p
  barRaise .field 4 ({ m with bar := { m.bar with calNs := toSigned 32 d, calDone := true } }.wr R.BAR_F_CAL_DELAY d)

end Sys2Proof.Machine
end

