-- ==== Sys2Proof/Machine/Power.lean ====
section
/-! DEFINITION. Power, resets and operating states (chapter 16, R16 to R19): what every reset, HOLD, SLEEP and wake do, the
supply supervision, unit stops, the loads of the field image and the host watchdog. -/

namespace Sys2Proof.Machine

/-! ## Owners and retention (R18, R19, R23) -/

/-- The owner of an index (R23). -/
def ownerOf (idx : Nat) : Side :=
  if 0x1180 ≤ idx ∧ idx ≤ 0x11FF then .field
  else if 0x1280 ≤ idx ∧ idx ≤ 0x12FF then .field
  else if 0x1900 ≤ idx ∧ idx ≤ 0x19FF then .field
  else if 0x2000 ≤ idx ∧ idx ≤ 0x5FFF then .field
  else if 0x7000 ≤ idx then .field
  else .host

/-- The user object at an index and subindex (R49). -/
def Mach.user (m : Mach) (idx sub : Nat) : Option User := m.dic.users.find? (fun u => u.idx == idx && u.sub == sub)

/-- Retention class and default of the object with a key. -/
def objRet (m : Mach) (key : Nat) : Ret :=
  match findObj (key / 256) (key % 256) with
  | some f => f.row.ret
  | none => match m.user (key / 256) (key % 256) with
    | some u => u.ret
    | none => .v

def objDflt (m : Mach) (key : Nat) : Nat :=
  match findObj (key / 256) (key % 256) with
  | some f => f.row.dflt
  | none => match m.user (key / 256) (key % 256) with
    | some u => u.dflt
    | none => 0

/-- The K object that the log itself holds (R504). -/
def heldElsewhere (key : Nat) : Bool := key == R.SAF_LOG_HEAD.key

/-- K objects that the image's header holds, never stored as values (R79). -/
def headHeld (key : Nat) : Bool := key == R.DIC_STORE_COUNT.key || key == R.DIC_STORED_BYTES.key

/-- Whether an object keeps its value at a reset of side `s`, a software reset when `sw`. -/
def keepsAt (m : Mach) (s : Side) (sw : Bool) (key : Nat) : Bool :=
  decide (ownerOf (key / 256) ≠ s) || heldElsewhere key ||
  (match objRet m key with
   | .r => true
   | .w => sw
   | _ => false)

/-- The newest valid parameter image (R69). -/
def Mach.image (m : Mach) : Option Image := if m.dic.newestB then m.dic.bankB else m.dic.bankA

/-- Puts stored values back. -/
def restoreVals (vals : List (Nat × Nat)) (m : Mach) : Mach :=
  m.each vals (fun e m => { m with regs := mapSet (objDflt m e.1) e.1 e.2 m.regs })

def restoreStrs (strs : List (Nat × List Byte)) (m : Mach) : Mach :=
  m.each strs (fun e m => { m with dic := { m.dic with strs := mapSet [] e.1 e.2 m.dic.strs } })

/-- The stored K values of a side that its objects take again; a user object has none until it is declared anew. -/
def storedOf (s : Side) (key : Nat) : Bool := decide (ownerOf (key / 256) = s) && decide (key / 256 < 0x6000)

/-- Objects, strings and tables of a side at a reset (R18); the host's stored values come with PERS_RESTORE (R25). -/
def objectsReset (s : Side) (sw : Bool) (m : Mach) : Mach :=
  let m1 := { m with
    regs := m.regs.filter (fun e => keepsAt m s sw e.1)
    dic := { m.dic with
      strs := m.dic.strs.filter (fun e => keepsAt m s sw e.1)
      doms := m.dic.doms.filter (fun e => keepsAt m s sw e.1)
      users := m.dic.users.filter (fun u => decide (ownerOf u.idx ≠ s)) } }
  match s, m.image with
  | .field, some i =>
    restoreStrs (i.strs.filter (fun e => storedOf .field e.1)) (restoreVals (i.vals.filter (fun e => storedOf .field e.1)) m1)
  | _, _ => m1

/-! ## HOLD and SLEEP entry of the field side (R18, R194, R206, R229, R253, R262, R521) -/

/-- Class V objects of a side return to their defaults. -/
def volatileReset (s : Side) (m : Mach) : Mach :=
  let kept (k : Nat) : Bool := decide (ownerOf (k / 256) ≠ s) || !decide (objRet m k = .v)
  { m with
    regs := m.regs.filter (fun e => kept e.1)
    dic := { m.dic with
      strs := m.dic.strs.filter (fun e => kept e.1)
      doms := m.dic.doms.filter (fun e => kept e.1) } }

/-- A reset or state entry of a side is noted for its tick: 0 HOLD or SLEEP, 1 a software reset, 2 another (R19). -/
def entryNote (s : Side) (kind : Nat) (m : Mach) : Mach := { m with entries := (s, kind) :: m.entries }

/-- Every unit of the field side stops and its outputs go to their safe level. -/
def fieldStop (m : Mach) : Mach :=
  let m1 := tursHalt (movsHalt (octsHalt (ocusHalt (vmsHalt (axesHalt (lanHalt (whlsHalt m)))))))
  belReset .field (volatileReset .field { chansRestart m1 with nms := [], notes := [] })

/-- Units whose run request reads 1 restart, as their chapters lay down for a return to RUN. -/
def fieldRestart (m : Mach) : Mach :=
  movsRestart (tursRestart (octsRestart (ocusRestart (axesRestart (vmsRestart (lanRestart (whlsRestart m)))))))

/-- STATE's content. -/
def stateMsg (entry quiet : Nat) : List Byte := [BitVec.ofNat 8 entry, BitVec.ofNat 8 quiet, 0, 0]

/-- HOLD entry. -/
def holdEntry (m : Mach) : Mach :=
  let m1 := (entryNote .field 0 (fieldStop m)).wr R.PWR_F_STATE 2
  pwrRaiseF 0 (linkQueue .field 3 (stateMsg 2 0) (statusSync m1))

/-- Return from HOLD to RUN. -/
def holdExit (m : Mach) : Mach :=
  let m1 := pwrRaiseF 0 (m.wr R.PWR_F_STATE 0)
  linkQueue .field 3 (stateMsg 0 0) (statusSync (fieldRestart m1))

/-- PWR_F_STATE_REQ (R521, R522). -/
def fieldReqEffect (v : Nat) (m : Mach) : Eff :=
  if v = 2 then
    let m1 := { m with pwr := { m.pwr with fSleepReq := false } }.wr R.PWR_F_STATE_REQ 2
    .ok (if m.inHold then m1 else holdEntry m1)
  else if v = 0 then
    let m1 := { m with pwr := { m.pwr with fSleepReq := false } }.wr R.PWR_F_STATE_REQ 0
    .ok (if m.inHold then holdExit m1 else m1)
  else if v = 3 ∧ !m.inHold then
    .ok ({ m with pwr := { m.pwr with fSleepReq := true } }.wr R.PWR_F_STATE_REQ 3)
  else .error .range

/-- SLEEP_ENTRY: Keep is gated in WFI and no enabled source stands. -/
def sleepEntryEffect (m : Mach) : Mach :=
  if m.pwr.fSleepReq && (m.core 2).gated && !m.inHold && !belWakes m 2 then
    let m1 := entryNote .field 0 (fieldStop m)
    let m2 := barOff .field (linkFarewell .field 3 (stateMsg 3 1) m1)
    kaSync (pwrRaiseF 0 { m2 with pwr := { m2.pwr with fSleep := true, fSleepReq := false } })
  else m

/-- WAKE (R523). -/
def wakeEffect (bar : Bool) (m : Mach) : Mach :=
  if m.pwr.fSleep && m.pwr.stage == 0 && (if bar then m.on R.PWR_F_WAKE_BAR else belCalls m 2) then
    govRequest .wake (({ m with pwr := { m.pwr with stage := 1, granted := false } }).wr R.PWR_F_WAKE_CAUSE
      (if bar then 2 else 1))
  else m

/-- The next wake stage may start; a stage C that has started waits for its LCLK edge. -/
def stageDue (m : Mach) : Bool :=
  m.pwr.stage != 0 && (decide (3 ≤ m.pwr.stage) || m.pwr.granted) &&
  !(m.pwr.stage == 3 && m.pwr.granted) &&
  (m.pwr.stage == 1 || decide (m.pwr.stageAt + 400 * m.rd R.PWR_WAKE_GAP ≤ m.now))

/-- A stage has started. -/
def stageNext (m : Mach) : Mach :=
  { m with pwr := { m.pwr with stage := (m.pwr.stage + 1) % 5, granted := false, stageAt := m.now } }

/-- Stage C: Keep runs again. -/
def wakeKeep (m : Mach) : Mach :=
  let m1 := { m with pwr := { m.pwr with fSleep := false, stage := 4, granted := false } }
  pwrRaiseF 5 (pwrRaiseF 0 (wdRestart (m1.updCore 2 (fun c => { c with gated := false }))))

/-- Stage D: training starts. -/
def wakeTrain (m : Mach) : Mach := if m.barState .field = 0 then barTrain .field m else m

/-- WAKE_STAGE: A and B take their draws, C wakes Keep at the LCLK edge that ends LCLK mode, D restarts the barrier and the
units. -/
def wakeStageEffect (m : Mach) : Mach :=
  match m.pwr.stage with
  | 1 => if m.pwr.granted then govRequest .wake (stageNext m) else m
  | 2 => if m.pwr.granted then stageNext m else m
  | 3 =>
    let m1 := { m with pwr := { m.pwr with granted := true, stageAt := m.now } }
    if m.tb.slowFrom.isSome then m1 else wakeKeep m1
  | 4 => statusSync (fieldRestart (wakeTrain ((stageNext m).wr R.PWR_F_STATE_REQ 0)))
  | _ => m

/-! ## Host SLEEP (R524) -/

/-- PWR_H_STATE_REQ. -/
def hostReqEffect (v : Nat) (m : Mach) : Eff :=
  if v = 0 ∨ v = 3 then
    .ok ({ m with pwr := { m.pwr with hSleepReq := v == 3 } }.wr R.PWR_H_STATE_REQ v)
  else .error .range

/-- HOST_SLEEP_ENTRY: both Spire cores are gated, an unreleased Spire1 counting as gated. -/
def hostSleepEntryEffect (m : Mach) : Mach :=
  if m.pwr.hSleepReq && !m.pwr.hSleep && (m.core 0).gated && ((m.core 1).gated || (m.core 1).held) then
    let m1 := barOff .host (linkFarewell .host 3 (stateMsg 3 1) m)
    let m2 := belReset .host (entryNote .host 0 (volatileReset .host { m1 with
      net := { refused := m1.net.refused }, cans := []
      dic := { m1.dic with xfers := m1.dic.xfers.map (fun e => (e.1, { e.2 with closed := true, data := [] })) } }))
    pwrRaiseH 0 { m2 with pwr := { m2.pwr with hSleep := true, hSleepReq := false } }
  else m

/-- HOST_WAKE. -/
def hostWakeEffect (bar : Bool) (m : Mach) : Mach :=
  if m.pwr.hSleep && (if bar then m.on R.PWR_H_WAKE_BAR else belCalls m 0 || belCalls m 1) then
    let wd : Wd := { m.pwr.hWd with start := hostTicks m, warned := false }
    let m1 := ({ m with pwr := { m.pwr with hSleep := false, hWd := wd } }).wr R.PWR_H_STATE_REQ 0
    let m2 := (m1.updCore 0 (fun c => { c with gated := false })).updCore 1 (fun c => { c with gated := false })
    let m3 := if m2.on R.NET_AS_EN then m2.wr R.NET_AS_STATE 1 else m2
    pwrRaiseH 3 (pwrRaiseH 0 (barTrain .host m3))
  else m

/-! ## Resets (R512, R513) -/

/-- A reset at which no image is valid is counted (R69). -/
def imageCheck (m : Mach) : Mach := if m.image.isNone then m.inc R.DIC_PERS_ERRORS else m

/-- DIC_PERS_STATUS after a host reset: nothing runs, a store that the reset cut short failed (R70), and defaults no longer wait for
a reset. -/
def persReset (cut : Bool) (m : Mach) : Mach :=
  let m1 := (m.putBit R.DIC_PERS_STATUS 0 false).putBit R.DIC_PERS_STATUS 2 false
  if cut then m1.putBit R.DIC_PERS_STATUS 1 true else m1

/-- What the supply monitors of a side see, and the object that shows it (R508, R530). -/
def putRailF (v : Nat) (m : Mach) : Mach := { m with pwr := { m.pwr with railF := v } }.wr R.PWR_F_RAIL_STAT v

def putRailH (v : Nat) (m : Mach) : Mach := { m with pwr := { m.pwr with railH := v } }.wr R.PWR_H_RAIL_STAT v

/-- Status objects of class V show the ends of the barrier and the supplies again once the tick in which R18 reset them is over
(log 53). -/
def statusShow (m : Mach) : Mach :=
  putRailF m.pwr.railF (putRailH m.pwr.railH (barShow .field (barShow .host m)))

/-- A reset of the field side by a restart cause (R375): objects, units, Belfry, monitor, barrier end and Keep. A reset that leaves
FTB running in LCLK mode lets the mode end at its LCLK edge, and Keep starts then (R82). -/
def fieldReset (cause : Nat) (m : Mach) : Mach :=
  let hard := decide (cause ≤ 3)
  let m1 := entryNote .field (if 5 ≤ cause then 1 else 2) (imageCheck (objectsReset .field (decide (5 ≤ cause)) (barOff .field m)))
  let tb : Timebase :=
    { ftb := if hard then 0 else m.tb.ftb, lt := if hard then 0 else m.tb.lt, frac := if hard then 0 else m.tb.frac,
      sclk := m.tb.sclk, hlt2 := m.tb.hlt2, hltSeen := m.tb.hltSeen, ltSeen := if hard then 0 else m.tb.ltSeen, lclk := m.tb.lclk, slowFrom := if hard then none else m.tb.slowFrom,
      ref := if hard then 0 else m.tb.ftb }
  let profs := if 5 ≤ cause then m1.profs.map (fun e => (e.1, { e.2 with old := [], retiring := false })) else []
  let key := match m.image with
    | some i => i.key
    | none => none
  let m2 := { m1 with
    asserts := m1.asserts.filter (fun id => srcOwner id != Side.field)
    flagIns := [], xNow := [], pops := [], redos := [], movNext := 0, movUsed := false
    dic := { m1.dic with storing := none }
    tb := tb, belF := {}, chans := [], movers := [], octets := [], engines := [], ctxs := [], whls := [], notes := [],
    evts := [], lan := {}, profs := profs, vms := [], nms := [], axes := [], ocus := []
    saf := {
      wd := { start := tb.ftb }, diagStart := tb.ftb, dbgLock := m.saf.dbgLock, safLock := m.saf.safLock,
      bootKey := m.saf.bootKey, fuses := m.saf.fuses, key := key,
      logSeq := (m.saf.logSeq + 2 ^ 32 - m.saf.logQ.length) % 2 ^ 32 }
    bar := { m1.bar with
      parts := [], copyA := [], copyB := [], echoes := [], status := none, cstop := none, strobe := none, calNs := 0, calDone := false,
      persIn := [], fwIn := [] }
    pwr := { m1.pwr with gov := [], asked := [], fSleep := false, fSleepReq := false, stage := 0, granted := false, rstF := none, heldF := none }
    net := { m1.net with refused := 0 } }
  let m3 := (putRailF (m2.pwr.unpow * 2 ^ 16) m2).wr R.PWR_INRUSH_CREDITS (m2.rd R.PWR_INRUSH_MAX)
  let m4 := if tb.slowFrom.isSome then m3.wr R.FTB_SLOW 1 else m3
  let m5 := safLog 8 cause 0 0 (fieldBoot cause (restartCore 2 cause m4))
  if tb.slowFrom.isSome then m5.updCore 2 (fun c => { c with held := true }) else m5

/-- A reset of the host side. -/
def hostReset (cause : Nat) (m : Mach) : Mach :=
  let m1 := entryNote .host (if 5 ≤ cause then 1 else 2) (imageCheck (objectsReset .host (decide (5 ≤ cause)) (barOff .host m)))
  let m2 := { m1 with
    asserts := m1.asserts.filter (fun id => srcOwner id != Side.host)
    tb := { m1.tb with hlt2 := 0, hltSeen := 0 }
    belH := { inthLow := m1.belH.inthLow }, net := { refused := m1.net.refused }, cans := []
    dic := { m1.dic with
      waiting := [], xfers := [], slots := [], mbxIrqEn := 0, bar0 := [], qspiErr := false, parIn := [], parOut := [], parErr := false, storeFor := .nobody
      stage := m1.dic.stage.filter (fun e => decide (3 ≤ e.1)) }
    bar := { m1.bar with
      peerHalted := false, peerSafe := false, peerState := 0, fwds := [], dead := [], adopted := false, early := none, calLeft := 0,
      calAt := 0, calGot := 0, calSum := 0, factory := false,
      lastStrobe := 0, lastCal := 0, restored := [], kReady := false, reload := false, userVals := [], userStrs := [],
      fwOut := none }
    saf := { m1.saf with sess := [], fuses := boolNat m1.saf.dbgLock + 2 * boolNat m1.saf.safLock }
    pwr := { m1.pwr with hSleep := false, hSleepReq := false, hWd := { start := hostTicks m }, rstH := none, heldH := none } }
  let cut := bit 0 (m.rd R.DIC_PERS_STATUS) && !m.bar.reload && !m.bar.factory
  let m3 := putRailH (16 * boolNat m2.pwr.vddio33) (persReset cut m2)
  holdSpire1 (restartCore 1 cause (hostBoot cause (restartCore 0 cause m3)))

/-- How long a reset of a cause holds its side, in SCLK cycles: 20 µs, and 2 ms for a BOR whose rails have come back; POR is the end of
such a wait (R507, R512). -/
def holdTime (cause : Nat) : Nat := if cause = 1 then 0 else if cause = 2 then 1600000 else 16000

/-- The side stays in reset for a time, its cores before their restart vectors. -/
def resetHold (s : Side) (cause : Nat) (m : Mach) : Mach :=
  if holdTime cause = 0 then m
  else
    match s with
    | .host =>
      { m with pwr := { m.pwr with heldH := some (m.tb.sclk + holdTime cause) } }.updCore 0 (fun c => { c with held := true })
    | .field =>
      { m with pwr := { m.pwr with heldF := some (m.tb.sclk + holdTime cause) } }.updCore 2 (fun c => { c with held := true })

/-- The hold ends: Spire0 starts, or Keep, which in LCLK mode waits for the edge that ends it; the side's watchdogs start. -/
def resetEnds (s : Side) (m : Mach) : Mach :=
  match s with
  | .host =>
    { m with pwr := { m.pwr with heldH := none, hWd := { start := hostTicks m } } }.updCore 0 (fun c => { c with held := false })
  | .field =>
    (wdRestart { m with pwr := { m.pwr with heldF := none } }).updCore 2 (fun c => { c with held := m.tb.slowFrom.isSome })

/-- An instant in SCLK cycles has come. -/
def sclkDue (m : Mach) (t : Option Nat) : Bool := t.any (fun t => decide (t ≤ m.tb.sclk))

/-- A reset of a side: what it does to the side, and the hold (R507, R512, R513). -/
def sideReset (s : Side) (cause : Nat) (m : Mach) : Mach :=
  resetHold s cause (match s with
    | .host => hostReset cause m
    | .field => fieldReset cause { m with saf := { m.saf with sess := [] } })

/-- POR: the rails measured at it select the banks (R506). -/
def porEffect (s : Side) (bank33 unpowered : Nat) (vddio33 : Bool) (m : Mach) : Mach :=
  match s with
  | .field => sideReset .field 1 { m with pwr := { m.pwr with bank33 := bank33 &&& (255 - unpowered), unpow := unpowered } }
  | .host => sideReset .host 1 { m with pwr := { m.pwr with vddio33 := vddio33 } }

/-- A software reset announces itself (R426, R512). -/
def softReset (s : Side) (cause : Nat) (m : Mach) : Mach :=
  sideReset s cause (linkFarewell s 3 (stateMsg (if cause = 6 then 4 else 5) 1) m)

/-- The own side's RESET object with the first and the third signature. -/
def swsOwnEffect (s : Side) (m : Mach) : Mach := softReset s 6 m

/-- SWF: the other side is told, and the own side resets 2 µs later. -/
def swfEffect (s : Side) (m : Mach) : Mach :=
  let m1 := if m.linked s then linkQueue s 19 [2, 0, 0, 0] m else m
  let t := some (m.tb.sclk + 1600)
  match s with
  | .host => { m1 with pwr := { m1.pwr with rstH := t } }
  | .field => { m1 with pwr := { m1.pwr with rstF := t } }

def swsOtherEffect (s : Side) (m : Mach) : Eff :=
  if m.linked s then .ok (linkQueue s 19 [1, 0, 0, 0] m) else .error .notReady

/-- PWR_F_RESET and PWR_H_RESET (R513). -/
def resetEffect (s : Side) (v : Nat) (m : Mach) : Eff :=
  if v = 0x72730001 then .ok (swsOwnEffect s m)
  else if v = 0x72730002 then swsOtherEffect s m
  else if v = 0x72730003 then .ok (swfEffect s m)
  else .error .range

/-- A RESET_REQ's content (R513). -/
def resetReqContent (s : Side) (p : List Byte) (m : Mach) : Mach :=
  if fieldAt 0 1 p = 1 then softReset s 6 m else if fieldAt 0 1 p = 2 then softReset s 5 m else m

/-! ## Supervision (R508 to R511) -/

/-- The rail is supervised: it exists and its bank was powered at the POR. -/
def railSupervised (m : Mach) (r : Nat) : Bool :=
  decide (r ≤ 4) || (decide (r ≤ 12) && !bit (11 + r) m.pwr.railF) || decide (16 ≤ r)

/-- RAIL_WARNING_ASSERT of a field rail, and of a host rail. -/
def railFieldAssert (r : Nat) (m : Mach) : Mach :=
  if bit r m.pwr.railF then m
  else
    let first := bits 12 0 m.pwr.railF == 0
    let m1 := (((putRailF (setBit r m.pwr.railF) m).class7 2 (0x100 + r)).assertSrc 368)
    let m2 := (bwLatch m1).alarm 15
    if first then pwrRaiseF 3 m2 else m2

def railHostAssert (i : Nat) (m : Mach) : Mach :=
  if bit i m.pwr.railH then m
  else
    let first := bits 3 0 m.pwr.railH == 0
    let m1 := ((putRailH (setBit i m.pwr.railH) m).class7 0 (0x110 + i)).class7 1 (0x110 + i)
    if first then pwrRaiseH 1 (m1.assertSrc 414) else m1.assertSrc 414

/-- A BOR of the side was decided in this tick. -/
def borNow (m : Mach) (s : Side) : Bool :=
  m.entries.any (fun e => e.1 == s && e.2 == 2) &&
  (match s with
   | .host => m.rd (R.SPR_RESTART_CAUSE 0)
   | .field => m.rd R.KEEP_RESTART_CAUSE) == 2

/-- A BOR wins over a warning of its tick, which has no action then (R508). -/
def railAssertEffect (r : Nat) (m : Mach) : Mach :=
  if !railSupervised m r || borNow m (if r ≤ 12 then .field else .host) then m else if r ≤ 12 then railFieldAssert r m else railHostAssert (r - 16) m

/-- RAIL_WARNING_DEASSERT: the last one ends the episode. -/
def railDeassertEffect (r : Nat) (m : Mach) : Mach :=
  if r ≤ 12 then
    if bit r m.pwr.railF then
      let m1 := putRailF (clrBit r m.pwr.railF) m
      if bits 12 0 m1.pwr.railF = 0 then pwrRaiseF 4 (m1.inc R.PWR_F_BW_EPISODES) else m1
    else m
  else if 16 ≤ r then
    if bit (r - 16) m.pwr.railH then
      let m1 := putRailH (clrBit (r - 16) m.pwr.railH) m
      if bits 3 0 m1.pwr.railH = 0 then pwrRaiseH 2 (m1.inc R.PWR_H_BW_EPISODES) else m1
    else m
  else m

/-- PWR_REARM (R511). -/
def pwrRearmEffect (v : Nat) (m : Mach) : Eff :=
  if v % 2 = 0 then .ok m
  else if bits 12 0 m.pwr.railF = 0 then .ok (bwRearm m) else .error .range

/-! ## Governor objects and unit stops (R528, R529) -/

/-- PWR_INRUSH_MAX and the costs. -/
def inrushMaxEffect (v : Nat) (m : Mach) : Eff :=
  if 1 ≤ v ∧ v ≤ 1023 ∧ m.rd R.PWR_INRUSH_COST_OCT ≤ v ∧ m.rd R.PWR_INRUSH_COST_TUR ≤ v ∧ m.rd R.PWR_INRUSH_COST_WAKE ≤ v then
    .ok ((m.wr R.PWR_INRUSH_MAX v).wr R.PWR_INRUSH_CREDITS (min v (m.rd R.PWR_INRUSH_CREDITS)))
  else .error .range

/-- The unit a PWR_UNIT_STOP value names stops. -/
def unitStopped (kind n : Nat) (m : Mach) : Option Mach :=
  match kind with
  | 1 => if n ≤ 15 then some (whlDisable n m) else none
  | 2 => if n = 0 then some (lanStop (m.wr R.LAN_RUN 0)) else none
  | 3 => if n ≤ 127 then some (axRunOffEffect n m) else none
  | 4 => if n ≤ 15 then some (ocuEnableOffEffect n m) else none
  | 5 => if n ≤ 15 then some (octRunOff n m) else none
  | 6 => if n ≤ 7 then some (turStop n (m.wr (R.TUR_RUN n) 0)) else none
  | _ => none

/-- The run request that a UNIT stop writes 0 (R17). -/
def unitRequest (kind n : Nat) : Obj :=
  match kind with
  | 1 => R.WHL_ENABLE n
  | 2 => R.LAN_RUN
  | 3 => R.AX_RUN n
  | 4 => R.OCU_ENABLE n
  | 5 => R.PWM_RUN n
  | _ => R.TUR_RUN n

/-- PWR_UNIT_STOP; a write of the run request in the same tick has no effect (R19). -/
def unitStopEffect (v : Nat) (m : Mach) : Eff :=
  match unitStopped (v / 256) (v % 256) m with
  | some m1 =>
    let m2 := { m1 with stopped := (unitRequest (v / 256) (v % 256)).key :: m1.stopped }
    .ok ((m2.wr R.PWR_UNIT_LAST v).inc R.PWR_CNT_UNIT)
  | none => .error .range

/-! ## Host watchdog (R520) -/

/-- PWR_H_WD_KICK. -/
def hostKickEffect (w : Writer) (key : Nat) (m : Mach) : Mach :=
  match w with
  | .spire _ =>
    if wdGood m.pwr.hWd (hostTicks m) (400 * m.rd R.PWR_H_WD_MIN) key then
      { m with pwr := { m.pwr with hWd := ⟨hostTicks m, !m.pwr.hWd.second, false⟩ } }
    else sideReset .host 4 m
  | _ => sideReset .host 4 m

/-- HOST_WATCHDOG_EXPIRY. -/
def hostWdExpiry (m : Mach) : Mach := if hostWdPaused m then m else sideReset .host 4 m

/-! ## Boot key and field image (R515, R518, R519) -/

/-- PWR_H_BOOTKEY_CMD: blown once, through a safety session. -/
def bootkeyEffect (w : Writer) (v : Nat) (m : Mach) : Eff :=
  match w with
  | .dict _ _ =>
    if v = 0x6B746F62 ∧ m.saf.bootKey = none then
      .ok { m with saf := { m.saf with
        bootKey := some ((List.range 8).flatMap (fun i => toLe 4 (m.rd (R.PWR_H_BOOTKEY i)))) } }
    else .error .range
  | _ => .error .machine

/-- A load of the field image begins: validated in flash, or recorded as none. -/
def fwStart (m : Mach) : Mach :=
  let p := pickImage .field m
  let m1 := m.wr R.PWR_H_BOOT_STAT (putBits 3 2 p.2 (m.rd R.PWR_H_BOOT_STAT))
  if p.2 = 2 then m1 else { m1 with bar := { m1.bar with fwOut := some 0 } }

/-- PWR_H_FW_CMD. -/
def fwCmdEffect (v : Nat) (m : Mach) : Eff :=
  if v ≠ 1 then .error .range else if m.bar.fwOut.isSome then .error .busy else .ok (fwStart m)

/-- The flash address of the field image in use and its length with header. -/
def fwSlot (m : Mach) : Nat := if bits 3 2 (m.rd R.PWR_H_BOOT_STAT) = 1 then 0x63000000 else 0x61000000

/-- The next part of a load: 52 image bytes; the image is sent when its last part is, and the boot-flash master's
transfer of it is done (R393, R516). -/
def fwPump (m : Mach) : Mach :=
  match m.bar.fwOut with
  | none => m
  | some off =>
    let total := 256 + imgLen (memRdN m.flash (fwSlot m) 256)
    if total ≤ off ∨ !m.linked .host ∨ !(m.barEnd .host).queue.isEmpty then m
    else
      let n := min 52 (total - off)
      let m1 := linkQueue .host 12 (toLe 4 off ++ memRdN m.flash (fwSlot m + off) n) m
      let m2 := { m1 with bar := { m1.bar with fwOut := some (off + n) } }
      if total ≤ off + n then (m2.inc R.PWR_H_FLD_LOADS).assertSrc 411 else m2

/-- The field reports a load: 1 complete, 2 refused. -/
def fwReport (n st : Nat) (m : Mach) : Mach := linkQueue .field 13 (toLe 4 n ++ toLe 4 st) m

/-- A FW_LOAD's content: contiguous bytes are kept; a whole image is checked and started. -/
def fwLoadContent (p : List Byte) (m : Mach) : Mach :=
  if fieldAt 0 4 p = 0 ∨ fieldAt 0 4 p = m.bar.fwIn.length then
    let got := (if fieldAt 0 4 p = 0 then [] else m.bar.fwIn) ++ p.drop 4
    let m1 := { m with bar := { m.bar with fwIn := got } }
    if got.length < 256 then m1
    else if !imgHeaderOk .field (got.take 256) then fwReport got.length 2 { m1 with bar := { m1.bar with fwIn := [] } }
    else if 256 + imgLen got ≤ got.length then
      let r := fieldImageDone m1
      fwReport got.length (if r.1 then 1 else 2) r.2
    else m1
  else m

/-- A FW_STATUS's content: complete or refused ends the load and raises source 412. -/
def fwStatusContent (p : List Byte) (m : Mach) : Mach :=
  if fieldAt 4 1 p = 1 ∨ fieldAt 4 1 p = 2 then ({ m with bar := { m.bar with fwOut := none } }).assertSrc 412 else m

/-! ## PCIe (R393) -/

/-- PCIE_STATE_CHANGE. -/
def pcieEffect (up perst msix : Bool) (m : Mach) : Mach :=
  ({ m with pwr := { m.pwr with pcieUp := up, perst := perst, msixEn := msix } }).assertSrc 408

end Sys2Proof.Machine
end

