-- ==== Sys2Proof/Machine/SafeLink.lean ====
section
/-! DEFINITION. Safe-state commands across the barrier (R427 to R431): the two store ports, the two copies of a command and
when they count. -/

namespace Sys2Proof.Machine

/-- STO, SS1 and RELEASE. -/
def safeCmdOk (cmd : Nat) : Bool := cmd == 0x1E || cmd == 0x2D || cmd == 0x4B

def hostCnt (b : Bool) : Obj := if b then R.BAR_H_SAFE_CNT_B else R.BAR_H_SAFE_CNT_A
def fieldCnt (b : Bool) : Obj := if b then R.BAR_F_SAFE_CNT_B else R.BAR_F_SAFE_CNT_A

/-- Payload of SAFE_A, and of SAFE_B when `b`: every field complemented, the other CRC (R423, R427). -/
def safePayload (b : Bool) (cmd cnt : Nat) : List Byte :=
  if b then
    let body := toLe 1 (255 - cmd) ++ [0xFF] ++ toLe 2 (65535 - cnt) ++ [0xFF, 0xFF]
    body ++ toLe 2 (crc16 0x3D65 0 body)
  else
    let body := toLe 1 cmd ++ [0] ++ toLe 2 cnt ++ [0, 0]
    body ++ toLe 2 (crc16 0x1021 0xFFFF body)

/-- A store to a port: the channel's counter advances and the copy is queued. -/
def safeSend (b : Bool) (cmd : Nat) (m : Mach) : Mach :=
  let cnt := (m.rd (hostCnt b) + 1) % 65536
  linkQueue .host (if b then 17 else 16) (safePayload b cmd cnt) (m.wr (hostCnt b) cnt)

/-- The address of a port. -/
def safePort (b : Bool) : Nat := if b then 0x48003110 else 0x48003100

/-- SAFE_A_STORE and SAFE_B_STORE: only Spire0, or Spire1 for B, at M, with a defined CMD. -/
def safeStoreEffect (b : Bool) (core v : Nat) (m : Mach) : Mach :=
  if core = boolNat b ∧ (m.core core).lvl = 2 ∧ safeCmdOk v then safeSend b v m else storeRefused core (safePort b) m

/-- CMD and counter of a valid copy (R428). -/
def safeParse (b : Bool) (p : List Byte) : Option (Nat × Nat) :=
  let cmd := if b then 255 - fieldAt 0 1 p else fieldAt 0 1 p
  let cnt := if b then 65535 - fieldAt 2 2 p else fieldAt 2 2 p
  if safeCmdOk cmd ∧ p = safePayload b cmd cnt then some (cmd, cnt) else none

/-- The copies of a channel that wait for their match, oldest first. -/
def copies (m : Mach) (b : Bool) : List SafeCopy := if b then m.bar.copyB else m.bar.copyA

def setCopies (b : Bool) (l : List SafeCopy) (m : Mach) : Mach :=
  if b then { m with bar := { m.bar with copyB := l } } else { m with bar := { m.bar with copyA := l } }

/-- A copy of a channel begins to wait. -/
def copyWait (b : Bool) (cmd cnt : Nat) (m : Mach) : Mach := setCopies b (copies m b ++ [⟨cmd, cnt, m.now, false⟩]) m

/-- A discrepancy between the channels (R429, R430). -/
def safeDisc (m : Mach) : Mach := barRaise .field 6 (m.inc R.BAR_F_CNT_SAFE_DISC)

/-- A valid STO or SS1 copy: with a copy of the same command waiting on the other channel it is that one's match, else the command
is executed and the copy waits. Either brings its channel's counter (R429). -/
def safeDemandCopy (b : Bool) (cmd cnt : Nat) (m : Mach) : Mach :=
  if cnt = m.rd (fieldCnt b) then m
  else
    let m1 := m.wr (fieldCnt b) cnt
    match (copies m (!b)).find? (fun o => o.cmd == cmd) with
    | some o => statusSync (setCopies (!b) ((copies m (!b)).erase o) m1)
    | none =>
      let m2 := copyWait b cmd cnt m1
      statusSync (if cmd = 0x1E then demandSto 19 m2 else demandSs1 m2)

/-- A counter is the next one of its channel. -/
def nextCnt (m : Mach) (b : Bool) (cnt : Nat) : Bool := cnt == (m.rd (fieldCnt b) + 1) % 65536

/-- A valid RELEASE copy: executed with a waiting one of the other channel where both counters are the next ones, else it waits; the
copies that make no release update nothing (R430). -/
def safeReleaseCopy (b : Bool) (cnt : Nat) (m : Mach) : Mach :=
  match (copies m (!b)).find? (fun o => o.cmd == 0x4B && nextCnt m (!b) o.cnt && nextCnt m b cnt) with
  | some o =>
    let m1 := setCopies (!b) ((copies m (!b)).erase o) m
    statusSync (releaseRequest 0 ((m1.wr (fieldCnt b) cnt).wr (fieldCnt (!b)) o.cnt))
  | none => copyWait b 0x4B cnt m

/-- A SAFE_A or SAFE_B content. -/
def safeContent (b : Bool) (p : List Byte) (m : Mach) : Mach :=
  match safeParse b p with
  | none => barRaise .field 5 (m.inc R.BAR_F_CNT_SAFE_REJ)
  | some (cmd, cnt) => if cmd = 0x4B then safeReleaseCopy b cnt m else safeDemandCopy b cmd cnt m

/-- SAFE_A and SAFE_B: a copy that comes in the tick of a loss declaration is executed too (R440). -/
def safeMessage (b : Bool) (f : LinkFrame) (m : Mach) : Mach :=
  let lost (m : Mach) : Mach := m.updEnd .field (fun e => { e with st := 4 })
  if m.barState .field = 4 ∧ m.rd R.BAR_F_CNT_LOSS ≠ 0 ∧ m.rd R.BAR_F_LAST_LOSS = m.now then
    lost (linkMessage .field (if b then 17 else 16) f (fun p m => safeContent b p (lost m)) (m.updEnd .field (fun e => { e with st := 3 })))
  else linkMessage .field (if b then 17 else 16) f (safeContent b) m

/-- The other RELEASE copy of a refused release shares its one discrepancy. -/
def tellCopy : List SafeCopy → List SafeCopy
  | [] => []
  | o :: rest => if o.cmd = 0x4B ∧ !o.told then { o with told := true } :: rest else o :: tellCopy rest

/-- SAFE_DISCREPANCY: the match of the oldest waiting copy of the other channel than `b` did not arrive within 100 µs. A RELEASE
copy of `b` that did come, with a counter that is not the next one, belongs to the same discrepancy. -/
def safeDiscEffect (b : Bool) (m : Mach) : Mach :=
  match copies m (!b) with
  | [] => m
  | o :: rest =>
    let m1 := setCopies (!b) rest m
    if o.told then m1 else safeDisc (if o.cmd = 0x4B then setCopies b (tellCopy (copies m1 b)) m1 else m1)

/-- The 100 µs of a channel's oldest waiting copy have passed. -/
def copyExpired (m : Mach) (b : Bool) : Bool :=
  match copies m b with
  | o :: _ => decide (o.at_ + 40000 < m.now)
  | [] => false

/-- The host takes over counters (R431). -/
def adopt (a b : Nat) (m : Mach) : Mach :=
  (({ m with bar := { m.bar with adopted := true } }).wr R.BAR_H_SAFE_CNT_A a).wr R.BAR_H_SAFE_CNT_B b

/-- SAFE_STATUS at the host: the first one of a link gives the counters, at LINKED entry where it comes before it (R431). -/
def safeStatusContent (p : List Byte) (m : Mach) : Mach :=
  if m.linked .host then
    if m.bar.adopted then m else adopt (fieldAt 2 2 p) (fieldAt 4 2 p) m
  else if m.bar.early.isSome then m
  else { m with bar := { m.bar with early := some (fieldAt 2 2 p, fieldAt 4 2 p) } }

end Sys2Proof.Machine
end

