-- ==== Sys2Proof/Machine/Net.lean ====
section
/-! DEFINITION. Ethernet ports, gPTP, frame replication, scheduled departure, partners and mirror pairs (R442 to R448, R456,
R462 to R469). -/

namespace Sys2Proof.Machine

/-- Raises network event `b` on source 387, redundancy event `b` on source 448 (R476). -/
def netRaise (b : Nat) (m : Mach) : Mach := m.raise R.NET_EVT R.NET_EVT_EN b 387
def redRaise (b : Nat) (m : Mach) : Mach := m.raise R.RED_EVT R.RED_EVT_EN b 448

def updNet (f : Net → Net) (m : Mach) : Mach := { m with net := f m.net }
def updGptp (f : Gptp → Gptp) (m : Mach) : Mach := updNet (fun n => { n with gptp := f n.gptp }) m

/-! ## Ports (R442, R443) -/

/-- MAC p runs, and carries VLP and gPTP. -/
def portOn (m : Mach) (p : Nat) : Bool := m.on (R.NET_PORT_EN p) && bit p (m.rd R.NET_PORTS) && !m.hostOff

/-- The port runs at 1,000 Mbit/s. -/
def portFast (m : Mach) (p : Nat) : Bool := decide (p ≤ 1) && decide (m.rd (R.NET_PORT_MODE p) ≤ 1)

/-- PORT_LINK_CHANGE. -/
def portLinkEffect (p : Nat) (up : Bool) (m : Mach) : Mach :=
  if m.on (R.NET_PORT_EN p) && !m.hostOff then
    (m.wr (R.NET_PORT_STATUS p) (if up then 1 + 2 * boolNat (portFast m p) else 0)).assertSrc (386 + 4 * p)
  else m

/-- A good frame has arrived. -/
def frameIn (p : Nat) (m : Mach) : Mach := (m.inc (R.NET_PORT_CNT_RX p)).assertSrc (384 + 4 * p)

/-- ERRORED_FRAME. -/
def erroredFrameEffect (p : Nat) (m : Mach) : Mach :=
  if m.on (R.NET_PORT_EN p) && !m.hostOff then (m.inc (R.NET_PORT_CNT_ERR p)).assertSrc (386 + 4 * p) else m

/-! ## gPTP (R444, R445) -/

/-- NET_AS_LOCKED; its setting raises AS_LOCK. -/
def asLock (on : Bool) (m : Mach) : Mach :=
  if m.on R.NET_AS_LOCKED = on then m
  else if on then netRaise 4 (m.wr R.NET_AS_LOCKED 1)
  else m.wr R.NET_AS_LOCKED 0

/-- Enters a state; leaving SLAVE clears the lock. Another grandmaster or slave port in SLAVE is no entry to it (R445). -/
def asEnter (st gm : Nat) (slave : Option Nat) (m : Mach) : Mach :=
  let m1 := (m.wr R.NET_AS_STATE st).wr R.NET_AS_GM_ID gm
  if st = 2 ∧ m.rd R.NET_AS_STATE = 2 then updGptp (fun g => { g with slave := slave }) m1
  else
    asLock false (updGptp (fun g => { g with slave := slave, first := true, good := 0, slew := 0 }) m1)

/-- The comparison vector of an announce, most significant first; the lower is the better. -/
def annVector (a : AnnounceMsg) : List Nat :=
  [a.prio1.toNat, a.quality.toNat, a.prio2.toNat, a.gm.toNat, a.steps.toNat, a.src.toNat]

def ownVector (m : Mach) : List Nat :=
  [m.rd R.NET_AS_PRIO1, Config.clockQuality, m.rd R.NET_AS_PRIO2, Config.clockIdentity, 0, 0]

def vecBetter : List Nat → List Nat → Bool
  | a :: l, b :: r => decide (a < b) || (a == b && vecBetter l r)
  | _, _ => false

/-- The best announce received, with its port. -/
def bestAnn : List (Nat × AnnounceMsg) → Option (Nat × AnnounceMsg)
  | [] => none
  | e :: rest =>
    match bestAnn rest with
    | none => some e
    | some b => if vecBetter (annVector b.2) (annVector e.2) then some b else some e

/-- The best master clock algorithm selects the state. -/
def bmca (m : Mach) : Mach :=
  let able := decide (m.rd R.NET_AS_PRIO1 < 255)
  match bestAnn m.net.gptp.ann with
  | some (p, a) =>
    if able && vecBetter (ownVector m) (annVector a) then asEnter 3 Config.clockIdentity none m
    else asEnter 2 a.gm.toNat (some p) m
  | none => if able then asEnter 3 Config.clockIdentity none m else asEnter 1 0 none m

/-- NET_AS_EN. -/
def asEnEffect (v : Nat) (m : Mach) : Mach :=
  let m1 := m.wr R.NET_AS_EN v
  if v = 0 then asEnter 0 0 none { m1 with net := { m1.net with gptp := {} } }
  else if m.rd R.NET_AS_STATE = 0 then asEnter 1 0 none m1
  else m1

/-- NET_AS_PRIO1 and NET_AS_PRIO2: the algorithm compares the new priority; in DISABLED and LISTENING there is nothing to compare yet. -/
def asPrioEffect (o : Obj) (v : Nat) (m : Mach) : Mach :=
  let m1 := m.wr o v
  if m.rd R.NET_AS_STATE = 2 ∨ m.rd R.NET_AS_STATE = 3 then bmca m1 else m1

/-- NET_AS_DOMAIN: what was announced in another domain does not count. -/
def asDomainEffect (v : Nat) (m : Mach) : Mach :=
  if v = m.rd R.NET_AS_DOMAIN then m
  else asPrioEffect R.NET_AS_DOMAIN v (updGptp (fun g => { g with ann := [] }) m)

/-- gPTP runs on the port in this domain. -/
def asOn (m : Mach) (p : Nat) : Bool := m.on R.NET_AS_EN && portOn m p

/-- GPTP_ANNOUNCE. -/
def announceEffect (p : Nat) (f : AnnounceMsg) (m : Mach) : Mach :=
  if asOn m p && f.domain.toNat == m.rd R.NET_AS_DOMAIN then
    bmca (updGptp (fun g => { g with ann := mapPut p f g.ann }) (frameIn p m))
  else m

/-- ANNOUNCE_RECEIPT_TIMEOUT. -/
def announceTimeoutEffect (p : Nat) (m : Mach) : Mach :=
  if asOn m p then bmca (updGptp (fun g => { g with ann := mapDel p g.ann }) m) else m

/-- Mean link delay of a port in ns. -/
def linkDelay (m : Mach) (p : Nat) : Int := ((mapGet (2 ^ 32) p m.net.gptp.delay : Nat) : Int) - 2 ^ 32

/-- The stamp of a received event message or cyclic frame, corrected by the port's latency (R443). -/
def rxStamp (p stamp : Nat) (m : Mach) : Mach :=
  updNet (fun n => { n with stampRx := mapSet 0 p (stamp - m.rd (R.NET_PORT_LAT_RX p)) n.stampRx }) m

/-- Offset from master of a sync: its corrected stamp less origin and link delay. -/
def syncOffset (m : Mach) (p : Nat) (f : SyncMsg) : Int :=
  toSigned 64 (ofSigned 64 ((f.stamp.toNat : Int) - m.rd (R.NET_PORT_LAT_RX p) - f.origin.toNat - linkDelay m p))

/-- Lock after 8 syncs in a row within ±50 ns; lost outside ±200 ns. -/
def syncLock (o : Int) (m : Mach) : Mach :=
  let good := if o.natAbs ≤ 50 then m.net.gptp.good + 1 else 0
  let m1 := updGptp (fun g => { g with good := good }) m
  if 200 < o.natAbs then asLock false m1 else if 8 ≤ good then asLock true m1 else m1

/-- GPTP_SYNC. -/
def syncEffect (p : Nat) (f : SyncMsg) (m : Mach) : Mach :=
  if asOn m p && f.domain.toNat == m.rd R.NET_AS_DOMAIN && m.rd R.NET_AS_STATE == 2 && m.net.gptp.slave == some p then
    let o := syncOffset m p f
    let m1 := (rxStamp p f.stamp.toNat (frameIn p m)).wrI 32 R.NET_AS_OFFSET (satSigned 32 o)
    if m.net.gptp.first && decide (1000 < o.natAbs) then
      let m2 := { m1 with tb := { m1.tb with hlt2 := ofSigned 65 ((m1.tb.hlt2 : Int) - 2 * o) } }
      asLock false (updGptp (fun g => { g with first := false, good := 0, slew := 0 }) m2)
    else syncLock o (updGptp (fun g => { g with first := false, slew := -o }) m1)
  else m

/-- PDELAY_MEASUREMENT: the mean of both directions, from stamps corrected by the port's latencies. -/
def pdelayEffect (p : Nat) (t1 t2 t3 t4 : Nat) (m : Mach) : Mach :=
  if asOn m p then
    let a : Int := ((t4 : Int) - m.rd (R.NET_PORT_LAT_RX p)) - (t1 + m.rd (R.NET_PORT_LAT_TX p))
    let d := (a - ((t3 : Int) - t2)) / 2
    updGptp (fun g => { g with delay := mapSet (2 ^ 32) p (d + 2 ^ 32).toNat g.delay }) m
  else m

/-! ## Scheduled departure (R447) -/

def gclLen (m : Mach) (p : Nat) : Nat := m.rd (R.NET_GCL_LEN p)

/-- A gate list is in force on the port. -/
def gclOn (m : Mach) (p : Nat) : Bool := decide (p ≤ 1) && m.on (R.NET_GCL_EN p)

/-- Where entry g ends in the cycle, in ns; the last one, and one of interval 0, run to the end. -/
def gclEnd (m : Mach) (p g : Nat) : Nat :=
  let c := m.rd R.NET_CYCLE
  let ints := (List.range (g + 1)).map (fun i => m.rd (R.NET_GCL_ENTRY p i) % 2 ^ 24)
  if gclLen m p ≤ g + 1 ∨ ints.contains 0 then c else min c (8 * ints.foldl (· + ·) 0)

/-- Entry g opens the gate of a class. -/
def gclOpen (m : Mach) (p g tc : Nat) : Bool := bit (24 + tc) (m.rd (R.NET_GCL_ENTRY p g))

/-- ns from the start of entry g's cycle to the closing of a gate that is open in entry g; none where it never closes. -/
def gclClose (m : Mach) (p tc : Nat) : Nat → Nat → Nat → Option Nat
  | 0, _, _ => none
  | n + 1, g, base =>
    if !gclOpen m p g tc then some base
    else if gclEnd m p g = m.rd R.NET_CYCLE ∨ gclLen m p ≤ g + 1 then
      gclCloseFrom m p tc n 0 (m.rd R.NET_CYCLE)
    else gclClose m p tc n (g + 1) (gclEnd m p g)
where
  gclCloseFrom (m : Mach) (p tc : Nat) : Nat → Nat → Nat → Option Nat
    | 0, _, _ => none
    | n + 1, g, add =>
      if !gclOpen m p g tc then some (add + (if g = 0 then 0 else gclEnd m p (g - 1)))
      else if gclEnd m p g = m.rd R.NET_CYCLE ∨ gclLen m p ≤ g + 1 then none
      else gclCloseFrom m p tc n (g + 1) add

def gateNow (m : Mach) (p : Nat) : Nat := mapGet 0 p m.net.gate

/-- Wire time of a frame with preamble and gap, in ns. -/
def wireTime (m : Mach) (p len : Nat) : Nat := (len + 20) * (if portFast m p then 8 else 80)

/-- A frame of a class may start now. -/
def mayStart (m : Mach) (p : Nat) (f : TxFrame) : Bool :=
  if gclOn m p then
    let phase := (m.hlt - m.rd R.NET_CYCLE_BASE) % m.rd R.NET_CYCLE
    gclOpen m p (gateNow m p) f.tc &&
    (match gclClose m p f.tc 32 (gateNow m p) 0 with
     | none => true
     | some c => decide (phase + wireTime m p f.len ≤ c))
  else true

/-- The first frame of the highest class that may start. -/
def pickFrame (m : Mach) (p : Nat) : List TxFrame → Option TxFrame
  | [] => none
  | f :: rest =>
    match pickFrame m p rest with
    | none => if mayStart m p f then some f else none
    | some g => if mayStart m p f && decide (g.tc ≤ f.tc) then some f else some g

/-- A gPTP message: its type and values, on the line with the length that 802.1AS gives it (PRESUMED, log 32). -/
def asFrame (m : Mach) (typ : Nat) (vals : List Nat) (kind : TxKind) : TxFrame :=
  ⟨0, if typ = 0 then 64 else if typ = 2 ∨ typ = 3 then 72 else 94, [0x88F7, typ, m.rd R.NET_AS_DOMAIN] ++ vals, kind⟩

/-- The MAC stamps a cyclic frame or an event message at its departure; a Sync has the stamp follow it (R443, R444). -/
def txStamp (p : Nat) (f : TxFrame) (m : Mach) : Mach :=
  let t := m.hlt + m.rd (R.NET_PORT_LAT_TX p)
  if f.kind = .plain then m
  else
    updNet (fun n => { n with
      stampTx := mapSet 0 p t n.stampTx
      txq := if f.kind = .sync then mapSet [] p (asFrame m 8 [t] .plain :: mapGet [] p n.txq) n.txq else n.txq }) m

/-- A port that is free starts the next frame. -/
def netPump (p : Nat) (m : Mach) : Mach :=
  if m.hlt < mapGet 0 p m.net.busy then m
  else
    let q := mapGet [] p m.net.txq
    match pickFrame m p q with
    | none => m
    | some f =>
      let m1 := updNet (fun n => { n with
        txq := mapSet [] p (q.erase f) n.txq
        busy := mapSet 0 p (m.hlt + wireTime m p f.len) n.busy }) m
      ((txStamp p f m1).send (.eth p) f.data).assertSrc (385 + 4 * p)

/-- Queues a frame on a port. -/
def netQueue (p : Nat) (f : TxFrame) (m : Mach) : Mach :=
  netPump p (updNet (fun n => { n with txq := mapSet [] p (mapGet [] p n.txq ++ [f]) n.txq }) m)

/-- The entry that follows: the first one after an entry that runs to the end of the cycle. -/
def gateNext (m : Mach) (p : Nat) : Nat :=
  let g := gateNow m p
  if gclLen m p ≤ g + 1 ∨ gclEnd m p g = m.rd R.NET_CYCLE then 0 else g + 1

/-- The gates of an entry open. -/
def gateTo (p g : Nat) (m : Mach) : Mach := netPump p (updNet (fun n => { n with gate := mapSet 0 p g n.gate }) m)

/-- GATE_ENTRY_CHANGE. -/
def gateChangeEffect (p : Nat) (m : Mach) : Mach := if gclOn m p then gateTo p (gateNext m p) m else m

/-! ## gPTP and ARP frames: untagged, so of class 0 (R444, R447, R449) -/

def asSend (p typ : Nat) (vals : List Nat) (kind : TxKind) (m : Mach) : Mach := netQueue p (asFrame m typ vals kind) m

/-- GRANDMASTER_SYNC: a sync on each enabled port; its follow-up carries the stamp of its departure. -/
def gmSyncEffect (m : Mach) : Mach :=
  if m.rd R.NET_AS_STATE = 3 then
    m.each (List.range 4) (fun p m => if asOn m p then asSend p 0 [] .sync m else m)
  else m

/-- What a port sends each second: the request of a peer delay measurement, and as grandmaster an announce (PRESUMED interval of 802.1AS,
log 32). -/
def asSecond (p : Nat) (m : Mach) : Mach :=
  if asOn m p then
    let m1 := asSend p 2 [] .event m
    if m.rd R.NET_AS_STATE = 3 then
      asSend p 11 [m.rd R.NET_AS_PRIO1, Config.clockQuality, m.rd R.NET_AS_PRIO2, Config.clockIdentity, 0] .plain m1
    else m1
  else m

/-- PDELAY_RESPONSE. -/
def pdelayResponseEffect (p seq t2 t3 : Nat) (m : Mach) : Mach :=
  if asOn m p then
    asSend p 3 [seq, t2 - m.rd (R.NET_PORT_LAT_RX p), t3 + m.rd (R.NET_PORT_LAT_TX p)] .event (rxStamp p t2 (frameIn p m))
  else m

/-- ARP_REQUEST. -/
def arpEffect (p mac ip target : Nat) (m : Mach) : Mach :=
  if portOn m p then
    let m1 := frameIn p m
    if m.rd R.NET_ENCAP = 1 ∧ m.rd R.NET_IPV4 ≠ 0 ∧ target = m.rd R.NET_IPV4 then
      netQueue p ⟨0, 64, [0x0806, mac, ip, target], .plain⟩ m1
    else m1
  else m

/-! ## Sending VLP (R448, R449) -/

/-- Where a VLP frame goes: address, IPv4 address and port. -/
structure VlpDest where
  mac : Nat
  ip : Nat
  port : Nat

/-- Bytes on the line of a VLP frame. -/
def vlpLen (m : Mach) (p n : Nat) : Nat :=
  max 64 (18 + n + (if bit 12 (m.rd R.NET_VLAN) then 4 else 0) + (if m.on R.NET_CB_EN && decide (p ≤ 1) then 6 else 0) +
    (if m.rd R.NET_ENCAP = 1 then 28 else 0))

/-- The fields of the IPv4 and UDP headers of a frame: version 4 without options, total length, TTL 1, UDP, the addresses, the ports and
the UDP length (R449). -/
def udpHead (m : Mach) (d : VlpDest) (n : Nat) : List Nat :=
  [0x0800, 0x45, 28 + n, 1, 17, m.rd R.NET_IPV4, d.ip, m.rd R.NET_UDP_PORT, d.port, 8 + n]

/-- One VLP frame on one port. -/
def vlpOn (d : VlpDest) (pdu : List Byte) (p : Nat) (m : Mach) : Mach :=
  let tag := if bit 12 (m.rd R.NET_VLAN) then m.rd R.NET_VLAN else 0
  let cb := if m.on R.NET_CB_EN && decide (p ≤ 1) then [0xF1C1, m.net.rtag] else []
  let enc := if m.rd R.NET_ENCAP = 1 then udpHead m d pdu.length else [m.rd R.NET_ETHERTYPE]
  netQueue p ⟨if tag = 0 then 0 else bits 15 13 tag, vlpLen m p pdu.length,
    [d.mac, tag] ++ cb ++ enc ++ pdu.map (·.toNat), if fieldAt 1 1 pdu = 1 then .cyclic else .plain⟩ m

/-- A VLP frame on one port; with replication on both of MACs 0 and 1. -/
def vlpSend (d : VlpDest) (pdu : List Byte) (p : Nat) (m : Mach) : Mach :=
  if m.on R.NET_CB_EN && decide (p ≤ 1) then
    updNet (fun n => { n with rtag := (n.rtag + 1) % 65536 }) (vlpOn d pdu 1 (vlpOn d pdu 0 m))
  else vlpOn d pdu p m

/-! ## Recovery (R448) -/

/-- A frame with an R-TAG on MAC 0 or 1: whether it passes, and the machine after the recovery. -/
def cbRecover (mac seq : Nat) (m : Mach) : Bool × Mach :=
  match m.net.cb.find? (fun s => s.mac == mac) with
  | none =>
    if 64 ≤ m.net.cb.length then (true, m)
    else (true, updNet (fun n => { n with cb := n.cb ++ [⟨mac, seq, 1, m.hlt⟩] }) m)
  | some s =>
    let d := toSigned 16 (seq + 65536 - s.seq)
    let put (x : CbStream) : Mach := updNet (fun n => { n with cb := n.cb.map (fun y => if y.mac == mac then x else y) }) m
    if m.rd R.NET_CB_HIST ≤ d.natAbs then (false, (put { s with at_ := m.hlt }).inc R.NET_CNT_CB_ROGUE)
    else if 0 < d then
      (true, put { s with seq := seq, hist := (s.hist * 2 ^ d.natAbs + 1) % 2 ^ 32, at_ := m.hlt })
    else if bit d.natAbs s.hist then (false, (put { s with at_ := m.hlt }).inc R.NET_CNT_CB_DUP)
    else (true, put { s with hist := setBit d.natAbs s.hist, at_ := m.hlt })

/-- CB_STREAM_RESET. -/
def cbResetEffect (mac : Nat) (m : Mach) : Mach :=
  updNet (fun n => { n with cb := n.cb.filter (fun s => s.mac != mac) }) m

/-! ## Epochs, role table and mirror pairs (R464 to R468) -/

/-- a is higher, or newer, than b (R465). -/
def serialNewer (a b : Nat) : Bool :=
  let d := (a + 2 ^ 32 - b % 2 ^ 32) % 2 ^ 32
  decide (1 ≤ d) && decide (d < 2 ^ 31)

def roleEntry (m : Mach) (role : Nat) : Option (Nat × RoleEnt) := m.net.roles.find? (fun e => e.2.role == role)

/-- The lowest free entry of the 32. -/
def roleFree (m : Mach) : Option Nat := (List.range 32).find? (fun e => !(m.net.roles.any (fun x => x.1 == e)))

def setRole (e : Nat) (x : RoleEnt) (m : Mach) : Mach := updNet (fun n => { n with roles := mapPut e x n.roles }) m

/-- The highest own-role epoch in the table; 0 where it holds none. -/
def ownRoleEpoch (m : Mach) : Nat :=
  match roleEntry m (m.rd R.RED_ROLE) with
  | some e => e.2.epoch
  | none => 0

/-- RED_STATE changes. -/
def redEnter (st : Nat) (m : Mach) : Mach :=
  if m.rd R.RED_STATE = st then m
  else redRaise 0 (updNet (fun n => { n with redHeard := false, redCnt := 0 }) (m.wr R.RED_STATE st))

/-- The cyclic frames that still wait at the ports are not sent. -/
def dropCyclic (m : Mach) : Mach :=
  updNet (fun n => { n with txq := n.txq.map (fun e => (e.1, e.2.filter (fun f => f.kind != .cyclic))) }) m

/-- Entry to FENCED. -/
def redFence (m : Mach) : Mach :=
  redRaise 2 ((safeSend true 0x1E (safeSend false 0x1E (redEnter 4 (dropCyclic m)))).inc R.RED_CNT_FENCE)

/-- OFF: RED_EN or NET_RUN written 0. -/
def redOff (m : Mach) : Mach := (redEnter 0 m).wr R.RED_EPOCH 0

/-- RED_EN (R467). -/
def redEnEffect (v : Nat) (m : Mach) : Mach :=
  let m1 := m.wr R.RED_EN v
  if v = 0 then redOff m1
  else if m.rd R.RED_STATE = 0 ∧ m.on R.NET_RUN then redEnter 1 m1
  else m1

/-- RED_CMD REJOIN, YIELD and CLEAR. -/
def rejoinEffect (m : Mach) : Mach :=
  if m.rd R.RED_STATE = 4 then (redEnter 2 m).wr R.RED_EPOCH (ownRoleEpoch m) else m

def yieldEffect (m : Mach) : Mach := if m.rd R.RED_STATE = 3 then redEnter 2 m else m

def redClearEffect (m : Mach) : Mach := (m.clr R.RED_CNT_TAKEOVER).clr R.RED_CNT_FENCE

def redCmdEffect (v : Nat) (m : Mach) : Eff :=
  if v = 1 then .ok (rejoinEffect m) else if v = 2 then .ok (yieldEffect m) else if v = 3 then .ok (redClearEffect m)
  else .error .range

/-- An own-role ACTIVE frame from another node, which the role table did not drop. -/
def redFrame (node epoch : Nat) (m : Mach) : Mach :=
  let own := m.rd R.RED_EPOCH
  let st := m.rd R.RED_STATE
  if (st = 1 ∨ st = 2) ∧ serialNewer epoch own then
    ((redEnter 2 m).wr R.RED_EPOCH epoch).wr R.RED_PEER_NODE node
  else if st = 3 ∧ (serialNewer epoch own ∨ (epoch = own ∧ node < m.rd R.NET_NODE)) then redFence m
  else m

/-- A stale epoch. -/
def staleEpoch (m : Mach) : Mach := netRaise 5 (m.inc R.NET_CNT_STALE_EPOCH)

/-- The role-table test of a PDU with ACTIVE: whether it is used. While the module is ACTIVE its own epoch stands for the
entry of its role, but for the equal epoch of a lower node, which R467 makes a fence. -/
def roleTest (role node epoch : Nat) (m : Mach) : Bool × Mach :=
  let ownHolds := role == m.rd R.RED_ROLE && m.rd R.RED_STATE == 3 && node != m.rd R.NET_NODE &&
    !serialNewer epoch (m.rd R.RED_EPOCH) && !(epoch == m.rd R.RED_EPOCH && decide (node < m.rd R.NET_NODE))
  if ownHolds then (false, staleEpoch m)
  else
    match roleEntry m role with
    | none =>
      match roleFree m with
      | none => (false, m.inc R.NET_CNT_STALE_EPOCH)
      | some e => (true, setRole e ⟨role, node, epoch, 0⟩ m)
    | some (e, x) =>
      if serialNewer epoch x.epoch then (true, setRole e ⟨role, node, epoch, 0⟩ m)
      else if epoch = x.epoch ∧ node = x.node then (true, setRole e { x with idle := 0 } m)
      else (false, staleEpoch m)

/-! ## Cycle start (R456, R463, R467) -/

/-- One partner at a cycle start. -/
def partnerEval (heard : List Nat) (p : Nat) (m : Mach) : Mach :=
  let node := m.rd (R.NET_PTN_NODE p)
  if node = 0 then m
  else if heard.contains node then m.wr (R.NET_PTN_MISSED p) 0
  else
    let c := min 255 (m.rd (R.NET_PTN_MISSED p) + 1)
    let m1 := m.wr (R.NET_PTN_MISSED p) c
    if m.rd R.NET_LOSS_CYCLES ≤ c ∧ m.rd (R.NET_PTN_STATE p) ≠ 3 then
      netRaise 1 ((m1.wr (R.NET_PTN_STATE p) 3).inc (R.NET_PTN_CNT_LOSS p))
    else m1

/-- A CYCLIC PDU counts as received from a node (R462). -/
def partnerHeard (node cycle : Nat) (m : Mach) : Mach :=
  let m0 := updNet (fun n => { n with heard := node :: n.heard }) m
  m0.each (List.range 16) (fun p m =>
    if m.rd (R.NET_PTN_NODE p) = node ∧ node ≠ 0 then
      let was := m.rd (R.NET_PTN_STATE p)
      let m1 := (m.wr (R.NET_PTN_STATE p) 2).wr (R.NET_PTN_LAST_CYCLE p) cycle
      if was = 3 then netRaise 2 m1 else m1
    else m)

/-- The redundancy decisions of a cycle start. -/
def redDecide (m : Mach) : Mach :=
  let cnt := if m.net.redHeard then 0 else m.net.redCnt + 1
  let m1 := updNet (fun n => { n with redHeard := false, redCnt := cnt }) m
  if m.rd R.RED_STATE = 1 ∧ m.rd R.RED_LISTEN_CYCLES ≤ cnt then
    (redEnter 3 m1).wr R.RED_EPOCH ((ownRoleEpoch m + 1) % 2 ^ 32)
  else if m.rd R.RED_STATE = 2 ∧ m.rd R.RED_TAKEOVER_CYCLES ≤ cnt then
    redRaise 1 (((redEnter 3 m1).wr R.RED_EPOCH ((m.rd R.RED_EPOCH + 1) % 2 ^ 32)).inc R.RED_CNT_TAKEOVER)
  else m1

/-- Role entries that no PDU has matched for RED_EXPIRE_CYCLES are cleared: the cycle in which the last one came does not count. -/
def rolesExpire (m : Mach) : Mach :=
  let older := m.net.roles.map (fun (e : Nat × RoleEnt) => (e.1, { e.2 with idle := e.2.idle + 1 }))
  let kept := older.filter (fun e => decide (e.2.idle ≤ m.rd R.RED_EXPIRE_CYCLES))
  updNet (fun n => { n with roles := kept }) m

/-- The cycle-start tick begins. -/
def cycleMark (m : Mach) : Mach := netRaise 0 (updNet (fun x => { x with cycDue := true }) m)

/-- The redundancy decisions come before the frames of the tick, which do not forestall a takeover (R469); the rest waits for them. -/
def cycleBegin (m : Mach) : Mach := if m.on R.NET_RUN && !m.pwr.hSleep then redDecide (cycleMark m) else m

/-- The partners are evaluated with what was heard in the cycle that ended. -/
def partnersEval (m : Mach) : Mach :=
  (updNet (fun x => { x with heard := [], cycDue := false }) m).each (List.range 16) (partnerEval m.net.heard)

/-- The cycle that ended is judged, with the frames of the tick in which it ended: partners, then role-table entries. -/
def cycleEnd (m : Mach) : Mach :=
  if m.net.cycDue then
    if m.on R.NET_RUN then rolesExpire (partnersEval m) else updNet (fun x => { x with heard := [], cycDue := false }) m
  else m

/-- CYCLE_START as one command: partners, decisions, expiry, in the order of R456. -/
def cycleStartEffect (m : Mach) : Mach :=
  if m.on R.NET_RUN && !m.pwr.hSleep then rolesExpire (redDecide (partnersEval (cycleMark m))) else m

/-! ## Counters and views (R476) -/

def netCounters : NetClr → List Obj
  | .net => [R.NET_CNT_LATE, R.NET_CNT_BAD, R.NET_CNT_OLD_CYCLE, R.NET_CNT_STALE_EPOCH, R.NET_CNT_UNMAPPED,
      R.NET_CNT_MAP_REFUSED]
  | .port p => [R.NET_PORT_CNT_RX p, R.NET_PORT_CNT_ERR p]
  | .cb => [R.NET_CNT_CB_DUP, R.NET_CNT_CB_ROGUE]

/-- RED_SEEN, entry e. -/
def redSeen (m : Mach) (e : Nat) : Nat :=
  match m.net.roles.find? (fun x => x.1 == e) with
  | some (_, x) => x.role * 2 ^ 48 + x.node * 2 ^ 32 + x.epoch
  | none => 0

end Sys2Proof.Machine
end

