-- ==== Sys2Proof/Machine/Claims.lean ====
section
/-! DEFINITION. Which unit claims a channel (R226), and what reaches a channel's unit after its lockout (R230). -/

namespace Sys2Proof.Machine

/-- A decoder that runs names the channel as an input (R226). -/
def whlClaims (m : Mach) (d c : Nat) : Bool :=
  m.on (R.WHL_ENABLE d) &&
  (m.rd (R.WHL_IN_A d) == c || m.rd (R.WHL_IN_B d) == c || m.rd (R.WHL_IN_IDX d) == c || m.rd (R.WHL_IN_DIR d) == c)

/-- A running octet with the channel in its mask, in mode PWM. -/
def octClaims (m : Mach) (c : Nat) : Bool :=
  (m.octet (c / 8)).st != 0 && m.chMode c == 7 && bit (c % 8) (m.pwmMask (c / 8))

/-- A context that is bound to the channel. -/
def ctxBinds (m : Mach) (x c : Nat) : Bool :=
  ctxClaims m x && (List.range 8).any (fun i => pinByte m x i == c)

/-- Channel `p` is an enabled STEP, DIR or DATA channel that names channel `c` as its partner; a STEP channel `c` with CH_EN = 1 is claimed
with its DIR channel, whether that is enabled or not (R226, R243, R248). -/
def partnerClaims (m : Mach) (p c : Nat) : Bool :=
  p != c &&
  ((m.chMode p == 6 && ptPartner m p == c && (m.chEn p || (m.chMode c == 6 && !bit 31 (m.rd (R.CH_PT_CFG c)) && ptPartner m c == p && m.chEn c))) ||
   (m.chMode p == 10 && m.chEn p && !m.sdClock p && sdClk m p == c))

def ownerWord (kind : Nat) : Option Nat → Nat
  | some n => kind * 4096 + n
  | none => 0

/-- CH_OWNER: the kind of the claiming unit and its lowest number, in the order of R226. -/
def chOwner (m : Mach) (c : Nat) : Nat :=
  let w := ownerWord 1 ((List.range 16).find? (fun d => whlClaims m d c))
  let e := ownerWord 2 ((evtSlots m).find? (fun s => evtClaims m s && evtChan m s == c))
  let u := ownerWord 3 ((ocuUnits m c).head?)
  let o := if octClaims m c then 4 * 4096 + c / 8 else 0
  let x := ownerWord 5 ((List.range 128).find? (fun x => ctxBinds m x c))
  let p := ownerWord 6 ((List.range 128).find? (fun p => partnerClaims m p c))
  if w ≠ 0 then w else if e ≠ 0 then e else if u ≠ 0 then u else if o ≠ 0 then o else if x ≠ 0 then x else p

/-- CH_MODE write (R223, R226, R227): refused on a claimed channel. -/
def chModeEffect (c v : Nat) (m : Mach) : Eff :=
  if chOwner m c ≠ 0 then .error .range else .ok (setChMode c v m)

/-! ## The safe level (R229) -/

/-- The channel's pin points outward (R223, R331). -/
def pinIsOut (m : Mach) (c : Nat) : Bool :=
  m.chIsOut c ||
  (m.chMode c == 9 && (List.range 128).any (fun x => (ctxClaims m x || !(List.range 128).any (fun y => ctxBinds m y c)) &&
    (List.range 8).any (fun i => pinByte m x i == c && bit i (m.ctx x).oe)))

/-- The unit that owns an output channel is stopped, or holds the channel at its safe level (R229, R288, R301, R305,
R331). -/
def ownerStopped (m : Mach) (c : Nat) : Bool :=
  if m.chMode c = 7 then !octDrives m (c / 8) (c % 8)
  else if m.chMode c = 8 then
    !(m.on R.LAN_RUN || m.evts.any (fun e => (e.2.st == 3 || e.2.st == 4) && evtChan m e.1 == c))
  else if m.chMode c = 9 then
    !(List.range 128).any (fun x => (m.ctxState x == 1 || m.ctxState x == 2 || m.ctxState x == 3) &&
      (List.range 8).any (fun i => pinByte m x i == c && bit i (m.ctx x).oe))
  else false

/-- The logical level that the channel's mode gives an output: an octet's waveform, the internal clock, or what the output stage
drives. -/
def chDrive (m : Mach) (c : Nat) : Bool :=
  if m.chMode c = 7 then bit (c % 8) (m.octet (c / 8)).lv else if m.chMode c = 10 then sdLevel m c else (m.chan c).lvl

/-- An output pin stands at CH_SAFE_LVL. -/
def pinSafe (m : Mach) (c : Nat) : Bool :=
  pinIsOut m c &&
  (m.chMode c == 0 || !m.chEn c || m.safe || m.inHold || m.pwr.fSleep ||
   (m.keepHalted && !bit (c % 8) (keeprunMask m (c / 8))) || ownerStopped m c)

/-- The level an output pin is commanded to, none where that is high-impedance: CH_SAFE_LVL, or the complement of the logical level under
INVERT; in a reset no pin is driven (R228, R229, R254, R480). -/
def pinCommand (m : Mach) (c : Nat) : Option Bool :=
  if !pinIsOut m c ∨ m.inReset .field then none
  else if pinSafe m c then (match m.rd (R.CH_SAFE_LVL c) with | 0 => some false | 1 => some true | _ => none)
  else some (chDrive m c != m.chInvert c)

/-- The level an output pin drives: open drain drives low only (R228). -/
def pinDrive (m : Mach) (c : Nat) : Option Bool :=
  if !pinSafe m c ∧ bit 6 (m.rd (R.CH_PIN_CFG c)) ∧ pinCommand m c = some true then none else pinCommand m c

/-- The level of a pin: what the channel drives; else what the outside gives it, or the pull of an output that it has given nothing
(R239). -/
def chPin (m : Mach) (c : Nat) : Bool :=
  match pinDrive m c with
  | some b => b
  | none =>
    if pinIsOut m c && !(m.chan c).ext then bits 5 4 (m.rd (R.CH_PIN_CFG c)) == 1 else (m.chan c).seen

/-! ## Edges that come late (R230) -/

/-- A capture goes to the Oculus units bound to the channel, or else to the queue (R213, R239). -/
def captureTo (c : Nat) (lvl late : Bool) (t : Nat) (m : Mach) : Mach :=
  let m1 := captureDeliver c lvl late (!(ocuUnits m c).isEmpty) t m
  if edgeSel m c lvl then ocuDeliver c t m1 else m1

/-- LOCKOUT_END: a level that differs from the one the accepted edge left is delivered as one edge, stamped with the
lockout's last tick, to whatever the channel's mode feeds. -/
def lockoutEndEffect (c : Nat) (m : Mach) : Mach :=
  let x := m.chan c
  match x.lock with
  | none => m
  | some (last, left) =>
    let m1 := m.setChan c { x with lock := none }
    let lvl := m.chIn c
    if lvl = left ∨ m.fieldStill ∨ !m.chEn c then m1
    else
      let t := 8 * last
      let m2 := chRaise c 5 m1
      if m.chMode c = 3 then captureTo c lvl true t m2
      else if m.chMode c = 4 then periodDeliver c lvl t m2
      else if m.chMode c = 5 then whlLockoutEdge c lvl t m2
      else if m.chMode c = 1 then gpioDeliver c lvl m2
      else m2

end Sys2Proof.Machine
end

