-- ==== Sys2Proof/Machine/View.lean ====
section
/-! DEFINITION. What an object reads as, where that is not simply the number last put into it: the status objects that show a
unit's condition, the objects that read through another one, and those that read 0. -/

namespace Sys2Proof.Machine

/-! ## Status words -/

/-- CH_LEVEL: the logical level of the pin of an enabled channel (R239). -/
def chLevel (m : Mach) (c : Nat) : Nat := if m.chEn c then boolNat (chPin m c != m.chInvert c) else 0

/-- CH_Q_HEAD: the head entry; in ANGLE_OUT the earliest edge of a pair, in the layout of a COMPARE entry (log 61). -/
def chHeadView (m : Mach) (c : Nat) : Nat := qHead m c

/-- CH_STATUS. -/
def chStatus (m : Mach) (c : Nat) : Nat :=
  let x := m.chan c
  boolNat (bit (c / 16) m.pwr.bank33) * 4096 + boolNat x.pt.lagging * 2048 +
  boolNat (m.chMode c == 10 && !m.sdClock c && m.chEn c && decide (x.sd.done < 2)) * 1024 + boolNat x.sd.loss * 512 +
  boolNat x.noSig * 256 + boolNat (pinSafe m c) * 128 + boolNat x.lock.isSome * 64 +
  boolNat (chArmed m c) * 32 + chCount m c

/-- The age of what an octet's status objects show, in ticks: 2 to 8, open (R292). -/
def statusAge (m : Mach) : Nat := 2 + m.free.1 % 7

/-- What the status objects of an octet show now: PWM_STATUS but for the counter's direction, B_k, the period where the octet counts
centre-aligned, TRP_STATUS but for the comparators; then PWM_DUTY_ACT and PWM_CARRY of the channels, DT_R, DT_F, MEAS_R and MEAS_F
of the pairs. -/
def octShown (m : Mach) (o : Nat) : List Nat :=
  let x := m.octet o
  [x.phi * 4096 + boolNat x.lateDefer * 1024 + boolNat x.held * 512 + boolNat x.deferred * 256 + x.st, x.b,
   if m.pwmCentre o then x.p else 0,
   x.runB * 2 ^ 24 + x.runA * 256 + boolNat (x.cut != 0) * 64 + boolNat (blankedB m o) * 32 + boolNat (blankedA m o) * 16 +
     boolNat x.tripB * 2 + boolNat x.tripA] ++
  (List.range 8).map (fun j => m.rd (R.PWM_DUTY_ACT o j)) ++ (List.range 8).map (fun j => m.rd (R.PWM_CARRY o j)) ++
  (List.range 4).map (dtR m o) ++ (List.range 4).map (dtF m o) ++
  (List.range 4).map (fun i => m.rd (R.PWM_SN_MEAS_R o i)) ++ (List.range 4).map (fun i => m.rd (R.PWM_SN_MEAS_F o i))

/-- At the end of a tick an octet's status objects change what they will show; what is older than 8 ticks goes. -/
def octSnap (o : Nat) (m : Mach) : Mach :=
  let now := octShown m o
  let old := match (m.octet o).snaps with
    | [] => [(0, octShown (m.setOctet o {}) o)]
    | l => l
  if old.head?.map (·.2) = some now then m
  else
    let recent := old.filter (fun e => decide (m.pnow < e.1 + 8))
    let last := (old.filter (fun e => !decide (m.pnow < e.1 + 8))).take 1
    m.updOctet o (fun x => { x with snaps := (m.pnow, now) :: recent ++ last })

/-- An octet without such a record takes one before a write. -/
def octKeep (o : Nat) (m : Mach) : Mach :=
  if (m.octet o).snaps.isEmpty then m.updOctet o (fun x => { x with snaps := [(0, octShown m o)] }) else m

/-- The tick that the status objects show. -/
def shownAt (m : Mach) : Nat := m.pnow - statusAge m

/-- What they show. -/
def octAt (m : Mach) (o : Nat) : List Nat :=
  match (m.octet o).snaps.find? (fun e => decide (e.1 ≤ shownAt m)) with
  | some e => e.2
  | none => octShown m o

def octAtN (m : Mach) (o n : Nat) : Nat := (octAt m o).getD n 0

/-- PWM_COUNT. -/
def octTicks (m : Mach) (o : Nat) : Nat := if octAtN m o 0 % 8 < 3 then 0 else shownAt m - octAtN m o 1 / 128

/-- PWM_STATUS (R292). -/
def pwmStatus (m : Mach) (o : Nat) : Nat :=
  let p := octAtN m o 2
  octAtN m o 0 + boolNat (p != 0 && decide (3 ≤ octAtN m o 0 % 8) && decide (p / 2 ≤ 128 * shownAt m - octAtN m o 1)) * 2048

/-- TRP_STATUS, the comparators under the setting of the tick that is shown (R295, R317). -/
def trpStatus (m : Mach) (o : Nat) : Nat :=
  octAtN m o 3 + boolNat (trpAsserts m o true (shownAt m) (Config.tripInput o true (shownAt m))) * 8 +
  boolNat (trpAsserts m o false (shownAt m) (Config.tripInput o false (shownAt m))) * 4

/-- TUR_STATUS. -/
def turStatus (m : Mach) (e : Nat) : Nat :=
  turInterval m e * 256 + turActive m e * 8 + boolNat ((m.engine e).st == 1) * 4 + (m.engine e).st

/-- SPR_STATE and KEEP_STATE: 0 held before the restart vector, 1 RUN, 2 DOZE, 3 HALTED. -/
def coreStateView (m : Mach) (i : Nat) : Nat :=
  let c := m.core i
  if c.held then 0 else if c.halted then 3 else if c.gated then 2 else 1

/-- PWR_F_STATE and PWR_H_STATE show DOZE while all cores of the side are gated (R377). -/
def fieldStateView (m : Mach) : Nat := if m.rd R.PWR_F_STATE = 0 ∧ (m.core 2).gated then 1 else m.rd R.PWR_F_STATE

def hostStateView (m : Mach) : Nat :=
  if m.rd R.PWR_H_STATE = 0 ∧ (m.core 0).gated ∧ (m.core 1).gated then 1 else m.rd R.PWR_H_STATE

/-- Pool entries decoder `d` holds: its committed table, or more while a write transfer reserves more (R107). -/
def poolHeld (m : Mach) (d : Nat) : Nat :=
  (m.dic.xfers.filter (fun e => e.2.wr && !e.2.closed && e.2.idx == 0x5000 + d)).foldl
    (fun a e => max a (e.2.total / 8)) ((whlTbl m d).length / 8)

/-- WHL_POOL_FREE. -/
def poolFree (m : Mach) : Nat := 16384 - (List.range 16).foldl (fun a d => a + poolHeld m d) 0

/-! ## Belfry maps (R413) -/

/-- The word of a bitmap object for IDs 32 t to 32 t + 31. -/
def belWord (m : Mach) (s : Side) (t : Nat) (p : Src → Bool) : Nat :=
  (m.bel s).src.foldl (fun a e => if e.1 / 32 = t ∧ p e.2 then a + 2 ^ (e.1 % 32) else a) 0

/-- BEL_x_COUNT: eight counts a word. -/
def belCountWord (m : Mach) (s : Side) (t : Nat) : Nat :=
  (m.bel s).src.foldl (fun a e => if e.1 / 8 = t then a + e.2.cnt * 16 ^ (e.1 % 8) else a) 0

def belGrpStat (m : Mach) (s : Side) (g : Nat) : Nat :=
  let x := m.grp s g
  if x.start.isSome then x.cnt * 256 + 1 else 0

/-! ## The parameter CRC (R501) -/

/-- Every row of every object table. -/
def allRows : List Row :=
  rowsDic ++ rowsPwrH ++ rowsPwrF ++ rowsBar ++ rowsNet ++ rowsCan ++ rowsRed ++ rowsSvc ++ rowsSaf ++ rowsBelH ++ rowsSpr ++
  rowsTime ++ rowsWhl ++ rowsEvt ++ rowsLan ++ rowsCam ++ rowsAxis ++ rowsOcu ++ rowsChan ++ rowsMov ++ rowsPwm ++ rowsTrp ++
  rowsTur ++ rowsCtx ++ rowsBelSrc ++ rowsBelF ++ rowsKeep ++ rowsDom

/-- The instances of a row. -/
def Row.all (r : Row) : List Found :=
  (List.range r.n1).flatMap (fun i => (List.range r.n2).flatMap (fun j => (List.range r.nsub).map (fun t => ⟨r, i, j, t⟩)))

/-- Bytes of a type's dictionary encoding (R13). -/
def Ty.size : Ty → Nat
  | .bool | .u8 => 1
  | .u16 | .i16 => 2
  | .u32 | .i32 => 4
  | .u64 | .i64 => 8
  | .str | .dom => 0

def putByKey (k : Nat) (v : List Byte) : List (Nat × List Byte) → List (Nat × List Byte)
  | [] => [(k, v)]
  | e :: rest => if k ≤ e.1 then (k, v) :: e :: rest else e :: putByKey k v rest

/-- An object whose value the log and the CRC of the parameters cover: field-owned, M- prefix, class K. -/
def isParam (idx : Nat) (mach : Bool) (ret : Ret) : Bool := mach && ret == .k && ownerOf idx == .field

/-- SAF_PARAM_CRC. -/
def paramCrc (m : Mach) : Nat :=
  let own := (allRows.filter (fun r => isParam r.base r.mach r.ret)).flatMap (fun r =>
    r.all.map (fun f => (f.obj.key, toLe r.ty.size (m.rd f.obj))))
  let user := (m.dic.users.filter (fun u => isParam u.idx u.mach u.ret)).map (fun u =>
    (u.idx * 256 + u.sub, toLe u.ty.size (m.rd ⟨u.idx, u.sub, u.dflt⟩)))
  crc32 (((own ++ user).foldl (fun l e => putByKey e.1 e.2 l) []).flatMap (·.2))

/-- SAF_LOG_REC: a word of the selected record, 0 when none is valid (R502). -/
def logWord (m : Mach) (t : Nat) : Nat :=
  match logRead m (m.rd R.SAF_LOG_SEL) with
  | some l => fieldAt (4 * t) 4 l
  | none => 0

/-! ## CAN PDO identifiers (R473, R476) -/

/-- The COB-ID of an RPDO or TPDO: 0 stands for the CiA 301 default, which names the node for the first four and is invalid
for the others (PRESUMED from CiA 301, log 32). -/
def pdoCobId (m : Mach) (rx : Bool) (k j : Nat) : Nat :=
  let v := m.rd (if rx then R.CAN_RPDO_COMM_ID k j else R.CAN_TPDO_COMM_ID k j)
  if v ≠ 0 then v
  else if j < 4 then (if rx then 0x200 else 0x180) + 0x100 * j + m.rd (R.CAN_NODE_ID k)
  else 2 ^ 31

/-- NET_CYCLE_NUM: the line cycle by host line time, modulo 2^32; 0 before NET_CYCLE_BASE, where no cycle runs (R453). -/
def cycleNum (m : Mach) : Nat :=
  if m.hlt < m.rd R.NET_CYCLE_BASE then 0 else (m.hlt - m.rd R.NET_CYCLE_BASE) / max 1 (m.rd R.NET_CYCLE) % 2 ^ 32

/-! ## The table of views -/

/-- One number for a row: its first index and its first subindex. -/
def Row.id (r : Row) : Nat := r.base * 256 + r.sub

/-- What the objects read as whose value is not simply held, by row. -/
def viewsA : List (Nat × (Mach → Found → Nat)) := [
  (0x10000B, fun m _ => m.saf.fuses + boolNat Config.screened * 4),
  (0x141014, fun m _ => cycleNum m),
  (0x18010A, fun m _ => (m.dic.xfers.filter (fun e => !e.2.closed)).length),
  (0x200001, fun m _ => m.tb.ftb),
  (0x200101, fun m _ => m.tb.lt),
  (0x201003, fun m f => boolNat (gtRuns m f.i)),
  (0x202001, fun m f => m.rd (R.GT_COUNT (2 * f.i + 1)) * 2 ^ 32 + m.rd (R.GT_COUNT (2 * f.i))),
  (0x202003, fun m f => m.rd (R.GT_CMP0 (2 * f.i + 1)) * 2 ^ 32 + m.rd (R.GT_CMP0 (2 * f.i))),
  (0x202005, fun m f => m.rd (R.GT_CMP1 (2 * f.i + 1)) * 2 ^ 32 + m.rd (R.GT_CMP1 (2 * f.i))),
  (0x210403, fun m f => whlFlags m f.i),
  (0x210404, fun m f => (m.whl f.i).k),
  (0x210406, fun m _ => poolFree m),
  (0x210501, fun m f => whlAngle m f.i),
  (0x210502, fun m f => whlSpeed m f.i),
  (0x210503, fun m f => whlAccel m f.i),
  (0x210504, fun m f => ofSigned 64 (if whlPublished m f.i then whlPosNow m f.i else (m.whl f.i).pub)),
  (0x210506, fun m f => ofSigned 64 (ratNear (8 * (m.whl f.i).prev))),
  (0x210508, fun m f => whlPredInt m f.i),
  (0x22000B, fun m f => evtStatus m f.i),
  (0x22000C, fun m f => ofSigned 64 (m.evt f.i).target),
  (0x22000E, fun m f => (m.evt f.i).s),
  (0x260004, fun m _ => lanStatus m),
  (0x261002, fun m f => lanNw m f.i),
  (0x261004, fun m f => nwLim m f.i),
  (0x280001, fun m _ => camFree m),
  (0x280002, fun m _ => camProfiles m),
  (0x280004, fun m _ => camLoad m),
  (0x281005, fun m f => vmSpeedView m f.i),
  (0x281006, fun m f => vmPosView m f.i),
  (0x28100A, fun m f => vmStatus m f.i),
  (0x284001, fun m f => camDirStat m (128 * f.i + f.t)),
  (0x290022, fun m f => axVdecStat m f.i)]

def viewsB : List (Nat × (Mach → Found → Nat)) := [
  (0x308001, fun m f => chLevel m f.i),
  (0x308002, fun m f => chOwner m f.i),
  (0x308003, fun m f => chStatus m f.i),
  (0x310003, fun m f => chHeadView m f.i),
  (0x34000C, fun m f => pwmStatus m f.i),
  (0x34000D, fun m f => octTicks m f.i),
  (0x340103, fun m f => octAtN m f.i (4 + f.j)),
  (0x340104, fun m f => octAtN m f.i (12 + f.j)),
  (0x340909, fun m f => octAtN m f.i (20 + f.j)),
  (0x34090A, fun m f => octAtN m f.i (24 + f.j)),
  (0x34090B, fun m f => octAtN m f.i (28 + f.j)),
  (0x34090C, fun m f => octAtN m f.i (32 + f.j)),
  (0x351001, fun m f => trpStatus m f.i),
  (0x380002, fun m f => (m.engine f.i).st),
  (0x380003, fun m f => turStatus m f.i),
  (0x380008, fun m f => m.rd (R.TUR_FLAG_SET f.i)),
  (0x380F02, fun m _ => m.rd R.TUR_XFLAG_SET),
  (0x388018, fun m f => (m.ctx f.i).dirs * 256 + pinsRead m f.i),
  (0x388019, fun m f => ctxQ m f.i),
  (0x38801B, fun m f => rxHead m f.i),
  (0x1B0001, fun m f => coreStateView m f.i),
  (0x1B0002, fun m f => if f.i = 0 then 1 else m.rd f.obj),
  (0x3F0001, fun m _ => coreStateView m 2),
  (0x3E0201, fun m f => m.rd (R.BEL_F_EN_SET f.t)),
  (0x1A0201, fun m f => m.rd (R.BEL_H_EN_SET f.t)),
  (0x3E0301, fun m f => belWord m .field f.t (·.pend)),
  (0x1A0301, fun m f => belWord m .host f.t (·.pend)),
  (0x3E0401, fun m f => belWord m .field f.t (·.pend)),
  (0x1A0401, fun m f => belWord m .host f.t (·.pend)),
  (0x3E0501, fun m f => belWord m .field f.t (fun x => x.svc != 0)),
  (0x1A0501, fun m f => belWord m .host f.t (fun x => x.svc != 0)),
  (0x3E0601, fun m f => belCountWord m .field f.t),
  (0x1A0601, fun m f => belCountWord m .host f.t),
  (0x3E2003, fun m f => belGrpStat m .field f.i),
  (0x1A2003, fun m f => belGrpStat m .host f.i),
  (0x161001, fun m f => pdoCobId m true f.i f.j),
  (0x162001, fun m f => pdoCobId m false f.i f.j),
  (0x170101, fun m f => redSeen m f.t),
  (0x190007, fun m _ => safStatus m),
  (0x190008, fun m _ => ss1Left m),
  (0x190206, fun m _ => paramCrc m),
  (0x19040B, fun m _ => sessStat m),
  (0x190503, fun m f => logWord m f.t),
  (0x118001, fun m _ => fieldStateView m),
  (0x110001, fun m _ => hostStateView m),
  (0x118208, fun m _ => m.pwr.gov.length)]

/-- The value an object reads as (R14: a write-only object reads 0). -/
def view (m : Mach) (f : Found) : Nat :=
  match (viewsA ++ viewsB).find? (fun e => e.1 == f.row.id) with
  | some e => e.2 m f % 2 ^ (8 * f.row.ty.size)
  | none => if f.row.acc = .wo then 0 else m.rd f.obj

/-- Objects whose reading uses a free value. -/
def viewFree (f : Found) : Bool :=
  [0x34000C, 0x34000D, 0x340103, 0x340104, 0x340909, 0x34090A, 0x34090B, 0x34090C, 0x351001].contains f.row.id

/-- Reads an object. -/
def readObj (f : Found) (m : Mach) : Nat × Mach := (view m f, if viewFree f then m.free.2 else m)

end Sys2Proof.Machine
end

