-- ==== Sys2Proof/Machine/Access.lean ====
section
/-! DEFINITION. Who may write an object, when, and which values it takes (R14, R24, R53 to R56, R59, R498); what a refused
write does to the one who made it; and the form every command takes that is a write to one of the block's objects. -/

namespace Sys2Proof.Machine

/-! ## Routes, sessions and authority -/

/-- Check 3 of R59. -/
def routeOpen (m : Mach) (r : Route) : Bool := fromSpire r || bit (routeBit r) (m.rd R.DIC_ROUTE_EN)

/-- The session handle names a session open on this route (check 4). -/
def sessionOpen (m : Mach) (r : Route) (h : Nat) : Bool :=
  m.saf.sess.any (fun s => s.isOpen && s.handle == h && s.route == r)

/-- The core that stands behind a register-view write. -/
def writerCore : Writer → Option Nat
  | .keep => some 2
  | .spire n => some n.val
  | _ => none

/-- Machine authority for an object of a side (R53): a machine-level core of the owning side, a safety session, or for
host-owned objects a request of Spire firmware whose core is at machine level. Through the direct window an M- object is read-only (R75). -/
def authority (m : Mach) (w : Writer) (side : Side) : Bool :=
  match w with
  | .keep => (m.core 2).lvl == 2
  | .spire n => (m.core n.val).lvl == 2
  | .dict r h => (h.toNat != 0 && sessionOpen m r h.toNat) ||
      (match r with
       | .spire n => side == .host && (m.core n.val).lvl == 2
       | _ => false)
  | _ => false

/-- The side whose objects a writer reaches; the dictionary reaches both (R24, R75, R256). -/
def writerSide : Writer → Option Side
  | .keep => some .field
  | .mover _ => some .field
  | .spire _ => some .host
  | .pcie => some .host
  | .dict _ _ => none

/-- The host does not reach the field side: its end is not LINKED, as in field SLEEP, or the field's LINK messages carry HALTED
(check 9, R437). -/
def fieldBar (m : Mach) : Option Abort := if !m.linked .host || m.bar.peerHalted then some .notReady else none

/-- A request that reached the field side fails there: its end fell asleep, so that the outcome stays unknown, or Keep is halted (R31,
R44). -/
def agentBar (m : Mach) : Option Abort :=
  if m.pwr.fSleep then some .unknown else if m.keepHalted then some .halted else none

/-- Check 5: the index is defined, or firmware declared a user object in it. -/
def indexOk (m : Mach) (idx : Nat) : Bool := indexDefined idx || m.dic.users.any (fun u => u.idx == idx)

/-- The module is FENCED (R56, R467). -/
def fenced (m : Mach) : Bool := m.rd R.RED_STATE == 4

def inRed (idx : Nat) : Bool := decide (0x1700 ≤ idx) && decide (idx ≤ 0x17FF)

/-- A host-owned object of class K whose stored value has not come back yet (R25). -/
def awaits (m : Mach) (o : Obj) : Bool :=
  !m.bar.kReady && ownerOf o.idx == .host &&
  (match findObj o.idx o.sub with
   | some f => f.row.ret == .k && (f.row.acc != .ro || headHeld o.key)
   | none => (m.user o.idx o.sub).any (fun u => u.ret == .k))

/-- An object's register address (R10). -/
def Obj.addr (o : Obj) : Nat := 0x40000000 + o.idx * 0x400 + o.sub * 4

/-- A core's access to an address is denied by its regions (R365). -/
def regionBars (m : Mach) (w : Writer) (kind addr : Nat) : Bool :=
  match writerCore w with
  | some i => !(m.core i).allows kind addr
  | none => false

/-- What refuses a write before the object's own rules are asked: the wrong side or the regions, the route and the session, a side that
cannot execute, fencing, and the M- prefix. -/
def gate (w : Writer) (o : Obj) (mach : Bool) (m : Mach) : Option Abort :=
  let side := ownerOf o.idx
  if (writerSide w).any (fun s => s != side) || regionBars m w 1 o.addr then some .noObject
  else
    let auth := if mach && !authority m w side then some .machine else none
    match w with
    | .dict r h =>
      if !routeOpen m r then some .route
      else if h.toNat ≠ 0 ∧ !sessionOpen m r h.toNat then some .session
      else if side = .field ∧ (fieldBar m).isSome then fieldBar m
      else if awaits m o then some .notReady
      else if fenced m ∧ !inRed o.idx then some .fenced
      else if side = .field ∧ (agentBar m).isSome then agentBar m
      else auth
    | _ => auth

/-! ## A refused write -/

/-- The service records an abort (R63, R79). -/
def abortRecord (r : Route) (idx sub code : Nat) (m : Mach) : Mach :=
  let no := if fromSpire r then m.free.1 % 256 else routeBit r
  let m1 := if fromSpire r then m.free.2 else m
  ((((m1.inc R.DIC_ABORT_COUNT).wr R.DIC_LAST_ABORT code).wr R.DIC_LAST_ABORT_OBJ
    (idx * 65536 + sub * 256 + no))).assertSrc 416

/-- What the writer meets: a store-access fault of the core (R24, R55), a dropped direct-window write (R75), a mover's bus
error (R263), an abort of the request (R63). -/
def refuse (w : Writer) (o : Obj) (a : Abort) (m : Mach) : Mach :=
  match w with
  | .keep => storeRefused 2 o.addr m
  | .spire n => storeRefused n.val o.addr m
  | .pcie => m.inc R.DIC_PCIE_DROPPED
  | .mover n => movError n.val 2 o.addr m
  | .dict r _ => (abortRecord r o.idx o.sub a.code m).send (.rsp r) [1, a.code]

/-- A dictionary write that was carried out is answered. -/
def answered (w : Writer) (m : Mach) : Mach :=
  match w with
  | .dict r _ => m.send (.rsp r) [0, 0]
  | _ => m

/-- The core executes: not gated, not held, and not halted in debug but for the one instruction of a STEP. -/
def Core.runs (c : Core) : Bool := !c.gated && !c.held && (!c.halted || c.step)

/-- A core whose clock is gated, that is held before its restart vector or halted in debug makes no access, nor does a mover
while the field side stands still, nor a route of a host side in SLEEP or in a reset. -/
def writerLive (m : Mach) (w : Writer) : Bool :=
  match w with
  | .keep => (m.core 2).runs && !m.pwr.fSleep
  | .spire n => (m.core n.val).runs && !m.pwr.hSleep
  | .mover _ => !m.fieldStill
  | .pcie => !m.inReset .host
  | .dict _ _ => !m.hostOff

/-! ## Writes of one tick (R19, R43, R261) -/

/-- A reset or state entry of the tick sets the object: kind 0 is HOLD or SLEEP, 1 a software reset, 2 another reset (R18). -/
def eventSets (m : Mach) (kind key : Nat) : Bool :=
  !heldElsewhere key &&
  (match objRet m key with
   | .v => true
   | .s => decide (1 ≤ kind)
   | .k => decide (1 ≤ kind)
   | .w => decide (2 ≤ kind)
   | .r => false)

/-- The place of a writer among those that write one field-owned object in a tick: Keep and every other writer 0, mover n 1 + n, the
field dictionary agent 17. -/
def rank (w : Writer) (o : Obj) : Nat :=
  match w with
  | .mover n => 1 + n.val
  | .dict _ _ => if ownerOf o.idx = .field then 17 else 0
  | _ => 0

/-- The object holds a value that a write replaces as a whole, so that of two writes in a tick the later one stands; PWM_PERIOD_IMM sets
such a value. -/
def holdsValue (m : Mach) (o : Obj) : Bool :=
  match findObj o.idx o.sub with
  | some f => f.row.acc == .rw || f.row.acc == .rws || f.row.id == 0x340008
  | none => (m.user o.idx o.sub).any (fun u => u.acc == .rw || u.acc == .rws)

/-- A write that lands in this tick has no effect: a reset, a state entry or a UNIT stop of the tick sets its object. -/
def overruled (m : Mach) (o : Obj) : Bool :=
  m.stopped.contains o.key || m.entries.any (fun e => e.1 == ownerOf o.idx && eventSets m e.2 o.key)

/-- A writer that comes later in the order of R261 wrote the object already in this tick. -/
def outranked (m : Mach) (w : Writer) (o : Obj) : Bool := holdsValue m o && decide (rank w o < mapGet 0 o.key m.ranks)

/-- The value that such a writer gave the object. -/
def redoValue (m : Mach) (o : Obj) : Nat :=
  match findObj o.idx o.sub with
  | some f => m.rd (if f.row.id = 0x340008 then R.PWM_PERIOD f.i else o)
  | none => m.rd o

/-- Its write is carried out again at the end of the tick, after the one that has come now. -/
def redoNote (o : Obj) (v : Nat) (m : Mach) : Mach :=
  if m.redos.any (fun e => e.1 == o.key) then m else { m with redos := m.redos ++ [(o.key, v)] }

/-- The writer is noted for the rest of the tick. -/
def rankNote (w : Writer) (o : Obj) (m : Mach) : Mach :=
  if rank w o = 0 then m
  else { m with
    ranks := mapSet 0 o.key (max (rank w o) (mapGet 0 o.key m.ranks)) m.ranks
    redos := m.redos.filter (fun e => e.1 != o.key) }

/-- A write that passed its checks lands: m1 is the machine after it. -/
def landed (w : Writer) (o : Obj) (m m1 : Mach) : Mach :=
  if overruled m o then m else if outranked m w o then redoNote o (redoValue m o) m1 else rankNote w o m1

/-- A command that is a write to object `o`: refused as the gate or its own rules say, or carried out; `ans` tells its writer. -/
def commandThen (ans : Mach → Mach) (w : Writer) (o : Obj) (mach : Bool) (eff : Mach → Eff) (m : Mach) : Mach :=
  if !writerLive m w then m
  else
    match gate w o mach m with
    | some a => refuse w o a m
    | none =>
      match eff m with
      | .ok m1 => ans (landed w o m m1)
      | .error a => refuse w o a m

/-- The same, a request answered at once. -/
def command (w : Writer) (o : Obj) (mach : Bool) (eff : Mach → Eff) (m : Mach) : Mach :=
  commandThen (answered w) w o mach eff m

/-- A command whose write no value rule refuses. -/
def commandOk (w : Writer) (o : Obj) (eff : Mach → Mach) (m : Mach) : Mach := command w o false (fun m => .ok (eff m)) m

/-- The effect of an RWS write: only while the unit stands still or is unlocked (R54). -/
def rws (still : Mach → Bool) (eff : Mach → Eff) (m : Mach) : Eff := if still m then eff m else .error .running

/-- The effect of a write whose value must pass a test (check 14). -/
def ranged (ok : Bool) (eff : Mach → Mach) (m : Mach) : Eff := if ok then .ok (eff m) else .error .range

/-! ## RWS (R54) -/

def slotStill (m : Mach) (s : Nat) : Bool := [0, 5, 7].contains (m.evt s).st

/-- The RWS condition of an object of index `idx` (instances i): its unit stands still, or its unlock bit is set. -/
def rwsOk (m : Mach) (f : Found) : Bool :=
  let b := f.row.base
  if b = 0x2001 then m.rd R.LT_SERVO_MODE != 1
  else if b = 0x2010 then !gtRuns m f.i || m.on (R.GT_UNLOCK f.i)
  else if b / 256 = 0x21 then m.whlState f.i == 0 || m.on (R.WHL_UNLOCK f.i)
  else if b = 0x2200 then slotStill m f.i || m.on R.LAN_UNLOCK
  else if b = 0x2600 || b = 0x2610 then !m.on R.LAN_RUN || m.on R.LAN_UNLOCK
  else if b = 0x2810 then !m.on (R.VM_ENABLE f.i)
  else if b = 0x2900 then m.axState f.i == 0 || m.on (R.AX_UNLOCK f.i)
  else if b = 0x2980 then !m.on (R.OCU_ENABLE f.i) || m.on (R.OCU_UNLOCK f.i)
  else if b = 0x3000 then !m.chEn f.i || m.on (R.CH_UNLOCK f.i)
  else if b = 0x3180 then !m.on (R.MOV_RUN f.i)
  else if b / 256 = 0x34 then (m.octet f.i).st == 0 || m.on (R.PWM_UNLOCK f.i)
  else if b = 0x3500 then (m.octet f.i).st == 0 || m.on (R.PWM_UNLOCK f.i)
  else if b = 0x3880 then
    if f.row.sub = 8 || f.row.sub = 9 then m.ctxState f.i == 0
    else m.ctxState f.i != 1 || m.on (R.CTX_UNLOCK f.i)
  else if b = 0x1400 then !m.on (R.NET_PORT_EN f.i)
  else if b / 256 = 0x16 then !m.on (R.CAN_EN f.i)
  else if b / 256 = 0x14 || b / 256 = 0x15 || b / 256 = 0x17 then !m.on R.NET_RUN || m.on R.NET_UNLOCK
  else true

/-- The RWS condition of a write of a value, which a change of LINK under a running timer does not reach (R99). -/
def stillFor (m : Mach) (f : Found) (v : Nat) : Bool :=
  f.row.acc != .rws || rwsOk m f || (f.row.id == 0x201001 && gtLinkBar m f.i v)

/-! ## Ranges that read other state (check 14) -/

def only (mask v : Nat) : Bool := v &&& mask == v

def chanOrFF (v : Nat) : Bool := decide (v < 128) || v == 0xFF

/-- SAF_REACT: only bits 10, 15, 17 and 18 may be 0, and bits 22 to 31 are 0 (R489). -/
def safReactOk (v : Nat) : Bool := only 0x3FFFFF v && (v ||| 0x68400 == 0x3FFFFF)

/-- The start of a watchdog's range (R492, R520). -/
def wdMaxOk (m : Mach) (mn warn : Obj) (v : Nat) : Bool :=
  decide (10 ≤ v) && decide (v ≤ 1000000) && decide (m.rd mn < v) && decide (m.rd warn < v)

/-- PWM_CFG: BRIDGE and CENTRE change only in STOPPED, and no KEEPRUN channel stands on a bridge (R293, R310). -/
def pwmCfgOk (m : Mach) (o v : Nat) : Bool :=
  only 7 v &&
  ((m.octet o).st == 0 || bits 1 0 v == bits 1 0 (m.rd (R.PWM_CFG o))) &&
  (!bit 0 v || (List.range 8).all (fun t => m.rd (R.TRP_KEEPRUN t) / 8 != o))

/-- TRP_KEEPRUN: no channel twice, none on a bridge octet (R310). -/
def keeprunOk (m : Mach) (t v : Nat) : Bool :=
  v == 0xFF ||
  (decide (v < 128) && !m.pwmBridge (v / 8) &&
    (List.range 8).all (fun u => u == t || m.rd (R.TRP_KEEPRUN u) != v))

/-- AX_MASTER (R189). -/
def axMasterOk (a v : Nat) : Bool :=
  let k := bits 15 12 v
  let n := bits 6 0 v
  bits 11 7 v == 0 && decide (k ≤ 4) &&
  (if k = 1 then decide (n < 16) else if k = 2 then decide (n < 8) else if k = 3 then decide (n < 32)
   else if k = 4 then n != a else true)

/-- CH_SD_CFG (R254). -/
def sdCfgOk (v : Nat) : Bool :=
  only 0xF0FFFF9F v &&
  (if bit 31 v then
     bit 30 v || ((decide (bits 23 16 v < 16) || bits 23 16 v == 0xFF) && decide (16 ≤ bits 15 10 v))
   else decide (bits 9 7 v ≤ 5))

/-- The range of an object whose row names a rule. Rules that belong to a command's own effect are asked there. -/
def relOk (m : Mach) (f : Found) (v : Nat) : Rel → Bool
  | .align32 => v % 32 == 0
  | .axCfg => only 0x3FFF v && axCfgOk m f.i v
  | .axMaster => axMasterOk f.i v
  | .belSrc => only 0xFF001F3F v && decide (bits 26 24 v ≤ 4)
  | .chInCfg => only 0xFFFF000B v && bits 1 0 v != 3
  | .chMode => decide (v < 10) || (v == 10 && decide (f.i < 32))
  | .chPfCfg => only 0xFFFFFF03 v && bits 31 16 v != 0 && bits 15 8 v != 0
  | .chPinCfg => only 0xFD v && bits 5 4 v != 3 && bits 3 2 v != 3
  | .chPtCfg => !bit 23 v && decide (4 ≤ bits 15 8 v) && decide (4 ≤ bits 7 0 v)
  | .chSdCfg => sdCfgOk v
  | .chanOrNone => chanOrFF v
  | .ctxCfg => only 0xF8FCFFC0 v && bits 23 22 v != 3
  | .ctxPins => (List.range 4).all (fun i => chanOrFF (bits (8 * i + 7) (8 * i) v))
  | .dtMax => decide (m.rd (R.PWM_DT_MIN f.i f.j) ≤ v)
  | .evtPolicy => only 0xFF3F v && bits 15 8 v != 0 && bits 5 4 v != 3
  | .evtRepeat => only 0xFFFF0003 v && bits 31 16 v != 0 && bits 1 0 v != 3
  | .hostReq => v == 0 || v == 3
  | .inrushCost => decide (v ≤ m.rd R.PWR_INRUSH_MAX)
  | .keeprun => keeprunOk m f.t v
  | .ocuBind => only 0xFF1F007F v && chanOrFF (bits 31 24 v)
  | .ocuGate => decide (m.rd (R.OCU_WIN f.i) ≤ v) && decide (v ≤ 0x7FFFFFFF)
  | .outLead => decide (3000 ≤ v) && decide (v ≤ m.rd R.NET_CYCLE)
  | .pairOvr => only 3 v && (v == 0 || m.pwmBridge f.i)
  | .planWin => decide (0x4000 ≤ v) && decide (v ≤ 0x40000) &&
      (evtSlots m).all (fun s => !m.on (R.EVT_ENABLE s) || decide (m.rd (R.EVT_LEAD_MAX s) < v * 65536))
  | .plausPartner => v == 0xFF || (decide (v < 16) && v != f.i)
  | .portMode => decide (v ≤ 2) && (decide (f.i ≤ 1) || v == 0)
  | .pwmCfg => pwmCfgOk m f.i v
  | .pwmPeriod => pwmPeriodOk m f.i v
  | .pwmPeriodImm => pwmImmOk m f.i v
  | .quadHyst => decide (2 * v ≤ m.rd (R.WHL_QUAD_DIV f.i))
  | .redExpire => decide (m.rd R.RED_TAKEOVER_CYCLES < v)
  | .safReact => safReactOk v
  | .syncLog => decide (-5 ≤ toSigned 16 v) && decide (toSigned 16 v ≤ 0)
  | .trpCfg => only 0xFF030F v && bits 9 8 v != 3 && (bits 9 8 v != 1 || decide (bits 23 16 v < 128)) &&
      (bits 9 8 v != 2 || decide (bits 23 16 v < 16))
  | .txOff => decide (v < m.rd R.NET_CYCLE)
  | .wdMaxF => wdMaxOk m R.SAF_WD_MIN R.SAF_WD_WARN v
  | .wdMaxH => wdMaxOk m R.PWR_H_WD_MIN R.PWR_H_WD_WARN v
  | .wdMinF => decide (v < m.rd R.SAF_WD_MAX)
  | .wdMinH => decide (v < m.rd R.PWR_H_WD_MAX)
  | .whlMode => only 0x1FF1 v && (bit 0 v || bits 7 6 v != 3)
  | .ltStep | .gtCtrl | .gtRun | .fieldReq | .fuseCmd | .inrushMax | .profNext | .pwmChOff | .rearm | .sprRelease
  | .unitStop => true

/-- The range test of an object (R59 check 14); a 1 written to a W1C or W1S bit that does not exist does nothing. -/
def chkOk (m : Mach) (f : Found) (v : Nat) : Bool :=
  if f.row.acc = .w1c ∨ f.row.acc = .w1s then true
  else match f.row.chk with
    | .any => true
    | .bits mask => only mask v
    | .range lo hi => decide (lo ≤ v) && decide (v ≤ hi)
    | .rel r => relOk m f v r

end Sys2Proof.Machine
end

