-- ==== Sys2Proof/Machine/NetMap.lean ====
section
/-! DEFINITION. The cyclic maps (R457, R458) and starting and stopping the line cycle. -/

namespace Sys2Proof.Machine

/-- A used entry of NET_TXMAP or NET_RXMAP. -/
structure MapEnt where
  /-- Its place in the map. -/
  no : Nat
  role : Nat
  chan : Nat
  kind : Nat
  len : Nat
  idx : Nat
  sub : Nat
deriving DecidableEq, Repr

def mapEnt (no v : Nat) : MapEnt :=
  ⟨no, bits 47 40 v, bits 39 32 v, bits 31 28 v, bits 27 24 v, bits 23 8 v, bits 7 0 v⟩

/-- The used entries in map order. -/
def txMap (m : Mach) : List MapEnt :=
  ((List.range 32).map (fun e => mapEnt e (m.rd (R.NET_TXMAP e)))).filter (fun e => e.kind != 0)

def rxMap (m : Mach) : List MapEnt :=
  ((List.range 32).map (fun e => mapEnt e (m.rd (R.NET_RXMAP e)))).filter (fun e => e.kind != 0)

/-- Type, access, M- prefix and retention of a non-DOMAIN object, user objects included. -/
structure ObjInfo where
  ty : Ty
  acc : Acc
  mach : Bool
deriving DecidableEq, Repr

def objInfo (m : Mach) (idx sub : Nat) : Option ObjInfo :=
  match findObj idx sub with
  | some f => some ⟨f.row.ty, f.row.acc, f.row.mach⟩
  | none => (m.user idx sub).map (fun u => ⟨u.ty, u.acc, u.mach⟩)

/-- A VALUE entry names a defined object of at most 8 bytes whose length is LEN. -/
def valueOk (m : Mach) (e : MapEnt) (rx : Bool) : Bool :=
  match objInfo m e.idx e.sub with
  | none => false
  | some i =>
    i.ty.size != 0 && i.ty.size == e.len &&
    (if rx then (i.acc == .rw || i.acc == .wo || i.acc == .w1c || i.acc == .w1s) && !i.mach else i.acc != .wo)

def txEntOk (m : Mach) (e : MapEnt) : Bool :=
  bits 63 40 (m.rd (R.NET_TXMAP e.no)) == 0 &&
  (if e.kind = 1 then e.len == 0 && e.sub == 0 && decide (e.idx < 128) && bit 13 (m.rd (R.AX_CFG e.idx))
   else if e.kind = 2 then e.len == 0 && e.sub == 0 && decide (e.idx < 8)
   else e.kind == 3 && valueOk m e false)

def rxEntOk (m : Mach) (e : MapEnt) : Bool :=
  bits 63 48 (m.rd (R.NET_RXMAP e.no)) == 0 && e.role != 0 &&
  (if e.kind = 1 then e.len == 0 && e.sub == 0 && decide (e.idx < 32) else e.kind == 2 && valueOk m e true)

/-- An unused entry holds no reserved value (R457). -/
def unusedOk (v : Nat) (rx : Bool) : Bool :=
  bits 63 48 v == 0 && bits 27 24 v == 0 && bits 7 0 v == 0 && (rx || bits 47 40 v == 0)

/-- The unused entries of both maps hold no reserved value. -/
def unusedAllOk (m : Mach) : Bool :=
  (List.range 32).all (fun e =>
    (bits 31 28 (m.rd (R.NET_TXMAP e)) != 0 || unusedOk (m.rd (R.NET_TXMAP e)) false) &&
    (bits 31 28 (m.rd (R.NET_RXMAP e)) != 0 || unusedOk (m.rd (R.NET_RXMAP e)) true))

/-- Bytes of an entry's record. -/
def MapEnt.size (e : MapEnt) : Nat := if e.len = 0 then 24 else 4 + e.len

/-- A source or target of the field side: an axis, a virtual master, a network master input or a field-owned object. -/
def MapEnt.field (e : MapEnt) : Bool := e.len == 0 || ownerOf e.idx == .field

/-- Messages needed for records of these sizes, whole records in 52 bytes; `used` bytes stand in the present one. -/
def msgsFor (used : Nat) : List Nat → Nat
  | [] => 0
  | n :: rest => if used + n ≤ 52 then msgsFor (used + n) rest else 1 + msgsFor n rest

/-- NET_RUN = 1 may be accepted (R458). -/
def netRunOk (m : Mach) : Bool :=
  let tx := txMap m
  let rx := rxMap m
  unusedAllOk m &&
  tx.all (fun e => txEntOk m e && tx.all (fun x => x.no == e.no || x.chan != e.chan)) &&
  rx.all (fun e => rxEntOk m e && rx.all (fun x => x.no == e.no || x.chan != e.chan || x.role != e.role)) &&
  decide (1 + msgsFor 8 ((tx.filter (·.field)).map (·.size)) ≤ 6) &&
  decide (1 + msgsFor 0 ((rx.filter (·.field)).map (·.size)) ≤ 6) &&
  m.rd R.NET_NODE != 0 && m.rd R.RED_ROLE != 0 && (m.rd R.NET_ENCAP != 1 || m.rd R.NET_IPV4 != 0)

/-- NET_RUN_ON: partners wait, and a mirror-pair member listens (R462, R467). -/
def netRunOnEffect (m : Mach) : Eff :=
  if !netRunOk m then .error .range
  else if m.on R.NET_RUN then .ok m
  else
    let m1 := updNet (fun n => { n with
      sets := [], lastSet := [],
      cycles := [], heard := [], redHeard := false, redCnt := 0 }) (m.wr R.NET_RUN 1)
    let m2 := m1.each (List.range 16) (fun p m =>
      ((m.wr (R.NET_PTN_STATE p) (if m.rd (R.NET_PTN_NODE p) = 0 then 0 else 1)).wr (R.NET_PTN_MISSED p) 0))
    .ok (if m2.on R.RED_EN then redEnter 1 m2 else m2)

/-- NET_RUN_OFF. -/
def netRunOffEffect (m : Mach) : Mach :=
  let m1 := if m.rd R.RED_STATE = 0 then m.wr R.RED_EPOCH 0 else redOff m
  (m1.wr R.NET_RUN 0).each (List.range 16) (fun p m =>
    ((m.wr (R.NET_PTN_STATE p) 0).wr (R.NET_PTN_MISSED p) 0))

/-- NET_PTN_NODE: while the network runs, a newly named partner waits and one no longer named is unused (R462). -/
def ptnNodeEffect (p v : Nat) (m : Mach) : Mach :=
  let m1 := m.wr (R.NET_PTN_NODE p) v
  if m.on R.NET_RUN ∧ v ≠ m.rd (R.NET_PTN_NODE p) then
    (m1.wr (R.NET_PTN_STATE p) (if v = 0 then 0 else 1)).wr (R.NET_PTN_MISSED p) 0
  else m1

/-- NET_RUN as a written value. -/
def netRunEffect (v : Nat) (m : Mach) : Eff := if v % 2 = 1 then netRunOnEffect m else .ok (netRunOffEffect m)

/-! ## CAN controllers: enabling (R470, R471) -/

def Mach.can (m : Mach) (k : Nat) : Can := mapGet {} k m.cans
def Mach.setCan (k : Nat) (x : Can) (m : Mach) : Mach := { m with cans := mapSet {} k x m.cans }
def Mach.updCan (k : Nat) (f : Can → Can) (m : Mach) : Mach := m.setCan k (f (m.can k))

def nmtState (m : Mach) (k : Nat) : Nat := m.rd (R.CAN_NMT_STATE k)

/-- The controller takes part in bus traffic. -/
def canOn (m : Mach) (k : Nat) : Bool := m.on (R.CAN_EN k) && decide (m.rd (R.CAN_BUS_STATE k) < 2) && !m.hostOff

/-- CAN_BUS_STATE follows the error counters (ISO 11898-1, PRESUMED, log 32). -/
def canBusState (k : Nat) (m : Mach) : Mach :=
  let c := m.can k
  let st := if 255 < c.tec then 2 else if 127 < c.tec ∨ 127 < c.rec_ then 1 else 0
  m.wr (R.CAN_BUS_STATE k) st

/-- The nominal bit rate in kbit/s (R470, R476). -/
def canRate (m : Mach) (k : Nat) : Nat := [125, 250, 500, 1000].getD (m.rd (R.CAN_BITRATE k)) 0

/-- The data bit rate of FD frames in kbit/s; 0 where the controller sends and takes classical frames only. -/
def canDataRate (m : Mach) (k : Nat) : Nat := [0, 1000, 2000, 4000, 5000].getD (m.rd (R.CAN_DATA_RATE k)) 0

/-- The lengths above 8 bytes that an FD frame's DLC can give (ISO 11898-1). -/
def fdLens : List Nat := [12, 16, 20, 24, 32, 48, 64]

/-- A frame of this length can be on the controller's bus: classical up to 8 bytes, else FD. -/
def canLenOk (m : Mach) (k n : Nat) : Bool := decide (n ≤ 8) || (canDataRate m k != 0 && fdLens.contains n)

/-- A frame on the line: 0, the bit rate and the identifier for a classical one; 1, both bit rates and the identifier for an FD one with
bit-rate switching; then the data, filled with zeros to the next length of an FD frame. That data of at most 8 bytes goes in a classical
frame, and what fills an FD frame, is the model's choice (log 32). -/
def canWire (m : Mach) (k id : Nat) (d : List Byte) : List Nat :=
  if d.length ≤ 8 then [0, canRate m k, id] ++ d.map (·.toNat)
  else
    [1, canRate m k, canDataRate m k, id] ++ d.map (·.toNat) ++
      List.replicate ((fdLens.find? (fun n => decide (d.length ≤ n))).getD d.length - d.length) 0

/-- A frame goes out on a bus the controller is on: identifier and data bytes. -/
def canTx (k id : Nat) (d : List Byte) (m : Mach) : Mach :=
  if canOn m k then
    let m1 := m.updCan k (fun c => { c with tec := c.tec - 1 })
    canBusState k ((m1.send (.can k) (canWire m k id d)).assertSrc (401 + 4 * k))
  else m

/-! ## PDO maps (R474) -/

/-- The JX8128 index an SDO index reaches (R472). -/
def jxIndex (idx : Nat) : Option Nat :=
  if 0x2000 ≤ idx ∧ idx ≤ 0x7FFF then some idx
  else if 0xA000 ≤ idx ∧ idx ≤ 0xAFFF then some (idx - 0x9000)
  else none

def mapNObj (k : Nat) (rx : Bool) (j : Nat) : Obj := if rx then R.CAN_RPDO_MAP_N k j else R.CAN_TPDO_MAP_N k j
def mapObj (k : Nat) (rx : Bool) (j t : Nat) : Obj := if rx then R.CAN_RPDO_MAP k j t else R.CAN_TPDO_MAP k j t

/-- A PDO mapping entry: the JX8128 object and its length in bytes. -/
def pdoEntry (v : Nat) : Option (Nat × Nat × Nat) :=
  match jxIndex (bits 31 16 v) with
  | some i => if bits 7 0 v % 8 = 0 then some (i, bits 15 8 v, bits 7 0 v / 8) else none
  | none => none

/-- An entry may be mapped: the rules of a VALUE entry (R458, R474). -/
def pdoEntryOk (m : Mach) (rx : Bool) (v : Nat) : Bool :=
  match pdoEntry v with
  | some (i, s, n) => valueOk m ⟨0, 0, 0, 0, n, i, s⟩ rx
  | none => false

/-- The first entries of a PDO map. -/
def pdoEntries (m : Mach) (k : Nat) (rx : Bool) (j n : Nat) : List Nat := (List.range n).map (fun t => m.rd (mapObj k rx j t))

def pdoBytes (l : List Nat) : Nat := l.foldl (fun a v => a + bits 7 0 v / 8) 0

/-- The bytes a frame carries: 8 where the controller sends classical frames only. -/
def pdoMax (m : Mach) (k : Nat) : Nat := if m.rd (R.CAN_DATA_RATE k) = 0 then 8 else 64

/-- A transmission type that R474 supports. -/
def pdoTypeOk (v : Nat) : Bool := decide (v ≤ 240) || v == 254 || v == 255

/-- What R474 refuses of a new number of entries, with its SDO code: a change while the COB-ID is valid, more than fits, an object that
must not be mapped. -/
def mapNBar (k : Nat) (rx : Bool) (j v : Nat) (m : Mach) : Option Nat :=
  let l := pdoEntries m k rx j v
  if !bit 31 (pdoCobId m rx k j) then some 0x06040043
  else if 16 < v ∨ pdoMax m k < pdoBytes l then some 0x06040042
  else if !l.all (pdoEntryOk m rx) then some 0x06040041
  else none

/-- What R474 refuses of a new entry. -/
def mapEntryBar (k : Nat) (rx : Bool) (j v : Nat) (m : Mach) : Option Nat :=
  if !bit 31 (pdoCobId m rx k j) then some 0x06040043
  else if v ≠ 0 ∧ !pdoEntryOk m rx v then some 0x06040041
  else none

/-- What the dictionary answers where an SDO client gets R474's code: unit running for a valid COB-ID, else range (DESIGN CHOICE,
log 33). -/
def mapAbort (code : Nat) : Abort := if code = 0x06040043 then .running else .range

/-- A write of a PDO's map or transmission type in the dictionary. -/
def pdoPut (bar : Option Nat) (o : Obj) (v : Nat) (m : Mach) : Eff :=
  match bar with
  | some code => .error (mapAbort code)
  | none => .ok (m.wr o v)

/-- A good frame has arrived; a receive error counter above 127 returns to some value from 119 to 127. -/
def canRx (k : Nat) (m : Mach) : Mach :=
  let high := decide (127 < (m.can k).rec_)
  let m1 := if high then m.free.2 else m
  let m2 := m1.updCan k (fun c => { c with rec_ := if high then 119 + m.free.1 % 9 else c.rec_ - 1 })
  canBusState k (m2.assertSrc (400 + 4 * k))

/-- The boot-up message, and PRE-OPERATIONAL after it. -/
def canBootUp (k : Nat) (m : Mach) : Mach :=
  (canTx k (0x700 + m.rd (R.CAN_NODE_ID k)) [0] (m.wr (R.CAN_NMT_STATE k) 0)).wr (R.CAN_NMT_STATE k) 127

/-- CAN_EN as a written value. -/
def canEnEffect (k v : Nat) (m : Mach) : Mach :=
  if v % 2 = 1 then
    if m.on (R.CAN_EN k) then m
    else canBootUp k (((m.setCan k {}).wr (R.CAN_EN k) 1).wr (R.CAN_BUS_STATE k) 0)
  else (((m.setCan k {}).wr (R.CAN_EN k) 0).wr (R.CAN_BUS_STATE k) 3).wr (R.CAN_NMT_STATE k) 0

def canCounters (k : Nat) : List Obj :=
  [R.CAN_CNT_SDO_ABORT k, R.CAN_CNT_PDO_RX k, R.CAN_CNT_PDO_TX k, R.CAN_CNT_OVERRUN k]

end Sys2Proof.Machine
end

