-- ==== Sys2Proof/Machine/Persist.lean ====
section
/-! DEFINITION. Persistence (R25, R69 to R73): the parameter images, STORE, RELOAD and FACTORY, and the host-owned K values
that cross the barrier. The spec gives no layout for the block of host values; the model's own is a length and one entry
per value (log 30). What the two sides tell each other of a command travels in the same messages, at an offset that no block
has (R22, log 52). -/

namespace Sys2Proof.Machine

/-! ## The K values -/

/-- A K value that a parameter image holds: not the constants of manufacture, nor what the header or the log holds. -/
def persisted (m : Mach) (key : Nat) : Bool :=
  !heldElsewhere key && !headHeld key &&
  (match findObj (key / 256) (key % 256) with
   | some f => f.row.ret == .k && f.row.acc != .ro
   | none => match m.user (key / 256) (key % 256) with
     | some u => u.ret == .k
     | none => false)

def keyOn (s : Side) (key : Nat) : Bool := ownerOf (key / 256) == s

/-- The present K values of a side. -/
def kVals (m : Mach) (s : Side) : List (Nat × Nat) := m.regs.filter (fun e => keyOn s e.1 && persisted m e.1)

def kStrs (m : Mach) (s : Side) : List (Nat × List Byte) := m.dic.strs.filter (fun e => keyOn s e.1 && persisted m e.1)

/-- The block of host values: its length and a head, then kind, key and value of each. -/
def packVal (e : Nat × Nat) : List Byte := [0] ++ toLe 3 e.1 ++ toLe 8 e.2

def packStr (e : Nat × List Byte) : List Byte := [1] ++ toLe 3 e.1 ++ toLe 1 e.2.length ++ e.2

def packBlock (head : List Byte) (vals : List (Nat × Nat)) (strs : List (Nat × List Byte)) : List Byte :=
  let b := head ++ vals.flatMap packVal ++ strs.flatMap packStr
  toLe 4 (b.length + 4) ++ b

/-- A block has all its bytes. -/
def blockWhole (l : List Byte) : Bool := decide (4 ≤ l.length) && decide (fieldAt 0 4 l ≤ l.length)

def unpackBlock : Nat → List Byte → List (Nat × Nat) × List (Nat × List Byte)
  | 0, _ => ([], [])
  | n + 1, l =>
    if l.length < 5 then ([], [])
    else if fieldAt 0 1 l = 0 then
      let r := unpackBlock n (l.drop 12)
      ((fieldAt 1 3 l, fieldAt 4 8 l) :: r.1, r.2)
    else
      let k := fieldAt 4 1 l
      let r := unpackBlock n (l.drop (5 + k))
      (r.1, (fieldAt 1 3 l, (l.drop 5).take k) :: r.2)

/-- A block cut into the pieces messages carry: offset and up to 52 bytes (R423). -/
def blockPieces : Nat → Nat → List Byte → List (List Byte)
  | 0, _, _ => []
  | n + 1, off, l => if l.isEmpty then [] else (toLe 4 off ++ l.take 52) :: blockPieces n (off + 52) (l.drop 52)

def queueBlock (s : Side) (typ : Nat) (l : List Byte) (m : Mach) : Mach :=
  m.each (blockPieces (l.length / 52 + 1) 0 l) (fun p m => linkQueue s typ p m)

/-- The head of a PERS_RESTORE block: the newest bank, and the store count and length that the image's header keeps (R79). -/
def restoreHead (bankB : Bool) (count bytes : Nat) : List Byte := toLe 1 (boolNat bankB) ++ toLe 4 count ++ toLe 4 bytes

/-- The field end's PERS_RESTORE messages at LINKED entry (R439). -/
def sendRestore (m : Mach) : Mach :=
  match m.image with
  | some i => queueBlock .field 14 (packBlock (restoreHead m.dic.newestB i.count i.bytes)
      (i.vals.filter (fun e => keyOn .host e.1)) (i.strs.filter (fun e => keyOn .host e.1))) m
  | none => queueBlock .field 14 (packBlock (restoreHead false 0 0) [] []) m

/-! ## What the sides tell each other of a command -/

/-- The offset that marks a notice instead of a piece of the block. -/
def noticeOff : Nat := 0xFFFFFFFF

/-- A notice to the other side. -/
def notice (s : Side) (l : List Byte) (m : Mach) : Mach :=
  linkQueue s (match s with | .host => 15 | .field => 14) (toLe 4 noticeOff ++ l) m

/-- The host's commands: 1 RELOAD, 2 FACTORY, 3 FACTORY with machine authority. The field's answers: 0 a STORE or FACTORY is done, with
what the header of the newest image holds; 1 a unit of the field bars the RELOAD. -/
def noticeDone (m : Mach) : List Byte :=
  [0] ++ (match m.image with
    | some i => restoreHead m.dic.newestB i.count i.bytes
    | none => restoreHead false 0 0)

/-- Host values take the place of the present ones: those of the tables and of declared user objects at once, those of other
user objects at their declaration (R49). -/
def restoreApply (vals : List (Nat × Nat)) (strs : List (Nat × List Byte)) (m : Mach) : Mach :=
  let here (k : Nat) : Bool := storedOf .host k || (keyOn .host k && (m.user (k / 256) (k % 256)).isSome)
  let later (k : Nat) : Bool := keyOn .host k && !storedOf .host k
  let m1 := { m with
    regs := m.regs.filter (fun e => !(keyOn .host e.1 && persisted m e.1))
    dic := { m.dic with strs := m.dic.strs.filter (fun e => !(keyOn .host e.1 && persisted m e.1)) }
    bar := { m.bar with
      userVals := vals.filter (fun e => later e.1)
      userStrs := strs.filter (fun e => later e.1) } }
  restoreStrs (strs.filter (fun e => here e.1)) (restoreVals (vals.filter (fun e => here e.1)) m1)

/-- PERS_RESTORE's content at the host: with the last byte the values and what the image's header holds take effect, once after
each host reset (R25) and again at a RELOAD (R73), which ends with them. -/
def restoreContent (p : List Byte) (m : Mach) : Mach :=
  if m.bar.kReady && !m.bar.reload then m
  else
    let got := if fieldAt 0 4 p = m.bar.restored.length then m.bar.restored ++ p.drop 4 else m.bar.restored
    let m1 := { m with bar := { m.bar with restored := got } }
    if blockWhole got then
      let b := unpackBlock got.length (got.drop 13)
      let m2 := restoreApply b.1 b.2 m1
      let m3 := ((m2.putBit R.DIC_PERS_STATUS 3 (bit 0 (fieldAt 4 1 got))).wr R.DIC_STORE_COUNT (fieldAt 5 4 got)).wr
        R.DIC_STORED_BYTES (fieldAt 9 4 got)
      let m4 := { m3 with bar := { m3.bar with kReady := true, reload := false, restored := [] } }
      if m.bar.reload then (m4.putBit R.DIC_PERS_STATUS 0 false).assertSrc 418 else m4
    else m1

/-! ## The commands (R70 to R73) -/

def persBusy (m : Mach) : Bool := bit 0 (m.rd R.DIC_PERS_STATUS)

def imageSeq : Option Image → Nat
  | some i => i.seq
  | none => 0

/-- A command runs from now on. -/
def persBegin (m : Mach) : Mach := { m with dic := { m.dic with storeAt := m.tb.sclk } }.putBit R.DIC_PERS_STATUS 0 true

/-- STORE accepted by the host: its values are captured and go to the die, headed by the count of stores (R79). -/
def storeStart (m : Mach) : Mach :=
  queueBlock .host 15 (packBlock (toLe 4 (m.rd R.DIC_STORE_COUNT)) (kVals m .host) (kStrs m .host)) (persBegin m)

/-- DIC_STORE. One that the link cannot carry is refused as a store that failed; whether FAILED counts it is open, and it is left as it
was (DESIGN CHOICE, log 52). -/
def storeEffect (v : Nat) (m : Mach) : Eff :=
  if v ≠ 0x726F7473 then .error .range
  else if persBusy m then .error .busy
  else if !m.linked .host then .error .store
  else .ok (storeStart m)

/-- STORE accepted by the field, which the first PERS_STORE tells it: its values are captured (R71). -/
def storeCapture (m : Mach) : Mach :=
  let seq := max (imageSeq m.dic.bankA) (imageSeq m.dic.bankB) + 1
  { m with
    dic := { m.dic with storing := some {
      seq := seq, vals := kVals m .field, strs := kStrs m .field, key := m.saf.key } }
    bar := { m.bar with persIn := [] } }

/-- A piece of the host's block at the field end. -/
def storePiece (p : List Byte) (m0 : Mach) : Mach :=
  let m := if fieldAt 0 4 p = 0 then storeCapture m0 else m0
  if fieldAt 0 4 p = m.bar.persIn.length then { m with bar := { m.bar with persIn := m.bar.persIn ++ p.drop 4 } } else m

/-- The field end gives up a store under way. -/
def storeDrop (m : Mach) : Mach :=
  if m.dic.storing.isSome then
    { m with dic := { m.dic with storing := none }, bar := { m.bar with persIn := [] } }.assertSrc 374
  else m

/-- The bank that does not hold the newest image takes a new one, whose length the spec does not give (log 31). -/
def bankWrite (i : Image) (m : Mach) : Mach :=
  let toB := !m.dic.newestB && m.dic.bankA.isSome
  let j := { i with bytes := m.free.1 % 2 ^ 32 }
  let d := if toB then { m.dic with bankB := some j, newestB := true } else { m.dic with bankA := some j, newestB := false }
  { m.free.2 with dic := d }.assertSrc 374

/-- The image that a store under way writes: the field's values and the host's, and one store more than the header of the newest image
or the host has counted (R79). -/
def storeImage (old : Option Image) (i : Image) (l : List Byte) : Image :=
  let b := unpackBlock l.length (l.drop 8)
  { i with
    count := max ((old.map (fun i => i.count)).getD 0) (fieldAt 4 4 l) + 1
    vals := (i.vals ++ b.1).foldl (fun l e => mapPut e.1 e.2 l) []
    strs := (i.strs ++ b.2).foldl (fun l e => mapPut e.1 e.2 l) [] }

/-- The header is written: the image is the newest, and the host is told (log 52). -/
def storeWritten (i : Image) (m : Mach) : Mach :=
  let m1 := bankWrite (storeImage m.image i m.bar.persIn)
    { m with dic := { m.dic with storing := none }, bar := { m.bar with persIn := [] } }
  notice .field (noticeDone m1) m1

/-- A unit of a side that owns an RWS object of class K runs: a decoder or a channel; a port, the line cycle or a CAN controller
(R73). -/
def kUnitRuns (m : Mach) : Side → Bool
  | .field => (List.range 16).any (fun d => m.whlState d != 0) || (List.range 128).any (fun c => m.chEn c)
  | .host => (List.range 4).any (fun p => m.on (R.NET_PORT_EN p)) || m.on R.NET_RUN || (List.range 2).any (fun k => m.on (R.CAN_EN k))

/-- A RELOAD that changed LT_SERVO_MODE acts as a write of it does: a new reference point, and LOCKED clears away from HW (R91,
R92). -/
def reloadServo (old : Nat) (m : Mach) : Mach :=
  if m.rd R.LT_SERVO_MODE = old then m
  else
    let m1 := { m with tb := { m.tb with ref := m.now } }
    if m.rd R.LT_SERVO_MODE = 1 then m1 else servoUnlock m1

/-- RELOAD at the field: its K values take their stored values, their defaults where no image is valid, and the host's go back as
PERS_RESTORE messages; while a unit of the field bars it, it is refused and changes nothing. -/
def reloadField (m : Mach) : Mach :=
  if kUnitRuns m .field then notice .field [1] m
  else
    let mine (k : Nat) : Bool := keyOn .field k && persisted m k
    let m1 := { m with
      regs := m.regs.filter (fun e => !mine e.1)
      dic := { m.dic with strs := m.dic.strs.filter (fun e => !mine e.1) } }
    let m2 := match m.image with
      | none => m1
      | some i => restoreStrs (i.strs.filter (fun e => mine e.1)) (restoreVals (i.vals.filter (fun e => mine e.1)) m1)
    sendRestore (reloadServo (m.rd R.LT_SERVO_MODE) m2)

/-- The field end can take a command: LINKED, and Keep not halted as far as LINK tells (R437). -/
def persReach (m : Mach) : Bool := m.linked .host && !m.bar.peerHalted

/-- DIC_RELOAD: the field is told, and the command ends with the host's values, which come as PERS_RESTORE messages (log 52). -/
def reloadEffect (v : Nat) (m : Mach) : Eff :=
  if v ≠ 0x646F6C72 then .error .range
  else if persBusy m then .error .busy
  else if !persReach m then .error .notReady
  else if kUnitRuns m .host then .error .running
  else .ok (notice .host [1] (persBegin { m with bar := { m.bar with reload := true, restored := [] } }))

/-- A RELOAD or FACTORY under way ends without the field's answer, the host's values as they were. -/
def persDrop (m : Mach) : Mach :=
  if m.bar.reload || m.bar.factory then
    ({ m with bar := { m.bar with reload := false, factory := false, restored := [] } }.putBit R.DIC_PERS_STATUS 0 false).assertSrc 418
  else m

/-- FACTORY at the field: both images are invalid; without machine authority a fresh one keeps the stored safety values (R73, R393). -/
def factoryField (auth : Bool) (m : Mach) : Mach :=
  let gone := { m with dic := { m.dic with bankA := none, bankB := none, newestB := false } }
  let m1 := match m.image with
    | some i =>
      if auth then gone
      else
        let safety (k : Nat) : Bool := decide (0x190000 ≤ k) && decide (k ≤ 0x19FFFF)
        bankWrite { i with
          seq := i.seq + 1
          vals := i.vals.filter (fun e => safety e.1)
          strs := i.strs.filter (fun e => safety e.1) } gone
    | none => gone
  notice .field (noticeDone m1) m1

/-- DIC_FACTORY: the field is told, with the machine authority of the writer. -/
def factoryEffect (w : Writer) (v : Nat) (m : Mach) : Eff :=
  if v ≠ 0x74636166 then .error .range
  else if persBusy m then .error .busy
  else if !persReach m then .error .notReady
  else .ok (notice .host [if authority m w .host then 3 else 2] (persBegin { m with bar := { m.bar with factory := true } }))

/-- PERS_STORE's content at the field end; in a Keep debug halt it is discarded and counted (R438). -/
def persStoreContent (p : List Byte) (m : Mach) : Mach :=
  if m.keepHalted then m.inc R.BAR_F_CNT_HALT_DROP
  else if fieldAt 0 4 p ≠ noticeOff then storePiece p m
  else if fieldAt 4 1 p = 1 then reloadField m
  else factoryField (fieldAt 4 1 p == 3) m

/-- DIC_ROUTE_EN: a write that closes the route it came on is refused (R79). -/
def routeEnEffect (w : Writer) (v : Nat) (m : Mach) : Eff :=
  if !only 0x3F v then .error .range
  else
    let own := match w with
      | .dict r _ => some r
      | .pcie => some .pcie
      | _ => none
    if own.any (fun r => !fromSpire r && !bit (routeBit r) v) then .error .range else .ok (m.wr R.DIC_ROUTE_EN v)

/-! ## User objects (R49) -/

def tyOf (n : Nat) : Ty := [Ty.bool, .u8, .u16, .u32, .u64, .i16, .i32, .i64, .str, .dom].getD n .u32

def accOf (n : Nat) : Acc := [Acc.ro, .rw, .wo, .rws, .w1c, .w1s].getD n .ro

def retOf (n : Nat) : Ret := [Ret.k, .w, .s, .v, .r].getD n .v

/-- A 64-bit object takes two subindices of the register view, which no other object uses (R11). -/
def userClash (m : Mach) (u : User) : Bool :=
  m.dic.users.any (fun x => x.idx == u.idx &&
    (x.sub == u.sub || (u.ty.wide && x.sub == u.sub + 1) || (x.ty.wide && x.sub + 1 == u.sub))) ||
  (u.ty.wide && u.sub == 255)

/-- USER_OBJECT_DECLARE: the owning core's firmware defines an object; on the host side either Spire core may, for the spec does not say
which of the two owns it (DESIGN CHOICE, log 52). One of class K takes its stored value, which for a host-owned
object came with the restore (R25). A declaration that meets another object's words changes nothing; nor does one of type DOMAIN,
for which R68 has no home (log 52). -/
def userDeclareEffect (u : User) (m : Mach) : Mach :=
  if u.idx < 0x6000 ∨ 0x7FFF < u.idx ∨ userClash m u ∨ u.ty = .dom then m
  else
    let cores := if ownerOf u.idx = .field then [2] else [0, 1]
    if cores.all (fun i => (m.core i).held || (m.core i).halted) then m
    else
      let key := u.idx * 256 + u.sub
      let m1 := { m with dic := { m.dic with users := m.dic.users ++ [u] } }
      if u.ret ≠ .k then m1
      else if ownerOf u.idx = .host then
        restoreStrs (m.bar.userStrs.filter (fun e => e.1 == key)) (restoreVals (m.bar.userVals.filter (fun e => e.1 == key)) m1)
      else
        match m.image with
        | some i => restoreStrs (i.strs.filter (fun e => e.1 == key)) (restoreVals (i.vals.filter (fun e => e.1 == key)) m1)
        | none => m1

end Sys2Proof.Machine
end

