-- ==== Sys2Proof/Machine/ObjWrite.lean ====
section
/-! DEFINITION. What a write of a value to an object does, object by object, for every writer and every route: the commands
that have a row of their own do the same through the table here. -/

namespace Sys2Proof.Machine

/-! ## Commands given as numbers -/

/-- EVT_CMD (R173). -/
def evtClearEffect (s : Nat) (m : Mach) : Mach := if (m.evt s).st = 0 then m else m.each (evtCounters s) (fun o m => m.clr o)

def evtCmdEffect (s v : Nat) (m : Mach) : Mach :=
  if v = 1 then evtCmdArm s m else if v = 2 then evtCmdCancel s m else if v = 3 then evtCmdCut s m else evtClearEffect s m

/-- AX_CMD (R208, R221). -/
def axCmdEffect (a v : Nat) (m : Mach) : Mach := if v = 1 then axResumeEffect a m else axClearEffect a m

/-- MOV_CMD (R263). -/
def movClearEffect (n : Nat) (m : Mach) : Mach := m.each (movCounters n) (fun o m => m.clr o)

def movCmdEffect (n v : Nat) (m : Mach) : Mach := if v = 1 then movCmdTrigger n m else movClearEffect n m

/-- MOV_RUN (R262). -/
def movRunOnEffect (n : Nat) (m : Mach) : Mach :=
  if m.inHold || m.pwr.fSleep then m.wr (R.MOV_RUN n) 1 else movStart n m

def movRunOffEffect (n : Nat) (m : Mach) : Mach := movStop n (m.wr (R.MOV_RUN n) 0)

/-- TRP_CMD (R305, R317). -/
def trpClearEffect (o : Nat) (m : Mach) : Mach := m.each (trpCounters o) (fun x m => m.clr x)

def trpCmdEffect (o v : Nat) (m : Mach) : Mach := if v = 1 then trpLatch o m else trpClearEffect o m

/-- CTX_CMD (R349, R354). -/
def ctxClearEffect (x : Nat) (m : Mach) : Mach := m.each (ctxCounters x) (fun o m => m.clr o)

def ctxCmdEffect (x v : Nat) (m : Mach) : Mach := if v = 1 then ctxRelease x m else ctxClearEffect x m

/-- BAR_H_CMD and BAR_F_CMD (R441). -/
def barClearEffect (s : Side) (m : Mach) : Mach := m.each (barCounters s) (fun o m => m.clr o)

def barCmdEffect (s : Side) (v : Nat) (m : Mach) : Mach :=
  if v = 1 then barEchoEffect s m else if v = 2 then barClearEffect s m else calStartEffect m

/-- SPR_RELEASE (R391): Spire1 leaves RESTART. -/
def sprReleaseEffect (n v : Nat) (m : Mach) : Eff :=
  if n = 0 then .error .range
  else
    let m1 := m.wr (R.SPR_RELEASE n) (v % 2)
    .ok (if v % 2 = 1 then m1.updCore n (fun c => { c with held := false }) else m1)

/-- The counters of a core that a CNT_CLR write names (R391). -/
def sprCounters (n : Nat) : List Obj :=
  [R.SPR_CNT_ESC n, R.SPR_CNT_DOUBLE n, R.SPR_CNT_ECC_CORR n, R.SPR_CNT_ECC_FATAL n]

def keepCounters : List Obj :=
  [R.KEEP_CNT_ESC, R.KEEP_CNT_DOUBLE, R.KEEP_CNT_ECC_CORR, R.KEEP_CNT_ECC_FATAL, R.KEEP_CNT_LS]

def redCounters : List Obj := [R.RED_CNT_TAKEOVER, R.RED_CNT_FENCE]

/-- A pair compare sets both timers' compares in one tick (R98). -/
def gtPairEffect (k : Nat) (second : Bool) (v : Nat) (m : Mach) : Mach :=
  if second then (m.wr (R.GT_CMP1 (2 * k)) (v % 2 ^ 32)).wr (R.GT_CMP1 (2 * k + 1)) (v / 2 ^ 32)
  else (m.wr (R.GT_CMP0 (2 * k)) (v % 2 ^ 32)).wr (R.GT_CMP0 (2 * k + 1)) (v / 2 ^ 32)

/-- PWM_CNT_CLR, TRP_REARM_RB and the queue commands of a channel and a context act only on a 1. -/
def whenSet (v : Nat) (f : Mach → Mach) (m : Mach) : Mach := if v % 2 = 1 then f m else m

/-! ## The table -/

/-- A write's effect: writer, object found, value. -/
abbrev WEff := Writer → Found → Nat → Mach → Eff

def plain (f : Nat → Nat → Mach → Mach) : WEff := fun _ x v m => .ok (f x.i v m)

def onOff (on : Nat → Mach → Eff) (off : Nat → Mach → Mach) : WEff :=
  fun _ x v m => if v % 2 = 1 then on x.i m else .ok (off x.i m)

def effectsHost : List (Nat × WEff) := [
  (0x180001, fun _ _ v m => storeEffect v m),
  (0x180002, fun _ _ v m => reloadEffect v m),
  (0x180003, fun w _ v m => factoryEffect w v m),
  (0x180103, fun w _ v m => routeEnEffect w v m),
  (0x1B0002, fun _ x v m => sprReleaseEffect x.i v m),
  (0x1B000A, plain (fun n v m => Mach.clrBits v (sprCounters n) m)),
  (0x1A0101, fun _ x v m => .ok (belEnSetWord .host x.t v m)),
  (0x1A0201, fun _ x v m => .ok (belEnClrWord .host x.t v m)),
  (0x1A0301, fun _ x v m => .ok (belPendSetWord .host x.t v m)),
  (0x1A0401, fun _ x v m => .ok (belPendClrWord .host x.t v m)),
  (0x1A0007, plain (fun _ v m => Mach.clrBits v (belCounters .host) m)),
  (0x12000D, plain (fun _ v m => barCmdEffect .host v m)),
  (0x140008, plain (fun p v m => Mach.clrBits v (netCounters (.port (Fin.ofNat 4 p))) m)),
  (0x141001, fun _ _ v m => netRunEffect v m),
  (0x14101D, plain (fun _ v m => Mach.clrBits v (netCounters .net) m)),
  (0x141101, plain (fun _ v m => asEnEffect v m)),
  (0x141102, plain (fun _ v m => asDomainEffect v m)),
  (0x141103, plain (fun _ v m => asPrioEffect R.NET_AS_PRIO1 v m)),
  (0x141104, plain (fun _ v m => asPrioEffect R.NET_AS_PRIO2 v m)),
  (0x142001, plain ptnNodeEffect),
  (0x161002, fun _ x v m => pdoPut (if pdoTypeOk v then none else some 0) x.obj v m),
  (0x162002, fun _ x v m => pdoPut (if pdoTypeOk v then none else some 0) x.obj v m),
  (0x161800, fun _ x v m => pdoPut (mapNBar x.i true x.j v m) x.obj v m),
  (0x161801, fun _ x v m => pdoPut (mapEntryBar x.i true x.j v m) x.obj v m),
  (0x162800, fun _ x v m => pdoPut (mapNBar x.i false x.j v m) x.obj v m),
  (0x162801, fun _ x v m => pdoPut (mapEntryBar x.i false x.j v m) x.obj v m),
  (0x141406, plain (fun _ v m => Mach.clrBits v (netCounters .cb) m)),
  (0x160001, plain (fun k v m => canEnEffect k v m)),
  (0x16000E, plain (fun k v m => Mach.clrBits v (canCounters k) m)),
  (0x170001, plain (fun _ v m => redEnEffect v m)),
  (0x170008, fun _ _ v m => redCmdEffect v m),
  (0x17000E, plain (fun _ v m => Mach.clrBits v redCounters m)),
  (0x110002, fun _ _ v m => hostReqEffect v m),
  (0x110003, fun _ _ v m => resetEffect .host v m),
  (0x110104, fun w _ v m => .ok (hostKickEffect w v m)),
  (0x110202, fun _ _ v m => fwCmdEffect v m),
  (0x11020C, fun w _ v m => bootkeyEffect w v m)]

def effectsSide : List (Nat × WEff) := [
  (0x118002, fun _ _ v m => fieldReqEffect v m),
  (0x118003, fun _ _ v m => resetEffect .field v m),
  (0x118103, fun _ _ v m => pwrRearmEffect v m),
  (0x118201, fun _ _ v m => inrushMaxEffect v m),
  (0x118301, fun _ _ v m => unitStopEffect v m),
  (0x128107, plain (fun _ v m => barCmdEffect .field v m)),
  (0x190101, fun _ _ v m => safDemandEffect v m),
  (0x190102, fun w _ v m => safReleaseEffect w v m),
  (0x190103, fun w _ v m => fuseCmdEffect w v m),
  (0x190304, fun w _ v m => .ok (safKickEffect w v m)),
  (0x190306, plain (fun _ v m => diagSeqEffect v m)),
  (0x190409, fun _ _ v m => keyCommitEffect v m),
  (0x19050B, fun w _ v m => logAppendEffect w v m),
  (0x190608, plain (fun _ v m => Mach.clrBits v safCounters m)),
  (0x200104, fun _ _ v m => ltStepEffect v m),
  (0x200201, fun _ _ v m => servoModeEffect v m),
  (0x201001, fun _ x v m => gtCtrlEffect x.i v m),
  (0x201003, fun _ x v m => gtRunEffect x.i (v % 2 == 1) m),
  (0x201004, plain (fun n v m => gtLoadEffect n v m)),
  (0x202003, plain (fun k v m => gtPairEffect k false v m)),
  (0x202005, plain (fun k v m => gtPairEffect k true v m)),
  (0x3E0101, fun _ x v m => .ok (belEnSetWord .field x.t v m)),
  (0x3E0201, fun _ x v m => .ok (belEnClrWord .field x.t v m)),
  (0x3E0301, fun _ x v m => .ok (belPendSetWord .field x.t v m)),
  (0x3E0401, fun _ x v m => .ok (belPendClrWord .field x.t v m)),
  (0x3E0007, plain (fun _ v m => Mach.clrBits v (belCounters .field) m)),
  (0x3F000A, plain (fun _ v m => Mach.clrBits v keepCounters m))]

def effectsMotion : List (Nat × WEff) := [
  (0x210001, onOff whlEnable whlDisable),
  (0x210301, plain setPartner),
  (0x210609, plain (fun d v m => Mach.clrBits v (whlCounters d) m)),
  (0x220001, onOff evtEnableEffect evtDisableEffect),
  (0x220002, plain (fun s v m => setEvtCause (R.EVT_BIND s) s v m)),
  (0x220003, fun _ x v m => setEvtTiming x.i v m),
  (0x220007, plain (fun s v m => setEvtCause (R.EVT_POLICY s) s v m)),
  (0x220008, plain (fun s v m => lanWrite (R.EVT_LEAD_MAX s) v m)),
  (0x220009, plain (fun s v m => lanWrite (R.EVT_TOL s) v m)),
  (0x260003, plain (fun _ v m => lanWrite R.LAN_PLAN_WIN v m)),
  (0x261001, plain (fun n v m => setDecH n v m)),
  (0x22000A, plain evtCmdEffect),
  (0x260001, onOff (fun _ m => .ok (lanRunOnEffect m)) (fun _ m => lanRunOffEffect m)),
  (0x26000C, plain (fun _ _ m => lanClearAll m)),
  (0x281001, onOff (fun v m => .ok (vmEnableOnEffect v m)) vmEnableOffEffect),
  (0x290001, onOff axRunOnEffect axRunOffEffect),
  (0x290006, fun _ x v m => axProfNextEffect x.i v m),
  (0x290009, plain setAxPhase),
  (0x290010, plain axCmdEffect),
  (0x298001, onOff ocuEnableOnEffect ocuEnableOffEffect),
  (0x298003, fun _ x v m => setOcuBind x.i v m),
  (0x29800F, plain ocuFwCorrEffect),
  (0x29801D, plain (fun u v m => Mach.clrBits v (ocuCounters u) m))]

def effectsOutput : List (Nat × WEff) := [
  (0x300001, fun _ x v m => setChEn x.i (v % 2 == 1) m),
  (0x300003, fun _ x v m => chModeEffect x.i v m),
  (0x300008, plain (fun c v m => setGpio c (v % 2 == 1) m)),
  (0x308012, plain (fun c v m => Mach.clrBits v (chCounters c) m)),
  (0x310001, fun _ x v m => chDictPush x.i v m),
  (0x310005, plain (fun c v m => whenSet v (popLater false c) m)),
  (0x310006, plain (fun c v m => whenSet v (qFlush c) m)),
  (0x318001, onOff (fun n m => .ok (movRunOnEffect n m)) movRunOffEffect),
  (0x318003, plain movCmdEffect),
  (0x340001, onOff octRunOn octRunOff),
  (0x340003, plain setPwmCfg),
  (0x340004, plain setChMask),
  (0x340007, plain (fun o v m => setShadow o .period v m)),
  (0x340008, plain octImm),
  (0x34000B, plain octChOff),
  (0x340101, fun _ x v m => .ok (setShadow x.i (.duty (Fin.ofNat 8 x.j)) v m)),
  (0x340102, fun _ x v m => .ok (setShadow x.i (.phase (Fin.ofNat 8 x.j)) v m)),
  (0x340901, fun _ x v m => .ok (setDtCfg x.i x.j v m)),
  (0x340902, fun _ x v m => .ok (setDtNom x.i x.j v m)),
  (0x340908, fun _ x v m => .ok (setShadow x.i (.pairOvr (Fin.ofNat 4 x.j)) v m)),
  (0x340D08, plain (fun o v m => Mach.clrBits v (pwmCounters o) m)),
  (0x350001, plain (fun o v m => setTrp o (R.TRP_CFG o) v m)),
  (0x350002, plain (fun o v m => setTrp o (R.TRP_A_THRESH o) v m)),
  (0x350003, plain (fun o v m => setTrp o (R.TRP_B_THRESH o) v m)),
  (0x35000B, plain setRbEn),
  (0x351006, plain trpRearmEffect),
  (0x351007, plain (fun o v m => trpRearmRbEffect o (v % 2 == 1) m)),
  (0x351008, plain trpCmdEffect),
  (0x380001, onOff (fun e m => .ok (turRunOnEffect e m)) turRunOffEffect),
  (0x380007, fun _ x v m => .ok (flagsSet (R.TUR_FLAG_SET x.i) v m)),
  (0x380008, fun _ x v m => .ok (flagsClr (R.TUR_FLAG_SET x.i) v m)),
  (0x380F01, fun _ _ v m => .ok (flagsSet R.TUR_XFLAG_SET v m)),
  (0x380F02, fun _ _ v m => .ok (flagsClr R.TUR_XFLAG_SET v m)),
  (0x388001, fun _ x v m => setCtxRun x.i (v % 2 == 1) m),
  (0x388004, plain ctxCmdEffect),
  (0x388006, plain setCtxCfg),
  (0x38801A, fun _ x v m => txDictPut x.i v m),
  (0x38801C, plain (fun x v m => whenSet v (popLater true x) m)),
  (0x38801D, plain ctxFlush)]

/-- A write of an octet's object comes after the boundary of its tick (R280), but a stop before it; what an octet that has never run
shows is kept for its age (R292). -/
def octFirst (f : Found) (m : Mach) : Mach :=
  if (f.row.base / 256 = 0x34 ∧ f.row.id ≠ 0x340001) ∨ f.row.base = 0x3500 ∨ f.row.base = 0x3510 then octKeep f.i (octCaught f.i m) else m

/-- What a write does to an object whose checks it passed. -/
def objEffect (w : Writer) (f : Found) (v : Nat) (m0 : Mach) : Eff :=
  let m := octFirst f m0
  match (effectsHost ++ effectsSide ++ effectsMotion ++ effectsOutput).find? (fun e => e.1 == f.row.id) with
  | some e => e.2 w f v m
  | none =>
    .ok (if f.row.acc = .w1c then m.w1c f.obj v
      else if f.row.acc = .w1s then m.wr f.obj (m.rd f.obj ||| v)
      else m.wr f.obj v)

/-! ## The checks of one write (R59 checks 11, 12 and 14; R498, R501) -/

/-- With SAF_LOCK blown only a safety session writes the parameters (R498). -/
def paramBarred (m : Mach) (w : Writer) (param : Bool) : Bool :=
  param && m.saf.safLock &&
  (match w with
   | .dict r h => !(h.toNat != 0 && sessionOpen m r h.toNat)
   | _ => true)

/-- The PARAM record and event of an accepted parameter write (R501). -/
def paramNote (w : Writer) (param : Bool) (idx sub : Nat) (m : Mach) : Mach :=
  if param then safRaise 6 (safLog 7 0 (recordRoute w m).1 (idx * 65536 + sub * 256) (recordRoute w m).2) else m

/-- Checks 11 and 12 of a write. -/
def writeBar (w : Writer) (idx : Nat) (acc : Acc) (mach param still : Bool) (m : Mach) : Option Abort :=
  if acc = .ro then some .readOnly
  else if mach && (!authority m w (ownerOf idx) || paramBarred m w param) then some .machine
  else if acc = .rws ∧ !still then some .running
  else none

/-- A write of a number to an object of the tables. -/
def writeObj (w : Writer) (f : Found) (v : Nat) (m : Mach) : Eff :=
  let o := f.obj
  let param := isParam o.idx f.row.mach f.row.ret
  match writeBar w o.idx f.row.acc f.row.mach param (stillFor m f v) m with
  | some a => .error a
  | none =>
    if !chkOk m f v then .error .range
    else (objEffect w f v m).map (fun m1 => landed w o m (paramNote w param o.idx o.sub m1))

/-- A write of a number to a user object; its declaration names no unit it would be RWS against. -/
def writeUser (w : Writer) (u : User) (v : Nat) (m : Mach) : Eff :=
  let o : Obj := ⟨u.idx, u.sub, u.dflt⟩
  let param := isParam u.idx u.mach u.ret
  match writeBar w u.idx u.acc u.mach param true m with
  | some a => .error a
  | none => .ok (landed w o m (paramNote w param u.idx u.sub
      (if u.acc = .w1c then m.w1c o v else if u.acc = .w1s then m.wr o (m.rd o ||| v) else m.wr o v)))

/-- A value of a type as a word or number written to it (R50: a BOOL is its bit 0, upper bits of a register are ignored). -/
def Ty.fit (t : Ty) (v : Nat) : Nat := if t = .bool then v % 2 else v % 2 ^ (8 * t.size)

/-- A write that a writer before it in R261's order has written over comes after it. -/
def redoWrite (e : Nat × Nat) (m : Mach) : Mach :=
  match findObj (e.1 / 256) (e.1 % 256) with
  | some f =>
    if overruled m f.obj then m
    else match objEffect .keep f e.2 m with
      | .ok m1 => m1
      | .error _ => m
  | none =>
    match m.user (e.1 / 256) (e.1 % 256) with
    | some u => m.wr ⟨u.idx, u.sub, u.dflt⟩ e.2
    | none => m

/-- The same for every such write of the tick. -/
def redoWrites (m : Mach) : Mach := Mach.each m.redos redoWrite { m with redos := [] }

/-- The pops through CH_Q_POP and CTX_RXQ_POP, and the order and the places of the pushes of the tick (R235, R343). -/
def queuesSettle (m : Mach) : Mach :=
  let m1 := Mach.each m.pops (fun e m => if e.1 then rxPop e.2 m else qPop e.2 m) { m with pops := [] }
  let m2 := m1.each ((m1.chans.filter (fun e => m1.chMode e.1 == 2)).map (·.1)) chSettle
  m2.each (m2.ctxs.map (·.1)) txSettle

end Sys2Proof.Machine
end

