-- ==== Sys2Proof/Machine/RegView.lean ====
section
/-! DEFINITION. The register view (R10 to R12, R24, R50 to R55): what a load or a store of one word at a register address
does, for every port that has one, and the queue ports' callers. -/

namespace Sys2Proof.Machine

/-- Index and subindex at a word of the rule-addressed window (R10). -/
def regAt (addr : Nat) : Option (Nat × Nat) :=
  if 0x40000000 ≤ addr ∧ addr < 0x42000000 ∧ addr % 4 = 0 then
    some ((addr - 0x40000000) / 0x400, addr % 0x400 / 4)
  else none

/-- What stands at an index and subindex word: an object's only or low word, the high word of a 64-bit object, or the same
of a user object. -/
inductive RegHit where
  | low (f : Found)
  | high (f : Found)
  | userLow (u : User)
  | userHigh (u : User)
deriving DecidableEq, Repr

def regHit (m : Mach) (idx sub : Nat) : Option RegHit :=
  match findObj idx sub with
  | some f => some (.low f)
  | none => match findHigh idx sub with
    | some f => some (.high f)
    | none => match m.user idx sub with
      | some u => some (.userLow u)
      | none =>
        if sub = 0 then none
        else ((m.user idx (sub - 1)).filter (fun u => u.ty.wide)).map .userHigh

/-! ## Loads -/

/-- An object's low word as a load returns it (R50, R51). -/
def wordOf (t : Ty) (v : Nat) : Nat :=
  if t = .str ∨ t = .dom then 0 else if t = .i16 then ofSigned 32 (toSigned 16 v) else v % 2 ^ 32

/-- A load: the word and the machine after it; a load of DBG_TRACE_LOST clears it (R391). None where no word exists. -/
def regLoad (idx sub : Nat) (m : Mach) : Option (Nat × Mach) :=
  (regHit m idx sub).map (fun h =>
    match h with
    | .low f =>
      let r := readObj f m
      (wordOf f.row.ty r.1, if f.row.id = 0x3F0101 then r.2.clr R.DBG_TRACE_LOST else r.2)
    | .high f => ((readObj f m).1 / 2 ^ 32, (readObj f m).2)
    | .userLow u => (if u.acc = .wo then 0 else wordOf u.ty (m.rd ⟨u.idx, u.sub, u.dflt⟩), m)
    | .userHigh u => (if u.acc = .wo then 0 else m.rd ⟨u.idx, u.sub, u.dflt⟩ / 2 ^ 32, m))

/-! ## Stores -/

/-- The staging word a port's 64-bit stores use (R52); each mover has its own (DESIGN CHOICE, log 5). -/
def stagePort : Writer → Nat
  | .spire n => n.val
  | .pcie => 2
  | .keep => 3
  | .dict _ _ => 4
  | .mover n => 5 + n.val

def stagePut (w : Writer) (v : Nat) (m : Mach) : Mach :=
  { m with dic := { m.dic with stage := mapSet 0 (stagePort w) v m.dic.stage } }

def staged (m : Mach) (w : Writer) : Nat := mapGet 0 (stagePort w) m.dic.stage

/-- A low word is staged only for an object the port may write now (log 5). -/
def stageBar (w : Writer) (o : Obj) (acc : Acc) (mach still : Bool) (m : Mach) : Option Abort :=
  if acc = .ro then some .readOnly
  else if mach && !authority m w (ownerOf o.idx) then some .machine
  else if acc = .rws ∧ !still then some .running
  else none

def stageLow (w : Writer) (bar : Option Abort) (v : Nat) (m : Mach) : Eff :=
  match bar with
  | some a => .error a
  | none => .ok (stagePut w v m)

/-- A store of a word at an index and subindex. A refused high-word store leaves the staged low word in place for the next one (log 5).
A request carries the whole value of its object instead. -/
def regStore (w : Writer) (idx sub v : Nat) (m : Mach) : Eff :=
  match regHit m idx sub with
  | none => .error (if indexDefined idx then .noSub else .noObject)
  | some (.low f) =>
    if f.row.ty = .str ∨ f.row.ty = .dom then .error .readOnly
    else if f.row.ty.wide then stageLow w (stageBar w f.obj f.row.acc f.row.mach (rwsOk m f) m) v m
    else writeObj w f (f.row.ty.fit v) m
  | some (.high f) => writeObj w f (v * 2 ^ 32 + staged m w) (stagePut w 0 m)
  | some (.userLow u) =>
    if u.ty = .str ∨ u.ty = .dom then .error .readOnly
    else if u.ty.wide then stageLow w (stageBar w ⟨u.idx, u.sub, 0⟩ u.acc u.mach true m) v m
    else writeUser w u (u.ty.fit v) m
  | some (.userHigh u) => writeUser w u (v * 2 ^ 32 + staged m w) (stagePut w 0 m)

/-- What a refused word store to an address does to its port: the address is the fault's or the error's. -/
def refuseAt (w : Writer) (addr : Nat) (a : Abort) (m : Mach) : Mach :=
  match w with
  | .keep => storeRefused 2 addr m
  | .spire n => storeRefused n.val addr m
  | .pcie => m.inc R.DIC_PCIE_DROPPED
  | .mover n => movError n.val 2 addr m
  | .dict _ _ => refuse w ⟨(addr - 0x40000000) / 0x400, addr % 0x400 / 4, 0⟩ a m

/-- A misaligned store of a core to DEVICE space has a fault of its own (R370). -/
def refuseMisaligned (w : Writer) (addr : Nat) (m : Mach) : Mach :=
  match writerCore w with
  | some i => coreFault i 1 5 addr (m.core i).pc m
  | none => refuseAt w addr .noObject m

/-- A write of a value to a whole object of the dictionary view. -/
def objStore (w : Writer) (idx sub v : Nat) (m : Mach) : Eff :=
  match regHit m idx sub with
  | some (.low f) =>
    if f.row.ty = .str then
      .error ((writeBar w idx f.row.acc f.row.mach (isParam idx f.row.mach f.row.ret) true m).getD .length)
    else writeObj w f (f.row.ty.fit v) m
  | some (.userLow u) =>
    if u.ty = .str then .error ((writeBar w idx u.acc u.mach (isParam idx u.mach u.ret) true m).getD .length)
    else writeUser w u (u.ty.fit v) m
  | _ => .error (if indexOk m idx then .noSub else .noObject)

/-- A request names an object that exists and is no DOMAIN (R59 checks 5 to 7, which come before those on its side and the module's
state; the route and the session come first). -/
def missing (m : Mach) (w : Writer) (idx sub : Nat) : Option Abort :=
  match w with
  | .dict r h =>
    if !routeOpen m r || (h.toNat != 0 && !sessionOpen m r h.toNat) then none
    else
      match regHit m idx sub with
      | some (.low f) => if f.row.ty = .dom then some .notDomain else none
      | some (.userLow u) => if u.ty = .dom then some .notDomain else none
      | _ => some (if indexOk m idx then .noSub else .noObject)
  | _ => none

/-- The write itself: one word of the register view, or for a request the whole object. -/
def registerPut (w : Writer) (idx sub v : Nat) (m : Mach) : Eff :=
  match w with
  | .dict _ _ => objStore w idx sub v m
  | _ => regStore w idx sub v m

/-- REGISTER_WRITE: a word written at a register address. -/
def registerWriteEffect (w : Writer) (addr v : Nat) (m : Mach) : Mach :=
  if !writerLive m w then m
  else if addr % 4 ≠ 0 then refuseMisaligned w addr m
  else
    match regAt addr with
    | none => refuseAt w addr .noObject m
    | some (idx, sub) =>
      match (missing m w idx sub).orElse (fun _ => gate w ⟨idx, sub, 0⟩ false m) with
      | some a => refuseAt w addr a m
      | none =>
        match registerPut w idx sub v m with
        | .ok m1 => answered w m1
        | .error a => refuseAt w addr a m

/-! ## Queue ports -/

/-- A queue port is reached by Keep's stores while Keep runs, and by movers while the field side runs. -/
def portWriter (port : Fin 17) : Writer := if port.val = 0 then .keep else .mover (Fin.ofNat 16 (port.val - 1))

/-- An access of a port at an address; Keep's may be denied by its regions. -/
def atPort (port : Fin 17) (kind addr : Nat) (f : Mach → Mach) (m : Mach) : Mach :=
  if !writerLive m (portWriter port) then m
  else if port.val = 0 && !(m.core 2).allows kind addr then coreFault 2 1 (if kind = 0 then 6 else 7) addr (m.core 2).pc m
  else f m

/-- What a load returns goes to the core or mover that made it. -/
def sendLoad (port : Fin 17) (r : Nat × Mach) : Mach := r.2.send (.load (port.val + 2)) [r.1]

/-! ## Accesses of the cores -/

def coreWriter (i : Fin 3) : Writer := if i.val = 2 then .keep else .spire (Fin.ofNat 2 i.val)

/-- A core whose clock is gated, that is held or halted in debug executes nothing. -/
def coreLive (m : Mach) (i : Fin 3) : Bool := writerLive m (coreWriter i)

def asCore (i : Fin 3) (f : Mach → Mach) (m : Mach) : Mach := if coreLive m i then f m else m

/-- A load (kind 0) or store (kind 1) of a core at an address of its map, where its regions allow it. -/
def coreAt (i : Fin 3) (kind addr : Nat) (f : Mach → Mach) (m : Mach) : Mach :=
  if !coreLive m i then m
  else if !(m.core i).allows kind addr then coreFault i 1 (if kind = 0 then 6 else 7) addr (m.core i).pc m
  else f m

/-- The word a core's load returns. -/
def coreLoaded (i : Fin 3) (r : Nat × Mach) : Mach := r.2.send (.load i.val) [r.1]

end Sys2Proof.Machine
end

