-- ==== Sys2Proof/Machine/CanSdo.lean ====
section
/-! DEFINITION. The SDO server of a CAN controller (R471 to R473, R475): the CiA 301 communication objects, and transfers that
become requests of the controller's route. The service's answers come back through `sdoAnswer`. The frame layouts are those of
CiA 301, to which R471 refers (PRESUMED, log 32). -/

namespace Sys2Proof.Machine

def canRoute (k : Nat) : Route := if k = 0 then .can0 else .can1

/-- A request joins those that wait for the service. -/
def askPut (a : Ask) (m : Mach) : Mach := { m with dic := { m.dic with waiting := m.dic.waiting ++ [a] } }

/-- The controller takes part in SDO traffic. -/
def sdoOpen (m : Mach) (k : Nat) : Bool :=
  canOn m k && (nmtState m k == 5 || nmtState m k == 127)

/-- One SDO frame to the client. -/
def sdoSend (k : Nat) (d : List Byte) (m : Mach) : Mach := canTx k (0x580 + m.rd (R.CAN_NODE_ID k)) (d ++ List.replicate (8 - d.length) 0) m

/-- The multiplexer of a frame. -/
def sdoMux (idx sub : Nat) : List Byte := toLe 2 idx ++ toLe 1 sub

/-- An abort ends the transfer. -/
def sdoAbort (k idx sub code : Nat) (m : Mach) : Mach :=
  sdoSend k ([0x80] ++ sdoMux idx sub ++ toLe 4 code) ((m.updCan k (fun x => { x with sdo := none })).inc (R.CAN_CNT_SDO_ABORT k))

/-- The CiA 301 code of an abort of the service (R475); an abort the table does not name gives the general code (DEDUCED,
log 33). -/
def sdoCode (code : Nat) : Nat :=
  if code = Abort.noObject.code then 0x06020000
  else if code = Abort.noSub.code then 0x06090011
  else if code = Abort.notDomain.code then 0x06010000
  else if code = Abort.readOnly.code ∨ code = Abort.machine.code then 0x06010002
  else if code = Abort.length.code then 0x06070010
  else if code = Abort.size.code then 0x06070012
  else if code = Abort.range.code then 0x06090030
  else if code = Abort.route.code then 0x08000020
  else if code = Abort.fenced.code then 0x08000021
  else if code = Abort.running.code ∨ code = Abort.notReady.code ∨ code = Abort.halted.code ∨ code = Abort.busy.code then
    0x08000022
  else if code = Abort.store.code then 0x06060000
  else if code = Abort.idle.code then 0x05040000
  else 0x08000000

/-! ## Communication objects (R473) -/

/-- What a communication object is: a constant of some bytes, or a home of a type. -/
inductive CommObj where
  | const (size v : Nat)
  | home (o : Obj) (size : Nat)
  | pdoId (rx : Bool) (j : Nat)
  | mapN (rx : Bool) (j : Nat)
  | mapEntry (rx : Bool) (j t : Nat)
deriving DecidableEq, Repr

def pdoComm (k : Nat) (rx : Bool) (j sub : Nat) : Option CommObj :=
  match sub with
  | 0 => some (.const 1 5)
  | 1 => some (.pdoId rx j)
  | 2 => some (.home (if rx then R.CAN_RPDO_COMM_TYPE k j else R.CAN_TPDO_COMM_TYPE k j) 1)
  | 3 => some (.home (if rx then R.CAN_RPDO_COMM_INH k j else R.CAN_TPDO_COMM_INH k j) 2)
  | 5 => some (.home (if rx then R.CAN_RPDO_COMM_EVTMR k j else R.CAN_TPDO_COMM_EVTMR k j) 2)
  | _ => none

def pdoMapObj (rx : Bool) (j sub : Nat) : Option CommObj :=
  if sub = 0 then some (.mapN rx j) else if sub ≤ 16 then some (.mapEntry rx j (sub - 1)) else none

/-- The communication object at an index and subindex: none where the index has no such subindex. -/
def commAt (m : Mach) (k idx sub : Nat) : Option CommObj :=
  if 0x1400 ≤ idx ∧ idx ≤ 0x1407 then pdoComm k true (idx - 0x1400) sub
  else if 0x1600 ≤ idx ∧ idx ≤ 0x1607 then pdoMapObj true (idx - 0x1600) sub
  else if 0x1800 ≤ idx ∧ idx ≤ 0x1807 then pdoComm k false (idx - 0x1800) sub
  else if 0x1A00 ≤ idx ∧ idx ≤ 0x1A07 then pdoMapObj false (idx - 0x1A00) sub
  else match idx, sub with
    | 0x1000, 0 => some (.const 4 0)
    | 0x1001, 0 => some (.const 1 (boolNat m.bar.peerSafe))
    | 0x1005, 0 => some (.home (R.CAN_SYNC_ID k) 4)
    | 0x1016, 0 => some (.const 1 4)
    | 0x1016, n + 1 => if n < 4 then some (.home (R.CAN_HB_CONS k n) 4) else none
    | 0x1017, 0 => some (.home (R.CAN_HB_PROD k) 2)
    | 0x1018, 0 => some (.const 1 4)
    | 0x1018, 1 => some (.const 4 (m.rd R.DIC_VENDOR_ID))
    | 0x1018, 2 => some (.const 4 (m.rd R.DIC_PRODUCT_CODE))
    | 0x1018, 3 => some (.const 4 (m.rd R.DIC_HOST_FW_VER))
    | 0x1018, 4 => some (.const 4 (m.rd R.DIC_SERIAL % 2 ^ 32))
    | 0x1200, 0 => some (.const 1 2)
    | 0x1200, 1 => some (.const 4 (0x600 + m.rd (R.CAN_NODE_ID k)))
    | 0x1200, 2 => some (.const 4 (0x580 + m.rd (R.CAN_NODE_ID k)))
    | _, _ => none

/-- The index is one of the communication objects. -/
def commIndex (m : Mach) (k idx : Nat) : Bool := (List.range 17).any (fun s => (commAt m k idx s).isSome)

def CommObj.read (m : Mach) (k : Nat) : CommObj → List Byte
  | .const n v => toLe n v
  | .home o n => toLe n (m.rd o)
  | .pdoId rx j => toLe 4 (pdoCobId m rx k j)
  | .mapN rx j => toLe 1 (m.rd (mapNObj k rx j))
  | .mapEntry rx j t => toLe 4 (m.rd (mapObj k rx j t))

/-- The JX8128 object that stands behind a communication object (R473). -/
def CommObj.back (k : Nat) : CommObj → Option Obj
  | .const _ _ => none
  | .home o _ => some o
  | .pdoId rx j => some (if rx then R.CAN_RPDO_COMM_ID k j else R.CAN_TPDO_COMM_ID k j)
  | .mapN rx j => some (mapNObj k rx j)
  | .mapEntry rx j t => some (mapObj k rx j t)

/-- The service's checks 3, 9 and 10 on an access of a controller's server to a communication object (R59). -/
def CommObj.bar (k : Nat) (wr : Bool) (m : Mach) (c : CommObj) : Option Abort :=
  if !routeOpen m (canRoute k) then some .route
  else if (c.back k).any (awaits m) then some .notReady
  else if wr && fenced m then some .fenced
  else none

/-- Check 12: the object behind it is RWS and its controller runs (R54). -/
def CommObj.runs (k : Nat) (m : Mach) (c : CommObj) : Bool :=
  (c.back k).any (fun o => (findObj o.idx o.sub).any (fun f => f.row.acc == .rws && !rwsOk m f))

/-- The bytes of a communication object. -/
def CommObj.size : CommObj → Nat
  | .const n _ => n
  | .home _ n => n
  | .pdoId _ _ => 4
  | .mapN _ _ => 1
  | .mapEntry _ _ _ => 4

/-- What R474 refuses with an SDO code of its own: a mapping change while the COB-ID is valid, more than fits, an object that must not be
mapped. -/
def CommObj.mapBar (k v : Nat) (m : Mach) : CommObj → Option Nat
  | .mapN rx j => mapNBar k rx j v m
  | .mapEntry rx j _ => mapEntryBar k rx j v m
  | _ => none

/-- Check 14 of a communication object's value. -/
def CommObj.ranged (m : Mach) (v : Nat) (c : CommObj) (o : Obj) : Bool :=
  match c with
  | .home _ _ => (findObj o.idx o.sub).any (fun f => chkOk m f v) && (o.sub != 2 || o.idx / 16 == 0x160 || pdoTypeOk v)
  | _ => true

/-- Why a write to a communication object fails: an abort of the service, or an SDO code of R474's own. -/
inductive CommErr where
  | service (a : Abort)
  | mapping (code : Nat)
deriving DecidableEq, Repr

/-- A write to a communication object: what R474 refuses with codes of its own comes first (DEDUCED, log 33), for the PDO objects are
RWS, and then checks 11 to 14 in their order (R59). -/
def CommObj.write (k : Nat) (d : List Byte) (m : Mach) (c : CommObj) : Except CommErr Mach :=
  match (if d.length = c.size then c.mapBar k (leNat d) m else none), c.back k with
  | some code, _ => .error (.mapping code)
  | none, none => .error (.service .readOnly)
  | none, some o =>
    if c.runs k m then .error (.service .running)
    else if d.length ≠ c.size then .error (.service .length)
    else if !c.ranged m (leNat d) o then .error (.service .range)
    else .ok (m.wr o (leNat d))

/-! ## The transfer -/

/-- A request of the transfer, marked with its number so that a later answer is not taken for another transfer's. -/
def sdoAsk (k op idx sub handle arg : Nat) (data : List Byte) (m : Mach) : Mach :=
  askPut ⟨op, ⟨canRoute k, 0, true, BitVec.ofNat 16 (m.can k).sdoNo, BitVec.ofNat 8 handle, BitVec.ofNat 16 idx,
    BitVec.ofNat 8 sub, 0, BitVec.ofNat 32 arg, data⟩, none⟩ m

def setSdo (k : Nat) (x : Option Sdo) (m : Mach) : Mach := m.updCan k (fun c => { c with sdo := x })

/-- A new transfer begins, at this host SCLK cycle. -/
def sdoBegin (k : Nat) (x : Sdo) (m : Mach) : Mach :=
  m.updCan k (fun c => { c with sdo := some { x with at_ := m.tb.sclk }, sdoNo := (c.sdoNo + 1) % 65536 })

/-- The JX8128 index and subindex of a transfer. -/
def Sdo.jx (x : Sdo) : Nat := (jxIndex x.idx).getD 0

/-- A DOMAIN transfer that the client gave up is cancelled. -/
def sdoCancel (k : Nat) (m : Mach) : Mach :=
  match (m.can k).sdo with
  | some x =>
    let m1 := setSdo k none m
    if x.dom && x.handle != 0 then sdoAsk k 7 x.jx x.sub x.handle 0 [] m1 else m1
  | none => m

/-- The whole value of an upload is known: one expedited frame for 1 to 4 bytes, else the size. -/
def sdoUploadInit (k : Nat) (x : Sdo) (d : List Byte) (m : Mach) : Mach :=
  if 1 ≤ d.length ∧ d.length ≤ 4 then
    sdoSend k ([BitVec.ofNat 8 (0x43 + 4 * (4 - d.length))] ++ sdoMux x.idx x.sub ++ d) (setSdo k none m)
  else
    sdoSend k ([0x41] ++ sdoMux x.idx x.sub ++ toLe 4 d.length)
      (setSdo k (some { x with data := d, size := d.length, off := d.length, wait := .none }) m)

/-- One upload segment; the last one ends the transfer and closes a DOMAIN. -/
def sdoUploadSeg (k : Nat) (x : Sdo) (m : Mach) : Mach :=
  let d := x.data.take 7
  let rest := x.data.drop 7
  let fin := rest.isEmpty && x.off == x.size
  let frame := [BitVec.ofNat 8 (boolNat x.toggle * 16 + (7 - d.length) * 2 + boolNat fin)] ++ d
  if fin then
    let m1 := sdoSend k frame (setSdo k none m)
    if x.dom then sdoAsk k 6 x.jx x.sub x.handle 0 [] m1 else m1
  else
    sdoSend k frame (setSdo k (some { x with
      data := rest
      toggle := !x.toggle
      wait := .none
      at_ := m.tb.sclk }) m)

/-- The answer to a download segment, whose toggle bit the transfer has passed. -/
def sdoSegDone (k : Nat) (x : Sdo) (m : Mach) : Mach := sdoSend k [BitVec.ofNat 8 (0x20 + 16 * boolNat (!x.toggle))] m

/-- The opcode whose answer a transfer waits for. -/
def SdoWait.op : SdoWait → Nat
  | .none => 0
  | .upload => 1
  | .download => 2
  | .openRead => 3
  | .openWrite => 4
  | .fetch => 5
  | .put => 5
  | .close => 6

/-- An answer of the service to a request of the transfer. -/
def sdoAnswer (k op tag : Nat) (err : Option Nat) (arg : Nat) (d : List Byte) (m : Mach) : Mach :=
  match (m.can k).sdo with
  | none => m
  | some x =>
    if x.wait = .none ∨ x.wait.op ≠ op ∨ tag ≠ (m.can k).sdoNo then m
    else
      match err with
      | some code => sdoAbort k x.idx x.sub (sdoCode code) (if x.wait = .close then m else sdoCancel k m)
      | none =>
        match x.wait with
        | .none => m
        | .upload => sdoUploadInit k x d m
        | .download =>
          if x.last then sdoSegDone k x (setSdo k none m)
          else sdoSend k ([0x60] ++ sdoMux x.idx x.sub) (setSdo k none m)
        | .openRead =>
          sdoSend k ([0x41] ++ sdoMux x.idx x.sub ++ toLe 4 arg)
            (setSdo k (some { x with size := arg, handle := fieldAt 4 1 d, wait := .none }) m)
        | .fetch => sdoUploadSeg k { x with data := d, off := x.off + d.length } m
        | .openWrite =>
          sdoSend k ([0x60] ++ sdoMux x.idx x.sub) (setSdo k (some { x with handle := fieldAt 0 1 d, wait := .none }) m)
        | .put =>
          if x.last then sdoAsk k 6 x.jx x.sub x.handle 0 [] (setSdo k (some { x with wait := .close }) m)
          else sdoSegDone k x (setSdo k (some { x with wait := .none }) m)
        | .close => sdoSegDone k x (setSdo k none m)

/-- The service refuses an access to a communication object: recorded with the object behind it, and aborted. -/
def commRefused (k : Nat) (x : Sdo) (c : CommObj) (a : Abort) (m : Mach) : Mach :=
  let o := (c.back k).getD ⟨x.idx, x.sub, 0⟩
  sdoAbort k x.idx x.sub (sdoCode a.code) (abortRecord (canRoute k) o.idx o.sub a.code m)

/-- An index or subindex that no communication object has (R63, R472). -/
def commMissing (k idx sub : Nat) (m : Mach) : Mach :=
  let a : Abort := if commIndex m k idx then .noSub else .noObject
  sdoAbort k idx sub (sdoCode a.code) (abortRecord (canRoute k) idx sub a.code m)

/-- A whole downloaded value is written. -/
def sdoWrite (k : Nat) (x : Sdo) (d : List Byte) (m : Mach) : Mach :=
  match jxIndex x.idx with
  | some i => sdoAsk k 2 i x.sub 0 0 d (setSdo k (some { x with wait := .download, data := [] }) m)
  | none =>
    match commAt m k x.idx x.sub with
    | some c =>
      match c.bar k true m with
      | some a => commRefused k x c a m
      | none =>
        match c.write k d m with
        | .ok m1 =>
          if x.last then sdoSegDone k x (setSdo k none m1)
          else sdoSend k ([0x60] ++ sdoMux x.idx x.sub) (setSdo k none m1)
        | .error (.service a) => commRefused k x c a m
        | .error (.mapping code) => sdoAbort k x.idx x.sub code m
    | none => commMissing k x.idx x.sub m

/-- The object is of type DOMAIN. -/
def isDomain (idx sub : Nat) : Bool := (findObj idx sub).any (fun f => f.row.ty == .dom)

/-- An initiate download. -/
def sdoDownload (k idx sub : Nat) (d : List Byte) (m0 : Mach) : Mach :=
  let cs := fieldAt 0 1 d
  let m := sdoCancel k m0
  let x : Sdo := { idx := idx, sub := sub, up := false }
  let expedited := bit 1 cs
  let sized := bit 0 cs
  if expedited then
    let own := ((jxIndex idx).bind (fun i => (objInfo m i sub).map (fun f => f.ty.size))).getD 4
    let n := if sized then 4 - bits 3 2 cs else min 4 own
    sdoWrite k x ((d.drop 4).take n) (sdoBegin k x m)
  else if (jxIndex idx).any (fun i => isDomain i sub) then
    if sized then
      let m1 := sdoBegin k { x with dom := true, size := fieldAt 4 4 d, wait := .openWrite } m
      sdoAsk k 4 ((jxIndex idx).getD 0) sub 0 (fieldAt 4 4 d) [0, 0, 0, 0] m1
    else sdoAbort k idx sub 0x06070010 m
  else
    let size := if sized then fieldAt 4 4 d else 0
    sdoSend k ([0x60] ++ sdoMux idx sub) (sdoBegin k { x with size := size, off := boolNat sized } m)

/-- A download segment. -/
def sdoDownloadSeg (k : Nat) (x : Sdo) (d : List Byte) (m : Mach) : Mach :=
  let cs := fieldAt 0 1 d
  let data := (d.drop 1).take (7 - bits 3 1 cs)
  let fin := bit 0 cs
  if bit 4 cs ≠ x.toggle then sdoAbort k x.idx x.sub 0x05030000 (sdoCancel k m)
  else
    let y := { x with toggle := !x.toggle, last := fin, at_ := m.tb.sclk }
    if x.dom then
      sdoAsk k 5 x.jx x.sub x.handle x.off data (setSdo k (some { y with wait := .put, off := x.off + data.length }) m)
    else
      let got := x.data ++ data
      if fin then
        if x.off = 1 ∧ got.length ≠ x.size then sdoAbort k x.idx x.sub 0x06070010 m
        else sdoWrite k { y with data := got } got m
      else sdoSegDone k y (setSdo k (some { y with data := got }) m)

/-- An initiate upload. -/
def sdoUpload (k idx sub : Nat) (m0 : Mach) : Mach :=
  let m := sdoCancel k m0
  let x : Sdo := { idx := idx, sub := sub, up := true }
  match jxIndex idx with
  | some i =>
    if isDomain i sub then sdoAsk k 3 i sub 0 0 [] (sdoBegin k { x with dom := true, wait := .openRead } m)
    else
      let m1 := sdoBegin k { x with wait := .upload } m
      sdoAsk k 1 i sub 0 0 [] m1
  | none =>
    match commAt m k idx sub with
    | some c =>
      (match c.bar k false m with
       | some a => commRefused k x c a (sdoBegin k x m)
       | none => sdoUploadInit k x (c.read m k) (sdoBegin k x m))
    | none => commMissing k idx sub m

/-- An upload segment request. -/
def sdoUploadNext (k : Nat) (x : Sdo) (d : List Byte) (m : Mach) : Mach :=
  if bit 4 (fieldAt 0 1 d) ≠ x.toggle then sdoAbort k x.idx x.sub 0x05030000 (sdoCancel k m)
  else if x.dom ∧ x.data.isEmpty ∧ x.off < x.size then
    sdoAsk k 5 x.jx x.sub x.handle x.off [] (setSdo k (some { x with wait := .fetch }) m)
  else sdoUploadSeg k x m

/-- SDO_REQUEST: one frame of the client. While the service works on an answer only a new beginning or an abort is taken; another frame
is lost and counts in CAN_CNT_OVERRUN (DESIGN CHOICE, log 33). -/
def sdoFrame (k : Nat) (d : List Byte) (m0 : Mach) : Mach :=
  if !sdoOpen m0 k || d.length != 8 then m0
  else
    let m := canRx k m0
    let idx := fieldAt 1 2 d
    let sub := fieldAt 3 1 d
    match bits 7 5 (fieldAt 0 1 d), (m.can k).sdo with
    | 0, some x =>
      if x.wait ≠ .none then m.inc (R.CAN_CNT_OVERRUN k)
      else if x.up then sdoAbort k x.idx x.sub 0x05040001 (sdoCancel k m)
      else sdoDownloadSeg k x d m
    | 3, some x =>
      if x.wait ≠ .none then m.inc (R.CAN_CNT_OVERRUN k)
      else if !x.up then sdoAbort k x.idx x.sub 0x05040001 (sdoCancel k m)
      else sdoUploadNext k x d m
    | 1, _ => sdoDownload k idx sub d m
    | 2, _ => sdoUpload k idx sub m
    | 4, _ => sdoCancel k m
    | _, _ => sdoAbort k idx sub 0x05040001 (sdoCancel k m)

/-! ## TPDOs whose objects stand at the field (R22, R474) -/

/-- A TPDO is sent with its data, unless its inhibit time runs or it has nothing to send. -/
def tpdoPut (k j : Nat) (d : List Byte) (m : Mach) : Mach :=
  let c := m.can k
  let inhibited := (c.sent.any (fun e => e.1 == j)) &&
    decide (m.tb.sclk < mapGet 0 j c.sentAt + 80000 * m.rd (R.CAN_TPDO_COMM_INH k j))
  if inhibited || d.isEmpty || decide (pdoMax m k < d.length) then m
  else
    let m1 := (canTx k (bits 10 0 (pdoCobId m false k j)) d m).inc (R.CAN_CNT_PDO_TX k)
    m1.updCan k (fun c => { c with sent := mapPut j d c.sent, sentAt := mapPut j m.tb.sclk c.sentAt })

/-- Data of a TPDO is complete; one of transmission type 0 goes out when it is not what was sent last (DEDUCED, log 37). -/
def tpdoReady (k j : Nat) (fresh : Bool) (d : List Byte) (m : Mach) : Mach :=
  if fresh ∧ (m.can k).sent.any (fun e => e.1 == j && e.2 == d) then m else tpdoPut k j d m

/-- A job with one value more: its data when none is missing. -/
def PdoJob.whole (x : PdoJob) : Option (List Byte) := if x.got.all (·.isSome) then some (x.got.flatMap (fun e => e.getD [])) else none

/-- An answer to a TPDO's READ request, whose tag names the job and the entry; an abort ends the job. -/
def tpdoAnswer (k tag : Nat) (err : Bool) (d : List Byte) (m : Mach) : Mach :=
  match (m.can k).jobs.find? (fun x => x.no == tag / 16) with
  | none => m
  | some x =>
    let y := { x with got := x.got.set (tag % 16) (some d) }
    let rest := (m.can k).jobs.filter (fun z => z.no != x.no)
    if err then m.updCan k (fun c => { c with jobs := rest })
    else
      match y.whole with
      | some l => tpdoReady k x.j x.fresh l (m.updCan k (fun c => { c with jobs := rest }))
      | none => m.updCan k (fun c => { c with jobs := c.jobs.map (fun z => if z.no = x.no then y else z) })

/-- SDO_TIMEOUT. -/
def sdoExpire (k : Nat) (m : Mach) : Mach :=
  match (m.can k).sdo with
  | some x => sdoAbort k x.idx x.sub 0x05040000 (sdoCancel k m)
  | none => m

end Sys2Proof.Machine
end

