-- ==== Sys2Proof/Machine/Dictionary.lean ====
section
/-! DEFINITION. The dictionary service and the field dictionary agent (R41, R44, R45, R56 to R67, R495, R496): the checks of a
request, what each opcode does, forwarding across the barrier, and the way an answer takes back to its requester. -/

namespace Sys2Proof.Machine

/-! ## Frames (R57) -/

/-- The 16 header bytes and the data; CHK covers the rest. -/
def frameOf (tag op handle idx sub b7 arg : Nat) (d : List Byte) : List Byte :=
  let h := toLe 2 tag ++ toLe 1 op ++ toLe 1 handle ++ toLe 2 idx ++ toLe 1 sub ++ toLe 1 b7 ++ toLe 4 arg ++ toLe 2 d.length
  h ++ toLe 2 (crc16 0x1021 0xFFFF (h ++ d)) ++ d

def reqFrame (op : Nat) (q : Req) : List Byte :=
  frameOf q.tag.toNat op q.handle.toNat q.index.toNat q.sub.toNat q.session.toNat q.arg.toNat q.data

/-- Check 1: LEN at most 240, all its bytes present, CHK right. -/
def frameWhole (l : List Byte) : Bool :=
  let n := fieldAt 12 2 l
  decide (n ≤ 240) && decide (16 + n ≤ l.length) &&
  fieldAt 14 2 l == crc16 0x1021 0xFFFF (l.take 14 ++ (l.drop 16).take n)

/-- The request a frame holds. -/
def reqOf (r : Route) (slot : Fin 4) (l : List Byte) : Nat × Req :=
  (fieldAt 2 1 l, ⟨r, slot, frameWhole l, BitVec.ofNat 16 (fieldAt 0 2 l), BitVec.ofNat 8 (fieldAt 3 1 l),
    BitVec.ofNat 16 (fieldAt 4 2 l), BitVec.ofNat 8 (fieldAt 6 1 l), BitVec.ofNat 8 (fieldAt 7 1 l),
    BitVec.ofNat 32 (fieldAt 8 4 l), (l.drop 16).take (fieldAt 12 2 l)⟩)

/-- What executing a request gives: ARG and data, or an abort. -/
abbrev DicRes := Except Abort (Nat × List Byte)

def rspFrame (op : Nat) (q : Req) : DicRes → List Byte
  | .ok (arg, d) => frameOf q.tag.toNat (op ||| 0x80) q.handle.toNat q.index.toNat q.sub.toNat 0 arg d
  | .error a => frameOf q.tag.toNat (op ||| 0x80) q.handle.toNat q.index.toNat q.sub.toNat 1 a.code []

/-! ## Objects named by a request -/

/-- The object at an index and subindex: of the tables or declared. -/
inductive Named where
  | row (f : Found)
  | user (u : User)
deriving DecidableEq, Repr

def named (m : Mach) (idx sub : Nat) : Option Named :=
  match findObj idx sub with
  | some f => some (.row f)
  | none => (m.user idx sub).map .user

def Named.ty : Named → Ty
  | .row f => f.row.ty
  | .user u => u.ty

def Named.acc : Named → Acc
  | .row f => f.row.acc
  | .user u => u.acc

def Named.mach : Named → Bool
  | .row f => f.row.mach
  | .user u => u.mach

def Named.ret : Named → Ret
  | .row f => f.row.ret
  | .user u => u.ret

/-- STRING defaults (R21, R79). -/
def strDflt (key : Nat) : List Byte :=
  if key = 0x100003 then
    [0x4A, 0x58, 0x38, 0x31, 0x32, 0x38, 0x2D] ++ (if Config.screened then [0x53] else [0x42])
  else if key = 0x100800 then [0x4A, 0x65, 0x78, 0x61, 0x6F, 0x6D, 0x20, 0x4A, 0x58, 0x38, 0x31, 0x32, 0x38]
  else []

def strGet (m : Mach) (key : Nat) : List Byte := mapGet (strDflt key) key m.dic.strs

/-- The bytes of a string are valid UTF-8. -/
def utf8Tail : Nat → List Byte → Option (List Byte)
  | 0, l => some l
  | _ + 1, [] => none
  | n + 1, b :: rest => if b.toNat / 64 = 2 then utf8Tail n rest else none

def utf8Step : List Byte → Option (List Byte)
  | [] => some []
  | b :: rest =>
    let v := b.toNat
    let c : Nat := (rest.head?.map (·.toNat)).getD 0
    if v < 0x80 then some rest
    else if 0xC2 ≤ v ∧ v ≤ 0xDF then utf8Tail 1 rest
    else if 0xE0 ≤ v ∧ v ≤ 0xEF then
      if (v = 0xE0 ∧ c < 0xA0) ∨ (v = 0xED ∧ 0xA0 ≤ c) then none else utf8Tail 2 rest
    else if 0xF0 ≤ v ∧ v ≤ 0xF4 then
      if (v = 0xF0 ∧ c < 0x90) ∨ (v = 0xF4 ∧ 0x90 ≤ c) then none else utf8Tail 3 rest
    else none

def utf8Ok : Nat → List Byte → Bool
  | 0, l => l.isEmpty
  | n + 1, l =>
    if l.isEmpty then true
    else match utf8Step l with
      | some rest => utf8Ok n rest
      | none => false

/-! ## READ and WRITE (R50, R60) -/

/-- READ: the value in its encoding; a WO object reads 0 of its length. -/
def dicRead (x : Named) (key : Nat) (m : Mach) : DicRes × Mach :=
  if x.ty = .str then (.ok (0, if x.acc = .wo then [] else strGet m key), m)
  else
    match x with
    | .row f => (.ok (0, toLe f.row.ty.size (readObj f m).1), (readObj f m).2)
    | .user u => (.ok (0, toLe u.ty.size (if u.acc = .wo then 0 else m.rd ⟨u.idx, u.sub, u.dflt⟩)), m)

/-- A string write after checks 11 and 12. -/
def strWrite (w : Writer) (x : Named) (idx sub : Nat) (d : List Byte) (m : Mach) : Eff :=
  if 64 < d.length then .error .length
  else if !utf8Ok 64 d then .error .range
  else
    let key := idx * 256 + sub
    .ok (landed w ⟨idx, sub, 0⟩ m (paramNote w (isParam idx x.mach x.ret) idx sub
      { m with dic := { m.dic with strs := mapSet (strDflt key) key d m.dic.strs } }))

/-- WRITE: checks 11 to 14 in their order, then the effect. -/
def dicWrite (w : Writer) (x : Named) (idx sub : Nat) (d : List Byte) (m : Mach) : Eff :=
  let still := match x with
    | .row f => stillFor m f (leNat d)
    | .user _ => true
  match writeBar w idx x.acc x.mach (isParam idx x.mach x.ret) still m with
  | some a => .error a
  | none =>
    if x.ty = .str then strWrite w x idx sub d m
    else if d.length ≠ x.ty.size then .error .length
    else if x.ty = .bool ∧ 1 < leNat d then .error .range
    else
      match x with
      | .row f => writeObj w f (leNat d) m
      | .user u => writeUser w u (leNat d) m

/-! ## DOMAIN transfers (R64 to R68) -/

/-- The committed content of a DOMAIN object. -/
def domContent (m : Mach) (idx sub : Nat) : List Byte :=
  if 0x5100 ≤ idx ∧ idx ≤ 0x51FF then (m.prof (16 * (idx - 0x5100) + (sub - 1))).act
  else mapGet [] (idx * 256 + sub) m.dic.doms

/-- The content a read transfer captures. The spec says neither what the field trace buffer records nor what a record holds, so its
content, at most 16 MiB, is free at each read (R68, log 59). -/
def domCapture (m : Mach) (idx sub : Nat) : List Byte × Mach :=
  if idx = 0x5300 then ((Config.trace m.freeCtr).take 16777216, { m with freeCtr := m.freeCtr + 1 })
  else (domContent m idx sub, m)

/-- A read transfer of the field trace buffer is open: recording pauses, and the records lost in a tick are counted (R68, R391). -/
def traceLost (m : Mach) : Mach :=
  if m.dic.xfers.any (fun e => e.2.idx == 0x5300 && !e.2.closed) then m.free.2.incBy R.DBG_TRACE_LOST m.free.1 else m

/-- The size rules of a write transfer (R68, R107, R183); a Turret program is whole instructions (DEDUCED, log 34). -/
def domSizeOk (m : Mach) (idx n : Nat) : Bool :=
  if idx / 256 = 0x50 then
    n % 8 == 0 && decide (n / 8 ≤ min 8192 (poolFree m + m.rd (R.WHL_TBL_LEN (idx - 0x5000))))
  else if idx / 256 = 0x51 then n % 32 == 0 && decide (n / 32 ≤ camFree m)
  else n % 4 == 0 && decide (n ≤ 4096)

/-- The lowest free handle: the first transfer of a module gets handle 1, as in the worked example (DEDUCED, log 34). -/
def freeHandle (m : Mach) : Option Nat := [1, 2, 3, 4].find? (fun h => !(m.dic.xfers.any (fun e => e.1 == h)))

def setXfer (h : Nat) (x : Xfer) (m : Mach) : Mach := { m with dic := { m.dic with xfers := mapPut h x m.dic.xfers } }

def delXfer (h : Nat) (m : Mach) : Mach := { m with dic := { m.dic with xfers := mapDel h m.dic.xfers } }

def getXfer (m : Mach) (h : Nat) : Option Xfer := (m.dic.xfers.find? (fun e => e.1 == h)).map (·.2)

/-- DOMAIN_OPEN_READ. -/
def domOpenRead (r : Route) (x : Named) (idx sub : Nat) (m : Mach) : DicRes × Mach :=
  if x.acc = .wo then (.error .readOnly, m)
  else
    match freeHandle m with
    | none => (.error .busy, m)
    | some h =>
      let c := (domCapture m idx sub).1
      (.ok (c.length, toLe 4 (crc32 c) ++ toLe 1 h), setXfer h
        { route := r, idx := idx, sub := sub, wr := false, total := c.length, crc := crc32 c, data := c, last := m.tb.sclk }
        (domCapture m idx sub).2)

/-- DOMAIN_OPEN_WRITE. -/
def domOpenWrite (w : Writer) (r : Route) (x : Named) (idx sub n crc : Nat) (m : Mach) : DicRes × Mach :=
  match writeBar w idx x.acc x.mach false true m with
  | some a => (.error a, m)
  | none =>
    if !domSizeOk m idx n then (.error .size, m)
    else if m.dic.xfers.any (fun e => e.2.wr && !e.2.closed && e.2.idx == idx && e.2.sub == sub) then (.error .busy, m)
    else
      match freeHandle m with
      | none => (.error .busy, m)
      | some h =>
        (.ok (0, toLe 1 h), setXfer h
          { route := r, idx := idx, sub := sub, wr := true, total := n, crc := crc, data := [], last := m.tb.sclk } m)

/-- DOMAIN_SEGMENT: check 15, then the bytes go in or come out. Data that would run past the total length is out of sequence
as well. -/
def domSegment (h : Nat) (x : Xfer) (off : Nat) (d : List Byte) (m : Mach) : DicRes × Mach :=
  if off ≠ x.next ∨ x.total ≤ off ∨ (x.wr ∧ x.total < off + d.length) then (.error .sequence, m)
  else if x.wr then
    (.ok (off, []), setXfer h { x with data := x.data ++ d, next := off + d.length, last := m.tb.sclk } m)
  else
    let out := (x.data.drop off).take 240
    (.ok (off, out), setXfer h { x with next := off + out.length, last := m.tb.sclk } m)

/-- The owning unit commits a content, or refuses it by its rules and its commit condition (R65, R107, R109, R186, R187,
R324). -/
def domCommit (idx sub : Nat) (c : List Byte) (m : Mach) : Except (Abort × Mach) Mach :=
  if idx / 256 = 0x50 then
    let d := idx - 0x5000
    if !c.isEmpty && !tblOk c then .error (.range, m)
    else if m.whlState d ≠ 0 then .error (.running, m)
    else .ok (whlCommit d c m)
  else if idx / 256 = 0x51 then
    match camCommit (16 * (idx - 0x5100) + (sub - 1)) c m with
    | .ok m1 => .ok m1
    | .error a => .error (a, m)
  else
    let e := idx - 0x5200
    if (m.engine e).st ≠ 0 then .error (.running, turCommitRefused e m) else .ok (turCommit e c m)

/-- DOMAIN_CLOSE: a refused write discards its staging buffer. Over CAN FD the content's CRC is not asked (R472). -/
def domClose (h : Nat) (x : Xfer) (m : Mach) : DicRes × Mach :=
  let m1 := (delXfer h m).assertSrc 419
  if !x.wr then (.ok (0, []), m1)
  else if x.data.length ≠ x.total then (.error .size, m1)
  else if x.route ≠ .can0 ∧ x.route ≠ .can1 ∧ crc32 x.data ≠ x.crc then (.error .crc, m1)
  else
    match domCommit x.idx x.sub x.data m1 with
    | .ok m2 => (.ok (0, []), m2)
    | .error (a, m2) => (.error a, m2)

/-! ## Safety sessions (R495 to R497) -/

/-- A SESSION record: subcommand, route, handle, failure. -/
def sessLog (sub h : Nat) (r : Route) (fail : Bool) (m : Mach) : Mach :=
  let n := routeNo r m
  (safLog 6 sub n.1 (h * 256 + boolNat fail) n.2).assertSrc 420

def sessFind (m : Mach) (h : Nat) : Option Sess := m.saf.sess.find? (fun s => s.handle == h)

def sessSet (l : List Sess) (m : Mach) : Mach := { m with saf := { m.saf with sess := l } }

/-- A handle no session holds: which one is open. -/
def newHandle (m : Mach) (seed : Nat) : Nat :=
  (((List.range 255).map (fun i => 1 + (seed + i) % 255)).find? (fun h => (sessFind m h).isNone)).getD 1

/-- There is room for one more open session, and the route has none. -/
def sessRoom (m : Mach) (r : Route) : Bool :=
  let o := m.saf.sess.filter (·.isOpen)
  decide (o.length < 2) && !o.any (fun s => s.route == r)

/-- CHALLENGE: a handle and a nonce of 16 bytes, both open values. A new challenge of a route replaces its last one. -/
def sessChallenge (r : Route) (m : Mach) : DicRes × Mach :=
  if m.saf.key.isNone then (.error .notReady, m)
  else if m.now < m.saf.lockUntil ∨ !sessRoom m r then (.error .busy, m)
  else
    let h := newHandle m m.free.1
    let m1 := m.free.2
    let nonce := toLe 16 m1.free.1
    let kept := m1.saf.sess.filter (fun s => s.isOpen || s.route != r)
    (.ok (h * 256, nonce), sessSet (kept ++ [⟨h, r, nonce, false, m.now⟩]) m1.free.2)

/-- The proof of a challenge (R495). -/
def sessProof (key nonce : List Byte) (no h : Nat) : List Byte :=
  hmac256 key (nonce ++ toLe 8 Config.serial ++ toLe 1 no ++ toLe 1 h)

/-- A failed proof: three in a row bar challenges for 10 s (R496). -/
def sessFailed (h : Nat) (r : Route) (m : Mach) : Mach :=
  let n := m.saf.fails + 1
  let m1 := sessLog 2 h r true (m.inc R.SAF_CNT_AUTH_FAIL)
  if n < 3 then { m1 with saf := { m1.saf with fails := n } }
  else { m1 with saf := { m1.saf with fails := 0, lockUntil := m.now + 4000000000 } }

/-- PROVE. -/
def sessProve (r : Route) (h : Nat) (d : List Byte) (m : Mach) : DicRes × Mach :=
  match sessFind m h, m.saf.key with
  | some s, some key =>
    if s.isOpen ∨ s.route ≠ r ∨ s.at_ + 800000000 < m.now then (.error .session, sessFailed h r m)
    else
      let no := routeNo r m
      if d ≠ sessProof key s.nonce no.1 h then (.error .session, sessFailed h r no.2)
      else if !sessRoom m r then (.error .busy, no.2)
      else
        let m1 := sessSet (no.2.saf.sess.map (fun x => if x.handle = h then { x with isOpen := true, at_ := m.now } else x)) no.2
        (.ok (h * 256, []), sessLog 2 h r false { m1 with saf := { m1.saf with fails := 0 } })
  | _, _ => (.error .session, sessFailed h r m)

/-- A session closes. -/
def sessEnd (h : Nat) (m : Mach) : Mach :=
  match sessFind m h with
  | some s => if s.isOpen then sessLog 3 h s.route false (sessSet (m.saf.sess.filter (fun x => x.handle != h)) m) else m
  | none => m

/-- The SESSION opcode at the monitor; no session opens over CAN FD, and a subcommand that is not defined is out of range
(DEDUCED, log 35). -/
def dicSession (r : Route) (q : Req) (m : Mach) : DicRes × Mach :=
  let sub := q.arg.toNat % 256
  let h := q.arg.toNat / 256 % 256
  if r = .can0 ∨ r = .can1 then (.error .session, m)
  else if sub = 1 then sessChallenge r m
  else if sub = 2 then sessProve r h q.data m
  else if sub = 3 then
    if q.session = 0 then (.error .session, m) else (.ok (0, []), sessEnd q.session.toNat m)
  else (.error .range, m)

/-- Every request that names an open session keeps it awake. -/
def sessTouch (h : Nat) (m : Mach) : Mach :=
  if h = 0 then m
  else sessSet (m.saf.sess.map (fun s => if s.handle = h ∧ s.isOpen then { s with at_ := m.now } else s)) m

/-! ## Executing a request at the owning side -/

/-- Checks 11 to 16 and the operation of a request that passed the service's own checks. The CRC of a DOMAIN_OPEN_WRITE whose data is
shorter than 4 bytes is what they give, its missing bytes 0 (log 34). -/
def dicExec (r : Route) (op : Nat) (q : Req) (m : Mach) : DicRes × Mach :=
  let idx := q.index.toNat
  let sub := q.sub.toNat
  let w : Writer := .dict r q.session
  let h := q.handle.toNat
  if op = 8 then dicSession r q m
  else
    match named m idx sub with
    | none => (.error (if indexOk m idx then .noSub else .noObject), m)
    | some x =>
      match op with
      | 1 => dicRead x (idx * 256 + sub) m
      | 2 =>
        match dicWrite w x idx sub q.data m with
        | .ok m1 => (.ok (0, []), m1)
        | .error a => (.error a, m)
      | 3 => domOpenRead r x idx sub m
      | 4 => domOpenWrite w r x idx sub q.arg.toNat (fieldAt 0 4 q.data) m
      | _ =>
        match getXfer m h with
        | none => (.error .handle, m)
        | some t =>
          match op with
          | 5 => domSegment h t q.arg.toNat q.data m
          | 6 => domClose h t m
          | _ => (.ok (0, []), (delXfer h m).assertSrc 419)

/-! ## The service's own checks (R59 checks 1 to 10) -/

def opOk (op : Nat) (handle : Nat) : Bool :=
  decide (1 ≤ op) && decide (op ≤ 9) && (op == 5 || op == 6 || op == 7 || handle == 0)

/-- The request writes: WRITE, DOMAIN_OPEN_WRITE, or a segment or the close of a write transfer (check 10). -/
def opWrites (m : Mach) (op h : Nat) : Bool :=
  op == 2 || op == 4 || ((op == 5 || op == 6) && (getXfer m h).any (·.wr))

/-- Check 8: the handle names a transfer open on this index, subindex and route; one that the service closed for idleness or
a loss is told so (R67). -/
def handleBar (m : Mach) (r : Route) (op : Nat) (q : Req) : Option Abort :=
  if op = 5 ∨ op = 6 ∨ op = 7 then
    match getXfer m q.handle.toNat with
    | none => some .handle
    | some x =>
      if x.closed then some .idle
      else if x.idx ≠ q.index.toNat ∨ x.sub ≠ q.sub.toNat ∨ x.route ≠ r then some .handle
      else none
  else none

/-- The abort of the first check among 1 to 10 that fails. -/
def dicBar (op : Nat) (q : Req) (m : Mach) : Option Abort :=
  let r := q.route
  let idx := q.index.toNat
  let sub := q.sub.toNat
  if !q.whole then some .frame
  else if !opOk op q.handle.toNat then some .opcode
  else if !routeOpen m r then some .route
  else if q.session ≠ 0 ∧ !sessionOpen m r q.session.toNat then some .session
  else if op = 9 then none
  else if !indexOk m idx then some .noObject
  else
    match named m idx sub with
    | none => some .noSub
    | some x =>
      if op ≠ 8 ∧ (x.ty = .dom) ≠ (3 ≤ op) then some .notDomain
      else
        match handleBar m r op q with
        | some a => some a
        | none =>
          if (op = 8 ∨ ownerOf idx = .field) ∧ (fieldBar m).isSome then fieldBar m
          else if awaits m ⟨idx, sub, 0⟩ then some .notReady
          else if opWrites m op q.handle.toNat ∧ fenced m ∧ !inRed idx then some .fenced
          else none

/-- A refusal of the handle check by idleness frees the handle. -/
def dicRefused (op : Nat) (q : Req) (a : Abort) (m : Mach) : Mach :=
  if a = .idle ∧ (op = 5 ∨ op = 6 ∨ op = 7) then delXfer q.handle.toNat m else m

/-! ## Answers -/

/-- Slots of the mailboxes (R74, R76, R77). -/
def slotKey (r : Route) (slot : Nat) : Nat := 16 * routeBit r + slot

def getSlot (m : Mach) (r : Route) (slot : Nat) : Slot := mapGet {} (slotKey r slot) m.dic.slots

def setSlot (r : Route) (slot : Nat) (x : Slot) (m : Mach) : Mach :=
  { m with dic := { m.dic with slots := mapSet {} (slotKey r slot) x m.dic.slots } }

/-- The response words of the parallel port (R77). -/
def parWords : List Byte → List (BitVec 16)
  | [] => []
  | [a] => [BitVec.ofNat 16 a.toNat]
  | a :: b :: rest => BitVec.ofNat 16 (a.toNat + 256 * b.toNat) :: parWords rest

/-- A response stands ready in a slot: the port's Belfry source, or MSI-X vector 0 where it is enabled (R74, R393). -/
def slotReady (r : Route) (slot : Nat) (f : List Byte) (m : Mach) : Mach :=
  let m1 := setSlot r slot { busy := false, ready := true, rsp := f } m
  match r with
  | .qspi => m1.assertSrc 409
  | .par => { m1 with dic := { m1.dic with parOut := parWords f } }.assertSrc 410
  | .pcie => if bit (4 + slot) m1.dic.mbxIrqEn && m1.pwr.msixEn then m1.send .msix [0] else m1
  | _ => m1

/-- A VLP DIC_RSP PDU (R450, R452). -/
def dicPdu (m : Mach) (f : List Byte) : List Byte :=
  [1, 3] ++ toLe 2 (m.rd R.NET_NODE) ++ [0, 0] ++ toLe 2 f.length ++ List.replicate 8 0 ++ f

/-- An answer over a CAN controller's route: to its SDO server, to a TPDO that reads, or for an RPDO's write to nobody. -/
def canDeliver (k : Nat) (a : Ask) (f : List Byte) (m : Mach) : Mach :=
  let err := fieldAt 7 1 f = 1
  match a.q.slot.val with
  | 0 => sdoAnswer k a.op a.q.tag.toNat (if err then some (fieldAt 8 4 f) else none) (fieldAt 8 4 f) (f.drop 16) m
  | 2 => tpdoAnswer k a.q.tag.toNat (decide err) (f.drop 16) m
  | _ => m

/-- The answer goes to its requester. -/
def dicDeliver (a : Ask) (f : List Byte) (m : Mach) : Mach :=
  let m1 := m.send (.rsp a.q.route) (f.map (·.toNat))
  match a.q.route with
  | .vlp =>
    match a.org with
    | some o => vlpSend ⟨o.mac, o.ip, o.udp⟩ (dicPdu m1 f) o.port m1
    | none => m1
  | .can0 => canDeliver 0 a f m1
  | .can1 => canDeliver 1 a f m1
  | .pcie => slotReady .pcie a.q.slot.val f m1
  | .qspi => slotReady .qspi a.q.slot.val f m1
  | .par => slotReady .par 0 f m1
  | .spire _ => m1

/-- A request is answered; an abort is recorded (R63). -/
def dicAnswer (a : Ask) (x : DicRes) (m : Mach) : Mach :=
  let m1 := match x with
    | .ok _ => m
    | .error e => abortRecord a.q.route a.q.index.toNat a.q.sub.toNat e.code m
  dicDeliver a (rspFrame a.op a.q x) m1

/-! ## The end of a STORE (R61, R70) -/

/-- The answer to a STORE goes to whoever waits for it. -/
def storeAnswer (x : DicRes) (m : Mach) : Mach :=
  let m1 := { m with dic := { m.dic with storeFor := .nobody } }
  match m.dic.storeFor with
  | .nobody => m1
  | .route r =>
    (match x with
     | .ok _ => m1.send (.rsp r) [0, 0]
     | .error a => (abortRecord r R.DIC_STORE.idx R.DIC_STORE.sub a.code m1).send (.rsp r) [1, a.code])
  | .ask a => dicAnswer a x m1

/-- A STORE runs at the host: BUSY stands and neither RELOAD nor FACTORY does. -/
def storeRuns (m : Mach) : Bool := persBusy m && !m.bar.reload && !m.bar.factory

/-- A store that cannot be completed: the previous image stays in force, and where the response is still to come it is the
store-failed abort (R70). -/
def storeFail (m : Mach) : Mach :=
  if storeRuns m then
    storeAnswer (.error .store) (((m.putBit R.DIC_PERS_STATUS 1 true).putBit R.DIC_PERS_STATUS 0 false).assertSrc 418)
  else m

/-- The host's block has come whole to a store under way at the field. -/
def storeReady (m : Mach) : Bool := m.dic.storing.isSome && blockWhole m.bar.persIn

/-- STORE_COMPLETE at the field: the header is written and the host is told; a store whose block has not come whole is given up. -/
def storeCompleteEffect (m : Mach) : Mach :=
  match m.dic.storing with
  | some i => if blockWhole m.bar.persIn then storeWritten i m else storeDrop m
  | none => m

/-- What the host shows of the newest image: its bank and its length. -/
def imageShow (p : List Byte) (m : Mach) : Mach :=
  (m.putBit R.DIC_PERS_STATUS 3 (bit 0 (fieldAt 5 1 p))).wr R.DIC_STORED_BYTES (fieldAt 10 4 p)

/-- A STORE has completed: BUSY, FAILED and FACTORY_PENDING clear, and the store is counted as the image's header counts it (R73, R79). -/
def storeEnded (p : List Byte) (m : Mach) : Mach :=
  let m1 := (((imageShow p m).putBit R.DIC_PERS_STATUS 0 false).putBit R.DIC_PERS_STATUS 1 false).putBit R.DIC_PERS_STATUS 2 false
  storeAnswer (.ok (0, [])) ((m1.wr R.DIC_STORE_COUNT (fieldAt 6 4 p)).assertSrc 418)

/-- A FACTORY has been carried out: defaults apply at the next reset. -/
def factoryEnded (p : List Byte) (m : Mach) : Mach :=
  let m1 := (imageShow p { m with bar := { m.bar with factory := false } }).putBit R.DIC_PERS_STATUS 0 false
  storeAnswer (.ok (0, [])) ((m1.putBit R.DIC_PERS_STATUS 2 true).assertSrc 418)

/-- The field refused a RELOAD. -/
def reloadRefused (m : Mach) : Mach :=
  storeAnswer (.error .running)
    ({ m with bar := { m.bar with reload := false, restored := [] } }.putBit R.DIC_PERS_STATUS 0 false)

/-- The field's answer to a command, where one waits for it. -/
def noticeContent (p : List Byte) (m : Mach) : Mach :=
  if fieldAt 4 1 p = 1 then (if m.bar.reload then reloadRefused m else m)
  else if m.bar.factory then factoryEnded p m
  else if storeRuns m then storeEnded p m
  else m

/-- PERS_RESTORE's content at the host: a piece of the block, or a notice. -/
def persRestoreContent (p : List Byte) (m : Mach) : Mach :=
  if fieldAt 0 4 p = noticeOff then noticeContent p m else restoreContent p m

/-- The service answers a request on a host-owned object within 2 µs of accepting it (R61), one that the field still works on at the end
of that time (log 52). -/
def storeAnswerDue (m : Mach) : Bool :=
  (match m.dic.storeFor with
   | .nobody => false
   | _ => true) && decide (m.dic.storeAt + 1600 ≤ m.tb.sclk)

/-- A command has taken its 10 ms (R73): a STORE that has not completed fails. -/
def persLate (m : Mach) : Bool := persBusy m && decide (m.dic.storeAt + 8000000 ≤ m.tb.sclk)

/-- A request that starts a persistence command is answered later. -/
def startsStore (a : Ask) (x : DicRes) : Bool :=
  a.op == 2 && a.q.index.toNat == R.DIC_STORE.idx && decide (1 ≤ a.q.sub.toNat) && decide (a.q.sub.toNat ≤ 3) &&
  (match x with
   | .ok _ => true
   | .error _ => false)

def storeWaits (f : StoreFor) (m : Mach) : Mach := { m with dic := { m.dic with storeFor := f } }

/-! ## Forwarding (R424) -/

/-- A free XID. -/
def freeXid (m : Mach) : Option Nat :=
  (List.range 8).find? (fun x => !(m.bar.fwds.any (fun e => e.1 == x)) && !(m.bar.dead.contains x))

/-- Fragments of a frame from index `i`. -/
def fragments (xid auth : Nat) : Nat → Nat → List Byte → List (List Byte)
  | 0, _, _ => []
  | n + 1, i, l =>
    let fin := decide (l.length ≤ 52)
    (toLe 1 xid ++ toLe 1 (i + boolNat fin * 128) ++ toLe 1 auth ++ [0] ++ l.take 52) ::
      (if fin then [] else fragments xid auth n (i + 1) (l.drop 52))

/-- The XID byte of a request: its number among the eight that may be open, and above it the request's route, which R496 has the agent
know and no other field of DIC_REQ carries (log 46). -/
def xidByte (r : Route) (xid : Nat) : Nat := xid + 8 * routeBit r

/-- The route that an XID byte names. -/
def xidRoute (b : Nat) : Route := [Route.vlp, .can0, .can1, .pcie, .qspi, .par, .spire 0, .spire 1].getD (b / 8) .vlp

/-- A request goes to the field dictionary agent. -/
def forward (a : Ask) (xid : Nat) (m : Mach) : Mach :=
  let m1 := { m with bar := { m.bar with fwds := mapPut xid { ask := a, at_ := m.tb.sclk } m.bar.fwds } }
  m1.each (fragments (xidByte a.q.route xid) (boolNat (a.q.session != 0)) 6 0 (reqFrame a.op a.q)) (fun p m => linkQueue .host 7 p m)

/-- The monitor owns SESSION, and ECHO needs no side. -/
def askField (a : Ask) : Bool := a.op == 8 || (a.op != 9 && ownerOf a.q.index.toNat == .field)

/-! ## The order of execution (R41) -/

/-- The service takes up the oldest waiting request: a refusal is answered at once, a field request is forwarded on a free
XID, and one of the host's own waits until every earlier forwarded one is answered. None when the oldest must wait. -/
def dicStep (a : Ask) (m : Mach) : Option Mach :=
  match dicBar a.op a.q m with
  | some e => some (dicAnswer a (.error e) (dicRefused a.op a.q e m))
  | none =>
    let m1 := sessTouch a.q.session.toNat m
    if askField a then (freeXid m1).map (fun x => forward a x m1)
    else if !m1.bar.fwds.isEmpty then none
    else if a.op = 9 then some (dicAnswer a (.ok (a.q.arg.toNat, a.q.data)) m1)
    else
      let r := dicExec a.q.route a.op a.q m1
      some (if startsStore a r.1 then storeWaits (.ask a) r.2 else dicAnswer a r.1 r.2)

/-- Executes what can be executed of the waiting requests. -/
def dicPump : Nat → Mach → Mach
  | 0, m => m
  | n + 1, m =>
    match m.dic.waiting with
    | [] => m
    | a :: rest =>
      match dicStep a { m with dic := { m.dic with waiting := rest } } with
      | some m1 => dicPump n m1
      | none => m

/-- How often a pump is run at most: an answer over CAN FD may ask again. -/
def pumpFuel (m : Mach) : Nat := 2 * m.dic.waiting.length + 8

def dicRun (m : Mach) : Mach := dicPump (pumpFuel m) m

/-- A request reaches the service. The host side in SLEEP or reset takes none. -/
def dicRequest (a : Ask) (m : Mach) : Mach := if m.hostOff then m else dicRun (askPut a m)

/-! ## The field dictionary agent (R424) -/

/-- A whole request at the agent: executed, or refused in a Keep debug halt (R31), and answered in fragments. -/
def agentExec (xid : Nat) (l : List Byte) (m : Mach) : Mach :=
  let a := reqOf (xidRoute xid) 0 l
  let r := if m.keepHalted then ((.error .halted : DicRes), m) else dicExec a.2.route a.1 a.2 m
  r.2.each (fragments xid 0 6 0 (rspFrame a.1 a.2 r.1)) (fun p m => linkQueue .field 8 p m)

/-- DIC_REQ's content at the field end. -/
def dicReqContent (p : List Byte) (m : Mach) : Mach :=
  let xid := fieldAt 0 1 p
  let i := fieldAt 1 1 p % 128
  let old : Part := if i = 0 then {} else mapGet {} xid m.bar.parts
  if i ≠ old.next then { m with bar := { m.bar with parts := mapDel xid m.bar.parts } }
  else
    let got := old.got ++ p.drop 4
    if bit 7 (fieldAt 1 1 p) then agentExec xid got { m with bar := { m.bar with parts := mapDel xid m.bar.parts } }
    else { m with bar := { m.bar with parts := mapPut xid ⟨got, i + 1, bit 0 (fieldAt 2 1 p)⟩ m.bar.parts } }

/-- A complete response of the field: the requester gets it as it stands, an abort is recorded. -/
def forwardDone (xid : Nat) (f : Fwd) (l : List Byte) (m : Mach) : Mach :=
  let m1 := { m with bar := { m.bar with fwds := mapDel xid m.bar.fwds } }
  let m2 := if fieldAt 7 1 l = 1 then
      abortRecord f.ask.q.route f.ask.q.index.toNat f.ask.q.sub.toNat (fieldAt 8 4 l) m1
    else m1
  dicRun (dicDeliver f.ask l m2)

/-- DIC_RSP's content at the host end; a response to an XID given up is discarded and the XID is free again. -/
def dicRspContent (p : List Byte) (m : Mach) : Mach :=
  let xid := fieldAt 0 1 p % 8
  let fin := bit 7 (fieldAt 1 1 p)
  match m.bar.fwds.find? (fun e => e.1 == xid) with
  | some (_, f) =>
    let got := f.got ++ p.drop 4
    if fin then forwardDone xid f got m
    else { m with bar := { m.bar with fwds := mapPut xid { f with got := got, next := f.next + 1 } m.bar.fwds } }
  | none =>
    if fin then dicRun { m with bar := { m.bar with dead := m.bar.dead.filter (fun e => e != xid) } } else m

/-- A forwarded request is given up with the outcome-unknown abort. -/
def forwardLost (xid : Nat) (f : Fwd) (m : Mach) : Mach :=
  dicAnswer f.ask (.error .unknown) { m with bar := { m.bar with fwds := mapDel xid m.bar.fwds } }

/-- FORWARD_TIMEOUT (R62). -/
def forwardTimeoutEffect (xid : Nat) (m : Mach) : Mach :=
  match m.bar.fwds.find? (fun e => e.1 == xid) with
  | some (_, f) =>
    let m1 := forwardLost xid f ((m.inc R.DIC_FWD_TIMEOUTS).assertSrc 417)
    dicRun { m1 with bar := { m1.bar with dead := m1.bar.dead ++ [xid] } }
  | none => m

/-- Every forwarded request at a barrier loss (R44). -/
def forwardsLost (m : Mach) : Mach :=
  let m1 := m.each m.bar.fwds (fun e m => forwardLost e.1 e.2 m)
  { m1 with bar := { m1.bar with fwds := [], dead := [] } }

/-- A transfer is closed by the service; source 419 tells (R67). -/
def xferClose (h : Nat) (m : Mach) : Mach :=
  match getXfer m h with
  | some x => if x.closed then m else (setXfer h { x with closed := true, data := [] } m).assertSrc 419
  | none => m

/-- Every transfer on a field-owned object closes at a barrier loss. -/
def xfersLost (m : Mach) : Mach := m.each (m.dic.xfers.map (·.1)) xferClose

/-- All sessions close at a barrier loss or a reset (R496). -/
def sessionsLost (m : Mach) : Mach :=
  let m1 := m.each (m.saf.sess.map (·.handle)) sessEnd
  sessSet [] m1

end Sys2Proof.Machine
end

