-- ==== Sys2Proof/Machine/Cyclic.lean ====
section
/-! DEFINITION. The cyclic data (R450 to R460): sampling and sending a cycle, receiving a CYCLIC PDU, the CYC_IN and CYC_OUT
messages, and a DIC_REQ PDU. -/

namespace Sys2Proof.Machine

/-! ## Records (R451) -/

def recBytes (r : Rec) : List Byte := [BitVec.ofNat 8 r.rtype, BitVec.ofNat 8 r.data.length, BitVec.ofNat 8 r.chan, 0] ++ r.data

/-- The records of a byte string; none where one overruns it. -/
def parseRecs : Nat → List Byte → Option (List Rec)
  | 0, l => if l.isEmpty then some [] else none
  | n + 1, l =>
    if l.isEmpty then some []
    else
      let len := fieldAt 1 1 l
      if l.length < 4 + len then none
      else (parseRecs n (l.drop (4 + len))).map (fun rest =>
        ⟨fieldAt 0 1 l, fieldAt 2 1 l, (l.drop 4).take len⟩ :: rest)

/-- RTYPE is defined and RLEN fits it. -/
def recOk (r : Rec) : Bool :=
  (r.rtype == 1 && r.data.length == 20) || (r.rtype == 2 && decide (1 ≤ r.data.length) && decide (r.data.length ≤ 8))

/-- Whole records gathered into payloads of at most 52 bytes; `cur` is the payload begun. -/
def packRecs (cur : List Byte) : List (List Byte) → List (List Byte)
  | [] => if cur.isEmpty then [] else [cur]
  | r :: rest => if cur.length + r.length ≤ 52 then packRecs (cur ++ r) rest else cur :: packRecs r rest

/-! ## Sampling (R454) -/

/-- The tick, as an exact number, at which field line time reaches t. -/
def tickAt (m : Mach) (t : Nat) : Rat :=
  (m.now : Rat) + ((t : Rat) - ((m.tb.lt : Rat) + (m.tb.frac : Rat) / 2 ^ 32)) * 2 ^ 32 / ((2 * 2 ^ 32 + m.rd R.LT_ADDEND : Nat) : Rat)

/-- A POSITION record: position to the nearest 2^-32 cycle, speed to the nearest 2^-16 ANG32 per tick. -/
def posRec (chan : Nat) (p v : Rat) (t : Nat) : Rec :=
  ⟨1, chan, toLe 8 (ofSigned 64 (ratNear p)) ++ toLe 4 (ofSigned 32 (satSigned 32 (ratNear (v * 65536)))) ++ toLe 8 t⟩

/-- An axis at an instant, extrapolated from its latest results; none in STOPPED, WAIT and FAULT, or with NET_OUT clear (R210). -/
def axSample (m : Mach) (a : Nat) (t : Rat) : Option (Rat × Rat) :=
  let st := m.axState a
  if st = 0 ∨ st = 1 ∨ st = 5 ∨ !bit 13 (m.rd (R.AX_CFG a)) then none
  else
    match (m.ax a).hist with
    | [] => none
    | e :: _ =>
      let dt : Rat := t - (e.te : Rat)
      let v : Rat := (e.sp : Rat) / 65536
      let c : Rat := (e.ac : Rat) / 4294967296
      some ((e.pos : Rat) + v * dt + c * dt * dt / 2, v + c * dt)

/-- A virtual master at an instant, at its current speed; none while it is disabled. -/
def vmSample (m : Mach) (v : Nat) (t : Rat) : Option (Rat × Rat) :=
  let x := m.vm v
  if x.run then
    let s : Rat := (x.speed : Rat) / 2 ^ 48
    some ((x.pos : Rat) / 2 ^ 48 + s * (t - (m.now : Rat)), s)
  else none

/-- A VALUE record. -/
def valueRec (e : MapEnt) (m : Mach) : Option Rec × Mach :=
  match named m e.idx e.sub with
  | none => (none, m)
  | some x =>
    match dicRead x (e.idx * 256 + e.sub) m with
    | (.ok (_, d), m1) => (some ⟨2, e.chan, d⟩, m1)
    | (.error _, m1) => (none, m1)

/-- The record of one entry of the transmit map for the cycle that begins at line time t. -/
def sampleRec (t : Nat) (e : MapEnt) (m : Mach) : Option Rec × Mach :=
  if e.kind = 1 then ((axSample m e.idx (tickAt m t)).map (fun x => posRec e.chan x.1 x.2 t), m)
  else if e.kind = 2 then ((vmSample m e.idx (tickAt m t)).map (fun x => posRec e.chan x.1 x.2 t), m)
  else valueRec e m

/-- The records of entries in map order. -/
def sampleRecs (t : Nat) : List MapEnt → Mach → List Rec × Mach
  | [], m => ([], m)
  | e :: rest, m =>
    let r := sampleRec t e m
    let s := sampleRecs t rest r.2
    (r.1.toList ++ s.1, s.2)

/-- t_n (R453). -/
def cycleTime (m : Mach) (n : Nat) : Nat := (m.rd R.NET_CYCLE_BASE + n * m.rd R.NET_CYCLE) % 2 ^ 64

def cycSet (m : Mach) (c : Nat) : CycSet := mapGet {} c m.net.sets

def setCycSet (c : Nat) (x : CycSet) (m : Mach) : Mach := updNet (fun n => { n with sets := mapPut c x n.sets }) m

/-- The field's samples of cycle n go out as CYC_OUT messages; the first begins with the count of refused mapped writes. -/
def fieldSample (n : Nat) (m : Mach) : Mach :=
  if !m.linked .field || m.fieldStill then m
  else
    let r := sampleRecs (cycleTime m n) ((txMap m).filter (·.field)) m
    let c := n % 2 ^ 32
    let l := packRecs (recBytes ⟨3, 0, toLe 4 m.net.refused⟩) (r.1.map recBytes)
    let m1 := setCycSet c { cycSet r.2 c with total := some l.length } r.2
    m1.each l (fun p m => linkQueue .field 10 (toLe 4 c ++ p) m)

/-- The host's own objects of cycle n; sets older than the last one go. -/
def hostSample (n : Nat) (m : Mach) : Mach :=
  let c := n % 2 ^ 32
  let m0 := updNet (fun x => { x with sets := x.sets.filter (fun e => e.1 == c || (e.1 + 1) % 2 ^ 32 == c) }) m
  let r := sampleRecs (cycleTime m0 n) ((txMap m0).filter (fun e => !e.field)) m0
  setCycSet c { cycSet r.2 c with own := r.1 } r.2

/-- CYCLE_SAMPLE of cycle n: the host's objects at the host, the others at the field. -/
def cycleSampleEffect (n : Nat) (m : Mach) : Mach :=
  if !m.on R.NET_RUN || m.pwr.hSleep then m else fieldSample n (hostSample n m)

/-! ## CYC_OUT at the host (R454, R460) -/

/-- The field's count of refused writes is copied. -/
def copyRefused (v : Nat) (m : Mach) : Mach :=
  let add := if m.net.copied ≤ v then v - m.net.copied else v
  updNet (fun n => { n with copied := v }) (m.incBy R.NET_CNT_MAP_REFUSED add)

/-- The set of cycle n is complete: every message that the field sent of it came. -/
def setWhole (m : Mach) (n : Nat) : Bool := (cycSet m (n % 2 ^ 32)).total == some (cycSet m (n % 2 ^ 32)).msgs

/-- The records of a complete set in the order of the transmit map. -/
def setRecs (m : Mach) (n : Nat) : List Rec :=
  let x := cycSet m (n % 2 ^ 32)
  (txMap m).filterMap (fun e => (x.recs ++ x.own).find? (fun r => r.chan == e.chan))

/-- The set of cycle n becomes the last complete one, whenever that happens. -/
def keepSet (n : Nat) (m : Mach) : Mach := if setWhole m n then updNet (fun x => { x with lastSet := setRecs m n }) m else m

/-- A CYC_OUT's content. -/
def cycOutContent (p : List Byte) (m : Mach) : Mach :=
  match parseRecs p.length (p.drop 4) with
  | none => m
  | some l =>
    let c := fieldAt 0 4 p
    let x := cycSet m c
    let m1 := setCycSet c { x with msgs := x.msgs + 1, recs := x.recs ++ l.filter (fun r => r.rtype != 3) } m
    (keepSet c m1).each (l.filter (fun r => r.rtype == 3)) (fun r m => copyRefused (leNat r.data) m)

/-! ## Sending a cycle (R450, R455, R466) -/

/-- Flags of the module's own frames. -/
def cycFlags (m : Mach) (stale : Bool) : Nat :=
  let st := m.rd R.RED_STATE
  boolNat (st == 0 || st == 3) + 2 * boolNat (st == 1 || st == 2) + 4 * boolNat (m.rd R.NET_LINE_ROLE == 1) + 8 * boolNat stale

/-- The CYCLIC PDU of cycle n. -/
def cycPdu (m : Mach) (n : Nat) (stale : Bool) (recs : List Rec) : List Byte :=
  let body := recs.flatMap recBytes
  [1, 1] ++ toLe 2 (m.rd R.NET_NODE) ++ toLe 1 (m.rd R.RED_ROLE) ++ toLe 1 (cycFlags m stale) ++ toLe 2 body.length ++
    toLe 4 (if m.on R.RED_EN then m.rd R.RED_EPOCH else 0) ++ toLe 4 n ++ body

/-- Where cyclic frames go; addresses with their first octet lowest, as NET_MCAST holds them. The group address of an IPv4
group is that of RFC 1112 (PRESUMED, log 32). -/
def cycDest (m : Mach) : VlpDest :=
  if m.rd R.NET_ENCAP = 1 then
    let g := m.rd R.NET_IP_MCAST
    ⟨0x5E0001 + bits 22 16 g * 2 ^ 24 + bits 15 8 g * 2 ^ 32 + bits 7 0 g * 2 ^ 40, g, m.rd R.NET_UDP_PORT⟩
  else ⟨m.rd R.NET_MCAST % 2 ^ 48, 0, 0⟩

/-- The frame goes out on every port of NET_PORTS, once on MACs 0 and 1 where it is replicated. -/
def cycSend (pdu : List Byte) (m : Mach) : Mach :=
  let on := (List.range 4).filter (portOn m)
  let ports := if m.on R.NET_CB_EN && on.contains 0 then on.filter (fun p => p != 1) else on
  m.each ports (fun p m => vlpSend (cycDest m) pdu p m)

/-- CYCLE_TX of cycle n. -/
def cycleTxEffect (n : Nat) (m : Mach) : Mach :=
  if !m.on R.NET_RUN || m.pwr.hSleep || m.rd R.RED_STATE == 4 then m
  else
    let whole := setWhole m n
    let m1 := if whole then keepSet n m
      else netRaise 3 (m.inc R.NET_CNT_LATE)
    let recs := if m.rd R.RED_STATE = 1 ∨ m.rd R.RED_STATE = 2 then [] else m1.net.lastSet
    cycSend (cycPdu m1 n (!whole) recs) m1

/-! ## Receiving VLP (R448, R449, R451) -/

/-- The encapsulation in force carries this frame; a UDP frame is for the module's address or the cyclic group. -/
def vlpMine (m : Mach) (f : VlpFrame) : Bool :=
  match f.udp with
  | none => m.rd R.NET_ENCAP == 0 && f.ethertype.toNat == m.rd R.NET_ETHERTYPE
  | some h => m.rd R.NET_ENCAP == 1 && h.sums && h.dstPort.toNat == m.rd R.NET_UDP_PORT &&
    (h.dst.toNat == m.rd R.NET_IPV4 || h.dst.toNat == m.rd R.NET_IP_MCAST)

/-- VER, KIND and LEN of a PDU are in order. -/
def pduOk (l : List Byte) : Bool :=
  decide (16 ≤ l.length) && fieldAt 0 1 l == 1 && decide (1 ≤ fieldAt 1 1 l) && decide (fieldAt 1 1 l ≤ 3) &&
  16 + fieldAt 6 2 l == l.length

/-- Bytes of a frame on the line, its VLAN tag included. -/
def frameLen (f : VlpFrame) : Nat :=
  18 + f.pdu.length + (if f.tagged then 4 else 0) + (if f.rtag.isSome then 6 else 0) + (if f.udp.isSome then 28 else 0)

/-- A frame arrives on a MAC: one that is too long is dropped (R442); past the encapsulation, the recovery and the checks of the header a PDU of kind k acts. A PDU of
another kind is not this command's. -/
def vlpReceive (p k : Nat) (f : VlpFrame) (act : List Byte → Mach → Mach) (m0 : Mach) : Mach :=
  if !portOn m0 p || (pduOk f.pdu && fieldAt 1 1 f.pdu != k) then m0
  else if 1522 < frameLen f then erroredFrameEffect p m0
  else
    let m := frameIn p m0
    if !vlpMine m f then m
    else
      let r := match f.rtag with
        | some s => if m.on R.NET_CB_EN && decide (p ≤ 1) then cbRecover f.src.toNat s.toNat m else (true, m)
        | none => (true, m)
      if !r.1 then r.2
      else if !pduOk f.pdu then r.2.inc R.NET_CNT_BAD
      else act f.pdu r.2

/-- VLP_DIC_REQ: one request frame on the route VLP. -/
def vlpDicEffect (p : Nat) (f : VlpFrame) (m : Mach) : Mach :=
  vlpReceive p 2 f (fun l m =>
    let a := reqOf .vlp 0 (l.drop 16)
    let org : VlpOrg := match f.udp with
      | some h => ⟨p, f.src.toNat, h.src.toNat, h.srcPort.toNat⟩
      | none => ⟨p, f.src.toNat, 0, 0⟩
    dicRequest ⟨a.1, a.2, some org⟩ m) m

/-! ## A CYCLIC PDU (R459, R462, R464) -/

/-- Records of field-owned targets in map order, each with the number of its entry in place of its channel (DESIGN CHOICE,
log 36). -/
def fieldRecs (role : Nat) (recs : List Rec) (m : Mach) : List Rec :=
  ((rxMap m).filter (fun e => e.role == role && e.field)).flatMap (fun e =>
    (recs.filter (fun r => r.chan == e.chan && r.rtype == e.kind)).map (fun r => { r with chan := e.no }))

/-- A record of a host-owned object is written, without machine authority; a refusal is counted. -/
def hostRec (e : MapEnt) (r : Rec) (m : Mach) : Mach :=
  match named m e.idx e.sub with
  | none => m.inc R.NET_CNT_MAP_REFUSED
  | some x =>
    match dicWrite (.dict .vlp 0) x e.idx e.sub r.data m with
    | .ok m1 => m1
    | .error _ => m.inc R.NET_CNT_MAP_REFUSED

/-- The entry a record matches: POSITION for a network master input, VALUE for an object. -/
def recEntry (m : Mach) (role : Nat) (r : Rec) : Option MapEnt :=
  (rxMap m).find? (fun e => e.role == role && e.chan == r.chan && e.kind == r.rtype)

/-- The records of an accepted PDU. -/
def recsApply (role cycle : Nat) (recs : List Rec) (m : Mach) : Mach :=
  let m1 := m.each recs (fun r m =>
    match recEntry m role r with
    | none => m.inc R.NET_CNT_UNMAPPED
    | some e => if e.field then m else hostRec e r m)
  m1.each ((packRecs [] ((fieldRecs role recs m1).map recBytes)).take 6) (fun p m => linkQueue .host 9 (toLe 4 cycle ++ p) m)

/-- The CYCLE test and what follows it. -/
def cycAccept (role cycle : Nat) (recs : List Rec) (m : Mach) : Mach :=
  let last := mapGet 0 role m.net.cycles
  if last = 0 ∨ serialNewer cycle (last - 1) then
    recsApply role cycle recs (updNet (fun n => { n with cycles := mapPut role (cycle + 1) n.cycles }) m)
  else m.inc R.NET_CNT_OLD_CYCLE

/-- An own-role ACTIVE frame was heard: in a cycle-start tick, in the cycle that ended (R456). -/
def redHear (m : Mach) : Mach := updNet (fun n => if n.cycDue then { n with redCnt := 0 } else { n with redHeard := true }) m

/-- A PDU with ACTIVE: the role table drops it, or it acts on the mirror pair (R467) and on its partner, and is accepted by its cycle. -/
def cycActive (role node epoch cycle : Nat) (recs : List Rec) (m : Mach) : Mach :=
  let own := role == m.rd R.RED_ROLE && node != m.rd R.NET_NODE
  let t := roleTest role node epoch m
  if !t.1 then t.2
  else
    let m1 := partnerHeard node cycle (if own then redFrame node epoch t.2 else t.2)
    cycAccept role cycle recs (if own then redHear m1 else m1)

/-- The content of a CYCLIC PDU. -/
def cyclicPdu (l : List Byte) (m : Mach) : Mach :=
  match parseRecs l.length (l.drop 16) with
  | none => m.inc R.NET_CNT_BAD
  | some recs =>
    if !recs.all recOk then m.inc R.NET_CNT_BAD
    else if !m.on R.NET_RUN then m
    else
      let node := fieldAt 2 2 l
      let cycle := fieldAt 12 4 l
      if bit 0 (fieldAt 5 1 l) then cycActive (fieldAt 4 1 l) node (fieldAt 8 4 l) cycle recs m
      else partnerHeard node cycle m

/-- Among the PDUs of one role the lower MAC goes first, else the order of arrival stays (R459, R469). -/
def pduInsert (x : Nat × List Byte) : List (Nat × List Byte) → List (Nat × List Byte)
  | [] => [x]
  | y :: rest => if fieldAt 4 1 y.2 = fieldAt 4 1 x.2 ∧ x.1 < y.1 then x :: y :: rest else y :: pduInsert x rest

/-- A CYCLIC PDU waits for the end of its tick, where frames come after the dictionary writes (R469). -/
def pduHold (p : Nat) (l : List Byte) (m : Mach) : Mach := updNet (fun n => { n with inbox := pduInsert (p, l) n.inbox }) m

/-- The CYCLIC PDUs of a tick. -/
def framesTake (m : Mach) : Mach := (updNet (fun n => { n with inbox := [] }) m).each m.net.inbox (fun e m => cyclicPdu e.2 m)

def vlpCyclicEffect (p : Nat) (f : VlpFrame) (m : Mach) : Mach :=
  vlpReceive p 1 f (fun l m => pduHold p l (rxStamp p f.stamp.toNat m)) m

/-! ## CYC_IN at the field (R459, R460) -/

/-- One record at the field: a whole sample, or a write that is counted where the object refuses it. -/
def cycInRec (r : Rec) (m : Mach) : Mach :=
  let e := mapEnt r.chan (m.rd (R.NET_RXMAP r.chan))
  if r.rtype = 1 then nmSample e.idx (fieldAt 0 8 r.data) (fieldAt 8 4 r.data) (fieldAt 12 8 r.data) m
  else
    match (named m e.idx e.sub).map (fun x => dicWrite (.dict .vlp 0) x e.idx e.sub r.data m) with
    | some (.ok m1) => m1
    | _ => updNet (fun n => { n with refused := min 0xFFFFFFFF (n.refused + 1) }) m

/-- A CYC_IN's content; in a Keep debug halt it is discarded and counted (R438). -/
def cycInContent (p : List Byte) (m : Mach) : Mach :=
  if m.keepHalted then m.inc R.BAR_F_CNT_HALT_DROP
  else
    match parseRecs p.length (p.drop 4) with
    | none => m
    | some l => m.each l cycInRec

end Sys2Proof.Machine
end

