-- ==== Sys2Proof/Machine/BarMsg.lean ====
section
/-! DEFINITION. What the messages of the catalogue do that no other chapter takes up, entry to LINKED and QUIET, and the loss
of the link with its reactions (R417, R423, R426, R434 to R439). -/

namespace Sys2Proof.Machine

/-! ## LINKED (R417, R439) -/

/-- Entry actions. The field's restored values and SAFE_STATUS go to the host; the host calibrates, takes the counters of the
first SAFE_STATUS, and loads a field without an image. -/
def barLinked (s : Side) (m : Mach) : Mach :=
  let m1 := barRaise s 0 (barEnter s 3 m)
  match s with
  | .host =>
    let m2 := calStartEffect (match m1.bar.early with
      | some (a, b) => adopt a b m1
      | none => { m1 with bar := { m1.bar with adopted := false } })
    if m2.bar.helloVer = 0 then fwStart { m2 with bar := { m2.bar with fwOut := none } } else m2
  | .field =>
    let m2 := sendRestore m1
    statusSync { m2 with bar := { m2.bar with status := none } }

/-- HELLO received and the own one acknowledged. -/
def barTryLink (s : Side) (m : Mach) : Mach :=
  if m.barState s = 2 ∧ (m.barEnd s).gotHello ∧ helloAcked m s then barLinked s m else m

/-- A LINK's content, which may acknowledge the own HELLO. -/
def linkEffect (s : Side) (f : LinkFrame) (m : Mach) : Mach :=
  linkMessage s 1 f (fun p m => barTryLink s (linkContent s (fieldAt 2 2 f.bytes) p m)) m

/-- HELLO's content; the host shows the field firmware's version that it carries (R79). -/
def helloContent (s : Side) (p : List Byte) (m : Mach) : Mach :=
  let m1 := m.updEnd s (fun e => { e with gotHello := true })
  barTryLink s (if s = .host then
      { m1 with bar := { m1.bar with helloVer := fieldAt 8 4 p } }.wr R.DIC_FIELD_FW_VER (fieldAt 8 4 p)
    else m1)

/-! ## Loss and QUIET (R434 to R437) -/

/-- Assertions of the EVENT messages in a list. -/
def eventCount (l : List Msg) : Nat :=
  l.foldl (fun n g => if g.typ = 11 then
    (List.range (g.payload.length / 8)).foldl (fun n j => n + fieldAt (8 * j + 2) 1 g.payload) n else n) 0

/-- What an end had to send is lost with the link; forwarded assertions among it are counted (R396). Those sent and not
acknowledged count as lost (DEDUCED, log 38). -/
def barDrop (s : Side) (m : Mach) : Mach :=
  let e := m.barEnd s
  let n := e.evts.foldl (fun n x => n + x.2) 0 + eventCount (e.replay.map (·.2))
  (m.updEnd s (fun e => { e with evts := [], queue := [], replay := [], resend := [], due := false })).incBy (cntFwdLost s) n

/-- The field's loss reaction (R436). -/
def lossReact (m : Mach) : Mach :=
  if m.rd R.BAR_F_LOSS_REACT = 0 then m.alarm 14
  else
    let m1 := barRaise .field 7 m
    if m1.safe ∨ m1.bar.cstop.isSome then m1 else { m1 with bar := { m1.bar with cstop := some m1.now } }

/-- BARRIER_LOSS: 16 µs of silence. -/
def barLossEffect (s : Side) (m : Mach) : Mach :=
  if m.barState s ≠ 2 ∧ m.barState s ≠ 3 then m
  else
    let m1 := barRaise s 1 ((barDrop s (barEnter s 4 m)).inc (cntLoss s))
    match s with
    | .host =>
      let m2 := m1.wr R.BAR_H_LAST_LOSS m1.hlt
      sessionsLost (persDrop (storeFail (xfersLost (dicRun (forwardsLost (calStop m2))))))
    | .field =>
      let m2 := m1.wr R.BAR_F_LAST_LOSS m1.now
      lossReact (sessionsLost (storeDrop (xfersLost { m2 with bar := { m2.bar with parts := [] } })))

/-- CSTOP_LIMIT: the controlled stop's time has run out. -/
def cstopEffect (m : Mach) : Mach :=
  match m.bar.cstop with
  | some _ => if m.safe then m else m.alarm 14
  | none => m

def cstopDue (m : Mach) : Bool :=
  match m.bar.cstop with
  | some t => decide (t + 400000 * m.rd R.BAR_F_CSTOP_LIMIT ≤ m.now)
  | none => false

/-- STATE's content: the other side's state, and QUIET when its transmitter stops next. -/
def stateContent (s : Side) (p : List Byte) (m : Mach) : Mach :=
  let m1 := if s = .host then { m with bar := { m.bar with peerState := fieldAt 0 1 p } } else m
  if fieldAt 1 1 p = 1 ∧ m1.linked s then
    let m2 := barRaise s 2 (barDrop s (barEnter s 5 m1))
    match s with
    | .host => persDrop (storeFail (calStop m2))
    | .field =>
      let m3 := storeDrop m2
      if m3.rd R.BAR_F_QUIET_REACT = 1 then lossReact m3 else m3
  else m1

/-! ## EVENT and FW_LOAD (R396, R423, R438) -/

/-- The events of a message; an ID that is no source, or one of this side, is ignored. -/
def eventContent (s : Side) (p : List Byte) (m : Mach) : Mach :=
  m.each (List.range (p.length / 8)) (fun j m =>
    let id := fieldAt (8 * j) 2 p % 1024
    let n := min 15 (fieldAt (8 * j + 2) 1 p)
    if id < 512 ∧ srcOwner id ≠ s then belArrive s id n (fieldAt (8 * j + 4) 4 p) (j == 0) m else m)

/-- A FW_LOAD's content; in a Keep debug halt it is discarded and counted. -/
def fwLoadMessage (p : List Byte) (m : Mach) : Mach :=
  if m.keepHalted then m.inc R.BAR_F_CNT_HALT_DROP else fwLoadContent p m

end Sys2Proof.Machine
end

