-- ==== Sys2Proof/Machine/CmdBarrier.lean ====
section
/-! DEFINITION. The commands of the isolation barrier (chapter 13). -/

namespace Sys2Proof.Machine

/-- The command object of an end. -/
def barCmd : Side → Obj
  | .host => R.BAR_H_CMD
  | .field => R.BAR_F_CMD

/-- LANE_ALIGNMENT_LOSS (R416): a barrier receive lane loses its alignment, clearing its bit in BAR_x_LANES. -/
def execLaneAlignmentLoss (side : Side) (lane : Fin 4) (s : State) : Host.Outcome State Fault Refusal :=
  done (laneLossEffect side lane) s

/-- TS1_RECEIVED (R417): TS1 sets received on all lanes move a LOST or QUIET end to TRAIN. -/
def execTs1Received (side : Side) (s : State) : Host.Outcome State Fault Refusal :=
  done (ts1Effect side) s

/-- TS2_RECEIVED (R417): 16 consecutive TS2 sets received while sending TS2 move the end to HELLO. -/
def execTs2Received (side : Side) (s : State) : Host.Outcome State Fault Refusal :=
  done (ts2Effect side) s

/-- RECEIVER_ALIGNED (R417): the receiver aligns on all lanes and the end sends TS2. -/
def execReceiverAligned (side : Side) (s : State) : Host.Outcome State Fault Refusal :=
  done (alignedEffect side) s

/-- FRAME_DROP (R420): a received frame fails a check of R420, is counted and may trigger a resend request. -/
def execFrameDrop (side : Side) (f : LinkFrame) (s : State) : Host.Outcome State Fault Refusal :=
  done (frameDropEffect side f) s

/-- LINK (R421): a LINK message updates acknowledgement, triggers resends on NAK and carries HALTED and SAFE. -/
def execLink (side : Side) (f : LinkFrame) (s : State) : Host.Outcome State Fault Refusal :=
  done (linkEffect side f) s

/-- LINK_DUE (R421): 1 µs passes and the end sends a LINK message. -/
def execLinkDue (side : Side) (s : State) : Host.Outcome State Fault Refusal :=
  done (linkDueEffect side) s

/-- REPLAY_TIMEOUT (R421): 4 µs pass without ACK advancing and unacknowledged messages are resent. -/
def execReplayTimeout (side : Side) (s : State) : Host.Outcome State Fault Refusal :=
  done (replayTimeoutEffect side) s

/-- HELLO (R417): a HELLO message received and acknowledged moves the end to LINKED with its entry actions. -/
def execHello (side : Side) (f : LinkFrame) (s : State) : Host.Outcome State Fault Refusal :=
  done (linkMessage side 2 f (helloContent side)) s

/-- STATE (R417): a STATE message reports the peer's state and with QUIET moves the end to QUIET. -/
def execState (side : Side) (f : LinkFrame) (s : State) : Host.Outcome State Fault Refusal :=
  done (linkMessage side 3 f (stateContent side)) s

/-- BEACON (R90): a BEACON paired with its strobe capture is processed by the line-time servo and answered with
TIME_REPORT. -/
def execBeacon (f : LinkFrame) (s : State) : Host.Outcome State Fault Refusal :=
  done (linkMessage .field 4 f beaconContent) s

/-- TIME_REPORT (R432): a TIME_REPORT message reports the field servo error to the host. -/
def execTimeReport (f : LinkFrame) (s : State) : Host.Outcome State Fault Refusal :=
  done (linkMessage .host 5 f timeReportContent) s

/-- STROBE_CAL (R550): a STROBE_CAL message sets the field calibration delay from the next beacon. -/
def execStrobeCal (f : LinkFrame) (s : State) : Host.Outcome State Fault Refusal :=
  done (linkMessage .field 6 f strobeCalContent) s

/-- DIC_REQ (R424): a DIC_REQ fragment arrives; the last one lets the field agent execute the request. -/
def execDicReq (f : LinkFrame) (s : State) : Host.Outcome State Fault Refusal :=
  done (linkMessage .field 7 f dicReqContent) s

/-- DIC_RSP (R424): a DIC_RSP fragment arrives; the last one completes the forwarded response. -/
def execDicRsp (f : LinkFrame) (s : State) : Host.Outcome State Fault Refusal :=
  done (linkMessage .host 8 f dicRspContent) s

/-- CYC_IN (R459): a CYC_IN message delivers mapped records to network master inputs and field objects. -/
def execCycIn (f : LinkFrame) (s : State) : Host.Outcome State Fault Refusal :=
  done (linkMessage .field 9 f cycInContent) s

/-- CYC_OUT (R454): a CYC_OUT message delivers sampled field records and the refused-write count to the host. -/
def execCycOut (f : LinkFrame) (s : State) : Host.Outcome State Fault Refusal :=
  done (linkMessage .host 10 f cycOutContent) s

/-- EVENT (R396): an EVENT message applies forwarded source assertions at the holding Belfry. -/
def execEvent (side : Side) (f : LinkFrame) (s : State) : Host.Outcome State Fault Refusal :=
  done (linkMessage side 11 f (eventContent side)) s

/-- FW_LOAD (R519): a FW_LOAD message delivers field image bytes; the last one leads to validation and start. -/
def execFwLoad (f : LinkFrame) (s : State) : Host.Outcome State Fault Refusal :=
  done (linkMessage .field 12 f fwLoadMessage) s

/-- FW_STATUS (R518): a FW_STATUS message reports field image progress, completion or refusal. -/
def execFwStatus (f : LinkFrame) (s : State) : Host.Outcome State Fault Refusal :=
  done (linkMessage .host 13 f fwStatusContent) s

/-- PERS_RESTORE (R25): PERS_RESTORE messages restore the host K block after LINKED entry. -/
def execPersRestore (f : LinkFrame) (s : State) : Host.Outcome State Fault Refusal :=
  done (linkMessage .host 14 f persRestoreContent) s

/-- PERS_STORE (R423): a PERS_STORE message carries host K data to the field for persistence. -/
def execPersStore (f : LinkFrame) (s : State) : Host.Outcome State Fault Refusal :=
  done (linkMessage .field 15 f persStoreContent) s

/-- SAFE_A (R429): a SAFE_A copy is validated and executes STO or SS1, or takes part in a release. -/
def execSafeA (f : LinkFrame) (s : State) : Host.Outcome State Fault Refusal :=
  done (safeMessage false f) s

/-- SAFE_B (R429): a SAFE_B copy is validated and executes STO or SS1, or takes part in a release. -/
def execSafeB (f : LinkFrame) (s : State) : Host.Outcome State Fault Refusal :=
  done (safeMessage true f) s

/-- SAFE_STATUS (R431): a SAFE_STATUS message reports safety state and at LINKED sets the host counters. -/
def execSafeStatus (f : LinkFrame) (s : State) : Host.Outcome State Fault Refusal :=
  done (linkMessage .host 18 f safeStatusContent) s

/-- RESET_REQ (R513): a RESET_REQ message makes the receiving side send STATE with QUIET and reset. -/
def execResetReq (side : Side) (f : LinkFrame) (s : State) : Host.Outcome State Fault Refusal :=
  done (linkMessage side 19 f (resetReqContent side)) s

/-- ECHO_MESSAGE (R426): a barrier ECHO is answered with REPLY set, or its reply raises ECHO. -/
def execEchoMessage (side : Side) (f : LinkFrame) (s : State) : Host.Outcome State Fault Refusal :=
  done (linkMessage side 20 f (echoContent side)) s

/-- SAFE_A_STORE (R427): a Spire0 store to the SAFE_A port increments CNT_A and sends SAFE_A. -/
def execSafeAStore (core : Fin 3) (v : Word) (s : State) : Host.Outcome State Fault Refusal :=
  done (coreAt core 1 (safePort false) (safeStoreEffect false core v.toNat)) s

/-- SAFE_B_STORE (R427): a Spire1 store to the SAFE_B port increments CNT_B and sends SAFE_B. -/
def execSafeBStore (core : Fin 3) (v : Word) (s : State) : Host.Outcome State Fault Refusal :=
  done (coreAt core 1 (safePort true) (safeStoreEffect true core v.toNat)) s

/-- SAFE_DISCREPANCY (R429): the matching copy from the other channel fails to arrive within 100 µs. -/
def execSafeDiscrepancy (b : Bool) (s : State) : Host.Outcome State Fault Refusal :=
  done (safeDiscEffect b) s

/-- BARRIER_LOSS (R436): 16 µs pass without a good frame and the end enters LOST with its loss reaction. -/
def execBarrierLoss (side : Side) (s : State) : Host.Outcome State Fault Refusal :=
  done (barLossEffect side) s

/-- CSTOP_LIMIT (R436): BAR_F_CSTOP_LIMIT ms after a loss the safe state is requested. -/
def execCstopLimit (s : State) : Host.Outcome State Fault Refusal :=
  done (cstopEffect) s

/-- STROBE_SEND (R432): host line time reaches a multiple of BAR_STROBE_INT and a numbered strobe edge and BEACON are
sent. -/
def execStrobeSend (s : State) : Host.Outcome State Fault Refusal :=
  done (strobeSendEffect) s

/-- STROBE_CAPTURE (R432): the field samples a strobe edge, captures LT_NOW and echoes it. -/
def execStrobeCapture (n : Word) (s : State) : Host.Outcome State Fault Refusal :=
  done (strobeCaptureEffect n.toNat) s

/-- CALIBRATION_START (R433): at LINKED entry, every BAR_CAL_PERIOD or on CAL the host begins a 64-strobe calibration.
-/
def execCalibrationStart (s : State) : Host.Outcome State Fault Refusal :=
  done (calStartEffect) s

/-- CAL (R433): BAR_H_CMD CAL starts a calibration. -/
def execCal (w : Writer) (s : State) : Host.Outcome State Fault Refusal :=
  done (commandOk w R.BAR_H_CMD calStartEffect) s

/-- CALIBRATION_COMPLETE (R433): after 64 round trips the host computes d and sends STROBE_CAL. -/
def execCalibrationComplete (rtt : Word) (s : State) : Host.Outcome State Fault Refusal :=
  done (calCompleteEffect rtt.toNat) s

/-- BAR_ECHO_CMD (R441): BAR_H_CMD or BAR_F_CMD ECHO sends a barrier ECHO. -/
def execBarEchoCmd (w : Writer) (side : Side) (s : State) : Host.Outcome State Fault Refusal :=
  done (commandOk w (barCmd side) (barEchoEffect side)) s

/-- BAR_CLEAR (R441): BAR_H_CMD or BAR_F_CMD CLEAR zeroes the end's counters. -/
def execBarClear (w : Writer) (side : Side) (s : State) : Host.Outcome State Fault Refusal :=
  done (commandOk w (barCmd side) (barClearEffect side)) s

end Sys2Proof.Machine
end

