-- ==== Sys2Proof/Machine/CmdBelfry.lean ====
section
/-! DEFINITION. The commands of the two Belfry interrupt controllers (chapter 12). -/

namespace Sys2Proof.Machine

/-- The claim words of a core (R401). -/
def claimAddr (core : Fin 3) : Nat := if core.val = 2 then 0x48003000 else 0x48003000 + 16 * core.val

/-- The map objects of a side (R413). -/
def pendSetObj (side : Side) (j : Nat) : Obj := if side = .host then R.BEL_H_PEND_SET j else R.BEL_F_PEND_SET j
def pendClrObj (side : Side) (j : Nat) : Obj := if side = .host then R.BEL_H_PEND_CLR j else R.BEL_F_PEND_CLR j
def enSetObj (side : Side) (j : Nat) : Obj := if side = .host then R.BEL_H_EN_SET j else R.BEL_F_EN_SET j
def enClrObj (side : Side) (j : Nat) : Obj := if side = .host then R.BEL_H_EN_CLR j else R.BEL_F_EN_CLR j
def belCntClrObj (side : Side) : Obj := if side = .host then R.BEL_H_CNT_CLR else R.BEL_F_CNT_CLR

/-- A value BEL_SRC_CFG takes. -/
def belCfgOk (v : Nat) : Bool := only 0xFF001F3F v && decide (bits 26 24 v ≤ 4)

/-- A group fires while it collects; a Keep debug halt freezes the field's (R411). -/
def groupFire (side : Side) (g : Nat) (m : Mach) : Mach :=
  if (m.grp side g).start.isSome && !(side == .field && m.keepHalted) then belFire side g m else m

/-- An enabled host timer matches. -/
def hostTimerFire (n : Nat) (m : Mach) : Mach := if m.on (R.BEL_H_TMR_EN n) then hostTimer n m else m

/-- CLAIM_N (R402): a load of CLAIM_N claims the highest-priority claimable NORMAL source. -/
def execClaimN (core : Fin 3) (s : State) : Host.Outcome State Fault Refusal :=
  done (coreAt core 0 (claimAddr core) (fun m => coreLoaded core (belClaim core false m))) s

/-- CLAIM_F (R402): a load of CLAIM_F claims the highest-priority claimable FAST source. -/
def execClaimF (core : Fin 3) (s : State) : Host.Outcome State Fault Refusal :=
  done (coreAt core 0 (claimAddr core + 4) (fun m => coreLoaded core (belClaim core true m))) s

/-- PEEK (R401): a load of PEEK returns the source the next claim would return without side effect. -/
def execPeek (core : Fin 3) (s : State) : Host.Outcome State Fault Refusal :=
  done (coreAt core 0 (claimAddr core + 8) (fun m => coreLoaded core (belPeek core m, m))) s

/-- COMPLETE (R403): a COMPLETE store ends the in-service state of a claimed source. -/
def execComplete (core : Fin 3) (v : Word) (s : State) : Host.Outcome State Fault Refusal :=
  done (coreAt core 1 (claimAddr core) (belComplete core v.toNat)) s

/-- BEL_PEND_SET (R404): a write to BEL_x_PEND_SET asserts owned sources once each. -/
def execBelPendSet (w : Writer) (side : Side) (j : Fin 16) (v : Word)
    (s : State) : Host.Outcome State Fault Refusal :=
  done (commandOk w (pendSetObj side j) (belPendSetWord side j v.toNat)) s

/-- BEL_PEND_CLR (R404): a write to BEL_x_PEND_CLR clears pending state of sources. -/
def execBelPendClr (w : Writer) (side : Side) (j : Fin 16) (v : Word)
    (s : State) : Host.Outcome State Fault Refusal :=
  done (commandOk w (pendClrObj side j) (belPendClrWord side j v.toNat)) s

/-- BEL_EN_SET (R404): a write to BEL_x_EN_SET enables sources. -/
def execBelEnSet (w : Writer) (side : Side) (j : Fin 16) (v : Word) (s : State) : Host.Outcome State Fault Refusal :=
  done (commandOk w (enSetObj side j) (belEnSetWord side j v.toNat)) s

/-- BEL_EN_CLR (R404): a write to BEL_x_EN_CLR disables sources. -/
def execBelEnClr (w : Writer) (side : Side) (j : Fin 16) (v : Word) (s : State) : Host.Outcome State Fault Refusal :=
  done (commandOk w (enClrObj side j) (belEnClrWord side j v.toNat)) s

/-- BEL_SRC_CFG_WRITE (R397): a BEL_SRC_CFG write changes target, class, priority and group from the next assertion.
-/
def execBelSrcCfgWrite (w : Writer) (id : Fin 512) (v : Word) (s : State) : Host.Outcome State Fault Refusal :=
  done (command w (srcCfgObj id) false (ranged (belCfgOk v.toNat) (Mach.wr (srcCfgObj id) v.toNat))) s

/-- BEL_CNT_CLR (R413): a write to BEL_x_CNT_CLR zeroes selected Belfry counters. -/
def execBelCntClr (w : Writer) (side : Side) (v : Byte) (s : State) : Host.Outcome State Fault Refusal :=
  done (commandOk w (belCntClrObj side) (Mach.clrBits v.toNat (belCounters side))) s

/-- GROUP_FIRE (R407): a coalescing group's timer reaches its time limit and its members are released. -/
def execGroupFire (side : Side) (g : Fin 32) (s : State) : Host.Outcome State Fault Refusal :=
  done (groupFire side g) s

/-- HOST_TIMER_MATCH (R410): host line time reaches BEL_H_TMR_CMP, asserting the source and advancing or disabling the
timer. -/
def execHostTimerMatch (n : Fin 16) (s : State) : Host.Outcome State Fault Refusal :=
  done (hostTimerFire n) s

end Sys2Proof.Machine
end

