-- ==== Sys2Proof/Machine/CmdCam.lean ====
section
/-! DEFINITION. The commands of the virtual masters, the axes and the Oculus units (chapter 6). -/

namespace Sys2Proof.Machine

/-- OCU_BIND may be written: the unit is disabled or unlocked (R54). -/
def ocuLoose (u : Nat) (m : Mach) : Bool := !m.on (R.OCU_ENABLE u) || m.on (R.OCU_UNLOCK u)

/-- A value OCU_BIND takes. -/
def ocuBindOk (v : Nat) : Bool := only 0xFF1F007F v && chanOrFF (bits 31 24 v)

/-- VM_ENABLE_ON (R192): VM_ENABLE written 1 loads VM_POS_SET and zero speed and starts integration. -/
def execVmEnableOn (w : Writer) (v : Fin 8) (s : State) : Host.Outcome State Fault Refusal :=
  done (commandOk w (R.VM_ENABLE v) (vmEnableOnEffect v)) s

/-- VM_ENABLE_OFF (R192): VM_ENABLE written 0 stops the virtual master. -/
def execVmEnableOff (w : Writer) (v : Fin 8) (s : State) : Host.Outcome State Fault Refusal :=
  done (commandOk w (R.VM_ENABLE v) (vmEnableOffEffect v)) s

/-- AX_RUN_ON (R205): AX_RUN written 1 is checked and moves a stopped axis to WAIT. -/
def execAxRunOn (w : Writer) (a : Fin 128) (s : State) : Host.Outcome State Fault Refusal :=
  done (command w (R.AX_RUN a) false (axRunOnEffect a)) s

/-- AX_RUN_OFF (R206): AX_RUN written 0 stops the axis and releases any retiring version. -/
def execAxRunOff (w : Writer) (a : Fin 128) (s : State) : Host.Outcome State Fault Refusal :=
  done (commandOk w (R.AX_RUN a) (axRunOffEffect a)) s

/-- RESUME (R208): AX_CMD RESUME in MASTER_LOST requests re-engagement at the next evaluation. -/
def execResume (w : Writer) (a : Fin 128) (s : State) : Host.Outcome State Fault Refusal :=
  done (commandOk w (R.AX_CMD a) (axResumeEffect a)) s

/-- AX_CLEAR (R220): AX_CMD CLEAR zeroes the axis counters. -/
def execAxClear (w : Writer) (a : Fin 128) (s : State) : Host.Outcome State Fault Refusal :=
  done (commandOk w (R.AX_CMD a) (axClearEffect a)) s

/-- AX_PROF_NEXT_WRITE (R202): a write of AX_PROF_NEXT requests or withdraws a profile switch. -/
def execAxProfNextWrite (w : Writer) (a : Fin 128) (v : BitVec 16) (s : State) : Host.Outcome State Fault Refusal :=
  done (command w (R.AX_PROF_NEXT a) false (axProfNextEffect a v.toNat)) s

/-- AX_EVALUATION (R197): at te − 48 T an axis evaluation begins with the master state then available, deciding state,
switches and the slave position. -/
def execAxEvaluation (a : AxVisit) (s : State) : Host.Outcome State Fault Refusal :=
  done (axEvaluate a.axis a.ecc) s

/-- AX_PUBLISH (R197): at te + 10 T the evaluation results are published to objects, the virtual decoder and
pulse-train channels. -/
def execAxPublish (a : Fin 128) (s : State) : Host.Outcome State Fault Refusal :=
  done (axPublishEffect a) s

/-- NODE_READ_ECC_FATAL (R211): a node read returns an uncorrectable ECC error and the axis enters FAULT. -/
def execNodeReadEccFatal (a : Fin 128) (s : State) : Host.Outcome State Fault Refusal :=
  done (nodeEccEffect a) s

/-- COAST_END (R207): t_L + AX_LOSS_TIME is reached and the COAST substitute master starts decelerating. -/
def execCoastEnd (a : Fin 128) (s : State) : Host.Outcome State Fault Refusal :=
  done (coastEndEffect a) s

/-- NM_STALE (R189): no sample arrives within NM_TIMEOUT and the network master input becomes invalid. -/
def execNmStale (n : Fin 32) (s : State) : Host.Outcome State Fault Refusal :=
  done (nmStaleEffect n) s

/-- OCU_ENABLE_ON (R218): OCU_ENABLE written 1 is checked and the unit enters WAIT. -/
def execOcuEnableOn (w : Writer) (u : Fin 16) (s : State) : Host.Outcome State Fault Refusal :=
  done (command w (R.OCU_ENABLE u) false (ocuEnableOnEffect u)) s

/-- OCU_ENABLE_OFF (R218): OCU_ENABLE written 0 sends the unit to OFF. -/
def execOcuEnableOff (w : Writer) (u : Fin 16) (s : State) : Host.Outcome State Fault Refusal :=
  done (commandOk w (R.OCU_ENABLE u) (ocuEnableOffEffect u)) s

/-- OCU_BIND_WRITE (R212): an OCU_BIND write while enabled rebinds the unit, discards targets and enters WAIT. -/
def execOcuBindWrite (w : Writer) (u : Fin 16) (v : Word) (s : State) : Host.Outcome State Fault Refusal :=
  done
    (command w (R.OCU_BIND u) false (rws (ocuLoose u) (fun m => if ocuBindOk v.toNat then setOcuBind u v.toNat m else .error .range))) s

/-- OCU_CAPTURE (R213): a capture on a bound channel is converted to decoder position and classified as good, double,
stray or ignored, applying corrections. -/
def execOcuCapture (u : Fin 16) (s : State) : Host.Outcome State Fault Refusal :=
  done (ocuCaptureEffect u) s

/-- OCU_TARGET_EXPIRY (R214): the decoder position passes target + OCU_WIN, counting a miss or crediting an UNDO good
mark. -/
def execOcuTargetExpiry (u : Fin 16) (s : State) : Host.Outcome State Fault Refusal :=
  done (ocuExpire u) s

/-- OCU_FW_CORR (R219): a write of OCU_FW_CORR in TRACK applies a slew- and limit-bounded correction to the axis
phase. -/
def execOcuFwCorr (w : Writer) (u : Fin 16) (v : Word) (s : State) : Host.Outcome State Fault Refusal :=
  done (commandOk w (R.OCU_FW_CORR u) (ocuFwCorrEffect u v.toNat)) s

/-- OCU_CNT_CLR (R220): a write to OCU_CNT_CLR zeroes the selected unit counters. -/
def execOcuCntClr (w : Writer) (u : Fin 16) (v : Byte) (s : State) : Host.Outcome State Fault Refusal :=
  done (commandOk w (R.OCU_CNT_CLR u) (Mach.clrBits v.toNat (ocuCounters u))) s

end Sys2Proof.Machine
end

