-- ==== Sys2Proof/Machine/Can.lean ====
section
/-! DEFINITION. CAN FD controllers as CiA 301 nodes (R470, R471, R474): network management, PDOs, heartbeats and the bus state.
What CiA 301 lays down beyond the spec's words is PRESUMED (log 32). -/

namespace Sys2Proof.Machine

/-! ## Network management -/

/-- Entry to a state. An SDO transfer is given up in STOPPED; PDOs begin afresh in OPERATIONAL. -/
def nmtEnter (k st : Nat) (m : Mach) : Mach :=
  if nmtState m k = st then m
  else
    let m1 := m.wr (R.CAN_NMT_STATE k) st
    let m2 := if st = 4 then sdoCancel k m1 else m1
    m2.updCan k (fun c => { c with
      jobs := [], held := [], syncs := [], sent := [], sentAt := [], timed := if st = 5 then (List.range 8).map (fun j => (j, m.tb.sclk)) else [] })

/-- The node's own CiA 301 state begins again: boot-up, then PRE-OPERATIONAL. -/
def nmtReset (k : Nat) (m : Mach) : Mach :=
  let m1 := sdoCancel k m
  canBootUp k (m1.updCan k (fun c => { tec := c.tec, rec_ := c.rec_, sdoNo := c.sdoNo, jobNo := c.jobNo }))

/-- NMT_COMMAND: for every node, or for this one. -/
def nmtEffect (k cmd node : Nat) (m : Mach) : Mach :=
  if !canOn m k then m
  else
    let m1 := canRx k m
    if node ≠ 0 ∧ node ≠ m.rd (R.CAN_NODE_ID k) then m1
    else dicRun (match cmd with
      | 1 => nmtEnter k 5 m1
      | 2 => nmtEnter k 4 m1
      | 128 => nmtEnter k 127 m1
      | 129 => nmtReset k m1
      | 130 => nmtReset k m1
      | _ => m1)

/-! ## PDOs (R474) -/

/-- A PDO exists, and the identifier it uses. -/
def pdoValid (m : Mach) (rx : Bool) (k j : Nat) : Bool := !bit 31 (pdoCobId m rx k j) && !bit 29 (pdoCobId m rx k j)

def pdoIdent (m : Mach) (rx : Bool) (k j : Nat) : Nat := bits 10 0 (pdoCobId m rx k j)

def pdoType (m : Mach) (rx : Bool) (k j : Nat) : Nat :=
  m.rd (if rx then R.CAN_RPDO_COMM_TYPE k j else R.CAN_TPDO_COMM_TYPE k j)

/-- The entries in use of a PDO's map. -/
def pdoMapped (m : Mach) (k : Nat) (rx : Bool) (j : Nat) : List Nat := pdoEntries m k rx j (m.rd (mapNObj k rx j))

/-- A WRITE request of the controller's route that no SDO client waits for. -/
def pdoWrite (k idx sub : Nat) (d : List Byte) (m : Mach) : Mach :=
  dicRequest ⟨2, ⟨canRoute k, 1, true, 0, 0, BitVec.ofNat 16 idx, BitVec.ofNat 8 sub, 0, 0, d⟩, none⟩ m

/-- The mapped objects take their bytes of the data in order. -/
def rpdoWrites (k : Nat) : List Nat → List Byte → Mach → Mach
  | [], _, m => m
  | v :: rest, d, m =>
    match pdoEntry v with
    | some (i, s, n) => rpdoWrites k rest (d.drop n) (pdoWrite k i s (d.take n) m)
    | none => rpdoWrites k rest d m

/-- An RPDO is applied. -/
def rpdoApply (k j : Nat) (d : List Byte) (m : Mach) : Mach :=
  rpdoWrites k (pdoMapped m k true j) d (m.inc (R.CAN_CNT_PDO_RX k))

/-- One RPDO that a received frame may be: data shorter than its map is not applied. -/
def rpdoTake (k cob : Nat) (d : List Byte) (j : Nat) (m : Mach) : Mach :=
  if !pdoValid m true k j || pdoIdent m true k j != cob || decide (d.length < pdoBytes (pdoMapped m k true j)) then m
  else if pdoType m true k j ≤ 240 then m.updCan k (fun c => { c with held := mapPut j d c.held })
  else rpdoApply k j d m

/-- RPDO: a frame of a length that the bus can carry (R470). -/
def rpdoEffect (k cob : Nat) (d : List Byte) (m : Mach) : Mach :=
  if canOn m k && nmtState m k == 5 && canLenOk m k d.length then (canRx k m).each (List.range 8) (rpdoTake k cob d) else m

/-- The value of a mapped host object, read at once; none for one of the field, which is asked for its own, or where there is nothing to
read. -/
def tpdoHere (m : Mach) (e : Nat × Nat × Nat) : Option (List Byte) :=
  if ownerOf e.1 = .field then none
  else
    match (named m e.1 e.2.1).map (fun x => dicRead x (e.1 * 256 + e.2.1) m) with
    | some (.ok (_, d), _) => some d
    | _ => none

/-- A READ request for an entry of a job. -/
def tpdoAsk (k no : Nat) (t : Nat) (e : Nat × Nat × Nat) (m : Mach) : Mach :=
  dicRequest ⟨1, ⟨canRoute k, 2, true, BitVec.ofNat 16 (16 * no + t), 0, BitVec.ofNat 16 e.1, BitVec.ofNat 8 e.2.1, 0, 0, []⟩, none⟩ m

/-- A TPDO gathers the values of this instant: the host's at once, the field's by requests of the controller's route, whose answers send
it (R22). -/
def tpdoGather (k j : Nat) (fresh : Bool) (m : Mach) : Mach :=
  let l := (pdoMapped m k false j).filterMap pdoEntry
  let got := l.map (tpdoHere m)
  let far := ((List.range l.length).zip l).filter (fun e => ownerOf e.2.1 == .field)
  if ((l.zip got).any (fun e => ownerOf e.1.1 == .host && e.2.isNone)) || (!far.isEmpty && (fieldBar m).isSome) then m
  else if far.isEmpty then tpdoReady k j fresh (got.flatMap (fun d => d.getD [])) m
  else
    let no := ((m.can k).jobNo + 1) % 4096
    let m1 := m.updCan k (fun c => { c with jobNo := no, jobs := c.jobs ++ [⟨j, no, fresh, got⟩] })
    m1.each far (fun e m => tpdoAsk k no e.1 e.2 m)

/-- A TPDO at a SYNC: type 0 when its data is not what it sent last (DEDUCED, log 37), types 1 to 240 at every so many
SYNCs. -/
def tpdoSync (k j : Nat) (m : Mach) : Mach :=
  let t := pdoType m false k j
  if !pdoValid m false k j || decide (240 < t) then m
  else if t = 0 then tpdoGather k j true m
  else
    let n := mapGet 0 j (m.can k).syncs + 1
    if n < t then m.updCan k (fun c => { c with syncs := mapSet 0 j n c.syncs })
    else tpdoGather k j false (m.updCan k (fun c => { c with syncs := mapSet 0 j 0 c.syncs }))

/-- SYNC: the held RPDOs are applied, then the synchronous TPDOs read and sent. -/
def syncConsume (k : Nat) (m : Mach) : Mach :=
  if !canOn m k then m
  else
    let m1 := (canRx k m).assertSrc (403 + 4 * k)
    if nmtState m k ≠ 5 then m1
    else
      let held := (m1.can k).held
      let m2 := (m1.updCan k (fun c => { c with held := [] })).each held (fun e m => rpdoApply k e.1 e.2 m)
      m2.each (List.range 8) (tpdoSync k)

/-- TPDO_EVENT_TIMER. -/
def tpdoTimer (k j : Nat) (m : Mach) : Mach :=
  if canOn m k && nmtState m k == 5 && pdoValid m false k j && decide (254 ≤ pdoType m false k j) &&
      m.rd (R.CAN_TPDO_COMM_EVTMR k j) != 0 then
    tpdoGather k j false ((m.updCan k (fun c => { c with timed := mapPut j m.tb.sclk c.timed })).assertSrc (403 + 4 * k))
  else m

/-- The event timer of a TPDO has run out, its period in ms since it last ran out or since OPERATIONAL, and its inhibit time is over. -/
def tpdoDue (m : Mach) (k j : Nat) : Bool :=
  m.rd (R.CAN_TPDO_COMM_EVTMR k j) != 0 && nmtState m k == 5 && pdoValid m false k j && decide (254 ≤ pdoType m false k j) &&
  decide (mapGet 0 j (m.can k).timed + 800000 * m.rd (R.CAN_TPDO_COMM_EVTMR k j) ≤ m.tb.sclk) &&
  !((m.can k).sent.any (fun e => e.1 == j) &&
    decide (m.tb.sclk < mapGet 0 j (m.can k).sentAt + 80000 * m.rd (R.CAN_TPDO_COMM_INH k j)))

/-! ## Heartbeats -/

/-- HEARTBEAT_PRODUCE. -/
def hbProduce (k : Nat) (m : Mach) : Mach :=
  if canOn m k && m.rd (R.CAN_HB_PROD k) != 0 then
    canTx k (0x700 + m.rd (R.CAN_NODE_ID k)) (toLe 1 (nmtState m k)) (m.updCan k (fun c => { c with hbSent := m.tb.sclk + 1 }))
  else m

def hbProduceDue (m : Mach) (k : Nat) : Bool :=
  m.rd (R.CAN_HB_PROD k) != 0 && canOn m k && decide ((m.can k).hbSent + 800000 * m.rd (R.CAN_HB_PROD k) ≤ m.tb.sclk + 1)

/-- A consumer entry names a node and a time. -/
def hbEntry (m : Mach) (k i : Nat) : Bool := bits 23 16 (m.rd (R.CAN_HB_CONS k i)) != 0 && bits 15 0 (m.rd (R.CAN_HB_CONS k i)) != 0

/-- HEARTBEAT_CONSUME: a heartbeat starts the entry's time anew, its expiry raises the error source. -/
def hbConsume (k i : Nat) (expired : Bool) (m : Mach) : Mach :=
  if !canOn m k || !hbEntry m k i then m
  else if expired then
    if (m.can k).alive.any (fun e => e.1 == i) then
      (m.updCan k (fun c => { c with alive := mapDel i c.alive })).assertSrc (402 + 4 * k)
    else m
  else (canRx k m).updCan k (fun c => { c with alive := mapPut i m.tb.sclk c.alive })

def hbLost (m : Mach) (k i : Nat) : Bool :=
  match (m.can k).alive.find? (fun e => e.1 == i) with
  | some (_, t) => hbEntry m k i && decide (t + 800000 * bits 15 0 (m.rd (R.CAN_HB_CONS k i)) ≤ m.tb.sclk)
  | none => false

/-! ## The bus state (R470) -/

/-- CAN_BUS_ERROR: an error while sending counts 8, one while receiving counts 1. -/
def busError (k : Nat) (tx : Bool) (m : Mach) : Mach :=
  if !canOn m k then m
  else
    (canBusState k (m.updCan k (fun c =>
      if tx then { c with tec := c.tec + 8 } else { c with rec_ := min 255 (c.rec_ + 1) }))).assertSrc (402 + 4 * k)

/-- BUS_OFF_RECOVERY: error active again with both counters at 0. -/
def busRecover (k : Nat) (m : Mach) : Mach :=
  if m.on (R.CAN_EN k) && m.rd (R.CAN_BUS_STATE k) == 2 then
    (canBusState k (m.updCan k (fun c => { c with tec := 0, rec_ := 0 }))).assertSrc (402 + 4 * k)
  else m

/-! ## SDO commands with the service behind them -/

def sdoRequestEffect (k : Nat) (d : List Byte) (m : Mach) : Mach := dicRun (sdoFrame k d m)

def sdoTimeoutEffect (k : Nat) (m : Mach) : Mach := dicRun (sdoExpire k m)

/-- CAN_SDO_TIMEOUT has passed since the last frame of the transfer. -/
def sdoLate (m : Mach) (k : Nat) : Bool :=
  match (m.can k).sdo with
  | some x => x.wait == .none && decide (x.at_ + 800000 * m.rd (R.CAN_SDO_TIMEOUT k) ≤ m.tb.sclk)
  | none => false

/-- An enabled controller starts again when the host wakes. -/
def canRestart (m : Mach) : Mach :=
  m.each [0, 1] (fun k m => if m.on (R.CAN_EN k) then canBootUp k (m.wr (R.CAN_BUS_STATE k) 0) else m)

end Sys2Proof.Machine
end

