-- ==== Sys2Proof/Machine/CmdCan.lean ====
section
/-! DEFINITION. The commands of the CAN FD controllers (chapter 14). -/

namespace Sys2Proof.Machine

/-- CAN_EN_WRITE (R471): a CAN_EN write starts the controller with a boot-up message or stops it. -/
def execCanEnWrite (w : Writer) (k : Fin 2) (v : Bool) (s : State) : Host.Outcome State Fault Refusal :=
  done (commandOk w (R.CAN_EN k) (canEnEffect k (boolNat v))) s

/-- NMT_COMMAND (R471): a received NMT command changes the controller's CiA 301 state. -/
def execNmtCommand (k : Fin 2) (cmd node : Byte) (s : State) : Host.Outcome State Fault Refusal :=
  done (nmtEffect k cmd.toNat node.toNat) s

/-- SDO_REQUEST (R472): a received SDO frame performs an expedited or segmented transfer step on the dictionary. -/
def execSdoRequest (k : Fin 2) (d : List Byte) (s : State) : Host.Outcome State Fault Refusal :=
  done (sdoRequestEffect k d) s

/-- SDO_TIMEOUT (R471): a segmented SDO transfer exceeds CAN_SDO_TIMEOUT and is aborted. -/
def execSdoTimeout (k : Fin 2) (s : State) : Host.Outcome State Fault Refusal :=
  done (sdoTimeoutEffect k) s

/-- SYNC (R474): a received SYNC applies synchronous RPDOs and samples synchronous TPDOs. -/
def execSync (k : Fin 2) (s : State) : Host.Outcome State Fault Refusal :=
  done (syncConsume k) s

/-- RPDO (R474): a received RPDO writes its mapped objects on route CAN FD. -/
def execRpdo (k : Fin 2) (cob : BitVec 11) (d : List Byte) (s : State) : Host.Outcome State Fault Refusal :=
  done (rpdoEffect k cob.toNat d) s

/-- TPDO_EVENT_TIMER (R474): a TPDO event timer expires and the TPDO is sent. -/
def execTpdoEventTimer (k : Fin 2) (j : Fin 8) (s : State) : Host.Outcome State Fault Refusal :=
  done (tpdoTimer k j) s

/-- HEARTBEAT_PRODUCE (R471): the producer heartbeat time expires and a heartbeat is sent. -/
def execHeartbeatProduce (k : Fin 2) (s : State) : Host.Outcome State Fault Refusal :=
  done (hbProduce k) s

/-- HEARTBEAT_CONSUME (R471): a consumed node's heartbeat is received or its consumer time expires. -/
def execHeartbeatConsume (k : Fin 2) (i : Fin 4) (expired : Bool) (s : State) : Host.Outcome State Fault Refusal :=
  done (hbConsume k i expired) s

/-- BUS_OFF_RECOVERY (R470): a bus-off controller completes automatic recovery. -/
def execBusOffRecovery (k : Fin 2) (s : State) : Host.Outcome State Fault Refusal :=
  done (busRecover k) s

/-- CAN_CNT_CLR (R476): a write to CAN_CNT_CLR zeroes selected CAN counters. -/
def execCanCntClr (w : Writer) (k : Fin 2) (v : Byte) (s : State) : Host.Outcome State Fault Refusal :=
  done (commandOk w (R.CAN_CNT_CLR k) (Mach.clrBits v.toNat (canCounters k))) s

/-- CAN_BUS_ERROR (R470): a bus error on a CAN FD controller moves its error counters and CAN_BUS_STATE to error
passive or bus-off. -/
def execCanBusError (k : Fin 2) (tx : Bool) (s : State) : Host.Outcome State Fault Refusal :=
  done (busError k tx) s

end Sys2Proof.Machine
end

