-- ==== Sys2Proof/Machine/CmdChannel.lean ====
section
/-! DEFINITION. The commands of the channels (chapter 7). -/

namespace Sys2Proof.Machine

/-- The port of channel c's queue (R234). -/
def chPortAddr (c : Nat) : Nat := 0x48000000 + 16 * c

/-- CH_MODE may be written: the channel is disabled or unlocked (R54). -/
def chLoose (c : Nat) (m : Mach) : Bool := !m.chEn c || m.on (R.CH_UNLOCK c)

/-- A value CH_MODE takes: DATA only on channels 0 to 31. -/
def chModeOk (c v : Nat) : Bool := decide (v < 10) || (v == 10 && decide (c < 32))

/-- An edge at an input goes through the input stage to what `deliver` does with the level, if the mode is one of `modes`. -/
def inputEdge (modes : List Nat) (c : Nat) (rise : Bool) (t : Nat) (deliver : Bool → Nat → Mach → Mach) (m : Mach) : Mach :=
  if !modes.contains (m.chMode c) then m.updChan c (fun x => { x with seen := rise, ext := true })
  else
    match chAccept c rise t m with
    | (some (lvl, t1), m1) => deliver lvl t1 m1
    | (none, m1) => m1

/-- A GPIO input raises DATA; a Turret pin's edge goes to the contexts that wait for it (R252, R332). -/
def gpioOrTurret (c : Nat) (lvl : Bool) (t : Nat) (m : Mach) : Mach := if m.chMode c = 9 then turEdge c lvl t m else gpioDeliver c lvl m

/-- CH_MODE_WRITE (R227): an accepted CH_MODE write flushes the queue, clears measurement state and moves the pin to
the new mode's initial level. -/
def execChModeWrite (w : Writer) (c : Fin 128) (v : Byte) (s : State) : Host.Outcome State Fault Refusal :=
  done
    (command w (R.CH_MODE c) false (rws (chLoose c) (fun m => if chModeOk c v.toNat then chModeEffect c v.toNat m else .error .range))) s

/-- CH_EN_WRITE (R225): a CH_EN write starts or stops the channel, setting INIT or the safe level. -/
def execChEnWrite (w : Writer) (c : Fin 128) (v : Bool) (s : State) : Host.Outcome State Fault Refusal :=
  done (command w (R.CH_EN c) false (setChEn c v)) s

/-- CH_GPIO_OUT_WRITE (R239): a CH_GPIO_OUT write reaches an output GPIO pin within 16 T. -/
def execChGpioOutWrite (w : Writer) (c : Fin 128) (v : Bool) (s : State) : Host.Outcome State Fault Refusal :=
  done (commandOk w (R.CH_GPIO_OUT c) (setGpio c v)) s

/-- GPIO_INPUT_EDGE (R252): an input edge on a GPIO channel under EDGE_SEL raises DATA. -/
def execGpioInputEdge (c : Fin 128) (rise : Bool) (t : BitVec 64) (s : State) : Host.Outcome State Fault Refusal :=
  done (inputEdge [1, 9] c rise t.toNat (gpioOrTurret c)) s

/-- CAPTURE_EDGE (R240): a selected input edge in CAPTURE produces a result entry or goes to bound Oculus units. -/
def execCaptureEdge (c : Fin 128) (rise : Bool) (t : BitVec 64) (s : State) : Host.Outcome State Fault Refusal :=
  done (inputEdge [3] c rise t.toNat (fun lvl t => captureTo c lvl false t)) s

/-- LOCKOUT_END (R230): an input lockout ends and a changed level is delivered as a marked edge. -/
def execLockoutEnd (c : Fin 128) (s : State) : Host.Outcome State Fault Refusal :=
  done (lockoutEndEffect c) s

/-- PERIOD_EDGE (R241): a rising or falling edge in PERIOD sub-mode updates CH_PERIOD or CH_HIGH. -/
def execPeriodEdge (c : Fin 128) (rise : Bool) (t : BitVec 64) (s : State) : Host.Outcome State Fault Refusal :=
  done (inputEdge [4] c rise t.toNat (periodDeliver c)) s

/-- NO_SIGNAL (R241): TIMEOUT ms pass without a rising edge and the measurement is cleared with NO_SIGNAL. -/
def execNoSignal (c : Fin 128) (s : State) : Host.Outcome State Fault Refusal :=
  done (noSignalEffect c) s

/-- FREQ_GATE_END (R242): a FREQ gate ends and CH_FREQ is computed from the first and last rising edges. -/
def execFreqGateEnd (c : Fin 128) (s : State) : Host.Outcome State Fault Refusal :=
  done (freqGate c) s

/-- PUSH_LO (R234): a store to queue port offset 0 stages the low word of an entry. -/
def execPushLo (port : Fin 17) (c : Fin 128) (v : Word) (s : State) : Host.Outcome State Fault Refusal :=
  done (atPort port 1 (chPortAddr c) (portPushLo port c v.toNat)) s

/-- PUSH_HI (R236): a store to queue port offset 4 pushes the staged entry or drops it; a mover's push to a full queue waits (R259). -/
def execPushHi (port : Fin 17) (c : Fin 128) (v : Word) (s : State) : Host.Outcome State Fault Refusal :=
  done (atPort port 1 (chPortAddr c + 4) (fun m =>
    if port.val ≠ 0 ∧ 16 ≤ (m.chan c).q.length then m else portPushHi port c v.toNat m)) s

/-- POP_LO (R234): a load of queue port offset 0 pops the head and returns its low word; a mover waits for an entry (R259). -/
def execPopLo (port : Fin 17) (c : Fin 128) (s : State) : Host.Outcome State Fault Refusal :=
  done (atPort port 0 (chPortAddr c) (fun m =>
    if port.val ≠ 0 ∧ qEmpty m c then m else sendLoad port (portPopLo port c m))) s

/-- POP_HI (R234): a load of queue port offset 4 returns the high word of the last popped entry. -/
def execPopHi (port : Fin 17) (c : Fin 128) (s : State) : Host.Outcome State Fault Refusal :=
  done (atPort port 0 (chPortAddr c + 4) (fun m => sendLoad port (portPopHi port c m, m))) s

/-- CH_Q_PUSH (R236): a dictionary write to CH_Q_PUSH pushes one COMPARE entry or is refused. -/
def execChQPush (w : Writer) (c : Fin 128) (v : BitVec 64) (s : State) : Host.Outcome State Fault Refusal :=
  done (command w (R.CH_Q_PUSH c) false (chDictPush c v.toNat)) s

/-- CH_Q_POP (R235): a write of 1 to CH_Q_POP discards the head entry, after the pops of Keep and the movers. -/
def execChQPop (w : Writer) (c : Fin 128) (v : Bool) (s : State) : Host.Outcome State Fault Refusal :=
  done (commandOk w (R.CH_Q_POP c) (whenSet (boolNat v) (popLater false c))) s

/-- CH_Q_FLUSH (R235): a write of 1 to CH_Q_FLUSH empties the channel queue. -/
def execChQFlush (w : Writer) (c : Fin 128) (v : Bool) (s : State) : Host.Outcome State Fault Refusal :=
  done (commandOk w (R.CH_Q_FLUSH c) (whenSet (boolNat v) (qFlush c))) s

/-- COMPARE_ARM (R237): a COMPARE entry is armed in the output stage 12 T after its push, late entries being played or
dropped. -/
def execCompareArm (c : Fin 128) (s : State) : Host.Outcome State Fault Refusal :=
  done (compareArm c) s

/-- COMPARE_PLAY (R237): an armed COMPARE entry reaches its instant, applies its action and leaves the queue. -/
def execComparePlay (c : Fin 128) (s : State) : Host.Outcome State Fault Refusal :=
  done (comparePlay c) s

/-- CH_CNT_CLR (R252): a write to CH_CNT_CLR zeroes the selected channel counters. -/
def execChCntClr (w : Writer) (c : Fin 128) (v : Byte) (s : State) : Host.Outcome State Fault Refusal :=
  done (commandOk w (R.CH_CNT_CLR c) (Mach.clrBits v.toNat (chCounters c))) s

/-- PT_STEP_HANDOVER (R245): at its instant less 16 T a planned step is handed to the output stage. -/
def execPtStepHandover (c : Fin 128) (s : State) : Host.Outcome State Fault Refusal :=
  done (ptHandover c) s

/-- PT_STEP_PLAY (R246): a step's leading edge plays, CH_PT_COUNT moves and the next step is planned. -/
def execPtStepPlay (c : Fin 128) (s : State) : Host.Outcome State Fault Refusal :=
  done (ptPlay c) s

/-- PT_STEP_END (R244): the STEP pin returns inactive PULSE_W ticks after the step's leading edge. -/
def execPtStepEnd (c : Fin 128) (s : State) : Host.Outcome State Fault Refusal :=
  done (ptEnd c) s

/-- SD_FRAME_RESULT (R249): the OSR-th sample completes a sinc3 frame and CH_SD_RESULT is published. -/
def execSdFrameResult (c : Fin 128) (samples : List Bool) (t : BitVec 64)
    (s : State) : Host.Outcome State Fault Refusal :=
  done (sdFrame c samples t.toNat) s

/-- SD_CLK_LOSS (R251): a DATA channel sees no sampling edge for 2 µs and sets SD_CLK_LOSS. -/
def execSdClkLoss (c : Fin 128) (s : State) : Host.Outcome State Fault Refusal :=
  done (sdLoss c) s

/-- SD_CLOCK_RETURN (R251): sampling clock edges return on a DATA channel after a clock loss and the channel starts
afresh with settling. -/
def execSdClockReturn (c : Fin 128) (s : State) : Host.Outcome State Fault Refusal :=
  done (sdReturn c) s

end Sys2Proof.Machine
end

