-- ==== Sys2Proof/Machine/Compressed.lean ====
section
/-! DEFINITION. The compressed instructions of RV32FC (R360) as the 32-bit instructions they stand for, written from the
ratified C extension (PRESUMED from that text, log 40). -/

namespace Sys2Proof.Machine

/-! ## Building a 32-bit word -/

def mkR (f7 rs2 rs1 f3 rd op : Nat) : Nat := f7 * 2 ^ 25 + rs2 * 2 ^ 20 + rs1 * 2 ^ 15 + f3 * 2 ^ 12 + rd * 2 ^ 7 + op

/-- `imm` is the 12-bit pattern. -/
def mkI (imm rs1 f3 rd op : Nat) : Nat := imm * 2 ^ 20 + rs1 * 2 ^ 15 + f3 * 2 ^ 12 + rd * 2 ^ 7 + op

def mkS (imm rs2 rs1 f3 op : Nat) : Nat := mkR (imm / 32) rs2 rs1 f3 (imm % 32) op

/-- `imm` is the 13-bit pattern of a branch. -/
def mkB (imm rs1 f3 : Nat) : Nat :=
  mkR (bits 12 12 imm * 64 + bits 10 5 imm) 0 rs1 f3 (bits 4 1 imm * 2 + bits 11 11 imm) 0x63

/-- `imm` is the 21-bit pattern of a jump. -/
def mkJ (imm rd : Nat) : Nat :=
  bits 20 20 imm * 2 ^ 31 + bits 10 1 imm * 2 ^ 21 + bits 11 11 imm * 2 ^ 20 + bits 19 12 imm * 2 ^ 12 + rd * 128 + 0x6F

/-- An n-bit pattern widened to k bits with its sign. -/
def widen (n k v : Nat) : Nat := ofSigned k (toSigned n v)

/-! ## The three quadrants -/

/-- Registers x8 to x15 of the three-bit fields. -/
def cReg (v : Nat) : Nat := 8 + v % 8

/-- Offset of a compressed word load or store. -/
def cOff (h : Nat) : Nat := bits 5 5 h * 64 + bits 12 10 h * 8 + bits 6 6 h * 4

def cImm6 (h : Nat) : Nat := bits 12 12 h * 32 + bits 6 2 h

def cQ0 (h : Nat) : Option Nat :=
  let rd := cReg (bits 4 2 h)
  let rs := cReg (bits 9 7 h)
  match bits 15 13 h with
  | 0 =>
    let u := bits 10 7 h * 64 + bits 12 11 h * 16 + bits 5 5 h * 8 + bits 6 6 h * 4
    if u = 0 then none else some (mkI u 2 0 rd 0x13)
  | 2 => some (mkI (cOff h) rs 2 rd 0x03)
  | 3 => some (mkI (cOff h) rs 2 rd 0x07)
  | 6 => some (mkS (cOff h) rd rs 2 0x23)
  | 7 => some (mkS (cOff h) rd rs 2 0x27)
  | _ => none

/-- Target of C.J and C.JAL as a 21-bit pattern. -/
def cJump (h : Nat) : Nat :=
  widen 12 21 (bits 12 12 h * 2048 + bits 8 8 h * 1024 + bits 10 9 h * 256 + bits 6 6 h * 128 + bits 7 7 h * 64 +
    bits 2 2 h * 32 + bits 11 11 h * 16 + bits 5 3 h * 2)

/-- Target of C.BEQZ and C.BNEZ as a 13-bit pattern. -/
def cBranch (h : Nat) : Nat :=
  widen 9 13 (bits 12 12 h * 256 + bits 6 5 h * 64 + bits 2 2 h * 32 + bits 11 10 h * 8 + bits 4 3 h * 2)

def cAlu (h : Nat) : Option Nat :=
  let rd := cReg (bits 9 7 h)
  let rs := cReg (bits 4 2 h)
  match bits 11 10 h with
  | 0 => if bit 12 h then none else some (mkI (bits 6 2 h) rd 5 rd 0x13)
  | 1 => if bit 12 h then none else some (mkI (0x400 + bits 6 2 h) rd 5 rd 0x13)
  | 2 => some (mkI (widen 6 12 (cImm6 h)) rd 7 rd 0x13)
  | _ =>
    if bit 12 h then none
    else
      match bits 6 5 h with
      | 0 => some (mkR 0x20 rs rd 0 rd 0x33)
      | 1 => some (mkR 0 rs rd 4 rd 0x33)
      | 2 => some (mkR 0 rs rd 6 rd 0x33)
      | _ => some (mkR 0 rs rd 7 rd 0x33)

def cQ1 (h : Nat) : Option Nat :=
  let rd := bits 11 7 h
  match bits 15 13 h with
  | 0 => some (mkI (widen 6 12 (cImm6 h)) rd 0 rd 0x13)
  | 1 => some (mkJ (cJump h) 1)
  | 2 => some (mkI (widen 6 12 (cImm6 h)) 0 0 rd 0x13)
  | 3 =>
    if cImm6 h = 0 then none
    else if rd = 2 then
      some (mkI (widen 10 12 (bits 12 12 h * 512 + bits 4 3 h * 128 + bits 5 5 h * 64 + bits 2 2 h * 32 + bits 6 6 h * 16))
        2 0 2 0x13)
    else some (widen 6 20 (cImm6 h) * 4096 + rd * 128 + 0x37)
  | 4 => cAlu h
  | 5 => some (mkJ (cJump h) 0)
  | 6 => some (mkB (cBranch h) (cReg (bits 9 7 h)) 0)
  | _ => some (mkB (cBranch h) (cReg (bits 9 7 h)) 1)

def cQ2 (h : Nat) : Option Nat :=
  let rd := bits 11 7 h
  let rs2 := bits 6 2 h
  match bits 15 13 h with
  | 0 => if bit 12 h then none else some (mkI rs2 rd 1 rd 0x13)
  | 2 =>
    if rd = 0 then none
    else some (mkI (bits 3 2 h * 64 + bits 12 12 h * 32 + bits 6 4 h * 4) 2 2 rd 0x03)
  | 3 => some (mkI (bits 3 2 h * 64 + bits 12 12 h * 32 + bits 6 4 h * 4) 2 2 rd 0x07)
  | 4 =>
    if !bit 12 h then
      (if rs2 = 0 then (if rd = 0 then none else some (mkI 0 rd 0 0 0x67)) else some (mkR 0 rs2 0 0 rd 0x33))
    else if rs2 = 0 then
      (if rd = 0 then some 0x00100073 else some (mkI 0 rd 0 1 0x67))
    else some (mkR 0 rs2 rd 0 rd 0x33)
  | 6 => some (mkS (bits 8 7 h * 64 + bits 12 9 h * 4) rs2 2 2 0x23)
  | 7 => some (mkS (bits 8 7 h * 64 + bits 12 9 h * 4) rs2 2 2 0x27)
  | _ => none

/-- A 16-bit parcel's instruction; none where the encoding is undefined. -/
def expandC (h : Nat) : Option Nat :=
  match h % 4 with
  | 0 => cQ0 h
  | 1 => cQ1 h
  | 2 => cQ2 h
  | _ => none

end Sys2Proof.Machine
end

