-- ==== Sys2Proof/Machine/CoreFloat.lean ====
section
/-! DEFINITION. Single-precision arithmetic of RV32F (R360): values, rounding, the operations and their exception flags, as
IEEE 754-2019 and the ratified RISC-V F extension define them (PRESUMED from those texts, to which R360 refers, log 40). -/

namespace Sys2Proof.Machine

/-- A value: a NaN, signalling or quiet, an infinity, or (-1)^s m 2^e. -/
inductive F32 where
  | nan (signalling : Bool)
  | inf (s : Bool)
  | fin (s : Bool) (m : Nat) (e : Int)
deriving DecidableEq, Repr

def f32 (b : Nat) : F32 :=
  let s := bit 31 b
  let ex := bits 30 23 b
  let fr := bits 22 0 b
  if ex = 255 then (if fr = 0 then .inf s else .nan (!bit 22 b))
  else if ex = 0 then .fin s fr (-149)
  else .fin s (fr + 2 ^ 23) ((ex : Int) - 150)

/-- A result: its bits and the flags it raises. -/
abbrev FRes := Nat × Nat

/-- Flags NX, UF, OF, DZ and NV of fflags. -/
def flNX : Nat := 1
def flUF : Nat := 2
def flOF : Nat := 4
def flDZ : Nat := 8
def flNV : Nat := 16

def fNan : Nat := 0x7FC00000
def fSign (s : Bool) : Nat := boolNat s * 2 ^ 31
def fInf (s : Bool) : Nat := fSign s + 0x7F800000
def fMax (s : Bool) : Nat := fSign s + 0x7F7FFFFF

def F32.signalling : F32 → Bool
  | .nan b => b
  | _ => false

def F32.isNan : F32 → Bool
  | .nan _ => true
  | _ => false

/-! ## Rounding: 0 RNE, 1 RTZ, 2 RDN, 3 RUP, 4 RMM -/

/-- m / 2^k rounded; `sticky` says that a positive amount below the last bit of m was cut off. The second part says inexact. -/
def shiftRound (rm : Nat) (s : Bool) (m k : Nat) (sticky : Bool) : Nat × Bool :=
  let d := 2 ^ k
  let q := m / d
  let r := m % d
  let inexact := r != 0 || sticky
  let above := decide (d < 2 * r) || (2 * r == d && sticky)
  let tie := 2 * r == d && !sticky
  let up := match rm with
    | 0 => above || (tie && q % 2 == 1)
    | 2 => s && inexact
    | 3 => !s && inexact
    | 4 => above || tie
    | _ => false
  (q + boolNat up, inexact)

/-- Overflow goes to infinity or to the largest number. -/
def fOverflow (rm : Nat) (s : Bool) : FRes :=
  let toMax := match rm with
    | 1 => true
    | 2 => !s
    | 3 => s
    | _ => false
  (if toMax then fMax s else fInf s, flOF + flNX)

/-- (-1)^s m 2^e, and more where `sticky`, as a single-precision number; tininess is detected after rounding. -/
def roundPack (rm : Nat) (s : Bool) (m : Nat) (e : Int) (sticky : Bool) : FRes :=
  if m = 0 then (fSign s, 0)
  else
    let len := Nat.log2 m + 1
    let top : Int := e + (len : Int) - 1
    let q : Int := max (top - 23) (-149)
    let r := if q ≤ e then (m * 2 ^ (e - q).toNat, sticky) else shiftRound rm s m (q - e).toNat sticky
    let n := if r.1 = 2 ^ 24 then (2 ^ 23, q + 1) else (r.1, q)
    if 2 ^ 23 ≤ n.1 ∧ 104 < n.2 then fOverflow rm s
    else
      let body := if n.1 < 2 ^ 23 then n.1 else (n.2 + 150).toNat * 2 ^ 23 + (n.1 - 2 ^ 23)
      let carries := decide (24 < len) && (shiftRound rm s m (len - 24) sticky).1 == 2 ^ 24
      let tiny := decide (top < -126) && !(top == -127 && carries)
      (fSign s + body, boolNat r.2 * flNX + boolNat (tiny && r.2) * flUF)

/-! ## Addition, multiplication, division, square root -/

/-- The sum of two finite numbers, each with its sign. -/
def finAdd (rm : Nat) (s1 : Bool) (m1 : Nat) (e1 : Int) (s2 : Bool) (m2 : Nat) (e2 : Int) : FRes :=
  let e := min e1 e2
  let a : Int := (if s1 then -1 else 1) * ((m1 * 2 ^ (e1 - e).toNat : Nat) : Int)
  let b : Int := (if s2 then -1 else 1) * ((m2 * 2 ^ (e2 - e).toNat : Nat) : Int)
  let v := a + b
  if v = 0 then
    (fSign (if m1 = 0 ∧ m2 = 0 ∧ s1 = s2 then s1 else rm == 2), 0)
  else roundPack rm (decide (v < 0)) v.natAbs e false

/-- NV where an operand is a signalling NaN. -/
def nvOf (l : List F32) : Nat := if l.any (·.signalling) then flNV else 0

def fAdd (rm : Nat) (x y : F32) : FRes :=
  match x, y with
  | .fin s1 m1 e1, .fin s2 m2 e2 => finAdd rm s1 m1 e1 s2 m2 e2
  | .inf s, .inf t => if s = t then (fInf s, 0) else (fNan, flNV)
  | .inf s, .fin _ _ _ => (fInf s, 0)
  | .fin _ _ _, .inf t => (fInf t, 0)
  | _, _ => (fNan, nvOf [x, y])

def F32.neg : F32 → F32
  | .nan b => .nan b
  | .inf s => .inf (!s)
  | .fin s m e => .fin (!s) m e

def fMul (rm : Nat) (x y : F32) : FRes :=
  match x, y with
  | .fin s1 m1 e1, .fin s2 m2 e2 => roundPack rm (s1 != s2) (m1 * m2) (e1 + e2) false
  | .inf s, .inf t => (fInf (s != t), 0)
  | .inf s, .fin t m _ => if m = 0 then (fNan, flNV) else (fInf (s != t), 0)
  | .fin t m _, .inf s => if m = 0 then (fNan, flNV) else (fInf (s != t), 0)
  | _, _ => (fNan, nvOf [x, y])

/-- x y + z with one rounding; an infinity times zero is invalid whatever z is. -/
def fFma (rm : Nat) (x y z : F32) : FRes :=
  let bad : Bool := match x, y with
    | .inf _, .fin _ m _ => m == 0
    | .fin _ m _, .inf _ => m == 0
    | _, _ => false
  if bad then (fNan, flNV)
  else if x.isNan || y.isNan || z.isNan then (fNan, nvOf [x, y, z])
  else
    match x, y, z with
    | .fin s1 m1 e1, .fin s2 m2 e2, .fin s3 m3 e3 => finAdd rm (s1 != s2) (m1 * m2) (e1 + e2) s3 m3 e3
    | .fin _ _ _, .fin _ _ _, .inf t => (fInf t, 0)
    | .fin s _ _, .inf t, z => fAdd rm (.inf (s != t)) z
    | .inf s, .fin t _ _, z => fAdd rm (.inf (s != t)) z
    | .inf s, .inf t, z => fAdd rm (.inf (s != t)) z
    | _, _, _ => (fNan, 0)

def fDiv (rm : Nat) (x y : F32) : FRes :=
  match x, y with
  | .fin s1 m1 e1, .fin s2 m2 e2 =>
    if m2 = 0 then (if m1 = 0 then (fNan, flNV) else (fInf (s1 != s2), flDZ))
    else
      let n := m1 * 2 ^ 64
      roundPack rm (s1 != s2) (n / m2) (e1 - e2 - 64) (n % m2 != 0)
  | .inf _, .inf _ => (fNan, flNV)
  | .inf s, .fin t _ _ => (fInf (s != t), 0)
  | .fin s _ _, .inf t => (fSign (s != t), 0)
  | _, _ => (fNan, nvOf [x, y])

/-- The integer square root, bit by bit from bit n - 1 down. -/
def fIsqrt (x : Nat) : Nat → Nat → Nat
  | 0, r => r
  | n + 1, r => fIsqrt x n (if (r + 2 ^ n) * (r + 2 ^ n) ≤ x then r + 2 ^ n else r)

def fSqrt (rm : Nat) (x : F32) : FRes :=
  match x with
  | .fin s m e =>
    if m = 0 then (fSign s, 0)
    else if s then (fNan, flNV)
    else
      let odd := e % 2 != 0
      let n := (if odd then 2 * m else m) * 2 ^ 64
      let e1 := (if odd then e - 1 else e) - 64
      let r := fIsqrt n 48 0
      roundPack rm false r (e1 / 2) (r * r != n)
  | .inf s => if s then (fNan, flNV) else (fInf false, 0)
  | .nan b => (fNan, if b then flNV else 0)

/-! ## Comparisons, minimum and maximum -/

/-- The order of two numbers that are no NaN: less, and equal. -/
def fLess (x y : F32) : Bool :=
  match x, y with
  | .inf s, .inf t => s && !t
  | .inf s, .fin _ _ _ => s
  | .fin _ _ _, .inf t => !t
  | .fin s1 m1 e1, .fin s2 m2 e2 =>
    let e := min e1 e2
    let a : Int := (if s1 then -1 else 1) * ((m1 * 2 ^ (e1 - e).toNat : Nat) : Int)
    let b : Int := (if s2 then -1 else 1) * ((m2 * 2 ^ (e2 - e).toNat : Nat) : Int)
    decide (a < b)
  | _, _ => false

def fEqual (x y : F32) : Bool := !x.isNan && !y.isNan && !fLess x y && !fLess y x

/-- FEQ, FLT and FLE: only FEQ is quiet. -/
def fCmp (kind : Nat) (x y : F32) : FRes :=
  if x.isNan || y.isNan then (0, if kind = 2 then nvOf [x, y] else flNV)
  else if kind = 2 then (boolNat (fEqual x y), 0)
  else if kind = 1 then (boolNat (fLess x y), 0)
  else (boolNat (fLess x y || fEqual x y), 0)

/-- FMIN, and FMAX when `big`, on the operands' bits; -0 lies below +0. -/
def fMinMax (big : Bool) (a b : Nat) : FRes :=
  let x := f32 a
  let y := f32 b
  let fl := nvOf [x, y]
  if x.isNan && y.isNan then (fNan, fl)
  else if x.isNan then (b, fl)
  else if y.isNan then (a, fl)
  else
    let aLow := fLess x y || (fEqual x y && bit 31 a)
    (if aLow != big then a else b, fl)

/-- FCLASS. -/
def fClass (b : Nat) : Nat :=
  match f32 b with
  | .nan sig => if sig then 2 ^ 8 else 2 ^ 9
  | .inf s => if s then 1 else 2 ^ 7
  | .fin s m _ =>
    if m = 0 then (if s then 2 ^ 3 else 2 ^ 4)
    else if m < 2 ^ 23 then (if s then 2 ^ 2 else 2 ^ 5)
    else if s then 2 else 2 ^ 6

/-! ## Conversions -/

/-- A number brought into a range of integers, as 32 bits. -/
def intResult (lo hi v : Int) (inexact : Bool) : FRes :=
  if v < lo then (ofSigned 32 lo, flNV) else if hi < v then (ofSigned 32 hi, flNV) else (ofSigned 32 v, boolNat inexact * flNX)

/-- FCVT.W.S, and FCVT.WU.S when `uns`. -/
def fToInt (uns : Bool) (rm : Nat) (x : F32) : FRes :=
  let lo : Int := if uns then 0 else -2147483648
  let hi : Int := if uns then 4294967295 else 2147483647
  match x with
  | .nan _ => (ofSigned 32 hi, flNV)
  | .inf s => (ofSigned 32 (if s then lo else hi), flNV)
  | .fin s m e =>
    let r := if 0 ≤ e then (m * 2 ^ e.toNat, false) else shiftRound rm s m (-e).toNat false
    intResult lo hi (if s then -(r.1 : Int) else (r.1 : Int)) r.2

/-- FCVT.S.W, and FCVT.S.WU when `uns`. -/
def fFromInt (uns : Bool) (rm v : Nat) : FRes :=
  let i : Int := if uns then (v : Int) else toSigned 32 v
  roundPack rm (decide (i < 0)) i.natAbs 0 false

/-- FSGNJ, FSGNJN and FSGNJX. -/
def fSgnj (kind a b : Nat) : Nat :=
  let s := match kind with
    | 0 => bit 31 b
    | 1 => !bit 31 b
    | _ => bit 31 a != bit 31 b
  fSign s + a % 2 ^ 31

end Sys2Proof.Machine
end

