-- ==== Sys2Proof/Machine/CoreMem.lean ====
section
/-! DEFINITION. The memory accesses of the cores (R24, R32 to R35, R365, R370, R384 to R387) and the queue ports they reach
(R234, R262, R342, R401, R427). -/

namespace Sys2Proof.Machine

/-- How an instruction ends that does not retire: a fault of class 1 or 3 with its code and XINFO, or an access to a word of
Spire's port region whose effect the spec does not give. -/
inductive CoreStop where
  | fault (cls code info : Nat)
  | port (addr : Nat)
deriving DecidableEq, Repr

abbrev CoreEff := Except CoreStop Mach

/-! ## The address maps (R32, R33) -/

inductive Area where
  | rom | sram | regs | ports | fram | cam | dram | flash | nothing
deriving DecidableEq, Repr

def keepArea (a : Nat) : Area :=
  if a < 0x10000 then .rom
  else if 0x10000000 ≤ a ∧ a < 0x10100000 then .sram
  else if 0x40000000 ≤ a ∧ a < 0x42000000 then .regs
  else if 0x48000000 ≤ a ∧ a < 0x48100000 then .ports
  else if 0x50000000 ≤ a ∧ a < 0x50100000 then .fram
  else if 0x80000000 ≤ a ∧ a < 0x90000000 then .cam
  else if 0x90000000 ≤ a ∧ a < 0x9C000000 then .dram
  else .nothing

def spireArea (a : Nat) : Area :=
  if a < 0x10000 then .rom
  else if 0x10000000 ≤ a ∧ a < 0x10200000 then .sram
  else if 0x40000000 ≤ a ∧ a < 0x42000000 then .regs
  else if 0x48000000 ≤ a ∧ a < 0x48100000 then .ports
  else if 0x60000000 ≤ a ∧ a < 0x70000000 then .flash
  else .nothing

def areaOf (i a : Nat) : Area := if i = 2 then keepArea a else spireArea a

def Area.device : Area → Bool
  | .regs | .ports | .fram => true
  | _ => false

def Area.writable : Area → Bool
  | .sram | .dram | .regs | .ports => true
  | _ => false

def Area.executes : Area → Bool
  | .rom | .sram | .dram | .flash => true
  | _ => false

/-- The regions that allow atomics (R386). -/
def Area.atomics : Area → Bool
  | .sram | .dram => true
  | _ => false

/-- The address of the last byte of an access. -/
def lastByte (a n : Nat) : Nat := (a + n - 1) % 2 ^ 32

/-! ## Contents of the regions that hold memory -/

/-- What the profile directory holds, which the cam store's placement follows. -/
def camDir (m : Mach) : List (Nat × Nat × Nat × Nat) :=
  m.profs.map (fun e => (e.1, e.2.ver, e.2.act.length / 32, e.2.old.length / 32))

/-- A byte of the cam store. Where each node of a committed version stands is open and the same at every load until the directory
changes; the node's bytes are the committed ones (R184, R186, R387). -/
def camByte (off : Nat) (m : Mach) : Nat :=
  let spare := Config.camSpare (camDir m) off % 256
  match Config.camPlace (camDir m) (off / 32) with
  | some (p, retiring, n) =>
    let x := mapGet {} p m.profs
    (((if retiring then x.old else x.act)[32 * n + off % 32]?).map (·.toNat)).getD spare
  | none => spare

/-- One byte of a SPECULABLE region or of the ferroelectric die: a free value where the spec gives no contents, which is what the
die holds beside the log (R32, R502). -/
def areaByte (i a : Nat) (m : Mach) : Nat × Mach :=
  match areaOf i a with
  | .rom => ((if i = 2 then Config.keepRom a else Config.hostRom a) % 256, m)
  | .sram => ((memRd (if i = 2 then m.keepMem else m.hostMem) a).toNat, m)
  | .dram => ((memRd m.keepMem a).toNat, m)
  | .flash => ((memRd m.flash a).toNat, m)
  | .fram => if 0x500C0000 ≤ a then ((memRd m.fram (a - 0x50000000)).toNat, m) else (m.free.1 % 256, m.free.2)
  | .cam => (camByte (a - 0x80000000) m, m)
  | _ => (0, m)

/-- A little-endian number of n bytes there. -/
def areaNat (i a : Nat) : Nat → Mach → Nat × Mach
  | 0, m => (0, m)
  | n + 1, m =>
    let b := areaByte i a m
    let r := areaNat i (a + 1) n b.2
    (b.1 + 256 * r.1, r.2)

/-! ## Queue ports -/

/-- A load of a word of Keep's channel ports (R234). -/
def chanPortLoad (port c off : Nat) (m : Mach) : Nat × Mach :=
  if off = 0 then portPopLo port c m
  else if off = 4 then (portPopHi port c m, m)
  else if off = 8 then (chStatus m c, m)
  else (0, m)

/-- A store there. -/
def chanPortStore (port c off v : Nat) (m : Mach) : Mach :=
  if off = 0 then portPushLo port c v m else if off = 4 then portPushHi port c v m else m

/-- A load of a word of a context's port (R342): CTX_Q at 4 and CTX_STICKY at 8. -/
def ctxPortLoad (x off : Nat) (m : Mach) : Nat × Mach :=
  if off = 0 then (rxHead m x, rxPop x m)
  else if off = 4 then (ctxQ m x, m)
  else if off = 8 then (m.rd (R.CTX_STICKY x), m)
  else (0, m)

/-- A store of a port of Keep (0) or of mover n (1 + n). -/
def ctxPortStore (port x off v : Nat) (m : Mach) : Mach := if off = 0 then txPortPut port x v m else m

/-- A load of a word of a claim port (R401). -/
def belPortLoad (i off : Nat) (m : Mach) : Nat × Mach :=
  if off = 0 then belClaim i false m
  else if off = 4 then belClaim i true m
  else if off = 8 then (belPeek i m, m)
  else (0, m)

def belPortStore (i off v : Nat) (m : Mach) : Mach := if off = 0 ∨ off = 4 then belComplete i v m else m

/-- A word load of Keep's port region; none where no port stands. -/
def keepPortLoad (a : Nat) (m : Mach) : Option (Nat × Mach) :=
  let o := a - 0x48000000
  if o < 0x800 then some (chanPortLoad 0 (o / 16) (o % 16) m)
  else if 0x1000 ≤ o ∧ o < 0x1100 ∧ o % 16 = 4 then some ((m.mov (o / 16 % 16)).ring.length, m)
  else if 0x2000 ≤ o ∧ o < 0x2800 then some (ctxPortLoad (o / 16 % 128) (o % 16) m)
  else if 0x3000 ≤ o ∧ o < 0x3010 then some (belPortLoad 2 (o % 16) m)
  else none

def keepPortStore (a v : Nat) (m : Mach) : Option Mach :=
  let o := a - 0x48000000
  if o < 0x800 then some (chanPortStore 0 (o / 16) (o % 16) v m)
  else if 0x1000 ≤ o ∧ o < 0x1100 ∧ o % 16 = 0 then some (ringPut (o / 16 % 16) v m)
  else if 0x2000 ≤ o ∧ o < 0x2800 then some (ctxPortStore 0 (o / 16 % 128) (o % 16) v m)
  else if 0x3000 ≤ o ∧ o < 0x3010 then some (belPortStore 2 (o % 16) v m)
  else none

/-! ## DEVICE accesses of one word -/

/-- A device load of the whole word at `a`; faults carry the address `at_` of the access. -/
def deviceLoad (i a at_ : Nat) (m : Mach) : Except CoreStop (Nat × Mach) :=
  match areaOf i a with
  | .regs =>
    match regAt a with
    | none => .error (.fault 1 6 at_)
    | some (idx, sub) =>
      if ownerOf idx ≠ coreSide i then .error (.fault 1 6 at_)
      else
        match regLoad idx sub m with
        | some r => .ok r
        | none => .error (.fault 1 6 at_)
  | .ports =>
    if i = 2 then
      match keepPortLoad a m with
      | some r => .ok r
      | none => .error (.fault 1 6 at_)
    else if 0x48003000 ≤ a ∧ a < 0x48003020 then .ok (belPortLoad i (a % 16) m)
    else if a = 0x48003100 then .ok (m.rd (hostCnt false), m)
    else if a = 0x48003110 then .ok (m.rd (hostCnt true), m)
    else .error (.port a)
  | _ => .ok (areaNat i a 4 m)

/-- A device store of a word (R24, R51, R55). -/
def deviceStore (i : Fin 3) (a v : Nat) (m : Mach) : CoreEff :=
  match areaOf i.val a with
  | .regs =>
    match regAt a with
    | none => .error (.fault 1 7 a)
    | some (idx, sub) =>
      match gate (coreWriter i) ⟨idx, sub, 0⟩ false m with
      | some _ => .error (.fault 1 7 a)
      | none =>
        match registerPut (coreWriter i) idx sub v m with
        | .ok m1 => .ok m1
        | .error _ => .error (.fault 1 7 a)
  | _ =>
    if i.val = 2 then
      match keepPortStore a v m with
      | some m1 => .ok m1
      | none => .error (.fault 1 7 a)
    else if 0x48003000 ≤ a ∧ a < 0x48003020 then .ok (belPortStore i.val (a % 16) v m)
    else if a = 0x48003100 ∨ a = 0x48003110 then
      let b := decide (a = 0x48003110)
      if i.val = boolNat b ∧ (m.core i.val).lvl = 2 ∧ safeCmdOk v then .ok (safeSend b v m) else .error (.fault 1 7 a)
    else .error (.port a)

/-! ## Loads and stores -/

/-- The bytes of an access leave the map or its regions: both ends are asked. -/
def denied (m : Mach) (i kind a n : Nat) : Bool :=
  !(m.core i).allows kind a || !(m.core i).allows kind (lastByte a n)

/-- A load of n bytes: the number loaded. The map is asked first, then the regions of R365, then the alignment; a sub-word
DEVICE load reads its whole word once (R386). -/
def coreRead (i : Fin 3) (e : CoreEcc) (a n : Nat) (m : Mach) : Except CoreStop (Nat × Mach) :=
  let r := areaOf i.val a
  let r2 := areaOf i.val (lastByte a n)
  if r = .nothing ∨ r2 = .nothing ∨ denied m i.val 0 a n then .error (.fault 1 6 a)
  else if r.device || r2.device then
    if a % n ≠ 0 then .error (.fault 1 4 a)
    else
      match deviceLoad i.val (a / 4 * 4) a m with
      | .ok (w, m1) => .ok (w / 2 ^ (8 * (a % 4)) % 2 ^ (8 * n), m1)
      | .error x => .error x
  else if e = .dataFatal then .error (.fault 1 0xB a)
  else .ok (areaNat i.val a n m)

/-- Reservations of other cores on the blocks a store reaches end (R386): the Spires share their SRAM. -/
def breakResv (i a n : Nat) (m : Mach) : Mach :=
  if i = 2 then m
  else
    m.updCore (1 - i) (fun c =>
      { c with resv := c.resv.filter (fun b => b != a / 32 && b != lastByte a n / 32) })

def memStore (i a n v : Nat) (m : Mach) : Mach :=
  if i = 2 then { m with keepMem := memWrN m.keepMem a (toLe n v) }
  else breakResv i a n { m with hostMem := memWrN m.hostMem a (toLe n v) }

/-- A store of n bytes. -/
def coreWrite (i : Fin 3) (a n v : Nat) (m : Mach) : CoreEff :=
  let r := areaOf i.val a
  let r2 := areaOf i.val (lastByte a n)
  if !r.writable || !r2.writable || denied m i.val 1 a n then .error (.fault 1 7 a)
  else if r.device || r2.device then
    if a % n ≠ 0 then .error (.fault 1 5 a)
    else if n < 4 then .error (.fault 1 7 a)
    else deviceStore i a v m
  else .ok (memStore i.val a n v m)

/-- Whether a fetch of a two-byte parcel at an address is allowed (R34, R365). -/
def fetchOk (m : Mach) (i a : Nat) : Bool := (areaOf i a).executes && (m.core i).allows 2 a

/-- A store of the movers or of a firmware load into Keep's memory ends Keep's reservation of the block (R386). -/
def movResv (a n : Nat) (m : Mach) : Mach :=
  m.updCore 2 (fun c => { c with resv := c.resv.filter (fun b => b != a / 32 && b != lastByte a n / 32) })

end Sys2Proof.Machine
end

