-- ==== Sys2Proof/Machine/Operands.lean ====
section
/-! DEFINITION. The operands of core instructions: register banks (R376), fields and immediates of the ratified encodings
(R360), control registers (R363, R364) and shadow stacks (R378 to R380). -/

namespace Sys2Proof.Machine

/-! ## Registers -/

/-- x1 and x10 to x17 have a second bank (R376). -/
def banked (r : Nat) : Bool := r == 1 || (decide (10 ≤ r) && decide (r ≤ 17))

/-- Key of general register r in the bank in use. -/
def Core.xKey (c : Core) (r : Nat) : Nat := if c.fast && banked r then 32 + r else r

/-- A general register; x0 reads 0. -/
def Core.rdX (c : Core) (r : Nat) : Word := if r = 0 then 0 else mapGet 0 (c.xKey r) c.x

/-- Writes a general register; x0 discards it. -/
def Core.wrX (r : Nat) (v : Word) (c : Core) : Core := if r = 0 then c else { c with x := mapSet 0 (c.xKey r) v c.x }

def Core.rdF (c : Core) (r : Nat) : Nat := (mapGet 0 (64 + r) c.x).toNat

def Core.wrF (r : Nat) (v : Nat) (c : Core) : Core := { c with x := mapSet 0 (64 + r) (BitVec.ofNat 32 v) c.x }

/-- Raises bits of fflags, which are fcsr[4:0] (R363). -/
def Core.raiseF (fl : Nat) (c : Core) : Core := c.csrSet 3 (c.csrGet 3 ||| BitVec.ofNat 32 fl)

/-! ## Fields of a 32-bit instruction -/

def opcodeOf (w : Nat) : Nat := bits 6 0 w
def rdOf (w : Nat) : Nat := bits 11 7 w
def funct3 (w : Nat) : Nat := bits 14 12 w
def rs1Of (w : Nat) : Nat := bits 19 15 w
def rs2Of (w : Nat) : Nat := bits 24 20 w
def funct7 (w : Nat) : Nat := bits 31 25 w

/-- A number's low n bits sign-extended to a word. -/
def sext (n v : Nat) : Word := BitVec.ofInt 32 (toSigned n v)

def immI (w : Nat) : Word := sext 12 (bits 31 20 w)
def immS (w : Nat) : Word := sext 12 (bits 31 25 w * 32 + bits 11 7 w)
def immB (w : Nat) : Word :=
  sext 13 (bits 31 31 w * 4096 + bits 7 7 w * 2048 + bits 30 25 w * 32 + bits 11 8 w * 2)
def immU (w : Nat) : Word := BitVec.ofNat 32 (bits 31 12 w * 4096)
def immJ (w : Nat) : Word :=
  sext 21 (bits 31 31 w * 2 ^ 20 + bits 19 12 w * 4096 + bits 20 20 w * 2048 + bits 30 21 w * 2)

/-! ## Shadow stacks -/

/-- The shadow stack of a level, top first. -/
def Core.ss (c : Core) (l : Nat) : List Word := if l = 0 then c.ssU else if l = 1 then c.ssS else c.ssM

def Core.setSs (l : Nat) (s : List Word) (c : Core) : Core :=
  if l = 0 then { c with ssU := s } else if l = 1 then { c with ssS := s } else { c with ssM := s }

/-- The SS bit of the current level is set. -/
def Core.ssOn (c : Core) : Bool := bit c.lvl (c.csrGet 0x730).toNat

def ssDepth : Nat := 128

/-- The level whose shadow stack a control register belongs to, and 0 XSS_CNT, 1 XSS_TOP, 2 XSS_BOT. -/
def xssCsr (n : Nat) : Option (Nat × Nat) :=
  if 0x540 ≤ n ∧ n ≤ 0x542 then some (0, n - 0x540)
  else if 0x740 ≤ n ∧ n ≤ 0x742 then some (1, n - 0x740)
  else if 0x744 ≤ n ∧ n ≤ 0x746 then some (2, n - 0x744)
  else none

/-- A read of XSS_TOP or XSS_BOT: the entry, 0 from an empty stack, and the core after it (R380). -/
def Core.xssTake (bot : Bool) (l : Nat) (c : Core) : Word × Core :=
  match c.ss l with
  | [] => (0, c)
  | a :: rest => if bot then ((a :: rest).getLast?.getD 0, c.setSs l (a :: rest).dropLast) else (a, c.setSs l rest)

/-- A write of XSS_TOP or XSS_BOT; one to a full stack is ignored (R380). -/
def Core.xssGive (bot : Bool) (l : Nat) (v : Word) (c : Core) : Core :=
  if ssDepth ≤ (c.ss l).length then c else if bot then c.setSs l (c.ss l ++ [v]) else c.setSs l (v :: c.ss l)

/-! ## Control registers -/

/-- Bits of a control register that hold what is written; none for one that has no row in R363. The first number is 0 for one
that only holds its value, 1 for one with a rule of its own, 2 for a read-only one. -/
def csrRow (n : Nat) : Option (Nat × Nat) :=
  if 1 ≤ n ∧ n ≤ 3 ∨ n = 0x500 then some (1, 0xFFFFFFFF)
  else if [0xC00, 0xC01, 0xC02, 0xC80, 0xC81, 0xC82, 0x732, 0x540, 0x740, 0x744].contains n then some (2, 0)
  else if (xssCsr n).isSome then some (1, 0xFFFFFFFF)
  else if [0x510, 0x710, 0x720].contains n then some (0, 0xFFFFFFFE)
  else if [0x511, 0x711, 0x721].contains n then some (0, 0x3F)
  else if [0x512, 0x712, 0x722].contains n then some (0, 0xF000FFFF)
  else if [0x513, 0x713, 0x723, 0x515, 0x516, 0x517, 0x715, 0x716, 0x717].contains n then some (0, 0xFFFFFFFF)
  else if n = 0x514 ∨ n = 0x714 then some (0, 0xFFFFFF00)
  else if n = 0x730 then some (0, 0xF37)
  else if n = 0x731 then some (0, 3)
  else if 0x760 ≤ n ∧ n ≤ 0x76F then some (0, if n % 2 = 0 then 0xFFFFF000 else 0xFFFFF07F)
  else none

/-- The level of a control register (R363). -/
def csrLevel (c : Core) (n : Nat) : Nat :=
  if n ≤ 3 then 0
  else if 0xC00 ≤ n then (if bit 4 (c.csrGet 0x730).toNat then 0 else 1)
  else if n < 0x700 then 1
  else 2

/-- The 64-bit count a counter register shows: Keep's time is FTB_NOW, Spire's the host line time. -/
def csrCount (m : Mach) (i n : Nat) : Nat :=
  if n % 16 = 0 then (m.core i).cycle
  else if n % 16 = 1 then (if i = 2 then m.now else m.hlt)
  else (m.core i).instret

/-- XSTATUS (R363). -/
def Core.xstatus (c : Core) : Word := statusWord c.eact c.fast c.xmask c.lvl

/-- What a control register other than XSS_TOP and XSS_BOT reads as. -/
def csrRead (m : Mach) (i n : Nat) : Word :=
  let c := m.core i
  if n = 1 then BitVec.ofNat 32 (bits 4 0 (c.csrGet 3).toNat)
  else if n = 2 then BitVec.ofNat 32 (bits 7 5 (c.csrGet 3).toNat)
  else if n = 3 then c.csrGet 3
  else if 0xC80 ≤ n then BitVec.ofNat 32 (csrCount m i n / 2 ^ 32)
  else if 0xC00 ≤ n then BitVec.ofNat 32 (csrCount m i n)
  else if n = 0x500 then c.xstatus
  else if n = 0x732 then BitVec.ofNat 32 i
  else
    match xssCsr n with
    | some (l, _) => BitVec.ofNat 32 (c.ss l).length
    | none => c.csrGet n

/-- A write of a control register: fields shown as 0 stay 0, and XSTATUS takes only XMASK (R363, R364, R380). -/
def Core.csrWrite (n : Nat) (v : Word) (c : Core) : Core :=
  if n = 1 then c.csrSet 3 (BitVec.ofNat 32 (putBits 4 0 v.toNat (c.csrGet 3).toNat))
  else if n = 2 then c.csrSet 3 (BitVec.ofNat 32 (putBits 7 5 v.toNat (c.csrGet 3).toNat))
  else if n = 3 then c.csrSet 3 (v &&& 0xFF)
  else if n = 0x500 then { c with xmask := if c.lvl = 0 then 0 else bits 3 2 v.toNat }
  else
    match xssCsr n with
    | some (l, k) => if k = 0 then c else c.xssGive (k == 2) l v
    | none =>
      match csrRow n with
      | some (0, mask) => c.csrSet n (v &&& BitVec.ofNat 32 mask)
      | _ => c

end Sys2Proof.Machine
end

