-- ==== Sys2Proof/Machine/CoreInsn.lean ====
section
/-! DEFINITION. What a core instruction does (R360, R361, R363, R366 to R368, R377 to R380, R384 to R386): RV32IMAFC with
Zicsr, Zifencei and Zicntr, its faults, and the system instructions of the cores. -/

namespace Sys2Proof.Machine

/-- An instruction as it executes: the core, what the ECC checks found, the 32-bit word, its length in bytes and the word as it
was fetched. -/
structure Insn where
  i : Fin 3
  e : CoreEcc
  w : Nat
  len : Nat
  raw : Nat
deriving DecidableEq, Repr

def Insn.illegal (x : Insn) : CoreEff := .error (.fault 1 2 x.raw)

def Insn.privilege (x : Insn) : CoreEff := .error (.fault 1 8 x.raw)

def Insn.core (x : Insn) (m : Mach) : Core := m.core x.i.val

/-- The address of the instruction after this one. -/
def Insn.next (x : Insn) (m : Mach) : Word := (x.core m).pc + BitVec.ofNat 32 x.len

/-- Values of rs1 and rs2. -/
def Insn.a (x : Insn) (m : Mach) : Word := (x.core m).rdX (rs1Of x.w)
def Insn.b (x : Insn) (m : Mach) : Word := (x.core m).rdX (rs2Of x.w)

/-- The instruction retires and continues at `pc`. -/
def Insn.retireAt (x : Insn) (pc : Word) (m : Mach) : Mach :=
  m.updCore x.i.val (fun c => { c with pc := pc, instret := (c.instret + 1) % 2 ^ 64 })

def Insn.retire (x : Insn) (m : Mach) : Mach := x.retireAt (x.next m) m

/-- It retires with a result in rd. -/
def Insn.result (x : Insn) (v : Word) (m : Mach) : CoreEff :=
  .ok ((x.retire m).updCore x.i.val (fun c => c.wrX (rdOf x.w) v))

/-! ## Integer computation -/

/-- The register-immediate and register-register operations by funct3; `alt` chooses SUB and SRA. -/
def alu (f3 : Nat) (alt : Bool) (a b : Word) : Word :=
  match f3 with
  | 0 => if alt then a - b else a + b
  | 1 => a <<< (b.toNat % 32)
  | 2 => if a.slt b then 1 else 0
  | 3 => if a.ult b then 1 else 0
  | 4 => a ^^^ b
  | 5 => if alt then a.sshiftRight (b.toNat % 32) else a >>> (b.toNat % 32)
  | 6 => a ||| b
  | _ => a &&& b

/-- The M operations by funct3, on exact integers; a division by 0 and the one overflow answer as ratified. -/
def mulDiv (f3 : Nat) (a b : Word) : Word :=
  match f3 with
  | 0 => a * b
  | 1 => BitVec.ofInt 32 (a.toInt * b.toInt / 2 ^ 32)
  | 2 => BitVec.ofInt 32 (a.toInt * (b.toNat : Int) / 2 ^ 32)
  | 3 => BitVec.ofNat 32 (a.toNat * b.toNat / 2 ^ 32)
  | 4 => if b = 0 then 0xFFFFFFFF else BitVec.ofInt 32 (a.toInt.tdiv b.toInt)
  | 5 => if b = 0 then 0xFFFFFFFF else BitVec.ofNat 32 (a.toNat / b.toNat)
  | 6 => if b = 0 then a else BitVec.ofInt 32 (a.toInt.tmod b.toInt)
  | _ => if b = 0 then a else BitVec.ofNat 32 (a.toNat % b.toNat)

def Insn.opImm (x : Insn) (m : Mach) : CoreEff :=
  let f := funct3 x.w
  if f = 1 then (if funct7 x.w = 0 then x.result (alu 1 false (x.a m) (BitVec.ofNat 32 (rs2Of x.w))) m else x.illegal)
  else if f = 5 then
    if funct7 x.w = 0 ∨ funct7 x.w = 0x20 then
      x.result (alu 5 (funct7 x.w == 0x20) (x.a m) (BitVec.ofNat 32 (rs2Of x.w))) m
    else x.illegal
  else x.result (alu f false (x.a m) (immI x.w)) m

def Insn.op (x : Insn) (m : Mach) : CoreEff :=
  let f := funct3 x.w
  let f7 := funct7 x.w
  if f7 = 0 then x.result (alu f false (x.a m) (x.b m)) m
  else if f7 = 1 then x.result (mulDiv f (x.a m) (x.b m)) m
  else if f7 = 0x20 ∧ (f = 0 ∨ f = 5) then x.result (alu f true (x.a m) (x.b m)) m
  else x.illegal

/-- Whether a branch by funct3 is taken. -/
def branchTaken (f3 : Nat) (a b : Word) : Bool :=
  match f3 with
  | 0 => a == b
  | 1 => a != b
  | 4 => a.slt b
  | 5 => !a.slt b
  | 6 => a.ult b
  | _ => !a.ult b

def Insn.branch (x : Insn) (m : Mach) : CoreEff :=
  if funct3 x.w = 2 ∨ funct3 x.w = 3 then x.illegal
  else if branchTaken (funct3 x.w) (x.a m) (x.b m) then .ok (x.retireAt ((x.core m).pc + immB x.w) m)
  else .ok (x.retire m)

/-! ## Calls and returns (R378, R379) -/

/-- x1 and x5 link. -/
def isLink (r : Nat) : Bool := r == 1 || r == 5

def isCall (rd : Nat) : Bool := isLink rd

/-- A JALR returns. -/
def isReturn (rd rs1 : Nat) : Bool := isLink rs1 && (rd == 0 || (isLink rd && rd != rs1))

/-- The return's effect on the shadow stack: compare with the top, pop on a match. -/
def ssReturn (target : Word) (c : Core) : Except CoreStop Core :=
  match c.ss c.lvl with
  | [] => .error (.fault 3 3 target.toNat)
  | a :: rest => if a = target then .ok (c.setSs c.lvl rest) else .error (.fault 3 1 a.toNat)

/-- The call's effect: push the link address. -/
def ssCall (link : Word) (c : Core) : Except CoreStop Core :=
  if ssDepth ≤ (c.ss c.lvl).length then .error (.fault 3 2 link.toNat) else .ok (c.setSs c.lvl (link :: c.ss c.lvl))

/-- What a jump does to the shadow stack of the current level, while it is enabled. -/
def ssJump (ret call : Bool) (target link : Word) (c : Core) : Except CoreStop Core :=
  if !c.ssOn then .ok c
  else
    match (if ret then ssReturn target c else .ok c) with
    | .error x => .error x
    | .ok c1 => if call then ssCall link c1 else .ok c1

/-- A jump to a target, with the link address in rd. -/
def Insn.jump (x : Insn) (ret : Bool) (target : Word) (m : Mach) : CoreEff :=
  match ssJump ret (isCall (rdOf x.w)) target (x.next m) (x.core m) with
  | .error e => .error e
  | .ok c => .ok ((x.retireAt target (m.setCore x.i.val c)).updCore x.i.val (fun d => d.wrX (rdOf x.w) (x.next m)))

def Insn.jal (x : Insn) (m : Mach) : CoreEff := x.jump false ((x.core m).pc + immJ x.w) m

def Insn.jalr (x : Insn) (m : Mach) : CoreEff :=
  if funct3 x.w ≠ 0 then x.illegal
  else x.jump (isReturn (rdOf x.w) (rs1Of x.w)) ((x.a m + immI x.w) &&& 0xFFFFFFFE) m

/-! ## Loads, stores and atomics (R386) -/

/-- A loaded number as the register takes it, by funct3. -/
def loadWord (f3 v : Nat) : Word :=
  match f3 with
  | 0 => sext 8 v
  | 1 => sext 16 v
  | _ => BitVec.ofNat 32 v

def Insn.load (x : Insn) (m : Mach) : CoreEff :=
  let f := funct3 x.w
  if f = 3 ∨ 5 < f then x.illegal
  else
    match coreRead x.i x.e (x.a m + immI x.w).toNat (2 ^ (f % 4)) m with
    | .ok (v, m1) => x.result (loadWord f v) m1
    | .error e => .error e

/-- A store takes effect as the instruction retires. -/
def Insn.store (x : Insn) (m : Mach) : CoreEff :=
  let f := funct3 x.w
  if 2 < f then x.illegal
  else coreWrite x.i (x.a m + immS x.w).toNat (2 ^ f) ((x.b m).toNat % 2 ^ (8 * 2 ^ f)) (x.retire m)

def Insn.loadFp (x : Insn) (m : Mach) : CoreEff :=
  if funct3 x.w ≠ 2 then x.illegal
  else
    match coreRead x.i x.e (x.a m + immI x.w).toNat 4 m with
    | .ok (v, m1) => .ok ((x.retire m1).updCore x.i.val (fun c => c.wrF (rdOf x.w) v))
    | .error e => .error e

def Insn.storeFp (x : Insn) (m : Mach) : CoreEff :=
  if funct3 x.w ≠ 2 then x.illegal
  else coreWrite x.i (x.a m + immS x.w).toNat 4 ((x.core m).rdF (rs2Of x.w)) (x.retire m)

/-- The new memory word of an AMO by funct5. -/
def amoWord (f5 : Nat) (old b : Word) : Option Word :=
  match f5 with
  | 0x00 => some (old + b)
  | 0x01 => some b
  | 0x04 => some (old ^^^ b)
  | 0x08 => some (old ||| b)
  | 0x0C => some (old &&& b)
  | 0x10 => some (if old.slt b then old else b)
  | 0x14 => some (if old.slt b then b else old)
  | 0x18 => some (if old.ult b then old else b)
  | 0x1C => some (if old.ult b then b else old)
  | _ => none

/-- LR.W. -/
def Insn.loadReserved (x : Insn) (m : Mach) : CoreEff :=
  let a := (x.a m).toNat
  if !(areaOf x.i.val a).atomics || denied m x.i.val 0 a 4 then .error (.fault 1 6 a)
  else if a % 4 ≠ 0 then .error (.fault 1 4 a)
  else
    match coreRead x.i x.e a 4 m with
    | .ok (v, m1) => x.result (BitVec.ofNat 32 v) (m1.updCore x.i.val (fun c => { c with resv := some (a / 32) }))
    | .error e => .error e

/-- SC.W: stores while the reservation of the block stands; it ends either way. -/
def Insn.storeConditional (x : Insn) (m : Mach) : CoreEff :=
  let a := (x.a m).toNat
  if !(areaOf x.i.val a).atomics || denied m x.i.val 1 a 4 then .error (.fault 1 7 a)
  else if a % 4 ≠ 0 then .error (.fault 1 5 a)
  else
    let m1 := m.updCore x.i.val (fun c => { c with resv := none })
    if (x.core m).resv = some (a / 32) then x.result 0 (memStore x.i.val a 4 (x.b m).toNat m1) else x.result 1 m1

/-- An AMO: one read and one write of a word. -/
def Insn.amo (x : Insn) (m : Mach) : CoreEff :=
  let a := (x.a m).toNat
  if !(areaOf x.i.val a).atomics || denied m x.i.val 0 a 4 || denied m x.i.val 1 a 4 then .error (.fault 1 7 a)
  else if a % 4 ≠ 0 then .error (.fault 1 5 a)
  else
    match coreRead x.i x.e a 4 m with
    | .ok (v, m1) =>
      match amoWord (funct7 x.w / 4) (BitVec.ofNat 32 v) (x.b m) with
      | some n => x.result (BitVec.ofNat 32 v) (memStore x.i.val a 4 n.toNat m1)
      | none => x.illegal
    | .error e => .error e

def Insn.atomic (x : Insn) (m : Mach) : CoreEff :=
  let f5 := funct7 x.w / 4
  if funct3 x.w ≠ 2 then x.illegal
  else if f5 = 2 then (if rs2Of x.w = 0 then x.loadReserved m else x.illegal)
  else if f5 = 3 then x.storeConditional m
  else if (amoWord f5 0 0).isSome then x.amo m
  else x.illegal

/-! ## Floating point -/

/-- The rounding mode of funct3, 7 taking frm; none for a reserved one. -/
def roundMode (c : Core) (f3 : Nat) : Option Nat :=
  let r := if f3 = 7 then bits 7 5 (c.csrGet 3).toNat else f3
  if r < 5 then some r else none

/-- A result in a floating-point register with its flags. -/
def Insn.resultF (x : Insn) (r : FRes) (m : Mach) : CoreEff :=
  .ok ((x.retire m).updCore x.i.val (fun c => (c.wrF (rdOf x.w) r.1).raiseF r.2))

/-- A result in a general register with its flags. -/
def Insn.resultX (x : Insn) (r : FRes) (m : Mach) : CoreEff :=
  .ok ((x.retire m).updCore x.i.val (fun c => (c.wrX (rdOf x.w) (BitVec.ofNat 32 r.1)).raiseF r.2))

/-- The four fused operations by opcode. -/
def Insn.fused (x : Insn) (m : Mach) : CoreEff :=
  let c := x.core m
  let p := f32 (c.rdF (rs1Of x.w))
  let q := f32 (c.rdF (rs2Of x.w))
  let r := f32 (c.rdF (bits 31 27 x.w))
  if bits 26 25 x.w ≠ 0 then x.illegal
  else
    match roundMode c (funct3 x.w) with
    | none => x.illegal
    | some rm =>
      match opcodeOf x.w with
      | 0x43 => x.resultF (fFma rm p q r) m
      | 0x47 => x.resultF (fFma rm p q r.neg) m
      | 0x4B => x.resultF (fFma rm p.neg q r) m
      | _ => x.resultF (fFma rm p.neg q r.neg) m

/-- The operations of OP-FP that round. -/
def Insn.opFpRound (x : Insn) (rm : Nat) (m : Mach) : CoreEff :=
  let c := x.core m
  let p := f32 (c.rdF (rs1Of x.w))
  let q := f32 (c.rdF (rs2Of x.w))
  let uns := rs2Of x.w == 1
  match funct7 x.w with
  | 0x00 => x.resultF (fAdd rm p q) m
  | 0x04 => x.resultF (fAdd rm p q.neg) m
  | 0x08 => x.resultF (fMul rm p q) m
  | 0x0C => x.resultF (fDiv rm p q) m
  | 0x2C => if rs2Of x.w = 0 then x.resultF (fSqrt rm p) m else x.illegal
  | 0x60 => if rs2Of x.w < 2 then x.resultX (fToInt uns rm p) m else x.illegal
  | _ => if rs2Of x.w < 2 then x.resultF (fFromInt uns rm (x.a m).toNat) m else x.illegal

/-- Those that do not. -/
def Insn.opFpBits (x : Insn) (m : Mach) : CoreEff :=
  let c := x.core m
  let p := c.rdF (rs1Of x.w)
  let q := c.rdF (rs2Of x.w)
  let f := funct3 x.w
  match funct7 x.w with
  | 0x10 => if f < 3 then x.resultF (fSgnj f p q, 0) m else x.illegal
  | 0x14 => if f < 2 then x.resultF (fMinMax (f == 1) p q) m else x.illegal
  | 0x50 => if f < 3 then x.resultX (fCmp f (f32 p) (f32 q)) m else x.illegal
  | 0x70 =>
    if rs2Of x.w ≠ 0 then x.illegal
    else if f = 0 then x.resultX (p, 0) m
    else if f = 1 then x.resultX (fClass p, 0) m
    else x.illegal
  | 0x78 => if rs2Of x.w = 0 ∧ f = 0 then x.resultF ((x.a m).toNat, 0) m else x.illegal
  | _ => x.illegal

def Insn.opFp (x : Insn) (m : Mach) : CoreEff :=
  if [0x00, 0x04, 0x08, 0x0C, 0x2C, 0x60, 0x68].contains (funct7 x.w) then
    match roundMode (x.core m) (funct3 x.w) with
    | some rm => x.opFpRound rm m
    | none => x.illegal
  else x.opFpBits m

/-! ## Control registers (R363, R380) -/

/-- The new value of a CSR instruction by funct3. -/
def csrNew (f3 : Nat) (old src : Word) : Word :=
  match f3 % 4 with
  | 1 => src
  | 2 => old ||| src
  | _ => old &&& ~~~src

/-- XSS_TOP and XSS_BOT: CSRRS and CSRRSI with a zero source read, CSRRW and CSRRWI with rd = x0 write. -/
def Insn.xss (x : Insn) (l : Nat) (bot : Bool) (m : Mach) : CoreEff :=
  let f := funct3 x.w % 4
  if f = 2 ∧ rs1Of x.w = 0 then
    let r := (x.core m).xssTake bot l
    x.result r.1 (m.setCore x.i.val r.2)
  else if f = 1 ∧ rdOf x.w = 0 then
    let src := if 4 ≤ funct3 x.w then BitVec.ofNat 32 (rs1Of x.w) else x.a m
    .ok (x.retire (m.updCore x.i.val (fun c => c.xssGive bot l src)))
  else x.illegal

def Insn.csr (x : Insn) (m : Mach) : CoreEff :=
  let n := bits 31 20 x.w
  let f := funct3 x.w
  let src := if 4 ≤ f then BitVec.ofNat 32 (rs1Of x.w) else x.a m
  let writes := f % 4 == 1 || rs1Of x.w != 0
  match csrRow n with
  | none => x.illegal
  | some (kind, _) =>
    if f = 4 then x.illegal
    else if (x.core m).lvl < csrLevel (x.core m) n then x.privilege
    else if kind = 2 ∧ writes then x.illegal
    else
      match xssCsr n with
      | some (l, k + 1) => x.xss l (k == 1) m
      | _ =>
        let old := csrRead m x.i.val n
        let m1 := if writes then m.updCore x.i.val (fun c => c.csrWrite n (csrNew f old src)) else m
        x.result old m1

/-! ## System instructions (R361) -/

/-- A Keep debug halt begins: what the units do that do not simply stand still (R30, R389). -/
def keepHaltBegins (m : Mach) : Mach := statusSync (tursDapHalt (axesDapHalt m))

/-- A core halts; its gated clock is woken by the request (R377, R389). -/
def coreHalt (i : Nat) (m : Mach) : Mach :=
  if (m.core i).halted then m.updCore i (fun c => { c with resume := false })
  else
    let m1 := (m.when (i == 2) octsDapHalt).updCore i (fun c => { c with halted := true, gated := false })
    if i = 2 then keepHaltBegins m1 else m1

/-- EBREAK and C.EBREAK (R361, R389). -/
def Insn.ebreak (x : Insn) (m : Mach) : CoreEff :=
  if (x.core m).ebreakHalt && !m.saf.dbgLock then .ok (coreHalt x.i.val m) else .error (.fault 1 3 0)

/-- ECALL (R361, R366): it retires and enters the next level up. -/
def Insn.ecall (x : Insn) (m : Mach) : CoreEff :=
  let c := x.core m
  if c.lvl = 2 then .error (.fault 1 9 0)
  else .ok ((x.retire m).updCore x.i.val (fun d => d.entry 2 (c.lvl + 1) (c.lvl + 1) 0 (x.next m)))

/-- XRET (R361, R368). -/
def Insn.xret (x : Insn) (m : Mach) : CoreEff :=
  if (x.core m).lvl = 0 then x.privilege
  else
    match (x.core m).xret with
    | .ok c => .ok (m.setCore x.i.val { c with instret := (c.instret + 1) % 2 ^ 64 })
    | .error code => .error (.fault 1 code x.raw)

/-- WFI (R377). -/
def Insn.wfi (x : Insn) (m : Mach) : CoreEff :=
  if (x.core m).lvl = 0 then x.privilege
  else .ok ((x.retire m).updCore x.i.val (fun c => { c with gated := !belWakes m x.i.val }))

def Insn.system (x : Insn) (m : Mach) : CoreEff :=
  if funct3 x.w ≠ 0 then x.csr m
  else if x.w = 0x00000073 then x.ecall m
  else if x.w = 0x00100073 then x.ebreak m
  else if x.w = 0x7F000073 then x.xret m
  else if x.w = 0x7F100073 then x.wfi m
  else x.illegal

/-- FENCE and FENCE.I: in a model whose accesses complete in order they only retire (R385). -/
def Insn.fence (x : Insn) (m : Mach) : CoreEff := if funct3 x.w < 2 then .ok (x.retire m) else x.illegal

/-! ## Executing a word -/

/-- A 32-bit instruction by opcode. -/
def Insn.exec (x : Insn) (m : Mach) : CoreEff :=
  match opcodeOf x.w with
  | 0x03 => x.load m
  | 0x07 => x.loadFp m
  | 0x0F => x.fence m
  | 0x13 => x.opImm m
  | 0x17 => x.result ((x.core m).pc + immU x.w) m
  | 0x23 => x.store m
  | 0x27 => x.storeFp m
  | 0x2F => x.atomic m
  | 0x33 => x.op m
  | 0x37 => x.result (immU x.w) m
  | 0x43 => x.fused m
  | 0x47 => x.fused m
  | 0x4B => x.fused m
  | 0x4F => x.fused m
  | 0x53 => x.opFp m
  | 0x63 => x.branch m
  | 0x67 => x.jalr m
  | 0x6F => x.jal m
  | 0x73 => x.system m
  | _ => x.illegal

/-- The 32-bit instruction a fetched word stands for. -/
def insnWord (w : Nat) : Option Nat := if w % 4 = 3 then some (w % 2 ^ 32) else expandC (w % 2 ^ 16)

/-- Counters of ECC errors of a core, corrected and fatal (R370, R391). -/
def eccCounter : Nat → Bool → Obj
  | 0, false => R.SPR_CNT_ECC_CORR 0
  | 0, true => R.SPR_CNT_ECC_FATAL 0
  | 1, false => R.SPR_CNT_ECC_CORR 1
  | 1, true => R.SPR_CNT_ECC_FATAL 1
  | _, false => R.KEEP_CNT_ECC_CORR
  | _, true => R.KEEP_CNT_ECC_FATAL

/-- The bytes of a fetched word. -/
def wordLen (w : Nat) : Nat := if w % 4 = 3 then 4 else 2

/-- The address of the parcel of the word at the pc that may not be fetched. -/
def fetchBar (m : Mach) (i w : Nat) : Option Nat :=
  let pc := (m.core i).pc.toNat
  [pc, (pc + wordLen w - 2) % 2 ^ 32].find? (fun a => !fetchOk m i a)

/-- The fetch and the execution of a word at the pc: fetch faults carry the address of the parcel that failed. -/
def coreInsn (i : Fin 3) (w : Nat) (e : CoreEcc) (m : Mach) : CoreEff :=
  let raw := if wordLen w = 4 then w % 2 ^ 32 else w % 2 ^ 16
  match fetchBar m i.val w with
  | some a => .error (.fault 1 1 a)
  | none =>
    if e = .fetchFatal then .error (.fault 1 0xA (m.core i.val).pc.toNat)
    else
      match insnWord w with
      | none => .error (.fault 1 2 raw)
      | some v => Insn.exec ⟨i, e, v, wordLen w, raw⟩ m

/-- A correctable ECC error of an instruction's accesses is counted, also where the instruction then faults (R370). -/
def eccSeen (i : Fin 3) (w : Nat) (e : CoreEcc) (m : Mach) : Mach :=
  m.when (e == .corrected && (fetchBar m i.val w).isNone) (fun m => m.inc (eccCounter i.val false))

/-- A fault of class 1 or 3: an uncorrectable ECC error is counted, and Keep's signals the monitor (R370). -/
def coreStops (i : Fin 3) (cls code info : Nat) (m : Mach) : Mach :=
  let m1 := if code = 0xA ∨ code = 0xB then m.inc (eccCounter i.val true) else m
  let m2 := if (code = 0xA ∨ code = 0xB) ∧ i.val = 2 then m1.alarm 6 else m1
  coreFault i.val cls code info (m.core i.val).pc m2

/-- A STEP ends with its one instruction: the core stands halted, with its clock stopped, also where the instruction was a WFI or
restarted the core (R389). -/
def endStep (i : Nat) (stepped : Bool) (m : Mach) : Mach :=
  if stepped then m.updCore i (fun c => { c with step := false, halted := true, gated := false }) else m

/-- One instruction of a core, precise (R384): it retires, or it faults and nothing of it happened. -/
def runWord (i : Fin 3) (w : Nat) (e : CoreEcc) (s : State) : Host.Outcome State Fault Refusal :=
  if !coreLive s.m i then done id s
  else
    match coreInsn i w e (eccSeen i w e s.m) with
    | .ok m => done (fun _ => endStep i.val (s.m.core i.val).step m) s
    | .error (.fault cls code info) => done (fun m => endStep i.val (m.core i.val).step (coreStops i cls code info (eccSeen i w e m))) s
    | .error (.port a) => .refused (.undescribedPort a)

/-! ## Which rows a word belongs to -/

/-- The 32-bit instruction of a word, 0 where it has none. -/
def wordOr0 (w : Nat) : Nat := (insnWord w).getD 0

def isFence (w : Nat) : Bool := opcodeOf w == 0x0F && funct3 w == 0
def isFenceI (w : Nat) : Bool := opcodeOf w == 0x0F && funct3 w == 1
def isCsr (w : Nat) : Bool := opcodeOf w == 0x73 && funct3 w != 0

/-- A CSR instruction on XSS_TOP (k 1) or XSS_BOT (k 2) in the form that reads, or writes. -/
def isXss (k : Nat) (writes : Bool) (w : Nat) : Bool :=
  isCsr w && (xssCsr (bits 31 20 w)).any (fun p => p.2 == k) && funct3 w % 4 == (if writes then 1 else 2)

def isShadowCall (w : Nat) : Bool := (opcodeOf w == 0x6F || opcodeOf w == 0x67) && isCall (rdOf w)
def isShadowReturn (w : Nat) : Bool := opcodeOf w == 0x67 && isReturn (rdOf w) (rs1Of w)
def isAtomic (w : Nat) : Bool := opcodeOf w == 0x2F

/-- A row that stands for words of one kind; a word of another kind is no such command and has no effect. -/
def runKind (kind : Nat → Bool) (i : Fin 3) (w : Nat) (s : State) : Host.Outcome State Fault Refusal :=
  if kind (wordOr0 w) then runWord i w .clean s else done id s

/-! ## Interrupt entries and waking (R372, R377, R388) -/

/-- The class and code taken at a boundary, in the order of R388. -/
def entryDue (m : Mach) (i : Nat) : Option (Nat × Nat) :=
  let c := m.core i
  match c.c7 with
  | code :: _ => if irqTaken c 7 then some (7, code) else normal c
  | [] => normal c
where
  normal (c : Core) : Option (Nat × Nat) :=
    if irqTaken c 5 && belRequest m i true then some (5, 0)
    else if irqTaken c 4 && belRequest m i false then some (4, 0)
    else none

def interruptEffect (i : Fin 3) (m : Mach) : Mach :=
  let c := m.core i.val
  if !coreLive m i || c.halted then m
  else
    match entryDue m i.val with
    | none => m
    | some (cls, code) =>
      m.setCore i.val ({ c with c7 := if cls = 7 then c.c7.drop 1 else c.c7 }.entry cls (irqLevel c cls) code 0 c.pc)

/-- A gated core has a reason to wake, and its side is not in SLEEP. -/
def wakeDue (m : Mach) (i : Nat) : Bool :=
  (m.core i).gated && !(m.core i).held && !(if i = 2 then m.pwr.fSleep else m.pwr.hSleep) &&
  (belWakes m i || !(m.core i).c7.isEmpty)

def coreWakeEffect (i : Nat) (m : Mach) : Mach := if wakeDue m i then m.updCore i (fun c => { c with gated := false }) else m

/-- LOCKSTEP_MISMATCH (R359): the monitor's cause 1 restarts the pair. -/
def lockstepEffect (m : Mach) : Mach := if (m.core 2).halted || m.pwr.fSleep then m else m.alarm 1

end Sys2Proof.Machine
end

