-- ==== Sys2Proof/Machine/Dap.lean ====
section
/-! DEFINITION. The debug access ports (R389, R390): the commands of the 64-bit data register and what the next capture
returns. -/

namespace Sys2Proof.Machine

/-- The next capture: 0x80 + CMD on success or 0xFF, and the result data. -/
def dapReply (i : Fin 3) (cmd : Nat) (r : Option (Nat × Mach)) (m : Mach) : Mach :=
  match r with
  | some (data, m1) => m1.send (.dap i.val) [0x80 + cmd, data]
  | none => m.send (.dap i.val) [0xFF, 0]

/-- The core's side is in SLEEP, where the port reaches no core. -/
def dapSleeps (m : Mach) (i : Fin 3) : Bool := if i.val = 2 then m.pwr.fSleep else m.pwr.hSleep

/-- With DBG_LOCK blown the port accepts no command (R389). -/
def dapOpen (m : Mach) (i : Fin 3) : Bool := !m.saf.dbgLock && !dapSleeps m i

/-- In LCLK mode of field SLEEP the port reaches FTB_SLOW, which is clocked from LCLK, and nothing else (R82, log 18). -/
def dapSlow (m : Mach) (i : Fin 3) : Bool := !m.saf.dbgLock && decide (i.val = 2) && m.pwr.fSleep

/-- A command other than HALT and STATUS is refused while the core runs (R390). -/
def dapHalted (m : Mach) (i : Fin 3) : Bool := dapOpen m i && (m.core i.val).halted

/-- A command that the port accepts in a condition. -/
def dapCommand (i : Fin 3) (cmd : Nat) (ok : Bool) (f : Mach → Mach) (m : Mach) : Mach :=
  dapReply i cmd (if ok then some (0, f m) else none) m

/-! ## HALT, RESUME, STEP, STATUS -/

def dapHaltEffect (i : Fin 3) (m : Mach) : Mach := dapCommand i 1 (dapOpen m i) (coreHalt i.val) m

/-- A Keep debug halt ends: the units of the field side go on as their chapters say (R30, R193, R229, R290, R411). -/
def keepHaltEnds (m : Mach) : Mach :=
  statusSync (wdRestart (belReleaseHeld (octsDapResume (lanRestart (lanStop (chansRestart m))))))

/-- A core leaves its halt. -/
def coreGoesOn (i : Nat) (m : Mach) : Mach :=
  let m1 := m.updCore i (fun c => { c with halted := false, step := false, resume := false })
  if i = 2 then keepHaltEnds m1 else m1

/-- RESUME: at once, but for Keep in LCLK mode, whose clock starts again at the next LCLK edge (R82). -/
def coreResume (i : Nat) (m : Mach) : Mach :=
  if i = 2 ∧ m.tb.slowFrom.isSome then m.updCore 2 (fun c => { c with resume := true }) else coreGoesOn i m

def dapResumeEffect (i : Fin 3) (m : Mach) : Mach := dapCommand i 2 (dapHalted m i) (coreResume i.val) m

/-- STEP: the halted core may execute one instruction, at whose end it stands halted again. -/
def dapStepEffect (i : Fin 3) (m : Mach) : Mach :=
  dapCommand i 3 (dapHalted m i) (fun m => m.updCore i.val (fun c => { c with step := true })) m

/-- EBREAK_HALT: DATA[0] enables halting on EBREAK. -/
def ebreakHaltEffect (i : Fin 3) (v : Nat) (m : Mach) : Mach :=
  dapCommand i 4 (dapHalted m i) (fun m => m.updCore i.val (fun c => { c with ebreakHalt := bit 0 v })) m

/-- STATUS: 0 running, 1 halted, 2 dozing; it asks nothing of the core's clock, so a port answers it in SLEEP too (log 18). -/
def dapStatusEffect (i : Fin 3) (m : Mach) : Mach :=
  let c := m.core i.val
  dapReply i 0x30 (if !m.saf.dbgLock then some (if c.halted then 1 else if c.gated then 2 else 0, m) else none) m

/-! ## Registers -/

/-- Key of a general register named by REG: main bank, floating point or fast bank. -/
def dapKey (reg : Nat) : Option Nat :=
  if 0x1000 ≤ reg ∧ reg < 0x1020 then some (reg - 0x1000)
  else if 0x1020 ≤ reg ∧ reg < 0x1040 then some (64 + (reg - 0x1020))
  else if 0x1060 ≤ reg ∧ reg < 0x1080 ∧ banked (reg - 0x1060) then some (32 + (reg - 0x1060))
  else none

/-- READ_REG: the value and the machine after it; a read of XSS_TOP or XSS_BOT removes the entry (R380). -/
def dapRead (i : Fin 3) (reg : Nat) (m : Mach) : Option (Nat × Mach) :=
  let c := m.core i.val
  if reg < 0x1000 then
    match csrRow reg, xssCsr reg with
    | none, _ => none
    | _, some (l, k + 1) => some ((c.xssTake (k == 1) l).1.toNat, m.setCore i.val (c.xssTake (k == 1) l).2)
    | _, _ => some ((csrRead m i.val reg).toNat, m)
  else if reg = 0x1040 then some (c.pc.toNat, m)
  else (dapKey reg).map (fun k => (if k = 0 then 0 else (mapGet 0 k c.x).toNat, m))

/-- WRITE_REG; a read-only control register is refused. -/
def dapWrite (i : Fin 3) (reg : Nat) (v : Word) (m : Mach) : Option (Nat × Mach) :=
  if reg < 0x1000 then
    match csrRow reg with
    | none => none
    | some (2, _) => none
    | some _ => some (0, m.updCore i.val (fun c => c.csrWrite reg v))
  else if reg = 0x1040 then some (0, m.updCore i.val (fun c => { c with pc := v &&& 0xFFFFFFFE }))
  else
    (dapKey reg).map (fun k => (0, m.updCore i.val (fun c => if k = 0 then c else { c with x := mapSet 0 k v c.x })))

def readRegEffect (i : Fin 3) (reg : Nat) (m : Mach) : Mach :=
  dapReply i 0x10 (if dapHalted m i then dapRead i reg m else none) m

def writeRegEffect (i : Fin 3) (reg : Nat) (v : Word) (m : Mach) : Mach :=
  dapReply i 0x11 (if dapHalted m i then dapWrite i reg v m else none) m

/-! ## Memory -/

def setAddrEffect (i : Fin 3) (v : Word) (m : Mach) : Mach :=
  dapCommand i 0x20 (dapHalted m i || dapSlow m i) (fun m => m.updCore i.val (fun c => { c with dapAddr := v })) m

/-- The machine with the core at M, where R365 does not apply and machine authority holds. -/
def atM (i : Fin 3) (m : Mach) : Mach := m.updCore i.val (fun c => { c with lvl := 2 })

/-- The address advances by 4, and the core returns to its level unless the access restarted it. -/
def dapAfter (i : Fin 3) (lvl : Nat) (m : Mach) : Mach :=
  m.updCore i.val (fun c => if c.halted then { c with lvl := lvl, dapAddr := c.dapAddr + 4 } else c)

/-- The register address of FTB_SLOW (R51, R93). -/
def ftbSlowAddr : Word := 0x4080000C

/-- What no write reaches in a Keep debug halt: the shadows of the octets and the words that rearm them (R311, R312). A stepped
instruction runs outside the halt (R389). -/
def haltShut (m : Mach) (i : Fin 3) : Bool :=
  decide (i.val = 2) &&
  (match (regAt (m.core 2).dapAddr.toNat).bind (fun p => findObj p.1 p.2) with
   | some f => [0x340007, 0x340008, 0x340101, 0x340102, 0x340908, 0x351006, 0x351007].contains f.row.id
   | none => false)

/-- READ_MEM and WRITE_MEM: refused where the map refuses the access. -/
def dapMem (i : Fin 3) (cmd : Nat) (access : Mach → Except CoreStop (Nat × Mach)) (s : State) :
    Host.Outcome State Fault Refusal :=
  let m := s.m
  if !dapHalted m i then done (dapReply i cmd none) s
  else
    match access (atM i m) with
    | .ok (v, m1) => done (fun m => dapReply i cmd (some (v, dapAfter i (s.m.core i.val).lvl m1)) m) s
    | .error (.fault _ _ _) => done (dapReply i cmd none) s
    | .error (.port a) => .refused (.undescribedPort a)

def dapReadMem (i : Fin 3) (m : Mach) : Except CoreStop (Nat × Mach) :=
  coreRead i .clean (m.core i.val).dapAddr.toNat 4 m

def dapWriteMem (i : Fin 3) (v : Nat) (m : Mach) : Except CoreStop (Nat × Mach) :=
  if haltShut m i then .error (.fault 1 7 (m.core i.val).dapAddr.toNat)
  else
    match coreWrite i (m.core i.val).dapAddr.toNat 4 v m with
    | .ok m1 => .ok (0, m1)
    | .error e => .error e

/-- READ_MEM of FTB_SLOW in LCLK mode (R82). -/
def dapSlowRead (i : Fin 3) (m : Mach) : Mach :=
  if (m.core i.val).dapAddr = ftbSlowAddr then
    dapReply i 0x21 (some (m.rd R.FTB_SLOW, m.updCore i.val (fun c => { c with dapAddr := c.dapAddr + 4 }))) m
  else dapReply i 0x21 none m

/-! ## The data register (R390) -/

/-- The command that a value of the 64-bit data register of a side's port spells; none where CMD is not defined, CORE is not on the
port or bits 53:48 are not 0, which the port refuses. -/
def dapDecode (port : Side) (w : Nat) : Option Instr :=
  let core := bits 55 54 w
  if bits 53 48 w ≠ 0 ∨ core = 3 ∨ coreSide core ≠ port then none
  else
    let i := Fin.ofNat 3 core
    let reg := BitVec.ofNat 16 (bits 47 32 w)
    let v := BitVec.ofNat 32 w
    match bits 63 56 w with
    | 0x01 => some (.dapHalt i)
    | 0x02 => some (.dapResume i)
    | 0x03 => some (.dapStep i)
    | 0x04 => some (.ebreakHalt i v)
    | 0x10 => some (.readReg i reg)
    | 0x11 => some (.writeReg i reg v)
    | 0x20 => some (.setAddr i v)
    | 0x21 => some (.readMem i)
    | 0x22 => some (.writeMem i v)
    | 0x30 => some (.dapStatus i)
    | _ => none

/-- What the next capture of a port returns, from a reply of its core's port: CMD's echo or 0xFF, and the data. -/
def dapCapture (l : List Nat) : Nat := l.headD 0xFF * 2 ^ 56 + (l.drop 1).headD 0 % 2 ^ 32

/-- Shifting a value into a side's data register: the command it spells waits, or the next capture is 0xFF. -/
def dapShift (port : Side) (w : Nat) (s : State) : State :=
  match dapDecode port w with
  | some c => { s with pending := s.pending ++ [c] }
  | none => { s with m := s.m.send (.dap (if port = .host then 0 else 2)) [0xFF, 0] }

/-! ## The test access ports (R546) -/

inductive TapInsn where
  | extest | idcode | sample | dap | bypass
deriving DecidableEq, Repr

def tapInsn (code : Nat) : TapInsn :=
  match code % 32 with
  | 0x00 => .extest
  | 0x01 => .idcode
  | 0x02 => .sample
  | 0x10 => .dap
  | _ => .bypass

/-- The instruction that a side's port has selected. -/
def Mach.tap (m : Mach) (port : Side) : TapInsn := tapInsn (if port = .host then m.pwr.tapH else m.pwr.tapF)

/-- A code is shifted into a side's instruction register. -/
def tapLoad (port : Side) (code : Nat) (s : State) : State :=
  let p := s.m.pwr
  { s with m := { s.m with pwr := if port = .host then { p with tapH := code % 32 } else { p with tapF := code % 32 } } }

/-- A side's latest debug reply. -/
def dapLast (m : Mach) (port : Side) : List Nat :=
  match m.out.find? (fun o => match o.port with
    | .dap k => coreSide k == port
    | _ => false) with
  | some o => o.data
  | none => []

/-- What the selected data register captures, with its width; none for the boundary cells, whose order the spec does not give. With
DBG_LOCK blown every capture of DAP is a refusal. -/
def tapCapture (m : Mach) (port : Side) : Option (Nat × Nat) :=
  match m.tap port with
  | .idcode => some (32, if port = .host then 0x18128A47 else 0x28128A47)
  | .dap => some (64, if m.saf.dbgLock then 0xFF * 2 ^ 56 else dapCapture (dapLast m port))
  | .bypass => some (1, 0)
  | .extest => none
  | .sample => none

/-- A value is shifted through the selected data register. -/
def tapShift (port : Side) (w : Nat) (s : State) : State := if s.m.tap port = .dap then dapShift port w s else s

end Sys2Proof.Machine
end

