-- ==== Sys2Proof/Machine/CmdCore.lean ====
section
/-! DEFINITION. The instructions of the cores, their interrupt entries, waking and lockstep, the debug access ports and the core objects
(chapter 11). A word given to a row of another kind of instruction is no such command and does nothing. -/

namespace Sys2Proof.Machine

/-- ECALL (R367): system call entering the next level up, or an ECALL_M fault at M. -/
def execEcall (core : Fin 3) (s : State) : Host.Outcome State Fault Refusal :=
  runWord core 0x00000073 .clean s

/-- EBREAK (R361): debug halt if enabled, otherwise a BREAKPOINT fault. -/
def execEbreak (core : Fin 3) (compressed : Bool) (s : State) : Host.Outcome State Fault Refusal :=
  runWord core (if compressed then 0x9002 else 0x00100073) .clean s

/-- XRET (R368): return through the save set of the current level or the escalation set. -/
def execXret (core : Fin 3) (s : State) : Host.Outcome State Fault Refusal :=
  runWord core 0x7F000073 .clean s

/-- WFI (R377): gates the core clock unless an enabled pending source exists. -/
def execWfi (core : Fin 3) (s : State) : Host.Outcome State Fault Refusal :=
  runWord core 0x7F100073 .clean s

/-- FENCE (R385): completes when every earlier store is visible to other agents. -/
def execFence (core : Fin 3) (w : Word) (s : State) : Host.Outcome State Fault Refusal :=
  runKind isFence core w.toNat s

/-- FENCE_I (R385): makes instruction fetch see the core's earlier stores. -/
def execFenceI (core : Fin 3) (w : Word) (s : State) : Host.Outcome State Fault Refusal :=
  runKind isFenceI core w.toNat s

/-- CSR_ACCESS (R363): a Zicsr instruction reads or writes a control register, faulting or serialising as defined. -/
def execCsrAccess (core : Fin 3) (w : Word) (s : State) : Host.Outcome State Fault Refusal :=
  runKind isCsr core w.toNat s

/-- XSS_TOP_READ (R380): a read of XSS_TOP pops the shadow-stack top. -/
def execXssTopRead (core : Fin 3) (w : Word) (s : State) : Host.Outcome State Fault Refusal :=
  runKind (isXss 1 false) core w.toNat s

/-- XSS_TOP_WRITE (R380): a write of XSS_TOP pushes a new shadow-stack top. -/
def execXssTopWrite (core : Fin 3) (w : Word) (s : State) : Host.Outcome State Fault Refusal :=
  runKind (isXss 1 true) core w.toNat s

/-- XSS_BOT_READ (R380): a read of XSS_BOT removes the oldest shadow-stack entry. -/
def execXssBotRead (core : Fin 3) (w : Word) (s : State) : Host.Outcome State Fault Refusal :=
  runKind (isXss 2 false) core w.toNat s

/-- XSS_BOT_WRITE (R380): a write of XSS_BOT inserts a new bottom entry. -/
def execXssBotWrite (core : Fin 3) (w : Word) (s : State) : Host.Outcome State Fault Refusal :=
  runKind (isXss 2 true) core w.toNat s

/-- SHADOW_CALL (R378): a call with link x1 or x5 pushes its link address or faults on overflow. -/
def execShadowCall (core : Fin 3) (w : Word) (s : State) : Host.Outcome State Fault Refusal :=
  runKind isShadowCall core w.toNat s

/-- SHADOW_RETURN (R379): a return compares its target with the shadow top and pops or faults. -/
def execShadowReturn (core : Fin 3) (w : Word) (s : State) : Host.Outcome State Fault Refusal :=
  runKind isShadowReturn core w.toNat s

/-- ATOMIC (R386): an LR, SC or AMO instruction acts on permitted memory with reservations. -/
def execAtomic (core : Fin 3) (w : Word) (s : State) : Host.Outcome State Fault Refusal :=
  runKind isAtomic core w.toNat s

/-- INSTRUCTION (R360): any other RV32IMAFC instruction executes as ratified, faulting precisely where defined. -/
def execInstruction (core : Fin 3) (w : Word) (e : CoreEcc) (s : State) : Host.Outcome State Fault Refusal :=
  runWord core w.toNat e s

/-- INTERRUPT_ENTRY (R372): a pending class 4, 5 or 7 request is taken at an issue-group boundary. -/
def execInterruptEntry (core : Fin 3) (s : State) : Host.Outcome State Fault Refusal :=
  done (interruptEffect core) s

/-- CORE_WAKE (R377): a gated core wakes on a pending targeted source, class 7 or halt request. -/
def execCoreWake (core : Fin 3) (s : State) : Host.Outcome State Fault Refusal :=
  done (coreWakeEffect core.val) s

/-- LOCKSTEP_MISMATCH (R359): keep's main and checker outputs differ, signalling the safety monitor and restarting the
pair. -/
def execLockstepMismatch (s : State) : Host.Outcome State Fault Refusal :=
  done (lockstepEffect) s

/-- DAP_HALT (R390): debug command HALT halts the selected core. -/
def execDapHalt (core : Fin 3) (s : State) : Host.Outcome State Fault Refusal :=
  done (dapHaltEffect core) s

/-- DAP_RESUME (R390): debug command RESUME continues a halted core and ends a Keep debug halt. -/
def execDapResume (core : Fin 3) (s : State) : Host.Outcome State Fault Refusal :=
  done (dapResumeEffect core) s

/-- DAP_STEP (R389): debug command STEP executes one instruction and halts. -/
def execDapStep (core : Fin 3) (s : State) : Host.Outcome State Fault Refusal :=
  done (dapStepEffect core) s

/-- EBREAK_HALT (R390): debug command enabling or disabling halt on EBREAK. -/
def execEbreakHalt (core : Fin 3) (v : Word) (s : State) : Host.Outcome State Fault Refusal :=
  done (ebreakHaltEffect core v.toNat) s

/-- READ_REG (R390): debug command returning a CSR, register or pc of a halted core. -/
def execReadReg (core : Fin 3) (reg : BitVec 16) (s : State) : Host.Outcome State Fault Refusal :=
  done (readRegEffect core reg.toNat) s

/-- WRITE_REG (R390): debug command writing a CSR, register or pc of a halted core. -/
def execWriteReg (core : Fin 3) (reg : BitVec 16) (v : Word) (s : State) : Host.Outcome State Fault Refusal :=
  done (writeRegEffect core reg.toNat v) s

/-- SET_ADDR (R390): debug command setting the address for memory commands. -/
def execSetAddr (core : Fin 3) (v : Word) (s : State) : Host.Outcome State Fault Refusal :=
  done (setAddrEffect core v) s

/-- READ_MEM (R390): debug command reading a word and advancing the address. -/
def execReadMem (core : Fin 3) (s : State) : Host.Outcome State Fault Refusal :=
  if dapSlow s.m core then done (dapSlowRead core) s else dapMem core 0x21 (dapReadMem core) s

/-- WRITE_MEM (R390): debug command writing a word and advancing the address. -/
def execWriteMem (core : Fin 3) (v : Word) (s : State) : Host.Outcome State Fault Refusal :=
  dapMem core 0x22 (dapWriteMem core v.toNat) s

/-- DAP_STATUS (R390): debug command returning running, halted or dozing. -/
def execDapStatus (core : Fin 3) (s : State) : Host.Outcome State Fault Refusal :=
  done (dapStatusEffect core) s

/-- SPR_RELEASE (R391): SPR_RELEASE written 1 lets Spire1 leave RESTART. -/
def execSprRelease (w : Writer) (n : Fin 2) (v : Word) (s : State) : Host.Outcome State Fault Refusal :=
  done (command w (R.SPR_RELEASE n) true (sprReleaseEffect n v.toNat)) s

/-- SPR_CNT_CLR (R391): a write to SPR_CNT_CLR zeroes selected Spire counters. -/
def execSprCntClr (w : Writer) (n : Fin 2) (v : Word) (s : State) : Host.Outcome State Fault Refusal :=
  done (commandOk w (R.SPR_CNT_CLR n) (Mach.clrBits v.toNat (sprCounters n))) s

/-- KEEP_CNT_CLR (R391): a write to KEEP_CNT_CLR zeroes selected Keep counters. -/
def execKeepCntClr (w : Writer) (v : Word) (s : State) : Host.Outcome State Fault Refusal :=
  done (commandOk w R.KEEP_CNT_CLR (Mach.clrBits v.toNat keepCounters)) s

/-- DBG_TRACE_LOST_READ (R391): a register-view load of DBG_TRACE_LOST returns the count and zeroes it. -/
def execDbgTraceLostRead (s : State) : Host.Outcome State Fault Refusal :=
  done (coreAt 2 0 0x40FC0404 (fun m => coreLoaded 2 ((regLoad 0x3F01 1 m).getD (0, m)))) s

end Sys2Proof.Machine
end

