-- ==== Sys2Proof/Machine/CmdCyclic.lean ====
section
/-! DEFINITION. The commands of the cyclic data (chapter 14). -/

namespace Sys2Proof.Machine

/-- VLP_CYCLIC (R459): a CYCLIC PDU is tested for epoch and cycle and its records are applied and forwarded. -/
def execVlpCyclic (p : Fin 4) (f : VlpFrame) (s : State) : Host.Outcome State Fault Refusal :=
  done (vlpCyclicEffect p f) s

/-- VLP_DIC_REQ (R452): a VLP DIC_REQ PDU carries one dictionary request on route VLP. -/
def execVlpDicReq (p : Fin 4) (f : VlpFrame) (s : State) : Host.Outcome State Fault Refusal :=
  done (vlpDicEffect p f) s

/-- CYCLE_SAMPLE (R454): at t_n − NET_OUT_LEAD the transmit map sources are sampled and CYC_OUT sent. -/
def execCycleSample (n : BitVec 64) (s : State) : Host.Outcome State Fault Refusal :=
  done (cycleSampleEffect n.toNat) s

/-- CYCLE_TX (R455): at t_n + NET_TX_OFF the cyclic frame is queued, marked STALE if the set is incomplete. -/
def execCycleTx (n : BitVec 64) (s : State) : Host.Outcome State Fault Refusal :=
  done (cycleTxEffect n.toNat) s

end Sys2Proof.Machine
end

