-- ==== Sys2Proof/Machine/Mailbox.lean ====
section
/-! DEFINITION. The three host ports of the dictionary service (R74 to R77): the PCIe mailbox and direct window, the quad-SPI
slave and the parallel port. What a read returns is sent at the bus port. -/

namespace Sys2Proof.Machine

/-- A slot that holds a request or an unread response takes no request. -/
def slotTaken (m : Mach) (r : Route) (slot : Nat) : Bool := (getSlot m r slot).busy || (getSlot m r slot).ready

/-- A frame is submitted in a slot; one to a slot that is taken is ignored and counted, and a host side in SLEEP or reset takes none
(log 49). -/
def slotSubmit (r : Route) (slot : Fin 4) (f : List Byte) (m : Mach) : Mach :=
  if m.hostOff then m
  else if slotTaken m r slot then m.inc R.DIC_MBX_REJECTS
  else
    let a := reqOf r slot f
    dicRequest ⟨a.1, a.2, none⟩ (setSlot r slot { (getSlot m r slot) with busy := true } m)

/-- An acknowledgement frees a slot whose response stands ready. -/
def slotFree (r : Route) (slot : Nat) (m : Mach) : Mach := if (getSlot m r slot).ready then setSlot r slot {} m else m

/-! ## PCIe (R74, R75, R409) -/

/-- Words of a request slot. -/
def slotWords (l : List Byte) : Nat → List Nat
  | 0 => []
  | n + 1 => fieldAt 0 4 l :: slotWords (l.drop 4) n

/-- A frame is placed in a request slot. -/
def slotFill (slot : Nat) (l : List Byte) (m : Mach) : Mach :=
  { m with dic := { m.dic with
      bar0 := ((slotWords l 64).zipIdx).foldl (fun b e => mapSet 0 (64 * slot + e.2) e.1 b) m.dic.bar0 } }

/-- What a request slot holds. -/
def slotBytes (m : Mach) (slot : Nat) : List Byte :=
  (List.range 64).flatMap (fun i => toLe 4 (mapGet 0 (64 * slot + i) m.dic.bar0))

/-- A slot number written to DOORBELL; a number above 3 names no slot: ignored and not counted (log 49). -/
def doorbellWrite (slot : Nat) (m : Mach) : Mach :=
  if slot < 4 then slotSubmit .pcie (Fin.ofNat 4 slot) (slotBytes m slot) m else m

/-- DOORBELL, with what the slot holds. -/
def doorbellEffect (slot : Nat) (f : List Byte) (m : Mach) : Mach :=
  if slot < 4 then doorbellWrite slot (if slotTaken m .pcie slot then m else slotFill slot f m) else m

/-- MBX_ACK. -/
def mbxAckEffect (v : Nat) (m : Mach) : Mach :=
  m.each (List.range 4) (fun s m => if bit (4 + s) v then slotFree .pcie s m else m)

/-- MBX_STATUS. -/
def mbxStatus (m : Mach) : Nat :=
  (List.range 4).foldl (fun a s =>
    a + boolNat (getSlot m .pcie s).busy * 2 ^ s + boolNat (getSlot m .pcie s).ready * 2 ^ (4 + s)) 0

/-- A word of BAR0 that holds what was written: the request slots and the MSI-X table. -/
def bar0Ram (off : Nat) : Bool := decide (off < 0x400) || (decide (0x2000 ≤ off) && decide (off < 0x2200))

/-- A read of BAR0: none where nothing stands. The pending-bit array shows what PCIe says it does: a free value. -/
def bar0Read (off : Nat) (m : Mach) : Option Nat × Mach :=
  if bar0Ram off then (some (mapGet 0 (off / 4) m.dic.bar0), m)
  else if off < 0x800 then
    (some (fieldAt (off % 256) 4 (getSlot m .pcie ((off - 0x400) / 256)).rsp), m)
  else if off = 0x804 then (some (mbxStatus m), m)
  else if off = 0x80C then (some m.dic.mbxIrqEn, m)
  else if off = 0x800 ∨ off = 0x808 then (some 0, m)
  else if off = 0x3000 then (some (m.free.1 % 2 ^ 32), m.free.2)
  else (none, m)

def bar0Write (off v : Nat) (m : Mach) : Mach :=
  if bar0Ram off then { m with dic := { m.dic with bar0 := mapSet 0 (off / 4) v m.dic.bar0 } }
  else if off = 0x800 then doorbellWrite v m
  else if off = 0x808 then mbxAckEffect v m
  else if off = 0x80C then { m with dic := { m.dic with mbxIrqEn := v &&& 0xF0 } }
  else m

/-- A read through the direct window. -/
def bar2Read (off : Nat) (m : Mach) : Option Nat × Mach :=
  match regAt (0x40000000 + off) with
  | none => (none, m)
  | some (idx, sub) =>
    if ownerOf idx = .field then (none, m)
    else
      match regLoad idx sub m with
      | some (v, m1) => (some v, m1)
      | none => (none, m)

/-- The completion of a read: the value, or Unsupported Request. -/
def completion (r : Option Nat × Mach) : Mach :=
  match r.1 with
  | some v => r.2.send .bus [1, v]
  | none => r.2.send .bus [0]

/-- BAR2_ACCESS. -/
def barAccessEffect (bar : Bar) (wr : Bool) (off v : Nat) (m : Mach) : Mach :=
  match bar, wr with
  | .bar0, true => if off % 4 = 0 then bar0Write off v m else m
  | .bar0, false => completion (if off % 4 = 0 then bar0Read off m else (none, m))
  | .bar2, true => registerWriteEffect .pcie (0x40000000 + off) v m
  | .bar2, false => completion (bar2Read off m)

/-! ## Quad-SPI (R76) -/

/-- A command that names no slot is malformed. -/
def qspiSlot (slot : Nat) (f : Fin 4 → Mach → Mach) (m : Mach) : Mach :=
  if slot < 2 then f (Fin.ofNat 4 slot) m else { m with dic := { m.dic with qspiErr := true } }

def qspiWriteEffect (slot : Nat) (l : List Byte) (m : Mach) : Mach := qspiSlot slot (fun s m => slotSubmit .qspi s l m) m

def qspiReadEffect (slot : Nat) (m : Mach) : Mach :=
  qspiSlot slot (fun s m => m.send .bus ((getSlot m .qspi s).rsp.map (·.toNat))) m

/-- The status byte. -/
def qspiStatus (m : Mach) : Nat :=
  (List.range 2).foldl (fun a s =>
    a + boolNat (getSlot m .qspi s).busy * 2 ^ s + boolNat (getSlot m .qspi s).ready * 2 ^ (2 + s)) (boolNat m.dic.qspiErr * 128)

/-- ERR stays set until a status read clears it, whatever well-formed commands come between (log 49). -/
def qspiStatusEffect (m : Mach) : Mach :=
  { m.send .bus [qspiStatus m] with dic := { m.dic with qspiErr := false } }

def qspiAckEffect (v : Nat) (m : Mach) : Mach :=
  m.each (List.range 2) (fun s m => if bit (2 + s) v then slotFree .qspi s m else m)

/-! ## The parallel port (R77) -/

/-- PDATA_WRITE: the 129th word is lost and tells FIFO_ERR. -/
def pdataWriteEffect (v : BitVec 16) (m : Mach) : Mach :=
  if 128 ≤ m.dic.parIn.length then { m with dic := { m.dic with parErr := true } }
  else { m with dic := { m.dic with parIn := m.dic.parIn ++ [v] } }

/-- PDATA_READ: an empty FIFO gives a free value. -/
def pdataReadEffect (m : Mach) : Mach :=
  match m.dic.parOut with
  | v :: rest => { m with dic := { m.dic with parOut := rest } }.send .bus [v.toNat]
  | [] => m.free.2.send .bus [m.free.1 % 65536]

/-- SUBMIT. -/
def submitEffect (m : Mach) : Mach :=
  if m.hostOff then m
  else if slotTaken m .par 0 then m.inc R.DIC_MBX_REJECTS
  else
    slotSubmit .par 0 (m.dic.parIn.flatMap (fun w => toLe 2 w.toNat)) { m with dic := { m.dic with parIn := [] } }

def parAckEffect (m : Mach) : Mach :=
  if (getSlot m .par 0).ready then slotFree .par 0 { m with dic := { m.dic with parOut := [] } } else m

/-- PSTAT: what the third register of the port shows. -/
def pstat (m : Mach) : Nat :=
  boolNat (getSlot m .par 0).busy + 2 * boolNat (getSlot m .par 0).ready + 4 * boolNat m.dic.parErr + 256 * (m.dic.parOut.length % 256)

/-- FIFO_RESET empties both FIFOs; FIFO_ERR clears with them (log 49). -/
def fifoResetEffect (m : Mach) : Mach :=
  { m with dic := { m.dic with parIn := [], parOut := [], parErr := false } }

end Sys2Proof.Machine
end

