-- ==== Sys2Proof/Machine/CmdDict.lean ====
section
/-! DEFINITION. The requests of the dictionary service and its host ports (chapters 2 and 15). -/

namespace Sys2Proof.Machine

/-- A request of route VLP has no sender here to go back to; VLP_DIC_REQ carries one. -/
def ask (op : Nat) (q : Req) (m : Mach) : Mach := dicRequest ⟨op, q, none⟩ m

/-- A SESSION request with its subcommand (R495). -/
def askSession (sub : Nat) (q : Req) (m : Mach) : Mach :=
  ask 8 { q with arg := BitVec.ofNat 32 (putBits 7 0 sub q.arg.toNat) } m

/-- READ (R58): dictionary READ request returns the value of a non-DOMAIN object after the checks of R59. -/
def execRead (q : Req) (s : State) : Host.Outcome State Fault Refusal :=
  done (ask 1 q) s

/-- WRITE (R58): dictionary WRITE request writes a non-DOMAIN object after the checks of R59. -/
def execWrite (q : Req) (s : State) : Host.Outcome State Fault Refusal :=
  done (ask 2 q) s

/-- DOMAIN_OPEN_READ (R66): opens a DOMAIN read transfer, capturing the content committed at the open tick and
returning length, CRC and handle. -/
def execDomainOpenRead (q : Req) (s : State) : Host.Outcome State Fault Refusal :=
  done (ask 3 q) s

/-- DOMAIN_OPEN_WRITE (R65): opens a DOMAIN write transfer with total length and CRC, reserving pool entries and a
handle. -/
def execDomainOpenWrite (q : Req) (s : State) : Host.Outcome State Fault Refusal :=
  done (ask 4 q) s

/-- DOMAIN_SEGMENT (R59): carries one in-order segment of an open DOMAIN transfer, read or write. -/
def execDomainSegment (q : Req) (s : State) : Host.Outcome State Fault Refusal :=
  done (ask 5 q) s

/-- DOMAIN_CLOSE (R65): closes a DOMAIN transfer; for a write, checks length, CRC, content rules and commit condition
and commits in one tick. -/
def execDomainClose (q : Req) (s : State) : Host.Outcome State Fault Refusal :=
  done (ask 6 q) s

/-- DOMAIN_CANCEL (R65): cancels an open DOMAIN transfer, discarding its staging buffer and freeing the handle. -/
def execDomainCancel (q : Req) (s : State) : Host.Outcome State Fault Refusal :=
  done (ask 7 q) s

/-- ECHO (R58): dictionary ECHO request returns ARG and data unchanged after checks 1 to 4. -/
def execEcho (q : Req) (s : State) : Host.Outcome State Fault Refusal :=
  done (ask 9 q) s

/-- CHALLENGE (R495): SESSION subcommand that allocates a session handle and returns a 16-byte nonce. -/
def execChallenge (q : Req) (s : State) : Host.Outcome State Fault Refusal :=
  done (askSession 1 q) s

/-- PROVE (R495): SESSION subcommand that checks the HMAC proof and opens the session or refuses it. -/
def execProve (q : Req) (s : State) : Host.Outcome State Fault Refusal :=
  done (askSession 2 q) s

/-- SESSION_CLOSE (R495): SESSION subcommand CLOSE that closes the named safety session. -/
def execSessionClose (q : Req) (s : State) : Host.Outcome State Fault Refusal :=
  done (askSession 3 q) s

/-- SESSION_IDLE_EXPIRY (R496): a safety session with no request for SAF_SESS_IDLE seconds is closed. -/
def execSessionIdleExpiry (handle : BitVec 8) (s : State) : Host.Outcome State Fault Refusal :=
  done (sessEnd handle.toNat) s

/-- FORWARD_TIMEOUT (R62): a forwarded request without response within DIC_FWD_TIMEOUT is answered with the
outcome-unknown abort and counted. -/
def execForwardTimeout (xid : Fin 8) (s : State) : Host.Outcome State Fault Refusal :=
  done (forwardTimeoutEffect xid) s

/-- DOMAIN_IDLE_EXPIRY (R67): a DOMAIN transfer without a segment for DIC_DOMAIN_IDLE is closed by the service. -/
def execDomainIdleExpiry (handle : Fin 4) (s : State) : Host.Outcome State Fault Refusal :=
  done (xferClose (handle.val + 1)) s

/-- DOORBELL (R74): a PCIe write of a slot number to DOORBELL submits that mailbox request slot. -/
def execDoorbell (slot : Word) (frame : List Byte) (s : State) : Host.Outcome State Fault Refusal :=
  done (doorbellEffect slot.toNat frame) s

/-- MBX_ACK (R74): a write to MBX_ACK clears RESP_READY and frees the named PCIe slots. -/
def execMbxAck (mask : Word) (s : State) : Host.Outcome State Fault Refusal :=
  done (mbxAckEffect mask.toNat) s

/-- BAR2_ACCESS (R75): a PCIe access through the BAR2 direct window reaches a host-owned object or is dropped or
refused. -/
def execBar2Access (bar : Bar) (wr : Bool) (off v : Word) (s : State) : Host.Outcome State Fault Refusal :=
  done (barAccessEffect bar wr off.toNat v.toNat) s

/-- QSPI_WRITE_FRAME (R76): quad-SPI command 0x32 writes a request frame into a slot at CS de-assertion. -/
def execQspiWriteFrame (slot : Byte) (frame : List Byte) (s : State) : Host.Outcome State Fault Refusal :=
  done (qspiWriteEffect slot.toNat frame) s

/-- QSPI_READ_RESPONSE (R76): quad-SPI command 0x6B reads out a response slot. -/
def execQspiReadResponse (slot : Byte) (s : State) : Host.Outcome State Fault Refusal :=
  done (qspiReadEffect slot.toNat) s

/-- QSPI_READ_STATUS (R76): quad-SPI command 0x05 returns the status byte and clears ERR. -/
def execQspiReadStatus (s : State) : Host.Outcome State Fault Refusal :=
  done (qspiStatusEffect) s

/-- QSPI_ACK (R76): quad-SPI command 0x06 clears RESP_READY and frees the masked slots. -/
def execQspiAck (mask : Byte) (s : State) : Host.Outcome State Fault Refusal :=
  done (qspiAckEffect mask.toNat) s

/-- PDATA_WRITE (R77): a parallel-port write to PDATA appends a word to the request frame FIFO. -/
def execPdataWrite (v : BitVec 16) (s : State) : Host.Outcome State Fault Refusal :=
  done (pdataWriteEffect v) s

/-- PDATA_READ (R77): a parallel-port read of PDATA takes the next word from the response FIFO. -/
def execPdataRead (s : State) : Host.Outcome State Fault Refusal :=
  done (pdataReadEffect) s

/-- SUBMIT (R77): PCTRL SUBMIT submits the frame in the parallel-port FIFO. -/
def execSubmit (s : State) : Host.Outcome State Fault Refusal :=
  done (submitEffect) s

/-- PAR_ACK (R77): PCTRL ACK frees the parallel-port response. -/
def execParAck (s : State) : Host.Outcome State Fault Refusal :=
  done (parAckEffect) s

/-- FIFO_RESET (R77): PCTRL FIFO_RESET empties both FIFOs and drops an unsubmitted frame. -/
def execFifoReset (s : State) : Host.Outcome State Fault Refusal :=
  done (fifoResetEffect) s

end Sys2Proof.Machine
end

