-- ==== Sys2Proof/Machine/CmdEvents.lean ====
section
/-! DEFINITION. The commands of Lantern's event slots (chapter 5). -/

namespace Sys2Proof.Machine

/-- EVT_ENABLE_ON (R172): EVT_ENABLE written 1 is checked and arms the slot with a target when Lantern runs. -/
def execEvtEnableOn (w : Writer) (n : Fin 1024) (s : State) : Host.Outcome State Fault Refusal :=
  done (command w (R.EVT_ENABLE n) false (evtEnableEffect n)) s

/-- EVT_ENABLE_OFF (R172): EVT_ENABLE written 0 retracts a posted pair and idles the slot, or lets a committed
occurrence run to its end. -/
def execEvtEnableOff (w : Writer) (n : Fin 1024) (s : State) : Host.Outcome State Fault Refusal :=
  done (commandOk w (R.EVT_ENABLE n) (evtDisableEffect n)) s

/-- LAN_RUN_ON (R172): LAN_RUN written 1 arms every enabled slot. -/
def execLanRunOn (w : Writer) (s : State) : Host.Outcome State Fault Refusal :=
  done (commandOk w R.LAN_RUN lanRunOnEffect) s

/-- LAN_RUN_OFF (R172): LAN_RUN written 0 idles slots that are not committed or active. -/
def execLanRunOff (w : Writer) (s : State) : Host.Outcome State Fault Refusal :=
  done (commandOk w R.LAN_RUN lanRunOffEffect) s

/-- EVT_TIMING_WRITE (R156): a write to EVT_TIMING changes the target angle and duration from the next refresh or next
occurrence. -/
def execEvtTimingWrite (w : Writer) (n : Fin 1024) (v : BitVec 64) (s : State) : Host.Outcome State Fault Refusal :=
  done (command w (R.EVT_TIMING n) false (setEvtTiming n v.toNat)) s

/-- ARM (R173): EVT_CMD ARM re-arms a one-shot slot in DONE or CANCELLED. -/
def execArm (w : Writer) (n : Fin 1024) (s : State) : Host.Outcome State Fault Refusal :=
  done (commandOk w (R.EVT_CMD n) (evtCmdArm n)) s

/-- CANCEL (R173): EVT_CMD CANCEL cancels an ARMED or PLANNED occurrence and retracts its pair. -/
def execCancel (w : Writer) (n : Fin 1024) (s : State) : Host.Outcome State Fault Refusal :=
  done (commandOk w (R.EVT_CMD n) (evtCmdCancel n)) s

/-- CUT (R175): EVT_CMD CUT cancels an uncommitted occurrence or removes a committed or active pair from the output
stage at c + 12 T. -/
def execCut (w : Writer) (n : Fin 1024) (s : State) : Host.Outcome State Fault Refusal :=
  done (commandOk w (R.EVT_CMD n) (evtCmdCut n)) s

/-- EVT_CLEAR (R173): EVT_CMD CLEAR zeroes the slot's counters. -/
def execEvtClear (w : Writer) (n : Fin 1024) (s : State) : Host.Outcome State Fault Refusal :=
  done (commandOk w (R.EVT_CMD n) (evtClearEffect n)) s

/-- LAN_CLEAR (R182): LAN_CMD CLEAR zeroes the global and lane statistics. -/
def execLanClear (w : Writer) (s : State) : Host.Outcome State Fault Refusal :=
  done (commandOk w R.LAN_CMD lanClearAll) s

/-- LANTERN_REFRESH (R166): a lane completes the refresh batch of a tooth, computing starts, admitting window entries
and retracting or reposting pairs. -/
def execLanternRefresh (n : Fin 32) (s : State) : Host.Outcome State Fault Refusal :=
  done (lanRefresh n) s

/-- HANDOVER (R165): once FTB − 4 T passes the commit point with no refresh pending, the pair is handed to the output
stage and the slot is COMMITTED. -/
def execHandover (n : Fin 1024) (s : State) : Host.Outcome State Fault Refusal :=
  done (evtHandover n) s

/-- HANDOVER_FALLBACK (R165): at tick ⌊s⌋ − 12 the pair is handed over as posted and pending refreshes are discarded
as ABANDON. -/
def execHandoverFallback (n : Fin 1024) (s : State) : Host.Outcome State Fault Refusal :=
  done (evtFallback n) s

/-- EVT_START (R172): the start instant is reached and the slot goes from COMMITTED to ACTIVE. -/
def execEvtStart (n : Fin 1024) (s : State) : Host.Outcome State Fault Refusal :=
  done (evtStartPlay n) s

/-- EVT_END (R172): the end instant is reached and the slot goes to DONE. -/
def execEvtEnd (n : Fin 1024) (s : State) : Host.Outcome State Fault Refusal :=
  done (evtEndPlay n) s

/-- EVT_REARM (R155): in the tick after DONE or CANCELLED an EVERY_N slot takes its next target. -/
def execEvtRearm (n : Fin 1024) (s : State) : Host.Outcome State Fault Refusal :=
  done (evtRearmPlay n) s

/-- FREEWHEEL_LIMIT (R177): a slot's freewheel limit is reached and its frozen pair is retracted and the slot BLOCKED.
-/
def execFreewheelLimit (n : Fin 1024) (s : State) : Host.Outcome State Fault Refusal :=
  done (evtFwLimitPlay n) s

/-- DEMAND_INTERVAL (R169): at the end of each 4,000 T interval Lantern sets the decimation factor from the demand. -/
def execDemandInterval (s : State) : Host.Outcome State Fault Refusal :=
  done (lanInterval) s

end Sys2Proof.Machine
end

