-- ==== Sys2Proof/Machine/MoverRun.lean ====
section
/-! DEFINITION. What a mover does when it fetches a descriptor and when it moves an element (R255 to R263). -/

namespace Sys2Proof.Machine

/-! ## Descriptors (R256 to R258) -/

/-- Keep SRAM and the DRAM data region. -/
def movMemory (a n : Nat) : Bool :=
  (keepArea a).atomics && (keepArea (lastByte a n)).atomics

/-- A ring size: 0, or a power of two from 8 to 2^24. -/
def movRingOk (v : Nat) : Bool := v == 0 || (List.range 22).any (fun k => v == 2 ^ (k + 3))

/-- TRIG is a listed kind and TRIG_ARG stands in its range. -/
def movTrigOk (kind arg : Nat) : Bool :=
  match kind with
  | 0 => arg == 0
  | 7 => arg == 0
  | 3 => decide (arg < 32)
  | 4 => decide (arg < 16)
  | k => decide (k < 7) && decide (arg < 128)

/-- CTRL holds no refused value. -/
def movCtrlOk (d : Desc) : Bool :=
  only 0x0FFF00FF d.ctrl && bits 7 6 d.ctrl != 3 && decide (bits 1 0 d.ctrl < 2) && movTrigOk d.trig d.arg

/-- A descriptor that R257 does not call in error, apart from its MARK. -/
def movDescOk (d : Desc) : Bool :=
  movCtrlOk d && d.count != 0 && decide (d.count ≤ 2 ^ 24) && d.src % d.size == 0 && d.dst % d.size == 0 &&
  (!d.chain || d.next % 32 == 0) && movRingOk d.srcRing && movRingOk d.dstRing

/-- The descriptor in memory. -/
def movRead (m : Mach) (a : Nat) : Desc :=
  let f := fun k => memNat m.keepMem (a + 4 * k) 4
  ⟨f 0, f 1, f 2, f 3, f 4, f 5, f 6⟩

def movMarkOk (m : Mach) (a : Nat) : Bool := memNat m.keepMem (a + 30) 2 == 0xD5C1

/-- A good descriptor starts: one with TRIG 0 releases all its elements at once. -/
def movBegin (n : Nat) (d : Desc) (m : Mach) : Mach :=
  let all := decide (d.trig = 0)
  ((m.updMov n (fun x =>
      { x with fetch := none, desc := some d, so := 0, dOff := 0, burst := if all then d.count else 0, trig := false,
               arrived := 0 })).wr (R.MOV_REMAIN n) d.count).wr (R.MOV_STATE n) (if all then 3 else 2)

/-- A mover that stands in FETCH reads its descriptor. -/
def movFetchEffect (n : Nat) (ecc : Bool) (m : Mach) : Mach :=
  match (m.mov n).fetch with
  | none => m
  | some a =>
    if m.fieldStill || !m.on (R.MOV_RUN n) || m.movState n != 1 then m
    else if a % 32 ≠ 0 then movError n 1 a m
    else if !movMemory a 32 then movError n 2 a m
    else if ecc then movError n 3 a m
    else if movMarkOk m a && movDescOk (movRead m a) then movBegin n (movRead m a) m
    else movError n 1 a m

/-! ## Elements (R255, R259) -/

/-- An access of a mover: it waits for a queue, meets an error, or succeeds. -/
inductive MovAcc (α : Type) where
  | wait
  | err (code : Nat)
  | ok (v : α)

/-- A whole queue entry of a channel. -/
def chanEntryPop (c : Nat) (m : Mach) : MovAcc (Nat × Mach) :=
  if qEmpty m c then .wait else .ok (qHead m c, qPop c m)

/-- A read at the queue ports. -/
def movPortRead (n a size : Nat) (m : Mach) : MovAcc (Nat × Mach) :=
  let o := a - 0x48000000
  if o < 0x800 then
    if size = 8 then
      (if o % 16 = 0 then chanEntryPop (o / 16) m else .ok (chStatus m (o / 16), m))
    else if o % 16 = 0 ∧ qEmpty m (o / 16) then .wait
    else .ok (chanPortLoad (1 + n) (o / 16) (o % 16) m)
  else if size = 8 then .err 2
  else if 0x1000 ≤ o ∧ o < 0x1100 ∧ o % 16 = 4 then .ok ((m.mov (o / 16 % 16)).ring.length, m)
  else if 0x2000 ≤ o ∧ o < 0x2800 then
    if o % 16 = 0 ∧ (rxSeen m (o / 16 % 128)).isEmpty then .wait
    else .ok (ctxPortLoad (o / 16 % 128) (o % 16) m)
  else .err 2

/-- A write at the queue ports. -/
def movPortWrite (n a size v : Nat) (m : Mach) : MovAcc Mach :=
  let o := a - 0x48000000
  if o < 0x800 then
    let full := decide (16 ≤ (m.chan (o / 16)).q.length)
    if size = 8 then
      (if o % 16 ≠ 0 then .ok m else if full then .wait else .ok (chPush (1 + n) (o / 16) v m))
    else if o % 16 = 4 ∧ full then .wait
    else .ok (chanPortStore (1 + n) (o / 16) (o % 16) v m)
  else if size = 8 then .err 2
  else if 0x1000 ≤ o ∧ o < 0x1100 ∧ o % 16 = 0 then .ok (ringPut (o / 16 % 16) v m)
  else if 0x2000 ≤ o ∧ o < 0x2800 then
    if o % 16 = 0 ∧ txFull m (o / 16 % 128) then .wait
    else .ok (ctxPortStore (1 + n) (o / 16 % 128) (o % 16) v m)
  else .err 2

/-- A read of the register view: a 4-byte element reads a 32-bit object, an 8-byte element a whole 64-bit object. -/
def movRegRead (a size : Nat) (m : Mach) : MovAcc (Nat × Mach) :=
  match regAt a with
  | none => .err 2
  | some (idx, sub) =>
    if ownerOf idx ≠ .field then .err 2
    else
      match regHit m idx sub with
      | some (.low f) =>
        if f.row.ty.wide = decide (size = 8) then
          (if size = 8 then .ok (readObj f m)
           else match regLoad idx sub m with
             | some r => .ok r
             | none => .err 2)
        else .err 2
      | some (.userLow u) =>
        if u.ty.wide = decide (size = 8) then
          .ok (if u.acc = .wo then 0 else m.rd ⟨u.idx, u.sub, u.dflt⟩, m)
        else .err 2
      | _ => .err 2

/-- A write of the register view, under the object's access code and without machine authority (R255). -/
def movRegWrite (n : Fin 16) (a size v : Nat) (m : Mach) : MovAcc Mach :=
  match regAt a with
  | none => .err 2
  | some (idx, sub) =>
    if (gate (.mover n) ⟨idx, sub, 0⟩ false m).isSome then .err 2
    else
      let eff := fun e => match e with
        | Except.ok m1 => MovAcc.ok m1
        | Except.error _ => MovAcc.err 2
      match regHit m idx sub with
      | some (.low f) =>
        if f.row.ty.wide = decide (size = 8) then
          eff (if size = 8 then writeObj (.mover n) f v m else registerPut (.mover n) idx sub v m)
        else .err 2
      | some (.userLow u) =>
        if u.ty.wide = decide (size = 8) then
          eff (if size = 8 then writeUser (.mover n) u v m else registerPut (.mover n) idx sub v m)
        else .err 2
      | _ => .err 2

/-- The element at a source address (R255); an uncorrectable ECC error in memory is error 3. -/
def movSource (n : Fin 16) (ecc : Bool) (a size : Nat) (m : Mach) : MovAcc (Nat × Mach) :=
  match keepArea a with
  | .sram | .dram | .cam => if ecc then .err 3 else .ok (areaNat 2 a size m)
  | .ports => movPortRead n.val a size m
  | .regs => movRegRead a size m
  | _ => .err 2

/-- The element at its destination; a store ends Keep's reservation of the block (R386). -/
def movDest (n : Fin 16) (a size v : Nat) (m : Mach) : MovAcc Mach :=
  match keepArea a with
  | .sram | .dram => .ok (movResv a size { m with keepMem := memWrN m.keepMem a (toLe size v) })
  | .ports => movPortWrite n.val a size v m
  | .regs => movRegWrite n a size v m
  | _ => .err 2

/-- A push at the destination would wait. -/
def movDestWaits (a size : Nat) (m : Mach) : Bool :=
  match keepArea a with
  | .ports =>
    let o := a - 0x48000000
    if o < 0x800 then (o % 16 == (if size = 8 then 0 else 4)) && decide (16 ≤ (m.chan (o / 16)).q.length)
    else size == 4 && decide (0x2000 ≤ o) && decide (o < 0x2800) && o % 16 == 0 && txFull m (o / 16 % 128)
  | _ => false

/-- A pop at the source would wait for an entry. -/
def movSrcWaits (a size : Nat) (m : Mach) : Bool :=
  match keepArea a with
  | .ports =>
    let o := a - 0x48000000
    if o < 0x800 then o % 16 == 0 && qEmpty m (o / 16)
    else size == 4 && decide (0x2000 ≤ o) && decide (o < 0x2800) && o % 16 == 0 && (rxSeen m (o / 16 % 128)).isEmpty
  | _ => false

/-! ## Running (R258, R262) -/

/-- Kinds 1, 2, 5 and 6 trigger at each entry or free place. -/
def movLevel (m : Mach) (d : Desc) : Bool :=
  match d.trig with
  | 1 => chCount m d.arg != 0
  | 2 => decide (chCount m d.arg < 16)
  | 5 => !(rxSeen m d.arg).isEmpty
  | 6 => !txFull m d.arg
  | _ => false

/-- Elements released now. -/
def movReleased (m : Mach) (n : Nat) (d : Desc) : Nat :=
  if (m.mov n).burst ≠ 0 then (m.mov n).burst else if movLevel m d then d.burstOf (m.rd (R.MOV_REMAIN n)) else 0

/-- The address of an element: offsets wrap at the ring size (R256). -/
def movAddr (base ring off : Nat) : Nat := (base + (if ring = 0 then off else off % ring)) % 2 ^ 32

/-- An element is done: `b` were released before it. -/
def movAdvance (n : Nat) (d : Desc) (b : Nat) (m : Mach) : Mach :=
  let x := m.mov n
  if x.desc ≠ some d then m
  else
    let left := m.rd (R.MOV_REMAIN n) - 1
    let m1 := m.wr (R.MOV_REMAIN n) left
    if left = 0 then movDescEnd n d (m1.setMov n { x with burst := 0 })
    else
      let more := b - 1
      let again := more = 0 ∧ x.trig
      let next := if again then d.burstOf left else more
      (m1.setMov n { x with
        so := if d.srcInc then x.so + d.size else x.so
        dOff := if d.dstInc then x.dOff + d.size else x.dOff
        burst := next
        trig := if again then false else x.trig }).wr (R.MOV_STATE n) (if next = 0 then 2 else 3)

/-- A mover has an element released. -/
def movHas (m : Mach) (n : Nat) : Bool :=
  match (m.mov n).desc with
  | some d => m.on (R.MOV_RUN n) && (m.movState n == 2 || m.movState n == 3) && movReleased m n d != 0
  | none => false

/-- The released element of a mover waits for a queue (R259). -/
def movBlocked (m : Mach) (n : Nat) : Bool :=
  match (m.mov n).desc with
  | some d =>
    movDestWaits (movAddr d.dst d.dstRing (m.mov n).dOff) d.size m || movSrcWaits (movAddr d.src d.srcRing (m.mov n).so) d.size m
  | none => false

/-- The grant of a tick: the first mover with an element ready, looking round from the one after the last granted (R260). -/
def movGrant (m : Mach) : Option Nat :=
  ((List.range 16).map (fun k => (m.movNext + k) % 16)).find? (fun n => movHas m n && !movBlocked m n)

/-- The tick's one element is granted to mover n: the round robin goes on from the next one (R260). -/
def movTaken (n : Nat) (m : Mach) : Mach := { m with movUsed := true, movNext := (n + 1) % 16 }

/-- MOV_ELEMENT: the released element of a mover waits for a queue, or moves where the tick's grant is this mover's; out of its turn
nothing happens (R259, R260). -/
def movElementEffect (n : Fin 16) (ecc : Bool) (m : Mach) : Mach :=
  let x := m.mov n.val
  match x.desc with
  | none => m
  | some d =>
    let b := movReleased m n.val d
    if m.fieldStill || !m.on (R.MOV_RUN n.val) || !(m.movState n.val == 2 || m.movState n.val == 3) || b == 0 then m
    else
      let src := movAddr d.src d.srcRing x.so
      let dst := movAddr d.dst d.dstRing x.dOff
      let waiting := (m.setMov n.val { x with burst := b }).wr (R.MOV_STATE n.val) 2
      if movBlocked m n.val then waiting
      else if m.movUsed ∨ movGrant m ≠ some n.val then m
      else
        match movSource n ecc src d.size (movTaken n.val m) with
        | .wait => waiting
        | .err c => movError n.val c src (movTaken n.val m)
        | .ok (v, m1) =>
          match movDest n dst d.size v m1 with
          | .wait => waiting
          | .err c => movError n.val c dst m1
          | .ok m2 => movAdvance n.val d b m2

end Sys2Proof.Machine
end

