-- ==== Sys2Proof/Machine/CmdMover.lean ====
section
/-! DEFINITION. The commands of the data movers (chapter 7). -/

namespace Sys2Proof.Machine

/-- MOV_RUN_ON (R262): MOV_RUN written 1 starts the mover at MOV_DESC. -/
def execMovRunOn (w : Writer) (n : Fin 16) (s : State) : Host.Outcome State Fault Refusal :=
  done (commandOk w (R.MOV_RUN n) (movRunOnEffect n)) s

/-- MOV_RUN_OFF (R262): MOV_RUN written 0 stops the mover at the next element boundary. -/
def execMovRunOff (w : Writer) (n : Fin 16) (s : State) : Host.Outcome State Fault Refusal :=
  done (commandOk w (R.MOV_RUN n) (movRunOffEffect n)) s

/-- TRIGGER (R258): MOV_CMD TRIGGER releases one burst of a TRIG 7 descriptor. -/
def execTrigger (w : Writer) (n : Fin 16) (s : State) : Host.Outcome State Fault Refusal :=
  done (commandOk w (R.MOV_CMD n) (movCmdTrigger n)) s

/-- MOV_CLEAR (R264): MOV_CMD CLEAR zeroes the mover counters. -/
def execMovClear (w : Writer) (n : Fin 16) (s : State) : Host.Outcome State Fault Refusal :=
  done (commandOk w (R.MOV_CMD n) (movClearEffect n)) s

/-- RING_APPEND (R262): a store to a mover's ring port appends a descriptor address or is dropped when full. -/
def execRingAppend (n : Fin 16) (addr : Word) (s : State) : Host.Outcome State Fault Refusal :=
  done (coreAt 2 1 (0x48001000 + 16 * n.val) (ringPut n.val addr.toNat)) s

/-- MOV_TRIGGER_ARRIVAL (R258): a selected trigger arrives, releasing a burst, being held or being lost. -/
def execMovTriggerArrival (n : Fin 16) (s : State) : Host.Outcome State Fault Refusal :=
  done (movArrival n) s

/-- MOV_DESC_FETCH (R257): the mover reads a descriptor and checks it, entering ERROR on a bad one. -/
def execMovDescFetch (n : Fin 16) (ecc : Bool) (s : State) : Host.Outcome State Fault Refusal :=
  done (movFetchEffect n.val ecc) s

/-- MOV_ELEMENT (R260): a granted element is read from its source and written at its destination, possibly after a
queue wait. -/
def execMovElement (n : Fin 16) (ecc : Bool) (s : State) : Host.Outcome State Fault Refusal :=
  done (movElementEffect n ecc) s

end Sys2Proof.Machine
end

