-- ==== Sys2Proof/Machine/CmdNet.lean ====
section
/-! DEFINITION. The commands of the Ethernet ports, 802.1AS, the line cycle and the mirror pair (chapter 14). -/

namespace Sys2Proof.Machine

/-- The object a network CNT_CLR write names. -/
def netClrObj : NetClr → Obj
  | .net => R.NET_CNT_CLR
  | .port p => R.NET_PORT_CNT_CLR p
  | .cb => R.NET_CB_CNT_CLR

/-- PORT_LINK_CHANGE (R476): an Ethernet port link goes up or down, updating NET_PORT_STATUS. -/
def execPortLinkChange (p : Fin 4) (up : Bool) (s : State) : Host.Outcome State Fault Refusal :=
  done (portLinkEffect p up) s

/-- GPTP_SYNC (R445): a received 802.1AS sync steps or slews host line time in SLAVE and updates lock. -/
def execGptpSync (p : Fin 4) (f : SyncMsg) (s : State) : Host.Outcome State Fault Refusal :=
  done (syncEffect p f) s

/-- GPTP_ANNOUNCE (R444): an 802.1AS announce feeds the best master clock algorithm and port states. -/
def execGptpAnnounce (p : Fin 4) (f : AnnounceMsg) (s : State) : Host.Outcome State Fault Refusal :=
  done (announceEffect p f) s

/-- PDELAY_MEASUREMENT (R444): once per second a peer delay measurement runs on every enabled port. -/
def execPdelayMeasurement (p : Fin 4) (t1 t2 t3 t4 : BitVec 64) (s : State) : Host.Outcome State Fault Refusal :=
  done (pdelayEffect p t1.toNat t2.toNat t3.toNat t4.toNat) s

/-- PDELAY_RESPONSE (R444): a peer delay request received from the link partner is answered with its timestamped
response. -/
def execPdelayResponse (p : Fin 4) (seq : BitVec 16) (t2 t3 : BitVec 64)
    (s : State) : Host.Outcome State Fault Refusal :=
  done (pdelayResponseEffect p seq.toNat t2.toNat t3.toNat) s

/-- GRANDMASTER_SYNC (R444): as grandmaster, the module sends a sync on each enabled port every 2^NET_AS_SYNC_LOG s.
-/
def execGrandmasterSync (s : State) : Host.Outcome State Fault Refusal :=
  done (gmSyncEffect) s

/-- ANNOUNCE_RECEIPT_TIMEOUT (R444): no announce arrives within the receipt timeout, and the best master clock
algorithm reselects the port states, leaving SLAVE. -/
def execAnnounceReceiptTimeout (p : Fin 4) (s : State) : Host.Outcome State Fault Refusal :=
  done (announceTimeoutEffect p) s

/-- ERRORED_FRAME (R442): an Ethernet frame with an FCS, length or size error, or longer than 1,522 bytes, is dropped
and counted in NET_PORT_CNT_ERR. -/
def execErroredFrame (p : Fin 4) (s : State) : Host.Outcome State Fault Refusal :=
  done (erroredFrameEffect p) s

/-- ARP_REQUEST (R449): an ARP request for NET_IPV4 is answered. -/
def execArpRequest (p : Fin 4) (mac : BitVec 48) (ip target : Word) (s : State) : Host.Outcome State Fault Refusal :=
  done (arpEffect p mac.toNat ip.toNat target.toNat) s

/-- CB_STREAM_RESET (R448): a stream with no frame for NET_CB_RESET ms restarts its recovery. -/
def execCbStreamReset (mac : BitVec 48) (s : State) : Host.Outcome State Fault Refusal :=
  done (cbResetEffect mac.toNat) s

/-- GATE_ENTRY_CHANGE (R447): a gate control list entry interval ends and the next entry's gates open. -/
def execGateEntryChange (p : Fin 2) (s : State) : Host.Outcome State Fault Refusal :=
  done (gateChangeEffect p) s

/-- CYCLE_START (R456): at t_n, whose number NET_CYCLE_NUM computes (R453), the host evaluates partners, redundancy decisions and role-table expiry. -/
def execCycleStart (_n : BitVec 64) (s : State) : Host.Outcome State Fault Refusal :=
  done cycleStartEffect s

/-- NET_RUN_ON (R458): NET_RUN written 1 checks the maps and configuration and starts cyclic operation. -/
def execNetRunOn (w : Writer) (s : State) : Host.Outcome State Fault Refusal :=
  done (command w R.NET_RUN false netRunOnEffect) s

/-- NET_RUN_OFF (R467): NET_RUN written 0 stops cyclic operation and sets redundancy OFF. -/
def execNetRunOff (w : Writer) (s : State) : Host.Outcome State Fault Refusal :=
  done (commandOk w R.NET_RUN netRunOffEffect) s

/-- RED_EN_WRITE (R467): a RED_EN write enters LISTEN or OFF. -/
def execRedEnWrite (w : Writer) (v : Bool) (s : State) : Host.Outcome State Fault Refusal :=
  done (commandOk w R.RED_EN (redEnEffect (boolNat v))) s

/-- REJOIN (R467): RED_CMD REJOIN returns a FENCED module to STANDBY. -/
def execRejoin (w : Writer) (s : State) : Host.Outcome State Fault Refusal :=
  done (command w R.RED_CMD false (redCmdEffect 1)) s

/-- YIELD (R467): RED_CMD YIELD moves an ACTIVE module to STANDBY. -/
def execYield (w : Writer) (s : State) : Host.Outcome State Fault Refusal :=
  done (command w R.RED_CMD false (redCmdEffect 2)) s

/-- RED_CLEAR (R476): RED_CMD CLEAR zeroes the redundancy counters. -/
def execRedClear (w : Writer) (s : State) : Host.Outcome State Fault Refusal :=
  done (command w R.RED_CMD false (redCmdEffect 3)) s

/-- NET_CNT_CLR (R476): a write to NET_CNT_CLR, NET_PORT_CNT_CLR or NET_CB_CNT_CLR zeroes selected counters. -/
def execNetCntClr (w : Writer) (which : NetClr) (v : Byte) (s : State) : Host.Outcome State Fault Refusal :=
  done (commandOk w (netClrObj which) (Mach.clrBits v.toNat (netCounters which))) s

end Sys2Proof.Machine
end

