-- ==== Sys2Proof/Machine/CmdPersist.lean ====
section
/-! DEFINITION. The commands of persistence (chapter 2). -/

namespace Sys2Proof.Machine

/-- A persistence command's writer gets its answer later (R61, R70). -/
def storeAsked (w : Writer) (m : Mach) : Mach :=
  match w with
  | .dict r _ => storeWaits (.route r) m
  | _ => m

/-- STORE (R73): DIC_STORE signature write starts writing all K values into a new parameter image. -/
def execStore (w : Writer) (sig : Word) (s : State) : Host.Outcome State Fault Refusal :=
  done (commandThen (storeAsked w) w R.DIC_STORE false (storeEffect sig.toNat)) s

/-- STORE_COMPLETE (R70): a running store writes its image header last, completing the image, clearing BUSY and
counting the store. -/
def execStoreComplete (s : State) : Host.Outcome State Fault Refusal :=
  done (storeCompleteEffect) s

/-- RELOAD (R73): DIC_RELOAD signature write replaces every K value with its stored value unless a unit with RWS K
objects runs. -/
def execReload (w : Writer) (sig : Word) (s : State) : Host.Outcome State Fault Refusal :=
  done (commandThen (storeAsked w) w R.DIC_RELOAD false (reloadEffect sig.toNat)) s

/-- FACTORY (R73): DIC_FACTORY signature write invalidates both images so defaults apply at the next reset. -/
def execFactory (w : Writer) (sig : Word) (s : State) : Host.Outcome State Fault Refusal :=
  done (commandThen (storeAsked w) w R.DIC_FACTORY false (factoryEffect w sig.toNat)) s

end Sys2Proof.Machine
end

