-- ==== Sys2Proof/Machine/CmdPower.lean ====
section
/-! DEFINITION. The commands of power, reset and the operating states (chapter 16). -/

namespace Sys2Proof.Machine

def resetObj (side : Side) : Obj := if side = .host then R.PWR_H_RESET else R.PWR_F_RESET

/-- POR (R507): a side's rails rise above their limits for 2 ms and it leaves power-on reset. -/
def execPor (side : Side) (bank33 unpowered : Byte) (vddio33 : Bool) (s : State) : Host.Outcome State Fault Refusal :=
  done (porEffect side bank33.toNat unpowered.toNat vddio33) s

/-- BOR (R508): a rail stands below its reset threshold for 2 µs and its side resets. -/
def execBor (side : Side) (s : State) : Host.Outcome State Fault Refusal :=
  done (sideReset side 2) s

/-- PIN (R538): nRST_F or nRST_H held low for 1 µs resets its side. -/
def execPin (side : Side) (ns : Nat) (s : State) : Host.Outcome State Fault Refusal :=
  if ns < 200 then .next s
  else if ns < 1000 then .fault .undefinedResetPulse
  else done (sideReset side 3) s

/-- WDR (R512): a watchdog reset of a side. -/
def execWdr (side : Side) (s : State) : Host.Outcome State Fault Refusal :=
  done (sideReset side 4) s

/-- SWS_OWN (R513): PWR_x_RESET value 0x7273_0001 resets the own side. -/
def execSwsOwn (w : Writer) (side : Side) (s : State) : Host.Outcome State Fault Refusal :=
  done (command w (resetObj side) true (resetEffect side 0x72730001)) s

/-- SWS_OTHER (R513): PWR_x_RESET value 0x7273_0002 sends RESET_REQ kind 1 to the other side. -/
def execSwsOther (w : Writer) (side : Side) (s : State) : Host.Outcome State Fault Refusal :=
  done (command w (resetObj side) true (resetEffect side 0x72730002)) s

/-- SWF (R513): PWR_x_RESET value 0x7273_0003 resets both sides. -/
def execSwf (w : Writer) (side : Side) (s : State) : Host.Outcome State Fault Refusal :=
  done (command w (resetObj side) true (resetEffect side 0x72730003)) s

/-- RAIL_WARNING_ASSERT (R509): a rail stands below its warning threshold for 2 µs, raising class 7, sources and BW
latches. -/
def execRailWarningAssert (r : Fin 20) (s : State) : Host.Outcome State Fault Refusal :=
  done (railAssertEffect r) s

/-- RAIL_WARNING_DEASSERT (R510): a rail recovers for 2 µs and a brownout episode may close. -/
def execRailWarningDeassert (r : Fin 20) (s : State) : Host.Outcome State Fault Refusal :=
  done (railDeassertEffect r) s

/-- PWR_REARM (R511): PWR_REARM written 1 clears BW on every octet when no rail is in warning. -/
def execPwrRearm (w : Writer) (v : Byte) (s : State) : Host.Outcome State Fault Refusal :=
  done (command w R.PWR_REARM false (pwrRearmEffect v.toNat)) s

/-- HOLD_REQUEST (R521): PWR_F_STATE_REQ written 2 enters HOLD. -/
def execHoldRequest (w : Writer) (s : State) : Host.Outcome State Fault Refusal :=
  done (command w R.PWR_F_STATE_REQ false (fieldReqEffect 2)) s

/-- RUN_REQUEST (R521): PWR_F_STATE_REQ written 0 returns from HOLD to RUN and restarts units. -/
def execRunRequest (w : Writer) (s : State) : Host.Outcome State Fault Refusal :=
  done (command w R.PWR_F_STATE_REQ false (fieldReqEffect 0)) s

/-- SLEEP_REQUEST (R522): PWR_F_STATE_REQ written 3 requests field SLEEP. -/
def execSleepRequest (w : Writer) (s : State) : Host.Outcome State Fault Refusal :=
  done (command w R.PWR_F_STATE_REQ false (fieldReqEffect 3)) s

/-- SLEEP_ENTRY (R522): keep gates in WFI after a sleep request and the field side stops units, barrier, DRAM and
PLLs. -/
def execSleepEntry (s : State) : Host.Outcome State Fault Refusal :=
  done (sleepEntryEffect) s

/-- WAKE (R523): a claimable Keep source or barrier training starts the staged field wake. -/
def execWake (bar : Bool) (s : State) : Host.Outcome State Fault Refusal :=
  done (wakeEffect bar) s

/-- WAKE_STAGE (R523): a wake stage starts after its gap and governor grant, restarting PLLs, DRAM, FCLK or units. -/
def execWakeStage (s : State) : Host.Outcome State Fault Refusal :=
  done (wakeStageEffect) s

/-- HOST_SLEEP_REQUEST (R524): PWR_H_STATE_REQ written 3 requests host SLEEP. -/
def execHostSleepRequest (w : Writer) (s : State) : Host.Outcome State Fault Refusal :=
  done (command w R.PWR_H_STATE_REQ false (hostReqEffect 3)) s

/-- HOST_SLEEP_ENTRY (R524): both Spire cores gated and the host side enters SLEEP. -/
def execHostSleepEntry (s : State) : Host.Outcome State Fault Refusal :=
  done (hostSleepEntryEffect) s

/-- HOST_WAKE (R524): a claimable host source or barrier training wakes the host side. -/
def execHostWake (bar : Bool) (s : State) : Host.Outcome State Fault Refusal :=
  done (fun m => Mach.when (m.pwr.hSleep && !(hostWakeEffect bar m).pwr.hSleep) canRestart (hostWakeEffect bar m)) s

/-- HOST_WD_KICK (R520): a kick of the host watchdog restarts its time or gives a host WDR. -/
def execHostWdKick (w : Writer) (key : BitVec 16) (s : State) : Host.Outcome State Fault Refusal :=
  done (commandOk w R.PWR_H_WD_KICK (hostKickEffect w key.toNat)) s

/-- HOST_WATCHDOG_EXPIRY (R520): PWR_H_WD_MAX passes without a kick and the host side takes WDR. -/
def execHostWatchdogExpiry (s : State) : Host.Outcome State Fault Refusal :=
  done (hostWdExpiry) s

/-- HOST_WATCHDOG_WARNING (R520): PWR_H_WD_MAX − PWR_H_WD_WARN passes and source 413 asserts. -/
def execHostWatchdogWarning (s : State) : Host.Outcome State Fault Refusal :=
  done (hostWdWarning) s

/-- CREDIT_ADD (R526): every 4,000 T the governor adds PWR_INRUSH_RATE credits up to the maximum. -/
def execCreditAdd (s : State) : Host.Outcome State Fault Refusal :=
  done (govCredit) s

/-- GOVERNOR_GRANT (R527): the head request is granted when credits cover its cost. -/
def execGovernorGrant (s : State) : Host.Outcome State Fault Refusal :=
  done (govGrantHead) s

/-- PWR_UNIT_STOP (R529): a PWR_UNIT_STOP write issues a UNIT stop of the named unit. -/
def execPwrUnitStop (w : Writer) (v : BitVec 16) (s : State) : Host.Outcome State Fault Refusal :=
  done (command w R.PWR_UNIT_STOP false (unitStopEffect v.toNat)) s

/-- RELOAD_FIELD (R518): PWR_H_FW_CMD RELOAD_FIELD streams the field image over FW_LOAD. -/
def execReloadField (w : Writer) (s : State) : Host.Outcome State Fault Refusal :=
  done (command w R.PWR_H_FW_CMD false (fwCmdEffect 1)) s

/-- BOOTKEY_COMMIT (R515): the PWR_H_BOOTKEY_CMD signature blows the boot-key hash. -/
def execBootkeyCommit (w : Writer) (v : Word) (s : State) : Host.Outcome State Fault Refusal :=
  done (command w R.PWR_H_BOOTKEY_CMD true (bootkeyEffect w v.toNat)) s

/-- PCIE_STATE_CHANGE (R393): the PCIe link or function state changes, including PERST# and the MSI-X enable,
asserting source 408. -/
def execPcieStateChange (up perst msix : Bool) (s : State) : Host.Outcome State Fault Refusal :=
  done (pcieEffect up perst msix) s

end Sys2Proof.Machine
end

