-- ==== Sys2Proof/Machine/CmdPwm.lean ====
section
/-! DEFINITION. The commands of the PWM octets and their trips (chapters 8 and 9). -/

namespace Sys2Proof.Machine

/-- A value a shadowed object takes. -/
def shadowOk (m : Mach) (o : Nat) (obj : PwmShadow) (v : Nat) : Bool :=
  match obj with
  | .period => pwmPeriodOk m o v
  | .pairOvr _ => only 3 v && (v == 0 || m.pwmBridge o)
  | _ => true

/-- PWM_RUN_ON (R267): PWM_RUN written 1 is checked and requests start-governor credits. -/
def execPwmRunOn (w : Writer) (o : Fin 16) (s : State) : Host.Outcome State Fault Refusal :=
  done (command w (R.PWM_RUN o) false (octRunOn o)) s

/-- PWM_RUN_OFF (R269): PWM_RUN written 0 stops the octet, withdraws a request and clears carries. -/
def execPwmRunOff (w : Writer) (o : Fin 16) (s : State) : Host.Outcome State Fault Refusal :=
  done (commandOk w (R.PWM_RUN o) (octRunOff o)) s

/-- PWM_START (R267): tick β_0 is reached and the octet transfers shadows, resets dead times and carries and enters
RUNNING. -/
def execPwmStart (o : Fin 16) (s : State) : Host.Outcome State Fault Refusal :=
  done (octStart o) s

/-- PWM_BOUNDARY (R276): a period boundary tick transfers shadows, advances dither, updates dead times and carries,
ends cuts and rejoins. -/
def execPwmBoundary (o : Fin 16) (s : State) : Host.Outcome State Fault Refusal :=
  done (octBoundary o) s

/-- PEAK (R271): the centre of a centre-aligned period is reached and PEAK is raised. -/
def execPeak (o : Fin 16) (s : State) : Host.Outcome State Fault Refusal :=
  done (octPeak o) s

/-- PWM_EDGE_PLAY (R272): a scheduled pulse-arc or dead-time transition plays on a PWM pin at its dithered fine time.
-/
def execPwmEdgePlay (o : Fin 16) (j : Fin 8) (s : State) : Host.Outcome State Fault Refusal :=
  done (octEdge o j) s

/-- PWM_SHADOW_WRITE (R276): a write to PWM_PERIOD, PWM_DUTY, PWM_PHASE or PWM_PAIR_OVR lands in the shadow, counting
late in the guard window. -/
def execPwmShadowWrite (w : Writer) (o : Fin 16) (obj : PwmShadow) (v : Word)
    (s : State) : Host.Outcome State Fault Refusal :=
  done (command w (shadowObj o obj) false (fun m => ranged (shadowOk m o obj v.toNat) (setShadow o obj v.toNat) m)) s

/-- PWM_PERIOD_IMM (R278): an immediate period write replaces the current period and may force a boundary at the next
tick. -/
def execPwmPeriodImm (w : Writer) (o : Fin 16) (v : Word) (s : State) : Host.Outcome State Fault Refusal :=
  done (command w (R.PWM_PERIOD_IMM o) false (fun m => ranged (pwmImmOk m o v.toNat) (octImm o v.toNat) m)) s

/-- PWM_CH_OFF_WRITE (R288): a PWM_CH_OFF write forces channels safe at once or returns them at the next boundary. -/
def execPwmChOffWrite (w : Writer) (o : Fin 16) (v : Byte) (s : State) : Host.Outcome State Fault Refusal :=
  done (commandOk w (R.PWM_CH_OFF o) (octChOff o v.toNat)) s

/-- PWM_CNT_CLR (R291): a write to PWM_CNT_CLR zeroes the selected octet counters. -/
def execPwmCntClr (w : Writer) (o : Fin 16) (v : BitVec 16) (s : State) : Host.Outcome State Fault Refusal :=
  done (command w (R.PWM_CNT_CLR o) false (ranged (only 0xFFF7 v.toNat) (Mach.clrBits v.toNat (pwmCounters o)))) s

/-- SN_CROSSING (R282): the switching-node comparator crosses inside a measurement window and the transition's delay m
is measured. -/
def execSnCrossing (o : Fin 16) (i : Fin 4) (rise : Bool) (t : BitVec 64)
    (s : State) : Host.Outcome State Fault Refusal :=
  done (snCrossing o i rise t.toNat) s

/-- TRIP_VALID (R300): a comparator is asserted unblanked for FILT + 1 ticks and a trip becomes valid, cutting
channels and counting the run, after the stops, the boundary and the writes of its tick (R308). -/
def execTripValid (o : Fin 16) (b : TripIn) (s : State) : Host.Outcome State Fault Refusal :=
  done (tripValidEffect o b) s

/-- TRP_REARM (R307): a TRP_REARM write clears ESC and SW causes and may request a rejoin draw. -/
def execTrpRearm (w : Writer) (o : Fin 16) (v : Byte) (s : State) : Host.Outcome State Fault Refusal :=
  done (command w (R.TRP_REARM o) false (ranged (only 7 v.toNat) (trpRearmEffect o v.toNat))) s

/-- TRP_REARM_RB (R315): TRP_REARM_RB written 1 clears RB and TRP_RB_CH. -/
def execTrpRearmRb (w : Writer) (o : Fin 16) (v : Bool) (s : State) : Host.Outcome State Fault Refusal :=
  done (command w (R.TRP_REARM_RB o) true (fun m => .ok (trpRearmRbEffect o v m))) s

/-- LATCH (R305): TRP_CMD LATCH latches the octet with cause SW. -/
def execLatch (w : Writer) (o : Fin 16) (s : State) : Host.Outcome State Fault Refusal :=
  done (commandOk w (R.TRP_CMD o) (trpLatch o)) s

/-- TRP_CLEAR (R317): TRP_CMD CLEAR zeroes the trip counters. -/
def execTrpClear (w : Writer) (o : Fin 16) (s : State) : Host.Outcome State Fault Refusal :=
  done (commandOk w (R.TRP_CMD o) (trpClearEffect o)) s

/-- READBACK_FAULT (R315): a readback mismatch run reaches TRP_RB_TOL and the octet latches with cause RB; the pin has differed from a
commanded level that is not high-impedance; an open-drain output commanded high is checked too (R314, R316). -/
def execReadbackFault (o : Fin 16) (j : PinDiff) (s : State) : Host.Outcome State Fault Refusal :=
  done (fun m => if (pinCommand m (8 * o + j.chan)).isSome then readbackEffect o j.chan j.n.toNat m else m) s

end Sys2Proof.Machine
end

