-- ==== Sys2Proof/Machine/CmdReg.lean ====
section
/-! DEFINITION. The register-view write (chapter 2). -/

namespace Sys2Proof.Machine

/-- REGISTER_WRITE (R55): a register-view or dictionary write to an object that has no row of its own is checked
against access code, RWS condition and range, then applied or refused. -/
def execRegisterWrite (w : Writer) (addr v : Word) (s : State) : Host.Outcome State Fault Refusal :=
  done (registerWriteEffect w addr.toNat v.toNat) s

/-- USER_OBJECT_DECLARE (R49): firmware declares a user object in 0x6000–0x7FFF through the owning core's firmware
interface, and the object then exists with its class. -/
def execUserObjectDeclare (idx : BitVec 16) (sub : BitVec 8) (ty : Fin 10) (acc : Fin 6) (mach : Bool) (ret : Fin 5) (dflt : BitVec 64)
    (s : State) : Host.Outcome State Fault Refusal :=
  done (userDeclareEffect ⟨idx.toNat, sub.toNat, tyOf ty, accOf acc, mach, retOf ret, dflt.toNat⟩) s

end Sys2Proof.Machine
end

