-- ==== Sys2Proof/Machine/CmdSafety.lean ====
section
/-! DEFINITION. The commands of the safety monitor, the watchdogs and the log (chapter 15). -/

namespace Sys2Proof.Machine

/-- STO (R488): SAF_DEMAND written 1 enters the safe state with cause 21. -/
def execSto (w : Writer) (s : State) : Host.Outcome State Fault Refusal :=
  done (commandOk w R.SAF_DEMAND (demandSto 21)) s

/-- SS1 (R487): SAF_DEMAND written 2 starts SS1 with its timer. -/
def execSs1 (w : Writer) (s : State) : Host.Outcome State Fault Refusal :=
  done (commandOk w R.SAF_DEMAND demandSs1) s

/-- SS1_TIMEOUT (R487): SAF_SS1_TIME expires and the safe state is entered with cause 20. -/
def execSs1Timeout (s : State) : Host.Outcome State Fault Refusal :=
  done (ss1TimeoutEffect) s

/-- SAF_RELEASE (R481): a SAF_RELEASE signature write releases the safe state when no cause is held, or is refused. -/
def execSafRelease (w : Writer) (v : Word) (s : State) : Host.Outcome State Fault Refusal :=
  done (command w R.SAF_RELEASE true (safReleaseEffect w v.toNat)) s

/-- CLOCK_MONITOR_FAULT (R488): a field clock, XIN_F, monitor oscillator or latch check fails, a safety cause. -/
def execClockMonitorFault (k : Fin 5) (s : State) : Host.Outcome State Fault Refusal :=
  done (clockFaultEffect k) s

/-- CAUSE_CLEARED (R488): a held cause's condition has cleared for its hold time and its SAF_ACTIVE bit clears. -/
def execCauseCleared (n : Fin 22) (s : State) : Host.Outcome State Fault Refusal :=
  done (causeClearedEffect n) s

/-- STO_TEST_PULSE (R485): at each 100 ms slot an STO line is pulsed de-asserted for 1 µs and its readback checked. -/
def execStoTestPulse (b ok : Bool) (s : State) : Host.Outcome State Fault Refusal :=
  done (stoPulseEffect b ok) s

/-- STO_READBACK_FAULT (R484): an STO ball differs from its command for 2 µs, cause 11. -/
def execStoReadbackFault (s : State) : Host.Outcome State Fault Refusal :=
  done (stoReadbackEffect) s

/-- KA_READBACK_FAULT (R486): a running KA ball shows no edge for 10 µs, cause 12. -/
def execKaReadbackFault (s : State) : Host.Outcome State Fault Refusal :=
  done (kaReadbackEffect) s

/-- OVERTEMP (R488): the junction exceeds 130 °C, cause 17. -/
def execOvertemp (s : State) : Host.Outcome State Fault Refusal :=
  done (Mach.alarm 17) s

/-- SAF_WD_KICK (R492): a kick of the field watchdog with the alternating key restarts its time or is cause 8. -/
def execSafWdKick (w : Writer) (key : BitVec 16) (s : State) : Host.Outcome State Fault Refusal :=
  done (commandOk w R.SAF_WD_KICK (safKickEffect w key.toNat)) s

/-- FIELD_WATCHDOG_EXPIRY (R492): SAF_WD_MAX passes without a kick, cause 8 followed by field WDR. -/
def execFieldWatchdogExpiry (s : State) : Host.Outcome State Fault Refusal :=
  done (fieldWdExpiry) s

/-- FIELD_WATCHDOG_WARNING (R492): SAF_WD_MAX − SAF_WD_WARN passes and source 373 asserts. -/
def execFieldWatchdogWarning (s : State) : Host.Outcome State Fault Refusal :=
  done (fieldWdWarning) s

/-- SAF_DIAG_SEQ (R493): a SAF_DIAG_SEQ write advances the diagnostic count or is cause 9. -/
def execSafDiagSeq (w : Writer) (v : Word) (s : State) : Host.Outcome State Fault Refusal :=
  done (commandOk w R.SAF_DIAG_SEQ (diagSeqEffect v.toNat)) s

/-- DIAG_INTERVAL_EXPIRY (R493): SAF_DTI ends without a correct sequence write, cause 9. -/
def execDiagIntervalExpiry (s : State) : Host.Outcome State Fault Refusal :=
  done (diagExpiry) s

/-- SAF_KEY_COMMIT (R497): the commit signature makes the written session key take effect. -/
def execSafKeyCommit (w : Writer) (v : Word) (s : State) : Host.Outcome State Fault Refusal :=
  done (command w R.SAF_KEY_COMMIT true (keyCommitEffect v.toNat)) s

/-- BLOW_DBG_LOCK (R499): SAF_FUSE_CMD DBG_LOCK signature blows DBG_LOCK on both dies. -/
def execBlowDbgLock (w : Writer) (s : State) : Host.Outcome State Fault Refusal :=
  done (command w R.SAF_FUSE_CMD true (fuseCmdEffect w 0x6B6C6264)) s

/-- BLOW_SAF_LOCK (R499): SAF_FUSE_CMD SAF_LOCK signature blows the SAF_LOCK fuse. -/
def execBlowSafLock (w : Writer) (s : State) : Host.Outcome State Fault Refusal :=
  done (command w R.SAF_FUSE_CMD true (fuseCmdEffect w 0x6B6C6673)) s

/-- SAF_LOG_APPEND (R503): a Keep write to SAF_LOG_APPEND queues a FIRMWARE log record. -/
def execSafLogAppend (w : Writer) (v : Word) (s : State) : Host.Outcome State Fault Refusal :=
  done (command w R.SAF_LOG_APPEND false (logAppendEffect w v.toNat)) s

/-- LOG_RECORD_WRITE (R503): a queued safety log record is written to the ferroelectric die. -/
def execLogRecordWrite (s : State) : Host.Outcome State Fault Refusal :=
  done (logWriteEffect) s

/-- SAF_CNT_CLR (R504): a write to SAF_CNT_CLR zeroes selected safety counters. -/
def execSafCntClr (w : Writer) (v : Byte) (s : State) : Host.Outcome State Fault Refusal :=
  done (commandOk w R.SAF_CNT_CLR (Mach.clrBits v.toNat safCounters)) s

end Sys2Proof.Machine
end

