-- ==== Sys2Proof/Machine/CmdTime.lean ====
section
/-! DEFINITION. The commands of the timebase (chapter 3). -/

namespace Sys2Proof.Machine

/-- GT_COUNT and GT_CTRL may be written: the timer stands still or is unlocked (R54). -/
def gtStill (n : Nat) (m : Mach) : Bool := !gtRuns m n || m.on (R.GT_UNLOCK n)

/-- LT_STEP (R87): a write to LT_STEP adds its signed value to LT_NOW in the next tick and counts the step. -/
def execLtStep (w : Writer) (v : BitVec 64) (s : State) : Host.Outcome State Fault Refusal :=
  done (command w R.LT_STEP false (ltStepEffect v.toNat)) s

/-- HOLDOVER (R92): LT_HOLDOVER strobe intervals pass without a processed beacon and HOLDOVER sets. -/
def execHoldover (s : State) : Host.Outcome State Fault Refusal :=
  done (holdoverEffect) s

/-- GT_RUN_START (R95): GT_RUN written 1 on a stopped timer clears PA and starts counting. -/
def execGtRunStart (w : Writer) (n : Fin 16) (s : State) : Host.Outcome State Fault Refusal :=
  done (command w (R.GT_RUN n) false (gtRunEffect n true)) s

/-- GT_RUN_STOP (R95): GT_RUN written 0 holds the count and PA from the next tick. -/
def execGtRunStop (w : Writer) (n : Fin 16) (s : State) : Host.Outcome State Fault Refusal :=
  done (command w (R.GT_RUN n) false (gtRunEffect n false)) s

/-- GT_COUNT_LOAD (R95): an accepted GT_COUNT write loads the count and clears PA in the next tick without a compare
match. -/
def execGtCountLoad (w : Writer) (n : Fin 16) (v : Word) (s : State) : Host.Outcome State Fault Refusal :=
  done (command w (R.GT_COUNT n) false (rws (gtStill n) (fun m => .ok (gtLoadEffect n v.toNat m)))) s

/-- GT_CTRL_WRITE (R94): a GT_CTRL write changes PRESC or LINK, taking effect in the next tick or being refused. -/
def execGtCtrlWrite (w : Writer) (n : Fin 16) (v : Word) (s : State) : Host.Outcome State Fault Refusal :=
  done (command w (R.GT_CTRL n) false (rws (fun m => gtStill n m || gtLinkBar m n v.toNat) (gtCtrlEffect n v.toNat))) s

/-- GT_COMPARE_MATCH (R96): a timer or linked pair count passes a compare value, setting CMP flags, triggers and
Belfry source. -/
def execGtCompareMatch (n : Fin 16) (c : Fin 2) (s : State) : Host.Outcome State Fault Refusal :=
  done (gtMatchEffect n c) s

/-- GT_WRAP (R97): a timer or pair count wraps, setting WRAP and raising its source. -/
def execGtWrap (n : Fin 16) (s : State) : Host.Outcome State Fault Refusal :=
  done (gtWrapEffect n) s

end Sys2Proof.Machine
end

