-- ==== Sys2Proof/Machine/CmdTurret.lean ====
section
/-! DEFINITION. The commands of the Turret engines (chapter 10): an instruction row is one slot of a context in which that word is
issued; the mask of each row is the bits its format does not use (R327). -/

namespace Sys2Proof.Machine

/-- NOP (R327): turret instruction doing nothing for one slot. -/
def execNop (x : Fin 128) (w : BitVec 27) (f : Fetch) (s : State) : Host.Outcome State Fault Refusal :=
  done (turSlot 0x00 x w.toNat f 0xFFFFFF (fun m => .ok (.next, m))) s

/-- LDI (R327): turret instruction loading a zero-extended immediate. -/
def execLdi (x : Fin 128) (w : BitVec 27) (f : Fetch) (s : State) : Host.Outcome State Fault Refusal :=
  done (turSlot 0x01 x w.toNat f 0x0F0000 (turLdi x w.toNat)) s

/-- LDHI (R327): turret instruction loading the upper half of a register. -/
def execLdhi (x : Fin 128) (w : BitVec 27) (f : Fetch) (s : State) : Host.Outcome State Fault Refusal :=
  done (turSlot 0x02 x w.toNat f 0x0F0000 (turLdhi x w.toNat)) s

/-- ADDI (R327): turret instruction adding a sign-extended immediate. -/
def execAddi (x : Fin 128) (w : BitVec 27) (f : Fetch) (s : State) : Host.Outcome State Fault Refusal :=
  done (turSlot 0x03 x w.toNat f 0x000000 (turAddi x w.toNat)) s

/-- MOV (R327): turret instruction copying, inverting or reversing a register. -/
def execMov (x : Fin 128) (w : BitVec 27) (f : Fetch) (s : State) : Host.Outcome State Fault Refusal :=
  done (turSlot 0x04 x w.toNat f 0x00F0FF (turMov x w.toNat)) s

/-- ALU (R327): turret instruction performing an arithmetic, logic or shift operation. -/
def execAlu (x : Fin 128) (w : BitVec 27) (f : Fetch) (s : State) : Host.Outcome State Fault Refusal :=
  done (turSlot 0x05 x w.toNat f 0x0000FF (turAlu x w.toNat)) s

/-- BR (R328): turret conditional branch, decrementing for DEC. -/
def execBr (x : Fin 128) (w : BitVec 27) (f : Fetch) (s : State) : Host.Outcome State Fault Refusal :=
  done (turSlot 0x06 x w.toNat f 0x000000 (turBr x w.toNat)) s

/-- JAL (R327): turret jump and link. -/
def execJal (x : Fin 128) (w : BitVec 27) (f : Fetch) (s : State) : Host.Outcome State Fault Refusal :=
  done (turSlot 0x07 x w.toNat f 0x0FFC00 (turJal x w.toNat)) s

/-- JR (R327): turret jump to a register address. -/
def execJr (x : Fin 128) (w : BitVec 27) (f : Fetch) (s : State) : Host.Outcome State Fault Refusal :=
  done (turSlot 0x08 x w.toNat f 0xF0FFFF (turJr x w.toNat)) s

/-- WAITPIN (R332): turret wait for a pin level or edge, recording TS on an edge. -/
def execWaitpin (x : Fin 128) (w : BitVec 27) (f : Fetch) (s : State) : Host.Outcome State Fault Refusal :=
  done (turSlot 0x09 x w.toNat f 0x1CFFFF (turWaitpin x w.toNat)) s

/-- WAITFLAG (R345): turret wait for a flag value, optionally consuming it. -/
def execWaitflag (x : Fin 128) (w : BitVec 27) (f : Fetch) (s : State) : Host.Outcome State Fault Refusal :=
  done (turSlot 0x0A x w.toNat f 0xFF00FF (turWaitflag x w.toNat)) s

/-- WAITTIME (R334): turret wait until TIME reaches a register value. -/
def execWaittime (x : Fin 128) (w : BitVec 27) (f : Fetch) (s : State) : Host.Outcome State Fault Refusal :=
  done (turSlot 0x0B x w.toNat f 0xF0FFFF (turWaittime x w.toNat)) s

/-- SETPIN (R333): turret instruction setting PINS or DIRS bits. -/
def execSetpin (x : Fin 128) (w : BitVec 27) (f : Fetch) (s : State) : Host.Outcome State Fault Refusal :=
  done (turSlot 0x0C x w.toNat f 0xFE0000 (turSetpin x w.toNat)) s

/-- SHOUT (R337): turret shift of OSR bits to pins, stalling for TX refill. -/
def execShout (x : Fin 128) (w : BitVec 27) (f : Fetch) (s : State) : Host.Outcome State Fault Refusal :=
  done (turSlot 0x0D x w.toNat f 0x1FFFE0 (turShout x w.toNat)) s

/-- SHIN (R338): turret shift of pin samples into ISR, stalling for RX room. -/
def execShin (x : Fin 128) (w : BitVec 27) (f : Fetch) (s : State) : Host.Outcome State Fault Refusal :=
  done (turSlot 0x0E x w.toNat f 0x1FFFE0 (turShin x w.toNat)) s

/-- TAKE (R337): turret shift of OSR bits into a register. -/
def execTake (x : Fin 128) (w : BitVec 27) (f : Fetch) (s : State) : Host.Outcome State Fault Refusal :=
  done (turSlot 0x0F x w.toNat f 0x0FFFE0 (turTake x w.toNat)) s

/-- GIVE (R338): turret shift of register bits into ISR. -/
def execGive (x : Fin 128) (w : BitVec 27) (f : Fetch) (s : State) : Host.Outcome State Fault Refusal :=
  done (turSlot 0x10 x w.toNat f 0xF0FFE0 (turGive x w.toNat)) s

/-- PUSH (R341): turret push of a register to the RX queue, blocking or not. -/
def execPush (x : Fin 128) (w : BitVec 27) (f : Fetch) (s : State) : Host.Outcome State Fault Refusal :=
  done (turSlot 0x11 x w.toNat f 0xF0FFFE (turPush x w.toNat)) s

/-- PULL (R341): turret pop of the TX queue into a register, blocking or not. -/
def execPull (x : Fin 128) (w : BitVec 27) (f : Fetch) (s : State) : Host.Outcome State Fault Refusal :=
  done (turSlot 0x12 x w.toNat f 0x0FFFFE (turPull x w.toNat)) s

/-- OUTAT (R333): turret scheduling of a pin transition at an exact instant in a timed-edge register. -/
def execOutat (x : Fin 128) (w : BitVec 27) (f : Fetch) (s : State) : Host.Outcome State Fault Refusal :=
  done (turSlot 0x13 x w.toNat f 0x10FFFE (turOutat x w.toNat)) s

/-- FLAG (R327): turret instruction clearing, setting or toggling a flag. -/
def execFlag (x : Fin 128) (w : BitVec 27) (f : Fetch) (s : State) : Host.Outcome State Fault Refusal :=
  done (turSlot 0x14 x w.toNat f 0xFF03FC (turFlag x w.toNat)) s

/-- SIGNAL (R355): turret instruction raising a SIG event. -/
def execSignal (x : Fin 128) (w : BitVec 27) (f : Fetch) (s : State) : Host.Outcome State Fault Refusal :=
  done (turSlot 0x15 x w.toNat f 0xFFFFFC (turSignal x w.toNat)) s

/-- CRCS (R339): turret CRC step over up to 32 bits. -/
def execCrcs (x : Fin 128) (w : BitVec 27) (f : Fetch) (s : State) : Host.Outcome State Fault Refusal :=
  done (turSlot 0x16 x w.toNat f 0x00FFE0 (turCrcs x w.toNat)) s

/-- HALT (R349): turret instruction moving the context to DONE. -/
def execHalt (x : Fin 128) (w : BitVec 27) (f : Fetch) (s : State) : Host.Outcome State Fault Refusal :=
  done (turSlot 0x17 x w.toNat f 0xFFFFFF (fun m => .ok (.done, m))) s

/-- TUR_RUN_ON (R346): TUR_RUN written 1 requests an engine-start draw from the governor. -/
def execTurRunOn (w : Writer) (e : Fin 8) (s : State) : Host.Outcome State Fault Refusal :=
  done (commandOk w (R.TUR_RUN e) (turRunOnEffect e)) s

/-- TUR_RUN_OFF (R346): TUR_RUN written 0 withdraws a request or stops the engine at the next round boundary. -/
def execTurRunOff (w : Writer) (e : Fin 8) (s : State) : Host.Outcome State Fault Refusal :=
  done (commandOk w (R.TUR_RUN e) (turRunOffEffect e)) s

/-- ROUND_BOUNDARY (R349): a round begins and engine start or stop and context starts, resumes, refusals and pauses
are applied. -/
def execRoundBoundary (e : Fin 8) (s : State) : Host.Outcome State Fault Refusal :=
  done (turRound e) s

/-- TIMED_EDGE_PLAY (R333): a Turret timed edge plays at its instant, or late at the next tick. -/
def execTimedEdgePlay (x : Fin 128) (s : State) : Host.Outcome State Fault Refusal :=
  done (timedEdge x) s

/-- CTX_RUN_WRITE (R330): a CTX_RUN write is checked and requests a start or pause at the next round boundary. -/
def execCtxRunWrite (w : Writer) (x : Fin 128) (v : Bool) (s : State) : Host.Outcome State Fault Refusal :=
  done (command w (R.CTX_RUN x) false (setCtxRun x v)) s

/-- RELEASE (R349): CTX_CMD RELEASE sends a paused, done or faulted context to IDLE and releases its channels. -/
def execRelease (w : Writer) (x : Fin 128) (s : State) : Host.Outcome State Fault Refusal :=
  done (commandOk w (R.CTX_CMD x) (ctxRelease x)) s

/-- CTX_CLEAR (R354): CTX_CMD CLEAR zeroes the context counters. -/
def execCtxClear (w : Writer) (x : Fin 128) (s : State) : Host.Outcome State Fault Refusal :=
  done (commandOk w (R.CTX_CMD x) (ctxClearEffect x)) s

/-- TX_PORT_PUSH (R342): a store to a context port pushes to its TX queue or is dropped; a mover's push to a full queue waits (R259). -/
def execTxPortPush (port : Fin 17) (x : Fin 128) (v : Word) (s : State) : Host.Outcome State Fault Refusal :=
  done (atPort port 1 (0x48002000 + 16 * x.val) (fun m =>
    if port.val ≠ 0 ∧ txFull m x then m else txPortPut port x v.toNat m)) s

/-- RX_PORT_POP (R342): a load of a context port pops the RX head; a mover waits for an entry (R259). -/
def execRxPortPop (port : Fin 17) (x : Fin 128) (s : State) : Host.Outcome State Fault Refusal :=
  done (atPort port 0 (0x48002000 + 16 * x.val) (fun m =>
    if port.val ≠ 0 ∧ (rxSeen m x).isEmpty then m else sendLoad port (rxHead m x, rxPop x m))) s

/-- CTX_TXQ_PUSH (R342): a dictionary write to CTX_TXQ_PUSH pushes to the TX queue or is refused. -/
def execCtxTxqPush (w : Writer) (x : Fin 128) (v : Word) (s : State) : Host.Outcome State Fault Refusal :=
  done (command w (R.CTX_TXQ_PUSH x) false (txDictPut x v.toNat)) s

/-- CTX_RXQ_POP (R342): a write of 1 to CTX_RXQ_POP discards the RX head, after the pops of Keep and the movers. -/
def execCtxRxqPop (w : Writer) (x : Fin 128) (v : Bool) (s : State) : Host.Outcome State Fault Refusal :=
  done (commandOk w (R.CTX_RXQ_POP x) (whenSet (boolNat v) (popLater true x))) s

/-- CTX_Q_FLUSH (R343): a write to CTX_Q_FLUSH empties the TX or RX queue. -/
def execCtxQFlush (w : Writer) (x : Fin 128) (v : Byte) (s : State) : Host.Outcome State Fault Refusal :=
  done (command w (R.CTX_Q_FLUSH x) false (ranged (only 3 v.toNat) (ctxFlush x v.toNat))) s

/-- TUR_FLAG_SET (R344): a write to TUR_FLAG_SET sets engine flags. -/
def execTurFlagSet (w : Writer) (e : Fin 8) (v : Word) (s : State) : Host.Outcome State Fault Refusal :=
  done (commandOk w (R.TUR_FLAG_SET e) (flagsSet (R.TUR_FLAG_SET e) v.toNat)) s

/-- TUR_FLAG_CLR (R344): a write to TUR_FLAG_CLR clears engine flags. -/
def execTurFlagClr (w : Writer) (e : Fin 8) (v : Word) (s : State) : Host.Outcome State Fault Refusal :=
  done (commandOk w (R.TUR_FLAG_CLR e) (flagsClr (R.TUR_FLAG_SET e) v.toNat)) s

/-- TUR_XFLAG_SET (R344): a write to TUR_XFLAG_SET sets cross-flags. -/
def execTurXflagSet (w : Writer) (v : BitVec 16) (s : State) : Host.Outcome State Fault Refusal :=
  done (commandOk w R.TUR_XFLAG_SET (flagsSet R.TUR_XFLAG_SET v.toNat)) s

/-- TUR_XFLAG_CLR (R344): a write to TUR_XFLAG_CLR clears cross-flags. -/
def execTurXflagClr (w : Writer) (v : BitVec 16) (s : State) : Host.Outcome State Fault Refusal :=
  done (commandOk w R.TUR_XFLAG_CLR (flagsClr R.TUR_XFLAG_SET v.toNat)) s

end Sys2Proof.Machine
end

