-- ==== Sys2Proof/Machine/CmdWheel.lean ====
section
/-! DEFINITION. The commands of the wheel decoders (chapter 4). -/

namespace Sys2Proof.Machine

/-- WHL_ENABLE_ON (R113): WHL_ENABLE written 1 passes the checks of R103 and the decoder goes from OFF to HUNT. -/
def execWhlEnableOn (w : Writer) (d : Fin 16) (s : State) : Host.Outcome State Fault Refusal :=
  done (command w (R.WHL_ENABLE d) false (whlEnable d)) s

/-- WHL_ENABLE_OFF (R113): WHL_ENABLE written 0 sends the decoder to OFF with angle, speed and acceleration invalid.
-/
def execWhlEnableOff (w : Writer) (d : Fin 16) (s : State) : Host.Outcome State Fault Refusal :=
  done (commandOk w (R.WHL_ENABLE d) (whlDisable d)) s

/-- TOOTH_EDGE (R117): a selected edge or quadrature tooth crossing reaches the decoder and is blanked, rejected or
validated, updating estimator, state and references. -/
def execToothEdge (d : Fin 16) (rise : Bool) (t : BitVec 64) (dir : Bool)
    (s : State) : Host.Outcome State Fault Refusal :=
  done (toothEdgeEffect d rise t.toNat dir) s

/-- QUAD_COUNT_EDGE (R105): an edge of quadrature input A or B changes the signed count and may cross a tooth
boundary. -/
def execQuadCountEdge (d : Fin 16) (b rise : Bool) (t : BitVec 64) (s : State) : Host.Outcome State Fault Refusal :=
  done (quadCountEffect d b rise t.toNat) s

/-- INDEX_EDGE (R106): an index edge of polarity IDX_POL is an index event used by reference search and checks. -/
def execIndexEdge (d : Fin 16) (rise : Bool) (t : BitVec 64) (s : State) : Host.Outcome State Fault Refusal :=
  done (indexEdgeEffect d rise t.toNat) s

/-- VIRTUAL_TOOTH (R121): the window of a non-GAP entry closes with no edge and a virtual tooth is synthesised. -/
def execVirtualTooth (d : Fin 16) (s : State) : Host.Outcome State Fault Refusal :=
  done (whlVirtual d) s

/-- GAP_DEADLINE_MISS (R122): the window of a GAP entry closes with no edge, a sync-loss cause. -/
def execGapDeadlineMiss (d : Fin 16) (s : State) : Host.Outcome State Fault Refusal :=
  done (whlGapMiss d) s

/-- STALL (R135): STALL_TIMEOUT passes from the last validated real tooth and the decoder goes to LOST. -/
def execStall (d : Fin 16) (s : State) : Host.Outcome State Fault Refusal :=
  done (whlStall d) s

/-- FREEWHEEL_EXPIRY (R136): the freewheel time elapses and the decoder goes from FREEWHEEL to HUNT. -/
def execFreewheelExpiry (d : Fin 16) (s : State) : Host.Outcome State Fault Refusal :=
  done (whlFwExpiry d) s

/-- PLAUS_CHECK (R144): the armed plausibility check runs every 250 µs comparing the partner angles and may set
PLAUS_FAULT. -/
def execPlausCheck (d : Fin 16) (s : State) : Host.Outcome State Fault Refusal :=
  done (plausRun d) s

/-- WHL_CNT_CLR (R148): a write to WHL_CNT_CLR zeroes the selected decoder counters. -/
def execWhlCntClr (w : Writer) (d : Fin 16) (v : Byte) (s : State) : Host.Outcome State Fault Refusal :=
  done (commandOk w (R.WHL_CNT_CLR d) (Mach.clrBits v.toNat (whlCounters d))) s

end Sys2Proof.Machine
end

