-- ==== Sys2Proof/Machine/Dispatch.lean ====
section
/-! DEFINITION. One arm for every command: its meaning, or its rejection by name. -/

namespace Sys2Proof.Machine

/-- The effect of a command on the machine; the queue of waiting commands is the step's. -/
def exec (i : Instr) (s : State) : Host.Outcome State Fault Refusal :=
  match i with
  | .registerWrite w addr v => Sys2Proof.Machine.execRegisterWrite w addr v s
  | .read q => Sys2Proof.Machine.execRead q s
  | .write q => Sys2Proof.Machine.execWrite q s
  | .domainOpenRead q => Sys2Proof.Machine.execDomainOpenRead q s
  | .domainOpenWrite q => Sys2Proof.Machine.execDomainOpenWrite q s
  | .domainSegment q => Sys2Proof.Machine.execDomainSegment q s
  | .domainClose q => Sys2Proof.Machine.execDomainClose q s
  | .domainCancel q => Sys2Proof.Machine.execDomainCancel q s
  | .echo q => Sys2Proof.Machine.execEcho q s
  | .challenge q => Sys2Proof.Machine.execChallenge q s
  | .prove q => Sys2Proof.Machine.execProve q s
  | .sessionClose q => Sys2Proof.Machine.execSessionClose q s
  | .sessionIdleExpiry handle => Sys2Proof.Machine.execSessionIdleExpiry handle s
  | .forwardTimeout xid => Sys2Proof.Machine.execForwardTimeout xid s
  | .domainIdleExpiry handle => Sys2Proof.Machine.execDomainIdleExpiry handle s
  | .store w sig => Sys2Proof.Machine.execStore w sig s
  | .storeComplete => Sys2Proof.Machine.execStoreComplete s
  | .reload w sig => Sys2Proof.Machine.execReload w sig s
  | .factory w sig => Sys2Proof.Machine.execFactory w sig s
  | .doorbell slot frame => Sys2Proof.Machine.execDoorbell slot frame s
  | .mbxAck mask => Sys2Proof.Machine.execMbxAck mask s
  | .bar2Access bar wr off v => Sys2Proof.Machine.execBar2Access bar wr off v s
  | .qspiWriteFrame slot frame => Sys2Proof.Machine.execQspiWriteFrame slot frame s
  | .qspiReadResponse slot => Sys2Proof.Machine.execQspiReadResponse slot s
  | .qspiReadStatus => Sys2Proof.Machine.execQspiReadStatus s
  | .qspiAck mask => Sys2Proof.Machine.execQspiAck mask s
  | .pdataWrite v => Sys2Proof.Machine.execPdataWrite v s
  | .pdataRead => Sys2Proof.Machine.execPdataRead s
  | .submit => Sys2Proof.Machine.execSubmit s
  | .parAck => Sys2Proof.Machine.execParAck s
  | .fifoReset => Sys2Proof.Machine.execFifoReset s
  | .userObjectDeclare idx sub ty acc mach ret dflt => Sys2Proof.Machine.execUserObjectDeclare idx sub ty acc mach ret dflt s
  | .ltStep w v => Sys2Proof.Machine.execLtStep w v s
  | .holdover => Sys2Proof.Machine.execHoldover s
  | .gtRunStart w n => Sys2Proof.Machine.execGtRunStart w n s
  | .gtRunStop w n => Sys2Proof.Machine.execGtRunStop w n s
  | .gtCountLoad w n v => Sys2Proof.Machine.execGtCountLoad w n v s
  | .gtCtrlWrite w n v => Sys2Proof.Machine.execGtCtrlWrite w n v s
  | .gtCompareMatch n c => Sys2Proof.Machine.execGtCompareMatch n c s
  | .gtWrap n => Sys2Proof.Machine.execGtWrap n s
  | .whlEnableOn w d => Sys2Proof.Machine.execWhlEnableOn w d s
  | .whlEnableOff w d => Sys2Proof.Machine.execWhlEnableOff w d s
  | .toothEdge d rise t dir => Sys2Proof.Machine.execToothEdge d rise t dir s
  | .quadCountEdge d b rise t => Sys2Proof.Machine.execQuadCountEdge d b rise t s
  | .indexEdge d rise t => Sys2Proof.Machine.execIndexEdge d rise t s
  | .virtualTooth d => Sys2Proof.Machine.execVirtualTooth d s
  | .gapDeadlineMiss d => Sys2Proof.Machine.execGapDeadlineMiss d s
  | .stall d => Sys2Proof.Machine.execStall d s
  | .freewheelExpiry d => Sys2Proof.Machine.execFreewheelExpiry d s
  | .plausCheck d => Sys2Proof.Machine.execPlausCheck d s
  | .whlCntClr w d v => Sys2Proof.Machine.execWhlCntClr w d v s
  | .evtEnableOn w n => Sys2Proof.Machine.execEvtEnableOn w n s
  | .evtEnableOff w n => Sys2Proof.Machine.execEvtEnableOff w n s
  | .lanRunOn w => Sys2Proof.Machine.execLanRunOn w s
  | .lanRunOff w => Sys2Proof.Machine.execLanRunOff w s
  | .evtTimingWrite w n v => Sys2Proof.Machine.execEvtTimingWrite w n v s
  | .arm w n => Sys2Proof.Machine.execArm w n s
  | .cancel w n => Sys2Proof.Machine.execCancel w n s
  | .cut w n => Sys2Proof.Machine.execCut w n s
  | .evtClear w n => Sys2Proof.Machine.execEvtClear w n s
  | .lanClear w => Sys2Proof.Machine.execLanClear w s
  | .lanternRefresh n => Sys2Proof.Machine.execLanternRefresh n s
  | .handover n => Sys2Proof.Machine.execHandover n s
  | .handoverFallback n => Sys2Proof.Machine.execHandoverFallback n s
  | .evtStart n => Sys2Proof.Machine.execEvtStart n s
  | .evtEnd n => Sys2Proof.Machine.execEvtEnd n s
  | .evtRearm n => Sys2Proof.Machine.execEvtRearm n s
  | .freewheelLimit n => Sys2Proof.Machine.execFreewheelLimit n s
  | .demandInterval => Sys2Proof.Machine.execDemandInterval s
  | .vmEnableOn w v => Sys2Proof.Machine.execVmEnableOn w v s
  | .vmEnableOff w v => Sys2Proof.Machine.execVmEnableOff w v s
  | .axRunOn w a => Sys2Proof.Machine.execAxRunOn w a s
  | .axRunOff w a => Sys2Proof.Machine.execAxRunOff w a s
  | .resume w a => Sys2Proof.Machine.execResume w a s
  | .axClear w a => Sys2Proof.Machine.execAxClear w a s
  | .axProfNextWrite w a v => Sys2Proof.Machine.execAxProfNextWrite w a v s
  | .axEvaluation a => Sys2Proof.Machine.execAxEvaluation a s
  | .axPublish a => Sys2Proof.Machine.execAxPublish a s
  | .nodeReadEccFatal a => Sys2Proof.Machine.execNodeReadEccFatal a s
  | .coastEnd a => Sys2Proof.Machine.execCoastEnd a s
  | .nmStale n => Sys2Proof.Machine.execNmStale n s
  | .ocuEnableOn w u => Sys2Proof.Machine.execOcuEnableOn w u s
  | .ocuEnableOff w u => Sys2Proof.Machine.execOcuEnableOff w u s
  | .ocuBindWrite w u v => Sys2Proof.Machine.execOcuBindWrite w u v s
  | .ocuCapture u => Sys2Proof.Machine.execOcuCapture u s
  | .ocuTargetExpiry u => Sys2Proof.Machine.execOcuTargetExpiry u s
  | .ocuFwCorr w u v => Sys2Proof.Machine.execOcuFwCorr w u v s
  | .ocuCntClr w u v => Sys2Proof.Machine.execOcuCntClr w u v s
  | .chModeWrite w c v => Sys2Proof.Machine.execChModeWrite w c v s
  | .chEnWrite w c v => Sys2Proof.Machine.execChEnWrite w c v s
  | .chGpioOutWrite w c v => Sys2Proof.Machine.execChGpioOutWrite w c v s
  | .gpioInputEdge c rise t => Sys2Proof.Machine.execGpioInputEdge c rise t s
  | .captureEdge c rise t => Sys2Proof.Machine.execCaptureEdge c rise t s
  | .lockoutEnd c => Sys2Proof.Machine.execLockoutEnd c s
  | .periodEdge c rise t => Sys2Proof.Machine.execPeriodEdge c rise t s
  | .noSignal c => Sys2Proof.Machine.execNoSignal c s
  | .freqGateEnd c => Sys2Proof.Machine.execFreqGateEnd c s
  | .pushLo port c v => Sys2Proof.Machine.execPushLo port c v s
  | .pushHi port c v => Sys2Proof.Machine.execPushHi port c v s
  | .popLo port c => Sys2Proof.Machine.execPopLo port c s
  | .popHi port c => Sys2Proof.Machine.execPopHi port c s
  | .chQPush w c v => Sys2Proof.Machine.execChQPush w c v s
  | .chQPop w c v => Sys2Proof.Machine.execChQPop w c v s
  | .chQFlush w c v => Sys2Proof.Machine.execChQFlush w c v s
  | .compareArm c => Sys2Proof.Machine.execCompareArm c s
  | .comparePlay c => Sys2Proof.Machine.execComparePlay c s
  | .chCntClr w c v => Sys2Proof.Machine.execChCntClr w c v s
  | .ptStepHandover c => Sys2Proof.Machine.execPtStepHandover c s
  | .ptStepPlay c => Sys2Proof.Machine.execPtStepPlay c s
  | .ptStepEnd c => Sys2Proof.Machine.execPtStepEnd c s
  | .sdFrameResult c samples t => Sys2Proof.Machine.execSdFrameResult c samples t s
  | .sdClkLoss c => Sys2Proof.Machine.execSdClkLoss c s
  | .sdClockReturn c => Sys2Proof.Machine.execSdClockReturn c s
  | .movRunOn w n => Sys2Proof.Machine.execMovRunOn w n s
  | .movRunOff w n => Sys2Proof.Machine.execMovRunOff w n s
  | .trigger w n => Sys2Proof.Machine.execTrigger w n s
  | .movClear w n => Sys2Proof.Machine.execMovClear w n s
  | .ringAppend n addr => Sys2Proof.Machine.execRingAppend n addr s
  | .movTriggerArrival n => Sys2Proof.Machine.execMovTriggerArrival n s
  | .movDescFetch n ecc => Sys2Proof.Machine.execMovDescFetch n ecc s
  | .movElement n ecc => Sys2Proof.Machine.execMovElement n ecc s
  | .pwmRunOn w o => Sys2Proof.Machine.execPwmRunOn w o s
  | .pwmRunOff w o => Sys2Proof.Machine.execPwmRunOff w o s
  | .pwmStart o => Sys2Proof.Machine.execPwmStart o s
  | .pwmBoundary o => Sys2Proof.Machine.execPwmBoundary o s
  | .peak o => Sys2Proof.Machine.execPeak o s
  | .pwmEdgePlay o j => Sys2Proof.Machine.execPwmEdgePlay o j s
  | .pwmShadowWrite w o obj v => Sys2Proof.Machine.execPwmShadowWrite w o obj v s
  | .pwmPeriodImm w o v => Sys2Proof.Machine.execPwmPeriodImm w o v s
  | .pwmChOffWrite w o v => Sys2Proof.Machine.execPwmChOffWrite w o v s
  | .pwmCntClr w o v => Sys2Proof.Machine.execPwmCntClr w o v s
  | .snCrossing o j rise t => Sys2Proof.Machine.execSnCrossing o j rise t s
  | .tripValid o b => Sys2Proof.Machine.execTripValid o b s
  | .trpRearm w o v => Sys2Proof.Machine.execTrpRearm w o v s
  | .trpRearmRb w o v => Sys2Proof.Machine.execTrpRearmRb w o v s
  | .latch w o => Sys2Proof.Machine.execLatch w o s
  | .trpClear w o => Sys2Proof.Machine.execTrpClear w o s
  | .readbackFault o j => Sys2Proof.Machine.execReadbackFault o j s
  | .turRunOn w e => Sys2Proof.Machine.execTurRunOn w e s
  | .turRunOff w e => Sys2Proof.Machine.execTurRunOff w e s
  | .roundBoundary e => Sys2Proof.Machine.execRoundBoundary e s
  | .nop x w f => Sys2Proof.Machine.execNop x w f s
  | .ldi x w f => Sys2Proof.Machine.execLdi x w f s
  | .ldhi x w f => Sys2Proof.Machine.execLdhi x w f s
  | .addi x w f => Sys2Proof.Machine.execAddi x w f s
  | .mov x w f => Sys2Proof.Machine.execMov x w f s
  | .alu x w f => Sys2Proof.Machine.execAlu x w f s
  | .br x w f => Sys2Proof.Machine.execBr x w f s
  | .jal x w f => Sys2Proof.Machine.execJal x w f s
  | .jr x w f => Sys2Proof.Machine.execJr x w f s
  | .waitpin x w f => Sys2Proof.Machine.execWaitpin x w f s
  | .waitflag x w f => Sys2Proof.Machine.execWaitflag x w f s
  | .waittime x w f => Sys2Proof.Machine.execWaittime x w f s
  | .setpin x w f => Sys2Proof.Machine.execSetpin x w f s
  | .shout x w f => Sys2Proof.Machine.execShout x w f s
  | .shin x w f => Sys2Proof.Machine.execShin x w f s
  | .take x w f => Sys2Proof.Machine.execTake x w f s
  | .give x w f => Sys2Proof.Machine.execGive x w f s
  | .push x w f => Sys2Proof.Machine.execPush x w f s
  | .pull x w f => Sys2Proof.Machine.execPull x w f s
  | .outat x w f => Sys2Proof.Machine.execOutat x w f s
  | .flag x w f => Sys2Proof.Machine.execFlag x w f s
  | .signal x w f => Sys2Proof.Machine.execSignal x w f s
  | .crcs x w f => Sys2Proof.Machine.execCrcs x w f s
  | .halt x w f => Sys2Proof.Machine.execHalt x w f s
  | .timedEdgePlay x => Sys2Proof.Machine.execTimedEdgePlay x s
  | .ctxRunWrite w x v => Sys2Proof.Machine.execCtxRunWrite w x v s
  | .release w x => Sys2Proof.Machine.execRelease w x s
  | .ctxClear w x => Sys2Proof.Machine.execCtxClear w x s
  | .txPortPush port x v => Sys2Proof.Machine.execTxPortPush port x v s
  | .rxPortPop port x => Sys2Proof.Machine.execRxPortPop port x s
  | .ctxTxqPush w x v => Sys2Proof.Machine.execCtxTxqPush w x v s
  | .ctxRxqPop w x v => Sys2Proof.Machine.execCtxRxqPop w x v s
  | .ctxQFlush w x v => Sys2Proof.Machine.execCtxQFlush w x v s
  | .turFlagSet w e v => Sys2Proof.Machine.execTurFlagSet w e v s
  | .turFlagClr w e v => Sys2Proof.Machine.execTurFlagClr w e v s
  | .turXflagSet w v => Sys2Proof.Machine.execTurXflagSet w v s
  | .turXflagClr w v => Sys2Proof.Machine.execTurXflagClr w v s
  | .ecall core => Sys2Proof.Machine.execEcall core s
  | .ebreak core compressed => Sys2Proof.Machine.execEbreak core compressed s
  | .xret core => Sys2Proof.Machine.execXret core s
  | .wfi core => Sys2Proof.Machine.execWfi core s
  | .fence core w => Sys2Proof.Machine.execFence core w s
  | .fenceI core w => Sys2Proof.Machine.execFenceI core w s
  | .csrAccess core w => Sys2Proof.Machine.execCsrAccess core w s
  | .xssTopRead core w => Sys2Proof.Machine.execXssTopRead core w s
  | .xssTopWrite core w => Sys2Proof.Machine.execXssTopWrite core w s
  | .xssBotRead core w => Sys2Proof.Machine.execXssBotRead core w s
  | .xssBotWrite core w => Sys2Proof.Machine.execXssBotWrite core w s
  | .shadowCall core w => Sys2Proof.Machine.execShadowCall core w s
  | .shadowReturn core w => Sys2Proof.Machine.execShadowReturn core w s
  | .atomic core w => Sys2Proof.Machine.execAtomic core w s
  | .instruction core w e => Sys2Proof.Machine.execInstruction core w e s
  | .interruptEntry core => Sys2Proof.Machine.execInterruptEntry core s
  | .coreWake core => Sys2Proof.Machine.execCoreWake core s
  | .lockstepMismatch => Sys2Proof.Machine.execLockstepMismatch s
  | .dapHalt core => Sys2Proof.Machine.execDapHalt core s
  | .dapResume core => Sys2Proof.Machine.execDapResume core s
  | .dapStep core => Sys2Proof.Machine.execDapStep core s
  | .ebreakHalt core v => Sys2Proof.Machine.execEbreakHalt core v s
  | .readReg core reg => Sys2Proof.Machine.execReadReg core reg s
  | .writeReg core reg v => Sys2Proof.Machine.execWriteReg core reg v s
  | .setAddr core v => Sys2Proof.Machine.execSetAddr core v s
  | .readMem core => Sys2Proof.Machine.execReadMem core s
  | .writeMem core v => Sys2Proof.Machine.execWriteMem core v s
  | .dapStatus core => Sys2Proof.Machine.execDapStatus core s
  | .sprRelease w n v => Sys2Proof.Machine.execSprRelease w n v s
  | .sprCntClr w n v => Sys2Proof.Machine.execSprCntClr w n v s
  | .keepCntClr w v => Sys2Proof.Machine.execKeepCntClr w v s
  | .dbgTraceLostRead => Sys2Proof.Machine.execDbgTraceLostRead s
  | .claimN core => Sys2Proof.Machine.execClaimN core s
  | .claimF core => Sys2Proof.Machine.execClaimF core s
  | .peek core => Sys2Proof.Machine.execPeek core s
  | .complete core v => Sys2Proof.Machine.execComplete core v s
  | .belPendSet w side j v => Sys2Proof.Machine.execBelPendSet w side j v s
  | .belPendClr w side j v => Sys2Proof.Machine.execBelPendClr w side j v s
  | .belEnSet w side j v => Sys2Proof.Machine.execBelEnSet w side j v s
  | .belEnClr w side j v => Sys2Proof.Machine.execBelEnClr w side j v s
  | .belSrcCfgWrite w id v => Sys2Proof.Machine.execBelSrcCfgWrite w id v s
  | .belCntClr w side v => Sys2Proof.Machine.execBelCntClr w side v s
  | .groupFire side g => Sys2Proof.Machine.execGroupFire side g s
  | .hostTimerMatch n => Sys2Proof.Machine.execHostTimerMatch n s
  | .laneAlignmentLoss side lane => Sys2Proof.Machine.execLaneAlignmentLoss side lane s
  | .ts1Received side => Sys2Proof.Machine.execTs1Received side s
  | .ts2Received side => Sys2Proof.Machine.execTs2Received side s
  | .receiverAligned side => Sys2Proof.Machine.execReceiverAligned side s
  | .frameDrop side f => Sys2Proof.Machine.execFrameDrop side f s
  | .link side f => Sys2Proof.Machine.execLink side f s
  | .linkDue side => Sys2Proof.Machine.execLinkDue side s
  | .replayTimeout side => Sys2Proof.Machine.execReplayTimeout side s
  | .hello side f => Sys2Proof.Machine.execHello side f s
  | .state side f => Sys2Proof.Machine.execState side f s
  | .beacon f => Sys2Proof.Machine.execBeacon f s
  | .timeReport f => Sys2Proof.Machine.execTimeReport f s
  | .strobeCal f => Sys2Proof.Machine.execStrobeCal f s
  | .dicReq f => Sys2Proof.Machine.execDicReq f s
  | .dicRsp f => Sys2Proof.Machine.execDicRsp f s
  | .cycIn f => Sys2Proof.Machine.execCycIn f s
  | .cycOut f => Sys2Proof.Machine.execCycOut f s
  | .event side f => Sys2Proof.Machine.execEvent side f s
  | .fwLoad f => Sys2Proof.Machine.execFwLoad f s
  | .fwStatus f => Sys2Proof.Machine.execFwStatus f s
  | .persRestore f => Sys2Proof.Machine.execPersRestore f s
  | .persStore f => Sys2Proof.Machine.execPersStore f s
  | .safeA f => Sys2Proof.Machine.execSafeA f s
  | .safeB f => Sys2Proof.Machine.execSafeB f s
  | .safeStatus f => Sys2Proof.Machine.execSafeStatus f s
  | .resetReq side f => Sys2Proof.Machine.execResetReq side f s
  | .echoMessage side f => Sys2Proof.Machine.execEchoMessage side f s
  | .safeAStore core v => Sys2Proof.Machine.execSafeAStore core v s
  | .safeBStore core v => Sys2Proof.Machine.execSafeBStore core v s
  | .safeDiscrepancy b => Sys2Proof.Machine.execSafeDiscrepancy b s
  | .barrierLoss side => Sys2Proof.Machine.execBarrierLoss side s
  | .cstopLimit => Sys2Proof.Machine.execCstopLimit s
  | .strobeSend => Sys2Proof.Machine.execStrobeSend s
  | .strobeCapture n => Sys2Proof.Machine.execStrobeCapture n s
  | .calibrationStart => Sys2Proof.Machine.execCalibrationStart s
  | .cal w => Sys2Proof.Machine.execCal w s
  | .calibrationComplete rtt => Sys2Proof.Machine.execCalibrationComplete rtt s
  | .barEchoCmd w side => Sys2Proof.Machine.execBarEchoCmd w side s
  | .barClear w side => Sys2Proof.Machine.execBarClear w side s
  | .portLinkChange p up => Sys2Proof.Machine.execPortLinkChange p up s
  | .gptpSync p f => Sys2Proof.Machine.execGptpSync p f s
  | .gptpAnnounce p f => Sys2Proof.Machine.execGptpAnnounce p f s
  | .pdelayMeasurement p t1 t2 t3 t4 => Sys2Proof.Machine.execPdelayMeasurement p t1 t2 t3 t4 s
  | .arpRequest p mac ip target => Sys2Proof.Machine.execArpRequest p mac ip target s
  | .vlpCyclic p f => Sys2Proof.Machine.execVlpCyclic p f s
  | .vlpDicReq p f => Sys2Proof.Machine.execVlpDicReq p f s
  | .cbStreamReset mac => Sys2Proof.Machine.execCbStreamReset mac s
  | .gateEntryChange p => Sys2Proof.Machine.execGateEntryChange p s
  | .cycleSample n => Sys2Proof.Machine.execCycleSample n s
  | .cycleStart n => Sys2Proof.Machine.execCycleStart n s
  | .cycleTx n => Sys2Proof.Machine.execCycleTx n s
  | .netRunOn w => Sys2Proof.Machine.execNetRunOn w s
  | .netRunOff w => Sys2Proof.Machine.execNetRunOff w s
  | .redEnWrite w v => Sys2Proof.Machine.execRedEnWrite w v s
  | .rejoin w => Sys2Proof.Machine.execRejoin w s
  | .yield w => Sys2Proof.Machine.execYield w s
  | .redClear w => Sys2Proof.Machine.execRedClear w s
  | .netCntClr w which v => Sys2Proof.Machine.execNetCntClr w which v s
  | .canEnWrite w k v => Sys2Proof.Machine.execCanEnWrite w k v s
  | .nmtCommand k cmd node => Sys2Proof.Machine.execNmtCommand k cmd node s
  | .sdoRequest k d => Sys2Proof.Machine.execSdoRequest k d s
  | .sdoTimeout k => Sys2Proof.Machine.execSdoTimeout k s
  | .sync k => Sys2Proof.Machine.execSync k s
  | .rpdo k cob d => Sys2Proof.Machine.execRpdo k cob d s
  | .tpdoEventTimer k j => Sys2Proof.Machine.execTpdoEventTimer k j s
  | .heartbeatProduce k => Sys2Proof.Machine.execHeartbeatProduce k s
  | .heartbeatConsume k j expired => Sys2Proof.Machine.execHeartbeatConsume k j expired s
  | .busOffRecovery k => Sys2Proof.Machine.execBusOffRecovery k s
  | .canCntClr w k v => Sys2Proof.Machine.execCanCntClr w k v s
  | .erroredFrame p => Sys2Proof.Machine.execErroredFrame p s
  | .grandmasterSync => Sys2Proof.Machine.execGrandmasterSync s
  | .announceReceiptTimeout p => Sys2Proof.Machine.execAnnounceReceiptTimeout p s
  | .pdelayResponse p seq t2 t3 => Sys2Proof.Machine.execPdelayResponse p seq t2 t3 s
  | .canBusError k tx => Sys2Proof.Machine.execCanBusError k tx s
  | .sto w => Sys2Proof.Machine.execSto w s
  | .ss1 w => Sys2Proof.Machine.execSs1 w s
  | .ss1Timeout => Sys2Proof.Machine.execSs1Timeout s
  | .safRelease w v => Sys2Proof.Machine.execSafRelease w v s
  | .clockMonitorFault k => Sys2Proof.Machine.execClockMonitorFault k s
  | .causeCleared n => Sys2Proof.Machine.execCauseCleared n s
  | .stoTestPulse b ok => Sys2Proof.Machine.execStoTestPulse b ok s
  | .stoReadbackFault => Sys2Proof.Machine.execStoReadbackFault s
  | .kaReadbackFault => Sys2Proof.Machine.execKaReadbackFault s
  | .overtemp => Sys2Proof.Machine.execOvertemp s
  | .safWdKick w key => Sys2Proof.Machine.execSafWdKick w key s
  | .fieldWatchdogExpiry => Sys2Proof.Machine.execFieldWatchdogExpiry s
  | .fieldWatchdogWarning => Sys2Proof.Machine.execFieldWatchdogWarning s
  | .safDiagSeq w v => Sys2Proof.Machine.execSafDiagSeq w v s
  | .diagIntervalExpiry => Sys2Proof.Machine.execDiagIntervalExpiry s
  | .safKeyCommit w v => Sys2Proof.Machine.execSafKeyCommit w v s
  | .blowDbgLock w => Sys2Proof.Machine.execBlowDbgLock w s
  | .blowSafLock w => Sys2Proof.Machine.execBlowSafLock w s
  | .safLogAppend w v => Sys2Proof.Machine.execSafLogAppend w v s
  | .logRecordWrite => Sys2Proof.Machine.execLogRecordWrite s
  | .safCntClr w v => Sys2Proof.Machine.execSafCntClr w v s
  | .por side bank33 unpowered vddio33 => Sys2Proof.Machine.execPor side bank33 unpowered vddio33 s
  | .bor side => Sys2Proof.Machine.execBor side s
  | .pin side ns => Sys2Proof.Machine.execPin side ns s
  | .wdr side => Sys2Proof.Machine.execWdr side s
  | .swsOwn w side => Sys2Proof.Machine.execSwsOwn w side s
  | .swsOther w side => Sys2Proof.Machine.execSwsOther w side s
  | .swf w side => Sys2Proof.Machine.execSwf w side s
  | .railWarningAssert r => Sys2Proof.Machine.execRailWarningAssert r s
  | .railWarningDeassert r => Sys2Proof.Machine.execRailWarningDeassert r s
  | .pwrRearm w v => Sys2Proof.Machine.execPwrRearm w v s
  | .holdRequest w => Sys2Proof.Machine.execHoldRequest w s
  | .runRequest w => Sys2Proof.Machine.execRunRequest w s
  | .sleepRequest w => Sys2Proof.Machine.execSleepRequest w s
  | .sleepEntry => Sys2Proof.Machine.execSleepEntry s
  | .wake bar => Sys2Proof.Machine.execWake bar s
  | .wakeStage => Sys2Proof.Machine.execWakeStage s
  | .hostSleepRequest w => Sys2Proof.Machine.execHostSleepRequest w s
  | .hostSleepEntry => Sys2Proof.Machine.execHostSleepEntry s
  | .hostWake bar => Sys2Proof.Machine.execHostWake bar s
  | .hostWdKick w key => Sys2Proof.Machine.execHostWdKick w key s
  | .hostWatchdogExpiry => Sys2Proof.Machine.execHostWatchdogExpiry s
  | .hostWatchdogWarning => Sys2Proof.Machine.execHostWatchdogWarning s
  | .creditAdd => Sys2Proof.Machine.execCreditAdd s
  | .governorGrant => Sys2Proof.Machine.execGovernorGrant s
  | .pwrUnitStop w v => Sys2Proof.Machine.execPwrUnitStop w v s
  | .reloadField w => Sys2Proof.Machine.execReloadField w s
  | .bootkeyCommit w v => Sys2Proof.Machine.execBootkeyCommit w v s
  | .pcieStateChange up perst msix => Sys2Proof.Machine.execPcieStateChange up perst msix s

end Sys2Proof.Machine
end

