-- ==== Sys2Proof/Machine/Tick.lean ====
section
/-! DEFINITION. One period of FCLK, which a step on an empty queue takes (log 2). It ends the present tick with what comes after the
tick's commands, advances the clocks, and begins the next tick with what comes before its commands. Each happening is the meaning of
its row. Edges on pins, ECC findings, readbacks, frames from outside and the instruction words of the cores stay the sender's. -/

namespace Sys2Proof.Machine

/-- The members of a list that are below n. -/
def fins (n : Nat) (l : List Nat) : List (Fin n) := l.filterMap (fun k => if h : k < n then some ⟨k, h⟩ else none)

/-- The meaning of a command, with its operands. -/
abbrev Act := State → Host.Outcome State Fault Refusal

/-- A command when a condition holds. -/
def due (b : Bool) (c : Act) : List Act := if b then [c] else []

/-- What a moment of the tick brings: the meanings to run, from the machine as it stands then. -/
abbrev Stage := Mach → List Act

/-- A change of the machine, when a condition holds. -/
def dueDo (b : Bool) (f : Mach → Mach) : List Act := due b (done f)

/-- A multiple of `per` lies after `old` and not after `new`. -/
def passed (old new per : Nat) : Bool := decide (old / max 1 per < new / max 1 per)

/-- The number n of the latest instant off + n × per ns that a line time reaches on its way from `old` to `new` half nanoseconds
(R88). -/
def reached (old new : Nat) (off : Int) (per : Nat) : Option Nat :=
  let p : Int := 2 * max 1 per
  let a := ((new : Int) - 2 * off) / p
  if ((old : Int) - 2 * off) / p < a ∧ 0 ≤ a then some a.toNat else none

/-! ## Clocks -/

/-- Host line time runs free or slews by at most 2 ns a tick (R445, log 2); in host SLEEP it advances every 128th tick. -/
def hostClock (m : Mach) : Mach :=
  let s := m.tb.sclk + 2
  let g := m.net.gptp
  let slew := clampInt (-2) 2 g.slew
  let d : Int := if m.pwr.hSleep then (if s % 256 = 0 then 640 else 0) else 5 + 2 * slew
  let m1 := { m with tb := { m.tb with sclk := s, hlt2 := ((m.tb.hlt2 : Int) + d).toNat } }
  if m.pwr.hSleep ∨ slew = 0 then m1 else { m1 with net := { m1.net with gptp := { g with slew := g.slew - slew } } }

/-- Cycle counters of the cores that are clocked: SCLK for Spire, KCLK, three to two FCLK, for Keep (R360). -/
def coreClock (m : Mach) : Mach :=
  m.each [0, 1, 2] (fun i m =>
    let c := m.core i
    if c.gated || c.held || c.halted then m
    else m.setCore i { c with cycle := (c.cycle + (if i = 2 then 1 + m.tb.ftb % 2 else 2)) % 2 ^ 64 })

/-- Silence and due times at both ends of the barrier. -/
def barClock (s : Side) (m : Mach) : Mach :=
  m.updEnd s (fun e => { e with
    quiet := e.quiet + 1
    sinceLink := e.sinceLink + 1
    sinceAck := if e.replay.isEmpty then 0 else e.sinceAck + 1 })

/-! ## Turret engines (R321) -/

/-- The constructor of each opcode, 0x00 to 0x17. -/
def turRows : List (Fin 128 → BitVec 27 → Fetch → Act) :=
  [execNop, execLdi, execLdhi, execAddi, execMov, execAlu, execBr, execJal, execJr, execWaitpin, execWaitflag, execWaittime, execSetpin, execShout, execShin, execTake,
   execGive, execPush, execPull, execOutat, execFlag, execSignal, execCrcs, execHalt]

/-- The instruction that a context issues: the word at its PC. -/
def turIssue (m : Mach) (x : Nat) : List Act :=
  match fins 128 [x] with
  | [c] =>
    let w := turWord m (x / 16) (m.rd (R.CTX_PC x))
    due (m.ctxState x == 1 && !(m.ctx x).used) ((turRows.getD (w / 2 ^ 27) execNop) c (BitVec.ofNat 27 w) .clean)
  | _ => []

/-- One tick of an engine: a round begins when the last one has ended; its slots fall in its first ticks. -/
def turTick (e : Fin 8) (s : Mach × List Act) : Mach × List Act :=
  let m := s.1
  let x := m.engine e.val
  if m.fieldStill || !(x.st == 2 || (x.st == 1 && x.granted)) then s
  else if x.left = 0 then
    let m1 := turRound e.val m
    let l := (ctxsOf e.val).filter (fun c => m1.ctxState c == 1)
    (m.setEngine e.val { x with left := max 4 l.length - 1, slots := l.drop 1 },
     s.2 ++ [execRoundBoundary e] ++ (l.take 1).flatMap (turIssue m1))
  else
    (m.setEngine e.val { x with left := x.left - 1, slots := x.slots.drop 1 }, s.2 ++ (x.slots.take 1).flatMap (turIssue m))

/-! ## The barrier (R416 to R437) -/

/-- The command that the arrival of a frame at an end is, by its TYPE. -/
def frameRow (s : Side) (b : List Byte) : Act :=
  let f : LinkFrame := ⟨true, b⟩
  match fieldAt 0 1 b with
  | 1 => execLink s f
  | 2 => execHello s f
  | 3 => execState s f
  | 4 => execBeacon f
  | 5 => execTimeReport f
  | 6 => execStrobeCal f
  | 7 => execDicReq f
  | 8 => execDicRsp f
  | 9 => execCycIn f
  | 10 => execCycOut f
  | 11 => execEvent s f
  | 12 => execFwLoad f
  | 13 => execFwStatus f
  | 14 => execPersRestore f
  | 15 => execPersStore f
  | 16 => execSafeA f
  | 17 => execSafeB f
  | 18 => execSafeStatus f
  | 19 => execResetReq s f
  | 20 => execEchoMessage s f
  | _ => execFrameDrop s f

/-- Each end sends at most one message a tick. -/
def barPump (m : Mach) : Mach := linkPump .field (linkPump .host (fwPump m))

/-- What is on the wires arrives. -/
def barArrivals (m : Mach) : List Act :=
  (m.barEnd .host).wire.map (frameRow .field) ++ (m.barEnd .field).wire.map (frameRow .host)

def barTaken (m : Mach) : Mach := (m.updEnd .host (fun e => { e with wire := [] })).updEnd .field (fun e => { e with wire := [] })

/-- An end whose side has left reset or SLEEP trains; the field's wake comes to that at its stage D (R523). -/
def barRelease (s : Side) (m : Mach) : Mach :=
  if m.barState s = 0 ∧ !m.inReset s ∧ !(match s with | .host => m.pwr.hSleep | .field => m.pwr.fSleep || m.pwr.stage == 4) then barTrain s m else m

/-! ## The end of a tick: what comes after its commands -/

/-- A boundary or start of an octet that no write of the tick called for (R280). -/
def lateBoundaries (m : Mach) : List Act := ((m.octets.map (·.1)).filter (octDue m)).map (fun o => done (octCaught o))

/-- What the octets' boundaries and late writes of the tick count, raise and trigger, where no stop came (R280). -/
def octReports (m : Mach) : List Act := ((m.octets.filter (fun e => !e.2.owed.isEmpty)).map (·.1)).map (fun o => done (octReport o))

/-- The trips of the tick (R308). -/
def lateTrips (m : Mach) : List Act := ((m.octets.filter (fun e => !e.2.trips.isEmpty)).map (·.1)).map (fun o => done (octTrips o))

/-- The middle of a centre-aligned period. -/
def latePeaks (m : Mach) : List Act :=
  (fins 16 (m.octets.map (·.1))).flatMap (fun (o : Fin 16) =>
    let x := m.octet o
    due ((x.st == 3 || x.st == 4) && m.pwmCentre o && (x.b + x.p / 2) / 128 == m.pnow) (execPeak o))

/-- Handovers of the tick (R165). -/
def lateHandovers (m : Mach) : List Act :=
  if m.fieldStill then []
  else
    (fins 1024 (m.evts.map (·.1))).flatMap (fun (n : Fin 1024) =>
      due (handoverDue m n) (if refreshPending m n then execHandoverFallback n else execHandover n))

/-- How far an axis stands down its chain of master axes (R199). -/
def axDepth (m : Mach) : Nat → Nat → Nat
  | 0, _ => 0
  | n + 1, a => if axKind m a = 4 then axDepth m n (axNum m a) + 1 else 0

/-- The evaluation of an axis for an instant was made by a command. -/
def axDone (m : Mach) (a te : Nat) : Bool :=
  match (m.ax a).pend with
  | some e => e.te == te
  | none => false

/-- Axes whose evaluation instant lies 48 T ahead, masters before followers (R197, R199). -/
def axesDue (m : Mach) : List (Fin 128) :=
  let l := (fins 128 (axesUp m)).filter (fun a : Fin 128 =>
    (m.now + 48) % max 1 (m.rd (R.AX_EVAL_PER a)) == 0 && !axDone m a (m.now + 48))
  (List.range 9).flatMap (fun k => l.filter (fun a => axDepth m 8 a == k))

def lateAxes (m : Mach) : List Act :=
  if m.fieldStill then [] else (axesDue m).map (fun (a : Fin 128) => execAxEvaluation ⟨a, false⟩)

/-- Descriptors to fetch and triggers that came. -/
def lateTriggers (m : Mach) : List Act :=
  if m.fieldStill then []
  else
    (fins 16 (m.movers.map (·.1))).flatMap (fun (n : Fin 16) =>
      due (m.movState n == 1 && (m.mov n).fetch.isSome) (execMovDescFetch n false) ++
      List.replicate (m.mov n).arrived (execMovTriggerArrival n))

/-- The grant of the tick, and movers whose element begins to wait for a queue (R259, R260). -/
def lateElement (m : Mach) : List Act :=
  if m.fieldStill then []
  else
    (fins 16 (m.movers.map (·.1))).flatMap (fun (n : Fin 16) =>
      due (m.movState n == 3 && movHas m n && movBlocked m n) (execMovElement n false)) ++
    (fins 16 (movGrant m).toList).map (fun (k : Fin 16) => execMovElement k false)

/-- Channels that measure a period or a frequency. -/
def pfChannels (m : Mach) : List (Fin 128) := (List.finRange 128).filter (fun (c : Fin 128) => m.chMode c == 4 && m.chEn c)

/-- A measurement that its timeout ends (R241). -/
def lateMeasures (m : Mach) : List Act :=
  if m.fieldStill then []
  else
    (pfChannels m).flatMap (fun (c : Fin 128) =>
      let x := m.chan c
      let pf := m.rd (R.CH_PF_CFG c)
      let quiet := decide (max (match x.rise with
        | some t => t / 8
        | none => x.from_) x.from_ + 400000 * bits 15 8 pf ≤ m.now)
      due (!bit 1 pf && !x.noSig && quiet) (execNoSignal c))

/-- Queues that the tick left too full (R240). -/
def lateTrims (m : Mach) : List Act :=
  (m.chans.filter (fun e => decide (16 < e.2.q.length))).map (fun e => done (chTrim e.1))

/-- Refresh batches that are complete (R166, R179). -/
def lateRefreshes (m : Mach) : List Act :=
  if m.fieldStill then []
  else
    (fins 32 (m.lan.lanes.map (·.1))).flatMap (fun (n : Fin 32) =>
      match (m.lane n).busy with
      | some b => due (decide (b.fin ≤ m.now)) (execLanternRefresh n)
      | none => [])

/-- Step pulses that end within the tick. -/
def latePulseEnds (m : Mach) : List Act :=
  if m.fieldStill then []
  else
    (fins 128 (m.chans.map (·.1))).flatMap (fun (c : Fin 128) =>
      match (m.chan c).pt.active with
      | some t => due (m.chMode c == 6 && decide (t < (m.now8 : Int) + 8)) (execPtStepEnd c)
      | none => [])

/-- Steps that are handed to the output stage 16 T before their instants (R245). -/
def latePulseHandovers (m : Mach) : List Act :=
  if m.fieldStill then []
  else
    (fins 128 (m.chans.map (·.1))).flatMap (fun (c : Fin 128) =>
      match (m.chan c).pt.plan with
      | some (t, _) => due (m.chMode c == 6 && decide (t - 128 ≤ (m.now8 : Int))) (execPtStepHandover c)
      | none => [])

/-- The entries of a COMPARE queue, withdrawn ones first, that play within the tick. -/
def playsNow (m : Mach) (c : Nat) : Nat :=
  let x := m.chan c
  ((x.ghost ++ x.q).takeWhile (fun e => e.armed && m.reached61 e.plays)).length

/-- The pin instants of a context within the tick in order: true for a timed edge, false for a change of PINS or DIRS (R333). -/
def pinOrder : Nat → List Nat → List Nat → List Bool
  | 0, _, _ => []
  | n + 1, d :: ds, t :: ts => if d ≤ t then false :: pinOrder n ds (t :: ts) else true :: pinOrder n (d :: ds) ts
  | n + 1, _ :: ds, [] => false :: pinOrder n ds []
  | n + 1, [], _ :: ts => true :: pinOrder n [] ts
  | _ + 1, [], [] => []

/-- What reaches the pins of a context within the tick. -/
def ctxPlays (m : Mach) (x : Fin 128) : List Act :=
  let ds := ((m.ctx x).drive.takeWhile (fun d => decide (d.t < m.now8 + 8))).map (·.t)
  let ts := ((m.ctx x).timed.takeWhile (edgeDue m)).map (·.t)
  (pinOrder (ds.length + ts.length) ds ts).map (fun b => if b then execTimedEdgePlay x else done (driveNext x))

/-- Output transitions of the tick: COMPARE entries, steps, and what contexts post and put on their pins. -/
def lateTransitions (m : Mach) : List Act :=
  if m.fieldStill then []
  else
    (fins 128 (m.chans.map (·.1))).flatMap (fun (c : Fin 128) =>
      (if m.chMode c = 2 ∧ m.chEn c then List.replicate (playsNow m c) (execComparePlay c) else []) ++
      (match (m.chan c).pt.handed with
       | (t, _) :: _ => due (m.chMode c == 6 && decide (t < (m.now8 : Int) + 8)) (execPtStepPlay c)
       | [] => [])) ++
    (fins 128 (m.ctxs.map (·.1))).flatMap (ctxPlays m)

/-- Transitions that were moved to later instants come to their pins (R238). -/
def outsLand (m : Mach) : Mach := m.each ((m.chans.filter (fun e => !e.2.fut.isEmpty)).map (·.1)) outsReach

/-- Entries that left the queues of ANGLE_OUT channels (R254). -/
def anglesLeft (m : Mach) : Mach :=
  m.each ((m.chans.filter (fun e => e.2.held != 0)).map (·.1) ++ m.evts.map (fun e => evtChan m e.1) ++ m.lan.tails.map (·.c)) angleLeft

/-- The levels of a context's output pins at the end of the tick (R326, R332). -/
def ctxLook (x : Nat) (m : Mach) : Mach :=
  let out := (m.ctx x).oe ||| (m.ctx x).dirs
  let seen := (List.range 8).foldl (fun a i => if bit i out ∧ ((pinChan m x i).map (chLevel m)) = some 1 then a + 2 ^ i else a) 0
  m.updCtx x (fun c => { c with seen := if out = 0 then [] else (seen :: c.seen).take 5 })

/-- The octets' transitions, which come last in their tick (R308). -/
def lateEdges (m : Mach) : List Act :=
  (fins 16 (m.octets.map (·.1))).flatMap (fun (o : Fin 16) =>
    ((m.octet o).edges.filter (fun e => decide (e.t / 8 ≤ m.pnow))).flatMap (fun e =>
      (fins 8 [e.j]).map (fun (j : Fin 8) => execPwmEdgePlay o j)))

/-- The logical level of the channel that blanks class B goes down the octet's two-tick view of it (R298). -/
def octPipe (o : Nat) (m : Mach) : Mach :=
  let l := if trpBSrc m o = 1 then (decide (chLevel m (trpBArg m o) = 1) :: (m.octet o).bPipe).take 2 else []
  m.updOctet o (fun x => { x with bPipe := if l.any id then l else [] })

/-- A tick in which a checked channel is high-impedance ends its run of mismatches (R314). -/
def octReadback (o : Nat) (m : Mach) : Mach :=
  m.each ((List.range 8).filter (fun j => bit j (m.rd (R.TRP_RB_EN o)) && (pinCommand m (8 * o + j)).isNone)) (fun j m =>
    m.updOctet o (fun x => { x with rbFrom := mapSet 0 j (m.pnow + 1) x.rbFrom }))

/-- An octet at the end of a tick: its unblanked ticks, its view of a blanking channel, its checked channels, and what its status objects
will show. -/
def octEnds (o : Nat) (m : Mach) : Mach :=
  let m1 := octReadback o (octPipe o (octQualifies o m))
  if m1.octet o = {} then m1 else octSnap o m1

/-- 16 µs of silence, where no frame of the tick broke it (R434). -/
def lateLoss (m : Mach) : List Act :=
  let silent (s : Side) : Bool := (m.barState s == 2 || m.barState s == 3) && decide (6400 ≤ (m.barEnd s).quiet)
  due (silent .host) (execBarrierLoss .host) ++ due (silent .field) (execBarrierLoss .field)

/-- The partners of the cycle that the tick began are evaluated after its frames (R456). -/
def lateCycle (m : Mach) : List Act := dueDo m.net.cycDue cycleEnd

/-- Flag writes land, the engines issue the instructions of the tick, and their changes of cross-flags apply (R345, R350). -/
def lateEngines : List Stage :=
  [fun m => due (!m.keepHalted && !lclkMode m) (done flagsLand),
   fun m =>
     if lclkMode m then []
     else
       let t := (List.finRange 8).foldl (fun s e => turTick e s) (m, [])
       done (fun _ => t.1) :: t.2,
   fun _ => [done xflagsLand]]

/-- What ends the present tick, in order. -/
def endStages : List Stage :=
  [lateBoundaries, latePeaks, lateAxes, lateHandovers, lateElement, fun _ => [done redoWrites, done framesTake, done barPump],
   fun m => done barTaken :: barArrivals m, fun _ => [done queuesSettle], octReports, lateTrips, lateTriggers, lateLoss, lateCycle] ++
  lateEngines ++
  [lateMeasures, lateTrims, lateRefreshes, fun _ => [done outsLand], latePulseEnds, latePulseHandovers, lateTransitions, lateEdges,
   fun m => dueDo (!m.fieldStill) traceLost, fun _ => [done anglesLeft], fun _ => [done govTick],
   fun _ => [done (fun m => (m.each (List.range 16) octEnds).each (m.ctxs.map (·.1)) ctxLook)], fun _ => [done belTick]]

/-! ## Between two ticks: the clocks -/

/-- What an LCLK edge in LCLK mode lets run again: Keep from its debug halt, from stage C of a wake, or after a reset (R82, R523). -/
def lclkWake (m : Mach) : Mach :=
  let m1 := if (m.core 2).resume then coreGoesOn 2 m else m
  let m2 := if m1.pwr.stage = 3 ∧ m1.pwr.granted then wakeKeep m1 else m1
  if (m2.core 2).held ∧ !m2.inReset .field then m2.updCore 2 (fun c => { c with held := false }) else m2

/-- The records of one tick end with it. -/
def tickForget (m : Mach) : Mach :=
  lanForget { m with
    setNow := []
    incNow := []
    entries := []
    stopped := []
    ranks := []
    movUsed := false }

/-- Virtual masters: FCLK ticks, or FTB that goes on without them; a halt that ends at an LCLK edge holds up to that edge (R193). -/
def vmClock (old m : Mach) : Mach :=
  if old.keepHalted then m.each (List.range 8) (vmHeld (m.now - old.now))
  else if lclkMode m ∨ m.tb.slowFrom.isSome then m
  else m.each (List.range 8) vmTick

/-- The clocks advance by one period of FCLK: the machine, and the timers' happenings. -/
def clocks (m : Mach) : Mach × List (Mach → Mach) :=
  let r := tbTick lclkWake (tickForget m)
  let m1 := vmClock m (coreClock (hostClock r.1))
  let m2 := barRelease .field (barRelease .host (barClock .field (barClock .host (statusShow m1))))
  (m2.each (m2.octets.map (·.1)) octSees, r.2)

/-! ## The begin of a tick: what comes before its commands -/

/-- The governor's credits and the line-time servo. -/
def earlyTime (old m : Mach) : List Act :=
  due (holdoverDue m) execHoldover ++
  due (passed old.now m.now 4000) execCreditAdd

/-- CH_MODE writes of the last tick take effect (R227). -/
def earlyModes (m : Mach) : List Act :=
  (m.chans.filter (fun e => e.2.was.isSome)).map (fun e => done (chModeTakes e.1))

/-- COMPARE entries that were pushed 12 T ago reach the output stage; lockouts end; an internal clock gave no edge for 2 µs. -/
def earlyChannels (m : Mach) : List Act :=
  if m.fieldStill then []
  else
    (fins 128 (m.chans.map (·.1))).flatMap (fun (c : Fin 128) =>
      let x := m.chan c
      (if m.chMode c = 2 ∧ m.chEn c then
        ((x.ghost ++ x.q).filter (fun e => !e.armed && decide (max e.at_ x.enAt + 12 ≤ m.now))).map (fun _ => execCompareArm c)
       else []) ++
      due (match x.lock with
        | some (t, _) => decide (t < m.now)
        | none => false) (execLockoutEnd c)) ++
    (fins 128 ((List.range 32).filter (sdLost m))).map (fun (c : Fin 128) => execSdClkLoss c)

/-- FREQ gates that ended with the last tick (R242). -/
def earlyGates (m : Mach) : List Act :=
  if m.fieldStill then []
  else
    (pfChannels m).flatMap (fun (c : Fin 128) =>
      let pf := m.rd (R.CH_PF_CFG c)
      due (bit 1 pf && decide ((m.chan c).gate + 400 * bits 31 16 pf ≤ m.now)) (execFreqGateEnd c))

/-- Timed edges reach the output stages (R333). -/
def earlyArms (m : Mach) : List Act :=
  if m.fieldStill then []
  else (m.ctxs.filter (fun e => e.2.timed.any (fun t => !t.armed))).map (fun e =>
    done (fun m => m.updCtx e.1 (fun c => { c with timed := edgesArm m.now c.timed })))

/-- Windows that closed, stalls, the end of a freewheel and the plausibility check of one decoder. The stall timeout that R553 lets run
in HUNT has no effect there, for R113 gives HUNT no transition; the check of R144 comes at multiples of 100,000 of FTB, for the spec
gives its period no start (DESIGN CHOICE, log 65). -/
def earlyWheel (m : Mach) (d : Fin 16) : List Act :=
  let st := m.whlState d
  let lag : Rat := (m.now : Rat) - 4
  let closed : Bool := match whlDeadline m d with
    | some e => (st == 2 || st == 3) && decide (e < lag)
    | none => false
  let gap := tblGap (whlTbl m d) (nextEntry (whlTbl m d) (m.whl d).k (m.whl d).back).1
  let stall : Bool := match (m.whl d).hist with
    | h :: _ => (st == 2 || st == 3 || st == 4) && decide (h.t + 400 * (m.rd (R.WHL_STALL_TIMEOUT d) : Rat) < lag)
    | [] => false
  let fw : Bool := match whlFwEnd m d with
    | some t => st == 4 && !stall && decide (t ≤ (m.now : Rat))
    | none => false
  dueDo (stall && closed) (whlStallTick d true) ++ due (stall && !closed) (execStall d) ++
  due (closed && !stall && !gap) (execVirtualTooth d) ++ due (closed && !stall && gap) (execGapDeadlineMiss d) ++
  dueDo (closed && !stall) (fun m => whlExpire 9 d.val ((m.now : Rat) - 4) m) ++
  due fw (execFreewheelExpiry d) ++ due ((m.whl d).plausArmed && m.now % 100000 == 0) (execPlausCheck d)

def earlyWheels (m : Mach) : List Act := if m.fieldStill then [] else (List.finRange 16).flatMap (earlyWheel m)

/-- Publications, the end of a coast, and network masters without a sample. -/
def earlyCams (m : Mach) : List Act :=
  if m.fieldStill then []
  else
    (fins 32 (m.nms.map (·.1))).flatMap (fun (n : Fin 32) =>
      due (m.on (R.NM_VALID n) && decide (mapGet 0 n.val m.nms + 400 * m.rd (R.NM_TIMEOUT n) < m.now)) (execNmStale n)) ++
    (fins 128 (axesUp m)).flatMap (fun (a : Fin 128) =>
      (match (m.ax a).pend with
       | some e => due (decide (e.te + 10 ≤ m.now)) (execAxPublish a)
       | none => []) ++
      (match (m.ax a).sub with
       | some s => due (s.brake.isNone && decide (s.t + 400 * m.rd (R.AX_LOSS_TIME a) ≤ m.now)) (execCoastEnd a)
       | none => []))

/-- Captures that wait, and targets that were passed, of the units that are not OFF. -/
def earlyMarks (m : Mach) : List Act :=
  if m.fieldStill then []
  else
    (fins 16 ((List.range 16).filter (fun u => m.ocuState u != 0))).flatMap (fun (u : Fin 16) =>
      (m.ocu u).caps.map (fun _ => execOcuCapture u) ++ due (ocuDue m u) (execOcuTargetExpiry u))

/-- Freewheel limits and re-arming; then the edges of the tick, starts and ends. -/
def earlySlots (m : Mach) : List Act :=
  if m.fieldStill then []
  else
    (fins 1024 (m.evts.map (·.1))).flatMap (fun (n : Fin 1024) =>
      due (slotFwEnd m n) (execFreewheelLimit n) ++
      due (((m.evt n).st == 5 || (m.evt n).st == 7) && (m.evt n).ended != m.now && evtMode m n == 2) (execEvtRearm n))

def earlyAngles (m : Mach) : List Act :=
  if m.fieldStill ∨ (m.evts.isEmpty ∧ m.lan.tails.isEmpty) then []
  else
    done anglesPlay :: (fins 1024 (m.evts.map (·.1))).flatMap (fun (n : Fin 1024) =>
      let x := m.evt n
      let starts := x.st == 3 && decide (x.s / 8 ≤ m.now)
      due starts (execEvtStart n) ++ due ((starts || x.st == 4) && decide (x.e / 8 ≤ m.now)) (execEvtEnd n))

def earlyDemand (old m : Mach) : List Act := due (!lclkMode m && passed old.now m.now 4000) execDemandInterval

/-! ## Belfry, cores and the monitor -/

def dueBelfry (m : Mach) : List Act :=
  (List.finRange 16).flatMap (fun (n : Fin 16) =>
    due (m.on (R.BEL_H_TMR_EN n) && decide (m.rd (R.BEL_H_TMR_CMP n) ≤ m.hlt)) (execHostTimerMatch n))

def dueCores (m : Mach) : List Act :=
  [0, 1, 2].flatMap (fun i : Fin 3 => due (wakeDue m i) (execCoreWake i) ++
    due (coreLive m i && !(m.core i).halted && (entryDue m i).isSome) (execInterruptEntry i))

def dueMonitor (m : Mach) : List Act :=
  let wd := m.saf.wd.start + 400 * m.rd R.SAF_WD_MAX
  let hwd := m.pwr.hWd.start + 400 * m.rd R.PWR_H_WD_MAX
  due (m.rd R.SAF_STATE == 2 && decide (m.saf.ss1Start + 400000 * m.rd R.SAF_SS1_TIME ≤ m.now)) execSs1Timeout ++
  due (!wdPaused m && !m.saf.wd.warned && decide (wd ≤ m.now + 400 * m.rd R.SAF_WD_WARN)) execFieldWatchdogWarning ++
  due (!wdPaused m && m.saf.wdrAt.isNone && decide (wd < m.now)) execFieldWatchdogExpiry ++
  due (!wdPaused m && decide (m.saf.diagStart + 400 * m.rd R.SAF_DTI < m.now)) execDiagIntervalExpiry ++
  (fins 22 [10, 13, 14, 15, 18]).flatMap (fun (n : Fin 22) => due (bit n (m.rd R.SAF_ACTIVE) && !causeStands m n) (execCauseCleared n)) ++
  dueDo (m.linked .field && m.bar.status != some (statusContent m)) statusSync ++
  due (stoPulseDue m false) (execStoTestPulse false true) ++ due (stoPulseDue m true) (execStoTestPulse true true) ++
  due (!m.saf.logQ.isEmpty) execLogRecordWrite ++
  due (!hostWdPaused m && !m.pwr.hWd.warned && decide (hwd ≤ hostTicks m + 400 * m.rd R.PWR_H_WD_WARN)) execHostWatchdogWarning ++
  due (!hostWdPaused m && decide (hwd < hostTicks m)) execHostWatchdogExpiry ++
  (match m.saf.wdrAt with
   | some t => due (decide (t ≤ m.now)) (execWdr .field)
   | none => []) ++
  m.saf.sess.flatMap (fun s => due (s.isOpen && decide (s.at_ + 400000000 * m.rd R.SAF_SESS_IDLE ≤ m.now))
    (execSessionIdleExpiry (BitVec.ofNat 8 s.handle)))

/-! ## Power (R522 to R524) -/

def duePower (m : Mach) : List Act :=
  due (m.pwr.fSleepReq && (m.core 2).gated && !m.inHold && !belWakes m 2) execSleepEntry ++
  due (m.pwr.fSleep && m.pwr.stage == 0 && belCalls m 2) (execWake false) ++ due (stageDue m) execWakeStage ++
  due (m.pwr.hSleepReq && !m.pwr.hSleep && (m.core 0).gated && ((m.core 1).gated || (m.core 1).held)) execHostSleepEntry ++
  due (m.pwr.hSleep && (belCalls m 0 || belCalls m 1)) (execHostWake false) ++
  dueDo (sclkDue m m.pwr.heldH) (resetEnds .host) ++ dueDo (sclkDue m m.pwr.heldF) (resetEnds .field) ++
  dueDo (sclkDue m m.pwr.rstH) (softReset .host 5) ++ dueDo (sclkDue m m.pwr.rstF) (softReset .field 5)

/-! ## Training and what the barrier has due -/

def dueTraining (m : Mach) (s : Side) : List Act :=
  let e := m.barEnd s
  let p := m.barEnd (Side.other s)
  let there := m.barState (Side.other s)
  let st := m.barState s
  due ((st == 4 || st == 5) && there == 1 && !p.ts2) (execTs1Received s) ++
  due (st == 1 && (!e.ts2 || e.lanes != 15) && there == 1) (execReceiverAligned s) ++
  due (st == 1 && e.ts2 && p.ts2 && (there == 1 || there == 2)) (execTs2Received s) ++
  due ((st == 2 || st == 3) && decide (400 ≤ e.sinceLink)) (execLinkDue s) ++
  due ((st == 2 || st == 3) && decide (1600 ≤ e.sinceAck)) (execReplayTimeout s)

/-- A whole block has come to the field, which writes the image (R70). -/
def dueStore (m : Mach) : List Act := due (storeReady m) execStoreComplete

def dueBarrier (m : Mach) : List Act :=
  let strobe := m.barState .host != 0 && !m.hostOff && passed (m.tb.hltSeen / 2) m.hlt (1000 * m.rd R.BAR_STROBE_INT)
  dueTraining m .host ++ dueTraining m .field ++ due (copyExpired m true) (execSafeDiscrepancy false) ++
  due (copyExpired m false) (execSafeDiscrepancy true) ++ due (cstopDue m) execCstopLimit ++
  due strobe execStrobeSend ++ due strobe (execStrobeCapture (BitVec.ofNat 32 (m.rd R.BAR_H_STROBE_NUM + 1))) ++
  dueDo (m.linked .host && calStrobeDue m) calStrobe ++ dueDo (m.linked .host && calEchoDue m) calEcho ++
  due (m.linked .host && decide (m.bar.lastCal + 1000000 * m.rd R.BAR_CAL_PERIOD ≤ m.hlt)) execCalibrationStart

/-! ## The plant network, CAN and the dictionary service -/

/-- The gate list entry in force by line time. -/
def gateByTime (m : Mach) (p : Nat) : Nat :=
  let phase := (m.hlt - m.rd R.NET_CYCLE_BASE) % max 1 (m.rd R.NET_CYCLE)
  ((List.range (gclLen m p)).find? (fun g => decide (phase < gclEnd m p g))).getD 0

/-- Line-cycle instants by host line time, the field's sampling by its own (R88, R454). -/
def dueNet (m : Mach) : List Act :=
  let base : Int := m.rd R.NET_CYCLE_BASE
  let at_ (off : Int) : Option Nat := reached m.tb.hltSeen m.tb.hlt2 (base + off) (m.rd R.NET_CYCLE)
  let row (n : Option Nat) (c : Nat → Act) : List Act := match n with
    | some n => due (m.on R.NET_RUN && !m.pwr.hSleep) (c n)
    | none => []
  let lead : Int := -(m.rd R.NET_OUT_LEAD : Int)
  let log := (-(m.rdI 16 R.NET_AS_SYNC_LOG)).toNat
  (fins 2 [0, 1]).flatMap (fun (p : Fin 2) =>
    let move := gclOn m p && decide (m.rd R.NET_CYCLE_BASE ≤ m.hlt) && gateNow m p != gateByTime m p
    due (move && gateNext m p == gateByTime m p) (execGateEntryChange p) ++
    dueDo (move && gateNext m p != gateByTime m p) (gateTo p.val (gateByTime m p))) ++
  row (at_ lead) (fun n => done (hostSample n)) ++
  row (reached (2 * m.tb.ltSeen) (2 * m.tb.lt) (base + lead) (m.rd R.NET_CYCLE)) (fun n => done (fieldSample n)) ++
  row (at_ 0) (fun _ => done cycleBegin) ++
  row (at_ (m.rd R.NET_TX_OFF)) (fun n => execCycleTx (BitVec.ofNat 64 n)) ++
  (m.net.cb.filter (fun s => decide (s.at_ + 1000000 * m.rd R.NET_CB_RESET ≤ m.hlt))).map (fun s =>
    execCbStreamReset (BitVec.ofNat 48 s.mac)) ++
  due (m.rd R.NET_AS_STATE == 3 && passed (m.tb.hltSeen / 2) m.hlt (1000000000 / 2 ^ log)) execGrandmasterSync ++
  dueDo (m.tb.sclk % 800000000 < 2) (fun m => m.each (List.range 4) asSecond)

/-- Ports that are free start their next frames, by the gates as they stand now. -/
def netPumps (m : Mach) : Mach := m.each (List.range 4) netPump

/-- The compares of this tick against line time have been made. Instants that passed while the network did not run have not matched
(R88). -/
def timeSeen (m : Mach) : Mach :=
  let keep := m.on R.NET_RUN && !m.pwr.hSleep
  { m with tb := { m.tb with
    hltSeen := if keep then max m.tb.hltSeen m.tb.hlt2 else m.tb.hlt2
    ltSeen := if keep then max m.tb.ltSeen m.tb.lt else m.tb.lt } }

def dueCan (m : Mach) (k : Fin 2) : List Act :=
  due (sdoLate m k) (execSdoTimeout k) ++ (List.finRange 8).flatMap (fun (j : Fin 8) => due (tpdoDue m k j) (execTpdoEventTimer k j)) ++
  due (hbProduceDue m k) (execHeartbeatProduce k) ++
  (List.finRange 4).flatMap (fun (i : Fin 4) => due (hbLost m k i) (execHeartbeatConsume k i true))

def dueService (m : Mach) : List Act :=
  dueDo (persLate m) (fun m => persDrop (storeFail m)) ++
  dueDo (storeAnswerDue m) (storeAnswer (.ok (0, []))) ++
  m.bar.fwds.flatMap (fun e => (fins 8 [e.1]).flatMap (fun (x : Fin 8) =>
    due (decide (e.2.at_ + 800 * m.rd R.DIC_FWD_TIMEOUT ≤ m.tb.sclk)) (execForwardTimeout x))) ++
  m.dic.xfers.flatMap (fun e => (fins 4 [e.1 - 1]).flatMap (fun (h : Fin 4) =>
    due (!e.2.closed && decide (e.2.last + 800000 * m.rd R.DIC_DOMAIN_IDLE ≤ m.tb.sclk)) (execDomainIdleExpiry h)))

/-- What the host's protocols have due. -/
def dueHost (m : Mach) : List Act := if m.hostOff then [] else dueCan m 0 ++ dueCan m 1 ++ dueService m

/-- What begins the next tick, in order. -/
def beginStages (old : Mach) : List Stage :=
  [earlyTime old, earlyModes, earlyChannels, earlyGates, earlyWheels, earlyDemand old, earlyCams, earlySlots, earlyAngles, earlyMarks,
   earlyArms, dueMonitor, duePower, dueBarrier, dueStore, dueNet, fun _ => [done netPumps, done timeSeen], dueHost, dueBelfry, dueCores]

/-! ## The tick -/

/-- Runs meanings one after another. -/
def runActs : List Act → Act
  | [], s => .next s
  | f :: rest, s =>
    match f s with
    | .next t => runActs rest t
    | .fault e => .fault e
    | .refused r => .refused r

/-- Runs stages one after another, each on the machine that the one before left. -/
def runStages : List Stage → Act
  | [], s => .next s
  | f :: rest, s =>
    match runActs (f s.m) s with
    | .next t => runStages rest t
    | .fault e => .fault e
    | .refused r => .refused r

/-- The clocks advance, and the timers' happenings follow. -/
def clockAct (s : State) : Host.Outcome State Fault Refusal :=
  let r := clocks s.m
  runActs (r.2.map done) { s with m := settle r.1 }

/-- A step on an empty queue: the end of a tick, the clocks, the begin of the next tick. -/
def idle (s : State) : Host.Outcome State Fault Refusal :=
  match runStages endStages s with
  | .next t =>
    (match clockAct t with
     | .next u => runStages (beginStages t.m) u
     | .fault e => .fault e
     | .refused r => .refused r)
  | .fault e => .fault e
  | .refused r => .refused r

end Sys2Proof.Machine
end

