-- ==== Sys2Proof/Safety.lean ====
section
/-! DEFINITION. The terms in which claims speak of a run: what holds between commands, the canonical form of what State keeps in
sparse lists, who may write, and what it is for a command to answer a next state. -/

namespace Sys2Proof.Machine

/-- Between commands no safety cause and no decoder happening is left to act on (R488, R491). -/
abbrev Settled (s : State) : Prop := s.m.alarms = [] ∧ s.m.notes = []

/-- The object map and the four memories stand in canonical form. -/
def Canonical (m : Mach) : Prop :=
  mapSorted m.regs = true ∧ Memory.wf m.keepMem = true ∧ Memory.wf m.hostMem = true ∧ Memory.wf m.flash = true ∧
  Memory.wf m.fram = true

/-- Writer w may write object o: it executes, neither the gate nor, for an M- object, its authority bars it, no reset, state entry or
stop of the same tick has settled the object (R19), and no writer that comes later in the order of R261 has written it in this tick. -/
abbrev May (w : Writer) (o : Obj) (mach : Bool) (s : State) : Prop :=
  writerLive s.m w = true ∧ gate w o mach s.m = none ∧ overruled s.m o = false ∧ outranked s.m w o = false

/-- Keep or a mover may use a port of the field side at an address: it executes, and Keep's regions allow the access. -/
abbrev MayPort (port : Fin 17) (kind addr : Nat) (s : State) : Prop :=
  writerLive s.m (portWriter port) = true ∧ (port.val = 0 → (s.m.core 2).allows kind addr = true)

/-- A core may load (kind 0) or store (kind 1) at an address: it executes, and its regions allow the access. -/
abbrev MayCore (core : Fin 3) (kind addr : Nat) (s : State) : Prop :=
  coreLive s.m core = true ∧ (s.m.core core).allows kind addr = true

/-- The field side runs: no HOLD, no SLEEP, no Keep debug halt. -/
abbrev FieldRuns (s : State) : Prop := s.m.fieldStill = false

/-- The command answers the next state in which the machine is m and the queue is as it was. -/
def To (c : Instr) (s : State) (m : Mach) : Prop := exec c s = .next { s with m := m }

/-- A write command of an object that its writer may write answers the next state in which the machine is m, with its writer noted for
the tick and a request through the dictionary answered. -/
def Writes (c : Instr) (s : State) (w : Writer) (o : Obj) (mach : Bool) (m : Mach) : Prop :=
  May w o mach s → To c s (answered w (rankNote w o m))

/-- A write command of an object that its writer may write, turned away by a rule of its own (R59 check 14, R54). -/
def Turns (c : Instr) (s : State) (w : Writer) (o : Obj) (mach : Bool) (a : Abort) : Prop :=
  May w o mach s → To c s (settle (refuse w o a s.m))

/-- A write command of an object that its writer may write answers what the machine m, with its writer noted for the tick and a request
through the dictionary answered, becomes once the decoder happenings and the safety causes have acted in the command's tick. -/
def Carries (c : Instr) (s : State) (w : Writer) (o : Obj) (mach : Bool) (m : Mach) : Prop :=
  May w o mach s → To c s (settle (answered w (rankNote w o m)))

/-- The command answers a next state with the same queue: what a machine that meets P becomes once the decoder happenings and the
safety causes of the command have acted in its own tick. -/
def Acts (c : Instr) (s : State) (P : Mach → Prop) : Prop := ∃ m, exec c s = .next { s with m := settle m } ∧ P m

/-- The command answers a next state with the same queue whose machine meets P. -/
def Goes (c : Instr) (s : State) (P : Mach → Prop) : Prop := ∃ t, exec c s = .next t ∧ t.pending = s.pending ∧ P t.m

/-- Nothing but objects of the map changed, the writer was noted, and at most an answer was sent. -/
def OnlyRegs (m0 m : Mach) : Prop := { m with regs := m0.regs, out := m0.out, ranks := m0.ranks } = m0

/-- The counters a value's bits select read 0, or 1 where one of them counted in the same tick (R148); every other object reads as
before, and nothing else changed. -/
def Cleared (v : Nat) (l : List Obj) (m0 m : Mach) : Prop :=
  (∀ (k : Nat) (o : Obj), l[k]? = some o → bit k v = true → m.rd o = boolNat (m0.incNow.contains o.key)) ∧
  (∀ o : Obj, (∀ (k : Nat) (p : Obj), l[k]? = some p → bit k v = true → p.key ≠ o.key) → m.rd o = m0.rd o) ∧
  OnlyRegs m0 m

/-- All the counters of a list are cleared. -/
def ClearedAll (l : List Obj) (m0 m : Mach) : Prop := Cleared (2 ^ l.length - 1) l m0 m

/-- A write command of an object that its writer may write answers a next state with the same queue whose machine meets P. -/
def Leads (c : Instr) (s : State) (w : Writer) (o : Obj) (mach : Bool) (P : Mach → Prop) : Prop :=
  May w o mach s → Goes c s P

/-- The safe state was entered with cause c (R478): state, cause and entry time, both latches, the cause's bits, the count of entries
and the class 7 entry of Keep. -/
def InSafe (c : Nat) (m0 m : Mach) : Prop :=
  m.rd R.SAF_STATE = 1 ∧ m.rd R.SAF_CAUSE = c ∧ m.rd R.SAF_ENTRY_TIME = m0.now ∧ m.saf.latchA = true ∧ m.saf.latchB = true ∧
  m.rd R.SAF_LATCHED = setBit c (m0.rd R.SAF_LATCHED) ∧
  m.rd R.SAF_ACTIVE = (if causeHeld c then setBit c (m0.rd R.SAF_ACTIVE) else m0.rd R.SAF_ACTIVE) ∧
  m.rd R.SAF_CNT_ENTRY = min 0xFFFFFFFF (m0.rd R.SAF_CNT_ENTRY + 1) ∧ (m.core 2).c7 = (m0.core 2).c7 ++ [0x200 + c]

/-- A safe-state command was queued on a channel under the channel's next number (R427, R428). -/
def SafeQueued (b : Bool) (v : Word) (m0 m : Mach) : Prop :=
  m.rd (hostCnt b) = (m0.rd (hostCnt b) + 1) % 2 ^ 16 ∧
  m.bar.h.queue = m0.bar.h.queue ++
    [(1, ⟨if b then 17 else 16, safePayload b v.toNat ((m0.rd (hostCnt b) + 1) % 2 ^ 16)⟩)]

/-- The service's one request went to the field agent on XID 0 in fragments and is remembered (R424). -/
def Forwarded (op : Nat) (r : Req) (s t : State) : Prop :=
  t.pending = s.pending ∧ t.m.bar.fwds = [(0, { ask := ⟨op, r, none⟩, at_ := s.m.tb.sclk })] ∧ t.m.dic.waiting = [] ∧
  t.m.bar.h.queue = s.m.bar.h.queue ++
    (fragments (xidByte r.route 0) (boolNat (r.session != 0)) 6 0 (reqFrame op r)).map (fun p => (6, ⟨7, p⟩))

/-- A SESSION request with its subcommand in ARG (R495). -/
def sessionReq (sub : Nat) (q : Req) : Req := { q with arg := BitVec.ofNat 32 (putBits 7 0 sub q.arg.toNat) }

/-- A cause whose reaction is SAFE arrives while the safe state is not in force. -/
abbrev Trips (c : Nat) (m : Mach) : Prop := m.safe = false ∧ causeSelected m c = true ∧ releasedNow m = false

/-- The SCLK instant until which a reset of a cause holds its side (R507, R508, R512, R513): 2 ms after a BOR, 20 µs after the
others, and not at all after a POR. -/
def heldUntil (cause : Nat) (m0 : Mach) : Option Nat :=
  if cause = 1 then none else some (m0.tb.sclk + if cause = 2 then 1600000 else 16000)

/-- The field side restarted with a cause (R375, R480, R512): Keep at M with XMASK 3 and the cause shown, the safe state in force, the
controller empty, the hard causes' memory and time lost, and the host side's cores and memory as they were. -/
def FieldRestarted (cause : Nat) (m0 m : Mach) : Prop :=
  m.rd R.KEEP_RESTART_CAUSE = cause ∧ (m.core 2).lvl = 2 ∧ (m.core 2).xmask = 3 ∧ m.safe = true ∧ m.belF = {} ∧
  m.tb.ftb = (if cause ≤ 3 then 0 else m0.tb.ftb) ∧ m.tb.lt = (if cause ≤ 3 then 0 else m0.tb.lt) ∧
  m.keepMem = (if cause ≤ 3 then [] else m0.keepMem) ∧ m.fram = m0.fram ∧ m.flash = m0.flash ∧ m.hostMem = m0.hostMem ∧
  m.core 0 = m0.core 0 ∧ m.core 1 = m0.core 1 ∧ m.octets = [] ∧ m.evts = [] ∧ m.chans = [] ∧
  m.pwr.heldF = heldUntil cause m0

/-- The host side restarted with a cause: both Spires at M with XMASK 3, Spire1 held, line time 0, sessions closed, the controller
empty but for INTH's level, which follows at the tick's end, and the field side's core, memory and time as they were. -/
def HostRestarted (cause : Nat) (m0 m : Mach) : Prop :=
  m.rd (R.SPR_RESTART_CAUSE 0) = cause ∧ m.rd (R.SPR_RESTART_CAUSE 1) = cause ∧ (m.core 0).lvl = 2 ∧ (m.core 0).xmask = 3 ∧
  (m.core 1).lvl = 2 ∧ (m.core 1).xmask = 3 ∧ (m.core 1).held = true ∧ m.tb.hlt2 = 0 ∧ m.saf.sess = [] ∧
  m.belH = { inthLow := m0.belH.inthLow } ∧
  m.pwr.hSleep = false ∧ m.core 2 = m0.core 2 ∧ m.keepMem = m0.keepMem ∧ m.fram = m0.fram ∧ m.tb.ftb = m0.tb.ftb ∧
  m.tb.lt = m0.tb.lt ∧ m.pwr.heldH = heldUntil cause m0

/-- A side restarted. -/
def Restarted (side : Side) (cause : Nat) (m0 m : Mach) : Prop :=
  match side with
  | .field => FieldRestarted cause m0 m
  | .host => HostRestarted cause m0 m

/-- The dictionary service stands idle on a host side that is awake: no request waits and none is forwarded. -/
abbrev ServiceIdle (s : State) : Prop :=
  s.m.hostOff = false ∧ s.m.dic.waiting = [] ∧ s.m.bar.fwds = [] ∧ s.m.bar.dead = []

/-- A message of a type with a payload is accepted at an end whose side no reset or state entry of the tick has set aside, and m is
the machine before its content acts (R420, R440). -/
abbrev Arrives (side : Side) (typ : Nat) (p : List Byte) (f : LinkFrame) (s : State) (m : Mach) : Prop :=
  linkAccept side f s.m = (some ⟨typ, p⟩, m) ∧ s.m.entries.any (fun e => e.1 == side) = false

/-- The commands that are a message's arrival: the end, the type and the frame (R423). -/
def messageOf : Instr → Option (Side × Nat × LinkFrame)
  | .link side f => some (side, 1, f)
  | .hello side f => some (side, 2, f)
  | .state side f => some (side, 3, f)
  | .beacon f => some (.field, 4, f)
  | .timeReport f => some (.host, 5, f)
  | .strobeCal f => some (.field, 6, f)
  | .dicReq f => some (.field, 7, f)
  | .dicRsp f => some (.host, 8, f)
  | .cycIn f => some (.field, 9, f)
  | .cycOut f => some (.host, 10, f)
  | .event side f => some (side, 11, f)
  | .fwLoad f => some (.field, 12, f)
  | .fwStatus f => some (.host, 13, f)
  | .persRestore f => some (.host, 14, f)
  | .persStore f => some (.field, 15, f)
  | .safeA f => some (.field, 16, f)
  | .safeB f => some (.field, 17, f)
  | .safeStatus f => some (.host, 18, f)
  | .resetReq side f => some (side, 19, f)
  | .echoMessage side f => some (side, 20, f)
  | _ => none

/-- Context x issues the word with opcode op and fields w in this slot, and no bit is 1 that its format does not use (R321,
R327). -/
abbrev Issues (op x w unused : Nat) (s : State) : Prop :=
  slotOpen s.m x = true ∧ op < 24 ∧ turWord s.m (x / 16) (s.m.rd (R.CTX_PC x)) = op * 2 ^ 27 + w ∧ w &&& unused = 0

/-- The instruction with fields w completes, going on at pc, after the effect that led to m (R327, R329). -/
def slotEnds (x w pc : Nat) (m : Mach) : Mach :=
  (m.wr (R.CTX_PC x) pc).updCtx x (fun c => { c with dly := bits 26 24 w, stall := false, wait := none, got := none })

/-- The instruction waits for another slot (R329). -/
def slotWaits (x : Nat) (m : Mach) : Mach := m.updCtx x (fun c => { c with stall := true })

/-- The core executes, and the map and its regions let it fetch word w at its pc. -/
abbrev Fetches (core : Fin 3) (w : Nat) (s : State) : Prop :=
  coreLive s.m core = true ∧ fetchOk s.m core (s.m.core core).pc.toNat = true ∧
  (w % 4 = 3 → fetchOk s.m core (((s.m.core core).pc.toNat + 2) % 2 ^ 32) = true)

/-- The length in bytes of an instruction word. -/
def insnLen (w : Nat) : Nat := if w % 4 = 3 then 4 else 2

/-- The bits of an instruction word that it has. -/
def insnRaw (w : Nat) : Nat := if w % 4 = 3 then w else w % 2 ^ 16

/-- Core i is left as c, and nothing else changed. -/
def CoreOnly (i : Nat) (c : Core) (m0 m : Mach) : Prop :=
  m.core i = c ∧ (∀ j, j ≠ i → m.core j = m0.core j) ∧ { m with cores := m0.cores } = m0

/-- The core as an instruction that retires leaves it: c but for the pc, the count of retired instructions and a STEP, which
ends with the core halted and its clock running (R389). -/
def retired (c : Core) (pc : Word) : Core :=
  { c with pc := pc, instret := (c.instret + 1) % 2 ^ 64, step := false, halted := c.halted || c.step, gated := c.gated && !c.step }

/-- Core d is core c after an entry of a class to level l (R366, R367): the resume address, the state it came from, the cause and its
information stand in the save set, the stack pointers are exchanged where the level changes, and it goes on at the vector. -/
def Entered (cls l code info : Nat) (resume : Word) (c d : Core) : Prop :=
  let base := if 6 ≤ cls then 0x720 else if l = 1 then 0x510 else 0x710
  d.csrGet base = resume &&& 0xFFFFFFFE ∧
  d.csrGet (base + 1) = statusWord (decide (l ≠ c.lvl)) c.fast c.xmask c.lvl ∧
  d.csrGet (base + 2) = BitVec.ofNat 32 (cls * 2 ^ 28 + code) ∧ d.csrGet (base + 3) = BitVec.ofNat 32 info ∧
  d.lvl = l ∧ d.eact = (c.eact || decide (6 ≤ cls)) ∧ d.fast = (c.fast || decide (cls = 5)) ∧
  d.xmask = entryMask cls l c ∧ d.pc = entryVector cls l c ∧ d.resv = none ∧ d.gated = false ∧
  (l ≠ c.lvl → d.csrGet (stackCsr l) = mapGet 0 2 c.x ∧ mapGet 0 2 d.x = c.csrGet (stackCsr l)) ∧ (l = c.lvl → d.x = c.x)

/-- Core i took a fault of class 1 or 3, precise at its pc (R366, R371, R373, R374): an entry while XMASK is 0; masked, an
escalation, recorded and counted; masked with EACT set, a restart with cause DOUBLE. -/
def Faulted (i : Fin 3) (cls code info : Nat) (m0 m : Mach) : Prop :=
  ((m0.core i).xmask = 0 →
    Entered cls (if (m0.core i).lvl = 0 then 1 else 2) code info (m0.core i).pc (m0.core i) (m.core i)) ∧
  ((m0.core i).xmask ≠ 0 → (m0.core i).eact = false →
    Entered 6 2 (cls * 256 + code) info (m0.core i).pc (m0.core i) (m.core i) ∧
    m.rd (cntEsc i) = min 0xFFFFFFFF (m0.rd (cntEsc i) + 1) ∧ m.rd (lastEsc i) = 6 * 2 ^ 28 + (cls * 256 + code) ∧
    m.rd (lastEscPc i) = ((m0.core i).pc &&& 0xFFFFFFFE).toNat) ∧
  ((m0.core i).xmask ≠ 0 → (m0.core i).eact = true →
    (m.core i).lvl = 2 ∧ (m.core i).xmask = 3 ∧ (m.core i).eact = false ∧ m.rd (restartCauseObj i) = 7 ∧
    m.rd (cntDouble i) = min 0xFFFFFFFF (m0.rd (cntDouble i) + 1))

/-- The debug port of a core answers with a status and data. -/
def Replied (core : Fin 3) (l : List Nat) (m : Mach) : Prop := ⟨.dap core, l⟩ ∈ m.out

/-- The commands that are the write of an object: the writer, the object, and whether the spec's table gives it the M- prefix
(R53). -/
def writeTarget : Instr → Option (Writer × Obj × Bool)
| .store w _ => some (w, R.DIC_STORE, false)
  | .reload w _ => some (w, R.DIC_RELOAD, false)
  | .factory w _ => some (w, R.DIC_FACTORY, false)
  | .ltStep w _ => some (w, R.LT_STEP, false)
  | .gtRunStart w n => some (w, R.GT_RUN n, false)
  | .gtRunStop w n => some (w, R.GT_RUN n, false)
  | .gtCountLoad w n _ => some (w, R.GT_COUNT n, false)
  | .gtCtrlWrite w n _ => some (w, R.GT_CTRL n, false)
  | .whlEnableOn w d => some (w, R.WHL_ENABLE d, false)
  | .whlEnableOff w d => some (w, R.WHL_ENABLE d, false)
  | .whlCntClr w d _ => some (w, R.WHL_CNT_CLR d, false)
  | .evtEnableOn w n => some (w, R.EVT_ENABLE n, false)
  | .evtEnableOff w n => some (w, R.EVT_ENABLE n, false)
  | .lanRunOn w => some (w, R.LAN_RUN, false)
  | .lanRunOff w => some (w, R.LAN_RUN, false)
  | .evtTimingWrite w n _ => some (w, R.EVT_TIMING n, false)
  | .arm w n => some (w, R.EVT_CMD n, false)
  | .cancel w n => some (w, R.EVT_CMD n, false)
  | .cut w n => some (w, R.EVT_CMD n, false)
  | .evtClear w n => some (w, R.EVT_CMD n, false)
  | .lanClear w => some (w, R.LAN_CMD, false)
  | .vmEnableOn w v => some (w, R.VM_ENABLE v, false)
  | .vmEnableOff w v => some (w, R.VM_ENABLE v, false)
  | .axRunOn w a => some (w, R.AX_RUN a, false)
  | .axRunOff w a => some (w, R.AX_RUN a, false)
  | .resume w a => some (w, R.AX_CMD a, false)
  | .axClear w a => some (w, R.AX_CMD a, false)
  | .axProfNextWrite w a _ => some (w, R.AX_PROF_NEXT a, false)
  | .ocuEnableOn w u => some (w, R.OCU_ENABLE u, false)
  | .ocuEnableOff w u => some (w, R.OCU_ENABLE u, false)
  | .ocuBindWrite w u _ => some (w, R.OCU_BIND u, false)
  | .ocuFwCorr w u _ => some (w, R.OCU_FW_CORR u, false)
  | .ocuCntClr w u _ => some (w, R.OCU_CNT_CLR u, false)
  | .chModeWrite w c _ => some (w, R.CH_MODE c, false)
  | .chEnWrite w c _ => some (w, R.CH_EN c, false)
  | .chGpioOutWrite w c _ => some (w, R.CH_GPIO_OUT c, false)
  | .chQPush w c _ => some (w, R.CH_Q_PUSH c, false)
  | .chQPop w c _ => some (w, R.CH_Q_POP c, false)
  | .chQFlush w c _ => some (w, R.CH_Q_FLUSH c, false)
  | .chCntClr w c _ => some (w, R.CH_CNT_CLR c, false)
  | .movRunOn w n => some (w, R.MOV_RUN n, false)
  | .movRunOff w n => some (w, R.MOV_RUN n, false)
  | .trigger w n => some (w, R.MOV_CMD n, false)
  | .movClear w n => some (w, R.MOV_CMD n, false)
  | .pwmRunOn w o => some (w, R.PWM_RUN o, false)
  | .pwmRunOff w o => some (w, R.PWM_RUN o, false)
  | .pwmShadowWrite w o obj _ => some (w, shadowObj o obj, false)
  | .pwmPeriodImm w o _ => some (w, R.PWM_PERIOD_IMM o, false)
  | .pwmChOffWrite w o _ => some (w, R.PWM_CH_OFF o, false)
  | .pwmCntClr w o _ => some (w, R.PWM_CNT_CLR o, false)
  | .trpRearm w o _ => some (w, R.TRP_REARM o, false)
  | .trpRearmRb w o _ => some (w, R.TRP_REARM_RB o, true)
  | .latch w o => some (w, R.TRP_CMD o, false)
  | .trpClear w o => some (w, R.TRP_CMD o, false)
  | .turRunOn w e => some (w, R.TUR_RUN e, false)
  | .turRunOff w e => some (w, R.TUR_RUN e, false)
  | .ctxRunWrite w x _ => some (w, R.CTX_RUN x, false)
  | .release w x => some (w, R.CTX_CMD x, false)
  | .ctxClear w x => some (w, R.CTX_CMD x, false)
  | .ctxTxqPush w x _ => some (w, R.CTX_TXQ_PUSH x, false)
  | .ctxRxqPop w x _ => some (w, R.CTX_RXQ_POP x, false)
  | .ctxQFlush w x _ => some (w, R.CTX_Q_FLUSH x, false)
  | .turFlagSet w e _ => some (w, R.TUR_FLAG_SET e, false)
  | .turFlagClr w e _ => some (w, R.TUR_FLAG_CLR e, false)
  | .turXflagSet w _ => some (w, R.TUR_XFLAG_SET, false)
  | .turXflagClr w _ => some (w, R.TUR_XFLAG_CLR, false)
  | .sprRelease w n _ => some (w, R.SPR_RELEASE n, true)
  | .sprCntClr w n _ => some (w, R.SPR_CNT_CLR n, false)
  | .keepCntClr w _ => some (w, R.KEEP_CNT_CLR, false)
  | .belPendSet w side j _ => some (w, pendSetObj side j, false)
  | .belPendClr w side j _ => some (w, pendClrObj side j, false)
  | .belEnSet w side j _ => some (w, enSetObj side j, false)
  | .belEnClr w side j _ => some (w, enClrObj side j, false)
  | .belSrcCfgWrite w id _ => some (w, srcCfgObj id, false)
  | .belCntClr w side _ => some (w, belCntClrObj side, false)
  | .cal w => some (w, R.BAR_H_CMD, false)
  | .barEchoCmd w side => some (w, barCmd side, false)
  | .barClear w side => some (w, barCmd side, false)
  | .netRunOn w => some (w, R.NET_RUN, false)
  | .netRunOff w => some (w, R.NET_RUN, false)
  | .redEnWrite w _ => some (w, R.RED_EN, false)
  | .rejoin w => some (w, R.RED_CMD, false)
  | .yield w => some (w, R.RED_CMD, false)
  | .redClear w => some (w, R.RED_CMD, false)
  | .netCntClr w which _ => some (w, netClrObj which, false)
  | .canEnWrite w k _ => some (w, R.CAN_EN k, false)
  | .canCntClr w k _ => some (w, R.CAN_CNT_CLR k, false)
  | .sto w => some (w, R.SAF_DEMAND, false)
  | .ss1 w => some (w, R.SAF_DEMAND, false)
  | .safRelease w _ => some (w, R.SAF_RELEASE, true)
  | .safWdKick w _ => some (w, R.SAF_WD_KICK, false)
  | .safDiagSeq w _ => some (w, R.SAF_DIAG_SEQ, false)
  | .safKeyCommit w _ => some (w, R.SAF_KEY_COMMIT, true)
  | .blowDbgLock w => some (w, R.SAF_FUSE_CMD, true)
  | .blowSafLock w => some (w, R.SAF_FUSE_CMD, true)
  | .safLogAppend w _ => some (w, R.SAF_LOG_APPEND, false)
  | .safCntClr w _ => some (w, R.SAF_CNT_CLR, false)
  | .swsOwn w side => some (w, resetObj side, true)
  | .swsOther w side => some (w, resetObj side, true)
  | .swf w side => some (w, resetObj side, true)
  | .pwrRearm w _ => some (w, R.PWR_REARM, false)
  | .holdRequest w => some (w, R.PWR_F_STATE_REQ, false)
  | .runRequest w => some (w, R.PWR_F_STATE_REQ, false)
  | .sleepRequest w => some (w, R.PWR_F_STATE_REQ, false)
  | .hostSleepRequest w => some (w, R.PWR_H_STATE_REQ, false)
  | .hostWdKick w _ => some (w, R.PWR_H_WD_KICK, false)
  | .pwrUnitStop w _ => some (w, R.PWR_UNIT_STOP, false)
  | .reloadField w => some (w, R.PWR_H_FW_CMD, false)
  | .bootkeyCommit w _ => some (w, R.PWR_H_BOOTKEY_CMD, true)
  | _ => none

/-- A run never stops in a fault or a refusal. -/
def safeStep (s : State) : Prop := ∃ t, step s = .next t

end Sys2Proof.Machine
end

