-- ==== Sys2Proof/WellFormed.lean ====
section
/-! DEFINITION. Which commands can come at all: the operands that the places they come through can carry. -/

namespace Sys2Proof

/-- A request carries at most 240 data bytes (R57). -/
def Req.wf (q : Req) : Bool := decide (q.data.length ≤ 240)

/-- The register view, the direct window and the movers' stores have no dictionary route (R24, R75). -/
def Writer.isStore : Writer → Bool
  | .dict _ _ => false
  | _ => true

/-- A VLP PDU fits an Ethernet frame (R449). -/
def VlpFrame.wf (f : VlpFrame) : Bool := decide (f.pdu.length ≤ 1500)

/-- The operands can occur. -/
def Instr.wf : Instr → Bool
  | .registerWrite w _ _ => w.isStore
  | .read q | .write q | .domainOpenRead q | .domainOpenWrite q | .domainSegment q | .domainClose q | .domainCancel q
  | .echo q | .challenge q | .prove q | .sessionClose q => q.wf
  | .doorbell _ l | .qspiWriteFrame _ l => decide (l.length ≤ 256)
  | .vlpCyclic _ f | .vlpDicReq _ f => f.wf
  | .sdoRequest _ d => decide (d.length ≤ 64)
  | .rpdo _ _ d => decide (d.length ≤ 64)
  | _ => true

end Sys2Proof
end

