-- ==== Sys2Proof/Certificates/Slice0/Obligations.lean ====
section
/-! DEFINITION. The statements to be proved of the model. In each, the hypotheses name the conditions under which the spec
lets the command take effect, and the conclusion names the next state whole wherever it can. -/

open Sys2Proof Sys2Proof.Machine

/-- R148: decoder counters stop at 0xFFFF_FFFF; a clear zeroes the counters it names; clear and increment in one tick leave 1. -/
def Obligations.WheelCountersClearAndStop : Prop :=
  ∀ (s : State) (w : Writer) (d : Fin 16) (v : Byte) (k : Nat) (o : Obj), Settled s → May w (R.WHL_CNT_CLR d) false s →
    (whlCounters d)[k]? = some o →
    (∀ m : Mach, (m.inc o).rd o = if m.rd o < 0xFFFFFFFF then m.rd o + 1 else 0xFFFFFFFF) ∧
    (bit k v.toNat = true → s.m.incNow.contains o.key = false →
      Goes (.whlCntClr w d v) s (fun m => m.rd o = 0 ∧ (m.inc o).rd o = 1)) ∧
    (bit k v.toNat = true → s.m.incNow.contains o.key = true → Goes (.whlCntClr w d v) s (fun m => m.rd o = 1)) ∧
    (bit k v.toNat = false → Goes (.whlCntClr w d v) s (fun m => m.rd o = s.m.rd o))

/-- R402: what a claim and a peek return, and what a claim changes. -/
def Obligations.ClaimTakesHighestPriority : Prop :=
  ∀ (s : State) (core : Fin 3) (side : Side) (near : Bool → List (Nat × Src)), Settled s →
    side = coreSide core → mapSorted (s.m.bel side).src = true → near = belClaimable s.m side (coreTarget core) →
    (∀ e ∈ near false, (∀ f ∈ near false, cfgPrio f.2.cfg < cfgPrio e.2.cfg ∨ (cfgPrio f.2.cfg = cfgPrio e.2.cfg ∧ e.1 ≤ f.1)) →
      MayCore core 0 (claimAddr core) s →
      To (.claimN core) s ((s.m.setSrc side e.1 { e.2 with
        pend := false, cnt := 0, sat := false, rel := false, svc := coreTarget core }).send (.load core.val) [claimWord e.1 e.2])) ∧
    (∀ e ∈ near true, (∀ f ∈ near true, cfgPrio f.2.cfg < cfgPrio e.2.cfg ∨ (cfgPrio f.2.cfg = cfgPrio e.2.cfg ∧ e.1 ≤ f.1)) →
      MayCore core 0 (claimAddr core + 4) s →
      To (.claimF core) s ((s.m.setSrc side e.1 { e.2 with
        pend := false, cnt := 0, sat := false, rel := false, svc := coreTarget core }).send (.load core.val) [claimWord e.1 e.2])) ∧
    (near false = [] → MayCore core 0 (claimAddr core) s →
      To (.claimN core) s ((s.m.inc (cntSpur side)).send (.load core.val) [0x3FF])) ∧
    (near true = [] → MayCore core 0 (claimAddr core + 4) s →
      To (.claimF core) s ((s.m.inc (cntSpur side)).send (.load core.val) [0x3FF])) ∧
    (MayCore core 0 (claimAddr core + 8) s →
      (∀ (fast : Bool), ∀ e ∈ near fast,
        (∀ f ∈ near fast, cfgPrio f.2.cfg < cfgPrio e.2.cfg ∨ (cfgPrio f.2.cfg = cfgPrio e.2.cfg ∧ e.1 ≤ f.1)) →
        (∀ f ∈ near (!fast), cfgPrio f.2.cfg < cfgPrio e.2.cfg ∨ (fast = true ∧ cfgPrio f.2.cfg = cfgPrio e.2.cfg)) →
        To (.peek core) s (s.m.send (.load core.val) [claimWord e.1 e.2])) ∧
      (near true = [] → near false = [] → To (.peek core) s (s.m.send (.load core.val) [0x3FF])))

/-- R511: a rearm is accepted only while no field rail is in warning, and then clears BW everywhere. -/
def Obligations.RearmWaitsForFieldRails : Prop :=
  ∀ (s : State) (w : Writer), Settled s →
    ((∀ r ≤ 12, bit r s.m.pwr.railF = false) →
      Leads (.pwrRearm w 1) s w R.PWR_REARM false (fun m => ∀ o < 16, bit 4 (m.rd (R.TRP_LATCH_CAUSE o)) = false)) ∧
    (∀ r ≤ 12, bit r s.m.pwr.railF = true → Turns (.pwrRearm w 1) s w R.PWR_REARM false .range)

/-- R420: the order of the checks, the counter of the first that fails, the request for a resend, and acceptance. -/
def Obligations.FrameChecksInOrder : Prop :=
  ∀ (s : State) (side : Side) (f : LinkFrame) (typ len n : Nat) (framed crced listed next : Bool), Settled s →
    s.m.barState side = 2 ∨ s.m.barState side = 3 →
    typ = fieldAt 0 1 f.bytes → len = fieldAt 1 1 f.bytes → n = padLen len →
    framed = (f.sound && (s.m.barEnd side).lanes == 15 && f.bytes.length == 8 + n) → crced = (fieldAt (4 + n) 4 f.bytes == crc32 (f.bytes.take (4 + n))) →
    listed = catalogueOk side typ len → next = (typ == 1 || fieldAt 2 2 f.bytes == (s.m.barEnd side).rxSeq) →
    (framed = true → crced = true → listed = true → next = true →
      (linkAccept side f s.m).1 = some ⟨typ, (f.bytes.drop 4).take len⟩) ∧
    (framed = false ∨ crced = false ∨ listed = false ∨ next = false → (linkAccept side f s.m).1 = none) ∧
    (∀ (o : Obj),
      (framed = false ∧ o = cntFrame side) ∨ (framed = true ∧ crced = false ∧ o = cntCrc side) ∨
        (framed = true ∧ crced = true ∧ listed = false ∧ o = cntUnknown side) ∨
        (framed = true ∧ crced = true ∧ listed = true ∧ next = false ∧ o = cntSeq side) →
      Goes (.frameDrop side f) s (fun m => m.rd o = min 0xFFFFFFFF (s.m.rd o + 1) ∧
        (∀ p ∈ [cntFrame side, cntCrc side, cntUnknown side, cntSeq side], p ≠ o → m.rd p = s.m.rd p) ∧
        (m.barEnd side).nak = ((s.m.barEnd side).nak || typ != 1)))

/-- R72. -/
def Obligations.PersistenceSignatures : Prop :=
  (∀ o ∈ [R.DIC_STORE, R.DIC_RELOAD, R.DIC_FACTORY], ∃ f : Found, findObj o.idx o.sub = some f ∧ f.row.acc = .wo) ∧
  (∀ (s : State) (w : Writer) (sig : Word), Settled s →
    (sig.toNat ≠ 0x726F7473 → Turns (.store w sig) s w R.DIC_STORE false .range) ∧
    (sig.toNat ≠ 0x646F6C72 → Turns (.reload w sig) s w R.DIC_RELOAD false .range) ∧
    (sig.toNat ≠ 0x74636166 → Turns (.factory w sig) s w R.DIC_FACTORY false .range) ∧
    (bit 0 (s.m.rd R.DIC_PERS_STATUS) = true →
      (sig.toNat = 0x726F7473 → Turns (.store w sig) s w R.DIC_STORE false .busy) ∧
      (sig.toNat = 0x646F6C72 → Turns (.reload w sig) s w R.DIC_RELOAD false .busy) ∧
      (sig.toNat = 0x74636166 → Turns (.factory w sig) s w R.DIC_FACTORY false .busy)) ∧
    (bit 0 (s.m.rd R.DIC_PERS_STATUS) = false → s.m.linked .host = true →
      (sig.toNat = 0x726F7473 → Leads (.store w sig) s w R.DIC_STORE false (fun m => bit 0 (m.rd R.DIC_PERS_STATUS) = true)) ∧
      (sig.toNat = 0x646F6C72 → s.m.bar.peerHalted = false → kUnitRuns s.m .host = false →
        Leads (.reload w sig) s w R.DIC_RELOAD false (fun m => bit 0 (m.rd R.DIC_PERS_STATUS) = true ∧
          m.dic.bankA = s.m.dic.bankA ∧ m.dic.bankB = s.m.dic.bankB)) ∧
      (sig.toNat = 0x74636166 → s.m.bar.peerHalted = false → Leads (.factory w sig) s w R.DIC_FACTORY false (fun m =>
        bit 0 (m.rd R.DIC_PERS_STATUS) = true))))

/-- R368. -/
def Obligations.ReturnThroughSaveSet : Prop :=
  ∀ (s : State) (core : Fin 3) (c : Core) (base st : Nat), Settled s → c = s.m.core core → Fetches core 0x7F000073 s →
    1 ≤ c.lvl → base = (if c.lvl = 2 ∧ c.eact = true then 0x720 else if c.lvl = 1 then 0x510 else 0x710) →
    st = (c.csrGet (base + 1)).toNat →
    (bits 1 0 st ≤ c.lvl → bits 1 0 st ≠ 3 → Goes (.xret core) s (fun m =>
      (m.core core).lvl = bits 1 0 st ∧ (m.core core).fast = bit 4 st ∧
      (m.core core).xmask = (if bits 1 0 st = 0 then 0 else bits 3 2 st) ∧ (m.core core).pc = c.csrGet base ∧
      (m.core core).eact = (c.eact && decide (c.lvl ≠ 2)) ∧
      (bit 5 st = true → (m.core core).csrGet (stackCsr c.lvl) = mapGet 0 2 c.x ∧
        mapGet 0 2 (m.core core).x = c.csrGet (stackCsr c.lvl)) ∧
      (bit 5 st = false → (m.core core).x = c.x ∧ (m.core core).csr = c.csr) ∧ { m with cores := s.m.cores } = s.m)) ∧
    (c.lvl < bits 1 0 st → bits 1 0 st ≠ 3 → Goes (.xret core) s (Faulted core 1 8 0x7F000073 s.m)) ∧
    (bits 1 0 st = 3 → Goes (.xret core) s (Faulted core 1 2 0x7F000073 s.m))

/-- R379. -/
def Obligations.ShadowStackFaults : Prop :=
  ∀ (s : State) (core : Fin 3) (w : Word) (c : Core) (v : Nat) (t a : Word) (rest : List Word), Settled s →
    Fetches core w.toNat s → c = s.m.core core → insnWord w.toNat = some v → c.ssOn = true →
    let faults (i : Instr) (code : Nat) (info : Word) : Prop := Goes i s (fun m => Faulted core 3 code info.toNat s.m m ∧
      (c.xmask = 0 ∨ c.eact = false → (∀ l, (m.core core).ss l = c.ss l) ∧ (m.core core).instret = c.instret ∧
        ∀ r, r ≠ 2 → mapGet 0 r (m.core core).x = mapGet 0 r c.x))
    (isShadowReturn v = true → funct3 v = 0 → t = (c.rdX (rs1Of v) + immI v) &&& 0xFFFFFFFE →
      (c.ss c.lvl = a :: rest → a ≠ t → faults (.shadowReturn core w) 1 a) ∧
      (c.ss c.lvl = [] → faults (.shadowReturn core w) 3 t)) ∧
    (isShadowCall v = true → opcodeOf v = 0x6F ∨ (funct3 v = 0 ∧ isReturn (rdOf v) (rs1Of v) = false) →
      ssDepth ≤ (c.ss c.lvl).length → faults (.shadowCall core w) 2 (c.pc + BitVec.ofNat 32 (insnLen w.toNat)))

/-- The commands of the timebase complete, each with exactly the change its rule gives (R87, R91, R92, R94 to R100). -/
def Obligations.TimebaseCommands : Prop :=
  ∀ (s : State) (w : Writer), Settled s →
    (∀ v : BitVec 64, (toSigned 64 v.toNat).natAbs ≤ 2 ^ 62 →
      Writes (.ltStep w v) s w R.LT_STEP false
        (servoUnlock ({ s.m with tb := { s.m.tb with step := s.m.tb.step + toSigned 64 v.toNat } }.inc R.LT_STEP_COUNT))) ∧
    (∀ n : Fin 16, (gtLinked s.m n && n.val % 2 == 1) = false →
      (s.m.on (R.GT_RUN n) = false → Writes (.gtRunStart w n) s w (R.GT_RUN n) false
        ({ s.m with tb := { s.m.tb with pa := mapSet 0 n.val 0 s.m.tb.pa } }.wr (R.GT_RUN n) 1)) ∧
      (s.m.on (R.GT_RUN n) = true → Writes (.gtRunStart w n) s w (R.GT_RUN n) false s.m) ∧
      Writes (.gtRunStop w n) s w (R.GT_RUN n) false (s.m.wr (R.GT_RUN n) 0)) ∧
    (∀ (n : Fin 16) (v : Word), gtStill n s.m = true →
      Writes (.gtCountLoad w n v) s w (R.GT_COUNT n) false
        { s.m with tb := { s.m.tb with loads := mapPut n.val v.toNat s.m.tb.loads } }) ∧
    (∀ (n : Fin 16) (v : Word), gtStill n s.m = true → v.toNat / 2 ^ 16 = 0 → bits 14 4 v.toNat = 0 →
      (n.val % 2 = 1 → bit 15 v.toNat = false) →
      (n.val % 2 = 0 → bit 15 v.toNat ≠ bit 15 (s.m.rd (R.GT_CTRL n)) →
        s.m.on (R.GT_RUN n) = false ∧ s.m.on (R.GT_RUN (n + 1)) = false) →
      Writes (.gtCtrlWrite w n v) s w (R.GT_CTRL n) false (s.m.wr (R.GT_CTRL n) v.toNat)) ∧
    (∀ (n : Fin 16) (c : Fin 2), gtRuns s.m n = true → (gtLinked s.m n && n.val % 2 == 1) = false →
      To (.gtCompareMatch n c) s
        (Mach.when (!s.m.pwr.fSleep) (fun m => trpTimerMatch n c (m.when (!s.m.keepHalted) (movArrive 3 (2 * n + c))))
          (s.m.raise (R.GT_STATUS n) (R.GT_EVT_EN (gtGov s.m n)) c (336 + n)))) ∧
    (∀ n : Fin 16, gtRuns s.m n = true →
      To (.gtWrap n) s (s.m.raise (R.GT_STATUS n) (R.GT_EVT_EN (gtGov s.m n)) 2 (336 + n))) ∧
    (bit 1 (s.m.rd R.LT_SERVO_STATUS) = false → s.m.rd R.LT_SERVO_MODE ≠ 1 →
      To .holdover s ((s.m.putBit R.LT_SERVO_STATUS 1 true).assertSrc 369)) ∧
    (bit 1 (s.m.rd R.LT_SERVO_STATUS) = false → s.m.rd R.LT_SERVO_MODE = 1 → Goes .holdover s (fun m =>
      bit 1 (m.rd R.LT_SERVO_STATUS) = true ∧
      m.rd R.LT_ADDEND = (ltAddendClamp (0x80000000 + s.m.rdI 32 R.LT_INTEGRAL)).toNat))

/-- The commands of the wheel decoders complete (R103, R105, R106, R113, R117, R121, R122, R135, R136, R144). -/
def Obligations.WheelCommands : Prop :=
  ∀ (s : State) (w : Writer) (d : Fin 16), Settled s →
    (whlEnableOk s.m d = true → s.m.whlState d = 0 → s.m.inHold = false → s.m.pwr.fSleep = false →
      May w (R.WHL_ENABLE d) false s → Acts (.whlEnableOn w d) s (fun m => m.on (R.WHL_ENABLE d) = true ∧ m.whlState d = 1 ∧
        m.rd (R.WHL_DIR d) = 0 ∧ ∃ p, m.whl d = { plausArmed := p, plausFault := (s.m.whl d).plausFault, plausWait := true, wrote := some s.m.now })) ∧
    (whlEnableOk s.m d = false → Turns (.whlEnableOn w d) s w (R.WHL_ENABLE d) false .range) ∧
    (May w (R.WHL_ENABLE d) false s → Acts (.whlEnableOff w d) s (fun m => m.on (R.WHL_ENABLE d) = false ∧ m.whlState d = 0 ∧
      whlPublished m d = false)) ∧
    (∀ (rise dir lvl : Bool) (t : BitVec 64) (t1 : Nat) (m : Mach), s.m.whlState d ≠ 0 → whlQuad s.m d = false →
      whlDeaf s.m d = false → quadAccept (s.m.rd (R.WHL_IN_A d)) rise t.toNat (dirTaken d dir s.m) = (some (lvl, t1), m) →
      (whlEdgeSel m d = 0 → lvl = true) → (whlEdgeSel m d = 1 → lvl = false) →
      To (.toothEdge d rise t dir) s
        (settle (whlTooth d ((t1 : Rat) / 8) lvl (whlLevel m (s.m.rd (R.WHL_IN_DIR d)) != whlDirPol m d) m))) ∧
    (∀ (isB rise lvl other : Bool) (t : BitVec 64) (t1 : Nat) (m : Mach), s.m.whlState d ≠ 0 → whlQuad s.m d = true →
      whlDeaf s.m d = false →
      quadAccept (s.m.rd (if isB then R.WHL_IN_B d else R.WHL_IN_A d)) rise t.toNat s.m = (some (lvl, t1), m) →
      other = whlLevel m (s.m.rd (if isB then R.WHL_IN_A d else R.WHL_IN_B d)) →
      let up := if isB then lvl == other else lvl != other
      let cnt := if up then (m.whl d).cnt + 1 else (m.whl d).cnt - 1
      let l := quadCross m d up cnt
      To (.quadCountEdge d isB rise t) s (settle (m.setWhl d { m.whl d with
        cnt := cnt
        marks := l.map (fun b => (b, up)) ++ (m.whl d).marks.filter (fun e => !l.contains e.1)
        waiting := (m.whl d).waiting ++ l.map (fun _ => (t1, !up)) }))) ∧
    (∀ (rise lvl : Bool) (t : BitVec 64) (t1 : Nat) (m : Mach), s.m.whlState d ≠ 0 → whlDeaf s.m d = false →
      quadAccept (s.m.rd (R.WHL_IN_IDX d)) rise t.toNat s.m = (some (lvl, t1), m) → lvl ≠ whlIdxFall m d → whlRefMode m d < 2 →
      To (.indexEdge d rise t) s (settle (m.updWhl d (fun x => { x with idxAt := some ((t1 : Rat) / 8) })))) ∧
    (∀ (p : Rat), s.m.whlState d = 2 ∨ s.m.whlState d = 3 → (s.m.whl d).dp = some p →
      tblGap (whlTbl s.m d) (nextEntry (whlTbl s.m d) (s.m.whl d).k (s.m.whl d).back).1 = false →
      (s.m.whl d).virt < s.m.rd (R.WHL_VIRT_MAX d) → whlRefMode s.m d = 1 →
      let nx := nextEntry (whlTbl s.m d) (s.m.whl d).k (s.m.whl d).back
      To (.virtualTooth d) s (whlPredict d (whlPassed d nx.1 s.m (whlRaise d 5 ((s.m.setWhl d { s.m.whl d with
        prev := (s.m.whl d).prev + p
        pos := (s.m.whl d).pos + nx.2
        k := nx.1
        acc := (s.m.whl d).acc + nx.2
        virt := (s.m.whl d).virt + 1
        virtual := true }).inc (R.WHL_CNT_VIRT d)))))) ∧
    ((s.m.whl d).dp.isSome = true →
      tblGap (whlTbl s.m d) (nextEntry (whlTbl s.m d) (s.m.whl d).k (s.m.whl d).back).1 = true →
      (s.m.whlState d = 2 ∨ s.m.whlState d = 3 ∧ s.m.rd (R.WHL_FW_TEETH d) = 0 →
        Acts (.gapDeadlineMiss d) s (fun m => m.whlState d = 1 ∧ whlPublished m d = false)) ∧
      (∀ (h : Tooth) (r : List Tooth), s.m.whlState d = 3 → s.m.rd (R.WHL_FW_TEETH d) ≠ 0 → (s.m.whl d).speedOk = true →
        (s.m.whl d).hist = h :: r → h.om ≠ 0 → Acts (.gapDeadlineMiss d) s (fun m => m.whlState d = 4 ∧
          (m.whl d).fw = some ((whlPosNow s.m d : Rat), (s.m.now : Rat), h.om)))) ∧
    (∀ (h : Tooth) (r : List Tooth), s.m.whlState d = 2 ∨ s.m.whlState d = 3 ∨ s.m.whlState d = 4 → (s.m.whl d).hist = h :: r →
      Acts (.stall d) s (fun m => m.whlState d = 5 ∧ m.rd (R.WHL_DIR d) = 0 ∧ whlAngle m d = ofSigned 32 h.p ∧
        (m.whl d).stalled = true)) ∧
    (s.m.whlState d = 4 → Acts (.freewheelExpiry d) s (fun m => m.whlState d = 1 ∧ whlPublished m d = false)) ∧
    (∀ e : Nat, whlPartner s.m d = some e → (s.m.whl d).plausArmed = true → plausFails s.m d e = true →
      To (.plausCheck d) s (settle ((whlRaise d 7 ((s.m.updWhl d (fun x => { x with plausFault := true })).inc
        (R.WHL_CNT_PLAUS d))).alarm 13)))

/-- The commands of Lantern's slots complete (R151, R154 to R156, R165, R166, R170, R172, R173, R175, R177, R179). -/
def Obligations.AngleEventCommands : Prop :=
  ∀ (s : State) (w : Writer) (n : Fin 1024), Settled s →
    (evtEnableOk s.m n = true → (s.m.on R.LAN_RUN && (s.m.evt n).st == 0 && !s.m.fieldStill) = false →
      Writes (.evtEnableOn w n) s w (R.EVT_ENABLE n) false (s.m.wr (R.EVT_ENABLE n) 1)) ∧
    (evtEnableOk s.m n = true → s.m.on R.LAN_RUN = true → (s.m.evt n).st = 0 → s.m.fieldStill = false →
      Carries (.evtEnableOn w n) s w (R.EVT_ENABLE n) false (lanUnblock (evtArm n (s.m.wr (R.EVT_ENABLE n) 1)))) ∧
    (evtEnableOk s.m n = false → Turns (.evtEnableOn w n) s w (R.EVT_ENABLE n) false .range) ∧
    (∀ m : Mach, m = (evtHandIf n s.m).wr (R.EVT_ENABLE n) 0 →
      Carries (.evtEnableOff w n) s w (R.EVT_ENABLE n) false
        (lanUnblock (if (m.evt n).st = 3 ∨ (m.evt n).st = 4 then m else m.updEvt n EvtSlot.rest))) ∧
    (handoverDue s.m n = false → evtHandIf n s.m = s.m) ∧
    (s.m.fieldStill = false → Carries (.lanRunOn w) s w R.LAN_RUN false (lanUnblock (lanArmAll (s.m.wr R.LAN_RUN 1)))) ∧
    Carries (.lanRunOff w) s w R.LAN_RUN false (((s.m.each (s.m.evts.map (·.1)) evtHandIf).wr R.LAN_RUN 0).each (s.m.evts.map (·.1))
      (fun k m => if (m.evt k).st = 3 ∨ (m.evt k).st = 4 then m else m.updEvt k EvtSlot.rest)) ∧
    (∀ v : BitVec 64,
      (v.toNat / 2 ^ 32 ≠ 0 → Writes (.evtTimingWrite w n v) s w (R.EVT_TIMING n) false
        ({ s.m with lan := { s.m.lan with
          past := s.m.lan.past ++ [((R.EVT_TIMING n).key, s.m.now, s.m.rd (R.EVT_TIMING n))] } }.wr (R.EVT_TIMING n) v.toNat)) ∧
      (v.toNat / 2 ^ 32 = 0 → Turns (.evtTimingWrite w n v) s w (R.EVT_TIMING n) false .range)) ∧
    ((s.m.evt n).st = 5 ∨ (s.m.evt n).st = 7 → evtMode s.m n ≠ 2 → evtLive s.m n = true →
      Carries (.arm w n) s w (R.EVT_CMD n) false (lanUnblock (evtArm n s.m))) ∧
    ((s.m.evt n).st = 1 ∨ (s.m.evt n).st = 2 → handoverDue s.m n = false →
      ∀ m : Mach, m = lanUnblock (evtRaise n 4 (s.m.updEvt n (fun x =>
        { x with st := 7, frozen := false, fwEnd := none, ended := s.m.now }))) →
      Carries (.cancel w n) s w (R.EVT_CMD n) false m ∧ Carries (.cut w n) s w (R.EVT_CMD n) false m) ∧
    (handoverDue s.m n = true → refreshPending s.m n = false → s.m.fieldStill = false →
      Leads (.cancel w n) s w (R.EVT_CMD n) false (fun m => (m.evt n).st = 3)) ∧
    ((s.m.evt n).st = 3 ∨ (s.m.evt n).st = 4 → Writes (.cancel w n) s w (R.EVT_CMD n) false s.m ∧
      Carries (.cut w n) s w (R.EVT_CMD n) false (evtCut n s.m)) ∧
    (∀ (k : Fin 32) (b : Batch), (s.m.lane k).busy = some b →
      let done (m : Mach) : Mach := lanUnblock ((m.maxTo (R.LAN_DEC_LR_MAX k) (min 0xFFFF (s.m.now - b.at_))).updLane k
        (fun l => { l with busy := none, wait := l.wait.drop 1 }))
      let next (m : Mach) : Mach := match (s.m.lane k).wait with
        | [] => m
        | t :: _ => lanBegin k t m
      (slotsOf s.m k = [] → To (.lanternRefresh k) s (settle (next (done s.m)))) ∧
      (slotsOf s.m k = [n.val] → To (.lanternRefresh k) s (settle (next (done (evtRefresh n b s.m)))))) ∧
    ((s.m.evt n).st = 2 → s.m.fieldStill = false →
      (refreshPending s.m n = false → To (.handover n) s (settle (lanUnblock (evtRaise n 1 (s.m.updEvt n (fun x =>
        { x with st := 3, frozen := false, fwEnd := none })))))) ∧
      To (.handoverFallback n) s (settle (lanUnblock (evtRaise n 9 (lanRaise 2 ((evtRaise n 1 (s.m.updEvt n (fun x =>
        { x with st := 3, frozen := false, fwEnd := none }))).inc R.LAN_CNT_ABANDON)))))) ∧
    ((s.m.evt n).st = 3 → s.m.fieldStill = false →
      To (.evtStart n) s (settle (anglePlayed (evtChan s.m n) (s.m.evt n).noS
        (angleDrive (evtChan s.m n) (evtRaise n 2 (s.m.updEvt n (fun x => { x with st := 4 }))))))) ∧
    ((s.m.evt n).st = 4 → s.m.fieldStill = false →
      To (.evtEnd n) s (settle (lanUnblock (anglePlayed (evtChan s.m n) (s.m.evt n).noE (angleDrive (evtChan s.m n) (evtRaise n 3
        (((angleDrive (evtChan s.m n) s.m).updEvt n (fun x =>
          { x with st := if evtLive s.m n then 5 else 0, late := false, clamped := false, ended := s.m.now })).inc (R.EVT_CNT_DONE n)))))))) ∧
    ((s.m.evt n).st = 5 ∨ (s.m.evt n).st = 7 → evtMode s.m n = 2 → evtLive s.m n = true →
      To (.evtRearm n) s (settle (evtAim n (max (decPos s.m (evtDec s.m n)) (s.m.evt n).target) s.m))) ∧
    (∀ m : Mach, (s.m.evt n).st = 2 → (s.m.evt n).frozen = true →
      m = s.m.updEvt n (fun x => { x with frozen := false, fwEnd := none }) →
      To (.freewheelLimit n) s (settle (lanUnblock (evtBlock n (if causeDec m n = 0 then 2 else causeDec m n) m)))) ∧
    (∀ (k2 : Nat) (m : Mach), k2 = min 64 (max 1 (max ((s.m.lan.demand + 7999) / 8000) s.m.lan.k1)) →
      m = { s.m.wr R.LAN_DEMAND s.m.lan.demand with lan := { s.m.lan with demand := 0, k1 := k2 - 1 } }.maxTo R.LAN_DEMAND_MAX
        s.m.lan.demand →
      (s.m.lan.k1 = 0 → To .demandInterval s (Mach.when (decide (1 < k2)) (lanRaise 0) m)) ∧
      (s.m.lan.k1 ≠ 0 → To .demandInterval s (Mach.when (k2 == 1) (lanRaise 1) (m.inc R.LAN_CNT_OVL))))

/-- The commands of the cam engine's axes and masters complete (R190 to R210). -/
def Obligations.AxisCommands : Prop :=
  ∀ (s : State) (w : Writer) (a : Fin 128), Settled s →
    (∀ v : Fin 8,
      ((s.m.vm v).run = false → s.m.inHold = false → s.m.pwr.fSleep = false →
        Writes (.vmEnableOn w v) s w (R.VM_ENABLE v) false ((s.m.wr (R.VM_ENABLE v) 1).setVm v
          { run := true, pos := (s.m.wr (R.VM_ENABLE v) 1).rdI 64 (R.VM_POS_SET v) * 2 ^ 48 })) ∧
      ((s.m.vm v).run = true → Writes (.vmEnableOn w v) s w (R.VM_ENABLE v) false (s.m.wr (R.VM_ENABLE v) 1)) ∧
      Writes (.vmEnableOff w v) s w (R.VM_ENABLE v) false ((s.m.wr (R.VM_ENABLE v) 0).setVm v {})) ∧
    (s.m.axState a = 0 → axStartOk s.m a = true → s.m.inHold = false → s.m.pwr.fSleep = false →
      ∀ p : Nat, p = (s.m.wr (R.AX_RUN a) 1).rd (R.AX_PROFILE a) →
      Writes (.axRunOn w a) s w (R.AX_RUN a) false
        ((((s.m.wr (R.AX_RUN a) 1).wr (R.AX_STATE a) 1).wr (R.AX_PROF_CUR a) p).setAx a
          { ver := (s.m.prof p).ver, corr := (s.m.ax a).corr })) ∧
    (s.m.axState a = 0 → axStartOk s.m a = false → Turns (.axRunOn w a) s w (R.AX_RUN a) false .range) ∧
    (s.m.axState a ≠ 0 → Writes (.axRunOn w a) s w (R.AX_RUN a) false (s.m.wr (R.AX_RUN a) 1)) ∧
    Carries (.axRunOff w a) s w (R.AX_RUN a) false (axStop a (s.m.wr (R.AX_RUN a) 0)) ∧
    (s.m.axState a = 3 → (axMaster s.m a s.m.now).isSome = true →
      Writes (.resume w a) s w (R.AX_CMD a) false (s.m.updAx a (fun x => { x with resume := true }))) ∧
    (∀ v : BitVec 16, v.toNat = 0xFFFF ∨ v.toNat < 4096 ∧ profValid s.m v.toNat = true →
      Writes (.axProfNextWrite w a v) s w (R.AX_PROF_NEXT a) false (s.m.wr (R.AX_PROF_NEXT a) v.toNat)) ∧
    (∀ v : BitVec 16, v.toNat ≠ 0xFFFF → v.toNat < 4096 → profValid s.m v.toNat = false →
      Turns (.axProfNextWrite w a v) s w (R.AX_PROF_NEXT a) false .range) ∧
    (∀ (ecc : Bool) (m1 : Mach) (mp : Rat × Rat × Rat), s.m.fieldStill = false → axTakeVdec a (nodeCorrected a ecc s.m) = m1 →
      axMaster m1 a (s.m.now + 48) = some mp →
      (s.m.axState a = 1 → To (.axEvaluation ⟨a, ecc⟩) s (settle (axCompute a (s.m.now + 48) mp
        ((axRaise a 0 (axEnter a 2 m1)).updAx a (fun x => { x with good := some (s.m.now + 48, mp.1, mp.2.1) }))))) ∧
      (s.m.axState a = 2 ∨ s.m.axState a = 4 → To (.axEvaluation ⟨a, ecc⟩) s (settle (axCompute a (s.m.now + 48) mp
        (m1.updAx a (fun x => { x with good := some (s.m.now + 48, mp.1, mp.2.1) }))))) ∧
      (s.m.axState a = 3 → (m1.ax a).sub.isSome = true → (m1.ax a).resume = true → axJoin m1 a = false →
        To (.axEvaluation ⟨a, ecc⟩) s (settle (axCompute a (s.m.now + 48) mp (axRaise a 2 (axEnter a 2 (m1.updAx a (fun x =>
          { x with sub := none, resume := false, good := some (s.m.now + 48, mp.1, mp.2.1) })))))))) ∧
    (∀ (ecc : Bool) (m1 : Mach) (b : Subst), s.m.fieldStill = false → axTakeVdec a (nodeCorrected a ecc s.m) = m1 →
      (s.m.axState a = 3 → (m1.ax a).sub = some b → (m1.ax a).resume = false →
        To (.axEvaluation ⟨a, ecc⟩) s (settle (axCompute a (s.m.now + 48) (substAt m1 a (s.m.now + 48) b)
          (m1.updAx a (fun x => { x with resume := false }))))) ∧
      (axMaster m1 a (s.m.now + 48) = none → s.m.axState a = 2 ∨ s.m.axState a = 4 → ((axLose a m1).ax a).sub = some b →
        To (.axEvaluation ⟨a, ecc⟩) s
          (settle (axCompute a (s.m.now + 48) (substAt (axLose a m1) a (s.m.now + 48) b) (axLose a m1))))) ∧
    (s.m.axState a ≠ 0 → s.m.axState a ≠ 5 → s.m.fieldStill = false →
      nodeCorrected a true s.m = camRaise 0 (s.m.inc R.CAM_CNT_ECC_CORR)) ∧
    (∀ (e : AxEval), (s.m.ax a).pend = some e → s.m.fieldStill = false → s.m.axState a = 2 ∨ s.m.axState a = 3 ∨ s.m.axState a = 4 →
      (s.m.ax a).vdec = none →
      Goes (.axPublish a) s (fun m => m.rd (R.AX_POS a) = ofSigned 64 e.pos ∧ m.rd (R.AX_SPEED a) = ofSigned 32 e.sp ∧
        m.rd (R.AX_ACCEL a) = ofSigned 32 e.ac ∧ m.rd (R.AX_MPOS a) = ofSigned 64 e.me ∧ m.rd (R.AX_LAST_EVAL a) = e.te ∧
        m.rd (R.AX_CNT_EVAL a) = min 0xFFFFFFFF (s.m.rd (R.AX_CNT_EVAL a) + 1) ∧ (m.ax a).pend = none)) ∧
    (s.m.axState a ≠ 0 → s.m.axState a ≠ 5 → To (.nodeReadEccFatal a) s (settle (axRaise a 7 (axEnter a 5
      (((camRaise 1 (s.m.inc R.CAM_CNT_ECC_FATAL)).alarm 6).updAx a
        (fun x => { x with pend := none, sub := none, resume := false })))))) ∧
    (∀ b : Subst, (s.m.ax a).sub = some b → b.brake = none → s.m.axState a = 3 →
      To (.coastEnd a) s (s.m.updAx a (fun x => { x with
        sub := some { b with brake := some (b.t + 400 * s.m.rd (R.AX_LOSS_TIME a), s.m.rd (R.AX_LOSS_DECEL a)) } }))) ∧
    (∀ n : Fin 32, s.m.on (R.NM_VALID n) = true →
      To (.nmStale n) s ((s.m.wr (R.NM_VALID n) 0).inc (R.NM_CNT_STALE n)))

/-- The commands of the registration units complete, each with exactly the change its rule gives (R212 to R219). -/
def Obligations.OculusCommands : Prop :=
  ∀ (s : State) (w : Writer) (u : Fin 16), Settled s →
    (ocuEnableOk s.m u = true → s.m.ocuState u = 0 → s.m.inHold = false → s.m.pwr.fSleep = false →
      May w (R.OCU_ENABLE u) false s →
        exec (.ocuEnableOn w u) s =
          .next { s with m := answered w (rankNote w (R.OCU_ENABLE u) (ocuPoll u (((((s.m.wr (R.OCU_ENABLE u) 1).wr
              (R.OCU_STATE u) 1).wr (R.OCU_FILT u) 0).wr (R.OCU_ACC u) 0).setOcu u {}))) }) ∧
    (ocuEnableOk s.m u = true → s.m.ocuState u ≠ 0 ∨ s.m.inHold = true ∨ s.m.pwr.fSleep = true →
      May w (R.OCU_ENABLE u) false s →
        exec (.ocuEnableOn w u) s =
          .next { s with m := answered w (rankNote w (R.OCU_ENABLE u) (s.m.wr (R.OCU_ENABLE u) 1)) }) ∧
    (ocuEnableOk s.m u = false → Turns (.ocuEnableOn w u) s w (R.OCU_ENABLE u) false .range) ∧
    (May w (R.OCU_ENABLE u) false s →
      exec (.ocuEnableOff w u) s =
        .next { s with m := answered w (rankNote w (R.OCU_ENABLE u) (((s.m.wr (R.OCU_ENABLE u) 0).wr (R.OCU_STATE u)
            0).setOcu u {})) }) ∧
    (∀ v : Word, ocuLoose u s.m = true → ocuBindOk v.toNat = true → s.m.on (R.OCU_ENABLE u) = true →
      (s.m.chMode (bits 6 0 v.toNat) = 3 → s.m.ocuState u ≠ 0 → May w (R.OCU_BIND u) false s →
        exec (.ocuBindWrite w u v) s =
          .next { s with m := answered w (rankNote w (R.OCU_BIND u) (ocuPoll u (ocuWait u (s.m.wr (R.OCU_BIND u)
              v.toNat)))) }) ∧
      (s.m.chMode (bits 6 0 v.toNat) = 3 → s.m.ocuState u = 0 → May w (R.OCU_BIND u) false s →
        exec (.ocuBindWrite w u v) s =
          .next { s with m := answered w (rankNote w (R.OCU_BIND u) (s.m.wr (R.OCU_BIND u) v.toNat)) }) ∧
      (s.m.chMode (bits 6 0 v.toNat) ≠ 3 → Turns (.ocuBindWrite w u v) s w (R.OCU_BIND u) false .range)) ∧
    (∀ v : Word, ocuLoose u s.m = true → ocuBindOk v.toNat = true → s.m.on (R.OCU_ENABLE u) = false →
      May w (R.OCU_BIND u) false s →
        exec (.ocuBindWrite w u v) s =
          .next { s with m := answered w (rankNote w (R.OCU_BIND u) (s.m.wr (R.OCU_BIND u) v.toNat)) }) ∧
    (∀ v : Word, ocuLoose u s.m = true → ocuBindOk v.toNat = false →
      Turns (.ocuBindWrite w u v) s w (R.OCU_BIND u) false .range) ∧
    (∀ v : Word, ocuLoose u s.m = false → Turns (.ocuBindWrite w u v) s w (R.OCU_BIND u) false .running) ∧
    (∀ (t : Nat) (r : List Nat), (s.m.ocu u).caps = t :: r →
      exec (.ocuCapture u) s = .next { s with m := settle (ocuProcess u t (s.m.updOcu u (fun x => { x with caps := r }))) }) ∧
    ((s.m.ocu u).caps = [] → exec (.ocuCapture u) s = .next { s with m := s.m }) ∧
    (∀ m : Mach, m = ocuDrain u s.m →
      ((s.m.ocu u).caps = [] → m = s.m) ∧
      ((m.ocuState u ≠ 2 ∧ m.ocuState u ≠ 3) ∨ ocuMeasures m u = false →
        exec (.ocuTargetExpiry u) s = .next { s with m := settle m }) ∧
      (m.ocuState u = 2 ∨ m.ocuState u = 3 → ocuMeasures m u = true →
        ∀ m2 : Mach, m2 = m.updOcu u (fun x =>
          { x with next := x.next + 1, marks := x.marks.filter (fun k => decide ((m.ocu u).next < k.c)) }) →
        ((m.ocu u).marks.find? (fun k => k.c == (m.ocu u).next) = none →
          exec (.ocuTargetExpiry u) s = .next { s with m := settle (ocuMiss u m2) }) ∧
        (∀ k, (m.ocu u).marks.find? (fun k => k.c == (m.ocu u).next) = some k →
          exec (.ocuTargetExpiry u) s =
            .next { s with m := settle (if ocuUndo s.m u ∧ k.n = 1 then ocuCredit u m2 else m2) }))) ∧
    (∀ v : Word,
      (s.m.ocuState u = 3 → May w (R.OCU_FW_CORR u) false s →
        ∀ m : Mach, m = (ocuCorrect u (toSigned 32 v.toNat) s.m).2 →
          exec (.ocuFwCorr w u v) s = .next { s with m := settle (answered w (rankNote w (R.OCU_FW_CORR u) m)) }) ∧
      (s.m.ocuState u ≠ 3 → May w (R.OCU_FW_CORR u) false s →
        exec (.ocuFwCorr w u v) s = .next { s with m := answered w (rankNote w (R.OCU_FW_CORR u) s.m) }))

/-- The commands of the channels complete (R225, R227, R230, R231, R239 to R242, R252). -/
def Obligations.ChannelCommands : Prop :=
  ∀ (s : State) (w : Writer) (c : Fin 128), Settled s →
    (∀ v : Byte, chLoose c s.m = true → chModeOk c v.toNat = true →
      (chOwner s.m c = 0 → Writes (.chModeWrite w c v) s w (R.CH_MODE c) false
        ((s.m.updChan c (fun x => { x with was := some (s.m.chMode c) })).wr (R.CH_MODE c) v.toNat)) ∧
      (chOwner s.m c ≠ 0 → Turns (.chModeWrite w c v) s w (R.CH_MODE c) false .range)) ∧
    (∀ v : Byte, chLoose c s.m = false → Turns (.chModeWrite w c v) s w (R.CH_MODE c) false .running) ∧
    ((s.m.chan c).was.isSome = true →
      ((chModeTakes c s.m).chan c).q = [] ∧ ((chModeTakes c s.m).chan c).ghost = [] ∧
      ((chModeTakes c s.m).chan c).lvl = initLevel s.m c (s.m.rd (R.CH_MODE c)) ∧
      (chModeTakes c s.m).chMode c = s.m.rd (R.CH_MODE c) ∧
      (∀ o ∈ [R.CH_PERIOD c, R.CH_HIGH c, R.CH_FREQ c, R.CH_SD_RESULT c, R.CH_SD_STAMP c, R.CH_PT_COUNT c, R.CH_PT_LAG c],
        (chModeTakes c s.m).rd o = 0)) ∧
    (∀ m : Mach, m = (s.m.updChan c (fun x => { x with ghost := [], lock := none, pt := {}, sd := { x.sd with clk0 := none } })).wr
        (R.CH_EN c) 0 →
      (s.m.chMode c ≠ 10 ∨ s.m.sdClock c = false → Writes (.chEnWrite w c false) s w (R.CH_EN c) false m) ∧
      (s.m.chMode c = 10 → s.m.sdClock c = true → Writes (.chEnWrite w c false) s w (R.CH_EN c) false
        (m.each (sdUsers m c) (fun k m => m.updChan k (fun x => { x with sd := { x.sd with idle := m.now } }))))) ∧
    (∀ m : Mach, m = s.m.wr (R.CH_EN c) 1 → s.m.chEn c = false → chEnableOk s.m c = true →
      Writes (.chEnWrite w c true) s w (R.CH_EN c) false ((sdDrawn c m).updChan c (fun x => { x with
        lvl := if m.chMode c = 2 || m.chMode c = 1 then initLevel m c (m.chMode c)
          else if m.chMode c = 6 && !bit 31 (m.rd (R.CH_PT_CFG c)) then false else x.level
        fut := []
        q := x.q.map (fun e => { e with armed := false, due := none })
        ghost := []
        last := none
        join := none
        lock := none
        edge := none
        rise := none
        noSig := false
        enAt := m.now
        from_ := m.now
        gate := m.now
        gateN := 0
        gateX := []
        sd := sdFresh m c
        pt := {} }))) ∧
    (s.m.chEn c = false → chEnableOk s.m c = false → Turns (.chEnWrite w c true) s w (R.CH_EN c) false .range) ∧
    (s.m.chEn c = true → Writes (.chEnWrite w c true) s w (R.CH_EN c) false s.m) ∧
    (∀ (v : Bool) (m : Mach), m = s.m.wr (R.CH_GPIO_OUT c) (boolNat v) →
      (s.m.chMode c = 1 → s.m.chDirOut c = true → s.m.chEn c = true →
        Writes (.chGpioOutWrite w c v) s w (R.CH_GPIO_OUT c) false (outTransition c v s.m.now8 m)) ∧
      (s.m.chMode c = 1 → s.m.chDirOut c = false ∨ s.m.chEn c = false →
        Writes (.chGpioOutWrite w c v) s w (R.CH_GPIO_OUT c) false (m.updChan c (fun x => { x with lvl := v, fut := [] }))) ∧
      (s.m.chMode c ≠ 1 → Writes (.chGpioOutWrite w c v) s w (R.CH_GPIO_OUT c) false m)) ∧
    (∀ (rise lvl : Bool) (t : BitVec 64) (t1 : Nat) (m : Mach), chAccept c rise t.toNat s.m = (some (lvl, t1), m) →
      (s.m.chMode c = 1 → m.chMode c = 1 → edgeSel m c lvl = true →
        To (.gpioInputEdge c rise t) s (settle (m.raise (R.CH_EVT c) (R.CH_EVT_EN c) 0 c))) ∧
      (s.m.chMode c = 9 → m.chMode c = 9 → To (.gpioInputEdge c rise t) s (settle (turEdge c lvl t1 m))) ∧
      (s.m.chMode c = 3 → ocuUnits m c = [] → edgeSel m c lvl = true →
        To (.captureEdge c rise t) s (settle (chResult c (2 ^ 63 + boolNat lvl * 2 ^ 62 + t1 % 2 ^ 61)
          ((m.inc (R.CH_CNT_EVENTS c)).raise (R.CH_EVT c) (R.CH_EVT_EN c) 0 c)))) ∧
      (∀ r : Nat, s.m.chMode c = 4 → bit 1 (m.rd (R.CH_PF_CFG c)) = false → (m.chan c).rise = some r →
        let m1 := m.setChan c { m.chan c with rise := some t1, noSig := false }
        (lvl = true → (m.chan c).noSig = false →
          To (.periodEdge c rise t) s (settle (pfResult c (min 0xFFFFFFFF (t1 - r)) false (chRaise c 0
            ((m1.wr (R.CH_PERIOD c) (min 0xFFFFFFFF (t1 - r))).inc (R.CH_CNT_EVENTS c)))))) ∧
        (lvl = true → (m.chan c).noSig = true → To (.periodEdge c rise t) s (settle m1)) ∧
        (lvl = false → To (.periodEdge c rise t) s (settle (m.wr (R.CH_HIGH c) (min 0xFFFFFFFF (t1 - r))))))) ∧
    (∀ (last : Nat) (left : Bool), (s.m.chan c).lock = some (last, left) →
      (s.m.chIn c = left → To (.lockoutEnd c) s (s.m.setChan c { s.m.chan c with lock := none })) ∧
      (s.m.chIn c ≠ left → s.m.fieldStill = false → s.m.chEn c = true → s.m.chMode c = 3 →
        To (.lockoutEnd c) s (settle (captureTo c (s.m.chIn c) true (8 * last)
          (chRaise c 5 (s.m.setChan c { s.m.chan c with lock := none })))))) ∧
    (s.m.chMode c = 4 → s.m.chEn c = true → To (.noSignal c) s (settle (pfResult c 0 true (chRaise c 6
      ((s.m.updChan c (fun x => { x with noSig := true })).dflts [R.CH_PERIOD c, R.CH_HIGH c, R.CH_FREQ c]))))) ∧
    (∀ f : Nat, s.m.chMode c = 4 → s.m.chEn c = true → bit 1 (s.m.rd (R.CH_PF_CFG c)) = true →
      f = (if 2 ≤ (s.m.chan c).gateN ∧ (s.m.chan c).gateF < (s.m.chan c).gateL then
        min 0xFFFFFFFF (ratRound ((((s.m.chan c).gateN - 1) * 3200000000000 : Nat) /
          (((s.m.chan c).gateL - (s.m.chan c).gateF : Nat) : Rat))).toNat else 0) →
      To (.freqGateEnd c) s (settle (pfResult c f false (chRaise c 0 (((Mach.each (s.m.chan c).gateX (gateEdge c) (s.m.setChan c
        { s.m.chan c with gate := s.m.now, gateN := 0, gateX := [] })).wr (R.CH_FREQ c) f).inc (R.CH_CNT_EVENTS c)))))) ∧
    (∀ t len : Nat, len = 400 * bits 31 16 (s.m.rd (R.CH_PF_CFG c)) →
      ((s.m.chan c).gate ≤ t / 8 → t / 8 < (s.m.chan c).gate + len → ((gateEdge c t s.m).chan c).gateN = (s.m.chan c).gateN + 1 ∧
        ((gateEdge c t s.m).chan c).gateL = t) ∧
      ((s.m.chan c).gate + len ≤ t / 8 → ((gateEdge c t s.m).chan c).gateN = (s.m.chan c).gateN ∧
        ((gateEdge c t s.m).chan c).gateX = (s.m.chan c).gateX ++ [t]))

/-- The channels' ports, COMPARE outputs, PULSE_TRAIN and SIGMA_DELTA complete (R233 to R251, R551). -/
def Obligations.ChannelPorts : Prop :=
  ∀ (s : State) (w : Writer) (port : Fin 17) (c : Fin 128), Settled s →
    (∀ v : Word, MayPort port 1 (0x48000000 + 16 * c.val) s →
      To (.pushLo port c v) s (s.m.updChan c (fun x => { x with stage := mapSet 0 port.val v.toNat x.stage }))) ∧
    (∀ (v : Word) (e : Nat), MayPort port 1 (0x48000000 + 16 * c.val + 4) s →
      e = v.toNat * 2 ^ 32 + mapGet 0 port.val (s.m.chan c).stage →
      (port.val = 0 ∨ (s.m.chan c).q.length < 16 →
        (s.m.chMode c = 2 → badEntry e = false →
          To (.pushHi port c v) s (s.m.setChan c { s.m.chan c with
            q := (s.m.chan c).q ++ [{ w := e, at_ := s.m.now, by_ := port.val }] })) ∧
        (s.m.chMode c ≠ 2 → To (.pushHi port c v) s (chRaise c 2 (s.m.inc (R.CH_CNT_DROP c)))) ∧
        (s.m.chMode c = 2 → badEntry e = true → To (.pushHi port c v) s (chRaise c 3 (s.m.inc (R.CH_CNT_DROP c))))) ∧
      (port.val ≠ 0 → 16 ≤ (s.m.chan c).q.length → To (.pushHi port c v) s s.m)) ∧
    (s.m.chMode c = 2 → (∀ n : Nat, (s.m.chan c).q.length = 16 + n → 0 < n → ((chTrim c s.m).chan c).q = (s.m.chan c).q.take 16 ∧
        (chTrim c s.m).rd (R.CH_CNT_DROP c) = min 0xFFFFFFFF (s.m.rd (R.CH_CNT_DROP c) + n)) ∧
      ((s.m.chan c).q.length ≤ 16 → chTrim c s.m = s.m)) ∧
    (∀ (a b : Entry) (r : List Entry), (s.m.chan c).q = r ++ [a, b] → (∀ e ∈ r, e.at_ ≠ s.m.now) → a.at_ = s.m.now → b.at_ = s.m.now →
      a.by_ < 18 → b.by_ < a.by_ → ((chSettle c s.m).chan c).q = r ++ [b, a]) ∧
    (MayPort port 0 (0x48000000 + 16 * c.val) s →
      (qEmpty s.m c = true → port.val = 0 → To (.popLo port c) s (s.m.send (.load (port.val + 2)) [0])) ∧
      (qEmpty s.m c = true → port.val ≠ 0 → To (.popLo port c) s s.m) ∧
      (∀ a : AngleEntry, s.m.chMode c = 8 → angleFirst s.m c = some a → To (.popLo port c) s
        (settle (((angleOut [a] s.m).updChan c
          (fun x => { x with pop := mapSet 0 port.val ((boolNat a.high * 2 ^ 62 + t61 a.t) / 2 ^ 32) x.pop })).send
          (.load (port.val + 2)) [(boolNat a.high * 2 ^ 62 + t61 a.t) % 2 ^ 32]))) ∧
      (∀ (e : Entry) (r : List Entry), s.m.chMode c ≠ 8 → (s.m.chan c).q = e :: r → chOld s.m c ≠ [] →
        To (.popLo port c) s (((chLeft c (s.m.setChan c { s.m.chan c with
          q := r, ghost := (s.m.chan c).ghost ++ withdrawn s.m c [e] })).updChan c
          (fun x => { x with pop := mapSet 0 port.val (e.w / 2 ^ 32) x.pop })).send (.load (port.val + 2)) [e.w % 2 ^ 32]))) ∧
    (MayPort port 0 (0x48000000 + 16 * c.val + 4) s →
      To (.popHi port c) s (s.m.send (.load (port.val + 2)) [mapGet 0 port.val (s.m.chan c).pop])) ∧
    (∀ v : BitVec 64, s.m.chMode c = 2 → badEntry v.toNat = false → (s.m.chan c).q.length < 16 →
      Writes (.chQPush w c v) s w (R.CH_Q_PUSH c) false
        (s.m.setChan c { s.m.chan c with q := (s.m.chan c).q ++ [{ w := v.toNat, at_ := s.m.now, by_ := 17 }] })) ∧
    (∀ v : BitVec 64, s.m.chMode c ≠ 2 ∨ badEntry v.toNat = true ∨ 16 ≤ (s.m.chan c).q.length →
      Turns (.chQPush w c v) s w (R.CH_Q_PUSH c) false .range) ∧
    Writes (.chQPop w c true) s w (R.CH_Q_POP c) false { s.m with pops := s.m.pops ++ [(false, c.val)] } ∧
    (∀ (e : Entry) (r : List Entry), s.m.chMode c ≠ 8 → (s.m.chan c).q = e :: r → chOld s.m c ≠ [] →
      qPop c s.m = chLeft c (s.m.setChan c { s.m.chan c with
        q := r, ghost := (s.m.chan c).ghost ++ withdrawn s.m c [e] }) ∧
      (chOld s.m c = e :: r → Writes (.chQFlush w c true) s w (R.CH_Q_FLUSH c) false (chLeft c (s.m.setChan c { s.m.chan c with
        q := [], ghost := (s.m.chan c).ghost ++ withdrawn s.m c (e :: r) })))) ∧
    (s.m.chMode c = 8 → Carries (.chQFlush w c true) s w (R.CH_Q_FLUSH c) false (angleOut (angleEntries s.m c) s.m)) ∧
    (s.m.chMode c ≠ 8 → chOld s.m c = [] → qPop c s.m = s.m ∧
      Writes (.chQFlush w c true) s w (R.CH_Q_FLUSH c) false s.m) ∧
    Writes (.chQPop w c false) s w (R.CH_Q_POP c) false s.m ∧
    Writes (.chQFlush w c false) s w (R.CH_Q_FLUSH c) false s.m ∧
    (∀ (e : Entry) (r : List Entry), s.m.chMode c = 2 → s.m.chEn c = true → s.m.fieldStill = false →
      (s.m.chan c).ghost = [] → (s.m.chan c).q = e :: r → e.armed = false →
      (inPast (e.w % 2 ^ 61) s.m.now8 = false →
        To (.compareArm c) s (s.m.updChan c (fun x => { x with q := { e with armed := true } :: r }))) ∧
      (inPast (e.w % 2 ^ 61) s.m.now8 = true →
        let late := (chRaise c 4 (s.m.inc (R.CH_CNT_LATE c))).updChan c (fun x => { x with q := r })
        (bit 1 (s.m.rd (R.CH_OUT_CFG c)) = false →
          To (.compareArm c) s (late.updChan c (fun x => { x with
            q := { e with armed := true, due := some (t61 (s.m.now8 + 8)) } :: r }))) ∧
        (bit 1 (s.m.rd (R.CH_OUT_CFG c)) = true →
          To (.compareArm c) s (settle (chLeft c (late.inc (R.CH_CNT_DROP c))))))) ∧
    (∀ (e : Entry) (r : List Entry), s.m.chMode c = 2 → s.m.chEn c = true → s.m.fieldStill = false → e.armed = true →
      ((s.m.chan c).ghost = e :: r →
        To (.comparePlay c) s (settle (chPlay c e.w e.plays (s.m.setChan c { s.m.chan c with ghost := r })))) ∧
      ((s.m.chan c).ghost = [] → (s.m.chan c).q = e :: r →
        To (.comparePlay c) s (settle (chLeft c (chPlay c e.w e.plays (s.m.setChan c { s.m.chan c with q := r })))))) ∧
    (∀ p, (s.m.chan c).pt.plan = some p → s.m.chMode c = 6 → s.m.chEn c = true → s.m.fieldStill = false →
      To (.ptStepHandover c) s (s.m.updChan c (fun x => { x with
        pt := { (s.m.chan c).pt with plan := none, handed := (s.m.chan c).pt.handed ++ [p] } }))) ∧
    (∀ (t : Int) (d : Bool) (r : List (Int × Bool)) (m : Mach), (s.m.chan c).pt.handed = (t, d) :: r → s.m.chMode c = 6 →
      s.m.chEn c = true → s.m.fieldStill = false →
      m = (ptCount c ((s.m.chan c).pt.cnt.getD 0 + (if d then 1 else -1)) (outTransition c true t.toNat s.m)).updChan c
        (fun x => { x with pt := { x.pt with handed := r, lead := some t, active := some (t + 8 * ptWidth s.m c) } }) →
      To (.ptStepPlay c) s (settle (if (s.m.chan c).pt.plan.isSome then m else ptPlan c m))) ∧
    (∀ e : Int, (s.m.chan c).pt.active = some e →
      To (.ptStepEnd c) s (settle (ptTurnDue c e (outTransition c false e.toNat
        (s.m.updChan c (fun x => { x with pt := { x.pt with active := none } })))))) ∧
    (s.m.chMode c = 10 → s.m.chEn c = true → s.m.sdClock c = false → s.m.fieldStill = false →
      (∀ (l : List Bool) (t : BitVec 64), sdClocked s.m (sdClk s.m c) = true → sdEdge s.m c t.toNat = true →
        To (.sdFrameResult c l t) s (settle (((sdReturn c s.m).updChan c (fun x => { x with sd := { x.sd with idle := s.m.now } })).each
          (l.zip (sdStamps s.m c l.length t.toNat)) (fun e m => sdSample c e.1 e.2 m)))) ∧
      (∀ (b : Bool) (t n : Nat) (m : Mach), n = ((sdEdgeNo s.m c t).map (fun k => k % sdOsr s.m c)).getD (s.m.chan c).sd.n →
        (s.m.chan c).sd.begun = true ∨ n = 0 → (sdEdgeNo s.m c t).isSome = true ∨ (s.m.chan c).sd.skip = 0 →
        m = s.m.setChan c { s.m.chan c with sd := { sincSample (s.m.chan c).sd b with begun := true, n := n + 1 } } →
        (n + 1 ≠ sdOsr s.m c → sdSample c b t s.m = m) ∧
        (∀ r : Nat × Sinc, n + 1 = sdOsr s.m c → sincFrame (m.chan c).sd = r → 0 < r.1 → r.1 < sdOsr s.m c ^ 3 →
          bit 28 (s.m.rd (R.CH_SD_CFG c)) = false →
          sdSample c b t s.m = chRaise c 0 ((((m.setChan c { m.chan c with sd := { r.2 with bad := false } }).wr
            (R.CH_SD_RESULT c) (ofSigned 32 ((2 * (r.1 : Int) - (sdOsr s.m c ^ 3 : Nat)) * (2 ^ 30 : Nat) / (sdOsr s.m c ^ 3 : Nat)))).wr
            (R.CH_SD_STAMP c) t).inc (R.CH_CNT_EVENTS c)))) ∧
      (∀ m : Mach, m = chRaise c 8 (s.m.updChan c (fun x => { x with sd := { x.sd with loss := true, bad := true } })) →
        To (.sdClkLoss c) s (settle (Mach.when (decide (c.val < 32) && bit c (m.rd R.SAF_SD_MASK)) (fun m => m.alarm 18) m))) ∧
      ((s.m.chan c).sd.loss = true →
        To (.sdClockReturn c) s (s.m.updChan c (fun x => { x with sd := { idle := s.m.now, bad := x.sd.bad, skip := if x.sd.n = 0 then x.sd.skip else sdOsr s.m c - x.sd.n } }))))

/-- The commands of the movers complete; an element moves exactly its bytes (R255 to R263). -/
def Obligations.MoverCommands : Prop :=
  ∀ (s : State) (w : Writer) (n : Fin 16), Settled s →
    (s.m.fieldStill = false → s.m.movState n = 0 ∨ s.m.movState n = 4 →
      May w (R.MOV_RUN n) false s → Goes (.movRunOn w n) s (fun m => m.on (R.MOV_RUN n) = true ∧ m.movState n = 1 ∧
        m.rd (R.MOV_CUR n) = s.m.rd (R.MOV_DESC n) ∧ (m.mov n).fetch = some (s.m.rd (R.MOV_DESC n)) ∧
        (m.mov n).ring = (s.m.mov n).ring)) ∧
    Writes (.movRunOff w n) s w (R.MOV_RUN n) false (((s.m.wr (R.MOV_RUN n) 0).wr (R.MOV_STATE n) 0).updMov n
      (fun x => { ring := x.ring })) ∧
    (∀ d : Desc, (s.m.mov n).desc = some d → d.trig = 7 → s.m.movState n = 2 ∨ s.m.movState n = 3 →
      ((s.m.mov n).burst = 0 → Writes (.trigger w n) s w (R.MOV_CMD n) false
        ((s.m.setMov n { s.m.mov n with burst := d.burstOf (s.m.rd (R.MOV_REMAIN n)) }).wr (R.MOV_STATE n) 3)) ∧
      ((s.m.mov n).burst ≠ 0 → (s.m.mov n).trig = false → Writes (.trigger w n) s w (R.MOV_CMD n) false
        (s.m.setMov n { s.m.mov n with trig := true })) ∧
      ((s.m.mov n).burst ≠ 0 → (s.m.mov n).trig = true → Writes (.trigger w n) s w (R.MOV_CMD n) false
        (movRaise n 3 (s.m.inc (R.MOV_CNT_TRIG_OVR n))))) ∧
    (∀ a : Word, MayCore 2 1 (0x48001000 + 16 * n.val) s →
      ((s.m.mov n).ring.length < 8 → (s.m.movState n = 4 → s.m.on (R.MOV_RUN n) = false) →
        To (.ringAppend n a) s (s.m.setMov n { s.m.mov n with ring := (s.m.mov n).ring ++ [a.toNat] })) ∧
      (8 ≤ (s.m.mov n).ring.length →
        To (.ringAppend n a) s (movRaise n 2 (s.m.inc (R.MOV_CNT_RING_DROP n))))) ∧
    (∀ d : Desc, (s.m.mov n).desc = some d → d.trig = 3 ∨ d.trig = 4 → s.m.movState n = 2 → (s.m.mov n).burst = 0 →
      To (.movTriggerArrival n) s ((s.m.setMov n { s.m.mov n with
        arrived := (s.m.mov n).arrived - 1, burst := d.burstOf (s.m.rd (R.MOV_REMAIN n)) }).wr (R.MOV_STATE n) 3)) ∧
    (∀ a : Nat, (s.m.mov n).fetch = some a → s.m.fieldStill = false → s.m.on (R.MOV_RUN n) = true → s.m.movState n = 1 →
      a % 32 = 0 → movMemory a 32 = true →
      (movMarkOk s.m a = true → movDescOk (movRead s.m a) = true → Goes (.movDescFetch n false) s (fun m =>
        m.movState n = (if (movRead s.m a).trig = 0 then 3 else 2) ∧ m.rd (R.MOV_REMAIN n) = (movRead s.m a).count ∧
        (m.mov n).desc = some (movRead s.m a))) ∧
      (movMarkOk s.m a = false ∨ movDescOk (movRead s.m a) = false → Goes (.movDescFetch n false) s (fun m =>
        m.movState n = 5 ∧ m.rd (R.MOV_ERR n) = 1 ∧ m.rd (R.MOV_ERR_ADDR n) = a ∧ (m.mov n).desc = none)) ∧
      To (.movDescFetch n true) s (settle ((movRaise n 1 ((((s.m.wr (R.MOV_STATE n) 5).wr (R.MOV_ERR n) 3).wr
        (R.MOV_ERR_ADDR n) a).updMov n (fun x => { ring := x.ring }))).alarm 6))) ∧
    (∀ (d : Desc) (b src dst v : Nat), (s.m.mov n).desc = some d → s.m.fieldStill = false → s.m.on (R.MOV_RUN n) = true →
      s.m.movState n = 2 ∨ s.m.movState n = 3 → movReleased s.m n d = b → b ≠ 0 →
      src = movAddr d.src d.srcRing (s.m.mov n).so → dst = movAddr d.dst d.dstRing (s.m.mov n).dOff →
      keepArea src = .sram ∨ keepArea src = .dram → keepArea dst = .sram ∨ keepArea dst = .dram →
      (s.m.movUsed = true ∨ movGrant s.m ≠ some n.val → movBlocked s.m n = false → To (.movElement n false) s s.m) ∧
      (s.m.movUsed = false → movGrant s.m = some n.val →
      areaNat 2 src d.size (movTaken n s.m) = (v, movTaken n s.m) → dst + d.size ≤ 2 ^ 32 →
      Goes (.movElement n false) s (fun m => m.movUsed = true ∧ m.movNext = (n.val + 1) % 16 ∧
        m.keepMem = memWrN s.m.keepMem dst (toLe d.size v) ∧ m.rd (R.MOV_REMAIN n) = s.m.rd (R.MOV_REMAIN n) - 1 ∧
        ∀ a : Nat, a < dst ∨ dst + d.size ≤ a → memRd m.keepMem a = memRd s.m.keepMem a)))

/-- The commands of the PWM octets complete (R266 to R291). -/
def Obligations.PwmCommands : Prop :=
  ∀ (s : State) (w : Writer) (o : Fin 16), Settled s →
    (pwmRunOk s.m o = true → (s.m.octet o).st = 0 → s.m.inHold = false → s.m.pwr.fSleep = false →
      Carries (.pwmRunOn w o) s w (R.PWM_RUN o) false (govRequest (.octStart o)
        ((s.m.wr (R.PWM_RUN o) 1).updOctet o (fun x => { x with st := 1 })))) ∧
    (pwmRunOk s.m o = true → (s.m.octet o).st ≠ 0 ∨ s.m.inHold = true ∨ s.m.pwr.fSleep = true →
      Writes (.pwmRunOn w o) s w (R.PWM_RUN o) false (s.m.wr (R.PWM_RUN o) 1)) ∧
    (pwmRunOk s.m o = false → Turns (.pwmRunOn w o) s w (R.PWM_RUN o) false .range) ∧
    Leads (.pwmRunOff w o) s w (R.PWM_RUN o) false (fun m => m.on (R.PWM_RUN o) = false ∧ (m.octet o).st = 0 ∧
      (∀ d ∈ [Draw.octStart o, Draw.octRejoin o], d ∉ m.pwr.gov ∧ d ∉ m.pwr.asked) ∧
      (∀ d : Draw, d ≠ .octStart o → d ≠ .octRejoin o → (d ∈ m.pwr.gov ↔ d ∈ s.m.pwr.gov) ∧ (d ∈ m.pwr.asked ↔ d ∈ s.m.pwr.asked)) ∧
      ∀ j : Fin 8, m.rd (R.PWM_CARRY o j) = 0) ∧
    (octDue s.m o = false → octCaught o s.m = s.m) ∧
    (octDue s.m o = true → (s.m.octet o).st ≠ 2 → octReport o (octCaught o s.m) = octBoundary o s.m ∧
      (octCaught o s.m).rd (R.PWM_PCOUNT o) = s.m.rd (R.PWM_PCOUNT o) ∧ (octCaught o s.m).rd (R.PWM_EVT o) = s.m.rd (R.PWM_EVT o) ∧
      (octCaught o s.m).movers = s.m.movers) ∧
    ((octStop o s.m).octet o).owed = [] ∧ ((octStop o s.m).octet o).trips = [] ∧
    ((s.m.octet o).st = 2 → s.m.rd (R.TRP_LATCH_CAUSE o) ≠ 0 → Goes (.pwmStart o) s (fun m => (m.octet o).st = 4 ∧
      (m.octet o).away = 0xFF ∧ (m.octet o).edges = [])) ∧
    ((s.m.octet o).st = 2 → s.m.rd (R.TRP_LATCH_CAUSE o) = 0 → Goes (.pwmStart o) s (fun m => (m.octet o).st = 3 ∧
      m.rd (R.PWM_PCOUNT o) = 0 ∧ m.rd (R.PWM_BOUNDARY o) = ditherQ (128 * (s.m.octet o).beta0) 0 ∧
      (m.octet o).b = 128 * (s.m.octet o).beta0 ∧ (m.octet o).p = s.m.rd (R.PWM_PERIOD o) ∧
      (m.octet o).nb = 128 * (s.m.octet o).beta0 + s.m.rd (R.PWM_PERIOD o))) ∧
    ((s.m.octet o).st = 3 → Goes (.pwmBoundary o) s (fun m => (m.octet o).st = 3 ∧
      m.rd (R.PWM_PCOUNT o) = (s.m.rd (R.PWM_PCOUNT o) + 1) % 2 ^ 32 ∧ (m.octet o).b = (s.m.octet o).nb ∧
      (m.octet o).phi = ((s.m.octet o).phi + 1) % 16 ∧
      (m.octet o).p = (if s.m.on (R.PWM_UPDATE_LOCK o) then (s.m.octet o).p else s.m.rd (R.PWM_PERIOD o)) ∧
      (m.octet o).nb = (s.m.octet o).nb + (m.octet o).p ∧
      m.rd (R.PWM_BOUNDARY o) = ditherQ (s.m.octet o).nb (((s.m.octet o).phi + 1) % 16))) ∧
    ((s.m.octet o).st = 3 ∨ (s.m.octet o).st = 4 → s.m.pwmCentre o = true →
      To (.peak o) s (s.m.raise (R.PWM_EVT o) (R.PWM_EVT_EN o) 1 (160 + o))) ∧
    (∀ (j : Fin 8) (e : PwmEdge) (m : Mach), (s.m.octet o).edges.find? (fun e => e.j == j.val) = some e →
      m = s.m.setOctet o { s.m.octet o with edges := (s.m.octet o).edges.erase e } →
      (octDrives s.m o j = true → To (.pwmEdgePlay o j) s (Mach.updOctet o (fun x => { x with lv := putBit j e.on x.lv })
        (Mach.when (octOnPin s.m o j && (if e.ret then safeDiffers s.m (8 * o + j) true else bit j (s.m.octet o).lv != e.on))
          (openBlank o e.t)
          (Mach.when (e.node != 0 && (octOnPin s.m o j || octOnPin s.m o (4 * (j / 2) + 1 - j))) (openWindow o e) m)))) ∧
      (octDrives s.m o j = false → To (.pwmEdgePlay o j) s m)) ∧
    (∀ (obj : PwmShadow) (v : Word), shadowOk s.m o obj v.toNat = true →
      Carries (.pwmShadowWrite w o obj v) s w (shadowObj o obj) false
        (shadowLate o ((octCaught o s.m).wr (shadowObj o obj) v.toNat)) ∧
      ((s.m.octet o).st = 0 ∨ (s.m.octet o).st = 1 →
        Writes (.pwmShadowWrite w o obj v) s w (shadowObj o obj) false (s.m.wr (shadowObj o obj) v.toNat))) ∧
    (∀ (obj : PwmShadow) (v : Word), shadowOk s.m o obj v.toNat = false →
      Turns (.pwmShadowWrite w o obj v) s w (shadowObj o obj) false .range) ∧
    (∀ v : Word, pwmImmOk s.m o v.toNat = true →
      Leads (.pwmPeriodImm w o v) s w (R.PWM_PERIOD_IMM o) false (fun m => m.rd (R.PWM_PERIOD o) = v.toNat ∧
        (m.octet o).p = v.toNat ∧ (m.octet o).nb = (if (((octCaught o s.m).octet o).b + v.toNat) / 128 ≤ s.m.pnow
          then 128 * (s.m.pnow + 1) else ((octCaught o s.m).octet o).b + v.toNat))) ∧
    (∀ v : Word, pwmImmOk s.m o v.toNat = false → Turns (.pwmPeriodImm w o v) s w (R.PWM_PERIOD_IMM o) false .range) ∧
    (∀ v : Byte, Leads (.pwmChOffWrite w o v) s w (R.PWM_CH_OFF o) false (fun m => m.rd (R.PWM_CH_OFF o) = v.toNat ∧
      (m.octet o).away = ((octCaught o s.m).octet o).away ||| pairWide (s.m.pwmBridge o) v.toNat)) ∧
    (∀ (mask : Nat), (∀ j < 8, bit j mask = true → octOnPin s.m o j = true →
        safeDiffers s.m (8 * o + j) (bit j (s.m.octet o).lv) = false) → ((octDark o mask s.m).octet o).blankA = (s.m.octet o).blankA) ∧
    (∀ (i : Fin 4) (e f : PwmEdge), dtAdapts s.m o i = false → e.node = 1 → f.node = 0 → e.j = 2 * i.val + 1 → e.on = false →
      f.j = 2 * i.val → f.on = true → f.t = e.t + e.dt → (s.m.octet o).edges = [e, f] →
      ∀ v : Nat, v ≠ s.m.rd (R.PWM_DT_NOM o i) →
        ((setDtNom o i v s.m).octet o).edges = [{ e with dt := v }, { t := e.t + v, j := f.j, on := true }]) ∧
    (∀ v : Nat, bit 2 v = false → ∀ j < 8, (setPwmCfg o v s.m).rd (R.PWM_CARRY o j) = 0) ∧
    (∀ (i : Fin 4) (rise : Bool) (t : BitVec 64) (t0 dt : Nat) (p : PwmPair), p = mapGet {} i.val (s.m.octet o).pairs →
      t0 < t.toNat → t.toNat ≤ t0 + dt →
      ((rise != bit 1 (s.m.rd (R.PWM_DT_CFG o i))) = true → p.winR = some (t0, dt) → p.rise ≠ .none →
        To (.snCrossing o i rise t) s ((s.m.updOctet o (fun x => { x with
          pairs := mapSet {} i.val { p with winR := none, rise := .seen (t.toNat - t0) } x.pairs })).wr (R.PWM_SN_MEAS_R o i)
          (t.toNat - t0))) ∧
      ((rise != bit 1 (s.m.rd (R.PWM_DT_CFG o i))) = false → p.winF = some (t0, dt) → p.fall ≠ .none →
        To (.snCrossing o i rise t) s ((s.m.updOctet o (fun x => { x with
          pairs := mapSet {} i.val { p with winF := none, fall := .seen (t.toNat - t0) } x.pairs })).wr (R.PWM_SN_MEAS_F o i)
          (t.toNat - t0))))

/-- The commands of output protection complete (R300 to R307, R314, R315). -/
def Obligations.TripCommands : Prop :=
  ∀ (s : State) (w : Writer) (o : Fin 16), Settled s →
    (∀ t : TripIn, To (.tripValid o t) s (s.m.updOctet o (fun x => { x with trips := x.trips ++ [t] }))) ∧
    (∀ t : TripIn, (s.m.octet o).trips = [t] → octTrips o s.m = tripJudge o t (s.m.updOctet o (fun x => { x with trips := [] }))) ∧
    (∀ (b : Bool) (v : BitVec 16) (n : Byte), (s.m.octet o).st = 3 → trpEn s.m o b = true →
      (if b then (s.m.octet o).tripB else (s.m.octet o).tripA) = false →
      (s.m.rd (if b then R.TRP_B_FILT o else R.TRP_A_FILT o) < min n.toNat (cleanTicks s.m o b) →
        (∀ k ≤ s.m.rd (if b then R.TRP_B_FILT o else R.TRP_A_FILT o),
          trpAsserts s.m o b (s.m.pnow - k) ((v.toNat : Rat) / 256) = true) →
        (s.m.rd (if b then R.TRP_B_ESC o else R.TRP_A_ESC o) = 0 → ∀ m : Mach, m = tripJudge o ⟨b, v, n⟩ s.m → (m.octet o).st = 3 ∧
          (if b then (m.octet o).tripB else (m.octet o).tripA) = true ∧ m.rd (R.TRP_LAST o) = s.m.pnow8 ∧
          m.rd (if b then R.TRP_CNT_B o else R.TRP_CNT_A o) =
            min 0xFFFFFFFF (s.m.rd (if b then R.TRP_CNT_B o else R.TRP_CNT_A o) + 1)) ∧
        (s.m.rd (if b then R.TRP_B_ESC o else R.TRP_A_ESC o) = 1 → ∀ m : Mach, m = tripJudge o ⟨b, v, n⟩ s.m → (m.octet o).st = 4 ∧
          m.rd (R.TRP_LATCH_CAUSE o) = setBit (if b then 1 else 0) (s.m.rd (R.TRP_LATCH_CAUSE o)) ∧
          m.rd (R.TRP_CNT_ESC o) = min 0xFFFFFFFF (s.m.rd (R.TRP_CNT_ESC o) + 1))) ∧
      ((∃ k ≤ s.m.rd (if b then R.TRP_B_FILT o else R.TRP_A_FILT o),
          trpAsserts s.m o b (s.m.pnow - k) ((v.toNat : Rat) / 256) = false) ∨
          min n.toNat (cleanTicks s.m o b) ≤ s.m.rd (if b then R.TRP_B_FILT o else R.TRP_A_FILT o) →
        tripJudge o ⟨b, v, n⟩ s.m = s.m)) ∧
    (∀ (obj : Obj) (v t : Nat), (s.m.octet o).past = [] →
      (s.m.pnow ≤ t → trpThen (setTrp o obj v s.m) o t = trpNow (setTrp o obj v s.m) o) ∧
      (t < s.m.pnow → trpThen (setTrp o obj v s.m) o t = trpNow s.m o)) ∧
    ((s.m.octet o).bWait = [] → trpBSrc s.m o = 2 → ∀ n : Nat, trpBArg s.m o % 16 = n →
      ((trpMatch n 0 o (trpMatch n 1 o s.m)).octet o).bWait.all (fun e => !e.2.2) = true ∧
      ((trpMatch n 1 o (trpMatch n 0 o s.m)).octet o).bWait.all (fun e => !e.2.2) = true) ∧
    (((octCaught o s.m).octet o).st = 3 → Leads (.latch w o) s w (R.TRP_CMD o) false (fun m => (m.octet o).st = 4 ∧
      (m.octet o).away = 0xFF ∧ (m.octet o).edges = [] ∧ m.rd (R.TRP_LATCH_CAUSE o) = setBit 2 (s.m.rd (R.TRP_LATCH_CAUSE o)))) ∧
    (((octCaught o s.m).octet o).st ≠ 3 → Leads (.latch w o) s w (R.TRP_CMD o) false (fun m =>
      (m.octet o).st = ((octCaught o s.m).octet o).st ∧ m.rd (R.TRP_LATCH_CAUSE o) = setBit 2 (s.m.rd (R.TRP_LATCH_CAUSE o)))) ∧
    (∀ (v : Byte) (m0 : Mach) (old clear new : Nat), only 7 v.toNat = true → m0 = octCaught o s.m →
      old = m0.rd (R.TRP_LATCH_CAUSE o) → clear = old &&& v.toNat % 8 → new = old - (clear - (clear &&& (octFresh m0 o &&& 0xF))) →
      ((m0.octet o).st ≠ 4 ∨ old = 0 ∨ new ≠ 0 ∨ (m0.octet o).rejoin ≠ 0 →
        Carries (.trpRearm w o v) s w (R.TRP_REARM o) false (m0.wr (R.TRP_LATCH_CAUSE o) new)) ∧
      ((m0.octet o).st = 4 → old ≠ 0 → new = 0 → (m0.octet o).rejoin = 0 →
        Carries (.trpRearm w o v) s w (R.TRP_REARM o) false (govRequest (.octRejoin o)
          ((m0.wr (R.TRP_LATCH_CAUSE o) 0).updOctet o (fun x => { x with rejoin := 1 }))))) ∧
    (∀ v : Byte, only 7 v.toNat = false → Turns (.trpRearm w o v) s w (R.TRP_REARM o) false .range) ∧
    (∀ m1 : Mach, m1 = Mach.w1c (R.TRP_RB_CH o) 0xFF (octCaught o s.m) → bit 3 (octFresh m1 o) = false →
      m1.rd (R.TRP_LATCH_CAUSE o) &&& 8 = 8 → (m1.octet o).st ≠ 4 →
      Carries (.trpRearmRb w o true) s w (R.TRP_REARM_RB o) true
        (m1.wr (R.TRP_LATCH_CAUSE o) (m1.rd (R.TRP_LATCH_CAUSE o) - 8))) ∧
    Writes (.trpRearmRb w o false) s w (R.TRP_REARM_RB o) true s.m ∧
    (∀ (j : Fin 8) (n : BitVec 16) (k : Nat), k = rbStart s.m o j n.toNat →
      ((pinCommand s.m (8 * o + j)).isSome = true → bit j (s.m.rd (R.TRP_RB_EN o)) = true →
        s.m.rd (R.TRP_RB_TOL o) ≤ s.m.pnow + 1 - k → mapGet 0 j.val (s.m.octet o).rbHit ≤ k →
        To (.readbackFault o ⟨j, n⟩) s (settle ((octLatch o 3 (trpRaise o 4 ((((octCaught o s.m).setEvt (R.TRP_RB_CH o) j).inc
          (R.TRP_CNT_RB o)).updOctet o (fun x => { x with rbHit := mapSet 0 j.val (s.m.pnow + 1) x.rbHit })))).alarm 10))) ∧
      ((pinCommand s.m (8 * o + j)).isSome = false ∨ bit j (s.m.rd (R.TRP_RB_EN o)) = false ∨
          s.m.pnow + 1 - k < s.m.rd (R.TRP_RB_TOL o) ∨ k < mapGet 0 j.val (s.m.octet o).rbHit →
        To (.readbackFault o ⟨j, n⟩) s s.m))

/-- Every instruction of the Turret completes with its effect, its next PC and its delay (R327 to R341). -/
def Obligations.TurretInstructions : Prop :=
  ∀ (s : State) (x : Fin 128) (w : BitVec 27) (f : Fetch) (m0 : Mach) (pc : Nat), Settled s → f ≠ .fatal →
    m0 = (if f = .corrected then turRaise (x / 16) 4 ((slotBegin x s.m).inc (R.TUR_CNT_ECC (x / 16))) else slotBegin x s.m) →
    pc = s.m.rd (R.CTX_PC x) →
    (Issues 0x00 x w.toNat 0xFFFFFF s → To (.nop x w f) s (slotEnds x w.toNat (pc + 1) m0)) ∧
    (Issues 0x01 x w.toNat 0x0F0000 s → regWritable (fRd w.toNat) = true →
      To (.ldi x w f) s (settle (slotEnds x w.toNat (pc + 1) (regWrite x (fRd w.toNat) (fImm w.toNat % 2 ^ 32) m0)))) ∧
    (Issues 0x02 x w.toNat 0x0F0000 s → regWritable (fRd w.toNat) = true →
      To (.ldhi x w f) s (settle (slotEnds x w.toNat (pc + 1) (regWrite x (fRd w.toNat)
        ((fImm w.toNat * 2 ^ 16 + (regRead m0 x (fRd w.toNat)).1 % 2 ^ 16) % 2 ^ 32) (regRead m0 x (fRd w.toNat)).2)))) ∧
    (Issues 0x03 x w.toNat 0 s → regWritable (fRd w.toNat) = true →
      To (.addi x w f) s (settle (slotEnds x w.toNat (pc + 1) (regWrite x (fRd w.toNat)
        (((regRead m0 x (fRs w.toNat)).1 + ofSigned 32 (toSigned 16 (fImm w.toNat))) % 2 ^ 32)
        (regRead m0 x (fRs w.toNat)).2)))) ∧
    (∀ v : Nat, Issues 0x04 x w.toNat 0x00F0FF s → regWritable (fRd w.toNat) = true →
      (match fFn w.toNat with
        | 0 => some (regRead m0 x (fRs w.toNat)).1
        | 1 => some (0xFFFFFFFF - (regRead m0 x (fRs w.toNat)).1)
        | 2 => some (bitRev32 (regRead m0 x (fRs w.toNat)).1)
        | 3 => some (byteRev32 (regRead m0 x (fRs w.toNat)).1)
        | _ => none) = some v →
      To (.mov x w f) s (settle (slotEnds x w.toNat (pc + 1) (regWrite x (fRd w.toNat) (v % 2 ^ 32)
        (regRead m0 x (fRs w.toNat)).2)))) ∧
    (∀ (a b : Nat × Mach) (v : Nat), Issues 0x05 x w.toNat 0x0000FF s → regWritable (fRd w.toNat) = true →
      regRead m0 x (fRs w.toNat) = a → regRead a.2 x (fRt w.toNat) = b → turAluFn (fFn w.toNat) a.1 b.1 = some v →
      To (.alu x w f) s (settle (slotEnds x w.toNat (pc + 1) (regWrite x (fRd w.toNat) (v % 2 ^ 32) b.2)))) ∧
    (∀ (r : Nat × Mach) (goes : Mach → Bool → Prop), Issues 0x06 x w.toNat 0 s → regRead m0 x (fRs w.toNat) = r →
      goes = (fun m b => To (.br x w f) s (slotEnds x w.toNat (if b then fTarget w.toNat else pc + 1) m)) →
      (fRd w.toNat = 0 → fRs w.toNat = 0 → fFlag w.toNat = 0 → goes m0 true) ∧
      (fRd w.toNat = 1 → fFlag w.toNat = 0 → goes r.2 (r.1 == 0)) ∧
      (fRd w.toNat = 2 → fFlag w.toNat = 0 → goes r.2 (r.1 != 0)) ∧
      (fRd w.toNat = 3 → fFlag w.toNat = 0 → fRs w.toNat ≤ 5 →
        (r.1 = 0 → goes m0 false) ∧ (r.1 ≠ 0 → goes (regWrite x (fRs w.toNat) (r.1 - 1) m0) true)) ∧
      (fRd w.toNat = 4 → fFlag w.toNat < 32 → goes r.2 (bit (fFlag w.toNat) r.1)) ∧
      (fRd w.toNat = 5 → fFlag w.toNat < 32 → goes r.2 (!bit (fFlag w.toNat) r.1)) ∧
      (fRd w.toNat = 6 → fRs w.toNat = 0 → fFlag w.toNat < 8 → pinBound m0 x (fFlag w.toNat) = true →
        goes m0 (pinLevel m0 x (fFlag w.toNat))) ∧
      (fRd w.toNat = 7 → fRs w.toNat = 0 → fFlag w.toNat < 8 → pinBound m0 x (fFlag w.toNat) = true →
        goes m0 (!pinLevel m0 x (fFlag w.toNat))) ∧
      (fRd w.toNat = 8 → fRs w.toNat = 0 → fFlag w.toNat < 48 → goes m0 (flagRead m0 x (fFlag w.toNat))) ∧
      (fRd w.toNat = 9 → fRs w.toNat = 0 → fFlag w.toNat < 48 → goes m0 (!flagRead m0 x (fFlag w.toNat))) ∧
      (fRd w.toNat = 10 → fRs w.toNat = 0 → fFlag w.toNat = 0 → goes m0 (!(txSeen m0 x).isEmpty)) ∧
      (fRd w.toNat = 11 → fRs w.toNat = 0 → fFlag w.toNat = 0 → goes m0 (!rxFull m0 x))) ∧
    (Issues 0x07 x w.toNat 0x0FFC00 s → regWritable (fRd w.toNat) = true →
      To (.jal x w f) s (settle (slotEnds x w.toNat (fTarget w.toNat) (regWrite x (fRd w.toNat) (pc + 1) m0)))) ∧
    (Issues 0x08 x w.toNat 0xF0FFFF s → To (.jr x w f) s (slotEnds x w.toNat
      ((regRead m0 x (fRs w.toNat)).1 % 1024) (regRead m0 x (fRs w.toNat)).2)) ∧
    (Issues 0x09 x w.toNat 0x1CFFFF s → pinBound m0 x (fPin w.toNat) = true →
      (bits 17 16 w.toNat < 2 → To (.waitpin x w f) s
        (if pinLevel m0 x (fPin w.toNat) = (bits 17 16 w.toNat == 1) then slotEnds x w.toNat (pc + 1) m0 else slotWaits x m0)) ∧
      (2 ≤ bits 17 16 w.toNat → (m0.ctx x).wait = none → To (.waitpin x w f) s (slotWaits x (m0.updCtx x (fun c => { c with
        wait := some (fPin w.toNat, bits 17 16 w.toNat == 2, s.m.now)
        got := edgeComing m0 x (fPin w.toNat) (bits 17 16 w.toNat == 2) })))) ∧
      (2 ≤ bits 17 16 w.toNat → (m0.ctx x).wait.isSome = true →
        ((m0.ctx x).got = none → To (.waitpin x w f) s (slotWaits x m0)) ∧
        (∀ t reach : Nat, (m0.ctx x).got = some (t, reach) → To (.waitpin x w f) s
          (if reach ≤ s.m.now then slotEnds x w.toNat (pc + 1) (m0.wr (R.CTX_TS x) (t % 2 ^ 32)) else slotWaits x m0)))) ∧
    (Issues 0x0A x w.toNat 0xFF00FF s → fFlag w.toNat < 48 →
      (bit 8 w.toNat = false → To (.waitflag x w f) s
        (if flagRead m0 x (fFlag w.toNat) = bit 9 w.toNat then slotEnds x w.toNat (pc + 1) m0 else slotWaits x m0)) ∧
      (bit 8 w.toNat = true → bit 9 w.toNat = true → To (.waitflag x w f) s
        (if flagRead m0 x (fFlag w.toNat) = true ∧ flagTaken m0 (fFlag w.toNat) = false
          then slotEnds x w.toNat (pc + 1) (flagPut x (fFlag w.toNat) false true m0) else slotWaits x m0))) ∧
    (∀ (r t : Nat × Mach), Issues 0x0B x w.toNat 0xF0FFFF s → regRead m0 x (fRs w.toNat) = r → turTime r.2 = t →
      To (.waittime x w f) s
        (if (t.1 + 2 ^ 32 - r.1) % 2 ^ 32 < 2 ^ 31 then slotEnds x w.toNat (pc + 1) t.2 else slotWaits x t.2)) ∧
    (∀ merge : Nat → Nat, Issues 0x0C x w.toNat 0xFE0000 s → maskBound m0 x (bits 15 8 w.toNat) = true →
      merge = (fun old => (List.range 8).foldl (fun a i =>
        if bit i (bits 15 8 w.toNat) then putBit i (bit i (bits 7 0 w.toNat)) a else a) old) →
      To (.setpin x w f) s (settle (slotEnds x w.toNat (pc + 1)
        (if bit 16 w.toNat then setDirs x (merge (m0.ctx x).dirs) m0 else setPins x (merge (m0.ctx x).pins) m0)))) ∧
    (Issues 0x0D x w.toNat 0x1FFFE0 s → fPin w.toNat + fN w.toNat ≤ 8 →
      (∀ k : Nat, k < fN w.toNat → pinBound m0 x (fPin w.toNat + k) = true) →
      (∀ m1 : Mach, osrReady x (fN w.toNat) m0 = some m1 → To (.shout x w f) s (settle (slotEnds x w.toNat (pc + 1) (setPins x
        ((osrBits m1 x (fN w.toNat)).zipIdx.foldl (fun a b => putBit (fPin w.toNat + b.2) b.1 a) (m1.ctx x).pins)
        (osrShift x (fN w.toNat) m1))))) ∧
      (osrReady x (fN w.toNat) m0 = none →
        To (.shout x w f) s (slotWaits x (if (m0.ctx x).stall then m0 else txUnder x m0)))) ∧
    (Issues 0x0E x w.toNat 0x1FFFE0 s → fPin w.toNat + fN w.toNat ≤ 8 →
      (∀ k : Nat, k < fN w.toNat → pinBound m0 x (fPin w.toNat + k) = true) →
      (isrBlocked m0 x (fN w.toNat) = false → To (.shin x w f) s (settle (slotEnds x w.toNat (pc + 1) (isrShift x
        ((List.range (fN w.toNat)).map (fun k => pinLevel m0 x (fPin w.toNat + k))) m0)))) ∧
      (isrBlocked m0 x (fN w.toNat) = true → To (.shin x w f) s (slotWaits x m0))) ∧
    (Issues 0x0F x w.toNat 0x0FFFE0 s → regWritable (fRd w.toNat) = true →
      (∀ (m1 : Mach) (r : Nat × Mach), osrReady x (fN w.toNat) m0 = some m1 → regRead m1 x (fRd w.toNat) = r →
        To (.take x w f) s (settle (slotEnds x w.toNat (pc + 1) (regWrite x (fRd w.toNat)
          ((r.1 * 2 ^ fN w.toNat + (osrBits m1 x (fN w.toNat)).foldl (fun a b => 2 * a + boolNat b) 0) % 2 ^ 32)
          (osrShift x (fN w.toNat) r.2))))) ∧
      (osrReady x (fN w.toNat) m0 = none →
        To (.take x w f) s (slotWaits x (if (m0.ctx x).stall then m0 else txUnder x m0)))) ∧
    (∀ r : Nat × Mach, Issues 0x10 x w.toNat 0xF0FFE0 s → regRead m0 x (fRs w.toNat) = r →
      (isrBlocked m0 x (fN w.toNat) = false → To (.give x w f) s (settle (slotEnds x w.toNat (pc + 1) (isrShift x
        ((List.range (fN w.toNat)).map (fun k => bit (fN w.toNat - 1 - k) r.1)) r.2)))) ∧
      (isrBlocked m0 x (fN w.toNat) = true → To (.give x w f) s (slotWaits x m0))) ∧
    (∀ r : Nat × Mach, Issues 0x11 x w.toNat 0xF0FFFE s →
      (rxFull m0 x = false → regRead m0 x (fRs w.toNat) = r → To (.push x w f) s (settle (slotEnds x w.toNat (pc + 1)
        (if fRs w.toNat = 6 then setIsc x 0 ((rxPut x r.1 r.2).wr (R.CTX_ISR x) 0) else rxPut x r.1 r.2)))) ∧
      (rxFull m0 x = true → bit 0 w.toNat = true →
        To (.push x w f) s (slotEnds x w.toNat (pc + 1) (ctxRaise x 7 (m0.putBit (R.CTX_STICKY x) 1 true)))) ∧
      (rxFull m0 x = true → bit 0 w.toNat = false → To (.push x w f) s (slotWaits x m0))) ∧
    (Issues 0x12 x w.toNat 0x0FFFFE s → regWritable (fRd w.toNat) = true →
      (∀ (v : QWord) (r : List QWord), txSeen m0 x = v :: r →
        To (.pull x w f) s (settle (slotEnds x w.toNat (pc + 1) (regWrite x (fRd w.toNat) v.v (txTake x m0))))) ∧
      (txSeen m0 x = [] → bit 0 w.toNat = true →
        To (.pull x w f) s (slotEnds x w.toNat (pc + 1) (txUnder x m0))) ∧
      (txSeen m0 x = [] → bit 0 w.toNat = false → To (.pull x w f) s (slotWaits x m0))) ∧
    (∀ r : Nat × Mach, Issues 0x13 x w.toNat 0x10FFFE s → pinBound m0 x (fPin w.toNat) = true →
      ((m0.ctx x).timed.length < 2 → regRead m0 x (fRs w.toNat) = r →
        To (.outat x w f) s (slotEnds x w.toNat (pc + 1) (r.2.free.2.updCtx x (fun c => { c with
          timed := edgesArm s.m.now (c.timed ++
            [⟨fPin w.toNat, nearInstant s.m.now8 r.1, bit 0 w.toNat, false, s.m.now + r.2.free.1 % 17, false⟩]) })))) ∧
      (2 ≤ (m0.ctx x).timed.length → To (.outat x w f) s (slotWaits x m0))) ∧
    (Issues 0x14 x w.toNat 0xFF03FC s → fFlag w.toNat < 48 → bits 1 0 w.toNat < 3 →
      To (.flag x w f) s (slotEnds x w.toNat (pc + 1) (flagPut x (fFlag w.toNat)
        (if bits 1 0 w.toNat = 2 then !flagRead m0 x (fFlag w.toNat) else bits 1 0 w.toNat == 1) false m0))) ∧
    (Issues 0x15 x w.toNat 0xFFFFFC s →
      To (.signal x w f) s (slotEnds x w.toNat (pc + 1) (ctxRaise x (bits 1 0 w.toNat) m0))) ∧
    (∀ d r : Nat × Mach, Issues 0x16 x w.toNat 0x00FFE0 s → regWritable (fRd w.toNat) = true → regRead m0 x (fRd w.toNat) = d →
      regRead d.2 x (fRs w.toNat) = r →
      To (.crcs x w f) s (settle (slotEnds x w.toNat (pc + 1) (regWrite x (fRd w.toNat)
        (crcStep (cfgCrcW (m0.rd (R.CTX_CFG x))) (m0.rd (R.CTX_CRC_POLY x)) r.1 (fN w.toNat) d.1 % 2 ^ 32) r.2)))) ∧
    (Issues 0x17 x w.toNat 0xFFFFFF s →
      To (.halt x w f) s (ctxRaise x 8 (((slotEnds x w.toNat (pc + 1) m0).wr (R.CTX_RUN x) 0).wr (R.CTX_STATE x) 3)))

/-- Which slots do nothing and which fault, with the cause of each (R321, R325, R327, R336, R349, R352). -/
def Obligations.TurretFaults : Prop :=
  ∀ (s : State) (x : Fin 128) (w : BitVec 27) (f : Fetch) (word : Nat), Settled s →
    word = turWord s.m (x / 16) (s.m.rd (R.CTX_PC x)) →
    (slotOpen s.m x = false → To (.ldi x w f) s s.m ∧ To (.nop x w f) s s.m) ∧
    (slotOpen s.m x = true → f ≠ .fatal → word / 2 ^ 27 < 0x18 → word ≠ 2 ^ 27 + w.toNat → To (.ldi x w f) s s.m) ∧
    (slotOpen s.m x = true → To (.ldi x w .fatal) s (settle ((ctxFault x 4 (slotBegin x s.m)).alarm 6))) ∧
    (∀ m0 : Mach, slotOpen s.m x = true → f ≠ .fatal → 0x18 ≤ word / 2 ^ 27 →
      m0 = (if f = .corrected then turRaise (x / 16) 4 ((slotBegin x s.m).inc (R.TUR_CNT_ECC (x / 16))) else slotBegin x s.m) →
      To (.ldi x w f) s (settle (ctxFault x 1 m0))) ∧
    (slotOpen s.m x = true → word = 2 ^ 27 + w.toNat → w.toNat &&& 0x0F0000 ≠ 0 →
      To (.ldi x w .clean) s (settle (ctxFault x 1 (slotBegin x s.m)))) ∧
    (Issues 0x01 x w.toNat 0x0F0000 s → regWritable (fRd w.toNat) = false →
      To (.ldi x w .clean) s (settle (ctxFault x 2 (slotBegin x s.m)))) ∧
    (Issues 0x09 x w.toNat 0x1CFFFF s → pinBound (slotBegin x s.m) x (fPin w.toNat) = false →
      To (.waitpin x w .clean) s (settle (ctxFault x 3 (slotBegin x s.m)))) ∧
    (∀ (c : Nat) (m : Mach), c < 16 → (ctxFault x c m).rd (R.CTX_RUN x) = 0 ∧ (ctxFault x c m).ctxState x = 4 ∧
      (ctxFault x c m).rd (R.CTX_FAULT x) = c * 2 ^ 24 + m.rd (R.CTX_PC x) % 1024)

/-- The commands of the Turret's engines, contexts, queues and flags complete (R333, R340 to R349, R353, R355). -/
def Obligations.TurretCommands : Prop :=
  ∀ (s : State) (w : Writer) (e : Fin 8) (x : Fin 128) (port : Fin 17), Settled s →
    (((s.m.engine e).st = 0 → s.m.inHold = false → s.m.pwr.fSleep = false →
      Carries (.turRunOn w e) s w (R.TUR_RUN e) false (govRequest (.tur e) ((s.m.wr (R.TUR_RUN e) 1).setEngine e { st := 1 }))) ∧
     ((s.m.engine e).st ≠ 0 ∨ s.m.inHold = true ∨ s.m.pwr.fSleep = true → Writes (.turRunOn w e) s w (R.TUR_RUN e) false (s.m.wr (R.TUR_RUN e) 1))) ∧
    (((s.m.engine e).st = 1 → Writes (.turRunOff w e) s w (R.TUR_RUN e) false
      (govWithdraw (.tur e) ((s.m.wr (R.TUR_RUN e) 0).setEngine e {}))) ∧
     ((s.m.engine e).st ≠ 1 → Writes (.turRunOff w e) s w (R.TUR_RUN e) false (s.m.wr (R.TUR_RUN e) 0))) ∧
    (s.m.fieldStill = false →
      ((s.m.engine e).st = 2 → s.m.on (R.TUR_RUN e) = false → Goes (.roundBoundary e) s (fun m =>
        (m.engine e).st = 0 ∧ ∀ y : Nat, y / 16 = e.val → s.m.ctxState y = 1 → y < 128 → m.ctxState y = 2)) ∧
      (∀ m : Mach, ((s.m.engine e).st = 2 ∧ s.m.on (R.TUR_RUN e) = true ∧ m = (s.m.each (ctxsOf e) ctxBoundary).each (ctxsOf e) ctxRound) ∨
          ((s.m.engine e).st = 1 ∧ (s.m.engine e).granted = true ∧
            m = ((turRaise e 0 (s.m.setEngine e { s.m.engine e with st := 2, granted := false })).each (ctxsOf e) ctxBoundary).each
              (ctxsOf e) ctxRound) →
        To (.roundBoundary e) s (settle (m.setEngine e { m.engine e with
          n := ((ctxsOf e).filter (fun y => m.ctxState y == 1)).length })))) ∧
    (∀ (t : TimedEdge) (r : List TimedEdge) (m : Mach), (s.m.ctx x).timed = t :: r → s.m.fieldStill = false →
      m = Mach.when t.late (fun m => ctxRaise x 11 (m.inc (R.CTX_CNT_LATE x)))
        (s.m.updCtx x (fun c => { c with
          timed := r
          lv := putBit t.pin t.on c.lv
          pins := if c.drive.any (fun d => d.pin == t.pin && d.on.isSome) then c.pins else putBit t.pin t.on c.pins })) →
      (t.armed = true → t.t < s.m.now8 + 8 →
        (∀ ch : Nat, pinChan s.m x t.pin = some ch → bit t.pin (s.m.ctx x).oe = true → s.m.ctxState x ≠ 0 → s.m.ctxState x ≠ 4 →
          s.m.chMode ch = 9 → To (.timedEdgePlay x) s (settle (outTransition ch t.on t.t m))) ∧
        (pinChan s.m x t.pin = none ∨ bit t.pin (s.m.ctx x).oe = false ∨ s.m.ctxState x = 0 ∨ s.m.ctxState x = 4 →
          To (.timedEdgePlay x) s m)) ∧
      (t.armed = false ∨ s.m.now8 + 8 ≤ t.t → To (.timedEdgePlay x) s s.m)) ∧
    (ctxRunOk s.m x = true → Writes (.ctxRunWrite w x true) s w (R.CTX_RUN x) false
      ((s.m.wr (R.CTX_RUN x) 1).updCtx x (fun c => { c with claim := true }))) ∧
    (ctxRunOk s.m x = false → Turns (.ctxRunWrite w x true) s w (R.CTX_RUN x) false .range) ∧
    Writes (.ctxRunWrite w x false) s w (R.CTX_RUN x) false
      ((s.m.wr (R.CTX_RUN x) 0).updCtx x (fun c => { c with claim := false })) ∧
    (s.m.ctxState x = 2 ∨ s.m.ctxState x = 3 ∨ s.m.ctxState x = 4 →
      Leads (.release w x) s w (R.CTX_CMD x) false (fun m => m.ctxState x = 0 ∧ ctxClaims m x = false ∧ (m.ctx x).timed = [] ∧ (m.ctx x).drive = [] ∧
        (m.ctx x).tx = (s.m.ctx x).tx ∧ (m.ctx x).rx = (s.m.ctx x).rx)) ∧
    (∀ v : Word, let sent (k : Nat) : Mach := s.m.free.2.updCtx x (fun c => { c with
        tx := c.tx ++ [{ v := v.toNat, at_ := s.m.now, vis := s.m.now + 3 + s.m.free.1 % 2, by_ := k }] })
      (MayPort port 1 (0x48002000 + 16 * x.val) s →
        (port.val = 0 ∨ txFull s.m x = false → To (.txPortPush port x v) s (sent port.val)) ∧
        (port.val ≠ 0 → txFull s.m x = true → To (.txPortPush port x v) s s.m)) ∧
      (txFull s.m x = false → Writes (.ctxTxqPush w x v) s w (R.CTX_TXQ_PUSH x) false (sent 17)) ∧
      (txFull s.m x = true → Turns (.ctxTxqPush w x v) s w (R.CTX_TXQ_PUSH x) false .range)) ∧
    (∀ (q : QWord) (l : List QWord), (s.m.ctx x).tx = l ++ [q] → (∀ e ∈ l, e.at_ ≠ s.m.now) → q.at_ = s.m.now → q.by_ < 18 →
      (l.length < txDepth s.m x → txSettle x s.m = s.m) ∧
      (txDepth s.m x ≤ l.length → ((txSettle x s.m).ctx x).tx = l ∧
        (txSettle x s.m).rd (R.CTX_CNT_TX_DROP x) = min 0xFFFFFFFF (s.m.rd (R.CTX_CNT_TX_DROP x) + 1) ∧
        bit 3 ((txSettle x s.m).rd (R.CTX_STICKY x)) = true)) ∧
    (rxSeen s.m x = [] → rxPop x s.m = s.m ∧ (MayPort port 0 (0x48002000 + 16 * x.val) s →
      (port.val = 0 → To (.rxPortPop port x) s (s.m.send (.load (port.val + 2)) [0])) ∧
      (port.val ≠ 0 → To (.rxPortPop port x) s s.m))) ∧
    (∀ (q : QWord) (r : List QWord) (m : Mach), rxSeen s.m x = q :: r → m = s.m.updCtx x (fun c => { c with rx := c.rx.drop 1 }) →
      rxPop x s.m = m ∧
      (MayPort port 0 (0x48002000 + 16 * x.val) s → To (.rxPortPop port x) s (m.send (.load (port.val + 2)) [q.v]))) ∧
    Writes (.ctxRxqPop w x true) s w (R.CTX_RXQ_POP x) false { s.m with pops := s.m.pops ++ [(true, x.val)] } ∧
    Writes (.ctxRxqPop w x false) s w (R.CTX_RXQ_POP x) false s.m ∧
    (∀ v : Byte, only 3 v.toNat = true → Writes (.ctxQFlush w x v) s w (R.CTX_Q_FLUSH x) false (s.m.updCtx x (fun c => { c with
      tx := if bit 0 v.toNat then c.tx.filter (fun e => e.at_ == s.m.now) else c.tx
      rx := if bit 1 v.toNat then [] else c.rx }))) ∧
    (∀ v : Byte, only 3 v.toNat = false → Turns (.ctxQFlush w x v) s w (R.CTX_Q_FLUSH x) false .range) ∧
    (∀ t : Nat, t = max ((s.m.flagIns.getLast?.map (fun e => e.1)).getD 0) (s.m.now + 3 + s.m.free.1 % 6) →
      let sent (o : Obj) (v : Nat) (on : Bool) : Mach := { s.m.free.2 with flagIns := s.m.flagIns ++ [(t, o.key, v, on)] }
      (∀ v : Word, Writes (.turFlagSet w e v) s w (R.TUR_FLAG_SET e) false (sent (R.TUR_FLAG_SET e) v.toNat true) ∧
        Writes (.turFlagClr w e v) s w (R.TUR_FLAG_CLR e) false (sent (R.TUR_FLAG_SET e) v.toNat false)) ∧
      (∀ v : BitVec 16, Writes (.turXflagSet w v) s w R.TUR_XFLAG_SET false (sent R.TUR_XFLAG_SET v.toNat true) ∧
        Writes (.turXflagClr w v) s w R.TUR_XFLAG_CLR false (sent R.TUR_XFLAG_SET v.toNat false))) ∧
    (∀ (o : Obj) (t v : Nat) (on : Bool), o ∈ flagObjs → s.m.flagIns = [(t, o.key, v, on)] →
      (t ≤ s.m.now → flagsLand s.m = { s.m with flagIns := [] }.wr o
        (if on then s.m.rd o ||| v else s.m.rd o - (s.m.rd o &&& v))) ∧
      (s.m.now < t → flagsLand s.m = s.m))

/-- The clear commands complete and clear exactly the counters they name (R148 and the clear objects of each chapter). -/
def Obligations.CounterClears : Prop :=
  ∀ (s : State) (w : Writer), Settled s →
    (∀ (d : Fin 16) (v : Byte), Leads (.whlCntClr w d v) s w (R.WHL_CNT_CLR d) false (Cleared v.toNat (whlCounters d) s.m)) ∧
    (∀ (u : Fin 16) (v : Byte), Leads (.ocuCntClr w u v) s w (R.OCU_CNT_CLR u) false (Cleared v.toNat (ocuCounters u) s.m)) ∧
    (∀ (c : Fin 128) (v : Byte), Leads (.chCntClr w c v) s w (R.CH_CNT_CLR c) false (Cleared v.toNat (chCounters c) s.m)) ∧
    (∀ (o : Fin 16) (v : BitVec 16),
      (bit 3 v.toNat = false → Leads (.pwmCntClr w o v) s w (R.PWM_CNT_CLR o) false (Cleared v.toNat (pwmCounters o) s.m)) ∧
      (bit 3 v.toNat = true → Turns (.pwmCntClr w o v) s w (R.PWM_CNT_CLR o) false .range)) ∧
    (∀ (side : Side) (v : Byte),
      Leads (.belCntClr w side v) s w (belCntClrObj side) false (Cleared v.toNat (belCounters side) s.m)) ∧
    (∀ v : Byte, Leads (.safCntClr w v) s w R.SAF_CNT_CLR false (Cleared v.toNat safCounters s.m)) ∧
    (∀ (which : NetClr) (v : Byte),
      Leads (.netCntClr w which v) s w (netClrObj which) false (Cleared v.toNat (netCounters which) s.m)) ∧
    (∀ (k : Fin 2) (v : Byte), Leads (.canCntClr w k v) s w (R.CAN_CNT_CLR k) false (Cleared v.toNat (canCounters k) s.m)) ∧
    (∀ (n : Fin 2) (v : Word), Leads (.sprCntClr w n v) s w (R.SPR_CNT_CLR n) false (Cleared v.toNat (sprCounters n) s.m)) ∧
    (∀ v : Word, Leads (.keepCntClr w v) s w R.KEEP_CNT_CLR false (Cleared v.toNat keepCounters s.m)) ∧
    (∀ n : Fin 16, Leads (.movClear w n) s w (R.MOV_CMD n) false (ClearedAll (movCounters n) s.m)) ∧
    (∀ o : Fin 16, Leads (.trpClear w o) s w (R.TRP_CMD o) false (ClearedAll (trpCounters o) s.m)) ∧
    (∀ x : Fin 128, Leads (.ctxClear w x) s w (R.CTX_CMD x) false (ClearedAll (ctxCounters x) s.m)) ∧
    (∀ n : Fin 1024,
      ((s.m.evt n).st ≠ 0 → Leads (.evtClear w n) s w (R.EVT_CMD n) false (ClearedAll (evtCounters n) s.m)) ∧
      ((s.m.evt n).st = 0 → Writes (.evtClear w n) s w (R.EVT_CMD n) false s.m)) ∧
    (∀ a : Fin 128, Leads (.axClear w a) s w (R.AX_CMD a) false (ClearedAll (axCounters a) s.m)) ∧
    (∀ side : Side, Leads (.barClear w side) s w (barCmd side) false (ClearedAll (barCounters side) s.m)) ∧
    (Leads (.redClear w) s w R.RED_CMD false (ClearedAll redCounters s.m)) ∧
    (Leads (.lanClear w) s w R.LAN_CMD false (fun m =>
      OnlyRegs s.m m ∧
      (∀ o : Obj, o = R.LAN_CNT_OVL ∨ o = R.LAN_CNT_ABANDON ∨ (∃ n : Fin 32, o = R.LAN_DEC_SKIP n) →
        m.rd o = boolNat (s.m.incNow.contains o.key)) ∧
      (∀ o : Obj, o = R.LAN_DEMAND_MAX ∨ (∃ n : Fin 32, o = R.LAN_DEC_NW_MAX n ∨ o = R.LAN_DEC_LR_MAX n) →
        m.rd o = (if s.m.incNow.contains o.key then s.m.rd o else 0))))

/-- The remaining commands of the Belfries complete (R397, R403, R404, R407, R410). -/
def Obligations.BelfryCommands : Prop :=
  ∀ (s : State) (w : Writer) (side : Side), Settled s →
    (∀ (core : Fin 3) (v : Word), MayCore core 1 (claimAddr core) s → side = coreSide core →
      (v.toNat < 512 → (s.m.src side v.toNat).svc = coreTarget core →
        To (.complete core v) s (s.m.setSrc side v.toNat { s.m.src side v.toNat with svc := 0 })) ∧
      (v.toNat = 0x3FF → To (.complete core v) s s.m) ∧
      (v.toNat ≠ 0x3FF → (v.toNat < 512 → (s.m.src side v.toNat).svc ≠ coreTarget core) →
        To (.complete core v) s (s.m.inc (cntBad side)))) ∧
    (∀ (j : Fin 16) (v : Word),
      Writes (.belPendSet w side j v) s w (pendSetObj side j) false
        { s.m with asserts := s.m.asserts ++ (mapIds j v.toNat).filter (fun id => decide (srcOwner id = side)) } ∧
      Leads (.belPendClr w side j v) s w (pendClrObj side j) false (fun m => ∀ id : Nat,
        m.src side id = if id / 32 = j.val ∧ bit (id % 32) v.toNat = true then
          { s.m.src side id with pend := false, cnt := 0, sat := false, rel := false } else s.m.src side id) ∧
      Leads (.belEnSet w side j v) s w (enSetObj side j) false (fun m => ∀ id < 512,
        belEnabled m side id = (belEnabled s.m side id || (decide (id / 32 = j.val) && bit (id % 32) v.toNat))) ∧
      Leads (.belEnClr w side j v) s w (enClrObj side j) false (fun m => ∀ id < 512,
        belEnabled m side id = (belEnabled s.m side id && !(decide (id / 32 = j.val) && bit (id % 32) v.toNat)))) ∧
    (∀ (id : Fin 512) (v : Word),
      (belCfgOk v.toNat = true →
        Writes (.belSrcCfgWrite w id v) s w (srcCfgObj id) false (s.m.wr (srcCfgObj id) v.toNat)) ∧
      (belCfgOk v.toNat = false → Turns (.belSrcCfgWrite w id v) s w (srcCfgObj id) false .range)) ∧
    (∀ g : Fin 32, (s.m.grp side g).start.isSome = true → mapSorted (s.m.bel side).src = true →
      Goes (.groupFire side g) s (fun m =>
        m.grp side g = {} ∧ m.rd (grpFiresObj side g) = min 0xFFFFFFFF (s.m.rd (grpFiresObj side g) + 1) ∧
        ∀ id : Nat, m.src side id =
          if cfgCoal (s.m.src side id).cfg = true ∧ cfgGroup (s.m.src side id).cfg = g.val ∧ (s.m.src side id).pend = true then
            { s.m.src side id with rel := true } else s.m.src side id)) ∧
    (∀ n : Fin 16, s.m.on (R.BEL_H_TMR_EN n) = true →
      (s.m.rd (R.BEL_H_TMR_PER n) = 0 →
        To (.hostTimerMatch n) s ((s.m.assertSrc (432 + n)).wr (R.BEL_H_TMR_EN n) 0)) ∧
      (∀ k : Nat, s.m.rd (R.BEL_H_TMR_CMP n) + k * s.m.rd (R.BEL_H_TMR_PER n) ≤ s.m.hlt →
        s.m.hlt < s.m.rd (R.BEL_H_TMR_CMP n) + (k + 1) * s.m.rd (R.BEL_H_TMR_PER n) →
        To (.hostTimerMatch n) s ((s.m.assertSrc (432 + n)).wr (R.BEL_H_TMR_CMP n)
          ((s.m.rd (R.BEL_H_TMR_CMP n) + (k + 1) * s.m.rd (R.BEL_H_TMR_PER n)) % 2 ^ 64))))

/-- What a write of an object without a row of its own does (R12, R50, R52, R55), and a declaration (R49). -/
def Obligations.RegisterWrite : Prop :=
  ∀ (s : State) (w : Writer) (addr v : Word) (idx sub : Nat), Settled s → writerLive s.m w = true →
    regAt addr.toNat = some (idx, sub) → gate w ⟨idx, sub, 0⟩ false s.m = none →
    (∀ f : Found, f.row.base / 256 ≠ 0x34 → f.row.base ≠ 0x3500 → f.row.base ≠ 0x3510 → octFirst f s.m = s.m) ∧
    (∀ f : Found, regHit s.m idx sub = some (.low f) → f.row.ty ≠ .str → f.row.ty ≠ .dom → f.row.ty.wide = false →
      (∀ m : Mach, m = octFirst f s.m → overruled s.m f.obj = false → outranked s.m w f.obj = false → f.row.mach = false →
        chkOk s.m f (f.row.ty.fit v.toNat) = true → (∀ e ∈ effectsHost ++ effectsSide ++ effectsMotion ++ effectsOutput, e.1 ≠ f.row.id) →
        (f.row.acc = .rw ∨ f.row.acc = .wo ∨ (f.row.acc = .rws ∧ stillFor s.m f (f.row.ty.fit v.toNat) = true) →
          To (.registerWrite w addr v) s (settle (answered w (rankNote w f.obj (m.wr f.obj (f.row.ty.fit v.toNat)))))) ∧
        (f.row.acc = .w1c → To (.registerWrite w addr v) s (settle (answered w (rankNote w f.obj (m.w1c f.obj (f.row.ty.fit v.toNat)))))) ∧
        (f.row.acc = .w1s → To (.registerWrite w addr v) s
          (settle (answered w (rankNote w f.obj (m.wr f.obj (m.rd f.obj ||| f.row.ty.fit v.toNat))))))) ∧
      (f.row.acc = .ro → To (.registerWrite w addr v) s (settle (refuseAt w addr.toNat .readOnly s.m))) ∧
      (f.row.acc = .rws → f.row.mach = false → stillFor s.m f (f.row.ty.fit v.toNat) = false →
        To (.registerWrite w addr v) s (settle (refuseAt w addr.toNat .running s.m))) ∧
      (f.row.acc ≠ .ro → f.row.mach = false → (f.row.acc = .rws → stillFor s.m f (f.row.ty.fit v.toNat) = true) →
        chkOk s.m f (f.row.ty.fit v.toNat) = false →
        To (.registerWrite w addr v) s (settle (refuseAt w addr.toNat .range s.m)))) ∧
    (∀ (f : Found) (m : Mach), (∀ r h, w ≠ .dict r h) → f.row.ty ≠ .str → f.row.ty ≠ .dom → f.row.acc = .rw → f.row.mach = false →
      (regHit s.m idx sub = some (.low f) → f.row.ty.wide = true →
        To (.registerWrite w addr v) s
          { s.m with dic := { s.m.dic with stage := mapSet 0 (stagePort w) v.toNat s.m.dic.stage } }) ∧
      (regHit s.m idx sub = some (.high f) → m = stagePut w 0 s.m →
        (chkOk m f (v.toNat * 2 ^ 32 + staged s.m w) = true → overruled m f.obj = false → outranked m w f.obj = false →
          (∀ e ∈ effectsHost ++ effectsSide ++ effectsMotion ++ effectsOutput, e.1 ≠ f.row.id) →
          To (.registerWrite w addr v) s (settle (rankNote w f.obj ((octFirst f m).wr f.obj (v.toNat * 2 ^ 32 + staged s.m w))))) ∧
        (chkOk m f (v.toNat * 2 ^ 32 + staged s.m w) = false →
          To (.registerWrite w addr v) s (settle (refuseAt w addr.toNat .range s.m))))) ∧
    (∀ (i : BitVec 16) (b : BitVec 8) (ty : Fin 10) (acc : Fin 6) (mach : Bool) (ret : Fin 5) (dflt : BitVec 64) (core : Nat)
        (u : User), u = ⟨i.toNat, b.toNat, tyOf ty, accOf acc, mach, retOf ret, dflt.toNat⟩ →
      (ownerOf i.toNat = .field ∧ core = 2) ∨ (ownerOf i.toNat = .host ∧ core < 2) → (s.m.core core).held = false → (s.m.core core).halted = false →
      (0x6000 ≤ i.toNat → i.toNat ≤ 0x7FFF → userClash s.m u = false → tyOf ty ≠ .dom → retOf ret ≠ .k →
        To (.userObjectDeclare i b ty acc mach ret dflt) s { s.m with dic := { s.m.dic with users := s.m.dic.users ++ [u] } }) ∧
      (i.toNat < 0x6000 ∨ 0x7FFF < i.toNat ∨ userClash s.m u = true → To (.userObjectDeclare i b ty acc mach ret dflt) s s.m))

/-- Every cause of chapter 15 that has a row of its own enters the safe state as R478 says. -/
def Obligations.SafeStateEntry : Prop :=
  ∀ (s : State) (w : Writer), Settled s →
    (Trips 21 s.m → Leads (.sto w) s w R.SAF_DEMAND false (InSafe 21 s.m)) ∧
    (Trips 20 s.m → s.m.rd R.SAF_STATE = 2 → Goes .ss1Timeout s (InSafe 20 s.m)) ∧
    (∀ (k : Fin 5) (c : Nat), c = (if k.val = 4 then 16 else k.val + 2) → Trips c s.m →
      Goes (.clockMonitorFault k) s (InSafe c s.m)) ∧
    (∀ b : Bool, Trips 11 s.m → s.m.on R.SAF_STO_TEST = true → stoOn s.m = true → stoPulseDue s.m b = true →
      Goes (.stoTestPulse b false) s (InSafe 11 s.m)) ∧
    (Trips 11 s.m → Goes .stoReadbackFault s (InSafe 11 s.m)) ∧
    (Trips 12 s.m → stoOn s.m = true → Goes .kaReadbackFault s (InSafe 12 s.m)) ∧
    (Trips 17 s.m → Goes .overtemp s (InSafe 17 s.m)) ∧
    (s.m.safe = false → releasedNow s.m = false → causeSelected s.m 17 = false → Goes .overtemp s (fun m =>
      m.safe = false ∧ m.rd R.SAF_STATE = s.m.rd R.SAF_STATE ∧ m.rd R.SAF_LATCHED = setBit 17 (s.m.rd R.SAF_LATCHED) ∧
      m.rd R.SAF_ACTIVE = setBit 17 (s.m.rd R.SAF_ACTIVE) ∧ bit 4 (m.rd R.SAF_EVT) = true ∧
      (m.core 2).c7 = (s.m.core 2).c7 ++ [0x211])) ∧
    (releasedNow s.m = true → Goes .overtemp s (fun m =>
      m.safe = true ∧ m.rd R.SAF_STATE = 1 ∧ bit 17 (m.rd R.SAF_LATCHED) = true ∧ bit 2 (m.rd R.SAF_EVT) = true ∧
      m.rd R.SAF_CNT_REL_REFUSED = min 0xFFFFFFFF (s.m.rd R.SAF_CNT_REL_REFUSED + 1))) ∧
    (∀ key : BitVec 16, Trips 8 s.m → s.m.saf.wdrAt = none →
      (w ≠ .keep ∨ wdGood s.m.saf.wd s.m.now (400 * s.m.rd R.SAF_WD_MIN) key.toNat = false) →
      Leads (.safWdKick w key) s w R.SAF_WD_KICK false (fun m =>
        InSafe 8 s.m m ∧ m.saf.wdrAt = some (s.m.now + 40000))) ∧
    (Trips 8 s.m → s.m.saf.wdrAt = none → wdPaused s.m = false → Goes .fieldWatchdogExpiry s (fun m =>
      InSafe 8 s.m m ∧ m.saf.wdrAt = some (s.m.now + 40000))) ∧
    (∀ v : Word, Trips 9 s.m → v.toNat ≠ diagWord s.m →
      Leads (.safDiagSeq w v) s w R.SAF_DIAG_SEQ false (InSafe 9 s.m)) ∧
    (Trips 9 s.m → wdPaused s.m = false → Goes .diagIntervalExpiry s (fun m =>
      InSafe 9 s.m m ∧ m.saf.diagStart = s.m.now))

/-- The commands of the safety monitor, watchdogs, keys, fuses and log complete (R481 to R503). -/
def Obligations.SafetyCommands : Prop :=
  ∀ (s : State) (w : Writer), Settled s →
    (s.m.rd R.SAF_STATE = 0 → releasedNow s.m = false → Leads (.ss1 w) s w R.SAF_DEMAND false (fun m =>
      m.rd R.SAF_STATE = 2 ∧ m.saf.ss1Start = s.m.now ∧ m.safe = s.m.safe ∧ (m.core 2).c7 = (s.m.core 2).c7 ++ [0x214] ∧
      bit 3 (m.rd R.SAF_EVT) = true ∧ (s.m.saf.logQ.length < 32 → m.saf.logQ.length = s.m.saf.logQ.length + 1))) ∧
    (s.m.rd R.SAF_STATE ≠ 0 → Writes (.ss1 w) s w R.SAF_DEMAND false s.m) ∧
    (w ≠ .keep ∨ (s.m.on R.SAF_LOCAL_REL = true ∧ s.m.saf.safLock = false) →
      (s.m.rd R.SAF_STATE = 1 → s.m.rd R.SAF_ACTIVE = 0 → s.m.saf.causeAt ≠ some s.m.now →
        Leads (.safRelease w 0x736C6572) s w R.SAF_RELEASE true (fun m =>
          m.safe = false ∧ m.rd R.SAF_STATE = 0 ∧ m.rd R.SAF_LATCHED = 0 ∧ bit 1 (m.rd R.SAF_EVT) = true ∧
          m.rd R.SAF_CNT_RELEASE = min 0xFFFFFFFF (s.m.rd R.SAF_CNT_RELEASE + 1)))) ∧
    (s.m.rd R.SAF_STATE ≠ 1 ∨ s.m.rd R.SAF_ACTIVE ≠ 0 ∨ s.m.saf.causeAt = some s.m.now ∨
        (w = .keep ∧ (s.m.on R.SAF_LOCAL_REL = false ∨ s.m.saf.safLock = true)) →
      Leads (.safRelease w 0x736C6572) s w R.SAF_RELEASE true (fun m =>
        m.saf.latchA = s.m.saf.latchA ∧ m.saf.latchB = s.m.saf.latchB ∧ m.rd R.SAF_STATE = s.m.rd R.SAF_STATE ∧
        m.rd R.SAF_LATCHED = s.m.rd R.SAF_LATCHED ∧ bit 2 (m.rd R.SAF_EVT) = true ∧
        m.rd R.SAF_CNT_REL_REFUSED = min 0xFFFFFFFF (s.m.rd R.SAF_CNT_REL_REFUSED + 1))) ∧
    (∀ v : Word, v.toNat ≠ 0x736C6572 → Turns (.safRelease w v) s w R.SAF_RELEASE true .range) ∧
    (∀ n : Fin 22, causeHeld n = true → causeStands s.m n = false →
      To (.causeCleared n) s (s.m.wr R.SAF_ACTIVE (clrBit n (s.m.rd R.SAF_ACTIVE)))) ∧
    (∀ b : Bool, s.m.on R.SAF_STO_TEST = true → stoOn s.m = true → stoPulseDue s.m b = true → Goes (.stoTestPulse b true) s (fun m =>
      m.saf.test = some (b, s.m.now) ∧ m.safe = false)) ∧
    (∀ key : BitVec 16, wdGood s.m.saf.wd s.m.now (400 * s.m.rd R.SAF_WD_MIN) key.toNat = true →
      Writes (.safWdKick .keep key) s .keep R.SAF_WD_KICK false
        { s.m with saf := { s.m.saf with wd := ⟨s.m.now, !s.m.saf.wd.second, false⟩ } }) ∧
    (wdPaused s.m = false → s.m.saf.wd.warned = false → To .fieldWatchdogWarning s
      (({ s.m with saf := { s.m.saf with wd := { s.m.saf.wd with warned := true } } }).assertSrc 373)) ∧
    (∀ (v : Word) (n : Nat), n = (s.m.rd R.SAF_DIAG_CNT + 1) % 2 ^ 16 → v.toNat = (2 ^ 16 - 1 - n) * 2 ^ 16 + n →
      Writes (.safDiagSeq w v) s w R.SAF_DIAG_SEQ false
        (({ s.m with saf := { s.m.saf with diagStart := s.m.now } }).wr R.SAF_DIAG_CNT n)) ∧
    (Writes (.safKeyCommit w 0x7379656B) s w R.SAF_KEY_COMMIT true { s.m with saf := { s.m.saf with
      key := some ((List.range 8).flatMap (fun i => toLe 4 (s.m.rd (R.SAF_KEY i)))) } }) ∧
    (∀ v : Word, v.toNat ≠ 0x7379656B → Turns (.safKeyCommit w v) s w R.SAF_KEY_COMMIT true .range) ∧
    (∀ (r : Route) (h : BitVec 8), w = .dict r h →
      (s.m.linked .field = true → Leads (.blowDbgLock w) s w R.SAF_FUSE_CMD true (fun m =>
        m.saf.dbgLock = true ∧ m.saf.safLock = s.m.saf.safLock ∧
        (s.m.saf.logQ.length < 32 → m.saf.logQ.length = s.m.saf.logQ.length + 1))) ∧
      (s.m.linked .field = false → Turns (.blowDbgLock w) s w R.SAF_FUSE_CMD true .notReady) ∧
      (s.m.saf.key.isSome = true → Leads (.blowSafLock w) s w R.SAF_FUSE_CMD true (fun m =>
        m.saf.safLock = true ∧ m.saf.dbgLock = s.m.saf.dbgLock ∧
        (s.m.saf.logQ.length < 32 → m.saf.logQ.length = s.m.saf.logQ.length + 1))) ∧
      (s.m.saf.key = none → Turns (.blowSafLock w) s w R.SAF_FUSE_CMD true .range)) ∧
    ((∀ r h, w ≠ .dict r h) → Turns (.blowDbgLock w) s w R.SAF_FUSE_CMD true .machine ∧
      Turns (.blowSafLock w) s w R.SAF_FUSE_CMD true .machine) ∧
    (∀ v : Word,
      (s.m.saf.logQ.length < 32 → Writes (.safLogAppend .keep v) s .keep R.SAF_LOG_APPEND false { s.m with saf := { s.m.saf with
        logQ := s.m.saf.logQ ++ [logRecord s.m s.m.saf.logSeq 0x80 0 0 v.toNat]
        logSeq := (s.m.saf.logSeq + 1) % 2 ^ 32 } }) ∧
      (32 ≤ s.m.saf.logQ.length → Writes (.safLogAppend .keep v) s .keep R.SAF_LOG_APPEND false
        ((s.m.inc R.SAF_CNT_LOG_LOST).raise R.SAF_EVT R.SAF_EVT_EN 7 372)) ∧
      (w ≠ .keep → Turns (.safLogAppend w v) s w R.SAF_LOG_APPEND false .range)) ∧
    (∀ (r : List Byte) (rest : List (List Byte)), s.m.saf.logQ = r :: rest →
      To .logRecordWrite s ((({ s.m with
        saf := { s.m.saf with logQ := rest }
        fram := memWrN s.m.fram (0xC0000 + 32 * (fieldAt 16 4 r % 8192)) r }).wr R.SAF_LOG_HEAD (fieldAt 16 4 r)).assertSrc 374))

/-- The resets of either side (R375, R480, R506, R512, R513, R520). A reset pulse from 200 ns to 1 µs stops the model by name, for
the spec leaves it undefined (R538); a shorter one does nothing. -/
def Obligations.Resets : Prop :=
  ∀ (s : State) (w : Writer) (side : Side), Settled s →
    (∀ (bank33 unpowered : Byte) (vddio33 : Bool),
      Goes (.por side bank33 unpowered vddio33) s (fun m => Restarted side 1 s.m m ∧
        (side = .field → m.pwr.unpow = unpowered.toNat ∧ m.rd R.PWR_F_RAIL_STAT = unpowered.toNat * 2 ^ 16) ∧
        (side = .host → m.pwr.vddio33 = vddio33))) ∧
    (Goes (.bor side) s (Restarted side 2 s.m)) ∧
    (∀ ns : Nat,
      (1000 ≤ ns → Goes (.pin side ns) s (Restarted side 3 s.m)) ∧
      (200 ≤ ns → ns < 1000 → exec (.pin side ns) s = .fault .undefinedResetPulse) ∧
      (ns < 200 → exec (.pin side ns) s = .next s)) ∧
    (Goes (.wdr side) s (Restarted side 4 s.m)) ∧
    (Leads (.swsOwn w side) s w (resetObj side) true (Restarted side 6 s.m)) ∧
    (Writes (.swf w side) s w (resetObj side) true
      (let m := if s.m.linked side then linkQueue side 19 [2, 0, 0, 0] s.m else s.m
       match side with
       | .host => { m with pwr := { m.pwr with rstH := some (s.m.tb.sclk + 1600) } }
       | .field => { m with pwr := { m.pwr with rstF := some (s.m.tb.sclk + 1600) } })) ∧
    (Restarted side 5 s.m (softReset side 5 s.m)) ∧
    (s.m.linked side = true →
      Writes (.swsOther w side) s w (resetObj side) true (linkQueue side 19 [1, 0, 0, 0] s.m)) ∧
    (s.m.linked side = false → Turns (.swsOther w side) s w (resetObj side) true .notReady) ∧
    (∀ key : BitVec 16,
      ((∀ n, w ≠ .spire n) ∨ wdGood s.m.pwr.hWd (hostTicks s.m) (400 * s.m.rd R.PWR_H_WD_MIN) key.toNat = false →
        Leads (.hostWdKick w key) s w R.PWR_H_WD_KICK false (HostRestarted 4 s.m)) ∧
      (∀ n : Fin 2, wdGood s.m.pwr.hWd (hostTicks s.m) (400 * s.m.rd R.PWR_H_WD_MIN) key.toNat = true →
        Writes (.hostWdKick (.spire n) key) s (.spire n) R.PWR_H_WD_KICK false
          { s.m with pwr := { s.m.pwr with hWd := ⟨hostTicks s.m, !s.m.pwr.hWd.second, false⟩ } })) ∧
    (hostWdPaused s.m = false → Goes .hostWatchdogExpiry s (HostRestarted 4 s.m)) ∧
    (hostWdPaused s.m = false → s.m.pwr.hWd.warned = false → To .hostWatchdogWarning s
      (({ s.m with pwr := { s.m.pwr with hWd := { s.m.pwr.hWd with warned := true } } }).assertSrc 413))

/-- The operating states of both sides (R521 to R524). -/
def Obligations.OperatingStates : Prop :=
  ∀ (s : State) (w : Writer) (bar : Bool), Settled s →
    (s.m.inHold = false → Leads (.holdRequest w) s w R.PWR_F_STATE_REQ false (fun m =>
      m.rd R.PWR_F_STATE = 2 ∧ m.rd R.PWR_F_STATE_REQ = 2 ∧ m.pwr.fSleepReq = false ∧ stoOn m = false ∧
      bit 0 (m.rd R.PWR_F_EVT) = true)) ∧
    (s.m.inHold = true → Writes (.holdRequest w) s w R.PWR_F_STATE_REQ false
      ({ s.m with pwr := { s.m.pwr with fSleepReq := false } }.wr R.PWR_F_STATE_REQ 2)) ∧
    (s.m.inHold = true → Leads (.runRequest w) s w R.PWR_F_STATE_REQ false (fun m =>
      m.rd R.PWR_F_STATE = 0 ∧ m.rd R.PWR_F_STATE_REQ = 0 ∧ m.pwr.fSleepReq = false ∧ bit 0 (m.rd R.PWR_F_EVT) = true)) ∧
    (s.m.inHold = false → Writes (.runRequest w) s w R.PWR_F_STATE_REQ false
      ({ s.m with pwr := { s.m.pwr with fSleepReq := false } }.wr R.PWR_F_STATE_REQ 0)) ∧
    (s.m.inHold = false → Writes (.sleepRequest w) s w R.PWR_F_STATE_REQ false
      ({ s.m with pwr := { s.m.pwr with fSleepReq := true } }.wr R.PWR_F_STATE_REQ 3)) ∧
    (s.m.inHold = true → Turns (.sleepRequest w) s w R.PWR_F_STATE_REQ false .range) ∧
    (s.m.pwr.fSleepReq = true → (s.m.core 2).gated = true → s.m.inHold = false → belWakes s.m 2 = false →
      Goes .sleepEntry s (fun m => m.pwr.fSleep = true ∧ m.pwr.fSleepReq = false ∧ m.barState .field = 0 ∧ stoOn m = false ∧
        bit 0 (m.rd R.PWR_F_EVT) = true ∧ m.keepMem = s.m.keepMem ∧ (m.core 2).x = (s.m.core 2).x)) ∧
    (s.m.pwr.fSleep = true → s.m.pwr.stage = 0 → (if bar then s.m.on R.PWR_F_WAKE_BAR else belCalls s.m 2) = true →
      Goes (.wake bar) s (fun m =>
        m.pwr.stage = 1 ∧ m.pwr.fSleep = true ∧ m.rd R.PWR_F_WAKE_CAUSE = if bar then 2 else 1)) ∧
    (s.m.pwr.stage = 1 → s.m.pwr.granted = true →
      Goes .wakeStage s (fun m => m.pwr.stage = 2 ∧ m.pwr.stageAt = s.m.now ∧ m.pwr.fSleep = s.m.pwr.fSleep)) ∧
    (s.m.pwr.stage = 2 → s.m.pwr.granted = true → To .wakeStage s { s.m with pwr := { s.m.pwr with
      stage := 3, granted := false, stageAt := s.m.now } }) ∧
    (s.m.pwr.stage = 3 → s.m.tb.slowFrom = none → Goes .wakeStage s (fun m =>
      m.pwr.stage = 4 ∧ m.pwr.fSleep = false ∧ (m.core 2).gated = false ∧ bit 5 (m.rd R.PWR_F_EVT) = true ∧
      bit 0 (m.rd R.PWR_F_EVT) = true ∧ m.saf.wd.start = s.m.now ∧ m.saf.diagStart = s.m.now)) ∧
    (s.m.pwr.stage = 3 → s.m.tb.slowFrom ≠ none → To .wakeStage s { s.m with pwr := { s.m.pwr with
      granted := true, stageAt := s.m.now } }) ∧
    (s.m.pwr.stage = 4 → Goes .wakeStage s (fun m =>
      m.pwr.stage = 0 ∧ m.rd R.PWR_F_STATE_REQ = 0 ∧
      m.barState .field = if s.m.barState .field = 0 then 1 else s.m.barState .field)) ∧
    (Writes (.hostSleepRequest w) s w R.PWR_H_STATE_REQ false
      ({ s.m with pwr := { s.m.pwr with hSleepReq := true } }.wr R.PWR_H_STATE_REQ 3)) ∧
    (s.m.pwr.hSleepReq = true → s.m.pwr.hSleep = false → (s.m.core 0).gated = true →
      ((s.m.core 1).gated = true ∨ (s.m.core 1).held = true) → Goes .hostSleepEntry s (fun m =>
        m.pwr.hSleep = true ∧ m.pwr.hSleepReq = false ∧ m.barState .host = 0 ∧ m.cans = [] ∧ m.hostMem = s.m.hostMem ∧
        m.core 0 = s.m.core 0 ∧ m.core 1 = s.m.core 1)) ∧
    (s.m.pwr.hSleep = true → (if bar then s.m.on R.PWR_H_WAKE_BAR else belCalls s.m 0 || belCalls s.m 1) = true →
      Goes (.hostWake bar) s (fun m => m.pwr.hSleep = false ∧ m.rd R.PWR_H_STATE_REQ = 0 ∧ m.barState .host = 1 ∧
        (m.core 0).gated = false ∧ (m.core 1).gated = false ∧ bit 3 (m.rd R.PWR_H_EVT) = true))

/-- The remaining commands of power, supply supervision and boot complete (R393, R508, R509, R510, R515, R518, R526 to R529). -/
def Obligations.PowerCommands : Prop :=
  ∀ (s : State) (w : Writer), Settled s →
    (∀ r : Fin 20, railSupervised s.m r = true → r.val ≤ 12 → bit r s.m.pwr.railF = false → borNow s.m .field = false →
      Acts (.railWarningAssert r) s (fun m => m.alarms = [15] ∧ bit r (m.rd R.PWR_F_RAIL_STAT) = true ∧
        (m.core 2).c7 = (s.m.core 2).c7 ++ [0x100 + r.val] ∧
        ∀ o < 16, bit o (s.m.rd R.PWR_BW_SAFE) = true → bit 4 (m.rd (R.TRP_LATCH_CAUSE o)) = true)) ∧
    (∀ r : Fin 20, borNow s.m (if r.val ≤ 12 then .field else .host) = true → To (.railWarningAssert r) s s.m) ∧
    (∀ r : Fin 20, 16 ≤ r.val → bit (r.val - 16) s.m.pwr.railH = false → borNow s.m .host = false →
      Goes (.railWarningAssert r) s (fun m => bit (r.val - 16) (m.rd R.PWR_H_RAIL_STAT) = true ∧
        (m.core 0).c7 = (s.m.core 0).c7 ++ [0x100 + r.val] ∧ (m.core 1).c7 = (s.m.core 1).c7 ++ [0x100 + r.val])) ∧
    (∀ r : Fin 20, r.val ≤ 12 → bit r s.m.pwr.railF = true →
      Goes (.railWarningDeassert r) s (fun m => bit r (m.rd R.PWR_F_RAIL_STAT) = false ∧
        (bits 12 0 (clrBit r s.m.pwr.railF) = 0 → bit 4 (m.rd R.PWR_F_EVT) = true ∧
          m.rd R.PWR_F_BW_EPISODES = min 0xFFFFFFFF (s.m.rd R.PWR_F_BW_EPISODES + 1)))) ∧
    (∀ r : Fin 20, 16 ≤ r.val → bit (r.val - 16) s.m.pwr.railH = true →
      Goes (.railWarningDeassert r) s (fun m => bit (r.val - 16) (m.rd R.PWR_H_RAIL_STAT) = false ∧
        (bits 3 0 (clrBit (r.val - 16) s.m.pwr.railH) = 0 → bit 2 (m.rd R.PWR_H_EVT) = true ∧
          m.rd R.PWR_H_BW_EPISODES = min 0xFFFFFFFF (s.m.rd R.PWR_H_BW_EPISODES + 1)))) ∧
    (To .creditAdd s (s.m.wr R.PWR_INRUSH_CREDITS
      (min (s.m.rd R.PWR_INRUSH_MAX) (s.m.rd R.PWR_INRUSH_CREDITS + s.m.rd R.PWR_INRUSH_RATE)))) ∧
    (∀ (d : Draw) (rest : List Draw), s.m.pwr.gov = d :: rest →
      (drawCost s.m d ≤ s.m.rd R.PWR_INRUSH_CREDITS → Goes .governorGrant s (fun m => m.pwr.gov = rest ∧
        m.rd R.PWR_INRUSH_CREDITS = s.m.rd R.PWR_INRUSH_CREDITS - drawCost s.m d ∧ bit 1 (m.rd R.PWR_F_EVT) = true)) ∧
      (s.m.rd R.PWR_INRUSH_CREDITS < drawCost s.m d → To .governorGrant s s.m)) ∧
    (∀ (v : BitVec 16) (k n : Nat), v.toNat = 256 * k + n → n < 256 →
      ((k = 1 ∧ n ≤ 15) ∨ (k = 2 ∧ n = 0) ∨ (k = 3 ∧ n ≤ 127) ∨ (k = 4 ∧ n ≤ 15) ∨ (k = 5 ∧ n ≤ 15) ∨ (k = 6 ∧ n ≤ 7) →
        May w R.PWR_UNIT_STOP false s → Acts (.pwrUnitStop w v) s (fun m => m.rd R.PWR_UNIT_LAST = v.toNat ∧
          m.rd R.PWR_CNT_UNIT = min 0xFFFFFFFF (s.m.rd R.PWR_CNT_UNIT + 1) ∧
          (k = 1 → m.on (R.WHL_ENABLE n) = false) ∧ (k = 2 → m.on R.LAN_RUN = false) ∧ (k = 5 → m.on (R.PWM_RUN n) = false) ∧
          (k = 6 → m.on (R.TUR_RUN n) = false))) ∧
      ((k = 0 ∨ 6 < k ∨ (k = 2 ∧ n ≠ 0) ∨ ((k = 1 ∨ k = 4 ∨ k = 5) ∧ 15 < n) ∨ (k = 3 ∧ 127 < n) ∨ (k = 6 ∧ 7 < n)) →
        Turns (.pwrUnitStop w v) s w R.PWR_UNIT_STOP false .range)) ∧
    (s.m.bar.fwOut = none → Leads (.reloadField w) s w R.PWR_H_FW_CMD false (fun m =>
      m.bar.fwOut = (if (pickImage .field s.m).2 = 2 then none else some 0) ∧
      bits 3 2 (m.rd R.PWR_H_BOOT_STAT) = (pickImage .field s.m).2)) ∧
    (s.m.bar.fwOut ≠ none → Turns (.reloadField w) s w R.PWR_H_FW_CMD false .busy) ∧
    (∀ (r : Route) (h : BitVec 8), w = .dict r h →
      (s.m.saf.bootKey = none → Writes (.bootkeyCommit w 0x6B746F62) s w R.PWR_H_BOOTKEY_CMD true
        { s.m with saf := { s.m.saf with
          bootKey := some ((List.range 8).flatMap (fun i => toLe 4 (s.m.rd (R.PWR_H_BOOTKEY i)))) } }) ∧
      (∀ v : Word, s.m.saf.bootKey ≠ none ∨ v.toNat ≠ 0x6B746F62 →
        Turns (.bootkeyCommit w v) s w R.PWR_H_BOOTKEY_CMD true .range)) ∧
    (∀ v : Word, (∀ r h, w ≠ .dict r h) → Turns (.bootkeyCommit w v) s w R.PWR_H_BOOTKEY_CMD true .machine) ∧
    (∀ up perst msix : Bool, To (.pcieStateChange up perst msix) s
      (({ s.m with pwr := { s.m.pwr with pcieUp := up, perst := perst, msixEn := msix } }).assertSrc 408))

/-- Training, link upkeep, QUIET and loss (R416, R417, R421, R434 to R437). -/
def Obligations.BarrierTraining : Prop :=
  ∀ (s : State) (side : Side) (evt : Obj), Settled s → evt = (if side = .host then R.BAR_H_EVT else R.BAR_F_EVT) →
    (∀ lane : Fin 4, To (.laneAlignmentLoss side lane) s
      (barLanes side (clrBit lane (s.m.barEnd side).lanes) s.m)) ∧
    (s.m.barState side = 4 ∨ s.m.barState side = 5 → Goes (.ts1Received side) s (fun m => m.barState side = 1 ∧
      (m.barEnd side).ts2 = false ∧ (m.barEnd side).queue = [] ∧ (m.barEnd side).replay = [])) ∧
    (s.m.barState side = 1 → Goes (.receiverAligned side) s (fun m => m.barState side = 1 ∧ m.rd (lanesObj side) = 15 ∧
      (m.barEnd side).lanes = 15 ∧ (m.barEnd side).ts2 = true)) ∧
    (s.m.barState side = 1 → (s.m.barEnd side).ts2 = true → (s.m.barEnd side).lanes = 15 → Goes (.ts2Received side) s (fun m => m.barState side = 2 ∧
      (m.barEnd side).txSeq = 0 ∧ (m.barEnd side).rxSeq = 0 ∧ (m.barEnd side).replay = [] ∧
      (m.barEnd side).queue = [(6, ⟨2, helloPayload side s.m⟩)])) ∧
    (∀ (f : LinkFrame) (p : List Byte) (m : Mach), Arrives side 1 p f s m → m.barState side = 3 →
      To (.link side f) s (linkContent side (fieldAt 2 2 f.bytes) p m)) ∧
    (s.m.barState side = 2 ∨ s.m.barState side = 3 → urgent s.m side = true →
      To (.linkDue side) s (s.m.updEnd side (fun e => { e with due := true }))) ∧
    (s.m.barState side = 2 ∨ s.m.barState side = 3 → urgent s.m side = false → Goes (.linkDue side) s (fun m =>
      (m.barEnd side).nak = false ∧ (m.barEnd side).due = false ∧
      (m.barEnd side).wire = (s.m.barEnd side).wire ++ [frameBytes ⟨1, toLe 2 (s.m.barEnd side).rxSeq ++
        toLe 1 (boolNat (s.m.barEnd side).nak +
          (if side = .field then 2 * boolNat s.m.keepHalted + 4 * boolNat s.m.safe else 0)) ++ [0]⟩ (s.m.barEnd side).txSeq])) ∧
    (s.m.barState side = 2 ∨ s.m.barState side = 3 → (s.m.barEnd side).replay ≠ [] →
      Goes (.replayTimeout side) s (fun m => (m.barEnd side).replay = (s.m.barEnd side).replay ∧
        (m.barEnd side).resend = (s.m.barEnd side).replay ∧ (m.barEnd side).wire = (s.m.barEnd side).wire)) ∧
    (∀ (m : Mach) (q : Nat × Msg) (rest : List (Nat × Msg)), (m.barEnd side).resend = q :: rest →
      ((linkAgain side m).barEnd side).wire = (m.barEnd side).wire ++ [frameBytes q.2 q.1] ∧
      ((linkAgain side m).barEnd side).resend = rest ∧ ((linkAgain side m).barEnd side).replay = (m.barEnd side).replay ∧
      (linkAgain side m).rd (cntRetx side) = min 0xFFFFFFFF (m.rd (cntRetx side) + 1)) ∧
    (∀ (f : LinkFrame) (p : List Byte) (m : Mach), Arrives side 2 p f s m → m.barState side = 2 →
      (helloAcked m side = true → Goes (.hello side f) s (fun t => t.barState side = 3 ∧ bit 0 (t.rd evt) = true ∧
        (side = .host → t.bar.helloVer = fieldAt 8 4 p ∧ t.bar.calLeft = 64 ∧
          (∀ a c : Nat, m.bar.early = some (a, c) → a < 2 ^ 16 → c < 2 ^ 16 → t.bar.adopted = true ∧
            t.rd R.BAR_H_SAFE_CNT_A = a ∧ t.rd R.BAR_H_SAFE_CNT_B = c) ∧
          (m.bar.early = none → t.bar.adopted = false)))) ∧
      (helloAcked m side = false → Goes (.hello side f) s (fun t => t.barState side = 2 ∧ (t.barEnd side).gotHello = true))) ∧
    (∀ (f : LinkFrame) (p : List Byte) (m : Mach), Arrives side 3 p f s m →
      (fieldAt 1 1 p ≠ 1 ∨ m.linked side = false → Goes (.state side f) s (fun t => t.barState side = m.barState side ∧
        (side = .host → t.bar.peerState = fieldAt 0 1 p))) ∧
      (fieldAt 1 1 p = 1 → m.linked side = true → side = .host ∨ m.rd R.BAR_F_QUIET_REACT ≠ 1 →
        Goes (.state side f) s (fun t => t.barState side = 5 ∧ bit 2 (t.rd evt) = true ∧ (t.barEnd side).queue = [] ∧
          t.safe = s.m.safe)) ∧
      (fieldAt 1 1 p = 1 → m.linked side = true → side = .field → m.rd R.BAR_F_QUIET_REACT = 1 →
        m.rd R.BAR_F_LOSS_REACT = 0 → Trips 14 m → Goes (.state side f) s (fun t => t.barState side = 5 ∧ InSafe 14 s.m t))) ∧
    (s.m.barState .host = 2 ∨ s.m.barState .host = 3 → s.m.dic.waiting = [] →
      (∀ e ∈ s.m.bar.fwds, e.2.ask.q.route ≠ .can0 ∧ e.2.ask.q.route ≠ .can1) →
      (∀ a : Ask, s.m.dic.storeFor = .ask a → a.q.route ≠ .can0 ∧ a.q.route ≠ .can1) →
      Goes (.barrierLoss .host) s (fun m => m.barState .host = 4 ∧ m.rd R.BAR_H_LAST_LOSS = s.m.hlt ∧ m.bar.fwds = [] ∧
        m.saf.sess = [] ∧ m.rd R.BAR_H_CNT_LOSS = min 0xFFFFFFFF (s.m.rd R.BAR_H_CNT_LOSS + 1) ∧
        bit 1 (m.rd R.BAR_H_EVT) = true)) ∧
    (s.m.barState .field = 2 ∨ s.m.barState .field = 3 →
      (s.m.rd R.BAR_F_LOSS_REACT = 0 → Trips 14 s.m → Goes (.barrierLoss .field) s (fun m => m.barState .field = 4 ∧
        m.rd R.BAR_F_LAST_LOSS = s.m.now ∧ m.rd R.BAR_F_CNT_LOSS = min 0xFFFFFFFF (s.m.rd R.BAR_F_CNT_LOSS + 1) ∧
        m.bar.parts = [] ∧ InSafe 14 s.m m)) ∧
      (s.m.rd R.BAR_F_LOSS_REACT ≠ 0 → s.m.safe = false → s.m.bar.cstop = none →
        Goes (.barrierLoss .field) s (fun m => m.barState .field = 4 ∧ m.rd R.BAR_F_LAST_LOSS = s.m.now ∧
          m.bar.cstop = some s.m.now ∧ bit 7 (m.rd R.BAR_F_EVT) = true ∧ m.safe = false))) ∧
    (s.m.bar.cstop ≠ none → Trips 14 s.m → Goes .cstopLimit s (InSafe 14 s.m))

/-- The two-channel safe-state commands (R427 to R430). -/
def Obligations.SafeChannels : Prop :=
  ∀ (s : State) (b : Bool), Settled s →
    (∀ v : Word,
      (MayCore (Fin.ofNat 3 (boolNat b)) 1 (safePort b) s → (s.m.core (boolNat b)).lvl = 2 →
        v.toNat = 0x1E ∨ v.toNat = 0x2D ∨ v.toNat = 0x4B → s.m.linked .host = true →
        (b = false → ∃ t, exec (.safeAStore 0 v) s = .next t ∧ t.pending = s.pending ∧ SafeQueued false v s.m t.m) ∧
        (b = true → ∃ t, exec (.safeBStore 1 v) s = .next t ∧ t.pending = s.pending ∧ SafeQueued true v s.m t.m)) ∧
      (∀ core : Fin 3, MayCore core 1 (safePort b) s →
        core.val ≠ boolNat b ∨ (s.m.core core).lvl ≠ 2 ∨ (v.toNat ≠ 0x1E ∧ v.toNat ≠ 0x2D ∧ v.toNat ≠ 0x4B) →
        (b = false → exec (.safeAStore core v) s = .next { s with m := settle (storeRefused core (safePort b) s.m) }) ∧
        (b = true → exec (.safeBStore core v) s = .next { s with m := settle (storeRefused core (safePort b) s.m) }))) ∧
    (∀ (f : LinkFrame) (p : List Byte) (m : Mach) (c : Instr), c = (if b then .safeB f else .safeA f) →
      Arrives .field (if b then 17 else 16) p f s m →
      (safeParse b p = none → To c s (barRaise .field 5 (m.inc R.BAR_F_CNT_SAFE_REJ))) ∧
      (∀ cnt : Nat, safeParse b p = some (0x1E, cnt) → cnt ≠ m.rd (fieldCnt b) →
        (∀ o ∈ copies m (!b), o.cmd ≠ 0x1E) → Trips 19 m →
        (b = false → ∃ t, exec (.safeA f) s = .next t ∧ t.pending = s.pending ∧ InSafe 19 s.m t.m ∧ t.m.rd (fieldCnt b) = cnt) ∧
        (b = true → ∃ t, exec (.safeB f) s = .next t ∧ t.pending = s.pending ∧ InSafe 19 s.m t.m ∧ t.m.rd (fieldCnt b) = cnt)) ∧
      (∀ cnt : Nat, safeParse b p = some (0x2D, cnt) → cnt ≠ m.rd (fieldCnt b) →
        (∀ o ∈ copies m (!b), o.cmd ≠ 0x2D) → m.rd R.SAF_STATE = 0 → releasedNow m = false → Goes c s (fun t => t.rd R.SAF_STATE = 2 ∧ t.saf.ss1Start = m.now ∧ t.rd (fieldCnt b) = cnt)) ∧
      (∀ (cmd cnt : Nat), cmd = 0x1E ∨ cmd = 0x2D → safeParse b p = some (cmd, cnt) → cnt = m.rd (fieldCnt b) → To c s m) ∧
      (∀ (cmd cnt : Nat) (o : SafeCopy), cmd = 0x1E ∨ cmd = 0x2D → safeParse b p = some (cmd, cnt) →
        cnt ≠ m.rd (fieldCnt b) → (copies m (!b)).find? (fun e => e.cmd == cmd) = some o →
        Goes c s (fun t => t.rd (fieldCnt b) = cnt ∧ copies t (!b) = (copies m (!b)).erase o ∧ t.safe = m.safe ∧
          t.rd R.SAF_STATE = m.rd R.SAF_STATE)) ∧
      (∀ cnt : Nat, safeParse b p = some (0x4B, cnt) →
        (∀ o ∈ copies m (!b), o.cmd = 0x4B → cnt = (m.rd (fieldCnt b) + 1) % 2 ^ 16 →
          o.cnt ≠ (m.rd (fieldCnt (!b)) + 1) % 2 ^ 16) →
        To c s (setCopies b (copies m b ++ [⟨0x4B, cnt, m.now, false⟩]) m)) ∧
      (∀ (cnt : Nat) (o : SafeCopy), safeParse b p = some (0x4B, cnt) → cnt = (m.rd (fieldCnt b) + 1) % 2 ^ 16 →
        o ∈ copies m (!b) → o.cmd = 0x4B → o.cnt = (m.rd (fieldCnt (!b)) + 1) % 2 ^ 16 → m.rd R.SAF_STATE = 1 →
        m.rd R.SAF_ACTIVE = 0 → m.saf.causeAt ≠ some m.now →
        Goes c s (fun t => t.safe = false ∧ t.rd R.SAF_STATE = 0 ∧ t.rd R.SAF_LATCHED = 0 ∧ t.rd (fieldCnt b) = cnt ∧
          t.rd (fieldCnt (!b)) = o.cnt))) ∧
    (∀ (o : SafeCopy) (rest : List SafeCopy), copies s.m (!b) = o :: rest →
      (o.told = false → Goes (.safeDiscrepancy b) s (fun m => copies m (!b) = rest ∧
        m.rd R.BAR_F_CNT_SAFE_DISC = min 0xFFFFFFFF (s.m.rd R.BAR_F_CNT_SAFE_DISC + 1) ∧ bit 6 (m.rd R.BAR_F_EVT) = true ∧
        (o.cmd ≠ 0x4B → copies m b = copies s.m b))) ∧
      (o.told = true → To (.safeDiscrepancy b) s (setCopies (!b) rest s.m)))

/-- The time strobe, its calibration, the servo's beacon and the barrier's ECHO (R89 to R91, R426, R432, R433, R550). -/
def Obligations.StrobeCommands : Prop :=
  ∀ (s : State) (w : Writer) (side : Side), Settled s →
    (s.m.barState .host ≠ 0 → s.m.hostOff = false → Goes .strobeSend s (fun m =>
      m.rd R.BAR_H_STROBE_NUM = (s.m.rd R.BAR_H_STROBE_NUM + 1) % 2 ^ 32 ∧ m.bar.lastStrobe = s.m.hlt ∧
      (s.m.linked .host = true → m.bar.h.queue = s.m.bar.h.queue ++
        [(3, ⟨4, toLe 8 s.m.hlt ++ toLe 4 ((s.m.rd R.BAR_H_STROBE_NUM + 1) % 2 ^ 32)⟩)]))) ∧
    (∀ n : Word, lclkMode s.m = false →
      To (.strobeCapture n) s { s.m with bar := { s.m.bar with strobe := some (n.toNat, s.m.tb.lt, s.m.now) } }) ∧
    (s.m.linked .host = true →
      To .calibrationStart s { s.m with bar := { s.m.bar with
        calLeft := 64, calAt := s.m.tb.sclk, echoes := [], calGot := 0, calSum := 0, lastCal := s.m.hlt } } ∧
      Writes (.cal w) s w R.BAR_H_CMD false { s.m with bar := { s.m.bar with
        calLeft := 64, calAt := s.m.tb.sclk, echoes := [], calGot := 0, calSum := 0, lastCal := s.m.hlt } }) ∧
    (∀ m : Mach, m.bar.calLeft ≠ 0 →
      (calStrobe m).bar.calLeft = m.bar.calLeft - 1 ∧ (calStrobe m).bar.calAt = m.bar.calAt + 8000 ∧
      (lclkMode m = false → (calStrobe m).bar.echoes = m.bar.echoes ++ [m.now + 16])) ∧
    (∀ m : Mach, m.bar.calGot + 1 ≠ 64 →
      (calEcho m).bar.calGot = m.bar.calGot + 1 ∧ (calEcho m).bar.echoes = m.bar.echoes.drop 1) ∧
    (∀ (rtt : Word) (d : Int), calRuns s.m = true → d = ((rtt.toNat : Int) - 39375).tdiv 2 + s.m.rdI 16 R.BAR_H_ASYM →
      Goes (.calibrationComplete rtt) s (fun m => calRuns m = false ∧ m.rd R.BAR_H_RTT = rtt.toNat ∧
        m.rd R.BAR_H_CAL_DELAY = ofSigned 32 d ∧ bit 4 (m.rd R.BAR_H_EVT) = true)) ∧
    (∀ (f : LinkFrame) (p : List Byte) (m : Mach), Arrives .field 6 p f s m →
      Goes (.strobeCal f) s (fun t => t.bar.calNs = toSigned 32 (fieldAt 0 4 p) ∧ t.bar.calDone = true ∧
        t.rd R.BAR_F_CAL_DELAY = fieldAt 0 4 p ∧ bit 4 (t.rd R.BAR_F_EVT) = true)) ∧
    (∀ (f : LinkFrame) (p : List Byte) (m : Mach), Arrives .host 5 p f s m → To (.timeReport f) s m) ∧
    (∀ (f : LinkFrame) (p : List Byte) (m : Mach) (n cap at_ : Nat) (e : Int),
      Arrives .field 4 p f s m → m.bar.strobe = some (n, cap, at_) →
      e = toSigned 64 (ofSigned 64 ((fieldAt 0 8 p : Int) - cap)) - (m.bar.calNs + 500) / 1000 →
      (n ≠ fieldAt 8 4 p → To (.beacon f) s m) ∧
      (n = fieldAt 8 4 p → Goes (.beacon f) s (fun t => t.bar.strobe = none ∧ t.tb.ref = at_ ∧
        t.rd R.LT_BEACON_ERR = ofSigned 32 (satSigned 32 e) ∧ bit 1 (t.rd R.LT_SERVO_STATUS) = false ∧
        (m.rd R.LT_SERVO_MODE ≠ 1 → t.rd R.LT_ADDEND = m.rd R.LT_ADDEND ∧ t.tb.step = m.tb.step) ∧
        (m.rd R.LT_SERVO_MODE = 1 → m.rd R.LT_STEP_THRESH < e.natAbs → t.tb.step = m.tb.step + e ∧
          t.rd R.LT_ADDEND = 0x80000000 ∧ t.rd R.LT_INTEGRAL = 0 ∧ bit 0 (t.rd R.LT_SERVO_STATUS) = false ∧
          bit 2 (t.rd R.LT_SERVO_STATUS) = true) ∧
        (m.rd R.LT_SERVO_MODE = 1 → e.natAbs ≤ m.rd R.LT_STEP_THRESH →
          t.tb.step = m.tb.step ∧ bit 2 (t.rd R.LT_SERVO_STATUS) = false ∧
          ∃ ai : Int, ai = clampInt (-0x0051EB85) 0x0051EB85
              (m.rdI 32 R.LT_INTEGRAL + (m.rd R.LT_KI * e * 2 ^ 32).tdiv (102400 * m.rd R.BAR_STROBE_INT)) ∧
            t.rd R.LT_INTEGRAL = ofSigned 32 ai ∧
            t.rd R.LT_ADDEND = (ltAddendClamp (0x80000000 + ai +
              (m.rd R.LT_KP * e * 2 ^ 32).tdiv (102400 * m.rd R.BAR_STROBE_INT))).toNat)))) ∧
    (Writes (.barEchoCmd w side) s w (barCmd side) false (linkQueue side 20 [0, BitVec.ofNat 8 s.m.free.1] s.m.free.2)) ∧
    (∀ (f : LinkFrame) (r : Byte) (p : List Byte) (m : Mach), Arrives side 20 (r :: p) f s m →
      (bit 0 r.toNat = true → To (.echoMessage side f) s (barRaise side 8 m)) ∧
      (bit 0 r.toNat = false → To (.echoMessage side f) s (linkQueue side 20 ((r ||| 1) :: p) m)))

/-- What the accepted messages of the catalogue do (R25, R396, R423 to R431, R438, R454, R459, R513, R518, R519). -/
def Obligations.BarrierMessages : Prop :=
  ∀ (s : State) (side : Side) (f : LinkFrame) (p : List Byte) (m : Mach), Settled s →
    (∀ (c : Instr) (g : Msg), messageOf c = some (side, g.typ, f) → linkAccept side f s.m = (some g, m) →
      s.m.entries.any (fun e => e.1 == side) = true → To c s m) ∧
    (∀ (fw : Fwd) (x : Nat), Arrives .host 8 p f s m → x = fieldAt 0 1 p % 8 →
      m.bar.fwds.find? (fun e => e.1 == x) = some (x, fw) →
      (bit 7 (fieldAt 1 1 p) = false → To (.dicRsp f) s { m with bar := { m.bar with
        fwds := mapPut x { fw with got := fw.got ++ p.drop 4, next := fw.next + 1 } m.bar.fwds } }) ∧
      (bit 7 (fieldAt 1 1 p) = true → m.dic.waiting = [] → fw.ask.q.route ≠ .can0 → fw.ask.q.route ≠ .can1 →
        fieldAt 7 1 (fw.got ++ p.drop 4) ≠ 1 → To (.dicRsp f) s
          (dicDeliver fw.ask (fw.got ++ p.drop 4) { m with bar := { m.bar with fwds := mapDel x m.bar.fwds } })) ∧
      (bit 7 (fieldAt 1 1 p) = true → m.dic.waiting = [] → fw.ask.q.route ≠ .can0 → fw.ask.q.route ≠ .can1 →
        fieldAt 7 1 (fw.got ++ p.drop 4) = 1 → Goes (.dicRsp f) s (fun t => t.bar.fwds = mapDel x m.bar.fwds ∧
          t.rd R.DIC_LAST_ABORT = fieldAt 8 4 (fw.got ++ p.drop 4) ∧
          t.rd R.DIC_ABORT_COUNT = min 0xFFFFFFFF (m.rd R.DIC_ABORT_COUNT + 1)))) ∧
    (Arrives .field 9 p f s m → m.keepHalted = true → To (.cycIn f) s (m.inc R.BAR_F_CNT_HALT_DROP)) ∧
    (∀ (r : Rec) (n : Nat), Arrives .field 9 p f s m → m.keepHalted = false → parseRecs p.length (p.drop 4) = some [r] →
      r.rtype = 1 → n = (mapEnt r.chan (m.rd (R.NET_RXMAP r.chan))).idx → Goes (.cycIn f) s (fun t =>
        t.rd (R.NM_POS n) = fieldAt 0 8 r.data ∧ t.rd (R.NM_SPEED n) = fieldAt 8 4 r.data ∧
        t.rd (R.NM_LT n) = fieldAt 12 8 r.data ∧ t.rd (R.NM_VALID n) = 1)) ∧
    (∀ l : List Rec, Arrives .host 10 p f s m → parseRecs p.length (p.drop 4) = some l → (∀ r ∈ l, r.rtype ≠ 3) →
      Goes (.cycOut f) s (fun t =>
        (cycSet t (fieldAt 0 4 p)).msgs = (cycSet m (fieldAt 0 4 p)).msgs + 1 ∧
        (cycSet t (fieldAt 0 4 p)).recs = (cycSet m (fieldAt 0 4 p)).recs ++ l)) ∧
    (∀ id n : Nat, Arrives side 11 p f s m → p.length = 8 → id = fieldAt 0 2 p % 1024 → n = min 15 (fieldAt 2 1 p) →
      id < 512 → srcOwner id ≠ side → (side = .field → m.keepHalted = false) →
      To (.event side f) s (m.setBel side { m.bel side with arr := (m.bel side).arr ++ [(id, n + 16, fieldAt 4 4 p)] })) ∧
    (Arrives .field 12 p f s m → m.keepHalted = true → To (.fwLoad f) s (m.inc R.BAR_F_CNT_HALT_DROP)) ∧
    (∀ got : List Byte, Arrives .field 12 p f s m → m.keepHalted = false →
      fieldAt 0 4 p = 0 ∨ fieldAt 0 4 p = m.bar.fwIn.length →
      got = (if fieldAt 0 4 p = 0 then [] else m.bar.fwIn) ++ p.drop 4 →
      (got.length < 256 → To (.fwLoad f) s { m with bar := { m.bar with fwIn := got } }) ∧
      (256 ≤ got.length → imgHeaderOk .field (got.take 256) = true → 256 + imgLen (got.take 256) ≤ got.length →
        sha256 ((got.drop 256).take (imgLen (got.take 256))) = imgDigest (got.take 256) → Goes (.fwLoad f) s (fun t =>
          (t.core 2).pc = BitVec.ofNat 32 (imgEntry (got.take 256)) ∧ (t.core 2).gated = false ∧ t.bar.fwIn = [] ∧
          t.bar.fieldVer = imgVersion (got.take 256) ∧ t.rd R.DIC_FIELD_FW_VER = imgVersion (got.take 256)))) ∧
    (Arrives .host 13 p f s m → fieldAt 4 1 p = 1 ∨ fieldAt 4 1 p = 2 →
      To (.fwStatus f) s ({ m with bar := { m.bar with fwOut := none } }.assertSrc 412)) ∧
    (∀ got : List Byte, Arrives .host 14 p f s m → m.bar.kReady = false → fieldAt 0 4 p ≠ noticeOff →
      fieldAt 0 4 p = m.bar.restored.length →
      got = m.bar.restored ++ p.drop 4 →
      (blockWhole got = false → To (.persRestore f) s { m with bar := { m.bar with restored := got } }) ∧
      (blockWhole got = true → Goes (.persRestore f) s (fun t => t.bar.kReady = true ∧ t.bar.restored = []))) ∧
    (Arrives .field 15 p f s m → m.keepHalted = true → To (.persStore f) s (m.inc R.BAR_F_CNT_HALT_DROP)) ∧
    (Arrives .field 15 p f s m → m.keepHalted = false → fieldAt 0 4 p ≠ noticeOff → fieldAt 0 4 p = m.bar.persIn.length →
      (fieldAt 0 4 p ≠ 0 → To (.persStore f) s { m with bar := { m.bar with persIn := m.bar.persIn ++ p.drop 4 } }) ∧
      (fieldAt 0 4 p = 0 → Goes (.persStore f) s (fun t => t.bar.persIn = p.drop 4 ∧ ∃ g, t.dic.storing = some g ∧
        g.vals = kVals m .field ∧ g.strs = kStrs m .field))) ∧
    (Arrives .host 18 p f s m →
      (m.linked .host = true → m.bar.adopted = true → To (.safeStatus f) s m) ∧
      (m.linked .host = false → To (.safeStatus f) s { m with bar := { m.bar with
        early := some (m.bar.early.getD (fieldAt 2 2 p, fieldAt 4 2 p)) } }) ∧
      (m.linked .host = true → m.bar.adopted = false → Goes (.safeStatus f) s (fun t => t.bar.adopted = true ∧
        t.rd R.BAR_H_SAFE_CNT_A = fieldAt 2 2 p ∧ t.rd R.BAR_H_SAFE_CNT_B = fieldAt 4 2 p))) ∧
    (Arrives side 19 p f s m →
      (fieldAt 0 1 p = 1 → Goes (.resetReq side f) s (Restarted side 6 s.m)) ∧
      (fieldAt 0 1 p = 2 → Goes (.resetReq side f) s (Restarted side 5 s.m)))

/-- The requests of the dictionary service (R41, R57 to R63, R67, R424, R496). -/
def Obligations.DictionaryRequests : Prop :=
  ∀ (s : State) (q : Req) (m : Mach), Settled s → ServiceIdle s → m = sessTouch q.session.toNat s.m →
    q.route ≠ .can0 → q.route ≠ .can1 →
    (∀ (c : Instr) (op : Nat) (r : Req),
      (c, op, r) ∈ [(Instr.read q, 1, q), (.write q, 2, q), (.domainOpenRead q, 3, q), (.domainOpenWrite q, 4, q),
        (.domainSegment q, 5, q), (.domainClose q, 6, q), (.domainCancel q, 7, q), (.echo q, 9, q),
        (.challenge q, 8, sessionReq 1 q), (.prove q, 8, sessionReq 2 q), (.sessionClose q, 8, sessionReq 3 q)] →
      (∀ a : Abort, dicBar op r s.m = some a → To c s (dicAnswer ⟨op, r, none⟩ (.error a) (dicRefused op r a s.m)))) ∧
    (ownerOf q.index.toNat = .field →
      (dicBar 1 q s.m = none → ∃ t, exec (.read q) s = .next t ∧ Forwarded 1 q s t) ∧
      (dicBar 2 q s.m = none → ∃ t, exec (.write q) s = .next t ∧ Forwarded 2 q s t) ∧
      (dicBar 3 q s.m = none → ∃ t, exec (.domainOpenRead q) s = .next t ∧ Forwarded 3 q s t) ∧
      (dicBar 4 q s.m = none → ∃ t, exec (.domainOpenWrite q) s = .next t ∧ Forwarded 4 q s t) ∧
      (dicBar 5 q s.m = none → ∃ t, exec (.domainSegment q) s = .next t ∧ Forwarded 5 q s t) ∧
      (dicBar 6 q s.m = none → ∃ t, exec (.domainClose q) s = .next t ∧ Forwarded 6 q s t) ∧
      (dicBar 7 q s.m = none → ∃ t, exec (.domainCancel q) s = .next t ∧ Forwarded 7 q s t)) ∧
    (dicBar 8 (sessionReq 1 q) s.m = none → ∃ t, exec (.challenge q) s = .next t ∧ Forwarded 8 (sessionReq 1 q) s t) ∧
    (dicBar 8 (sessionReq 2 q) s.m = none → ∃ t, exec (.prove q) s = .next t ∧ Forwarded 8 (sessionReq 2 q) s t) ∧
    (dicBar 8 (sessionReq 3 q) s.m = none → ∃ t, exec (.sessionClose q) s = .next t ∧ Forwarded 8 (sessionReq 3 q) s t) ∧
    (∀ f : Found, dicBar 1 q s.m = none → ownerOf q.index.toNat = .host →
      named s.m q.index.toNat q.sub.toNat = some (.row f) → f.row.ty ≠ .str →
      To (.read q) s (dicAnswer ⟨1, q, none⟩ (.ok (0, toLe f.row.ty.size (readObj f m).1)) (readObj f m).2)) ∧
    (∀ f : Found, dicBar 2 q s.m = none → ownerOf q.index.toNat = .host →
      named s.m q.index.toNat q.sub.toNat = some (.row f) → f.row.ty ≠ .str → f.row.ty ≠ .bool → f.row.acc = .rw →
      f.row.mach = false → isParam q.index.toNat false f.row.ret = false → isParam f.obj.idx false f.row.ret = false →
      q.data.length = f.row.ty.size → chkOk m f (leNat q.data) = true →
      overruled m f.obj = false → outranked m (.dict q.route q.session) f.obj = false →
      (∀ e ∈ effectsHost ++ effectsSide ++ effectsMotion ++ effectsOutput, e.1 ≠ f.row.id) →
      To (.write q) s (dicAnswer ⟨2, q, none⟩ (.ok (0, []))
        (rankNote (.dict q.route q.session) f.obj (m.wr f.obj (leNat q.data))))) ∧
    (dicBar 9 q s.m = none → To (.echo q) s (dicAnswer ⟨9, q, none⟩ (.ok (q.arg.toNat, q.data)) m)) ∧
    (∀ (t : State) (x : Fin 8) (fw : Fwd), Settled t → t.m.dic.waiting = [] →
      t.m.bar.fwds.find? (fun e => e.1 == x.val) = some (x.val, fw) → fw.ask.q.route ≠ .can0 → fw.ask.q.route ≠ .can1 →
      Goes (.forwardTimeout x) t (fun n => n.bar.fwds = mapDel x.val t.m.bar.fwds ∧
        n.bar.dead = t.m.bar.dead ++ [x.val] ∧ n.rd R.DIC_LAST_ABORT = Abort.unknown.code ∧
        n.rd R.DIC_FWD_TIMEOUTS = min 0xFFFFFFFF (t.m.rd R.DIC_FWD_TIMEOUTS + 1))) ∧
    (∀ (h : Fin 4) (x : Xfer), getXfer s.m (h.val + 1) = some x → x.closed = false → Goes (.domainIdleExpiry h) s (fun t =>
      getXfer t (h.val + 1) = some { x with closed := true, data := [] })) ∧
    (∀ (h : BitVec 8) (e : Sess), sessFind s.m h.toNat = some e → e.isOpen = true → Goes (.sessionIdleExpiry h) s (fun t =>
      t.saf.sess = s.m.saf.sess.filter (fun x => x.handle != h.toNat)))

/-- What the field agent does with a request (R31, R45, R60, R64 to R67, R424, R495 to R497). -/
def Obligations.FieldAgent : Prop :=
  ∀ (s : State) (f : LinkFrame) (p : List Byte) (n m : Mach) (x : Nat), Settled s → Arrives .field 7 p f s n → x = fieldAt 0 1 p →
    m = { n with bar := { n.bar with parts := mapDel x n.bar.parts } } →
    (fieldAt 1 1 p = 0 → To (.dicReq f) s { n with bar := { n.bar with
      parts := mapPut x ⟨p.drop 4, 1, bit 0 (fieldAt 2 1 p)⟩ n.bar.parts } }) ∧
    (fieldAt 1 1 p % 128 ≠ 0 → fieldAt 1 1 p % 128 ≠ (mapGet {} x n.bar.parts).next → To (.dicReq f) s m) ∧
    (∀ (op idx sub : Nat) (q : Req) (w : Writer) (reply : DicRes → Mach → Mach), fieldAt 1 1 p = 0x80 →
      reqOf (xidRoute x) 0 (p.drop 4) = (op, q) → idx = q.index.toNat → sub = q.sub.toNat → w = .dict q.route q.session →
      reply = (fun r k => k.each (fragments x 0 6 0 (rspFrame op q r)) (fun b k => linkQueue .field 8 b k)) →
      (m.keepHalted = true → To (.dicReq f) s (reply (.error .halted) m)) ∧
      (m.keepHalted = false →
        (∀ o : Found, op = 1 → named m idx sub = some (.row o) → o.row.ty ≠ .str →
          To (.dicReq f) s (reply (.ok (0, toLe o.row.ty.size (readObj o m).1)) (readObj o m).2)) ∧
        (∀ o : Found, op = 2 → named m idx sub = some (.row o) → o.row.ty ≠ .str → o.row.ty ≠ .bool → o.row.acc = .rw →
          o.row.mach = false → isParam idx false o.row.ret = false → isParam o.obj.idx false o.row.ret = false →
          q.data.length = o.row.ty.size → chkOk m o (leNat q.data) = true → overruled m o.obj = false →
          outranked m w o.obj = false →
          (∀ e ∈ effectsHost ++ effectsSide ++ effectsMotion ++ effectsOutput, e.1 ≠ o.row.id) →
          To (.dicReq f) s (reply (.ok (0, [])) (rankNote w o.obj ((octFirst o m).wr o.obj (leNat q.data))))) ∧
        (∀ (o : Named) (h : Nat) (c : List Byte), op = 3 → named m idx sub = some o → o.acc ≠ .wo → freeHandle m = some h →
          idx ≠ 0x5300 → c = domContent m idx sub → To (.dicReq f) s (reply (.ok (c.length, toLe 4 (crc32 c) ++ toLe 1 h)) (setXfer h
            { route := q.route, idx := idx, sub := sub, wr := false, total := c.length, crc := crc32 c, data := c,
              last := m.tb.sclk } m))) ∧
        (∀ (o : Named) (h : Nat), op = 3 → named m idx sub = some o → o.acc ≠ .wo → freeHandle m = some h → idx = 0x5300 →
          ∃ c : List Byte, c.length ≤ 16777216 ∧ Goes (.dicReq f) s (fun k => getXfer k h = some
            { route := q.route, idx := idx, sub := sub, wr := false, total := c.length, crc := crc32 c, data := c,
              last := m.tb.sclk })) ∧
        (∀ (o : Named) (h : Nat), op = 4 → named m idx sub = some o → o.acc = .rw → o.mach = false →
          domSizeOk m idx q.arg.toNat = true → (∀ e ∈ m.dic.xfers, e.2.idx ≠ idx ∨ e.2.sub ≠ sub) → freeHandle m = some h →
          To (.dicReq f) s (reply (.ok (0, toLe 1 h)) (setXfer h
            { route := q.route, idx := idx, sub := sub, wr := true, total := q.arg.toNat, crc := fieldAt 0 4 q.data, data := [],
              last := m.tb.sclk } m))) ∧
        (∀ (o : Named) (t : Xfer), named m idx sub = some o → getXfer m q.handle.toNat = some t →
          (op = 5 → q.arg.toNat ≠ t.next ∨ t.total ≤ q.arg.toNat → To (.dicReq f) s (reply (.error .sequence) m)) ∧
          (op = 5 → t.wr = true → q.arg.toNat = t.next → t.next < t.total → t.next + q.data.length ≤ t.total →
            To (.dicReq f) s (reply (.ok (t.next, [])) (setXfer q.handle.toNat
              { t with data := t.data ++ q.data, next := t.next + q.data.length, last := m.tb.sclk } m))) ∧
          (op = 5 → t.wr = false → q.arg.toNat = t.next → t.next < t.total →
            To (.dicReq f) s (reply (.ok (t.next, (t.data.drop t.next).take 240)) (setXfer q.handle.toNat
              { t with next := t.next + ((t.data.drop t.next).take 240).length, last := m.tb.sclk } m))) ∧
          (op = 6 → t.wr = false → To (.dicReq f) s (reply (.ok (0, [])) ((delXfer q.handle.toNat m).assertSrc 419))) ∧
          (op = 6 → t.wr = true → t.data.length ≠ t.total →
            To (.dicReq f) s (reply (.error .size) ((delXfer q.handle.toNat m).assertSrc 419))) ∧
          (op = 6 → t.wr = true → t.data.length = t.total → t.route ≠ .can0 → t.route ≠ .can1 → crc32 t.data ≠ t.crc →
            To (.dicReq f) s (reply (.error .crc) ((delXfer q.handle.toNat m).assertSrc 419))) ∧
          (∀ k : Mach, op = 6 → t.wr = true → t.data.length = t.total → crc32 t.data = t.crc →
            domCommit t.idx t.sub t.data ((delXfer q.handle.toNat m).assertSrc 419) = .ok k →
            To (.dicReq f) s (settle (reply (.ok (0, [])) k))) ∧
          (op = 7 → To (.dicReq f) s (reply (.ok (0, [])) ((delXfer q.handle.toNat m).assertSrc 419)))) ∧
        (op = 8 → q.route ≠ .can0 → q.route ≠ .can1 →
          (q.arg.toNat % 256 = 1 → m.saf.key = none → To (.dicReq f) s (reply (.error .notReady) m)) ∧
          (q.arg.toNat % 256 = 1 → m.saf.key ≠ none → m.saf.lockUntil ≤ m.now → sessRoom m q.route = true → m.saf.sess.length < 255 →
            ∃ (h : Nat) (nonce : List Byte), nonce.length = 16 ∧ Goes (.dicReq f) s (fun k =>
              sessFind k h = some ⟨h, q.route, nonce, false, m.now⟩)) ∧
          (∀ (h : Nat) (e : Sess) (key : List Byte), q.arg.toNat % 256 = 2 → h = q.arg.toNat / 256 % 256 →
            sessFind m h = some e → m.saf.key = some key → e.isOpen = false → e.route = q.route → fromSpire q.route = false →
            m.now ≤ e.at_ + 800000000 → sessRoom m q.route = true →
            (q.data = sessProof key e.nonce (routeBit q.route) h → Goes (.dicReq f) s (fun k =>
              sessFind k h = some { e with isOpen := true, at_ := m.now } ∧ k.saf.fails = 0)) ∧
            (q.data ≠ sessProof key e.nonce (routeBit q.route) h → Goes (.dicReq f) s (fun k => sessFind k h = some e ∧
              k.rd R.SAF_CNT_AUTH_FAIL = min 0xFFFFFFFF (m.rd R.SAF_CNT_AUTH_FAIL + 1) ∧
              (m.saf.fails < 2 → k.saf.fails = m.saf.fails + 1) ∧
              (2 ≤ m.saf.fails → k.saf.fails = 0 ∧ k.saf.lockUntil = m.now + 4000000000)))) ∧
          (∀ e : Sess, q.arg.toNat % 256 = 3 → q.session.toNat ≠ 0 → sessFind m q.session.toNat = some e → e.isOpen = true →
            Goes (.dicReq f) s (fun k => sessFind k q.session.toNat = none)))))

/-- The three host ports of the dictionary service (R74 to R77). A PDATA read of an empty FIFO returns a free value (log 3). -/
def Obligations.HostPorts : Prop :=
  ∀ (s : State), Settled s →
    (∀ (n : Word) (b : List Byte) (m : Mach), n.toNat < 4 →
      (s.m.hostOff = true → slotTaken s.m .pcie n.toNat = true → To (.doorbell n b) s s.m) ∧
      (s.m.hostOff = false → slotTaken s.m .pcie n.toNat = true → To (.doorbell n b) s (s.m.inc R.DIC_MBX_REJECTS)) ∧
      (s.m.hostOff = false → slotTaken s.m .pcie n.toNat = false → m = slotFill n.toNat b s.m → To (.doorbell n b) s (settle (dicRequest
        ⟨(reqOf .pcie (Fin.ofNat 4 n.toNat) (slotBytes m n.toNat)).1, (reqOf .pcie (Fin.ofNat 4 n.toNat) (slotBytes m n.toNat)).2, none⟩
        (setSlot .pcie n.toNat { getSlot m .pcie n.toNat with busy := true } m))))) ∧
    (∀ mask : Word, Goes (.mbxAck mask) s (fun m => ∀ k < 4, getSlot m .pcie k =
      if bit (4 + k) mask.toNat = true ∧ (getSlot s.m .pcie k).ready = true then {} else getSlot s.m .pcie k)) ∧
    (∀ (off v : Word), regAt (0x40000000 + off.toNat) = none → To (.bar2Access .bar2 false off v) s (s.m.send .bus [0])) ∧
    (∀ (off v : Word) (idx sub : Nat) (r : Nat × Mach), regAt (0x40000000 + off.toNat) = some (idx, sub) →
      (ownerOf idx = .field → To (.bar2Access .bar2 false off v) s (s.m.send .bus [0])) ∧
      (ownerOf idx = .host → regLoad idx sub s.m = some r → To (.bar2Access .bar2 false off v) s (r.2.send .bus [1, r.1]))) ∧
    (∀ (a : Word) (off v : Word), a.toNat = 0x40000000 + off.toNat → off.toNat < 0x2000000 →
      exec (.bar2Access .bar2 true off v) s = exec (.registerWrite .pcie a v) s) ∧
    (∀ (off v : Word), off.toNat % 4 = 0 →
      (bar0Ram off.toNat = true → To (.bar2Access .bar0 true off v) s { s.m with dic := { s.m.dic with
        bar0 := mapSet 0 (off.toNat / 4) v.toNat s.m.dic.bar0 } } ∧
        To (.bar2Access .bar0 false off v) s (s.m.send .bus [1, mapGet 0 (off.toNat / 4) s.m.dic.bar0])) ∧
      (off.toNat = 0x804 → To (.bar2Access .bar0 false off v) s (s.m.send .bus [1, mbxStatus s.m])) ∧
      (off.toNat = 0x80C → To (.bar2Access .bar0 true off v) s
        { s.m with dic := { s.m.dic with mbxIrqEn := v.toNat &&& 0xF0 } })) ∧
    (∀ (n : Byte) (b : List Byte), n.toNat < 2 →
      (s.m.hostOff = true → To (.qspiWriteFrame n b) s s.m) ∧
      (s.m.hostOff = false → slotTaken s.m .qspi n.toNat = true → To (.qspiWriteFrame n b) s (s.m.inc R.DIC_MBX_REJECTS)) ∧
      (s.m.hostOff = false → slotTaken s.m .qspi n.toNat = false → To (.qspiWriteFrame n b) s (settle (dicRequest
        ⟨(reqOf .qspi (Fin.ofNat 4 n.toNat) b).1, (reqOf .qspi (Fin.ofNat 4 n.toNat) b).2, none⟩
        (setSlot .qspi n.toNat { getSlot s.m .qspi n.toNat with busy := true } s.m)))) ∧
      To (.qspiReadResponse n) s (s.m.send .bus ((getSlot s.m .qspi n.toNat).rsp.map (·.toNat)))) ∧
    (∀ (n : Byte) (b : List Byte), 2 ≤ n.toNat →
      To (.qspiWriteFrame n b) s { s.m with dic := { s.m.dic with qspiErr := true } } ∧
      To (.qspiReadResponse n) s { s.m with dic := { s.m.dic with qspiErr := true } }) ∧
    (Goes .qspiReadStatus s (fun m => m.dic.qspiErr = false ∧ m.out = ⟨.bus, [boolNat s.m.dic.qspiErr * 128 +
      boolNat (getSlot s.m .qspi 0).busy + boolNat (getSlot s.m .qspi 0).ready * 4 + boolNat (getSlot s.m .qspi 1).busy * 2 +
      boolNat (getSlot s.m .qspi 1).ready * 8]⟩ :: s.m.out)) ∧
    (∀ mask : Byte, Goes (.qspiAck mask) s (fun m => ∀ k < 2, getSlot m .qspi k =
      if bit (2 + k) mask.toNat = true ∧ (getSlot s.m .qspi k).ready = true then {} else getSlot s.m .qspi k)) ∧
    (∀ v : BitVec 16,
      (s.m.dic.parIn.length < 128 → To (.pdataWrite v) s { s.m with dic := { s.m.dic with parIn := s.m.dic.parIn ++ [v] } }) ∧
      (128 ≤ s.m.dic.parIn.length → To (.pdataWrite v) s { s.m with dic := { s.m.dic with parErr := true } })) ∧
    (∀ (v : BitVec 16) (r : List (BitVec 16)), s.m.dic.parOut = v :: r →
      To .pdataRead s ({ s.m with dic := { s.m.dic with parOut := r } }.send .bus [v.toNat])) ∧
    (s.m.dic.parOut = [] → Goes .pdataRead s (fun m => m.dic.parOut = [] ∧ ∃ v < 2 ^ 16, m.out = ⟨.bus, [v]⟩ :: s.m.out)) ∧
    (s.m.hostOff = true → To .submit s s.m) ∧
    (s.m.hostOff = false → slotTaken s.m .par 0 = true → To .submit s (s.m.inc R.DIC_MBX_REJECTS)) ∧
    (∀ b : List Byte, s.m.hostOff = false → slotTaken s.m .par 0 = false → b = s.m.dic.parIn.flatMap (fun w => toLe 2 w.toNat) →
      To .submit s (settle (dicRequest ⟨(reqOf .par 0 b).1, (reqOf .par 0 b).2, none⟩
        (setSlot .par 0 { getSlot s.m .par 0 with busy := true } { s.m with dic := { s.m.dic with parIn := [] } })))) ∧
    ((getSlot s.m .par 0).ready = true → Goes .parAck s (fun m => getSlot m .par 0 = {} ∧ m.dic.parOut = [])) ∧
    (To .fifoReset s { s.m with dic := { s.m.dic with parIn := [], parOut := [], parErr := false } })

/-- The Ethernet ports, 802.1AS and scheduled departure (R442 to R449, R476). -/
def Obligations.NetworkCommands : Prop :=
  ∀ (s : State) (p : Fin 4), Settled s →
    (∀ up : Bool, s.m.on (R.NET_PORT_EN p) = true → s.m.hostOff = false →
      To (.portLinkChange p up) s ((s.m.wr (R.NET_PORT_STATUS p)
        (if up then 1 + 2 * boolNat (portFast s.m p) else 0)).assertSrc (386 + 4 * p))) ∧
    (s.m.on (R.NET_PORT_EN p) = true → s.m.hostOff = false →
      To (.erroredFrame p) s ((s.m.inc (R.NET_PORT_CNT_ERR p)).assertSrc (386 + 4 * p))) ∧
    (∀ (f : SyncMsg) (o : Int), asOn s.m p = true → f.domain.toNat = s.m.rd R.NET_AS_DOMAIN → s.m.rd R.NET_AS_STATE = 2 →
      s.m.net.gptp.slave = some p.val → o = toSigned 64 (ofSigned 64 ((f.stamp.toNat : Int) - s.m.rd (R.NET_PORT_LAT_RX p) -
        f.origin.toNat - linkDelay s.m p)) →
      Goes (.gptpSync p f) s (fun m => m.rd R.NET_AS_OFFSET = ofSigned 32 (satSigned 32 o) ∧ m.net.gptp.first = false ∧
        (s.m.net.gptp.first = true → 1000 < o.natAbs →
          m.tb.hlt2 = ofSigned 65 ((s.m.tb.hlt2 : Int) - 2 * o) ∧ m.on R.NET_AS_LOCKED = false) ∧
        (s.m.net.gptp.first = false ∨ o.natAbs ≤ 1000 → m.tb.hlt2 = s.m.tb.hlt2 ∧ m.net.gptp.slew = -o ∧
          (200 < o.natAbs → m.on R.NET_AS_LOCKED = false) ∧
          (o.natAbs ≤ 50 → m.net.gptp.good = s.m.net.gptp.good + 1 ∧
            (7 ≤ s.m.net.gptp.good → m.on R.NET_AS_LOCKED = true))))) ∧
    (∀ f : AnnounceMsg, asOn s.m p = true → f.domain.toNat = s.m.rd R.NET_AS_DOMAIN → s.m.net.gptp.ann = [] →
      Goes (.gptpAnnounce p f) s (fun m => m.net.gptp.ann = [(p.val, f)] ∧
        (s.m.rd R.NET_AS_PRIO1 < 255 → vecBetter (ownVector s.m) (annVector f) = true →
          m.rd R.NET_AS_STATE = 3 ∧ m.rd R.NET_AS_GM_ID = Config.clockIdentity) ∧
        (255 ≤ s.m.rd R.NET_AS_PRIO1 ∨ vecBetter (ownVector s.m) (annVector f) = false →
          m.rd R.NET_AS_STATE = 2 ∧ m.rd R.NET_AS_GM_ID = f.gm.toNat ∧ m.net.gptp.slave = some p.val))) ∧
    (∀ f : AnnounceMsg, asOn s.m p = true → s.m.net.gptp.ann = [(p.val, f)] → Goes (.announceReceiptTimeout p) s (fun m =>
      m.net.gptp.ann = [] ∧ m.rd R.NET_AS_STATE = if s.m.rd R.NET_AS_PRIO1 < 255 then 3 else 1)) ∧
    (∀ (t1 t2 t3 t4 : BitVec 64) (a d : Int), asOn s.m p = true →
      a = ((t4.toNat : Int) - s.m.rd (R.NET_PORT_LAT_RX p)) - (t1.toNat + s.m.rd (R.NET_PORT_LAT_TX p)) - (t3.toNat - t2.toNat) →
      2 * d ≤ a → a < 2 * d + 2 → -(2 ^ 32) ≤ d → Goes (.pdelayMeasurement p t1 t2 t3 t4) s (fun m => linkDelay m p = d)) ∧
    (∀ (seq : BitVec 16) (t2 t3 : BitVec 64), asOn s.m p = true →
      To (.pdelayResponse p seq t2 t3) s (netQueue p ⟨0, 72, [0x88F7, 3, s.m.rd R.NET_AS_DOMAIN, seq.toNat,
        t2.toNat - s.m.rd (R.NET_PORT_LAT_RX p), t3.toNat + s.m.rd (R.NET_PORT_LAT_TX p)], .event⟩
        (rxStamp p t2.toNat (frameIn p s.m)))) ∧
    (s.m.rd R.NET_AS_STATE = 3 → To .grandmasterSync s (s.m.each (List.range 4) (fun k m =>
      if asOn m k then netQueue k ⟨0, 64, [0x88F7, 0, m.rd R.NET_AS_DOMAIN], .sync⟩ m else m))) ∧
    (∀ (m : Mach) (f : TxFrame), mapGet 0 p m.net.busy ≤ m.hlt → gclOn m p = false → mapGet [] p m.net.txq = [] →
      (netQueue p f m).out = ⟨.eth p, f.data⟩ :: m.out ∧
      (f.kind = .sync → mapGet [] p (netQueue p f m).net.txq =
        [asFrame m 8 [m.hlt + m.rd (R.NET_PORT_LAT_TX p)] .plain])) ∧
    (∀ (mac : BitVec 48) (ip target : Word), portOn s.m p = true →
      (s.m.rd R.NET_ENCAP = 1 → s.m.rd R.NET_IPV4 ≠ 0 → target.toNat = s.m.rd R.NET_IPV4 →
        To (.arpRequest p mac ip target) s
          (netQueue p ⟨0, 64, [0x0806, mac.toNat, ip.toNat, target.toNat], .plain⟩ (frameIn p s.m))) ∧
      (s.m.rd R.NET_ENCAP ≠ 1 ∨ target.toNat ≠ s.m.rd R.NET_IPV4 →
        To (.arpRequest p mac ip target) s (frameIn p s.m))) ∧
    (∀ mac : BitVec 48, Goes (.cbStreamReset mac) s (fun m =>
      m.net.cb = s.m.net.cb.filter (fun x => x.mac != mac.toNat))) ∧
    (∀ g : Fin 2, gclOn s.m g = true → Goes (.gateEntryChange g) s (fun m => gateNow m g =
      if gclLen s.m g ≤ gateNow s.m g + 1 ∨ gclEnd s.m g (gateNow s.m g) = s.m.rd R.NET_CYCLE then 0 else gateNow s.m g + 1))

/-- The line cycle, the mirror pair and the cyclic PDUs (R448 to R467). -/
def Obligations.CycleCommands : Prop :=
  ∀ (s : State) (w : Writer), Settled s →
    (netRunOk s.m = true → s.m.on R.NET_RUN = false → Leads (.netRunOn w) s w R.NET_RUN false (fun m =>
      m.on R.NET_RUN = true ∧ m.net.roles = s.m.net.roles ∧ m.net.cycles = [] ∧
      (s.m.on R.RED_EN = true → m.rd R.RED_STATE = 1) ∧ (s.m.on R.RED_EN = false → m.rd R.RED_STATE = s.m.rd R.RED_STATE) ∧
      ∀ p < 16, m.rd (R.NET_PTN_STATE p) = (if s.m.rd (R.NET_PTN_NODE p) = 0 then 0 else 1) ∧ m.rd (R.NET_PTN_MISSED p) = 0)) ∧
    (netRunOk s.m = false → Turns (.netRunOn w) s w R.NET_RUN false .range) ∧
    (Leads (.netRunOff w) s w R.NET_RUN false (fun m => m.on R.NET_RUN = false ∧ m.rd R.RED_STATE = 0 ∧ m.rd R.RED_EPOCH = 0 ∧
      ∀ p < 16, m.rd (R.NET_PTN_STATE p) = 0)) ∧
    (Leads (.redEnWrite w false) s w R.RED_EN false (fun m => m.on R.RED_EN = false ∧ m.rd R.RED_STATE = 0 ∧
      m.rd R.RED_EPOCH = 0)) ∧
    (s.m.rd R.RED_STATE = 0 → s.m.on R.NET_RUN = true → Leads (.redEnWrite w true) s w R.RED_EN false (fun m =>
      m.on R.RED_EN = true ∧ m.rd R.RED_STATE = 1 ∧ bit 0 (m.rd R.RED_EVT) = true)) ∧
    (s.m.rd R.RED_STATE = 4 → Leads (.rejoin w) s w R.RED_CMD false (fun m =>
      m.rd R.RED_STATE = 2 ∧ m.rd R.RED_EPOCH = ownRoleEpoch s.m)) ∧
    (s.m.rd R.RED_STATE ≠ 4 → Writes (.rejoin w) s w R.RED_CMD false s.m) ∧
    (s.m.rd R.RED_STATE = 3 → Leads (.yield w) s w R.RED_CMD false (fun m =>
      m.rd R.RED_STATE = 2 ∧ m.rd R.RED_EPOCH = s.m.rd R.RED_EPOCH)) ∧
    (s.m.rd R.RED_STATE ≠ 3 → Writes (.yield w) s w R.RED_CMD false s.m) ∧
    (∀ (n : BitVec 64) (cnt : Nat), s.m.on R.NET_RUN = true → s.m.pwr.hSleep = false →
      cnt = (if s.m.net.redHeard then 0 else s.m.net.redCnt + 1) →
      Goes (.cycleStart n) s (fun m => m.net.heard = [] ∧ bit 0 (m.rd R.NET_EVT) = true ∧
        (∀ p < 16, s.m.rd (R.NET_PTN_NODE p) ≠ 0 →
          (s.m.net.heard.contains (s.m.rd (R.NET_PTN_NODE p)) = true → m.rd (R.NET_PTN_MISSED p) = 0) ∧
          (s.m.net.heard.contains (s.m.rd (R.NET_PTN_NODE p)) = false →
            m.rd (R.NET_PTN_MISSED p) = min 255 (s.m.rd (R.NET_PTN_MISSED p) + 1) ∧
            (s.m.rd R.NET_LOSS_CYCLES ≤ min 255 (s.m.rd (R.NET_PTN_MISSED p) + 1) → m.rd (R.NET_PTN_STATE p) = 3))) ∧
        (s.m.rd R.RED_STATE = 1 → s.m.rd R.RED_LISTEN_CYCLES ≤ cnt →
          m.rd R.RED_STATE = 3 ∧ m.rd R.RED_EPOCH = (ownRoleEpoch s.m + 1) % 2 ^ 32) ∧
        (s.m.rd R.RED_STATE = 2 → s.m.rd R.RED_TAKEOVER_CYCLES ≤ cnt →
          m.rd R.RED_STATE = 3 ∧ m.rd R.RED_EPOCH = (s.m.rd R.RED_EPOCH + 1) % 2 ^ 32 ∧
          m.rd R.RED_CNT_TAKEOVER = min 0xFFFFFFFF (s.m.rd R.RED_CNT_TAKEOVER + 1)))) ∧
    (∀ x : Found, findObj 0x1410 0x14 = some x → (readObj x s.m).1 = if s.m.hlt < s.m.rd R.NET_CYCLE_BASE then 0
      else (s.m.hlt - s.m.rd R.NET_CYCLE_BASE) / max 1 (s.m.rd R.NET_CYCLE) % 2 ^ 32) ∧
    (∀ (n : BitVec 64) (r : List Rec × Mach) (m0 : Mach), s.m.on R.NET_RUN = true → s.m.pwr.hSleep = false →
      s.m.linked .field = false →
      m0 = { s.m with net := { s.m.net with
        sets := s.m.net.sets.filter (fun e => e.1 == n.toNat % 2 ^ 32 || (e.1 + 1) % 2 ^ 32 == n.toNat % 2 ^ 32) } } →
      r = sampleRecs (cycleTime m0 n.toNat) ((txMap m0).filter (fun e => !e.field)) m0 →
      Goes (.cycleSample n) s (fun m => cycSet m (n.toNat % 2 ^ 32) =
        { cycSet r.2 (n.toNat % 2 ^ 32) with own := r.1 })) ∧
    (∀ (n : BitVec 64) (recs : List Rec) (m0 : Mach), s.m.on R.NET_RUN = true → s.m.pwr.hSleep = false → s.m.rd R.RED_STATE ≠ 4 →
      (setWhole s.m n.toNat = true → m0 = { s.m with net := { s.m.net with lastSet := setRecs s.m n.toNat } } →
        recs = (if s.m.rd R.RED_STATE = 1 ∨ s.m.rd R.RED_STATE = 2 then [] else setRecs s.m n.toNat) →
        To (.cycleTx n) s (cycSend (cycPdu m0 n.toNat false recs) m0)) ∧
      (setWhole s.m n.toNat = false → m0 = netRaise 3 (s.m.inc R.NET_CNT_LATE) →
        recs = (if s.m.rd R.RED_STATE = 1 ∨ s.m.rd R.RED_STATE = 2 then [] else s.m.net.lastSet) →
        To (.cycleTx n) s (cycSend (cycPdu m0 n.toNat true recs) m0))) ∧
    (∀ (p : Fin 4) (f : VlpFrame), portOn s.m p = true → vlpMine s.m f = true → frameLen f ≤ 1522 → f.rtag = none →
      pduOk f.pdu = true → fieldAt 1 1 f.pdu = 1 →
      To (.vlpCyclic p f) s (pduHold p f.pdu (rxStamp p f.stamp.toNat (frameIn p s.m)))) ∧
    (∀ (m : Mach) (p : Nat) (l : List Byte), m.net.inbox = [(p, l)] →
      framesTake m = cyclicPdu l { m with net := { m.net with inbox := [] } }) ∧
    (∀ (m : Mach) (l : List Byte) (recs : List Rec) (role node cycle epoch : Nat), parseRecs l.length (l.drop 16) = some recs →
      recs.all recOk = true → m.on R.NET_RUN = true → role = fieldAt 4 1 l → node = fieldAt 2 2 l →
      cycle = fieldAt 12 4 l → epoch = fieldAt 8 4 l →
      (bit 0 (fieldAt 5 1 l) = false → (cyclicPdu l m).net.heard = node :: m.net.heard ∧
        (cyclicPdu l m).net.cycles = m.net.cycles ∧ ∀ k < 16, m.rd (R.NET_PTN_NODE k) = node → node ≠ 0 →
          (cyclicPdu l m).rd (R.NET_PTN_STATE k) = 2 ∧ (cyclicPdu l m).rd (R.NET_PTN_LAST_CYCLE k) = cycle) ∧
      (∀ e : Nat, bit 0 (fieldAt 5 1 l) = true → role ≠ m.rd R.RED_ROLE → roleEntry m role = none →
        roleFree m = some e → mapGet 0 role m.net.cycles = 0 →
        cyclicPdu l m = recsApply role cycle recs ({ partnerHeard node cycle (setRole e ⟨role, node, epoch, 0⟩ m) with
          net := { (partnerHeard node cycle (setRole e ⟨role, node, epoch, 0⟩ m)).net with
            cycles := mapPut role (cycle + 1) m.net.cycles } })) ∧
      (∀ (e : Nat) (x : RoleEnt), bit 0 (fieldAt 5 1 l) = true → role ≠ m.rd R.RED_ROLE → roleEntry m role = some (e, x) →
        serialNewer epoch x.epoch = false → epoch ≠ x.epoch ∨ node ≠ x.node →
        cyclicPdu l m = netRaise 5 (m.inc R.NET_CNT_STALE_EPOCH))) ∧
    (∀ (p : Fin 4) (f : VlpFrame), portOn s.m p = true → 1522 < frameLen f → f.pdu.length < 16 ∨ fieldAt 1 1 f.pdu = 1 →
      To (.vlpCyclic p f) s ((s.m.inc (R.NET_PORT_CNT_ERR p)).assertSrc (386 + 4 * p))) ∧
    (∀ (p : Fin 4) (f : VlpFrame), portOn s.m p = true → vlpMine s.m f = true → frameLen f ≤ 1522 →
      f.rtag = none → f.udp = none →
      pduOk f.pdu = true → fieldAt 1 1 f.pdu = 2 → To (.vlpDicReq p f) s (settle (dicRequest
        ⟨(reqOf .vlp 0 (f.pdu.drop 16)).1, (reqOf .vlp 0 (f.pdu.drop 16)).2, some ⟨p, f.src.toNat, 0, 0⟩⟩ (frameIn p s.m))))

/-- The CAN FD controllers as CiA 301 nodes (R470 to R475). What CiA 301 lays down beyond the spec's words is the model's (log 32). -/
def Obligations.CanCommands : Prop :=
  ∀ (s : State) (w : Writer) (k : Fin 2), Settled s →
    (s.m.on (R.CAN_EN k) = false → s.m.hostOff = false → Leads (.canEnWrite w k true) s w (R.CAN_EN k) false (fun m =>
      m.on (R.CAN_EN k) = true ∧ m.rd (R.CAN_BUS_STATE k) = 0 ∧ m.rd (R.CAN_NMT_STATE k) = 127 ∧
      ⟨.can k, [0, canRate s.m k, 0x700 + s.m.rd (R.CAN_NODE_ID k), 0]⟩ ∈ m.out)) ∧
    (Leads (.canEnWrite w k false) s w (R.CAN_EN k) false (fun m =>
      m.on (R.CAN_EN k) = false ∧ m.rd (R.CAN_BUS_STATE k) = 3 ∧ m.rd (R.CAN_NMT_STATE k) = 0 ∧ m.can k = {})) ∧
    (∀ cmd node : Byte, canOn s.m k = true → s.m.dic.waiting = [] → (s.m.can k).sdo = none →
      (node.toNat ≠ 0 → node.toNat ≠ s.m.rd (R.CAN_NODE_ID k) → To (.nmtCommand k cmd node) s (canRx k s.m)) ∧
      (node.toNat = 0 ∨ node.toNat = s.m.rd (R.CAN_NODE_ID k) →
        (∀ st : Nat, (cmd.toNat, st) ∈ [(1, 5), (2, 4), (128, 127), (129, 127), (130, 127)] →
          Goes (.nmtCommand k cmd node) s (fun m => m.rd (R.CAN_NMT_STATE k) = st)) ∧
        (cmd.toNat ∉ [1, 2, 128, 129, 130] → To (.nmtCommand k cmd node) s (canRx k s.m)))) ∧
    (∀ (d : List Byte) (idx sub : Nat), d.length = 8 → sdoOpen s.m k = true → idx = fieldAt 1 2 d → sub = fieldAt 3 1 d →
      s.m.dic.waiting = [] → (s.m.can k).sdo = none →
      (∀ (c : CommObj) (x : Sdo) (l : List Byte) (m : Mach), bits 7 5 (fieldAt 0 1 d) = 2 → jxIndex idx = none →
        commAt s.m k idx sub = some c → x = { idx := idx, sub := sub, up := true } → c.bar k false (canRx k s.m) = none →
        m = sdoBegin k x (canRx k s.m) → l = c.read (canRx k s.m) k → 1 ≤ l.length → l.length ≤ 4 → To (.sdoRequest k d) s (sdoSend k
          ([BitVec.ofNat 8 (0x43 + 4 * (4 - l.length))] ++ sdoMux idx sub ++ l) (setSdo k none m))) ∧
      (∀ (i : Nat) (x : Sdo), bits 7 5 (fieldAt 0 1 d) = 2 → jxIndex idx = some i → isDomain i sub = false →
        x = { idx := idx, sub := sub, up := true, wait := .upload } → To (.sdoRequest k d) s (settle (dicRun
          (sdoAsk k 1 i sub 0 0 [] (sdoBegin k x (canRx k s.m)))))) ∧
      (4 < bits 7 5 (fieldAt 0 1 d) → To (.sdoRequest k d) s (sdoAbort k idx sub 0x05040001 (canRx k s.m)))) ∧
    (s.m.dic.waiting = [] →
      (∀ x : Sdo, (s.m.can k).sdo = some x → x.dom = false →
        To (.sdoTimeout k) s (sdoAbort k x.idx x.sub 0x05040000 (setSdo k none s.m))) ∧
      ((s.m.can k).sdo = none → To (.sdoTimeout k) s s.m)) ∧
    (∀ m1 : Mach, canOn s.m k = true → m1 = (canRx k s.m).assertSrc (403 + 4 * k) →
      (s.m.rd (R.CAN_NMT_STATE k) ≠ 5 → To (.sync k) s m1) ∧
      (∀ (j : Fin 8) (d : List Byte) (m2 : Mach) (l : List (Nat × Nat × Nat)), s.m.rd (R.CAN_NMT_STATE k) = 5 → (s.m.can k).held = [] →
        l = (pdoMapped s.m k false j).filterMap pdoEntry →
        m2 = (m1.updCan k (fun c => { c with held := [] })).updCan k (fun c => { c with syncs := mapSet 0 j.val 0 c.syncs }) →
        (∀ i : Fin 8, i ≠ j → pdoValid s.m false k i = true → 240 < pdoType s.m false k i) → pdoValid s.m false k j = true →
        1 ≤ pdoType s.m false k j → pdoType s.m false k j ≤ 240 → pdoType s.m false k j ≤ mapGet 0 j.val (s.m.can k).syncs + 1 →
        (∀ e ∈ (s.m.can k).sent, e.1 ≠ j.val) → (∀ e ∈ l, ownerOf e.1 = .host ∧ (tpdoHere m2 e).isSome = true) →
        d = l.flatMap (fun e => (tpdoHere m2 e).getD []) → d ≠ [] →
        d.length ≤ pdoMax s.m k → Goes (.sync k) s (fun m => mapGet 0 j.val (m.can k).syncs = 0 ∧
          (m.can k).sent = mapPut j.val d (s.m.can k).sent ∧
          m.rd (R.CAN_CNT_PDO_TX k) = min 0xFFFFFFFF (m2.rd (R.CAN_CNT_PDO_TX k) + 1)))) ∧
    (∀ (cob : BitVec 11) (d : List Byte), canOn s.m k = true →
      (s.m.rd (R.CAN_NMT_STATE k) ≠ 5 ∨ canLenOk s.m k d.length = false → To (.rpdo k cob d) s s.m) ∧
      (∀ j : Fin 8, s.m.rd (R.CAN_NMT_STATE k) = 5 → canLenOk s.m k d.length = true → pdoValid s.m true k j = true → pdoIdent s.m true k j = cob.toNat →
        (∀ i : Fin 8, i ≠ j → pdoValid s.m true k i = false ∨ pdoIdent s.m true k i ≠ cob.toNat) →
        pdoBytes (pdoMapped s.m k true j) ≤ d.length →
        (pdoType s.m true k j ≤ 240 →
          To (.rpdo k cob d) s ((canRx k s.m).updCan k (fun c => { c with held := mapPut j.val d c.held }))) ∧
        (∀ (v i sub n : Nat) (t : Mach), 240 < pdoType s.m true k j → pdoMapped s.m k true j = [v] →
          pdoEntry v = some (i, sub, n) → t = pdoWrite k i sub (d.take n) ((canRx k s.m).inc (R.CAN_CNT_PDO_RX k)) →
          (∀ i : Fin 8, i ≠ j → pdoValid t true k i = false ∨ pdoIdent t true k i ≠ cob.toNat) →
          To (.rpdo k cob d) s (settle t)))) ∧
    (∀ n : Nat, n ≤ 64 → canLenOk s.m k n = (decide (n ≤ 8) ||
      (s.m.rd (R.CAN_DATA_RATE k) != 0 && [12, 16, 20, 24, 32, 48, 64].contains n && decide (s.m.rd (R.CAN_DATA_RATE k) ≤ 4)))) ∧
    (∀ (j : Fin 8) (d : List Byte) (m1 : Mach) (l : List (Nat × Nat × Nat)), canOn s.m k = true → s.m.rd (R.CAN_NMT_STATE k) = 5 →
      l = (pdoMapped s.m k false j).filterMap pdoEntry →
      pdoValid s.m false k j = true → 254 ≤ pdoType s.m false k j → s.m.rd (R.CAN_TPDO_COMM_EVTMR k j) ≠ 0 →
      m1 = (s.m.updCan k (fun c => { c with timed := mapPut j.val s.m.tb.sclk c.timed })).assertSrc (403 + 4 * k) →
      (∀ e ∈ l, ownerOf e.1 = .host ∧ (tpdoHere m1 e).isSome = true) →
      d = l.flatMap (fun e => (tpdoHere m1 e).getD []) → d ≠ [] → d.length ≤ pdoMax s.m k →
      (∀ e ∈ (s.m.can k).sent, e.1 ≠ j.val) ∨
        mapGet 0 j.val (s.m.can k).sentAt + 80000 * s.m.rd (R.CAN_TPDO_COMM_INH k j) ≤ s.m.tb.sclk →
      To (.tpdoEventTimer k j) s (((canTx k (pdoIdent s.m false k j) d m1).inc (R.CAN_CNT_PDO_TX k)).updCan k (fun c =>
        { c with sent := mapPut j.val d c.sent, sentAt := mapPut j.val s.m.tb.sclk c.sentAt }))) ∧
    (∀ (j : Fin 8) (v i sub n no : Nat) (q : Req), ServiceIdle s → canOn s.m k = true → s.m.rd (R.CAN_NMT_STATE k) = 5 →
      pdoValid s.m false k j = true → 254 ≤ pdoType s.m false k j → s.m.rd (R.CAN_TPDO_COMM_EVTMR k j) ≠ 0 →
      pdoMapped s.m k false j = [v] → pdoEntry v = some (i, sub, n) → ownerOf i = .field → (s.m.can k).jobs = [] →
      no = ((s.m.can k).jobNo + 1) % 4096 →
      q = ⟨canRoute k, 2, true, BitVec.ofNat 16 (16 * no), 0, BitVec.ofNat 16 i, BitVec.ofNat 8 sub, 0, 0, []⟩ →
      dicBar 1 q s.m = none → ∃ t, exec (.tpdoEventTimer k j) s = .next t ∧ Forwarded 1 q s t ∧
        (t.m.can k).jobs = [⟨j, no, false, [none]⟩]) ∧
    (canOn s.m k = true → s.m.rd (R.CAN_HB_PROD k) ≠ 0 → To (.heartbeatProduce k) s
      (canTx k (0x700 + s.m.rd (R.CAN_NODE_ID k)) (toLe 1 (s.m.rd (R.CAN_NMT_STATE k)))
        (s.m.updCan k (fun c => { c with hbSent := s.m.tb.sclk + 1 })))) ∧
    (∀ i : Fin 4, canOn s.m k = true → hbEntry s.m k i = true →
      To (.heartbeatConsume k i false) s ((canRx k s.m).updCan k (fun c => { c with alive := mapPut i.val s.m.tb.sclk c.alive })) ∧
      (∀ e ∈ (s.m.can k).alive, e.1 = i.val → To (.heartbeatConsume k i true) s
        ((s.m.updCan k (fun c => { c with alive := mapDel i.val c.alive })).assertSrc (402 + 4 * k))) ∧
      ((∀ e ∈ (s.m.can k).alive, e.1 ≠ i.val) → To (.heartbeatConsume k i true) s s.m)) ∧
    (∀ (tx : Bool) (tec rec_ : Nat), canOn s.m k = true → tec = (s.m.can k).tec + (if tx then 8 else 0) →
      rec_ = (if tx then (s.m.can k).rec_ else min 255 ((s.m.can k).rec_ + 1)) → Goes (.canBusError k tx) s (fun m =>
        (m.can k).tec = tec ∧ (m.can k).rec_ = rec_ ∧
        m.rd (R.CAN_BUS_STATE k) = (if 255 < tec then 2 else if 127 < tec ∨ 127 < rec_ then 1 else 0))) ∧
    (s.m.on (R.CAN_EN k) = true → s.m.rd (R.CAN_BUS_STATE k) = 2 → Goes (.busOffRecovery k) s (fun m =>
      (m.can k).tec = 0 ∧ (m.can k).rec_ = 0 ∧ m.rd (R.CAN_BUS_STATE k) = 0))

/-- Persistence (R69 to R73). That RELOAD and FACTORY need the link, and the layout of the host's block, are the model's choices
(log 30). -/
def Obligations.PersistenceCommands : Prop :=
  ∀ (s : State) (w : Writer) (f : LinkFrame) (p : List Byte) (m : Mach), Settled s →
    (s.m.linked .host = true → bit 0 (s.m.rd R.DIC_PERS_STATUS) = false → Leads (.store w 0x726F7473) s w R.DIC_STORE false (fun m =>
      bit 0 (m.rd R.DIC_PERS_STATUS) = true ∧ m.dic.storeAt = s.m.tb.sclk ∧ m.dic.bankA = s.m.dic.bankA ∧
      m.dic.bankB = s.m.dic.bankB ∧ m.dic.storing = s.m.dic.storing ∧ (∀ r h, w = .dict r h → m.dic.storeFor = .route r) ∧
      ∀ l : List Byte, l = packBlock (toLe 4 (s.m.rd R.DIC_STORE_COUNT)) (kVals s.m .host) (kStrs s.m .host) →
        m.bar.h.queue = s.m.bar.h.queue ++ (blockPieces (l.length / 52 + 1) 0 l).map (fun p => (7, ⟨15, p⟩)))) ∧
    (∀ e : Nat × Nat, e ∈ kVals s.m .field ↔ e ∈ s.m.regs ∧ ownerOf (e.1 / 256) = .field ∧ persisted s.m e.1 = true) ∧
    (∃ i : Image, (storeCapture s.m).dic.storing = some i ∧ i.vals = kVals s.m .field ∧ i.strs = kStrs s.m .field ∧
      i.seq = max (imageSeq s.m.dic.bankA) (imageSeq s.m.dic.bankB) + 1) ∧
    (∀ sig : Word, (sig ≠ 0x726F7473 → Turns (.store w sig) s w R.DIC_STORE false .range) ∧
      (sig ≠ 0x646F6C72 → Turns (.reload w sig) s w R.DIC_RELOAD false .range) ∧
      (sig ≠ 0x74636166 → Turns (.factory w sig) s w R.DIC_FACTORY false .range)) ∧
    (bit 0 (s.m.rd R.DIC_PERS_STATUS) = true → Turns (.store w 0x726F7473) s w R.DIC_STORE false .busy ∧
      Turns (.reload w 0x646F6C72) s w R.DIC_RELOAD false .busy ∧ Turns (.factory w 0x74636166) s w R.DIC_FACTORY false .busy) ∧
    (bit 0 (s.m.rd R.DIC_PERS_STATUS) = false → s.m.linked .host = false →
      Turns (.store w 0x726F7473) s w R.DIC_STORE false .store) ∧
    (bit 0 (s.m.rd R.DIC_PERS_STATUS) = false → persReach s.m = false → Turns (.reload w 0x646F6C72) s w R.DIC_RELOAD false .notReady ∧
      Turns (.factory w 0x74636166) s w R.DIC_FACTORY false .notReady) ∧
    (s.m.dic.storing = none → To .storeComplete s s.m) ∧
    (∀ i : Image, s.m.dic.storing = some i → blockWhole s.m.bar.persIn = true → s.m.linked .field = true →
      Goes .storeComplete s (fun m => m.dic.storing = none ∧ m.bar.persIn = [] ∧
        m.dic.newestB = (!s.m.dic.newestB && s.m.dic.bankA.isSome) ∧
        (m.dic.newestB = true → m.dic.bankA = s.m.dic.bankA ∧ ∃ x, m.dic.bankB = some x ∧ x.seq = i.seq ∧ x.key = i.key) ∧
        (m.dic.newestB = false → m.dic.bankB = s.m.dic.bankB ∧ ∃ x, m.dic.bankA = some x ∧ x.seq = i.seq ∧ x.key = i.key) ∧
        (∀ x, m.image = some x → x.count =
          max ((s.m.image.map (fun y => y.count)).getD 0) (fieldAt 4 4 s.m.bar.persIn) + 1) ∧
        m.bar.f.queue = s.m.bar.f.queue ++ [(7, ⟨14, toLe 4 noticeOff ++ noticeDone m⟩)])) ∧
    (∀ i : Image, s.m.dic.storing = some i → blockWhole s.m.bar.persIn = false → Goes .storeComplete s (fun m =>
      m.dic.storing = none ∧ m.dic.bankA = s.m.dic.bankA ∧ m.dic.bankB = s.m.dic.bankB)) ∧
    (storeRuns s.m = true → (∀ a : Ask, s.m.dic.storeFor ≠ .ask a) → bits 1 0 ((storeFail s.m).rd R.DIC_PERS_STATUS) = 2) ∧
    (∀ a b : Nat, Arrives .host 14 p f s m → fieldAt 0 4 p = noticeOff → fieldAt 4 1 p = a → (∀ q : Ask, m.dic.storeFor ≠ .ask q) →
      b = fieldAt 5 1 p →
      (a = 1 → m.bar.reload = true → Goes (.persRestore f) s (fun t => t.bar.reload = false ∧ bit 0 (t.rd R.DIC_PERS_STATUS) = false)) ∧
      (a = 0 → m.bar.factory = true → Goes (.persRestore f) s (fun t => t.bar.factory = false ∧
        bit 0 (t.rd R.DIC_PERS_STATUS) = false ∧ bit 2 (t.rd R.DIC_PERS_STATUS) = true)) ∧
      (a = 0 → m.bar.factory = false → storeRuns m = true → Goes (.persRestore f) s (fun t =>
        bits 2 0 (t.rd R.DIC_PERS_STATUS) = 0 ∧ bit 3 (t.rd R.DIC_PERS_STATUS) = bit 0 b ∧
        t.rd R.DIC_STORE_COUNT = fieldAt 6 4 p ∧ t.rd R.DIC_STORED_BYTES = fieldAt 10 4 p))) ∧
    (persReach s.m = true → bit 0 (s.m.rd R.DIC_PERS_STATUS) = false →
      (kUnitRuns s.m .host = true → Turns (.reload w 0x646F6C72) s w R.DIC_RELOAD false .running) ∧
      (kUnitRuns s.m .host = false → Leads (.reload w 0x646F6C72) s w R.DIC_RELOAD false (fun m => m.bar.reload = true ∧
        bit 0 (m.rd R.DIC_PERS_STATUS) = true ∧
        m.bar.h.queue = s.m.bar.h.queue ++ [(7, ⟨15, toLe 4 noticeOff ++ [1]⟩)])) ∧
      (Leads (.factory w 0x74636166) s w R.DIC_FACTORY false (fun m => m.bar.factory = true ∧
        bit 0 (m.rd R.DIC_PERS_STATUS) = true ∧
        m.bar.h.queue = s.m.bar.h.queue ++ [(7, ⟨15, toLe 4 noticeOff ++ [if authority s.m w .host then 3 else 2]⟩)]))) ∧
    (Arrives .field 15 p f s m → m.keepHalted = false → fieldAt 0 4 p = noticeOff →
      (fieldAt 4 1 p = 1 → kUnitRuns m .field = true → To (.persStore f) s (notice .field [1] m)) ∧
      (fieldAt 4 1 p = 1 → kUnitRuns m .field = false → m.image = none → ∀ o : Obj, persisted m o.key = true →
        ownerOf (o.key / 256) = .field → Goes (.persStore f) s (fun t => t.rd o = o.dflt)) ∧
      (∀ (i : Image) (k v : Nat), fieldAt 4 1 p = 1 → kUnitRuns m .field = false → m.image = some i → (k, v) ∈ i.vals →
        persisted m k = true → ownerOf (k / 256) = .field → (∀ e ∈ i.vals, e.1 = k → e.2 = v) →
        Goes (.persStore f) s (fun t => mapGet (objDflt m k) k t.regs = v)) ∧
      (fieldAt 4 1 p = 3 → Goes (.persStore f) s (fun t => t.dic.bankA = none ∧ t.dic.bankB = none)) ∧
      (fieldAt 4 1 p = 2 → m.image = none → Goes (.persStore f) s (fun t => t.dic.bankA = none ∧ t.dic.bankB = none)) ∧
      (∀ i : Image, fieldAt 4 1 p = 2 → m.image = some i → Goes (.persStore f) s (fun t => t.dic.bankB = none ∧
        ∃ x : Image, t.dic.bankA = some x ∧ x.key = i.key ∧
          x.vals = i.vals.filter (fun e => decide (0x190000 ≤ e.1) && decide (e.1 ≤ 0x19FFFF)))))

/-- The instructions of the cores (R360 to R363, R376 to R380, R384 to R386). The ratified meaning of RV32IMAFC words is the model's
(log 40). -/
def Obligations.CoreInstructions : Prop :=
  ∀ (s : State) (core : Fin 3) (w : Word) (c : Core) (v : Nat) (next : Word), Settled s → Fetches core w.toNat s →
    c = s.m.core core → insnWord w.toNat = some v → next = c.pc + BitVec.ofNat 32 (insnLen w.toNat) →
    (isFence v = true → Goes (.fence core w) s (CoreOnly core (retired c next) s.m)) ∧
    (isFenceI v = true → Goes (.fenceI core w) s (CoreOnly core (retired c next) s.m)) ∧
    (w = 0x7F100073 → 1 ≤ c.lvl → Goes (.wfi core) s
      (CoreOnly core { retired c next with gated := !belWakes s.m core && !c.step } s.m)) ∧
    (∀ (n f : Nat) (src old : Word) (row : Nat × Nat), isCsr v = true → n = bits 31 20 v → f = funct3 v → f ≠ 4 →
      src = (if 4 ≤ f then BitVec.ofNat 32 (rs1Of v) else c.rdX (rs1Of v)) → csrRow n = some row → csrLevel c n ≤ c.lvl →
      (∀ p, xssCsr n = some p → p.2 = 0) → old = csrRead s.m core n →
      (f % 4 ≠ 1 → rs1Of v = 0 → Goes (.csrAccess core w) s (CoreOnly core (retired (c.wrX (rdOf v) old) next) s.m)) ∧
      (f % 4 = 1 ∨ rs1Of v ≠ 0 → row.1 ≠ 2 → Goes (.csrAccess core w) s
        (CoreOnly core (retired ((c.csrWrite n (csrNew f old src)).wrX (rdOf v) old) next) s.m))) ∧
    (∀ (l : Nat) (a : Word) (rest : List Word), isCsr v = true → csrLevel c (bits 31 20 v) ≤ c.lvl →
      (xssCsr (bits 31 20 v) = some (l, 1) → funct3 v % 4 = 2 → rs1Of v = 0 →
        (c.ss l = a :: rest → Goes (.xssTopRead core w) s
          (CoreOnly core (retired ((c.setSs l rest).wrX (rdOf v) a) next) s.m)) ∧
        (c.ss l = [] → Goes (.xssTopRead core w) s (CoreOnly core (retired (c.wrX (rdOf v) 0) next) s.m))) ∧
      (xssCsr (bits 31 20 v) = some (l, 2) → funct3 v % 4 = 2 → rs1Of v = 0 →
        (c.ss l = rest ++ [a] → Goes (.xssBotRead core w) s
          (CoreOnly core (retired ((c.setSs l rest).wrX (rdOf v) a) next) s.m)) ∧
        (c.ss l = [] → Goes (.xssBotRead core w) s (CoreOnly core (retired (c.wrX (rdOf v) 0) next) s.m))) ∧
      (funct3 v % 4 = 1 → rdOf v = 0 → a = (if 4 ≤ funct3 v then BitVec.ofNat 32 (rs1Of v) else c.rdX (rs1Of v)) →
        (c.ss l).length < ssDepth →
        (xssCsr (bits 31 20 v) = some (l, 1) → Goes (.xssTopWrite core w) s
          (CoreOnly core (retired (c.setSs l (a :: c.ss l)) next) s.m)) ∧
        (xssCsr (bits 31 20 v) = some (l, 2) → Goes (.xssBotWrite core w) s
          (CoreOnly core (retired (c.setSs l (c.ss l ++ [a])) next) s.m)))) ∧
    (∀ t : Word, isShadowCall v = true → (opcodeOf v = 0x6F ∧ t = c.pc + immJ v ∨
        opcodeOf v = 0x67 ∧ funct3 v = 0 ∧ isReturn (rdOf v) (rs1Of v) = false ∧ t = (c.rdX (rs1Of v) + immI v) &&& 0xFFFFFFFE) →
      (c.ssOn = true → (c.ss c.lvl).length < ssDepth → Goes (.shadowCall core w) s
        (CoreOnly core (retired ((c.setSs c.lvl (next :: c.ss c.lvl)).wrX (rdOf v) next) t) s.m)) ∧
      (c.ssOn = true → ssDepth ≤ (c.ss c.lvl).length → Goes (.shadowCall core w) s (Faulted core 3 2 next.toNat s.m)) ∧
      (c.ssOn = false → Goes (.shadowCall core w) s (CoreOnly core (retired (c.wrX (rdOf v) next) t) s.m))) ∧
    (∀ (t a : Word) (rest : List Word), isShadowReturn v = true → funct3 v = 0 → t = (c.rdX (rs1Of v) + immI v) &&& 0xFFFFFFFE →
      (c.ssOn = true → c.ss c.lvl = t :: rest → rdOf v = 0 → Goes (.shadowReturn core w) s
        (CoreOnly core (retired (c.setSs c.lvl rest) t) s.m)) ∧
      (c.ssOn = true → c.ss c.lvl = t :: rest → rdOf v ≠ 0 → (t :: rest).length ≤ ssDepth → Goes (.shadowReturn core w) s
        (CoreOnly core (retired ((c.setSs c.lvl (next :: rest)).wrX (rdOf v) next) t) s.m)) ∧
      (c.ssOn = true → c.ss c.lvl = a :: rest → a ≠ t → Goes (.shadowReturn core w) s (Faulted core 3 1 a.toNat s.m)) ∧
      (c.ssOn = true → c.ss c.lvl = [] → Goes (.shadowReturn core w) s (Faulted core 3 3 t.toNat s.m)) ∧
      (c.ssOn = false → Goes (.shadowReturn core w) s (CoreOnly core (retired (c.wrX (rdOf v) next) t) s.m))) ∧
    (∀ (a : Nat) (old n : Word), opcodeOf v = 0x2F → funct3 v = 2 → a = (c.rdX (rs1Of v)).toNat → a % 4 = 0 →
      areaOf core a = .sram → old = BitVec.ofNat 32 (areaNat core a 4 s.m).1 →
      (funct7 v / 4 = 2 → rs2Of v = 0 → denied s.m core 0 a 4 = false → Goes (.atomic core w) s
        (CoreOnly core (retired ({ c with resv := some (a / 32) }.wrX (rdOf v) old) next) s.m)) ∧
      (funct7 v / 4 = 3 → denied s.m core 1 a 4 = false → c.resv = some (a / 32) → Goes (.atomic core w) s (fun m =>
        m.core core = retired ({ c with resv := none }.wrX (rdOf v) 0) next ∧
        m.keepMem = (if core.val = 2 then memWrN s.m.keepMem a (toLe 4 (c.rdX (rs2Of v)).toNat) else s.m.keepMem) ∧
        m.hostMem = (if core.val = 2 then s.m.hostMem else memWrN s.m.hostMem a (toLe 4 (c.rdX (rs2Of v)).toNat)))) ∧
      (funct7 v / 4 = 3 → denied s.m core 1 a 4 = false → c.resv ≠ some (a / 32) → Goes (.atomic core w) s
        (CoreOnly core (retired ({ c with resv := none }.wrX (rdOf v) 1) next) s.m)) ∧
      (amoWord (funct7 v / 4) old (c.rdX (rs2Of v)) = some n → denied s.m core 0 a 4 = false → denied s.m core 1 a 4 = false →
        Goes (.atomic core w) s (fun m => m.core core = retired (c.wrX (rdOf v) old) next ∧
          m.keepMem = (if core.val = 2 then memWrN s.m.keepMem a (toLe 4 n.toNat) else s.m.keepMem) ∧
          m.hostMem = (if core.val = 2 then s.m.hostMem else memWrN s.m.hostMem a (toLe 4 n.toNat))))) ∧
    (opcodeOf v = 0x13 → funct3 v ≠ 1 → funct3 v ≠ 5 → Goes (.instruction core w .clean) s (CoreOnly core
      (retired (c.wrX (rdOf v) (alu (funct3 v) false (c.rdX (rs1Of v)) (immI v))) next) s.m)) ∧
    (opcodeOf v = 0x33 → funct7 v = 0 → Goes (.instruction core w .clean) s (CoreOnly core
      (retired (c.wrX (rdOf v) (alu (funct3 v) false (c.rdX (rs1Of v)) (c.rdX (rs2Of v)))) next) s.m)) ∧
    (opcodeOf v = 0x33 → funct7 v = 1 → Goes (.instruction core w .clean) s (CoreOnly core
      (retired (c.wrX (rdOf v) (mulDiv (funct3 v) (c.rdX (rs1Of v)) (c.rdX (rs2Of v)))) next) s.m)) ∧
    (opcodeOf v = 0x37 → Goes (.instruction core w .clean) s (CoreOnly core (retired (c.wrX (rdOf v) (immU v)) next) s.m)) ∧
    (opcodeOf v = 0x17 → Goes (.instruction core w .clean) s
      (CoreOnly core (retired (c.wrX (rdOf v) (c.pc + immU v)) next) s.m)) ∧
    (opcodeOf v = 0x63 → funct3 v ≠ 2 → funct3 v ≠ 3 → Goes (.instruction core w .clean) s (CoreOnly core (retired c
      (if branchTaken (funct3 v) (c.rdX (rs1Of v)) (c.rdX (rs2Of v)) then c.pc + immB v else next)) s.m)) ∧
    (∀ a : Nat, opcodeOf v = 0x03 → funct3 v = 2 → a = (c.rdX (rs1Of v) + immI v).toNat → a % 4 = 0 → areaOf core a = .sram →
      denied s.m core 0 a 4 = false → Goes (.instruction core w .clean) s (CoreOnly core
        (retired (c.wrX (rdOf v) (BitVec.ofNat 32 (areaNat core a 4 s.m).1)) next) s.m)) ∧
    (∀ a : Nat, opcodeOf v = 0x23 → funct3 v = 2 → a = (c.rdX (rs1Of v) + immS v).toNat → a % 4 = 0 → areaOf core a = .sram →
      denied s.m core 1 a 4 = false → Goes (.instruction core w .clean) s (fun m => m.core core = retired c next ∧
        m.keepMem = (if core.val = 2 then memWrN s.m.keepMem a (toLe 4 (c.rdX (rs2Of v)).toNat) else s.m.keepMem) ∧
        m.hostMem = (if core.val = 2 then s.m.hostMem else memWrN s.m.hostMem a (toLe 4 (c.rdX (rs2Of v)).toNat)))) ∧
    (∀ (rm : Nat) (r : FRes), opcodeOf v = 0x53 → funct7 v = 0 → roundMode c (funct3 v) = some rm →
      r = fAdd rm (f32 (c.rdF (rs1Of v))) (f32 (c.rdF (rs2Of v))) → Goes (.instruction core w .clean) s (CoreOnly core
        (retired ((c.wrF (rdOf v) r.1).raiseF r.2) next) s.m))

/-- Exceptions, interrupts and returns of the cores (R359, R361, R366 to R374, R377, R384). -/
def Obligations.CoreEntries : Prop :=
  ∀ (s : State) (core : Fin 3) (c : Core), Settled s → c = s.m.core core →
    (Fetches core 0x73 s →
      (c.lvl < 2 → Goes (.ecall core) s (fun m =>
        Entered 2 (c.lvl + 1) (c.lvl + 1) 0 (c.pc + 4) c (m.core core) ∧
        (m.core core).instret = (c.instret + 1) % 2 ^ 64 ∧ { m with cores := s.m.cores } = s.m)) ∧
      (c.lvl = 2 → Goes (.ecall core) s (Faulted core 1 9 0 s.m))) ∧
    (∀ short : Bool, Fetches core (if short then 0x9002 else 0x00100073) s →
      (c.ebreakHalt = true → s.m.saf.dbgLock = false → Goes (.ebreak core short) s (fun m =>
        (m.core core).halted = true ∧ (m.core core).pc = c.pc ∧ (m.core core).instret = c.instret)) ∧
      (c.ebreakHalt = false ∨ s.m.saf.dbgLock = true → Goes (.ebreak core short) s (Faulted core 1 3 0 s.m))) ∧
    (c.lvl = 0 → (Fetches core 0x7F000073 s → Goes (.xret core) s (Faulted core 1 8 0x7F000073 s.m)) ∧
      (Fetches core 0x7F100073 s → Goes (.wfi core) s (Faulted core 1 8 0x7F100073 s.m))) ∧
    (∀ (code : Nat) (rest : List Nat), coreLive s.m core = true → c.halted = false → c.c7 = code :: rest → irqTaken c 7 = true →
      Goes (.interruptEntry core) s (fun m => Entered 7 2 code 0 c.pc c (m.core core) ∧ (m.core core).c7 = rest)) ∧
    (∀ cls : Nat, coreLive s.m core = true → c.halted = false → c.c7 = [] ∨ irqTaken c 7 = false →
      cls = 5 ∨ (cls = 4 ∧ (irqTaken c 5 = false ∨ belRequest s.m core true = false)) →
      irqTaken c cls = true → belRequest s.m core (decide (cls = 5)) = true → Goes (.interruptEntry core) s (fun m =>
        Entered cls (irqLevel c cls) 0 0 c.pc c (m.core core) ∧ (m.core core).c7 = c.c7)) ∧
    (c.gated = true → c.held = false → (if core.val = 2 then s.m.pwr.fSleep else s.m.pwr.hSleep) = false →
      (belWakes s.m core = true ∨ c.c7 ≠ [] → Goes (.coreWake core) s (CoreOnly core { c with gated := false } s.m)) ∧
      (belWakes s.m core = false → c.c7 = [] → To (.coreWake core) s s.m)) ∧
    (Trips 1 s.m → (s.m.core 2).halted = false → s.m.pwr.fSleep = false → Goes .lockstepMismatch s (fun m =>
      m.rd R.KEEP_RESTART_CAUSE = 8 ∧ (m.core 2).lvl = 2 ∧ (m.core 2).xmask = 3 ∧ m.rd R.SAF_STATE = 1 ∧ m.rd R.SAF_CAUSE = 1 ∧
      m.saf.latchA = true ∧ m.saf.latchB = true ∧ m.rd R.KEEP_CNT_LS = min 0xFFFFFFFF (s.m.rd R.KEEP_CNT_LS + 1))) ∧
    (∀ (w : Word) (v : Nat), insnWord w.toNat = some v →
      (coreLive s.m core = true → fetchOk s.m core c.pc.toNat = false →
        Goes (.instruction core w .clean) s (Faulted core 1 1 c.pc.toNat s.m)) ∧
      (Fetches core w.toNat s →
        (opcodeOf v = 0x0B → Goes (.instruction core w .clean) s
          (Faulted core 1 2 (insnRaw w.toNat) s.m)) ∧
        (isCsr v = true → funct3 v ≠ 4 → (csrRow (bits 31 20 v)).isSome = true → c.lvl < csrLevel c (bits 31 20 v) →
          Goes (.csrAccess core w) s (Faulted core 1 8 (insnRaw w.toNat) s.m)) ∧
        (∀ a : Nat, opcodeOf v = 0x03 → funct3 v = 2 → a = (c.rdX (rs1Of v) + immI v).toNat → a % 4 = 0 →
          denied s.m core 0 a 4 = false → 0x48003120 ≤ a → a < 0x48100000 → core.val ≠ 2 →
          exec (.instruction core w .clean) s = .refused (.undescribedPort a)))) ∧
    (coreLive s.m core = false → ∀ w : Word, To (.instruction core w .clean) s s.m)

/-- The debug access ports (R389, R390). That the memory commands are refused where the map refuses the access, and what ports
answer in SLEEP (log 18), is the model's reading. -/
def Obligations.DebugPort : Prop :=
  ∀ (s : State) (core : Fin 3) (c : Core) (v : Word) (reg : BitVec 16), Settled s → c = s.m.core core →
    (s.m.saf.dbgLock = true → ∀ i ∈ [Instr.dapHalt core, .dapResume core, .dapStep core, .ebreakHalt core v, .readReg core reg,
        .writeReg core reg v, .setAddr core v, .readMem core, .writeMem core v, .dapStatus core],
      To i s (s.m.send (.dap core) [0xFF, 0])) ∧
    (dapOpen s.m core = false → ∀ i ∈ [Instr.dapHalt core, .dapResume core, .dapStep core, .ebreakHalt core v, .readReg core reg,
        .writeReg core reg v, .writeMem core v], To i s (s.m.send (.dap core) [0xFF, 0])) ∧
    (dapOpen s.m core = false → core.val ≠ 2 → ∀ i ∈ [Instr.setAddr core v, .readMem core],
      To i s (s.m.send (.dap core) [0xFF, 0])) ∧
    (s.m.saf.dbgLock = false → s.m.pwr.fSleep = true → core.val = 2 →
      exec (.setAddr core v) s = .next { s with m := (s.m.setCore core { c with dapAddr := v }).send (.dap core) [0xA0, 0] } ∧
      (c.dapAddr.toNat = 0x4080000C → To (.readMem core) s
        ((s.m.setCore core { c with dapAddr := c.dapAddr + 4 }).send (.dap core) [0xA1, s.m.rd R.FTB_SLOW])) ∧
      (c.dapAddr.toNat ≠ 0x4080000C → To (.readMem core) s (s.m.send (.dap core) [0xFF, 0]))) ∧
    (dapOpen s.m core = true → c.halted = false → ∀ i ∈ [Instr.dapResume core, .dapStep core, .ebreakHalt core v,
        .readReg core reg, .writeReg core reg v, .setAddr core v, .readMem core, .writeMem core v],
      To i s (s.m.send (.dap core) [0xFF, 0])) ∧
    (dapOpen s.m core = true →
      (∃ t, exec (.dapHalt core) s = .next t ∧ t.pending = s.pending ∧ Replied core [0x81, 0] t.m ∧
        (c.halted = false → t.m.core core = { c with halted := true, gated := false }) ∧
        (c.halted = true → t.m.core core = { c with resume := false }))) ∧
    (s.m.saf.dbgLock = false → exec (.dapStatus core) s =
      .next { s with m := s.m.send (.dap core) [0xB0, if c.halted then 1 else if c.gated then 2 else 0] }) ∧
    (dapOpen s.m core = true → haltShut s.m core = true → To (.writeMem core v) s (s.m.send (.dap core) [0xFF, 0])) ∧
    (∀ (p : BitVec 6) (d : BitVec 2) (n : Nat), p = 0 → d.toNat = core → reg.toNat < 2 ^ 16 →
      (∀ (cmd : Nat) (i : Instr), (cmd, i) ∈ [(0x01, Instr.dapHalt core), (0x02, .dapResume core), (0x03, .dapStep core),
          (0x04, .ebreakHalt core v), (0x10, .readReg core reg), (0x11, .writeReg core reg v), (0x20, .setAddr core v),
          (0x21, .readMem core), (0x22, .writeMem core v), (0x30, .dapStatus core)] →
        n = cmd * 2 ^ 56 + d.toNat * 2 ^ 54 + p.toNat * 2 ^ 48 + reg.toNat * 2 ^ 32 + v.toNat →
        dapDecode (coreSide core) n = some i ∧
        (∀ port : Side, port ≠ coreSide core → dapShift port n s =
          { s with m := s.m.send (.dap (if port = .host then 0 else 2)) [0xFF, 0] })) ∧
      (∀ cmd : Nat, cmd < 256 → cmd ∉ [0x01, 0x02, 0x03, 0x04, 0x10, 0x11, 0x20, 0x21, 0x22, 0x30] →
        n = cmd * 2 ^ 56 + d.toNat * 2 ^ 54 + reg.toNat * 2 ^ 32 + v.toNat → dapDecode (coreSide core) n = none)) ∧
    (∀ (port : Side) (n : Nat),
      (s.m.tap port = .idcode → tapCapture s.m port = some (32, if port = .host then 0x18128A47 else 0x28128A47)) ∧
      (s.m.tap port = .dap → tapShift port n s = dapShift port n s ∧
        (s.m.saf.dbgLock = true → tapCapture s.m port = some (64, 0xFF * 2 ^ 56))) ∧
      (n < 32 → n ∉ [0x00, 0x01, 0x02, 0x10] → (tapLoad port n s).m.tap port = .bypass)) ∧
    (dapOpen s.m core = true → c.halted = true →
      (core.val ≠ 2 ∨ s.m.tb.slowFrom = none →
        ∃ t, exec (.dapResume core) s = .next t ∧ t.pending = s.pending ∧ Replied core [0x82, 0] t.m ∧
          t.m.core core = { c with halted := false, step := false, resume := false }) ∧
      (core.val = 2 → s.m.tb.slowFrom ≠ none →
        exec (.dapResume core) s = .next { s with m := (s.m.setCore core { c with resume := true }).send (.dap core) [0x82, 0] }) ∧
      exec (.dapStep core) s = .next { s with m := (s.m.setCore core { c with step := true }).send (.dap core) [0x83, 0] } ∧
      exec (.ebreakHalt core v) s =
        .next { s with m := (s.m.setCore core { c with ebreakHalt := bit 0 v.toNat }).send (.dap core) [0x84, 0] } ∧
      exec (.setAddr core v) s = .next { s with m := (s.m.setCore core { c with dapAddr := v }).send (.dap core) [0xA0, 0] } ∧
      (reg.toNat = 0x1040 → exec (.readReg core reg) s = .next { s with m := s.m.send (.dap core) [0x90, c.pc.toNat] } ∧
        exec (.writeReg core reg v) s =
          .next { s with m := (s.m.setCore core { c with pc := v &&& 0xFFFFFFFE }).send (.dap core) [0x91, 0] }) ∧
      (∀ r : Nat, r < 32 → reg.toNat = 0x1000 + r →
        exec (.readReg core reg) s =
          .next { s with m := s.m.send (.dap core) [0x90, if r = 0 then 0 else (mapGet 0 r c.x).toNat] } ∧
        exec (.writeReg core reg v) s =
          .next { s with m := (s.m.setCore core { c with x := if r = 0 then c.x else mapSet 0 r v c.x }).send (.dap core) [0x91, 0] }) ∧
      (∀ r : Nat, r < 32 → reg.toNat = 0x1020 + r →
        exec (.readReg core reg) s = .next { s with m := s.m.send (.dap core) [0x90, (mapGet 0 (64 + r) c.x).toNat] }) ∧
      (∀ row : Nat × Nat, reg.toNat < 0x1000 → csrRow reg.toNat = some row → (∀ p, xssCsr reg.toNat = some p → p.2 = 0) →
        exec (.readReg core reg) s = .next { s with m := s.m.send (.dap core) [0x90, (csrRead s.m core reg.toNat).toNat] } ∧
        (row.1 ≠ 2 →
          exec (.writeReg core reg v) s =
            .next { s with m := (s.m.setCore core (c.csrWrite reg.toNat v)).send (.dap core) [0x91, 0] }) ∧
        (row.1 = 2 → exec (.writeReg core reg v) s = .next { s with m := s.m.send (.dap core) [0xFF, 0] })) ∧
      (∀ (l : Nat) (a : Word) (rest : List Word), reg.toNat < 0x1000 → xssCsr reg.toNat = some (l, 1) → c.ss l = a :: rest →
        exec (.readReg core reg) s = .next { s with m := (s.m.setCore core (c.setSs l rest)).send (.dap core) [0x90, a.toNat] }) ∧
      (reg.toNat < 0x1000 ∧ csrRow reg.toNat = none ∨ 0x1080 ≤ reg.toNat →
        exec (.readReg core reg) s = .next { s with m := s.m.send (.dap core) [0xFF, 0] }) ∧
      (∀ a : Nat, a = c.dapAddr.toNat → a % 4 = 0 → areaOf core a = .sram →
        (∃ t, exec (.readMem core) s = .next t ∧ t.pending = s.pending ∧ Replied core [0xA1, (areaNat core a 4 s.m).1] t.m ∧
          t.m.core core = { c with dapAddr := c.dapAddr + 4 } ∧ t.m.keepMem = s.m.keepMem ∧ t.m.hostMem = s.m.hostMem) ∧
        (∃ t, exec (.writeMem core v) s = .next t ∧ t.pending = s.pending ∧ Replied core [0xA2, 0] t.m ∧
          t.m.core core = { c with dapAddr := c.dapAddr + 4 } ∧
          t.m.keepMem = (if core.val = 2 then memWrN s.m.keepMem a (toLe 4 v.toNat) else s.m.keepMem) ∧
          t.m.hostMem = (if core.val = 2 then s.m.hostMem else memWrN s.m.hostMem a (toLe 4 v.toNat)))) ∧
      (∀ a : Nat, a = c.dapAddr.toNat → areaOf core a = .nothing →
        exec (.readMem core) s = .next { s with m := s.m.send (.dap core) [0xFF, 0] } ∧
          exec (.writeMem core v) s = .next { s with m := s.m.send (.dap core) [0xFF, 0] })) ∧
    (∀ w : Writer, v.toNat % 2 = 1 → Leads (.sprRelease w 1 v) s w (R.SPR_RELEASE 1) true (fun m =>
      m.rd (R.SPR_RELEASE 1) = 1 ∧ m.core 1 = { s.m.core 1 with held := false })) ∧
    (∀ w : Writer, v.toNat % 2 = 0 → Leads (.sprRelease w 1 v) s w (R.SPR_RELEASE 1) true (fun m =>
      m.rd (R.SPR_RELEASE 1) = 0 ∧ m.core 1 = s.m.core 1)) ∧
    (∀ w : Writer, Turns (.sprRelease w 0 v) s w (R.SPR_RELEASE 0) true .range) ∧
    (MayCore 2 0 0x40FC0404 s → To .dbgTraceLostRead s ((s.m.clr R.DBG_TRACE_LOST).send (.load 2) [s.m.rd R.DBG_TRACE_LOST % 2 ^ 32]))

/-- A step takes the command at the front of the queue and runs it with the queue's rest (the queue is the model's own). -/
def Obligations.StepRunsFrontCommand : Prop :=
  ∀ (c : Instr) (rest : List Instr) (s : State),
    step { s with pending := c :: rest } = exec c { s with pending := rest } ∧
    (s.pending = c :: rest → step s = exec c { s with pending := rest })

/-- What State.reset is. The values the spec does not give are those of the log (the general registers, log 1). -/
def Obligations.ResetState : Prop :=
  Settled State.reset ∧ Canonical State.reset.m ∧ State.reset.pending = [] ∧ (∀ o : Obj, State.reset.m.rd o = o.dflt) ∧
  State.reset.m.safe = true ∧ (∀ i : Fin 3, (State.reset.m.core i).lvl = 2 ∧ (State.reset.m.core i).xmask = 3 ∧
    (State.reset.m.core i).pc = 0 ∧ (State.reset.m.core i).x = [] ∧ (State.reset.m.core i).held = decide (i = 1)) ∧
  State.reset.m.barState .host = 0 ∧ State.reset.m.barState .field = 0 ∧ State.reset.m.now = 0 ∧ State.reset.m.tb.lt = 0

/-- Every step keeps Settled: a cause never outlives the step that raised it (R488, R491). -/
def Obligations.StepsSettle : Prop :=
  ∀ s t : State, Settled s → step s = .next t → Settled t

/-- The machine goes on from every state, but for the two stops that NOTES.md names. -/
def Obligations.NeverStops : Prop :=
  ∀ s : State,
    (∀ r : Fault, step s = .fault r → ∃ (side : Side) (ns : Nat) (rest : List Instr),
      s.pending = .pin side ns :: rest ∧ 200 ≤ ns ∧ ns < 1000) ∧
    (∀ r : Refusal, step s = .refused r → ∃ (a : Nat) (i : Fin 3) (rest : List Instr), r = .undescribedPort a ∧
      ((∃ (w : Word) (e : CoreEcc), s.pending = .instruction i w e :: rest) ∨ s.pending = .readMem i :: rest ∨
        (∃ v : Word, s.pending = .writeMem i v :: rest))) ∧
    (s.pending = [] → ∃ t, step s = .next t)

/-- No step makes, drops or reorders a waiting command (the queue is the model's own). -/
def Obligations.QueueOrder : Prop :=
  ∀ s t : State, step s = .next t → t.pending = s.pending.tail

/-- Every write command passes the one gate (R24, R53, R56, R59), and a barred one is refused as R55, R63 and R75 say. -/
def Obligations.WriteGate : Prop :=
  ∀ (c : Instr) (s : State) (w : Writer) (o : Obj) (mach : Bool), Settled s → writeTarget c = some (w, o, mach) →
    (writerLive s.m w = false → To c s s.m) ∧
    (∀ a : Abort, writerLive s.m w = true → gate w o mach s.m = some a → To c s (settle (refuse w o a s.m))) ∧
    (∀ ans : Mach → Mach, writerLive s.m w = true → gate w o mach s.m = none →
      ((∃ sig, c = .store w sig ∨ c = .reload w sig ∨ c = .factory w sig) → ans = storeAsked w) →
      ((∀ sig, c ≠ .store w sig ∧ c ≠ .reload w sig ∧ c ≠ .factory w sig) → ans = answered w) →
      (overruled s.m o = true → To c s (settle (ans s.m)) ∨ ∃ a, To c s (settle (refuse w o a s.m))) ∧
      (overruled s.m o = false → outranked s.m w o = true →
        (∃ m, To c s (settle (ans (redoNote o (redoValue s.m o) m)))) ∨ ∃ a, To c s (settle (refuse w o a s.m)))) ∧
    (∃ f : Found, findObj o.idx o.sub = some f ∧ f.row.mach = mach)

/-- The frames of the barrier lose nothing (R417 to R420, R423). -/
def Obligations.FrameRoundTrip : Prop :=
  ∀ (side : Side) (g : Msg) (seq : Nat) (m : Mach), catalogueOk side g.typ g.payload.length = true →
    m.barState side = 2 ∨ m.barState side = 3 → (m.barEnd side).lanes = 15 → g.typ = 1 ∨ seq % 65536 = (m.barEnd side).rxSeq →
    ∃ m1 : Mach, linkAccept side ⟨true, frameBytes g seq⟩ m = (some g, m1) ∧ (m1.barEnd side).quiet = 0 ∧
      (m1.barEnd side).rxSeq = (if g.typ = 1 then (m.barEnd side).rxSeq else (seq + 1) % 65536) ∧ m1.regs = m.regs

/-- Records (R451) and the block of host values (R25; its layout is the model's, log 30) lose nothing. -/
def Obligations.RecordsRoundTrip : Prop :=
  (∀ l : List Rec, (∀ r ∈ l, r.rtype < 256 ∧ r.chan < 256 ∧ r.data.length < 256) →
    parseRecs (l.flatMap recBytes).length (l.flatMap recBytes) = some l) ∧
  (∀ (head : List Byte) (vals : List (Nat × Nat)) (strs : List (Nat × List Byte)) (b : List Byte),
    (∀ e ∈ vals, e.1 < 2 ^ 24 ∧ e.2 < 2 ^ 64) → (∀ e ∈ strs, e.1 < 2 ^ 24 ∧ e.2.length < 256) → b = packBlock head vals strs →
    b.length < 2 ^ 32 → blockWhole b = true ∧
    (b.drop 4).take head.length = head ∧
    unpackBlock b.length (b.drop (4 + head.length)) = (vals, strs))

/-- The clocks of a tick (R80 to R82, R85). That an empty queue lets a tick pass, and the order of what a tick does, are the model's choice
(log 2). -/
def Obligations.TickAdvances : Prop :=
  (∀ s : State, s.pending = [] → step s = idle s) ∧
  (∀ s t u : State, runStages endStages s = .next t → clockAct t = .next u → idle s = runStages (beginStages t.m) u) ∧
  (∀ s : State, clockAct s = runActs ((clocks s.m).2.map done) { s with m := settle (clocks s.m).1 }) ∧
  (∀ m n : Mach, n = (clocks m).1 → m.tb.step = 0 →
    (m.tb.slowFrom = none →
      n.tb.ftb = (m.tb.ftb + 1) % 2 ^ 64 ∧
      n.tb.lt * 2 ^ 32 + n.tb.frac = (m.tb.lt * 2 ^ 32 + m.tb.frac + (2 * 2 ^ 32 + m.rd R.LT_ADDEND)) % 2 ^ 96 ∧
      n.tb.slowFrom = (if (m.tb.lclk + 1) % 128 = 0 ∧ lclkMode m = true then some n.tb.ftb else none)) ∧
    (m.tb.slowFrom ≠ none → (m.tb.lclk + 1) % 128 ≠ 0 →
      n.tb.ftb = m.tb.ftb ∧ n.tb.lt = m.tb.lt ∧ n.tb.frac = m.tb.frac ∧ n.tb.slowFrom = m.tb.slowFrom ∧
      n.tb.lclk = (m.tb.lclk + 1) % 128) ∧
    (m.tb.slowFrom ≠ none → (m.tb.lclk + 1) % 128 = 0 →
      n.tb.ftb = (m.tb.ftb + 128) % 2 ^ 64 ∧
      n.tb.lt * 2 ^ 32 + n.tb.frac = (m.tb.lt * 2 ^ 32 + m.tb.frac + 128 * (2 * 2 ^ 32 + m.rd R.LT_ADDEND)) % 2 ^ 96 ∧
      (lclkMode m = false → n.tb.slowFrom = none ∧ n.rd R.FTB_SLOW = 0) ∧
      (lclkMode m = true → (m.core 2).resume = false → m.pwr.stage ≠ 3 → n.tb.slowFrom = m.tb.slowFrom)))

/-- SOURCE_ASSERTION (R393 to R396, R398, R405). -/
def Obligations.AssertionsTaken : Prop :=
  ∀ (m : Mach) (id cfg : Nat) (side : Side), m.asserts = [id] → id < 512 → side = srcOwner id → cfg = m.rd (srcCfgObj id) →
    m.belF.arr = [] → m.belH.arr = [] → m.belF.grp = [] → m.belH.grp = [] →
    (belTick m).asserts = [] ∧
    (srcAlive m id = false ∨ holdSide (cfgTarget cfg) = none →
      ∀ (a : Side) (i : Nat), (belTick m).src a i = m.src a i) ∧
    (srcAlive m id = true → holdSide (cfgTarget cfg) = some side → cfgCoal cfg = false →
      (belTick m).src side id = { m.src side id with
        pend := true
        cnt := min 15 ((m.src side id).cnt + 1)
        sat := (m.src side id).sat || decide (15 ≤ (m.src side id).cnt)
        cfg := cfg } ∧
      ∀ (a : Side) (i : Nat), a ≠ side ∨ i ≠ id → (belTick m).src a i = m.src a i) ∧
    (srcAlive m id = true → holdSide (cfgTarget cfg) = some (Side.other side) →
      (∀ (a : Side) (i : Nat), (belTick m).src a i = m.src a i) ∧
      (m.linked side = true → (m.barEnd side).evts = [] → ((belTick m).barEnd side).evts = [(id, 1)]) ∧
      (m.linked side = false → (belTick m).rd (cntFwdLost side) = min 0xFFFFFFFF (m.rd (cntFwdLost side) + 1)))

/-- No command is turned away for the state it meets, the undefined reset pulse (R538) and the undescribed port words (R33) apart. -/
def Obligations.EveryCommandCompletes : Prop :=
  ∀ (i : Instr) (s : State), (∀ side ns, i = .pin side ns → ns < 200 ∨ 1000 ≤ ns) →
    (∀ core w e a, i = .instruction core w e → coreInsn core w.toNat e (eccSeen core w.toNat e s.m) ≠ .error (.port a)) →
    (∀ core a, i = .readMem core → dapReadMem core (atM core s.m) ≠ .error (.port a)) →
    (∀ core v a, i = .writeMem core v → dapWriteMem core v.toNat (atM core s.m) ≠ .error (.port a)) →
    ∃ t, exec i s = .next t ∧ t.pending = s.pending
end

