-- ==== Sys2Proof/Laws/Maps.lean ====
section
/-! SUPPORT. Laws of the sparse maps: what a write leaves to read, and that every operation keeps the canonical form. -/

namespace Sys2Proof.Machine

variable {α : Type}

theorem mapSorted_tail {e : Nat × α} {l : List (Nat × α)} (h : mapSorted (e :: l) = true) : mapSorted l = true := by
  cases l with
  | nil => rfl
  | cons b r => simp only [mapSorted, Bool.and_eq_true] at h; exact h.2

theorem mapSorted_head {e b : Nat × α} {l : List (Nat × α)} (h : mapSorted (e :: b :: l) = true) : e.1 < b.1 := by
  simp only [mapSorted, Bool.and_eq_true, decide_eq_true_eq] at h; exact h.1

/-! ## Reading -/

@[simp] theorem mapGet_mapPut_same (d : α) (k : Nat) (v : α) (l : List (Nat × α)) : mapGet d k (mapPut k v l) = v := by
  induction l with
  | nil => simp [mapPut, mapGet]
  | cons e r ih =>
    simp only [mapPut]
    split
    · simp [mapGet]
    · split
      · simp [mapGet]
      · rename_i h1 h2; simp only [mapGet]; rw [if_neg h1]; exact ih

theorem mapGet_mapPut_ne {d : α} {k j : Nat} (h : j ≠ k) (v : α) (l : List (Nat × α)) :
    mapGet d j (mapPut k v l) = mapGet d j l := by
  induction l with
  | nil => simp [mapPut, mapGet, h]
  | cons e r ih =>
    simp only [mapPut]
    split
    · rename_i h1; subst h1; simp [mapGet, h]
    · split
      · simp only [mapGet]; rw [if_neg h]
      · simp only [mapGet, ih]

@[simp] theorem mapGet_mapDel_same (d : α) (k : Nat) (l : List (Nat × α)) : mapGet d k (mapDel k l) = d := by
  induction l with
  | nil => rfl
  | cons e r ih =>
    simp only [mapDel]
    split
    · exact ih
    · rename_i h1; simp only [mapGet]; rw [if_neg h1]; exact ih

theorem mapGet_mapDel_ne {d : α} {k j : Nat} (h : j ≠ k) (l : List (Nat × α)) :
    mapGet d j (mapDel k l) = mapGet d j l := by
  induction l with
  | nil => rfl
  | cons e r ih =>
    simp only [mapDel]
    split
    · rename_i h1; simp only [mapGet]; rw [if_neg (h1 ▸ h)]; exact ih
    · simp only [mapGet, ih]

@[simp] theorem mapGet_mapSet_same [DecidableEq α] (d : α) (k : Nat) (v : α) (l : List (Nat × α)) :
    mapGet d k (mapSet d k v l) = v := by
  unfold mapSet
  split
  · rename_i hv; rw [mapGet_mapDel_same, hv]
  · exact mapGet_mapPut_same ..

theorem mapGet_mapSet_ne [DecidableEq α] {d e : α} {k j : Nat} (h : j ≠ k) (v : α) (l : List (Nat × α)) :
    mapGet d j (mapSet e k v l) = mapGet d j l := by
  unfold mapSet
  split
  · exact mapGet_mapDel_ne h ..
  · exact mapGet_mapPut_ne h ..

/-! ## The canonical form -/

/-- Every later key lies above the first. -/
theorem mapSorted_all {e : Nat × α} {l : List (Nat × α)} (h : mapSorted (e :: l) = true) : ∀ b ∈ l, e.1 < b.1 := by
  induction l generalizing e with
  | nil => simp
  | cons c r ih =>
    intro b hb
    have h1 := mapSorted_head h
    rcases List.mem_cons.1 hb with rfl | hb
    · exact h1
    · have := ih (mapSorted_tail h) b hb; omega

theorem mapSorted_cons {e : Nat × α} {l : List (Nat × α)} (hl : mapSorted l = true) (h : ∀ b ∈ l, e.1 < b.1) :
    mapSorted (e :: l) = true := by
  cases l with
  | nil => rfl
  | cons b r =>
    simp only [mapSorted, Bool.and_eq_true, decide_eq_true_eq]
    exact ⟨h b (by simp), hl⟩

theorem mapPut_mem {k : Nat} {v : α} {l : List (Nat × α)} {b : Nat × α} (hb : b ∈ mapPut k v l) : b = (k, v) ∨ b ∈ l := by
  induction l with
  | nil => simpa [mapPut] using hb
  | cons e r ih =>
    simp only [mapPut] at hb
    split at hb
    · rcases List.mem_cons.1 hb with h | h
      · exact .inl h
      · exact .inr (by simp [h])
    · split at hb
      · rcases List.mem_cons.1 hb with h | h
        · exact .inl h
        · exact .inr h
      · rcases List.mem_cons.1 hb with h | h
        · exact .inr (by simp [h])
        · rcases ih h with h | h
          · exact .inl h
          · exact .inr (by simp [h])

theorem mapDel_mem {k : Nat} {l : List (Nat × α)} {b : Nat × α} (hb : b ∈ mapDel k l) : b ∈ l := by
  induction l with
  | nil => exact hb
  | cons e r ih =>
    simp only [mapDel] at hb
    split at hb
    · simp [ih hb]
    · rcases List.mem_cons.1 hb with h | h
      · simp [h]
      · simp [ih h]

theorem mapSorted_mapPut {k : Nat} {v : α} {l : List (Nat × α)} (h : mapSorted l = true) : mapSorted (mapPut k v l) = true := by
  induction l with
  | nil => rfl
  | cons e r ih =>
    simp only [mapPut]
    split
    · rename_i h1
      exact mapSorted_cons (mapSorted_tail h) (fun b hb => h1 ▸ mapSorted_all h b hb)
    · split
      · rename_i h1 h2
        refine mapSorted_cons h ?_
        intro b hb
        rcases List.mem_cons.1 hb with rfl | hb
        · exact h2
        · have := mapSorted_all h b hb; show k < b.1; omega
      · rename_i h1 h2
        refine mapSorted_cons (ih (mapSorted_tail h)) ?_
        intro b hb
        rcases mapPut_mem hb with rfl | hb
        · show e.1 < k; omega
        · exact mapSorted_all h b hb

theorem mapSorted_mapDel {k : Nat} {l : List (Nat × α)} (h : mapSorted l = true) : mapSorted (mapDel k l) = true := by
  induction l with
  | nil => rfl
  | cons e r ih =>
    simp only [mapDel]
    split
    · exact ih (mapSorted_tail h)
    · exact mapSorted_cons (ih (mapSorted_tail h)) (fun b hb => mapSorted_all h b (mapDel_mem hb))

theorem mapSorted_mapSet [DecidableEq α] {d : α} {k : Nat} {v : α} {l : List (Nat × α)} (h : mapSorted l = true) :
    mapSorted (mapSet d k v l) = true := by
  unfold mapSet; split
  · exact mapSorted_mapDel h
  · exact mapSorted_mapPut h

theorem all_mapDel {p : Nat × α → Bool} {k : Nat} {l : List (Nat × α)} (h : l.all p = true) : (mapDel k l).all p = true := by
  rw [List.all_eq_true] at h ⊢
  exact fun b hb => h b (mapDel_mem hb)

theorem all_mapPut {p : Nat × α → Bool} {k : Nat} {v : α} {l : List (Nat × α)} (h : l.all p = true) (hv : p (k, v) = true) :
    (mapPut k v l).all p = true := by
  rw [List.all_eq_true] at h ⊢
  intro b hb
  rcases mapPut_mem hb with rfl | hb
  · exact hv
  · exact h b hb

/-- A write keeps the canonical form. -/
theorem mapWf_mapSet [DecidableEq α] {d : α} {k : Nat} {v : α} {l : List (Nat × α)} (h : mapWf d l = true) :
    mapWf d (mapSet d k v l) = true := by
  simp only [mapWf, Bool.and_eq_true] at h ⊢
  refine ⟨mapSorted_mapSet h.1, ?_⟩
  unfold mapSet; split
  · exact all_mapDel h.2
  · rename_i hv; exact all_mapPut h.2 (by simp [hv])

/-! ## Memories -/

theorem memory_wf_memWr {a : Nat} {v : Byte} {l : List Host.Cell} (h : Memory.wf l = true) : Memory.wf (memWr a v l) = true :=
  mapWf_mapSet h

theorem memory_wf_memWrN {b : List Byte} {a : Nat} {l : List Host.Cell} (h : Memory.wf l = true) :
    Memory.wf (memWrN l a b) = true := by
  induction b generalizing a l with
  | nil => exact h
  | cons x r ih => exact ih (memory_wf_memWr h)

@[simp] theorem memRd_memWr_same (a : Nat) (v : Byte) (l : List Host.Cell) : memRd (memWr a v l) a = v :=
  mapGet_mapSet_same ..

theorem memRd_memWr_ne {a b : Nat} (hb : b ≠ a) (v : Byte) (l : List Host.Cell) : memRd (memWr a v l) b = memRd l b :=
  mapGet_mapSet_ne hb ..

/-- Bytes outside a stored string read as before. -/
theorem memRd_memWrN_outside {s : List Byte} {a b : Nat} {l : List Host.Cell} (hb : b < a ∨ a + s.length ≤ b) :
    memRd (memWrN l a s) b = memRd l b := by
  induction s generalizing a l with
  | nil => rfl
  | cons x r ih =>
    have hl : (x :: r).length = r.length + 1 := rfl
    show memRd (memWrN (memWr a x l) (a + 1) r) b = _
    rw [ih (by omega), memRd_memWr_ne (by omega)]

/-! ## Objects -/

@[simp] theorem rd_wr_same (m : Mach) (o : Obj) (v : Nat) : (m.wr o v).rd o = v := mapGet_mapSet_same ..

theorem rd_wr_ne {o p : Obj} (hk : p.key ≠ o.key) (m : Mach) (v : Nat) : (m.wr o v).rd p = m.rd p := mapGet_mapSet_ne hk ..

/-- Objects with different keys do not disturb each other; which case holds is decided by their indices. -/
theorem rd_wr (m : Mach) (o p : Obj) (v : Nat) (hd : p.key = o.key → p = o) :
    (m.wr o v).rd p = if p.key = o.key then v else m.rd p := by
  split
  · rename_i h; rw [hd h, rd_wr_same]
  · rename_i h; exact rd_wr_ne h ..

theorem mapSorted_wr {m : Mach} {o : Obj} {v : Nat} (h : mapSorted m.regs = true) : mapSorted (m.wr o v).regs = true :=
  mapSorted_mapSet h

end Sys2Proof.Machine
end

