-- ==== Sys2Proof/Laws/State.lean ====
section
/-! SUPPORT. What each named update leaves as it was: for every update one law that names every field it does not touch. -/

namespace Sys2Proof.Machine

variable (m : Mach)

@[simp] theorem Mach.wr_fields (o : Obj) (v : Nat) :
    (m.wr o v).tb = m.tb ∧ (m.wr o v).belF = m.belF ∧ (m.wr o v).belH = m.belH ∧ (m.wr o v).cores = m.cores ∧
    (m.wr o v).bar = m.bar ∧ (m.wr o v).dic = m.dic ∧ (m.wr o v).saf = m.saf ∧ (m.wr o v).pwr = m.pwr ∧
    (m.wr o v).chans = m.chans ∧ (m.wr o v).movers = m.movers ∧ (m.wr o v).octets = m.octets ∧
    (m.wr o v).engines = m.engines ∧ (m.wr o v).ctxs = m.ctxs ∧ (m.wr o v).whls = m.whls ∧ (m.wr o v).notes = m.notes ∧
    (m.wr o v).evts = m.evts ∧ (m.wr o v).lan = m.lan ∧ (m.wr o v).profs = m.profs ∧ (m.wr o v).vms = m.vms ∧
    (m.wr o v).nms = m.nms ∧ (m.wr o v).axes = m.axes ∧ (m.wr o v).ocus = m.ocus ∧ (m.wr o v).net = m.net ∧
    (m.wr o v).cans = m.cans ∧ (m.wr o v).keepMem = m.keepMem ∧ (m.wr o v).hostMem = m.hostMem ∧ (m.wr o v).flash = m.flash ∧
    (m.wr o v).fram = m.fram ∧ (m.wr o v).setNow = m.setNow ∧ (m.wr o v).incNow = m.incNow ∧ (m.wr o v).movNext = m.movNext ∧
    (m.wr o v).entries = m.entries ∧ (m.wr o v).stopped = m.stopped ∧ (m.wr o v).ranks = m.ranks ∧
    (m.wr o v).redos = m.redos ∧ (m.wr o v).pops = m.pops ∧ (m.wr o v).movUsed = m.movUsed ∧ (m.wr o v).asserts = m.asserts ∧
    (m.wr o v).flagIns = m.flagIns ∧ (m.wr o v).xNow = m.xNow ∧ (m.wr o v).alarms = m.alarms ∧
    (m.wr o v).freeCtr = m.freeCtr ∧ (m.wr o v).out = m.out :=
  by simp [Mach.wr]

@[simp] theorem Mach.dflt_fields (o : Obj) :
    (m.dflt o).tb = m.tb ∧ (m.dflt o).belF = m.belF ∧ (m.dflt o).belH = m.belH ∧ (m.dflt o).cores = m.cores ∧
    (m.dflt o).bar = m.bar ∧ (m.dflt o).dic = m.dic ∧ (m.dflt o).saf = m.saf ∧ (m.dflt o).pwr = m.pwr ∧
    (m.dflt o).chans = m.chans ∧ (m.dflt o).movers = m.movers ∧ (m.dflt o).octets = m.octets ∧
    (m.dflt o).engines = m.engines ∧ (m.dflt o).ctxs = m.ctxs ∧ (m.dflt o).whls = m.whls ∧ (m.dflt o).notes = m.notes ∧
    (m.dflt o).evts = m.evts ∧ (m.dflt o).lan = m.lan ∧ (m.dflt o).profs = m.profs ∧ (m.dflt o).vms = m.vms ∧
    (m.dflt o).nms = m.nms ∧ (m.dflt o).axes = m.axes ∧ (m.dflt o).ocus = m.ocus ∧ (m.dflt o).net = m.net ∧
    (m.dflt o).cans = m.cans ∧ (m.dflt o).keepMem = m.keepMem ∧ (m.dflt o).hostMem = m.hostMem ∧ (m.dflt o).flash = m.flash ∧
    (m.dflt o).fram = m.fram ∧ (m.dflt o).setNow = m.setNow ∧ (m.dflt o).incNow = m.incNow ∧ (m.dflt o).movNext = m.movNext ∧
    (m.dflt o).entries = m.entries ∧ (m.dflt o).stopped = m.stopped ∧ (m.dflt o).ranks = m.ranks ∧
    (m.dflt o).redos = m.redos ∧ (m.dflt o).pops = m.pops ∧ (m.dflt o).movUsed = m.movUsed ∧ (m.dflt o).asserts = m.asserts ∧
    (m.dflt o).flagIns = m.flagIns ∧ (m.dflt o).xNow = m.xNow ∧ (m.dflt o).alarms = m.alarms ∧
    (m.dflt o).freeCtr = m.freeCtr ∧ (m.dflt o).out = m.out :=
  by simp [Mach.dflt]

@[simp] theorem Mach.putBit_fields (o : Obj) (b : Nat) (v : Bool) :
    (m.putBit o b v).tb = m.tb ∧ (m.putBit o b v).belF = m.belF ∧ (m.putBit o b v).belH = m.belH ∧
    (m.putBit o b v).cores = m.cores ∧ (m.putBit o b v).bar = m.bar ∧ (m.putBit o b v).dic = m.dic ∧
    (m.putBit o b v).saf = m.saf ∧ (m.putBit o b v).pwr = m.pwr ∧ (m.putBit o b v).chans = m.chans ∧
    (m.putBit o b v).movers = m.movers ∧ (m.putBit o b v).octets = m.octets ∧ (m.putBit o b v).engines = m.engines ∧
    (m.putBit o b v).ctxs = m.ctxs ∧ (m.putBit o b v).whls = m.whls ∧ (m.putBit o b v).notes = m.notes ∧
    (m.putBit o b v).evts = m.evts ∧ (m.putBit o b v).lan = m.lan ∧ (m.putBit o b v).profs = m.profs ∧
    (m.putBit o b v).vms = m.vms ∧ (m.putBit o b v).nms = m.nms ∧ (m.putBit o b v).axes = m.axes ∧
    (m.putBit o b v).ocus = m.ocus ∧ (m.putBit o b v).net = m.net ∧ (m.putBit o b v).cans = m.cans ∧
    (m.putBit o b v).keepMem = m.keepMem ∧ (m.putBit o b v).hostMem = m.hostMem ∧ (m.putBit o b v).flash = m.flash ∧
    (m.putBit o b v).fram = m.fram ∧ (m.putBit o b v).setNow = m.setNow ∧ (m.putBit o b v).incNow = m.incNow ∧
    (m.putBit o b v).movNext = m.movNext ∧ (m.putBit o b v).entries = m.entries ∧ (m.putBit o b v).stopped = m.stopped ∧
    (m.putBit o b v).ranks = m.ranks ∧ (m.putBit o b v).redos = m.redos ∧ (m.putBit o b v).pops = m.pops ∧
    (m.putBit o b v).movUsed = m.movUsed ∧ (m.putBit o b v).asserts = m.asserts ∧ (m.putBit o b v).flagIns = m.flagIns ∧
    (m.putBit o b v).xNow = m.xNow ∧ (m.putBit o b v).alarms = m.alarms ∧ (m.putBit o b v).freeCtr = m.freeCtr ∧
    (m.putBit o b v).out = m.out :=
  by simp [Mach.putBit]

@[simp] theorem Mach.wrI_fields (n : Nat) (o : Obj) (v : Int) :
    (m.wrI n o v).tb = m.tb ∧ (m.wrI n o v).belF = m.belF ∧ (m.wrI n o v).belH = m.belH ∧ (m.wrI n o v).cores = m.cores ∧
    (m.wrI n o v).bar = m.bar ∧ (m.wrI n o v).dic = m.dic ∧ (m.wrI n o v).saf = m.saf ∧ (m.wrI n o v).pwr = m.pwr ∧
    (m.wrI n o v).chans = m.chans ∧ (m.wrI n o v).movers = m.movers ∧ (m.wrI n o v).octets = m.octets ∧
    (m.wrI n o v).engines = m.engines ∧ (m.wrI n o v).ctxs = m.ctxs ∧ (m.wrI n o v).whls = m.whls ∧
    (m.wrI n o v).notes = m.notes ∧ (m.wrI n o v).evts = m.evts ∧ (m.wrI n o v).lan = m.lan ∧ (m.wrI n o v).profs = m.profs ∧
    (m.wrI n o v).vms = m.vms ∧ (m.wrI n o v).nms = m.nms ∧ (m.wrI n o v).axes = m.axes ∧ (m.wrI n o v).ocus = m.ocus ∧
    (m.wrI n o v).net = m.net ∧ (m.wrI n o v).cans = m.cans ∧ (m.wrI n o v).keepMem = m.keepMem ∧
    (m.wrI n o v).hostMem = m.hostMem ∧ (m.wrI n o v).flash = m.flash ∧ (m.wrI n o v).fram = m.fram ∧
    (m.wrI n o v).setNow = m.setNow ∧ (m.wrI n o v).incNow = m.incNow ∧ (m.wrI n o v).movNext = m.movNext ∧
    (m.wrI n o v).entries = m.entries ∧ (m.wrI n o v).stopped = m.stopped ∧ (m.wrI n o v).ranks = m.ranks ∧
    (m.wrI n o v).redos = m.redos ∧ (m.wrI n o v).pops = m.pops ∧ (m.wrI n o v).movUsed = m.movUsed ∧
    (m.wrI n o v).asserts = m.asserts ∧ (m.wrI n o v).flagIns = m.flagIns ∧ (m.wrI n o v).xNow = m.xNow ∧
    (m.wrI n o v).alarms = m.alarms ∧ (m.wrI n o v).freeCtr = m.freeCtr ∧ (m.wrI n o v).out = m.out :=
  by simp [Mach.wrI]

@[simp] theorem Mach.clr_fields (o : Obj) :
    (m.clr o).tb = m.tb ∧ (m.clr o).belF = m.belF ∧ (m.clr o).belH = m.belH ∧ (m.clr o).cores = m.cores ∧
    (m.clr o).bar = m.bar ∧ (m.clr o).dic = m.dic ∧ (m.clr o).saf = m.saf ∧ (m.clr o).pwr = m.pwr ∧
    (m.clr o).chans = m.chans ∧ (m.clr o).movers = m.movers ∧ (m.clr o).octets = m.octets ∧ (m.clr o).engines = m.engines ∧
    (m.clr o).ctxs = m.ctxs ∧ (m.clr o).whls = m.whls ∧ (m.clr o).notes = m.notes ∧ (m.clr o).evts = m.evts ∧
    (m.clr o).lan = m.lan ∧ (m.clr o).profs = m.profs ∧ (m.clr o).vms = m.vms ∧ (m.clr o).nms = m.nms ∧
    (m.clr o).axes = m.axes ∧ (m.clr o).ocus = m.ocus ∧ (m.clr o).net = m.net ∧ (m.clr o).cans = m.cans ∧
    (m.clr o).keepMem = m.keepMem ∧ (m.clr o).hostMem = m.hostMem ∧ (m.clr o).flash = m.flash ∧ (m.clr o).fram = m.fram ∧
    (m.clr o).setNow = m.setNow ∧ (m.clr o).incNow = m.incNow ∧ (m.clr o).movNext = m.movNext ∧
    (m.clr o).entries = m.entries ∧ (m.clr o).stopped = m.stopped ∧ (m.clr o).ranks = m.ranks ∧ (m.clr o).redos = m.redos ∧
    (m.clr o).pops = m.pops ∧ (m.clr o).movUsed = m.movUsed ∧ (m.clr o).asserts = m.asserts ∧ (m.clr o).flagIns = m.flagIns ∧
    (m.clr o).xNow = m.xNow ∧ (m.clr o).alarms = m.alarms ∧ (m.clr o).freeCtr = m.freeCtr ∧ (m.clr o).out = m.out :=
  by simp [Mach.clr]

@[simp] theorem Mach.w1c_fields (o : Obj) (v : Nat) :
    (m.w1c o v).tb = m.tb ∧ (m.w1c o v).belF = m.belF ∧ (m.w1c o v).belH = m.belH ∧ (m.w1c o v).cores = m.cores ∧
    (m.w1c o v).bar = m.bar ∧ (m.w1c o v).dic = m.dic ∧ (m.w1c o v).saf = m.saf ∧ (m.w1c o v).pwr = m.pwr ∧
    (m.w1c o v).chans = m.chans ∧ (m.w1c o v).movers = m.movers ∧ (m.w1c o v).octets = m.octets ∧
    (m.w1c o v).engines = m.engines ∧ (m.w1c o v).ctxs = m.ctxs ∧ (m.w1c o v).whls = m.whls ∧ (m.w1c o v).notes = m.notes ∧
    (m.w1c o v).evts = m.evts ∧ (m.w1c o v).lan = m.lan ∧ (m.w1c o v).profs = m.profs ∧ (m.w1c o v).vms = m.vms ∧
    (m.w1c o v).nms = m.nms ∧ (m.w1c o v).axes = m.axes ∧ (m.w1c o v).ocus = m.ocus ∧ (m.w1c o v).net = m.net ∧
    (m.w1c o v).cans = m.cans ∧ (m.w1c o v).keepMem = m.keepMem ∧ (m.w1c o v).hostMem = m.hostMem ∧
    (m.w1c o v).flash = m.flash ∧ (m.w1c o v).fram = m.fram ∧ (m.w1c o v).setNow = m.setNow ∧ (m.w1c o v).incNow = m.incNow ∧
    (m.w1c o v).movNext = m.movNext ∧ (m.w1c o v).entries = m.entries ∧ (m.w1c o v).stopped = m.stopped ∧
    (m.w1c o v).ranks = m.ranks ∧ (m.w1c o v).redos = m.redos ∧ (m.w1c o v).pops = m.pops ∧ (m.w1c o v).movUsed = m.movUsed ∧
    (m.w1c o v).asserts = m.asserts ∧ (m.w1c o v).flagIns = m.flagIns ∧ (m.w1c o v).xNow = m.xNow ∧
    (m.w1c o v).alarms = m.alarms ∧ (m.w1c o v).freeCtr = m.freeCtr ∧ (m.w1c o v).out = m.out :=
  by simp [Mach.w1c]

@[simp] theorem Mach.setEvt_fields (o : Obj) (b : Nat) :
    (m.setEvt o b).tb = m.tb ∧ (m.setEvt o b).belF = m.belF ∧ (m.setEvt o b).belH = m.belH ∧ (m.setEvt o b).cores = m.cores ∧
    (m.setEvt o b).bar = m.bar ∧ (m.setEvt o b).dic = m.dic ∧ (m.setEvt o b).saf = m.saf ∧ (m.setEvt o b).pwr = m.pwr ∧
    (m.setEvt o b).chans = m.chans ∧ (m.setEvt o b).movers = m.movers ∧ (m.setEvt o b).octets = m.octets ∧
    (m.setEvt o b).engines = m.engines ∧ (m.setEvt o b).ctxs = m.ctxs ∧ (m.setEvt o b).whls = m.whls ∧
    (m.setEvt o b).notes = m.notes ∧ (m.setEvt o b).evts = m.evts ∧ (m.setEvt o b).lan = m.lan ∧
    (m.setEvt o b).profs = m.profs ∧ (m.setEvt o b).vms = m.vms ∧ (m.setEvt o b).nms = m.nms ∧ (m.setEvt o b).axes = m.axes ∧
    (m.setEvt o b).ocus = m.ocus ∧ (m.setEvt o b).net = m.net ∧ (m.setEvt o b).cans = m.cans ∧
    (m.setEvt o b).keepMem = m.keepMem ∧ (m.setEvt o b).hostMem = m.hostMem ∧ (m.setEvt o b).flash = m.flash ∧
    (m.setEvt o b).fram = m.fram ∧ (m.setEvt o b).incNow = m.incNow ∧ (m.setEvt o b).movNext = m.movNext ∧
    (m.setEvt o b).entries = m.entries ∧ (m.setEvt o b).stopped = m.stopped ∧ (m.setEvt o b).ranks = m.ranks ∧
    (m.setEvt o b).redos = m.redos ∧ (m.setEvt o b).pops = m.pops ∧ (m.setEvt o b).movUsed = m.movUsed ∧
    (m.setEvt o b).asserts = m.asserts ∧ (m.setEvt o b).flagIns = m.flagIns ∧ (m.setEvt o b).xNow = m.xNow ∧
    (m.setEvt o b).alarms = m.alarms ∧ (m.setEvt o b).freeCtr = m.freeCtr ∧ (m.setEvt o b).out = m.out :=
  by simp [Mach.setEvt]

@[simp] theorem Mach.incBy_fields (o : Obj) (n : Nat) :
    (m.incBy o n).tb = m.tb ∧ (m.incBy o n).belF = m.belF ∧ (m.incBy o n).belH = m.belH ∧ (m.incBy o n).cores = m.cores ∧
    (m.incBy o n).bar = m.bar ∧ (m.incBy o n).dic = m.dic ∧ (m.incBy o n).saf = m.saf ∧ (m.incBy o n).pwr = m.pwr ∧
    (m.incBy o n).chans = m.chans ∧ (m.incBy o n).movers = m.movers ∧ (m.incBy o n).octets = m.octets ∧
    (m.incBy o n).engines = m.engines ∧ (m.incBy o n).ctxs = m.ctxs ∧ (m.incBy o n).whls = m.whls ∧
    (m.incBy o n).notes = m.notes ∧ (m.incBy o n).evts = m.evts ∧ (m.incBy o n).lan = m.lan ∧ (m.incBy o n).profs = m.profs ∧
    (m.incBy o n).vms = m.vms ∧ (m.incBy o n).nms = m.nms ∧ (m.incBy o n).axes = m.axes ∧ (m.incBy o n).ocus = m.ocus ∧
    (m.incBy o n).net = m.net ∧ (m.incBy o n).cans = m.cans ∧ (m.incBy o n).keepMem = m.keepMem ∧
    (m.incBy o n).hostMem = m.hostMem ∧ (m.incBy o n).flash = m.flash ∧ (m.incBy o n).fram = m.fram ∧
    (m.incBy o n).setNow = m.setNow ∧ (m.incBy o n).movNext = m.movNext ∧ (m.incBy o n).entries = m.entries ∧
    (m.incBy o n).stopped = m.stopped ∧ (m.incBy o n).ranks = m.ranks ∧ (m.incBy o n).redos = m.redos ∧
    (m.incBy o n).pops = m.pops ∧ (m.incBy o n).movUsed = m.movUsed ∧ (m.incBy o n).asserts = m.asserts ∧
    (m.incBy o n).flagIns = m.flagIns ∧ (m.incBy o n).xNow = m.xNow ∧ (m.incBy o n).alarms = m.alarms ∧
    (m.incBy o n).freeCtr = m.freeCtr ∧ (m.incBy o n).out = m.out :=
  by unfold Mach.incBy; split <;> simp

@[simp] theorem Mach.inc_fields (o : Obj) :
    (m.inc o).tb = m.tb ∧ (m.inc o).belF = m.belF ∧ (m.inc o).belH = m.belH ∧ (m.inc o).cores = m.cores ∧
    (m.inc o).bar = m.bar ∧ (m.inc o).dic = m.dic ∧ (m.inc o).saf = m.saf ∧ (m.inc o).pwr = m.pwr ∧
    (m.inc o).chans = m.chans ∧ (m.inc o).movers = m.movers ∧ (m.inc o).octets = m.octets ∧ (m.inc o).engines = m.engines ∧
    (m.inc o).ctxs = m.ctxs ∧ (m.inc o).whls = m.whls ∧ (m.inc o).notes = m.notes ∧ (m.inc o).evts = m.evts ∧
    (m.inc o).lan = m.lan ∧ (m.inc o).profs = m.profs ∧ (m.inc o).vms = m.vms ∧ (m.inc o).nms = m.nms ∧
    (m.inc o).axes = m.axes ∧ (m.inc o).ocus = m.ocus ∧ (m.inc o).net = m.net ∧ (m.inc o).cans = m.cans ∧
    (m.inc o).keepMem = m.keepMem ∧ (m.inc o).hostMem = m.hostMem ∧ (m.inc o).flash = m.flash ∧ (m.inc o).fram = m.fram ∧
    (m.inc o).setNow = m.setNow ∧ (m.inc o).movNext = m.movNext ∧ (m.inc o).entries = m.entries ∧
    (m.inc o).stopped = m.stopped ∧ (m.inc o).ranks = m.ranks ∧ (m.inc o).redos = m.redos ∧ (m.inc o).pops = m.pops ∧
    (m.inc o).movUsed = m.movUsed ∧ (m.inc o).asserts = m.asserts ∧ (m.inc o).flagIns = m.flagIns ∧ (m.inc o).xNow = m.xNow ∧
    (m.inc o).alarms = m.alarms ∧ (m.inc o).freeCtr = m.freeCtr ∧ (m.inc o).out = m.out :=
  by unfold Mach.inc Mach.incBy; split <;> simp

@[simp] theorem Mach.maxTo_fields (o : Obj) (v : Nat) :
    (m.maxTo o v).tb = m.tb ∧ (m.maxTo o v).belF = m.belF ∧ (m.maxTo o v).belH = m.belH ∧ (m.maxTo o v).cores = m.cores ∧
    (m.maxTo o v).bar = m.bar ∧ (m.maxTo o v).dic = m.dic ∧ (m.maxTo o v).saf = m.saf ∧ (m.maxTo o v).pwr = m.pwr ∧
    (m.maxTo o v).chans = m.chans ∧ (m.maxTo o v).movers = m.movers ∧ (m.maxTo o v).octets = m.octets ∧
    (m.maxTo o v).engines = m.engines ∧ (m.maxTo o v).ctxs = m.ctxs ∧ (m.maxTo o v).whls = m.whls ∧
    (m.maxTo o v).notes = m.notes ∧ (m.maxTo o v).evts = m.evts ∧ (m.maxTo o v).lan = m.lan ∧ (m.maxTo o v).profs = m.profs ∧
    (m.maxTo o v).vms = m.vms ∧ (m.maxTo o v).nms = m.nms ∧ (m.maxTo o v).axes = m.axes ∧ (m.maxTo o v).ocus = m.ocus ∧
    (m.maxTo o v).net = m.net ∧ (m.maxTo o v).cans = m.cans ∧ (m.maxTo o v).keepMem = m.keepMem ∧
    (m.maxTo o v).hostMem = m.hostMem ∧ (m.maxTo o v).flash = m.flash ∧ (m.maxTo o v).fram = m.fram ∧
    (m.maxTo o v).setNow = m.setNow ∧ (m.maxTo o v).movNext = m.movNext ∧ (m.maxTo o v).entries = m.entries ∧
    (m.maxTo o v).stopped = m.stopped ∧ (m.maxTo o v).ranks = m.ranks ∧ (m.maxTo o v).redos = m.redos ∧
    (m.maxTo o v).pops = m.pops ∧ (m.maxTo o v).movUsed = m.movUsed ∧ (m.maxTo o v).asserts = m.asserts ∧
    (m.maxTo o v).flagIns = m.flagIns ∧ (m.maxTo o v).xNow = m.xNow ∧ (m.maxTo o v).alarms = m.alarms ∧
    (m.maxTo o v).freeCtr = m.freeCtr ∧ (m.maxTo o v).out = m.out :=
  by unfold Mach.maxTo; split <;> simp

@[simp] theorem Mach.clrMax_fields (o : Obj) :
    (m.clrMax o).tb = m.tb ∧ (m.clrMax o).belF = m.belF ∧ (m.clrMax o).belH = m.belH ∧ (m.clrMax o).cores = m.cores ∧
    (m.clrMax o).bar = m.bar ∧ (m.clrMax o).dic = m.dic ∧ (m.clrMax o).saf = m.saf ∧ (m.clrMax o).pwr = m.pwr ∧
    (m.clrMax o).chans = m.chans ∧ (m.clrMax o).movers = m.movers ∧ (m.clrMax o).octets = m.octets ∧
    (m.clrMax o).engines = m.engines ∧ (m.clrMax o).ctxs = m.ctxs ∧ (m.clrMax o).whls = m.whls ∧
    (m.clrMax o).notes = m.notes ∧ (m.clrMax o).evts = m.evts ∧ (m.clrMax o).lan = m.lan ∧ (m.clrMax o).profs = m.profs ∧
    (m.clrMax o).vms = m.vms ∧ (m.clrMax o).nms = m.nms ∧ (m.clrMax o).axes = m.axes ∧ (m.clrMax o).ocus = m.ocus ∧
    (m.clrMax o).net = m.net ∧ (m.clrMax o).cans = m.cans ∧ (m.clrMax o).keepMem = m.keepMem ∧
    (m.clrMax o).hostMem = m.hostMem ∧ (m.clrMax o).flash = m.flash ∧ (m.clrMax o).fram = m.fram ∧
    (m.clrMax o).setNow = m.setNow ∧ (m.clrMax o).incNow = m.incNow ∧ (m.clrMax o).movNext = m.movNext ∧
    (m.clrMax o).entries = m.entries ∧ (m.clrMax o).stopped = m.stopped ∧ (m.clrMax o).ranks = m.ranks ∧
    (m.clrMax o).redos = m.redos ∧ (m.clrMax o).pops = m.pops ∧ (m.clrMax o).movUsed = m.movUsed ∧
    (m.clrMax o).asserts = m.asserts ∧ (m.clrMax o).flagIns = m.flagIns ∧ (m.clrMax o).xNow = m.xNow ∧
    (m.clrMax o).alarms = m.alarms ∧ (m.clrMax o).freeCtr = m.freeCtr ∧ (m.clrMax o).out = m.out :=
  by unfold Mach.clrMax; split <;> simp

@[simp] theorem Mach.assertSrc_fields (id : Nat) :
    (m.assertSrc id).regs = m.regs ∧ (m.assertSrc id).tb = m.tb ∧ (m.assertSrc id).belF = m.belF ∧
    (m.assertSrc id).belH = m.belH ∧ (m.assertSrc id).cores = m.cores ∧ (m.assertSrc id).bar = m.bar ∧
    (m.assertSrc id).dic = m.dic ∧ (m.assertSrc id).saf = m.saf ∧ (m.assertSrc id).pwr = m.pwr ∧
    (m.assertSrc id).chans = m.chans ∧ (m.assertSrc id).movers = m.movers ∧ (m.assertSrc id).octets = m.octets ∧
    (m.assertSrc id).engines = m.engines ∧ (m.assertSrc id).ctxs = m.ctxs ∧ (m.assertSrc id).whls = m.whls ∧
    (m.assertSrc id).notes = m.notes ∧ (m.assertSrc id).evts = m.evts ∧ (m.assertSrc id).lan = m.lan ∧
    (m.assertSrc id).profs = m.profs ∧ (m.assertSrc id).vms = m.vms ∧ (m.assertSrc id).nms = m.nms ∧
    (m.assertSrc id).axes = m.axes ∧ (m.assertSrc id).ocus = m.ocus ∧ (m.assertSrc id).net = m.net ∧
    (m.assertSrc id).cans = m.cans ∧ (m.assertSrc id).keepMem = m.keepMem ∧ (m.assertSrc id).hostMem = m.hostMem ∧
    (m.assertSrc id).flash = m.flash ∧ (m.assertSrc id).fram = m.fram ∧ (m.assertSrc id).setNow = m.setNow ∧
    (m.assertSrc id).incNow = m.incNow ∧ (m.assertSrc id).movNext = m.movNext ∧ (m.assertSrc id).entries = m.entries ∧
    (m.assertSrc id).stopped = m.stopped ∧ (m.assertSrc id).ranks = m.ranks ∧ (m.assertSrc id).redos = m.redos ∧
    (m.assertSrc id).pops = m.pops ∧ (m.assertSrc id).movUsed = m.movUsed ∧ (m.assertSrc id).flagIns = m.flagIns ∧
    (m.assertSrc id).xNow = m.xNow ∧ (m.assertSrc id).alarms = m.alarms ∧ (m.assertSrc id).freeCtr = m.freeCtr ∧
    (m.assertSrc id).out = m.out :=
  by simp [Mach.assertSrc]

@[simp] theorem Mach.raise_fields (evt en : Obj) (b src : Nat) :
    (m.raise evt en b src).tb = m.tb ∧ (m.raise evt en b src).belF = m.belF ∧ (m.raise evt en b src).belH = m.belH ∧
    (m.raise evt en b src).cores = m.cores ∧ (m.raise evt en b src).bar = m.bar ∧ (m.raise evt en b src).dic = m.dic ∧
    (m.raise evt en b src).saf = m.saf ∧ (m.raise evt en b src).pwr = m.pwr ∧ (m.raise evt en b src).chans = m.chans ∧
    (m.raise evt en b src).movers = m.movers ∧ (m.raise evt en b src).octets = m.octets ∧
    (m.raise evt en b src).engines = m.engines ∧ (m.raise evt en b src).ctxs = m.ctxs ∧
    (m.raise evt en b src).whls = m.whls ∧ (m.raise evt en b src).notes = m.notes ∧ (m.raise evt en b src).evts = m.evts ∧
    (m.raise evt en b src).lan = m.lan ∧ (m.raise evt en b src).profs = m.profs ∧ (m.raise evt en b src).vms = m.vms ∧
    (m.raise evt en b src).nms = m.nms ∧ (m.raise evt en b src).axes = m.axes ∧ (m.raise evt en b src).ocus = m.ocus ∧
    (m.raise evt en b src).net = m.net ∧ (m.raise evt en b src).cans = m.cans ∧ (m.raise evt en b src).keepMem = m.keepMem ∧
    (m.raise evt en b src).hostMem = m.hostMem ∧ (m.raise evt en b src).flash = m.flash ∧
    (m.raise evt en b src).fram = m.fram ∧ (m.raise evt en b src).incNow = m.incNow ∧
    (m.raise evt en b src).movNext = m.movNext ∧ (m.raise evt en b src).entries = m.entries ∧
    (m.raise evt en b src).stopped = m.stopped ∧ (m.raise evt en b src).ranks = m.ranks ∧
    (m.raise evt en b src).redos = m.redos ∧ (m.raise evt en b src).pops = m.pops ∧
    (m.raise evt en b src).movUsed = m.movUsed ∧ (m.raise evt en b src).flagIns = m.flagIns ∧
    (m.raise evt en b src).xNow = m.xNow ∧ (m.raise evt en b src).alarms = m.alarms ∧
    (m.raise evt en b src).freeCtr = m.freeCtr ∧ (m.raise evt en b src).out = m.out :=
  by unfold Mach.raise; dsimp only; split <;> simp

@[simp] theorem Mach.send_fields (p : Port) (d : List Nat) :
    (m.send p d).regs = m.regs ∧ (m.send p d).tb = m.tb ∧ (m.send p d).belF = m.belF ∧ (m.send p d).belH = m.belH ∧
    (m.send p d).cores = m.cores ∧ (m.send p d).bar = m.bar ∧ (m.send p d).dic = m.dic ∧ (m.send p d).saf = m.saf ∧
    (m.send p d).pwr = m.pwr ∧ (m.send p d).chans = m.chans ∧ (m.send p d).movers = m.movers ∧
    (m.send p d).octets = m.octets ∧ (m.send p d).engines = m.engines ∧ (m.send p d).ctxs = m.ctxs ∧
    (m.send p d).whls = m.whls ∧ (m.send p d).notes = m.notes ∧ (m.send p d).evts = m.evts ∧ (m.send p d).lan = m.lan ∧
    (m.send p d).profs = m.profs ∧ (m.send p d).vms = m.vms ∧ (m.send p d).nms = m.nms ∧ (m.send p d).axes = m.axes ∧
    (m.send p d).ocus = m.ocus ∧ (m.send p d).net = m.net ∧ (m.send p d).cans = m.cans ∧ (m.send p d).keepMem = m.keepMem ∧
    (m.send p d).hostMem = m.hostMem ∧ (m.send p d).flash = m.flash ∧ (m.send p d).fram = m.fram ∧
    (m.send p d).setNow = m.setNow ∧ (m.send p d).incNow = m.incNow ∧ (m.send p d).movNext = m.movNext ∧
    (m.send p d).entries = m.entries ∧ (m.send p d).stopped = m.stopped ∧ (m.send p d).ranks = m.ranks ∧
    (m.send p d).redos = m.redos ∧ (m.send p d).pops = m.pops ∧ (m.send p d).movUsed = m.movUsed ∧
    (m.send p d).asserts = m.asserts ∧ (m.send p d).flagIns = m.flagIns ∧ (m.send p d).xNow = m.xNow ∧
    (m.send p d).alarms = m.alarms ∧ (m.send p d).freeCtr = m.freeCtr :=
  by simp [Mach.send]

@[simp] theorem Mach.alarm_fields (c : Nat) :
    (m.alarm c).regs = m.regs ∧ (m.alarm c).tb = m.tb ∧ (m.alarm c).belF = m.belF ∧ (m.alarm c).belH = m.belH ∧
    (m.alarm c).cores = m.cores ∧ (m.alarm c).bar = m.bar ∧ (m.alarm c).dic = m.dic ∧ (m.alarm c).saf = m.saf ∧
    (m.alarm c).pwr = m.pwr ∧ (m.alarm c).chans = m.chans ∧ (m.alarm c).movers = m.movers ∧ (m.alarm c).octets = m.octets ∧
    (m.alarm c).engines = m.engines ∧ (m.alarm c).ctxs = m.ctxs ∧ (m.alarm c).whls = m.whls ∧ (m.alarm c).notes = m.notes ∧
    (m.alarm c).evts = m.evts ∧ (m.alarm c).lan = m.lan ∧ (m.alarm c).profs = m.profs ∧ (m.alarm c).vms = m.vms ∧
    (m.alarm c).nms = m.nms ∧ (m.alarm c).axes = m.axes ∧ (m.alarm c).ocus = m.ocus ∧ (m.alarm c).net = m.net ∧
    (m.alarm c).cans = m.cans ∧ (m.alarm c).keepMem = m.keepMem ∧ (m.alarm c).hostMem = m.hostMem ∧
    (m.alarm c).flash = m.flash ∧ (m.alarm c).fram = m.fram ∧ (m.alarm c).setNow = m.setNow ∧ (m.alarm c).incNow = m.incNow ∧
    (m.alarm c).movNext = m.movNext ∧ (m.alarm c).entries = m.entries ∧ (m.alarm c).stopped = m.stopped ∧
    (m.alarm c).ranks = m.ranks ∧ (m.alarm c).redos = m.redos ∧ (m.alarm c).pops = m.pops ∧ (m.alarm c).movUsed = m.movUsed ∧
    (m.alarm c).asserts = m.asserts ∧ (m.alarm c).flagIns = m.flagIns ∧ (m.alarm c).xNow = m.xNow ∧
    (m.alarm c).freeCtr = m.freeCtr ∧ (m.alarm c).out = m.out :=
  by simp [Mach.alarm]

@[simp] theorem Mach.note_fields (n : Note) :
    (m.note n).regs = m.regs ∧ (m.note n).tb = m.tb ∧ (m.note n).belF = m.belF ∧ (m.note n).belH = m.belH ∧
    (m.note n).cores = m.cores ∧ (m.note n).bar = m.bar ∧ (m.note n).dic = m.dic ∧ (m.note n).saf = m.saf ∧
    (m.note n).pwr = m.pwr ∧ (m.note n).chans = m.chans ∧ (m.note n).movers = m.movers ∧ (m.note n).octets = m.octets ∧
    (m.note n).engines = m.engines ∧ (m.note n).ctxs = m.ctxs ∧ (m.note n).whls = m.whls ∧ (m.note n).evts = m.evts ∧
    (m.note n).lan = m.lan ∧ (m.note n).profs = m.profs ∧ (m.note n).vms = m.vms ∧ (m.note n).nms = m.nms ∧
    (m.note n).axes = m.axes ∧ (m.note n).ocus = m.ocus ∧ (m.note n).net = m.net ∧ (m.note n).cans = m.cans ∧
    (m.note n).keepMem = m.keepMem ∧ (m.note n).hostMem = m.hostMem ∧ (m.note n).flash = m.flash ∧ (m.note n).fram = m.fram ∧
    (m.note n).setNow = m.setNow ∧ (m.note n).incNow = m.incNow ∧ (m.note n).movNext = m.movNext ∧
    (m.note n).entries = m.entries ∧ (m.note n).stopped = m.stopped ∧ (m.note n).ranks = m.ranks ∧
    (m.note n).redos = m.redos ∧ (m.note n).pops = m.pops ∧ (m.note n).movUsed = m.movUsed ∧ (m.note n).asserts = m.asserts ∧
    (m.note n).flagIns = m.flagIns ∧ (m.note n).xNow = m.xNow ∧ (m.note n).alarms = m.alarms ∧
    (m.note n).freeCtr = m.freeCtr ∧ (m.note n).out = m.out :=
  by simp [Mach.note]

@[simp] theorem Mach.free_fields  :
    (m.free.2).regs = m.regs ∧ (m.free.2).tb = m.tb ∧ (m.free.2).belF = m.belF ∧ (m.free.2).belH = m.belH ∧
    (m.free.2).cores = m.cores ∧ (m.free.2).bar = m.bar ∧ (m.free.2).dic = m.dic ∧ (m.free.2).saf = m.saf ∧
    (m.free.2).pwr = m.pwr ∧ (m.free.2).chans = m.chans ∧ (m.free.2).movers = m.movers ∧ (m.free.2).octets = m.octets ∧
    (m.free.2).engines = m.engines ∧ (m.free.2).ctxs = m.ctxs ∧ (m.free.2).whls = m.whls ∧ (m.free.2).notes = m.notes ∧
    (m.free.2).evts = m.evts ∧ (m.free.2).lan = m.lan ∧ (m.free.2).profs = m.profs ∧ (m.free.2).vms = m.vms ∧
    (m.free.2).nms = m.nms ∧ (m.free.2).axes = m.axes ∧ (m.free.2).ocus = m.ocus ∧ (m.free.2).net = m.net ∧
    (m.free.2).cans = m.cans ∧ (m.free.2).keepMem = m.keepMem ∧ (m.free.2).hostMem = m.hostMem ∧ (m.free.2).flash = m.flash ∧
    (m.free.2).fram = m.fram ∧ (m.free.2).setNow = m.setNow ∧ (m.free.2).incNow = m.incNow ∧ (m.free.2).movNext = m.movNext ∧
    (m.free.2).entries = m.entries ∧ (m.free.2).stopped = m.stopped ∧ (m.free.2).ranks = m.ranks ∧
    (m.free.2).redos = m.redos ∧ (m.free.2).pops = m.pops ∧ (m.free.2).movUsed = m.movUsed ∧ (m.free.2).asserts = m.asserts ∧
    (m.free.2).flagIns = m.flagIns ∧ (m.free.2).xNow = m.xNow ∧ (m.free.2).alarms = m.alarms ∧ (m.free.2).out = m.out :=
  by simp [Mach.free]

@[simp] theorem Mach.setCore_fields (i : Nat) (c : Core) :
    (m.setCore i c).regs = m.regs ∧ (m.setCore i c).tb = m.tb ∧ (m.setCore i c).belF = m.belF ∧
    (m.setCore i c).belH = m.belH ∧ (m.setCore i c).bar = m.bar ∧ (m.setCore i c).dic = m.dic ∧ (m.setCore i c).saf = m.saf ∧
    (m.setCore i c).pwr = m.pwr ∧ (m.setCore i c).chans = m.chans ∧ (m.setCore i c).movers = m.movers ∧
    (m.setCore i c).octets = m.octets ∧ (m.setCore i c).engines = m.engines ∧ (m.setCore i c).ctxs = m.ctxs ∧
    (m.setCore i c).whls = m.whls ∧ (m.setCore i c).notes = m.notes ∧ (m.setCore i c).evts = m.evts ∧
    (m.setCore i c).lan = m.lan ∧ (m.setCore i c).profs = m.profs ∧ (m.setCore i c).vms = m.vms ∧
    (m.setCore i c).nms = m.nms ∧ (m.setCore i c).axes = m.axes ∧ (m.setCore i c).ocus = m.ocus ∧
    (m.setCore i c).net = m.net ∧ (m.setCore i c).cans = m.cans ∧ (m.setCore i c).keepMem = m.keepMem ∧
    (m.setCore i c).hostMem = m.hostMem ∧ (m.setCore i c).flash = m.flash ∧ (m.setCore i c).fram = m.fram ∧
    (m.setCore i c).setNow = m.setNow ∧ (m.setCore i c).incNow = m.incNow ∧ (m.setCore i c).movNext = m.movNext ∧
    (m.setCore i c).entries = m.entries ∧ (m.setCore i c).stopped = m.stopped ∧ (m.setCore i c).ranks = m.ranks ∧
    (m.setCore i c).redos = m.redos ∧ (m.setCore i c).pops = m.pops ∧ (m.setCore i c).movUsed = m.movUsed ∧
    (m.setCore i c).asserts = m.asserts ∧ (m.setCore i c).flagIns = m.flagIns ∧ (m.setCore i c).xNow = m.xNow ∧
    (m.setCore i c).alarms = m.alarms ∧ (m.setCore i c).freeCtr = m.freeCtr ∧ (m.setCore i c).out = m.out :=
  by simp [Mach.setCore]

@[simp] theorem Mach.updCore_fields (i : Nat) (f : Core → Core) :
    (m.updCore i f).regs = m.regs ∧ (m.updCore i f).tb = m.tb ∧ (m.updCore i f).belF = m.belF ∧
    (m.updCore i f).belH = m.belH ∧ (m.updCore i f).bar = m.bar ∧ (m.updCore i f).dic = m.dic ∧ (m.updCore i f).saf = m.saf ∧
    (m.updCore i f).pwr = m.pwr ∧ (m.updCore i f).chans = m.chans ∧ (m.updCore i f).movers = m.movers ∧
    (m.updCore i f).octets = m.octets ∧ (m.updCore i f).engines = m.engines ∧ (m.updCore i f).ctxs = m.ctxs ∧
    (m.updCore i f).whls = m.whls ∧ (m.updCore i f).notes = m.notes ∧ (m.updCore i f).evts = m.evts ∧
    (m.updCore i f).lan = m.lan ∧ (m.updCore i f).profs = m.profs ∧ (m.updCore i f).vms = m.vms ∧
    (m.updCore i f).nms = m.nms ∧ (m.updCore i f).axes = m.axes ∧ (m.updCore i f).ocus = m.ocus ∧
    (m.updCore i f).net = m.net ∧ (m.updCore i f).cans = m.cans ∧ (m.updCore i f).keepMem = m.keepMem ∧
    (m.updCore i f).hostMem = m.hostMem ∧ (m.updCore i f).flash = m.flash ∧ (m.updCore i f).fram = m.fram ∧
    (m.updCore i f).setNow = m.setNow ∧ (m.updCore i f).incNow = m.incNow ∧ (m.updCore i f).movNext = m.movNext ∧
    (m.updCore i f).entries = m.entries ∧ (m.updCore i f).stopped = m.stopped ∧ (m.updCore i f).ranks = m.ranks ∧
    (m.updCore i f).redos = m.redos ∧ (m.updCore i f).pops = m.pops ∧ (m.updCore i f).movUsed = m.movUsed ∧
    (m.updCore i f).asserts = m.asserts ∧ (m.updCore i f).flagIns = m.flagIns ∧ (m.updCore i f).xNow = m.xNow ∧
    (m.updCore i f).alarms = m.alarms ∧ (m.updCore i f).freeCtr = m.freeCtr ∧ (m.updCore i f).out = m.out :=
  by simp [Mach.updCore]

@[simp] theorem Mach.class7_fields (i c : Nat) :
    (m.class7 i c).regs = m.regs ∧ (m.class7 i c).tb = m.tb ∧ (m.class7 i c).belF = m.belF ∧ (m.class7 i c).belH = m.belH ∧
    (m.class7 i c).bar = m.bar ∧ (m.class7 i c).dic = m.dic ∧ (m.class7 i c).saf = m.saf ∧ (m.class7 i c).pwr = m.pwr ∧
    (m.class7 i c).chans = m.chans ∧ (m.class7 i c).movers = m.movers ∧ (m.class7 i c).octets = m.octets ∧
    (m.class7 i c).engines = m.engines ∧ (m.class7 i c).ctxs = m.ctxs ∧ (m.class7 i c).whls = m.whls ∧
    (m.class7 i c).notes = m.notes ∧ (m.class7 i c).evts = m.evts ∧ (m.class7 i c).lan = m.lan ∧
    (m.class7 i c).profs = m.profs ∧ (m.class7 i c).vms = m.vms ∧ (m.class7 i c).nms = m.nms ∧ (m.class7 i c).axes = m.axes ∧
    (m.class7 i c).ocus = m.ocus ∧ (m.class7 i c).net = m.net ∧ (m.class7 i c).cans = m.cans ∧
    (m.class7 i c).keepMem = m.keepMem ∧ (m.class7 i c).hostMem = m.hostMem ∧ (m.class7 i c).flash = m.flash ∧
    (m.class7 i c).fram = m.fram ∧ (m.class7 i c).setNow = m.setNow ∧ (m.class7 i c).incNow = m.incNow ∧
    (m.class7 i c).movNext = m.movNext ∧ (m.class7 i c).entries = m.entries ∧ (m.class7 i c).stopped = m.stopped ∧
    (m.class7 i c).ranks = m.ranks ∧ (m.class7 i c).redos = m.redos ∧ (m.class7 i c).pops = m.pops ∧
    (m.class7 i c).movUsed = m.movUsed ∧ (m.class7 i c).asserts = m.asserts ∧ (m.class7 i c).flagIns = m.flagIns ∧
    (m.class7 i c).xNow = m.xNow ∧ (m.class7 i c).alarms = m.alarms ∧ (m.class7 i c).freeCtr = m.freeCtr ∧
    (m.class7 i c).out = m.out :=
  by simp [Mach.class7]

@[simp] theorem Mach.updEnd_fields (s : Side) (f : BarEnd → BarEnd) :
    (m.updEnd s f).regs = m.regs ∧ (m.updEnd s f).tb = m.tb ∧ (m.updEnd s f).belF = m.belF ∧ (m.updEnd s f).belH = m.belH ∧
    (m.updEnd s f).cores = m.cores ∧ (m.updEnd s f).dic = m.dic ∧ (m.updEnd s f).saf = m.saf ∧ (m.updEnd s f).pwr = m.pwr ∧
    (m.updEnd s f).chans = m.chans ∧ (m.updEnd s f).movers = m.movers ∧ (m.updEnd s f).octets = m.octets ∧
    (m.updEnd s f).engines = m.engines ∧ (m.updEnd s f).ctxs = m.ctxs ∧ (m.updEnd s f).whls = m.whls ∧
    (m.updEnd s f).notes = m.notes ∧ (m.updEnd s f).evts = m.evts ∧ (m.updEnd s f).lan = m.lan ∧
    (m.updEnd s f).profs = m.profs ∧ (m.updEnd s f).vms = m.vms ∧ (m.updEnd s f).nms = m.nms ∧ (m.updEnd s f).axes = m.axes ∧
    (m.updEnd s f).ocus = m.ocus ∧ (m.updEnd s f).net = m.net ∧ (m.updEnd s f).cans = m.cans ∧
    (m.updEnd s f).keepMem = m.keepMem ∧ (m.updEnd s f).hostMem = m.hostMem ∧ (m.updEnd s f).flash = m.flash ∧
    (m.updEnd s f).fram = m.fram ∧ (m.updEnd s f).setNow = m.setNow ∧ (m.updEnd s f).incNow = m.incNow ∧
    (m.updEnd s f).movNext = m.movNext ∧ (m.updEnd s f).entries = m.entries ∧ (m.updEnd s f).stopped = m.stopped ∧
    (m.updEnd s f).ranks = m.ranks ∧ (m.updEnd s f).redos = m.redos ∧ (m.updEnd s f).pops = m.pops ∧
    (m.updEnd s f).movUsed = m.movUsed ∧ (m.updEnd s f).asserts = m.asserts ∧ (m.updEnd s f).flagIns = m.flagIns ∧
    (m.updEnd s f).xNow = m.xNow ∧ (m.updEnd s f).alarms = m.alarms ∧ (m.updEnd s f).freeCtr = m.freeCtr ∧
    (m.updEnd s f).out = m.out :=
  by cases s <;> simp [Mach.updEnd]

@[simp] theorem Mach.setBel_fields (s : Side) (b : Belfry) :
    (m.setBel s b).regs = m.regs ∧ (m.setBel s b).tb = m.tb ∧ (m.setBel s b).cores = m.cores ∧ (m.setBel s b).bar = m.bar ∧
    (m.setBel s b).dic = m.dic ∧ (m.setBel s b).saf = m.saf ∧ (m.setBel s b).pwr = m.pwr ∧ (m.setBel s b).chans = m.chans ∧
    (m.setBel s b).movers = m.movers ∧ (m.setBel s b).octets = m.octets ∧ (m.setBel s b).engines = m.engines ∧
    (m.setBel s b).ctxs = m.ctxs ∧ (m.setBel s b).whls = m.whls ∧ (m.setBel s b).notes = m.notes ∧
    (m.setBel s b).evts = m.evts ∧ (m.setBel s b).lan = m.lan ∧ (m.setBel s b).profs = m.profs ∧ (m.setBel s b).vms = m.vms ∧
    (m.setBel s b).nms = m.nms ∧ (m.setBel s b).axes = m.axes ∧ (m.setBel s b).ocus = m.ocus ∧ (m.setBel s b).net = m.net ∧
    (m.setBel s b).cans = m.cans ∧ (m.setBel s b).keepMem = m.keepMem ∧ (m.setBel s b).hostMem = m.hostMem ∧
    (m.setBel s b).flash = m.flash ∧ (m.setBel s b).fram = m.fram ∧ (m.setBel s b).setNow = m.setNow ∧
    (m.setBel s b).incNow = m.incNow ∧ (m.setBel s b).movNext = m.movNext ∧ (m.setBel s b).entries = m.entries ∧
    (m.setBel s b).stopped = m.stopped ∧ (m.setBel s b).ranks = m.ranks ∧ (m.setBel s b).redos = m.redos ∧
    (m.setBel s b).pops = m.pops ∧ (m.setBel s b).movUsed = m.movUsed ∧ (m.setBel s b).asserts = m.asserts ∧
    (m.setBel s b).flagIns = m.flagIns ∧ (m.setBel s b).xNow = m.xNow ∧ (m.setBel s b).alarms = m.alarms ∧
    (m.setBel s b).freeCtr = m.freeCtr ∧ (m.setBel s b).out = m.out :=
  by cases s <;> simp [Mach.setBel]

@[simp] theorem Mach.setSrc_fields (s : Side) (i : Nat) (x : Src) :
    (m.setSrc s i x).regs = m.regs ∧ (m.setSrc s i x).tb = m.tb ∧ (m.setSrc s i x).cores = m.cores ∧
    (m.setSrc s i x).bar = m.bar ∧ (m.setSrc s i x).dic = m.dic ∧ (m.setSrc s i x).saf = m.saf ∧
    (m.setSrc s i x).pwr = m.pwr ∧ (m.setSrc s i x).chans = m.chans ∧ (m.setSrc s i x).movers = m.movers ∧
    (m.setSrc s i x).octets = m.octets ∧ (m.setSrc s i x).engines = m.engines ∧ (m.setSrc s i x).ctxs = m.ctxs ∧
    (m.setSrc s i x).whls = m.whls ∧ (m.setSrc s i x).notes = m.notes ∧ (m.setSrc s i x).evts = m.evts ∧
    (m.setSrc s i x).lan = m.lan ∧ (m.setSrc s i x).profs = m.profs ∧ (m.setSrc s i x).vms = m.vms ∧
    (m.setSrc s i x).nms = m.nms ∧ (m.setSrc s i x).axes = m.axes ∧ (m.setSrc s i x).ocus = m.ocus ∧
    (m.setSrc s i x).net = m.net ∧ (m.setSrc s i x).cans = m.cans ∧ (m.setSrc s i x).keepMem = m.keepMem ∧
    (m.setSrc s i x).hostMem = m.hostMem ∧ (m.setSrc s i x).flash = m.flash ∧ (m.setSrc s i x).fram = m.fram ∧
    (m.setSrc s i x).setNow = m.setNow ∧ (m.setSrc s i x).incNow = m.incNow ∧ (m.setSrc s i x).movNext = m.movNext ∧
    (m.setSrc s i x).entries = m.entries ∧ (m.setSrc s i x).stopped = m.stopped ∧ (m.setSrc s i x).ranks = m.ranks ∧
    (m.setSrc s i x).redos = m.redos ∧ (m.setSrc s i x).pops = m.pops ∧ (m.setSrc s i x).movUsed = m.movUsed ∧
    (m.setSrc s i x).asserts = m.asserts ∧ (m.setSrc s i x).flagIns = m.flagIns ∧ (m.setSrc s i x).xNow = m.xNow ∧
    (m.setSrc s i x).alarms = m.alarms ∧ (m.setSrc s i x).freeCtr = m.freeCtr ∧ (m.setSrc s i x).out = m.out :=
  by cases s <;> simp [Mach.setSrc]

@[simp] theorem Mach.setGrp_fields (s : Side) (i : Nat) (x : Grp) :
    (m.setGrp s i x).regs = m.regs ∧ (m.setGrp s i x).tb = m.tb ∧ (m.setGrp s i x).cores = m.cores ∧
    (m.setGrp s i x).bar = m.bar ∧ (m.setGrp s i x).dic = m.dic ∧ (m.setGrp s i x).saf = m.saf ∧
    (m.setGrp s i x).pwr = m.pwr ∧ (m.setGrp s i x).chans = m.chans ∧ (m.setGrp s i x).movers = m.movers ∧
    (m.setGrp s i x).octets = m.octets ∧ (m.setGrp s i x).engines = m.engines ∧ (m.setGrp s i x).ctxs = m.ctxs ∧
    (m.setGrp s i x).whls = m.whls ∧ (m.setGrp s i x).notes = m.notes ∧ (m.setGrp s i x).evts = m.evts ∧
    (m.setGrp s i x).lan = m.lan ∧ (m.setGrp s i x).profs = m.profs ∧ (m.setGrp s i x).vms = m.vms ∧
    (m.setGrp s i x).nms = m.nms ∧ (m.setGrp s i x).axes = m.axes ∧ (m.setGrp s i x).ocus = m.ocus ∧
    (m.setGrp s i x).net = m.net ∧ (m.setGrp s i x).cans = m.cans ∧ (m.setGrp s i x).keepMem = m.keepMem ∧
    (m.setGrp s i x).hostMem = m.hostMem ∧ (m.setGrp s i x).flash = m.flash ∧ (m.setGrp s i x).fram = m.fram ∧
    (m.setGrp s i x).setNow = m.setNow ∧ (m.setGrp s i x).incNow = m.incNow ∧ (m.setGrp s i x).movNext = m.movNext ∧
    (m.setGrp s i x).entries = m.entries ∧ (m.setGrp s i x).stopped = m.stopped ∧ (m.setGrp s i x).ranks = m.ranks ∧
    (m.setGrp s i x).redos = m.redos ∧ (m.setGrp s i x).pops = m.pops ∧ (m.setGrp s i x).movUsed = m.movUsed ∧
    (m.setGrp s i x).asserts = m.asserts ∧ (m.setGrp s i x).flagIns = m.flagIns ∧ (m.setGrp s i x).xNow = m.xNow ∧
    (m.setGrp s i x).alarms = m.alarms ∧ (m.setGrp s i x).freeCtr = m.freeCtr ∧ (m.setGrp s i x).out = m.out :=
  by cases s <;> simp [Mach.setGrp]

@[simp] theorem Mach.setChan_fields (c : Nat) (x : Chan) :
    (m.setChan c x).regs = m.regs ∧ (m.setChan c x).tb = m.tb ∧ (m.setChan c x).belF = m.belF ∧
    (m.setChan c x).belH = m.belH ∧ (m.setChan c x).cores = m.cores ∧ (m.setChan c x).bar = m.bar ∧
    (m.setChan c x).dic = m.dic ∧ (m.setChan c x).saf = m.saf ∧ (m.setChan c x).pwr = m.pwr ∧
    (m.setChan c x).movers = m.movers ∧ (m.setChan c x).octets = m.octets ∧ (m.setChan c x).engines = m.engines ∧
    (m.setChan c x).ctxs = m.ctxs ∧ (m.setChan c x).whls = m.whls ∧ (m.setChan c x).notes = m.notes ∧
    (m.setChan c x).evts = m.evts ∧ (m.setChan c x).lan = m.lan ∧ (m.setChan c x).profs = m.profs ∧
    (m.setChan c x).vms = m.vms ∧ (m.setChan c x).nms = m.nms ∧ (m.setChan c x).axes = m.axes ∧
    (m.setChan c x).ocus = m.ocus ∧ (m.setChan c x).net = m.net ∧ (m.setChan c x).cans = m.cans ∧
    (m.setChan c x).keepMem = m.keepMem ∧ (m.setChan c x).hostMem = m.hostMem ∧ (m.setChan c x).flash = m.flash ∧
    (m.setChan c x).fram = m.fram ∧ (m.setChan c x).setNow = m.setNow ∧ (m.setChan c x).incNow = m.incNow ∧
    (m.setChan c x).movNext = m.movNext ∧ (m.setChan c x).entries = m.entries ∧ (m.setChan c x).stopped = m.stopped ∧
    (m.setChan c x).ranks = m.ranks ∧ (m.setChan c x).redos = m.redos ∧ (m.setChan c x).pops = m.pops ∧
    (m.setChan c x).movUsed = m.movUsed ∧ (m.setChan c x).asserts = m.asserts ∧ (m.setChan c x).flagIns = m.flagIns ∧
    (m.setChan c x).xNow = m.xNow ∧ (m.setChan c x).alarms = m.alarms ∧ (m.setChan c x).freeCtr = m.freeCtr ∧
    (m.setChan c x).out = m.out :=
  by simp [Mach.setChan]

@[simp] theorem Mach.updChan_fields (c : Nat) (f : Chan → Chan) :
    (m.updChan c f).regs = m.regs ∧ (m.updChan c f).tb = m.tb ∧ (m.updChan c f).belF = m.belF ∧
    (m.updChan c f).belH = m.belH ∧ (m.updChan c f).cores = m.cores ∧ (m.updChan c f).bar = m.bar ∧
    (m.updChan c f).dic = m.dic ∧ (m.updChan c f).saf = m.saf ∧ (m.updChan c f).pwr = m.pwr ∧
    (m.updChan c f).movers = m.movers ∧ (m.updChan c f).octets = m.octets ∧ (m.updChan c f).engines = m.engines ∧
    (m.updChan c f).ctxs = m.ctxs ∧ (m.updChan c f).whls = m.whls ∧ (m.updChan c f).notes = m.notes ∧
    (m.updChan c f).evts = m.evts ∧ (m.updChan c f).lan = m.lan ∧ (m.updChan c f).profs = m.profs ∧
    (m.updChan c f).vms = m.vms ∧ (m.updChan c f).nms = m.nms ∧ (m.updChan c f).axes = m.axes ∧
    (m.updChan c f).ocus = m.ocus ∧ (m.updChan c f).net = m.net ∧ (m.updChan c f).cans = m.cans ∧
    (m.updChan c f).keepMem = m.keepMem ∧ (m.updChan c f).hostMem = m.hostMem ∧ (m.updChan c f).flash = m.flash ∧
    (m.updChan c f).fram = m.fram ∧ (m.updChan c f).setNow = m.setNow ∧ (m.updChan c f).incNow = m.incNow ∧
    (m.updChan c f).movNext = m.movNext ∧ (m.updChan c f).entries = m.entries ∧ (m.updChan c f).stopped = m.stopped ∧
    (m.updChan c f).ranks = m.ranks ∧ (m.updChan c f).redos = m.redos ∧ (m.updChan c f).pops = m.pops ∧
    (m.updChan c f).movUsed = m.movUsed ∧ (m.updChan c f).asserts = m.asserts ∧ (m.updChan c f).flagIns = m.flagIns ∧
    (m.updChan c f).xNow = m.xNow ∧ (m.updChan c f).alarms = m.alarms ∧ (m.updChan c f).freeCtr = m.freeCtr ∧
    (m.updChan c f).out = m.out :=
  by simp [Mach.updChan]

@[simp] theorem Mach.setMov_fields (n : Nat) (x : Mover) :
    (m.setMov n x).regs = m.regs ∧ (m.setMov n x).tb = m.tb ∧ (m.setMov n x).belF = m.belF ∧ (m.setMov n x).belH = m.belH ∧
    (m.setMov n x).cores = m.cores ∧ (m.setMov n x).bar = m.bar ∧ (m.setMov n x).dic = m.dic ∧ (m.setMov n x).saf = m.saf ∧
    (m.setMov n x).pwr = m.pwr ∧ (m.setMov n x).chans = m.chans ∧ (m.setMov n x).octets = m.octets ∧
    (m.setMov n x).engines = m.engines ∧ (m.setMov n x).ctxs = m.ctxs ∧ (m.setMov n x).whls = m.whls ∧
    (m.setMov n x).notes = m.notes ∧ (m.setMov n x).evts = m.evts ∧ (m.setMov n x).lan = m.lan ∧
    (m.setMov n x).profs = m.profs ∧ (m.setMov n x).vms = m.vms ∧ (m.setMov n x).nms = m.nms ∧ (m.setMov n x).axes = m.axes ∧
    (m.setMov n x).ocus = m.ocus ∧ (m.setMov n x).net = m.net ∧ (m.setMov n x).cans = m.cans ∧
    (m.setMov n x).keepMem = m.keepMem ∧ (m.setMov n x).hostMem = m.hostMem ∧ (m.setMov n x).flash = m.flash ∧
    (m.setMov n x).fram = m.fram ∧ (m.setMov n x).setNow = m.setNow ∧ (m.setMov n x).incNow = m.incNow ∧
    (m.setMov n x).movNext = m.movNext ∧ (m.setMov n x).entries = m.entries ∧ (m.setMov n x).stopped = m.stopped ∧
    (m.setMov n x).ranks = m.ranks ∧ (m.setMov n x).redos = m.redos ∧ (m.setMov n x).pops = m.pops ∧
    (m.setMov n x).movUsed = m.movUsed ∧ (m.setMov n x).asserts = m.asserts ∧ (m.setMov n x).flagIns = m.flagIns ∧
    (m.setMov n x).xNow = m.xNow ∧ (m.setMov n x).alarms = m.alarms ∧ (m.setMov n x).freeCtr = m.freeCtr ∧
    (m.setMov n x).out = m.out :=
  by simp [Mach.setMov]

@[simp] theorem Mach.updMov_fields (n : Nat) (f : Mover → Mover) :
    (m.updMov n f).regs = m.regs ∧ (m.updMov n f).tb = m.tb ∧ (m.updMov n f).belF = m.belF ∧ (m.updMov n f).belH = m.belH ∧
    (m.updMov n f).cores = m.cores ∧ (m.updMov n f).bar = m.bar ∧ (m.updMov n f).dic = m.dic ∧ (m.updMov n f).saf = m.saf ∧
    (m.updMov n f).pwr = m.pwr ∧ (m.updMov n f).chans = m.chans ∧ (m.updMov n f).octets = m.octets ∧
    (m.updMov n f).engines = m.engines ∧ (m.updMov n f).ctxs = m.ctxs ∧ (m.updMov n f).whls = m.whls ∧
    (m.updMov n f).notes = m.notes ∧ (m.updMov n f).evts = m.evts ∧ (m.updMov n f).lan = m.lan ∧
    (m.updMov n f).profs = m.profs ∧ (m.updMov n f).vms = m.vms ∧ (m.updMov n f).nms = m.nms ∧ (m.updMov n f).axes = m.axes ∧
    (m.updMov n f).ocus = m.ocus ∧ (m.updMov n f).net = m.net ∧ (m.updMov n f).cans = m.cans ∧
    (m.updMov n f).keepMem = m.keepMem ∧ (m.updMov n f).hostMem = m.hostMem ∧ (m.updMov n f).flash = m.flash ∧
    (m.updMov n f).fram = m.fram ∧ (m.updMov n f).setNow = m.setNow ∧ (m.updMov n f).incNow = m.incNow ∧
    (m.updMov n f).movNext = m.movNext ∧ (m.updMov n f).entries = m.entries ∧ (m.updMov n f).stopped = m.stopped ∧
    (m.updMov n f).ranks = m.ranks ∧ (m.updMov n f).redos = m.redos ∧ (m.updMov n f).pops = m.pops ∧
    (m.updMov n f).movUsed = m.movUsed ∧ (m.updMov n f).asserts = m.asserts ∧ (m.updMov n f).flagIns = m.flagIns ∧
    (m.updMov n f).xNow = m.xNow ∧ (m.updMov n f).alarms = m.alarms ∧ (m.updMov n f).freeCtr = m.freeCtr ∧
    (m.updMov n f).out = m.out :=
  by simp [Mach.updMov]

@[simp] theorem Mach.setOctet_fields (n : Nat) (x : Octet) :
    (m.setOctet n x).regs = m.regs ∧ (m.setOctet n x).tb = m.tb ∧ (m.setOctet n x).belF = m.belF ∧
    (m.setOctet n x).belH = m.belH ∧ (m.setOctet n x).cores = m.cores ∧ (m.setOctet n x).bar = m.bar ∧
    (m.setOctet n x).dic = m.dic ∧ (m.setOctet n x).saf = m.saf ∧ (m.setOctet n x).pwr = m.pwr ∧
    (m.setOctet n x).chans = m.chans ∧ (m.setOctet n x).movers = m.movers ∧ (m.setOctet n x).engines = m.engines ∧
    (m.setOctet n x).ctxs = m.ctxs ∧ (m.setOctet n x).whls = m.whls ∧ (m.setOctet n x).notes = m.notes ∧
    (m.setOctet n x).evts = m.evts ∧ (m.setOctet n x).lan = m.lan ∧ (m.setOctet n x).profs = m.profs ∧
    (m.setOctet n x).vms = m.vms ∧ (m.setOctet n x).nms = m.nms ∧ (m.setOctet n x).axes = m.axes ∧
    (m.setOctet n x).ocus = m.ocus ∧ (m.setOctet n x).net = m.net ∧ (m.setOctet n x).cans = m.cans ∧
    (m.setOctet n x).keepMem = m.keepMem ∧ (m.setOctet n x).hostMem = m.hostMem ∧ (m.setOctet n x).flash = m.flash ∧
    (m.setOctet n x).fram = m.fram ∧ (m.setOctet n x).setNow = m.setNow ∧ (m.setOctet n x).incNow = m.incNow ∧
    (m.setOctet n x).movNext = m.movNext ∧ (m.setOctet n x).entries = m.entries ∧ (m.setOctet n x).stopped = m.stopped ∧
    (m.setOctet n x).ranks = m.ranks ∧ (m.setOctet n x).redos = m.redos ∧ (m.setOctet n x).pops = m.pops ∧
    (m.setOctet n x).movUsed = m.movUsed ∧ (m.setOctet n x).asserts = m.asserts ∧ (m.setOctet n x).flagIns = m.flagIns ∧
    (m.setOctet n x).xNow = m.xNow ∧ (m.setOctet n x).alarms = m.alarms ∧ (m.setOctet n x).freeCtr = m.freeCtr ∧
    (m.setOctet n x).out = m.out :=
  by simp [Mach.setOctet]

@[simp] theorem Mach.updOctet_fields (n : Nat) (f : Octet → Octet) :
    (m.updOctet n f).regs = m.regs ∧ (m.updOctet n f).tb = m.tb ∧ (m.updOctet n f).belF = m.belF ∧
    (m.updOctet n f).belH = m.belH ∧ (m.updOctet n f).cores = m.cores ∧ (m.updOctet n f).bar = m.bar ∧
    (m.updOctet n f).dic = m.dic ∧ (m.updOctet n f).saf = m.saf ∧ (m.updOctet n f).pwr = m.pwr ∧
    (m.updOctet n f).chans = m.chans ∧ (m.updOctet n f).movers = m.movers ∧ (m.updOctet n f).engines = m.engines ∧
    (m.updOctet n f).ctxs = m.ctxs ∧ (m.updOctet n f).whls = m.whls ∧ (m.updOctet n f).notes = m.notes ∧
    (m.updOctet n f).evts = m.evts ∧ (m.updOctet n f).lan = m.lan ∧ (m.updOctet n f).profs = m.profs ∧
    (m.updOctet n f).vms = m.vms ∧ (m.updOctet n f).nms = m.nms ∧ (m.updOctet n f).axes = m.axes ∧
    (m.updOctet n f).ocus = m.ocus ∧ (m.updOctet n f).net = m.net ∧ (m.updOctet n f).cans = m.cans ∧
    (m.updOctet n f).keepMem = m.keepMem ∧ (m.updOctet n f).hostMem = m.hostMem ∧ (m.updOctet n f).flash = m.flash ∧
    (m.updOctet n f).fram = m.fram ∧ (m.updOctet n f).setNow = m.setNow ∧ (m.updOctet n f).incNow = m.incNow ∧
    (m.updOctet n f).movNext = m.movNext ∧ (m.updOctet n f).entries = m.entries ∧ (m.updOctet n f).stopped = m.stopped ∧
    (m.updOctet n f).ranks = m.ranks ∧ (m.updOctet n f).redos = m.redos ∧ (m.updOctet n f).pops = m.pops ∧
    (m.updOctet n f).movUsed = m.movUsed ∧ (m.updOctet n f).asserts = m.asserts ∧ (m.updOctet n f).flagIns = m.flagIns ∧
    (m.updOctet n f).xNow = m.xNow ∧ (m.updOctet n f).alarms = m.alarms ∧ (m.updOctet n f).freeCtr = m.freeCtr ∧
    (m.updOctet n f).out = m.out :=
  by simp [Mach.updOctet]

@[simp] theorem Mach.setEngine_fields (n : Nat) (x : Engine) :
    (m.setEngine n x).regs = m.regs ∧ (m.setEngine n x).tb = m.tb ∧ (m.setEngine n x).belF = m.belF ∧
    (m.setEngine n x).belH = m.belH ∧ (m.setEngine n x).cores = m.cores ∧ (m.setEngine n x).bar = m.bar ∧
    (m.setEngine n x).dic = m.dic ∧ (m.setEngine n x).saf = m.saf ∧ (m.setEngine n x).pwr = m.pwr ∧
    (m.setEngine n x).chans = m.chans ∧ (m.setEngine n x).movers = m.movers ∧ (m.setEngine n x).octets = m.octets ∧
    (m.setEngine n x).ctxs = m.ctxs ∧ (m.setEngine n x).whls = m.whls ∧ (m.setEngine n x).notes = m.notes ∧
    (m.setEngine n x).evts = m.evts ∧ (m.setEngine n x).lan = m.lan ∧ (m.setEngine n x).profs = m.profs ∧
    (m.setEngine n x).vms = m.vms ∧ (m.setEngine n x).nms = m.nms ∧ (m.setEngine n x).axes = m.axes ∧
    (m.setEngine n x).ocus = m.ocus ∧ (m.setEngine n x).net = m.net ∧ (m.setEngine n x).cans = m.cans ∧
    (m.setEngine n x).keepMem = m.keepMem ∧ (m.setEngine n x).hostMem = m.hostMem ∧ (m.setEngine n x).flash = m.flash ∧
    (m.setEngine n x).fram = m.fram ∧ (m.setEngine n x).setNow = m.setNow ∧ (m.setEngine n x).incNow = m.incNow ∧
    (m.setEngine n x).movNext = m.movNext ∧ (m.setEngine n x).entries = m.entries ∧ (m.setEngine n x).stopped = m.stopped ∧
    (m.setEngine n x).ranks = m.ranks ∧ (m.setEngine n x).redos = m.redos ∧ (m.setEngine n x).pops = m.pops ∧
    (m.setEngine n x).movUsed = m.movUsed ∧ (m.setEngine n x).asserts = m.asserts ∧ (m.setEngine n x).flagIns = m.flagIns ∧
    (m.setEngine n x).xNow = m.xNow ∧ (m.setEngine n x).alarms = m.alarms ∧ (m.setEngine n x).freeCtr = m.freeCtr ∧
    (m.setEngine n x).out = m.out :=
  by simp [Mach.setEngine]

@[simp] theorem Mach.setCtx_fields (n : Nat) (x : Ctx) :
    (m.setCtx n x).regs = m.regs ∧ (m.setCtx n x).tb = m.tb ∧ (m.setCtx n x).belF = m.belF ∧ (m.setCtx n x).belH = m.belH ∧
    (m.setCtx n x).cores = m.cores ∧ (m.setCtx n x).bar = m.bar ∧ (m.setCtx n x).dic = m.dic ∧ (m.setCtx n x).saf = m.saf ∧
    (m.setCtx n x).pwr = m.pwr ∧ (m.setCtx n x).chans = m.chans ∧ (m.setCtx n x).movers = m.movers ∧
    (m.setCtx n x).octets = m.octets ∧ (m.setCtx n x).engines = m.engines ∧ (m.setCtx n x).whls = m.whls ∧
    (m.setCtx n x).notes = m.notes ∧ (m.setCtx n x).evts = m.evts ∧ (m.setCtx n x).lan = m.lan ∧
    (m.setCtx n x).profs = m.profs ∧ (m.setCtx n x).vms = m.vms ∧ (m.setCtx n x).nms = m.nms ∧ (m.setCtx n x).axes = m.axes ∧
    (m.setCtx n x).ocus = m.ocus ∧ (m.setCtx n x).net = m.net ∧ (m.setCtx n x).cans = m.cans ∧
    (m.setCtx n x).keepMem = m.keepMem ∧ (m.setCtx n x).hostMem = m.hostMem ∧ (m.setCtx n x).flash = m.flash ∧
    (m.setCtx n x).fram = m.fram ∧ (m.setCtx n x).setNow = m.setNow ∧ (m.setCtx n x).incNow = m.incNow ∧
    (m.setCtx n x).movNext = m.movNext ∧ (m.setCtx n x).entries = m.entries ∧ (m.setCtx n x).stopped = m.stopped ∧
    (m.setCtx n x).ranks = m.ranks ∧ (m.setCtx n x).redos = m.redos ∧ (m.setCtx n x).pops = m.pops ∧
    (m.setCtx n x).movUsed = m.movUsed ∧ (m.setCtx n x).asserts = m.asserts ∧ (m.setCtx n x).flagIns = m.flagIns ∧
    (m.setCtx n x).xNow = m.xNow ∧ (m.setCtx n x).alarms = m.alarms ∧ (m.setCtx n x).freeCtr = m.freeCtr ∧
    (m.setCtx n x).out = m.out :=
  by simp [Mach.setCtx]

@[simp] theorem Mach.updCtx_fields (n : Nat) (f : Ctx → Ctx) :
    (m.updCtx n f).regs = m.regs ∧ (m.updCtx n f).tb = m.tb ∧ (m.updCtx n f).belF = m.belF ∧ (m.updCtx n f).belH = m.belH ∧
    (m.updCtx n f).cores = m.cores ∧ (m.updCtx n f).bar = m.bar ∧ (m.updCtx n f).dic = m.dic ∧ (m.updCtx n f).saf = m.saf ∧
    (m.updCtx n f).pwr = m.pwr ∧ (m.updCtx n f).chans = m.chans ∧ (m.updCtx n f).movers = m.movers ∧
    (m.updCtx n f).octets = m.octets ∧ (m.updCtx n f).engines = m.engines ∧ (m.updCtx n f).whls = m.whls ∧
    (m.updCtx n f).notes = m.notes ∧ (m.updCtx n f).evts = m.evts ∧ (m.updCtx n f).lan = m.lan ∧
    (m.updCtx n f).profs = m.profs ∧ (m.updCtx n f).vms = m.vms ∧ (m.updCtx n f).nms = m.nms ∧ (m.updCtx n f).axes = m.axes ∧
    (m.updCtx n f).ocus = m.ocus ∧ (m.updCtx n f).net = m.net ∧ (m.updCtx n f).cans = m.cans ∧
    (m.updCtx n f).keepMem = m.keepMem ∧ (m.updCtx n f).hostMem = m.hostMem ∧ (m.updCtx n f).flash = m.flash ∧
    (m.updCtx n f).fram = m.fram ∧ (m.updCtx n f).setNow = m.setNow ∧ (m.updCtx n f).incNow = m.incNow ∧
    (m.updCtx n f).movNext = m.movNext ∧ (m.updCtx n f).entries = m.entries ∧ (m.updCtx n f).stopped = m.stopped ∧
    (m.updCtx n f).ranks = m.ranks ∧ (m.updCtx n f).redos = m.redos ∧ (m.updCtx n f).pops = m.pops ∧
    (m.updCtx n f).movUsed = m.movUsed ∧ (m.updCtx n f).asserts = m.asserts ∧ (m.updCtx n f).flagIns = m.flagIns ∧
    (m.updCtx n f).xNow = m.xNow ∧ (m.updCtx n f).alarms = m.alarms ∧ (m.updCtx n f).freeCtr = m.freeCtr ∧
    (m.updCtx n f).out = m.out :=
  by simp [Mach.updCtx]

@[simp] theorem Mach.setWhl_fields (n : Nat) (x : Whl) :
    (m.setWhl n x).regs = m.regs ∧ (m.setWhl n x).tb = m.tb ∧ (m.setWhl n x).belF = m.belF ∧ (m.setWhl n x).belH = m.belH ∧
    (m.setWhl n x).cores = m.cores ∧ (m.setWhl n x).bar = m.bar ∧ (m.setWhl n x).dic = m.dic ∧ (m.setWhl n x).saf = m.saf ∧
    (m.setWhl n x).pwr = m.pwr ∧ (m.setWhl n x).chans = m.chans ∧ (m.setWhl n x).movers = m.movers ∧
    (m.setWhl n x).octets = m.octets ∧ (m.setWhl n x).engines = m.engines ∧ (m.setWhl n x).ctxs = m.ctxs ∧
    (m.setWhl n x).notes = m.notes ∧ (m.setWhl n x).evts = m.evts ∧ (m.setWhl n x).lan = m.lan ∧
    (m.setWhl n x).profs = m.profs ∧ (m.setWhl n x).vms = m.vms ∧ (m.setWhl n x).nms = m.nms ∧ (m.setWhl n x).axes = m.axes ∧
    (m.setWhl n x).ocus = m.ocus ∧ (m.setWhl n x).net = m.net ∧ (m.setWhl n x).cans = m.cans ∧
    (m.setWhl n x).keepMem = m.keepMem ∧ (m.setWhl n x).hostMem = m.hostMem ∧ (m.setWhl n x).flash = m.flash ∧
    (m.setWhl n x).fram = m.fram ∧ (m.setWhl n x).setNow = m.setNow ∧ (m.setWhl n x).incNow = m.incNow ∧
    (m.setWhl n x).movNext = m.movNext ∧ (m.setWhl n x).entries = m.entries ∧ (m.setWhl n x).stopped = m.stopped ∧
    (m.setWhl n x).ranks = m.ranks ∧ (m.setWhl n x).redos = m.redos ∧ (m.setWhl n x).pops = m.pops ∧
    (m.setWhl n x).movUsed = m.movUsed ∧ (m.setWhl n x).asserts = m.asserts ∧ (m.setWhl n x).flagIns = m.flagIns ∧
    (m.setWhl n x).xNow = m.xNow ∧ (m.setWhl n x).alarms = m.alarms ∧ (m.setWhl n x).freeCtr = m.freeCtr ∧
    (m.setWhl n x).out = m.out :=
  by simp [Mach.setWhl]

@[simp] theorem Mach.updWhl_fields (n : Nat) (f : Whl → Whl) :
    (m.updWhl n f).regs = m.regs ∧ (m.updWhl n f).tb = m.tb ∧ (m.updWhl n f).belF = m.belF ∧ (m.updWhl n f).belH = m.belH ∧
    (m.updWhl n f).cores = m.cores ∧ (m.updWhl n f).bar = m.bar ∧ (m.updWhl n f).dic = m.dic ∧ (m.updWhl n f).saf = m.saf ∧
    (m.updWhl n f).pwr = m.pwr ∧ (m.updWhl n f).chans = m.chans ∧ (m.updWhl n f).movers = m.movers ∧
    (m.updWhl n f).octets = m.octets ∧ (m.updWhl n f).engines = m.engines ∧ (m.updWhl n f).ctxs = m.ctxs ∧
    (m.updWhl n f).notes = m.notes ∧ (m.updWhl n f).evts = m.evts ∧ (m.updWhl n f).lan = m.lan ∧
    (m.updWhl n f).profs = m.profs ∧ (m.updWhl n f).vms = m.vms ∧ (m.updWhl n f).nms = m.nms ∧ (m.updWhl n f).axes = m.axes ∧
    (m.updWhl n f).ocus = m.ocus ∧ (m.updWhl n f).net = m.net ∧ (m.updWhl n f).cans = m.cans ∧
    (m.updWhl n f).keepMem = m.keepMem ∧ (m.updWhl n f).hostMem = m.hostMem ∧ (m.updWhl n f).flash = m.flash ∧
    (m.updWhl n f).fram = m.fram ∧ (m.updWhl n f).setNow = m.setNow ∧ (m.updWhl n f).incNow = m.incNow ∧
    (m.updWhl n f).movNext = m.movNext ∧ (m.updWhl n f).entries = m.entries ∧ (m.updWhl n f).stopped = m.stopped ∧
    (m.updWhl n f).ranks = m.ranks ∧ (m.updWhl n f).redos = m.redos ∧ (m.updWhl n f).pops = m.pops ∧
    (m.updWhl n f).movUsed = m.movUsed ∧ (m.updWhl n f).asserts = m.asserts ∧ (m.updWhl n f).flagIns = m.flagIns ∧
    (m.updWhl n f).xNow = m.xNow ∧ (m.updWhl n f).alarms = m.alarms ∧ (m.updWhl n f).freeCtr = m.freeCtr ∧
    (m.updWhl n f).out = m.out :=
  by simp [Mach.updWhl]

@[simp] theorem Mach.setEvtSlot_fields (n : Nat) (x : EvtSlot) :
    (m.setEvtSlot n x).regs = m.regs ∧ (m.setEvtSlot n x).tb = m.tb ∧ (m.setEvtSlot n x).belF = m.belF ∧
    (m.setEvtSlot n x).belH = m.belH ∧ (m.setEvtSlot n x).cores = m.cores ∧ (m.setEvtSlot n x).bar = m.bar ∧
    (m.setEvtSlot n x).dic = m.dic ∧ (m.setEvtSlot n x).saf = m.saf ∧ (m.setEvtSlot n x).pwr = m.pwr ∧
    (m.setEvtSlot n x).chans = m.chans ∧ (m.setEvtSlot n x).movers = m.movers ∧ (m.setEvtSlot n x).octets = m.octets ∧
    (m.setEvtSlot n x).engines = m.engines ∧ (m.setEvtSlot n x).ctxs = m.ctxs ∧ (m.setEvtSlot n x).whls = m.whls ∧
    (m.setEvtSlot n x).notes = m.notes ∧ (m.setEvtSlot n x).lan = m.lan ∧ (m.setEvtSlot n x).profs = m.profs ∧
    (m.setEvtSlot n x).vms = m.vms ∧ (m.setEvtSlot n x).nms = m.nms ∧ (m.setEvtSlot n x).axes = m.axes ∧
    (m.setEvtSlot n x).ocus = m.ocus ∧ (m.setEvtSlot n x).net = m.net ∧ (m.setEvtSlot n x).cans = m.cans ∧
    (m.setEvtSlot n x).keepMem = m.keepMem ∧ (m.setEvtSlot n x).hostMem = m.hostMem ∧ (m.setEvtSlot n x).flash = m.flash ∧
    (m.setEvtSlot n x).fram = m.fram ∧ (m.setEvtSlot n x).setNow = m.setNow ∧ (m.setEvtSlot n x).incNow = m.incNow ∧
    (m.setEvtSlot n x).movNext = m.movNext ∧ (m.setEvtSlot n x).entries = m.entries ∧
    (m.setEvtSlot n x).stopped = m.stopped ∧ (m.setEvtSlot n x).ranks = m.ranks ∧ (m.setEvtSlot n x).redos = m.redos ∧
    (m.setEvtSlot n x).pops = m.pops ∧ (m.setEvtSlot n x).movUsed = m.movUsed ∧ (m.setEvtSlot n x).asserts = m.asserts ∧
    (m.setEvtSlot n x).flagIns = m.flagIns ∧ (m.setEvtSlot n x).xNow = m.xNow ∧ (m.setEvtSlot n x).alarms = m.alarms ∧
    (m.setEvtSlot n x).freeCtr = m.freeCtr ∧ (m.setEvtSlot n x).out = m.out :=
  by simp [Mach.setEvtSlot]

@[simp] theorem Mach.updEvt_fields (n : Nat) (f : EvtSlot → EvtSlot) :
    (m.updEvt n f).regs = m.regs ∧ (m.updEvt n f).tb = m.tb ∧ (m.updEvt n f).belF = m.belF ∧ (m.updEvt n f).belH = m.belH ∧
    (m.updEvt n f).cores = m.cores ∧ (m.updEvt n f).bar = m.bar ∧ (m.updEvt n f).dic = m.dic ∧ (m.updEvt n f).saf = m.saf ∧
    (m.updEvt n f).pwr = m.pwr ∧ (m.updEvt n f).chans = m.chans ∧ (m.updEvt n f).movers = m.movers ∧
    (m.updEvt n f).octets = m.octets ∧ (m.updEvt n f).engines = m.engines ∧ (m.updEvt n f).ctxs = m.ctxs ∧
    (m.updEvt n f).whls = m.whls ∧ (m.updEvt n f).notes = m.notes ∧ (m.updEvt n f).lan = m.lan ∧
    (m.updEvt n f).profs = m.profs ∧ (m.updEvt n f).vms = m.vms ∧ (m.updEvt n f).nms = m.nms ∧ (m.updEvt n f).axes = m.axes ∧
    (m.updEvt n f).ocus = m.ocus ∧ (m.updEvt n f).net = m.net ∧ (m.updEvt n f).cans = m.cans ∧
    (m.updEvt n f).keepMem = m.keepMem ∧ (m.updEvt n f).hostMem = m.hostMem ∧ (m.updEvt n f).flash = m.flash ∧
    (m.updEvt n f).fram = m.fram ∧ (m.updEvt n f).setNow = m.setNow ∧ (m.updEvt n f).incNow = m.incNow ∧
    (m.updEvt n f).movNext = m.movNext ∧ (m.updEvt n f).entries = m.entries ∧ (m.updEvt n f).stopped = m.stopped ∧
    (m.updEvt n f).ranks = m.ranks ∧ (m.updEvt n f).redos = m.redos ∧ (m.updEvt n f).pops = m.pops ∧
    (m.updEvt n f).movUsed = m.movUsed ∧ (m.updEvt n f).asserts = m.asserts ∧ (m.updEvt n f).flagIns = m.flagIns ∧
    (m.updEvt n f).xNow = m.xNow ∧ (m.updEvt n f).alarms = m.alarms ∧ (m.updEvt n f).freeCtr = m.freeCtr ∧
    (m.updEvt n f).out = m.out :=
  by simp [Mach.updEvt]

@[simp] theorem Mach.setLane_fields (n : Nat) (x : Lane) :
    (m.setLane n x).regs = m.regs ∧ (m.setLane n x).tb = m.tb ∧ (m.setLane n x).belF = m.belF ∧
    (m.setLane n x).belH = m.belH ∧ (m.setLane n x).cores = m.cores ∧ (m.setLane n x).bar = m.bar ∧
    (m.setLane n x).dic = m.dic ∧ (m.setLane n x).saf = m.saf ∧ (m.setLane n x).pwr = m.pwr ∧
    (m.setLane n x).chans = m.chans ∧ (m.setLane n x).movers = m.movers ∧ (m.setLane n x).octets = m.octets ∧
    (m.setLane n x).engines = m.engines ∧ (m.setLane n x).ctxs = m.ctxs ∧ (m.setLane n x).whls = m.whls ∧
    (m.setLane n x).notes = m.notes ∧ (m.setLane n x).evts = m.evts ∧ (m.setLane n x).profs = m.profs ∧
    (m.setLane n x).vms = m.vms ∧ (m.setLane n x).nms = m.nms ∧ (m.setLane n x).axes = m.axes ∧
    (m.setLane n x).ocus = m.ocus ∧ (m.setLane n x).net = m.net ∧ (m.setLane n x).cans = m.cans ∧
    (m.setLane n x).keepMem = m.keepMem ∧ (m.setLane n x).hostMem = m.hostMem ∧ (m.setLane n x).flash = m.flash ∧
    (m.setLane n x).fram = m.fram ∧ (m.setLane n x).setNow = m.setNow ∧ (m.setLane n x).incNow = m.incNow ∧
    (m.setLane n x).movNext = m.movNext ∧ (m.setLane n x).entries = m.entries ∧ (m.setLane n x).stopped = m.stopped ∧
    (m.setLane n x).ranks = m.ranks ∧ (m.setLane n x).redos = m.redos ∧ (m.setLane n x).pops = m.pops ∧
    (m.setLane n x).movUsed = m.movUsed ∧ (m.setLane n x).asserts = m.asserts ∧ (m.setLane n x).flagIns = m.flagIns ∧
    (m.setLane n x).xNow = m.xNow ∧ (m.setLane n x).alarms = m.alarms ∧ (m.setLane n x).freeCtr = m.freeCtr ∧
    (m.setLane n x).out = m.out :=
  by simp [Mach.setLane]

@[simp] theorem Mach.updLane_fields (n : Nat) (f : Lane → Lane) :
    (m.updLane n f).regs = m.regs ∧ (m.updLane n f).tb = m.tb ∧ (m.updLane n f).belF = m.belF ∧
    (m.updLane n f).belH = m.belH ∧ (m.updLane n f).cores = m.cores ∧ (m.updLane n f).bar = m.bar ∧
    (m.updLane n f).dic = m.dic ∧ (m.updLane n f).saf = m.saf ∧ (m.updLane n f).pwr = m.pwr ∧
    (m.updLane n f).chans = m.chans ∧ (m.updLane n f).movers = m.movers ∧ (m.updLane n f).octets = m.octets ∧
    (m.updLane n f).engines = m.engines ∧ (m.updLane n f).ctxs = m.ctxs ∧ (m.updLane n f).whls = m.whls ∧
    (m.updLane n f).notes = m.notes ∧ (m.updLane n f).evts = m.evts ∧ (m.updLane n f).profs = m.profs ∧
    (m.updLane n f).vms = m.vms ∧ (m.updLane n f).nms = m.nms ∧ (m.updLane n f).axes = m.axes ∧
    (m.updLane n f).ocus = m.ocus ∧ (m.updLane n f).net = m.net ∧ (m.updLane n f).cans = m.cans ∧
    (m.updLane n f).keepMem = m.keepMem ∧ (m.updLane n f).hostMem = m.hostMem ∧ (m.updLane n f).flash = m.flash ∧
    (m.updLane n f).fram = m.fram ∧ (m.updLane n f).setNow = m.setNow ∧ (m.updLane n f).incNow = m.incNow ∧
    (m.updLane n f).movNext = m.movNext ∧ (m.updLane n f).entries = m.entries ∧ (m.updLane n f).stopped = m.stopped ∧
    (m.updLane n f).ranks = m.ranks ∧ (m.updLane n f).redos = m.redos ∧ (m.updLane n f).pops = m.pops ∧
    (m.updLane n f).movUsed = m.movUsed ∧ (m.updLane n f).asserts = m.asserts ∧ (m.updLane n f).flagIns = m.flagIns ∧
    (m.updLane n f).xNow = m.xNow ∧ (m.updLane n f).alarms = m.alarms ∧ (m.updLane n f).freeCtr = m.freeCtr ∧
    (m.updLane n f).out = m.out :=
  by simp [Mach.updLane]

@[simp] theorem Mach.setProf_fields (n : Nat) (x : Prof) :
    (m.setProf n x).regs = m.regs ∧ (m.setProf n x).tb = m.tb ∧ (m.setProf n x).belF = m.belF ∧
    (m.setProf n x).belH = m.belH ∧ (m.setProf n x).cores = m.cores ∧ (m.setProf n x).bar = m.bar ∧
    (m.setProf n x).dic = m.dic ∧ (m.setProf n x).saf = m.saf ∧ (m.setProf n x).pwr = m.pwr ∧
    (m.setProf n x).chans = m.chans ∧ (m.setProf n x).movers = m.movers ∧ (m.setProf n x).octets = m.octets ∧
    (m.setProf n x).engines = m.engines ∧ (m.setProf n x).ctxs = m.ctxs ∧ (m.setProf n x).whls = m.whls ∧
    (m.setProf n x).notes = m.notes ∧ (m.setProf n x).evts = m.evts ∧ (m.setProf n x).lan = m.lan ∧
    (m.setProf n x).vms = m.vms ∧ (m.setProf n x).nms = m.nms ∧ (m.setProf n x).axes = m.axes ∧
    (m.setProf n x).ocus = m.ocus ∧ (m.setProf n x).net = m.net ∧ (m.setProf n x).cans = m.cans ∧
    (m.setProf n x).keepMem = m.keepMem ∧ (m.setProf n x).hostMem = m.hostMem ∧ (m.setProf n x).flash = m.flash ∧
    (m.setProf n x).fram = m.fram ∧ (m.setProf n x).setNow = m.setNow ∧ (m.setProf n x).incNow = m.incNow ∧
    (m.setProf n x).movNext = m.movNext ∧ (m.setProf n x).entries = m.entries ∧ (m.setProf n x).stopped = m.stopped ∧
    (m.setProf n x).ranks = m.ranks ∧ (m.setProf n x).redos = m.redos ∧ (m.setProf n x).pops = m.pops ∧
    (m.setProf n x).movUsed = m.movUsed ∧ (m.setProf n x).asserts = m.asserts ∧ (m.setProf n x).flagIns = m.flagIns ∧
    (m.setProf n x).xNow = m.xNow ∧ (m.setProf n x).alarms = m.alarms ∧ (m.setProf n x).freeCtr = m.freeCtr ∧
    (m.setProf n x).out = m.out :=
  by simp [Mach.setProf]

@[simp] theorem Mach.setVm_fields (n : Nat) (x : Vm) :
    (m.setVm n x).regs = m.regs ∧ (m.setVm n x).tb = m.tb ∧ (m.setVm n x).belF = m.belF ∧ (m.setVm n x).belH = m.belH ∧
    (m.setVm n x).cores = m.cores ∧ (m.setVm n x).bar = m.bar ∧ (m.setVm n x).dic = m.dic ∧ (m.setVm n x).saf = m.saf ∧
    (m.setVm n x).pwr = m.pwr ∧ (m.setVm n x).chans = m.chans ∧ (m.setVm n x).movers = m.movers ∧
    (m.setVm n x).octets = m.octets ∧ (m.setVm n x).engines = m.engines ∧ (m.setVm n x).ctxs = m.ctxs ∧
    (m.setVm n x).whls = m.whls ∧ (m.setVm n x).notes = m.notes ∧ (m.setVm n x).evts = m.evts ∧ (m.setVm n x).lan = m.lan ∧
    (m.setVm n x).profs = m.profs ∧ (m.setVm n x).nms = m.nms ∧ (m.setVm n x).axes = m.axes ∧ (m.setVm n x).ocus = m.ocus ∧
    (m.setVm n x).net = m.net ∧ (m.setVm n x).cans = m.cans ∧ (m.setVm n x).keepMem = m.keepMem ∧
    (m.setVm n x).hostMem = m.hostMem ∧ (m.setVm n x).flash = m.flash ∧ (m.setVm n x).fram = m.fram ∧
    (m.setVm n x).setNow = m.setNow ∧ (m.setVm n x).incNow = m.incNow ∧ (m.setVm n x).movNext = m.movNext ∧
    (m.setVm n x).entries = m.entries ∧ (m.setVm n x).stopped = m.stopped ∧ (m.setVm n x).ranks = m.ranks ∧
    (m.setVm n x).redos = m.redos ∧ (m.setVm n x).pops = m.pops ∧ (m.setVm n x).movUsed = m.movUsed ∧
    (m.setVm n x).asserts = m.asserts ∧ (m.setVm n x).flagIns = m.flagIns ∧ (m.setVm n x).xNow = m.xNow ∧
    (m.setVm n x).alarms = m.alarms ∧ (m.setVm n x).freeCtr = m.freeCtr ∧ (m.setVm n x).out = m.out :=
  by simp [Mach.setVm]

@[simp] theorem Mach.setAx_fields (n : Nat) (x : Ax) :
    (m.setAx n x).regs = m.regs ∧ (m.setAx n x).tb = m.tb ∧ (m.setAx n x).belF = m.belF ∧ (m.setAx n x).belH = m.belH ∧
    (m.setAx n x).cores = m.cores ∧ (m.setAx n x).bar = m.bar ∧ (m.setAx n x).dic = m.dic ∧ (m.setAx n x).saf = m.saf ∧
    (m.setAx n x).pwr = m.pwr ∧ (m.setAx n x).chans = m.chans ∧ (m.setAx n x).movers = m.movers ∧
    (m.setAx n x).octets = m.octets ∧ (m.setAx n x).engines = m.engines ∧ (m.setAx n x).ctxs = m.ctxs ∧
    (m.setAx n x).whls = m.whls ∧ (m.setAx n x).notes = m.notes ∧ (m.setAx n x).evts = m.evts ∧ (m.setAx n x).lan = m.lan ∧
    (m.setAx n x).profs = m.profs ∧ (m.setAx n x).vms = m.vms ∧ (m.setAx n x).nms = m.nms ∧ (m.setAx n x).ocus = m.ocus ∧
    (m.setAx n x).net = m.net ∧ (m.setAx n x).cans = m.cans ∧ (m.setAx n x).keepMem = m.keepMem ∧
    (m.setAx n x).hostMem = m.hostMem ∧ (m.setAx n x).flash = m.flash ∧ (m.setAx n x).fram = m.fram ∧
    (m.setAx n x).setNow = m.setNow ∧ (m.setAx n x).incNow = m.incNow ∧ (m.setAx n x).movNext = m.movNext ∧
    (m.setAx n x).entries = m.entries ∧ (m.setAx n x).stopped = m.stopped ∧ (m.setAx n x).ranks = m.ranks ∧
    (m.setAx n x).redos = m.redos ∧ (m.setAx n x).pops = m.pops ∧ (m.setAx n x).movUsed = m.movUsed ∧
    (m.setAx n x).asserts = m.asserts ∧ (m.setAx n x).flagIns = m.flagIns ∧ (m.setAx n x).xNow = m.xNow ∧
    (m.setAx n x).alarms = m.alarms ∧ (m.setAx n x).freeCtr = m.freeCtr ∧ (m.setAx n x).out = m.out :=
  by simp [Mach.setAx]

@[simp] theorem Mach.updAx_fields (n : Nat) (f : Ax → Ax) :
    (m.updAx n f).regs = m.regs ∧ (m.updAx n f).tb = m.tb ∧ (m.updAx n f).belF = m.belF ∧ (m.updAx n f).belH = m.belH ∧
    (m.updAx n f).cores = m.cores ∧ (m.updAx n f).bar = m.bar ∧ (m.updAx n f).dic = m.dic ∧ (m.updAx n f).saf = m.saf ∧
    (m.updAx n f).pwr = m.pwr ∧ (m.updAx n f).chans = m.chans ∧ (m.updAx n f).movers = m.movers ∧
    (m.updAx n f).octets = m.octets ∧ (m.updAx n f).engines = m.engines ∧ (m.updAx n f).ctxs = m.ctxs ∧
    (m.updAx n f).whls = m.whls ∧ (m.updAx n f).notes = m.notes ∧ (m.updAx n f).evts = m.evts ∧ (m.updAx n f).lan = m.lan ∧
    (m.updAx n f).profs = m.profs ∧ (m.updAx n f).vms = m.vms ∧ (m.updAx n f).nms = m.nms ∧ (m.updAx n f).ocus = m.ocus ∧
    (m.updAx n f).net = m.net ∧ (m.updAx n f).cans = m.cans ∧ (m.updAx n f).keepMem = m.keepMem ∧
    (m.updAx n f).hostMem = m.hostMem ∧ (m.updAx n f).flash = m.flash ∧ (m.updAx n f).fram = m.fram ∧
    (m.updAx n f).setNow = m.setNow ∧ (m.updAx n f).incNow = m.incNow ∧ (m.updAx n f).movNext = m.movNext ∧
    (m.updAx n f).entries = m.entries ∧ (m.updAx n f).stopped = m.stopped ∧ (m.updAx n f).ranks = m.ranks ∧
    (m.updAx n f).redos = m.redos ∧ (m.updAx n f).pops = m.pops ∧ (m.updAx n f).movUsed = m.movUsed ∧
    (m.updAx n f).asserts = m.asserts ∧ (m.updAx n f).flagIns = m.flagIns ∧ (m.updAx n f).xNow = m.xNow ∧
    (m.updAx n f).alarms = m.alarms ∧ (m.updAx n f).freeCtr = m.freeCtr ∧ (m.updAx n f).out = m.out :=
  by simp [Mach.updAx]

@[simp] theorem Mach.setOcu_fields (n : Nat) (x : Ocu) :
    (m.setOcu n x).regs = m.regs ∧ (m.setOcu n x).tb = m.tb ∧ (m.setOcu n x).belF = m.belF ∧ (m.setOcu n x).belH = m.belH ∧
    (m.setOcu n x).cores = m.cores ∧ (m.setOcu n x).bar = m.bar ∧ (m.setOcu n x).dic = m.dic ∧ (m.setOcu n x).saf = m.saf ∧
    (m.setOcu n x).pwr = m.pwr ∧ (m.setOcu n x).chans = m.chans ∧ (m.setOcu n x).movers = m.movers ∧
    (m.setOcu n x).octets = m.octets ∧ (m.setOcu n x).engines = m.engines ∧ (m.setOcu n x).ctxs = m.ctxs ∧
    (m.setOcu n x).whls = m.whls ∧ (m.setOcu n x).notes = m.notes ∧ (m.setOcu n x).evts = m.evts ∧
    (m.setOcu n x).lan = m.lan ∧ (m.setOcu n x).profs = m.profs ∧ (m.setOcu n x).vms = m.vms ∧ (m.setOcu n x).nms = m.nms ∧
    (m.setOcu n x).axes = m.axes ∧ (m.setOcu n x).net = m.net ∧ (m.setOcu n x).cans = m.cans ∧
    (m.setOcu n x).keepMem = m.keepMem ∧ (m.setOcu n x).hostMem = m.hostMem ∧ (m.setOcu n x).flash = m.flash ∧
    (m.setOcu n x).fram = m.fram ∧ (m.setOcu n x).setNow = m.setNow ∧ (m.setOcu n x).incNow = m.incNow ∧
    (m.setOcu n x).movNext = m.movNext ∧ (m.setOcu n x).entries = m.entries ∧ (m.setOcu n x).stopped = m.stopped ∧
    (m.setOcu n x).ranks = m.ranks ∧ (m.setOcu n x).redos = m.redos ∧ (m.setOcu n x).pops = m.pops ∧
    (m.setOcu n x).movUsed = m.movUsed ∧ (m.setOcu n x).asserts = m.asserts ∧ (m.setOcu n x).flagIns = m.flagIns ∧
    (m.setOcu n x).xNow = m.xNow ∧ (m.setOcu n x).alarms = m.alarms ∧ (m.setOcu n x).freeCtr = m.freeCtr ∧
    (m.setOcu n x).out = m.out :=
  by simp [Mach.setOcu]

@[simp] theorem Mach.updOcu_fields (n : Nat) (f : Ocu → Ocu) :
    (m.updOcu n f).regs = m.regs ∧ (m.updOcu n f).tb = m.tb ∧ (m.updOcu n f).belF = m.belF ∧ (m.updOcu n f).belH = m.belH ∧
    (m.updOcu n f).cores = m.cores ∧ (m.updOcu n f).bar = m.bar ∧ (m.updOcu n f).dic = m.dic ∧ (m.updOcu n f).saf = m.saf ∧
    (m.updOcu n f).pwr = m.pwr ∧ (m.updOcu n f).chans = m.chans ∧ (m.updOcu n f).movers = m.movers ∧
    (m.updOcu n f).octets = m.octets ∧ (m.updOcu n f).engines = m.engines ∧ (m.updOcu n f).ctxs = m.ctxs ∧
    (m.updOcu n f).whls = m.whls ∧ (m.updOcu n f).notes = m.notes ∧ (m.updOcu n f).evts = m.evts ∧
    (m.updOcu n f).lan = m.lan ∧ (m.updOcu n f).profs = m.profs ∧ (m.updOcu n f).vms = m.vms ∧ (m.updOcu n f).nms = m.nms ∧
    (m.updOcu n f).axes = m.axes ∧ (m.updOcu n f).net = m.net ∧ (m.updOcu n f).cans = m.cans ∧
    (m.updOcu n f).keepMem = m.keepMem ∧ (m.updOcu n f).hostMem = m.hostMem ∧ (m.updOcu n f).flash = m.flash ∧
    (m.updOcu n f).fram = m.fram ∧ (m.updOcu n f).setNow = m.setNow ∧ (m.updOcu n f).incNow = m.incNow ∧
    (m.updOcu n f).movNext = m.movNext ∧ (m.updOcu n f).entries = m.entries ∧ (m.updOcu n f).stopped = m.stopped ∧
    (m.updOcu n f).ranks = m.ranks ∧ (m.updOcu n f).redos = m.redos ∧ (m.updOcu n f).pops = m.pops ∧
    (m.updOcu n f).movUsed = m.movUsed ∧ (m.updOcu n f).asserts = m.asserts ∧ (m.updOcu n f).flagIns = m.flagIns ∧
    (m.updOcu n f).xNow = m.xNow ∧ (m.updOcu n f).alarms = m.alarms ∧ (m.updOcu n f).freeCtr = m.freeCtr ∧
    (m.updOcu n f).out = m.out :=
  by simp [Mach.updOcu]

end Sys2Proof.Machine
end

