-- ==== Sys2Proof/Laws/Raise.lean ====
section
/-! SUPPORT. Everything that an assertion can do when its Belfry takes it up, and what raising an event does: the
Belfries' own records, their counters, the assertions that wait for the barrier, and MSI-X messages. -/

namespace Sys2Proof.Machine

/-- The objects of Belfry counters and group counters (R413). -/
def belTouched (k : Nat) : Prop :=
  k / 256 = 0x1A00 ∨ k / 256 = 0x3E00 ∨ (0x1A20 ≤ k / 256 ∧ k / 256 < 0x1A40) ∨ (0x3E20 ≤ k / 256 ∧ k / 256 < 0x3E40)

/-- The machine changed in no more than an assertion changes. -/
structure BelStep (m m' : Mach) : Prop where
  rest : m'.tb = m.tb ∧ m'.cores = m.cores ∧ m'.dic = m.dic ∧ m'.saf = m.saf ∧ m'.pwr = m.pwr ∧ m'.chans = m.chans ∧ m'.movers
    = m.movers ∧ m'.octets = m.octets ∧ m'.engines = m.engines ∧ m'.ctxs = m.ctxs ∧ m'.whls = m.whls ∧ m'.notes = m.notes
    ∧ m'.evts = m.evts ∧ m'.lan = m.lan ∧ m'.profs = m.profs ∧ m'.vms = m.vms ∧ m'.nms = m.nms ∧ m'.axes = m.axes ∧
    m'.ocus = m.ocus ∧ m'.net = m.net ∧ m'.cans = m.cans ∧ m'.keepMem = m.keepMem ∧ m'.hostMem = m.hostMem ∧ m'.flash =
    m.flash ∧ m'.fram = m.fram ∧ m'.setNow = m.setNow ∧ m'.movNext = m.movNext ∧ m'.entries = m.entries ∧
    m'.stopped = m.stopped ∧ m'.ranks = m.ranks ∧ m'.redos = m.redos ∧
    m'.pops = m.pops ∧ m'.movUsed = m.movUsed ∧ m'.asserts = m.asserts ∧ m'.flagIns = m.flagIns ∧ m'.xNow = m.xNow ∧ m'.alarms = m.alarms ∧ m'.freeCtr = m.freeCtr
  bar : m'.bar = { m.bar with
    h := { m.bar.h with evts := m'.bar.h.evts }
    f := { m.bar.f with evts := m'.bar.f.evts } }
  sorted : mapSorted m.regs = true → mapSorted m'.regs = true
  regs : ∀ k, ¬ belTouched k → ∀ d, mapGet d k m'.regs = mapGet d k m.regs

theorem BelStep.refl (m : Mach) : BelStep m m := ⟨by simp, rfl, id, fun _ _ _ => rfl⟩

theorem BelStep.trans {a b c : Mach} (x : BelStep a b) (y : BelStep b c) : BelStep a c := by
  refine ⟨?_, ?_, fun h => y.sorted (x.sorted h), fun k hk d => (y.regs k hk d).trans (x.regs k hk d)⟩
  · have hx := x.rest
    have hy := y.rest
    simp only [hx] at hy
    exact hy
  · rw [y.bar, x.bar]

/-- A repeated operation whose every turn is such a change is one. -/
theorem BelStep.each_of {α : Type} {f : α → Mach → Mach} {l : List α} (h : ∀ a ∈ l, ∀ m, BelStep m (f a m)) (m : Mach) :
    BelStep m (m.each l f) := by
  unfold Mach.each
  induction l generalizing m with
  | nil => exact .refl m
  | cons a r ih => exact (h a (by simp) m).trans (ih (fun b hb => h b (by simp [hb])) (f a m))

theorem BelStep.each {α : Type} {f : α → Mach → Mach} (h : ∀ a m, BelStep m (f a m)) (l : List α) (m : Mach) :
    BelStep m (m.each l f) := BelStep.each_of (fun a _ => h a) m

theorem belStep_setSrc (s : Side) (i : Nat) (x : Src) (m : Mach) : BelStep m (m.setSrc s i x) := by
  cases s <;> exact ⟨by simp, rfl, id, fun _ _ _ => rfl⟩

theorem belStep_setGrp (s : Side) (i : Nat) (x : Grp) (m : Mach) : BelStep m (m.setGrp s i x) := by
  cases s <;> exact ⟨by simp, rfl, id, fun _ _ _ => rfl⟩

theorem belStep_send (p : Port) (d : List Nat) (m : Mach) : BelStep m (m.send p d) :=
  ⟨by simp, rfl, id, fun _ _ _ => rfl⟩

theorem belStep_incBy {o : Obj} (ho : belTouched o.key) (n : Nat) (m : Mach) : BelStep m (m.incBy o n) := by
  unfold Mach.incBy
  split
  · exact .refl m
  · refine ⟨by simp, rfl, fun h => mapSorted_wr h, fun k hk d => mapGet_mapSet_ne ?_ ..⟩
    intro e; exact hk (e ▸ ho)

theorem belTouched_cntSat (s : Side) : belTouched (cntSat s).key := by cases s <;> simp [belTouched, cntSat, Obj.key, R.BEL_F_CNT_SAT, R.BEL_H_CNT_SAT]

theorem belTouched_cntFwdLost (s : Side) : belTouched (cntFwdLost s).key := by
  cases s <;> simp [belTouched, cntFwdLost, Obj.key, R.BEL_F_CNT_FWD_LOST, R.BEL_H_CNT_FWD_LOST]

theorem belTouched_grpFires (s : Side) {g : Nat} (h : g < 32) : belTouched (grpFiresObj s g).key := by
  cases s <;> simp only [belTouched, grpFiresObj, Obj.key, R.BEL_F_GRP_FIRES, R.BEL_H_GRP_FIRES] <;> omega

theorem belStep_belFire (s : Side) {g : Nat} (h : g < 32) (m : Mach) : BelStep m (belFire s g m) := by
  unfold belFire
  exact ((BelStep.each (fun e m => belStep_setSrc ..) _ m).trans (belStep_setGrp ..)).trans
    (belStep_incBy (belTouched_grpFires s h) 1 _)

theorem belStep_belGroupCount (s : Side) (g n : Nat) (m : Mach) : BelStep m (belGroupCount s g n m) := by
  unfold belGroupCount
  exact belStep_setGrp ..

/-- An assertion at the holding side. -/
theorem belStep_belHold (s : Side) (id n cfg : Nat) (m : Mach) : BelStep m (belHold s id n cfg m) := by
  unfold belHold
  dsimp only
  have h := (belStep_setSrc s id
    { m.src s id with pend := true, cnt := min 15 ((m.src s id).cnt + n), sat := (m.src s id).sat || decide (0 < (m.src s id).cnt + n - 15), cfg := cfg } m).trans
    (belStep_incBy (belTouched_cntSat s) ((m.src s id).cnt + n - 15) _)
  split
  · exact h.trans (belStep_belGroupCount ..)
  · exact h

theorem belStep_evts (s : Side) (l : List (Nat × Nat)) (m : Mach) : BelStep m (m.updEnd s (fun e => { e with evts := l })) := by
  cases s <;> exact ⟨by simp, rfl, id, fun _ _ _ => rfl⟩

/-- An assertion that crosses the barrier. -/
theorem belStep_belForward (s : Side) (id : Nat) (m : Mach) : BelStep m (belForward s id m) := by
  unfold belForward
  dsimp only
  split
  · split
    · exact belStep_evts ..
    · exact (belStep_evts ..).trans (belStep_incBy (belTouched_cntSat s) 1 _)
  · exact belStep_incBy (belTouched_cntFwdLost s) 1 m

/-- An assertion takes effect (R395 to R398). -/
theorem belStep_belRoute (id : Nat) (m : Mach) : BelStep m (belRoute id m) := by
  unfold belRoute
  split
  · dsimp only
    split
    · exact .refl m
    · split
      · exact belStep_belHold ..
      · exact belStep_belForward ..
  · exact .refl m

theorem belTouched_cntFwdRx (s : Side) : belTouched (cntFwdRx s).key := by
  cases s <;> simp [belTouched, cntFwdRx, Obj.key, R.BEL_F_CNT_FWD_RX, R.BEL_H_CNT_FWD_RX]

/-- An arrival takes effect (R396). -/
theorem belStep_belTake (s : Side) (e : Nat × Nat × Nat) (m : Mach) : BelStep m (belTake s e m) :=
  (belStep_belHold s e.1 (e.2.1 % 16) e.2.2 m).trans (belStep_incBy (belTouched_cntFwdRx s) _ _)

theorem belStep_belGroupCheck (s : Side) {g : Nat} (h : g < 32) (m : Mach) : BelStep m (belGroupCheck s g m) := by
  unfold belGroupCheck
  dsimp only
  split
  · exact .refl m
  · split
    · exact belStep_belFire s h m
    · exact .refl m

/-- The fires of a tick (R407). -/
theorem belStep_belGroups (s : Side) (m : Mach) (h : ∀ e ∈ (m.bel s).grp, e.1 < 32) : BelStep m (belGroups s m) := by
  apply BelStep.each_of
  intro g hg m'
  obtain ⟨e, he, rfl⟩ := List.mem_map.mp hg
  exact belStep_belGroupCheck s (h e he) m'

@[simp] theorem raise_alarms (evt en : Obj) (b src : Nat) (m : Mach) : (m.raise evt en b src).alarms = m.alarms := by simp

@[simp] theorem raise_notes (evt en : Obj) (b src : Nat) (m : Mach) : (m.raise evt en b src).notes = m.notes := by simp

@[simp] theorem assertSrc_rd (id : Nat) (o : Obj) (m : Mach) : (m.assertSrc id).rd o = m.rd o := rfl

/-- Raising an event is setting its bit, and then at most noting an assertion. -/
theorem raise_regs (evt en : Obj) (b src : Nat) (m : Mach) : (m.raise evt en b src).regs = (m.setEvt evt b).regs := by
  unfold Mach.raise; dsimp only; split <;> rfl

/-- An object other than the event's own reads as before. -/
theorem rd_raise {evt en o : Obj} {b src : Nat} {m : Mach} (h : o.key ≠ evt.key) : (m.raise evt en b src).rd o = m.rd o := by
  rw [Mach.rd, raise_regs]
  exact mapGet_mapSet_ne h ..

/-- The event's own object holds its bit. -/
theorem rd_raise_same {evt en : Obj} {b src : Nat} {m : Mach} : (m.raise evt en b src).rd evt = setBit b (m.rd evt) := by
  rw [Mach.rd, raise_regs]
  exact mapGet_mapSet_same ..

end Sys2Proof.Machine
end

