-- ==== Sys2Proof/Laws/Settle.lean ====
section
/-! SUPPORT. What the end of a command and the form of a write command do, said once: a command with nothing to settle answers its
effect, and a write is carried out, refused or not made. -/

namespace Sys2Proof.Machine

theorem settle_quiet {m : Mach} (ha : m.alarms = []) (hn : m.notes = []) : settle m = m := by
  simp [settle, ha, hn]

@[simp] theorem answered_alarms (w : Writer) (m : Mach) : (answered w m).alarms = m.alarms := by
  cases w <;> simp [answered]

@[simp] theorem answered_notes (w : Writer) (m : Mach) : (answered w m).notes = m.notes := by
  cases w <;> simp [answered]

/-- An effect that signals no cause and no decoder happening is the whole of the command. -/
theorem done_quiet {f : Mach → Mach} {s : State} {m : Mach} (hf : f s.m = m) (ha : m.alarms = []) (hn : m.notes = []) :
    done f s = .next { s with m := m } := by
  rw [done, hf, settle_quiet ha hn]

@[simp] theorem rankNote_alarms (w : Writer) (o : Obj) (m : Mach) : (rankNote w o m).alarms = m.alarms := by
  unfold rankNote; split <;> rfl

@[simp] theorem rankNote_notes (w : Writer) (o : Obj) (m : Mach) : (rankNote w o m).notes = m.notes := by
  unfold rankNote; split <;> rfl

@[simp] theorem rankNote_rd (w : Writer) (o p : Obj) (m : Mach) : (rankNote w o m).rd p = m.rd p := by
  unfold rankNote; split <;> rfl

theorem command_carried {w : Writer} {o : Obj} {mach : Bool} {eff : Mach → Eff} {s : State} {m : Mach} (hm : May w o mach s)
    (he : eff s.m = .ok m) : command w o mach eff s.m = answered w (rankNote w o m) := by
  simp [command, commandThen, landed, hm.1, hm.2.1, hm.2.2.1, hm.2.2.2, he]

theorem command_refused {w : Writer} {o : Obj} {mach : Bool} {eff : Mach → Eff} {m : Mach} {a : Abort}
    (hl : writerLive m w = true) (hg : gate w o mach m = some a) : command w o mach eff m = refuse w o a m := by
  simp [command, commandThen, hl, hg]

theorem command_turned {w : Writer} {o : Obj} {mach : Bool} {eff : Mach → Eff} {s : State} {a : Abort} (hm : May w o mach s)
    (he : eff s.m = .error a) : command w o mach eff s.m = refuse w o a s.m := by
  simp [command, commandThen, hm.1, hm.2.1, he]

theorem command_dead {w : Writer} {o : Obj} {mach : Bool} {eff : Mach → Eff} {m : Mach} (hl : writerLive m w = false) :
    command w o mach eff m = m := by
  simp [command, commandThen, hl]

/-- A write that is carried out quietly. -/
theorem done_carried {w : Writer} {o : Obj} {mach : Bool} {eff : Mach → Eff} {s : State} {m : Mach} (hm : May w o mach s)
    (he : eff s.m = .ok m) (ha : m.alarms = []) (hn : m.notes = []) :
    done (command w o mach eff) s = .next { s with m := answered w (rankNote w o m) } :=
  done_quiet (command_carried hm he) (by simpa using ha) (by simpa using hn)

theorem done_ok {w : Writer} {o : Obj} {eff : Mach → Mach} {s : State} (hm : May w o false s) (ha : (eff s.m).alarms = [])
    (hn : (eff s.m).notes = []) : done (commandOk w o eff) s = .next { s with m := answered w (rankNote w o (eff s.m)) } :=
  done_quiet (command_carried hm rfl) (by simpa using ha) (by simpa using hn)

/-- A write that is carried out, whatever it sets off. -/
theorem done_acts {w : Writer} {o : Obj} {mach : Bool} {eff : Mach → Eff} {s : State} {m : Mach} (hm : May w o mach s)
    (he : eff s.m = .ok m) : done (command w o mach eff) s = .next { s with m := settle (answered w (rankNote w o m)) } := by
  rw [done, command_carried hm he]

theorem done_turned {w : Writer} {o : Obj} {mach : Bool} {eff : Mach → Eff} {s : State} {a : Abort} (hm : May w o mach s)
    (he : eff s.m = .error a) : done (command w o mach eff) s = .next { s with m := settle (refuse w o a s.m) } := by
  rw [done, command_turned hm he]

/-! ## Operations that leave the causes and happenings as they are -/

theorem when_alarms {b : Bool} {f : Mach → Mach} {m : Mach} (h : (f m).alarms = m.alarms) : (Mach.when b f m).alarms = m.alarms := by
  unfold Mach.when; split <;> simp [*]

theorem when_notes {b : Bool} {f : Mach → Mach} {m : Mach} (h : (f m).notes = m.notes) : (Mach.when b f m).notes = m.notes := by
  unfold Mach.when; split <;> simp [*]

theorem each_alarms {α : Type} {f : α → Mach → Mach} (h : ∀ a m, (f a m).alarms = m.alarms) (l : List α) (m : Mach) :
    (m.each l f).alarms = m.alarms := by
  unfold Mach.each
  induction l generalizing m with
  | nil => rfl
  | cons a r ih => simp [ih, h]

theorem each_notes {α : Type} {f : α → Mach → Mach} (h : ∀ a m, (f a m).notes = m.notes) (l : List α) (m : Mach) :
    (m.each l f).notes = m.notes := by
  unfold Mach.each
  induction l generalizing m with
  | nil => rfl
  | cons a r ih => simp [ih, h]

@[simp] theorem clrBits_alarms (v : Nat) (l : List Obj) (m : Mach) : (Mach.clrBits v l m).alarms = m.alarms := by
  induction l generalizing v m with
  | nil => rfl
  | cons o r ih => rw [Mach.clrBits, ih]; split <;> simp

@[simp] theorem clrBits_notes (v : Nat) (l : List Obj) (m : Mach) : (Mach.clrBits v l m).notes = m.notes := by
  induction l generalizing v m with
  | nil => rfl
  | cons o r ih => rw [Mach.clrBits, ih]; split <;> simp

end Sys2Proof.Machine
end

