-- ==== Sys2Proof/Laws/Units.lean ====
section
/-! SUPPORT. Each unit's record reads back as it was put, leaves the other units' records and every object as they
were. -/

namespace Sys2Proof.Machine

variable (m : Mach)

@[simp] theorem Mach.setWhl_same (i : Nat) (x : Whl) : (m.setWhl i x).whl i = x := mapGet_mapSet_same ..

theorem Mach.setWhl_ne {i j : Nat} (h : j ≠ i) (x : Whl) : (m.setWhl i x).whl j = m.whl j := mapGet_mapSet_ne h ..

@[simp] theorem Mach.setWhl_rd (i : Nat) (x : Whl) (o : Obj) : (m.setWhl i x).rd o = m.rd o := rfl

@[simp] theorem Mach.updWhl_same (i : Nat) (f : Whl → Whl) : (m.updWhl i f).whl i = f (m.whl i) := mapGet_mapSet_same ..

@[simp] theorem Mach.updWhl_rd (i : Nat) (f : Whl → Whl) (o : Obj) : (m.updWhl i f).rd o = m.rd o := rfl

@[simp] theorem Mach.setChan_same (i : Nat) (x : Chan) : (m.setChan i x).chan i = x := mapGet_mapSet_same ..

theorem Mach.setChan_ne {i j : Nat} (h : j ≠ i) (x : Chan) : (m.setChan i x).chan j = m.chan j := mapGet_mapSet_ne h ..

@[simp] theorem Mach.setChan_rd (i : Nat) (x : Chan) (o : Obj) : (m.setChan i x).rd o = m.rd o := rfl

@[simp] theorem Mach.updChan_same (i : Nat) (f : Chan → Chan) : (m.updChan i f).chan i = f (m.chan i) := mapGet_mapSet_same ..

@[simp] theorem Mach.updChan_rd (i : Nat) (f : Chan → Chan) (o : Obj) : (m.updChan i f).rd o = m.rd o := rfl

@[simp] theorem Mach.setOctet_same (i : Nat) (x : Octet) : (m.setOctet i x).octet i = x := mapGet_mapSet_same ..

theorem Mach.setOctet_ne {i j : Nat} (h : j ≠ i) (x : Octet) : (m.setOctet i x).octet j = m.octet j := mapGet_mapSet_ne h ..

@[simp] theorem Mach.setOctet_rd (i : Nat) (x : Octet) (o : Obj) : (m.setOctet i x).rd o = m.rd o := rfl

@[simp] theorem Mach.updOctet_same (i : Nat) (f : Octet → Octet) : (m.updOctet i f).octet i = f (m.octet i) := mapGet_mapSet_same ..

@[simp] theorem Mach.updOctet_rd (i : Nat) (f : Octet → Octet) (o : Obj) : (m.updOctet i f).rd o = m.rd o := rfl

@[simp] theorem Mach.setEngine_same (i : Nat) (x : Engine) : (m.setEngine i x).engine i = x := mapGet_mapSet_same ..

theorem Mach.setEngine_ne {i j : Nat} (h : j ≠ i) (x : Engine) : (m.setEngine i x).engine j = m.engine j := mapGet_mapSet_ne h ..

@[simp] theorem Mach.setEngine_rd (i : Nat) (x : Engine) (o : Obj) : (m.setEngine i x).rd o = m.rd o := rfl

@[simp] theorem Mach.setMov_same (i : Nat) (x : Mover) : (m.setMov i x).mov i = x := mapGet_mapSet_same ..

theorem Mach.setMov_ne {i j : Nat} (h : j ≠ i) (x : Mover) : (m.setMov i x).mov j = m.mov j := mapGet_mapSet_ne h ..

@[simp] theorem Mach.setMov_rd (i : Nat) (x : Mover) (o : Obj) : (m.setMov i x).rd o = m.rd o := rfl

@[simp] theorem Mach.updMov_same (i : Nat) (f : Mover → Mover) : (m.updMov i f).mov i = f (m.mov i) := mapGet_mapSet_same ..

@[simp] theorem Mach.updMov_rd (i : Nat) (f : Mover → Mover) (o : Obj) : (m.updMov i f).rd o = m.rd o := rfl

@[simp] theorem Mach.setCtx_same (i : Nat) (x : Ctx) : (m.setCtx i x).ctx i = x := mapGet_mapSet_same ..

theorem Mach.setCtx_ne {i j : Nat} (h : j ≠ i) (x : Ctx) : (m.setCtx i x).ctx j = m.ctx j := mapGet_mapSet_ne h ..

@[simp] theorem Mach.setCtx_rd (i : Nat) (x : Ctx) (o : Obj) : (m.setCtx i x).rd o = m.rd o := rfl

@[simp] theorem Mach.updCtx_same (i : Nat) (f : Ctx → Ctx) : (m.updCtx i f).ctx i = f (m.ctx i) := mapGet_mapSet_same ..

@[simp] theorem Mach.updCtx_rd (i : Nat) (f : Ctx → Ctx) (o : Obj) : (m.updCtx i f).rd o = m.rd o := rfl

@[simp] theorem Mach.setEvtSlot_same (i : Nat) (x : EvtSlot) : (m.setEvtSlot i x).evt i = x := mapGet_mapSet_same ..

theorem Mach.setEvtSlot_ne {i j : Nat} (h : j ≠ i) (x : EvtSlot) : (m.setEvtSlot i x).evt j = m.evt j := mapGet_mapSet_ne h ..

@[simp] theorem Mach.setEvtSlot_rd (i : Nat) (x : EvtSlot) (o : Obj) : (m.setEvtSlot i x).rd o = m.rd o := rfl

@[simp] theorem Mach.updEvt_same (i : Nat) (f : EvtSlot → EvtSlot) : (m.updEvt i f).evt i = f (m.evt i) := mapGet_mapSet_same ..

@[simp] theorem Mach.updEvt_rd (i : Nat) (f : EvtSlot → EvtSlot) (o : Obj) : (m.updEvt i f).rd o = m.rd o := rfl

@[simp] theorem Mach.setLane_same (i : Nat) (x : Lane) : (m.setLane i x).lane i = x := mapGet_mapSet_same ..

theorem Mach.setLane_ne {i j : Nat} (h : j ≠ i) (x : Lane) : (m.setLane i x).lane j = m.lane j := mapGet_mapSet_ne h ..

@[simp] theorem Mach.setLane_rd (i : Nat) (x : Lane) (o : Obj) : (m.setLane i x).rd o = m.rd o := rfl

@[simp] theorem Mach.updLane_same (i : Nat) (f : Lane → Lane) : (m.updLane i f).lane i = f (m.lane i) := mapGet_mapSet_same ..

@[simp] theorem Mach.updLane_rd (i : Nat) (f : Lane → Lane) (o : Obj) : (m.updLane i f).rd o = m.rd o := rfl

@[simp] theorem Mach.setProf_same (i : Nat) (x : Prof) : (m.setProf i x).prof i = x := mapGet_mapSet_same ..

theorem Mach.setProf_ne {i j : Nat} (h : j ≠ i) (x : Prof) : (m.setProf i x).prof j = m.prof j := mapGet_mapSet_ne h ..

@[simp] theorem Mach.setProf_rd (i : Nat) (x : Prof) (o : Obj) : (m.setProf i x).rd o = m.rd o := rfl

@[simp] theorem Mach.setVm_same (i : Nat) (x : Vm) : (m.setVm i x).vm i = x := mapGet_mapSet_same ..

theorem Mach.setVm_ne {i j : Nat} (h : j ≠ i) (x : Vm) : (m.setVm i x).vm j = m.vm j := mapGet_mapSet_ne h ..

@[simp] theorem Mach.setVm_rd (i : Nat) (x : Vm) (o : Obj) : (m.setVm i x).rd o = m.rd o := rfl

@[simp] theorem Mach.setAx_same (i : Nat) (x : Ax) : (m.setAx i x).ax i = x := mapGet_mapSet_same ..

theorem Mach.setAx_ne {i j : Nat} (h : j ≠ i) (x : Ax) : (m.setAx i x).ax j = m.ax j := mapGet_mapSet_ne h ..

@[simp] theorem Mach.setAx_rd (i : Nat) (x : Ax) (o : Obj) : (m.setAx i x).rd o = m.rd o := rfl

@[simp] theorem Mach.updAx_same (i : Nat) (f : Ax → Ax) : (m.updAx i f).ax i = f (m.ax i) := mapGet_mapSet_same ..

@[simp] theorem Mach.updAx_rd (i : Nat) (f : Ax → Ax) (o : Obj) : (m.updAx i f).rd o = m.rd o := rfl

@[simp] theorem Mach.setOcu_same (i : Nat) (x : Ocu) : (m.setOcu i x).ocu i = x := mapGet_mapSet_same ..

theorem Mach.setOcu_ne {i j : Nat} (h : j ≠ i) (x : Ocu) : (m.setOcu i x).ocu j = m.ocu j := mapGet_mapSet_ne h ..

@[simp] theorem Mach.setOcu_rd (i : Nat) (x : Ocu) (o : Obj) : (m.setOcu i x).rd o = m.rd o := rfl

@[simp] theorem Mach.updOcu_same (i : Nat) (f : Ocu → Ocu) : (m.updOcu i f).ocu i = f (m.ocu i) := mapGet_mapSet_same ..

@[simp] theorem Mach.updOcu_rd (i : Nat) (f : Ocu → Ocu) (o : Obj) : (m.updOcu i f).rd o = m.rd o := rfl

@[simp] theorem Mach.setCore_same (i : Nat) (x : Core) : (m.setCore i x).core i = x := mapGet_mapSet_same ..

theorem Mach.setCore_ne {i j : Nat} (h : j ≠ i) (x : Core) : (m.setCore i x).core j = m.core j := mapGet_mapSet_ne h ..

@[simp] theorem Mach.setCore_rd (i : Nat) (x : Core) (o : Obj) : (m.setCore i x).rd o = m.rd o := rfl

@[simp] theorem Mach.updCore_same (i : Nat) (f : Core → Core) : (m.updCore i f).core i = f (m.core i) := mapGet_mapSet_same ..

@[simp] theorem Mach.updCore_rd (i : Nat) (f : Core → Core) (o : Obj) : (m.updCore i f).rd o = m.rd o := rfl

@[simp] theorem Mach.setCan_same (i : Nat) (x : Can) : (m.setCan i x).can i = x := mapGet_mapSet_same ..

theorem Mach.setCan_ne {i j : Nat} (h : j ≠ i) (x : Can) : (m.setCan i x).can j = m.can j := mapGet_mapSet_ne h ..

@[simp] theorem Mach.setCan_rd (i : Nat) (x : Can) (o : Obj) : (m.setCan i x).rd o = m.rd o := rfl

@[simp] theorem Mach.updCan_same (i : Nat) (f : Can → Can) : (m.updCan i f).can i = f (m.can i) := mapGet_mapSet_same ..

@[simp] theorem Mach.updCan_rd (i : Nat) (f : Can → Can) (o : Obj) : (m.updCan i f).rd o = m.rd o := rfl

end Sys2Proof.Machine
end

