-- ==== Sys2Proof/Tests/Slice0.lean ====
section
/-! SUPPORT. The model's own tests: an ill-formed operand for each check of well-formedness; for every statement a state and operands
that meet the hypotheses of each of its clauses, with the result the spec gives there; and worked examples of the spec. Each is
about one step on a small state. -/

namespace Sys2Proof.Tests

set_option Elab.async false

open Sys2Proof.Machine

/-- The machine of a next state. -/
def nx (o : Host.Outcome State Fault Refusal) : Option Mach :=
  match o with
  | .next t => some t.m
  | _ => none

/-- A property of the machine of a next state. -/
def gives (c : Instr) (s : State) (p : Mach → Bool) : Bool := (nx (exec c s)).any p

abbrev s0 : State := State.reset

/-- A state made of the reset state. -/
def at_ (f : Mach → Mach) : State := ⟨[], f State.reset.m⟩

/-! ## Well-formedness -/

theorem test_wf_register_route : (Instr.registerWrite (.dict .pcie 0) 0 0).wf = false := by decide
set_option maxRecDepth 20000 in
theorem test_wf_request_data : (Instr.write ⟨.pcie, 0, true, 0, 0, 0, 0, 0, 0, List.replicate 241 0⟩).wf = false := by decide
set_option maxRecDepth 20000 in
theorem test_wf_request_fits : (Instr.write ⟨.pcie, 0, true, 0, 0, 0, 0, 0, 0, List.replicate 240 0⟩).wf = true := by decide
set_option maxRecDepth 20000 in
theorem test_wf_doorbell : (Instr.doorbell 0 (List.replicate 257 0)).wf = false := by decide
set_option maxRecDepth 20000 in
theorem test_wf_qspi : (Instr.qspiWriteFrame 0 (List.replicate 257 0)).wf = false := by decide
set_option maxRecDepth 20000 in
theorem test_wf_vlp : (Instr.vlpCyclic 0 ⟨0, false, 0, none, 0, none, List.replicate 1501 0⟩).wf = false := by decide
set_option maxRecDepth 20000 in
theorem test_wf_sdo : (Instr.sdoRequest 0 (List.replicate 65 0)).wf = false := by decide
set_option maxRecDepth 20000 in
theorem test_wf_rpdo : (Instr.rpdo 0 0 (List.replicate 65 0)).wf = false := by decide

/-! ## The stated rules -/

/-- R148: the last decoder's first counter, its clear bit at the lowest place, with and without an increment in the tick. -/
def sInc : State := at_ (fun m => (m.wr (R.WHL_CNT_NOISE 15) 7).inc (R.WHL_CNT_NOISE 15))

theorem wit_WheelCountersClearAndStop : Settled sInc ∧ May .keep (R.WHL_CNT_CLR 15) false sInc ∧
    (whlCounters 15)[0]? = some (R.WHL_CNT_NOISE 15) ∧ bit 0 (1 : Byte).toNat = true ∧
    sInc.m.incNow.contains (R.WHL_CNT_NOISE 15).key = true ∧ s0.m.incNow.contains (R.WHL_CNT_NOISE 15).key = false ∧
    gives (.whlCntClr .keep 15 1) sInc (fun m => m.rd (R.WHL_CNT_NOISE 15) == 1) = true ∧
    gives (.whlCntClr .keep 15 1) s0 (fun m => m.rd (R.WHL_CNT_NOISE 15) == 0) = true ∧
    gives (.whlCntClr .keep 15 0xFE) sInc (fun m => m.rd (R.WHL_CNT_NOISE 15) == 8) = true := by
  and_intros <;> decide

/-- R402: source 33 (normal, PRIO 3) and source 5 (fast, PRIO 3) stand for Keep. -/
def sBel : State := at_ (fun m => ((((m.wr (R.BEL_F_EN_SET 0) 0x20).wr (R.BEL_F_EN_SET 1) 2).setSrc .field 33
  { pend := true, cnt := 2, cfg := 0x01000300 }).setSrc .field 5 { pend := true, cnt := 1, cfg := 0x01001300 }))

theorem wit_ClaimTakesHighestPriority : Settled sBel ∧ mapSorted (sBel.m.bel .field).src = true ∧
    (belClaimable sBel.m .field (coreTarget 2) false).map (·.1) = [33] ∧
    (belClaimable sBel.m .field (coreTarget 2) true).map (·.1) = [5] ∧
    MayCore 2 0 (claimAddr 2) sBel ∧ MayCore 2 0 (claimAddr 2 + 4) sBel ∧ MayCore 2 0 (claimAddr 2 + 8) sBel ∧
    gives (.claimN 2) sBel (fun m => m.out == [⟨.load 2, [claimWord 33 { cnt := 2, cfg := 0x01000300 }]⟩]) = true ∧
    gives (.peek 2) sBel (fun m => m.out == [⟨.load 2, [claimWord 5 { cnt := 1, cfg := 0x01001300 }]⟩]) = true ∧
    belClaimable s0.m .field (coreTarget 2) false = [] ∧ belClaimable s0.m .field (coreTarget 2) true = [] ∧
    gives (.claimF 2) s0 (fun m => m.out == [⟨.load 2, [0x3FF]⟩]) = true := by
  and_intros <;> decide

set_option maxRecDepth 20000 in
theorem wit_RearmWaitsForFieldRails : May .keep R.PWR_REARM false s0 ∧ (∀ r < 13, bit r s0.m.pwr.railF = false) ∧
    bit 12 (at_ (putRailF 0x1000)).m.pwr.railF = true ∧
    gives (.pwrRearm .keep 1) s0 (fun m => m.rd (R.TRP_LATCH_CAUSE 15) == 0) = true ∧
    gives (.pwrRearm .keep 1) (at_ (putRailF 0x1000)) (fun m => (m.core 2).eact) = true := by
  and_intros <;> decide

/-- R420: the host end in HELLO, and a HELLO frame with the number it awaits; then one field of it wrong at a time. -/
def sHello : State := at_ (fun m => m.updEnd .host (fun e => { e with st := 2, lanes := 15, rxSeq := 7 }))

def helloOk : LinkFrame := ⟨true, frameBytes ⟨2, List.replicate 16 0⟩ 7⟩

set_option maxRecDepth 4000 in
theorem wit_FrameChecksInOrder : Settled sHello ∧ sHello.m.barState .host = 2 ∧ (sHello.m.barEnd .host).lanes = 15 ∧ helloOk.bytes.length = 24 ∧
    fieldAt 20 4 helloOk.bytes = crc32 (helloOk.bytes.take 20) ∧ catalogueOk .host 2 16 = true ∧
    fieldAt 2 2 helloOk.bytes = (sHello.m.barEnd .host).rxSeq ∧ (linkAccept .host helloOk sHello.m).1.isSome = true ∧
    gives (.frameDrop .host ⟨false, helloOk.bytes⟩) sHello (fun m => m.rd (cntFrame .host) == 1) = true ∧
    gives (.frameDrop .host helloOk) (at_ (fun m => m.updEnd .host (fun e => { e with st := 2, lanes := 14, rxSeq := 7 })))
      (fun m => m.rd (cntFrame .host) == 1) = true ∧
    gives (.frameDrop .host ⟨true, helloOk.bytes.set 20 0 |>.set 21 0⟩) sHello (fun m => m.rd (cntCrc .host) == 1) = true ∧
    gives (.frameDrop .host ⟨true, frameBytes ⟨21, [0]⟩ 7⟩) sHello (fun m => m.rd (cntUnknown .host) == 1) = true ∧
    gives (.frameDrop .host ⟨true, frameBytes ⟨2, List.replicate 16 0⟩ 8⟩) sHello (fun m =>
      m.rd (cntSeq .host) == 1 && (m.barEnd .host).nak) = true := by
  and_intros <;> decide

/-! ## Stated rules of persistence and of the cores -/

/-- The barrier is LINKED at both ends. -/
def linkUp (m : Mach) : Mach :=
  (m.updEnd .host (fun e => { e with st := 3, lanes := 15 })).updEnd .field (fun e => { e with st := 3, lanes := 15 })

def sLink : State := at_ linkUp
def sBusy : State := at_ (fun m => (linkUp m).wr R.DIC_PERS_STATUS 1)

theorem wit_PersistenceSignatures : Settled sLink ∧ Settled sBusy ∧ May (.spire 0) R.DIC_STORE false sLink ∧
    May (.spire 0) R.DIC_RELOAD false sLink ∧ May (.spire 0) R.DIC_FACTORY false sLink ∧
    bit 0 (sBusy.m.rd R.DIC_PERS_STATUS) = true ∧ bit 0 (sLink.m.rd R.DIC_PERS_STATUS) = false ∧
    sLink.m.linked .host = true ∧ kUnitRuns sLink.m .host = false ∧ sLink.m.bar.peerHalted = false ∧
    gives (.store (.dict .pcie 0) 0x726F7473) sLink (fun m => m.rd R.DIC_PERS_STATUS == 1 && m.dic.storeFor == .route .pcie) = true ∧
    gives (.store (.dict .pcie 0) 0x726F7474) sLink (fun m => m.rd R.DIC_LAST_ABORT == 0x00040006 || m.rd R.DIC_ABORT_COUNT == 1)
      = true ∧
    gives (.factory (.dict .pcie 0) 0x74636166) sBusy (fun m => m.rd R.DIC_ABORT_COUNT == 1) = true ∧
    gives (.factory (.spire 0) 0x74636166) sLink (fun m => m.rd R.DIC_PERS_STATUS == 1 && m.bar.factory) = true := by
  and_intros <;> decide

/-- Keep at S after an entry from U with the stack pointers exchanged. -/
def sRet : State := at_ (fun m => m.setCore 2 { m.core 2 with
  lvl := 1, xmask := 2, pc := 0x100, csr := [(0x510, 0x2000), (0x511, 0x20), (0x516, 0x77), (0x730, 0x530)], x := [(2, 0x99)] })

theorem wit_ReturnThroughSaveSet : Settled sRet ∧ Fetches 2 0x7F000073 sRet ∧ (sRet.m.core 2).lvl = 1 ∧
    bits 1 0 ((sRet.m.core 2).csrGet 0x511).toNat = 0 ∧ bit 5 ((sRet.m.core 2).csrGet 0x511).toNat = true ∧
    gives (.xret 2) sRet (fun m => (m.core 2).lvl == 0 && (m.core 2).pc == 0x2000 && (m.core 2).xmask == 0 &&
      mapGet 0 2 (m.core 2).x == 0x77 && (m.core 2).csrGet 0x516 == 0x99) = true ∧
    gives (.xret 2) (at_ (fun m => m.setCore 2 { m.core 2 with lvl := 1, xmask := 0, csr := [(0x511, 2), (0x730, 0x530)] }))
      (fun m => (m.core 2).lvl == 2 && (m.core 2).csrGet 0x712 == 0x10000008) = true ∧
    gives (.xret 2) (at_ (fun m => m.setCore 2 { m.core 2 with lvl := 1, xmask := 0, csr := [(0x511, 3), (0x730, 0x530)] }))
      (fun m => (m.core 2).csrGet 0x712 == 0x10000002) = true := by
  and_intros <;> decide

/-- Keep at M with its shadow stack enabled and 0x44 on top; x1 holds another address. -/
def sSs (l : List Word) : State := at_ (fun m => m.setCore 2 { m.core 2 with
  xmask := 0, ssM := l, csr := [(0x730, 0x534)], x := [(1, 0x80)] })

set_option maxRecDepth 20000 in
/-- `ret` is 0x00008067, `jal x1, 8` is 0x008000EF. -/
theorem wit_ShadowStackFaults : Settled (sSs [0x44]) ∧ Fetches 2 0x8067 (sSs [0x44]) ∧ insnWord 0x8067 = some 0x8067 ∧
    ((sSs [0x44]).m.core 2).ssOn = true ∧ isShadowReturn 0x8067 = true ∧ funct3 0x8067 = 0 ∧ isShadowCall 0x8000EF = true ∧
    opcodeOf 0x8000EF = 0x6F ∧ Fetches 2 0x8000EF (sSs (List.replicate 128 0)) ∧ insnWord 0x8000EF = some 0x8000EF ∧
    gives (.shadowReturn 2 0x8067) (sSs [0x44]) (fun m => (m.core 2).csrGet 0x712 == 0x30000001 && (m.core 2).ssM == [0x44]) = true ∧
    gives (.shadowReturn 2 0x8067) (sSs []) (fun m => (m.core 2).csrGet 0x712 == 0x30000003) = true ∧
    gives (.shadowCall 2 0x8000EF) (sSs (List.replicate 128 0)) (fun m =>
      (m.core 2).csrGet 0x712 == 0x30000002 && (m.core 2).ssM.length == 128) = true := by
  and_intros <;> decide

/-! ## Timebase -/

set_option maxRecDepth 20000 in
theorem wit_TimebaseCommands : Settled s0 ∧ May .keep R.LT_STEP false s0 ∧ May .keep (R.GT_RUN 15) false s0 ∧
    (toSigned 64 (BitVec.ofNat 64 (2 ^ 62)).toNat).natAbs ≤ 2 ^ 62 ∧ gtLinked s0.m 15 = false ∧ gtStill 15 s0.m = true ∧
    s0.m.on (R.GT_RUN 15) = false ∧ gtRuns (at_ (·.wr (R.GT_RUN 14) 1)).m 14 = true ∧
    bit 1 (s0.m.rd R.LT_SERVO_STATUS) = false ∧ s0.m.rd R.LT_SERVO_MODE = 1 ∧
    gives (.ltStep .keep 5) s0 (fun m => m.tb.step == 5 && m.rd R.LT_STEP_COUNT == 1) = true ∧
    gives (.gtRunStart .keep 15) s0 (fun m => m.on (R.GT_RUN 15)) = true ∧
    gives (.gtRunStop .keep 14) (at_ (·.wr (R.GT_RUN 14) 1)) (fun m => m.on (R.GT_RUN 14) == false) = true ∧
    gives (.gtCountLoad .keep 15 0xFFFFFFFF) s0 (fun m => m.tb.loads == [(15, 0xFFFFFFFF)]) = true ∧
    gives (.gtCtrlWrite .keep 14 0x800F) s0 (fun m => m.rd (R.GT_CTRL 14) == 0x800F) = true ∧
    gives (.gtCompareMatch 14 1) (at_ (·.wr (R.GT_RUN 14) 1)) (fun m => m.rd (R.GT_STATUS 14) == 2) = true ∧
    gives (.gtWrap 14) (at_ (·.wr (R.GT_RUN 14) 1)) (fun m => m.rd (R.GT_STATUS 14) == 4) = true ∧
    gives .holdover s0 (fun m => bit 1 (m.rd R.LT_SERVO_STATUS)) = true ∧
    gives .holdover (at_ (·.wr R.LT_SERVO_MODE 0)) (fun m => bit 1 (m.rd R.LT_SERVO_STATUS)) = true := by
  and_intros <;> decide

/-! ## Wheel decoders -/

/-- A regular wheel of 4 teeth as its table's one entry: the 90° span, then the flags with the count in bits 27 to 12. -/
def tblRegular : List Byte := toLe 4 0x40000000 ++ toLe 4 0x4080

/-- Decoder 15 reads channels 3 (A), 4 (B) and 5 (index), all WHEEL inputs that run. -/
def wheel (m : Mach) : Mach :=
  [3, 4, 5].foldl (fun m c => (m.wr (R.CH_MODE c) 5).wr (R.CH_EN c) 1)
    ((((m.wr (R.WHL_IN_A 15) 3).wr (R.WHL_IN_B 15) 4).wr (R.WHL_IN_IDX 15) 5).wr (R.WHL_TBL_LEN 15) 1)

def sWhl (st mode : Nat) (x : Whl) : State :=
  at_ (fun m => (((wheel m).wr (R.WHL_STATE 15) st).wr (R.WHL_MODE 15) mode).setWhl 15 x)

def tooth1 : Tooth := ⟨0, 0, 5, 1, 0⟩

theorem wit_WheelCommands : Settled (sWhl 0 0 {}) ∧ whlEnableOk (sWhl 0 0 {}).m 15 = true ∧ whlEnableOk s0.m 15 = false ∧
    (sWhl 0 0 {}).m.inHold = false ∧ (sWhl 0 0 {}).m.pwr.fSleep = false ∧ May .keep (R.WHL_ENABLE 15) false (sWhl 0 0 {}) ∧
    gives (.whlEnableOn .keep 15) (sWhl 0 0 {}) (fun m => m.whlState 15 == 1) = true ∧
    gives (.whlEnableOff .keep 15) (sWhl 3 0 {}) (fun m => m.whlState 15 == 0) = true ∧
    whlQuad (sWhl 1 0 {}).m 15 = false ∧ 128 ≤ (sWhl 1 0 {}).m.rd (R.WHL_IN_DIR 15) ∧
    (quadAccept 3 true 8000 (sWhl 1 0 {}).m).1 = some (true, 8000) ∧ whlEdgeSel (sWhl 1 0 {}).m 15 = 0 ∧
    whlDeaf (sWhl 1 0 {}).m 15 = false ∧ whlDeaf (sWhl 1 1 {}).m 15 = false ∧ whlLevel (sWhl 1 1 {}).m 4 = false ∧
    gives (.toothEdge 15 true 8000 false) (sWhl 1 0 {}) (fun m => m.whlState 15 == 2) = true ∧
    whlQuad (sWhl 1 1 {}).m 15 = true ∧ (quadAccept 3 true 8000 (sWhl 1 1 {}).m).1 = some (true, 8000) ∧
    quadCross ((sWhl 1 1 {}).m.wr (R.WHL_QUAD_DIV 15) 4) 15 true 1 = [] ∧
    whlIdxFall (sWhl 1 0 {}).m 15 = false ∧ whlRefMode (sWhl 1 0 {}).m 15 < 2 ∧
    (quadAccept 5 true 8000 (sWhl 1 0 {}).m).1 = some (true, 8000) ∧
    gives (.indexEdge 15 true 8000) (sWhl 1 0 {}) (fun m => (m.whl 15).idxAt == some 1000) = true := by
  and_intros <;> decide +kernel

theorem wit_WheelCommands_lost : (sWhl 3 0x100 { dp := some 10 }).m.whlState 15 = 3 ∧
    tblGap (whlTbl (sWhl 3 0x100 { dp := some 10 }).m 15) (nextEntry (whlTbl (sWhl 3 0x100 { dp := some 10 }).m 15) 0 false).1 = false ∧
    0 < (sWhl 3 0x100 { dp := some 10 }).m.rd (R.WHL_VIRT_MAX 15) ∧ whlRefMode (sWhl 3 0x100 { dp := some 10 }).m 15 = 1 ∧
    gives (.virtualTooth 15) (sWhl 3 0x100 { dp := some 10 }) (fun m => (m.whl 15).virt == 1 && m.rd (R.WHL_CNT_VIRT 15) == 1) = true ∧
    gives (.stall 15) (sWhl 3 0 { hist := [tooth1] }) (fun m => m.whlState 15 == 5 && (m.whl 15).stalled) = true ∧
    gives (.freewheelExpiry 15) (sWhl 4 0 {}) (fun m => m.whlState 15 == 1) = true ∧
    whlPartner ((sWhl 3 0 { plausArmed := true }).m.wr (R.WHL_PLAUS_PARTNER 15) 14) 15 = some 14 ∧
    plausFails ((sWhl 3 0 { plausArmed := true }).m.wr (R.WHL_PLAUS_PARTNER 15) 14) 15 14 = true := by
  and_intros <;> decide +kernel

/-- A wheel of two teeth whose second is a gap. -/
def gapWheel (st fw : Nat) (x : Whl) : State := at_ (fun _ =>
  let m := (sWhl st 0 x).m.wr (R.WHL_FW_TEETH 15) fw
  { m with dic := { m.dic with doms := [((R.WHL_TOOTH_TBL 15).key, toLe 4 0 ++ toLe 4 0 ++ toLe 4 0x80000000 ++ toLe 4 1)] } })

theorem wit_WheelCommands_gap : ((gapWheel 2 0 { dp := some 10 }).m.whl 15).dp.isSome = true ∧
    tblGap (whlTbl (gapWheel 2 0 { dp := some 10 }).m 15) (nextEntry (whlTbl (gapWheel 2 0 {}).m 15) 0 false).1 = true ∧
    gives (.gapDeadlineMiss 15) (gapWheel 2 0 { dp := some 10 }) (fun m => m.whlState 15 == 1) = true ∧
    gives (.gapDeadlineMiss 15) (gapWheel 3 2 { dp := some 10, speedOk := true, hist := [tooth1] }) (fun m =>
      m.whlState 15 == 4 && (m.whl 15).fw.isSome) = true ∧
    gives (.quadCountEdge 15 false true 8000) (at_ (fun _ => (sWhl 1 1 {}).m.wr (R.WHL_QUAD_DIV 15) 4)) (fun m =>
      (m.whl 15).cnt == 1) = true ∧
    gives (.plausCheck 15) (at_ (fun _ => (sWhl 3 0 { plausArmed := true }).m.wr (R.WHL_PLAUS_PARTNER 15) 14)) (fun m =>
      m.rd (R.WHL_CNT_PLAUS 15) == 1 && bit 13 (m.rd R.SAF_LATCHED)) = true := by
  and_intros <;> decide +kernel

/-! ## Angle events -/

/-- Slot 1023 stands in a state on decoder 31 (virtual), its channel 127 an ANGLE output. -/
def sEvt (run : Bool) (x : EvtSlot) : State := at_ (fun m =>
  ((((m.wr (R.EVT_REPEAT 1023) 0x10000 |>.wr (R.EVT_BIND 1023) 0x1F7F00).wr (R.CH_MODE 127) 8).wr R.LAN_RUN (boolNat run)).wr (R.EVT_ENABLE 1023)
    (boolNat (x.st != 0))).setEvtSlot 1023 x)

def batch1 : Batch := ⟨0, 0, 1, 0, 0, 0, 0⟩

set_option maxRecDepth 20000 in
theorem wit_AngleEventCommands : Settled (sEvt true {}) ∧ evtEnableOk (sEvt true {}).m 1023 = true ∧
    evtEnableOk s0.m 1023 = false ∧ (sEvt true {}).m.fieldStill = false ∧ May .keep (R.EVT_ENABLE 1023) false (sEvt true {}) ∧
    May .keep R.LAN_RUN false (sEvt false {}) ∧ May .keep (R.EVT_CMD 1023) false (sEvt true {}) ∧
    gives (.evtEnableOn .keep 1023) (sEvt true {}) (fun m => (m.evt 1023).st == 6 && (m.evt 1023).cause == 1) = true ∧
    gives (.evtEnableOn .keep 1023) (sEvt false {}) (fun m => m.on (R.EVT_ENABLE 1023) && (m.evt 1023).st == 0) = true ∧
    gives (.lanRunOn .keep) (sEvt false {}) (fun m => m.on R.LAN_RUN) = true ∧
    gives (.lanRunOff .keep) (sEvt true { st := 1 }) (fun m => (m.evt 1023).st == 0) = true ∧
    gives (.evtTimingWrite .keep 1023 (BitVec.ofNat 64 (2 ^ 32 * 9))) (sEvt true {}) (fun m =>
      m.rd (R.EVT_TIMING 1023) == 2 ^ 32 * 9) = true ∧
    gives (.evtTimingWrite .keep 1023 (BitVec.ofNat 64 (2 ^ 32 * 9)))
      (at_ (fun _ => (sEvt true { st := 1 }).m.updLane 31 (fun l => { l with busy := some batch1 })))
      (fun m => m.lan.past.length == 1) = true ∧
    evtMode (sEvt true { st := 7 }).m 1023 ≠ 2 ∧ evtLive (sEvt true { st := 7 }).m 1023 = true ∧
    gives (.arm .keep 1023) (sEvt true { st := 7 }) (fun m => (m.evt 1023).st == 6) = true ∧
    handoverDue (sEvt true { st := 2, s := 9000000 }).m 1023 = false ∧ handoverDue (sEvt true { st := 1 }).m 1023 = false ∧
    gives (.cancel .keep 1023) (sEvt true { st := 2, s := 9000000 }) (fun m => (m.evt 1023).st == 7) = true ∧
    handoverDue (sEvt true { st := 2 }).m 1023 = true ∧ refreshPending (sEvt true { st := 2 }).m 1023 = false ∧
    gives (.cancel .keep 1023) (sEvt true { st := 2 }) (fun m => (m.evt 1023).st == 3) = true ∧
    gives (.cut .keep 1023) (sEvt true { st := 1 }) (fun m => (m.evt 1023).st == 7) = true ∧
    gives (.cancel .keep 1023) (sEvt true { st := 4 }) (fun m => (m.evt 1023).st == 4) = true ∧
    gives (.cut .keep 1023) (sEvt true { st := 4 }) (fun m => (m.evt 1023).st == 7 || (m.evt 1023).st == 5) = true := by
  and_intros <;> decide +kernel

/-- Slot 1023 frozen on decoder 15, which is LOCKED and runs forward. -/
def sSync : State := at_ (fun _ => (((sEvt true { st := 2, frozen := true }).m.wr (R.EVT_BIND 1023) 0x0F7F00).wr (R.WHL_STATE 15) 3).wr (R.WHL_DIR 15) 1)

theorem wit_AngleEventCommands_run : Settled (sEvt true { st := 2 }) ∧
    (((sEvt true { st := 2 }).m.updLane 31 (fun l => { l with busy := some batch1 })).lane 31).busy = some batch1 ∧
    slotsOf (sEvt true { st := 2 }).m 31 = [1023] ∧ slotsOf (sEvt true { st := 2 }).m 0 = [] ∧
    slotsOf (evtRefresh 1023 batch1 (sEvt true { st := 2 }).m) 31 = [1023] ∧
    refreshPending (sEvt true { st := 2 }).m 1023 = false ∧
    gives (.handover 1023) (sEvt true { st := 2 }) (fun m => (m.evt 1023).st == 3) = true ∧
    gives (.handoverFallback 1023) (sEvt true { st := 2 }) (fun m => (m.evt 1023).st == 3 && m.rd R.LAN_CNT_ABANDON == 1) = true ∧
    gives (.evtStart 1023) (sEvt true { st := 3 }) (fun m => (m.evt 1023).st == 4) = true ∧
    gives (.evtEnd 1023) (sEvt true { st := 4 }) (fun m => (m.evt 1023).st == 5 && m.rd (R.EVT_CNT_DONE 1023) == 1) = true ∧
    evtMode ((sEvt true { st := 5 }).m.wr (R.EVT_REPEAT 1023) 0x10002) 1023 = 2 ∧
    causeDec (sEvt true { st := 2 }).m 1023 ≠ 0 ∧
    gives (.freewheelLimit 1023) (sEvt true { st := 2, frozen := true }) (fun m => (m.evt 1023).st == 6) = true ∧
    causeDec sSync.m 1023 = 0 ∧
    gives (.freewheelLimit 1023) sSync (fun m => (m.evt 1023).st == 1 && m.rd (R.EVT_CNT_MISS 1023) == 1) = true ∧
    gives .demandInterval (at_ (fun m => { m with lan := { m.lan with demand := 16000 } })) (fun m =>
      m.rd R.LAN_DEMAND == 16000 && m.lan.k1 == 1 && m.rd R.LAN_DEMAND_MAX == 16000) = true := by
  and_intros <;> decide +kernel

/-! ## Axes and masters -/

/-- Axis 127 follows virtual master 7, which runs; profile 0 holds two nodes. -/
def sAx (st : Nat) (x : Ax) : State := at_ (fun m =>
  ((((m.wr (R.AX_MASTER 127) 0x2007).wr (R.AX_STATE 127) st).setVm 7 { run := true, speed := 2 ^ 64 }).setProf 0
    { act := List.replicate 64 0 }).setAx 127 x)

def eval1 : AxEval := ⟨48, -5, 7, 9, 11⟩

set_option maxRecDepth 20000 in
theorem wit_AxisCommands : Settled (sAx 0 {}) ∧ (s0.m.vm 7).run = false ∧ s0.m.inHold = false ∧ s0.m.pwr.fSleep = false ∧
    May .keep (R.VM_ENABLE 7) false s0 ∧ ((sAx 0 {}).m.vm 7).run = true ∧
    gives (.vmEnableOn .keep 7) (at_ (·.wr (R.VM_POS_SET 7) 3)) (fun m => (m.vm 7).run && (m.vm 7).pos == 3 * 2 ^ 48) = true ∧
    gives (.vmEnableOff .keep 7) (sAx 0 {}) (fun m => (m.vm 7).run == false) = true ∧
    axStartOk (sAx 0 {}).m 127 = true ∧ axStartOk s0.m 127 = false ∧ May .keep (R.AX_RUN 127) false (sAx 0 {}) ∧
    gives (.axRunOn .keep 127) (sAx 0 {}) (fun m => m.axState 127 == 1) = true ∧
    gives (.axRunOff .keep 127) (sAx 2 {}) (fun m => m.axState 127 == 0) = true ∧
    (axMaster (sAx 3 {}).m 127 0).isSome = true ∧ gives (.resume .keep 127) (sAx 3 {}) (fun m => (m.ax 127).resume) = true ∧
    profValid (sAx 0 {}).m 0 = true ∧ profValid (sAx 0 {}).m 4095 = false ∧
    gives (.axProfNextWrite .keep 127 0) (sAx 0 {}) (fun m => m.rd (R.AX_PROF_NEXT 127) == 0) = true ∧
    gives (.axProfNextWrite (.dict .pcie 0) 127 4095) (at_ (fun _ => linkUp (sAx 0 {}).m)) (fun m => m.rd R.DIC_ABORT_COUNT == 1)
      = true := by
  and_intros <;> decide +kernel

set_option maxRecDepth 20000 in
theorem wit_AxisCommands_run : (sAx 1 {}).m.fieldStill = false ∧ (axMaster (axTakeVdec 127 (sAx 1 {}).m) 127 48).isSome = true ∧
    nodeCorrected 127 false (sAx 1 {}).m = (sAx 1 {}).m ∧ gives (.axEvaluation ⟨127, false⟩) (sAx 1 {}) (fun m => m.axState 127 == 2 && (m.ax 127).pend.isSome) = true ∧
    gives (.axEvaluation ⟨127, false⟩) (sAx 2 {}) (fun m => (m.ax 127).pend.isSome) = true ∧
    (axMaster (axTakeVdec 127 ((sAx 2 {}).m.setVm 7 {})) 127 48).isSome = false ∧
    gives (.axEvaluation ⟨127, false⟩) (at_ (fun _ => (sAx 2 {}).m.setVm 7 {})) (fun m => m.axState 127 == 3 && (m.ax 127).pend.isSome) = true ∧
    gives (.axPublish 127) (sAx 2 { pend := some eval1 }) (fun m => m.rdI 64 (R.AX_POS 127) == -5 && m.rd (R.AX_SPEED 127) == 7 &&
      m.rd (R.AX_CNT_EVAL 127) == 1) = true ∧
    gives (.nodeReadEccFatal 127) (sAx 2 {}) (fun m => m.axState 127 == 5 && m.rd R.CAM_CNT_ECC_FATAL == 1) = true ∧
    gives (.coastEnd 127) (sAx 3 { sub := some ⟨0, 0, 0, none⟩ }) (fun m => ((m.ax 127).sub.bind (·.brake)).isSome) = true ∧
    gives (.nmStale 31) (at_ (·.wr (R.NM_VALID 31) 1)) (fun m => m.rd (R.NM_CNT_STALE 31) == 1) = true := by
  and_intros <;> decide +kernel

/-! ## Registration -/

/-- Unit 15 is bound to CAPTURE channel 127 and decoder 0, which is in SYNC and runs forward. -/
def sOcu (st : Nat) (x : Ocu) : State := at_ (fun m =>
  ((((((m.wr (R.OCU_BIND 15) 0xFF00007F).wr (R.CH_MODE 127) 3).wr (R.OCU_ENABLE 15) (boolNat (st != 0))).wr (R.OCU_STATE 15) st).wr
    (R.WHL_STATE 0) 3).wr (R.WHL_DIR 0) 1).setOcu 15 x)

theorem wit_OculusCommands : Settled (sOcu 0 {}) ∧ ocuEnableOk (sOcu 0 {}).m 15 = true ∧ ocuEnableOk s0.m 15 = false ∧
    May .keep (R.OCU_ENABLE 15) false (sOcu 0 {}) ∧ (sOcu 0 {}).m.inHold = false ∧ (sOcu 0 {}).m.pwr.fSleep = false ∧
    gives (.ocuEnableOn .keep 15) (sOcu 0 {}) (fun m => m.ocuState 15 != 0) = true ∧
    gives (.ocuEnableOff .keep 15) (sOcu 2 {}) (fun m => m.ocuState 15 == 0) = true ∧
    ocuLoose 15 (sOcu 0 {}).m = true ∧ ocuLoose 15 (sOcu 2 {}).m = false ∧
    ocuLoose 15 ((sOcu 2 {}).m.wr (R.OCU_UNLOCK 15) 1) = true ∧ ocuBindOk 0xFF00007F = true ∧
    gives (.ocuBindWrite .keep 15 0xFF01007F) (sOcu 0 {}) (fun m => m.rd (R.OCU_BIND 15) == 0xFF01007F) = true ∧
    gives (.ocuBindWrite .keep 15 0xFF01007F) (at_ (fun _ => (sOcu 2 {}).m.wr (R.OCU_UNLOCK 15) 1)) (fun m =>
      m.rd (R.OCU_BIND 15) == 0xFF01007F) = true ∧
    gives (.ocuCapture 15) (sOcu 2 { caps := [80] }) (fun m => (m.ocu 15).caps == []) = true ∧
    ocuMeasures (sOcu 3 {}).m 15 = true ∧
    gives (.ocuTargetExpiry 15) (sOcu 3 {}) (fun m => m.rd (R.OCU_CNT_MISS 15) == 1 && (m.ocu 15).next == 1) = true ∧
    gives (.ocuFwCorr .keep 15 0) (sOcu 3 {}) (fun m => m.ocuState 15 == 3) = true := by
  and_intros <;> decide +kernel

/-! ## Channels -/

/-- Channel 31 in a mode, running or not. -/
def sCh (mode : Nat) (en : Bool) (x : Chan) : State := at_ (fun m =>
  ((m.wr (R.CH_MODE 31) mode).wr (R.CH_EN 31) (boolNat en)).setChan 31 x)

theorem wit_ChannelCommands : Settled (sCh 0 false {}) ∧ chLoose 31 (sCh 0 false {}).m = true ∧ chModeOk 31 10 = true ∧
    chModeOk 32 10 = false ∧ chOwner (sCh 0 false {}).m 31 = 0 ∧ chLoose 31 (sCh 0 true {}).m = false ∧
    chOwner (sOcu 2 {}).m 127 ≠ 0 ∧ chLoose 127 (sOcu 2 {}).m = true ∧ May .keep (R.CH_MODE 31) false (sCh 0 false {}) ∧
    gives (.chModeWrite .keep 31 10) (sCh 0 false {}) (fun m => m.rd (R.CH_MODE 31) == 10 && (m.chan 31).was == some 0) = true ∧
    ((sCh 2 false { was := some 1 }).m.chan 31).was.isSome = true ∧ (chModeTakes 31 (sCh 2 false { was := some 1 }).m).chMode 31 = 2 ∧
    gives (.chModeWrite .keep 31 3) (sCh 0 true {}) (fun m => m.chMode 31 == 0 && (m.core 2).eact) = true ∧
    gives (.chEnWrite .keep 31 false) (sCh 1 true {}) (fun m => m.chEn 31 == false) = true ∧
    chEnableOk (sCh 2 false {}).m 31 = true ∧ gives (.chEnWrite .keep 31 true) (sCh 2 false {}) (fun m => m.chEn 31) = true ∧
    chEnableOk (sCh 6 false {}).m 31 = false ∧
    gives (.chGpioOutWrite .keep 31 true) (at_ (fun _ => (sCh 1 true {}).m.wr (R.CH_PIN_CFG 31) 1)) (fun m =>
      m.on (R.CH_GPIO_OUT 31)) = true := by
  and_intros <;> decide +kernel

theorem wit_ChannelCommands_inputs : (chAccept 31 true 80 (sCh 1 true {}).m).1 = some (true, 80) ∧ edgeSel (sCh 1 true {}).m 31 true = true ∧
    gives (.gpioInputEdge 31 true 80) (sCh 1 true {}) (fun m => bit 0 (m.rd (R.CH_EVT 31))) = true ∧
    ocuUnits (sCh 3 true {}).m 31 = [] ∧
    gives (.captureEdge 31 true 80) (sCh 3 true {}) (fun m => (m.chan 31).q.map (·.w) == [2 ^ 63 + 2 ^ 62 + 80]) = true ∧
    gives (.periodEdge 31 true 80) (sCh 4 true { rise := some 30 }) (fun m => m.rd (R.CH_PERIOD 31) == 50) = true ∧
    gives (.periodEdge 31 false 80) (sCh 4 true { rise := some 30 }) (fun m => m.rd (R.CH_HIGH 31) == 50) = true ∧
    gives (.lockoutEnd 31) (sCh 3 true { lock := some (5, true), seen := true }) (fun m => (m.chan 31).lock == none) = true ∧
    gives (.lockoutEnd 31) (sCh 3 true { lock := some (5, true), seen := false }) (fun m =>
      (m.chan 31).lock == none && bit 5 (m.rd (R.CH_EVT 31))) = true ∧
    gives (.noSignal 31) (sCh 4 true {}) (fun m => (m.chan 31).noSig && bit 6 (m.rd (R.CH_EVT 31))) = true ∧
    gives (.freqGateEnd 31) (at_ (fun _ => (sCh 4 true { gateN := 2, gateF := 0, gateL := 3200 }).m.wr (R.CH_PF_CFG 31) 0x10102))
      (fun m => m.rd (R.CH_FREQ 31) == 1000000000) = true ∧
    ((gateEdge 31 3199 ((sCh 4 true {}).m.wr (R.CH_PF_CFG 31) 0x10102)).chan 31).gateN = 1 ∧
    ((gateEdge 31 3200 ((sCh 4 true {}).m.wr (R.CH_PF_CFG 31) 0x10102)).chan 31).gateN = 0 ∧
    ((gateEdge 31 3200 ((sCh 4 true {}).m.wr (R.CH_PF_CFG 31) 0x10102)).chan 31).gateX = [3200] := by
  and_intros <;> decide +kernel

/-! ## Channel ports and outputs -/

/-- Channel 31 at FTB 1000, so that entries pushed in tick 0 are old. -/
def laterCh (mode : Nat) (x : Chan) : State := at_ (fun _ =>
  { (sCh mode true x).m with tb := { (sCh mode true x).m.tb with ftb := 1000 } })

/-- Slot 1023's pair waits for channel 127. -/
def sAng : State := sEvt true { st := 2, s := 88, e := 96 }

def late1 : State := laterCh 2 { q := [{ w := 8, at_ := 0 }] }

theorem wit_ChannelPorts : Settled (sCh 2 true {}) ∧ MayPort 0 1 0x480001F0 (sCh 2 true {}) ∧ MayPort 16 1 0x480001F4 (sCh 2 true {}) ∧
    MayPort 16 0 0x480001F0 (sCh 2 true {}) ∧ MayPort 0 0 0x480001F4 (sCh 2 true {}) ∧
    badEntry (2 ^ 61 - 1) = false ∧ badEntry (2 ^ 61) = true ∧
    gives (.pushLo 16 31 5) (sCh 2 true {}) (fun m => (m.chan 31).stage == [(16, 5)]) = true ∧
    gives (.pushHi 16 31 1) (sCh 2 true { stage := [(16, 5)] }) (fun m => (m.chan 31).q == [{ w := 2 ^ 32 + 5, at_ := 0, by_ := 16 }]) = true ∧
    gives (.pushHi 16 31 1) (sCh 1 true {}) (fun m => m.rd (R.CH_CNT_DROP 31) == 1 && bit 2 (m.rd (R.CH_EVT 31))) = true ∧
    gives (.pushHi 16 31 0x20000000) (sCh 2 true {}) (fun m => bit 3 (m.rd (R.CH_EVT 31))) = true ∧
    gives (.pushHi 16 31 1) (sCh 2 true { q := List.replicate 16 { w := 0, at_ := 0 } }) (fun m => (m.chan 31).q.length == 16 &&
      m.rd (R.CH_CNT_DROP 31) == 0) = true ∧
    gives (.pushHi 0 31 1) (sCh 2 true { q := List.replicate 16 { w := 0, at_ := 0 } }) (fun m => (m.chan 31).q.length == 17 &&
      ((chTrim 31 m).chan 31).q.length == 16 && (chTrim 31 m).rd (R.CH_CNT_DROP 31) == 1) = true ∧
    ((chSettle 31 (sCh 2 true { q := [{ w := 1, at_ := 0, by_ := 17 }, { w := 2, at_ := 0 }] }).m).chan 31).q.map (·.w) = [2, 1] ∧
    qEmpty (sCh 3 true {}).m 31 = true ∧ gives (.popLo 16 31) (sCh 3 true {}) (fun m => m.out == []) = true ∧
    sAng.m.chMode 127 = 8 ∧ angleFirst sAng.m 127 = some ⟨88, true, false, 1023⟩ ∧ gives (.popLo 0 127) sAng (fun m => m.out == [⟨.load 2, [88]⟩]) = true ∧
    gives (.popLo 0 31) (sCh 3 true {}) (fun m => m.out == [⟨.load 2, [0]⟩]) = true ∧
    gives (.popLo 0 31) (laterCh 3 { q := [{ w := 2 ^ 32 + 5, at_ := 0 }] }) (fun m => m.out == [⟨.load 2, [5]⟩] && (m.chan 31).pop == [(0, 1)])
      = true ∧
    gives (.popHi 0 31) (sCh 3 true { pop := [(0, 1)] }) (fun m => m.out == [⟨.load 2, [1]⟩]) = true ∧
    May .keep (R.CH_Q_PUSH 31) false (sCh 2 true {}) ∧ May .keep (R.CH_Q_POP 31) false (sCh 3 true {}) ∧
    May .keep (R.CH_Q_FLUSH 31) false (sCh 3 true {}) ∧
    gives (.chQPush .keep 31 9) (sCh 2 true {}) (fun m => (m.chan 31).q == [{ w := 9, at_ := 0, by_ := 17 }]) = true ∧
    gives (.chQPop .keep 31 true) (laterCh 3 { q := [{ w := 1, at_ := 0 }, { w := 2, at_ := 0 }] }) (fun m => m.pops == [(false, 31)] &&
      ((qPop 31 m).chan 31).q == [{ w := 2, at_ := 0 }]) = true ∧
    gives (.chQFlush .keep 31 true) (laterCh 3 { q := [{ w := 1, at_ := 0 }, { w := 2, at_ := 0 }] }) (fun m => (m.chan 31).q == []) = true := by
  and_intros <;> decide +kernel

/-- Channel 31 takes data on the external clock of channel 0. -/
def sSd (x : Sinc) : State := at_ (fun _ =>
  ((sCh 10 true { sd := x }).m.wr (R.CH_MODE 0) 10 |>.wr (R.CH_SD_CFG 0) 0xC0000000).wr (R.CH_EN 0) 1)

theorem wit_ChannelPorts_outputs : (sCh 2 true { q := [{ w := 8, at_ := 0 }] }).m.fieldStill = false ∧ inPast 8 (sCh 2 true {}).m.now8 = false ∧
    gives (.compareArm 31) (sCh 2 true { q := [{ w := 8, at_ := 0 }] }) (fun m => (m.chan 31).q == [{ w := 8, at_ := 0, armed := true }]) = true ∧
    inPast 8 late1.m.now8 = true ∧ bit 1 (late1.m.rd (R.CH_OUT_CFG 31)) = false ∧
    gives (.compareArm 31) late1 (fun m => (m.chan 31).q == [{ w := 8, at_ := 0, armed := true, due := some 8008 }] &&
      m.rd (R.CH_CNT_LATE 31) == 1) = true ∧
    gives (.comparePlay 31) (sCh 2 true { q := [{ w := 2 ^ 63 + 8, at_ := 0, armed := true }] }) (fun m => (m.chan 31).q == [] && (m.chan 31).level) = true ∧
    gives (.ptStepHandover 31) (sCh 6 true { pt := { plan := some (80, true) } }) (fun m => (m.chan 31).pt.handed == [(80, true)])
      = true ∧
    gives (.ptStepPlay 31) (sCh 6 true { pt := { handed := [(80, true)] } }) (fun m => (m.chan 31).level &&
      m.rdI 32 (R.CH_PT_COUNT 31) == 1) = true ∧
    gives (.ptStepEnd 31) (sCh 6 true { lvl := true, pt := { active := some 9 } }) (fun m => (m.chan 31).level == false) = true ∧
    (sCh 10 true {}).m.sdClock 31 = false ∧ sdOsr (sCh 10 true {}).m 31 = 8 ∧ bit 28 ((sCh 10 true {}).m.rd (R.CH_SD_CFG 31)) = false ∧
    sdClocked (sSd {}).m (sdClk (sSd {}).m 31) = true ∧ sdEdgeNo (sSd {}).m 31 99 = none ∧
    0 < (sincFrame (sincSample ((sSd { done := 2, n := 7, begun := true }).m.chan 31).sd true)).1 ∧
    gives (.sdFrameResult 31 [true] 99) (sSd { done := 2, n := 7, begun := true }) (fun m => m.rd (R.CH_SD_STAMP 31) == 99 &&
      m.rd (R.CH_CNT_EVENTS 31) == 1) = true ∧
    gives (.sdClkLoss 31) (sCh 10 true {}) (fun m => (m.chan 31).sd.loss) = true ∧
    gives (.sdClockReturn 31) (sCh 10 true { sd := { loss := true } }) (fun m => (m.chan 31).sd.loss == false) = true := by
  and_intros <;> decide +kernel

/-! ## Movers -/

/-- Mover 15 in a state; a descriptor stands at 0x10000000: 4 words, both addresses rising, immediate, no chain. -/
def desc1 : Desc := ⟨0x10000100, 0x10000200, 4, 0x0C, 0, 0, 0⟩

def sMov (st : Nat) (run : Bool) (x : Mover) : State := at_ (fun m =>
  ((({ m with keepMem := memWrN [] 0x10000000 ([0x10000100, 0x10000200, 4, 0x0C, 0, 0, 0].flatMap (toLe 4) ++ [0, 0, 0xC1, 0xD5]) }).wr
    (R.MOV_RUN 15) (boolNat run)).wr (R.MOV_STATE 15) st).setMov 15 x)

/-- Mover 15 has a whole immediate descriptor of 4 words to move. -/
def sElem : State := at_ (fun _ => (sMov 3 true { desc := some { desc1 with src := 0x10000000 }, burst := 4 }).m.wr (R.MOV_REMAIN 15) 4)

set_option maxRecDepth 20000 in
theorem wit_MoverCommands : Settled (sMov 0 false {}) ∧ (sMov 0 false {}).m.fieldStill = false ∧
    May .keep (R.MOV_RUN 15) false (sMov 0 false {}) ∧ May .keep (R.MOV_CMD 15) false (sMov 0 false {}) ∧
    gives (.movRunOn .keep 15) (at_ (fun _ => (sMov 0 false {}).m.wr (R.MOV_DESC 15) 0x10000000)) (fun m =>
      m.movState 15 == 1 && (m.mov 15).fetch == some 0x10000000) = true ∧
    gives (.movRunOff .keep 15) (sMov 3 true {}) (fun m => m.movState 15 == 0) = true ∧
    gives (.trigger .keep 15) (sMov 2 true { desc := some { desc1 with ctrl := 0x0700000C } }) (fun m => m.movState 15 == 3 &&
      (m.mov 15).burst == 1) = true ∧
    gives (.trigger .keep 15) (sMov 3 true { desc := some { desc1 with ctrl := 0x0700000C }, burst := 1 }) (fun m =>
      (m.mov 15).trig) = true ∧
    gives (.trigger .keep 15) (sMov 3 true { desc := some { desc1 with ctrl := 0x0700000C }, burst := 1, trig := true }) (fun m =>
      m.rd (R.MOV_CNT_TRIG_OVR 15) == 1) = true ∧
    MayCore 2 1 0x480010F0 (sMov 0 false {}) ∧ gives (.ringAppend 15 32) (sMov 0 false {}) (fun m => (m.mov 15).ring == [32]) = true ∧
    gives (.ringAppend 15 32) (sMov 0 false { ring := List.replicate 8 0 }) (fun m => m.rd (R.MOV_CNT_RING_DROP 15) == 1) = true ∧
    gives (.movTriggerArrival 15) (sMov 2 true { desc := some { desc1 with ctrl := 0x0300000C }, arrived := 1 }) (fun m =>
      m.movState 15 == 3) = true ∧
    movMemory 0x10000000 32 = true ∧ movMarkOk (sMov 1 true {}).m 0x10000000 = true ∧
    movDescOk (movRead (sMov 1 true {}).m 0x10000000) = true ∧ movRead (sMov 1 true {}).m 0x10000000 = desc1 ∧
    gives (.movDescFetch 15 false) (sMov 1 true { fetch := some 0x10000000 }) (fun m => m.movState 15 == 3 &&
      m.rd (R.MOV_REMAIN 15) == 4) = true ∧
    gives (.movDescFetch 15 false) (sMov 1 true { fetch := some 0x10000020 }) (fun m => m.movState 15 == 5 &&
      m.rd (R.MOV_ERR 15) == 1) = true ∧
    gives (.movDescFetch 15 true) (sMov 1 true { fetch := some 0x10000000 }) (fun m => m.rd (R.MOV_ERR 15) == 3) = true ∧
    keepArea 0x10000000 = .sram ∧ (areaNat 2 0x10000000 4 (sMov 3 true {}).m).1 = 0x10000100 ∧
    sElem.m.movUsed = false ∧ movGrant sElem.m = some 15 ∧ movBlocked sElem.m 15 = false ∧
    gives (.movElement 15 false) sElem (fun m => m.rd (R.MOV_REMAIN 15) == 3 && memRd m.keepMem 0x10000201 == 1 && m.movUsed) = true ∧
    gives (.movElement 15 false) (at_ (fun _ => { sElem.m with movUsed := true })) (fun m => m.rd (R.MOV_REMAIN 15) == 4) = true := by
  and_intros <;> decide +kernel

/-! ## PWM octets and trips -/

/-- Octet 15 in a state; its channels are PWM outputs and run. -/
def sOct (x : Octet) : State := at_ (fun m =>
  ((List.range 8).foldl (fun m j => (m.wr (R.CH_MODE (120 + j)) 7).wr (R.CH_EN (120 + j)) 1) (m.wr (R.PWM_CH_MASK 15) 0xFF)).setOctet 15 x)

theorem wit_PwmCommands : Settled (sOct {}) ∧ pwmRunOk (sOct {}).m 15 = true ∧ pwmRunOk (at_ (·.wr (R.PWM_CH_MASK 15) 1)).m 15 = false ∧
    (sOct {}).m.inHold = false ∧ (sOct {}).m.pwr.fSleep = false ∧ May .keep (R.PWM_RUN 15) false (sOct {}) ∧
    gives (.pwmRunOn .keep 15) (sOct {}) (fun m => (m.octet 15).st == 1 || (m.octet 15).st == 2) = true ∧
    gives (.pwmRunOff .keep 15) (sOct { st := 3 }) (fun m => (m.octet 15).st == 0) = true ∧
    gives (.pwmStart 15) (sOct { st := 2, beta0 := 100 }) (fun m => (m.octet 15).st == 3 && (m.octet 15).b == 12800) = true ∧
    gives (.pwmBoundary 15) (sOct { st := 3, nb := 12800, p := 5, phi := 15 }) (fun m => (m.octet 15).b == 12800 &&
      (m.octet 15).phi == 0 && m.rd (R.PWM_PCOUNT 15) == 1) = true ∧
    gives (.peak 15) (at_ (fun _ => (sOct { st := 3 }).m.wr (R.PWM_CFG 15) 2)) (fun m => bit 1 (m.rd (R.PWM_EVT 15))) = true ∧
    octDrives (sOct { st := 3 }).m 15 7 = true ∧
    octOnPin { (sOct { st := 3 }).m with saf := { s0.m.saf with latchA := false, latchB := false } } 15 7 = true ∧
    gives (.pwmEdgePlay 15 7) (sOct { st := 3, edges := [{ t := 80, j := 7, on := true }] }) (fun m => bit 7 (m.octet 15).lv && (m.octet 15).edges == [])
      = true ∧
    shadowOk (sOct {}).m 15 (.duty 7) 5 = true ∧ shadowOk (sOct {}).m 15 (.pairOvr 3) 4 = false ∧
    gives (.pwmShadowWrite .keep 15 (.duty 7) 5) (sOct {}) (fun m => m.rd (shadowObj 15 (.duty 7)) == 5) = true ∧
    pwmImmOk (sOct { st := 3 }).m 15 ((sOct {}).m.rd (R.PWM_PERIOD 15)) = true ∧ pwmImmOk (sOct {}).m 15 1 = false ∧
    gives (.pwmPeriodImm .keep 15 (BitVec.ofNat 32 ((sOct {}).m.rd (R.PWM_PERIOD 15)))) (sOct { st := 3, b := 128000 }) (fun m =>
      (m.octet 15).p == m.rd (R.PWM_PERIOD 15)) = true ∧
    gives (.pwmChOffWrite .keep 15 0x81) (sOct { st := 3 }) (fun m => (m.octet 15).away == 0x81) = true ∧
    octDue (sOct { st := 3, nb := 0, p := 12800 }).m 15 = true ∧
    ((octCaught 15 (sOct { st := 3, nb := 0, p := 12800 }).m).octet 15).owed ≠ [] ∧
    (octStop 15 (octCaught 15 (sOct { st := 3, nb := 0, p := 12800 }).m)).rd (R.PWM_PCOUNT 15) = 0 ∧
    safeDiffers ((sOct { st := 3 }).m.wr (R.CH_SAFE_LVL 127) 0) 127 false = false ∧ safeDiffers (sOct { st := 3 }).m 127 true = true ∧
    ((octDark 15 0x80 ((sOct { st := 3, blankA := 0 }).m.wr (R.CH_SAFE_LVL 127) 0)).octet 15).blankA = 0 ∧
    dtAdapts ((sOct {}).m.wr (R.PWM_DT_CFG 15 3) 0) 15 3 = false ∧
    ((setDtNom 15 3 500 ((sOct { st := 3, nb := 99999, edges := [{ t := 8000, j := 7, on := false, node := 1, dt := 100 },
      { t := 8100, j := 6, on := true }] }).m.wr (R.PWM_DT_CFG 15 3) 0)).octet 15).edges.map (·.t) = [8000, 8500] ∧
    (setPwmCfg 15 0 ((sOct {}).m.wr (R.PWM_CARRY 15 7) 9)).rd (R.PWM_CARRY 15 7) = 0 ∧
    gives (.snCrossing 15 3 true 90) (sOct { st := 3, pairs := [(3, { winR := some (80, 10), rise := .unseen })] }) (fun m =>
      m.rd (R.PWM_SN_MEAS_R 15 3) == 10) = true := by
  and_intros <;> decide +kernel

def trips (a b latch : Nat) (m : Mach) : Mach :=
  (((m.wr (R.TRP_CFG 15) 5).wr (R.TRP_A_ESC 15) a).wr (R.TRP_B_ESC 15) b).wr (R.TRP_LATCH_CAUSE 15) latch

/-- Octet 15 runs, both its inputs armed; its comparators have been unblanked for 9 ticks. -/
def sTrip (a b latch : Nat) : State := at_ (fun m =>
  { trips a b latch (sOct { st := 3, nb := 99999, cleanA := 9, cleanB := 9 }).m with tb := { m.tb with ftb := 20 } })

theorem wit_TripCommands_inputs : trpEn (sTrip 0 0 0).m 15 false = true ∧ trpEn (sTrip 0 0 0).m 15 true = true ∧
    octDue (sTrip 0 0 0).m 15 = false ∧
    gives (.tripValid 15 ⟨false, 0xFFFF, 9⟩) (sTrip 0 0 0) (fun m => (m.octet 15).trips == [⟨false, 0xFFFF, 9⟩] &&
      ((octTrips 15 m).octet 15).tripA && (octTrips 15 m).rd (R.TRP_CNT_A 15) == 1) = true ∧
    (∀ k ≤ (sTrip 0 0 0).m.rd (R.TRP_A_FILT 15), trpAsserts (sTrip 0 0 0).m 15 false ((sTrip 0 0 0).m.pnow - k) (0xFFFF / 256) = true) ∧
    ((tripJudge 15 ⟨false, 0xFFFF, 9⟩ (sTrip 0 0 0).m).octet 15).tripA = true ∧
    trpAsserts (sTrip 0 0 0).m 15 false ((sTrip 0 0 0).m.pnow - 0) 0 = false ∧
    ((tripJudge 15 ⟨false, 0, 9⟩ (sTrip 0 0 0).m).octet 15).tripA = false ∧
    ((tripJudge 15 ⟨true, 0xFFFF, 9⟩ (sTrip 0 1 0).m).octet 15).st = 4 ∧
    (tripJudge 15 ⟨true, 0xFFFF, 9⟩ (sTrip 0 1 0).m).rd (R.TRP_LATCH_CAUSE 15) = 2 ∧
    ((sTrip 0 0 0).m.octet 15).past = [] ∧
    trpThen (setTrp 15 (R.TRP_CFG 15) 0 (sTrip 0 0 0).m) 15 (sTrip 0 0 0).m.pnow = trpNow ((sTrip 0 0 0).m.wr (R.TRP_CFG 15) 0) 15 ∧
    trpThen (setTrp 15 (R.TRP_CFG 15) 0 (sTrip 0 0 0).m) 15 ((sTrip 0 0 0).m.pnow - 1) = trpNow (sTrip 0 0 0).m 15 ∧
    trpBSrc ((sTrip 0 0 0).m.wr (R.TRP_CFG 15) 0x205) 15 = 2 := by
  and_intros <;> decide +kernel

/-- Channel 127 is read back; 10,000 ticks have passed. -/
def sRb : State := at_ (fun m =>
  { ((sOct { st := 3, nb := 12800000 }).m.wr (R.CH_SAFE_LVL 127) 1).wr (R.TRP_RB_EN 15) 0x80 with tb := { m.tb with ftb := 10000 } })

theorem wit_TripCommands : (pinCommand ((sOct { st := 3, nb := 99999 }).m.wr (R.CH_SAFE_LVL 127) 1) 127).isSome = true ∧
    May .keep (R.TRP_CMD 15) false s0 ∧ May .keep (R.TRP_REARM 15) false s0 ∧ May .keep (R.TRP_REARM_RB 15) true s0 ∧
    gives (.latch .keep 15) (sOct { st := 3, nb := 99999 }) (fun m => (m.octet 15).st == 4 && m.rd (R.TRP_LATCH_CAUSE 15) == 4) = true ∧
    gives (.latch .keep 15) s0 (fun m => (m.octet 15).st == 0 && m.rd (R.TRP_LATCH_CAUSE 15) == 4) = true ∧
    only 7 (7 : Byte).toNat = true ∧ only 7 (8 : Byte).toNat = false ∧
    gives (.trpRearm .keep 15 7) (at_ (fun _ => trips 0 0 5 (sOct { st := 4, nb := 99999 }).m)) (fun m => m.rd (R.TRP_LATCH_CAUSE 15) == 0) = true ∧
    gives (.trpRearm .keep 15 1) (at_ (fun _ => trips 0 0 5 (sOct { st := 4, nb := 99999 }).m)) (fun m => m.rd (R.TRP_LATCH_CAUSE 15) == 4) = true ∧
    gives (.trpRearmRb .keep 15 true) (at_ (fun _ => trips 0 0 12 (sOct {}).m)) (fun m => m.rd (R.TRP_LATCH_CAUSE 15) == 4) = true ∧
    gives (.trpRearmRb .keep 15 false) (at_ (fun _ => trips 0 0 12 (sOct {}).m)) (fun m => m.rd (R.TRP_LATCH_CAUSE 15) == 12) = true ∧
    rbStart sRb.m 15 7 0xFFFF = 0 ∧ sRb.m.rd (R.TRP_RB_TOL 15) ≤ sRb.m.pnow + 1 ∧
    gives (.readbackFault 15 ⟨7, 0xFFFF⟩) sRb (fun m => m.rd (R.TRP_RB_CH 15) == 0x80 && bit 10 (m.rd R.SAF_LATCHED)) = true ∧
    gives (.readbackFault 15 ⟨7, 1⟩) sRb (fun m => m.rd (R.TRP_CNT_RB 15) == 0) = true := by
  and_intros <;> decide +kernel

/-! ## Turret -/

/-- Context 127 runs in engine 7, at PC 0 with a word there; its pins are unbound but P7, which is channel 127. -/
def turBase (op w : Nat) (m : Mach) : Mach :=
  let doms := mapSet [] (R.TUR_PROGRAM 7).key (toLe 4 (op * 2 ^ 27 + w)) m.dic.doms
  (((((({ m with dic := { m.dic with doms := doms } }).wr (R.TUR_PROG_LEN 7) 1).wr (R.CTX_STATE 127) 1).wr (R.CTX_RUN 127) 1).wr
    (R.TUR_RUN 7) 1).wr (R.CTX_PINS_HI 127) 0x7FFFFFFF).wr (R.CH_MODE 127) 9
    |>.setEngine 7 { st := 2 } |>.updCtx 127 (fun c => { c with used := false, dirs := 0x40 })

def sTur (op w : Nat) (f : Mach → Mach) : State := at_ (fun m => f (turBase op w m))

/-- A word issues in context 127 and ends the slot with a property. -/
def slot (op w unused : Nat) (c : Instr) (f : Mach → Mach) (p : Mach → Bool) : Bool :=
  decide (Issues op (127 : Fin 128) w unused (sTur op w f)) && gives c (sTur op w f) (fun m => (m.ctx 127).used && p m)

def next1 (m : Mach) : Bool := m.rd (R.CTX_PC 127) == 1

theorem wit_TurretInstructions : Settled (sTur 0 0 id) ∧
    slot 0x00 0x7000000 0xFFFFFF (.nop 127 0x7000000 .clean) id (fun m => next1 m && (m.ctx 127).dly == 7) = true ∧
    regWritable 5 = true ∧ regWritable 8 = false ∧
    slot 0x01 0x50FFFF 0x0F0000 (.ldi 127 0x50FFFF .clean) id (fun m => next1 m && m.rd (R.CTX_S 127 3) == 0xFFFF) = true ∧
    slot 0x02 0x10FFFF 0x0F0000 (.ldhi 127 0x10FFFF .clean) (·.wr (R.CTX_Y 127) 0x12345) (fun m => next1 m &&
      m.rd (R.CTX_Y 127) == 0xFFFF2345) = true ∧
    slot 0x03 0x01FFFF 0 (.addi 127 0x01FFFF .clean) id (fun m => next1 m && m.rd (R.CTX_X 127) == 0xFFFFFFFF) = true ∧
    slot 0x04 0x110300 0x00F0FF (.mov 127 0x110300 .clean) (·.wr (R.CTX_Y 127) 0x12345678) (fun m => next1 m &&
      m.rd (R.CTX_Y 127) == 0x78563412) = true ∧
    slot 0x05 0x110700 0x0000FF (.alu 127 0x110700 .clean) (fun m => (m.wr (R.CTX_Y 127) 0x80000000).wr (R.CTX_X 127) 33) (fun m =>
      next1 m && m.rd (R.CTX_Y 127) == 0xC0000000) = true ∧ turAluFn 7 0x80000000 33 = some 0xC0000000 ∧
    slot 0x06 0x0003FF 0 (.br 127 0x0003FF .clean) id (fun m => m.rd (R.CTX_PC 127) == 1023) = true ∧
    slot 0x06 0x1003FF 0 (.br 127 0x1003FF .clean) id (fun m => m.rd (R.CTX_PC 127) == 1023) = true ∧
    slot 0x06 0x2003FF 0 (.br 127 0x2003FF .clean) id next1 = true ∧
    slot 0x06 0x3503FF 0 (.br 127 0x3503FF .clean) (·.wr (R.CTX_S 127 3) 1) (fun m => m.rd (R.CTX_PC 127) == 1023 &&
      m.rd (R.CTX_S 127 3) == 0) = true ∧
    slot 0x06 0x80BFFF 0 (.br 127 0x80BFFF .clean) (·.wr R.TUR_XFLAG_SET 0x8000) (fun m => m.rd (R.CTX_PC 127) == 1023) = true ∧
    slot 0x06 0xA003FF 0 (.br 127 0xA003FF .clean) id next1 = true ∧
    slot 0x07 0x1003FF 0x0FFC00 (.jal 127 0x1003FF .clean) id (fun m => m.rd (R.CTX_PC 127) == 1023 && m.rd (R.CTX_Y 127) == 1) = true ∧
    slot 0x08 0x010000 0xF0FFFF (.jr 127 0x010000 .clean) (·.wr (R.CTX_Y 127) 0x7FF) (fun m => m.rd (R.CTX_PC 127) == 1023) = true ∧
    pinBound (sTur 0 0 id).m 127 7 = true ∧ pinBound (sTur 0 0 id).m 127 6 = false ∧
    slot 0x09 0xE00000 0x1CFFFF (.waitpin 127 0xE00000 .clean) id next1 = true ∧
    slot 0x09 0xE10000 0x1CFFFF (.waitpin 127 0xE10000 .clean) id (fun m => m.rd (R.CTX_PC 127) == 0 && (m.ctx 127).stall) = true ∧
    slot 0x09 0xE20000 0x1CFFFF (.waitpin 127 0xE20000 .clean) (·.updCtx 127 (fun c => { c with wait := some (7, true, 0), got := some (99, 0) }))
      (fun m => next1 m && m.rd (R.CTX_TS 127) == 99) = true ∧
    slot 0x0A 0x00BC00 0xFF00FF (.waitflag 127 0x00BC00 .clean) id next1 = true ∧
    slot 0x0A 0x00BE00 0xFF00FF (.waitflag 127 0x00BE00 .clean) id (fun m => (m.ctx 127).stall) = true ∧
    slot 0x0C 0x018080 0xFE0000 (.setpin 127 0x018080 .clean) id (fun m => next1 m && (m.ctx 127).dirs == 0xC0) = true ∧
    maskBound (sTur 0 0 id).m 127 0x80 = true ∧
    slot 0x0D 0xE00000 0x1FFFE0 (.shout 127 0xE00000 .clean) (fun m => (m.wr (R.CTX_OSR 127) 0x80000000).wr (R.CTX_SHCNT 127) 0x2000)
      (fun m => next1 m && (m.ctx 127).pins == 0x80 && m.rd (R.CTX_SHCNT 127) == 0x1F00) = true ∧
    slot 0x0E 0xE00000 0x1FFFE0 (.shin 127 0xE00000 .clean) id (fun m => next1 m && m.rd (R.CTX_SHCNT 127) == 1) = true ∧
    isrBlocked (sTur 0 0 id).m 127 32 = false ∧
    slot 0x0F 0x00001F 0x0FFFE0 (.take 127 0x00001F .clean) (fun m => (m.wr (R.CTX_OSR 127) 0x89ABCDEF).wr (R.CTX_SHCNT 127) 0x2000)
      (fun m => next1 m && m.rd (R.CTX_X 127) == 0x89ABCDEF && m.rd (R.CTX_SHCNT 127) == 0) = true ∧
    slot 0x10 0x00001F 0xF0FFE0 (.give 127 0x00001F .clean) (·.wr (R.CTX_X 127) 0x89ABCDEF) (fun m => next1 m &&
      m.rd (R.CTX_ISR 127) == 0x89ABCDEF && m.rd (R.CTX_SHCNT 127) == 0x20) = true := by
  and_intros <;> decide +kernel

theorem wit_TurretInstructions_queues :
    slot 0x11 0x000000 0xF0FFFE (.push 127 0 .clean) (·.wr (R.CTX_X 127) 9) (fun m => next1 m && (m.ctx 127).rx.map (·.v) == [9]) = true ∧
    slot 0x11 0x000001 0xF0FFFE (.push 127 1 .clean) (·.updCtx 127 (fun c => { c with rx := [⟨1, 0, 0, 0⟩, ⟨2, 0, 0, 0⟩, ⟨3, 0, 0, 0⟩, ⟨4, 0, 0, 0⟩] })) (fun m => next1 m &&
      bit 1 (m.rd (R.CTX_STICKY 127))) = true ∧
    slot 0x11 0x000000 0xF0FFFE (.push 127 0 .clean) (·.updCtx 127 (fun c => { c with rx := [⟨1, 0, 0, 0⟩, ⟨2, 0, 0, 0⟩, ⟨3, 0, 0, 0⟩, ⟨4, 0, 0, 0⟩] })) (fun m =>
      (m.ctx 127).stall && (m.ctx 127).rx.length == 4) = true ∧
    slot 0x12 0x100000 0x0FFFFE (.pull 127 0x100000 .clean) (·.updCtx 127 (fun c => { c with tx := [⟨7, 0, 0, 0⟩, ⟨8, 0, 0, 0⟩] })) (fun m => next1 m &&
      m.rd (R.CTX_Y 127) == 7 && (m.ctx 127).tx.map (·.v) == [8]) = true ∧
    slot 0x12 0x100001 0x0FFFFE (.pull 127 0x100001 .clean) id next1 = true ∧
    slot 0x12 0x100000 0x0FFFFE (.pull 127 0x100000 .clean) id (fun m => (m.ctx 127).stall) = true ∧
    slot 0x13 0xE00001 0x10FFFE (.outat 127 0xE00001 .clean) (fun m => (m.wr (R.CTX_X 127) 800).updCtx 127 (fun c =>
      { c with timed := [⟨0, 0, false, false, 0, false⟩] })) (fun m => next1 m && (m.ctx 127).timed.length == 2) = true ∧
    slot 0x14 0x00BC01 0xFF03FC (.flag 127 0x00BC01 .clean) id (fun m => next1 m && m.xNow.map (·.2.1) == [15]) = true ∧
    slot 0x15 0x000003 0xFFFFFC (.signal 127 3 .clean) id (fun m => next1 m && bit 3 (m.rd (R.CTX_STICKY 127) ||| m.rd (R.CTX_EVT 127)))
      = true ∧
    slot 0x16 0x010000 0x00FFE0 (.crcs 127 0x010000 .clean) (fun m => ((m.wr (R.CTX_Y 127) 1).wr (R.CTX_CRC_POLY 127) 0x07).wr (R.CTX_CFG 127)
      0x380CFFC0) (fun m => next1 m && m.rd (R.CTX_X 127) == 0x07) = true ∧
    slot 0x17 0x000000 0xFFFFFF (.halt 127 0 .clean) id (fun m => next1 m && m.ctxState 127 == 3 && m.rd (R.CTX_RUN 127) == 0) = true
    := by
  and_intros <;> decide +kernel

/-- WAITTIME reads TIME, whose place within its tolerance is free: an instant a second away either way decides it. -/
theorem wit_TurretInstructions_waittime : Issues 0x0B (127 : Fin 128) 0x010000 0xF0FFFF (sTur 0x0B 0x010000 id) ∧
    (∃ t, turTime (sTur 0x0B 0x010000 id).m = t) :=
  ⟨by decide +kernel, _, rfl⟩

theorem wit_TurretFaults : slotOpen (sTur 1 0 (·.setEngine 7 {})).m 127 = false ∧ slotOpen (sTur 1 0 id).m 127 = true ∧
    turWord (sTur 1 5 id).m 7 ((sTur 1 5 id).m.rd (R.CTX_PC 127)) = 2 ^ 27 + 5 ∧
    gives (.ldi 127 4 .clean) (sTur 1 5 id) (fun m => m.rd (R.CTX_PC 127) == 0 && m.rd (R.CTX_X 127) == 0) = true ∧
    gives (.ldi 127 5 .fatal) (sTur 1 5 id) (fun m => m.ctxState 127 == 4 && m.rd (R.CTX_FAULT 127) == 0x04000000) = true ∧
    gives (.ldi 127 5 .clean) (sTur 0x18 5 id) (fun m => m.rd (R.CTX_FAULT 127) == 0x01000000) = true ∧
    gives (.ldi 127 0x010000 .clean) (sTur 1 0x010000 id) (fun m => m.rd (R.CTX_FAULT 127) == 0x01000000) = true ∧
    Issues 0x01 (127 : Fin 128) 0x800000 0x0F0000 (sTur 1 0x800000 id) ∧ regWritable (fRd 0x800000) = false ∧
    gives (.ldi 127 0x800000 .clean) (sTur 1 0x800000 id) (fun m => m.rd (R.CTX_FAULT 127) == 0x02000000) = true ∧
    Issues 0x09 (127 : Fin 128) 0x000000 0x1CFFFF (sTur 9 0 id) ∧ pinBound (sTur 9 0 id).m 127 0 = false ∧
    gives (.waitpin 127 0 .clean) (sTur 9 0 id) (fun m => m.rd (R.CTX_FAULT 127) == 0x03000000 && m.rd (R.CTX_RUN 127) == 0) = true ∧
    (ctxFault 127 15 (sTur 9 0 id).m).rd (R.CTX_FAULT 127) = 0x0F000000 := by
  and_intros <;> decide +kernel

theorem wit_TurretCommands : May .keep (R.TUR_RUN 7) false (sTur 0 0 (·.setEngine 7 {})) ∧
    gives (.turRunOn .keep 7) (sTur 0 0 (·.setEngine 7 {})) (fun m => (m.engine 7).st != 0 && m.on (R.TUR_RUN 7)) = true ∧
    gives (.turRunOn .keep 7) (sTur 0 0 id) (fun m => (m.engine 7).st == 2) = true ∧
    gives (.turRunOff .keep 7) (sTur 0 0 (·.setEngine 7 { st := 1 })) (fun m => (m.engine 7).st == 0) = true ∧
    gives (.turRunOff .keep 7) (sTur 0 0 id) (fun m => (m.engine 7).st == 2 && !m.on (R.TUR_RUN 7)) = true ∧
    gives (.roundBoundary 7) (sTur 0 0 (·.wr (R.TUR_RUN 7) 0)) (fun m => (m.engine 7).st == 0 && m.ctxState 127 == 2) = true ∧
    gives (.roundBoundary 7) (sTur 0 0 (·.updCtx 127 (fun c => { c with used := true }))) (fun m => !(m.ctx 127).used) = true ∧
    gives (.roundBoundary 7) (sTur 0 0 (·.setEngine 7 { st := 1, granted := true })) (fun m => (m.engine 7).st == 2) = true ∧
    pinChan (sTur 0 0 id).m 127 7 = some 127 ∧
    gives (.timedEdgePlay 127) (sTur 0 0 (·.updCtx 127 (fun c => { c with dirs := 0x80, oe := 0x80, timed := [⟨7, 0, true, false, 0, true⟩] }))) (fun m =>
      (m.ctx 127).timed == [] && (m.ctx 127).pins == 0x80 && (m.chan 127).level) = true ∧
    ctxRunOk (sTur 0 0 id).m 127 = true ∧ ctxRunOk s0.m 127 = false ∧
    gives (.ctxRunWrite .keep 127 true) (sTur 0 0 (·.wr (R.CTX_RUN 127) 0)) (fun m => m.on (R.CTX_RUN 127)) = true ∧
    gives (.ctxRunWrite .keep 127 true) s0 (fun m => !m.on (R.CTX_RUN 127) && (m.core 2).eact) = true ∧
    gives (.ctxRunWrite .keep 127 false) (sTur 0 0 id) (fun m => !m.on (R.CTX_RUN 127)) = true ∧
    gives (.release .keep 127) (sTur 0 0 (·.wr (R.CTX_STATE 127) 4)) (fun m => m.ctxState 127 == 0 && !ctxClaims m 127) = true ∧
    MayPort 16 1 0x480027F0 s0 ∧ MayPort 0 0 0x480027F0 s0 ∧
    gives (.txPortPush 16 127 5) s0 (fun m => (m.ctx 127).tx.map (·.v) == [5]) = true ∧
    txFull (sTur 0 0 (·.updCtx 127 (fun c => { c with tx := [⟨1, 0, 0, 0⟩, ⟨2, 0, 0, 0⟩, ⟨3, 0, 0, 0⟩, ⟨4, 0, 0, 0⟩] }))).m 127 = true ∧
    gives (.txPortPush 16 127 5) (sTur 0 0 (·.updCtx 127 (fun c => { c with tx := [⟨1, 0, 0, 0⟩, ⟨2, 0, 0, 0⟩, ⟨3, 0, 0, 0⟩, ⟨4, 0, 0, 0⟩] }))) (fun m =>
      m.rd (R.CTX_CNT_TX_DROP 127) == 0 && (m.ctx 127).tx.map (·.v) == [1, 2, 3, 4]) = true ∧
    ((txSettle 127 (sTur 0 0 (·.updCtx 127 (fun c => { c with tx := [⟨1, 9, 0, 0⟩, ⟨2, 9, 0, 0⟩, ⟨3, 9, 0, 0⟩, ⟨4, 9, 0, 0⟩, ⟨5, 0, 0, 0⟩] }))).m).ctx
      127).tx.map (·.v) = [1, 2, 3, 4] ∧
    gives (.rxPortPop 16 127) s0 (fun m => m.out == []) = true ∧
    gives (.rxPortPop 0 127) (sTur 0 0 (·.updCtx 127 (fun c => { c with rx := [⟨9, 0, 0, 0⟩, ⟨8, 0, 0, 0⟩] }))) (fun m => m.out == [⟨.load 2, [9]⟩] &&
      (m.ctx 127).rx.map (·.v) == [8]) = true ∧
    gives (.rxPortPop 0 127) s0 (fun m => m.out == [⟨.load 2, [0]⟩]) = true ∧
    gives (.ctxTxqPush .keep 127 5) (sTur 0 0 (·.updCtx 127 (fun c => { c with tx := [⟨1, 0, 0, 0⟩, ⟨2, 0, 0, 0⟩, ⟨3, 0, 0, 0⟩, ⟨4, 0, 0, 0⟩] }))) (fun m =>
      (m.ctx 127).tx.map (·.v) == [1, 2, 3, 4] && (m.core 2).eact) = true ∧
    gives (.ctxRxqPop .keep 127 true) (sTur 0 0 (·.updCtx 127 (fun c => { c with rx := [⟨9, 0, 0, 0⟩, ⟨8, 0, 0, 0⟩] }))) (fun m =>
      m.pops == [(true, 127)] && ((rxPop 127 m).ctx 127).rx.map (·.v) == [8]) = true ∧
    gives (.ctxQFlush .keep 127 2) (sTur 0 0 (·.updCtx 127 (fun c => { c with tx := [⟨1, 0, 0, 0⟩], rx := [⟨9, 0, 0, 0⟩] }))) (fun m => (m.ctx 127).tx.map (·.v) == [1] &&
      (m.ctx 127).rx == []) = true ∧
    gives (.turFlagSet .keep 7 0x80000001) s0 (fun m => m.flagIns.map (·.2.2) == [(0x80000001, true)]) = true ∧
    gives (.turFlagClr .keep 7 0x80000000) s0 (fun m => m.flagIns.map (·.2.2) == [(0x80000000, false)]) = true ∧
    gives (.turXflagSet .keep 0x8001) s0 (fun m => m.flagIns.map (·.2.1) == [R.TUR_XFLAG_SET.key]) = true ∧
    gives (.turXflagClr .keep 0xFFFF) s0 (fun m => m.flagIns.map (·.2.2) == [(0xFFFF, false)]) = true ∧ R.TUR_FLAG_SET 7 ∈ flagObjs ∧
    (flagsLand { s0.m with flagIns := [(0, (R.TUR_FLAG_SET 7).key, 0x80000001, true)] }).rd (R.TUR_FLAG_SET 7) = 0x80000001 ∧
    (flagsLand { s0.m with flagIns := [(1, (R.TUR_FLAG_SET 7).key, 0x80000001, true)] }).rd (R.TUR_FLAG_SET 7) = 0 := by
  and_intros <;> decide +kernel

/-! ## Counters and the Belfries -/

/-- Every object 5, counted where the list names it. -/
def counted (l : List Obj) : State := at_ (fun m => l.foldl (fun m o => m.wr o 5) m)

def clears (c : Instr) (l : List Obj) (keep : List Obj) : Bool :=
  gives c (counted l) (fun m => l.all (fun o => m.rd o == if keep.contains o then 5 else 0))

theorem wit_CounterClears : May .keep (R.WHL_CNT_CLR 15) false (counted (whlCounters 15)) ∧ May .keep (barCmd .field) false s0 ∧
    clears (.whlCntClr .keep 15 0xFF) (whlCounters 15) [] = true ∧ clears (.ocuCntClr .keep 15 0xFF) (ocuCounters 15) [] = true ∧
    clears (.chCntClr .keep 127 0xFF) (chCounters 127) [] = true ∧ clears (.pwmCntClr .keep 15 0xFFF7) (pwmCounters 15) [] = true ∧
    bit 3 (8 : BitVec 16).toNat = true ∧ gives (.pwmCntClr .keep 15 8) s0 (fun m => (m.core 2).eact) = true ∧
    clears (.belCntClr .keep .field 0xFF) (belCounters .field) [] = true ∧ clears (.safCntClr .keep 0xFF) safCounters [] = true ∧
    clears (.belCntClr (.spire 0) .host 0xFF) (belCounters .host) [] = true ∧
    clears (.canCntClr (.spire 0) 1 0xFF) (canCounters 1) [] = true ∧ clears (.sprCntClr (.spire 0) 1 0xFF) (sprCounters 1) [] = true ∧
    clears (.keepCntClr .keep 0xFF) keepCounters [] = true ∧ clears (.movClear .keep 15) (movCounters 15) [] = true ∧
    clears (.trpClear .keep 15) (trpCounters 15) [] = true ∧ clears (.ctxClear .keep 127) (ctxCounters 127) [] = true ∧
    gives (.evtClear .keep 1023) (at_ (fun _ => (counted (evtCounters 1023)).m.setEvtSlot 1023 { st := 1 })) (fun m =>
      (evtCounters 1023).all (fun o => m.rd o == 0)) = true ∧ clears (.evtClear .keep 1023) (evtCounters 1023) (evtCounters 1023) = true ∧ clears (.axClear .keep 127) (axCounters 127) [] = true ∧
    clears (.barClear .keep .field) (barCounters .field) [] = true ∧ clears (.redClear (.spire 0)) redCounters [] = true ∧
    clears (.lanClear .keep) [R.LAN_CNT_OVL, R.LAN_CNT_ABANDON, R.LAN_DEMAND_MAX, R.LAN_DEC_NW_MAX 31, R.LAN_DEC_LR_MAX 31] [] = true ∧
    clears (.whlCntClr .keep 15 0xFE) (whlCounters 15) [R.WHL_CNT_NOISE 15] = true := by
  and_intros <;> decide +kernel

theorem wit_CounterClears_network : [NetClr.net, .port 3, .cb].all (fun c => clears (.netCntClr (.spire 0) c 0xFF) (netCounters c) []) = true
    := by
  decide +kernel

/-- Source 511 in service for Keep. -/
def sSvc : State := at_ (fun m => m.setSrc .field 511 { svc := 1 })

theorem wit_BelfryCommands : MayCore 2 1 (claimAddr 2) sSvc ∧ coreTarget 2 = 1 ∧
    gives (.complete 2 511) sSvc (fun m => (m.src .field 511).svc == 0 && m.rd (cntBad .field) == 0) = true ∧
    gives (.complete 2 0x3FF) sSvc (fun m => (m.src .field 511).svc == 1 && m.rd (cntBad .field) == 0) = true ∧
    gives (.complete 2 512) sSvc (fun m => m.rd (cntBad .field) == 1) = true ∧
    gives (.complete 2 510) sSvc (fun m => m.rd (cntBad .field) == 1) = true := by
  and_intros <;> decide +kernel

theorem wit_BelfryCommands_registers : May .keep (pendSetObj .field 0) false s0 ∧
    gives (.belPendSet .keep .field 0 3) s0 (fun m => m.asserts == [0, 1]) = true ∧
    gives (.belPendClr .keep .field 15 0x80000000) (at_ (·.setSrc .field 511 { pend := true, cnt := 3 })) (fun m =>
      !(m.src .field 511).pend && (m.src .field 511).cnt == 0) = true ∧
    gives (.belEnSet .keep .field 15 0x80000000) s0 (fun m => belEnabled m .field 511) = true ∧
    gives (.belEnClr .keep .field 15 0x80000000) (at_ (·.wr (R.BEL_F_EN_SET 15) 0x80000000)) (fun m => !belEnabled m .field 511) = true ∧
    belCfgOk 0x04000000 = true ∧ belCfgOk 0x40 = false ∧ belCfgOk 0x05000000 = false ∧
    gives (.belSrcCfgWrite .keep 383 0x04000000) s0 (fun m => m.rd (srcCfgObj 383) == 0x04000000) = true ∧
    gives (.belSrcCfgWrite .keep 0 0x40) s0 (fun m => (m.core 2).eact) = true ∧
    gives (.hostTimerMatch 15) (at_ (·.wr (R.BEL_H_TMR_EN 15) 1)) (fun m => !m.on (R.BEL_H_TMR_EN 15) &&
      m.asserts == [447]) = true ∧
    gives (.hostTimerMatch 15) (at_ (fun m => ((m.wr (R.BEL_H_TMR_EN 15) 1).wr (R.BEL_H_TMR_PER 15) 10)))
      (fun m => m.rd (R.BEL_H_TMR_CMP 15) == 10) = true ∧
    gives (.groupFire .field 31) (at_ (fun m => (m.setSrc .field 9 { pend := true, cnt := 1, cfg := 0x3F }).setGrp .field 31 { start := some 0 })) (fun m => m.rd (grpFiresObj .field 31) == 1 &&
      m.grp .field 31 == {}) = true := by
  and_intros <;> decide +kernel

/-! ## The register view -/

def adr (o : Obj) : Word := BitVec.ofNat 32 o.addr

theorem wit_RegisterWrite : writerLive s0.m .keep = true ∧ regAt (adr (R.WHL_SYNC_CONFIRM 15)).toNat = some (0x21F1, 8) ∧
    gate .keep (R.WHL_SYNC_CONFIRM 15) false s0.m = none ∧
    (regHit s0.m 0x21F1 8).isSome = true ∧
    gives (.registerWrite .keep (adr (R.WHL_SYNC_CONFIRM 15)) 3) s0 (fun m => m.rd (R.WHL_SYNC_CONFIRM 15) == 3) = true ∧
    gives (.registerWrite .keep (adr (R.WHL_SYNC_CONFIRM 15)) 4) s0 (fun m => m.rd (R.WHL_SYNC_CONFIRM 15) == 1 && (m.core 2).eact) = true ∧
    gives (.registerWrite .keep (adr (R.CTX_STATE 127)) 1) s0 (fun m => m.ctxState 127 == 0 && (m.core 2).eact) = true ∧
    gives (.registerWrite .keep (adr (R.CTX_ENTRY 127)) 1) (at_ (·.wr (R.CTX_STATE 127) 1)) (fun m => m.rd (R.CTX_ENTRY 127) == 0 &&
      (m.core 2).eact) = true ∧
    gives (.registerWrite .keep (adr (R.CTX_ENTRY 127)) 1) s0 (fun m => m.rd (R.CTX_ENTRY 127) == 1) = true ∧
    gives (.registerWrite (.spire 0) (adr (R.BEL_H_TMR_CMP 15)) 7) s0 (fun m => m.rd (R.BEL_H_TMR_CMP 15) == 0 &&
      mapGet 0 0 m.dic.stage == 7) = true ∧
    gives (.registerWrite (.spire 0) (adr (R.BEL_H_TMR_CMP 15) + 4) 1)
      (at_ (fun m => { m with dic := { m.dic with stage := mapSet 0 0 7 m.dic.stage } })) (fun m =>
        m.rd (R.BEL_H_TMR_CMP 15) == 2 ^ 32 + 7 && mapGet 0 0 m.dic.stage == 0) = true ∧
    s0.m.user 0x7FFF 255 = none ∧ tyOf 2 ≠ .dom ∧ retOf 1 ≠ .k ∧ (s0.m.core 2).held = false ∧ (s0.m.core 0).held = false ∧
    gives (.userObjectDeclare 0x7FFF 255 2 1 false 1 9) s0 (fun m => (m.user 0x7FFF 255).isSome) = true ∧
    gives (.userObjectDeclare 0x6000 1 2 1 false 1 9) s0 (fun m => m.dic.users.length == 1) = true := by
  and_intros <;> decide +kernel

/-! ## Safety -/

/-- The machine out of the safe state, in OPERATIONAL, every cause latched or held gone. -/
def ok1 (m : Mach) : Mach :=
  (((linkUp { m with saf := { m.saf with latchA := false, latchB := false } }).wr R.SAF_STATE 0).wr R.SAF_LATCHED 0).wr R.SAF_ACTIVE 0

def sOk (f : Mach → Mach) : State := at_ (fun m => f (ok1 m))

/-- A command enters the safe state with a cause. -/
def safeBy (c : Nat) (i : Instr) (s : State) : Bool := s.m.safe == false && causeSelected s.m c && gives i s (fun m =>
  m.safe && m.rd R.SAF_STATE == 1 && m.rd R.SAF_CAUSE == c && bit c (m.rd R.SAF_LATCHED) && m.rd R.SAF_CNT_ENTRY == 1 &&
  (m.core 2).c7 == [BitVec.ofNat 32 (0x200 + c)].map (·.toNat))

/-- The safe state was released in this tick, by Keep. -/
def sReleased : State := sOk (fun m =>
  releaseRequest 0 ((({ m with saf := { m.saf with latchA := true, latchB := true } }).wr R.SAF_STATE 1).wr R.SAF_LATCHED 5))

theorem wit_SafeStateEntry : releasedNow sReleased.m = true ∧ sReleased.m.safe = false ∧ sReleased.m.rd R.SAF_CNT_RELEASE = 1 ∧
    gives .overtemp sReleased (fun m => m.safe && m.rd R.SAF_STATE == 1 && m.rd R.SAF_LATCHED == 0x20005 && m.rd R.SAF_CNT_REL_REFUSED == 1 &&
      m.rd R.SAF_CNT_RELEASE == 0 && m.rd R.SAF_EVT == 0x24 && m.saf.logQ.map (fieldAt 20 1) == [3, 4]) = true ∧
    gives (.ss1 .keep) sReleased (fun m => m.rd R.SAF_STATE == 0) = true ∧ releasedNow (sOk id).m = false ∧ Settled (sOk id) ∧ May .keep R.SAF_DEMAND false (sOk id) ∧
    safeBy 21 (.sto .keep) (sOk id) = true ∧ safeBy 20 .ss1Timeout (sOk (·.wr R.SAF_STATE 2)) = true ∧
    safeBy 2 (.clockMonitorFault 0) (sOk id) = true ∧ safeBy 5 (.clockMonitorFault 3) (sOk id) = true ∧
    safeBy 16 (.clockMonitorFault 4) (sOk id) = true ∧
    (sOk id).m.on R.SAF_STO_TEST = true ∧ stoOn (sOk id).m = true ∧ stoPulseDue (sOk id).m false = true ∧ safeBy 11 (.stoTestPulse false false) (sOk id) = true ∧
    safeBy 11 .stoReadbackFault (sOk id) = true ∧ safeBy 12 .kaReadbackFault (sOk id) = true ∧ safeBy 17 .overtemp (sOk id) = true ∧
    causeSelected (sOk (·.wr R.SAF_REACT 0)).m 17 = false ∧
    gives .overtemp (sOk (·.wr R.SAF_REACT 0)) (fun m => !m.safe && m.rd R.SAF_LATCHED == 0x20000 && bit 4 (m.rd R.SAF_EVT)) = true ∧
    (sOk id).m.saf.wdrAt = none ∧ wdGood (sOk id).m.saf.wd (sOk id).m.now (400 * (sOk id).m.rd R.SAF_WD_MIN) 0 = false ∧
    safeBy 8 (.safWdKick .keep 0) (sOk id) = true ∧ safeBy 8 .fieldWatchdogExpiry (sOk id) = true ∧
    diagWord (sOk id).m = 0xFFFE0001 ∧ safeBy 9 (.safDiagSeq .keep 0xFFFF0000) (sOk id) = true ∧
    safeBy 9 .diagIntervalExpiry (sOk id) = true := by
  and_intros <;> decide +kernel

/-- The safe state in force with no cause held, and an open session of the PCIe route. -/
def sLatched : State := sOk (fun m => ({ m with saf := { m.saf with latchA := true, latchB := true } }).wr R.SAF_STATE 1)

def rich (m : Mach) : Mach := m.setCore 2 { m.core 2 with lvl := 2 }

theorem wit_SafetyCommands : May .keep R.SAF_DEMAND false (sOk id) ∧ May .keep R.SAF_RELEASE true sLatched ∧
    gives (.ss1 .keep) (sOk id) (fun m => m.rd R.SAF_STATE == 2 && !m.safe && m.saf.logQ.length == 1) = true ∧
    gives (.ss1 .keep) sLatched (fun m => m.rd R.SAF_STATE == 1 && m.saf.logQ == []) = true ∧
    gives (.safRelease .keep 0x736C6572) sLatched (fun m => m.safe && m.rd R.SAF_CNT_REL_REFUSED == 1) = true ∧
    sLatched.m.rd R.SAF_STATE = 1 ∧ sLatched.m.rd R.SAF_ACTIVE = 0 ∧ sLatched.m.saf.causeAt ≠ some sLatched.m.now ∧
    gives (.safRelease .keep 0x736C6572) (⟨[], sLatched.m.wr R.SAF_LOCAL_REL 1⟩) (fun m => !m.safe && m.rd R.SAF_STATE == 0 &&
      m.rd R.SAF_CNT_RELEASE == 1) = true ∧
    gives (.safRelease .keep 0x736C6572) (⟨[], (sLatched.m.wr R.SAF_LOCAL_REL 1).wr R.SAF_ACTIVE 4⟩) (fun m => m.safe &&
      m.rd R.SAF_CNT_REL_REFUSED == 1) = true ∧
    gives (.safRelease .keep 0x736C6573) sLatched (fun m => m.safe && (m.core 2).eact) = true ∧
    causeHeld 18 = true ∧ causeStands s0.m 18 = false ∧
    gives (.causeCleared 18) (sOk (·.wr R.SAF_ACTIVE 0x40000)) (fun m => m.rd R.SAF_ACTIVE == 0) = true ∧
    gives (.stoTestPulse false true) (sOk id) (fun m => m.saf.test.isSome && !m.safe) = true ∧
    wdGood { start := 0 } 0 0 0x5AC3 = true ∧
    gives (.safWdKick .keep 0x5AC3) (sOk (fun m => { m.wr R.SAF_WD_MIN 0 with saf := { m.saf with wd := {} } })) (fun m =>
      m.saf.wd.second && !m.safe) = true ∧
    gives .fieldWatchdogWarning (sOk id) (fun m => m.saf.wd.warned && m.asserts == [373]) = true ∧
    gives (.safDiagSeq .keep 0xFFFE0001) (sOk id) (fun m => m.rd R.SAF_DIAG_CNT == 1 && !m.safe) = true := by
  and_intros <;> decide +kernel

theorem wit_SafetyCommands_keys : May .keep R.SAF_KEY_COMMIT true (sOk id) ∧
    gives (.safKeyCommit .keep 0x7379656B) (sOk (·.wr (R.SAF_KEY 7) 0x01000000)) (fun m => (m.saf.key.getD []).length == 32 &&
      (m.saf.key.getD []).getLast? == some 1) = true ∧
    gives (.safKeyCommit .keep 0) (sOk id) (fun m => m.saf.key == none && (m.core 2).eact) = true ∧
    gives (.blowDbgLock .keep) (sOk id) (fun m => !m.saf.dbgLock && (m.core 2).eact) = true ∧
    gives (.blowSafLock .keep) (sOk id) (fun m => !m.saf.safLock && (m.core 2).eact) = true ∧
    (sOk id).m.saf.logQ.length < 32 ∧
    gives (.safLogAppend .keep 5) (sOk id) (fun m => m.saf.logQ.length == 1) = true ∧
    gives (.safLogAppend .keep 5) (sOk (fun m => { m with saf := { m.saf with logQ := List.replicate 32 [] } })) (fun m =>
      m.rd R.SAF_CNT_LOG_LOST == 1 && m.saf.logQ.length == 32) = true ∧
    gives (.safLogAppend (.dict .pcie 0) 5) (sOk id) (fun m => m.saf.logQ == [] && m.rd R.DIC_ABORT_COUNT == 1) = true ∧
    gives .logRecordWrite (sOk (fun m => { m with saf := { m.saf with logQ := [List.replicate 16 0 ++ [5, 0, 0, 0] ++ List.replicate 12 7] } }))
      (fun m => m.rd R.SAF_LOG_HEAD == 5 && memRd m.fram (0xC0000 + 32 * 5 + 20) == 7) = true := by
  and_intros <;> decide +kernel

/-- A session of the PCIe route with handle 9 is open. -/
def sSess (f : Mach → Mach) : State := sOk (fun m => f { m with saf := { m.saf with sess := [⟨9, .pcie, [], true, 0⟩] } })

/-- A writer of the PCIe route with a handle. -/
def viaSess (h : BitVec 8) : Writer := .dict .pcie h

theorem wit_SafetyCommands_fuses : May (viaSess 9) R.SAF_FUSE_CMD true (sSess id) ∧ (sSess id).m.linked .field = true ∧
    gives (.blowDbgLock (viaSess 9)) (sSess id) (fun m => m.saf.dbgLock && m.saf.logQ.length == 1) = true ∧
    gives (.blowDbgLock (viaSess 9)) (sSess (·.updEnd .field (fun e => { e with st := 5 }))) (fun m => !m.saf.dbgLock) = true ∧
    (sSess id).m.saf.key = none ∧
    gives (.blowSafLock (viaSess 9)) (sSess id) (fun m => !m.saf.safLock && m.rd R.DIC_ABORT_COUNT == 1) = true ∧
    gives (.blowSafLock (viaSess 9)) (sSess (fun m => { m with saf := { m.saf with key := some [1] } })) (fun m => m.saf.safLock) = true
    := by
  and_intros <;> decide +kernel

/-! ## Resets -/

def fieldAfter (cause : Nat) (m : Mach) : Bool :=
  m.rd R.KEEP_RESTART_CAUSE == cause && m.safe && (m.core 2).lvl == 2 && (m.core 2).xmask == 3 && m.octets == []

def hostAfter (cause : Nat) (m : Mach) : Bool :=
  m.rd (R.SPR_RESTART_CAUSE 1) == cause && (m.core 1).held && (m.core 0).lvl == 2 && m.saf.sess == []

/-- Both sides in use: an octet runs, FTB is 9 and Keep's memory holds a byte. -/
def sUsed : State := sSess (fun m => ({ m with tb := { m.tb with ftb := 9 }, keepMem := [(0x10000000, 5)] }).setOctet 0 { st := 3 })

def pulseFault (o : Host.Outcome State Fault Refusal) : Bool :=
  match o with
  | .fault .undefinedResetPulse => true
  | _ => false

theorem wit_Resets : Settled sUsed ∧ May .keep (resetObj .field) true sUsed ∧ May (.spire 0) (resetObj .host) true sUsed ∧
    gives (.por .field 0xFF 0x81 true) sUsed (fun m => fieldAfter 1 m && m.tb.ftb == 0 && m.keepMem == [] &&
      m.rd R.PWR_F_RAIL_STAT == 0x810000) = true ∧
    gives (.por .host 0 0 true) sUsed (fun m => hostAfter 1 m && m.pwr.vddio33 && m.tb.ftb == 9) = true ∧
    gives (.bor .field) sUsed (fieldAfter 2) = true ∧ gives (.pin .field 1000) sUsed (fieldAfter 3) = true ∧
    gives (.pin .field 199) sUsed (· == sUsed.m) = true ∧
    pulseFault (exec (.pin .field 200) sUsed) = true ∧ pulseFault (exec (.pin .field 999) sUsed) = true ∧
    gives (.wdr .field) sUsed (fun m => fieldAfter 4 m && m.tb.ftb == 9 && m.keepMem == [(0x10000000, 5)]) = true ∧
    gives (.wdr .host) sUsed (hostAfter 4) = true ∧
    gives (.swsOwn .keep .field) sUsed (fieldAfter 6) = true ∧ gives (.swsOwn (.spire 0) .host) sUsed (hostAfter 6) = true ∧
    gives (.swf .keep .field) sUsed (fun m => m.pwr.rstF.isSome && !fieldAfter 5 m) = true ∧ fieldAfter 5 (softReset .field 5 sUsed.m) = true ∧
    gives (.swsOther .keep .field) sUsed (fun m => (m.barEnd .field).queue.length == 1 && !m.safe) = true ∧
    gives (.swsOther .keep .field) s0 (fun m => (m.barEnd .field).queue == [] && (m.core 2).eact) = true ∧
    gives (.hostWdKick .keep 0) sUsed (fun m => !hostAfter 4 m) = true ∧
    gives (.hostWdKick (.dict .pcie 0) 0x5AC3) sUsed (hostAfter 4) = true ∧
    gives (.hostWdKick (.spire 1) 0x5AC3) (sSess (fun m => (m.wr R.PWR_H_WD_MIN 0).setCore 1 {})) (fun m => m.pwr.hWd.second) = true ∧
    hostWdPaused sUsed.m = false ∧ gives .hostWatchdogExpiry sUsed (hostAfter 4) = true ∧
    gives .hostWatchdogWarning (sSess id) (fun m => m.pwr.hWd.warned && m.asserts == [413]) = true
    := by
  and_intros <;> decide +kernel

/-! ## Power -/

set_option maxRecDepth 20000 in
theorem wit_OperatingStates : (sOk id).m.inHold = false ∧ May .keep R.PWR_F_STATE_REQ false (sOk id) ∧
    gives (.holdRequest .keep) (sOk id) (fun m => m.rd R.PWR_F_STATE == 2 && bit 0 (m.rd R.PWR_F_EVT)) = true ∧
    (sOk (·.wr R.PWR_F_STATE 2)).m.inHold = true ∧
    gives (.holdRequest .keep) (sOk (·.wr R.PWR_F_STATE 2)) (fun m => m.rd R.PWR_F_STATE_REQ == 2) = true ∧
    gives (.runRequest .keep) (sOk (·.wr R.PWR_F_STATE 2)) (fun m => m.rd R.PWR_F_STATE == 0) = true ∧
    gives (.runRequest .keep) (sOk (·.wr R.PWR_F_STATE_REQ 3)) (fun m => m.rd R.PWR_F_STATE_REQ == 0) = true ∧
    gives (.sleepRequest .keep) (sOk id) (fun m => m.pwr.fSleepReq) = true ∧
    gives (.sleepRequest .keep) (sOk (·.wr R.PWR_F_STATE 2)) (fun m => !m.pwr.fSleepReq && (m.core 2).eact) = true := by
  and_intros <;> decide +kernel

/-- The field side in SLEEP at a wake stage. -/
def sWake (n : Nat) (g : Bool) : State := sOk (fun m => { m with pwr := { m.pwr with fSleep := true, stage := n, granted := g } })

/-- A source stands for Keep, enabled. -/
def belUp (m : Mach) : Mach := (m.wr (R.BEL_F_EN_SET 1) 2).setSrc .field 33 { pend := true, cnt := 1, cfg := 0x01000300 }

set_option maxRecDepth 20000 in
theorem wit_OperatingStates_sleep : gives .sleepEntry (sOk (fun m => { m with pwr := { m.pwr with fSleepReq := true } }.setCore 2
      { m.core 2 with gated := true })) (fun m => m.pwr.fSleep && m.barState .field == 0) = true ∧
    belWakes (sOk id).m 2 = false ∧ belWakes (belUp (sWake 0 false).m) 2 = true ∧
    gives (.wake false) ⟨[], belUp (sWake 0 false).m⟩ (fun m => m.pwr.stage == 1 && m.rd R.PWR_F_WAKE_CAUSE == 1) = true ∧
    gives (.wake true) ⟨[], (sWake 0 false).m.wr R.PWR_F_WAKE_BAR 1⟩ (fun m => m.pwr.stage == 1 && m.rd R.PWR_F_WAKE_CAUSE == 2) = true ∧
    gives .wakeStage (sWake 1 true) (fun m => m.pwr.stage == 2 && m.pwr.fSleep) = true ∧
    gives .wakeStage (sWake 2 true) (fun m => m.pwr.stage == 3) = true ∧
    gives .wakeStage (sWake 3 false) (fun m => m.pwr.stage == 4 && !m.pwr.fSleep && bit 5 (m.rd R.PWR_F_EVT)) = true ∧
    gives .wakeStage ⟨[], { (sWake 4 false).m with pwr := { stage := 4 } }⟩ (fun m => m.pwr.stage == 0 && m.barState .field == 3) = true ∧
    gives .wakeStage ⟨[], { (sWake 4 false).m with pwr := { stage := 4 } }.updEnd .field (fun e => { e with st := 0 })⟩ (fun m =>
      m.barState .field == 1) = true ∧
    May (.spire 0) R.PWR_H_STATE_REQ false (sOk id) ∧
    gives (.hostSleepRequest (.spire 0)) (sOk id) (fun m => m.pwr.hSleepReq) = true ∧
    (s0.m.core 1).held = true ∧
    gives .hostSleepEntry (sOk (fun m => { m with pwr := { m.pwr with hSleepReq := true } }.setCore 0 { gated := true })) (fun m =>
      m.pwr.hSleep && m.barState .host == 0) = true ∧
    gives (.hostWake true) (sOk (fun m => { m with pwr := { m.pwr with hSleep := true } }.wr R.PWR_H_WAKE_BAR 1)) (fun m =>
      !m.pwr.hSleep && m.barState .host == 1) = true := by
  and_intros <;> decide +kernel

set_option maxRecDepth 20000 in
theorem wit_PowerCommands : borNow (sOk id).m .field = false ∧
    gives (.railWarningAssert 0) ⟨[], sideReset .field 2 (sOk id).m⟩ (fun m => m.rd R.PWR_F_RAIL_STAT == 0 && m.rd R.SAF_ACTIVE == 0) = true ∧
    borNow (sideReset .field 2 (sOk id).m) .field = true ∧ railSupervised (sOk id).m 12 = true ∧ railSupervised (sOk id).m 13 = false ∧
    gives (.railWarningAssert 12) (sOk (fun m => m.wr R.PWR_BW_SAFE 0x8000)) (fun m => bit 12 (m.rd R.PWR_F_RAIL_STAT) &&
      bit 4 (m.rd (R.TRP_LATCH_CAUSE 15)) && bit 15 (m.rd R.SAF_ACTIVE)) = true ∧
    gives (.railWarningAssert 16) (sOk id) (fun m => bit 0 (m.rd R.PWR_H_RAIL_STAT) && (m.core 0).c7 == [0x110]) = true ∧
    gives (.railWarningAssert 19) (sOk id) (fun m => bit 3 (m.rd R.PWR_H_RAIL_STAT)) = true ∧
    gives (.railWarningDeassert 12) (sOk (putRailF 0x1000)) (fun m => m.rd R.PWR_F_RAIL_STAT == 0 &&
      m.rd R.PWR_F_BW_EPISODES == 1) = true ∧
    gives (.railWarningDeassert 12) (sOk (putRailF 0x1001)) (fun m => m.rd R.PWR_F_RAIL_STAT == 1 &&
      m.rd R.PWR_F_BW_EPISODES == 0) = true ∧
    gives (.railWarningDeassert 16) (sOk (putRailH 1)) (fun m => m.rd R.PWR_H_BW_EPISODES == 1) = true ∧
    gives .creditAdd (sOk (·.wr R.PWR_INRUSH_CREDITS 62)) (fun m => m.rd R.PWR_INRUSH_CREDITS == 64) = true ∧
    gives .governorGrant (sOk (fun m => { m with pwr := { m.pwr with gov := [.tur 7] } }.wr R.PWR_INRUSH_CREDITS 4)) (fun m =>
      m.pwr.gov == [] && m.rd R.PWR_INRUSH_CREDITS == 0) = true ∧
    gives .governorGrant (sOk (fun m => { m with pwr := { m.pwr with gov := [.tur 7] } }.wr R.PWR_INRUSH_CREDITS 3)) (fun m =>
      m.pwr.gov == [.tur 7]) = true ∧
    May .keep R.PWR_UNIT_STOP false (sOk id) ∧
    gives (.pwrUnitStop .keep 0x60F) (sOk id) (fun m => m.rd R.PWR_CNT_UNIT == 0 && (m.core 2).eact) = true ∧
    gives (.pwrUnitStop .keep 0x607) (sOk (·.wr (R.TUR_RUN 7) 1)) (fun m => m.rd R.PWR_CNT_UNIT == 1 && !m.on (R.TUR_RUN 7)) = true ∧
    gives (.pwrUnitStop .keep 0x10F) (sOk (·.wr (R.WHL_ENABLE 15) 1)) (fun m => !m.on (R.WHL_ENABLE 15)) = true ∧
    gives (.pwrUnitStop .keep 0x201) (sOk id) (fun m => m.rd R.PWR_CNT_UNIT == 0) = true := by
  and_intros <;> decide +kernel

set_option maxRecDepth 20000 in
theorem wit_PowerCommands_boot : May (.spire 0) R.PWR_H_FW_CMD false (sOk id) ∧ (sOk id).m.bar.fwOut = none ∧
    gives (.reloadField (.spire 0)) (sOk id) (fun m => bits 3 2 (m.rd R.PWR_H_BOOT_STAT) == 2 && m.bar.fwOut == none) = true ∧
    gives (.reloadField (.spire 0)) (sOk (fun m => { m with bar := { m.bar with fwOut := some 0 } })) (fun m => (m.core 0).eact) = true ∧
    May (viaSess 9) R.PWR_H_BOOTKEY_CMD true (sSess id) ∧
    gives (.bootkeyCommit (viaSess 9) 0x6B746F62) (sSess id) (fun m => m.saf.bootKey.isSome) = true ∧
    gives (.bootkeyCommit (viaSess 9) 0) (sSess id) (fun m => m.saf.bootKey == none) = true ∧
    gives (.bootkeyCommit (viaSess 9) 0x6B746F62) (sSess (fun m => { m with saf := { m.saf with bootKey := some [7] } })) (fun m =>
      m.saf.bootKey == some [7]) = true ∧
    gives (.bootkeyCommit (.spire 0) 0x6B746F62) (sOk id) (fun m => m.saf.bootKey == none && (m.core 0).eact) = true ∧
    gives (.pcieStateChange true false true) (sOk id) (fun m => m.pwr.pcieUp && m.asserts == [408]) = true
    := by
  and_intros <;> decide +kernel

/-! ## The barrier -/

/-- A sound frame with sequence number 0. -/
def fr (typ : Nat) (p : List Byte) : LinkFrame := ⟨true, frameBytes ⟨typ, p⟩ 0⟩

def comes (side : Side) (typ : Nat) (p : List Byte) (s : State) : Bool := (linkAccept side (fr typ p) s.m).1 == some ⟨typ, p⟩

def sEnd (side : Side) (st : Nat) (f : BarEnd → BarEnd) : State := sOk (fun m => (m.updEnd side (fun e => f { e with st := st, lanes := 15 })))

set_option maxRecDepth 20000 in
theorem wit_BarrierTraining : gives (.laneAlignmentLoss .host 3) (sOk (·.updEnd .host (fun e => { e with lanes := 15 }))) (fun m => m.rd (lanesObj .host) == 7) = true ∧
    gives (.ts1Received .field) (sEnd .field 4 id) (fun m => m.barState .field == 1) = true ∧
    gives (.ts1Received .field) (sEnd .field 5 id) (fun m => m.barState .field == 1) = true ∧
    gives (.receiverAligned .host) (sEnd .host 1 id) (fun m => (m.barEnd .host).ts2 && m.rd (lanesObj .host) == 15) = true ∧
    gives (.ts2Received .host) (sEnd .host 1 (fun e => { e with ts2 := true, rxSeq := 9 })) (fun m => m.barState .host == 2 &&
      (m.barEnd .host).rxSeq == 0 && (m.barEnd .host).queue.length == 1) = true ∧
    comes .field 1 [0, 0, 0, 0] (sEnd .field 3 id) = true ∧
    gives (.link .field (fr 1 [0, 0, 0, 0])) (sEnd .field 3 (fun e => { e with quiet := 9 })) (fun m => (m.barEnd .field).quiet == 0) = true ∧
    gives (.linkDue .field) (sEnd .field 2 (fun e => { e with nak := true })) (fun m => !(m.barEnd .field).nak &&
      (m.barEnd .field).wire.length == 1) = true ∧
    gives (.replayTimeout .host) (sEnd .host 3 (fun e => { e with replay := [(5, ⟨11, []⟩)] })) (fun m =>
      (m.barEnd .host).resend == [(5, ⟨11, []⟩)] && m.rd (cntRetx .host) == 0 && (linkAgain .host m).rd (cntRetx .host) == 1 &&
      ((linkAgain .host m).barEnd .host).wire == [frameBytes ⟨11, []⟩ 5]) = true ∧
    urgent (sEnd .field 3 (fun e => { e with queue := [(1, ⟨5, []⟩)] })).m .field = true ∧ urgent (sEnd .field 3 id).m .field = false ∧
    gives (.linkDue .field) (sEnd .field 3 (fun e => { e with queue := [(1, ⟨5, []⟩)] })) (fun m => (m.barEnd .field).due &&
      (m.barEnd .field).wire == []) = true ∧
    gives (.hello .host (fr 2 (List.replicate 16 1))) ⟨[], { (sEnd .host 2 (fun e => { e with txSeq := 1 })).m with bar :=
      { (sEnd .host 2 (fun e => { e with txSeq := 1 })).m.bar with early := some (7, 9) } }⟩ (fun m => m.bar.adopted &&
      m.rd R.BAR_H_SAFE_CNT_A == 7 && m.rd R.BAR_H_SAFE_CNT_B == 9) = true ∧
    comes .host 2 (List.replicate 16 1) (sEnd .host 2 (fun e => { e with txSeq := 1 })) = true ∧
    gives (.hello .host (fr 2 (List.replicate 16 1))) (sEnd .host 2 (fun e => { e with txSeq := 1 })) (fun m => m.barState .host == 3 &&
      m.bar.helloVer == 0x01010101 && m.bar.calLeft == 64) = true ∧
    gives (.hello .host (fr 2 (List.replicate 16 1))) (sEnd .host 2 id) (fun m => m.barState .host == 2 && (m.barEnd .host).gotHello) = true := by
  and_intros <;> decide +kernel

set_option maxRecDepth 20000 in
theorem wit_BarrierTraining_loss : comes .field 3 [0, 1, 0, 0] (sEnd .field 3 id) = true ∧
    gives (.state .field (fr 3 [0, 0, 0, 0])) (sEnd .field 3 id) (fun m => m.barState .field == 3) = true ∧
    gives (.state .host (fr 3 [2, 1, 0, 0])) (sEnd .host 3 id) (fun m => m.barState .host == 5 && m.bar.peerState == 2) = true ∧
    gives (.state .field (fr 3 [0, 1, 0, 0])) (sOk (·.wr R.BAR_F_QUIET_REACT 0)) (fun m => m.barState .field == 5 && !m.safe) = true ∧
    safeBy 14 (.state .field (fr 3 [0, 1, 0, 0])) (sOk (·.wr R.BAR_F_QUIET_REACT 1)) = true ∧
    gives (.barrierLoss .host) (sEnd .host 2 id) (fun m => m.barState .host == 4 && m.rd R.BAR_H_CNT_LOSS == 1) = true ∧
    safeBy 14 (.barrierLoss .field) (sEnd .field 3 id) = true ∧
    gives (.barrierLoss .field) (sOk (·.wr R.BAR_F_LOSS_REACT 1)) (fun m => m.barState .field == 4 && m.bar.cstop.isSome && !m.safe) = true ∧
    safeBy 14 .cstopLimit (sOk (fun m => { m with bar := { m.bar with cstop := some 0 } })) = true := by
  and_intros <;> decide +kernel

noncomputable def safeCmd (b : Bool) (cmd cnt : Nat) : Instr :=
  if b then .safeB (fr 17 (safePayload true cmd cnt)) else .safeA (fr 16 (safePayload false cmd cnt))

/-- Spire1 runs at M. -/
def spire1 (m : Mach) : Mach := m.setCore 1 { m.core 1 with held := false }

/-- A copy of a command waits for its match on a channel, in the safe state with no cause held. -/
def waits (b : Bool) (cmd cnt : Nat) : State := ⟨[], setCopies b [⟨cmd, cnt, 0, false⟩] sLatched.m⟩

set_option maxRecDepth 20000 in
theorem wit_SafeChannels : MayCore 0 1 (safePort false) (sOk id) ∧ MayCore 1 1 (safePort true) (sOk spire1) ∧
    gives (.safeAStore 0 0x1E) (sOk id) (fun m => m.rd (hostCnt false) == 1 && (m.barEnd .host).queue.length == 1) = true ∧
    gives (.safeBStore 1 0x4B) (sOk spire1) (fun m => m.rd (hostCnt true) == 1 && (m.barEnd .host).queue.length == 1) = true ∧
    gives (.safeAStore 0 0x1F) (sOk id) (fun m => m.rd (hostCnt false) == 0 && (m.core 0).eact) = true ∧
    gives (.safeAStore 1 0x1E) (sOk spire1) (fun m => m.rd (hostCnt false) == 0 && (m.core 1).eact) = true ∧
    comes .field 16 (safePayload false 0x1E 1) (sOk id) = true ∧ comes .field 17 (safePayload true 0x4B 65535) (sOk id) = true ∧
    safeParse true (safePayload true 0x4B 65535) = some (0x4B, 65535) ∧ safeParse false (safePayload false 0x2D 1) = some (0x2D, 1) ∧
    safeParse false (List.replicate 8 0) = none ∧
    gives (.safeA (fr 16 (List.replicate 8 0))) (sOk id) (fun m => m.rd R.BAR_F_CNT_SAFE_REJ == 1 && !m.safe) = true ∧
    safeBy 19 (safeCmd false 0x1E 1) (sOk id) = true ∧ safeBy 19 (safeCmd true 0x1E 1) (sOk id) = true ∧
    gives (safeCmd true 0x2D 1) (sOk id) (fun m => m.rd R.SAF_STATE == 2 && m.rd (fieldCnt true) == 1) = true ∧
    gives (safeCmd false 0x1E 0) (sOk id) (fun m => !m.safe) = true ∧
    gives (safeCmd true 0x1E 1) (waits false 0x1E 1) (fun m => m.rd (fieldCnt true) == 1 && copies m false == []) = true ∧
    gives (safeCmd false 0x4B 1) sLatched (fun m => copies m false == [⟨0x4B, 1, 0, false⟩] && m.safe) = true ∧
    gives (safeCmd true 0x4B 1) (waits false 0x4B 1) (fun m => !m.safe && m.rd (fieldCnt true) == 1 && m.rd (fieldCnt false) == 1) = true ∧
    gives (safeCmd true 0x4B 2) (waits false 0x4B 1) (fun m => m.safe && copies m false == [⟨0x4B, 1, 0, false⟩] &&
      copies m true == [⟨0x4B, 2, 0, false⟩]) = true ∧
    gives (.safeDiscrepancy true) (waits false 0x4B 1) (fun m => m.rd R.BAR_F_CNT_SAFE_DISC == 1 && copies m false == []) = true ∧
    gives (.safeDiscrepancy true) ⟨[], setCopies false [⟨0x4B, 1, 0, true⟩] sLatched.m⟩ (fun m => m.rd R.BAR_F_CNT_SAFE_DISC == 0 &&
      copies m false == []) = true := by
  and_intros <;> decide +kernel

/-- R433's worked case: a round trip of 96,375 ps and an asymmetry of 400 ps give d = 28,900 ps. -/
theorem test_R433 : gives (.calibrationComplete 96375) (sOk (fun m => { m with
      bar := { m.bar with calLeft := 1 }, regs := mapPut R.BAR_H_ASYM.key 400 m.regs })) (fun m => m.rd R.BAR_H_CAL_DELAY == 28900)
    = true := by
  decide +kernel

/-- The beacon of strobe 5 at host line time 1,000, and a field that captured it at cap, in a servo mode. -/
def beacon5 : List Byte := toLe 8 1000 ++ toLe 4 5

def sBeacon (cap mode : Nat) : State := sOk (fun m => { m with bar := { m.bar with strobe := some (5, cap, 0) } }.wr R.LT_SERVO_MODE mode)

set_option maxRecDepth 20000 in
theorem wit_StrobeCommands : gives .strobeSend (sOk id) (fun m => m.rd R.BAR_H_STROBE_NUM == 1 && (m.barEnd .host).queue.length == 1)
      = true ∧ lclkMode (sOk id).m = false ∧
    gives (.strobeCapture 9) (sOk id) (fun m => m.bar.strobe == some (9, 0, 0)) = true ∧
    gives .calibrationStart (sOk id) (fun m => m.bar.calLeft == 64) = true ∧ May (.spire 0) R.BAR_H_CMD false (sOk id) ∧
    gives (.cal (.spire 0)) (sOk id) (fun m => m.bar.calLeft == 64) = true ∧
    (calStrobe (sOk (fun m => { m with bar := { m.bar with calLeft := 64 } })).m).bar.calLeft = 63 ∧
    (calStrobe (sOk (fun m => { m with bar := { m.bar with calLeft := 64 } })).m).bar.echoes = [16] ∧
    (calEcho (sOk (fun m => { m with bar := { m.bar with echoes := [16, 17] } })).m).bar.calGot = 1 ∧
    gives (.strobeCal (fr 6 (toLe 8 28900))) (sOk id) (fun m => m.bar.calNs == 28900 && m.rd R.BAR_F_CAL_DELAY == 28900) = true ∧
    comes .field 6 (toLe 8 28900) (sOk id) = true ∧ comes .host 5 (List.replicate 12 0) (sOk id) = true ∧
    comes .field 4 beacon5 (sOk id) = true ∧
    gives (.beacon (fr 4 beacon5)) (sBeacon 990 1) (fun m => m.rdI 32 R.LT_BEACON_ERR == 10 && !bit 2 (m.rd R.LT_SERVO_STATUS) &&
      m.bar.strobe == none) = true ∧
    gives (.beacon (fr 4 beacon5)) (sBeacon 0 1) (fun m => m.rd R.LT_BEACON_ERR == 1000 && m.tb.step == 0) = true ∧
    gives (.beacon (fr 4 beacon5)) ⟨[], (sBeacon 0 1).m.wr R.LT_STEP_THRESH 999⟩ (fun m => m.tb.step == 1000 &&
      bit 2 (m.rd R.LT_SERVO_STATUS)) = true ∧
    gives (.beacon (fr 4 beacon5)) (sBeacon 0 0) (fun m => m.rd R.LT_ADDEND == (sOk id).m.rd R.LT_ADDEND && m.tb.step == 0) = true ∧
    gives (.beacon (fr 4 (toLe 8 1000 ++ toLe 4 6))) (sBeacon 0 1) (fun m => m.bar.strobe.isSome) = true ∧
    gives (.barEchoCmd (.spire 0) .host) (sOk id) (fun m => (m.barEnd .host).queue.length == 1) = true ∧
    comes .host 20 [1, 7] (sOk id) = true ∧
    gives (.echoMessage .host (fr 20 [1, 7])) (sOk id) (fun m => bit 8 (m.rd R.BAR_H_EVT)) = true ∧
    gives (.echoMessage .field (fr 20 [0, 7])) (sOk id) (fun m => (m.barEnd .field).queue == [(7, ⟨20, [1, 7]⟩)]) = true := by
  and_intros <;> decide +kernel

/-- Request 0 is forwarded, from slot 3 of the PCIe route. -/
def fwd0 : Fwd := { ask := ⟨1, ⟨.pcie, 3, true, 7, 0, 0x1881, 1, 0, 0, []⟩, none⟩, at_ := 0 }

def sFwd : State := sOk (fun m => { m with bar := { m.bar with fwds := [(0, fwd0)] } })

/-- Keep stands halted in debug. -/
def halted (m : Mach) : Mach := m.setCore 2 { m.core 2 with halted := true }

/-- An image header for Keep's SRAM at 0x10000100 with an empty body, then its body. -/
def image : List Byte := toLe 4 0x584A5453 ++ toLe 4 1 ++ toLe 4 0x01020304 ++ toLe 4 0x10000100 ++ toLe 4 0x10000110 ++ toLe 4 0 ++
  sha256 [] ++ List.replicate 200 0

set_option maxRecDepth 20000 in
theorem wit_BarrierMessages : comes .host 8 [0, 0, 0, 0, 1] sFwd = true ∧ comes .host 8 [0, 0x81, 0, 0, 9] sFwd = true ∧
    gives (.dicRsp (fr 8 [0, 0, 0, 0, 1])) sFwd (fun m => m.bar.fwds.map (fun e => e.2.got) == [[1]]) = true ∧
    gives (.dicRsp (fr 8 ([0, 0x80, 0, 0] ++ List.replicate 16 0))) sFwd (fun m => m.bar.fwds == [] && (getSlot m .pcie 3).ready) = true ∧
    gives (.dicRsp (fr 8 ([0, 0x80, 0, 0] ++ (List.replicate 7 0 ++ [1] ++ toLe 4 0x06020000 ++ List.replicate 4 0)))) sFwd (fun m =>
      m.rd R.DIC_LAST_ABORT == 0x06020000 && m.rd R.DIC_ABORT_COUNT == 1) = true ∧
    gives (.cycIn (fr 9 (List.replicate 4 0))) (sOk halted) (fun m => m.rd R.BAR_F_CNT_HALT_DROP == 1) = true ∧
    comes .field 9 (toLe 4 0 ++ [1, 20, 0, 0] ++ toLe 8 5 ++ toLe 4 6 ++ toLe 8 7) (sOk id) = true ∧
    gives (.cycIn (fr 9 (toLe 4 0 ++ [1, 20, 0, 0] ++ toLe 8 5 ++ toLe 4 6 ++ toLe 8 7))) (sOk id) (fun m => m.rd (R.NM_POS 0) == 5 &&
      m.rd (R.NM_SPEED 0) == 6 && m.rd (R.NM_LT 0) == 7 && m.rd (R.NM_VALID 0) == 1) = true ∧
    comes .host 10 (toLe 4 9 ++ [4, 2, 0, 0, 5, 6]) (sOk id) = true ∧
    gives (.cycOut (fr 10 (toLe 4 9 ++ [4, 2, 0, 0, 5, 6]))) (sOk id) (fun m => (cycSet m 9).msgs == 1 &&
      (cycSet m 9).recs.length == 1) = true ∧
    comes .host 11 (toLe 2 383 ++ [3, 0] ++ toLe 4 77) (sOk id) = true ∧
    gives (.event .host (fr 11 (toLe 2 383 ++ [200, 0] ++ toLe 4 0x02000000))) (sOk id) (fun m => (m.bel .host).arr == [(383, 31, 0x02000000)]) = true ∧
    (sOk id).m.entries = [] ∧ messageOf (.cycOut (fr 10 (toLe 4 9 ++ [4, 2, 0, 0, 5, 6]))) = some (.host, 10, fr 10 (toLe 4 9 ++ [4, 2, 0, 0, 5, 6])) ∧
    gives (.cycOut (fr 10 (toLe 4 9 ++ [4, 2, 0, 0, 5, 6]))) (sOk (fun m => { m with entries := [(.host, 1)] })) (fun m =>
      (cycSet m 9).msgs == 0 && (m.barEnd .host).rxSeq == 1) = true := by
  and_intros <;> decide +kernel

set_option maxRecDepth 20000 in
theorem wit_BarrierMessages_loads : comes .field 12 (toLe 4 0 ++ [1]) (sOk id) = true ∧
    gives (.fwLoad (fr 12 (toLe 4 0 ++ [1]))) (sOk halted) (fun m => m.rd R.BAR_F_CNT_HALT_DROP == 1) = true ∧
    gives (.fwLoad (fr 12 (toLe 4 0 ++ [1]))) (sOk id) (fun m => m.bar.fwIn == [1]) = true ∧
    image.length = 256 ∧ imgHeaderOk .field image = true ∧
    gives (.fwLoad (fr 12 (toLe 4 206 ++ image.drop 206))) (sOk (fun m => { m with bar := { m.bar with fwIn := image.take 206 } }))
      (fun m => (m.core 2).pc == 0x10000110 && m.bar.fieldVer == 0x01020304) = true ∧
    gives (.fwStatus (fr 13 (List.replicate 4 0 ++ [2, 0, 0, 0]))) (sOk (fun m => { m with bar := { m.bar with fwOut := some 0 } })) (fun m =>
      m.bar.fwOut == none) = true ∧ comes .host 13 (List.replicate 4 0 ++ [2, 0, 0, 0]) (sOk id) = true ∧
    gives (.persRestore (fr 14 (toLe 4 0 ++ toLe 4 8))) (sOk id) (fun m => m.bar.restored == toLe 4 8) = true ∧
    comes .host 14 (toLe 4 0 ++ toLe 4 4) (sOk id) = true ∧
    gives (.persRestore (fr 14 (toLe 4 0 ++ toLe 4 4))) (sOk id) (fun m => m.bar.kReady) = true ∧
    gives (.persStore (fr 15 (toLe 4 0 ++ [7]))) (sOk halted) (fun m => m.rd R.BAR_F_CNT_HALT_DROP == 1) = true ∧
    gives (.persStore (fr 15 (toLe 4 0 ++ [7]))) (sOk id) (fun m => m.bar.persIn == [7]) = true ∧
    comes .field 15 (toLe 4 0 ++ [7]) (sOk id) = true ∧
    comes .host 18 (List.replicate 8 0x11) (sOk id) = true ∧
    gives (.safeStatus (fr 18 (List.replicate 8 0x11))) (sOk id) (fun m => m.bar.adopted && m.rd R.BAR_H_SAFE_CNT_B == 0x1111) = true ∧
    gives (.safeStatus (fr 18 (List.replicate 8 0x11))) (sOk (fun m => { m with bar := { m.bar with adopted := true } })) (fun m =>
      m.rd R.BAR_H_SAFE_CNT_A == 0) = true ∧
    gives (.safeStatus (fr 18 (List.replicate 8 0x11))) (sEnd .host 2 id) (fun m => m.bar.early == some (0x1111, 0x1111) && !m.bar.adopted &&
      m.rd R.BAR_H_SAFE_CNT_A == 0) = true ∧
    comes .field 19 [1, 0, 0, 0] (sOk id) = true ∧
    gives (.resetReq .field (fr 19 [1, 0, 0, 0])) (sOk id) (fieldAfter 6) = true ∧
    gives (.resetReq .host (fr 19 [2, 0, 0, 0])) (sOk id) (hostAfter 5) = true := by
  and_intros <;> decide +kernel

/-! ## The dictionary -/

def q0 : Req := ⟨.pcie, 3, true, 7, 0, 0x1801, 2, 0, 0, []⟩

/-- The answer frame of the PCIe slot the requests here come from. -/
def rsp3 (m : Mach) : List Byte := (getSlot m .pcie 3).rsp

/-- Both parameter images are restored. -/
def sReady : State := sOk (fun m => { m with bar := { m.bar with kReady := true } })

/-- A transfer of the PCIe route on a program of the field side, on handle 1. -/
def sXfers : State := ⟨[], { sReady.m with dic := { sReady.m.dic with xfers := [(1, ⟨.pcie, 0x500F, 0, true, 4, 0, [], 0, 0, false⟩)] } }⟩

def qx : Req := { q0 with handle := 1, index := 0x500F, sub := 0 }

theorem wit_DictionaryRequests_forwarded : ServiceIdle sXfers ∧ ([3, 4].all (fun op => dicBar op { qx with handle := 0 } sReady.m == none)) = true ∧
    [5, 6, 7].all (fun op => dicBar op qx sXfers.m == none) = true ∧
    [1, 2, 3].all (fun k => dicBar 8 (sessionReq k { q0 with index := 0x1900, sub := 0 }) sReady.m == none) = true ∧
    [Instr.domainOpenRead { qx with handle := 0 }, .domainSegment qx, .domainClose qx, .domainCancel qx,
      .prove { q0 with index := 0x1900, sub := 0 }, .sessionClose { q0 with index := 0x1900, sub := 0 }].all (fun c =>
      gives c sXfers (fun m => m.bar.fwds.length == 1)) = true ∧
    overruled sReady.m R.DIC_DOMAIN_IDLE = false ∧ outranked sReady.m (.dict .pcie 0) R.DIC_DOMAIN_IDLE = false := by
  and_intros <;> decide +kernel

theorem wit_DictionaryRequests : ServiceIdle sReady ∧ dicBar 1 q0 sReady.m = none ∧
    dicBar 1 { q0 with whole := false } sReady.m = some .frame ∧ dicBar 1 { q0 with index := 0x1FFF } sReady.m = some .noObject ∧
    gives (.read { q0 with whole := false }) sReady (fun m => fieldAt 7 1 (rsp3 m) == 1 && m.rd R.DIC_ABORT_COUNT == 1) = true ∧
    dicBar 1 { q0 with index := 0x21F1, sub := 8 } sReady.m = none ∧ ownerOf 0x21F1 = .field ∧ ownerOf 0x1801 = .host ∧
    gives (.read { q0 with index := 0x21F1, sub := 8 }) sReady (fun m => m.bar.fwds.map (·.1) == [0] &&
      (m.barEnd .host).queue.length == 1) = true ∧
    dicBar 8 { q0 with index := 0x1900, sub := 0, arg := 1 } sReady.m = none ∧
    gives (.challenge { q0 with index := 0x1900, sub := 0 }) sReady (fun m => m.bar.fwds.length == 1) = true ∧
    dicBar 4 { q0 with index := 0x500F, sub := 0, data := [0, 0, 0, 0] } sReady.m = none ∧
    gives (.domainOpenWrite { q0 with index := 0x500F, sub := 0, data := [0, 0, 0, 0] }) sReady (fun m => m.bar.fwds.length == 1) = true ∧
    gives (.read q0) sReady (fun m => fieldAt 16 4 (rsp3 m) == 100 && fieldAt 7 1 (rsp3 m) == 0) = true ∧
    dicBar 2 { q0 with data := [0x60, 0xEA, 0, 0] } sReady.m = none ∧
    gives (.write { q0 with data := [0x60, 0xEA, 0, 0] }) sReady (fun m => m.rd R.DIC_DOMAIN_IDLE == 60000) = true ∧
    gives (.write { q0 with data := [0x61, 0xEA, 0, 0] }) sReady (fun m => m.rd R.DIC_DOMAIN_IDLE == 100) = true ∧
    dicBar 9 { q0 with arg := 5, data := [9] } sReady.m = none ∧
    gives (.echo { q0 with arg := 5, data := [9] }) sReady (fun m => fieldAt 8 4 (rsp3 m) == 5 && (rsp3 m).drop 16 == [9]) = true ∧
    gives (.forwardTimeout 0) sFwd (fun m => m.bar.fwds == [] && m.bar.dead == [0] && m.rd R.DIC_FWD_TIMEOUTS == 1) = true ∧
    gives (.domainIdleExpiry 3) (sOk (fun m => { m with dic := { m.dic with xfers := [(4, ⟨.pcie, 0x1881, 1, false, 4, 0, [1], 0, 0, false⟩)] } }))
      (fun m => (getXfer m 4).any (·.closed)) = true ∧
    gives (.sessionIdleExpiry 9) (sSess id) (fun m => m.saf.sess == []) = true := by
  and_intros <;> decide +kernel

/-- A whole request in one fragment on XID 0, which came from the PCIe route. -/
def rq (op handle idx sub sess arg : Nat) (d : List Byte) : List Byte := [0, 0x80, 0, 0] ++ frameOf 0 op handle idx sub sess arg d

/-- The field end of the request's XID, with an open transfer on handle 1 and a session of handle 9. -/
def sAgent (x : Option Xfer) (f : Mach → Mach) : State := sSess (fun m => f { m with
  bar := { m.bar with fwds := [(0, fwd0)] }
  dic := { m.dic with xfers := (x.map (fun x => (1, x))).toList } })

/-- The answers the field agent queued: the flag byte and the rest from ARG on. -/
def answered1 (s : State) (p : List Byte) (flag : Nat) (k : Mach → Bool) : Bool :=
  comes .field 7 p s && gives (.dicReq (fr 7 p)) s (fun m => (m.barEnd .field).queue.map (fun e => fieldAt 11 1 e.2.payload) == [flag] && k m)

def wrXfer (total crc next : Nat) (d : List Byte) : Xfer := { route := .pcie, idx := 0x500F, sub := 0, wr := true, total := total, crc := crc, data := d, next := next }

def rdXfer (next : Nat) : Xfer := { wrXfer 4 0 next [1, 2, 3, 4] with wr := false }

set_option maxRecDepth 20000 in
theorem wit_FieldAgent : comes .field 7 [0, 0, 0, 0, 5] (sAgent none id) = true ∧
    gives (.dicReq (fr 7 [0, 0, 0, 0, 5])) (sAgent none id) (fun m => (m.bar.parts.map (·.2.got)) == [[5]]) = true ∧
    gives (.dicReq (fr 7 [0, 2, 0, 0, 5])) (sAgent none id) (fun m => m.bar.parts == []) = true ∧
    answered1 (sAgent none halted) (rq 1 0 0x21F1 8 0 0 []) 1 (fun _ => true) = true ∧
    answered1 (sAgent none id) (rq 1 0 0x21F1 8 0 0 []) 0 (fun m => (m.barEnd .field).queue.map (fun e => fieldAt 20 1 e.2.payload) == [1])
      = true ∧
    answered1 (sAgent none id) (rq 2 0 0x21F1 8 0 0 [3]) 0 (fun m => m.rd (R.WHL_SYNC_CONFIRM 15) == 3) = true ∧
    answered1 (sAgent none id) (rq 3 0 0x500F 0 0 0 []) 0 (fun m => (getXfer m 1).isSome) = true ∧
    answered1 (sAgent none id) (rq 4 0 0x500F 0 0 8 [0, 0, 0, 0]) 0 (fun m => (getXfer m 1).any (·.wr)) = true ∧
    answered1 (sAgent (some (wrXfer 8 0 0 [])) id) (rq 5 1 0x500F 0 0 4 [1]) 1 (fun m => (getXfer m 1).any (fun x => x.data == [])) = true ∧
    answered1 (sAgent (some (wrXfer 8 0 0 [])) id) (rq 5 1 0x500F 0 0 0 [1]) 0 (fun m => (getXfer m 1).any (fun x => x.data == [1])) = true ∧
    answered1 (sAgent (some (rdXfer 2)) id) (rq 5 1 0x500F 0 0 2 []) 0 (fun m => (getXfer m 1).any (fun x => x.next == 4) &&
      (m.barEnd .field).queue.map (fun e => e.2.payload.drop 20) == [[3, 4]]) = true ∧
    answered1 (sAgent (some (rdXfer 4)) id) (rq 5 1 0x500F 0 0 4 []) 1 (fun _ => true) = true ∧
    answered1 (sAgent (some (rdXfer 4)) id) (rq 6 1 0x500F 0 0 0 []) 0 (fun m => m.dic.xfers == []) = true ∧
    answered1 (sAgent (some (wrXfer 4 0 2 [1, 2])) id) (rq 6 1 0x500F 0 0 0 []) 1 (fun m => m.dic.xfers == []) = true ∧
    answered1 (sAgent (some (wrXfer 2 0 2 [1, 2])) id) (rq 6 1 0x500F 0 0 0 []) 1 (fun m => m.dic.xfers == []) = true ∧
    answered1 (sAgent (some (wrXfer 0 0 0 [])) id) (rq 6 1 0x500F 0 0 0 []) 0 (fun m => m.dic.xfers == []) = true ∧
    answered1 (sAgent (some (wrXfer 2 0 2 [1, 2])) id) (rq 7 1 0x500F 0 0 0 []) 0 (fun m => m.dic.xfers == []) = true ∧
    answered1 (sAgent none id) (rq 8 0 0x1900 0 0 1 []) 1 (fun _ => true) = true ∧
    comes .field 7 (rq 3 0 0x5300 0 0 0 []) (sAgent none id) = true ∧ (named (sAgent none id).m 0x5300 0).any (fun o => o.acc != .wo) = true ∧
    freeHandle (sAgent none id).m = some 1 ∧
    answered1 (sAgent none id) (rq 8 0 0x1900 0 9 3 []) 0 (fun m => m.saf.sess == []) = true := by
  and_intros <;> decide +kernel

/-- A committed key, with room for a challenge. -/
def keyed (m : Mach) : Mach := { m with saf := { m.saf with key := some [5], sess := [⟨9, .pcie, [], false, 0⟩] } }

/-- CHALLENGE draws its handle and nonce, and PROVE needs the part's serial number: none is a number here. -/
theorem wit_FieldAgent_sessions : comes .field 7 (rq 8 0 0x1900 0 0 1 []) (sAgent none keyed) = true ∧
    (sAgent none keyed).m.saf.key = some [5] ∧ sessRoom (sAgent none keyed).m .pcie = true ∧
    sessFind (sAgent none keyed).m 9 = some ⟨9, .pcie, [], false, 0⟩ ∧
    comes .field 7 (rq 8 0 0x1900 0 0 0x902 []) (sAgent none keyed) = true := by
  and_intros <;> decide +kernel

theorem wit_HostPorts : gives (.doorbell 3 []) (sOk (setSlot .pcie 3 { busy := true })) (fun m => m.rd R.DIC_MBX_REJECTS == 1) = true ∧
    gives (.doorbell 3 (frameOf 7 9 0 0 0 0 5 [])) (sOk id) (fun m => (getSlot m .pcie 3).ready && fieldAt 8 4 (rsp3 m) == 5) = true ∧
    gives (.mbxAck 0x80) (sOk (setSlot .pcie 3 { ready := true })) (fun m => getSlot m .pcie 3 == {}) = true ∧
    gives (.bar2Access .bar2 false 0x2000000 0) (sOk id) (fun m => m.out == [⟨.bus, [0]⟩]) = true ∧
    regAt (0x40000000 + 0x2000000) = none ∧ regAt (0x40000000 + 0x1FFFFFC) = some (0x7FFF, 255) ∧
    gives (.bar2Access .bar2 false (adr (R.WHL_STATE 0) - 0x40000000) 0) (sOk id) (fun m => m.out == [⟨.bus, [0]⟩]) = true ∧
    gives (.bar2Access .bar2 false (adr R.DIC_DOMAIN_IDLE - 0x40000000) 0) (sOk id) (fun m => m.out == [⟨.bus, [1, 100]⟩]) = true ∧
    gives (.bar2Access .bar2 true (adr R.DIC_DOMAIN_IDLE - 0x40000000) 9) (sOk id) (fun m => m.rd R.DIC_DOMAIN_IDLE == 9) = true ∧
    bar0Ram 0x3FC = true ∧ bar0Ram 0x400 = false ∧ bar0Ram 0x2000 = true ∧ bar0Ram 0x2200 = false ∧
    gives (.bar2Access .bar0 true 0x21FC 7) (sOk id) (fun m => mapGet 0 0x87F m.dic.bar0 == 7) = true ∧
    gives (.bar2Access .bar0 false 0x804 0) (sOk (setSlot .pcie 3 { ready := true })) (fun m => m.out == [⟨.bus, [1, 0x80]⟩]) = true ∧
    gives (.bar2Access .bar0 true 0x80C 0xFF) (sOk id) (fun m => m.dic.mbxIrqEn == 0xF0) = true := by
  and_intros <;> decide +kernel

theorem wit_HostPorts_frames : gives (.qspiWriteFrame 1 []) (sOk (setSlot .qspi 1 { ready := true })) (fun m => m.rd R.DIC_MBX_REJECTS == 1)
      = true ∧
    gives (.qspiWriteFrame 1 (frameOf 7 9 0 0 0 0 5 [])) (sOk id) (fun m => (getSlot m .qspi 1).ready) = true ∧
    gives (.qspiReadResponse 1) (sOk (setSlot .qspi 1 { ready := true, rsp := [8] })) (fun m => m.out == [⟨.bus, [8]⟩]) = true ∧
    gives (.qspiWriteFrame 2 []) (sOk id) (fun m => m.dic.qspiErr) = true ∧
    gives .qspiReadStatus (sOk (fun m => setSlot .qspi 1 { ready := true } { m with dic := { m.dic with qspiErr := true } })) (fun m =>
      m.out == [⟨.bus, [0x88]⟩] && !m.dic.qspiErr) = true ∧
    gives (.qspiAck 8) (sOk (setSlot .qspi 1 { ready := true })) (fun m => getSlot m .qspi 1 == {}) = true ∧
    gives (.pdataWrite 0xFFFF) (sOk (fun m => { m with dic := { m.dic with parIn := List.replicate 127 0 } })) (fun m =>
      m.dic.parIn.length == 128) = true ∧
    gives (.pdataWrite 0xFFFF) (sOk (fun m => { m with dic := { m.dic with parIn := List.replicate 128 0 } })) (fun m => m.dic.parErr) = true ∧
    gives .pdataRead (sOk (fun m => { m with dic := { m.dic with parOut := [7, 8] } })) (fun m => m.out == [⟨.bus, [7]⟩] &&
      m.dic.parOut == [8]) = true ∧
    gives .pdataRead (sOk id) (fun m => m.dic.parOut == []) = true ∧
    gives .submit (sOk (setSlot .par 0 { busy := true })) (fun m => m.rd R.DIC_MBX_REJECTS == 1) = true ∧
    gives .submit (sOk (fun m => { m with dic := { m.dic with parIn := List.replicate 8 0 } })) (fun m => m.dic.parIn == [] &&
      (getSlot m .par 0).ready) = true ∧
    (sOk (fun m => { m with pwr := { m.pwr with hSleep := true } })).m.hostOff = true ∧ (sOk id).m.hostOff = false ∧
    gives .submit (sOk (fun m => { m with pwr := { m.pwr with hSleep := true } })) (fun m => getSlot m .par 0 == {}) = true ∧
    gives .parAck (sOk (setSlot .par 0 { ready := true })) (fun m => getSlot m .par 0 == {}) = true ∧
    gives .fifoReset (sOk (fun m => { m with dic := { m.dic with parIn := [1], parOut := [2], parErr := true } })) (fun m =>
      m.dic.parIn == [] && m.dic.parOut == [] && !m.dic.parErr) = true := by
  and_intros <;> decide +kernel

/-! ## Network and CAN -/

/-- Port 3 is enabled and carries VLP and 802.1AS. -/
def netUp (m : Mach) : Mach := ((m.wr (R.NET_PORT_EN 3) 1).wr R.NET_PORTS 15).wr R.NET_AS_EN 1

def sNet (f : Mach → Mach) : State := sOk (fun m => f (netUp m))

def sSlave (first : Bool) : State := sNet (fun m => { m.wr R.NET_AS_STATE 2 with
  net := { m.net with gptp := { slave := some 3, first := first, good := 7 } } })

def ann (p : BitVec 8) : AnnounceMsg := ⟨0, p, 0, 0, 5, 0, 0⟩

set_option maxRecDepth 20000 in
theorem wit_NetworkCommands : asOn (sNet id).m 3 = true ∧ portOn (sNet id).m 3 = true ∧
    gives (.portLinkChange 3 true) (sNet id) (fun m => m.rd (R.NET_PORT_STATUS 3) == 1) = true ∧
    gives (.erroredFrame 3) (sNet id) (fun m => m.rd (R.NET_PORT_CNT_ERR 3) == 1) = true ∧
    gives (.gptpSync 3 ⟨0, 5000, 5000⟩) (sSlave false) (fun m => m.rd R.NET_AS_OFFSET == 0 && m.on R.NET_AS_LOCKED) = true ∧
    gives (.gptpSync 3 ⟨0, 5000, 5201⟩) (sSlave false) (fun m => m.rd R.NET_AS_OFFSET == 201 && !m.on R.NET_AS_LOCKED &&
      m.net.gptp.slew == -201) = true ∧
    gives (.gptpSync 3 ⟨0, 5000, 6001⟩) (sSlave true) (fun m => m.tb.hlt2 == 2 ^ 65 - 2002) = true ∧
    gives (.gptpSync 3 ⟨0, 5000, 6000⟩) (sSlave true) (fun m => m.tb.hlt2 == 0 && m.net.gptp.slew == -1000) = true ∧
    vecBetter (ownVector s0.m) (annVector (ann 249)) = true ∧ vecBetter (ownVector s0.m) (annVector (ann 247)) = false ∧
    gives (.gptpAnnounce 3 (ann 247)) (sNet id) (fun m => m.rd R.NET_AS_STATE == 2 && m.net.gptp.slave == some 3) = true ∧
    gives (.pdelayMeasurement 3 0 100 110 211) (sNet id) (fun m => linkDelay m 3 == 100) = true ∧
    gives (.pdelayResponse 3 5 100 200) (sNet id) (fun m => m.out == [⟨.eth 3, [0x88F7, 3, 0, 5, 100, 200]⟩]) = true ∧
    gives .grandmasterSync (sNet (·.wr R.NET_AS_STATE 3)) (fun m => m.out == [⟨.eth 3, [0x88F7, 0, 0]⟩] &&
      (mapGet [] 3 m.net.txq).map (·.data) == [[0x88F7, 8, 0, 0]]) = true ∧
    mapGet 0 3 (sNet id).m.net.busy ≤ (sNet id).m.hlt ∧ gclOn (sNet id).m 3 = false ∧ mapGet [] 3 (sNet id).m.net.txq = [] ∧
    gives (.arpRequest 3 7 8 9) (sNet (fun m => (m.wr R.NET_ENCAP 1).wr R.NET_IPV4 9)) (fun m => m.out == [⟨.eth 3, [0x0806, 7, 8, 9]⟩]) = true ∧
    gives (.arpRequest 3 7 8 9) (sNet (·.wr R.NET_IPV4 9)) (fun m => m.out == []) = true ∧
    gives (.cbStreamReset 7) (sNet id) (fun m => m.net.cb == []) = true ∧
    gclOn (sNet (·.wr (R.NET_GCL_EN 1) 1)).m 1 = true ∧
    gives (.gateEntryChange 1) (sNet (fun m => ((m.wr (R.NET_GCL_EN 1) 1).wr (R.NET_GCL_LEN 1) 2).wr (R.NET_GCL_ENTRY 1 0) 100)) (fun m => gateNow m 1 == 1) = true ∧
    gives (.gateEntryChange 1) (sNet (fun m => { (m.wr (R.NET_GCL_EN 1) 1).wr (R.NET_GCL_LEN 1) 2 with
      net := { m.net with gate := [(1, 1)] } })) (fun m => gateNow m 1 == 0) = true := by
  and_intros <;> decide +kernel

/-- The announce that stands times out with this module not able to be grandmaster. -/
theorem wit_NetworkCommands_timeout : gives (.announceReceiptTimeout 3) (sNet (fun m => { m.wr R.NET_AS_PRIO1 255 with
    net := { m.net with gptp := { ann := [(3, ann 247)] } } })) (fun m => m.net.gptp.ann == [] && m.rd R.NET_AS_STATE == 1) = true := by
  decide +kernel

/-- A node 5 of role 6; partner 15 is node 9. -/
def sRun (on : Bool) (f : Mach → Mach) : State := sNet (fun m => f ((((m.wr R.NET_NODE 5).wr R.RED_ROLE 6).wr (R.NET_PTN_NODE 15) 9).wr
  R.NET_RUN (boolNat on)))

/-- A PDU of a kind from node 9 in role 7, cycle 11. -/
def pdu (kind flags : Nat) (d : List Byte) : List Byte :=
  [1] ++ toLe 1 kind ++ toLe 2 9 ++ [7] ++ toLe 1 flags ++ toLe 2 d.length ++ toLe 4 1 ++ toLe 4 11 ++ d

def vf (p : List Byte) : VlpFrame := ⟨0x020000000009, false, 0, none, BitVec.ofNat 16 (s0.m.rd R.NET_ETHERTYPE), none, p⟩

set_option maxRecDepth 20000 in
theorem wit_CycleCommands : netRunOk (sRun false id).m = true ∧ netRunOk s0.m = false ∧ May (.spire 0) R.NET_RUN false (sRun false id) ∧
    gives (.netRunOn (.spire 0)) (sRun false (·.wr R.RED_EN 1)) (fun m => m.on R.NET_RUN && m.rd R.RED_STATE == 1 &&
      m.rd (R.NET_PTN_STATE 15) == 1 && m.rd (R.NET_PTN_STATE 0) == 0) = true ∧
    gives (.netRunOn (.spire 0)) s0 (fun m => !m.on R.NET_RUN && (m.core 0).eact) = true ∧
    gives (.netRunOff (.spire 0)) (sRun true (·.wr R.RED_STATE 3)) (fun m => !m.on R.NET_RUN && m.rd R.RED_STATE == 0) = true ∧
    gives (.redEnWrite (.spire 0) true) (sRun true id) (fun m => m.rd R.RED_STATE == 1 && bit 0 (m.rd R.RED_EVT)) = true ∧
    gives (.redEnWrite (.spire 0) false) (sRun true (·.wr R.RED_STATE 2)) (fun m => m.rd R.RED_STATE == 0) = true ∧
    gives (.rejoin (.spire 0)) (sRun true (·.wr R.RED_STATE 4)) (fun m => m.rd R.RED_STATE == 2) = true ∧
    gives (.rejoin (.spire 0)) (sRun true (·.wr R.RED_STATE 3)) (fun m => m.rd R.RED_STATE == 3) = true ∧
    gives (.yield (.spire 0)) (sRun true (·.wr R.RED_STATE 3)) (fun m => m.rd R.RED_STATE == 2) = true ∧
    gives (.yield (.spire 0)) (sRun true (·.wr R.RED_STATE 1)) (fun m => m.rd R.RED_STATE == 1) = true ∧
    gives (.cycleStart 12) (sRun true (fun m => { m.wr (R.NET_PTN_STATE 15) 2 with net := { m.net with heard := [9] } })) (fun m =>
      m.net.heard == [] && m.rd (R.NET_PTN_MISSED 15) == 0) = true ∧
    gives (.cycleStart 12) (sRun true (fun m => (m.wr (R.NET_PTN_STATE 15) 2).wr (R.NET_PTN_MISSED 15) 2)) (fun m =>
      m.rd (R.NET_PTN_STATE 15) == 3 && m.rd (R.NET_PTN_MISSED 15) == 3) = true ∧
    gives (.cycleStart 12) (sRun true (fun m => { m.wr R.RED_STATE 1 with net := { m.net with redCnt := 7 } })) (fun m =>
      m.rd R.RED_STATE == 3 && m.rd R.RED_EPOCH == 1) = true ∧
    gives (.cycleStart 12) (sRun true (fun m => { m.wr R.RED_STATE 2 with net := { m.net with redCnt := 2 } })) (fun m =>
      m.rd R.RED_STATE == 3 && m.rd R.RED_CNT_TAKEOVER == 1) = true ∧
    gives (.cycleSample 12) (sRun true (·.updEnd .field (fun e => { e with st := 4 }))) (fun m => cycSet m 12 == {}) = true ∧
    setWhole (sRun true (fun m => { m with net := { m.net with sets := [(12, { total := some 0 })] } })).m 12 = true ∧
    gives (.cycleTx 12) (sRun true id) (fun m => m.rd R.NET_CNT_LATE == 1) = true := by
  and_intros <;> decide +kernel

set_option maxRecDepth 20000 in
theorem wit_CycleCommands_pdus : vlpMine (sRun true id).m (vf (pdu 1 0 [])) = true ∧ pduOk (pdu 1 0 []) = true ∧
    gives (.vlpCyclic 3 (vf (pdu 1 0 []))) (sRun true id) (fun m => m.net.inbox == [(3, pdu 1 0 [])] && (framesTake m).net.heard == [9] &&
      (framesTake m).rd (R.NET_PTN_STATE 15) == 2 && (framesTake m).rd (R.NET_PTN_LAST_CYCLE 15) == 11) = true ∧
    (cyclicPdu (pdu 1 1 []) (setRole 0 ⟨7, 9, 2, 0⟩ (sRun true id).m)).rd R.NET_CNT_STALE_EPOCH = 1 ∧
    serialNewer 1 2 = false ∧ roleEntry (setRole 0 ⟨7, 9, 2, 0⟩ (sRun true id).m) 7 = some (0, ⟨7, 9, 2, 0⟩) ∧
    (findObj 0x1410 0x14).isSome = true ∧
    (findObj 0x1410 0x14).map (fun x => (readObj x { (sRun true id).m with tb := { (sRun true id).m.tb with hlt2 := 2 * (3 * (sRun true id).m.rd R.NET_CYCLE) } }).1) = some 3 ∧
    roleEntry (sRun true id).m 7 = none ∧ roleFree (sRun true id).m = some 0 ∧
    gives (.vlpCyclic 3 (vf (pdu 1 1 ([1, 20, 0, 0] ++ List.replicate 20 0)))) (sRun true id) (fun m =>
      (framesTake m).net.cycles == [(7, 12)] && (framesTake m).net.roles.map (·.1) == [0]) = true ∧
    recOk ⟨1, 0, List.replicate 20 0⟩ = true ∧ recOk ⟨2, 0, List.replicate 9 0⟩ = false ∧
    pduOk (pdu 2 0 (frameOf 7 9 0 0 0 0 5 [])) = true ∧
    gives (.vlpDicReq 3 (vf (pdu 2 0 (frameOf 7 9 0 0 0 0 5 [])))) (sRun true id) (fun m => m.out != []) = true := by
  and_intros <;> decide +kernel

/-- Controller 1 runs as node 5 in an NMT state. -/
def sCan (nmt : Nat) (f : Mach → Mach) : State := sOk (fun m => f ((((m.wr (R.CAN_EN 1) 1).wr (R.CAN_NODE_ID 1) 5).wr (R.CAN_BUS_STATE 1) 0).wr
  (R.CAN_NMT_STATE 1) nmt))

/-- TPDO and RPDO 7 with a transmission type map the 32 bits of DIC_DOMAIN_IDLE, CAN object 0xA801.02. -/
def pdo7 (typ : Nat) (m : Mach) : Mach :=
  ([(R.CAN_TPDO_COMM_TYPE 1 7, typ), (R.CAN_RPDO_COMM_TYPE 1 7, typ), (R.CAN_TPDO_COMM_EVTMR 1 7, 10), (R.CAN_TPDO_COMM_ID 1 7, 0x485),
    (R.CAN_RPDO_COMM_ID 1 7, 0x506), (R.CAN_TPDO_MAP_N 1 7, 1), (R.CAN_RPDO_MAP_N 1 7, 1), (R.CAN_TPDO_MAP 1 7 0, 0xA8010220),
    (R.CAN_RPDO_MAP 1 7 0, 0xA8010220)]).foldl (fun m e => m.wr e.1 e.2) { m with bar := { m.bar with kReady := true } }

/-- The same PDO mapping WHL_SYNC_CONFIRM 15, an object of the field. -/
def pdoField (typ : Nat) (m : Mach) : Mach := (pdo7 typ m).wr (R.CAN_TPDO_MAP 1 7 0) 0x21F10808

set_option maxRecDepth 20000 in
theorem wit_CanCommands : May (.spire 0) (R.CAN_EN 1) false (sOk id) ∧
    gives (.canEnWrite (.spire 0) 1 true) (sOk (·.wr (R.CAN_NODE_ID 1) 5)) (fun m => m.on (R.CAN_EN 1) && m.rd (R.CAN_NMT_STATE 1) == 127 &&
      m.out == [⟨.can 1, [0, 500, 0x705, 0]⟩]) = true ∧
    gives (.canEnWrite (.spire 0) 1 false) (sCan 5 id) (fun m => m.rd (R.CAN_BUS_STATE 1) == 3) = true ∧
    canOn (sCan 127 id).m 1 = true ∧ sdoOpen (sCan 127 id).m 1 = true ∧
    gives (.nmtCommand 1 1 0) (sCan 127 id) (fun m => m.rd (R.CAN_NMT_STATE 1) == 5) = true ∧
    gives (.nmtCommand 1 130 5) (sCan 5 id) (fun m => m.rd (R.CAN_NMT_STATE 1) == 127) = true ∧
    gives (.nmtCommand 1 1 6) (sCan 127 id) (fun m => m.rd (R.CAN_NMT_STATE 1) == 127) = true ∧
    gives (.nmtCommand 1 3 5) (sCan 127 id) (fun m => m.rd (R.CAN_NMT_STATE 1) == 127) = true ∧
    jxIndex 0x1017 = none ∧ (commAt (sCan 127 id).m 1 0x1017 0).isSome = true ∧ jxIndex 0xA801 = some 0x1801 ∧
    gives (.sdoRequest 1 [0x40, 0x17, 0x10, 0, 0, 0, 0, 0]) (sCan 127 (fun m => { m with bar := { m.bar with kReady := true } })) (fun m => m.out ==
      [⟨.can 1, [0, 500, 0x585, 0x4B, 0x17, 0x10, 0, 0, 0, 0, 0]⟩] && (m.can 1).sdo == none) = true ∧
    gives (.sdoRequest 1 [0x40, 0x01, 0xA8, 2, 0, 0, 0, 0]) (sCan 127 (fun m => { m with bar := { m.bar with kReady := true } })) (fun m =>
      m.out.head? == some ⟨.can 1, [0, 500, 0x585, 0x43, 0x01, 0xA8, 2, 100, 0, 0, 0]⟩) = true ∧
    gives (.sdoRequest 1 [0xA0, 0x01, 0xA8, 2, 0, 0, 0, 0]) (sCan 127 id) (fun m => m.out ==
      [⟨.can 1, [0, 500, 0x585, 0x80, 0x01, 0xA8, 2, 1, 0, 4, 5]⟩]) = true ∧
    gives (.sdoTimeout 1) (sCan 127 (·.updCan 1 (fun c => { c with sdo := some { idx := 0xA801, sub := 2, up := true } }))) (fun m =>
      m.out == [⟨.can 1, [0, 500, 0x585, 0x80, 0x01, 0xA8, 2, 0, 0, 4, 5]⟩] && (m.can 1).sdo == none) = true ∧
    gives (.sdoTimeout 1) (sCan 127 id) (fun m => m.out == []) = true ∧
    gives (.heartbeatProduce 1) (sCan 127 (·.wr (R.CAN_HB_PROD 1) 9)) (fun m => m.out == [⟨.can 1, [0, 500, 0x705, 127]⟩]) = true ∧
    hbEntry (sCan 127 (·.wr (R.CAN_HB_CONS 1 3) 0x070009)).m 1 3 = true ∧
    gives (.heartbeatConsume 1 3 false) (sCan 127 (·.wr (R.CAN_HB_CONS 1 3) 0x070009)) (fun m => (m.can 1).alive == [(3, 0)]) = true ∧
    gives (.heartbeatConsume 1 3 true) (sCan 127 (fun m => (m.wr (R.CAN_HB_CONS 1 3) 0x070009).updCan 1 (fun c => { c with alive := [(3, 0)] })))
      (fun m => (m.can 1).alive == []) = true ∧
    gives (.canBusError 1 true) (sCan 5 (·.updCan 1 (fun c => { c with tec := 248 }))) (fun m => m.rd (R.CAN_BUS_STATE 1) == 2) = true ∧
    gives (.canBusError 1 true) (sCan 5 (·.updCan 1 (fun c => { c with tec := 120 }))) (fun m => m.rd (R.CAN_BUS_STATE 1) == 1) = true ∧
    gives (.canBusError 1 false) (sCan 5 id) (fun m => m.rd (R.CAN_BUS_STATE 1) == 0 && (m.can 1).rec_ == 1) = true ∧
    gives (.busOffRecovery 1) (sCan 5 (fun m => (m.wr (R.CAN_BUS_STATE 1) 2).updCan 1 (fun c => { c with tec := 256 }))) (fun m =>
      m.rd (R.CAN_BUS_STATE 1) == 0 && (m.can 1).tec == 0) = true := by
  and_intros <;> decide +kernel

set_option maxRecDepth 20000 in
theorem wit_CanCommands_pdos : pdoValid (sCan 5 (pdo7 255)).m true 1 7 = true ∧ pdoIdent (sCan 5 (pdo7 255)).m true 1 7 = 0x506 ∧
    (∀ i : Fin 8, i ≠ 7 → pdoValid (sCan 5 (pdo7 255)).m true 1 i = false ∨ pdoIdent (sCan 5 (pdo7 255)).m true 1 i ≠ 0x506) ∧
    pdoMapped (sCan 5 (pdo7 255)).m 1 true 7 = [0xA8010220] ∧ pdoEntry 0xA8010220 = some (0x1801, 2, 4) ∧
    gives (.rpdo 1 0x506 [9, 0, 0, 0]) (sCan 5 (pdo7 255)) (fun m => m.rd R.DIC_DOMAIN_IDLE == 9) = true ∧
    canLenOk (sCan 5 (pdo7 255)).m 1 4 = true ∧ canLenOk (sCan 5 (pdo7 255)).m 1 12 = false ∧
    canLenOk ((sCan 5 (pdo7 255)).m.wr (R.CAN_DATA_RATE 1) 2) 1 12 = true ∧ canLenOk ((sCan 5 (pdo7 255)).m.wr (R.CAN_DATA_RATE 1) 2) 1 10 = false ∧
    tpdoHere (sCan 5 (pdo7 254)).m (0x1801, 2, 4) = some [100, 0, 0, 0] ∧
    pdoEntry 0xA9810120 = some (0x1981, 1, 4) ∧
    gives (.rpdo 1 0x506 [9, 0, 0, 0]) (sCan 127 (pdo7 255)) (fun m => m.rd R.DIC_DOMAIN_IDLE == 100) = true ∧
    gives (.rpdo 1 0x506 [9, 0, 0, 0]) (sCan 5 (pdo7 240)) (fun m => (m.can 1).held == [(7, [9, 0, 0, 0])]) = true ∧
    gives (.tpdoEventTimer 1 7) (sCan 5 (pdo7 254)) (fun m => m.out == [⟨.can 1, [0, 500, 0x485, 100, 0, 0, 0]⟩] &&
      m.rd (R.CAN_CNT_PDO_TX 1) == 1) = true ∧
    (∀ i : Fin 8, i ≠ 7 → pdoValid (sCan 5 (pdo7 1)).m false 1 i = true → 240 < pdoType (sCan 5 (pdo7 1)).m false 1 i) ∧
    gives (.sync 1) (sCan 5 (pdo7 1)) (fun m => m.out == [⟨.can 1, [0, 500, 0x485, 100, 0, 0, 0]⟩]) = true ∧
    gives (.sync 1) (sCan 5 (pdo7 240)) (fun m => m.out == [] && mapGet 0 7 (m.can 1).syncs == 1) = true ∧
    gives (.sync 1) (sCan 127 (pdo7 1)) (fun m => m.out == []) = true ∧
    pdoEntry 0x21F10808 = some (0x21F1, 8, 1) ∧ ServiceIdle (sCan 5 (pdoField 254)) ∧
    dicBar 1 ⟨canRoute 1, 2, true, 16, 0, 0x21F1, 8, 0, 0, []⟩ (sCan 5 (pdoField 254)).m = none ∧
    gives (.tpdoEventTimer 1 7) (sCan 5 (pdoField 254)) (fun m => m.out == [] && (m.can 1).jobs == [⟨7, 1, false, [none]⟩] &&
      m.bar.fwds.length == 1) = true := by
  and_intros <;> decide +kernel

/-! ## Persistence -/

/-- A whole host block came, and a STORE captured an image. -/
def sStoring (blk : List Byte) : State := sOk (fun m => { m.wr R.DIC_PERS_STATUS 1 with
  bar := { m.bar with persIn := blk }, dic := { m.dic with storing := some ⟨3, 0, 0, [], [], none⟩, bankA := some ⟨2, 0, 0, [], [], none⟩ } })

/-- The field's notice to the host, and the host's to the field (log 30). -/
def told (l : List Byte) : LinkFrame := fr 14 (toLe 4 noticeOff ++ l)
def asks (a : Byte) : LinkFrame := fr 15 (toLe 4 noticeOff ++ [a])

theorem wit_PersistenceCommands : bit 0 ((sOk id).m.rd R.DIC_PERS_STATUS) = false ∧ bit 0 (sBusy.m.rd R.DIC_PERS_STATUS) = true ∧
    gives (.store (.spire 0) 0x726F7473) (sOk (fun m => { m with dic := { m.dic with bankA := some ⟨2, 0, 0, [], [], none⟩ } })) (fun m =>
      m.dic.storing == none && bit 0 (m.rd R.DIC_PERS_STATUS)) = true ∧
    (storeCapture (sOk (fun m => { m with dic := { m.dic with bankA := some ⟨2, 0, 0, [], [], none⟩ } })).m).dic.storing.any (fun i => i.seq == 3) = true ∧
    gives (.reload (.spire 0) 0) sLink (fun m => (m.core 0).eact) = true ∧
    gives (.store (.spire 0) 0x726F7473) s0 (fun m => m.dic.storing == none && (m.core 0).eact) = true ∧
    gives .storeComplete (sOk id) (fun m => m.dic.bankA == none) = true ∧
    storeRuns (sOk id).m = false ∧ storeRuns (sStoring []).m = true ∧ blockWhole (toLe 4 5 ++ [0]) = true ∧ blockWhole (toLe 4 5) = false ∧
    (sStoring (toLe 4 4)).m.dic.storing = some ⟨3, 0, 0, [], [], none⟩ ∧ (sStoring (toLe 4 4)).m.dic.bankA.isSome = true ∧
    (sStoring (toLe 4 4)).m.linked .field = true ∧ blockWhole (toLe 4 4) = true ∧
    gives .storeComplete (sStoring (toLe 4 4)) (fun m => m.dic.newestB && (m.barEnd .field).queue.length == 1) = true ∧
    gives .storeComplete (sStoring (toLe 4 5)) (fun m => m.dic.bankB == none && m.dic.storing == none) = true ∧
    bits 1 0 ((storeFail (sStoring []).m).rd R.DIC_PERS_STATUS) = 2 ∧
    kUnitRuns (sOk (·.wr (R.CH_EN 127) 1)).m .field = true ∧ kUnitRuns (sOk id).m .field = false ∧
    kUnitRuns (sOk (·.wr (R.CAN_EN 1) 1)).m .host = true ∧ kUnitRuns (sOk id).m .host = false ∧ persReach (sOk id).m = true ∧
    persReach s0.m = false ∧ gives (.reload (.spire 0) 0x646F6C72) s0 (fun m => (m.core 0).eact) = true ∧
    gives (.reload (.spire 0) 0x646F6C72) (sOk (·.wr (R.CAN_EN 1) 1)) (fun m => (m.core 0).eact) = true ∧
    gives (.reload (.spire 0) 0x646F6C72) (sOk id) (fun m => m.bar.reload && (m.barEnd .host).queue == [(7, ⟨15, toLe 4 noticeOff ++ [1]⟩)])
      = true ∧
    authority (sSess id).m (viaSess 9) .host = true ∧
    gives (.factory (viaSess 9) 0x74636166) (sSess id) (fun m => m.bar.factory &&
      (m.barEnd .host).queue == [(7, ⟨15, toLe 4 noticeOff ++ [3]⟩)]) = true := by
  and_intros <;> decide +kernel

theorem wit_PersistenceCommands_notices : comes .field 15 (toLe 4 noticeOff ++ [1]) (sOk id) = true ∧
    (sOk id).m.image = none ∧ persisted (sOk id).m (R.TRP_KEEPRUN 7).key = true ∧ ownerOf ((R.TRP_KEEPRUN 7).key / 256) = .field ∧
    gives (.persStore (asks 1)) (sOk (·.wr (R.TRP_KEEPRUN 7) 3)) (fun m => m.rd (R.TRP_KEEPRUN 7) == 255) = true ∧
    gives (.persStore (asks 1)) (sOk (fun m => { m with dic := { m.dic with
      bankA := some ⟨2, 0, 0, [((R.TRP_KEEPRUN 7).key, 3)], [], none⟩ } })) (fun m => m.rd (R.TRP_KEEPRUN 7) == 3) = true ∧
    gives (.persStore (asks 1)) (sOk (·.wr (R.CH_EN 127) 1)) (fun m =>
      (m.barEnd .field).queue == [(7, ⟨14, toLe 4 noticeOff ++ [1]⟩)]) = true ∧
    gives (.persStore (asks 3)) (sOk (fun m => { m with dic := { m.dic with bankA := some ⟨2, 0, 0, [], [], none⟩ } })) (fun m =>
      m.dic.bankA == none) = true ∧
    gives (.persStore (asks 2)) (sOk (fun m => { m with dic := { m.dic with bankA := some ⟨2, 0, 0, [(5, 6)], [], none⟩ } })) (fun m =>
      m.dic.bankA.any (fun i => i.vals == [])) = true ∧
    comes .host 14 (toLe 4 noticeOff ++ [1]) (sOk id) = true ∧
    gives (.persRestore (told [1])) (sOk (fun m => { m.wr R.DIC_PERS_STATUS 1 with bar := { m.bar with reload := true } })) (fun m =>
      !m.bar.reload && m.rd R.DIC_PERS_STATUS == 0) = true ∧
    gives (.persRestore (told (noticeDone s0.m))) (sOk (fun m => { m.wr R.DIC_PERS_STATUS 1 with bar := { m.bar with factory := true } }))
      (fun m => !m.bar.factory && bits 2 0 (m.rd R.DIC_PERS_STATUS) == 4) = true ∧
    gives (.persRestore (told ([0, 1] ++ toLe 4 7 ++ toLe 4 99))) (sStoring []) (fun m => m.rd R.DIC_PERS_STATUS == 8 &&
      m.rd R.DIC_STORE_COUNT == 7 && m.rd R.DIC_STORED_BYTES == 99) = true := by
  and_intros <;> decide +kernel

/-! ## Cores -/

/-- Keep at M with nothing masked, x1 = 0x80, x5 = x7 = 0x10000000, and the word 6 in SRAM there. -/
def sKeep (f : Core → Core) : State := sOk (fun m => { m with keepMem := [(0x10000000, 6)] }.setCore 2 (f { m.core 2 with
  xmask := 0, x := [(1, 0x80), (5, 0x10000000), (7, 0x10000000)] }))

/-- A word is fetched and its instruction ends with a property of Keep, one instruction retired. -/
def ran (w : Word) (i : Instr) (s : State) (p : Core → Bool) : Bool :=
  decide (Fetches 2 w.toNat s) && (insnWord w.toNat).isSome && gives i s (fun m => (m.core 2).instret == 1 && p (m.core 2))

def goesOn (c : Core) : Bool := c.pc == 4

def withSs (l : List Word) (c : Core) : Core := { c with ssM := l, csr := [(0x730, 0x534)] }

set_option maxRecDepth 20000 in
theorem wit_CoreInstructions : isFence 0x0F = true ∧ isFenceI 0x100F = true ∧
    ran 0x0F (.fence 2 0x0F) (sKeep id) goesOn = true ∧ ran 0x100F (.fenceI 2 0x100F) (sKeep id) goesOn = true ∧
    ran 0x7F100073 (.wfi 2) (sKeep id) (fun c => goesOn c && c.gated) = true ∧
    isCsr 0x731010F3 = true ∧ csrRow 0x731 = some (0, 3) ∧
    ran 0x731010F3 (.csrAccess 2 0x731010F3) (sKeep (fun c => { c with csr := [(0x731, 3)] })) (fun c => goesOn c && c.rdX 1 == 3 &&
      c.csrGet 0x731 == 0) = true ∧
    ran 0x732020F3 (.csrAccess 2 0x732020F3) (sKeep id) goesOn = true ∧
    xssCsr 0x745 = some (2, 1) ∧ xssCsr 0x746 = some (2, 2) ∧
    ran 0x745022F3 (.xssTopRead 2 0x745022F3) (sKeep (withSs [8, 9])) (fun c => c.rdX 5 == 8 && c.ssM == [9]) = true ∧
    ran 0x745022F3 (.xssTopRead 2 0x745022F3) (sKeep (withSs [])) (fun c => c.rdX 5 == 0) = true ∧
    ran 0x746022F3 (.xssBotRead 2 0x746022F3) (sKeep (withSs [8, 9])) (fun c => c.rdX 5 == 9 && c.ssM == [8]) = true ∧
    ran 0x74509073 (.xssTopWrite 2 0x74509073) (sKeep (withSs [8])) (fun c => c.ssM == [0x80, 8]) = true ∧
    ran 0x74609073 (.xssBotWrite 2 0x74609073) (sKeep (withSs [8])) (fun c => c.ssM == [8, 0x80]) = true ∧
    isShadowCall 0x000380E7 = true ∧ isReturn (rdOf 0x000380E7) (rs1Of 0x000380E7) = false ∧
    ran 0x000380E7 (.shadowCall 2 0x000380E7) (sKeep (withSs (List.replicate 127 0))) (fun c => c.pc == 0x10000000 && c.rdX 1 == 4 &&
      c.ssM.length == 128) = true ∧
    ran 0x008000EF (.shadowCall 2 0x008000EF) (sKeep id) (fun c => c.pc == 8 && c.rdX 1 == 4) = true ∧
    ran 0x8067 (.shadowReturn 2 0x8067) (sKeep (withSs [0x80])) (fun c => c.pc == 0x80 && c.ssM == []) = true ∧
    isShadowReturn 0x000280E7 = true ∧
    ran 0x000280E7 (.shadowReturn 2 0x000280E7) (sKeep (withSs [0x10000000])) (fun c => c.pc == 0x10000000 && c.ssM == [4]) = true ∧
    ran 0x8067 (.shadowReturn 2 0x8067) (sKeep id) (fun c => c.pc == 0x80) = true := by
  and_intros <;> decide +kernel

set_option maxRecDepth 20000 in
theorem wit_CoreInstructions_memory : areaOf 2 0x10000000 = .sram ∧ denied (sKeep id).m 2 0 0x10000000 4 = false ∧
    denied (sKeep id).m 2 1 0x10000000 4 = false ∧
    ran 0x1003A32F (.atomic 2 0x1003A32F) (sKeep id) (fun c => c.rdX 6 == 6 && c.resv == some 0x800000) = true ∧
    gives (.atomic 2 0x1813A32F) (sKeep (fun c => { c with resv := some 0x800000 })) (fun m => (m.core 2).rdX 6 == 0 &&
      memRd m.keepMem 0x10000000 == 0x80) = true ∧
    gives (.atomic 2 0x1813A32F) (sKeep id) (fun m => (m.core 2).rdX 6 == 1 && memRd m.keepMem 0x10000000 == 6) = true ∧
    gives (.atomic 2 0x0013A32F) (sKeep id) (fun m => (m.core 2).rdX 6 == 6 && memRd m.keepMem 0x10000000 == 0x86) = true ∧
    ran 0xFFF00293 (.instruction 2 0xFFF00293 .clean) (sKeep id) (fun c => goesOn c && c.rdX 5 == 0xFFFFFFFF) = true ∧
    ran 0x001082B3 (.instruction 2 0x001082B3 .clean) (sKeep id) (fun c => c.rdX 5 == 0x100) = true ∧
    ran 0x021082B3 (.instruction 2 0x021082B3 .clean) (sKeep id) (fun c => c.rdX 5 == 0x4000) = true ∧
    ran 0x123452B7 (.instruction 2 0x123452B7 .clean) (sKeep id) (fun c => c.rdX 5 == 0x12345000) = true ∧
    ran 0x12345297 (.instruction 2 0x12345297 .clean) (sKeep id) (fun c => c.rdX 5 == 0x12345000) = true ∧
    ran 0x00000463 (.instruction 2 0x00000463 .clean) (sKeep id) (fun c => c.pc == 8) = true ∧
    ran 0x0003A283 (.instruction 2 0x0003A283 .clean) (sKeep id) (fun c => c.rdX 5 == 6) = true ∧
    gives (.instruction 2 0x0013A223 .clean) (sKeep id) (fun m => memRd m.keepMem 0x10000004 == 0x80) = true ∧
    roundMode {} 0 = some 0 ∧
    ran 0x003100D3 (.instruction 2 0x003100D3 .clean) (sKeep (fun c => { c with x := [(66, 0x3F800000), (67, 0x3F800000)] })) (fun c =>
      mapGet 0 65 c.x == 0x40000000) = true := by
  and_intros <;> decide +kernel

/-- At U, with region 0 giving all of the first page. -/
def atU (c : Core) : Core := { c with lvl := 0, csr := [(0x731, 0), (0x761, 0x7F)] }

/-- Keep's cause after an entry to M, and after an escalation. -/
def cause (v : Word) (m : Mach) : Bool := (m.core 2).csrGet 0x712 == v && (m.core 2).lvl == 2
def escaped (v : Word) (m : Mach) : Bool := (m.core 2).csrGet 0x722 == v && (m.core 2).eact

set_option maxRecDepth 20000 in
theorem wit_CoreEntries : Fetches 2 0x73 (sKeep id) ∧
    gives (.ecall 2) (sKeep (fun c => { c with lvl := 1 })) (cause 0x20000002) = true ∧
    gives (.ecall 2) (sKeep atU) (fun m => (m.core 2).csrGet 0x512 == 0x20000001 && (m.core 2).lvl == 1) = true ∧
    gives (.ecall 2) (sKeep id) (cause 0x10000009) = true ∧
    gives (.ecall 2) (sKeep (fun c => { c with xmask := 1 })) (escaped 0x60000109) = true ∧
    gives (.ecall 2) (sKeep (fun c => { c with xmask := 1, eact := true })) (fun m => m.rd R.KEEP_RESTART_CAUSE == 7) = true ∧
    Fetches 2 0x9002 (sKeep id) ∧ Fetches 2 0x00100073 (sKeep id) ∧
    gives (.ebreak 2 true) (sKeep (fun c => { c with ebreakHalt := true })) (fun m => (m.core 2).halted && (m.core 2).pc == 0) = true ∧
    gives (.ebreak 2 false) (sKeep id) (cause 0x10000003) = true ∧
    Fetches 2 0x7F000073 (sKeep atU) ∧
    gives (.xret 2) (sKeep atU) (fun m => (m.core 2).csrGet 0x512 == 0x10000008) = true ∧
    gives (.wfi 2) (sKeep atU) (fun m => (m.core 2).csrGet 0x512 == 0x10000008) = true ∧
    gives (.interruptEntry 2) (sKeep (fun c => { c with c7 := [0x201] })) (fun m => cause 0x70000201 m || escaped 0x70000201 m) = true ∧
    irqTaken ((sKeep atU).m.core 2) 4 = true ∧
    gives (.interruptEntry 2) ⟨[], belUp (sKeep atU).m⟩ (fun m => (m.core 2).csrGet 0x512 == 0x40000000 &&
      (m.core 2).lvl == 1) = true ∧
    gives (.coreWake 2) ⟨[], belUp (sKeep (fun c => { c with gated := true })).m⟩ (fun m => !(m.core 2).gated) = true ∧
    gives (.coreWake 2) (sKeep (fun c => { c with gated := true })) (fun m => (m.core 2).gated) = true ∧
    Trips 1 (sKeep id).m ∧ gives .lockstepMismatch (sKeep id) (fun m => m.rd R.KEEP_RESTART_CAUSE == 8 && m.rd R.SAF_CAUSE == 1) = true ∧
    insnWord 0x0000000B = some 0x0B ∧ gives (.instruction 2 0x0000000B .clean) (sKeep id) (cause 0x10000002) = true ∧
    gives (.instruction 2 0x13 .clean) (sKeep (fun c => { c with pc := 0x40000000 })) (cause 0x10000001) = true ∧
    gives (.csrAccess 2 0x732020F3) (sKeep atU) (fun m => (m.core 2).csrGet 0x512 == 0x10000008) = true ∧
    gives (.instruction 1 0x13 .clean) (sOk id) (· == (sOk id).m) = true := by
  and_intros <;> decide +kernel

/-- A Spire's word load from the ports beyond those the spec describes is refused by name. -/
def refusedAt (a : Nat) (o : Host.Outcome State Fault Refusal) : Bool :=
  match o with
  | .refused (.undescribedPort b) => a == b
  | _ => false

theorem wit_CoreEntries_ports : [0x48003120, 0x480FFFFC].all (fun a => refusedAt a (exec (.instruction 0 0x0003A283 .clean) (sOk (fun m =>
    m.setCore 0 { m.core 0 with x := [(7, BitVec.ofNat 32 a)] })))) = true := by
  decide +kernel

/-- Keep halted in debug at 0x10000000. -/
def sDap (f : Core → Core) : State := sKeep (fun c => f { c with halted := true, dapAddr := 0x10000000 })

/-- The field side in SLEEP, its port's address set. -/
def sDozing (a : Word) : State := sOk (fun m => { m.setCore 2 { m.core 2 with gated := true, dapAddr := a } with pwr := { m.pwr with fSleep := true } })

/-- The debug port of Keep answers. -/
def reply (l : List Nat) (m : Mach) : Bool := m.out == [⟨.dap 2, l⟩]

set_option maxRecDepth 20000 in
theorem wit_DebugPort : tapCapture s0.m .field = some (32, 0x28128A47) ∧ (tapLoad .host 0x10 s0).m.tap .host = .dap ∧
    tapCapture (tapLoad .field 0x30 (sOk (fun m => { m with saf := { m.saf with dbgLock := true } }))).m .field = some (64, 0xFF * 2 ^ 56) ∧
    (tapLoad .field 0x1E s0).m.tap .field = .bypass ∧ (tapShift .field (0x30 * 2 ^ 56 + 2 * 2 ^ 54) s0).pending = [] ∧
    (tapShift .field (0x30 * 2 ^ 56 + 2 * 2 ^ 54) (tapLoad .field 0x10 s0)).pending = [.dapStatus 2] ∧ dapOpen (sDap id).m 2 = true ∧ dapOpen (sOk (fun m => { m with saf := { m.saf with dbgLock := true } })).m 2 = false ∧
    gives (.dapHalt 2) (sOk (fun m => { m with saf := { m.saf with dbgLock := true } })) (fun m => reply [0xFF, 0] m && !(m.core 2).halted) = true ∧
    gives (.dapResume 2) (sKeep id) (reply [0xFF, 0]) = true ∧
    gives (.dapHalt 2) (sKeep (fun c => { c with gated := true })) (fun m => reply [0x81, 0] m && (m.core 2).halted && !(m.core 2).gated) = true ∧
    gives (.dapHalt 2) (sDap id) (reply [0x81, 0]) = true ∧
    gives (.dapStatus 2) (sDap id) (reply [0xB0, 1]) = true ∧ gives (.dapStatus 2) (sKeep (fun c => { c with gated := true })) (reply [0xB0, 2])
      = true ∧
    gives (.dapResume 2) (sDap id) (fun m => reply [0x82, 0] m && !(m.core 2).halted) = true ∧
    gives (.dapStep 2) (sDap id) (fun m => reply [0x83, 0] m && (m.core 2).step) = true ∧
    gives (.ebreakHalt 2 1) (sDap id) (fun m => reply [0x84, 0] m && (m.core 2).ebreakHalt) = true ∧
    gives (.setAddr 2 8) (sDap id) (fun m => reply [0xA0, 0] m && (m.core 2).dapAddr == 8) = true ∧
    gives (.readReg 2 0x1040) (sDap (fun c => { c with pc := 0x80 })) (reply [0x90, 0x80]) = true ∧
    gives (.writeReg 2 0x1040 0x81) (sDap id) (fun m => (m.core 2).pc == 0x80) = true ∧
    gives (.readReg 2 0x1007) (sDap id) (reply [0x90, 0x10000000]) = true ∧
    gives (.writeReg 2 0x1000 5) (sDap id) (fun m => reply [0x91, 0] m && mapGet 0 0 (m.core 2).x == 0) = true ∧
    gives (.writeReg 2 0x101F 5) (sDap id) (fun m => mapGet 0 31 (m.core 2).x == 5) = true ∧
    gives (.readReg 2 0x103F) (sDap id) (reply [0x90, 0]) = true ∧
    gives (.writeReg 2 0x731 3) (sDap id) (fun m => (m.core 2).csrGet 0x731 == 3) = true ∧
    gives (.writeReg 2 0x732 3) (sDap id) (reply [0xFF, 0]) = true ∧
    gives (.readReg 2 0x745) (sDap (withSs [8, 9])) (fun m => reply [0x90, 8] m && (m.core 2).ssM == [9]) = true ∧
    gives (.readReg 2 0x1080) (sDap id) (reply [0xFF, 0]) = true ∧ gives (.readReg 2 0) (sDap id) (reply [0xFF, 0]) = true ∧
    gives (.readMem 2) (sDap id) (fun m => reply [0xA1, 6] m && (m.core 2).dapAddr == 0x10000004) = true ∧
    gives (.writeMem 2 7) (sDap id) (fun m => reply [0xA2, 0] m && memRd m.keepMem 0x10000000 == 7) = true ∧
    haltShut (sDap (fun c => { c with dapAddr := adr (R.PWM_PERIOD_IMM 15) })).m 2 = true ∧ haltShut (sDap id).m 2 = false ∧
    gives (.writeMem 2 5000) (sDap (fun c => { c with dapAddr := adr (R.PWM_PERIOD_IMM 15) })) (reply [0xFF, 0]) = true ∧
    dapDecode .field (0x10 * 2 ^ 56 + 2 * 2 ^ 54 + 0x1040 * 2 ^ 32) = some (.readReg 2 0x1040) ∧
    dapDecode .host (0x22 * 2 ^ 56 + 1 * 2 ^ 54 + 7) = some (.writeMem 1 7) ∧ dapDecode .field (0x05 * 2 ^ 56 + 2 * 2 ^ 54) = none ∧
    dapDecode .field (0x10 * 2 ^ 56 + 1 * 2 ^ 54) = none ∧
    dapOpen (sDozing 0x4080000C).m 2 = false ∧ gives (.readMem 2) (sDozing 0x4080000C) (reply [0xA1, 0]) = true ∧
    gives (.readMem 2) (sDozing 0x40800008) (reply [0xFF, 0]) = true ∧
    gives (.setAddr 2 9) (sDozing 0) (fun m => reply [0xA0, 0] m && (m.core 2).dapAddr == 9) = true ∧
    areaOf 2 0xF0000000 = .nothing ∧
    gives (.readMem 2) (sDap (fun c => { c with dapAddr := 0xF0000000 })) (reply [0xFF, 0]) = true ∧
    May (.spire 0) (R.SPR_RELEASE 1) true s0 ∧
    gives (.sprRelease (.spire 0) 1 1) s0 (fun m => !(m.core 1).held) = true ∧
    gives (.sprRelease (.spire 0) 1 0) s0 (fun m => (m.core 1).held) = true ∧
    gives (.sprRelease (.spire 0) 0 1) s0 (fun m => (m.core 0).eact) = true ∧ MayCore 2 0 0x40FC0404 s0 ∧
    gives .dbgTraceLostRead (at_ (·.wr R.DBG_TRACE_LOST 9)) (fun m => reply [9] { m with out := m.out.map (fun o => ⟨.dap 2, o.data⟩) } &&
      m.rd R.DBG_TRACE_LOST == 0) = true := by
  and_intros <;> decide +kernel

/-! ## The machine as a whole -/

theorem test_reset : State.reset.m.safe = true ∧ State.reset.pending = [] ∧ mapSorted State.reset.m.regs = true ∧
    (State.reset.m.core 1).held = true ∧ (State.reset.m.core 2).lvl = 2 ∧ State.reset.m.barState .field = 0 ∧
    State.reset.m.rd R.LT_ADDEND = 0x80000000 ∧ State.reset.m.rd R.KEEP_RESTART_CAUSE = 1 := by
  and_intros <;> decide

/-- Two commands wait; the first runs and the second stays. -/
theorem wit_QueueOrder : (match step ⟨[.turXflagSet .keep 5, .turXflagClr .keep 1], s0.m⟩ with
    | .next t => t.pending == [.turXflagClr .keep 1] && t.m.flagIns.length == 1
    | _ => false) = true := by
  decide +kernel

theorem wit_StepRunsFrontCommand : (⟨[.turXflagSet .keep 5], s0.m⟩ : State).pending = .turXflagSet .keep 5 :: [] := rfl

/-- Keep halted in debug at a phase of LCLK. -/
def sSlow (from_ : Option Nat) (phase : Nat) : Mach :=
  halted { (sOk id).m with tb := { (sOk id).m.tb with slowFrom := from_, lclk := phase } }

/-- An empty queue: a tick of FCLK, and of line time by 2.5 ns. -/
theorem wit_TickAdvances : s0.pending = [] ∧ s0.m.tb.slowFrom = none ∧ lclkMode s0.m = false ∧ s0.m.tb.step = 0 ∧
    (nx (step s0)).any (fun m => m.tb.ftb == 1 && m.tb.lt == 2 && m.tb.frac == 0x80000000) = true ∧
    lclkMode (sOk halted).m = true ∧ (clocks (sOk halted).m).1.tb.slowFrom = none ∧
    (clocks (sSlow none 127)).1.tb.slowFrom = some 1 ∧ (clocks (sSlow none 127)).1.tb.ftb = 1 ∧
    (clocks (sSlow (some 0) 126)).1.tb.ftb = 0 ∧ (clocks (sSlow (some 0) 126)).1.tb.lclk = 127 ∧
    (clocks (sSlow (some 0) 127)).1.tb.ftb = 128 ∧ (clocks (sSlow (some 0) 127)).1.tb.slowFrom = some 0 ∧
    (clocks ((sSlow (some 0) 127).setCore 2 {})).1.tb.slowFrom = none := by
  and_intros <;> decide +kernel

/-- A step that raises a safety cause has acted on it when it ends. -/
theorem wit_StepsSettle : Settled (sOk id) ∧ (nx (step ⟨[.overtemp], (sOk id).m⟩)).any (fun m => m.safe && m.alarms == [] && m.notes == [])
    = true := by
  and_intros <;> decide +kernel

theorem wit_NeverStops : pulseFault (step ⟨[.pin .host 999], s0.m⟩) = true ∧
    refusedAt 0x48003120 (step ⟨[.readMem 0], (sOk (fun m => m.setCore 0 { m.core 0 with halted := true, dapAddr := 0x48003120 })).m⟩) = true := by
  and_intros <;> decide +kernel

theorem wit_WriteGate : writeTarget (.sto .pcie) = some (.pcie, R.SAF_DEMAND, false) ∧
    writerLive (sOk halted).m .keep = false ∧ gives (.sto .keep) (sOk halted) (fun m => !m.safe) = true ∧
    gate (.spire 0) R.SAF_DEMAND false s0.m = some .noObject ∧ gate (.dict .pcie 0) R.SAF_RELEASE true (sOk id).m = some .machine ∧
    gate (.dict .pcie 9) R.SAF_RELEASE true (sOk id).m = some .session ∧ gate (.dict .pcie 9) R.SAF_RELEASE true (sSess id).m = none ∧
    gives (.sto (.spire 0)) (sOk id) (fun m => !m.safe && (m.core 0).eact) = true ∧
    (findObj R.SAF_RELEASE.idx R.SAF_RELEASE.sub).any (fun f => f.row.mach) = true := by
  and_intros <;> decide +kernel

/-- A UNIT stop of this tick wrote MOV_RUN 15. -/
theorem wit_WriteGate_overruled : overruled (rankNote .keep (R.LT_KP) s0.m) R.LT_KP = false ∧ outranked (rankNote .keep (R.LT_KP) s0.m) .keep R.LT_KP = false ∧
    overruled { s0.m with stopped := [(R.MOV_RUN 15).key] } (R.MOV_RUN 15) = true ∧
    gate .keep (R.MOV_RUN 15) false s0.m = none ∧
    gives (.movRunOn .keep 15) (at_ (fun m => { m with stopped := [(R.MOV_RUN 15).key] })) (fun m => !m.on (R.MOV_RUN 15)) = true ∧
    outranked (rankNote (.dict .pcie 0) (R.GT_CTRL 14) s0.m) .keep (R.GT_CTRL 14) = true ∧
    gives (.gtCtrlWrite .keep 14 0x800F) (at_ (rankNote (.dict .pcie 0) (R.GT_CTRL 14))) (fun m =>
      m.redos == [((R.GT_CTRL 14).key, 0)]) = true := by
  and_intros <;> decide +kernel

/-- Source 383, the field's, asserted in this tick with a target. -/
def sAssert (target : Nat) (f : Mach → Mach) : Mach :=
  f { (sOk id).m with asserts := [383] } |>.wr (srcCfgObj 383) (target * 2 ^ 24)

theorem wit_AssertionsTaken : srcOwner 383 = .field ∧ srcAlive (sAssert 1 id) 383 = true ∧
    holdSide (cfgTarget ((sAssert 1 id).rd (srcCfgObj 383))) = some .field ∧
    ((belTick (sAssert 1 id)).src .field 383).pend = true ∧ (belTick (sAssert 1 id)).asserts = [] ∧
    holdSide (cfgTarget ((sAssert 2 id).rd (srcCfgObj 383))) = some .host ∧ (sAssert 2 id).linked .field = true ∧
    ((belTick (sAssert 2 id)).barEnd .field).evts = [(383, 1)] ∧
    (belTick (sAssert 2 (·.updEnd .field (fun e => { e with st := 4 })))).rd (cntFwdLost .field) = 1 ∧
    holdSide (cfgTarget ((sAssert 0 id).rd (srcCfgObj 383))) = none ∧ ((belTick (sAssert 0 id)).src .field 383).pend = false := by
  and_intros <;> decide +kernel

/-- A command that meets none of the stops. -/
theorem wit_EveryCommandCompletes : (nx (exec (.pin .field 199) s0)).isSome = true ∧
    coreInsn 0 0x0003A283 .clean s0.m ≠ .error (.port 0x48003120) := by
  and_intros <;> decide +kernel

/-- A LINK of any number, and the shortest and the longest DIC_REQ, the last number before the counter wraps. -/
theorem wit_FrameRoundTrip : catalogueOk .field 7 5 = true ∧ catalogueOk .field 7 56 = true ∧ catalogueOk .field 7 57 = false ∧
    catalogueOk .host 1 4 = true ∧
    [5, 56].all (fun n => (linkAccept .field ⟨true, frameBytes ⟨7, List.replicate n 3⟩ 65535⟩
      (sEnd .field 3 (fun e => { e with rxSeq := 65535 })).m).1 == some ⟨7, List.replicate n 3⟩) = true ∧
    (linkAccept .host ⟨true, frameBytes ⟨1, [1, 2, 3, 4]⟩ 999⟩ (sEnd .host 2 id).m).1 = some ⟨1, [1, 2, 3, 4]⟩ := by
  and_intros <;> decide +kernel

theorem wit_RecordsRoundTrip : parseRecs 260 (recBytes ⟨255, 255, List.replicate 255 1⟩) = some [⟨255, 255, List.replicate 255 1⟩] ∧
    blockWhole (packBlock [7] [(0x180102, 2 ^ 64 - 1)] [(0x190101, [1, 2])]) = true ∧
    unpackBlock (packBlock [7] [(0x180102, 2 ^ 64 - 1)] [(0x190101, [1, 2])]).length
      ((packBlock [7] [(0x180102, 2 ^ 64 - 1)] [(0x190101, [1, 2])]).drop 5) = ([(0x180102, 2 ^ 64 - 1)], [(0x190101, [1, 2])]) := by
  and_intros <;> decide +kernel

/-! ## The codes -/

/-- The published check values of the codes the spec names: CRC-32 and CRC-16 with 0x1021 over the nine digits, SHA-256 of "abc". -/
theorem test_codes : crc32 [0x31, 0x32, 0x33, 0x34, 0x35, 0x36, 0x37, 0x38, 0x39] = 0xCBF43926 ∧
    crc16 0x1021 0xFFFF [0x31, 0x32, 0x33, 0x34, 0x35, 0x36, 0x37, 0x38, 0x39] = 0x29B1 ∧
    leNat ((sha256 [0x61, 0x62, 0x63]).take 4) = 0xBF1678BA := by
  and_intros <;> decide +kernel

/-! ## A right proof (R495)

The proof of a session holds the part's serial number, which is no number here: the frame that carries it is accepted whatever
it is. -/

theorem crc32Bits_lt (n c : Nat) (h : c < 2 ^ 32) : crc32Bits n c < 2 ^ 32 := by
  induction n generalizing c with
  | zero => exact h
  | succ n ih =>
    apply ih
    split
    · exact Nat.xor_lt_two_pow (by omega) (by decide)
    · omega

theorem crc32_lt (l : List Byte) : crc32 l < 2 ^ 32 := by
  have h : ∀ (l : List Byte) (c : Nat), c < 2 ^ 32 → l.foldl (fun c b => crc32Bits 8 (c ^^^ b.toNat)) c < 2 ^ 32 := by
    intro l
    induction l with
    | nil => exact fun _ h => h
    | cons b l ih => exact fun c hc => ih _ (crc32Bits_lt 8 _ (Nat.xor_lt_two_pow hc (by have := b.isLt; omega)))
  exact Nat.xor_lt_two_pow (h l _ (by decide)) (by decide)

theorem leNat_toLe4 (v : Nat) (h : v < 2 ^ 32) : leNat (toLe 4 v) = v := by
  simp only [toLe, leNat, BitVec.toNat_ofNat]
  omega

theorem shaRounds_length (l : List (Nat × Nat)) (st : List Nat) (h : st.length = 8) : (shaRounds l st).length = 8 := by
  induction l generalizing st with
  | nil => exact h
  | cons p l ih =>
    match st, h with
    | [_, _, _, _, _, _, _, _], _ => exact ih _ rfl

theorem shaBlocks_length (n : Nat) (l : List Byte) (st : List Nat) (h : st.length = 8) : (shaBlocks n l st).length = 8 := by
  induction n generalizing l st with
  | zero => exact h
  | succ n ih => exact ih _ _ (by simp [shaBlock, h, shaRounds_length])

theorem sha256_length (l : List Byte) : (sha256 l).length = 32 := by
  have h := shaBlocks_length ((shaPad l).length / 64) (shaPad l) shaInit rfl
  simp only [sha256]
  generalize shaBlocks _ _ _ = w at h
  match w, h with
  | [_, _, _, _, _, _, _, _], _ => rfl

/-- A frame of 52 bytes of payload is accepted whatever they are. -/
theorem fr52_comes (p : List Byte) (h : p.length = 52) : comes .field 7 p (sAgent none keyed) = true := by
  have hb : (fr 7 p).bytes = [7, 52, 0, 0] ++ p ++ toLe 4 (crc32 ([7, 52, 0, 0] ++ p)) := by
    simp [fr, frameBytes, h, padLen, toLe]
  have hs : (sAgent none keyed).m.barState .field = 3 := by decide +kernel
  have hr : ((sAgent none keyed).m.barEnd .field).rxSeq = 0 := by decide +kernel
  have hz : ((sAgent none keyed).m.barEnd .field).lanes = 15 := by decide +kernel
  have hc : leNat (toLe 4 (crc32 ([7, 52, 0, 0] ++ p))) = crc32 ([7, 52, 0, 0] ++ p) := leNat_toLe4 _ (crc32_lt _)
  unfold comes
  generalize (sAgent none keyed).m = m at hs hr hz ⊢
  have ht : (fr 7 p).bytes.take 56 = [7, 52, 0, 0] ++ p := by rw [hb]; exact List.take_left' (by simp [h])
  have hd : (fr 7 p).bytes.drop 56 = toLe 4 (crc32 ([7, 52, 0, 0] ++ p)) := by rw [hb]; exact List.drop_left' (by simp [h])
  have hl : (fr 7 p).bytes.length = 60 := by rw [hb]; simp [h, toLe]
  have f0 : fieldAt 0 1 (fr 7 p).bytes = 7 := by rw [hb]; rfl
  have f1 : fieldAt 1 1 (fr 7 p).bytes = 52 := by rw [hb]; rfl
  have f2 : fieldAt 2 2 (fr 7 p).bytes = 0 := by rw [hb]; rfl
  have f3 : fieldAt 56 4 (fr 7 p).bytes = crc32 ([7, 52, 0, 0] ++ p) := by
    rw [fieldAt, hd, List.take_of_length_le (by simp [toLe])]; exact hc
  have fp : ((fr 7 p).bytes.drop 4).take 52 = p := by rw [hb]; simp [h]
  have hq : ((m.updEnd .field (fun e => { e with quiet := 0 })).barEnd .field).rxSeq = 0 := hr
  have hk : catalogueOk .field 7 52 = true := by decide
  have hp : padLen 52 = 52 := by decide
  have hv : (fr 7 p).sound = true := rfl
  simp [linkAccept, hs, hz, hq, hk, hp, hv, f0, f1, f2, f3, ht, hl, fp]

theorem wit_FieldAgent_prove : ∃ d : List Byte, d = sessProof [5] [] (routeBit .pcie) 9 ∧
    comes .field 7 (rq 8 0 0x1900 0 0 0x902 d) (sAgent none keyed) = true ∧
    (reqOf .pcie 0 ((rq 8 0 0x1900 0 0 0x902 d).drop 4)).2.data = d := by
  refine ⟨_, rfl, ?_⟩
  have h : (sessProof [5] [] (routeBit .pcie) 9).length = 32 := sha256_length _
  generalize sessProof [5] [] (routeBit .pcie) 9 = d at h
  constructor
  · exact fr52_comes _ (by simp [rq, frameOf, toLe, h])
  · simp [reqOf, rq, frameOf, toLe, fieldAt, leNat, h, List.take_of_length_le]

theorem wit_FieldAgent_wrong : ([] : List Byte) ≠ sessProof [5] [] (routeBit .pcie) 9 := by
  intro h
  have h32 : (sessProof [5] [] (routeBit .pcie) 9).length = 32 := sha256_length _
  rw [← h] at h32
  exact absurd h32 (by decide)

end Sys2Proof.Tests
end

/-! # O23: the register view, and declarations

A write that its port lets through is what `registerPut` says; for an object of the tables without an effect of its own that is
`writeObj` with a bar, a range and a plain write, each said once here. -/

namespace Sys2Proof.Machine

/-! ## A write of a number to an object of the tables -/

/-- What a write does to an object without an effect of its own (R12, R55). -/
def plainWrite (f : Found) (v : Nat) (m : Mach) : Mach :=
  if f.row.acc = .w1c then m.w1c f.obj v else if f.row.acc = .w1s then m.wr f.obj (m.rd f.obj ||| v) else m.wr f.obj v

theorem objEffect_of_no_effect {f : Found} (h : ∀ e ∈ effectsHost ++ effectsSide ++ effectsMotion ++ effectsOutput, e.1 ≠ f.row.id)
    (w : Writer) (v : Nat) (m : Mach) : objEffect w f v m = .ok (plainWrite f v (octFirst f m)) := by
  have hf : (effectsHost ++ effectsSide ++ effectsMotion ++ effectsOutput).find? (fun e => e.1 == f.row.id) = none :=
    List.find?_eq_none.mpr fun e he => by simpa using h e he
  simp only [objEffect, hf, plainWrite]

theorem octFirst_of_no_octet {f : Found} (h34 : f.row.base / 256 ≠ 0x34) (h0 : f.row.base ≠ 0x3500) (h1 : f.row.base ≠ 0x3510)
    (m : Mach) : octFirst f m = m := by
  simp [octFirst, h34, h0, h1]

@[simp] theorem isParam_of_no_mach (idx : Nat) (ret : Ret) : isParam idx false ret = false := rfl

@[simp] theorem paramNote_of_no_param (w : Writer) (idx sub : Nat) (m : Mach) : paramNote w false idx sub m = m := rfl

section
variable {w : Writer} {f : Found} {v : Nat} {m : Mach}

theorem writeObj_readOnly (ha : f.row.acc = .ro) : writeObj w f v m = .error .readOnly := by
  simp [writeObj, writeBar, ha]

theorem writeObj_running (ha : f.row.acc = .rws) (hm : f.row.mach = false) (hs : stillFor m f v = false) :
    writeObj w f v m = .error .running := by
  simp [writeObj, writeBar, ha, hm, hs]

theorem writeBar_none {idx : Nat} {acc : Acc} {still : Bool} (ha : acc ≠ .ro) (hs : acc = .rws → still = true) :
    writeBar w idx acc false false still m = none := by
  simpa [writeBar, ha] using hs

theorem writeObj_range (ha : f.row.acc ≠ .ro) (hm : f.row.mach = false) (hs : f.row.acc = .rws → stillFor m f v = true)
    (hk : chkOk m f v = false) : writeObj w f v m = .error .range := by
  simp [writeObj, hm, writeBar_none ha hs, hk]

theorem writeObj_lands (ha : f.row.acc ≠ .ro) (hm : f.row.mach = false) (hs : f.row.acc = .rws → stillFor m f v = true)
    (hk : chkOk m f v = true) (he : ∀ e ∈ effectsHost ++ effectsSide ++ effectsMotion ++ effectsOutput, e.1 ≠ f.row.id)
    (ho : overruled m f.obj = false) (hr : outranked m w f.obj = false) :
    writeObj w f v m = .ok (rankNote w f.obj (plainWrite f v (octFirst f m))) := by
  simp [writeObj, hm, writeBar_none ha hs, hk, objEffect_of_no_effect he, Except.map, landed, ho, hr]
end

/-! ## The write of a word -/

theorem missing_of_low {w : Writer} {idx sub : Nat} {f : Found} {m : Mach} (hh : regHit m idx sub = some (.low f))
    (hd : f.row.ty ≠ .dom) : missing m w idx sub = none := by
  unfold missing
  split
  · simp [hh, hd]
  · rfl

theorem missing_of_store {w : Writer} (hw : ∀ r h, w ≠ .dict r h) (m : Mach) (idx sub : Nat) : missing m w idx sub = none := by
  unfold missing
  split
  next r h => exact absurd rfl (hw r h)
  · rfl

theorem answered_of_store {w : Writer} (hw : ∀ r h, w ≠ .dict r h) (m : Mach) : answered w m = m := by
  unfold answered
  split
  next r h => exact absurd rfl (hw r h)
  · rfl

theorem registerPut_of_store {w : Writer} (hw : ∀ r h, w ≠ .dict r h) (idx sub v : Nat) (m : Mach) :
    registerPut w idx sub v m = regStore w idx sub v m := by
  unfold registerPut
  split
  next r h => exact absurd rfl (hw r h)
  · rfl

theorem registerPut_low {w : Writer} {idx sub v : Nat} {f : Found} {m : Mach} (hh : regHit m idx sub = some (.low f))
    (hs : f.row.ty ≠ .str) (hd : f.row.ty ≠ .dom) (hn : f.row.ty.wide = false) :
    registerPut w idx sub v m = writeObj w f (f.row.ty.fit v) m := by
  unfold registerPut
  split
  · simp [objStore, hh, hs]
  · simp [regStore, hh, hs, hd, hn]

theorem regStore_low_wide {w : Writer} {idx sub v : Nat} {f : Found} {m : Mach} (hh : regHit m idx sub = some (.low f))
    (hs : f.row.ty ≠ .str) (hd : f.row.ty ≠ .dom) (hw : f.row.ty.wide = true) (ha : f.row.acc = .rw) (hm : f.row.mach = false) :
    regStore w idx sub v m = .ok (stagePut w v m) := by
  simp [regStore, hh, hs, hd, hw, stageLow, stageBar, ha, hm]

theorem regStore_high {w : Writer} {idx sub v : Nat} {f : Found} {m : Mach} (hh : regHit m idx sub = some (.high f)) :
    regStore w idx sub v m = writeObj w f (v * 2 ^ 32 + staged m w) (stagePut w 0 m) := by
  simp [regStore, hh]

theorem regAt_aligned {addr : Nat} {p : Nat × Nat} (h : regAt addr = some p) : addr % 4 = 0 := by
  unfold regAt at h
  split at h
  next hr => obtain ⟨-, -, h4⟩ := hr; exact h4
  · cases h

/-! A write that reaches its word does what `registerPut` says, and its writer is told. -/

section
variable {s : State} {w : Writer} {addr v : Word} {idx sub : Nat}
  (hl : writerLive s.m w = true) (ha : regAt addr.toNat = some (idx, sub)) (hg : gate w ⟨idx, sub, 0⟩ false s.m = none)
  (hm : missing s.m w idx sub = none)
include hl ha hg hm

theorem to_registerWrite_ok {m1 : Mach} (hp : registerPut w idx sub v.toNat s.m = .ok m1) :
    To (.registerWrite w addr v) s (settle (answered w m1)) := by
  change done _ s = _
  simp [done, registerWriteEffect, hl, regAt_aligned ha, ha, hg, hm, hp]

theorem to_registerWrite_error {a : Abort} (hp : registerPut w idx sub v.toNat s.m = .error a) :
    To (.registerWrite w addr v) s (settle (refuseAt w addr.toNat a s.m)) := by
  change done _ s = _
  simp [done, registerWriteEffect, hl, regAt_aligned ha, ha, hg, hm, hp]
end

/-! ## Declarations (R49) -/

theorem userDeclareEffect_barred {u : User} {m : Mach} (h : u.idx < 0x6000 ∨ 0x7FFF < u.idx ∨ userClash m u = true) :
    userDeclareEffect u m = m := by
  rw [userDeclareEffect, if_pos (by tauto)]

/-- A core of the owning side runs, so that a user object of a class other than K exists from now on. -/
theorem userDeclareEffect_declared {u : User} {m : Mach} {core : Nat} (hlo : 0x6000 ≤ u.idx) (hhi : u.idx ≤ 0x7FFF)
    (hc : userClash m u = false) (ht : u.ty ≠ .dom) (hr : u.ret ≠ .k)
    (ho : (ownerOf u.idx = .field ∧ core = 2) ∨ (ownerOf u.idx = .host ∧ core < 2))
    (hh : (m.core core).held = false) (hd : (m.core core).halted = false) :
    userDeclareEffect u m = { m with dic := { m.dic with users := m.dic.users ++ [u] } } := by
  have hcores : (if ownerOf u.idx = .field then [2] else [0, 1]).all (fun i => (m.core i).held || (m.core i).halted) = false := by
    rw [List.all_eq_false]
    refine ⟨core, ?_, by simp [hh, hd]⟩
    obtain ⟨hf, rfl⟩ | ⟨hf, hlt⟩ := ho
    · simp [hf]
    · have h01 : core = 0 ∨ core = 1 := by omega
      simpa [hf] using h01
  rw [userDeclareEffect, if_neg (by simp [hlo, hhi, hc, ht])]
  simp only [hcores, hr, Bool.false_eq_true, if_false, ne_eq, not_false_eq_true, if_true]

/-- Settles O23: a write that reaches its word is a `writeObj` with a plain write, or the staging of a low word; a declaration is the
list of user objects with one more. -/
theorem registerWrite : Obligations.RegisterWrite := by
  unfold Obligations.RegisterWrite
  rintro s w addr v idx sub ⟨hal, hno⟩ hl ha hg
  refine ⟨fun f h34 h0 h1 => octFirst_of_no_octet h34 h0 h1 s.m, ?_, ?_, ?_⟩
  · intro f hh hs hd hn
    have hm : missing s.m w idx sub = none := missing_of_low hh hd
    have hp := registerPut_low (w := w) (v := v.toNat) hh hs hd hn
    refine ⟨?_, ?_, ?_, ?_⟩
    · rintro m rfl ho hr hmach hk he
      have hland (hro : f.row.acc ≠ .ro) (hst : f.row.acc = .rws → stillFor s.m f (f.row.ty.fit v.toNat) = true) :=
        to_registerWrite_ok hl ha hg hm (hp.trans (writeObj_lands hro hmach hst hk he ho hr))
      refine ⟨?_, fun hac => by simpa [plainWrite, hac] using hland, fun hac => by simpa [plainWrite, hac] using hland⟩
      rintro (hac | hac | ⟨hac, hst⟩)
      · simpa [plainWrite, hac] using hland
      · simpa [plainWrite, hac] using hland
      · simpa [plainWrite, hac, hst] using hland
    · intro hac
      exact to_registerWrite_error hl ha hg hm (hp.trans (writeObj_readOnly hac))
    · intro hac hmach hst
      exact to_registerWrite_error hl ha hg hm (hp.trans (writeObj_running hac hmach hst))
    · intro hro hmach hst hk
      exact to_registerWrite_error hl ha hg hm (hp.trans (writeObj_range hro hmach hst hk))
  · intro f m hw hs hd hac hmach
    have hm := missing_of_store hw s.m idx sub
    have hp := registerPut_of_store hw idx sub v.toNat s.m
    have hro : f.row.acc ≠ .ro := by simp [hac]
    refine ⟨fun hh hwide => ?_, ?_⟩
    · have ht := to_registerWrite_ok hl ha hg hm (hp.trans (regStore_low_wide hh hs hd hwide hac hmach))
      rwa [answered_of_store hw, settle_quiet (m := stagePut w v.toNat s.m) hal hno] at ht
    · rintro hh rfl
      have hp := hp.trans (regStore_high hh)
      refine ⟨fun hk ho hr he => ?_, fun hk => ?_⟩
      · have ht := to_registerWrite_ok hl ha hg hm (hp.trans (writeObj_lands hro hmach (by simp [hac]) hk he ho hr))
        simpa [answered_of_store hw, plainWrite, hac] using ht
      · exact to_registerWrite_error hl ha hg hm (hp.trans (writeObj_range hro hmach (by simp [hac]) hk))
  · rintro i b ty acc mach ret dflt core u rfl ho hheld hhalt
    refine ⟨fun hlo hhi hc ht hr => ?_, fun hbar => ?_⟩
    · exact done_quiet (userDeclareEffect_declared hlo hhi hc ht hr ho hheld hhalt) hal hno
    · exact done_quiet (userDeclareEffect_barred hbar) hal hno

end Sys2Proof.Machine

/-! # O48: the gate of the write commands

Every command of `writeTarget` is a `commandThen` of its writer, object and M- mark (`exec_of_writeTarget`), so what the gate does is
proved once, of `commandThen`. That the mark is the one of the object's row is read off the tables. -/

namespace Sys2Proof.Machine

/-! ## The form of a write command -/

/-- How the writer of a command is told that it was carried out: that of a persistence command hears of it later (R61, R70). -/
def tellOf : Instr → Writer → Mach → Mach
  | .store _ _ | .reload _ _ | .factory _ _ => storeAsked
  | _ => answered

theorem eq_tellOf {c : Instr} {w : Writer} {ans : Mach → Mach}
    (hs : (∃ sig, c = .store w sig ∨ c = .reload w sig ∨ c = .factory w sig) → ans = storeAsked w)
    (ha : (∀ sig, c ≠ .store w sig ∧ c ≠ .reload w sig ∧ c ≠ .factory w sig) → ans = answered w)
    {o : Obj} {mach : Bool} (hc : writeTarget c = some (w, o, mach)) : ans = tellOf c w := by
  unfold tellOf
  split
  next v sig => cases hc; exact hs ⟨sig, .inl rfl⟩
  next v sig => cases hc; exact hs ⟨sig, .inr (.inl rfl)⟩
  next v sig => cases hc; exact hs ⟨sig, .inr (.inr rfl)⟩
  next h1 h2 h3 => exact ha fun sig => ⟨h1 w sig, h2 w sig, h3 w sig⟩

/-- Every write command is the shared form of a write with an effect of its own. -/
theorem exec_of_writeTarget {c : Instr} {w : Writer} {o : Obj} {mach : Bool} (h : writeTarget c = some (w, o, mach)) :
    ∃ eff, ∀ s, exec c s = done (commandThen (tellOf c w) w o mach eff) s := by
  cases c <;> cases h
  all_goals exact ⟨_, fun _ => rfl⟩

section
variable {ans : Mach → Mach} {w : Writer} {o : Obj} {mach : Bool} {eff : Mach → Eff} {m : Mach}

theorem commandThen_dead (hl : writerLive m w = false) : commandThen ans w o mach eff m = m := by
  simp [commandThen, hl]

theorem commandThen_barred {a : Abort} (hl : writerLive m w = true) (hg : gate w o mach m = some a) :
    commandThen ans w o mach eff m = refuse w o a m := by
  simp [commandThen, hl, hg]

/-- A write that the gate lets pass lands, or is refused by its own rules. -/
theorem commandThen_passed (hl : writerLive m w = true) (hg : gate w o mach m = none) :
    (∃ m1, commandThen ans w o mach eff m = ans (landed w o m m1)) ∨ ∃ a, commandThen ans w o mach eff m = refuse w o a m := by
  cases he : eff m with
  | ok m1 => exact .inl ⟨m1, by simp [commandThen, hl, hg, he]⟩
  | error a => exact .inr ⟨a, by simp [commandThen, hl, hg, he]⟩

theorem landed_overruled (h : overruled m o = true) (m1 : Mach) : landed w o m m1 = m := by
  simp [landed, h]

theorem landed_outranked (h : overruled m o = false) (hr : outranked m w o = true) (m1 : Mach) :
    landed w o m m1 = redoNote o (redoValue m o) m1 := by
  simp [landed, h, hr]
end

/-! ## The M- mark of an object's row (R53) -/

/-- The tables hold the object, and its row has the M- mark, or has it not, as b says. -/
def machIs (o : Obj) (b : Bool) : Bool := (findObj o.idx o.sub).any (fun f => f.row.mach == b)

theorem machIs_iff {o : Obj} {b : Bool} :
    machIs o b = true ↔ ∃ f, findObj o.idx o.sub = some f ∧ f.row.mach = b := by
  simp [machIs, Option.any_eq_true]

/-- The row's objects have the n indices from base on. -/
def Row.spans (r : Row) (base n : Nat) : Bool :=
  r.base == base && r.s1 == 1 && r.n1 == n && r.s2 == 1 && r.n2 == 1

/-- The row's objects, none with a second number, have indices below base or from base + n on. -/
def Row.apart (r : Row) (base n : Nat) : Bool :=
  r.s2 == 1 && r.n2 == 1 && r.s1 == 1 && (decide (base + n ≤ r.base) || decide (r.base + r.n1 ≤ base))

theorem Row.inst_of_spans {r : Row} {base n i : Nat} (h : r.spans base n = true) (hi : i < n) : r.inst (base + i) = some (i, 0) := by
  simp only [Row.spans, Bool.and_eq_true, beq_iff_eq] at h
  obtain ⟨⟨⟨⟨hb, hs1⟩, hn1⟩, hs2⟩, hn2⟩ := h
  simp [Row.inst, hb, hs1, hn1, hs2, hn2, hi, Nat.mod_one]

theorem Row.inst_of_apart {r : Row} {base n i : Nat} (h : r.apart base n = true) (hi : i < n) : r.inst (base + i) = none := by
  simp only [Row.apart, Bool.and_eq_true, Bool.or_eq_true, beq_iff_eq, decide_eq_true_eq] at h
  obtain ⟨⟨⟨hs2, hn2⟩, hs1⟩, hd⟩ := h
  simp only [Row.inst, hs1, hs2, hn2, Nat.div_one]
  split
  · rfl
  · rw [if_neg (by omega)]

/-- In a unit whose rows all span the indices from base on or stand apart from them, the first row that spans them and holds the
subindex is the object's, whatever its number. -/
theorem machIs_of_unit {l : List Row} {base n i sub d : Nat} {b : Bool} (hi : i < n) (hu : rowsOf (base + i) = l)
    (hl : l.all (fun r => r.spans base n || r.apart base n) = true) :
    machIs ⟨base + i, sub, d⟩ b = (l.find? (fun r => r.spans base n && (r.rep sub).isSome)).any (fun r => r.mach == b) := by
  rw [machIs, findObj, hu]
  clear hu
  induction l with
  | nil => rfl
  | cons r l ih =>
    simp only [List.all_cons, Bool.and_eq_true, Bool.or_eq_true] at hl
    obtain ⟨hr, hl⟩ := hl
    have ih := ih hl
    have hf : r.find (base + i) sub = if r.spans base n then (r.rep sub).map (fun t => ⟨r, i, 0, t⟩) else none := by
      unfold Row.find
      cases hs : r.spans base n
      · simp [Row.inst_of_apart (hr.resolve_left (by simp [hs])) hi]
      · rw [Row.inst_of_spans hs hi]; cases r.rep sub <;> rfl
    simp only [List.findSome?_cons, List.find?_cons, hf]
    cases r.spans base n with
    | false => simpa using ih
    | true =>
      cases r.rep sub with
      | none => simpa using ih
      | some t => simp

/-! The objects of the write commands, unit by unit. -/

theorem machIs_evt (n : Fin 1024) :
    machIs (R.EVT_ENABLE n) false = true ∧ machIs (R.EVT_TIMING n) false = true ∧ machIs (R.EVT_CMD n) false = true := by
  have hu : rowsOf (0x2200 + n) = rowsEvt := by simp (disch := omega) only [rowsOf, if_neg, if_pos]
  simp only [R.EVT_ENABLE, R.EVT_TIMING, R.EVT_CMD, machIs_of_unit n.isLt hu (by decide)]
  decide

theorem machIs_axis (a : Fin 128) :
    machIs (R.AX_RUN a) false = true ∧ machIs (R.AX_CMD a) false = true ∧ machIs (R.AX_PROF_NEXT a) false = true := by
  have hu : rowsOf (0x2900 + a) = rowsAxis := by simp (disch := omega) only [rowsOf, if_neg, if_pos]
  simp only [R.AX_RUN, R.AX_CMD, R.AX_PROF_NEXT, machIs_of_unit a.isLt hu (by decide)]
  decide

theorem machIs_chan (c : Fin 128) :
    machIs (R.CH_MODE c) false = true ∧ machIs (R.CH_EN c) false = true ∧ machIs (R.CH_GPIO_OUT c) false = true ∧
    machIs (R.CH_CNT_CLR c) false = true ∧ machIs (R.CH_Q_PUSH c) false = true ∧
    machIs (R.CH_Q_POP c) false = true ∧ machIs (R.CH_Q_FLUSH c) false = true := by
  have hu : rowsOf (0x3000 + c) = rowsChan := by simp (disch := omega) only [rowsOf, if_neg, if_pos]
  have hv : rowsOf (0x3080 + c) = rowsChan := by simp (disch := omega) only [rowsOf, if_neg, if_pos]
  have hq : rowsOf (0x3100 + c) = rowsChan := by simp (disch := omega) only [rowsOf, if_neg, if_pos]
  simp only [R.CH_MODE, R.CH_EN, R.CH_GPIO_OUT, R.CH_CNT_CLR, R.CH_Q_PUSH, R.CH_Q_POP, R.CH_Q_FLUSH,
    machIs_of_unit c.isLt hu (by decide), machIs_of_unit c.isLt hv (by decide), machIs_of_unit c.isLt hq (by decide)]
  decide

theorem machIs_ctx (x : Fin 128) :
    machIs (R.CTX_RUN x) false = true ∧ machIs (R.CTX_CMD x) false = true ∧ machIs (R.CTX_TXQ_PUSH x) false = true ∧
    machIs (R.CTX_RXQ_POP x) false = true ∧ machIs (R.CTX_Q_FLUSH x) false = true := by
  have hu : rowsOf (0x3880 + x) = rowsCtx := by simp (disch := omega) only [rowsOf, if_neg, if_pos]
  simp only [R.CTX_RUN, R.CTX_CMD, R.CTX_TXQ_PUSH, R.CTX_RXQ_POP, R.CTX_Q_FLUSH, machIs_of_unit x.isLt hu (by decide)]
  decide

theorem machIs_srcCfgObj (id : Fin 512) : machIs (srcCfgObj id) false = true := by
  unfold srcCfgObj
  split
  next h =>
    have hu : rowsOf (0x3C00 + id) = rowsBelSrc := by simp (disch := omega) only [rowsOf, if_neg, if_pos]
    rw [R.BEL_SRC_CFG, machIs_of_unit h hu (by decide)]
    decide
  next h =>
    have hi : id.val - 384 < 128 := by omega
    have hu : rowsOf (0x1A80 + (id - 384)) = rowsBelH := by simp (disch := omega) only [rowsOf, if_neg, if_pos]
    rw [R.BEL_SRC_CFG_H, machIs_of_unit hi hu (by decide)]
    decide

theorem machIs_timer (n : Fin 16) :
    machIs (R.GT_RUN n) false = true ∧ machIs (R.GT_COUNT n) false = true ∧ machIs (R.GT_CTRL n) false = true := by
  have hu : rowsOf (0x2010 + n) = rowsTime := by simp (disch := omega) only [rowsOf, if_neg, if_pos]
  simp only [R.GT_RUN, R.GT_COUNT, R.GT_CTRL, machIs_of_unit n.isLt hu (by decide)]
  decide

theorem machIs_vm (v : Fin 8) : machIs (R.VM_ENABLE v) false = true := by
  have hu : rowsOf (0x2810 + v) = rowsCam := by simp (disch := omega) only [rowsOf, if_neg, if_pos]
  rw [R.VM_ENABLE, machIs_of_unit v.isLt hu (by decide)]
  decide

theorem machIs_oculus (u : Fin 16) :
    machIs (R.OCU_ENABLE u) false = true ∧ machIs (R.OCU_BIND u) false = true ∧ machIs (R.OCU_FW_CORR u) false = true ∧
    machIs (R.OCU_CNT_CLR u) false = true := by
  have hu : rowsOf (0x2980 + u) = rowsOcu := by simp (disch := omega) only [rowsOf, if_neg, if_pos]
  simp only [R.OCU_ENABLE, R.OCU_BIND, R.OCU_FW_CORR, R.OCU_CNT_CLR, machIs_of_unit u.isLt hu (by decide)]
  decide

theorem machIs_mover (n : Fin 16) : machIs (R.MOV_RUN n) false = true ∧ machIs (R.MOV_CMD n) false = true := by
  have hu : rowsOf (0x3180 + n) = rowsMov := by simp (disch := omega) only [rowsOf, if_neg, if_pos]
  simp only [R.MOV_RUN, R.MOV_CMD, machIs_of_unit n.isLt hu (by decide)]
  decide

theorem machIs_trip (o : Fin 16) :
    machIs (R.TRP_REARM o) false = true ∧ machIs (R.TRP_REARM_RB o) true = true ∧ machIs (R.TRP_CMD o) false = true := by
  have hu : rowsOf (0x3510 + o) = rowsTrp := by simp (disch := omega) only [rowsOf, if_neg, if_pos]
  simp only [R.TRP_REARM, R.TRP_REARM_RB, R.TRP_CMD, machIs_of_unit o.isLt hu (by decide)]
  decide

theorem machIs_wheel (d : Fin 16) : machIs (R.WHL_ENABLE d) false = true ∧ machIs (R.WHL_CNT_CLR d) false = true := by
  decide +kernel +revert

theorem machIs_pwm (o : Fin 16) :
    machIs (R.PWM_RUN o) false = true ∧ machIs (R.PWM_PERIOD_IMM o) false = true ∧ machIs (R.PWM_CH_OFF o) false = true ∧
    machIs (R.PWM_CNT_CLR o) false = true := by
  decide +kernel +revert

theorem machIs_belWord (side : Side) (j : Fin 16) :
    machIs (pendSetObj side j) false = true ∧ machIs (pendClrObj side j) false = true ∧
    machIs (enSetObj side j) false = true ∧ machIs (enClrObj side j) false = true := by
  cases side <;> decide +kernel +revert

theorem machIs_turret (e : Fin 8) :
    machIs (R.TUR_RUN e) false = true ∧ machIs (R.TUR_FLAG_SET e) false = true ∧ machIs (R.TUR_FLAG_CLR e) false = true := by
  decide +kernel +revert

theorem machIs_spire (n : Fin 2) : machIs (R.SPR_RELEASE n) true = true ∧ machIs (R.SPR_CNT_CLR n) false = true := by
  decide +revert

theorem machIs_can (k : Fin 2) : machIs (R.CAN_EN k) false = true ∧ machIs (R.CAN_CNT_CLR k) false = true := by
  decide +revert

theorem machIs_shadowObj (o : Fin 16) (obj : PwmShadow) : machIs (shadowObj o obj) false = true := by
  cases obj <;> decide +kernel +revert

theorem machIs_netClrObj (which : NetClr) : machIs (netClrObj which) false = true := by
  cases which <;> decide +revert

theorem machIs_side (side : Side) :
    machIs (resetObj side) true = true ∧ machIs (barCmd side) false = true ∧ machIs (belCntClrObj side) false = true := by
  cases side <;> decide

theorem machIs_single :
    (∀ o ∈ [R.DIC_STORE, R.DIC_RELOAD, R.DIC_FACTORY, R.LT_STEP, R.LAN_RUN, R.LAN_CMD, R.TUR_XFLAG_SET, R.TUR_XFLAG_CLR,
      R.KEEP_CNT_CLR, R.BAR_H_CMD, R.NET_RUN, R.RED_EN, R.RED_CMD, R.SAF_DEMAND, R.SAF_WD_KICK, R.SAF_DIAG_SEQ, R.SAF_LOG_APPEND,
      R.SAF_CNT_CLR, R.PWR_REARM, R.PWR_F_STATE_REQ, R.PWR_H_STATE_REQ, R.PWR_H_WD_KICK, R.PWR_UNIT_STOP, R.PWR_H_FW_CMD],
      machIs o false = true) ∧
    ∀ o ∈ [R.SAF_RELEASE, R.SAF_KEY_COMMIT, R.SAF_FUSE_CMD, R.PWR_H_BOOTKEY_CMD], machIs o true = true := by
  decide

/-- The M- mark that a write command asks for is its object's. -/
theorem machIs_of_writeTarget {c : Instr} {w : Writer} {o : Obj} {mach : Bool} (h : writeTarget c = some (w, o, mach)) :
    machIs o mach = true := by
  obtain ⟨hf, ht⟩ := machIs_single
  simp only [List.forall_mem_cons] at hf ht
  cases c <;> cases h
  all_goals simp only [machIs_evt, machIs_axis, machIs_chan, machIs_ctx, machIs_srcCfgObj, machIs_timer, machIs_vm, machIs_oculus,
    machIs_mover, machIs_trip, machIs_wheel, machIs_pwm, machIs_shadowObj, machIs_turret, machIs_belWord, machIs_spire, machIs_can,
    machIs_netClrObj, machIs_side, hf, ht]

/-- Settles O48: every write command is a `commandThen`, whose gate comes before its effect, and the tables give its object's row the
M- mark it asks for. -/
theorem writeGate : Obligations.WriteGate := by
  unfold Obligations.WriteGate
  rintro c s w o mach ⟨hal, hno⟩ hc
  obtain ⟨eff, hx⟩ := exec_of_writeTarget hc
  simp only [To, hx, done]
  refine ⟨fun hl => ?_, fun a hl hg => ?_, fun ans hl hg hs ha => ?_, machIs_iff.mp (machIs_of_writeTarget hc)⟩
  · rw [commandThen_dead hl, settle_quiet hal hno]
  · rw [commandThen_barred hl hg]
  · rw [eq_tellOf hs ha hc]
    obtain ⟨m1, he⟩ | ⟨a, he⟩ := commandThen_passed (ans := tellOf c w) (eff := eff) hl hg
    · refine ⟨fun ho => .inl ?_, fun ho hr => .inl ⟨m1, ?_⟩⟩
      · rw [he, landed_overruled ho]
      · rw [he, landed_outranked ho hr]
    · rw [he]
      exact ⟨fun _ => .inr ⟨a, rfl⟩, fun _ _ => .inr ⟨a, rfl⟩⟩

end Sys2Proof.Machine

/-! # O53: every command completes

Most commands are `done` of an effect and answer a next state by their form. What is left is where a core or its debug port may meet a
word of Spire's port region: only a load or a store can, so the rows of the other instructions always complete. -/

namespace Sys2Proof.Machine

/-! ## Instructions that reach no port -/

/-- The access or instruction meets no word of the port region that the spec does not describe (R33). -/
def NoPort {α : Type} (r : Except CoreStop α) : Prop := ∀ a, r ≠ .error (.port a)

@[simp] theorem noPort_ok {α : Type} (x : α) : NoPort (.ok x) := fun _ h => nomatch h

@[simp] theorem noPort_fault {α : Type} (cls code info : Nat) : NoPort (.error (.fault cls code info) : Except CoreStop α) :=
  fun _ h => by cases h

@[simp] theorem Insn.noPort_illegal (x : Insn) : NoPort x.illegal := noPort_fault _ _ _

@[simp] theorem Insn.noPort_privilege (x : Insn) : NoPort x.privilege := noPort_fault _ _ _

@[simp] theorem Insn.noPort_result (x : Insn) (v : Word) (m : Mach) : NoPort (x.result v m) := noPort_ok _

/-- The regions of the maps begin at multiples of 4, so an aligned word lies in one of them. -/
theorem areaOf_aligned_last {a : Nat} (ha : a % 4 = 0) (i : Nat) : areaOf i (a + 3) = areaOf i a := by
  have hlt (b : Nat) (hb : b % 4 = 0) : a + 3 < b ↔ a < b := by omega
  have hle (b : Nat) (hb : b % 4 = 0) : b ≤ a + 3 ↔ b ≤ a := by omega
  simp (disch := decide) only [areaOf, keepArea, spireArea, hlt, hle]

theorem lt_of_atomics {i a : Nat} (h : (areaOf i a).atomics = true) : a < 0x9C000000 := by
  by_contra hge
  have hn : areaOf i a = .nothing := by
    simp (disch := omega) only [areaOf, keepArea, spireArea, if_neg, ite_self]
  simp [hn, Area.atomics] at h

/-- An aligned word of a region that allows atomics lies in memory (R386). -/
theorem memory_of_atomics {i a : Nat} (h : (areaOf i a).atomics = true) (ha : a % 4 = 0) :
    (areaOf i a).device = false ∧ (areaOf i (lastByte a 4)).device = false := by
  have hl : lastByte a 4 = a + 3 := Nat.mod_eq_of_lt (by have := lt_of_atomics h; omega)
  rw [hl, areaOf_aligned_last ha, and_self]
  cases hr : areaOf i a <;> simp_all [Area.atomics, Area.device]

theorem coreRead_noPort_of_atomics {i : Fin 3} {a : Nat} (h : (areaOf i.val a).atomics = true) (ha : a % 4 = 0) (e : CoreEcc)
    (m : Mach) : NoPort (coreRead i e a 4 m) := by
  obtain ⟨h1, h2⟩ := memory_of_atomics h ha
  unfold coreRead
  dsimp only
  split_ifs <;> simp_all

/-- What stops a part that reaches no port stops the whole without one. -/
theorem NoPort.error_of_eq {α β : Type} {r : Except CoreStop α} (h : NoPort r) {e : CoreStop} (he : r = .error e) :
    NoPort (.error e : Except CoreStop β) := fun a ha => h a (by cases ha; exact he)

theorem Insn.noPort_loadReserved (x : Insn) (m : Mach) : NoPort (x.loadReserved m) := by
  unfold Insn.loadReserved
  dsimp only
  split
  · simp
  split
  · simp
  next hin hal =>
    simp only [Bool.or_eq_true, Bool.not_eq_true', not_or, Bool.not_eq_false] at hin
    split
    · simp
    next he => exact (coreRead_noPort_of_atomics hin.1 (not_not.mp hal) x.e m).error_of_eq he

theorem Insn.noPort_storeConditional (x : Insn) (m : Mach) : NoPort (x.storeConditional m) := by
  unfold Insn.storeConditional
  dsimp only
  split_ifs <;> simp

theorem Insn.noPort_amo (x : Insn) (m : Mach) : NoPort (x.amo m) := by
  unfold Insn.amo
  dsimp only
  split
  · simp
  split
  · simp
  next hin hal =>
    simp only [Bool.or_eq_true, Bool.not_eq_true', not_or, Bool.not_eq_false, and_assoc] at hin
    split
    · split <;> simp
    next he => exact (coreRead_noPort_of_atomics hin.1 (not_not.mp hal) x.e m).error_of_eq he

theorem Insn.noPort_atomic (x : Insn) (m : Mach) : NoPort (x.atomic m) := by
  unfold Insn.atomic
  dsimp only
  split_ifs <;> simp [noPort_loadReserved, noPort_storeConditional, noPort_amo]

theorem noPort_ssJump (ret call : Bool) (target link : Word) (c : Core) : NoPort (ssJump ret call target link c) := by
  have hret (d : Core) : NoPort (ssReturn target d) := by
    unfold ssReturn
    split
    · simp
    · split_ifs <;> simp
  have hcall (d : Core) : NoPort (ssCall link d) := by unfold ssCall; split_ifs <;> simp
  unfold ssJump
  split
  · simp
  have hfirst : NoPort (if ret then ssReturn target c else .ok c) := by split_ifs <;> simp [hret]
  split
  next he => exact hfirst.error_of_eq he
  · split_ifs <;> simp [hcall]

theorem Insn.noPort_jump (x : Insn) (ret : Bool) (target : Word) (m : Mach) : NoPort (x.jump ret target m) := by
  unfold Insn.jump
  split
  next he => exact (noPort_ssJump _ _ _ _ _).error_of_eq he
  · simp

theorem Insn.noPort_jalr (x : Insn) (m : Mach) : NoPort (x.jalr m) := by
  unfold Insn.jalr
  split_ifs <;> simp [noPort_jump]

theorem Insn.noPort_xss (x : Insn) (l : Nat) (bot : Bool) (m : Mach) : NoPort (x.xss l bot m) := by
  unfold Insn.xss
  dsimp only
  split_ifs <;> simp

theorem Insn.noPort_csr (x : Insn) (m : Mach) : NoPort (x.csr m) := by
  unfold Insn.csr
  dsimp only
  split
  · simp
  · split_ifs
    any_goals simp
    all_goals split <;> simp [noPort_xss]

theorem Insn.noPort_system (x : Insn) (m : Mach) : NoPort (x.system m) := by
  have hecall : NoPort (x.ecall m) := by unfold Insn.ecall; dsimp only; split_ifs <;> simp
  have hebreak : NoPort (x.ebreak m) := by unfold Insn.ebreak; split_ifs <;> simp
  have hxret : NoPort (x.xret m) := by
    unfold Insn.xret
    split_ifs
    · simp
    · split <;> simp
  have hwfi : NoPort (x.wfi m) := by unfold Insn.wfi; split_ifs <;> simp
  unfold Insn.system
  split_ifs <;> simp [noPort_csr, *]

theorem Insn.noPort_fence (x : Insn) (m : Mach) : NoPort (x.fence m) := by
  unfold Insn.fence
  split_ifs <;> simp

/-- The opcodes of the rows that stand for one kind of instruction: fences, atomics, jumps and system instructions. -/
def kindOpcodes : List Nat := [0x0F, 0x2F, 0x67, 0x6F, 0x73]

theorem Insn.noPort_exec {x : Insn} (h : opcodeOf x.w ∈ kindOpcodes) (m : Mach) : NoPort (x.exec m) := by
  simp only [kindOpcodes, List.mem_cons, List.not_mem_nil, or_false] at h
  unfold Insn.exec
  obtain h | h | h | h | h := h <;> rw [h]
  · exact x.noPort_fence m
  · exact x.noPort_atomic m
  · exact x.noPort_jalr m
  · exact x.noPort_jump _ _ m
  · exact x.noPort_system m

theorem noPort_coreInsn {w : Nat} (h : opcodeOf (wordOr0 w) ∈ kindOpcodes) (i : Fin 3) (e : CoreEcc) (m : Mach) :
    NoPort (coreInsn i w e m) := by
  unfold coreInsn
  dsimp only
  split
  · simp
  split
  · simp
  split
  · simp
  next v hv => exact Insn.noPort_exec (by simpa [wordOr0, hv] using h) m

/-! ## Completion -/

/-- The command answers a next state with the same queue. -/
def Completes (f : State → Host.Outcome State Fault Refusal) (s : State) : Prop := ∃ t, f s = .next t ∧ t.pending = s.pending

theorem completes_done (f : Mach → Mach) (s : State) : Completes (done f) s := ⟨_, rfl, rfl⟩

theorem completes_runWord {i : Fin 3} {w : Nat} {e : CoreEcc} {s : State} (h : NoPort (coreInsn i w e (eccSeen i w e s.m))) :
    Completes (runWord i w e) s := by
  unfold Completes runWord
  split
  · exact completes_done id s
  split
  · exact completes_done _ s
  · exact completes_done _ s
  next a ha => exact absurd ha (h a)

/-- A row of one kind of instruction completes with every word. -/
theorem completes_runKind {kind : Nat → Bool} (hk : ∀ v, kind v = true → opcodeOf v ∈ kindOpcodes) (i : Fin 3) (w : Nat) (s : State) :
    Completes (runKind kind i w) s := by
  unfold Completes runKind
  split
  next h => exact completes_runWord (noPort_coreInsn (hk _ h) i .clean _)
  · exact completes_done id s

theorem completes_dapMem {i : Fin 3} {cmd : Nat} {access : Mach → Except CoreStop (Nat × Mach)} {s : State}
    (h : NoPort (access (atM i s.m))) : Completes (dapMem i cmd access) s := by
  unfold Completes dapMem
  dsimp only
  split
  · exact completes_done _ s
  split
  · exact completes_done _ s
  · exact completes_done _ s
  next a ha => exact absurd ha (h a)

/-! The kinds of the rows name their opcodes. -/

theorem opcodeOf_isFence {v : Nat} (h : isFence v = true) : opcodeOf v ∈ kindOpcodes := by
  simp only [isFence, Bool.and_eq_true, beq_iff_eq] at h
  simp [h.1, kindOpcodes]

theorem opcodeOf_isFenceI {v : Nat} (h : isFenceI v = true) : opcodeOf v ∈ kindOpcodes := by
  simp only [isFenceI, Bool.and_eq_true, beq_iff_eq] at h
  simp [h.1, kindOpcodes]

theorem opcodeOf_isCsr {v : Nat} (h : isCsr v = true) : opcodeOf v ∈ kindOpcodes := by
  simp only [isCsr, Bool.and_eq_true, beq_iff_eq] at h
  simp [h.1, kindOpcodes]

theorem opcodeOf_isXss {k : Nat} {writes : Bool} {v : Nat} (h : isXss k writes v = true) : opcodeOf v ∈ kindOpcodes := by
  simp only [isXss, Bool.and_eq_true] at h
  exact opcodeOf_isCsr h.1.1

theorem opcodeOf_isShadowCall {v : Nat} (h : isShadowCall v = true) : opcodeOf v ∈ kindOpcodes := by
  simp only [isShadowCall, Bool.and_eq_true, Bool.or_eq_true, beq_iff_eq] at h
  obtain ⟨h | h, -⟩ := h <;> simp [h, kindOpcodes]

theorem opcodeOf_isShadowReturn {v : Nat} (h : isShadowReturn v = true) : opcodeOf v ∈ kindOpcodes := by
  simp only [isShadowReturn, Bool.and_eq_true, beq_iff_eq] at h
  simp [h.1, kindOpcodes]

theorem opcodeOf_isAtomic {v : Nat} (h : isAtomic v = true) : opcodeOf v ∈ kindOpcodes := by
  simp [kindOpcodes, beq_iff_eq.mp h]

/-- The rows without an operand word run a system instruction. -/
theorem completes_systemWord {w : Nat} (h : opcodeOf (wordOr0 w) = 0x73) (i : Fin 3) (s : State) : Completes (runWord i w .clean) s :=
  completes_runWord (noPort_coreInsn (by simp [h, kindOpcodes]) i .clean _)

theorem completes_pin {side : Side} {ns : Nat} (h : ns < 200 ∨ 1000 ≤ ns) (s : State) : Completes (execPin side ns) s := by
  unfold Completes execPin
  split
  · exact ⟨s, rfl, rfl⟩
  · rw [if_neg (by omega)]
    exact completes_done _ s

/-- Settles O53: the core rows go by the kind of their words, the debug port's by their access, PIN by its length; every other command is
`done` of its effect. -/
theorem everyCommandCompletes : Obligations.EveryCommandCompletes := by
  unfold Obligations.EveryCommandCompletes
  intro i s hpin hinsn hread hwrite
  cases i with
  | ecall core => exact completes_systemWord (by decide) core s
  | ebreak core compressed => exact completes_systemWord (by cases compressed <;> decide) core s
  | xret core => exact completes_systemWord (by decide) core s
  | wfi core => exact completes_systemWord (by decide) core s
  | fence core w => exact completes_runKind (fun _ => opcodeOf_isFence) core w.toNat s
  | fenceI core w => exact completes_runKind (fun _ => opcodeOf_isFenceI) core w.toNat s
  | csrAccess core w => exact completes_runKind (fun _ => opcodeOf_isCsr) core w.toNat s
  | xssTopRead core w => exact completes_runKind (fun _ => opcodeOf_isXss) core w.toNat s
  | xssTopWrite core w => exact completes_runKind (fun _ => opcodeOf_isXss) core w.toNat s
  | xssBotRead core w => exact completes_runKind (fun _ => opcodeOf_isXss) core w.toNat s
  | xssBotWrite core w => exact completes_runKind (fun _ => opcodeOf_isXss) core w.toNat s
  | shadowCall core w => exact completes_runKind (fun _ => opcodeOf_isShadowCall) core w.toNat s
  | shadowReturn core w => exact completes_runKind (fun _ => opcodeOf_isShadowReturn) core w.toNat s
  | atomic core w => exact completes_runKind (fun _ => opcodeOf_isAtomic) core w.toNat s
  | instruction core w e => exact completes_runWord fun a => hinsn core w e a rfl
  | readMem core =>
    change Completes (execReadMem core) s
    unfold Completes execReadMem
    split
    · exact completes_done _ s
    · exact completes_dapMem fun a => hread core a rfl
  | writeMem core v => exact completes_dapMem fun a => hwrite core v a rfl
  | pin side ns => exact completes_pin (hpin side ns rfl) s
  | _ => exact ⟨_, rfl, rfl⟩

end Sys2Proof.Machine

/-! # O33: the requests of the dictionary service

At an idle service a request is taken up at once, and the run of the service is one `dicStep`. What an answer and a forwarding change is
said once; neither leaves a cause, a happening or a request behind. -/

namespace Sys2Proof.Machine

/-! ## Counters and objects -/

theorem rd_inc_same (m : Mach) (o : Obj) : (m.inc o).rd o = min 0xFFFFFFFF (m.rd o + 1) := mapGet_mapSet_same ..

theorem rd_inc_ne {o p : Obj} (h : p.key ≠ o.key) (m : Mach) : (m.inc o).rd p = m.rd p := mapGet_mapSet_ne h ..

theorem find?_mapPut_same {α : Type} {k : Nat} {v : α} (l : List (Nat × α)) :
    (mapPut k v l).find? (fun e => e.1 == k) = some (k, v) := by
  induction l with
  | nil => simp [mapPut]
  | cons e l ih =>
    rw [mapPut]
    split
    · simp
    split
    · simp
    next hne _ => simpa [Ne.symm hne] using ih

/-! ## What an answer changes -/

/-- What sending an answer may change: what left the block, the queues of the network's ports, the assertions, and the slots and the
response words of the host's mailboxes. -/
def Sent (m m1 : Mach) : Prop :=
  ∃ out net asserts slots parOut, m1 = { m with
    out := out
    net := net
    asserts := asserts
    dic := { m.dic with slots := slots, parOut := parOut } }

theorem Sent.refl (m : Mach) : Sent m m := ⟨_, _, _, _, _, rfl⟩

theorem Sent.trans {a b c : Mach} (x : Sent a b) (y : Sent b c) : Sent a c := by
  obtain ⟨_, _, _, _, _, rfl⟩ := x
  obtain ⟨_, _, _, _, _, rfl⟩ := y
  exact ⟨_, _, _, _, _, rfl⟩

theorem sent_send (p : Port) (d : List Nat) (m : Mach) : Sent m (m.send p d) := ⟨_, _, _, _, _, rfl⟩

theorem sent_assertSrc (id : Nat) (m : Mach) : Sent m (m.assertSrc id) := ⟨_, _, _, _, _, rfl⟩

theorem sent_updNet (f : Net → Net) (m : Mach) : Sent m (updNet f m) := ⟨_, _, _, _, _, rfl⟩

theorem sent_txStamp (p : Nat) (f : TxFrame) (m : Mach) : Sent m (txStamp p f m) := by
  unfold txStamp
  dsimp only
  split
  · exact .refl m
  · exact sent_updNet ..

theorem sent_netPump (p : Nat) (m : Mach) : Sent m (netPump p m) := by
  unfold netPump
  dsimp only
  split
  · exact .refl m
  split
  · exact .refl m
  · exact (((sent_updNet ..).trans (sent_txStamp ..)).trans (sent_send ..)).trans (sent_assertSrc ..)

theorem sent_vlpOn (d : VlpDest) (pdu : List Byte) (p : Nat) (m : Mach) : Sent m (vlpOn d pdu p m) :=
  (sent_updNet ..).trans (sent_netPump ..)

theorem sent_vlpSend (d : VlpDest) (pdu : List Byte) (p : Nat) (m : Mach) : Sent m (vlpSend d pdu p m) := by
  unfold vlpSend
  split
  · exact ((sent_vlpOn ..).trans (sent_vlpOn ..)).trans (sent_updNet ..)
  · exact sent_vlpOn ..

theorem sent_slotReady (r : Route) (slot : Nat) (f : List Byte) (m : Mach) : Sent m (slotReady r slot f m) := by
  have hset : Sent m (setSlot r slot { busy := false, ready := true, rsp := f } m) := ⟨_, _, _, _, _, rfl⟩
  unfold slotReady
  dsimp only
  split
  · exact hset.trans (sent_assertSrc ..)
  · exact ⟨_, _, _, _, _, rfl⟩
  · split
    · exact hset.trans (sent_send ..)
    · exact hset
  · exact hset

/-- An answer to a requester that is not on a CAN bus, where it may call forth the next request. -/
theorem sent_dicDeliver {a : Ask} (h0 : a.q.route ≠ .can0) (h1 : a.q.route ≠ .can1) (f : List Byte) (m : Mach) :
    Sent m (dicDeliver a f m) := by
  refine (sent_send (.rsp a.q.route) (f.map (·.toNat)) m).trans ?_
  unfold dicDeliver
  dsimp only
  split
  · split
    · exact sent_vlpSend ..
    · exact .refl _
  next h => exact absurd h h0
  next h => exact absurd h h1
  · exact sent_slotReady ..
  · exact sent_slotReady ..
  · exact sent_slotReady ..
  · exact .refl _

/-- An abort is recorded in objects and with an open value, and asserts its source (R63). -/
@[simp] theorem abortRecord_fields (r : Route) (idx sub code : Nat) (m : Mach) :
    (abortRecord r idx sub code m).alarms = m.alarms ∧ (abortRecord r idx sub code m).notes = m.notes ∧
    (abortRecord r idx sub code m).dic = m.dic ∧ (abortRecord r idx sub code m).bar = m.bar := by
  unfold abortRecord
  split <;> simp [Mach.free]

theorem abortRecord_rd_last (r : Route) (idx sub code : Nat) (m : Mach) :
    (abortRecord r idx sub code m).rd R.DIC_LAST_ABORT = code := by
  unfold abortRecord
  dsimp only
  rw [assertSrc_rd, rd_wr_ne (by decide), rd_wr_same]

theorem abortRecord_rd_ne {o : Obj} (h : o.key ≠ R.DIC_ABORT_COUNT.key ∧ o.key ≠ R.DIC_LAST_ABORT.key ∧
    o.key ≠ R.DIC_LAST_ABORT_OBJ.key) (r : Route) (idx sub code : Nat) (m : Mach) : (abortRecord r idx sub code m).rd o = m.rd o := by
  obtain ⟨hc, hl, ho⟩ := h
  unfold abortRecord
  dsimp only
  rw [assertSrc_rd, rd_wr_ne ho, rd_wr_ne hl, rd_inc_ne hc]
  split <;> rfl

/-- Nothing is left to act in the tick of the command, and no request waits. -/
structure Calm (m : Mach) : Prop where
  alarms : m.alarms = []
  notes : m.notes = []
  waiting : m.dic.waiting = []

theorem Calm.sent {m m1 : Mach} (h : Calm m) (hs : Sent m m1) : Calm m1 := by
  obtain ⟨_, _, _, _, _, rfl⟩ := hs
  exact ⟨h.alarms, h.notes, h.waiting⟩

section
variable {a : Ask} {m : Mach} (h0 : a.q.route ≠ .can0) (h1 : a.q.route ≠ .can1)
include h0 h1

theorem Calm.dicAnswer (h : Calm m) (x : DicRes) : Calm (dicAnswer a x m) := by
  refine Calm.sent ?_ (sent_dicDeliver h0 h1 _ _)
  cases x with
  | ok _ => exact h
  | error e => exact ⟨by simpa using h.alarms, by simpa using h.notes, by simpa using h.waiting⟩

theorem dicAnswer_error_bar (e : Abort) : (dicAnswer a (.error e) m).bar = m.bar := by
  obtain ⟨_, _, _, _, _, hs⟩ := sent_dicDeliver h0 h1 (rspFrame a.op a.q (.error e))
    (abortRecord a.q.route a.q.index.toNat a.q.sub.toNat e.code m)
  simp [Machine.dicAnswer, hs]

theorem dicAnswer_error_rd (e : Abort) (o : Obj) :
    (dicAnswer a (.error e) m).rd o = (abortRecord a.q.route a.q.index.toNat a.q.sub.toNat e.code m).rd o := by
  obtain ⟨_, _, _, _, _, hs⟩ := sent_dicDeliver h0 h1 (rspFrame a.op a.q (.error e))
    (abortRecord a.q.route a.q.index.toNat a.q.sub.toNat e.code m)
  simp [Machine.dicAnswer, hs, Mach.rd]
end

/-! ## Messages to the other side -/

@[simp] theorem linked_updEnd_queue (m : Mach) (s : Side) (l : List (Nat × Msg)) :
    (m.updEnd s (fun e => { e with queue := l })).linked s = m.linked s := by
  cases s <;> rfl

theorem linkQueue_linked {s : Side} {m : Mach} (h : m.linked s = true) (typ : Nat) (p : List Byte) : linkQueue s typ p m =
    m.updEnd s (fun e => { e with queue := e.queue ++ [(msgClass typ, ⟨typ, p⟩)] }) := by
  rw [linkQueue, if_pos (.inl h)]

/-- A linked end takes messages of one type in their order behind those that wait (R422). -/
theorem each_linkQueue {s : Side} {typ : Nat} (l : List (List Byte)) {m : Mach} (h : m.linked s = true) :
    m.each l (fun p m => linkQueue s typ p m) =
      m.updEnd s (fun e => { e with queue := e.queue ++ l.map (fun p => (msgClass typ, ⟨typ, p⟩)) }) := by
  induction l generalizing m with
  | nil => cases s <;> simp [Mach.each, Mach.updEnd]
  | cons p l ih =>
    have hl : (linkQueue s typ p m).linked s = true := by
      rw [linkQueue_linked h]
      cases s <;> exact h
    change (linkQueue s typ p m).each l _ = _
    rw [ih hl, linkQueue_linked h]
    cases s <;> simp [Mach.updEnd]

/-! ## One turn of the service -/

@[simp] theorem sessTouch_fields (h : Nat) (m : Mach) :
    (sessTouch h m).alarms = m.alarms ∧ (sessTouch h m).notes = m.notes ∧ (sessTouch h m).dic = m.dic ∧
    (sessTouch h m).bar = m.bar ∧ (sessTouch h m).tb = m.tb := by
  unfold sessTouch
  split <;> simp [sessSet]

theorem Calm.sessTouch {m : Mach} (h : Calm m) (n : Nat) : Calm (sessTouch n m) :=
  ⟨by simpa using h.alarms, by simpa using h.notes, by simpa using h.waiting⟩

section
variable {a : Ask} {m : Mach}

theorem dicPump_idle (h : m.dic.waiting = []) (n : Nat) : dicPump n m = m := by
  cases n <;> simp [dicPump, h]

theorem dicRun_idle (h : m.dic.waiting = []) : dicRun m = m := dicPump_idle h _

/-- An idle service takes the request up, and nothing else. -/
theorem dicRequest_idle {m1 : Mach} (ho : m.hostOff = false) (hw : m.dic.waiting = []) (hs : dicStep a m = some m1)
    (h1 : m1.dic.waiting = []) : dicRequest a m = m1 := by
  have htake : ({ askPut a m with dic := { (askPut a m).dic with waiting := [] } } : Mach) = m := by
    simp only [askPut, ← hw]
  have hfuel : pumpFuel (askPut a m) = 9 + 1 := by simp [pumpFuel, askPut, hw]
  have hwait : (askPut a m).dic.waiting = [a] := by simp [askPut, hw]
  rw [dicRequest, ho, if_neg (by simp), dicRun, hfuel, dicPump]
  simp only [hwait, htake, hs]
  exact dicPump_idle h1 9

theorem dicStep_refused {e : Abort} (hb : dicBar a.op a.q m = some e) :
    dicStep a m = some (dicAnswer a (.error e) (dicRefused a.op a.q e m)) := by
  simp [dicStep, hb]

/-- A request for the field goes to its agent, and the first XID is free where none is in use (R424). -/
theorem dicStep_forwarded (hb : dicBar a.op a.q m = none) (hf : askField a = true) (hx : m.bar.fwds = []) (hd : m.bar.dead = []) :
    dicStep a m = some (forward a 0 (sessTouch a.q.session.toNat m)) := by
  have h0 : freeXid (sessTouch a.q.session.toNat m) = some 0 := by simp [freeXid, hx, hd]
  simp [dicStep, hb, hf, h0]

theorem dicStep_echo (hb : dicBar a.op a.q m = none) (ho : a.op = 9) (hx : m.bar.fwds = []) :
    dicStep a m = some (dicAnswer a (.ok (a.q.arg.toNat, a.q.data)) (sessTouch a.q.session.toNat m)) := by
  rw [dicStep, hb]
  simp [askField, ho, hx]

/-- A request for the host's own is executed and, unless it starts a persistence command, answered at once. -/
theorem dicStep_executed {r : DicRes} {m1 : Mach} (hb : dicBar a.op a.q m = none) (ho : a.op ≠ 9) (hf : askField a = false)
    (hx : m.bar.fwds = []) (hr : dicExec a.q.route a.op a.q (sessTouch a.q.session.toNat m) = (r, m1))
    (hs : startsStore a r = false) : dicStep a m = some (dicAnswer a r m1) := by
  simp [dicStep, hb, hf, hx, ho, hr, hs]
end

/-- A request that passes the checks for the field finds the host's end linked (R59). -/
theorem linked_of_dicBar {a : Ask} {m : Mach} (hb : dicBar a.op a.q m = none) (hf : askField a = true) : m.linked .host = true := by
  have hop : a.op ≠ 9 ∧ (a.op = 8 ∨ ownerOf a.q.index.toNat = .field) := by
    simp only [askField, Bool.or_eq_true, Bool.and_eq_true, beq_iff_eq, bne_iff_ne] at hf
    obtain h | ⟨h9, ho⟩ := hf
    · exact ⟨by omega, .inl h⟩
    · exact ⟨h9, .inr ho⟩
  by_contra hl
  have hfb : fieldBar m = some .notReady := by simp [fieldBar, hl]
  unfold dicBar at hb
  dsimp only at hb
  rw [if_neg hop.1] at hb
  repeat' split at hb
  all_goals simp_all

/-- What a forwarding leaves at a linked end: the request among those that are open, its fragments behind what waits (R424). -/
theorem forward_linked {a : Ask} {x : Nat} {m : Mach} (h : m.linked .host = true) :
    forward a x m = { m with bar := { m.bar with
      fwds := mapPut x { ask := a, at_ := m.tb.sclk } m.bar.fwds
      h := { m.bar.h with queue := m.bar.h.queue ++
        (fragments (xidByte a.q.route x) (boolNat (a.q.session != 0)) 6 0 (reqFrame a.op a.q)).map (fun p => (6, ⟨7, p⟩)) } } } := by
  refine (each_linkQueue (s := .host) (typ := 7) _ ?_).trans rfl
  exact h

/-! ## The commands that are requests -/

/-- The commands of a request, the opcode of each and the request as the service takes it (R58, R495). -/
def requestRows (q : Req) : List (Instr × Nat × Req) :=
  [(.read q, 1, q), (.write q, 2, q), (.domainOpenRead q, 3, q), (.domainOpenWrite q, 4, q), (.domainSegment q, 5, q),
    (.domainClose q, 6, q), (.domainCancel q, 7, q), (.echo q, 9, q), (.challenge q, 8, sessionReq 1 q), (.prove q, 8, sessionReq 2 q),
    (.sessionClose q, 8, sessionReq 3 q)]

theorem exec_of_requestRows {q : Req} {c : Instr} {op : Nat} {r : Req} (h : (c, op, r) ∈ requestRows q) (s : State) :
    exec c s = done (dicRequest ⟨op, r, none⟩) s ∧ r.route = q.route := by
  simp only [requestRows, List.mem_cons, Prod.mk.injEq, List.not_mem_nil, or_false] at h
  rcases h with ⟨rfl, rfl, rfl⟩ | ⟨rfl, rfl, rfl⟩ | ⟨rfl, rfl, rfl⟩ | ⟨rfl, rfl, rfl⟩ | ⟨rfl, rfl, rfl⟩ | ⟨rfl, rfl, rfl⟩ |
    ⟨rfl, rfl, rfl⟩ | ⟨rfl, rfl, rfl⟩ | ⟨rfl, rfl, rfl⟩ | ⟨rfl, rfl, rfl⟩ | ⟨rfl, rfl, rfl⟩ <;> exact ⟨rfl, rfl⟩

section
variable {s : State} {q : Req} {c : Instr} {op : Nat} {r : Req} (hc : (c, op, r) ∈ requestRows q) (hi : ServiceIdle s)
include hc hi

theorem to_request {m1 : Mach} (hs : dicStep ⟨op, r, none⟩ s.m = some m1) (h1 : Calm m1) : To c s m1 := by
  obtain ⟨ho, hw, -, -⟩ := hi
  rw [To, (exec_of_requestRows hc s).1]
  exact done_quiet (dicRequest_idle ho hw hs h1.waiting) h1.alarms h1.notes

theorem refused_of_request (hs : Settled s) {e : Abort} (h0 : q.route ≠ .can0) (h1 : q.route ≠ .can1)
    (hb : dicBar op r s.m = some e) : To c s (dicAnswer ⟨op, r, none⟩ (.error e) (dicRefused op r e s.m)) := by
  have hr := (exec_of_requestRows hc s).2
  refine to_request hc hi (dicStep_refused hb) (Calm.dicAnswer (hr ▸ h0) (hr ▸ h1) ?_ _)
  unfold dicRefused
  split <;> exact ⟨hs.1, hs.2, hi.2.1⟩

theorem forwarded_of_request (hs : Settled s) (hb : dicBar op r s.m = none) (hf : askField ⟨op, r, none⟩ = true) :
    ∃ t, exec c s = .next t ∧ Forwarded op r s t := by
  have ⟨_, hw, hx, hd⟩ := hi
  have hl : s.m.linked .host = true := linked_of_dicBar hb hf
  obtain ⟨halarms, hnotes, hdic, hbar, htb⟩ := sessTouch_fields r.session.toNat s.m
  have hstep := dicStep_forwarded (a := ⟨op, r, none⟩) hb hf hx hd
  rw [forward_linked (by simpa [Mach.linked, Mach.barState, Mach.barEnd] using hl)] at hstep
  refine ⟨_, to_request hc hi hstep ⟨by simpa using hs.1, by simpa using hs.2, by simpa using hw⟩, rfl, ?_, ?_, ?_⟩
  · simp [hx, mapPut]
  · simpa using hw
  · simp
end

/-! ## READ and WRITE of the host's own objects -/

/-- A row's instances stand at its base or above it. -/
theorem base_le_of_findObj {idx sub : Nat} {f : Found} (h : findObj idx sub = some f) : f.row.base ≤ idx := by
  obtain ⟨r, -, hr⟩ := List.exists_of_findSome?_eq_some h
  unfold Row.find at hr
  split at hr
  next hi _ =>
    obtain rfl := Option.some.inj hr
    by_contra hlt
    simp [Row.inst, Nat.lt_of_not_le hlt] at hi
  · cases hr

/-- The objects of the tables that the host owns have an index below 0x2000. -/
theorem index_lt_of_host {idx sub : Nat} {f : Found} (ho : ownerOf idx = .host) (h : findObj idx sub = some f) : idx < 0x2000 := by
  by_contra hge
  have hbig : 0x6000 ≤ idx := by
    by_contra hlt
    rw [ownerOf, if_neg (by omega), if_neg (by omega), if_neg (by omega), if_pos (by omega)] at ho
    cases ho
  have hnone : rowsOf idx = [] := by simp (disch := omega) only [rowsOf, if_neg]
  simp [findObj, hnone] at h

theorem octFirst_of_host {idx sub : Nat} {f : Found} (ho : ownerOf idx = .host) (h : findObj idx sub = some f) (m : Mach) :
    octFirst f m = m := by
  have hlt := index_lt_of_host ho h
  have hb := base_le_of_findObj h
  exact octFirst_of_no_octet (by omega) (by omega) (by omega) m

theorem findObj_of_named {m : Mach} {idx sub : Nat} {f : Found} (h : named m idx sub = some (.row f)) : findObj idx sub = some f := by
  unfold named at h
  split at h
  next g hg => obtain rfl := Named.row.inj (Option.some.inj h); exact hg
  next => simp [Option.map_eq_some_iff] at h

theorem named_of_findObj {m : Mach} {idx sub : Nat} {f : Found} (h : findObj idx sub = some f) : named m idx sub = some (.row f) := by
  simp [named, h]

/-- The words that start a persistence command are write-only (R72). -/
theorem startsStore_of_rw {a : Ask} {f : Found} (h : findObj a.q.index.toNat a.q.sub.toNat = some f) (hf : f.row.acc = .rw) (x : DicRes) :
    startsStore a x = false := by
  have hwo : ∀ sub ∈ [1, 2, 3], (findObj R.DIC_STORE.idx sub).all (fun f => f.row.acc != .rw) = true := by decide
  unfold startsStore
  by_contra hs
  simp only [Bool.not_eq_false, Bool.and_eq_true, beq_iff_eq, decide_eq_true_eq] at hs
  obtain ⟨⟨⟨⟨-, hidx⟩, hlo⟩, hhi⟩, -⟩ := hs
  have := hwo a.q.sub.toNat (by simp; omega)
  simp [← hidx, h, hf] at this

@[simp] theorem readObj_fields (f : Found) (m : Mach) :
    (readObj f m).2.alarms = m.alarms ∧ (readObj f m).2.notes = m.notes ∧ (readObj f m).2.dic = m.dic := by
  unfold readObj
  dsimp only
  split <;> simp [Mach.free]

theorem Calm.readObj {m : Mach} (h : Calm m) (f : Found) : Calm (readObj f m).2 :=
  ⟨by simpa using h.alarms, by simpa using h.notes, by simpa using h.waiting⟩

theorem Calm.wr {m : Mach} (h : Calm m) (o : Obj) (v : Nat) : Calm (m.wr o v) :=
  ⟨by simpa using h.alarms, by simpa using h.notes, by simpa using h.waiting⟩

@[simp] theorem rankNote_dic (w : Writer) (o : Obj) (m : Mach) : (rankNote w o m).dic = m.dic := by
  unfold rankNote
  split <;> rfl

theorem Calm.rankNote {m : Mach} (h : Calm m) (w : Writer) (o : Obj) : Calm (rankNote w o m) :=
  ⟨by simpa using h.alarms, by simpa using h.notes, by simpa using h.waiting⟩

theorem dicExec_read {r : Route} {q : Req} {m : Mach} {f : Found} (h : findObj q.index.toNat q.sub.toNat = some f) (ht : f.row.ty ≠ .str) :
    dicExec r 1 q m = (.ok (0, toLe f.row.ty.size (readObj f m).1), (readObj f m).2) := by
  simp [dicExec, named_of_findObj h, dicRead, Named.ty, ht]

/-- A WRITE that passes its checks is the plain write of its number (R55, R60). -/
theorem dicExec_write {r : Route} {q : Req} {m : Mach} {f : Found} (h : findObj q.index.toNat q.sub.toNat = some f)
    (hown : ownerOf q.index.toNat = .host) (ht : f.row.ty ≠ .str) (hb : f.row.ty ≠ .bool) (ha : f.row.acc = .rw) (hm : f.row.mach = false)
    (hlen : q.data.length = f.row.ty.size) (hk : chkOk m f (leNat q.data) = true) (ho : overruled m f.obj = false)
    (hr : outranked m (.dict r q.session) f.obj = false)
    (he : ∀ e ∈ effectsHost ++ effectsSide ++ effectsMotion ++ effectsOutput, e.1 ≠ f.row.id) :
    dicExec r 2 q m = (.ok (0, []), rankNote (.dict r q.session) f.obj (m.wr f.obj (leNat q.data))) := by
  have hro : f.row.acc ≠ .ro := by simp [ha]
  have hw := writeObj_lands hro hm (by simp [ha]) hk he ho hr
  have hplain : plainWrite f (leNat q.data) m = m.wr f.obj (leNat q.data) := by simp [plainWrite, ha]
  rw [octFirst_of_host hown h, hplain] at hw
  have hbar : writeBar (.dict r q.session) q.index.toNat .rw false false (stillFor m f (leNat q.data)) m = none :=
    writeBar_none (by simp) (by simp)
  have hd : dicWrite (.dict r q.session) (.row f) q.index.toNat q.sub.toNat q.data m =
      .ok (rankNote (.dict r q.session) f.obj (m.wr f.obj (leNat q.data))) := by
    simp [dicWrite, Named.acc, Named.mach, Named.ret, Named.ty, hm, hbar, ha, ht, hlen, hb, hw]
  simp [dicExec, named_of_findObj h, hd]

/-! ## Timeouts -/

theorem Calm.inc {m : Mach} (h : Calm m) (o : Obj) : Calm (m.inc o) :=
  ⟨by simpa using h.alarms, by simpa using h.notes, by simpa using h.waiting⟩

section
variable {x : Nat} {fw : Fwd} {m : Mach} (h0 : fw.ask.q.route ≠ .can0) (h1 : fw.ask.q.route ≠ .can1)
include h0 h1

theorem Calm.forwardLost (h : Calm m) : Calm (forwardLost x fw m) := by
  have hdel : Calm { m with bar := { m.bar with fwds := mapDel x m.bar.fwds } } := ⟨h.alarms, h.notes, h.waiting⟩
  exact hdel.dicAnswer h0 h1 (.error .unknown)

theorem forwardLost_bar : (forwardLost x fw m).bar = { m.bar with fwds := mapDel x m.bar.fwds } := dicAnswer_error_bar h0 h1 _

theorem forwardLost_rd_last : (forwardLost x fw m).rd R.DIC_LAST_ABORT = Abort.unknown.code :=
  (dicAnswer_error_rd h0 h1 _ _).trans (abortRecord_rd_last ..)

theorem forwardLost_rd_ne {o : Obj} (h : o.key ≠ R.DIC_ABORT_COUNT.key ∧ o.key ≠ R.DIC_LAST_ABORT.key ∧
    o.key ≠ R.DIC_LAST_ABORT_OBJ.key) : (forwardLost x fw m).rd o = m.rd o :=
  (dicAnswer_error_rd h0 h1 _ _).trans (abortRecord_rd_ne h ..)

/-- A forwarded request that is given up ends its forwarding, and its XID is kept from use (R62). -/
theorem forwardTimeoutEffect_found (hf : m.bar.fwds.find? (fun e => e.1 == x) = some (x, fw)) (hc : Calm m) :
    ∃ n, n = forwardLost x fw ((m.inc R.DIC_FWD_TIMEOUTS).assertSrc 417) ∧ Calm n ∧
      forwardTimeoutEffect x m = { n with bar := { n.bar with dead := n.bar.dead ++ [x] } } := by
  have hn := ((hc.inc R.DIC_FWD_TIMEOUTS).sent (sent_assertSrc 417 _)).forwardLost (x := x) h0 h1
  refine ⟨_, rfl, hn, ?_⟩
  simp only [forwardTimeoutEffect, hf]
  exact dicRun_idle hn.waiting
end

theorem getXfer_setXfer_same (m : Mach) (h : Nat) (x : Xfer) : getXfer (setXfer h x m) h = some x := by
  simp [getXfer, setXfer, find?_mapPut_same]

/-- A SESSION record asserts its source, takes an open value at most, and leaves the sessions (R495, R502). -/
theorem sessLog_fields (sub h : Nat) (r : Route) (fail : Bool) (m : Mach) :
    (sessLog sub h r fail m).alarms = m.alarms ∧ (sessLog sub h r fail m).notes = m.notes ∧
    (sessLog sub h r fail m).saf.sess = m.saf.sess := by
  have hno : (routeNo r m).2.alarms = m.alarms ∧ (routeNo r m).2.notes = m.notes ∧ (routeNo r m).2.saf = m.saf := by
    unfold routeNo
    split <;> simp [Mach.free]
  unfold sessLog safLog safRaise
  dsimp only
  split <;> simp [hno]

theorem sessEnd_open {h : Nat} {e : Sess} {m : Mach} (hf : sessFind m h = some e) (ho : e.isOpen = true) :
    sessEnd h m = sessLog 3 h e.route false (sessSet (m.saf.sess.filter (fun x => x.handle != h)) m) := by
  simp [sessEnd, hf, ho]

/-- Settles O33: at an idle service a request is one turn of it, which refuses, forwards, executes or echoes; the timeouts act on what is
remembered. -/
theorem dictionaryRequests : Obligations.DictionaryRequests := by
  unfold Obligations.DictionaryRequests
  rintro s q m hs hi rfl h0 h1
  have hcalm : Calm s.m := ⟨hs.1, hs.2, hi.2.1⟩
  have hfwd {c : Instr} {op : Nat} {r : Req} (hc : (c, op, r) ∈ requestRows q) (hf : askField ⟨op, r, none⟩ = true)
      (hb : dicBar op r s.m = none) := forwarded_of_request hc hi hs hb hf
  refine ⟨fun c op r hc a hb => refused_of_request hc hi hs h0 h1 hb, fun hf => ⟨?_, ?_, ?_, ?_, ?_, ?_, ?_⟩, ?_, ?_, ?_, ?_, ?_, ?_, ?_,
    ?_, ?_⟩
  · exact hfwd (by simp [requestRows]) (by simp [askField, hf])
  · exact hfwd (by simp [requestRows]) (by simp [askField, hf])
  · exact hfwd (by simp [requestRows]) (by simp [askField, hf])
  · exact hfwd (by simp [requestRows]) (by simp [askField, hf])
  · exact hfwd (by simp [requestRows]) (by simp [askField, hf])
  · exact hfwd (by simp [requestRows]) (by simp [askField, hf])
  · exact hfwd (by simp [requestRows]) (by simp [askField, hf])
  · exact hfwd (by simp [requestRows]) rfl
  · exact hfwd (by simp [requestRows]) rfl
  · exact hfwd (by simp [requestRows]) rfl
  · intro f hb ho hn ht
    have hx := dicExec_read (r := q.route) (m := sessTouch q.session.toNat s.m) (findObj_of_named hn) ht
    have hst := dicStep_executed (a := ⟨1, q, none⟩) hb (by simp) (by simp [askField, ho]) hi.2.2.1 hx (by simp [startsStore])
    exact to_request (q := q) (op := 1) (r := q) (by simp [requestRows]) hi hst (((hcalm.sessTouch _).readObj f).dicAnswer h0 h1 _)
  · intro f hb ho hn ht hbool ha hm _ _ hlen hk hov hrk he
    have hfind := findObj_of_named hn
    have hx := dicExec_write (r := q.route) hfind ho ht hbool ha hm hlen hk hov hrk he
    have hst := dicStep_executed (a := ⟨2, q, none⟩) hb (by simp) (by simp [askField, ho]) hi.2.2.1 hx (startsStore_of_rw hfind ha _)
    exact to_request (q := q) (op := 2) (r := q) (by simp [requestRows]) hi hst
      ((((hcalm.sessTouch _).wr f.obj _).rankNote _ f.obj).dicAnswer h0 h1 _)
  · intro hb
    have hst := dicStep_echo (a := ⟨9, q, none⟩) hb rfl hi.2.2.1
    exact to_request (q := q) (op := 9) (r := q) (by simp [requestRows]) hi hst ((hcalm.sessTouch _).dicAnswer h0 h1 _)
  · rintro t x fw ⟨hal, hno⟩ hw hf h0 h1
    obtain ⟨n, rfl, hn, heff⟩ := forwardTimeoutEffect_found h0 h1 hf ⟨hal, hno, hw⟩
    refine ⟨_, done_quiet heff hn.alarms hn.notes, rfl, ?_, ?_, forwardLost_rd_last h0 h1, ?_⟩
    · simp [forwardLost_bar h0 h1]
    · simp [forwardLost_bar h0 h1]
    · exact (forwardLost_rd_ne h0 h1 (by decide)).trans (rd_inc_same ..)
  · intro h x hx hcl
    have heff : xferClose (h.val + 1) s.m = (setXfer (h.val + 1) { x with closed := true, data := [] } s.m).assertSrc 419 := by
      simp [xferClose, hx, hcl]
    exact ⟨_, done_quiet heff hs.1 hs.2, rfl, getXfer_setXfer_same ..⟩
  · intro h e hfind hopen
    obtain ⟨hal, hno, hsess⟩ := sessLog_fields 3 h.toNat e.route false (sessSet (s.m.saf.sess.filter (fun x => x.handle != h.toNat)) s.m)
    exact ⟨_, done_quiet (sessEnd_open hfind hopen) (hal.trans hs.1) (hno.trans hs.2), rfl, hsess⟩

end Sys2Proof.Machine

/-! # O39: store, reload and factory

The three commands are one shape: checks, then a status word and a message. Both sides act on what the other tells. The reading of a
bit after the write of a bit, and what each operation leaves, are said once. -/

namespace Sys2Proof.Machine

/-! ## Bits of a status word -/

theorem bit_eq_testBit (i v : Nat) : bit i v = v.testBit i := by
  rw [Nat.testBit_eq_decide_div_mod_eq]
  rfl

/-- The write of a bit leaves what is above and what is below it. -/
theorem putBit_eq (i : Nat) (b : Bool) (v : Nat) : putBit i b v = 2 ^ i * (2 * (v / 2 ^ i / 2) + boolNat b) + v % 2 ^ i := by
  have hv := Nat.div_add_mod v (2 ^ i)
  have hq : 2 ^ i * (v / 2 ^ i) = 2 ^ i * (2 * (v / 2 ^ i / 2)) + 2 ^ i * (v / 2 ^ i % 2) := by
    rw [← Nat.mul_add, Nat.div_add_mod]
  rw [Nat.mul_add]
  cases b
  all_goals
    simp only [putBit, setBit, clrBit, bit, boolNat, beq_iff_eq, if_true, Bool.false_eq_true, if_false]
    split
  next h => rw [h] at hq; omega
  next h => rw [Nat.mod_two_ne_one.mp h] at hq; omega
  next h => rw [h] at hq; omega
  next h => rw [Nat.mod_two_ne_one.mp h] at hq; omega

theorem putBit_div (i : Nat) (b : Bool) (v : Nat) : putBit i b v / 2 ^ i = 2 * (v / 2 ^ i / 2) + boolNat b := by
  rw [putBit_eq, Nat.mul_add_div (Nat.two_pow_pos i), Nat.div_eq_of_lt (Nat.mod_lt v (Nat.two_pow_pos i)), Nat.add_zero]

theorem putBit_mod (i : Nat) (b : Bool) (v : Nat) : putBit i b v % 2 ^ i = v % 2 ^ i := by
  rw [putBit_eq, Nat.mul_add_mod, Nat.mod_mod]

@[simp] theorem bit_putBit_same (i : Nat) (b : Bool) (v : Nat) : bit i (putBit i b v) = b := by
  rw [bit, putBit_div]
  cases b <;> simp [boolNat]

theorem bit_putBit_ne {i j : Nat} (h : j ≠ i) (b : Bool) (v : Nat) : bit j (putBit i b v) = bit j v := by
  simp only [bit_eq_testBit]
  obtain hlt | hgt := Nat.lt_or_gt_of_ne h
  · have hlow (x : Nat) : x.testBit j = (x % 2 ^ i).testBit j := by simp [Nat.testBit_mod_two_pow, hlt]
    rw [hlow, putBit_mod, ← hlow]
  · obtain ⟨k, rfl⟩ : ∃ k, j = i + (k + 1) := ⟨j - i - 1, by omega⟩
    have hhigh (x : Nat) : x.testBit (i + (k + 1)) = (x / 2 ^ i / 2).testBit k := by
      rw [← Nat.testBit_succ, Nat.testBit_div_two_pow, Nat.add_comm]
    rw [hhigh, hhigh, putBit_div]
    congr 1
    cases b
    · simp [boolNat]
    · simp [boolNat]; omega

@[simp] theorem rd_putBit_same (o : Obj) (i : Nat) (b : Bool) (m : Mach) : (m.putBit o i b).rd o = putBit i b (m.rd o) := rd_wr_same ..

theorem rd_putBit_ne {o p : Obj} (h : p.key ≠ o.key) (i : Nat) (b : Bool) (m : Mach) : (m.putBit o i b).rd p = m.rd p := rd_wr_ne h ..

/-! ## What the operations leave -/

theorem each_keeps {α β : Type} {f : α → Mach → Mach} {g : Mach → β} (h : ∀ a m, g (f a m) = g m) (l : List α) (m : Mach) :
    g (m.each l f) = g m := by
  unfold Mach.each
  induction l generalizing m with
  | nil => rfl
  | cons a l ih => rw [List.foldl_cons, ih, h]

/-- A message changes its end of the barrier alone. -/
@[simp] theorem linkQueue_fields (s : Side) (typ : Nat) (p : List Byte) (m : Mach) :
    (linkQueue s typ p m).regs = m.regs ∧ (linkQueue s typ p m).dic = m.dic ∧ (linkQueue s typ p m).alarms = m.alarms ∧
    (linkQueue s typ p m).notes = m.notes := by
  unfold linkQueue
  split
  · cases s <;> simp
  · simp

@[simp] theorem notice_fields (s : Side) (l : List Byte) (m : Mach) :
    (notice s l m).regs = m.regs ∧ (notice s l m).dic = m.dic ∧ (notice s l m).alarms = m.alarms ∧ (notice s l m).notes = m.notes :=
  linkQueue_fields ..

@[simp] theorem queueBlock_fields (s : Side) (typ : Nat) (l : List Byte) (m : Mach) :
    (queueBlock s typ l m).regs = m.regs ∧ (queueBlock s typ l m).alarms = m.alarms ∧ (queueBlock s typ l m).notes = m.notes :=
  ⟨each_keeps (g := Mach.regs) (by simp) _ m, each_keeps (g := Mach.alarms) (by simp) _ m, each_keeps (g := Mach.notes) (by simp) _ m⟩

@[simp] theorem sendRestore_fields (m : Mach) :
    (sendRestore m).regs = m.regs ∧ (sendRestore m).alarms = m.alarms ∧ (sendRestore m).notes = m.notes := by
  unfold sendRestore
  split <;> simp

@[simp] theorem storeAsked_fields (w : Writer) (m : Mach) :
    (storeAsked w m).regs = m.regs ∧ (storeAsked w m).bar = m.bar ∧ (storeAsked w m).alarms = m.alarms ∧
    (storeAsked w m).notes = m.notes ∧ (storeAsked w m).dic.bankA = m.dic.bankA ∧ (storeAsked w m).dic.bankB = m.dic.bankB ∧
    (storeAsked w m).dic.storing = m.dic.storing ∧ (storeAsked w m).dic.storeAt = m.dic.storeAt := by
  cases w <;> simp [storeAsked, storeWaits]

@[simp] theorem rankNote_fields (w : Writer) (o : Obj) (m : Mach) :
    (rankNote w o m).regs = m.regs ∧ (rankNote w o m).bar = m.bar := by
  unfold rankNote
  split <;> simp

/-- An accepted message leaves its end's numbers changed alone (R420). -/
theorem linkAccept_fields {s : Side} {f : LinkFrame} {m m1 : Mach} {g : Msg} (h : linkAccept s f m = (some g, m1)) :
    m1.alarms = m.alarms ∧ m1.notes = m.notes := by
  unfold linkAccept at h
  dsimp only at h
  split_ifs at h <;> cases h <;> simp

/-! ## The form of the three commands -/

/-- One of STORE, RELOAD and FACTORY: the write of its signature, whose writer is told later (R61, R72). -/
abbrev AsksStore (c : Instr) (w : Writer) (o : Obj) (eff : Mach → Eff) : Prop :=
  ∀ s, exec c s = done (commandThen (storeAsked w) w o false eff) s

section
variable {c : Instr} {w : Writer} {o : Obj} {eff : Mach → Eff} {s : State} (hc : AsksStore c w o eff)
include hc

theorem turns_of_error {a : Abort} (he : eff s.m = .error a) : Turns c s w o false a := by
  rintro ⟨hl, hg, -, -⟩
  rw [To, hc, done]
  simp [commandThen, hl, hg, he]

theorem leads_of_ok {m1 : Mach} {P : Mach → Prop} (he : eff s.m = .ok m1) (ha : m1.alarms = []) (hn : m1.notes = [])
    (hP : P (storeAsked w (rankNote w o m1))) : Leads c s w o false P := by
  rintro ⟨hl, hg, ho, hr⟩
  have hcmd : commandThen (storeAsked w) w o false eff s.m = storeAsked w (rankNote w o m1) := by
    simp [commandThen, landed, hl, hg, ho, hr, he]
  exact ⟨_, (hc s).trans (done_quiet hcmd (by simpa using ha) (by simpa using hn)), rfl, hP⟩
end

/-! ## STORE (R70, R71) -/

theorem persBegin_fields (m : Mach) :
    (persBegin m).bar = m.bar ∧ (persBegin m).alarms = m.alarms ∧ (persBegin m).notes = m.notes ∧
    (persBegin m).dic = { m.dic with storeAt := m.tb.sclk } ∧ bit 0 ((persBegin m).rd R.DIC_PERS_STATUS) = true := by
  simp [persBegin]

theorem storeStart_linked {m : Mach} (h : m.linked .host = true) {l : List Byte}
    (hl : l = packBlock (toLe 4 (m.rd R.DIC_STORE_COUNT)) (kVals m .host) (kStrs m .host)) :
    storeStart m = (persBegin m).updEnd .host (fun e => { e with
      queue := e.queue ++ (blockPieces (l.length / 52 + 1) 0 l).map (fun p => (7, ⟨15, p⟩)) }) := by
  subst hl
  exact each_linkQueue (s := .host) (typ := 15) _ (m := persBegin m) h

theorem notice_host_linked {m : Mach} (h : m.linked .host = true) (l : List Byte) :
    notice .host l m = m.updEnd .host (fun e => { e with queue := e.queue ++ [(7, ⟨15, toLe 4 noticeOff ++ l⟩)] }) :=
  linkQueue_linked (s := .host) h 15 _

theorem notice_field_linked {m : Mach} (h : m.linked .field = true) (l : List Byte) :
    notice .field l m = m.updEnd .field (fun e => { e with queue := e.queue ++ [(7, ⟨14, toLe 4 noticeOff ++ l⟩)] }) :=
  linkQueue_linked (s := .field) h 14 _

/-! ## The image (R69, R70) -/

/-- The bank that does not hold the newest image takes one, which is the newest then. -/
theorem bankWrite_fields (i : Image) (m : Mach) :
    (bankWrite i m).bar = m.bar ∧ (bankWrite i m).alarms = m.alarms ∧ (bankWrite i m).notes = m.notes ∧
    (bankWrite i m).dic.storing = m.dic.storing ∧ (bankWrite i m).dic.newestB = (!m.dic.newestB && m.dic.bankA.isSome) ∧
    ∃ n, (bankWrite i m).image = some { i with bytes := n } ∧
      ((bankWrite i m).dic.newestB = true →
        (bankWrite i m).dic.bankA = m.dic.bankA ∧ (bankWrite i m).dic.bankB = some { i with bytes := n }) ∧
      ((bankWrite i m).dic.newestB = false →
        (bankWrite i m).dic.bankB = m.dic.bankB ∧ (bankWrite i m).dic.bankA = some { i with bytes := n }) := by
  cases h : !m.dic.newestB && m.dic.bankA.isSome <;> simp [bankWrite, h, Mach.image, Mach.free]

/-- The field with the store under way and the host's block taken out. -/
def storeTaken (m : Mach) : Mach :=
  { m with dic := { m.dic with storing := none }, bar := { m.bar with persIn := [] } }

/-- The field with the image of a whole store as its newest. -/
def storeImaged (i : Image) (m : Mach) : Mach := bankWrite (storeImage m.image i m.bar.persIn) (storeTaken m)

theorem storeWritten_linked {i : Image} {m : Mach} (hl : m.linked .field = true) : storeWritten i m =
    (storeImaged i m).updEnd .field (fun e => { e with
      queue := e.queue ++ [(7, ⟨14, toLe 4 noticeOff ++ noticeDone (storeImaged i m)⟩)] }) := by
  have hbar : (storeImaged i m).bar = (storeTaken m).bar := (bankWrite_fields _ (storeTaken m)).1
  refine notice_field_linked (m := storeImaged i m) ?_ _
  rw [Mach.linked, Mach.barState, Mach.barEnd, hbar]
  exact hl

@[simp] theorem noticeDone_updEnd (s : Side) (f : BarEnd → BarEnd) (m : Mach) : noticeDone (m.updEnd s f) = noticeDone m := by
  cases s <;> rfl

/-- Settled field: a whole block makes an image (R70, R79). -/
theorem storeComplete_whole {s : State} {i : Image} (hs : Settled s) (hi : s.m.dic.storing = some i)
    (hb : blockWhole s.m.bar.persIn = true) (hl : s.m.linked .field = true) :
    To .storeComplete s ((storeImaged i s.m).updEnd .field (fun e => { e with
      queue := e.queue ++ [(7, ⟨14, toLe 4 noticeOff ++ noticeDone (storeImaged i s.m)⟩)] })) := by
  obtain ⟨-, hal, hno, -⟩ := bankWrite_fields (storeImage s.m.image i s.m.bar.persIn) (storeTaken s.m)
  have heff : storeCompleteEffect s.m = storeWritten i s.m := by simp [storeCompleteEffect, hi, hb]
  exact done_quiet (heff.trans (storeWritten_linked hl)) (hal.trans hs.1) (hno.trans hs.2)

/-! ## The answer to a command that was asked for later (R61) -/

theorem storeAnswer_fields {m : Mach} (h : ∀ a, m.dic.storeFor ≠ .ask a) (x : DicRes) :
    (storeAnswer x m).bar = m.bar ∧ (storeAnswer x m).alarms = m.alarms ∧ (storeAnswer x m).notes = m.notes := by
  unfold storeAnswer
  dsimp only
  split
  · simp
  · split <;> simp
  next a ha => exact absurd ha (h a)

theorem storeAnswer_rd {m : Mach} (h : ∀ a, m.dic.storeFor ≠ .ask a) {o : Obj} (ho : o.key ≠ R.DIC_ABORT_COUNT.key ∧
    o.key ≠ R.DIC_LAST_ABORT.key ∧ o.key ≠ R.DIC_LAST_ABORT_OBJ.key) (x : DicRes) : (storeAnswer x m).rd o = m.rd o := by
  cases hf : m.dic.storeFor with
  | nobody => simp only [storeAnswer, hf, Mach.rd]
  | route r =>
    cases x with
    | ok _ => simp only [storeAnswer, hf, Mach.rd, Mach.send]
    | error e =>
      have hrec := abortRecord_rd_ne ho r R.DIC_STORE.idx R.DIC_STORE.sub e.code { m with dic := { m.dic with storeFor := .nobody } }
      simpa only [storeAnswer, hf, Mach.rd, Mach.send] using hrec
  | ask a => exact absurd hf (h a)

/-- A STORE that fails sets FAILED and clears BUSY (R70, R73). -/
theorem storeFail_status {m : Mach} (hr : storeRuns m = true) (h : ∀ a, m.dic.storeFor ≠ .ask a) :
    bit 0 ((storeFail m).rd R.DIC_PERS_STATUS) = false ∧ bit 1 ((storeFail m).rd R.DIC_PERS_STATUS) = true := by
  rw [storeFail, if_pos hr, storeAnswer_rd (by simpa using h) (by decide)]
  simp [bit_putBit_ne]

theorem reloadRefused_fields {m : Mach} (h : ∀ a, m.dic.storeFor ≠ .ask a) :
    (reloadRefused m).alarms = m.alarms ∧ (reloadRefused m).notes = m.notes ∧ (reloadRefused m).bar.reload = false ∧
    bit 0 ((reloadRefused m).rd R.DIC_PERS_STATUS) = false := by
  unfold reloadRefused
  rw [storeAnswer_rd (by simpa using h) (by decide)]
  simp [storeAnswer_fields, h]

@[simp] theorem imageShow_fields (p : List Byte) (m : Mach) :
    (imageShow p m).bar = m.bar ∧ (imageShow p m).dic = m.dic ∧ (imageShow p m).alarms = m.alarms ∧ (imageShow p m).notes = m.notes := by
  simp [imageShow]

theorem imageShow_rd (p : List Byte) (m : Mach) :
    (imageShow p m).rd R.DIC_PERS_STATUS = putBit 3 (bit 0 (fieldAt 5 1 p)) (m.rd R.DIC_PERS_STATUS) ∧
    (imageShow p m).rd R.DIC_STORED_BYTES = fieldAt 10 4 p := by
  rw [imageShow, rd_wr_ne (by decide)]
  simp

theorem factoryEnded_fields {p : List Byte} {m : Mach} (h : ∀ a, m.dic.storeFor ≠ .ask a) :
    (factoryEnded p m).alarms = m.alarms ∧ (factoryEnded p m).notes = m.notes ∧ (factoryEnded p m).bar.factory = false ∧
    bit 0 ((factoryEnded p m).rd R.DIC_PERS_STATUS) = false ∧ bit 2 ((factoryEnded p m).rd R.DIC_PERS_STATUS) = true := by
  unfold factoryEnded
  dsimp only
  rw [storeAnswer_rd (by simpa using h) (by decide)]
  simp [storeAnswer_fields, h, bit_putBit_ne]

/-- The host after a STORE, before its answer leaves: BUSY, FAILED and FACTORY_PENDING clear, and what the image's header holds is
shown (R73, R79). -/
def storeShown (p : List Byte) (m : Mach) : Mach :=
  ((((((imageShow p m).putBit R.DIC_PERS_STATUS 0 false).putBit R.DIC_PERS_STATUS 1 false).putBit R.DIC_PERS_STATUS 2 false).wr
    R.DIC_STORE_COUNT (fieldAt 6 4 p)).assertSrc 418)

theorem storeShown_status (p : List Byte) (m : Mach) :
    (∀ i < 3, bit i ((storeShown p m).rd R.DIC_PERS_STATUS) = false) ∧
    bit 3 ((storeShown p m).rd R.DIC_PERS_STATUS) = bit 0 (fieldAt 5 1 p) := by
  have hst : (storeShown p m).rd R.DIC_PERS_STATUS = putBit 2 false (putBit 1 false (putBit 0 false
      (putBit 3 (bit 0 (fieldAt 5 1 p)) (m.rd R.DIC_PERS_STATUS)))) := by
    rw [storeShown, assertSrc_rd, rd_wr_ne (by decide)]
    simp [imageShow_rd]
  rw [hst]
  refine ⟨fun i hi => ?_, by simp [bit_putBit_ne]⟩
  interval_cases i <;> simp [bit_putBit_ne]

theorem storeShown_header (p : List Byte) (m : Mach) : (storeShown p m).rd R.DIC_STORE_COUNT = fieldAt 6 4 p ∧
    (storeShown p m).rd R.DIC_STORED_BYTES = fieldAt 10 4 p := by
  refine ⟨rd_wr_same .., ?_⟩
  rw [storeShown, assertSrc_rd, rd_wr_ne (by decide), rd_putBit_ne (by decide), rd_putBit_ne (by decide), rd_putBit_ne (by decide)]
  exact (imageShow_rd p m).2

theorem storeEnded_fields {p : List Byte} {m : Mach} (h : ∀ a, m.dic.storeFor ≠ .ask a) :
    (storeEnded p m).alarms = m.alarms ∧ (storeEnded p m).notes = m.notes ∧
    ∀ o ∈ [R.DIC_PERS_STATUS, R.DIC_STORE_COUNT, R.DIC_STORED_BYTES], (storeEnded p m).rd o = (storeShown p m).rd o := by
  have hs : ∀ a, (storeShown p m).dic.storeFor ≠ .ask a := by simpa [storeShown] using h
  have heq : storeEnded p m = storeAnswer (.ok (0, [])) (storeShown p m) := rfl
  obtain ⟨-, ha, hn⟩ := storeAnswer_fields hs (.ok (0, []))
  refine heq ▸ ⟨by simpa [storeShown] using ha, by simpa [storeShown] using hn, ?_⟩
  simp only [List.forall_mem_cons, List.not_mem_nil, false_implies, implies_true, and_true]
  exact ⟨storeAnswer_rd hs (by decide) _, storeAnswer_rd hs (by decide) _, storeAnswer_rd hs (by decide) _⟩

/-! ## RELOAD at the field (R73) -/

theorem mapGet_filter_out {α : Type} {d : α} {k : Nat} {p : Nat → Bool} (hp : p k = false) (l : List (Nat × α)) :
    mapGet d k (l.filter (fun e => p e.1)) = d := by
  induction l with
  | nil => rfl
  | cons e l ih =>
    rw [List.filter_cons]
    split
    next h =>
      have hne : k ≠ e.1 := by rintro rfl; simp [hp] at h
      simp [mapGet, hne, ih]
    · exact ih

@[simp] theorem restoreStrs_fields (l : List (Nat × List Byte)) (m : Mach) :
    (restoreStrs l m).regs = m.regs ∧ (restoreStrs l m).alarms = m.alarms ∧ (restoreStrs l m).notes = m.notes :=
  ⟨each_keeps (g := Mach.regs) (by simp) l m, each_keeps (g := Mach.alarms) (by simp) l m, each_keeps (g := Mach.notes) (by simp) l m⟩

@[simp] theorem restoreVals_fields (l : List (Nat × Nat)) (m : Mach) :
    (restoreVals l m).alarms = m.alarms ∧ (restoreVals l m).notes = m.notes :=
  ⟨each_keeps (g := Mach.alarms) (by simp) l m, each_keeps (g := Mach.notes) (by simp) l m⟩

theorem restoreVals_cons (e : Nat × Nat) (l : List (Nat × Nat)) (m : Mach) :
    restoreVals (e :: l) m = restoreVals l { m with regs := mapSet (objDflt m e.1) e.1 e.2 m.regs } := rfl

theorem mapGet_restoreVals_absent {k : Nat} {l : List (Nat × Nat)} (h : ∀ e ∈ l, e.1 ≠ k) (d : Nat) (m : Mach) :
    mapGet d k (restoreVals l m).regs = mapGet d k m.regs := by
  induction l generalizing m with
  | nil => rfl
  | cons e l ih =>
    rw [List.forall_mem_cons] at h
    rw [restoreVals_cons, ih h.2]
    exact mapGet_mapSet_ne (Ne.symm h.1) ..

/-- A value that is stored once for its key is what the key holds after the restore. -/
theorem mapGet_restoreVals {k v d : Nat} {l : List (Nat × Nat)} {m : Mach} (hd : objDflt m k = d) (hmem : (k, v) ∈ l)
    (huniq : ∀ e ∈ l, e.1 = k → e.2 = v) : mapGet d k (restoreVals l m).regs = v := by
  induction l generalizing m with
  | nil => cases hmem
  | cons e l ih =>
    rw [List.forall_mem_cons] at huniq
    by_cases hl : (k, v) ∈ l
    · exact ih (m := { m with regs := mapSet (objDflt m e.1) e.1 e.2 m.regs }) hd hl huniq.2
    · obtain rfl := (List.mem_cons.mp hmem).resolve_right hl
      have habs : ∀ e ∈ l, e.1 ≠ k := by
        rintro ⟨a, b⟩ he rfl
        exact hl (huniq.2 _ he rfl ▸ he)
      rw [restoreVals_cons, mapGet_restoreVals_absent habs, ← hd]
      exact mapGet_mapSet_same ..

@[simp] theorem reloadServo_fields (old : Nat) (m : Mach) :
    (reloadServo old m).alarms = m.alarms ∧ (reloadServo old m).notes = m.notes := by
  unfold reloadServo servoUnlock servoBit ltNotify
  dsimp only
  split_ifs <;> simp

/-- A change of the servo's mode touches its status word alone among the objects (R91, R92). -/
theorem reloadServo_get {k : Nat} (hk : k ≠ R.LT_SERVO_STATUS.key) (d old : Nat) (m : Mach) :
    mapGet d k (reloadServo old m).regs = mapGet d k m.regs := by
  unfold reloadServo servoUnlock servoBit ltNotify
  dsimp only
  split_ifs
  · rfl
  · rfl
  · rfl
  · exact mapGet_mapSet_ne hk ..

/-- A status word is no stored value. -/
theorem ne_servoStatus_of_persisted {m : Mach} {k : Nat} (h : persisted m k = true) : k ≠ R.LT_SERVO_STATUS.key := by
  rintro rfl
  have hf : (findObj (R.LT_SERVO_STATUS.key / 256) (R.LT_SERVO_STATUS.key % 256)).all (fun f => f.row.acc == .ro) = true ∧
      (findObj (R.LT_SERVO_STATUS.key / 256) (R.LT_SERVO_STATUS.key % 256)).isSome = true := by decide
  unfold persisted at h
  obtain ⟨hro, hsome⟩ := hf
  obtain ⟨f, hf⟩ := Option.isSome_iff_exists.mp hsome
  simp_all

section
variable {m : Mach} (hr : kUnitRuns m .field = false)
include hr

theorem reloadField_fields : (reloadField m).alarms = m.alarms ∧ (reloadField m).notes = m.notes := by
  unfold reloadField
  rw [hr]
  simp only [Bool.false_eq_true, if_false]
  split <;> simp

theorem reloadField_default {k : Nat} (hi : m.image = none) (hp : persisted m k = true) (ho : ownerOf (k / 256) = .field) (d : Nat) :
    mapGet d k (reloadField m).regs = d := by
  have hmine : (!(keyOn .field k && persisted m k)) = false := by simp [keyOn, hp, ho]
  simp only [reloadField, hr, hi, Bool.false_eq_true, if_false, sendRestore_fields]
  rw [reloadServo_get (ne_servoStatus_of_persisted hp)]
  exact mapGet_filter_out (p := fun k => !(keyOn .field k && persisted m k)) hmine m.regs

theorem reloadField_stored {i : Image} {k v : Nat} (hi : m.image = some i) (hv : (k, v) ∈ i.vals) (hp : persisted m k = true)
    (ho : ownerOf (k / 256) = .field) (hu : ∀ e ∈ i.vals, e.1 = k → e.2 = v) :
    mapGet (objDflt m k) k (reloadField m).regs = v := by
  have hmem : (k, v) ∈ i.vals.filter (fun e => keyOn .field e.1 && persisted m e.1) := by simp [List.mem_filter, hv, keyOn, hp, ho]
  simp only [reloadField, hr, hi, Bool.false_eq_true, if_false, sendRestore_fields]
  rw [reloadServo_get (ne_servoStatus_of_persisted hp), (restoreStrs_fields _ _).1]
  exact mapGet_restoreVals rfl hmem (fun e he => hu e (List.mem_filter.mp he).1)
end

/-! ## FACTORY at the field (R73) -/

theorem factoryField_all {auth : Bool} {m : Mach} (h : auth = true ∨ m.image = none) :
    (factoryField auth m).alarms = m.alarms ∧ (factoryField auth m).notes = m.notes ∧
    (factoryField auth m).dic.bankA = none ∧ (factoryField auth m).dic.bankB = none := by
  unfold factoryField
  cases hi : m.image with
  | none => simp
  | some i => simp [h.resolve_right (by simp [hi])]

/-- Without authority the stored safety values stay, in an image of their own. -/
theorem factoryField_safety {i : Image} {m : Mach} (hi : m.image = some i) :
    (factoryField false m).alarms = m.alarms ∧ (factoryField false m).notes = m.notes ∧ (factoryField false m).dic.bankB = none ∧
    ∃ x, (factoryField false m).dic.bankA = some x ∧ x.key = i.key ∧
      x.vals = i.vals.filter (fun e => decide (0x190000 ≤ e.1) && decide (e.1 ≤ 0x19FFFF)) := by
  simp [factoryField, hi, bankWrite, Mach.free]

/-! ## The messages of persistence -/

theorem to_message {c : Instr} {s : State} {side : Side} {typ : Nat} {f : LinkFrame} {act : List Byte → Mach → Mach} {p : List Byte}
    {m : Mach} (hc : exec c s = done (linkMessage side typ f act) s) (ha : Arrives side typ p f s m) (hal : (act p m).alarms = [])
    (hno : (act p m).notes = []) : To c s (act p m) := by
  obtain ⟨hacc, hent⟩ := ha
  refine hc.trans (done_quiet ?_ hal hno)
  simp [linkMessage, hacc, hent]

theorem settled_of_arrives {s : State} {side : Side} {typ : Nat} {f : LinkFrame} {p : List Byte} {m : Mach} (hs : Settled s)
    (ha : Arrives side typ p f s m) : m.alarms = [] ∧ m.notes = [] := by
  obtain ⟨hal, hno⟩ := linkAccept_fields ha.1
  exact ⟨hal.trans hs.1, hno.trans hs.2⟩

theorem Goes.of_to {c : Instr} {s : State} {m : Mach} {P : Mach → Prop} (h : To c s m) (hP : P m) : Goes c s P := ⟨_, h, rfl, hP⟩

section
variable {s : State} {f : LinkFrame} {p : List Byte} {m : Mach} (hs : Settled s)
include hs

/-- What the field tells of a command acts at the host (log 52). -/
theorem to_persRestore_notice (ha : Arrives .host 14 p f s m) (hoff : fieldAt 0 4 p = noticeOff) {n : Mach}
    (hn : noticeContent p m = n) (hkeep : n.alarms = m.alarms ∧ n.notes = m.notes) : To (.persRestore f) s n := by
  obtain ⟨hal, hno⟩ := settled_of_arrives hs ha
  have heq : persRestoreContent p m = n := by simp [persRestoreContent, hoff, hn]
  have hto := to_message (c := .persRestore f) (act := persRestoreContent) rfl ha (by rw [heq, hkeep.1, hal]) (by rw [heq, hkeep.2, hno])
  rwa [heq] at hto

/-- What the host tells of a command acts at the field, outside a Keep debug halt. -/
theorem to_persStore_notice (ha : Arrives .field 15 p f s m) (hh : m.keepHalted = false) (hoff : fieldAt 0 4 p = noticeOff) {n : Mach}
    (hn : (if fieldAt 4 1 p = 1 then reloadField m else factoryField (fieldAt 4 1 p == 3) m) = n)
    (hkeep : n.alarms = m.alarms ∧ n.notes = m.notes) : To (.persStore f) s n := by
  obtain ⟨hal, hno⟩ := settled_of_arrives hs ha
  have heq : persStoreContent p m = n := by simp [persStoreContent, hh, hoff, hn]
  have hto := to_message (c := .persStore f) (act := persStoreContent) rfl ha (by rw [heq, hkeep.1, hal]) (by rw [heq, hkeep.2, hno])
  rwa [heq] at hto
end

/-! ## The checks of the commands (R70 to R73) -/

section
variable {m : Mach} {v : Nat}

theorem storeEffect_range (h : v ≠ 0x726F7473) : storeEffect v m = .error .range := by simp [storeEffect, h]

theorem reloadEffect_range (h : v ≠ 0x646F6C72) : reloadEffect v m = .error .range := by simp [reloadEffect, h]

theorem factoryEffect_range (w : Writer) (h : v ≠ 0x74636166) : factoryEffect w v m = .error .range := by simp [factoryEffect, h]

theorem toNat_ne_of_ne {sig k : Word} (h : sig ≠ k) : sig.toNat ≠ k.toNat := fun e => h (BitVec.eq_of_toNat_eq e)
end

theorem linked_of_persReach {m : Mach} (h : persReach m = true) : m.linked .host = true := by
  simp only [persReach, Bool.and_eq_true] at h
  exact h.1

/-- The host with a RELOAD asked for (R73). -/
def reloadAsked (m : Mach) : Mach := { m with bar := { m.bar with reload := true, restored := [] } }

@[simp] theorem reloadAsked_fields (m : Mach) : (reloadAsked m).bar.reload = true ∧ (reloadAsked m).bar.h = m.bar.h := ⟨rfl, rfl⟩

/-- The host with a FACTORY asked for (R73). -/
def factoryAsked (m : Mach) : Mach := { m with bar := { m.bar with factory := true } }

@[simp] theorem factoryAsked_fields (m : Mach) : (factoryAsked m).bar.factory = true ∧ (factoryAsked m).bar.h = m.bar.h := ⟨rfl, rfl⟩

section
variable {s : State} {w : Writer} (hs : Settled s)
include hs

/-- A STORE is accepted by the host: BUSY, and the block on its way (R70, R71). -/
theorem store_leads (hl : s.m.linked .host = true) (hb : bit 0 (s.m.rd R.DIC_PERS_STATUS) = false) :
    Leads (.store w 0x726F7473) s w R.DIC_STORE false (fun m =>
      bit 0 (m.rd R.DIC_PERS_STATUS) = true ∧ m.dic.storeAt = s.m.tb.sclk ∧ m.dic.bankA = s.m.dic.bankA ∧
      m.dic.bankB = s.m.dic.bankB ∧ m.dic.storing = s.m.dic.storing ∧ (∀ r h, w = .dict r h → m.dic.storeFor = .route r) ∧
      ∀ l : List Byte, l = packBlock (toLe 4 (s.m.rd R.DIC_STORE_COUNT)) (kVals s.m .host) (kStrs s.m .host) →
        m.bar.h.queue = s.m.bar.h.queue ++ (blockPieces (l.length / 52 + 1) 0 l).map (fun p => (7, ⟨15, p⟩))) := by
  obtain ⟨hbar, hal, hno, hdic, hbusy⟩ := persBegin_fields s.m
  have heq := storeStart_linked hl rfl
  have heff : storeEffect (0x726F7473 : Word).toNat s.m = .ok (storeStart s.m) := by simp [storeEffect, persBusy, hb, hl]
  refine leads_of_ok (c := .store w 0x726F7473) (fun _ => rfl) heff (by simp [heq, hal, hs.1]) (by simp [heq, hno, hs.2]) ?_
  refine ⟨?_, by simp [heq, hdic], by simp [heq, hdic], by simp [heq, hdic], by simp [heq, hdic], ?_, ?_⟩
  · simpa [Mach.rd, heq] using hbusy
  · rintro r h rfl
    rfl
  · rintro l rfl
    simp [heq, Mach.updEnd, hbar]

/-- The field is told of a RELOAD, which runs from then on (R73). -/
theorem reload_leads (hr : persReach s.m = true) (hb : bit 0 (s.m.rd R.DIC_PERS_STATUS) = false)
    (hk : kUnitRuns s.m .host = false) :
    Leads (.reload w 0x646F6C72) s w R.DIC_RELOAD false (fun m => m.bar.reload = true ∧ bit 0 (m.rd R.DIC_PERS_STATUS) = true ∧
      m.bar.h.queue = s.m.bar.h.queue ++ [(7, ⟨15, toLe 4 noticeOff ++ [1]⟩)]) := by
  obtain ⟨hbar, hal, hno, -, hbusy⟩ := persBegin_fields (reloadAsked s.m)
  have hl : (persBegin (reloadAsked s.m)).linked .host = true := linked_of_persReach hr
  have heff : reloadEffect (0x646F6C72 : Word).toNat s.m = .ok (notice .host [1] (persBegin (reloadAsked s.m))) := by
    simp [reloadEffect, persBusy, hb, hr, hk, reloadAsked]
  rw [notice_host_linked hl] at heff
  refine leads_of_ok (c := .reload w 0x646F6C72) (fun _ => rfl) heff (hal.trans hs.1) (hno.trans hs.2) ⟨?_, ?_, ?_⟩
  · simp [Mach.updEnd, hbar]
  · simpa [Mach.rd] using hbusy
  · simp [Mach.updEnd, hbar]

/-- The field is told of a FACTORY and of the authority of its writer. -/
theorem factory_leads (hr : persReach s.m = true) (hb : bit 0 (s.m.rd R.DIC_PERS_STATUS) = false) :
    Leads (.factory w 0x74636166) s w R.DIC_FACTORY false (fun m => m.bar.factory = true ∧ bit 0 (m.rd R.DIC_PERS_STATUS) = true ∧
      m.bar.h.queue = s.m.bar.h.queue ++ [(7, ⟨15, toLe 4 noticeOff ++ [if authority s.m w .host then 3 else 2]⟩)]) := by
  obtain ⟨hbar, hal, hno, -, hbusy⟩ := persBegin_fields (factoryAsked s.m)
  have hl : (persBegin (factoryAsked s.m)).linked .host = true := linked_of_persReach hr
  have heff : factoryEffect w (0x74636166 : Word).toNat s.m =
      .ok (notice .host [if authority s.m w .host then 3 else 2] (persBegin (factoryAsked s.m))) := by
    simp [factoryEffect, persBusy, hb, hr, factoryAsked]
  rw [notice_host_linked hl] at heff
  refine leads_of_ok (c := .factory w 0x74636166) (fun _ => rfl) heff (hal.trans hs.1) (hno.trans hs.2) ⟨?_, ?_, ?_⟩
  · simp [Mach.updEnd, hbar]
  · simpa [Mach.rd] using hbusy
  · simp [Mach.updEnd, hbar]
end

/-! ## The clauses on the store's completion and on the notices -/

theorem bits_two {v : Nat} : bits 1 0 v = 2 ↔ bit 0 v = false ∧ bit 1 v = true := by
  simp only [bits, bit, beq_iff_eq, beq_eq_false_iff_ne]
  omega

theorem bits_three {v : Nat} (h : ∀ i < 3, bit i v = false) : bits 2 0 v = 0 := by
  have h0 := h 0 (by omega)
  have h1 := h 1 (by omega)
  have h2 := h 2 (by omega)
  simp only [bits, bit, beq_eq_false_iff_ne] at *
  omega

section
variable {s : State} (hs : Settled s)
include hs

/-- The completion at the field: the image in the bank that does not hold the newest, and the host told (R70, R79). -/
theorem storeComplete_goes {i : Image} (hi : s.m.dic.storing = some i) (hw : blockWhole s.m.bar.persIn = true)
    (hl : s.m.linked .field = true) : Goes .storeComplete s (fun m => m.dic.storing = none ∧ m.bar.persIn = [] ∧
      m.dic.newestB = (!s.m.dic.newestB && s.m.dic.bankA.isSome) ∧
      (m.dic.newestB = true → m.dic.bankA = s.m.dic.bankA ∧ ∃ x, m.dic.bankB = some x ∧ x.seq = i.seq ∧ x.key = i.key) ∧
      (m.dic.newestB = false → m.dic.bankB = s.m.dic.bankB ∧ ∃ x, m.dic.bankA = some x ∧ x.seq = i.seq ∧ x.key = i.key) ∧
      (∀ x, m.image = some x → x.count = max ((s.m.image.map (fun y => y.count)).getD 0) (fieldAt 4 4 s.m.bar.persIn) + 1) ∧
      m.bar.f.queue = s.m.bar.f.queue ++ [(7, ⟨14, toLe 4 noticeOff ++ noticeDone m⟩)]) := by
  obtain ⟨hbar, -, -, hst, hnew, n, him, hB, hA⟩ := bankWrite_fields (storeImage s.m.image i s.m.bar.persIn) (storeTaken s.m)
  refine Goes.of_to (storeComplete_whole hs hi hw hl)
    ⟨hst, congrArg (fun b => b.persIn) hbar, hnew, fun h => ⟨(hB h).1, _, (hB h).2, rfl, rfl⟩, fun h => ⟨(hA h).1, _, (hA h).2, rfl, rfl⟩,
      fun x hx => ?_, ?_⟩
  · cases him.symm.trans hx
    rfl
  · rw [noticeDone_updEnd]
    exact congrArg (fun b => b.f.queue ++ [(7, ⟨14, toLe 4 noticeOff ++ noticeDone (storeImaged i s.m)⟩)]) hbar

section
variable {f : LinkFrame} {p : List Byte} {m : Mach}

/-- The host ends a command when the field has answered it (R70, R73). -/
theorem persRestore_notices (ha : Arrives .host 14 p f s m) (hoff : fieldAt 0 4 p = noticeOff)
    (hf : ∀ q : Ask, m.dic.storeFor ≠ .ask q) :
    (fieldAt 4 1 p = 1 → m.bar.reload = true →
      Goes (.persRestore f) s (fun t => t.bar.reload = false ∧ bit 0 (t.rd R.DIC_PERS_STATUS) = false)) ∧
    (fieldAt 4 1 p = 0 → m.bar.factory = true → Goes (.persRestore f) s (fun t => t.bar.factory = false ∧
      bit 0 (t.rd R.DIC_PERS_STATUS) = false ∧ bit 2 (t.rd R.DIC_PERS_STATUS) = true)) ∧
    (fieldAt 4 1 p = 0 → m.bar.factory = false → storeRuns m = true → Goes (.persRestore f) s (fun t =>
      bits 2 0 (t.rd R.DIC_PERS_STATUS) = 0 ∧ bit 3 (t.rd R.DIC_PERS_STATUS) = bit 0 (fieldAt 5 1 p) ∧
      t.rd R.DIC_STORE_COUNT = fieldAt 6 4 p ∧ t.rd R.DIC_STORED_BYTES = fieldAt 10 4 p)) := by
  refine ⟨fun h1 hr => ?_, fun h0 hr => ?_, fun h0 hr hst => ?_⟩
  · obtain ⟨hal, hno, hrel, hbusy⟩ := reloadRefused_fields hf
    have hn : noticeContent p m = reloadRefused m := by simp [noticeContent, h1, hr]
    exact Goes.of_to (to_persRestore_notice hs ha hoff hn ⟨hal, hno⟩) ⟨hrel, hbusy⟩
  · obtain ⟨hal, hno, hend⟩ := factoryEnded_fields (p := p) hf
    have hn : noticeContent p m = factoryEnded p m := by simp [noticeContent, h0, hr]
    exact Goes.of_to (to_persRestore_notice hs ha hoff hn ⟨hal, hno⟩) hend
  · obtain ⟨hal, hno, hrd⟩ := storeEnded_fields (p := p) hf
    obtain ⟨hlow, hcopy⟩ := storeShown_status p m
    have hn : noticeContent p m = storeEnded p m := by simp [noticeContent, h0, hr, hst]
    refine Goes.of_to (to_persRestore_notice hs ha hoff hn ⟨hal, hno⟩) ?_
    rw [hrd _ (by simp), hrd R.DIC_STORE_COUNT (by simp), hrd R.DIC_STORED_BYTES (by simp)]
    exact ⟨bits_three hlow, hcopy, storeShown_header p m⟩

variable (ha : Arrives .field 15 p f s m) (hh : m.keepHalted = false) (hoff : fieldAt 0 4 p = noticeOff)
include ha hh hoff

/-- A RELOAD at the field: refused while a unit runs, done otherwise (R73). -/
theorem to_persStore_reload (h1 : fieldAt 4 1 p = 1) :
    (kUnitRuns m .field = true → To (.persStore f) s (notice .field [1] m)) ∧
    (kUnitRuns m .field = false → To (.persStore f) s (reloadField m)) := by
  refine ⟨fun hk => to_persStore_notice hs ha hh hoff ?_ ?_, fun hk => to_persStore_notice hs ha hh hoff ?_ (reloadField_fields hk)⟩
  · simp [h1, reloadField, hk]
  · simp
  · simp [h1]

/-- A FACTORY at the field, with authority (3) and without (2). -/
theorem to_persStore_factory {auth : Bool} (h : fieldAt 4 1 p = if auth then 3 else 2)
    (hkeep : (factoryField auth m).alarms = m.alarms ∧ (factoryField auth m).notes = m.notes) :
    To (.persStore f) s (factoryField auth m) := by
  refine to_persStore_notice hs ha hh hoff ?_ hkeep
  cases auth <;> simp [h]

theorem persStore_factory_empties {auth : Bool} (h : fieldAt 4 1 p = if auth then 3 else 2) (hi : auth = true ∨ m.image = none) :
    Goes (.persStore f) s (fun t => t.dic.bankA = none ∧ t.dic.bankB = none) := by
  obtain ⟨hal, hno, hbanks⟩ := factoryField_all hi
  exact Goes.of_to (to_persStore_factory hs ha hh hoff h ⟨hal, hno⟩) hbanks

theorem persStore_factory_keeps_safety {i : Image} (h : fieldAt 4 1 p = 2) (hi : m.image = some i) :
    Goes (.persStore f) s (fun t => t.dic.bankB = none ∧ ∃ x : Image, t.dic.bankA = some x ∧ x.key = i.key ∧
      x.vals = i.vals.filter (fun e => decide (0x190000 ≤ e.1) && decide (e.1 ≤ 0x19FFFF))) := by
  obtain ⟨hal, hno, himage⟩ := factoryField_safety hi
  exact Goes.of_to (to_persStore_factory (auth := false) hs ha hh hoff h ⟨hal, hno⟩) himage
end
end

/-- Settles O39: each command is `AsksStore` of its checks; a store's completion and the two sides' notices act by the laws of their
contents. -/
theorem persistenceCommands : Obligations.PersistenceCommands := by
  unfold Obligations.PersistenceCommands
  intro s w f p m hs
  have hstore : AsksStore (.store w 0x726F7473) w R.DIC_STORE (storeEffect (0x726F7473 : Word).toNat) := fun _ => rfl
  have hreload : AsksStore (.reload w 0x646F6C72) w R.DIC_RELOAD (reloadEffect (0x646F6C72 : Word).toNat) := fun _ => rfl
  have hfactory : AsksStore (.factory w 0x74636166) w R.DIC_FACTORY (factoryEffect w (0x74636166 : Word).toNat) := fun _ => rfl
  refine ⟨store_leads hs, ?_, ⟨_, rfl, rfl, rfl, rfl⟩, fun sig => ⟨fun h => ?_, fun h => ?_, fun h => ?_⟩, fun hb => ⟨?_, ?_, ?_⟩, fun hb hl => ?_,
    fun hb hr => ⟨?_, ?_⟩, fun hi => ?_, fun i hi hw hl => ?_, fun i hi hw => ?_, fun hr hf => ?_, ?_, fun hr hb => ⟨fun hk => ?_,
    reload_leads hs hr hb, factory_leads hs hr hb⟩, ?_⟩
  · simp [kVals, keyOn, List.mem_filter]
  · exact turns_of_error (c := .store w sig) (fun _ => rfl) (storeEffect_range (toNat_ne_of_ne h))
  · exact turns_of_error (c := .reload w sig) (fun _ => rfl) (reloadEffect_range (toNat_ne_of_ne h))
  · exact turns_of_error (c := .factory w sig) (fun _ => rfl) (factoryEffect_range w (toNat_ne_of_ne h))
  · exact turns_of_error hstore (by simp [storeEffect, persBusy, hb])
  · exact turns_of_error hreload (by simp [reloadEffect, persBusy, hb])
  · exact turns_of_error hfactory (by simp [factoryEffect, persBusy, hb])
  · exact turns_of_error hstore (by simp [storeEffect, persBusy, hb, hl])
  · exact turns_of_error hreload (by simp [reloadEffect, persBusy, hb, hr])
  · exact turns_of_error hfactory (by simp [factoryEffect, persBusy, hb, hr])
  · exact done_quiet (f := storeCompleteEffect) (by simp [storeCompleteEffect, hi]) hs.1 hs.2
  · exact storeComplete_goes hs hi hw hl
  · have heff : storeCompleteEffect s.m = storeDrop s.m := by simp [storeCompleteEffect, hi, hw]
    exact ⟨_, done_quiet heff (by simp [storeDrop, hi, hs.1]) (by simp [storeDrop, hi, hs.2]), rfl, by simp [storeDrop, hi]⟩
  · exact bits_two.mpr (storeFail_status hr hf)
  · rintro a b ha hoff rfl hf rfl
    exact persRestore_notices hs ha hoff hf
  · exact turns_of_error hreload (by simp [reloadEffect, persBusy, hb, hr, hk])
  · intro ha hh hoff
    have hgo (h1 : fieldAt 4 1 p = 1) := to_persStore_reload hs ha hh hoff h1
    exact ⟨fun h1 => (hgo h1).1,
      fun h1 hk hi o hp ho => Goes.of_to ((hgo h1).2 hk) (reloadField_default hk hi hp ho _),
      fun i k v h1 hk hi hv hp ho hu => Goes.of_to ((hgo h1).2 hk) (reloadField_stored hk hi hv hp ho hu),
      fun h => persStore_factory_empties (auth := true) hs ha hh hoff h (.inl rfl),
      fun h hi => persStore_factory_empties (auth := false) hs ha hh hoff h (.inr hi),
      fun i h hi => persStore_factory_keeps_safety hs ha hh hoff h hi⟩

end Sys2Proof.Machine

/-! # O5: the signatures of the persistence commands

What the commands answer is in the checks of their effects (O39's lemmas), and each signature is one word. What R72 adds to them is that
an accepted RELOAD leaves the stored images as they are. -/

namespace Sys2Proof.Machine

/-- The objects of R72 are write-only. -/
theorem found_writeOnly {o : Obj} (h : o ∈ [R.DIC_STORE, R.DIC_RELOAD, R.DIC_FACTORY]) :
    ∃ f : Found, findObj o.idx o.sub = some f ∧ f.row.acc = .wo := by
  have hwo : ∀ o ∈ [R.DIC_STORE, R.DIC_RELOAD, R.DIC_FACTORY], (findObj o.idx o.sub).any (fun f => f.row.acc == .wo) = true := by
    decide
  simpa [Option.any_eq_true] using hwo o h

theorem Leads.mono {c : Instr} {s : State} {w : Writer} {o : Obj} {mach : Bool} {P Q : Mach → Prop} (h : Leads c s w o mach P)
    (hPQ : ∀ m, P m → Q m) : Leads c s w o mach Q := fun hm => by
  obtain ⟨t, hexec, hq, hP⟩ := h hm
  exact ⟨t, hexec, hq, hPQ _ hP⟩

theorem persReach_iff {m : Mach} : persReach m = true ↔ m.linked .host = true ∧ m.bar.peerHalted = false := by
  simp [persReach]

/-- An accepted RELOAD starts from the images as they are (R72, R73). -/
theorem reload_leads_banks {s : State} {w : Writer} (hs : Settled s) (hr : persReach s.m = true)
    (hb : bit 0 (s.m.rd R.DIC_PERS_STATUS) = false) (hk : kUnitRuns s.m .host = false) :
    Leads (.reload w 0x646F6C72) s w R.DIC_RELOAD false (fun m => bit 0 (m.rd R.DIC_PERS_STATUS) = true ∧
      m.dic.bankA = s.m.dic.bankA ∧ m.dic.bankB = s.m.dic.bankB) := by
  obtain ⟨-, hal, hno, hdic, hbusy⟩ := persBegin_fields (reloadAsked s.m)
  have heff : reloadEffect (0x646F6C72 : Word).toNat s.m = .ok (notice .host [1] (persBegin (reloadAsked s.m))) := by
    simp [reloadEffect, persBusy, hb, hr, hk, reloadAsked]
  have hask : (reloadAsked s.m).dic = s.m.dic := rfl
  refine leads_of_ok (c := .reload w 0x646F6C72) (fun _ => rfl) heff (by simpa using hal.trans hs.1)
    (by simpa using hno.trans hs.2) ⟨?_, ?_⟩
  · simpa [Mach.rd] using hbusy
  · simp [hdic, hask]

/-- Settles O5: a value is the signature's word or is refused for its range; BUSY refuses the signature, and without it the command is
accepted as its own law says. -/
theorem persistenceSignatures : Obligations.PersistenceSignatures := by
  unfold Obligations.PersistenceSignatures
  refine ⟨fun o ho => found_writeOnly ho, fun s w sig hs => ?_⟩
  have hstore : AsksStore (.store w sig) w R.DIC_STORE (storeEffect sig.toNat) := fun _ => rfl
  have hreload : AsksStore (.reload w sig) w R.DIC_RELOAD (reloadEffect sig.toNat) := fun _ => rfl
  have hfactory : AsksStore (.factory w sig) w R.DIC_FACTORY (factoryEffect w sig.toNat) := fun _ => rfl
  have hword (k : Word) (h : sig.toNat = k.toNat) : sig = k := BitVec.eq_of_toNat_eq h
  refine ⟨fun h => turns_of_error hstore (storeEffect_range h), fun h => turns_of_error hreload (reloadEffect_range h),
    fun h => turns_of_error hfactory (factoryEffect_range w h), fun hb => ⟨fun h => ?_, fun h => ?_, fun h => ?_⟩,
    fun hb hl => ⟨fun h => ?_, fun h hp hk => ?_, fun h hp => ?_⟩⟩
  · exact turns_of_error hstore (by simp [storeEffect, h, persBusy, hb])
  · exact turns_of_error hreload (by simp [reloadEffect, h, persBusy, hb])
  · exact turns_of_error hfactory (by simp [factoryEffect, h, persBusy, hb])
  · obtain rfl := hword 0x726F7473 h
    exact (store_leads hs hl hb).mono fun _ hm => hm.1
  · obtain rfl := hword 0x646F6C72 h
    exact reload_leads_banks hs (persReach_iff.mpr ⟨hl, hp⟩) hb hk
  · obtain rfl := hword 0x74636166 h
    exact (factory_leads hs (persReach_iff.mpr ⟨hl, hp⟩) hb).mono fun _ hm => hm.2.1

end Sys2Proof.Machine

/-! # O35: the host ports

The three ports share their slots: what a submission and an acknowledgement do to one is said once. What a port's read or write does
beside that is one equation of its effect. -/

namespace Sys2Proof.Machine

/-! ## Slots (R74, R76, R77) -/

@[simp] theorem getSlot_setSlot_same (r : Route) (k : Nat) (x : Slot) (m : Mach) : getSlot (setSlot r k x m) r k = x :=
  mapGet_mapSet_same ..

theorem getSlot_setSlot_ne {r : Route} {j k : Nat} (h : j ≠ k) (x : Slot) (m : Mach) : getSlot (setSlot r k x m) r j = getSlot m r j :=
  mapGet_mapSet_ne (by simpa [slotKey] using h) ..

@[simp] theorem slotFree_fields (r : Route) (k : Nat) (m : Mach) :
    (slotFree r k m).alarms = m.alarms ∧ (slotFree r k m).notes = m.notes ∧ (slotFree r k m).dic.parOut = m.dic.parOut := by
  unfold slotFree
  split <;> simp [setSlot]

/-- A slot that is freed loses its response if one stands ready; the others stay. -/
theorem getSlot_slotFree (r : Route) (j k : Nat) (m : Mach) :
    getSlot (slotFree r k m) r j = if j = k ∧ (getSlot m r j).ready = true then {} else getSlot m r j := by
  unfold slotFree
  by_cases hjk : j = k
  · subst hjk
    split <;> simp [*]
  · split <;> simp [hjk, getSlot_setSlot_ne]

/-- What an acknowledgement does to its slots: the mask's bits from b on name those to free. -/
def ackSlots (r : Route) (b v : Nat) (l : List Nat) (m : Mach) : Mach :=
  m.each l (fun k m => if bit (b + k) v then slotFree r k m else m)

@[simp] theorem ackSlots_fields (r : Route) (b v : Nat) (l : List Nat) (m : Mach) :
    (ackSlots r b v l m).alarms = m.alarms ∧ (ackSlots r b v l m).notes = m.notes :=
  ⟨each_keeps (g := Mach.alarms) (fun _ _ => by split <;> simp) l m, each_keeps (g := Mach.notes) (fun _ _ => by split <;> simp) l m⟩

theorem getSlot_ackSlots (r : Route) (b v j : Nat) (l : List Nat) (m : Mach) :
    getSlot (ackSlots r b v l m) r j =
      if j ∈ l ∧ bit (b + j) v = true ∧ (getSlot m r j).ready = true then {} else getSlot m r j := by
  induction l generalizing m with
  | nil => rfl
  | cons k l ih =>
    have hcons : ackSlots r b v (k :: l) m = ackSlots r b v l (if bit (b + k) v then slotFree r k m else m) := rfl
    have hfirst : getSlot (if bit (b + k) v then slotFree r k m else m) r j =
        if j = k ∧ bit (b + j) v = true ∧ (getSlot m r j).ready = true then {} else getSlot m r j := by
      by_cases hjk : j = k
      · subst hjk
        split <;> simp [getSlot_slotFree, *]
      · split <;> simp [getSlot_slotFree, hjk]
    rw [hcons, ih, hfirst]
    by_cases hp : bit (b + j) v = true ∧ (getSlot m r j).ready = true
    · by_cases hjk : j = k
      · subst hjk
        simp [hp]
      · simp [hjk]
    · have hno (P : Prop) : ¬ (P ∧ bit (b + j) v = true ∧ (getSlot m r j).ready = true) := fun h => hp h.2
      simp only [hno, if_false]

theorem mbxAckEffect_eq (v : Nat) (m : Mach) : mbxAckEffect v m = ackSlots .pcie 4 v (List.range 4) m := rfl

theorem qspiAckEffect_eq (v : Nat) (m : Mach) : qspiAckEffect v m = ackSlots .qspi 2 v (List.range 2) m := rfl

/-! ## Submission -/

section
variable {r : Route} {slot : Fin 4} {n : Nat} {f : List Byte} {m : Mach}

theorem slotSubmit_off (ho : m.hostOff = true) : slotSubmit r slot f m = m := by simp [slotSubmit, ho]

theorem slotSubmit_taken (hv : slot.val = n) (ho : m.hostOff = false) (ht : slotTaken m r n = true) :
    slotSubmit r slot f m = m.inc R.DIC_MBX_REJECTS := by
  simp [slotSubmit, ho, hv, ht]

theorem slotSubmit_free (hv : slot.val = n) (ho : m.hostOff = false) (ht : slotTaken m r n = false) :
    slotSubmit r slot f m = dicRequest ⟨(reqOf r slot f).1, (reqOf r slot f).2, none⟩
      (setSlot r n { getSlot m r n with busy := true } m) := by
  simp [slotSubmit, ho, hv, ht]
end

/-- Placing a frame in a request slot leaves the side's state and the slots' flags. -/
theorem slotFill_fields (n : Nat) (l : List Byte) (m : Mach) :
    (slotFill n l m).hostOff = m.hostOff ∧ ∀ r k, slotTaken (slotFill n l m) r k = slotTaken m r k := by
  simp [slotFill, Mach.hostOff, Mach.inReset, slotTaken, getSlot]

/-- A slot's number, as the service keeps it. -/
theorem val_ofNat_slot {n : Nat} (h : n < 4) : (Fin.ofNat 4 n).val = n := Nat.mod_eq_of_lt h

theorem doorbellEffect_taken {n : Nat} {m : Mach} (hn : n < 4) (ht : slotTaken m .pcie n = true) (b : List Byte) :
    doorbellEffect n b m = slotSubmit .pcie (Fin.ofNat 4 n) (slotBytes m n) m := by
  simp [doorbellEffect, doorbellWrite, hn, ht]

theorem doorbellEffect_free {n : Nat} {m : Mach} (hn : n < 4) (ht : slotTaken m .pcie n = false) (b : List Byte) :
    doorbellEffect n b m = slotSubmit .pcie (Fin.ofNat 4 n) (slotBytes (slotFill n b m) n) (slotFill n b m) := by
  simp [doorbellEffect, doorbellWrite, hn, ht]

theorem qspiWriteEffect_eq {n : Nat} (hn : n < 2) (b : List Byte) (m : Mach) :
    qspiWriteEffect n b m = slotSubmit .qspi (Fin.ofNat 4 n) b m := by
  simp [qspiWriteEffect, qspiSlot, hn]

theorem qspiReadEffect_eq {n : Nat} (hn : n < 2) (m : Mach) :
    qspiReadEffect n m = m.send .bus ((getSlot m .qspi n).rsp.map (·.toNat)) := by
  simp [qspiReadEffect, qspiSlot, hn, Nat.mod_eq_of_lt (show n < 4 by omega)]

/-- A quad-SPI command that names no slot sets ERR and does nothing else (R76). -/
theorem qspiSlot_malformed {n : Nat} (hn : 2 ≤ n) (f : Fin 4 → Mach → Mach) (m : Mach) :
    qspiSlot n f m = { m with dic := { m.dic with qspiErr := true } } := by
  simp [qspiSlot, Nat.not_lt.mpr hn]

/-- The parallel port's frame is what its FIFO holds, which the submission takes out (R77). -/
theorem submitEffect_free {m : Mach} (ho : m.hostOff = false) (ht : slotTaken m .par 0 = false) :
    submitEffect m = slotSubmit .par 0 (m.dic.parIn.flatMap (fun w => toLe 2 w.toNat)) { m with dic := { m.dic with parIn := [] } } := by
  simp [submitEffect, ho, ht]

/-! ## Reads and writes of the ports -/

/-- A load sends nothing off: it may take an open value or clear the trace's count (R391). -/
theorem regLoad_keeps {idx sub : Nat} {m : Mach} {r : Nat × Mach} (h : regLoad idx sub m = some r) :
    r.2.alarms = m.alarms ∧ r.2.notes = m.notes := by
  obtain ⟨hit, -, rfl⟩ := Option.map_eq_some_iff.mp h
  cases hit with
  | low f => dsimp only; split <;> simp
  | high f => simp
  | userLow u => simp
  | userHigh u => simp

section
variable {off : Nat} {m : Mach}

theorem bar2Read_outside (h : regAt (0x40000000 + off) = none) : bar2Read off m = (none, m) := by
  simp [bar2Read, h]

theorem bar2Read_field {idx sub : Nat} (h : regAt (0x40000000 + off) = some (idx, sub)) (ho : ownerOf idx = .field) :
    bar2Read off m = (none, m) := by
  simp [bar2Read, h, ho]

theorem bar2Read_host {idx sub : Nat} {r : Nat × Mach} (h : regAt (0x40000000 + off) = some (idx, sub)) (ho : ownerOf idx = .host)
    (hr : regLoad idx sub m = some r) : bar2Read off m = (some r.1, r.2) := by
  simp [bar2Read, h, ho, hr]
end

@[simp] theorem completion_fields (x : Option Nat × Mach) :
    (completion x).alarms = x.2.alarms ∧ (completion x).notes = x.2.notes := by
  unfold completion
  split <;> simp

theorem qspiStatus_eq (m : Mach) : qspiStatus m = boolNat m.dic.qspiErr * 128 +
    boolNat (getSlot m .qspi 0).busy + boolNat (getSlot m .qspi 0).ready * 4 + boolNat (getSlot m .qspi 1).busy * 2 +
    boolNat (getSlot m .qspi 1).ready * 8 := by
  simp [qspiStatus, List.range_succ]

/-- A command answers what its effect becomes once causes and happenings have acted. -/
theorem done_of_eq {f : Mach → Mach} {s : State} {m : Mach} (h : f s.m = m) : done f s = .next { s with m := settle m } := by
  rw [done, h]

/-! ## The commands -/

section
variable {s : State} (hs : Settled s)
include hs

theorem doorbell_submits {n : Word} (hn : n.toNat < 4) (b : List Byte) {m : Mach} :
    (s.m.hostOff = true → slotTaken s.m .pcie n.toNat = true → To (.doorbell n b) s s.m) ∧
    (s.m.hostOff = false → slotTaken s.m .pcie n.toNat = true → To (.doorbell n b) s (s.m.inc R.DIC_MBX_REJECTS)) ∧
    (s.m.hostOff = false → slotTaken s.m .pcie n.toNat = false → m = slotFill n.toNat b s.m → To (.doorbell n b) s (settle (dicRequest
      ⟨(reqOf .pcie (Fin.ofNat 4 n.toNat) (slotBytes m n.toNat)).1, (reqOf .pcie (Fin.ofNat 4 n.toNat) (slotBytes m n.toNat)).2, none⟩
      (setSlot .pcie n.toNat { getSlot m .pcie n.toNat with busy := true } m)))) := by
  have hv := val_ofNat_slot hn
  refine ⟨fun ho ht => ?_, fun ho ht => ?_, ?_⟩
  · exact done_quiet ((doorbellEffect_taken hn ht b).trans (slotSubmit_off ho)) hs.1 hs.2
  · exact done_quiet ((doorbellEffect_taken hn ht b).trans (slotSubmit_taken hv ho ht)) (by simp [hs.1]) (by simp [hs.2])
  · rintro ho ht rfl
    obtain ⟨hoff, htaken⟩ := slotFill_fields n.toNat b s.m
    exact done_of_eq ((doorbellEffect_free hn ht b).trans (slotSubmit_free hv (hoff.trans ho) ((htaken ..).trans ht)))

theorem qspiWriteFrame_submits {n : Byte} (hn : n.toNat < 2) (b : List Byte) :
    (s.m.hostOff = true → To (.qspiWriteFrame n b) s s.m) ∧
    (s.m.hostOff = false → slotTaken s.m .qspi n.toNat = true → To (.qspiWriteFrame n b) s (s.m.inc R.DIC_MBX_REJECTS)) ∧
    (s.m.hostOff = false → slotTaken s.m .qspi n.toNat = false → To (.qspiWriteFrame n b) s (settle (dicRequest
      ⟨(reqOf .qspi (Fin.ofNat 4 n.toNat) b).1, (reqOf .qspi (Fin.ofNat 4 n.toNat) b).2, none⟩
      (setSlot .qspi n.toNat { getSlot s.m .qspi n.toNat with busy := true } s.m)))) := by
  have hv := val_ofNat_slot (show n.toNat < 4 by omega)
  refine ⟨fun ho => ?_, fun ho ht => ?_, fun ho ht => ?_⟩
  · exact done_quiet ((qspiWriteEffect_eq hn b s.m).trans (slotSubmit_off ho)) hs.1 hs.2
  · exact done_quiet ((qspiWriteEffect_eq hn b s.m).trans (slotSubmit_taken hv ho ht)) (by simp [hs.1]) (by simp [hs.2])
  · exact done_of_eq ((qspiWriteEffect_eq hn b s.m).trans (slotSubmit_free hv ho ht))

theorem submit_submits :
    (s.m.hostOff = true → To .submit s s.m) ∧
    (s.m.hostOff = false → slotTaken s.m .par 0 = true → To .submit s (s.m.inc R.DIC_MBX_REJECTS)) ∧
    (∀ b : List Byte, s.m.hostOff = false → slotTaken s.m .par 0 = false → b = s.m.dic.parIn.flatMap (fun w => toLe 2 w.toNat) →
      To .submit s (settle (dicRequest ⟨(reqOf .par 0 b).1, (reqOf .par 0 b).2, none⟩
        (setSlot .par 0 { getSlot s.m .par 0 with busy := true } { s.m with dic := { s.m.dic with parIn := [] } })))) := by
  refine ⟨fun ho => ?_, fun ho ht => ?_, ?_⟩
  · exact done_quiet (f := submitEffect) (by simp [submitEffect, ho]) hs.1 hs.2
  · exact done_quiet (f := submitEffect) (by simp [submitEffect, ho, ht]) (by simp [hs.1]) (by simp [hs.2])
  · rintro b ho ht rfl
    exact done_of_eq ((submitEffect_free ho ht).trans (slotSubmit_free rfl ho ht))

/-- A read of a BAR answers with its completion. -/
theorem to_barRead {bar : Bar} {off v : Word} {x : Option Nat × Mach}
    (h : barAccessEffect bar false off.toNat v.toNat s.m = completion x) (hx : x.2.alarms = s.m.alarms ∧ x.2.notes = s.m.notes) :
    To (.bar2Access bar false off v) s (completion x) :=
  done_quiet h (by simp [hx.1, hs.1]) (by simp [hx.2, hs.2])

theorem to_bar2Read {off v : Word} {x : Option Nat × Mach} (h : bar2Read off.toNat s.m = x)
    (hx : x.2.alarms = s.m.alarms ∧ x.2.notes = s.m.notes) : To (.bar2Access .bar2 false off v) s (completion x) :=
  to_barRead hs (congrArg completion h) hx

/-- The words of BAR0 that hold what was written, the status and the interrupt enable (R74, log 49). -/
theorem bar0_access {off : Word} (v : Word) (h4 : off.toNat % 4 = 0) :
    (bar0Ram off.toNat = true → To (.bar2Access .bar0 true off v) s { s.m with dic := { s.m.dic with
        bar0 := mapSet 0 (off.toNat / 4) v.toNat s.m.dic.bar0 } } ∧
      To (.bar2Access .bar0 false off v) s (s.m.send .bus [1, mapGet 0 (off.toNat / 4) s.m.dic.bar0])) ∧
    (off.toNat = 0x804 → To (.bar2Access .bar0 false off v) s (s.m.send .bus [1, mbxStatus s.m])) ∧
    (off.toNat = 0x80C → To (.bar2Access .bar0 true off v) s { s.m with dic := { s.m.dic with mbxIrqEn := v.toNat &&& 0xF0 } }) := by
  refine ⟨fun hram => ⟨?_, ?_⟩, fun hoff => ?_, fun hoff => ?_⟩
  · exact done_quiet (f := barAccessEffect .bar0 true off.toNat v.toNat) (by simp [barAccessEffect, h4, bar0Write, hram]) hs.1 hs.2
  · exact to_barRead (x := (some _, s.m)) hs (by simp [barAccessEffect, h4, bar0Read, hram]) ⟨rfl, rfl⟩
  · exact to_barRead (x := (some _, s.m)) hs (by simp [barAccessEffect, bar0Read, bar0Ram, hoff]) ⟨rfl, rfl⟩
  · exact done_quiet (f := barAccessEffect .bar0 true off.toNat v.toNat) (by simp [barAccessEffect, bar0Write, bar0Ram, hoff]) hs.1 hs.2

theorem qspiReadStatus_goes : Goes .qspiReadStatus s (fun m => m.dic.qspiErr = false ∧
    m.out = ⟨.bus, [boolNat s.m.dic.qspiErr * 128 + boolNat (getSlot s.m .qspi 0).busy + boolNat (getSlot s.m .qspi 0).ready * 4 +
      boolNat (getSlot s.m .qspi 1).busy * 2 + boolNat (getSlot s.m .qspi 1).ready * 8]⟩ :: s.m.out) := by
  rw [← qspiStatus_eq]
  exact ⟨_, done_quiet rfl hs.1 hs.2, rfl, rfl, rfl⟩

/-- An acknowledgement frees the slots it names whose responses stand ready. -/
theorem ack_goes {c : Instr} {f : Mach → Mach} {r : Route} {b v n : Nat} (hc : exec c s = done f s)
    (hf : f s.m = ackSlots r b v (List.range n) s.m) :
    Goes c s (fun m => ∀ k < n, getSlot m r k =
      if bit (b + k) v = true ∧ (getSlot s.m r k).ready = true then {} else getSlot s.m r k) := by
  refine ⟨_, hc.trans (done_quiet hf (by simp [hs.1]) (by simp [hs.2])), rfl, fun k hk => ?_⟩
  simp [getSlot_ackSlots, hk]

/-- The request FIFO holds 128 words; one more is lost with FIFO_ERR (R77). -/
theorem pdataWrite_to (v : BitVec 16) :
    (s.m.dic.parIn.length < 128 → To (.pdataWrite v) s { s.m with dic := { s.m.dic with parIn := s.m.dic.parIn ++ [v] } }) ∧
    (128 ≤ s.m.dic.parIn.length → To (.pdataWrite v) s { s.m with dic := { s.m.dic with parErr := true } }) := by
  refine ⟨fun h => ?_, fun h => ?_⟩
  · exact done_quiet (f := pdataWriteEffect v) (by simp [pdataWriteEffect, Nat.not_le.mpr h]) hs.1 hs.2
  · exact done_quiet (f := pdataWriteEffect v) (by simp [pdataWriteEffect, h]) hs.1 hs.2

theorem pdataRead_to {v : BitVec 16} {r : List (BitVec 16)} (h : s.m.dic.parOut = v :: r) :
    To .pdataRead s ({ s.m with dic := { s.m.dic with parOut := r } }.send .bus [v.toNat]) :=
  done_quiet (f := pdataReadEffect) (by simp [pdataReadEffect, h]) hs.1 hs.2

/-- An empty response FIFO answers with some word (log 3). -/
theorem pdataRead_empty (h : s.m.dic.parOut = []) :
    Goes .pdataRead s (fun m => m.dic.parOut = [] ∧ ∃ v < 2 ^ 16, m.out = ⟨.bus, [v]⟩ :: s.m.out) := by
  have heff : pdataReadEffect s.m = s.m.free.2.send .bus [s.m.free.1 % 65536] := by simp [pdataReadEffect, h]
  exact ⟨_, done_quiet heff hs.1 hs.2, rfl, h, _, Nat.mod_lt _ (by decide), rfl⟩

theorem parAck_goes (h : (getSlot s.m .par 0).ready = true) : Goes .parAck s (fun m => getSlot m .par 0 = {} ∧ m.dic.parOut = []) := by
  have heff : parAckEffect s.m = slotFree .par 0 { s.m with dic := { s.m.dic with parOut := [] } } := by simp [parAckEffect, h]
  refine ⟨_, done_quiet heff (by simp [hs.1]) (by simp [hs.2]), rfl, ?_, by simp⟩
  exact (getSlot_slotFree ..).trans (if_pos ⟨rfl, h⟩)
end

/-- Settles O35: each command is `done` of its port's effect, whose laws above say what it does to the slot, the flags and the FIFOs; a
direct-window write is the register write at its address. -/
theorem hostPorts : Obligations.HostPorts := by
  unfold Obligations.HostPorts
  intro s hs
  obtain ⟨hoff, htaken, hfree⟩ := submit_submits hs
  refine ⟨fun n b m hn => doorbell_submits hs hn b, fun mask => ack_goes hs rfl (mbxAckEffect_eq ..),
    fun off v h => to_bar2Read hs (bar2Read_outside h) ⟨rfl, rfl⟩,
    fun off v idx sub r h => ⟨fun ho => to_bar2Read hs (bar2Read_field h ho) ⟨rfl, rfl⟩, fun ho hr => ?_⟩, ?_,
    fun off v h4 => bar0_access hs v h4, fun n b hn => ?_, fun n b hn => ⟨?_, ?_⟩, qspiReadStatus_goes hs,
    fun mask => ack_goes hs rfl (qspiAckEffect_eq ..), fun v => pdataWrite_to hs v, fun v r h => pdataRead_to hs h, pdataRead_empty hs, hoff, htaken,
    hfree, parAck_goes hs, done_quiet rfl hs.1 hs.2⟩
  · exact to_bar2Read hs (bar2Read_host h ho hr) (regLoad_keeps hr)
  · intro a off v ha _
    change done (registerWriteEffect .pcie (0x40000000 + off.toNat) v.toNat) s = done (registerWriteEffect .pcie a.toNat v.toNat) s
    rw [ha]
  · obtain ⟨h1, h2, h3⟩ := qspiWriteFrame_submits hs hn b
    refine ⟨h1, h2, h3, ?_⟩
    exact done_quiet (qspiReadEffect_eq hn s.m) hs.1 hs.2
  · exact done_quiet (qspiSlot_malformed hn ..) hs.1 hs.2
  · exact done_quiet (qspiSlot_malformed hn ..) hs.1 hs.2

end Sys2Proof.Machine

/-! # O51: the clocks of a tick

Between two ticks the timebase moves by `tbTick` alone: the host's clock adds to host time, and what else `clocks` does leaves the
timebase and FTB_SLOW as they are. The wake of an LCLK edge can end LCLK mode and does not begin it. -/

namespace Sys2Proof.Machine

/-! ## What leaves time as it is -/

/-- What time runs by: the timebase, the power states and the cores (R80, R81). -/
def Mach.clockwork (m : Mach) : Timebase × Power × List (Nat × Core) := (m.tb, m.pwr, m.cores)

@[simp] theorem clockwork_setChan (c : Nat) (x : Chan) (m : Mach) : (m.setChan c x).clockwork = m.clockwork := rfl

@[simp] theorem clockwork_updChan (c : Nat) (f : Chan → Chan) (m : Mach) : (m.updChan c f).clockwork = m.clockwork := rfl

@[simp] theorem clockwork_updEvt (s : Nat) (f : EvtSlot → EvtSlot) (m : Mach) : (m.updEvt s f).clockwork = m.clockwork := rfl

@[simp] theorem clockwork_inc (o : Obj) (m : Mach) : (m.inc o).clockwork = m.clockwork := rfl

@[simp] theorem clockwork_raise (evt en : Obj) (b src : Nat) (m : Mach) : (m.raise evt en b src).clockwork = m.clockwork := by
  simp [Mach.clockwork]

theorem clockwork_outApply (c : Nat) (lvl : Bool) (t : Nat) (m : Mach) : (outApply c lvl t m).2.clockwork = m.clockwork := by
  unfold outApply
  extract_lets x again y z put m1
  have h1 : m1.clockwork = m.clockwork := clockwork_raise ..
  cases y.last with
  | none => dsimp only; split_ifs <;> rfl
  | some l => dsimp only; split_ifs <;> simp [h1]

theorem clockwork_evtRaise (s b : Nat) (m : Mach) : (evtRaise s b m).clockwork = m.clockwork := by
  unfold evtRaise
  dsimp only
  split_ifs <;> simp [Mach.clockwork]

theorem clockwork_evtBlock (s c : Nat) (m : Mach) : (evtBlock s c m).clockwork = m.clockwork := by
  rw [evtBlock, clockwork_evtRaise]
  split_ifs <;> simp [Mach.clockwork]

theorem clockwork_evtAim (s : Nat) (above : Int) (m : Mach) : (evtAim s above m).clockwork = m.clockwork := by
  unfold evtAim
  split
  · rw [evtMiss, clockwork_evtRaise]
    simp [Mach.clockwork]
  · dsimp only
    split_ifs
    · simp [Mach.clockwork]
    · rw [clockwork_evtBlock]
      simp [Mach.clockwork]

theorem clockwork_lanRestart (m : Mach) : (lanRestart m).clockwork = m.clockwork := by
  have harm (m : Mach) : (lanArmAll m).clockwork = m.clockwork :=
    each_keeps (fun s m => by split_ifs; exacts [clockwork_evtAim .., rfl]) _ m
  have hunblock (m : Mach) : (lanUnblock m).clockwork = m.clockwork :=
    each_keeps (fun s m => by dsimp only; split_ifs; exacts [clockwork_evtAim .., by simp [Mach.clockwork]]) _ m
  unfold lanRestart
  split_ifs
  · rw [hunblock, harm]
  · rfl

theorem clockwork_lanStop (m : Mach) : (lanStop m).clockwork = m.clockwork :=
  each_keeps (g := Mach.clockwork) (fun c m => by unfold angleClear outTransition; split_ifs; exacts [clockwork_outApply .., rfl]) _ _

theorem clockwork_chansRestart (m : Mach) : (chansRestart m).clockwork = m.clockwork :=
  each_keeps (fun c m => by unfold chanRestart sdDrawn; split_ifs <;> simp [Mach.clockwork]) _ m

theorem clockwork_octsDapResume (m : Mach) : (octsDapResume m).clockwork = m.clockwork :=
  each_keeps (fun o m => by split_ifs <;> simp [Mach.clockwork]) _ m

theorem clockwork_linkQueue (s : Side) (typ : Nat) (p : List Byte) (m : Mach) : (linkQueue s typ p m).clockwork = m.clockwork := by
  unfold linkQueue
  split <;> simp [Mach.clockwork]

theorem clockwork_statusSync (m : Mach) : (statusSync m).clockwork = m.clockwork := by
  unfold statusSync
  dsimp only
  split_ifs
  · rfl
  · rw [clockwork_linkQueue]
    rfl

/-- What the end of a Keep debug halt lets go on leaves time as it is (R31). -/
theorem clockwork_keepHaltEnds (m : Mach) : (keepHaltEnds m).clockwork = m.clockwork := by
  have hrest (m : Mach) : (wdRestart (belReleaseHeld m)).clockwork = m.clockwork := rfl
  rw [keepHaltEnds, clockwork_statusSync, hrest, clockwork_octsDapResume, clockwork_lanRestart, clockwork_lanStop, clockwork_chansRestart]

/-! ## What an LCLK edge wakes (R82, R523) -/

theorem coreGoesOn_keep_fields (m : Mach) :
    (coreGoesOn 2 m).tb = m.tb ∧ (coreGoesOn 2 m).pwr = m.pwr ∧ (coreGoesOn 2 m).keepHalted = false := by
  have h := clockwork_keepHaltEnds (m.updCore 2 (fun c => { c with halted := false, step := false, resume := false }))
  simp only [Mach.clockwork, Prod.mk.injEq] at h
  obtain ⟨ht, hp, hc⟩ := h
  rw [coreGoesOn, if_pos rfl]
  refine ⟨by simpa using ht, by simpa using hp, ?_⟩
  rw [Mach.keepHalted, Mach.core, hc]
  exact congrArg Core.halted (Mach.updCore_same ..)

theorem coreGoesOn_lclkMode (m : Mach) : lclkMode (coreGoesOn 2 m) = m.pwr.fSleep := by
  obtain ⟨-, hp, hh⟩ := coreGoesOn_keep_fields m
  rw [lclkMode, hp, hh, Bool.or_false]

theorem wakeKeep_fields (m : Mach) :
    (wakeKeep m).tb = m.tb ∧ (wakeKeep m).pwr.fSleep = false ∧ (wakeKeep m).keepHalted = m.keepHalted := by
  refine ⟨by simp [wakeKeep, pwrRaiseF, wdRestart], by simp [wakeKeep, pwrRaiseF, wdRestart], ?_⟩
  have hcore : (wakeKeep m).core 2 = { m.core 2 with gated := false } := by
    simp [wakeKeep, pwrRaiseF, wdRestart, Mach.updCore, Mach.setCore, Mach.core]
  rw [Mach.keepHalted, hcore]
  rfl

theorem wakeKeep_lclkMode (m : Mach) : lclkMode (wakeKeep m) = m.keepHalted := by
  obtain ⟨-, hs, hh⟩ := wakeKeep_fields m
  simp [lclkMode, hs, hh]

/-- Keep executes again after a reset: time and its modes stay. -/
theorem release_clock (m : Mach) :
    (m.updCore 2 (fun c => { c with held := false })).tb = m.tb ∧
    lclkMode (m.updCore 2 (fun c => { c with held := false })) = lclkMode m := by
  simp [lclkMode, Mach.keepHalted]

theorem lclkWake_tb (m : Mach) : (lclkWake m).tb = m.tb := by
  unfold lclkWake
  extract_lets m1 m2
  have h1 : m1.tb = m.tb := by unfold m1; split_ifs; exacts [(coreGoesOn_keep_fields m).1, rfl]
  have h2 : m2.tb = m1.tb := by unfold m2; split_ifs; exacts [(wakeKeep_fields m1).1, rfl]
  clear_value m2
  split_ifs
  · exact (release_clock m2).1.trans (h2.trans h1)
  · exact h2.trans h1

/-- A wake does not begin LCLK mode. -/
theorem lclkWake_lclkMode_false {m : Mach} (h : lclkMode m = false) : lclkMode (lclkWake m) = false := by
  unfold lclkWake
  extract_lets m1 m2
  have h1 : lclkMode m1 = false := by
    unfold m1
    split_ifs
    · exact (coreGoesOn_lclkMode m).trans (Bool.or_eq_false_iff.mp h).1
    · exact h
  have h2 : lclkMode m2 = false := by
    unfold m2
    split_ifs
    · rw [wakeKeep_lclkMode]
      exact (Bool.or_eq_false_iff.mp h1).2
    · exact h1
  clear_value m2
  split_ifs
  · exact (release_clock m2).2.trans h2
  · exact h2

/-- Where neither a debug halt nor a wake's stage C ends, the mode is as it was. -/
theorem lclkWake_lclkMode_of_none {m : Mach} (hr : (m.core 2).resume = false) (hst : m.pwr.stage ≠ 3) :
    lclkMode (lclkWake m) = lclkMode m := by
  simp only [lclkWake, hr, hst, false_and, Bool.false_eq_true, if_false]
  split_ifs
  · exact (release_clock m).2
  · rfl

/-! ## The advance of FTB and line time (R80, R85) -/

/-- The pair of line time and fraction holds a number below 2^96. -/
theorem lineTime_pair (v : Nat) : ofSigned 64 (v % 2 ^ 96 / 2 ^ 32 : Nat) * 2 ^ 32 + v % 2 ^ 96 % 2 ^ 32 = v % 2 ^ 96 := by
  have hlt : v % 2 ^ 96 / 2 ^ 32 < 2 ^ 64 := by omega
  rw [ofSigned, ← Int.natCast_emod, Int.toNat_natCast, Nat.mod_eq_of_lt hlt, Nat.div_add_mod']

/-- Line time with its fraction advances by d ticks' worth, where no step waits. -/
theorem tbAdvance_lineTime {m : Mach} (h : m.tb.step = 0) (d : Nat) :
    (tbAdvance d m).tb.lt * 2 ^ 32 + (tbAdvance d m).tb.frac =
      (m.tb.lt * 2 ^ 32 + m.tb.frac + d * (2 * 2 ^ 32 + m.rd R.LT_ADDEND)) % 2 ^ 96 := by
  rw [Nat.mul_comm d, ← lineTime_pair]
  simp only [tbAdvance, h, add_zero]

/-! ## The general timers move their own counts -/

/-- The timers' accumulators, loads and counts changed, and no other object. -/
def TimersMoved (m m1 : Mach) : Prop :=
  ∃ pa loads regs, m1 = { m with tb := { m.tb with pa := pa, loads := loads }, regs := regs } ∧
    ∀ o : Obj, (∀ n, o.key ≠ (R.GT_COUNT n).key) → m1.rd o = m.rd o

theorem TimersMoved.refl (m : Mach) : TimersMoved m m := ⟨_, _, _, rfl, fun _ _ => rfl⟩

theorem TimersMoved.trans {a b c : Mach} (x : TimersMoved a b) (y : TimersMoved b c) : TimersMoved a c := by
  obtain ⟨_, _, _, rfl, hx⟩ := x
  obtain ⟨_, _, _, rfl, hy⟩ := y
  exact ⟨_, _, _, rfl, fun o ho => (hy o ho).trans (hx o ho)⟩

theorem timersMoved_pa (l : List (Nat × Nat)) (m : Mach) : TimersMoved m { m with tb := { m.tb with pa := l } } :=
  ⟨_, _, _, rfl, fun _ _ => rfl⟩

theorem timersMoved_loads (l : List (Nat × Nat)) (m : Mach) : TimersMoved m { m with tb := { m.tb with loads := l } } :=
  ⟨_, _, _, rfl, fun _ _ => rfl⟩

theorem timersMoved_count (n v : Nat) (m : Mach) : TimersMoved m (m.wr (R.GT_COUNT n) v) :=
  ⟨_, _, _, rfl, fun _ ho => rd_wr_ne (ho n) ..⟩

theorem timersMoved_counts (l : List (Nat × Nat)) (m : Mach) : TimersMoved m (m.each l (fun e m => m.wr (R.GT_COUNT e.1) e.2)) := by
  induction l generalizing m with
  | nil => exact .refl m
  | cons e l ih => exact (timersMoved_count e.1 e.2 m).trans (ih _)

theorem timersMoved_gtAdvance (n : Fin 16) (d : Nat) (m : Mach) : TimersMoved m (gtAdvance n d m).1 := by
  unfold gtAdvance
  split
  · exact (timersMoved_pa _ m).trans (timersMoved_count ..)
  · split_ifs
    · exact .refl m
    · exact (timersMoved_pa _ m).trans (timersMoved_count ..)

theorem timersMoved_gtAdvancePair (lo hi : Fin 16) (d : Nat) (m : Mach) : TimersMoved m (gtAdvancePair lo hi d m).1 := by
  unfold gtAdvancePair
  dsimp only
  split
  · exact (timersMoved_pa _ m).trans (timersMoved_counts ..)
  · split
    · exact .refl m
    · exact (timersMoved_pa _ m).trans ((timersMoved_count ..).trans (timersMoved_count ..))

theorem timersMoved_gtPairTick (d : Nat) (s : Mach × List (Mach → Mach)) (k : Fin 8) : TimersMoved s.1 (gtPairTick d s k).1 := by
  unfold gtPairTick
  dsimp only
  split_ifs
  · exact timersMoved_gtAdvancePair ..
  · exact (timersMoved_gtAdvance ..).trans (timersMoved_gtAdvance ..)

theorem timersMoved_gtTick (d : Nat) (m : Mach) : TimersMoved m (gtTick d m).1 := by
  have hfold (l : List (Fin 8)) (s : Mach × List (Mach → Mach)) : TimersMoved s.1 (l.foldl (gtPairTick d) s).1 := by
    induction l generalizing s with
    | nil => exact .refl _
    | cons k l ih => exact (timersMoved_gtPairTick d s k).trans (ih _)
  exact (hfold _ (m, [])).trans (timersMoved_loads ..)

/-- The timers leave FTB, line time and LCLK mode as they are. -/
theorem gtTick_fields (d : Nat) (m : Mach) :
    (gtTick d m).1.tb.ftb = m.tb.ftb ∧ (gtTick d m).1.tb.lt = m.tb.lt ∧ (gtTick d m).1.tb.frac = m.tb.frac ∧
    (gtTick d m).1.tb.slowFrom = m.tb.slowFrom ∧ lclkMode (gtTick d m).1 = lclkMode m ∧
    (gtTick d m).1.rd R.FTB_SLOW = m.rd R.FTB_SLOW := by
  obtain ⟨pa, loads, regs, heq, hrd⟩ := timersMoved_gtTick d m
  refine ⟨by simp [heq], by simp [heq], by simp [heq], by simp [heq], by rw [heq]; rfl, hrd _ fun n => ?_⟩
  simp only [Obj.key, R.FTB_SLOW, R.GT_COUNT]
  omega

/-! ## One period of the timebase (R80 to R82) -/

/-- The timebase with its place between LCLK edges one tick on. -/
def lclkOn (m : Mach) : Mach := { m with tb := { m.tb with lclk := (m.tb.lclk + 1) % 128 } }

section
variable {m : Mach}

theorem tbTick_of_none (wake : Mach → Mach) (hs : m.tb.slowFrom = none) : (tbTick wake m).1 =
    if (m.tb.lclk + 1) % 128 = 0 ∧ lclkMode m = true then slowBegin (gtTick 1 (tbAdvance 1 (lclkOn m))).1
    else (gtTick 1 (tbAdvance 1 (lclkOn m))).1 := by
  unfold tbTick
  split
  next =>
    dsimp only
    split_ifs
    · rfl
    · rfl
  next h => simp [hs] at h

theorem tbTick_of_some (wake : Mach → Mach) {start : Nat} (hs : m.tb.slowFrom = some start) : (tbTick wake m).1 =
    if (m.tb.lclk + 1) % 128 ≠ 0 then lclkOn m
    else (gtTick 128 (if lclkMode (wake (tbAdvance 128 (lclkOn m))) = true then wake (tbAdvance 128 (lclkOn m))
      else slowEnd start (wake (tbAdvance 128 (lclkOn m))))).1 := by
  unfold tbTick
  split
  next h => simp [hs] at h
  next st h =>
    obtain rfl := Option.some.inj (hs.symm.trans h)
    dsimp only
    rw [apply_ite Prod.fst]
    rfl

theorem slowEnd_rd (start : Nat) (m : Mach) : (slowEnd start m).rd R.FTB_SLOW = 0 := by
  rw [slowEnd, rd_wr_ne (by decide), rd_inc_ne (by decide), rd_wr_same]

/-- While FCLK counts, FTB and line time advance by one tick, and an LCLK edge that finds FCLK stopped begins LCLK mode. -/
theorem tbTick_counting (wake : Mach → Mach) (hs : m.tb.slowFrom = none) (h0 : m.tb.step = 0) {n : Mach} (hn : (tbTick wake m).1 = n) :
    n.tb.ftb = (m.tb.ftb + 1) % 2 ^ 64 ∧
    n.tb.lt * 2 ^ 32 + n.tb.frac = (m.tb.lt * 2 ^ 32 + m.tb.frac + (2 * 2 ^ 32 + m.rd R.LT_ADDEND)) % 2 ^ 96 ∧
    n.tb.slowFrom = if (m.tb.lclk + 1) % 128 = 0 ∧ lclkMode m = true then some n.tb.ftb else none := by
  have hlt := tbAdvance_lineTime (m := lclkOn m) h0 1
  have hgt := gtTick_fields 1 (tbAdvance 1 (lclkOn m))
  rw [tbTick_of_none wake hs] at hn
  generalize (gtTick 1 (tbAdvance 1 (lclkOn m))).1 = g at hn hgt
  obtain ⟨gftb, glt, gfrac, gslow, -, -⟩ := hgt
  rw [Nat.one_mul, ← glt, ← gfrac] at hlt
  split_ifs at hn with hc
  · subst hn
    exact ⟨gftb, hlt, (if_pos hc).symm⟩
  · subst hn
    exact ⟨gftb, hlt, (gslow.trans hs).trans (if_neg hc).symm⟩

/-- In LCLK mode nothing of the timebase moves between two edges. -/
theorem tbTick_between (wake : Mach → Mach) (hs : m.tb.slowFrom ≠ none) (hk : (m.tb.lclk + 1) % 128 ≠ 0) :
    (tbTick wake m).1 = lclkOn m := by
  obtain ⟨start, hstart⟩ := Option.ne_none_iff_exists'.mp hs
  rw [tbTick_of_some wake hstart, if_pos hk]

/-- An edge in LCLK mode advances FTB and line time by 128 ticks' worth, and ends the mode where it finds FCLK to run again. -/
theorem tbTick_edge (hs : m.tb.slowFrom ≠ none) (hk : (m.tb.lclk + 1) % 128 = 0) (h0 : m.tb.step = 0) {n : Mach}
    (hn : (tbTick lclkWake m).1 = n) :
    n.tb.ftb = (m.tb.ftb + 128) % 2 ^ 64 ∧
    n.tb.lt * 2 ^ 32 + n.tb.frac = (m.tb.lt * 2 ^ 32 + m.tb.frac + 128 * (2 * 2 ^ 32 + m.rd R.LT_ADDEND)) % 2 ^ 96 ∧
    (lclkMode m = false → n.tb.slowFrom = none ∧ n.rd R.FTB_SLOW = 0) ∧
    (lclkMode m = true → (m.core 2).resume = false → m.pwr.stage ≠ 3 → n.tb.slowFrom = m.tb.slowFrom) := by
  obtain ⟨start, hstart⟩ := Option.ne_none_iff_exists'.mp hs
  have hlt := tbAdvance_lineTime (m := lclkOn m) h0 128
  have htb := lclkWake_tb (tbAdvance 128 (lclkOn m))
  have hfalse := lclkWake_lclkMode_false (m := tbAdvance 128 (lclkOn m))
  have hkeep := lclkWake_lclkMode_of_none (m := tbAdvance 128 (lclkOn m))
  rw [tbTick_of_some lclkWake hstart, if_neg (not_not.mpr hk)] at hn
  generalize lclkWake (tbAdvance 128 (lclkOn m)) = w at hn htb hfalse hkeep
  rw [← htb] at hlt
  have hftb : w.tb.ftb = (m.tb.ftb + 128) % 2 ^ 64 := by rw [htb]; rfl
  have hslow : w.tb.slowFrom = m.tb.slowFrom := by rw [htb]; rfl
  cases hw : lclkMode w with
  | false =>
    rw [hw, if_neg Bool.false_ne_true] at hn
    obtain ⟨gftb, glt, gfrac, gslow, -, grd⟩ := gtTick_fields 128 (slowEnd start w)
    rw [hn] at gftb glt gfrac gslow grd
    refine ⟨gftb.trans hftb, by rw [glt, gfrac]; exact hlt, fun _ => ⟨gslow, grd.trans (slowEnd_rd ..)⟩, fun hm hr hst => ?_⟩
    exact absurd ((hkeep hr hst).trans hm) (by simp [hw])
  | true =>
    rw [hw, if_pos rfl] at hn
    obtain ⟨gftb, glt, gfrac, gslow, -, grd⟩ := gtTick_fields 128 w
    rw [hn] at gftb glt gfrac gslow grd
    refine ⟨gftb.trans hftb, by rw [glt, gfrac]; exact hlt, fun hm => ?_, fun _ _ _ => gslow.trans hslow⟩
    exact absurd (hfalse hm) (by simp [hw])
end

/-! ## The other clocks of a tick leave the timebase's counts -/

/-- What `clocks` shows of the timebase: its counts, and FTB_SLOW. -/
def Mach.timeShown (m : Mach) : Timebase × Nat := (m.tb, m.rd R.FTB_SLOW)

@[simp] theorem timeShown_updEnd (s : Side) (f : BarEnd → BarEnd) (m : Mach) : (m.updEnd s f).timeShown = m.timeShown := by
  cases s <;> rfl

theorem timeShown_wr {o : Obj} (h : R.FTB_SLOW.key ≠ o.key) (v : Nat) (m : Mach) : (m.wr o v).timeShown = m.timeShown := by
  simp only [Mach.timeShown, rd_wr_ne h, Mach.wr_fields]

@[simp] theorem timeShown_stateObj (s : Side) (v : Nat) (m : Mach) : (m.wr (stateObj s) v).timeShown = m.timeShown :=
  timeShown_wr (by cases s <;> decide) ..

@[simp] theorem timeShown_lanesObj (s : Side) (v : Nat) (m : Mach) : (m.wr (lanesObj s) v).timeShown = m.timeShown :=
  timeShown_wr (by cases s <;> decide) ..

@[simp] theorem timeShown_putRailH (v : Nat) (m : Mach) : (putRailH v m).timeShown = m.timeShown :=
  (timeShown_wr (by decide) v _).trans rfl

@[simp] theorem timeShown_putRailF (v : Nat) (m : Mach) : (putRailF v m).timeShown = m.timeShown :=
  (timeShown_wr (by decide) v _).trans rfl

theorem timeShown_statusShow (m : Mach) : (statusShow m).timeShown = m.timeShown := by
  simp [statusShow, barShow]

theorem timeShown_barClock (s : Side) (m : Mach) : (barClock s m).timeShown = m.timeShown := timeShown_updEnd ..

theorem timeShown_barRelease (s : Side) (m : Mach) : (barRelease s m).timeShown = m.timeShown := by
  have htrain : (barTrain s m).timeShown = m.timeShown := by simp [barTrain, barEnter]
  unfold barRelease
  rw [apply_ite Mach.timeShown, htrain, ite_self]

theorem timeShown_coreClock (m : Mach) : (coreClock m).timeShown = m.timeShown :=
  each_keeps (fun i m => by dsimp only; split_ifs <;> rfl) _ m

theorem timeShown_vmClock (old m : Mach) : (vmClock old m).timeShown = m.timeShown := by
  unfold vmClock
  split_ifs
  · exact each_keeps (fun v m => by unfold vmHeld; dsimp only; split_ifs <;> rfl) _ m
  · rfl
  · exact each_keeps (fun v m => by unfold vmTick; dsimp only; split_ifs <;> rfl) _ m

theorem timeShown_octsSee (l : List Nat) (m : Mach) : (m.each l octSees).timeShown = m.timeShown :=
  each_keeps (fun o m => by unfold octSees; dsimp only; split_ifs <;> rfl) l m

theorem hostClock_timeShown (m : Mach) :
    (hostClock m).tb = { m.tb with sclk := (hostClock m).tb.sclk, hlt2 := (hostClock m).tb.hlt2 } ∧
    (hostClock m).rd R.FTB_SLOW = m.rd R.FTB_SLOW := by
  unfold hostClock
  dsimp only
  split_ifs <;> exact ⟨rfl, rfl⟩

/-- The records that end with a tick are none of the timebase's. -/
theorem tickForget_fields (m : Mach) : (tickForget m).tb = m.tb ∧ (tickForget m).cores = m.cores ∧ (tickForget m).pwr = m.pwr ∧
    (tickForget m).regs = m.regs := by
  unfold tickForget lanForget
  split_ifs <;> simp

/-- Of the timebase, `clocks` makes what its tick makes of it, and host time beside that. -/
theorem clocks_timeShown (m : Mach) : ∃ sclk hlt2 : Nat,
    (clocks m).1.tb = { (tbTick lclkWake (tickForget m)).1.tb with sclk := sclk, hlt2 := hlt2 } ∧
    (clocks m).1.rd R.FTB_SLOW = (tbTick lclkWake (tickForget m)).1.rd R.FTB_SLOW := by
  obtain ⟨htb, hrd⟩ := hostClock_timeShown (tbTick lclkWake (tickForget m)).1
  have h : (clocks m).1.timeShown = (hostClock (tbTick lclkWake (tickForget m)).1).timeShown := by
    unfold clocks
    dsimp only
    rw [timeShown_octsSee, timeShown_barRelease, timeShown_barRelease, timeShown_barClock, timeShown_barClock, timeShown_statusShow,
      timeShown_vmClock, timeShown_coreClock]
  obtain ⟨h1, h2⟩ := Prod.mk.inj h
  exact ⟨_, _, h1.trans htb, h2.trans hrd⟩

/-- Settles O51: a step on an empty queue is `idle`, which ends the tick, runs the clocks and begins the next; of the timebase the
clocks make what `tbTick` makes of it. -/
theorem tickAdvances : Obligations.TickAdvances := by
  unfold Obligations.TickAdvances
  refine ⟨fun s h => ?_, fun s t u ht hu => ?_, fun s => rfl, ?_⟩
  · simp [step, h]
  · simp [idle, ht, hu]
  · rintro m n rfl h0
    obtain ⟨sclk, hlt2, htb, hrd⟩ := clocks_timeShown m
    obtain ⟨ftb, fcores, fpwr, fregs⟩ := tickForget_fields m
    have fmode : lclkMode (tickForget m) = lclkMode m := by simp only [lclkMode, Mach.keepHalted, Mach.core, fcores, fpwr]
    have frd (o : Obj) : (tickForget m).rd o = m.rd o := by simp only [Mach.rd, fregs]
    have fcore : (tickForget m).core 2 = m.core 2 := by simp only [Mach.core, fcores]
    rw [hrd, htb]
    refine ⟨fun hs => ?_, fun hs hk => ?_, fun hs hk => ?_⟩
    · have h := tbTick_counting (m := tickForget m) lclkWake (by rw [ftb, hs]) (by rw [ftb, h0]) rfl
      rwa [ftb, fmode, frd] at h
    · rw [tbTick_between (m := tickForget m) lclkWake (by rwa [ftb]) (by rwa [ftb])]
      simp [lclkOn, ftb]
    · have h := tbTick_edge (m := tickForget m) (by rwa [ftb]) (by rwa [ftb]) (by rw [ftb, h0]) rfl
      rwa [ftb, fmode, frd, fcore, fpwr] at h

end Sys2Proof.Machine

/-! # O31: strobe, calibration, beacon and the barrier's ECHO

The servo answers a beacon in three moves: it notes the error, then steps line time or steers the addend, then judges LOCKED. What each
move writes and what it leaves is said once; the commands are their effects. -/

namespace Sys2Proof.Machine

theorem bit_setBit_same (b v : Nat) : bit b (setBit b v) = true := bit_putBit_same b true v

/-! ## Events and messages of an end -/

@[simp] theorem barRaise_fields (s : Side) (b : Nat) (m : Mach) :
    (barRaise s b m).alarms = m.alarms ∧ (barRaise s b m).notes = m.notes ∧
    (barRaise s b m).bar = m.bar := by
  cases s <;> simp [barRaise]

theorem barRaise_host_rd {o : Obj} (h : o.key ≠ R.BAR_H_EVT.key) (b : Nat) (m : Mach) : (barRaise .host b m).rd o = m.rd o := rd_raise h

theorem barRaise_field_rd {o : Obj} (h : o.key ≠ R.BAR_F_EVT.key) (b : Nat) (m : Mach) : (barRaise .field b m).rd o = m.rd o := rd_raise h

theorem barRaise_host_bit (b : Nat) (m : Mach) : bit b ((barRaise .host b m).rd R.BAR_H_EVT) = true := by
  rw [barRaise, rd_raise_same, bit_setBit_same]

theorem barRaise_field_bit (b : Nat) (m : Mach) : bit b ((barRaise .field b m).rd R.BAR_F_EVT) = true := by
  rw [barRaise, rd_raise_same, bit_setBit_same]

/-- A message to send leaves the timebase, and the strobe pair's part of the barrier. -/
@[simp] theorem linkQueue_strobe (s : Side) (typ : Nat) (p : List Byte) (m : Mach) :
    (linkQueue s typ p m).tb = m.tb ∧ (linkQueue s typ p m).bar.strobe = m.bar.strobe ∧
    (linkQueue s typ p m).bar.lastStrobe = m.bar.lastStrobe ∧ calRuns (linkQueue s typ p m) = calRuns m := by
  unfold linkQueue
  split
  · cases s <;> simp [Mach.updEnd, calRuns]
  · simp

@[simp] theorem linkQueue_rd (s : Side) (typ : Nat) (p : List Byte) (o : Obj) (m : Mach) : (linkQueue s typ p m).rd o = m.rd o := by
  simp [Mach.rd]

/-! ## The servo's status word -/

@[simp] theorem servoBit_fields (b : Nat) (v : Bool) (m : Mach) :
    (servoBit b v m).tb = m.tb ∧ (servoBit b v m).bar = m.bar ∧ (servoBit b v m).alarms = m.alarms ∧
    (servoBit b v m).notes = m.notes := by
  unfold servoBit ltNotify
  split_ifs <;> simp

theorem servoBit_rd {o : Obj} (h : o.key ≠ R.LT_SERVO_STATUS.key) (b : Nat) (v : Bool) (m : Mach) : (servoBit b v m).rd o = m.rd o := by
  unfold servoBit
  split_ifs
  · rfl
  · exact rd_putBit_ne h ..

theorem bit_servoBit (j b : Nat) (v : Bool) (m : Mach) : bit j ((servoBit b v m).rd R.LT_SERVO_STATUS) =
    if j = b then v else bit j (m.rd R.LT_SERVO_STATUS) := by
  have hput : bit j ((ltNotify (m.putBit R.LT_SERVO_STATUS b v)).rd R.LT_SERVO_STATUS) =
      if j = b then v else bit j (m.rd R.LT_SERVO_STATUS) := by
    rw [ltNotify, assertSrc_rd, rd_putBit_same]
    split_ifs with hj
    · rw [hj, bit_putBit_same]
    · exact bit_putBit_ne hj ..
  unfold servoBit
  split_ifs at hput ⊢ with hv hj
  · rw [hj, hv]
  · rfl
  · exact hput
  · exact hput

/-! ## What an answer to an error leaves -/

/-- The reference point, the error, HOLDOVER, and all outside the timebase that a beacon's message goes by, are as they were. -/
structure ErrorKept (m m1 : Mach) : Prop where
  bar : m1.bar = m.bar
  alarms : m1.alarms = m.alarms
  notes : m1.notes = m.notes
  ref : m1.tb.ref = m.tb.ref
  err : m1.rd R.LT_BEACON_ERR = m.rd R.LT_BEACON_ERR
  holdover : bit 1 (m1.rd R.LT_SERVO_STATUS) = bit 1 (m.rd R.LT_SERVO_STATUS)

theorem ErrorKept.refl (m : Mach) : ErrorKept m m := ⟨rfl, rfl, rfl, rfl, rfl, rfl⟩

theorem ErrorKept.trans {a b c : Mach} (x : ErrorKept a b) (y : ErrorKept b c) : ErrorKept a c :=
  ⟨y.bar.trans x.bar, y.alarms.trans x.alarms, y.notes.trans x.notes, y.ref.trans x.ref, y.err.trans x.err, y.holdover.trans x.holdover⟩

theorem errorKept_servoBit {b : Nat} (h : b ≠ 1) (v : Bool) (m : Mach) : ErrorKept m (servoBit b v m) :=
  ⟨by simp, by simp, by simp, by simp, servoBit_rd (by decide) .., by rw [bit_servoBit, if_neg h.symm]⟩

theorem errorKept_putBit {b : Nat} (h : b ≠ 1) (v : Bool) (m : Mach) : ErrorKept m (m.putBit R.LT_SERVO_STATUS b v) :=
  ⟨by simp, by simp, by simp, by simp, rd_putBit_ne (by decide) .., by rw [rd_putBit_same, bit_putBit_ne h.symm]⟩

theorem errorKept_wr {o : Obj} (he : R.LT_BEACON_ERR.key ≠ o.key) (hs : R.LT_SERVO_STATUS.key ≠ o.key) (v : Nat) (m : Mach) :
    ErrorKept m (m.wr o v) :=
  ⟨by simp, by simp, by simp, by simp, rd_wr_ne he .., by rw [rd_wr_ne hs]⟩

theorem errorKept_servoUnlock (m : Mach) : ErrorKept m (servoUnlock m) :=
  .trans (b := { m with tb := { m.tb with good := 0 } }) ⟨rfl, rfl, rfl, rfl, rfl, rfl⟩ (errorKept_servoBit (b := 0) (by decide) ..)

theorem errorKept_addend (v : Nat) (m : Mach) : ErrorKept m (m.wr R.LT_ADDEND v) := errorKept_wr (by decide) (by decide) ..

theorem errorKept_integral (v : Nat) (m : Mach) : ErrorKept m (m.wr R.LT_INTEGRAL v) := errorKept_wr (by decide) (by decide) ..

theorem errorKept_ltStepBy (v : Int) (m : Mach) : ErrorKept m (ltStepBy v m) := by
  refine .trans (b := { m with tb := { m.tb with step := m.tb.step + v } }.inc R.LT_STEP_COUNT) ?_ (errorKept_servoUnlock _)
  exact ⟨by simp, by simp, by simp, by simp, rd_inc_ne (by decide) .., by rw [rd_inc_ne (by decide)]; rfl⟩

/-! ## A step of line time (R91) -/

theorem errorKept_servoStep (e : Int) (m : Mach) : ErrorKept m (servoStep e m) := by
  have hstep : ErrorKept m ((ltStepBy e m).putBit R.LT_SERVO_STATUS 2 true) :=
    (errorKept_ltStepBy e m).trans (errorKept_putBit (b := 2) (by decide) ..)
  have hnote : ErrorKept m (ltNotify ((ltStepBy e m).putBit R.LT_SERVO_STATUS 2 true)) := hstep.trans ⟨rfl, rfl, rfl, rfl, rfl, rfl⟩
  exact hnote.trans ((errorKept_integral ..).trans (errorKept_addend ..))

theorem servoStep_does (e : Int) (m : Mach) :
    (servoStep e m).tb.step = m.tb.step + e ∧ (servoStep e m).rd R.LT_ADDEND = 0x80000000 ∧ (servoStep e m).rd R.LT_INTEGRAL = 0 ∧
    bit 0 ((servoStep e m).rd R.LT_SERVO_STATUS) = false ∧ bit 2 ((servoStep e m).rd R.LT_SERVO_STATUS) = true := by
  have hstatus : (servoStep e m).rd R.LT_SERVO_STATUS = putBit 2 true ((ltStepBy e m).rd R.LT_SERVO_STATUS) := by
    rw [servoStep, rd_wr_ne (by decide), rd_wr_ne (by decide), ltNotify, assertSrc_rd, rd_putBit_same]
  refine ⟨?_, rd_wr_same .., ?_, ?_, ?_⟩
  · simp [servoStep, ltNotify, ltStepBy, servoUnlock]
  · rw [servoStep, rd_wr_ne (by decide), rd_wr_same]
  · rw [hstatus, bit_putBit_ne (by decide), ltStepBy, servoUnlock, bit_servoBit, if_pos rfl]
  · rw [hstatus, bit_putBit_same]

/-! ## The tracking of line time (R91) -/

/-- The new integral and the addend that mode HW takes for an error. -/
def servoSteer (ai addend : Int) (m : Mach) : Mach :=
  ((m.putBit R.LT_SERVO_STATUS 2 false).wr R.LT_ADDEND addend.toNat).wrI 32 R.LT_INTEGRAL ai

/-- LOCKED after one more beacon, near or not. -/
def servoJudge (near : Bool) (m : Mach) : Mach :=
  if near then
    let m2 := { m with tb := { m.tb with good := m.tb.good + 1 } }
    if 8 ≤ m2.tb.good ∧ m2.bar.calDone then servoBit 0 true m2 else m2
  else servoUnlock m

theorem errorKept_servoJudge (near : Bool) (m : Mach) : ErrorKept m (servoJudge near m) := by
  unfold servoJudge
  dsimp only
  split_ifs
  · exact .trans (b := { m with tb := { m.tb with good := m.tb.good + 1 } }) ⟨rfl, rfl, rfl, rfl, rfl, rfl⟩
      (errorKept_servoBit (b := 0) (by decide) ..)
  · exact ⟨rfl, rfl, rfl, rfl, rfl, rfl⟩
  · exact errorKept_servoUnlock m

/-- The judgement of LOCKED leaves a waiting step, the other objects and the other bits of its word. -/
theorem servoJudge_leaves (near : Bool) (m : Mach) :
    (servoJudge near m).tb.step = m.tb.step ∧
    (∀ o : Obj, o.key ≠ R.LT_SERVO_STATUS.key → (servoJudge near m).rd o = m.rd o) ∧
    bit 2 ((servoJudge near m).rd R.LT_SERVO_STATUS) = bit 2 (m.rd R.LT_SERVO_STATUS) := by
  unfold servoJudge servoUnlock
  dsimp only
  split_ifs
  · exact ⟨by simp, fun o ho => servoBit_rd ho .., by rw [bit_servoBit]; rfl⟩
  · exact ⟨rfl, fun _ _ => rfl, rfl⟩
  · exact ⟨by simp, fun o ho => servoBit_rd ho .., by rw [bit_servoBit]; rfl⟩

/-- The integral of mode HW after an error (R91). -/
def servoIntegral (e : Int) (m : Mach) : Int :=
  clampInt (-0x0051EB85) 0x0051EB85
    (m.rdI 32 R.LT_INTEGRAL + (m.rd R.LT_KI * e * 2 ^ 32).tdiv (102400 * m.rd R.BAR_STROBE_INT))

/-- The addend of mode HW after an error (R91). -/
def servoAddend (e : Int) (m : Mach) : Int :=
  ltAddendClamp (0x80000000 + servoIntegral e m + (m.rd R.LT_KP * e * 2 ^ 32).tdiv (102400 * m.rd R.BAR_STROBE_INT))

theorem servoTrack_eq (e : Int) (m : Mach) :
    servoTrack e m = servoJudge (decide (e.natAbs ≤ m.rd R.LT_LOCK_THRESH)) (servoSteer (servoIntegral e m) (servoAddend e m) m) := by
  have hint : ((256 * strobeTicks m : Nat) : Int) = 102400 * m.rd R.BAR_STROBE_INT := by
    rw [strobeTicks]
    omega
  simp only [servoTrack, servoJudge, servoSteer, servoIntegral, servoAddend, hint, decide_eq_true_eq]
  rfl

theorem servoTrack_does (e : Int) (m : Mach) :
    (servoTrack e m).tb.step = m.tb.step ∧ bit 2 ((servoTrack e m).rd R.LT_SERVO_STATUS) = false ∧
    (servoTrack e m).rd R.LT_INTEGRAL = ofSigned 32 (servoIntegral e m) ∧ (servoTrack e m).rd R.LT_ADDEND = (servoAddend e m).toNat := by
  obtain ⟨hstep, hrd, hbit⟩ := servoJudge_leaves (decide (e.natAbs ≤ m.rd R.LT_LOCK_THRESH))
    (servoSteer (servoIntegral e m) (servoAddend e m) m)
  rw [servoTrack_eq, hstep, hbit, hrd R.LT_INTEGRAL (by decide), hrd R.LT_ADDEND (by decide)]
  refine ⟨by simp [servoSteer], ?_, ?_, ?_⟩
  · rw [servoSteer, Mach.wrI, rd_wr_ne (by decide), rd_wr_ne (by decide), rd_putBit_same, bit_putBit_same]
  · exact rd_wr_same ..
  · rw [servoSteer, Mach.wrI, rd_wr_ne (by decide), rd_wr_same]

theorem errorKept_servoTrack (e : Int) (m : Mach) : ErrorKept m (servoTrack e m) := by
  rw [servoTrack_eq]
  have hbit : ErrorKept m (m.putBit R.LT_SERVO_STATUS 2 false) := errorKept_putBit (b := 2) (by decide) ..
  exact hbit.trans ((errorKept_addend ..).trans ((errorKept_integral ..).trans (errorKept_servoJudge ..)))

/-! ## The answer to a beacon (R90, R91) -/

/-- The machine once a beacon's error is noted: its reference point is the capture, and HOLDOVER ends. -/
def beaconNote (e : Int) (at_ : Nat) (m : Mach) : Mach :=
  servoBit 1 false ({ m with tb := { m.tb with ref := at_ } }.wrI 32 R.LT_BEACON_ERR (satSigned 32 e))

@[simp] theorem beaconNote_fields (e : Int) (at_ : Nat) (m : Mach) :
    (beaconNote e at_ m).bar = m.bar ∧ (beaconNote e at_ m).alarms = m.alarms ∧ (beaconNote e at_ m).notes = m.notes ∧
    (beaconNote e at_ m).tb.ref = at_ ∧ (beaconNote e at_ m).tb.step = m.tb.step := by
  simp [beaconNote]

theorem beaconNote_error (e : Int) (at_ : Nat) (m : Mach) :
    (beaconNote e at_ m).rd R.LT_BEACON_ERR = ofSigned 32 (satSigned 32 e) ∧
    bit 1 ((beaconNote e at_ m).rd R.LT_SERVO_STATUS) = false := by
  refine ⟨(servoBit_rd (by decide) ..).trans (rd_wr_same ..), ?_⟩
  rw [beaconNote, bit_servoBit, if_pos rfl]

theorem beaconNote_rd {o : Obj} (hs : o.key ≠ R.LT_SERVO_STATUS.key) (he : o.key ≠ R.LT_BEACON_ERR.key) (e : Int) (at_ : Nat)
    (m : Mach) :
    (beaconNote e at_ m).rd o = m.rd o :=
  (servoBit_rd hs ..).trans (rd_wr_ne he ..)

/-- What the servo reads for its answer is not changed by the note. -/
theorem servo_of_beaconNote (e : Int) (at_ : Nat) (m : Mach) :
    servoIntegral e (beaconNote e at_ m) = servoIntegral e m ∧ servoAddend e (beaconNote e at_ m) = servoAddend e m := by
  have hint : servoIntegral e (beaconNote e at_ m) = servoIntegral e m := by
    simp only [servoIntegral, Mach.rdI, beaconNote_rd (o := R.LT_INTEGRAL) (by decide) (by decide),
      beaconNote_rd (o := R.LT_KI) (by decide) (by decide), beaconNote_rd (o := R.BAR_STROBE_INT) (by decide) (by decide)]
  refine ⟨hint, ?_⟩
  rw [servoAddend, servoAddend, hint, beaconNote_rd (o := R.LT_KP) (by decide) (by decide),
    beaconNote_rd (o := R.BAR_STROBE_INT) (by decide) (by decide)]

/-- The error of a beacon (R90). -/
def beaconError (host cap : Nat) (m : Mach) : Int := toSigned 64 (ofSigned 64 ((host : Int) - cap)) - calRounded m

/-- In mode HW the servo steps line time or tracks it; in the others it notes the error alone. -/
theorem beaconServo_eq {host cap at_ : Nat} {m : Mach} {e : Int} (he : e = beaconError host cap m) :
    (m.rd R.LT_SERVO_MODE ≠ 1 → beaconServo host cap at_ m = beaconNote e at_ m) ∧
    (m.rd R.LT_SERVO_MODE = 1 → m.rd R.LT_STEP_THRESH < e.natAbs → beaconServo host cap at_ m = servoStep e (beaconNote e at_ m)) ∧
    (m.rd R.LT_SERVO_MODE = 1 → e.natAbs ≤ m.rd R.LT_STEP_THRESH →
      beaconServo host cap at_ m = servoTrack e (beaconNote e at_ m)) := by
  subst he
  unfold beaconServo
  refine ⟨fun h => if_neg h, fun h hs => (if_pos h).trans (if_pos hs), fun h hs => (if_pos h).trans (if_neg ?_)⟩
  exact Nat.not_lt.mpr hs

/-- Whatever the servo does with an error, the note of it stands. -/
theorem errorKept_beaconServo (host cap at_ : Nat) (m : Mach) :
    ErrorKept (beaconNote (beaconError host cap m) at_ m) (beaconServo host cap at_ m) := by
  obtain ⟨hother, hstep, htrack⟩ := beaconServo_eq (host := host) (cap := cap) (at_ := at_) (m := m) rfl
  by_cases hm : m.rd R.LT_SERVO_MODE = 1
  · obtain hs | hs := Nat.lt_or_ge (m.rd R.LT_STEP_THRESH) (beaconError host cap m).natAbs
    · exact hstep hm hs ▸ errorKept_servoStep ..
    · exact htrack hm hs ▸ errorKept_servoTrack ..
  · exact hother hm ▸ .refl _

/-- The field with its capture taken out. -/
def captureTaken (m : Mach) : Mach := { m with bar := { m.bar with strobe := none } }

@[simp] theorem captureTaken_fields (m : Mach) :
    (captureTaken m).tb = m.tb ∧ (captureTaken m).alarms = m.alarms ∧ (captureTaken m).notes = m.notes ∧
    (captureTaken m).bar.strobe = none := ⟨rfl, rfl, rfl, rfl⟩

section
variable {s : State} {f : LinkFrame} {p : List Byte} {m : Mach} {n cap at_ : Nat} (hs : Settled s) (ha : Arrives .field 4 p f s m)
  (hc : m.bar.strobe = some (n, cap, at_))
include hs ha hc

/-- A beacon without a capture of its number is discarded. -/
theorem to_beacon_discarded (hn : n ≠ fieldAt 8 4 p) : To (.beacon f) s m := by
  obtain ⟨hal, hno⟩ := settled_of_arrives hs ha
  have heq : beaconContent p m = m := by simp [beaconContent, hc, hn]
  have hto := to_message (c := .beacon f) (act := beaconContent) rfl ha (by rw [heq, hal]) (by rw [heq, hno])
  rwa [heq] at hto

/-- A beacon with a capture of its number goes to the servo, and what the servo made of it is reported. -/
theorem to_beacon_served (hn : n = fieldAt 8 4 p) : ∃ l, To (.beacon f) s
    (linkQueue .field 5 l (beaconServo (fieldAt 0 8 p) cap at_ (captureTaken m))) := by
  obtain ⟨hal, hno⟩ := settled_of_arrives hs ha
  have hkeep := errorKept_beaconServo (fieldAt 0 8 p) cap at_ (captureTaken m)
  have heq : ∃ l, beaconContent p m = linkQueue .field 5 l (beaconServo (fieldAt 0 8 p) cap at_ (captureTaken m)) := by
    simp only [beaconContent, hc, if_pos hn]
    exact ⟨_, rfl⟩
  obtain ⟨l, heq⟩ := heq
  refine ⟨l, heq ▸ to_message (c := .beacon f) (act := beaconContent) rfl ha ?_ ?_⟩
  · simp [heq, hkeep.alarms, hal]
  · simp [heq, hkeep.notes, hno]

/-- What a served beacon leaves in the field (R90, R91). -/
theorem beacon_goes (hn : n = fieldAt 8 4 p) {e : Int} (he : e = beaconError (fieldAt 0 8 p) cap m) :
    Goes (.beacon f) s (fun t => t.bar.strobe = none ∧ t.tb.ref = at_ ∧
      t.rd R.LT_BEACON_ERR = ofSigned 32 (satSigned 32 e) ∧ bit 1 (t.rd R.LT_SERVO_STATUS) = false ∧
      (m.rd R.LT_SERVO_MODE ≠ 1 → t.rd R.LT_ADDEND = m.rd R.LT_ADDEND ∧ t.tb.step = m.tb.step) ∧
      (m.rd R.LT_SERVO_MODE = 1 → m.rd R.LT_STEP_THRESH < e.natAbs → t.tb.step = m.tb.step + e ∧
        t.rd R.LT_ADDEND = 0x80000000 ∧ t.rd R.LT_INTEGRAL = 0 ∧ bit 0 (t.rd R.LT_SERVO_STATUS) = false ∧
        bit 2 (t.rd R.LT_SERVO_STATUS) = true) ∧
      (m.rd R.LT_SERVO_MODE = 1 → e.natAbs ≤ m.rd R.LT_STEP_THRESH →
        t.tb.step = m.tb.step ∧ bit 2 (t.rd R.LT_SERVO_STATUS) = false ∧ t.rd R.LT_INTEGRAL = ofSigned 32 (servoIntegral e m) ∧
        t.rd R.LT_ADDEND = (servoAddend e m).toNat)) := by
  have hec : e = beaconError (fieldAt 0 8 p) cap (captureTaken m) := he
  obtain ⟨l, hto⟩ := to_beacon_served hs ha hc hn
  obtain ⟨hother, hstep, htrack⟩ := beaconServo_eq (at_ := at_) hec
  obtain ⟨herr, hover⟩ := beaconNote_error e at_ (captureTaken m)
  have hkeep := errorKept_beaconServo (fieldAt 0 8 p) cap at_ (captureTaken m)
  rw [← hec] at hkeep
  obtain ⟨qtb, qstrobe, -⟩ := linkQueue_strobe .field 5 l (beaconServo (fieldAt 0 8 p) cap at_ (captureTaken m))
  refine Goes.of_to hto ?_
  simp only [qtb, qstrobe, linkQueue_rd]
  refine ⟨by simp [hkeep.bar], by simp [hkeep.ref], hkeep.err.trans herr, hkeep.holdover.trans hover, fun h => ?_,
    fun h hs => ?_, fun h hs => ?_⟩
  · rw [hother h]
    exact ⟨beaconNote_rd (by decide) (by decide) .., by simp⟩
  · rw [hstep h hs]
    simpa using servoStep_does e (beaconNote e at_ (captureTaken m))
  · obtain ⟨hint, hadd⟩ := servo_of_beaconNote e at_ (captureTaken m)
    obtain ⟨hwait, hbit, hi, ha⟩ := servoTrack_does e (beaconNote e at_ (captureTaken m))
    rw [htrack h hs]
    exact ⟨hwait.trans (by simp), hbit, hi.trans (congrArg (ofSigned 32) hint), ha.trans (congrArg Int.toNat hadd)⟩
end

/-! ## Strobes (R432) -/

/-- The host with a strobe of the next number on its way, and its BEACON still to be queued. -/
def strobeLeaves (m : Mach) : Mach :=
  ({ m with bar := { m.bar with lastStrobe := m.hlt } }.wr R.BAR_H_STROBE_NUM ((m.rd R.BAR_H_STROBE_NUM + 1) % 2 ^ 32)).send .strobe
    [(m.rd R.BAR_H_STROBE_NUM + 1) % 2 ^ 32, m.hlt]

theorem strobeLeaves_fields (m : Mach) :
    (strobeLeaves m).alarms = m.alarms ∧ (strobeLeaves m).notes = m.notes ∧ (strobeLeaves m).bar.lastStrobe = m.hlt ∧
    (strobeLeaves m).bar.h = m.bar.h ∧ (strobeLeaves m).rd R.BAR_H_STROBE_NUM = (m.rd R.BAR_H_STROBE_NUM + 1) % 2 ^ 32 :=
  ⟨rfl, rfl, rfl, rfl, rd_wr_same ..⟩

section
variable {s : State} (hs : Settled s)
include hs

/-- A strobe takes the next number, and while LINKED its BEACON follows. -/
theorem strobeSend_goes (hst : s.m.barState .host ≠ 0) (ho : s.m.hostOff = false) : Goes .strobeSend s (fun m =>
    m.rd R.BAR_H_STROBE_NUM = (s.m.rd R.BAR_H_STROBE_NUM + 1) % 2 ^ 32 ∧ m.bar.lastStrobe = s.m.hlt ∧
    (s.m.linked .host = true → m.bar.h.queue = s.m.bar.h.queue ++
      [(3, ⟨4, toLe 8 s.m.hlt ++ toLe 4 ((s.m.rd R.BAR_H_STROBE_NUM + 1) % 2 ^ 32)⟩)])) := by
  obtain ⟨hal, hno, hlast, hhost, hnum⟩ := strobeLeaves_fields s.m
  have heff : strobeSendEffect s.m = linkQueue .host 4
      (toLe 8 s.m.hlt ++ toLe 4 ((s.m.rd R.BAR_H_STROBE_NUM + 1) % 2 ^ 32)) (strobeLeaves s.m) := if_neg (by simp [hst, ho])
  refine Goes.of_to (done_quiet heff (by simpa [hal] using hs.1) (by simpa [hno] using hs.2)) ⟨?_, by simpa using hlast, fun hl => ?_⟩
  · rw [linkQueue_rd, hnum]
  · have hl1 : (strobeLeaves s.m).linked .host = true := by simpa [Mach.linked, Mach.barState, Mach.barEnd, hhost] using hl
    rw [linkQueue_linked hl1, ← hhost]
    rfl
end

/-! ## Calibration (R433, R550) -/

/-- The host with a calibration begun. -/
def calBegun (m : Mach) : Mach := { m with bar := { m.bar with
  calLeft := 64, calAt := m.tb.sclk, echoes := [], calGot := 0, calSum := 0, lastCal := m.hlt } }

theorem calStartEffect_linked {m : Mach} (h : m.linked .host = true) : calStartEffect m = calBegun m := if_pos h

theorem calEcho_early {m : Mach} (h : m.bar.calGot + 1 ≠ 64) :
    (calEcho m).bar.calGot = m.bar.calGot + 1 ∧ (calEcho m).bar.echoes = m.bar.echoes.drop 1 := by
  simp [calEcho, h]

theorem calStrobe_bar (m : Mach) : (calStrobe m).bar.calLeft = m.bar.calLeft - 1 ∧ (calStrobe m).bar.calAt = m.bar.calAt + 8000 ∧
    (lclkMode m = false → (calStrobe m).bar.echoes = m.bar.echoes ++ [m.now + 16]) := by
  refine ⟨rfl, rfl, fun h => ?_⟩
  simp [calStrobe, h]

@[simp] theorem calStop_fields (m : Mach) :
    calRuns (calStop m) = false ∧ (calStop m).alarms = m.alarms ∧ (calStop m).notes = m.notes := ⟨rfl, rfl, rfl⟩

@[simp] theorem calRuns_wr (o : Obj) (v : Nat) (m : Mach) : calRuns (m.wr o v) = calRuns m := rfl

@[simp] theorem calRuns_barRaise (s : Side) (b : Nat) (m : Mach) : calRuns (barRaise s b m) = calRuns m := by
  simp [calRuns]

section
variable {s : State} (hs : Settled s)
include hs

/-- The end of a calibration: d of the mean round trip, rounded toward 0, goes to the object and to the field. -/
theorem calibrationComplete_goes {rtt : Word} {d : Int} (hr : calRuns s.m = true)
    (hd : d = ((rtt.toNat : Int) - 39375).tdiv 2 + s.m.rdI 16 R.BAR_H_ASYM) :
    Goes (.calibrationComplete rtt) s (fun m => calRuns m = false ∧ m.rd R.BAR_H_RTT = rtt.toNat ∧
      m.rd R.BAR_H_CAL_DELAY = ofSigned 32 d ∧ bit 4 (m.rd R.BAR_H_EVT) = true) := by
  have heff : calCompleteEffect rtt.toNat s.m = barRaise .host 4 (linkQueue .host 6 (toLe 4 (ofSigned 32 d) ++ toLe 4 64)
      (((calStop s.m).wr R.BAR_H_RTT rtt.toNat).wrI 32 R.BAR_H_CAL_DELAY d)) := by
    subst hd
    exact if_pos hr
  refine Goes.of_to (done_quiet heff (by simpa using hs.1) (by simpa using hs.2)) ⟨?_, ?_, ?_, barRaise_host_bit ..⟩
  · simp [Mach.wrI]
  · rw [barRaise_host_rd (by decide), linkQueue_rd, Mach.wrI, rd_wr_ne (by decide), rd_wr_same]
  · rw [barRaise_host_rd (by decide), linkQueue_rd, Mach.wrI, rd_wr_same]

/-- The field takes the delay of a STROBE_CAL into force. -/
theorem strobeCal_goes {f : LinkFrame} {p : List Byte} {m : Mach} (ha : Arrives .field 6 p f s m) :
    Goes (.strobeCal f) s (fun t => t.bar.calNs = toSigned 32 (fieldAt 0 4 p) ∧ t.bar.calDone = true ∧
      t.rd R.BAR_F_CAL_DELAY = fieldAt 0 4 p ∧ bit 4 (t.rd R.BAR_F_EVT) = true) := by
  obtain ⟨hal, hno⟩ := settled_of_arrives hs ha
  have hto := to_message (c := .strobeCal f) (act := strobeCalContent) rfl ha (by simpa [strobeCalContent] using hal)
    (by simpa [strobeCalContent] using hno)
  refine Goes.of_to hto ⟨by simp [strobeCalContent], by simp [strobeCalContent], ?_, barRaise_field_bit ..⟩
  exact (barRaise_field_rd (by decide) ..).trans (rd_wr_same ..)

/-! ## ECHO (R426, R441) -/

theorem echoMessage_to {side : Side} {f : LinkFrame} {r : Byte} {p : List Byte} {m : Mach} (ha : Arrives side 20 (r :: p) f s m) :
    (bit 0 r.toNat = true → To (.echoMessage side f) s (barRaise side 8 m)) ∧
    (bit 0 r.toNat = false → To (.echoMessage side f) s (linkQueue side 20 ((r ||| 1) :: p) m)) := by
  obtain ⟨hal, hno⟩ := settled_of_arrives hs ha
  have hfirst : fieldAt 0 1 (r :: p) = r.toNat := by simp [fieldAt, leNat]
  have hto {n : Mach} (heq : echoContent side (r :: p) m = n) (hkeep : n.alarms = m.alarms ∧ n.notes = m.notes) :
      To (.echoMessage side f) s n :=
    heq ▸ to_message (c := .echoMessage side f) (act := echoContent side) rfl ha (by rw [heq, hkeep.1, hal]) (by rw [heq, hkeep.2, hno])
  refine ⟨fun h => hto ?_ (by simp), fun h => hto ?_ (by simp)⟩
  · simp [echoContent, hfirst, h]
  · simp [echoContent, hfirst, h]
end

/-- Settles O31: each command is `done` of its effect; a beacon with a capture is noted, then stepped or tracked and judged. -/
theorem strobeCommands : Obligations.StrobeCommands := by
  unfold Obligations.StrobeCommands
  intro s w side hs
  refine ⟨strobeSend_goes hs, fun n hl => ?_, fun hl => ⟨?_, fun hm => ?_⟩, fun m _ => calStrobe_bar m, fun m h => calEcho_early h,
    fun rtt d hr hd => calibrationComplete_goes hs hr hd, fun f p m ha => strobeCal_goes hs ha, fun f p m ha => ?_,
    fun f p m n cap at_ e ha hc he => ⟨to_beacon_discarded hs ha hc, fun hn => ?_⟩, fun hm => ?_,
    fun f r p m ha => echoMessage_to hs ha⟩
  · exact done_quiet (f := strobeCaptureEffect n.toNat) (by simp [strobeCaptureEffect, hl]) hs.1 hs.2
  · exact done_quiet (calStartEffect_linked hl) hs.1 hs.2
  · have heff := calStartEffect_linked hl
    have hto := done_ok (eff := calStartEffect) hm (by rw [heff]; exact hs.1) (by rw [heff]; exact hs.2)
    rwa [heff] at hto
  · obtain ⟨hal, hno⟩ := settled_of_arrives hs ha
    exact to_message (act := timeReportContent) rfl ha hal hno
  · obtain ⟨t, ht, hq, h1, h2, h3, h4, h5, h6, h7⟩ := beacon_goes hs ha hc hn he
    refine ⟨t, ht, hq, h1, h2, h3, h4, h5, h6, fun hm hle => ?_⟩
    obtain ⟨g1, g2, g3, g4⟩ := h7 hm hle
    exact ⟨g1, g2, _, rfl, g3, g4⟩
  · exact done_ok hm (by simpa [barEchoEffect] using hs.1) (by simpa [barEchoEffect] using hs.2)

end Sys2Proof.Machine

/-! # O1 and O21: the clears of counters (R148)

What a clear does to the map of objects is said once, for any list of counters. -/

namespace Sys2Proof.Machine

/-! ## What a clear leaves -/

theorem rd_inc_saturates (m : Mach) (o : Obj) : (m.inc o).rd o = if m.rd o < 0xFFFFFFFF then m.rd o + 1 else 0xFFFFFFFF := by
  rw [rd_inc_same]
  split <;> omega

theorem rd_clr_of_key {o p : Obj} (hk : p.key = o.key) (hd : p.dflt = o.dflt) (m : Mach) :
    (m.clr p).rd o = boolNat (m.incNow.contains o.key) := by
  simp only [Mach.clr, Mach.rd, Mach.wr, hk, hd]
  exact mapGet_mapSet_same ..

/-- A value's bits select, among a list of counters, one that stands at the object's key. -/
def Selects (v : Nat) (l : List Obj) (o : Obj) : Prop := ∃ (k : Nat) (p : Obj), l[k]? = some p ∧ bit k v = true ∧ p.key = o.key

theorem bit_succ (k v : Nat) : bit (k + 1) v = bit k (v / 2) := by
  simp only [bit, Nat.pow_succ', Nat.div_div_eq_div_mul]

theorem selects_cons {v : Nat} {p o : Obj} {l : List Obj} :
    Selects v (p :: l) o ↔ (v % 2 = 1 ∧ p.key = o.key) ∨ Selects (v / 2) l o := by
  constructor
  · rintro ⟨k, q, hq, hb, hk⟩
    cases k with
    | zero =>
      obtain rfl : p = q := by simpa using hq
      exact .inl ⟨by simpa [bit] using hb, hk⟩
    | succ k => exact .inr ⟨k, q, by simpa using hq, (bit_succ k v).symm.trans hb, hk⟩
  · rintro (⟨hv, hk⟩ | ⟨k, q, hq, hb, hk⟩)
    · exact ⟨0, p, rfl, by simpa [bit] using hv, hk⟩
    · exact ⟨k + 1, q, by simpa using hq, (bit_succ k v).trans hb, hk⟩

theorem rd_clrBits_unselected {o : Obj} {l : List Obj} {v : Nat} (h : ¬ Selects v l o) (m : Mach) :
    (Mach.clrBits v l m).rd o = m.rd o := by
  induction l generalizing v m with
  | nil => rfl
  | cons p l ih =>
    obtain ⟨hp, hl⟩ := not_or.mp (selects_cons.not.mp h)
    rw [Mach.clrBits, ih hl]
    split
    next hv => exact rd_wr_ne (fun hk => hp ⟨hv, hk.symm⟩) ..
    · rfl

theorem rd_clrBits_selected {o : Obj} {l : List Obj} {v : Nat} (hd : ∀ p ∈ l, p.dflt = o.dflt) (h : Selects v l o) (m : Mach) :
    (Mach.clrBits v l m).rd o = boolNat (m.incNow.contains o.key) := by
  induction l generalizing v m with
  | nil => obtain ⟨k, p, hp, -⟩ := h; simp at hp
  | cons p l ih =>
    rw [List.forall_mem_cons] at hd
    rw [Mach.clrBits]
    by_cases hl : Selects (v / 2) l o
    · rw [ih hd.2 hl]
      split <;> simp
    · obtain ⟨hv, hk⟩ := (selects_cons.mp h).resolve_right hl
      rw [rd_clrBits_unselected hl, if_pos hv, rd_clr_of_key hk hd.1]

/-- Clearing touches the map of objects alone. -/
theorem clrBits_regs (v : Nat) (l : List Obj) (m : Mach) : ∃ r, Mach.clrBits v l m = { m with regs := r } := by
  induction l generalizing v m with
  | nil => exact ⟨_, rfl⟩
  | cons p l ih =>
    obtain ⟨r, hr⟩ := ih (v / 2) (if v % 2 = 1 then m.clr p else m)
    refine ⟨r, hr.trans ?_⟩
    split <;> rfl

/-- The effect of a clear is what its rule says (R148): the counters selected, and nothing else. -/
theorem cleared_clrBits {l : List Obj} (hd : ∀ p ∈ l, p.dflt = 0) (v : Nat) (m : Mach) : Cleared v l m (Mach.clrBits v l m) := by
  refine ⟨fun k o hk hb => ?_, fun o ho => ?_, ?_⟩
  · have ho := hd o (List.mem_of_getElem? hk)
    exact rd_clrBits_selected (fun p hp => (hd p hp).trans ho.symm) ⟨k, o, hk, hb, rfl⟩ m
  · exact rd_clrBits_unselected (fun ⟨k, p, hp, hb, hk⟩ => ho k p hp hb hk) m
  · obtain ⟨r, hr⟩ := clrBits_regs v l m
    rw [hr]
    rfl

/-! ## The clear of a decoder -/

@[simp] theorem answered_rd (w : Writer) (m : Mach) (o : Obj) : (answered w m).rd o = m.rd o := by
  cases w <;> rfl

theorem whlCounters_dflt (d : Nat) : ∀ o ∈ whlCounters d, o.dflt = 0 := by
  simp [whlCounters, R.WHL_CNT_NOISE, R.WHL_CNT_EARLY, R.WHL_CNT_VIRT, R.WHL_CNT_SYNCLOSS, R.WHL_CNT_STALL, R.WHL_CNT_POL,
    R.WHL_CNT_IDX_MISS, R.WHL_CNT_PLAUS]

/-- A decoder's counters stand one after another. -/
theorem whlCounters_place {d k : Nat} {o : Obj} (h : (whlCounters d)[k]? = some o) : o.idx = 0x2106 + 16 * d ∧ o.sub = k + 1 := by
  obtain ⟨hk, rfl⟩ := List.getElem?_eq_some_iff.mp h
  have hk8 : k < 8 := hk
  interval_cases k <;> exact ⟨rfl, rfl⟩

/-- A decoder's clear leaves in the objects what the clearing of its selected counters leaves. -/
theorem goes_whlCntClr {s : State} {w : Writer} {d : Fin 16} (hs : Settled s) (hm : May w (R.WHL_CNT_CLR d) false s) (v : Byte)
    {P : Mach → Prop} (hP : ∀ m, (∀ o, m.rd o = (Mach.clrBits v.toNat (whlCounters d) s.m).rd o) → P m) :
    Goes (.whlCntClr w d v) s P :=
  ⟨_, done_ok hm (by simpa using hs.1) (by simpa using hs.2), rfl, hP _ (by simp)⟩

/-- Settles O1: an increment saturates, and a decoder's clear is the clearing of the counters its value selects, whose keys differ. -/
theorem wheelCountersClearAndStop : Obligations.WheelCountersClearAndStop := by
  unfold Obligations.WheelCountersClearAndStop
  intro s w d v k o hs hm hk
  obtain ⟨hsel, hrest, -⟩ := cleared_clrBits (whlCounters_dflt d) v.toNat s.m
  refine ⟨fun m => rd_inc_saturates m o, fun hb hi => ?_, fun hb hi => ?_, fun hb => ?_⟩
  · refine goes_whlCntClr hs hm v fun m hrd => ?_
    have h0 : m.rd o = 0 := by rw [hrd, hsel k o hk hb, hi]; rfl
    exact ⟨h0, by rw [rd_inc_saturates, h0]; rfl⟩
  · refine goes_whlCntClr hs hm v fun m hrd => ?_
    rw [hrd, hsel k o hk hb, hi]
    rfl
  · refine goes_whlCntClr hs hm v fun m hrd => (hrd o).trans (hrest o fun j p hp hj hkey => ?_)
    obtain rfl : j = k := by
      obtain ⟨hpi, hps⟩ := whlCounters_place hp
      obtain ⟨hoi, hos⟩ := whlCounters_place hk
      simp only [Obj.key, hpi, hps, hoi, hos] at hkey
      omega
    simp [hb] at hj

/-! ## A redo that waits -/

/-- The reset state with a value noted to be written again to the first decoder's clear object. -/
def redoWaiting : State := ⟨[], { State.reset.m with redos := [((R.WHL_CNT_CLR 0).key, 0)] }⟩

theorem rankNote_redos {w : Writer} {o : Obj} (h : rank w o ≠ 0) (m : Mach) :
    (rankNote w o m).redos = m.redos.filter (fun e => e.1 != o.key) := by
  simp [rankNote, h]

/-- Refutes O21: a mover's write takes away a redo that waits for its object, and the statement's frame (`OnlyRegs`) lets only the
objects, the ranks and what left the block change. The counters themselves are cleared as told (`cleared_clrBits`). No write notes such a
redo, for the clear objects hold no value (R261), but the statement speaks of every settled state. -/
theorem not_counterClears : ¬ Obligations.CounterClears := by
  unfold Obligations.CounterClears
  intro h
  have hs : Settled redoWaiting := ⟨rfl, rfl⟩
  have hm : May (.mover 0) (R.WHL_CNT_CLR 0) false redoWaiting := by decide
  obtain ⟨hwhl, -⟩ := h redoWaiting (.mover 0) hs
  obtain ⟨t, ht, -, -, -, hframe⟩ := hwhl 0 0 hm
  have hgone : t.m.redos = [] := by
    obtain rfl := Host.Outcome.next.inj ((done_ok (eff := Mach.clrBits 0 (whlCounters 0)) hm rfl rfl).symm.trans ht)
    exact (rankNote_redos (w := .mover 0) (o := R.WHL_CNT_CLR 0) (by decide) _).trans (by decide)
  have hkept : t.m.redos = [((R.WHL_CNT_CLR 0).key, 0)] := congrArg Mach.redos hframe
  simp [hkept] at hgone

end Sys2Proof.Machine

/-! # O9: the commands of the wheel decoders

An entry of a state, the setting of the direction and the mark of the last position are said once; each command is one of them or goes
through them. -/

namespace Sys2Proof.Machine

/-! ## Events and objects of a decoder -/

@[simp] theorem whlRaise_fields (d b : Nat) (m : Mach) :
    (whlRaise d b m).whls = m.whls ∧ (whlRaise d b m).tb = m.tb ∧ (whlRaise d b m).dic = m.dic ∧
    (whlRaise d b m).alarms = m.alarms ∧ (whlRaise d b m).notes = m.notes := by
  simp [whlRaise]

theorem whlRaise_rd {d : Nat} {o : Obj} (h : o.key ≠ (R.WHL_EVT d).key) (b : Nat) (m : Mach) : (whlRaise d b m).rd o = m.rd o :=
  rd_raise h

/-- The objects of a decoder that its commands act on are apart. -/
theorem whl_keys (d : Nat) :
    ((R.WHL_STATE d).key ≠ (R.WHL_EVT d).key ∧ (R.WHL_STATE d).key ≠ (R.WHL_CNT_SYNCLOSS d).key) ∧
    ((R.WHL_DIR d).key ≠ (R.WHL_EVT d).key ∧ (R.WHL_DIR d).key ≠ (R.WHL_STATE d).key) ∧
    ((R.WHL_ENABLE d).key ≠ (R.WHL_STATE d).key ∧ (R.WHL_ENABLE d).key ≠ (R.WHL_DIR d).key ∧
      (R.WHL_ENABLE d).key ≠ (R.WHL_EVT d).key) ∧
    (R.WHL_MODE d).key ≠ (R.WHL_EVT d).key ∧ (R.WHL_MODE d).key ≠ (R.WHL_CNT_VIRT d).key := by
  simp only [Obj.key, R.WHL_STATE, R.WHL_EVT, R.WHL_DIR, R.WHL_CNT_SYNCLOSS, R.WHL_ENABLE, R.WHL_MODE, R.WHL_CNT_VIRT]
  omega

/-! ## The arming of pairs (R144) -/

/-- Pairs were armed or disarmed: decoder d changed in nothing but its arming, and outside LOCKED it waits for it as before. -/
structure PairsArmed (d : Nat) (m m1 : Mach) : Prop where
  rest : ∃ l, m1 = { m with whls := l }
  own : ∃ a wt, m1.whl d = { m.whl d with plausArmed := a, plausWait := wt } ∧ (m.whlState d ≠ 3 → wt = (m.whl d).plausWait)

theorem PairsArmed.refl (d : Nat) (m : Mach) : PairsArmed d m m := ⟨⟨_, rfl⟩, _, _, rfl, fun _ => rfl⟩

theorem PairsArmed.trans {d : Nat} {a b c : Mach} (x : PairsArmed d a b) (y : PairsArmed d b c) : PairsArmed d a c := by
  obtain ⟨⟨_, rfl⟩, _, _, hx, hxw⟩ := x
  obtain ⟨⟨_, rfl⟩, _, _, hy, hyw⟩ := y
  refine ⟨⟨_, rfl⟩, _, _, hy.trans (by rw [hx]), fun h => (hyw h).trans ?_⟩
  rw [hx]
  exact hxw h

theorem PairsArmed.each {f : Nat → Mach → Mach} {d : Nat} (h : ∀ i m, PairsArmed d m (f i m)) (l : List Nat) (m : Mach) :
    PairsArmed d m (m.each l f) := by
  induction l generalizing m with
  | nil => exact .refl d m
  | cons i l ih => exact (h i m).trans (ih (f i m))

theorem pairsArmed_updWhl {d i : Nat} {f : Whl → Whl} {m : Mach}
    (h : i = d → ∃ a wt, f (m.whl d) = { m.whl d with plausArmed := a, plausWait := wt } ∧
      (m.whlState d ≠ 3 → wt = (m.whl d).plausWait)) : PairsArmed d m (m.updWhl i f) := by
  refine ⟨⟨_, rfl⟩, ?_⟩
  by_cases hi : i = d
  · obtain ⟨a, wt, hf, hw⟩ := h hi
    subst hi
    exact ⟨a, wt, (m.updWhl_same i f).trans hf, hw⟩
  · exact ⟨_, _, m.setWhl_ne (Ne.symm hi) _, fun _ => rfl⟩

theorem pairsArmed_plausArm (d i : Nat) (m : Mach) : PairsArmed d m (plausArm i m) := by
  unfold plausArm
  split
  · exact pairsArmed_updWhl fun _ => ⟨_, _, rfl, fun _ => rfl⟩
  · dsimp only
    split
    next hl => exact pairsArmed_updWhl fun hi => ⟨_, _, rfl, fun hd => absurd (hi ▸ hl.1) hd⟩
    · split
      · exact pairsArmed_updWhl fun _ => ⟨_, _, rfl, fun _ => rfl⟩
      · exact .refl d m

/-! ## The entry of a state (R113) -/

/-- Decoder d is in a state: its record is as it was but for the arming, and so are all objects but STATE and the events. -/
structure WhlEntered (d st : Nat) (m m1 : Mach) : Prop where
  state : m1.whlState d = st
  rd : ∀ o : Obj, o.key ≠ (R.WHL_STATE d).key → o.key ≠ (R.WHL_EVT d).key → m1.rd o = m.rd o
  unit : ∃ a wt, m1.whl d = { m.whl d with plausArmed := a, plausWait := wt } ∧ (st ≠ 3 → wt = (m.whl d).plausWait)

/-- The objects and events of an entry, before the pairs act on it. -/
def whlShow (d st : Nat) (m : Mach) : Mach :=
  Mach.when (st == 3) (whlRaise d 1) (whlRaise d 0 (m.wr (R.WHL_STATE d) st))

theorem whlShow_fields (d st : Nat) (m : Mach) :
    (whlShow d st m).whls = m.whls ∧ (whlShow d st m).whlState d = st ∧
    ∀ o : Obj, o.key ≠ (R.WHL_STATE d).key → o.key ≠ (R.WHL_EVT d).key → (whlShow d st m).rd o = m.rd o := by
  obtain ⟨⟨hse, -⟩, -⟩ := whl_keys d
  have hraise (m : Mach) : (Mach.when (st == 3) (whlRaise d 1) m).whls = m.whls ∧
      ∀ o : Obj, o.key ≠ (R.WHL_EVT d).key → (Mach.when (st == 3) (whlRaise d 1) m).rd o = m.rd o := by
    unfold Mach.when
    split
    · exact ⟨by simp, fun o ho => whlRaise_rd ho 1 m⟩
    · exact ⟨rfl, fun o _ => rfl⟩
  obtain ⟨hw, hrd⟩ := hraise (whlRaise d 0 (m.wr (R.WHL_STATE d) st))
  refine ⟨hw.trans (by simp), ?_, fun o hs he => ?_⟩
  · exact (hrd _ hse).trans ((whlRaise_rd hse ..).trans (rd_wr_same ..))
  · exact (hrd o he).trans ((whlRaise_rd he ..).trans (rd_wr_ne hs ..))

theorem whlEnter_eq {d st : Nat} {m : Mach} (h : m.whlState d ≠ st) : whlEnter d st m =
    ((whlShow d st m).each (plausPairs (whlShow d st m) d) plausArm).note (.state d (m.whlState d) st) := by
  simp only [whlEnter, if_neg h, whlShow, Mach.when, beq_iff_eq]

theorem whlEnter_entered (d st : Nat) (m : Mach) : WhlEntered d st m (whlEnter d st m) := by
  by_cases h : m.whlState d = st
  · rw [whlEnter, if_pos h]
    exact ⟨h, fun _ _ _ => rfl, _, _, rfl, fun _ => rfl⟩
  · rw [whlEnter_eq h]
    obtain ⟨hw, hst, hrd⟩ := whlShow_fields d st m
    obtain ⟨⟨l, hl⟩, a, wt, ha, hwt⟩ := PairsArmed.each (pairsArmed_plausArm d) (plausPairs (whlShow d st m) d) (whlShow d st m)
    have hwhl : (whlShow d st m).whl d = m.whl d := by rw [Mach.whl, hw, Mach.whl]
    have hregs (o : Obj) : ((whlShow d st m).each (plausPairs (whlShow d st m) d) plausArm).rd o = (whlShow d st m).rd o := by
      rw [hl]
      rfl
    rw [hwhl, hst] at hwt
    rw [hwhl] at ha
    exact ⟨(hregs _).trans hst, fun o hs he => (hregs o).trans (hrd o hs he), a, wt, ha, hwt⟩

theorem WhlEntered.published {d st : Nat} {m m1 : Mach} (h : WhlEntered d st m m1) : whlPublished m1 d = decide (2 ≤ st) := by
  rw [whlPublished, h.state]

/-! ## Direction and published position -/

theorem whlSetDir_fields (d v : Nat) (m : Mach) :
    (whlSetDir d v m).whls = m.whls ∧ (whlSetDir d v m).rd (R.WHL_DIR d) = v ∧
    ∀ o : Obj, o.key ≠ (R.WHL_DIR d).key → o.key ≠ (R.WHL_EVT d).key → (whlSetDir d v m).rd o = m.rd o := by
  obtain ⟨-, ⟨hde, -⟩, -⟩ := whl_keys d
  unfold whlSetDir
  dsimp only
  split
  next h => exact ⟨rfl, h, fun _ _ _ => rfl⟩
  · have hnote (n : Note) (m : Mach) : (m.note n).whls = m.whls ∧ ∀ o, (m.note n).rd o = m.rd o := ⟨rfl, fun _ => rfl⟩
    simp only [hnote, whlRaise_fields, Mach.wr_fields, true_and]
    exact ⟨(whlRaise_rd hde ..).trans (rd_wr_same ..), fun o hd he => (whlRaise_rd he ..).trans (rd_wr_ne hd ..)⟩

/-- The position goes by the decoder's record, state and table and by time. -/
theorem whlPosNow_congr {d : Nat} {m m1 : Mach} (hw : m1.whl d = m.whl d) (hs : m1.whlState d = m.whlState d) (ht : m1.tb = m.tb)
    (hd : m1.dic = m.dic) : whlPosNow m1 d = whlPosNow m d := by
  simp only [whlPosNow, whlMotion, whlTbl, Mach.now, hw, hs, ht, hd]

theorem whlMark_published {d : Nat} {m : Mach} (h : whlPublished m d = true) :
    (whlMark d m).whl d = { m.whl d with pub := whlPosNow m d } := by
  rw [whlMark, if_pos h]
  exact Mach.updWhl_same ..

/-! ## HUNT, FREEWHEEL and LOST (R114, R122, R135, R136) -/

theorem whlToHunt_hunts (d : Nat) (m : Mach) : (whlToHunt d m).whlState d = 1 ∧ whlPublished (whlToHunt d m) d = false := by
  have h : WhlEntered d 1 _ (whlToHunt d m) := whlEnter_entered ..
  exact ⟨h.state, h.published⟩

/-- A sync loss without a freewheel leads to HUNT. -/
theorem whlLoss_hunts {d : Nat} {m : Mach} (h : m.whlState d = 2 ∨ m.whlState d = 3 ∧ m.rd (R.WHL_FW_TEETH d) = 0) :
    ∃ m1, whlLoss d m = whlToHunt d m1 := by
  have hst : ¬ (m.whlState d ≠ 2 ∧ m.whlState d ≠ 3) := by omega
  simp only [whlLoss, if_neg hst]
  split
  · rw [if_neg (by omega)]
    exact ⟨_, rfl⟩
  · exact ⟨_, rfl⟩

/-- The sync loss as it is counted, the last published position not yet kept. -/
def lossCounted (d : Nat) (m : Mach) : Mach := whlRaise d 2 (m.inc (R.WHL_CNT_SYNCLOSS d))

theorem lossCounted_fields (d : Nat) (m : Mach) :
    (lossCounted d m).whl d = m.whl d ∧ (lossCounted d m).whlState d = m.whlState d ∧ (lossCounted d m).tb = m.tb ∧
    (lossCounted d m).dic = m.dic := by
  obtain ⟨⟨hse, hsc⟩, -⟩ := whl_keys d
  refine ⟨?_, (whlRaise_rd hse ..).trans (rd_inc_ne hsc m), by simp [lossCounted], by simp [lossCounted]⟩
  simp [lossCounted, Mach.whl]

/-- The record of a decoder that begins to freewheel at a tick with a speed. -/
def Whl.coasting (at_ : Nat) (w : Rat) (x : Whl) : Whl :=
  { x with fw := some ((x.pub : Rat), (at_ : Rat), w), hunt := [], cands := [], gapAt := none, idxWait := [], refOpen := none, dp := none }

theorem whlLoss_coasts {d : Nat} {m m1 : Mach} {h : Tooth} {r : List Tooth} (hm : m1 = whlMark d (lossCounted d m))
    (hs : m.whlState d = 3) (hf : m.rd (R.WHL_FW_TEETH d) ≠ 0) (hk : (m1.whl d).speedOk = true) (hh : (m1.whl d).hist = h :: r)
    (ho : h.om ≠ 0) : whlLoss d m = whlEnter d 4 (m1.setWhl d ((m1.whl d).coasting m.now h.om)) := by
  subst hm
  unfold whlLoss
  dsimp only
  rw [if_neg (by omega)]
  split
  next h' r' he =>
    obtain ⟨rfl, -⟩ := List.cons.inj (hh.symm.trans he)
    exact if_pos ⟨hs, hf, hk, ho⟩
  next he => exact absurd (hh.symm.trans he) (List.cons_ne_nil h r)

/-- A sync loss in LOCKED with a known speed goes on from the last published position at that speed. -/
theorem whlLoss_freewheels {d : Nat} {m : Mach} {h : Tooth} {r : List Tooth} (hs : m.whlState d = 3)
    (hf : m.rd (R.WHL_FW_TEETH d) ≠ 0) (hk : (m.whl d).speedOk = true) (hh : (m.whl d).hist = h :: r) (ho : h.om ≠ 0) :
    (whlLoss d m).whlState d = 4 ∧ ((whlLoss d m).whl d).fw = some ((whlPosNow m d : Rat), (m.now : Rat), h.om) := by
  obtain ⟨hw, hst, ht, hd⟩ := lossCounted_fields d m
  obtain ⟨m1, hm⟩ : ∃ m1, m1 = whlMark d (lossCounted d m) := ⟨_, rfl⟩
  have hmark : m1.whl d = { m.whl d with pub := whlPosNow m d } := by
    rw [hm, whlMark_published (by rw [whlPublished, hst, hs]; rfl), hw, whlPosNow_congr hw hst ht hd]
  rw [whlLoss_coasts hm hs hf (by rw [hmark]; exact hk) (by rw [hmark]; exact hh) ho]
  obtain ⟨hstate, -, _, _, hunit, -⟩ := whlEnter_entered d 4 (m1.setWhl d ((m1.whl d).coasting m.now h.om))
  refine ⟨hstate, ?_⟩
  rw [hunit, Mach.setWhl_same, hmark]
  rfl

theorem whlGapMiss_loses {d : Nat} {m : Mach} (hp : (m.whl d).dp.isSome = true)
    (hg : tblGap (whlTbl m d) (nextEntry (whlTbl m d) (m.whl d).k (m.whl d).back).1 = true) : whlGapMiss d m = whlLoss d m := by
  simp [whlGapMiss, hp, hg]

/-- The angle of a LOST decoder is that of its last validated tooth. -/
theorem whlAngle_lost {d : Nat} {m : Mach} {h : Tooth} {r : List Tooth} (hs : m.whlState d = 5) (hh : (m.whl d).hist = h :: r) :
    whlAngle m d = ofSigned 32 h.p := by
  simp [whlAngle, whlPublished, whlPosNow, whlMotion, hs, hh]

theorem whlStall_enters {d : Nat} {m : Mach} (hs : m.whlState d = 2 ∨ m.whlState d = 3 ∨ m.whlState d = 4) :
    ∃ m1, whlStall d m = whlEnter d 5 m1 ∧ m1.rd (R.WHL_DIR d) = 0 ∧ (m1.whl d).hist = (m.whl d).hist ∧
      (m1.whl d).stalled = true := by
  obtain ⟨f, heq, hf⟩ : ∃ f : Whl → Whl,
      whlStall d m = whlEnter d 5 (whlSetDir d 0 (whlRaise d 3 ((m.updWhl d f).inc (R.WHL_CNT_STALL d)))) ∧
      ∀ x, (f x).hist = x.hist ∧ (f x).stalled = true := ⟨_, if_pos hs, fun _ => ⟨rfl, rfl⟩⟩
  obtain ⟨hwhls, hdir, -⟩ := whlSetDir_fields d 0 (whlRaise d 3 ((m.updWhl d f).inc (R.WHL_CNT_STALL d)))
  have hown : (m.updWhl d f).whl d = f (m.whl d) := Mach.updWhl_same ..
  refine ⟨_, heq, hdir, ?_⟩
  simp only [Mach.whl, hwhls, whlRaise_fields, Mach.inc_fields] at hown ⊢
  rw [hown]
  exact hf _

/-- A stall leads to LOST with the direction unknown, at the last validated tooth. -/
theorem whlStall_lost {d : Nat} {m : Mach} {h : Tooth} {r : List Tooth} (hs : m.whlState d = 2 ∨ m.whlState d = 3 ∨ m.whlState d = 4)
    (hh : (m.whl d).hist = h :: r) : (whlStall d m).whlState d = 5 ∧ (whlStall d m).rd (R.WHL_DIR d) = 0 ∧
      whlAngle (whlStall d m) d = ofSigned 32 h.p ∧ ((whlStall d m).whl d).stalled = true := by
  obtain ⟨-, ⟨hde, hds⟩, -⟩ := whl_keys d
  obtain ⟨m1, heq, hdir, hhist, hstalled⟩ := whlStall_enters hs
  obtain ⟨hstate, hrd, _, _, hunit, -⟩ := whlEnter_entered d 5 m1
  rw [heq]
  refine ⟨hstate, (hrd _ hds hde).trans hdir, whlAngle_lost (r := r) hstate ?_, ?_⟩
  · rw [hunit]
    exact hhist.trans hh
  · rw [hunit]
    exact hstalled

theorem whlFwExpiry_hunts {d : Nat} {m : Mach} (h : m.whlState d = 4) :
    (whlFwExpiry d m).whlState d = 1 ∧ whlPublished (whlFwExpiry d m) d = false := by
  rw [whlFwExpiry, if_pos h]
  exact whlToHunt_hunts d m

/-! ## Enable and disable (R103, R113) -/

/-- A decoder's pair may arm again (R144). -/
def plausAwait (i : Nat) (m : Mach) : Mach := m.updWhl i (fun x => { x with plausWait := true })

theorem whl_each_plausAwait (d : Nat) (l : List Nat) (m : Mach) :
    (m.each l plausAwait).whl d = if d ∈ l then { m.whl d with plausWait := true } else m.whl d := by
  induction l generalizing m with
  | nil => rfl
  | cons i l ih =>
    have hcons : m.each (i :: l) plausAwait = (plausAwait i m).each l plausAwait := rfl
    by_cases hi : d = i
    · have hown : (plausAwait i m).whl d = { m.whl d with plausWait := true } := by subst hi; exact Mach.updWhl_same ..
      rw [hcons, ih, hown]
      simp [hi]
    · have hother : (plausAwait i m).whl d = m.whl d := Mach.setWhl_ne _ hi _
      rw [hcons, ih, hother]
      simp [hi]

theorem mem_plausPairs_self {d : Nat} (h : d < 16) (m : Mach) : d ∈ plausPairs m d := by
  simp [plausPairs, h]

/-- A decoder with its record cleared and the direction unknown. -/
def whlCleared (d : Nat) (m : Mach) : Mach :=
  (m.setWhl d { plausArmed := (m.whl d).plausArmed, plausFault := (m.whl d).plausFault, wrote := some m.now }).wr (R.WHL_DIR d) 0

theorem whlStart_eq (d : Nat) (m : Mach) :
    whlStart d m = whlEnter d 1 ((whlCleared d m).each (plausPairs (whlCleared d m) d) plausAwait) := rfl

/-- A start leads to HUNT with the direction unknown and the record cleared but for the pair's arming. -/
theorem whlStart_hunts {d : Nat} (h : d < 16) (m : Mach) :
    (whlStart d m).whlState d = 1 ∧ (whlStart d m).rd (R.WHL_DIR d) = 0 ∧
    (whlStart d m).rd (R.WHL_ENABLE d) = m.rd (R.WHL_ENABLE d) ∧
    ∃ p, (whlStart d m).whl d =
      { plausArmed := p, plausFault := (m.whl d).plausFault, plausWait := true, wrote := some m.now } := by
  obtain ⟨-, ⟨hde, hds⟩, ⟨hes, hed, hee⟩, -⟩ := whl_keys d
  have hrd (o : Obj) : ((whlCleared d m).each (plausPairs (whlCleared d m) d) plausAwait).rd o = (whlCleared d m).rd o :=
    each_keeps (f := plausAwait) (g := fun m => m.rd o) (fun _ _ => rfl) _ _
  have hown : (whlCleared d m).whl d =
      { plausArmed := (m.whl d).plausArmed, plausFault := (m.whl d).plausFault, wrote := some m.now } := Mach.setWhl_same ..
  rw [whlStart_eq]
  obtain ⟨hstate, hkeep, p, wt, hunit, hwait⟩ :=
    whlEnter_entered d 1 ((whlCleared d m).each (plausPairs (whlCleared d m) d) plausAwait)
  rw [whl_each_plausAwait, if_pos (mem_plausPairs_self h _), hown] at hunit hwait
  obtain rfl := hwait (by decide)
  refine ⟨hstate, ?_, ?_, p, hunit⟩
  · rw [hkeep _ hds hde, hrd]
    exact rd_wr_same ..
  · rw [hkeep _ hes hee, hrd]
    exact rd_wr_ne hed ..

theorem whlEnable_starts {d : Nat} {m : Mach} (hok : whlEnableOk m d = true) (h0 : m.whlState d = 0) (hh : m.inHold = false)
    (hs : m.pwr.fSleep = false) :
    whlEnable d m = .ok (whlStart d ((m.wr (R.WHL_ENABLE d) 1).updWhl d (fun x => { x with wrote := some m.now }))) := by
  simp [whlEnable, hok, h0, hh, hs]

theorem whlEnable_range {d : Nat} {m : Mach} (hok : whlEnableOk m d = false) : whlEnable d m = .error .range := by
  simp [whlEnable, hok]

/-- A stop leads to OFF, or leaves a decoder there, and does not write WHL_ENABLE. -/
theorem whlOff_off (d : Nat) (m : Mach) :
    (whlOff d false m).whlState d = 0 ∧ (whlOff d false m).rd (R.WHL_ENABLE d) = m.rd (R.WHL_ENABLE d) := by
  obtain ⟨-, -, ⟨hes, hed, hee⟩, -⟩ := whl_keys d
  unfold whlOff
  split
  next h => exact ⟨h, rfl⟩
  · dsimp only
    generalize hm2 : m.setWhl d _ = m2
    obtain ⟨-, -, hdir⟩ := whlSetDir_fields d 0 m2
    obtain ⟨hstate, hkeep, -⟩ := whlEnter_entered d 0 (whlSetDir d 0 m2)
    refine ⟨hstate, (hkeep _ hes hee).trans ((hdir _ hed hee).trans ?_)⟩
    subst hm2
    rfl

/-! ## Virtual teeth -/

theorem whlRefChecks_no_index {d : Nat} {m : Mach} (h : whlRefMode m d < 2) (t int : Rat) (ref : Bool) :
    whlRefChecks d t int ref m = (false, m) := if_pos h

/-- A virtual tooth raises events and counts; it signals no cause and no happening. -/
theorem whlPassed_quiet (d k : Nat) (m0 m : Mach) : (whlPredict d (whlPassed d k m0 m)).alarms = m.alarms ∧
    (whlPredict d (whlPassed d k m0 m)).notes = m.notes := by
  unfold whlPredict whlPassed
  split <;> simp

/-- A window that closes in REF_MODE GAP makes a virtual tooth while the limit is not reached (R121). -/
theorem whlVirtual_makes {d : Nat} {m : Mach} {p : Rat} (hs : m.whlState d = 2 ∨ m.whlState d = 3) (hp : (m.whl d).dp = some p)
    (hg : tblGap (whlTbl m d) (nextEntry (whlTbl m d) (m.whl d).k (m.whl d).back).1 = false)
    (hv : (m.whl d).virt < m.rd (R.WHL_VIRT_MAX d)) (hr : whlRefMode m d = 1) :
    let nx := nextEntry (whlTbl m d) (m.whl d).k (m.whl d).back
    whlVirtual d m = whlPredict d (whlPassed d nx.1 m (whlRaise d 5 ((m.setWhl d { m.whl d with
      prev := (m.whl d).prev + p
      pos := (m.whl d).pos + nx.2
      k := nx.1
      acc := (m.whl d).acc + nx.2
      virt := (m.whl d).virt + 1
      virtual := true }).inc (R.WHL_CNT_VIRT d)))) := by
  intro nx
  obtain ⟨-, -, -, hme, hmv⟩ := whl_keys d
  have hmode (x : Whl) : whlRefMode (whlRaise d 5 ((m.setWhl d x).inc (R.WHL_CNT_VIRT d))) d = 1 := by
    rw [whlRefMode, whlRaise_rd hme, rd_inc_ne hmv]
    exact hr
  have htrack : ¬ (m.whlState d ≠ 2 ∧ m.whlState d ≠ 3) := by omega
  simp only [whlVirtual, hp, htrack, hg, Nat.not_le.mpr hv, hr, decide_false, Bool.false_eq_true, or_self, if_false, one_ne_zero,
    whlRefChecks_no_index (lt_of_eq_of_lt (hmode _) Nat.one_lt_two)]
  rfl

/-! ## Edges (R103 to R106, R115) -/

section
variable {d : Nat} {rise lvl : Bool} {t t1 : Nat} {m m1 : Mach} (hs : m.whlState d ≠ 0) (hd : whlDeaf m d = false)
include hs hd

/-- A delivered edge of the selected polarity reaches the tooth logic. -/
theorem toothEdgeEffect_delivered {dir : Bool} (hq : whlQuad m d = false)
    (ha : quadAccept (m.rd (R.WHL_IN_A d)) rise t (dirTaken d dir m) = (some (lvl, t1), m1))
    (h0 : whlEdgeSel m1 d = 0 → lvl = true) (h1 : whlEdgeSel m1 d = 1 → lvl = false) :
    toothEdgeEffect d rise t dir m =
      whlTooth d ((t1 : Rat) / 8) lvl (whlLevel m1 (m.rd (R.WHL_IN_DIR d)) != whlDirPol m1 d) m1 := by
  have hsel : ¬ ((whlEdgeSel m1 d = 0 ∧ (!lvl) = true) ∨ (whlEdgeSel m1 d = 1 ∧ lvl = true)) := by
    rintro (⟨h, hl⟩ | ⟨h, hl⟩)
    · simp [h0 h] at hl
    · simp [h1 h] at hl
  simp only [toothEdgeEffect, if_neg hs, hq, Bool.false_eq_true, if_false, ha, hd, whlEdgeA, if_neg hsel]

/-- A delivered quadrature edge counts. -/
theorem quadCountEffect_delivered {isB : Bool} (hq : whlQuad m d = true)
    (ha : quadAccept (m.rd (if isB then R.WHL_IN_B d else R.WHL_IN_A d)) rise t m = (some (lvl, t1), m1)) :
    let other := whlLevel m1 (m.rd (if isB then R.WHL_IN_A d else R.WHL_IN_B d))
    quadCountEffect d isB rise t m = whlCount d isB (if isB then other else lvl) (if isB then lvl else other) t1 m1 := by
  simp [quadCountEffect, hs, hq, ha, hd]

/-- A delivered index edge is remembered where the references need no index. -/
theorem indexEdgeEffect_delivered (ha : quadAccept (m.rd (R.WHL_IN_IDX d)) rise t m = (some (lvl, t1), m1)) (hl : lvl ≠ whlIdxFall m1 d)
    (hr : whlRefMode m1 d < 2) :
    indexEdgeEffect d rise t m = m1.updWhl d (fun x => { x with idxAt := some ((t1 : Rat) / 8) }) := by
  simp [indexEdgeEffect, hs, ha, hd, whlIdxEdge, hl, whlIndex, Nat.not_le.mpr hr]
end

/-! ## The commands -/

@[simp] theorem rankNote_whls (w : Writer) (o : Obj) (m : Mach) : (rankNote w o m).whls = m.whls := by
  unfold rankNote
  split <;> rfl

@[simp] theorem answered_whls (w : Writer) (m : Mach) : (answered w m).whls = m.whls := by
  cases w <;> rfl

/-- A write that is carried out leaves the decoders and the objects as its effect left them. -/
theorem acts_of_carried {c : Instr} {s : State} {w : Writer} {o : Obj} {mach : Bool} {eff : Mach → Eff} {m : Mach} {P : Mach → Prop}
    (hc : exec c s = done (command w o mach eff) s) (hm : May w o mach s) (he : eff s.m = .ok m)
    (hP : ∀ n : Mach, n.whls = m.whls → (∀ p, n.rd p = m.rd p) → P n) : Acts c s P :=
  ⟨_, hc.trans (done_acts hm he), hP _ (by simp) (by simp)⟩

theorem Acts.of_effect {c : Instr} {s : State} {f : Mach → Mach} {P : Mach → Prop} (hc : exec c s = done f s) (hP : P (f s.m)) :
    Acts c s P := ⟨_, hc, hP⟩

theorem whlEnableOn_acts {s : State} {w : Writer} {d : Fin 16} (hok : whlEnableOk s.m d = true) (h0 : s.m.whlState d = 0)
    (hh : s.m.inHold = false) (hs : s.m.pwr.fSleep = false) (hm : May w (R.WHL_ENABLE d) false s) :
    Acts (.whlEnableOn w d) s (fun m => m.on (R.WHL_ENABLE d) = true ∧ m.whlState d = 1 ∧ m.rd (R.WHL_DIR d) = 0 ∧
      ∃ p, m.whl d = { plausArmed := p, plausFault := (s.m.whl d).plausFault, plausWait := true, wrote := some s.m.now }) := by
  obtain ⟨hstate, hdir, hen, p, hown⟩ :=
    whlStart_hunts d.isLt ((s.m.wr (R.WHL_ENABLE d) 1).updWhl d (fun x => { x with wrote := some s.m.now }))
  refine acts_of_carried rfl hm (whlEnable_starts hok h0 hh hs) fun n hw hrd => ⟨?_, (hrd _).trans hstate, (hrd _).trans hdir, p, ?_⟩
  · rw [Mach.on, hrd, hen]
    simp
  · rw [Mach.whl, hw]
    refine hown.trans ?_
    rw [Mach.updWhl_same]
    rfl

theorem whlEnableOff_acts {s : State} {w : Writer} {d : Fin 16} (hm : May w (R.WHL_ENABLE d) false s) :
    Acts (.whlEnableOff w d) s (fun m => m.on (R.WHL_ENABLE d) = false ∧ m.whlState d = 0 ∧ whlPublished m d = false) := by
  obtain ⟨hstate, hen⟩ := whlOff_off d (s.m.wr (R.WHL_ENABLE d) 0)
  refine acts_of_carried rfl hm rfl fun n _ hrd => ?_
  have h0 : n.whlState d = 0 := (hrd _).trans hstate
  refine ⟨?_, h0, by rw [whlPublished, h0]; rfl⟩
  rw [Mach.on, hrd]
  exact (congrArg (fun v => v % 2 == 1) hen).trans (by simp)

theorem plausRun_fails {d e : Nat} {m : Mach} (hp : whlPartner m d = some e) (ha : (m.whl d).plausArmed = true)
    (hf : plausFails m d e = true) : plausRun d m =
      (whlRaise d 7 ((m.updWhl d (fun x => { x with plausFault := true })).inc (R.WHL_CNT_PLAUS d))).alarm 13 := by
  simp [plausRun, hp, ha, hf]

/-- Settles O9: each command is `done` of its effect, whose laws above say where the decoder goes and with what. -/
theorem wheelCommands : Obligations.WheelCommands := by
  unfold Obligations.WheelCommands
  intro s w d hs
  refine ⟨fun hok h0 hh hsl hm => whlEnableOn_acts hok h0 hh hsl hm, fun hok hm => done_turned hm (whlEnable_range hok),
    fun hm => whlEnableOff_acts hm, fun rise dir lvl t t1 m hst hq hd ha h0 h1 => ?_, ?_, fun rise lvl t t1 m hst hd ha hl hr => ?_,
    fun p hst hp hg hv hr => ?_, fun hp hg => ⟨fun hst => ?_, fun h r hst hf hk hh ho => ?_⟩, fun h r hst hh => ?_, fun hst => ?_,
    fun e hp ha hf => done_of_eq (plausRun_fails hp ha hf)⟩
  · exact done_of_eq (toothEdgeEffect_delivered hst hd hq ha h0 h1)
  · rintro isB rise lvl other t t1 m hst hq hd ha rfl
    refine done_of_eq ((quadCountEffect_delivered hst hd hq ha).trans ?_)
    cases isB
    · rfl
    · simp only [whlCount, if_true, Bool.beq_comm]
  · exact done_of_eq (indexEdgeEffect_delivered hst hd ha hl hr)
  · obtain ⟨hal, hno⟩ := whlPassed_quiet d (nextEntry (whlTbl s.m d) (s.m.whl d).k (s.m.whl d).back).1 s.m _
    exact done_quiet (whlVirtual_makes hst hp hg hv hr) (hal.trans (by simpa using hs.1)) (hno.trans (by simpa using hs.2))
  · obtain ⟨m1, hloss⟩ := whlLoss_hunts hst
    exact .of_effect rfl (by rw [whlGapMiss_loses hp hg, hloss]; exact whlToHunt_hunts d m1)
  · exact .of_effect rfl (by rw [whlGapMiss_loses hp hg]; exact whlLoss_freewheels hst hf hk hh ho)
  · exact .of_effect rfl (whlStall_lost hst hh)
  · exact .of_effect rfl (whlFwExpiry_hunts hst)

end Sys2Proof.Machine

/-! # O10: the commands of Lantern's slots

A command that finds its slot COMMITTED leaves it so, for `lanUnblock` goes by the entries of the slot table that read BLOCKED, and in a
table whose keys rise a slot has one entry. The statement asks no such order of the table. -/

namespace Sys2Proof.Machine

/-! ## The entries of the slot table -/

/-- An entry of a map whose keys rise is what its key reads. -/
theorem mapGet_of_mem {α : Type} {d v : α} {k : Nat} {l : List (Nat × α)} (hs : mapSorted l = true) (hm : (k, v) ∈ l) :
    mapGet d k l = v := by
  induction l with
  | nil => cases hm
  | cons e r ih =>
    rcases List.mem_cons.1 hm with rfl | hr
    · exact if_pos rfl
    · have hlt : e.1 < k := mapSorted_all hs _ hr
      exact (if_neg (by omega)).trans (ih (mapSorted_tail hs) hr)

/-- The slots that `lanUnblock` acts on. -/
def blockedSlots (m : Mach) : List Nat := (m.evts.filter (fun e => e.2.st == 6)).map (·.1)

theorem not_mem_blockedSlots {k : Nat} {m : Mach} (hs : mapSorted m.evts = true) (hk : (m.evt k).st ≠ 6) : k ∉ blockedSlots m := by
  intro h
  obtain ⟨⟨_, x⟩, hx, rfl⟩ := List.mem_map.1 h
  obtain ⟨hmem, h6⟩ := List.mem_filter.1 hx
  exact hk ((congrArg EvtSlot.st (mapGet_of_mem hs hmem)).trans (by simpa using h6))

/-! ## What leaves a slot as it is -/

@[simp] theorem evtRaise_fields (s b : Nat) (m : Mach) :
    (evtRaise s b m).evts = m.evts ∧ (evtRaise s b m).alarms = m.alarms ∧ (evtRaise s b m).notes = m.notes := by
  unfold evtRaise
  dsimp only
  split <;> simp

/-- Slot k is as it was, and no safety cause and no decoder happening was signalled. -/
structure SlotKept (k : Nat) (m m1 : Mach) : Prop where
  evt : m1.evt k = m.evt k
  alarms : m1.alarms = m.alarms
  notes : m1.notes = m.notes

theorem SlotKept.refl (k : Nat) (m : Mach) : SlotKept k m m := ⟨rfl, rfl, rfl⟩

theorem SlotKept.trans {k : Nat} {a b c : Mach} (x : SlotKept k a b) (y : SlotKept k b c) : SlotKept k a c :=
  ⟨y.evt.trans x.evt, y.alarms.trans x.alarms, y.notes.trans x.notes⟩

theorem SlotKept.each {k : Nat} {f : Nat → Mach → Mach} {l : List Nat} (h : ∀ j ∈ l, ∀ m, SlotKept k m (f j m)) (m : Mach) :
    SlotKept k m (m.each l f) := by
  induction l generalizing m with
  | nil => exact .refl k m
  | cons j l ih => exact (h j (by simp) m).trans (ih (fun i hi => h i (by simp [hi])) (f j m))

theorem slotKept_inc (k : Nat) (o : Obj) (m : Mach) : SlotKept k m (m.inc o) := ⟨by simp [Mach.evt], by simp, by simp⟩

theorem slotKept_evtRaise (k s b : Nat) (m : Mach) : SlotKept k m (evtRaise s b m) := ⟨by simp [Mach.evt], by simp, by simp⟩

section
variable {k s : Nat} (h : k ≠ s)
include h

theorem slotKept_updEvt (f : EvtSlot → EvtSlot) (m : Mach) : SlotKept k m (m.updEvt s f) :=
  ⟨Mach.setEvtSlot_ne _ h _, by simp, by simp⟩

theorem slotKept_evtBlock (c : Nat) (m : Mach) : SlotKept k m (evtBlock s c m) := by
  have hmiss : SlotKept k m (if (m.evt s).st = 2 then m.inc (R.EVT_CNT_MISS s) else m) := by
    split
    · exact slotKept_inc ..
    · exact .refl k m
  exact hmiss.trans ((slotKept_updEvt h ..).trans (slotKept_evtRaise ..))

/-- A target chosen for one slot leaves the others (R154, R155). -/
theorem slotKept_evtAim (above : Int) (m : Mach) : SlotKept k m (evtAim s above m) := by
  unfold evtAim
  split
  · exact (slotKept_updEvt h ..).trans ((slotKept_inc ..).trans ((slotKept_updEvt h ..).trans (slotKept_evtRaise ..)))
  · dsimp only
    split
    · exact slotKept_updEvt h ..
    · exact (slotKept_updEvt h ..).trans (slotKept_evtBlock h ..)
end

/-- Slots that leave BLOCKED leave a slot that is not BLOCKED as it is. -/
theorem slotKept_lanUnblock {k : Nat} {m : Mach} (hs : mapSorted m.evts = true) (hk : (m.evt k).st ≠ 6) :
    SlotKept k m (lanUnblock m) := by
  refine SlotKept.each (l := blockedSlots m) (fun j hj m' => ?_) m
  have hne : k ≠ j := fun e => not_mem_blockedSlots hs hk (e ▸ hj)
  dsimp only
  split
  · exact slotKept_evtAim hne ..
  · exact slotKept_updEvt hne ..

/-! ## A command in the tick of a handover (R179) -/

theorem evtCommit_fields (s : Nat) (m : Mach) : ((evtCommit s m).evt s).st = 3 ∧ (evtCommit s m).alarms = m.alarms ∧
    (evtCommit s m).notes = m.notes ∧ (mapSorted m.evts = true → mapSorted (evtCommit s m).evts = true) := by
  refine ⟨?_, by simp [evtCommit], by simp [evtCommit], fun h => ?_⟩
  · rw [evtCommit, (slotKept_evtRaise ..).evt, Mach.updEvt_same]
  · simpa [evtCommit, Mach.updEvt, Mach.setEvtSlot] using mapSorted_mapSet h

theorem evtCancel_committed {s : Nat} {m : Mach} (h : (m.evt s).st = 3) : evtCancel s m = m := by
  simp [evtCancel, h]

/-- A CANCEL in the tick of a handover that is due commits the pair and does nothing more. -/
theorem evtCmdCancel_due {s : Nat} {m : Mach} (hd : handoverDue m s = true) (hp : refreshPending m s = false)
    (hf : m.fieldStill = false) (hs : mapSorted m.evts = true) :
    SlotKept s (evtCommit s m) (evtCmdCancel s m) := by
  obtain ⟨hst, -, -, hsorted⟩ := evtCommit_fields s m
  have hkept : SlotKept s (evtCommit s m) (lanUnblock (evtCommit s m)) := slotKept_lanUnblock (hsorted hs) (by omega)
  have hplanned : (m.evt s).st = 2 := by simpa using (Bool.and_eq_true_iff.1 hd).1
  have hhand : evtHandIf s m = lanUnblock (evtCommit s m) := by simp [evtHandIf, evtHandover, hd, hp, hf, hplanned]
  rwa [evtCmdCancel, hhand, evtCancel_committed (by rw [hkept.evt, hst])]

@[simp] theorem rankNote_evts (w : Writer) (o : Obj) (m : Mach) : (rankNote w o m).evts = m.evts := by
  unfold rankNote
  split <;> rfl

@[simp] theorem answered_evts (w : Writer) (m : Mach) : (answered w m).evts = m.evts := by
  cases w <;> rfl

/-- The clause of O10 that `not_angleEventCommands` refutes, with the slot table's keys rising, as `mapSet` keeps them: CANCEL in the
tick of a handover finds the slot COMMITTED. -/
theorem cancel_leads_committed {s : State} {w : Writer} {n : Fin 1024} (hs : Settled s) (hsorted : mapSorted s.m.evts = true)
    (hd : handoverDue s.m n = true) (hp : refreshPending s.m n = false) (hf : s.m.fieldStill = false) :
    Leads (.cancel w n) s w (R.EVT_CMD n) false (fun m => (m.evt n).st = 3) := by
  obtain ⟨hst, halarms, hnotes, -⟩ := evtCommit_fields n s.m
  obtain ⟨hevt, hal, hno⟩ := evtCmdCancel_due hd hp hf hsorted
  refine fun hm => ⟨_, done_ok hm (by rw [hal, halarms, hs.1]) (by rw [hno, hnotes, hs.2]), rfl, ?_⟩
  simpa [Mach.evt] using (congrArg EvtSlot.st hevt).trans hst

/-! ## A slot table with two entries of one slot -/

/-- The reset state with decoder 0 LOCKED and forward and slot 0 twice in its table: its PLANNED entry is the one that is read and written,
and a BLOCKED one stands behind it. -/
def slotTwice : State :=
  ⟨[], { (State.reset.m.wr (R.WHL_STATE 0) 3).wr (R.WHL_DIR 0) 1 with evts := [(0, { st := 2 }), (0, { st := 6 })] }⟩

/-- Refutes O10: CANCEL in the tick of a handover finds its slot COMMITTED only where `lanUnblock`, which follows the handover, leaves it
so. In `slotTwice` it finds the slot in the BLOCKED entry behind, no cause stands, and the slot is ARMED again. No write of the table
makes a second entry of a slot, but the statement speaks of every settled state; where the keys rise the clause holds
(`cancel_leads_committed`). -/
theorem not_angleEventCommands : ¬ Obligations.AngleEventCommands := by
  unfold Obligations.AngleEventCommands
  intro h
  have hs : Settled slotTwice := ⟨rfl, rfl⟩
  have hm : May .keep (R.EVT_CMD 0) false slotTwice := by decide
  have hdue : handoverDue slotTwice.m 0 = true ∧ refreshPending slotTwice.m 0 = false ∧ slotTwice.m.fieldStill = false := by
    decide
  obtain ⟨hd, hp, hf⟩ := hdue
  obtain ⟨-, -, -, -, -, -, -, -, -, -, hcancel, -⟩ := h slotTwice .keep 0 hs
  obtain ⟨t, ht, -, hcommitted⟩ := hcancel hd hp hf hm
  have harmed : (t.m.evt 0).st = 1 := by
    obtain rfl := Host.Outcome.next.inj ((done_ok (eff := evtCmdCancel 0) hm (by decide) (by decide)).symm.trans ht)
    decide
  exact absurd (hcommitted.symm.trans harmed) (by decide)

end Sys2Proof.Machine

/-! # O11: the commands of the virtual masters and the cam axes

An equation for each case of an effect says what the command does. A publication also reaches the step outputs that follow the axis; what
they change stays on the channels, so the axis's own objects read what the publication wrote. -/

namespace Sys2Proof.Machine

/-! ## What the channels leave as it is -/

/-- What lies off the channels: the axes' records, the causes and happenings, and the objects below the channels' indices. -/
def Mach.offChans (m : Mach) : List (Nat × Ax) × List Nat × List Note × ({o : Obj // o.key < 0x300000} → Nat) :=
  (m.axes, m.alarms, m.notes, fun o => m.rd o.1)

theorem offChans_wr {o : Obj} (h : 0x300000 ≤ o.key) (v : Nat) (m : Mach) : (m.wr o v).offChans = m.offChans := by
  have hrd : (fun p : {o : Obj // o.key < 0x300000} => (m.wr o v).rd p.1) = fun p => m.rd p.1 :=
    funext fun p => rd_wr_ne (by have := p.2; omega) m v
  simp [Mach.offChans, hrd]

theorem offChans_inc {o : Obj} (h : 0x300000 ≤ o.key) (m : Mach) : (m.inc o).offChans = m.offChans :=
  offChans_wr h (min 0xFFFFFFFF (m.rd o + 1)) m

@[simp] theorem offChans_setChan (c : Nat) (x : Chan) (m : Mach) : (m.setChan c x).offChans = m.offChans := rfl

@[simp] theorem offChans_updChan (c : Nat) (f : Chan → Chan) (m : Mach) : (m.updChan c f).offChans = m.offChans := rfl

/-- The objects that a publication changes on a channel lie in the channels' indices. -/
theorem chan_keys (c : Nat) :
    0x300000 ≤ (R.CH_EVT c).key ∧ 0x300000 ≤ (R.CH_CNT_LATE c).key ∧ 0x300000 ≤ (R.CH_CNT_DROP c).key ∧
    0x300000 ≤ (R.CH_PT_COUNT c).key ∧ 0x300000 ≤ (R.CH_PT_LAG c).key := by
  simp only [Obj.key, R.CH_EVT, R.CH_CNT_LATE, R.CH_CNT_DROP, R.CH_PT_COUNT, R.CH_PT_LAG]
  omega

@[simp] theorem offChans_chRaise (c b : Nat) (m : Mach) : (chRaise c b m).offChans = m.offChans := by
  obtain ⟨hevt, -⟩ := chan_keys c
  unfold chRaise Mach.raise
  dsimp only
  split <;> exact offChans_wr hevt _ m

@[simp] theorem offChans_cntLate (c : Nat) (m : Mach) : (m.inc (R.CH_CNT_LATE c)).offChans = m.offChans := by
  obtain ⟨-, hlate, -⟩ := chan_keys c
  exact offChans_inc hlate m

@[simp] theorem offChans_cntDrop (c : Nat) (m : Mach) : (m.inc (R.CH_CNT_DROP c)).offChans = m.offChans := by
  obtain ⟨-, -, hdrop, -⟩ := chan_keys c
  exact offChans_inc hdrop m

@[simp] theorem offChans_outTransition (c : Nat) (lvl : Bool) (t : Nat) (m : Mach) :
    (outTransition c lvl t m).offChans = m.offChans := by
  unfold outTransition outApply
  extract_lets x again y z put m1
  have hlate : m1.offChans = m.offChans := by simp [m1]
  cases y.last with
  | none => dsimp only; split_ifs <;> rfl
  | some l => dsimp only; split_ifs <;> simp [hlate]

@[simp] theorem offChans_ptTurnDue (c : Nat) (t : Int) (m : Mach) : (ptTurnDue c t m).offChans = m.offChans := by
  unfold ptTurnDue
  dsimp only
  split
  · split <;> simp
  · rfl

@[simp] theorem offChans_ptTurn (c : Nat) (d : Bool) (m : Mach) : (ptTurn c d m).offChans = m.offChans := by
  unfold ptTurn
  split <;> simp

@[simp] theorem offChans_ptPlan (c : Nat) (m : Mach) : (ptPlan c m).offChans = m.offChans := by
  unfold ptPlan
  extract_lets
  split
  · rfl
  · extract_lets
    split
    · rfl
    · exact offChans_ptTurn c _ m

@[simp] theorem offChans_ptCount (c : Nat) (n : Int) (m : Mach) : (ptCount c n m).offChans = m.offChans := by
  obtain ⟨-, -, -, hcount, -⟩ := chan_keys c
  exact offChans_wr hcount _ m

@[simp] theorem offChans_ptPublish (c : Nat) (pub : Nat × Rat × Rat × Rat) (m : Mach) : (ptPublish c pub m).offChans = m.offChans := by
  obtain ⟨-, -, -, -, hkey⟩ := chan_keys c
  have hlag (n : Int) (m : Mach) : (m.wrI 32 (R.CH_PT_LAG c) n).offChans = m.offChans := offChans_wr hkey _ m
  unfold ptPublish
  dsimp only
  split
  · rw [offChans_ptPlan, offChans_updChan]
    split <;> split <;> simp [hlag]
  · rfl

/-- Machines alike off the channels have the same axes, causes and happenings, and read the same below the channels' indices. -/
theorem eq_of_offChans {m m1 : Mach} (h : m1.offChans = m.offChans) :
    m1.axes = m.axes ∧ m1.alarms = m.alarms ∧ m1.notes = m.notes ∧ ∀ o : Obj, o.key < 0x300000 → m1.rd o = m.rd o := by
  simp only [Mach.offChans, Prod.mk.injEq] at h
  obtain ⟨hax, hal, hno, hrd⟩ := h
  exact ⟨hax, hal, hno, fun o ho => congrFun hrd ⟨o, ho⟩⟩

/-! ## Writes that set nothing off -/

/-- A write whose effect signals no cause and no happening is carried out as it stands. -/
theorem writes_of_ok {c : Instr} {s : State} {w : Writer} {o : Obj} {mach : Bool} {eff : Mach → Eff} {m : Mach}
    (hc : exec c s = done (command w o mach eff) s) (hs : Settled s) (he : eff s.m = .ok m)
    (hq : m.alarms = s.m.alarms ∧ m.notes = s.m.notes) : Writes c s w o mach m := fun hm =>
  hc.trans (done_carried hm he (hq.1.trans hs.1) (hq.2.trans hs.2))

/-- A command whose effect signals no cause and no happening is its effect. -/
theorem to_of_quiet {c : Instr} {s : State} {f : Mach → Mach} {m : Mach} (hc : exec c s = done f s) (hs : Settled s)
    (hf : f s.m = m) (hq : m.alarms = s.m.alarms ∧ m.notes = s.m.notes) : To c s m :=
  hc.trans (done_quiet hf (hq.1.trans hs.1) (hq.2.trans hs.2))

/-! ## Virtual masters and the commands of an axis -/

section
variable {v a : Nat} {m : Mach}

theorem vmEnableOnEffect_starts (hr : (m.vm v).run = false) (hh : m.inHold = false) (hsl : m.pwr.fSleep = false) :
    vmEnableOnEffect v m = vmStart v (m.wr (R.VM_ENABLE v) 1) := by
  simp [vmEnableOnEffect, hr, hh, hsl]

theorem vmEnableOnEffect_runs (hr : (m.vm v).run = true) : vmEnableOnEffect v m = m.wr (R.VM_ENABLE v) 1 := by
  simp [vmEnableOnEffect, hr]

theorem axRunOnEffect_starts (h0 : m.axState a = 0) (hok : axStartOk m a = true) (hh : m.inHold = false)
    (hsl : m.pwr.fSleep = false) : axRunOnEffect a m = .ok (axStart a (m.wr (R.AX_RUN a) 1)) := by
  simp [axRunOnEffect, h0, hok, hh, hsl]

theorem axRunOnEffect_range (h0 : m.axState a = 0) (hok : axStartOk m a = false) : axRunOnEffect a m = .error .range := by
  simp [axRunOnEffect, h0, hok]

theorem axRunOnEffect_runs (h0 : m.axState a ≠ 0) : axRunOnEffect a m = .ok (m.wr (R.AX_RUN a) 1) := by
  simp [axRunOnEffect, h0]

theorem axResumeEffect_lost (h3 : m.axState a = 3) (hm : (axMaster m a m.now).isSome = true) :
    axResumeEffect a m = m.updAx a (fun x => { x with resume := true }) := by
  simp [axResumeEffect, h3, hm]

theorem axProfNextEffect_takes (h : v = 0xFFFF ∨ v < 4096 ∧ profValid m v = true) :
    axProfNextEffect a v m = .ok (m.wr (R.AX_PROF_NEXT a) v) := by
  rw [axProfNextEffect, if_pos h]

theorem axProfNextEffect_range (hn : v ≠ 0xFFFF) (hv : profValid m v = false) : axProfNextEffect a v m = .error .range := by
  simp [axProfNextEffect, hn, hv]

/-! ## Faults, losses and stale inputs -/

theorem nodeEccEffect_faults (h0 : m.axState a ≠ 0) (h5 : m.axState a ≠ 5) : nodeEccEffect a m =
    axRaise a 7 (axEnter a 5 (((camRaise 1 (m.inc R.CAM_CNT_ECC_FATAL)).alarm 6).updAx a
      (fun x => { x with pend := none, sub := none, resume := false }))) := by
  simp [nodeEccEffect, h0, h5]

theorem coastEndEffect_brakes {b : Subst} (hb : (m.ax a).sub = some b) (hn : b.brake = none) (h3 : m.axState a = 3) :
    coastEndEffect a m = m.updAx a (fun x => { x with
      sub := some { b with brake := some (b.t + 400 * m.rd (R.AX_LOSS_TIME a), m.rd (R.AX_LOSS_DECEL a)) } }) := by
  simp [coastEndEffect, hb, hn, h3]

theorem nmStaleEffect_valid {n : Nat} (h : m.on (R.NM_VALID n) = true) :
    nmStaleEffect n m = (m.wr (R.NM_VALID n) 0).inc (R.NM_CNT_STALE n) := by
  simp [nmStaleEffect, h]

/-! ## Evaluation -/

theorem nodeCorrected_counts (h0 : m.axState a ≠ 0) (h5 : m.axState a ≠ 5) (hf : m.fieldStill = false) :
    nodeCorrected a true m = camRaise 0 (m.inc R.CAM_CNT_ECC_CORR) := by
  simp [nodeCorrected, h0, h5, hf]

theorem camRaise_rd {o : Obj} (h : o.key ≠ R.CAM_EVT.key) (b : Nat) : (camRaise b m).rd o = m.rd o := rd_raise h

/-- A corrected node read leaves what an evaluation is decided by: time, the field side's states and the axis's state. -/
theorem nodeCorrected_fields (a : Nat) (ecc : Bool) (m : Mach) :
    (nodeCorrected a ecc m).now = m.now ∧ (nodeCorrected a ecc m).fieldStill = m.fieldStill ∧
    (nodeCorrected a ecc m).axState a = m.axState a := by
  unfold nodeCorrected
  split
  · have hstate : (R.AX_STATE a).key ≠ R.CAM_EVT.key ∧ (R.AX_STATE a).key ≠ R.CAM_CNT_ECC_CORR.key := by
      simp only [Obj.key, R.AX_STATE, R.CAM_EVT, R.CAM_CNT_ECC_CORR]
      omega
    have hhold : (camRaise 0 (m.inc R.CAM_CNT_ECC_CORR)).inHold = m.inHold := by
      rw [Mach.inHold, camRaise_rd (by decide), rd_inc_ne (by decide), Mach.inHold]
    refine ⟨by simp [Mach.now, camRaise], ?_, ?_⟩
    · rw [Mach.fieldStill, hhold]
      simp [Mach.fieldStill, Mach.keepHalted, Mach.core, Mach.inReset, camRaise]
    · rw [Mach.axState, camRaise_rd hstate.1, rd_inc_ne hstate.2, Mach.axState]
  · exact ⟨rfl, rfl, rfl⟩
end

section
variable {a : Nat} {ecc : Bool} {m m1 : Mach} (hf : m.fieldStill = false) (h1 : axTakeVdec a (nodeCorrected a ecc m) = m1)
include hf h1

theorem axEvaluate_waiting {mp : Rat × Rat × Rat} (hst : m.axState a = 1) (hm : axMaster m1 a (m.now + 48) = some mp) :
    axEvaluate a ecc m = axCompute a (m.now + 48) mp
      ((axRaise a 0 (axEnter a 2 m1)).updAx a (fun x => { x with good := some (m.now + 48, mp.1, mp.2.1) })) := by
  obtain ⟨hnow, hstill, hstate⟩ := nodeCorrected_fields a ecc m
  simp [axEvaluate, hnow, hstill, hstate, hf, h1, hst, hm]

theorem axEvaluate_following {mp : Rat × Rat × Rat} (hst : m.axState a = 2 ∨ m.axState a = 4)
    (hm : axMaster m1 a (m.now + 48) = some mp) : axEvaluate a ecc m = axCompute a (m.now + 48) mp
      (m1.updAx a (fun x => { x with good := some (m.now + 48, mp.1, mp.2.1) })) := by
  obtain ⟨hnow, hstill, hstate⟩ := nodeCorrected_fields a ecc m
  obtain hst | hst := hst <;> simp [axEvaluate, hnow, hstill, hstate, hf, h1, hst, hm]

theorem axEvaluate_resuming {mp : Rat × Rat × Rat} (hst : m.axState a = 3) (hm : axMaster m1 a (m.now + 48) = some mp)
    (hsub : (m1.ax a).sub.isSome = true) (hr : (m1.ax a).resume = true) (hj : axJoin m1 a = false) :
    axEvaluate a ecc m = axCompute a (m.now + 48) mp (axRaise a 2 (axEnter a 2 (m1.updAx a (fun x =>
      { x with sub := none, resume := false, good := some (m.now + 48, mp.1, mp.2.1) })))) := by
  obtain ⟨hnow, hstill, hstate⟩ := nodeCorrected_fields a ecc m
  obtain ⟨b, hb⟩ := Option.isSome_iff_exists.1 hsub
  simp [axEvaluate, hnow, hstill, hstate, hf, h1, hst, hm, hb, hr, hj]

theorem axEvaluate_lost {b : Subst} (hst : m.axState a = 3) (hb : (m1.ax a).sub = some b) (hr : (m1.ax a).resume = false) :
    axEvaluate a ecc m = axCompute a (m.now + 48) (substAt m1 a (m.now + 48) b)
      (m1.updAx a (fun x => { x with resume := false })) := by
  obtain ⟨hnow, hstill, hstate⟩ := nodeCorrected_fields a ecc m
  simp [axEvaluate, hnow, hstill, hstate, hf, h1, hst, hb, hr]

theorem axEvaluate_losing {b : Subst} (hst : m.axState a = 2 ∨ m.axState a = 4) (hm : axMaster m1 a (m.now + 48) = none)
    (hb : ((axLose a m1).ax a).sub = some b) :
    axEvaluate a ecc m = axCompute a (m.now + 48) (substAt (axLose a m1) a (m.now + 48) b) (axLose a m1) := by
  obtain ⟨hnow, hstill, hstate⟩ := nodeCorrected_fields a ecc m
  obtain hst | hst := hst <;> simp [axEvaluate, hnow, hstill, hstate, hf, h1, hst, hm, hb]
end

/-! ## Publication -/

/-- The objects that a publication writes (R197, R200). -/
def axShow (a : Nat) (e : AxEval) (m : Mach) : Mach :=
  (((((m.wrI 64 (R.AX_POS a) e.pos).wrI 32 (R.AX_SPEED a) e.sp).wrI 32 (R.AX_ACCEL a) e.ac).wrI 64 (R.AX_MPOS a) e.me).wr
    (R.AX_LAST_EVAL a) e.te).inc (R.AX_CNT_EVAL a)

theorem axShow_rd (a : Nat) (e : AxEval) (m : Mach) :
    (axShow a e m).rd (R.AX_POS a) = ofSigned 64 e.pos ∧ (axShow a e m).rd (R.AX_SPEED a) = ofSigned 32 e.sp ∧
    (axShow a e m).rd (R.AX_ACCEL a) = ofSigned 32 e.ac ∧ (axShow a e m).rd (R.AX_MPOS a) = ofSigned 64 e.me ∧
    (axShow a e m).rd (R.AX_LAST_EVAL a) = e.te ∧
    (axShow a e m).rd (R.AX_CNT_EVAL a) = min 0xFFFFFFFF (m.rd (R.AX_CNT_EVAL a) + 1) := by
  simp (disch := simp only [Obj.key, R.AX_POS, R.AX_SPEED, R.AX_ACCEL, R.AX_MPOS, R.AX_LAST_EVAL, R.AX_CNT_EVAL]; omega) only
    [axShow, Mach.wrI, rd_inc_same, rd_inc_ne, rd_wr_same, rd_wr_ne, and_self]

/-- The objects of a publication lie below the channels' indices. -/
theorem ax_keys_lt {a : Nat} (h : a < 128) :
    (R.AX_POS a).key < 0x300000 ∧ (R.AX_SPEED a).key < 0x300000 ∧ (R.AX_ACCEL a).key < 0x300000 ∧
    (R.AX_MPOS a).key < 0x300000 ∧ (R.AX_LAST_EVAL a).key < 0x300000 ∧ (R.AX_CNT_EVAL a).key < 0x300000 := by
  simp only [Obj.key, R.AX_POS, R.AX_SPEED, R.AX_ACCEL, R.AX_MPOS, R.AX_LAST_EVAL, R.AX_CNT_EVAL]
  omega

/-- Off the channels, an axis without a virtual decoder publishes by its objects, and its evaluation goes into its history. -/
theorem axPublishEffect_offChans {a : Nat} {m : Mach} {e : AxEval} (hp : (m.ax a).pend = some e) (hf : m.fieldStill = false)
    (hst : m.axState a = 2 ∨ m.axState a = 3 ∨ m.axState a = 4) (hv : (m.ax a).vdec = none) :
    ∃ dir, (axPublishEffect a m).offChans = (axShow a e (m.setAx a
      { m.ax a with pend := none, hist := (e :: (m.ax a).hist).take 4, vdir := dir })).offChans := by
  have hrun : ¬(m.fieldStill = true ∨ m.axState a ≠ 2 ∧ m.axState a ≠ 3 ∧ m.axState a ≠ 4) := by
    simp only [hf, Bool.false_eq_true, false_or]
    omega
  simp only [axPublishEffect, hp, hrun, hv, if_false]
  exact ⟨_, each_keeps (fun c => offChans_ptPublish c _) _ _⟩

theorem axPublish_goes {s : State} {a : Fin 128} {e : AxEval} (hs : Settled s) (hp : (s.m.ax a).pend = some e)
    (hf : s.m.fieldStill = false) (hst : s.m.axState a = 2 ∨ s.m.axState a = 3 ∨ s.m.axState a = 4) (hv : (s.m.ax a).vdec = none) :
    Goes (.axPublish a) s (fun m => m.rd (R.AX_POS a) = ofSigned 64 e.pos ∧ m.rd (R.AX_SPEED a) = ofSigned 32 e.sp ∧
      m.rd (R.AX_ACCEL a) = ofSigned 32 e.ac ∧ m.rd (R.AX_MPOS a) = ofSigned 64 e.me ∧ m.rd (R.AX_LAST_EVAL a) = e.te ∧
      m.rd (R.AX_CNT_EVAL a) = min 0xFFFFFFFF (s.m.rd (R.AX_CNT_EVAL a) + 1) ∧ (m.ax a).pend = none) := by
  obtain ⟨dir, hoff⟩ := axPublishEffect_offChans hp hf hst hv
  obtain ⟨hax, hal, hno, hrd⟩ := eq_of_offChans hoff
  obtain ⟨kpos, kspeed, kaccel, kmpos, klast, kcnt⟩ := ax_keys_lt a.isLt
  obtain ⟨hpos, hspeed, haccel, hmpos, hlast, hcnt⟩ := axShow_rd a e
    (s.m.setAx a { s.m.ax a with pend := none, hist := (e :: (s.m.ax a).hist).take 4, vdir := dir })
  refine .of_to (to_of_quiet rfl hs rfl ⟨hal.trans (by simp [axShow]), hno.trans (by simp [axShow])⟩)
    ⟨(hrd _ kpos).trans hpos, (hrd _ kspeed).trans hspeed, (hrd _ kaccel).trans haccel, (hrd _ kmpos).trans hmpos,
      (hrd _ klast).trans hlast, (hrd _ kcnt).trans hcnt, ?_⟩
  rw [Mach.ax, hax]
  exact congrArg Ax.pend (s.m.setAx_same a _)

/-- Settles O11: each command is `done` of its effect, whose laws above say what it does to the master, the axis or the input. -/
theorem axisCommands : Obligations.AxisCommands := by
  unfold Obligations.AxisCommands
  intro s w a hs
  refine ⟨fun v => ⟨fun hr hh hsl => ?_, fun hr => ?_, ?_⟩, ?_, fun h0 hok hm => done_turned hm (axRunOnEffect_range h0 hok),
    fun h0 => ?_, fun hm => done_acts hm rfl, fun h3 hm => ?_, fun v hv => ?_,
    fun v hn _ hv hm => done_turned hm (axProfNextEffect_range hn hv), fun ecc m1 mp hf h1 hmp => ⟨fun hst => ?_, fun hst => ?_,
      fun hst hsub hr hj => ?_⟩, fun ecc m1 b hf h1 => ⟨fun hst hb hr => ?_, fun hmp hst hb => ?_⟩,
    fun h0 h5 hf => nodeCorrected_counts h0 h5 hf, fun e hp hf hst hv => axPublish_goes hs hp hf hst hv,
    fun h0 h5 => done_of_eq (nodeEccEffect_faults h0 h5), fun b hb hn h3 => ?_, fun n hn => ?_⟩
  · exact writes_of_ok rfl hs (congrArg Except.ok (vmEnableOnEffect_starts hr hh hsl)) (by simp)
  · exact writes_of_ok rfl hs (congrArg Except.ok (vmEnableOnEffect_runs hr)) (by simp)
  · exact writes_of_ok rfl hs rfl (by simp)
  · rintro h0 hok hh hsl p rfl
    exact writes_of_ok rfl hs (axRunOnEffect_starts h0 hok hh hsl) (by simp)
  · exact writes_of_ok rfl hs (axRunOnEffect_runs h0) (by simp)
  · exact writes_of_ok rfl hs (congrArg Except.ok (axResumeEffect_lost h3 hm)) (by simp)
  · exact writes_of_ok rfl hs (axProfNextEffect_takes hv) (by simp)
  · exact done_of_eq (axEvaluate_waiting hf h1 hst hmp)
  · exact done_of_eq (axEvaluate_following hf h1 hst hmp)
  · exact done_of_eq (axEvaluate_resuming hf h1 hst hmp hsub hr hj)
  · exact done_of_eq (axEvaluate_lost hf h1 hst hb hr)
  · exact done_of_eq (axEvaluate_losing hf h1 hst hmp hb)
  · exact to_of_quiet rfl hs (coastEndEffect_brakes hb hn h3) (by simp)
  · exact to_of_quiet rfl hs (nmStaleEffect_valid hn) (by simp)

end Sys2Proof.Machine

/-! # O12: the commands of a registration unit

An equation for each case of an effect says what the command does. Only corrections, marks and misses can set something off: an enable or
a bind write that lands is the whole of its command. -/

namespace Sys2Proof.Machine

/-! ## What the operations of a unit leave -/

@[simp] theorem ocuPoll_quiet (u : Nat) (m : Mach) : (ocuPoll u m).alarms = m.alarms ∧ (ocuPoll u m).notes = m.notes := by
  unfold ocuPoll
  dsimp only
  split_ifs <;> simp

@[simp] theorem ocuWait_quiet (u : Nat) (m : Mach) : (ocuWait u m).alarms = m.alarms ∧ (ocuWait u m).notes = m.notes := by
  simp [ocuWait]

/-! ## Enabling, disabling and binding -/

section
variable {u v : Nat} {m : Mach}

theorem ocuEnableOnEffect_waits (hok : ocuEnableOk m u = true) (h0 : m.ocuState u = 0) (hh : m.inHold = false)
    (hsl : m.pwr.fSleep = false) : ocuEnableOnEffect u m = .ok (ocuPoll u (ocuWait u (m.wr (R.OCU_ENABLE u) 1))) := by
  simp [ocuEnableOnEffect, hok, h0, hh, hsl]

theorem ocuEnableOnEffect_stores (hok : ocuEnableOk m u = true) (h : m.ocuState u ≠ 0 ∨ m.inHold = true ∨ m.pwr.fSleep = true) :
    ocuEnableOnEffect u m = .ok (m.wr (R.OCU_ENABLE u) 1) := by
  simp [ocuEnableOnEffect, hok, h]

theorem ocuEnableOnEffect_range (hok : ocuEnableOk m u = false) : ocuEnableOnEffect u m = .error .range := by
  simp [ocuEnableOnEffect, hok]

/-- What an OCU_BIND write does, with its two bars (R54, R212). -/
def ocuBindEffect (u v : Nat) : Mach → Eff :=
  rws (ocuLoose u) (fun m => if ocuBindOk v then setOcuBind u v m else .error .range)

theorem ocuBindEffect_running (hl : ocuLoose u m = false) : ocuBindEffect u v m = .error .running := by
  simp [ocuBindEffect, rws, hl]

theorem ocuBindEffect_range (hl : ocuLoose u m = true) (hv : ocuBindOk v = false) : ocuBindEffect u v m = .error .range := by
  simp [ocuBindEffect, rws, hl, hv]

theorem ocuBindEffect_disabled (hl : ocuLoose u m = true) (hv : ocuBindOk v = true) (he : m.on (R.OCU_ENABLE u) = false) :
    ocuBindEffect u v m = .ok (m.wr (R.OCU_BIND u) v) := by
  simp [ocuBindEffect, rws, hl, hv, setOcuBind, he]

section
variable (hl : ocuLoose u m = true) (hv : ocuBindOk v = true) (he : m.on (R.OCU_ENABLE u) = true)
include hl hv he

theorem ocuBindEffect_no_capture (hc : m.chMode (bits 6 0 v) ≠ 3) : ocuBindEffect u v m = .error .range := by
  simp [ocuBindEffect, rws, hl, hv, setOcuBind, he, hc]

theorem ocuBindEffect_rebinds (hc : m.chMode (bits 6 0 v) = 3) (h0 : m.ocuState u ≠ 0) :
    ocuBindEffect u v m = .ok (ocuPoll u (ocuWait u (m.wr (R.OCU_BIND u) v))) := by
  simp [ocuBindEffect, rws, hl, hv, setOcuBind, he, hc, h0]

theorem ocuBindEffect_off (hc : m.chMode (bits 6 0 v) = 3) (h0 : m.ocuState u = 0) :
    ocuBindEffect u v m = .ok (m.wr (R.OCU_BIND u) v) := by
  simp [ocuBindEffect, rws, hl, hv, setOcuBind, he, hc, h0]
end

/-! ## Captures, expiries and firmware corrections -/

theorem ocuCaptureEffect_cons {t : Nat} {r : List Nat} (h : (m.ocu u).caps = t :: r) :
    ocuCaptureEffect u m = ocuProcess u t (m.updOcu u (fun x => { x with caps := r })) := by
  simp [ocuCaptureEffect, h]

theorem ocuCaptureEffect_nil (h : (m.ocu u).caps = []) : ocuCaptureEffect u m = m := by
  simp [ocuCaptureEffect, h]

theorem ocuDrain_nil (h : (m.ocu u).caps = []) : ocuDrain u m = m := by
  simp [ocuDrain, h, Mach.each]

theorem ocuFwCorrEffect_track (h : m.ocuState u = 3) : ocuFwCorrEffect u v m = (ocuCorrect u (toSigned 32 v) m).2 := by
  rw [ocuFwCorrEffect, if_pos h]

theorem ocuFwCorrEffect_no_track (h : m.ocuState u ≠ 3) : ocuFwCorrEffect u v m = m := by
  rw [ocuFwCorrEffect, if_neg h]

/-- The target in turn is over: the next one is in turn, and the marks up to it are done with (R214). -/
def ocuTurn (u : Nat) (m : Mach) : Mach :=
  m.updOcu u (fun x => { x with next := x.next + 1, marks := x.marks.filter (fun k => decide ((m.ocu u).next < k.c)) })

theorem not_idle_of_measures (hst : m.ocuState u = 2 ∨ m.ocuState u = 3) (hme : ocuMeasures m u = true) :
    ¬((m.ocuState u ≠ 2 ∧ m.ocuState u ≠ 3) ∨ (!ocuMeasures m u) = true) := by
  rintro (⟨h2, h3⟩ | hn)
  · exact hst.elim h2 h3
  · simp [hme] at hn

section
variable {m1 : Mach} (h1 : m1 = ocuDrain u m)
include h1

/-- A unit that does not measure when the captures are taken has no target in turn. -/
theorem ocuExpire_idle (h : (m1.ocuState u ≠ 2 ∧ m1.ocuState u ≠ 3) ∨ ocuMeasures m1 u = false) : ocuExpire u m = m1 := by
  simp only [ocuExpire, ← h1, Bool.not_eq_true', if_pos h]

variable (hst : m1.ocuState u = 2 ∨ m1.ocuState u = 3) (hme : ocuMeasures m1 u = true)
include hst hme

theorem ocuExpire_missed (hk : (m1.ocu u).marks.find? (fun k => k.c == (m1.ocu u).next) = none) :
    ocuExpire u m = ocuMiss u (ocuTurn u m1) := by
  simp only [ocuExpire, ← h1, if_neg (not_idle_of_measures hst hme), hk]
  rfl

theorem ocuExpire_marked {k : Mark} (hk : (m1.ocu u).marks.find? (fun k => k.c == (m1.ocu u).next) = some k) :
    ocuExpire u m = if ocuUndo m u ∧ k.n = 1 then ocuCredit u (ocuTurn u m1) else ocuTurn u m1 := by
  simp only [ocuExpire, ← h1, if_neg (not_idle_of_measures hst hme), hk]
  rfl
end
end

/-- Settles O12: each command is `done` of its effect, whose laws above say what it does to the unit; where nothing is set off, that is
the whole of it. -/
theorem oculusCommands : Obligations.OculusCommands := by
  unfold Obligations.OculusCommands
  intro s w u hs
  refine ⟨fun hok h0 hh hsl => ?_, fun hok h => ?_, fun hok hm => done_turned hm (ocuEnableOnEffect_range hok), ?_,
    fun v hl hv he => ⟨fun hc h0 => ?_, fun hc h0 => ?_, fun hc hm => done_turned hm (ocuBindEffect_no_capture hl hv he hc)⟩,
    fun v hl hv he => ?_, fun v hl hv hm => done_turned hm (ocuBindEffect_range hl hv),
    fun v hl hm => done_turned hm (ocuBindEffect_running hl), fun t r h => done_of_eq (ocuCaptureEffect_cons h), fun h => ?_,
    fun m h1 => ⟨fun h => h1.trans (ocuDrain_nil h), fun h => done_of_eq (ocuExpire_idle h1 h), ?_⟩, fun v => ⟨?_, fun h => ?_⟩⟩
  · exact writes_of_ok rfl hs (ocuEnableOnEffect_waits hok h0 hh hsl) (by simp)
  · exact writes_of_ok rfl hs (ocuEnableOnEffect_stores hok h) (by simp)
  · exact writes_of_ok rfl hs rfl (by simp)
  · exact writes_of_ok rfl hs (ocuBindEffect_rebinds hl hv he hc h0) (by simp)
  · exact writes_of_ok rfl hs (ocuBindEffect_off hl hv he hc h0) (by simp)
  · exact writes_of_ok rfl hs (ocuBindEffect_disabled hl hv he) (by simp)
  · exact to_of_quiet rfl hs (ocuCaptureEffect_nil h) ⟨rfl, rfl⟩
  · rintro hst hme m2 rfl
    exact ⟨fun hk => done_of_eq (ocuExpire_missed h1 hst hme hk), fun k hk => done_of_eq (ocuExpire_marked h1 hst hme hk)⟩
  · rintro h hm m rfl
    exact done_acts hm (congrArg Except.ok (ocuFwCorrEffect_track h))
  · exact writes_of_ok rfl hs (congrArg Except.ok (ocuFwCorrEffect_no_track h)) ⟨rfl, rfl⟩

end Sys2Proof.Machine

/-! # The second of two writes, and objects of one index

What O13 to O15 share: a second write of a key stands alone, and the objects of a unit are told apart by their subindices. -/

namespace Sys2Proof.Machine

/-! ## A second write of one key -/

theorem mapPut_mapPut {α : Type} (k : Nat) (v w : α) (l : List (Nat × α)) : mapPut k v (mapPut k w l) = mapPut k v l := by
  induction l with
  | nil => simp [mapPut]
  | cons e r ih =>
    rw [mapPut]
    split_ifs with h1 h2
    · simp [mapPut, h1]
    · simp [mapPut, h1, h2]
    · simp [mapPut, h1, h2, ih]

theorem mapDel_mapDel {α : Type} (k : Nat) (l : List (Nat × α)) : mapDel k (mapDel k l) = mapDel k l := by
  induction l with
  | nil => rfl
  | cons e r ih =>
    rw [mapDel]
    split_ifs with h
    · exact ih
    · rw [mapDel, if_neg h, ih]

theorem mapDel_mapPut {α : Type} (k : Nat) (w : α) (l : List (Nat × α)) : mapDel k (mapPut k w l) = mapDel k l := by
  induction l with
  | nil => simp [mapPut, mapDel]
  | cons e r ih =>
    rw [mapPut]
    split_ifs with h1 h2
    · simp [mapDel, h1]
    · simp [mapDel, h1]
    · simp [mapDel, h1, ih]

/-- The second of two writes of a key stands alone, unless the first one took the entry out and the second puts one in: the place of the
new entry then depends on the order of the list. -/
theorem mapSet_mapSet {α : Type} [DecidableEq α] {d v w : α} (h : w = d → v = d) (k : Nat) (l : List (Nat × α)) :
    mapSet d k v (mapSet d k w l) = mapSet d k v l := by
  unfold mapSet
  split_ifs with hv hw hw
  · exact mapDel_mapDel k l
  · exact mapDel_mapPut k w l
  · exact absurd (h hw) hv
  · exact mapPut_mapPut k v w l

/-! In a list whose keys rise a new entry has one place. -/

theorem mapDel_of_absent {α : Type} {k : Nat} {l : List (Nat × α)} (h : ∀ b ∈ l, k ≠ b.1) : mapDel k l = l := by
  induction l with
  | nil => rfl
  | cons e r ih => rw [mapDel, if_neg (h e (by simp)), ih fun b hb => h b (by simp [hb])]

theorem mapPut_mapDel {α : Type} {l : List (Nat × α)} (hs : mapSorted l = true) (k : Nat) (v : α) :
    mapPut k v (mapDel k l) = mapPut k v l := by
  induction l with
  | nil => rfl
  | cons e r ih =>
    have hall := mapSorted_all hs
    obtain hlt | rfl | hgt := Nat.lt_trichotomy k e.1
    · rw [mapDel_of_absent]
      intro b hb
      obtain rfl | hb := List.mem_cons.1 hb
      · exact hlt.ne
      · exact (hlt.trans (hall b hb)).ne
    · rw [mapDel, if_pos rfl, mapDel_of_absent fun b hb => (hall b hb).ne, mapPut, if_pos rfl]
      cases r with
      | nil => rfl
      | cons b r =>
        have hb := hall b (by simp)
        rw [mapPut, if_neg hb.ne, if_pos hb]
    · rw [mapDel, if_neg hgt.ne', mapPut, if_neg hgt.ne', if_neg hgt.not_gt, ih (mapSorted_tail hs), mapPut, if_neg hgt.ne',
        if_neg hgt.not_gt]

theorem mapSet_mapSet_of_sorted {α : Type} [DecidableEq α] {l : List (Nat × α)} (hs : mapSorted l = true) (d v w : α) (k : Nat) :
    mapSet d k v (mapSet d k w l) = mapSet d k v l := by
  by_cases h : w = d → v = d
  · exact mapSet_mapSet h k l
  · obtain ⟨hw, hv⟩ := Classical.not_imp.mp h
    simp only [mapSet, if_pos hw, if_neg hv, mapPut_mapDel hs]

/-! ## Objects -/

theorem wr_wr_same (o : Obj) (v : Nat) (m : Mach) : (m.wr o v).wr o v = m.wr o v :=
  congrArg (fun r => { m with regs := r }) (mapSet_mapSet id o.key m.regs)

/-- Two objects of one index are told apart by their subindices. -/
theorem key_ne_of_sub {o p : Obj} (hi : o.idx = p.idx) (hs : (o.sub == p.sub) = false) : o.key ≠ p.key := by
  rw [beq_eq_false_iff_ne] at hs
  simp only [Obj.key, hi]
  omega

end Sys2Proof.Machine

/-! # O13: the commands of the channels

What an effect does in each of its cases is one equation. A mode that is written returns the measurement's objects to their defaults in
the next tick, and a capture that no unit of Oculus takes is delivered to none, for a channel's objects are not Oculus's. -/

namespace Sys2Proof.Machine

/-! ## Objects returned to their defaults -/

theorem rd_dflt_of_key {o p : Obj} (h : o.key = p.key) (m : Mach) : (m.dflt p).rd o = o.dflt := by
  rw [Mach.rd, h, Mach.dflt, Mach.wr]
  exact (congrArg (mapGet o.dflt p.key) (if_pos rfl)).trans (mapGet_mapDel_same ..)

theorem rd_dflts (o : Obj) (l : List Obj) (m : Mach) :
    (m.dflts l).rd o = if o.key ∈ l.map Obj.key then o.dflt else m.rd o := by
  induction l generalizing m with
  | nil => rfl
  | cons p l ih =>
    refine (ih (m.dflt p)).trans ?_
    by_cases hl : o.key ∈ l.map Obj.key
    · simp [hl]
    · by_cases hp : o.key = p.key
      · simp [hp, rd_dflt_of_key]
      · simp [hl, hp, Mach.dflt, rd_wr_ne]

@[simp] theorem dflts_chans (l : List Obj) (m : Mach) : (m.dflts l).chans = m.chans := by
  induction l generalizing m with
  | nil => rfl
  | cons o l ih => exact (ih (m.dflt o)).trans (by simp)

/-! ## Mode and enable -/

theorem chan_congr {m m1 : Mach} (h : m1.chans = m.chans) (c : Nat) : m1.chan c = m.chan c := by rw [Mach.chan, Mach.chan, h]

@[simp] theorem chan_wr (c : Nat) (o : Obj) (v : Nat) (m : Mach) : (m.wr o v).chan c = m.chan c := rfl

@[simp] theorem sdDrawn_fields (c : Nat) (m : Mach) : (sdDrawn c m).regs = m.regs ∧ (sdDrawn c m).chans = m.chans ∧
    (sdDrawn c m).alarms = m.alarms ∧ (sdDrawn c m).notes = m.notes := by
  unfold sdDrawn
  split <;> simp [Mach.free]

section
variable {c : Fin 128} {v : Nat} {m : Mach}

/-- What a write of CH_MODE does (R54, R227). -/
def chModeWriteEffect (c : Fin 128) (v : Nat) : Mach → Eff :=
  rws (chLoose c) (fun m => if chModeOk c v then chModeEffect c v m else .error .range)

theorem chModeWriteEffect_stores (hl : chLoose c m = true) (hv : chModeOk c v = true) (ho : chOwner m c = 0) :
    chModeWriteEffect c v m = .ok (setChMode c v m) := by
  simp [chModeWriteEffect, rws, hl, hv, chModeEffect, ho]

theorem chModeWriteEffect_owned (hl : chLoose c m = true) (hv : chModeOk c v = true) (ho : chOwner m c ≠ 0) :
    chModeWriteEffect c v m = .error .range := by
  simp [chModeWriteEffect, rws, hl, hv, chModeEffect, ho]

theorem chModeWriteEffect_running (hl : chLoose c m = false) : chModeWriteEffect c v m = .error .running := by
  simp [chModeWriteEffect, rws, hl]
end

section
variable {c : Nat} {m : Mach}

/-- In the tick after its write a mode begins with an empty queue and its initial level, and the measurement's objects are cleared. -/
theorem chModeTakes_begins (h : (m.chan c).was.isSome = true) :
    ∃ m1 : Mach, chModeTakes c m = m1.dflts [R.CH_PERIOD c, R.CH_HIGH c, R.CH_FREQ c, R.CH_SD_RESULT c, R.CH_SD_STAMP c,
      R.CH_PT_COUNT c, R.CH_PT_LAG c] ∧ m1.regs = m.regs ∧ (m1.chan c).was = none ∧ (m1.chan c).q = [] ∧
      (m1.chan c).ghost = [] ∧ (m1.chan c).lvl = initLevel m c (m.rd (R.CH_MODE c)) := by
  have hn : (m.chan c).was.isNone = false := by simpa [Option.isSome_iff_ne_none] using h
  unfold chModeTakes
  rw [if_neg (by simp [hn])]
  refine ⟨_, rfl, ?_⟩
  split <;> simp [chan_congr (sdDrawn_fields c _).2.1]

theorem setChEn_range (he : m.chEn c = false) (hok : chEnableOk m c = false) : setChEn c true m = .error .range := by
  simp [setChEn, he, hok]

theorem setChEn_starts (he : m.chEn c = false) (hok : chEnableOk m c = true) :
    setChEn c true m = .ok (chStart c (m.wr (R.CH_EN c) 1)) := by
  simp [setChEn, he, hok]

theorem setChEn_runs (he : m.chEn c = true) : setChEn c true m = .ok m := by
  simp [setChEn, he]

/-- A channel that CH_EN stops, before its clock's users hear of it. -/
def chOff (c : Nat) (m : Mach) : Mach :=
  (m.updChan c (fun x => { x with ghost := [], lock := none, pt := {}, sd := { x.sd with clk0 := none } })).wr (R.CH_EN c) 0

theorem chOff_clock (c : Nat) (m : Mach) : (chOff c m).chMode c = m.chMode c ∧ (chOff c m).sdClock c = m.sdClock c := by
  simp (disch := exact key_ne_of_sub rfl rfl) [chOff, Mach.chMode, Mach.sdClock, rd_wr_ne]

theorem setChEn_stops (h : m.chMode c ≠ 10 ∨ m.sdClock c = false) : setChEn c false m = .ok (chOff c m) := by
  obtain ⟨hm, hc⟩ := chOff_clock c m
  have hno : ¬((chOff c m).chMode c = 10 ∧ (chOff c m).sdClock c = true) := by
    rw [hm, hc, not_and_or, Bool.not_eq_true]
    exact h
  exact congrArg Except.ok (if_neg hno)

theorem setChEn_stops_clock (hm : m.chMode c = 10) (hc : m.sdClock c = true) :
    setChEn c false m = .ok ((chOff c m).each (sdUsers (chOff c m) c) (fun k n => n.updChan k (fun x =>
      { x with sd := { x.sd with idle := n.now } }))) := by
  obtain ⟨hm1, hc1⟩ := chOff_clock c m
  exact congrArg Except.ok (if_pos ⟨hm1.trans hm, hc1.trans hc⟩)

theorem setGpio_drives {v : Bool} (hm : m.chMode c = 1) (hd : m.chDirOut c = true) (he : m.chEn c = true) :
    setGpio c v m = outTransition c v m.now8 (m.wr (R.CH_GPIO_OUT c) (boolNat v)) := by
  simp [setGpio, hm, hd, he]

theorem setGpio_waits {v : Bool} (hm : m.chMode c = 1) (h : m.chDirOut c = false ∨ m.chEn c = false) :
    setGpio c v m = (m.wr (R.CH_GPIO_OUT c) (boolNat v)).updChan c (fun x => { x with lvl := v, fut := [] }) := by
  obtain h | h := h <;> simp [setGpio, hm, h]

theorem setGpio_stores {v : Bool} (hm : m.chMode c ≠ 1) : setGpio c v m = m.wr (R.CH_GPIO_OUT c) (boolNat v) := by
  simp [setGpio, hm]

/-! ## Edges -/

/-- Oculus's units go by their own objects, which a channel leaves as they are. -/
theorem ocuUnits_of_offChans {m1 : Mach} (h : m1.offChans = m.offChans) : ocuUnits m1 c = ocuUnits m c := by
  obtain ⟨-, -, -, hrd⟩ := eq_of_offChans h
  refine List.filter_congr fun u hu => ?_
  have hu : u < 16 := List.mem_range.mp hu
  have hen : (R.OCU_ENABLE u).key < 0x300000 := by simp only [Obj.key, R.OCU_ENABLE]; omega
  have hbind : (R.OCU_BIND u).key < 0x300000 := by simp only [Obj.key, R.OCU_BIND]; omega
  simp only [Mach.on, ocuChan, hrd _ hen, hrd _ hbind]

theorem offChans_cntEvents (c : Nat) (m : Mach) : (m.inc (R.CH_CNT_EVENTS c)).offChans = m.offChans :=
  offChans_inc (by simp only [Obj.key, R.CH_CNT_EVENTS]; omega) m

theorem captureTo_queues {lvl : Bool} {t : Nat} (hu : ocuUnits m c = []) (he : edgeSel m c lvl = true) :
    captureTo c lvl false t m = chResult c (2 ^ 63 + boolNat lvl * 2 ^ 62 + t % 2 ^ 61)
      ((m.inc (R.CH_CNT_EVENTS c)).raise (R.CH_EVT c) (R.CH_EVT_EN c) 0 c) := by
  have hd : captureDeliver c lvl false false t m = chResult c (2 ^ 63 + boolNat lvl * 2 ^ 62 + t % 2 ^ 61)
      (chRaise c 0 (m.inc (R.CH_CNT_EVENTS c))) := by
    simp [captureDeliver, he, boolNat, t61]
  have hu1 : ocuUnits (captureDeliver c lvl false false t m) c = [] :=
    (ocuUnits_of_offChans (by simp [hd, chResult, offChans_cntEvents])).trans hu
  have ht : captureTo c lvl false t m = ocuDeliver c t (captureDeliver c lvl false false t m) := by simp [captureTo, hu, he]
  rw [ht, ocuDeliver, hu1, hd]
  rfl

/-- An edge that passes the input stage is delivered where the mode takes edges. -/
theorem inputEdge_delivers {modes : List Nat} {rise lvl : Bool} {t t1 : Nat} {deliver : Bool → Nat → Mach → Mach} {m1 : Mach}
    (hm : m.chMode c ∈ modes) (ha : chAccept c rise t m = (some (lvl, t1), m1)) :
    inputEdge modes c rise t deliver m = deliver lvl t1 m1 := by
  simp [inputEdge, hm, ha]

theorem gpioOrTurret_gpio {lvl : Bool} {t : Nat} (hm : m.chMode c = 1) (he : edgeSel m c lvl = true) :
    gpioOrTurret c lvl t m = m.raise (R.CH_EVT c) (R.CH_EVT_EN c) 0 c := by
  simp [gpioOrTurret, hm, gpioDeliver, he, chRaise]

theorem gpioOrTurret_turret {lvl : Bool} {t : Nat} (hm : m.chMode c = 9) : gpioOrTurret c lvl t m = turEdge c lvl t m := if_pos hm

section
variable {t r : Nat} (hp : bit 1 (m.rd (R.CH_PF_CFG c)) = false) (hr : (m.chan c).rise = some r)
include hp hr

theorem periodDeliver_measures (hn : (m.chan c).noSig = false) : periodDeliver c true t m =
    pfResult c (min 0xFFFFFFFF (t - r)) false (chRaise c 0
      (((m.setChan c { m.chan c with rise := some t, noSig := false }).wr (R.CH_PERIOD c) (min 0xFFFFFFFF (t - r))).inc
        (R.CH_CNT_EVENTS c))) := by
  simp [periodDeliver, hp, hr, hn]

theorem periodDeliver_resumes (hn : (m.chan c).noSig = true) :
    periodDeliver c true t m = m.setChan c { m.chan c with rise := some t, noSig := false } := by
  simp [periodDeliver, hp, hr, hn]

theorem periodDeliver_falls : periodDeliver c false t m = m.wr (R.CH_HIGH c) (min 0xFFFFFFFF (t - r)) := by
  simp [periodDeliver, hp, hr]
end

/-! ## Ends of lockouts, timeouts and gates -/

theorem lockoutEndEffect_level {last : Nat} (hl : (m.chan c).lock = some (last, m.chIn c)) :
    lockoutEndEffect c m = m.setChan c { m.chan c with lock := none } := by
  simp [lockoutEndEffect, hl]

theorem lockoutEndEffect_capture {last : Nat} {left : Bool} (hl : (m.chan c).lock = some (last, left)) (hne : m.chIn c ≠ left)
    (hf : m.fieldStill = false) (he : m.chEn c = true) (hm : m.chMode c = 3) : lockoutEndEffect c m =
      captureTo c (m.chIn c) true (8 * last) (chRaise c 5 (m.setChan c { m.chan c with lock := none })) := by
  simp [lockoutEndEffect, hl, hne, hf, he, hm]

theorem gateEdge_within {t : Nat} (h1 : (m.chan c).gate ≤ t / 8)
    (h2 : t / 8 < (m.chan c).gate + 400 * bits 31 16 (m.rd (R.CH_PF_CFG c))) :
    ((gateEdge c t m).chan c).gateN = (m.chan c).gateN + 1 ∧ ((gateEdge c t m).chan c).gateL = t := by
  rw [gateEdge, if_neg (Nat.not_le.mpr h2), if_neg (Nat.not_lt.mpr h1)]
  simp

theorem gateEdge_later {t : Nat} (h : (m.chan c).gate + 400 * bits 31 16 (m.rd (R.CH_PF_CFG c)) ≤ t / 8) :
    ((gateEdge c t m).chan c).gateN = (m.chan c).gateN ∧ ((gateEdge c t m).chan c).gateX = (m.chan c).gateX ++ [t] := by
  rw [gateEdge, if_pos h]
  simp

theorem noSignalEffect_clears (hm : m.chMode c = 4) (he : m.chEn c = true) : noSignalEffect c m =
    pfResult c 0 true (chRaise c 6 ((m.updChan c (fun x => { x with noSig := true })).dflts
      [R.CH_PERIOD c, R.CH_HIGH c, R.CH_FREQ c])) :=
  if_pos ⟨hm, he⟩

/-- The frequency of a gate from its edges (R242). -/
def gateFreq (x : Chan) : Nat :=
  if 2 ≤ x.gateN ∧ x.gateF < x.gateL then
    min 0xFFFFFFFF (ratRound (((x.gateN - 1) * 3200000000000 : Nat) / ((x.gateL - x.gateF : Nat) : Rat))).toNat
  else 0

theorem freqGate_publishes (hm : m.chMode c = 4) (he : m.chEn c = true) (hp : bit 1 (m.rd (R.CH_PF_CFG c)) = true) :
    freqGate c m = pfResult c (gateFreq (m.chan c)) false (chRaise c 0 (((Mach.each (m.chan c).gateX (gateEdge c) (m.setChan c
      { m.chan c with gate := m.now, gateN := 0, gateX := [] })).wr (R.CH_FREQ c) (gateFreq (m.chan c))).inc (R.CH_CNT_EVENTS c))) :=
  if_pos ⟨hm, he, hp⟩
end

/-- The channel in its new mode, in the tick after the write (R227). -/
theorem chModeTakes_does {c : Nat} {m : Mach} (h : (m.chan c).was.isSome = true) :
    ((chModeTakes c m).chan c).q = [] ∧ ((chModeTakes c m).chan c).ghost = [] ∧
    ((chModeTakes c m).chan c).lvl = initLevel m c (m.rd (R.CH_MODE c)) ∧ (chModeTakes c m).chMode c = m.rd (R.CH_MODE c) ∧
    ∀ o ∈ [R.CH_PERIOD c, R.CH_HIGH c, R.CH_FREQ c, R.CH_SD_RESULT c, R.CH_SD_STAMP c, R.CH_PT_COUNT c, R.CH_PT_LAG c],
      (chModeTakes c m).rd o = 0 := by
  obtain ⟨m1, hm, hregs, hwas, hq, hghost, hlvl⟩ := chModeTakes_begins h
  have hmode : (chModeTakes c m).rd (R.CH_MODE c) = m.rd (R.CH_MODE c) := by
    rw [hm, rd_dflts, if_neg, Mach.rd, hregs, Mach.rd]
    simp only [List.map, List.mem_cons, List.not_mem_nil, or_false, Obj.key, R.CH_MODE, R.CH_PERIOD, R.CH_HIGH, R.CH_FREQ,
      R.CH_SD_RESULT, R.CH_SD_STAMP, R.CH_PT_COUNT, R.CH_PT_LAG]
    omega
  have hchan : (chModeTakes c m).chan c = m1.chan c := chan_congr (by rw [hm, dflts_chans]) c
  rw [Mach.chMode, hchan, hwas]
  refine ⟨hq, hghost, hlvl, hmode, fun o ho => ?_⟩
  rw [hm, rd_dflts, if_pos (List.mem_map_of_mem ho)]
  simp only [List.mem_cons, List.not_mem_nil, or_false] at ho
  obtain rfl | rfl | rfl | rfl | rfl | rfl | rfl := ho <;> rfl

@[simp] theorem outTransition_quiet (c : Nat) (lvl : Bool) (t : Nat) (m : Mach) :
    (outTransition c lvl t m).alarms = m.alarms ∧ (outTransition c lvl t m).notes = m.notes := by
  obtain ⟨-, hal, hno, -⟩ := eq_of_offChans (offChans_outTransition c lvl t m)
  exact ⟨hal, hno⟩

/-- Settles O13: each command is `done` of its effect, whose laws above say what it does to the channel. -/
theorem channelCommands : Obligations.ChannelCommands := by
  unfold Obligations.ChannelCommands
  intro s w c hs
  refine ⟨fun v hl hv => ⟨fun ho => ?_, fun ho hm => done_turned hm (chModeWriteEffect_owned hl hv ho)⟩,
    fun v hl hm => done_turned hm (chModeWriteEffect_running hl), chModeTakes_does, ?_, ?_,
    fun he hok hm => done_turned hm (setChEn_range he hok), fun he => ?_, ?_,
    fun rise lvl t t1 m ha => ⟨fun hm hm1 he => ?_, fun hm hm1 => ?_, fun hm hu he => ?_, fun r hm hp hr => ⟨?_, ?_, ?_⟩⟩,
    fun last left hl => ⟨?_, fun hne hf he hm => ?_⟩, fun hm he => ?_, ?_, ?_⟩
  · exact writes_of_ok rfl hs (chModeWriteEffect_stores hl hv ho) (by simp)
  · rintro m rfl
    refine ⟨fun h => ?_, fun hm hc => ?_⟩
    · exact writes_of_ok rfl hs (setChEn_stops h) (by simp)
    · exact writes_of_ok rfl hs (setChEn_stops_clock hm hc)
        ⟨each_keeps (g := Mach.alarms) (by simp) _ _, each_keeps (g := Mach.notes) (by simp) _ _⟩
  · rintro m rfl he hok
    exact writes_of_ok rfl hs (setChEn_starts he hok) (by simp)
  · exact writes_of_ok rfl hs (setChEn_runs he) ⟨rfl, rfl⟩
  · rintro v m rfl
    refine ⟨fun hm hd he => ?_, fun hm h => ?_, fun hm => ?_⟩
    · exact writes_of_ok rfl hs (congrArg Except.ok (setGpio_drives hm hd he)) (by simp)
    · exact writes_of_ok rfl hs (congrArg Except.ok (setGpio_waits hm h)) (by simp)
    · exact writes_of_ok rfl hs (congrArg Except.ok (setGpio_stores hm)) (by simp)
  · exact done_of_eq ((inputEdge_delivers (by simp [hm]) ha).trans (gpioOrTurret_gpio hm1 he))
  · exact done_of_eq ((inputEdge_delivers (by simp [hm]) ha).trans (gpioOrTurret_turret hm1))
  · exact done_of_eq ((inputEdge_delivers (by simp [hm]) ha).trans (captureTo_queues hu he))
  · rintro rfl hn
    exact done_of_eq ((inputEdge_delivers (by simp [hm]) ha).trans (periodDeliver_measures hp hr hn))
  · rintro rfl hn
    exact done_of_eq ((inputEdge_delivers (by simp [hm]) ha).trans (periodDeliver_resumes hp hr hn))
  · rintro rfl
    exact done_of_eq ((inputEdge_delivers (by simp [hm]) ha).trans (periodDeliver_falls hp hr))
  · rintro rfl
    exact to_of_quiet rfl hs (lockoutEndEffect_level hl) (by simp)
  · exact done_of_eq (lockoutEndEffect_capture hl hne hf he hm)
  · exact done_of_eq (noSignalEffect_clears hm he)
  · rintro f hm he hp rfl
    exact done_of_eq (freqGate_publishes hm he hp)
  · rintro t len rfl
    exact ⟨gateEdge_within, gateEdge_later⟩

end Sys2Proof.Machine

/-! # O14: the ports and outputs of the channels

A late COMPARE entry that stays to be played is replaced in the queue by one write of the channel's record. The statement takes it out and
puts it back, and between the two the record may stand in its reset form, which the list of records does not hold. In a list whose keys
rise both ways give the same; the statement asks no such order. -/

namespace Sys2Proof.Machine

/-! ## A late entry that stays to be played (R237) -/

theorem updChan_updChan {m : Mach} (hs : mapSorted m.chans = true) (c : Nat) (f g : Chan → Chan) :
    (m.updChan c f).updChan c g = m.updChan c (fun x => g (f x)) := by
  rw [Mach.updChan, Mach.updChan_same]
  exact congrArg (fun l => { m with chans := l }) (mapSet_mapSet_of_sorted hs ..)

@[simp] theorem chRaise_fields (c b : Nat) (m : Mach) :
    (chRaise c b m).chans = m.chans ∧ (chRaise c b m).alarms = m.alarms ∧ (chRaise c b m).notes = m.notes := by
  simp [chRaise]

theorem compareArm_late {c : Nat} {m : Mach} {e : Entry} {r : List Entry} (hm : m.chMode c = 2) (he : m.chEn c = true)
    (hf : m.fieldStill = false) (hg : (m.chan c).ghost = []) (hq : (m.chan c).q = e :: r) (ha : e.armed = false)
    (hp : inPast (e.w % 2 ^ 61) m.now8 = true) (hb : bit 1 (m.rd (R.CH_OUT_CFG c)) = false) :
    compareArm c m = (chRaise c 4 (m.inc (R.CH_CNT_LATE c))).updChan c (fun x => { x with
      q := { e with armed := true, due := some (t61 (m.now8 + 8)) } :: r }) := by
  have hp : inPast (t61 e.w) m.now8 = true := hp
  simp [compareArm, hm, he, hf, hg, hq, armIn, splitUnarmed, ha, hp, hb]

/-- The clause of O14 that `not_channelPorts` refutes, with the channels' records in rising order, as `mapSet` keeps them: a late entry
stays in the queue to be played in the next tick. -/
theorem to_compareArm_late {s : State} {c : Fin 128} {e : Entry} {r : List Entry} (hs : Settled s)
    (hsorted : mapSorted s.m.chans = true) (hm : s.m.chMode c = 2) (he : s.m.chEn c = true) (hf : s.m.fieldStill = false)
    (hg : (s.m.chan c).ghost = []) (hq : (s.m.chan c).q = e :: r) (ha : e.armed = false)
    (hp : inPast (e.w % 2 ^ 61) s.m.now8 = true) (hb : bit 1 (s.m.rd (R.CH_OUT_CFG c)) = false) :
    To (.compareArm c) s (((chRaise c 4 (s.m.inc (R.CH_CNT_LATE c))).updChan c (fun x => { x with q := r })).updChan c
      (fun x => { x with q := { e with armed := true, due := some (t61 (s.m.now8 + 8)) } :: r })) := by
  rw [updChan_updChan (by simpa using hsorted)]
  exact to_of_quiet rfl hs (compareArm_late hm he hf hg hq ha hp hb) (by simp)

/-! ## Records out of order -/

/-- The reset state at FTB 1000 with channel 0 running in COMPARE and the record of channel 1 before its own, which holds one entry
that is late and nothing else. -/
def chansSwapped : State :=
  ⟨[], { (State.reset.m.wr (R.CH_MODE 0) 2).wr (R.CH_EN 0) 1 with
    tb := { State.reset.m.tb with ftb := 1000 }
    chans := [(1, { lvl := true }), (0, { q := [{ w := 8, at_ := 0 }] })] }⟩

/-- Refutes O14: COMPARE_ARM of the late entry writes channel 0's record before that of channel 1 and leaves the old one behind it, so three
records stand in the list. The statement's machine first takes the entry out, with which the record is gone, and holds two. No write
of a record brings the list out of order, but the statement speaks of every settled state; where the keys rise the clause holds
(`to_compareArm_late`). -/
theorem not_channelPorts : ¬ Obligations.ChannelPorts := by
  unfold Obligations.ChannelPorts
  intro h
  have hs : Settled chansSwapped := ⟨rfl, rfl⟩
  obtain ⟨-, -, -, -, -, -, -, -, -, -, -, -, -, -, harm, -⟩ := h chansSwapped .keep 0 0 hs
  obtain ⟨-, hlate⟩ := harm { w := 8, at_ := 0 } [] (by decide) (by decide) (by decide) rfl rfl rfl
  obtain ⟨hplays, -⟩ := hlate (by decide)
  have hmach := congrArg State.m (Host.Outcome.next.inj (hplays (by decide)))
  exact absurd (congrArg (fun m => m.chans.length) hmach) (by decide)

end Sys2Proof.Machine

/-! # O15: the commands of the data movers

What an effect does in each of its cases is one equation; an element's frame follows from those of the steps it ends with. -/

namespace Sys2Proof.Machine

/-! ## What the operations on a mover leave -/

theorem mov_congr {m m1 : Mach} (h : m1.movers = m.movers) (n : Nat) : m1.mov n = m.mov n := by rw [Mach.mov, Mach.mov, h]

@[simp] theorem mov_wr (n : Nat) (o : Obj) (v : Nat) (m : Mach) : (m.wr o v).mov n = m.mov n := rfl

@[simp] theorem movRaise_fields (n b : Nat) (m : Mach) :
    (movRaise n b m).movers = m.movers ∧ (movRaise n b m).keepMem = m.keepMem ∧ (movRaise n b m).movUsed = m.movUsed ∧
    (movRaise n b m).movNext = m.movNext ∧ (movRaise n b m).alarms = m.alarms ∧ (movRaise n b m).notes = m.notes := by
  simp [movRaise]

@[simp] theorem mov_movRaise (n b k : Nat) (m : Mach) : (movRaise n b m).mov k = m.mov k := mov_congr (by simp) k

theorem movRaise_rd {n : Nat} {o : Obj} (h : o.key ≠ (R.MOV_EVT n).key) (b : Nat) (m : Mach) : (movRaise n b m).rd o = m.rd o :=
  rd_raise h

/-- The second of two updates of a mover stands alone where the first leaves it a descriptor. -/
theorem setMov_updMov {n : Nat} {x : Mover} {f : Mover → Mover} {m : Mach} (h : (f (m.mov n)).desc ≠ none) :
    (m.updMov n f).setMov n x = m.setMov n x :=
  congrArg (fun l => { m with movers := l }) (mapSet_mapSet (fun hd => absurd (congrArg Mover.desc hd) h) n m.movers)

@[simp] theorem rankNote_movers (w : Writer) (o : Obj) (m : Mach) : (rankNote w o m).movers = m.movers := by
  unfold rankNote
  split <;> rfl

@[simp] theorem answered_movers (w : Writer) (m : Mach) : (answered w m).movers = m.movers := by
  cases w <;> rfl

/-- A write that is carried out quietly leaves the movers and the objects as its effect left them. -/
theorem goes_of_ok {c : Instr} {s : State} {w : Writer} {o : Obj} {mach : Bool} {eff : Mach → Eff} {m : Mach} {P : Mach → Prop}
    (hc : exec c s = done (command w o mach eff) s) (hs : Settled s) (hm : May w o mach s) (he : eff s.m = .ok m)
    (hq : m.alarms = s.m.alarms ∧ m.notes = s.m.notes)
    (hP : ∀ n : Mach, (∀ k, n.mov k = m.mov k) → (∀ p, n.rd p = m.rd p) → P n) : Goes c s P :=
  .of_to (writes_of_ok hc hs he hq hm) (hP _ (mov_congr (by simp)) (by simp))

/-! ## Starts, stops and triggers -/

section
variable {n : Nat} {m : Mach}

theorem running_of_not_still (h : m.fieldStill = false) : m.inHold = false ∧ m.pwr.fSleep = false := by
  simp only [Mach.fieldStill, Bool.or_eq_false_iff] at h
  exact ⟨h.1.1.1, h.1.1.2⟩

theorem movRunOnEffect_starts (hf : m.fieldStill = false) (hst : m.movState n = 0 ∨ m.movState n = 4) :
    movRunOnEffect n m = movFetchAt n (m.rd (R.MOV_DESC n)) (m.wr (R.MOV_RUN n) 1) := by
  obtain ⟨hh, hsl⟩ := running_of_not_still hf
  simp [movRunOnEffect, movStart, hh, hsl, hst]

theorem movFetchAt_does (n a : Nat) (m : Mach) :
    (movFetchAt n a m).movState n = 1 ∧ (movFetchAt n a m).rd (R.MOV_CUR n) = a ∧
    ((movFetchAt n a m).mov n).fetch = some a ∧ ((movFetchAt n a m).mov n).ring = (m.mov n).ring ∧
    (movFetchAt n a m).rd (R.MOV_RUN n) = m.rd (R.MOV_RUN n) ∧ (movFetchAt n a m).rd (R.MOV_REMAIN n) = m.rd (R.MOV_REMAIN n) := by
  simp (disch := exact key_ne_of_sub rfl rfl) [movFetchAt, Mach.movState, rd_wr_ne]

theorem movRunOffEffect_eq (n : Nat) (m : Mach) :
    movRunOffEffect n m = ((m.wr (R.MOV_RUN n) 0).wr (R.MOV_STATE n) 0).updMov n (fun x => { ring := x.ring }) := by
  rw [movRunOffEffect, movStop, wr_wr_same]

/-! A trigger at a mover with a descriptor that waits or runs (R258). -/

section
variable {d : Desc} (hd : (m.mov n).desc = some d) (hst : m.movState n = 2 ∨ m.movState n = 3)
include hd hst

theorem movTrigger_releases (hb : (m.mov n).burst = 0) :
    movTrigger n m = (m.setMov n { m.mov n with burst := d.burstOf (m.rd (R.MOV_REMAIN n)) }).wr (R.MOV_STATE n) 3 := by
  have hst : ¬(m.movState n ≠ 2 ∧ m.movState n ≠ 3) := by omega
  simp only [movTrigger, hd, if_neg hst, if_pos hb]

theorem movTrigger_held (hb : (m.mov n).burst ≠ 0) (ht : (m.mov n).trig = false) :
    movTrigger n m = m.setMov n { m.mov n with trig := true } := by
  have hst : ¬(m.movState n ≠ 2 ∧ m.movState n ≠ 3) := by omega
  simp [movTrigger, hd, hst, hb, ht]

theorem movTrigger_lost (hb : (m.mov n).burst ≠ 0) (ht : (m.mov n).trig = true) :
    movTrigger n m = movRaise n 3 (m.inc (R.MOV_CNT_TRIG_OVR n)) := by
  have hst : ¬(m.movState n ≠ 2 ∧ m.movState n ≠ 3) := by omega
  simp [movTrigger, hd, hst, hb, ht]
end

theorem movCmdTrigger_seven {d : Desc} (hd : (m.mov n).desc = some d) (h7 : d.trig = 7) : movCmdTrigger n m = movTrigger n m := by
  simp [movCmdTrigger, hd, h7]

theorem movArrival_releases {d : Desc} (hd : (m.mov n).desc = some d) (ht : d.trig = 3 ∨ d.trig = 4) (hst : m.movState n = 2)
    (hb : (m.mov n).burst = 0) : movArrival n m = (m.setMov n { m.mov n with
      arrived := (m.mov n).arrived - 1, burst := d.burstOf (m.rd (R.MOV_REMAIN n)) }).wr (R.MOV_STATE n) 3 := by
  have hd1 : ((m.updMov n (fun x => { x with arrived := x.arrived - 1 })).mov n).desc = some d := by simp [hd]
  rw [movArrival, hd]
  dsimp only
  rw [if_pos ht, movTrigger_releases hd1 (.inl hst) (by simpa using hb), Mach.updMov_same, setMov_updMov (by simp [hd])]
  rfl

theorem ringPut_appends (a : Nat) (hl : (m.mov n).ring.length < 8) (hst : m.movState n = 4 → m.on (R.MOV_RUN n) = false) :
    ringPut n a m = m.setMov n { m.mov n with ring := (m.mov n).ring ++ [a] } := by
  have hdone : ¬(m.movState n = 4 ∧ m.on (R.MOV_RUN n) = true) := fun h => by simp [hst h.1] at h
  simp [ringPut, hl, hdone]

theorem ringPut_drops (a : Nat) (hl : 8 ≤ (m.mov n).ring.length) : ringPut n a m = movRaise n 2 (m.inc (R.MOV_CNT_RING_DROP n)) :=
  if_pos hl

/-- An access that the core's regions allow takes place. -/
theorem coreAt_allowed {s : State} {i : Fin 3} {kind addr : Nat} (h : MayCore i kind addr s) (f : Mach → Mach) :
    coreAt i kind addr f s.m = f s.m := by
  obtain ⟨hl, ha⟩ := h
  simp [coreAt, hl, ha]

/-! ## The fetch of a descriptor (R257) -/

section
variable {a : Nat} (hfetch : (m.mov n).fetch = some a) (hf : m.fieldStill = false) (hr : m.on (R.MOV_RUN n) = true)
  (hst : m.movState n = 1) (ha : a % 32 = 0) (hmem : movMemory a 32 = true)
include hfetch hf hr hst ha hmem

theorem movFetchEffect_good (hk : movMarkOk m a = true) (hd : movDescOk (movRead m a) = true) :
    movFetchEffect n false m = movBegin n (movRead m a) m := by
  simp [movFetchEffect, hfetch, hf, hr, hst, ha, hmem, hk, hd]

theorem movFetchEffect_bad (h : movMarkOk m a = false ∨ movDescOk (movRead m a) = false) :
    movFetchEffect n false m = movError n 1 a m := by
  simp only [movFetchEffect, hfetch, hf, hr, hst, ha, hmem]
  obtain h | h := h <;> simp [h]

theorem movFetchEffect_ecc : movFetchEffect n true m = movError n 3 a m := by
  simp [movFetchEffect, hfetch, hf, hr, hst, ha, hmem]
end

theorem movBegin_does (n : Nat) (d : Desc) (m : Mach) :
    (movBegin n d m).movState n = (if d.trig = 0 then 3 else 2) ∧ (movBegin n d m).rd (R.MOV_REMAIN n) = d.count ∧
    ((movBegin n d m).mov n).desc = some d ∧ (movBegin n d m).alarms = m.alarms ∧ (movBegin n d m).notes = m.notes := by
  simp (disch := exact key_ne_of_sub rfl rfl) [movBegin, Mach.movState, rd_wr_ne]

/-- A mover stops in ERROR without a safety cause, unless its code is 3. -/
theorem movError_does {code : Nat} (hc : code ≠ 3) (n a : Nat) (m : Mach) :
    (movError n code a m).movState n = 5 ∧ (movError n code a m).rd (R.MOV_ERR n) = code ∧
    (movError n code a m).rd (R.MOV_ERR_ADDR n) = a ∧ ((movError n code a m).mov n).desc = none ∧
    (movError n code a m).alarms = m.alarms ∧ (movError n code a m).notes = m.notes := by
  simp (disch := exact key_ne_of_sub rfl rfl) [movError, hc, Mach.movState, movRaise_rd, rd_wr_ne]

/-! ## An element (R255, R259, R260) -/

/-- What the end of an element leaves: its mover's count of what remains, the memory and the tick's grant, and no cause or happening. -/
structure ElementKept (n : Nat) (m m1 : Mach) : Prop where
  remain : m1.rd (R.MOV_REMAIN n) = m.rd (R.MOV_REMAIN n)
  mem : m1.keepMem = m.keepMem
  grant : m1.movUsed = m.movUsed ∧ m1.movNext = m.movNext
  quiet : m1.alarms = m.alarms ∧ m1.notes = m.notes

theorem ElementKept.trans {n : Nat} {a b c : Mach} (x : ElementKept n a b) (y : ElementKept n b c) : ElementKept n a c :=
  ⟨y.remain.trans x.remain, y.mem.trans x.mem, ⟨y.grant.1.trans x.grant.1, y.grant.2.trans x.grant.2⟩,
    y.quiet.1.trans x.quiet.1, y.quiet.2.trans x.quiet.2⟩

theorem elementKept_setMov (n : Nat) (x : Mover) (m : Mach) : ElementKept n m (m.setMov n x) := ⟨by simp, by simp, by simp, by simp⟩

theorem elementKept_movFetchAt (n a : Nat) (m : Mach) : ElementKept n m (movFetchAt n a m) := by
  obtain ⟨-, -, -, -, -, hrd⟩ := movFetchAt_does n a m
  exact ⟨hrd, by simp [movFetchAt], by simp [movFetchAt], by simp [movFetchAt]⟩

/-- What the end of an element writes lies beside what remains. -/
theorem remain_key_ne (n : Nat) : (R.MOV_REMAIN n).key ≠ (R.MOV_EVT n).key ∧ (R.MOV_REMAIN n).key ≠ (R.MOV_CNT_DONE n).key ∧
    (R.MOV_REMAIN n).key ≠ (R.MOV_STATE n).key :=
  ⟨key_ne_of_sub rfl rfl, key_ne_of_sub rfl rfl, key_ne_of_sub rfl rfl⟩

theorem elementKept_movRaise (n b : Nat) (m : Mach) : ElementKept n m (movRaise n b m) :=
  ⟨movRaise_rd (remain_key_ne n).1 b m, by simp, by simp, by simp⟩

theorem elementKept_cntDone (n : Nat) (m : Mach) : ElementKept n m (m.inc (R.MOV_CNT_DONE n)) :=
  ⟨rd_inc_ne (remain_key_ne n).2.1 m, by simp, by simp, by simp⟩

theorem elementKept_movState (n v : Nat) (m : Mach) : ElementKept n m (m.wr (R.MOV_STATE n) v) :=
  ⟨rd_wr_ne (remain_key_ne n).2.2 m v, by simp, by simp, by simp⟩

theorem elementKept_movRingNext (n : Nat) (m : Mach) : ElementKept n m (movRingNext n m) := by
  unfold movRingNext
  split
  · exact (elementKept_setMov n _ m).trans (elementKept_movFetchAt ..)
  · exact (elementKept_setMov n _ m).trans (elementKept_movState ..)

theorem elementKept_movDescEnd (n : Nat) (d : Desc) (m : Mach) : ElementKept n m (movDescEnd n d m) := by
  have hevt : ElementKept n m (if d.doneEvt then movRaise n 0 (m.inc (R.MOV_CNT_DONE n)) else m.inc (R.MOV_CNT_DONE n)) := by
    split
    · exact (elementKept_cntDone n m).trans (elementKept_movRaise ..)
    · exact elementKept_cntDone n m
  unfold movDescEnd
  dsimp only
  split
  · exact hevt.trans (elementKept_movFetchAt ..)
  · exact hevt.trans (elementKept_movRingNext ..)

/-- An element that is done counts down what remains. -/
theorem elementKept_movAdvance {d : Desc} (hd : (m.mov n).desc = some d) (b : Nat) :
    ElementKept n (m.wr (R.MOV_REMAIN n) (m.rd (R.MOV_REMAIN n) - 1)) (movAdvance n d b m) := by
  unfold movAdvance
  dsimp only
  rw [if_neg (not_not.mpr hd)]
  split
  · exact (elementKept_setMov ..).trans (elementKept_movDescEnd ..)
  · exact (elementKept_setMov ..).trans (elementKept_movState ..)

/-- The grant goes to no mover that waits for a queue. -/
theorem not_blocked_of_grant (h : movGrant m = some n) : movBlocked m n = false := by
  have hp := List.find?_some h
  simp only [Bool.and_eq_true, Bool.not_eq_true'] at hp
  exact hp.2

theorem movSource_memory {n : Fin 16} {src : Nat} (h : keepArea src = .sram ∨ keepArea src = .dram) (size : Nat) :
    movSource n false src size m = .ok (areaNat 2 src size m) := by
  obtain h | h := h <;> simp [movSource, h]

theorem movDest_memory {n : Fin 16} {dst : Nat} (h : keepArea dst = .sram ∨ keepArea dst = .dram) (size v : Nat) :
    movDest n dst size v m = .ok (movResv dst size { m with keepMem := memWrN m.keepMem dst (toLe size v) }) := by
  obtain h | h := h <;> simp [movDest, h]

end

section
variable {n : Fin 16} {m : Mach} {d : Desc} {b : Nat} (hd : (m.mov n).desc = some d) (hf : m.fieldStill = false)
  (hr : m.on (R.MOV_RUN n) = true) (hst : m.movState n = 2 ∨ m.movState n = 3) (hrel : movReleased m n d = b) (hb : b ≠ 0)
include hd hf hr hst hrel hb

/-- Out of its turn an element that waits for no queue does nothing. -/
theorem movElementEffect_waits (ht : m.movUsed = true ∨ movGrant m ≠ some n.val) (hbl : movBlocked m n = false) :
    movElementEffect n false m = m := by
  have hst : (m.movState n == 2 || m.movState n == 3) = true := by simpa using hst
  simp [movElementEffect, hd, hf, hr, hst, hrel, hb, ht, hbl]

/-- The granted element between two places in memory. -/
theorem movElementEffect_copies {src dst v : Nat} (hu : m.movUsed = false) (hg : movGrant m = some n.val)
    (hsrc : src = movAddr d.src d.srcRing (m.mov n).so) (hdst : dst = movAddr d.dst d.dstRing (m.mov n).dOff)
    (hs : keepArea src = .sram ∨ keepArea src = .dram) (ht : keepArea dst = .sram ∨ keepArea dst = .dram)
    (hv : areaNat 2 src d.size (movTaken n m) = (v, movTaken n m)) :
    movElementEffect n false m = movAdvance n d b
      (movResv dst d.size { movTaken n m with keepMem := memWrN m.keepMem dst (toLe d.size v) }) := by
  have hst : (m.movState n == 2 || m.movState n == 3) = true := by simpa using hst
  simp only [movElementEffect, hd, hf, hr, hst, hrel, hu, hg, not_blocked_of_grant hg, ← hsrc, ← hdst, movSource_memory hs, hv,
    movDest_memory ht]
  simp [hb, movTaken]
end

theorem toLe_length (n v : Nat) : (toLe n v).length = n := by
  induction n generalizing v with
  | zero => rfl
  | succ n ih => simp [toLe, ih]

/-- The granted element counts down what remains, has taken the tick's grant, and changes its destination's bytes alone. -/
theorem movElement_goes {s : State} {n : Fin 16} {d : Desc} {b dst v : Nat} (hs : Settled s) (hd : (s.m.mov n).desc = some d)
    (he : movElementEffect n false s.m = movAdvance n d b
      (movResv dst d.size { movTaken n s.m with keepMem := memWrN s.m.keepMem dst (toLe d.size v) })) :
    Goes (.movElement n false) s (fun m => m.movUsed = true ∧ m.movNext = (n.val + 1) % 16 ∧
      m.keepMem = memWrN s.m.keepMem dst (toLe d.size v) ∧ m.rd (R.MOV_REMAIN n) = s.m.rd (R.MOV_REMAIN n) - 1 ∧
      ∀ a : Nat, a < dst ∨ dst + d.size ≤ a → memRd m.keepMem a = memRd s.m.keepMem a) := by
  obtain ⟨hremain, hmem, ⟨hused, hnext⟩, hal, hno⟩ := elementKept_movAdvance (n := n)
    (m := movResv dst d.size { movTaken n s.m with keepMem := memWrN s.m.keepMem dst (toLe d.size v) }) hd b
  rw [← he] at hremain hmem hused hnext hal hno
  refine .of_to (to_of_quiet rfl hs rfl ⟨hal, hno⟩) ⟨hused, hnext, hmem, hremain.trans (rd_wr_same ..), fun a ha => ?_⟩
  rw [hmem]
  exact memRd_memWrN_outside (by rwa [toLe_length])

/-- Settles O15: each command is `done` of its effect, whose laws above say what it does to the mover; the end of an element keeps the
memory and the count of what remains (`ElementKept`). -/
theorem moverCommands : Obligations.MoverCommands := by
  unfold Obligations.MoverCommands
  intro s w n hs
  refine ⟨fun hf hst hm => ?_, ?_, fun d hd h7 hst => ⟨fun hb => ?_, fun hb ht => ?_, fun hb ht => ?_⟩,
    fun a hlive => ⟨fun hl hst => ?_, fun hl => ?_⟩, fun d hd ht hst hb => ?_,
    fun a hfetch hf hr hst ha hmem => ⟨fun hk hd => ?_, fun h => ?_, ?_⟩,
    fun d b src dst v hd hf hr hst hrel hb hsrc hdst hs1 hd1 => ⟨fun ht hbl => ?_, fun hu hg hv _ => ?_⟩⟩
  · obtain ⟨hstate, hcur, hfetch, hring, hrun, -⟩ := movFetchAt_does n (s.m.rd (R.MOV_DESC n)) (s.m.wr (R.MOV_RUN n) 1)
    refine goes_of_ok rfl hs hm (congrArg Except.ok (movRunOnEffect_starts hf hst)) (by simp [movFetchAt]) fun m hmov hrd => ?_
    rw [Mach.on, Mach.movState, hrd, hrd, hrd, hmov]
    exact ⟨by rw [hrun]; simp, hstate, hcur, hfetch, hring⟩
  · exact writes_of_ok rfl hs (congrArg Except.ok (movRunOffEffect_eq n s.m)) (by simp)
  · exact writes_of_ok rfl hs (congrArg Except.ok ((movCmdTrigger_seven hd h7).trans (movTrigger_releases hd hst hb))) (by simp)
  · exact writes_of_ok rfl hs (congrArg Except.ok ((movCmdTrigger_seven hd h7).trans (movTrigger_held hd hst hb ht))) (by simp)
  · exact writes_of_ok rfl hs (congrArg Except.ok ((movCmdTrigger_seven hd h7).trans (movTrigger_lost hd hst hb ht))) (by simp)
  · exact to_of_quiet rfl hs ((coreAt_allowed hlive _).trans (ringPut_appends a.toNat hl hst)) (by simp)
  · exact to_of_quiet rfl hs ((coreAt_allowed hlive _).trans (ringPut_drops a.toNat hl)) (by simp)
  · exact to_of_quiet rfl hs (movArrival_releases hd ht hst hb) (by simp)
  · obtain ⟨hstate, hremain, hdesc, hal, hno⟩ := movBegin_does n (movRead s.m a) s.m
    exact .of_to (to_of_quiet rfl hs (movFetchEffect_good hfetch hf hr hst ha hmem hk hd) ⟨hal, hno⟩) ⟨hstate, hremain, hdesc⟩
  · obtain ⟨hstate, herr, haddr, hdesc, hal, hno⟩ := movError_does (code := 1) (by decide) n a s.m
    exact .of_to (to_of_quiet rfl hs (movFetchEffect_bad hfetch hf hr hst ha hmem h) ⟨hal, hno⟩) ⟨hstate, herr, haddr, hdesc⟩
  · exact done_of_eq (movFetchEffect_ecc hfetch hf hr hst ha hmem)
  · exact to_of_quiet rfl hs (movElementEffect_waits hd hf hr hst hrel hb ht hbl) ⟨rfl, rfl⟩
  · exact movElement_goes hs hd (movElementEffect_copies hd hf hr hst hrel hb hu hg hsrc hdst hs1 hd1 hv)

end Sys2Proof.Machine

/-! # O16: the commands of the PWM octets

A boundary changes the record of its octet and the objects of the octet's channels and pairs; a report of what the tick owes changes
counters, events and triggers. Each is said once, as what the operation leaves. -/

namespace Sys2Proof.Machine

/-! ## What lies off an octet's waveforms -/

/-- The key of an object of octet o's channels and pairs (R293). -/
def laneKey (o k : Nat) : Prop := 0x340100 + 0x1000 * o ≤ k ∧ k < 0x340D00 + 0x1000 * o

/-- The state of an octet and what places its periods: PWM_STATE, B_k, P_k, B_(k+1) and the dither phase (R268, R270). -/
def Octet.clock (x : Octet) : Nat × Nat × Nat × Nat × Nat := (x.st, x.b, x.p, x.nb, x.phi)

/-- The machine but for its objects and octets, and the objects other than those of octet o's channels and pairs. -/
def Mach.offOctet (o : Nat) (m : Mach) : Mach × ({p : Obj // ¬laneKey o p.key} → Nat) :=
  ({ m with regs := [], octets := [] }, fun p => m.rd p.1)

/-- What lies off octet o, and its clock. -/
def Mach.offLanes (o : Nat) (m : Mach) : (Mach × ({p : Obj // ¬laneKey o p.key} → Nat)) × (Nat × Nat × Nat × Nat × Nat) :=
  (m.offOctet o, (m.octet o).clock)

theorem octet_congr {m m1 : Mach} (h : m1.octets = m.octets) (o : Nat) : m1.octet o = m.octet o := by rw [Mach.octet, Mach.octet, h]

@[simp] theorem octet_wr (o : Nat) (p : Obj) (v : Nat) (m : Mach) : (m.wr p v).octet o = m.octet o := rfl

/-- What every step of a list keeps, all of them keep. -/
theorem each_keeps_of {α β : Type} {f : α → Mach → Mach} {g : Mach → β} {l : List α}
    (h : ∀ a ∈ l, ∀ m, g (f a m) = g m) (m : Mach) : g (m.each l f) = g m := by
  unfold Mach.each
  induction l generalizing m with
  | nil => rfl
  | cons a l ih =>
    rw [List.foldl_cons, ih fun b hb => h b (List.mem_cons_of_mem a hb), h a List.mem_cons_self]

section
variable {o : Nat} {m m1 : Mach}

/-- Machines alike off an octet have the same time, draws, movers, causes and happenings, and read the same off its channels and
pairs. -/
theorem eq_of_offOctet (h : m1.offOctet o = m.offOctet o) :
    (m1.alarms = m.alarms ∧ m1.notes = m.notes) ∧ (m1.tb = m.tb ∧ m1.pwr = m.pwr ∧ m1.movers = m.movers) ∧
    ∀ p : Obj, ¬laneKey o p.key → m1.rd p = m.rd p := by
  simp only [Mach.offOctet, Prod.mk.injEq, Mach.mk.injEq] at h
  obtain ⟨hrest, hrd⟩ := h
  simp only [hrest, and_self, true_and]
  exact fun p hp => congrFun hrd ⟨p, hp⟩

theorem offLanes_iff : m1.offLanes o = m.offLanes o ↔ m1.offOctet o = m.offOctet o ∧ (m1.octet o).clock = (m.octet o).clock := by
  rw [Mach.offLanes, Mach.offLanes, Prod.mk.injEq]

theorem offOctet_wr {p : Obj} (h : laneKey o p.key) (v : Nat) (m : Mach) : (m.wr p v).offOctet o = m.offOctet o := by
  have hrd : (fun q : {q : Obj // ¬laneKey o q.key} => (m.wr p v).rd q.1) = fun q => m.rd q.1 :=
    funext fun q => rd_wr_ne (fun hk => q.2 (by rwa [hk])) m v
  exact congrArg (Prod.mk _) hrd

@[simp] theorem offOctet_setOctet (k : Nat) (x : Octet) (m : Mach) : (m.setOctet k x).offOctet o = m.offOctet o := rfl

@[simp] theorem offOctet_updOctet (k : Nat) (f : Octet → Octet) (m : Mach) : (m.updOctet k f).offOctet o = m.offOctet o := rfl

theorem offLanes_wr {p : Obj} (h : laneKey o p.key) (v : Nat) (m : Mach) : (m.wr p v).offLanes o = m.offLanes o :=
  offLanes_iff.mpr ⟨offOctet_wr h v m, rfl⟩

theorem offLanes_updOctet {f : Octet → Octet} (h : (f (m.octet o)).clock = (m.octet o).clock) :
    (m.updOctet o f).offLanes o = m.offLanes o :=
  offLanes_iff.mpr ⟨rfl, by rw [Mach.updOctet_same, h]⟩

@[simp] theorem offLanes_octNote (n : PwmNote) (m : Mach) : (octNote o n m).offLanes o = m.offLanes o := offLanes_updOctet rfl

theorem offLanes_when {b : Bool} {f : Mach → Mach} (h : (f m).offLanes o = m.offLanes o) : (m.when b f).offLanes o = m.offLanes o := by
  unfold Mach.when
  split <;> simp [h]

@[simp] theorem offLanes_openBlank (t : Nat) (m : Mach) : (openBlank o t m).offLanes o = m.offLanes o := by
  unfold openBlank
  dsimp only
  split
  · rfl
  · exact offLanes_updOctet rfl

@[simp] theorem offLanes_octDark (mask : Nat) (m : Mach) : (octDark o mask m).offLanes o = m.offLanes o := by
  unfold octDark
  extract_lets seen m1
  have h1 : m1.offLanes o = m.offLanes o := offLanes_updOctet rfl
  split <;> simp [h1]

@[simp] theorem offLanes_returnBlank (j t : Nat) (on : Bool) (m : Mach) : (returnBlank o j t on m).offLanes o = m.offLanes o := by
  unfold returnBlank
  extract_lets l
  split <;> simp

theorem laneKey_chan {j : Nat} (hj : j < 8) : laneKey o (R.PWM_DUTY_ACT o j).key ∧ laneKey o (R.PWM_CARRY o j).key := by
  simp only [laneKey, Obj.key, R.PWM_DUTY_ACT, R.PWM_CARRY]
  omega

theorem laneKey_pair {i : Nat} (hi : i < 4) : laneKey o (R.PWM_DT_R o i).key ∧ laneKey o (R.PWM_DT_F o i).key := by
  simp only [laneKey, Obj.key, R.PWM_DT_R, R.PWM_DT_F]
  omega

/-- The objects of the octet itself and its latch causes are none of its channels' and pairs'. -/
theorem not_laneKey (ho : o < 16) : ∀ p ∈ [R.PWM_RUN o, R.PWM_CFG o, R.PWM_PERIOD o, R.PWM_UPDATE_LOCK o, R.PWM_CH_OFF o, R.PWM_EVT o,
    R.PWM_PCOUNT o, R.TRP_LATCH_CAUSE o], ¬laneKey o p.key := by
  simp only [List.forall_mem_cons, laneKey, Obj.key, R.PWM_RUN, R.PWM_CFG, R.PWM_PERIOD, R.PWM_UPDATE_LOCK, R.PWM_CH_OFF, R.PWM_EVT,
    R.PWM_PCOUNT, R.TRP_LATCH_CAUSE, List.not_mem_nil, false_imp_iff, implies_true, and_true]
  omega
end

/-! ## Carries -/

/-- Every carry of an octet is cleared (R269, R286). -/
abbrev clearCarries (o : Nat) (m : Mach) : Mach := m.each (List.range 8) (fun j m => m.wr (R.PWM_CARRY o j) 0)

/-- A counted family of objects is cleared one by one. -/
theorem rd_each_clear {f : Nat → Obj} (hf : ∀ i j, (f j).key = (f i).key → i = j) (l : List Nat) (m : Mach) (j : Nat) :
    (m.each l (fun i m => m.wr (f i) 0)).rd (f j) = if j ∈ l then 0 else m.rd (f j) := by
  unfold Mach.each
  induction l generalizing m with
  | nil => rfl
  | cons i l ih =>
    rw [List.foldl_cons, ih]
    by_cases hij : j = i
    · simp [hij]
    · simp [hij, rd_wr_ne fun hk => hij (hf i j hk).symm]

theorem rd_clearCarries {o j : Nat} (hj : j < 8) (m : Mach) : (clearCarries o m).rd (R.PWM_CARRY o j) = 0 := by
  have hf (i j : Nat) (h : (R.PWM_CARRY o j).key = (R.PWM_CARRY o i).key) : i = j := by
    simp only [Obj.key, R.PWM_CARRY] at h
    omega
  rw [rd_each_clear hf, if_pos (List.mem_range.mpr hj)]

@[simp] theorem offLanes_clearCarries (o : Nat) (m : Mach) : (clearCarries o m).offLanes o = m.offLanes o :=
  each_keeps_of (fun _ hj m => offLanes_wr (laneKey_chan (List.mem_range.mp hj)).2 0 m) m

@[simp] theorem clearCarries_fields (o : Nat) (m : Mach) :
    (clearCarries o m).octets = m.octets ∧ (clearCarries o m).pwr = m.pwr ∧ (clearCarries o m).alarms = m.alarms ∧
    (clearCarries o m).notes = m.notes :=
  ⟨each_keeps (g := Mach.octets) (by simp) _ m, each_keeps (g := Mach.pwr) (by simp) _ m, each_keeps (g := Mach.alarms) (by simp) _ m,
    each_keeps (g := Mach.notes) (by simp) _ m⟩

/-! ## The plan of a period -/

section
variable {o : Nat}

@[simp] theorem offLanes_nosn (i : Nat) (b : Bool) (m : Mach) : (nosn o i b m).offLanes o = m.offLanes o := by
  unfold nosn
  split <;> simp

theorem offLanes_pairDead {i : Nat} (hi : i < 4) (nom : Bool) (m : Mach) : (pairDead o i nom m).offLanes o = m.offLanes o := by
  obtain ⟨hr, hf⟩ := laneKey_pair (o := o) hi
  unfold pairDead
  extract_lets p m0 r f
  have h0 : m0.offLanes o = m.offLanes o := offLanes_updOctet rfl
  split
  · rw [offLanes_wr hf, offLanes_wr hr, h0]
  · rw [offLanes_nosn, offLanes_wr hf, offLanes_nosn, offLanes_wr hr, h0]

theorem offLanes_laneBoundary {j : Nat} (hj : j < 8) (ret swapped : Bool) (m : Mach) :
    (laneBoundary o j ret swapped m).offLanes o = m.offLanes o := by
  obtain ⟨hact, hcarry⟩ := laneKey_chan (o := o) hj
  unfold laneBoundary
  extract_lets x bridge ovr inv swap p c want d m1 a dtR dtF h testH short m2 arcTested carry plan was t0 m3 first rest
  have h1 : m1.offLanes o = m.offLanes o := by unfold m1; split <;> simp
  have h2 : m2.offLanes o = m1.offLanes o := by unfold m2; split <;> simp
  have h3 : m3.offLanes o = m2.offLanes o := offLanes_when (by simp)
  rw [offLanes_updOctet rfl, Mach.wrI, offLanes_wr hcarry, offLanes_wr hact, h3, h2, h1]

/-- Some of the octet's carries are dropped. -/
theorem offLanes_dropCarries (b : Nat → Bool) (m : Mach) :
    (m.each (List.range 8) (fun j m => if b j then m.wr (R.PWM_CARRY o j) 0 else m)).offLanes o = m.offLanes o :=
  each_keeps_of (fun j hj m => by
    split
    · exact offLanes_wr (laneKey_chan (List.mem_range.mp hj)).2 0 m
    · rfl) m

theorem lt_of_mem_octLanes {m : Mach} {j : Nat} (h : j ∈ octLanes m o) : j < 8 :=
  List.mem_range.mp (List.mem_filter.mp h).1

@[simp] theorem offLanes_boundaryLanes (nom : Bool) (l : List (Nat × Nat)) (m : Mach) :
    (boundaryLanes o nom l m).offLanes o = m.offLanes o := by
  unfold boundaryLanes
  extract_lets x back ret m1 m2
  have h1 : m1.offLanes o = m.offLanes o := each_keeps_of (fun _ hi m => offLanes_pairDead (List.mem_range.mp hi) nom m) m
  have h2 : m2.offLanes o = m1.offLanes o := offLanes_updOctet rfl
  rw [each_keeps_of (g := Mach.offLanes o) fun j hj m => offLanes_laneBoundary (lt_of_mem_octLanes hj) _ _ m, h2, h1]

/-- A transfer reaches the octet's record, and the carries of pairs whose INVERT changes. -/
@[simp] theorem offOctet_octTransfer (m : Mach) : (octTransfer o m).offOctet o = m.offOctet o := by
  unfold octTransfer
  dsimp only
  rw [offOctet_setOctet]
  refine each_keeps_of (fun i hi m => ?_) m
  split
  · exact offOctet_wr (laneKey_chan (by have := List.mem_range.mp hi; omega)).2 0 m
  · rfl

@[simp] theorem octTransfer_octet (m : Mach) :
    ((octTransfer o m).octet o).st = (m.octet o).st ∧ ((octTransfer o m).octet o).b = (m.octet o).b ∧
    ((octTransfer o m).octet o).p = m.rd (R.PWM_PERIOD o) ∧ ((octTransfer o m).octet o).phi = (m.octet o).phi := by
  simp [octTransfer]

@[simp] theorem offOctet_boundaryTrips (m : Mach) : (boundaryTrips o m).offOctet o = m.offOctet o := by
  unfold boundaryTrips
  extract_lets x causes back m1
  split
  · exact (offLanes_iff.mp ((offLanes_octNote ..).trans (offLanes_clearCarries o m1))).1
  · rfl

/-- A running octet runs on through the end of its period. -/
theorem clock_boundaryTrips {m : Mach} (h : (m.octet o).st = 3) : ((boundaryTrips o m).octet o).clock = (m.octet o).clock := by
  simp [boundaryTrips, Octet.clock, h]

/-! ## Starts and boundaries -/

@[simp] theorem offOctet_octNote (n : PwmNote) (m : Mach) : (octNote o n m).offOctet o = m.offOctet o := rfl

@[simp] theorem offOctet_boundaryLanes (nom : Bool) (l : List (Nat × Nat)) (m : Mach) :
    (boundaryLanes o nom l m).offOctet o = m.offOctet o :=
  (offLanes_iff.mp (offLanes_boundaryLanes nom l m)).1

@[simp] theorem clock_boundaryLanes (nom : Bool) (l : List (Nat × Nat)) (m : Mach) :
    ((boundaryLanes o nom l m).octet o).clock = (m.octet o).clock :=
  (offLanes_iff.mp (offLanes_boundaryLanes nom l m)).2

/-- A boundary changes nothing off its octet, and of a running octet it is the plan of the next period and the note of the boundary
(R270, R276, R277). -/
theorem octTurn_does (o : Nat) (m : Mach) : (octTurn o m).offOctet o = m.offOctet o ∧
    (o < 16 → (m.octet o).st = 3 → ∀ p, p = (if m.on (R.PWM_UPDATE_LOCK o) then (m.octet o).p else m.rd (R.PWM_PERIOD o)) →
      ∃ m1 : Mach, octTurn o m = octNote o (.boundary ((m.rd (R.PWM_PCOUNT o) + 1) % 2 ^ 32) (m.on (R.PWM_UPDATE_LOCK o))) m1 ∧
        (m1.octet o).clock = (3, (m.octet o).nb, p, (m.octet o).nb + p, ((m.octet o).phi + 1) % 16)) := by
  unfold octTurn
  extract_lets x locked m1 left halt m2 m3 m4
  have h1 : m1.offOctet o = m.offOctet o := offOctet_boundaryTrips m
  have h2 : m2.offLanes o = m1.offLanes o := by
    unfold m2
    split
    · exact offLanes_dropCarries _ m1
    · rfl
  obtain ⟨h2, hclock⟩ := offLanes_iff.mp h2
  have h3 : m3.offOctet o = m2.offOctet o := by unfold m3; split <;> simp
  refine ⟨?_, fun ho hst p hp => ?_⟩
  · split
    · rfl
    · rw [offOctet_octNote, offOctet_boundaryLanes, offOctet_updOctet, h3, h2, h1]
  · rw [if_neg (by simp [x, hst])]
    refine ⟨_, rfl, ?_⟩
    obtain ⟨-, -, hrd⟩ := eq_of_offOctet (h2.trans h1)
    have hper : m2.rd (R.PWM_PERIOD o) = m.rd (R.PWM_PERIOD o) := hrd _ (not_laneKey ho _ (by simp))
    have hx : (m2.octet o).st = 3 ∧ (m2.octet o).p = x.p := by
      have h := hclock.trans (clock_boundaryTrips hst)
      simp only [Octet.clock, Prod.mk.injEq] at h
      obtain ⟨hst2, -, hp2, -⟩ := h
      exact ⟨hst2.trans hst, hp2⟩
    have h3 : (m3.octet o).st = 3 ∧ (m3.octet o).p = p := by
      rw [hp]
      unfold m3 locked
      split <;> simp [hx, hper, x]
    rw [clock_boundaryLanes, Mach.updOctet_same]
    simp [Octet.clock, h3, x]

/-- The first period of an octet that starts at β_0 (R267). -/
def Octet.firstClock (x : Octet) (p : Nat) : Nat × Nat × Nat × Nat × Nat := (3, 128 * x.beta0, p, 128 * x.beta0 + p, 0)

/-- A start changes nothing off its octet; it plans the first period and notes its boundary, and where a cause stands the octet enters
LATCHED (R267, R306). -/
theorem octBegin_does (o : Nat) (m : Mach) : (octBegin o m).offOctet o = m.offOctet o ∧
    (o < 16 → (m.octet o).st = 2 → ∃ m1 : Mach,
      (m1.octet o).clock = (m.octet o).firstClock (m.rd (R.PWM_PERIOD o)) ∧
      octBegin o m = if m.rd (R.TRP_LATCH_CAUSE o) = 0 then octNote o (.boundary 0 false) m1 else
        octNote o (.raise true 2) ((octNote o (.boundary 0 false) m1).updOctet o
          (fun x => { x with st := 4, away := 0xFF, edges := [], blankA := (m.octet o).blankA }))) := by
  unfold octBegin
  extract_lets x kept m1 m2 m3 m4
  have h1 : (clearCarries o m1).offLanes o = m1.offLanes o := offLanes_clearCarries o m1
  obtain ⟨h1, -⟩ := offLanes_iff.mp h1
  have h4 : m4.offOctet o = m.offOctet o := by
    rw [offOctet_octNote, offOctet_octNote, offOctet_boundaryLanes, offOctet_updOctet, offOctet_octTransfer, h1, offOctet_setOctet]
  obtain ⟨-, -, hrd1⟩ := eq_of_offOctet h1
  obtain ⟨-, -, hrd4⟩ := eq_of_offOctet h4
  refine ⟨?_, fun ho hst => ⟨octNote o (.raise false 6) (boundaryLanes o true (m3.octet o).ovr m3), ?_, ?_⟩⟩
  · split
    · rfl
    · split <;> simp [h4]
  · have hper : (clearCarries o m1).rd (R.PWM_PERIOD o) = m.rd (R.PWM_PERIOD o) := hrd1 _ (not_laneKey ho _ (by simp))
    have hoct : (clearCarries o m1).octet o = { kept with st := 3, b := 128 * x.beta0, away := 0xFF } :=
      (octet_congr (m := m1) (clearCarries_fields o m1).1 o).trans (Mach.setOctet_same ..)
    rw [octNote, Mach.updOctet_same]
    refine (clock_boundaryLanes ..).trans ?_
    simp [m3, m2, hoct, hper, Octet.clock, Octet.firstClock, kept, Octet.kept, x]
  · rw [if_neg (by simp [x, hst]), hrd4 _ (not_laneKey ho _ (by simp))]

/-- A boundary or start that falls due changes nothing off its octet. -/
@[simp] theorem offOctet_octCaught (m : Mach) : (octCaught o m).offOctet o = m.offOctet o := by
  unfold octCaught
  split_ifs
  · exact (octBegin_does o m).1
  · exact (octTurn_does o m).1
  · rfl
end

/-! ## Reports -/

/-- The clock of an octet, the channels that stay off and the transitions that wait. -/
def Octet.wave (x : Octet) : (Nat × Nat × Nat × Nat × Nat) × Nat × List PwmEdge := (x.clock, x.away, x.edges)

/-- What the reports of octet o leave: what waits to be settled, and the octet's clock and waveforms. -/
def Mach.offReports (o : Nat) (m : Mach) : List Nat × List Note × (Nat × Nat × Nat × Nat × Nat) × Nat × List PwmEdge :=
  (m.alarms, m.notes, (m.octet o).wave)

theorem eq_of_offReports {o : Nat} {m m1 : Mach} (h : m1.offReports o = m.offReports o) :
    m1.alarms = m.alarms ∧ m1.notes = m.notes ∧ (m1.octet o).wave = (m.octet o).wave := by
  simpa only [Mach.offReports, Prod.mk.injEq] using h

theorem offReports_of_fields {o : Nat} {m m1 : Mach} (h : m1.alarms = m.alarms ∧ m1.notes = m.notes ∧ m1.octets = m.octets) :
    m1.offReports o = m.offReports o := by
  obtain ⟨hal, hno, hoct⟩ := h
  rw [Mach.offReports, Mach.offReports, hal, hno, octet_congr hoct]

@[simp] theorem sdReturn_fields (c : Nat) (m : Mach) :
    (sdReturn c m).alarms = m.alarms ∧ (sdReturn c m).notes = m.notes ∧ (sdReturn c m).octets = m.octets ∧
    (sdReturn c m).regs = m.regs := by
  unfold sdReturn
  split <;> simp

/-- What the clocks of the channels leave. -/
def Mach.offClocks (m : Mach) : List Nat × List Note × List (Nat × Octet) × List (Nat × Nat) := (m.alarms, m.notes, m.octets, m.regs)

theorem offClocks_sdClockStarts (c : Nat) (m : Mach) : (sdClockStarts c m).offClocks = m.offClocks := by
  unfold sdClockStarts
  extract_lets m1
  have h1 : m1.offClocks = m.offClocks := by simp [m1, Mach.offClocks]
  rw [each_keeps (g := Mach.offClocks) (by simp [Mach.offClocks]), h1]

@[simp] theorem movArrive_fields (kind arg : Nat) (m : Mach) :
    (movArrive kind arg m).alarms = m.alarms ∧ (movArrive kind arg m).notes = m.notes ∧ (movArrive kind arg m).octets = m.octets ∧
    (movArrive kind arg m).regs = m.regs := ⟨rfl, rfl, rfl, rfl⟩

/-- A boundary's triggers raise at most its event among the objects, and reach movers and channels (R291). -/
theorem boundaryTriggers_does (o : Nat) (m : Mach) :
    ((boundaryTriggers o m).alarms = m.alarms ∧ (boundaryTriggers o m).notes = m.notes ∧
      (boundaryTriggers o m).octets = m.octets) ∧
    ∀ p : Obj, p.key ≠ (R.PWM_EVT o).key → (boundaryTriggers o m).rd p = m.rd p := by
  unfold boundaryTriggers
  extract_lets m1 m2
  have hraised : (m1.alarms = m.alarms ∧ m1.notes = m.notes ∧ m1.octets = m.octets) ∧
      ∀ p : Obj, p.key ≠ (R.PWM_EVT o).key → m1.rd p = m.rd p := by
    unfold m1 Mach.when
    split
    · exact ⟨by simp [pwmRaise], fun p hp => rd_raise hp⟩
    · exact ⟨⟨rfl, rfl, rfl⟩, fun _ _ => rfl⟩
  generalize hm3 : m2.each (List.range 128) _ = m3
  have hclocks : m3.offClocks = m2.offClocks := by
    rw [← hm3]
    refine each_keeps (fun c m => ?_) (List.range 128) m2
    split
    · exact offClocks_sdClockStarts c m
    · rfl
  simp only [Mach.offClocks, Prod.mk.injEq] at hclocks
  obtain ⟨hal, hno, hoct, hregs⟩ := hclocks
  obtain ⟨⟨hal1, hno1, hoct1⟩, hrd1⟩ := hraised
  refine ⟨⟨hal.trans hal1, hno.trans hno1, hoct.trans hoct1⟩, fun p hp => ?_⟩
  rw [Mach.rd, hregs]
  exact hrd1 p hp

theorem offReports_noteTakes (o : Nat) (n : PwmNote) (m : Mach) : (noteTakes o n m).offReports o = m.offReports o := by
  cases n with
  | count c b => exact offReports_of_fields (by simp [noteTakes, pwmRaise])
  | raise trip b => cases trip <;> exact offReports_of_fields (by simp [noteTakes, pwmRaise, trpRaise])
  | late d =>
    have h : (pwmRaise o 2 (m.inc (R.PWM_CNT_LATE o))).offReports o = m.offReports o := offReports_of_fields (by simp [pwmRaise])
    rw [← h]
    simp [noteTakes, Mach.offReports, Octet.wave, Octet.clock]
  | boundary n held =>
    rw [noteTakes, offReports_of_fields (boundaryTriggers_does o _).1]
    have h : (m.when held (fun m => m.inc (R.PWM_CNT_HELD o))).offReports o = m.offReports o := by
      unfold Mach.when
      split
      · exact offReports_of_fields (by simp)
      · rfl
    rw [← h]
    simp [Mach.offReports, Octet.wave, Octet.clock]

theorem offReports_octReport (o : Nat) (m : Mach) : (octReport o m).offReports o = m.offReports o :=
  (each_keeps (offReports_noteTakes o) _ _).trans (by simp [Mach.offReports, Octet.wave, Octet.clock])

/-- What is noted last is reported last. -/
theorem octReport_octNote (o : Nat) (n : PwmNote) (m : Mach) :
    ∃ m1 : Mach, octReport o (octNote o n m) = noteTakes o n m1 ∧ m1.offReports o = m.offReports o := by
  refine ⟨Mach.each (m.octet o).owed (noteTakes o) ((octNote o n m).updOctet o (fun x => { x with owed := [] })), ?_, ?_⟩
  · simp [octReport, octNote, Mach.each]
  · rw [each_keeps (offReports_noteTakes o)]
    simp [Mach.offReports, Octet.wave, Octet.clock, octNote]

/-- A boundary's report counts it, and shows the fine time at which it lies (R291, R292). -/
theorem noteTakes_boundary (o n : Nat) (held : Bool) (m : Mach) :
    (noteTakes o (.boundary n held) m).rd (R.PWM_PCOUNT o) = n ∧
    (noteTakes o (.boundary n held) m).rd (R.PWM_BOUNDARY o) = ditherQ (m.octet o).b (m.octet o).phi := by
  obtain ⟨-, hrd⟩ := boundaryTriggers_does o (((((m.when held (fun m => m.inc (R.PWM_CNT_HELD o))).wr (R.PWM_PCOUNT o) n).wr
    (R.PWM_BOUNDARY o) (ditherQ (m.octet o).b (m.octet o).phi)).updOctet o (fun x => { x with held := held })))
  have hpb : (R.PWM_PCOUNT o).key ≠ (R.PWM_BOUNDARY o).key := by simp only [Obj.key, R.PWM_PCOUNT, R.PWM_BOUNDARY]; omega
  have hpe : (R.PWM_PCOUNT o).key ≠ (R.PWM_EVT o).key := key_ne_of_sub rfl rfl
  have hbe : (R.PWM_BOUNDARY o).key ≠ (R.PWM_EVT o).key := by simp only [Obj.key, R.PWM_EVT, R.PWM_BOUNDARY]; omega
  rw [noteTakes, hrd _ hpe, hrd _ hbe]
  simp [rd_wr_ne hpb]

/-- A boundary as it is noted and then reported. -/
theorem octReport_boundary {o n : Nat} {held : Bool} {m : Mach} :
    (octReport o (octNote o (.boundary n held) m)).rd (R.PWM_PCOUNT o) = n ∧
    (octReport o (octNote o (.boundary n held) m)).rd (R.PWM_BOUNDARY o) = ditherQ (m.octet o).b (m.octet o).phi ∧
    ((octReport o (octNote o (.boundary n held) m)).octet o).clock = (m.octet o).clock := by
  obtain ⟨m1, hm, hoff⟩ := octReport_octNote o (.boundary n held) m
  obtain ⟨hcount, hshown⟩ := noteTakes_boundary o n held m1
  obtain ⟨-, -, hwave⟩ := eq_of_offReports hoff
  obtain ⟨-, -, hwave2⟩ := eq_of_offReports ((offReports_noteTakes o (.boundary n held) m1).trans hoff)
  simp only [Octet.wave, Octet.clock, Prod.mk.injEq] at hwave hwave2 ⊢
  rw [hm]
  obtain ⟨⟨-, hb, -, -, hphi⟩, -⟩ := hwave
  exact ⟨hcount, by rw [hshown, hb, hphi], hwave2.1⟩

/-! ## Starts and boundaries as commands -/

section
variable {s : State} {o : Fin 16}

theorem octStart_quiet (o : Nat) (m : Mach) : (octStart o m).alarms = m.alarms ∧ (octStart o m).notes = m.notes := by
  obtain ⟨hal, hno, -⟩ := eq_of_offReports (offReports_octReport o (octBegin o m))
  obtain ⟨⟨hal1, hno1⟩, -⟩ := eq_of_offOctet (octBegin_does o m).1
  exact ⟨hal.trans hal1, hno.trans hno1⟩

theorem octBoundary_quiet (o : Nat) (m : Mach) : (octBoundary o m).alarms = m.alarms ∧ (octBoundary o m).notes = m.notes := by
  obtain ⟨hal, hno, -⟩ := eq_of_offReports (offReports_octReport o (octTurn o m))
  obtain ⟨⟨hal1, hno1⟩, -⟩ := eq_of_offOctet (octTurn_does o m).1
  exact ⟨hal.trans hal1, hno.trans hno1⟩

/-- Where a cause stands an octet starts in LATCHED (R306). -/
theorem pwmStart_latched (hs : Settled s) (h2 : (s.m.octet o).st = 2) (hc : s.m.rd (R.TRP_LATCH_CAUSE o) ≠ 0) :
    Goes (.pwmStart o) s (fun m => (m.octet o).st = 4 ∧ (m.octet o).away = 0xFF ∧ (m.octet o).edges = []) := by
  obtain ⟨m1, -, hbegin⟩ := (octBegin_does o s.m).2 o.isLt h2
  rw [if_neg hc] at hbegin
  have hbegun : ((octBegin o s.m).octet o).st = 4 ∧ ((octBegin o s.m).octet o).away = 0xFF ∧
      ((octBegin o s.m).octet o).edges = [] := by
    simp [hbegin, octNote]
  obtain ⟨-, -, hwave⟩ := eq_of_offReports (offReports_octReport o (octBegin o s.m))
  change ((octStart o s.m).octet o).wave = _ at hwave
  simp only [Octet.wave, Octet.clock, hbegun, Prod.mk.injEq] at hwave
  obtain ⟨⟨hst, -⟩, haway, hedges⟩ := hwave
  exact .of_to (to_of_quiet rfl hs rfl (octStart_quiet o s.m)) ⟨hst, haway, hedges⟩

/-- An octet without a cause starts its first period in RUNNING (R267). -/
theorem pwmStart_runs (hs : Settled s) (h2 : (s.m.octet o).st = 2) (hc : s.m.rd (R.TRP_LATCH_CAUSE o) = 0) :
    Goes (.pwmStart o) s (fun m => (m.octet o).clock = (s.m.octet o).firstClock (s.m.rd (R.PWM_PERIOD o)) ∧
      m.rd (R.PWM_PCOUNT o) = 0 ∧ m.rd (R.PWM_BOUNDARY o) = ditherQ (128 * (s.m.octet o).beta0) 0) := by
  obtain ⟨m1, hclock, hbegin⟩ := (octBegin_does o s.m).2 o.isLt h2
  rw [if_pos hc] at hbegin
  have hstart : octStart o s.m = octReport o (octNote o (.boundary 0 false) m1) := congrArg (octReport o) hbegin
  obtain ⟨hcount, hshown, hclock1⟩ := octReport_boundary (o := o) (n := 0) (held := false) (m := m1)
  refine .of_to (to_of_quiet rfl hs hstart (hstart ▸ octStart_quiet o s.m)) ⟨hclock1.trans hclock, hcount, ?_⟩
  simp only [Octet.clock, Octet.firstClock, Prod.mk.injEq] at hclock
  obtain ⟨-, hb, -, -, hphi⟩ := hclock
  rw [hshown, hb, hphi]

/-- A boundary begins the next period (R270, R276, R277). -/
theorem pwmBoundary_turns (hs : Settled s) (h3 : (s.m.octet o).st = 3) {p : Nat}
    (hp : p = if s.m.on (R.PWM_UPDATE_LOCK o) then (s.m.octet o).p else s.m.rd (R.PWM_PERIOD o)) :
    Goes (.pwmBoundary o) s (fun m =>
      (m.octet o).clock = (3, (s.m.octet o).nb, p, (s.m.octet o).nb + p, ((s.m.octet o).phi + 1) % 16) ∧
      m.rd (R.PWM_PCOUNT o) = (s.m.rd (R.PWM_PCOUNT o) + 1) % 2 ^ 32 ∧
      m.rd (R.PWM_BOUNDARY o) = ditherQ (s.m.octet o).nb (((s.m.octet o).phi + 1) % 16)) := by
  obtain ⟨m1, hturn, hclock⟩ := (octTurn_does o s.m).2 o.isLt h3 p hp
  have hbound := congrArg (octReport o) hturn
  obtain ⟨hcount, hshown, hclock1⟩ := octReport_boundary (o := o)
    (n := (s.m.rd (R.PWM_PCOUNT o) + 1) % 2 ^ 32) (held := s.m.on (R.PWM_UPDATE_LOCK o)) (m := m1)
  refine .of_to (to_of_quiet rfl hs hbound (hbound ▸ octBoundary_quiet o s.m)) ⟨hclock1.trans hclock, hcount, ?_⟩
  simp only [Octet.clock, Prod.mk.injEq] at hclock
  obtain ⟨-, hb, -, -, hphi⟩ := hclock
  rw [hshown, hb, hphi]
end

/-! ## Writes -/

@[simp] theorem rankNote_octets (w : Writer) (o : Obj) (m : Mach) :
    (rankNote w o m).octets = m.octets ∧ (rankNote w o m).pwr = m.pwr := by
  unfold rankNote
  split <;> simp

@[simp] theorem answered_octets (w : Writer) (m : Mach) : (answered w m).octets = m.octets ∧ (answered w m).pwr = m.pwr := by
  cases w <;> simp [answered]

/-- A write that is carried out quietly leaves octets, draws and objects as its effect left them. -/
theorem leads_of_quiet {c : Instr} {s : State} {w : Writer} {p : Obj} {mach : Bool} {eff : Mach → Eff} {m : Mach} {P : Mach → Prop}
    (hc : exec c s = done (command w p mach eff) s) (hs : Settled s) (he : eff s.m = .ok m)
    (hq : m.alarms = s.m.alarms ∧ m.notes = s.m.notes)
    (hP : ∀ n : Mach, (∀ k, n.octet k = m.octet k) → n.pwr = m.pwr → (∀ p, n.rd p = m.rd p) → P n) :
    Leads c s w p mach P := fun hm =>
  .of_to (writes_of_ok hc hs he hq hm) (hP _ (octet_congr (by simp)) (by simp) (by simp))

/-- A write whose value its object does not take is turned away. -/
theorem turns_of_range {c : Instr} {s : State} {w : Writer} {p : Obj} {mach ok : Bool} {eff : Mach → Mach}
    (hc : exec c s = done (command w p mach (ranged ok eff)) s) (hok : ok = false) : Turns c s w p mach .range := fun hm =>
  hc.trans (done_turned hm (by simp [ranged, hok]))

section
variable {o : Nat} {m : Mach}

theorem octRunOn_requests (hok : pwmRunOk m o = true) (h0 : (m.octet o).st = 0) (hh : m.inHold = false) (hsl : m.pwr.fSleep = false) :
    octRunOn o m = .ok (govRequest (.octStart o) ((m.wr (R.PWM_RUN o) 1).updOctet o (fun x => { x with st := 1 }))) := by
  simp [octRunOn, hok, h0, hh, hsl]

theorem octRunOn_notes (hok : pwmRunOk m o = true) (h : (m.octet o).st ≠ 0 ∨ m.inHold = true ∨ m.pwr.fSleep = true) :
    octRunOn o m = .ok (m.wr (R.PWM_RUN o) 1) := by
  have hn : ¬((m.octet o).st = 0 ∧ (!m.inHold) = true ∧ (!m.pwr.fSleep) = true) := by
    rintro ⟨h0, hh, hsl⟩
    obtain h | h | h := h
    · exact h h0
    · simp [h] at hh
    · simp [h] at hsl
  simp only [octRunOn, hok, if_true, if_neg hn]

theorem octRunOn_range (hok : pwmRunOk m o = false) : octRunOn o m = .error .range := by
  simp [octRunOn, hok]

theorem mem_govWithdraw (d e : Draw) (m : Mach) :
    (d ∈ (govWithdraw e m).pwr.gov ↔ d ∈ m.pwr.gov ∧ d ≠ e) ∧ (d ∈ (govWithdraw e m).pwr.asked ↔ d ∈ m.pwr.asked ∧ d ≠ e) := by
  simp [govWithdraw]

/-- A stop withdraws the octet's draws, keeps of its record what `Octet.kept` says, and clears every carry (R269). -/
theorem octStop_does (ho : o < 16) (m : Mach) :
    ((octStop o m).alarms = m.alarms ∧ (octStop o m).notes = m.notes) ∧
    (octStop o m).pwr = (govWithdraw (.octRejoin o) (govWithdraw (.octStart o) m)).pwr ∧
    (∃ x : Octet, (octStop o m).octet o = x.kept) ∧ (octStop o m).rd (R.PWM_RUN o) = m.rd (R.PWM_RUN o) ∧
    ∀ j < 8, (octStop o m).rd (R.PWM_CARRY o j) = 0 := by
  unfold octStop
  extract_lets m1 m2 m3 m4 c
  have h2 : m2.offOctet o = m1.offOctet o := (offLanes_iff.mp (offLanes_octDark 0xFF m1)).1
  have h4 : m4.offOctet o = m3.offOctet o := (offLanes_iff.mp (offLanes_clearCarries o m3)).1
  have hoct : m4.octets = m3.octets := (clearCarries_fields o m3).1
  obtain ⟨⟨hal, hno⟩, ⟨-, hpwr, -⟩, hrd⟩ := eq_of_offOctet (h4.trans ((offOctet_setOctet o _ m2).trans h2))
  refine ⟨⟨hal, hno⟩, hpwr, ⟨m2.octet o, ?_⟩, ?_, fun j hj => ?_⟩
  · rw [octet_wr, octet_congr hoct, Mach.setOctet_same]
  · rw [rd_wr_ne (by simp only [Obj.key, R.PWM_RUN, R.TRP_LATCH_CAUSE]; omega)]
    exact hrd _ (not_laneKey ho _ (by simp))
  · rw [rd_wr_ne (by simp only [Obj.key, R.PWM_CARRY, R.TRP_LATCH_CAUSE]; omega)]
    exact rd_clearCarries hj m3

/-- A stop takes from the tick what its boundary owes and its trip inputs (R280). -/
theorem octStop_clears (ho : o < 16) (m : Mach) : ((octStop o m).octet o).owed = [] ∧ ((octStop o m).octet o).trips = [] := by
  obtain ⟨-, -, ⟨x, hx⟩, -⟩ := octStop_does ho m
  rw [hx]
  exact ⟨rfl, rfl⟩

/-- PWM_RUN written 0 stops the octet (R269). -/
theorem pwmRunOff_stops {s : State} {o : Fin 16} (hs : Settled s) (w : Writer) :
    Leads (.pwmRunOff w o) s w (R.PWM_RUN o) false (fun m => m.on (R.PWM_RUN o) = false ∧ (m.octet o).st = 0 ∧
      (∀ d ∈ [Draw.octStart o, Draw.octRejoin o], d ∉ m.pwr.gov ∧ d ∉ m.pwr.asked) ∧
      (∀ d : Draw, d ≠ .octStart o → d ≠ .octRejoin o → (d ∈ m.pwr.gov ↔ d ∈ s.m.pwr.gov) ∧ (d ∈ m.pwr.asked ↔ d ∈ s.m.pwr.asked)) ∧
      ∀ j : Fin 8, m.rd (R.PWM_CARRY o j) = 0) := by
  obtain ⟨hq, hpwr, ⟨x, hx⟩, hrun, hcarry⟩ := octStop_does o.isLt (s.m.wr (R.PWM_RUN o) 0)
  refine leads_of_quiet rfl hs rfl hq fun n hoct hn hrd => ⟨?_, ?_, ?_, ?_, fun j => ?_⟩
  · rw [Mach.on, hrd, octRunOff, hrun, rd_wr_same]
    rfl
  · rw [hoct, octRunOff, hx]
    rfl
  · simp [hn, octRunOff, hpwr, mem_govWithdraw]
  · intro d h1 h2
    simp [hn, octRunOff, hpwr, mem_govWithdraw, h1, h2]
  · rw [hrd]
    exact hcarry j j.isLt

/-! ## Boundaries that fall due (R280) -/

theorem octCaught_of_not_due (h : octDue m o = false) : octCaught o m = m := by
  simp [octCaught, h]

theorem octReport_octCaught (h : octDue m o = true) (h2 : (m.octet o).st ≠ 2) : octReport o (octCaught o m) = octBoundary o m := by
  rw [octCaught, if_pos h, if_neg h2, octBoundary]

/-- What a boundary counts, raises and triggers it owes until its report. -/
theorem octCaught_owes (ho : o < 16) (m : Mach) : (octCaught o m).rd (R.PWM_PCOUNT o) = m.rd (R.PWM_PCOUNT o) ∧
    (octCaught o m).rd (R.PWM_EVT o) = m.rd (R.PWM_EVT o) ∧ (octCaught o m).movers = m.movers := by
  obtain ⟨-, ⟨-, -, hmov⟩, hrd⟩ := eq_of_offOctet (offOctet_octCaught (o := o) m)
  exact ⟨hrd _ (not_laneKey ho _ (by simp)), hrd _ (not_laneKey ho _ (by simp)), hmov⟩

theorem pnow_octCaught (m : Mach) : (octCaught o m).pnow = m.pnow := by
  obtain ⟨-, ⟨htb, -⟩, -⟩ := eq_of_offOctet (offOctet_octCaught (o := o) m)
  rw [Mach.pnow, Mach.pnow, htb]

/-! ## Shadows, immediate periods and channels sent off -/

theorem shadowLate_of_stopped (h : (m.octet o).st = 0 ∨ (m.octet o).st = 1) : shadowLate o m = m := by
  obtain h | h := h <;> simp [shadowLate, h]

theorem octDue_of_stopped (h : (m.octet o).st = 0 ∨ (m.octet o).st = 1) : octDue m o = false := by
  obtain h | h := h <;> simp [octDue, h]

/-- While no period runs a shadow write is a plain write (R275). -/
theorem setShadow_of_stopped (obj : PwmShadow) (v : Nat) (h : (m.octet o).st = 0 ∨ (m.octet o).st = 1) :
    setShadow o obj v m = m.wr (shadowObj o obj) v := by
  rw [setShadow, octCaught_of_not_due (octDue_of_stopped h)]
  exact shadowLate_of_stopped h

theorem offLanes_laneImm {j : Nat} (hj : j < 8) (pn : Nat) (forced : Bool) (m : Mach) :
    (laneImm o j pn forced m).offLanes o = m.offLanes o := by
  unfold laneImm
  extract_lets x from8 d m1 kept lvl a plan evs at_ new
  have h1 : m1.offLanes o = m.offLanes o := offLanes_wr (laneKey_chan hj).1 d m
  split
  · exact (offLanes_updOctet rfl).trans h1
  · exact (offLanes_updOctet rfl).trans h1

/-- An immediate period replaces the one in force, and ends it at the next tick where the count is past it (R278). -/
theorem octImm_does (ho : o < 16) (v : Nat) (m : Mach) :
    ((octImm o v m).alarms = m.alarms ∧ (octImm o v m).notes = m.notes) ∧ (octImm o v m).rd (R.PWM_PERIOD o) = v ∧
    ((octImm o v m).octet o).p = v ∧
    ((octImm o v m).octet o).nb = if (((octCaught o m).octet o).b + v) / 128 ≤ m.pnow then 128 * (m.pnow + 1)
      else ((octCaught o m).octet o).b + v := by
  unfold octImm
  extract_lets m0 x forced m1
  have himm := each_keeps_of (g := Mach.offLanes o) (l := octLanes m0 o)
    (fun j hj m => offLanes_laneImm (lt_of_mem_octLanes hj) v forced m) m1
  obtain ⟨himm, hclock⟩ := offLanes_iff.mp himm
  obtain ⟨⟨hal, hno⟩, -, hrd⟩ := eq_of_offOctet himm
  obtain ⟨⟨hal0, hno0⟩, -, -⟩ := eq_of_offOctet (offOctet_octCaught (o := o) m)
  simp only [Octet.clock, Prod.mk.injEq] at hclock
  obtain ⟨-, -, hp, hnb, -⟩ := hclock
  refine ⟨⟨hal.trans hal0, hno.trans hno0⟩, (hrd _ (not_laneKey ho _ (by simp))).trans (rd_wr_same ..), hp.trans ?_, hnb.trans ?_⟩
  · rw [Mach.setOctet_same]
  · simp only [m1, forced, x, Mach.setOctet_same, decide_eq_true_eq, m0, pnow_octCaught]

@[simp] theorem octDark_away (o mask : Nat) (m : Mach) : ((octDark o mask m).octet o).away = (m.octet o).away := by
  unfold octDark openBlank
  dsimp only
  split_ifs <;> simp

/-- Channels that go dark from their safe levels' own levels open no class A window (R297). -/
theorem octDark_blankA {mask : Nat} (h : ∀ j < 8, bit j mask = true → octOnPin m o j = true →
    safeDiffers m (8 * o + j) (bit j (m.octet o).lv) = false) : ((octDark o mask m).octet o).blankA = (m.octet o).blankA := by
  have hseen : (List.range 8).any (fun j => bit j mask && octOnPin m o j && safeDiffers m (8 * o + j) (bit j (m.octet o).lv)) = false := by
    rw [List.any_eq_false]
    intro j hj
    simpa using h j (List.mem_range.mp hj)
  simp [octDark, hseen]

/-- Channels sent off stay away from the tick of the write on (R288). -/
theorem octChOff_does (ho : o < 16) (v : Nat) (m : Mach) :
    ((octChOff o v m).alarms = m.alarms ∧ (octChOff o v m).notes = m.notes) ∧ (octChOff o v m).rd (R.PWM_CH_OFF o) = v ∧
    ((octChOff o v m).octet o).away = ((octCaught o m).octet o).away ||| pairWide (m.pwmBridge o) v := by
  unfold octChOff
  extract_lets m0 off m1
  obtain ⟨hdrop, -⟩ := offLanes_iff.mp (offLanes_dropCarries (o := o) (bit · off) ((octDark o off m0).wr (R.PWM_CH_OFF o) v))
  obtain ⟨hdark, -⟩ := offLanes_iff.mp (offLanes_octDark (o := o) off m0)
  obtain ⟨⟨hal, hno⟩, -, hrd⟩ := eq_of_offOctet hdrop
  obtain ⟨⟨hal1, hno1⟩, -⟩ := eq_of_offOctet hdark
  obtain ⟨⟨hal0, hno0⟩, -, hrd0⟩ := eq_of_offOctet (offOctet_octCaught (o := o) m)
  have hbridge : m0.pwmBridge o = m.pwmBridge o := by
    rw [Mach.pwmBridge, Mach.pwmBridge, hrd0 _ (not_laneKey ho _ (by simp))]
  have hoct : m1.octets = (octDark o off m0).octets := each_keeps (g := Mach.octets) (fun j m => by split <;> simp) _ _
  refine ⟨⟨(hal.trans hal1).trans hal0, (hno.trans hno1).trans hno0⟩, ?_, ?_⟩
  · exact (hrd _ (not_laneKey ho _ (by simp))).trans (rd_wr_same ..)
  · rw [Mach.updOctet_same, octet_congr hoct, octDark_away]
    simp only [off, hbridge, m0]

/-! ## Dead times, carries and measured delays -/

/-- Without ADAPT both dead times are DT_NOM (R283). -/
theorem dead_of_not_adapts {i : Nat} (h : dtAdapts m o i = false) :
    dtR m o i = m.rd (R.PWM_DT_NOM o i) ∧ dtF m o i = m.rd (R.PWM_DT_NOM o i) := by
  simp [dtR, dtF, h]

/-- A rising-node transition that waits with its turn-on takes the new dead time, and the turn-on moves with it (R275). -/
theorem octRetime_rising {i dt : Nat} {e f : PwmEdge} (hdt : dtR m o i = dt) (he : e.node = 1) (hf : f.node = 0)
    (hej : e.j = 2 * i + 1) (hfj : f.j = 2 * i) (hon : f.on = true) (ht : f.t = e.t + e.dt) (hedges : (m.octet o).edges = [e, f]) :
    ((octRetime o i m).octet o).edges = [{ e with dt := dt }, { t := e.t + dt, j := f.j, on := true }] := by
  have hi : (2 * i + 1) / 2 = i := by omega
  have hlow : 4 * i + 1 - (2 * i + 1) = 2 * i := by omega
  simp [octRetime, hedges, he, hf, hej, hfj, hon, ht, hdt, hi, hlow, edgesJoin, edgeAdd, edgeMeets, edgePut]

theorem setDtNom_moves {i v : Nat} {e f : PwmEdge} (ha : dtAdapts m o i = false) (he : e.node = 1) (hf : f.node = 0)
    (hej : e.j = 2 * i + 1) (hfj : f.j = 2 * i) (hon : f.on = true) (ht : f.t = e.t + e.dt) (hedges : (m.octet o).edges = [e, f])
    (hv : v ≠ m.rd (R.PWM_DT_NOM o i)) :
    ((setDtNom o i v m).octet o).edges = [{ e with dt := v }, { t := e.t + v, j := f.j, on := true }] := by
  have hkey : (R.PWM_DT_CFG o i).key ≠ (R.PWM_DT_NOM o i).key := key_ne_of_sub rfl rfl
  have ha1 : dtAdapts (m.wr (R.PWM_DT_NOM o i) v) o i = false := by rwa [dtAdapts, rd_wr_ne hkey]
  have hdt : dtR (m.wr (R.PWM_DT_NOM o i) v) o i = v := (dead_of_not_adapts ha1).1.trans (rd_wr_same ..)
  have hnew : ¬(dtR (m.wr (R.PWM_DT_NOM o i) v) o i = dtR m o i ∧ dtF (m.wr (R.PWM_DT_NOM o i) v) o i = dtF m o i) := by
    rw [hdt, (dead_of_not_adapts ha).1]
    exact fun h => hv h.1
  simp only [setDtNom, dtWrite, if_neg hnew]
  exact octRetime_rising hdt he hf hej hfj hon ht hedges

/-- Without CARRY every carry is 0 (R286). -/
theorem setPwmCfg_carry {v j : Nat} (hv : bit 2 v = false) (hj : j < 8) : (setPwmCfg o v m).rd (R.PWM_CARRY o j) = 0 := by
  simp only [setPwmCfg, hv, Bool.false_eq_true, if_false]
  exact rd_clearCarries hj _

section
variable {i t t0 dt : Nat} {rise : Bool} {p : PwmPair} (hp : p = mapGet {} i (m.octet o).pairs) (h1 : t0 < t) (h2 : t ≤ t0 + dt)
include hp h1 h2

/-- A crossing inside the window of a rising-node transition is its measured delay (R282). -/
theorem snCrossing_rising (hup : (rise != bit 1 (m.rd (R.PWM_DT_CFG o i))) = true) (hw : p.winR = some (t0, dt)) (hm : p.rise ≠ .none) :
    snCrossing o i rise t m = (m.updOctet o (fun x => { x with
      pairs := mapSet {} i { p with winR := none, rise := .seen (t - t0) } x.pairs })).wr (R.PWM_SN_MEAS_R o i) (t - t0) := by
  simp [snCrossing, ← hp, hup, hw, hm, h1, h2]

/-- The same of a falling-node transition. -/
theorem snCrossing_falling (hup : (rise != bit 1 (m.rd (R.PWM_DT_CFG o i))) = false) (hw : p.winF = some (t0, dt))
    (hm : p.fall ≠ .none) :
    snCrossing o i rise t m = (m.updOctet o (fun x => { x with
      pairs := mapSet {} i { p with winF := none, fall := .seen (t - t0) } x.pairs })).wr (R.PWM_SN_MEAS_F o i) (t - t0) := by
  simp [snCrossing, ← hp, hup, hw, hm, h1, h2]
end

/-! ## Transitions and peaks -/

theorem octPeak_raises (hst : (m.octet o).st = 3 ∨ (m.octet o).st = 4) (hc : m.pwmCentre o = true) :
    octPeak o m = m.raise (R.PWM_EVT o) (R.PWM_EVT_EN o) 1 (160 + o) :=
  if_pos ⟨hst, hc⟩

section
variable {j : Nat} {e : PwmEdge} (he : (m.octet o).edges.find? (fun e => e.j == j) = some e)
include he

/-- A transition reaches the waveform of a channel that the octet drives (R274, R281, R282, R297). -/
theorem octEdge_drives (hd : octDrives m o j = true) : octEdge o j m = Mach.updOctet o (fun x => { x with lv := putBit j e.on x.lv })
    (Mach.when (octOnPin m o j && (if e.ret then safeDiffers m (8 * o + j) true else bit j (m.octet o).lv != e.on)) (openBlank o e.t)
      (Mach.when (e.node != 0 && (octOnPin m o j || octOnPin m o (4 * (j / 2) + 1 - j))) (openWindow o e)
        (m.setOctet o { m.octet o with edges := (m.octet o).edges.erase e }))) := by
  simp [octEdge, he, hd, Mach.when]

/-- A transition of a channel that the octet does not drive is taken out. -/
theorem octEdge_drops (hd : octDrives m o j = false) :
    octEdge o j m = m.setOctet o { m.octet o with edges := (m.octet o).edges.erase e } := by
  simp [octEdge, he, hd]
end

@[simp] theorem openBlank_quiet (o t : Nat) (m : Mach) : (openBlank o t m).alarms = m.alarms ∧ (openBlank o t m).notes = m.notes := by
  unfold openBlank
  dsimp only
  split <;> simp

@[simp] theorem openWindow_quiet (o : Nat) (e : PwmEdge) (m : Mach) :
    (openWindow o e m).alarms = m.alarms ∧ (openWindow o e m).notes = m.notes := by
  simp [openWindow]

/-- The windows that a transition opens set nothing off. -/
theorem windows_quiet (o t : Nat) (e : PwmEdge) (b c : Bool) (m : Mach) :
    (Mach.when b (openBlank o t) (Mach.when c (openWindow o e) m)).alarms = m.alarms ∧
    (Mach.when b (openBlank o t) (Mach.when c (openWindow o e) m)).notes = m.notes :=
  ⟨(when_alarms (openBlank_quiet ..).1).trans (when_alarms (openWindow_quiet ..).1),
    (when_notes (openBlank_quiet ..).2).trans (when_notes (openWindow_quiet ..).2)⟩
end

/-- Settles O16: each command is `done` of its effect, whose laws above say where the octet's periods, waveforms and draws go; a boundary
or start changes its octet alone until the tick reports what it owes. -/
theorem pwmCommands : Obligations.PwmCommands := by
  unfold Obligations.PwmCommands
  intro s w o hs
  refine ⟨fun hok h0 hh hsl hm => done_acts hm (octRunOn_requests hok h0 hh hsl),
    fun hok h => writes_of_ok rfl hs (octRunOn_notes hok h) (by simp),
    fun hok hm => done_turned hm (octRunOn_range hok), pwmRunOff_stops hs w, octCaught_of_not_due,
    fun hd h2 => ⟨octReport_octCaught hd h2, octCaught_owes o.isLt s.m⟩, (octStop_clears o.isLt s.m).1,
    (octStop_clears o.isLt s.m).2, pwmStart_latched hs, fun h2 hc => ?_, fun h3 => ?_,
    fun hst hc => to_of_quiet rfl hs (octPeak_raises hst hc) (by simp), fun j e m he hm => ⟨fun hd => ?_, fun hd => ?_⟩,
    fun obj v hok => ⟨fun hm => ?_, fun hst => ?_⟩, fun obj v hok => turns_of_range rfl hok, fun v hok => ?_,
    fun v hok => turns_of_range rfl hok, fun v => ?_, fun mask h => octDark_blankA h,
    fun i e f ha he hf hej _ hfj hon ht hedges v hv => setDtNom_moves ha he hf hej hfj hon ht hedges hv,
    fun v hv j hj => setPwmCfg_carry hv hj,
    fun i rise t t0 dt p hp h1 h2 => ⟨fun hup hw hm => ?_, fun hup hw hm => ?_⟩⟩
  · obtain ⟨t, ht, hq, hclock, hcount, hshown⟩ := pwmStart_runs hs h2 hc
    simp only [Octet.clock, Octet.firstClock, Prod.mk.injEq] at hclock
    obtain ⟨hst, hb, hp, hnb, -⟩ := hclock
    exact ⟨t, ht, hq, hst, hcount, hshown, hb, hp, hnb⟩
  · obtain ⟨t, ht, hq, hclock, hcount, hshown⟩ := pwmBoundary_turns hs h3 rfl
    simp only [Octet.clock, Prod.mk.injEq] at hclock
    obtain ⟨hst, hb, hp, hnb, hphi⟩ := hclock
    exact ⟨t, ht, hq, hst, hcount, hb, hphi, hp, hnb.trans (by rw [hp]), hshown⟩
  · subst hm
    exact to_of_quiet rfl hs (octEdge_drives he hd) (windows_quiet ..)
  · exact to_of_quiet rfl hs ((octEdge_drops he hd).trans hm.symm) (by simp [hm])
  · exact done_acts hm (if_pos hok)
  · exact writes_of_ok rfl hs ((if_pos hok).trans (congrArg Except.ok (setShadow_of_stopped obj v.toNat hst))) (by simp)
  · obtain ⟨hq, hper, hp, hnb⟩ := octImm_does o.isLt v.toNat s.m
    refine leads_of_quiet rfl hs (if_pos hok) hq fun n hoct _ hrd => ?_
    rw [hrd, hoct]
    exact ⟨hper, hp, hnb⟩
  · obtain ⟨hq, hoff, haway⟩ := octChOff_does o.isLt v.toNat s.m
    refine leads_of_quiet rfl hs rfl hq fun n hoct _ hrd => ?_
    rw [hrd, hoct]
    exact ⟨hoff, haway⟩
  · exact to_of_quiet rfl hs (snCrossing_rising hp h1 h2 hup hw hm) (by simp)
  · exact to_of_quiet rfl hs (snCrossing_falling hp h1 h2 hup hw hm) (by simp)

end Sys2Proof.Machine

/-! # O17: trips, latches and readback of the octets

A trip input is judged by its filter, is counted, and may latch; a cause that is set latches a running octet, and a cause that is cleared
may ask for the rejoin. Each is said once; the commands are their effects on the octet whose boundary was caught. -/

namespace Sys2Proof.Machine

/-! ## Operations of an octet -/

section
variable {o : Nat}

/-- Channels that go dark change no object, and the octet's state stays. -/
@[simp] theorem octDark_leaves (mask : Nat) (m : Mach) :
    ((octDark o mask m).alarms = m.alarms ∧ (octDark o mask m).notes = m.notes) ∧ (octDark o mask m).regs = m.regs ∧
    ((octDark o mask m).octet o).st = (m.octet o).st := by
  unfold octDark openBlank
  dsimp only
  split_ifs <;> simp

@[simp] theorem octDark_rd (mask : Nat) (m : Mach) (p : Obj) : (octDark o mask m).rd p = m.rd p := by
  rw [Mach.rd, (octDark_leaves mask m).2.1, Mach.rd]

@[simp] theorem trpRaise_leaves (b : Nat) (m : Mach) :
    ((trpRaise o b m).alarms = m.alarms ∧ (trpRaise o b m).notes = m.notes) ∧ (trpRaise o b m).octets = m.octets := by
  simp [trpRaise]

@[simp] theorem trpRaise_octet (b : Nat) (m : Mach) : (trpRaise o b m).octet o = m.octet o := octet_congr (trpRaise_leaves b m).2 o

@[simp] theorem inc_octet (p : Obj) (m : Mach) : (m.inc p).octet o = m.octet o := octet_congr (by simp) o

/-- A trip event is the only object that raising it changes. -/
theorem rd_trpRaise {p : Obj} {b : Nat} {m : Mach} (h : p.key ≠ (R.TRP_EVT o).key) : (trpRaise o b m).rd p = m.rd p := rd_raise h

/-! ## Latching (R305) -/

/-- A cause that is set stands among the causes; it latches a running octet, which is counted where the cause is an escalation. -/
theorem octLatch_does (o c : Nat) (m : Mach) :
    ((octLatch o c m).alarms = m.alarms ∧ (octLatch o c m).notes = m.notes) ∧
    (octLatch o c m).rd (R.TRP_LATCH_CAUSE o) = setBit c (m.rd (R.TRP_LATCH_CAUSE o)) ∧
    ((m.octet o).st = 3 → ((octLatch o c m).octet o).st = 4 ∧ ((octLatch o c m).octet o).away = 0xFF ∧
      ((octLatch o c m).octet o).edges = [] ∧
      (c < 2 → (octLatch o c m).rd (R.TRP_CNT_ESC o) = min 0xFFFFFFFF (m.rd (R.TRP_CNT_ESC o) + 1))) ∧
    ((m.octet o).st ≠ 3 → ((octLatch o c m).octet o).st = (m.octet o).st) := by
  have hce : (R.TRP_LATCH_CAUSE o).key ≠ (R.TRP_CNT_ESC o).key := key_ne_of_sub rfl rfl
  have hc : (R.TRP_LATCH_CAUSE o).key ≠ (R.TRP_EVT o).key := key_ne_of_sub rfl rfl
  have he : (R.TRP_CNT_ESC o).key ≠ (R.TRP_EVT o).key := key_ne_of_sub rfl rfl
  unfold octLatch
  extract_lets x esc m1 m2
  have h1 : (m1.alarms = m.alarms ∧ m1.notes = m.notes) ∧ m1.octet o = m.octet o ∧
      m1.rd (R.TRP_LATCH_CAUSE o) = setBit c (m.rd (R.TRP_LATCH_CAUSE o)) ∧
      (esc = true → m1.rd (R.TRP_CNT_ESC o) = min 0xFFFFFFFF (m.rd (R.TRP_CNT_ESC o) + 1)) := by
    unfold m1 Mach.when
    split
    next h => simp [rd_inc_ne hce, rd_inc_same, rd_wr_ne hce.symm]
    next h => simp [h]
  obtain ⟨hq, hoct, hcause, hesc⟩ := h1
  have h2 : (m2.octet o).st = x.st := by simp [m2, hoct, x]
  split
  next h3 =>
    refine ⟨by simp [m2, hq], by simp [rd_trpRaise hc, m2, hcause], fun _ => ⟨by simp, by simp, by simp, fun hlt => ?_⟩,
      fun hn => absurd h3 hn⟩
    have hx : esc = true := by simp [esc, hlt, h3]
    simp [rd_trpRaise he, m2, hesc hx]
  next h3 => exact ⟨by simp [m2, hq], by simp [m2, hcause], fun h => absurd h h3, fun _ => h2⟩

/-! ## Trips (R300, R304) -/

/-- The filter, the escalation count and the counter of a class, and its flag of a valid trip in the period. -/
abbrev tripFilt (o : Nat) (b : Bool) : Obj := if b then R.TRP_B_FILT o else R.TRP_A_FILT o
abbrev tripEsc (o : Nat) (b : Bool) : Obj := if b then R.TRP_B_ESC o else R.TRP_A_ESC o
abbrev tripCnt (o : Nat) (b : Bool) : Obj := if b then R.TRP_CNT_B o else R.TRP_CNT_A o
abbrev Octet.tripped (b : Bool) (x : Octet) : Bool := if b then x.tripB else x.tripA

/-- A class's counter is none of the octet's other trip objects. -/
theorem key_ne_tripCnt (o : Nat) (b : Bool) : ∀ p ∈ [R.TRP_LAST o, R.TRP_LATCH_CAUSE o, R.TRP_EVT o, R.TRP_CNT_ESC o],
    p.key ≠ (tripCnt o b).key := by
  simp only [List.forall_mem_cons, List.not_mem_nil, false_imp_iff, implies_true, and_true]
  cases b <;> exact ⟨key_ne_of_sub rfl rfl, key_ne_of_sub rfl rfl, key_ne_of_sub rfl rfl, key_ne_of_sub rfl rfl⟩

/-- The numbers below n that meet p without a gap reach past k where k is below n and all up to k meet it. -/
theorem lt_length_takeWhile_range {p : Nat → Bool} {k n : Nat} :
    k < ((List.range n).takeWhile p).length ↔ k < n ∧ ∀ i ≤ k, p i = true := by
  rw [List.takeWhile_eq_take_findIdx_not, List.length_take, Nat.min_eq_left List.findIdx_le_length, List.lt_findIdx_iff]
  simp

/-- A trip input of a running octet qualifies where the input and the unblanked ticks have lasted past the filter and the comparator
asserted in each of these ticks (R300). -/
theorem tripQualified_iff {m : Mach} {b : Bool} {v : Rat} {n : Nat} (h3 : (m.octet o).st = 3) (hen : trpEn m o b = true)
    (hno : (m.octet o).tripped b = false) :
    tripQualified m o b v n = true ↔ m.rd (tripFilt o b) < min n (cleanTicks m o b) ∧
      ∀ k ≤ m.rd (tripFilt o b), trpAsserts m o b (m.pnow - k) v = true := by
  simp only [tripQualified, h3, hen, hno, beq_self_eq_true, Bool.true_or, Bool.true_and, Bool.not_false, decide_eq_true_eq, lt_min_iff,
    assertTicks, lt_length_takeWhile_range]
  tauto

/-- A valid trip is counted and stamped, sets its class and raises its event; where its run has reached the escalation count it latches
(R301, R304). -/
theorem tripTake_does (o : Nat) (b : Bool) (m : Mach) : ∃ m1 : Mach,
    (m1.octet o).st = (m.octet o).st ∧ (m1.octet o).tripped b = true ∧
    m1.rd (R.TRP_LAST o) = m.pnow8 ∧
    m1.rd (tripCnt o b) =
      min 0xFFFFFFFF (m.rd (tripCnt o b) + 1) ∧
    (∀ p : Obj, p.key ≠ (R.TRP_LAST o).key → p.key ≠ (tripCnt o b).key →
      p.key ≠ (R.TRP_EVT o).key → m1.rd p = m.rd p) ∧
    tripTake o b m =
      if m.rd (tripEsc o b) ≠ 0 ∧ m.rd (tripEsc o b) ≤ min 255 ((if b then (m.octet o).runB else (m.octet o).runA) + 1) then
        octLatch o (if b then 1 else 0) m1
      else m1 := by
  have hle : (R.TRP_LAST o).key ≠ (R.TRP_EVT o).key := key_ne_of_sub rfl rfl
  have hcl : (R.TRP_LAST o).key ≠ (tripCnt o b).key := key_ne_tripCnt o b _ (by simp)
  have hce : (R.TRP_EVT o).key ≠ (tripCnt o b).key := key_ne_tripCnt o b _ (by simp)
  unfold tripTake
  extract_lets cut run m1 m2 esc
  have h1 (p : Obj) : m1.rd p = m.rd p := octDark_rd cut m p
  refine ⟨m2, ?_, ?_, ?_, ?_, fun p hl hc he => ?_, rfl⟩
  · cases b <;> simp [m2, m1]
  · cases b <;> simp [m2, m1]
  · rw [rd_trpRaise hle, rd_inc_ne hcl, rd_wr_same]
  · rw [rd_trpRaise hce.symm, rd_inc_same, rd_wr_ne hcl.symm, h1]
  · rw [rd_trpRaise he, rd_inc_ne hc, rd_wr_ne hl, h1]

section
variable {m : Mach} {b : Bool} {v : BitVec 16} {n : Byte} (h3 : (m.octet o).st = 3) (hen : trpEn m o b = true)
  (hno : (m.octet o).tripped b = false)
include h3 hen hno

/-- A trip input that has lasted past the filter in unblanked ticks in which the comparator asserted is taken (R300). -/
theorem tripJudge_takes (hlast : m.rd (tripFilt o b) < min n.toNat (cleanTicks m o b))
    (hass : ∀ k ≤ m.rd (tripFilt o b), trpAsserts m o b (m.pnow - k) ((v.toNat : Rat) / 256) = true) :
    tripJudge o ⟨b, v, n⟩ m = tripTake o b m :=
  if_pos ((tripQualified_iff h3 hen hno).mpr ⟨hlast, hass⟩)

/-- Any other is not. -/
theorem tripJudge_ignores
    (h : (∃ k ≤ m.rd (tripFilt o b), trpAsserts m o b (m.pnow - k) ((v.toNat : Rat) / 256) = false) ∨
      min n.toNat (cleanTicks m o b) ≤ m.rd (tripFilt o b)) : tripJudge o ⟨b, v, n⟩ m = m := by
  refine if_neg fun hq => ?_
  obtain ⟨hlast, hass⟩ := (tripQualified_iff h3 hen hno).mp hq
  obtain ⟨k, hk, hnot⟩ | hle := h
  · simp [hass k hk] at hnot
  · exact absurd hlast (not_lt.mpr hle)
end

/-- Without an escalation count a valid trip leaves a running octet running (R304). -/
theorem tripTake_runs {m : Mach} {b : Bool} (h3 : (m.octet o).st = 3) (he : m.rd (tripEsc o b) = 0) :
    ((tripTake o b m).octet o).st = 3 ∧
    ((tripTake o b m).octet o).tripped b = true ∧
    (tripTake o b m).rd (R.TRP_LAST o) = m.pnow8 ∧
    (tripTake o b m).rd (tripCnt o b) =
      min 0xFFFFFFFF (m.rd (tripCnt o b) + 1) := by
  obtain ⟨m1, hst, htrip, hlast, hcnt, -, heq⟩ := tripTake_does o b m
  rw [heq, he, if_neg (by simp)]
  exact ⟨hst.trans h3, htrip, hlast, hcnt⟩

/-- With an escalation count of 1 it latches it (R304, R305). -/
theorem tripTake_latches {m : Mach} {b : Bool} (h3 : (m.octet o).st = 3)
    (he : m.rd (tripEsc o b) = 1) :
    ((tripTake o b m).octet o).st = 4 ∧
    (tripTake o b m).rd (R.TRP_LATCH_CAUSE o) = setBit (if b then 1 else 0) (m.rd (R.TRP_LATCH_CAUSE o)) ∧
    (tripTake o b m).rd (R.TRP_CNT_ESC o) = min 0xFFFFFFFF (m.rd (R.TRP_CNT_ESC o) + 1) := by
  obtain ⟨m1, hst, -, -, -, hrd, heq⟩ := tripTake_does o b m
  obtain ⟨-, hcause, hrun, -⟩ := octLatch_does o (if b then 1 else 0) m1
  obtain ⟨hst4, -, -, hesc⟩ := hrun (hst.trans h3)
  rw [heq, he, if_pos (by omega)]
  refine ⟨hst4, ?_, ?_⟩
  · rw [hcause, hrd (R.TRP_LATCH_CAUSE o) (key_ne_of_sub rfl rfl) (key_ne_tripCnt o b _ (by simp)) (key_ne_of_sub rfl rfl)]
  · rw [hesc (by cases b <;> decide),
      hrd (R.TRP_CNT_ESC o) (key_ne_of_sub rfl rfl) (key_ne_tripCnt o b _ (by simp)) (key_ne_of_sub rfl rfl)]

/-- The one trip input of a tick is judged with the inputs taken out. -/
theorem octTrips_single {m : Mach} {t : TripIn} (h : (m.octet o).trips = [t]) :
    octTrips o m = tripJudge o t (m.updOctet o (fun x => { x with trips := [] })) := by
  rw [octTrips, h]
  rfl

/-! ## Thresholds and class B windows (R296, R298) -/

/-- Of an octet whose settings have not changed lately, a write counts from its tick on (R296). -/
theorem trpThen_setTrp {m : Mach} (hp : (m.octet o).past = []) (obj : Obj) (v t : Nat) :
    trpThen (setTrp o obj v m) o t = if m.pnow ≤ t then trpNow (setTrp o obj v m) o else trpNow m o := by
  unfold setTrp
  extract_lets m1
  split
  next h => simp [trpThen, m1, hp, h]
  next h =>
    by_cases ht : m.pnow ≤ t
    · simp [trpThen, m1, hp, ht]
    · simp [trpThen, m1, hp, ht, not_le.mp ht]

theorem trpMatch_leaves (n c : Nat) (m : Mach) : trpBSrc (trpMatch n c o m) o = trpBSrc m o ∧
    trpBArg (trpMatch n c o m) o = trpBArg m o ∧ (trpMatch n c o m).now = m.now := by
  unfold trpMatch
  extract_lets x old
  split_ifs <;> exact ⟨rfl, rfl, rfl⟩

section
variable {m : Mach} {n : Nat} (hsrc : trpBSrc m o = 2) (hn : trpBArg m o % 16 = n)
include hsrc hn

/-- A CMP1 match takes the place of a CMP0 match of its tick, and closes the window when it is seen. -/
theorem trpMatch_closes : ((trpMatch n 1 o m).octet o).bWait =
    (m.octet o).bWait.filter (fun e => e.1 != m.now) ++ [(m.now, m.now + 2 + m.free.1 % 2, false)] := by
  simp [trpMatch, hsrc, hn]

/-- A CMP0 match opens it, but for one in a tick of a CMP1 match. -/
theorem trpMatch_opens : ((trpMatch n 0 o m).octet o).bWait =
    if (m.octet o).bWait.any (fun e => e.1 == m.now && !e.2.2) then (m.octet o).bWait
    else (m.octet o).bWait ++ [(m.now, m.now + 2 + m.free.1 % 2, true)] := by
  unfold trpMatch
  rw [if_pos ⟨hsrc, hn⟩]
  simp only [true_and, if_false, Nat.zero_ne_one]
  split <;> simp

/-- Of a CMP0 and a CMP1 match of one tick the latter alone is seen, whichever comes first (R298). -/
theorem trpMatch_both (hw : (m.octet o).bWait = []) :
    ((trpMatch n 0 o (trpMatch n 1 o m)).octet o).bWait.all (fun e => !e.2.2) = true ∧
    ((trpMatch n 1 o (trpMatch n 0 o m)).octet o).bWait.all (fun e => !e.2.2) = true := by
  obtain ⟨hs0, ha0, ht0⟩ := trpMatch_leaves (o := o) n 0 m
  obtain ⟨hs1, ha1, ht1⟩ := trpMatch_leaves (o := o) n 1 m
  rw [trpMatch_opens (hs1.trans hsrc) (by rw [ha1, hn]), trpMatch_closes (hs0.trans hsrc) (by rw [ha0, hn]),
    trpMatch_closes hsrc hn, trpMatch_opens hsrc hn, hw, ht0, ht1]
  simp
end

/-! ## Rearms (R307, R308, R315) -/

section
variable {m : Mach} {mask old clear new : Nat} (hold : old = m.rd (R.TRP_LATCH_CAUSE o)) (hclear : clear = old &&& mask)
  (hnew : new = old - (clear - (clear &&& (octFresh m o &&& 0xF))))
include hold hclear hnew

/-- A clear that is not the last of a latched octet only clears. -/
theorem octClearCauses_clears (h : (m.octet o).st ≠ 4 ∨ old = 0 ∨ new ≠ 0 ∨ (m.octet o).rejoin ≠ 0) :
    octClearCauses o mask m = m.wr (R.TRP_LATCH_CAUSE o) new := by
  subst hold hclear hnew
  rw [octClearCauses, if_neg (by tauto)]

/-- The last clear of a latched octet asks for the rejoin draw. -/
theorem octClearCauses_rejoins (h4 : (m.octet o).st = 4) (h0 : old ≠ 0) (hn : new = 0) (hr : (m.octet o).rejoin = 0) :
    octClearCauses o mask m =
      govRequest (.octRejoin o) ((m.wr (R.TRP_LATCH_CAUSE o) 0).updOctet o (fun x => { x with rejoin := 1 })) := by
  subst hold hclear hnew
  rw [octClearCauses, if_pos ⟨h4, h0, hn, hr⟩, hn]
end

/-- RB that was not set in the tick of its clear is not held. -/
theorem rb_and_fresh {k : Nat} (h : bit 3 k = false) : 8 &&& (k &&& 0xF) = 0 := by
  rw [bit_eq_testBit] at h
  rw [← Nat.and_assoc, show 8 = 2 ^ 3 from rfl, Nat.two_pow_and, h]
  rfl

/-- Where RB stands from before its tick, and no latch waits on it, it is cleared alone (R315). -/
theorem octClearCauses_rb {m : Mach} (hf : bit 3 (octFresh m o) = false) (hc : m.rd (R.TRP_LATCH_CAUSE o) &&& 8 = 8)
    (h4 : (m.octet o).st ≠ 4) : octClearCauses o 8 m = m.wr (R.TRP_LATCH_CAUSE o) (m.rd (R.TRP_LATCH_CAUSE o) - 8) :=
  octClearCauses_clears rfl hc.symm (by rw [rb_and_fresh hf, Nat.sub_zero]) (.inl h4)

/-! ## Readback (R314, R315) -/

section
variable {m : Mach} {j n k : Nat} (hk : k = rbStart m o j n)
include hk

/-- A run of mismatches that reaches TRP_RB_TOL, the first of its run, is a fault. -/
theorem readbackEffect_faults (hen : bit j (m.rd (R.TRP_RB_EN o)) = true) (htol : m.rd (R.TRP_RB_TOL o) ≤ m.pnow + 1 - k)
    (hhit : mapGet 0 j (m.octet o).rbHit ≤ k) :
    readbackEffect o j n m = (octLatch o 3 (trpRaise o 4 ((((octCaught o m).setEvt (R.TRP_RB_CH o) j).inc
      (R.TRP_CNT_RB o)).updOctet o (fun x => { x with rbHit := mapSet 0 j (m.pnow + 1) x.rbHit })))).alarm 10 := by
  subst hk
  exact if_pos ⟨hen, htol, hhit⟩

/-- Any other mismatch changes nothing. -/
theorem readbackEffect_ignores (h : bit j (m.rd (R.TRP_RB_EN o)) = false ∨ m.pnow + 1 - k < m.rd (R.TRP_RB_TOL o) ∨
    k < mapGet 0 j (m.octet o).rbHit) : readbackEffect o j n m = m := by
  subst hk
  refine if_neg ?_
  rintro ⟨hen, htol, hhit⟩
  obtain h | h | h := h
  · simp [hen] at h
  · exact absurd htol (not_le.mpr h)
  · exact absurd hhit (not_le.mpr h)
end
end

/-! ## The LATCH command -/

/-- A LATCH adds its cause to those that stood, which the octet's boundary leaves, and does to the octet what `octLatch` does (R305). -/
theorem latch_leads {s : State} {o : Fin 16} (hs : Settled s) (w : Writer) {P : Mach → Prop}
    (hP : ∀ n : Mach, n.octet o = (octLatch o 2 (octCaught o s.m)).octet o →
      n.rd (R.TRP_LATCH_CAUSE o) = setBit 2 (s.m.rd (R.TRP_LATCH_CAUSE o)) → P n) :
    Leads (.latch w o) s w (R.TRP_CMD o) false P := by
  obtain ⟨⟨hal, hno⟩, hcause, -⟩ := octLatch_does o 2 (octCaught o s.m)
  obtain ⟨⟨hal0, hno0⟩, -, hrd⟩ := eq_of_offOctet (offOctet_octCaught (o := o.val) s.m)
  refine leads_of_quiet rfl hs rfl ⟨hal.trans hal0, hno.trans hno0⟩ fun n hoct _ hn => hP n (hoct o) ?_
  rw [hn, trpLatch, hcause, hrd _ (not_laneKey o.isLt _ (by simp))]

/-- Settles O17: each command is `done` of its effect, and the laws above say of the effect what it leaves of the octet. -/
theorem tripCommands : Obligations.TripCommands := by
  unfold Obligations.TripCommands
  intro s w o hs
  refine ⟨fun t => to_of_quiet rfl hs rfl (by simp), fun t => octTrips_single, fun b v n h3 hen hno => ?_,
    fun obj v t hp => ?_, fun hw hsrc n hn => trpMatch_both hsrc hn hw, fun h3 => ?_, fun h3 => ?_,
    fun v m0 old clear new hok hm0 hold hclear hnew => ?_, fun v hok => turns_of_range rfl hok, fun m1 hm1 hf hc h4 hm => ?_,
    writes_of_ok rfl hs rfl ⟨rfl, rfl⟩, fun j n k hk => ⟨fun hdrv hen htol hhit => ?_, fun h => ?_⟩⟩
  · refine ⟨fun hlast hass => ?_, tripJudge_ignores h3 hen hno⟩
    rw [tripJudge_takes h3 hen hno hlast hass]
    exact ⟨fun he m hm => hm ▸ tripTake_runs h3 he, fun he m hm => hm ▸ tripTake_latches h3 he⟩
  · rw [trpThen_setTrp hp]
    exact ⟨fun h => if_pos h, fun h => if_neg (not_le.mpr h)⟩
  · refine latch_leads hs w fun m hoct hcause => ?_
    obtain ⟨-, -, hrun, -⟩ := octLatch_does o 2 (octCaught o s.m)
    obtain ⟨hst, haway, hedges, -⟩ := hrun h3
    rw [hoct]
    exact ⟨hst, haway, hedges, hcause⟩
  · refine latch_leads hs w fun m hoct hcause => ?_
    obtain ⟨-, -, -, hrest⟩ := octLatch_does o 2 (octCaught o s.m)
    exact ⟨hoct ▸ hrest h3, hcause⟩
  · subst hm0
    have he {m : Mach} (h : octClearCauses o (v.toNat % 8) (octCaught o s.m) = m) :
        Carries (.trpRearm w o v) s w (R.TRP_REARM o) false m := fun hm =>
      done_acts hm ((if_pos hok).trans (congrArg Except.ok h))
    exact ⟨fun h => he (octClearCauses_clears hold hclear hnew h),
      fun h4 h0 hn hr => he (octClearCauses_rejoins hold hclear hnew h4 h0 hn hr)⟩
  · subst hm1
    exact done_acts hm (congrArg Except.ok (octClearCauses_rb hf hc h4))
  · exact done_of_eq ((if_pos hdrv).trans (readbackEffect_faults hk hen htol hhit))
  · refine to_of_quiet rfl hs ?_ ⟨rfl, rfl⟩
    obtain hdrv | h := h
    · exact if_neg (by simp [hdrv])
    · simp only [readbackEffect_ignores hk h, ite_self]

end Sys2Proof.Machine

/-! # O18: the instructions of the Turret

An instruction that is issued runs in the machine that its fetch leaves, and how its slot ends follows from what the instruction answers
alone. That is said once; each instruction is then its answer. -/

namespace Sys2Proof.Machine

/-! ## What the operations of a slot leave -/

@[simp] theorem ctxRaise_fields (x b : Nat) (m : Mach) : (ctxRaise x b m).alarms = m.alarms ∧
    (ctxRaise x b m).notes = m.notes := by
  simp [ctxRaise]

@[simp] theorem turRaise_fields (e b : Nat) (m : Mach) : (turRaise e b m).tb = m.tb ∧
    (turRaise e b m).alarms = m.alarms ∧ (turRaise e b m).notes = m.notes := by
  simp [turRaise]

@[simp] theorem slotBegin_fields (x : Nat) (m : Mach) : (slotBegin x m).regs = m.regs ∧ (slotBegin x m).tb = m.tb ∧
    (slotBegin x m).alarms = m.alarms ∧ (slotBegin x m).notes = m.notes := by
  simp [slotBegin]

@[simp] theorem slotEnds_fields (x w pc : Nat) (m : Mach) : (slotEnds x w pc m).alarms = m.alarms ∧
    (slotEnds x w pc m).notes = m.notes := by
  simp [slotEnds]

@[simp] theorem slotWaits_fields (x : Nat) (m : Mach) : (slotWaits x m).alarms = m.alarms ∧ (slotWaits x m).notes = m.notes := by
  simp [slotWaits]

@[simp] theorem turTime_fields (m : Mach) : (turTime m).2.alarms = m.alarms ∧ (turTime m).2.notes = m.notes := by
  simp [turTime]

/-- At most a free value is drawn (R334). -/
@[simp] theorem regRead_fields (m : Mach) (x r : Nat) : (regRead m x r).2.alarms = m.alarms ∧ (regRead m x r).2.notes = m.notes := by
  unfold regRead
  split <;> simp

/-- X, Y and S0 to S3 are objects and nothing else. -/
theorem regWrite_quiet {r : Nat} (h : r ≤ 5) (x v : Nat) (m : Mach) : (regWrite x r v m).alarms = m.alarms ∧
    (regWrite x r v m).notes = m.notes := by
  interval_cases r <;> simp [regWrite]

@[simp] theorem flagPut_fields (x f : Nat) (b consume : Bool) (m : Mach) : (flagPut x f b consume m).alarms = m.alarms ∧
    (flagPut x f b consume m).notes = m.notes := by
  unfold flagPut
  split <;> simp

@[simp] theorem txUnder_fields (x : Nat) (m : Mach) : (txUnder x m).alarms = m.alarms ∧ (txUnder x m).notes = m.notes := by
  simp [txUnder]

/-! ## The slot of an instruction (R321, R325, R327, R329) -/

/-- The machine in which an instruction runs: its slot has begun, and a corrected error of its word is counted (R325). -/
def slotFetched (x : Nat) (f : Fetch) (m : Mach) : Mach :=
  if f = .corrected then turRaise (x / 16) 4 ((slotBegin x m).inc (R.TUR_CNT_ECC (x / 16))) else slotBegin x m

@[simp] theorem slotFetched_fields (x : Nat) (f : Fetch) (m : Mach) : (slotFetched x f m).tb = m.tb ∧
    (slotFetched x f m).alarms = m.alarms ∧ (slotFetched x f m).notes = m.notes := by
  unfold slotFetched
  split <;> simp

/-- How the slot of an instruction at pc ends by what the instruction answers. -/
def slotClosed (x w pc : Nat) (m : Mach) : SlotRes → Mach
  | .error cause => ctxFault x cause m
  | .ok (.wait, m1) => slotWaits x m1
  | .ok (.next, m1) => slotEnds x w (pc + 1) m1
  | .ok (.jump t, m1) => slotEnds x w t m1
  | .ok (.done, m1) => ctxRaise x 8 (((slotEnds x w (pc + 1) m1).wr (R.CTX_RUN x) 0).wr (R.CTX_STATE x) 3)

/-- What the slot of a context that issues comes to: a fault of its fetch or its word, nothing, or what the instruction makes of it. -/
theorem turSlot_open {x : Nat} {m : Mach} (ho : slotOpen m x = true) (op w unused : Nat) (f : Fetch) (run : Mach → SlotRes) :
    turSlot op x w f unused run m =
      if f = .fatal then (ctxFault x 4 (slotBegin x m)).alarm 6
      else if 0x18 ≤ turWord m (x / 16) (m.rd (R.CTX_PC x)) / 2 ^ 27 then ctxFault x 1 (slotFetched x f m)
      else if turWord m (x / 16) (m.rd (R.CTX_PC x)) ≠ op * 2 ^ 27 + w then m
      else if w &&& unused ≠ 0 then ctxFault x 1 (slotFetched x f m)
      else slotClosed x w (m.rd (R.CTX_PC x)) (slotFetched x f m) (run (slotFetched x f m)) := by
  have hfetched : (if f = .corrected then turRaise (x / 16) 4 ((slotBegin x m).inc (R.TUR_CNT_ECC (x / 16))) else slotBegin x m) =
    slotFetched x f m := rfl
  rw [turSlot, if_neg (by simp [ho])]
  dsimp only
  rw [hfetched]
  rcases run (slotFetched x f m) with cause | ⟨_ | t | _ | _, m1⟩ <;> rfl

theorem opcode_of_word {op w : Nat} (h : w < 2 ^ 27) : (op * 2 ^ 27 + w) / 2 ^ 27 = op := by omega

theorem turSlot_issued {op x w unused : Nat} {f : Fetch} {s : State} (hi : Issues op x w unused s) (hw : w < 2 ^ 27)
    (hf : f ≠ .fatal) (run : Mach → SlotRes) : turSlot op x w f unused run s.m =
      slotClosed x w (s.m.rd (R.CTX_PC x)) (slotFetched x f s.m) (run (slotFetched x f s.m)) := by
  obtain ⟨ho, hop, hword, hu⟩ := hi
  rw [turSlot_open ho, hword, opcode_of_word hw, if_neg hf, if_neg (by omega), if_neg (by simp), if_neg (by simp [hu])]

/-- Context x issues in this slot: m0 is the machine in which its instruction runs, at pc. -/
structure Fetching (s : State) (x : Fin 128) (f : Fetch) (m0 : Mach) (pc : Nat) : Prop where
  settled : Settled s
  sound : f ≠ .fatal
  begun : m0 = slotFetched x f s.m
  at_ : pc = s.m.rd (R.CTX_PC x)

namespace Fetching

variable {s : State} {x : Fin 128} {f : Fetch} {m0 m1 m2 : Mach} {pc : Nat} (h : Fetching s x f m0 pc)
include h

theorem now : m0.now = s.m.now := by simp [h.begun, Mach.now]

theorem now8 : m0.now8 = s.m.now8 := congrArg (8 * ·) h.now

theorem rd_pc : m0.rd (R.CTX_PC x) = pc := by
  rw [h.begun, h.at_]
  unfold slotFetched
  split
  · have hk : ∀ o ∈ [R.TUR_EVT (x / 16), R.TUR_CNT_ECC (x / 16)], (R.CTX_PC x).key ≠ o.key := by
      simp [Obj.key, R.CTX_PC, R.TUR_EVT, R.TUR_CNT_ECC]
      omega
    rw [turRaise, rd_raise (hk _ (by simp)), rd_inc_ne (hk _ (by simp))]
    simp [Mach.rd]
  · simp [Mach.rd]

variable {w : BitVec 27} {op unused : Nat} {c : Instr} {run : Mach → SlotRes}
  (hc : exec c s = done (turSlot op x w.toNat f unused run) s) (hi : Issues op x w.toNat unused s)
include hc hi

/-- An instruction row answers what its slot becomes by the instruction's answer. -/
theorem closes {r : SlotRes} (hr : run m0 = r) : To c s (settle (slotClosed x w.toNat pc m0 r)) := by
  obtain ⟨-, hf, rfl, rfl⟩ := h
  subst hr
  rw [To, hc, done, turSlot_issued hi w.isLt hf]

theorem next (hr : run m0 = .ok (.next, m1)) : To c s (settle (slotEnds x w.toNat (pc + 1) m1)) := h.closes hc hi hr

theorem jump {t : Nat} (hr : run m0 = .ok (.jump t, m1)) : To c s (settle (slotEnds x w.toNat t m1)) := h.closes hc hi hr

/-- The same where nothing is to settle. -/
theorem closes_quiet {r : SlotRes} (hr : run m0 = r) (hq : (slotClosed x w.toNat pc m0 r).alarms = m0.alarms ∧
    (slotClosed x w.toNat pc m0 r).notes = m0.notes) : To c s (slotClosed x w.toNat pc m0 r) := by
  have ht := h.closes hc hi hr
  obtain ⟨⟨ha, hn⟩, -, hm, -⟩ := h
  rwa [settle_quiet (by simpa [hm, ha] using hq.1) (by simpa [hm, hn] using hq.2)] at ht

variable (hq : m1.alarms = m0.alarms ∧ m1.notes = m0.notes)
include hq

theorem next_quiet (hr : run m0 = .ok (.next, m1)) : To c s (slotEnds x w.toNat (pc + 1) m1) :=
  h.closes_quiet hc hi hr (by simpa [slotClosed] using hq)

theorem jump_quiet {t : Nat} (hr : run m0 = .ok (.jump t, m1)) : To c s (slotEnds x w.toNat t m1) :=
  h.closes_quiet hc hi hr (by simpa [slotClosed] using hq)

theorem wait_quiet (hr : run m0 = .ok (.wait, m1)) : To c s (slotWaits x m1) :=
  h.closes_quiet hc hi hr (by simpa [slotClosed] using hq)

/-- A branch is taken or not (R328). -/
theorem branch {b : Bool} (hr : run m0 = .ok (if b then .jump (fTarget w.toNat) else .next, m1)) :
    To c s (slotEnds x w.toNat (if b then fTarget w.toNat else pc + 1) m1) := by
  cases b
  · exact h.next_quiet hc hi hq hr
  · exact h.jump_quiet hc hi hq hr

/-- A wait ends in the slot or not (R329). -/
theorem tests {p : Prop} [Decidable p] (hq2 : m2.alarms = m0.alarms ∧ m2.notes = m0.notes)
    (hr : run m0 = .ok (if p then (.next, m1) else (.wait, m2))) :
    To c s (if p then slotEnds x w.toNat (pc + 1) m1 else slotWaits x m2) := by
  split_ifs at hr ⊢
  · exact h.next_quiet hc hi hq hr
  · exact h.wait_quiet hc hi hq2 hr

end Fetching

/-! ## What the instructions answer -/

section
variable {x w : Nat} {m : Mach}

theorem toReg_writable {r : Nat} (h : regWritable r = true) (v : Nat) : toReg x r v m = .ok (.next, regWrite x r (v % 2 ^ 32) m) :=
  if_pos h

/-- What MOV makes of a register by its FN (R327). -/
def turMovFn (fn v : Nat) : Option Nat :=
  match fn with
  | 0 => some v
  | 1 => some (0xFFFFFFFF - v)
  | 2 => some (bitRev32 v)
  | 3 => some (byteRev32 v)
  | _ => none

theorem turMov_next {v : Nat} (hd : regWritable (fRd w) = true) (hv : turMovFn (fFn w) (regRead m x (fRs w)).1 = some v) :
    turMov x w m = .ok (.next, regWrite x (fRd w) (v % 2 ^ 32) (regRead m x (fRs w)).2) := by
  unfold turMovFn at hv
  unfold turMov
  split at hv <;> cases hv <;> simp [*, toReg_writable]

theorem turAlu_next {a b : Nat × Mach} {v : Nat} (hd : regWritable (fRd w) = true) (ha : regRead m x (fRs w) = a)
    (hb : regRead a.2 x (fRt w) = b) (hv : turAluFn (fFn w) a.1 b.1 = some v) :
    turAlu x w m = .ok (.next, regWrite x (fRd w) (v % 2 ^ 32) b.2) := by
  simp only [turAlu, ha, hb, hv, toReg_writable hd]

theorem turWaitpin_level (hp : pinBound m x (fPin w) = true) (hk : bits 17 16 w < 2) : turWaitpin x w m =
    .ok (if pinLevel m x (fPin w) = (bits 17 16 w == 1) then (.next, m) else (.wait, m)) := by
  simp only [turWaitpin, hp, hk, Bool.not_true, Bool.false_eq_true, if_false, if_true, beq_iff_eq]
  split_ifs <;> rfl

theorem turWaitpin_begins (hp : pinBound m x (fPin w) = true) (hk : 2 ≤ bits 17 16 w) (hw : (m.ctx x).wait = none) :
    turWaitpin x w m = .ok (.wait, m.updCtx x (fun c => { c with
      wait := some (fPin w, bits 17 16 w == 2, m.now)
      got := edgeComing m x (fPin w) (bits 17 16 w == 2) })) := by
  simp [turWaitpin, hp, Nat.not_lt.mpr hk, hw]

theorem turWaitpin_waits (hp : pinBound m x (fPin w) = true) (hk : 2 ≤ bits 17 16 w) (hw : (m.ctx x).wait.isSome = true)
    (hg : (m.ctx x).got = none) : turWaitpin x w m = .ok (.wait, m) := by
  obtain ⟨e, hw⟩ := Option.isSome_iff_exists.mp hw
  simp [turWaitpin, hp, Nat.not_lt.mpr hk, hw, hg]

theorem turWaitpin_got {t reach : Nat} (hp : pinBound m x (fPin w) = true) (hk : 2 ≤ bits 17 16 w)
    (hw : (m.ctx x).wait.isSome = true) (hg : (m.ctx x).got = some (t, reach)) : turWaitpin x w m =
      .ok (if reach ≤ m.now then (.next, m.wr (R.CTX_TS x) (t % 2 ^ 32)) else (.wait, m)) := by
  obtain ⟨e, hw⟩ := Option.isSome_iff_exists.mp hw
  simp [turWaitpin, hp, Nat.not_lt.mpr hk, hw, hg]

theorem turWaitflag_tests (hf : fFlag w < 48) (hc : bit 8 w = false) : turWaitflag x w m =
    .ok (if flagRead m x (fFlag w) = bit 9 w then (.next, m) else (.wait, m)) := by
  simp only [turWaitflag, hc, Nat.not_le.mpr hf, Bool.false_eq_true, false_and, or_self, if_false, Bool.false_and, Bool.not_false, and_true]
  split_ifs <;> rfl

theorem turWaitflag_consumes (hf : fFlag w < 48) (hc : bit 8 w = true) (hv : bit 9 w = true) : turWaitflag x w m =
    .ok (if flagRead m x (fFlag w) = true ∧ flagTaken m (fFlag w) = false then (.next, flagPut x (fFlag w) false true m)
      else (.wait, m)) := by
  simp only [turWaitflag, hc, hv, Nat.not_le.mpr hf, Bool.not_true, Bool.false_eq_true, and_false, or_self, if_false, if_true,
    Bool.true_and, Bool.not_eq_true']
  split_ifs <;> rfl

theorem turWaittime_tests {r t : Nat × Mach} (hr : regRead m x (fRs w) = r) (ht : turTime r.2 = t) : turWaittime x w m =
    .ok (if (t.1 + 2 ^ 32 - r.1) % 2 ^ 32 < 2 ^ 31 then (.next, t.2) else (.wait, t.2)) := by
  simp only [turWaittime, hr, ht]
  split_ifs <;> rfl

theorem turSetpin_next (h : maskBound m x (bits 15 8 w) = true) : turSetpin x w m =
    .ok (.next, if bit 16 w
      then setDirs x ((List.range 8).foldl (fun a i =>
        if bit i (bits 15 8 w) then putBit i (bit i (bits 7 0 w)) a else a) (m.ctx x).dirs) m
      else setPins x ((List.range 8).foldl (fun a i =>
        if bit i (bits 15 8 w) then putBit i (bit i (bits 7 0 w)) a else a) (m.ctx x).pins) m) := by
  simp [turSetpin, h]

/-- The pins of a shift are bound and end at P7. -/
abbrev ShiftBound (m : Mach) (x p n : Nat) : Prop := p + n ≤ 8 ∧ ∀ k < n, pinBound m x (p + k) = true

theorem ShiftBound.passes {p n : Nat} (h : ShiftBound m x p n) :
    ¬(8 < p + n ∨ (!(List.range n).all (fun k => pinBound m x (p + k))) = true) := by
  obtain ⟨hn, hb⟩ := h
  simpa [Nat.not_lt.mpr hn] using hb

theorem turShout_next {m1 : Mach} (hb : ShiftBound m x (fPin w) (fN w)) (ho : osrReady x (fN w) m = some m1) : turShout x w m =
    .ok (.next, setPins x ((osrBits m1 x (fN w)).zipIdx.foldl (fun a b => putBit (fPin w + b.2) b.1 a) (m1.ctx x).pins)
      (osrShift x (fN w) m1)) := by
  rw [turShout, if_neg hb.passes]
  simp only [ho]

theorem turShout_stalls (hb : ShiftBound m x (fPin w) (fN w)) (ho : osrReady x (fN w) m = none) : turShout x w m = osrStall x m := by
  rw [turShout, if_neg hb.passes]
  simp only [ho]

theorem turTake_next {m1 : Mach} {r : Nat × Mach} (hd : regWritable (fRd w) = true) (ho : osrReady x (fN w) m = some m1)
    (hr : regRead m1 x (fRd w) = r) : turTake x w m = .ok (.next, regWrite x (fRd w)
      ((r.1 * 2 ^ fN w + (osrBits m1 x (fN w)).foldl (fun a b => 2 * a + boolNat b) 0) % 2 ^ 32) (osrShift x (fN w) r.2)) := by
  simp only [turTake, hd, ho, hr, Bool.not_true, Bool.false_eq_true, if_false]

theorem turTake_stalls (hd : regWritable (fRd w) = true) (ho : osrReady x (fN w) m = none) : turTake x w m = osrStall x m := by
  simp only [turTake, hd, ho, Bool.not_true, Bool.false_eq_true, if_false]

theorem turShin_next (hb : ShiftBound m x (fPin w) (fN w)) (hr : isrBlocked m x (fN w) = false) : turShin x w m =
    .ok (.next, isrShift x ((List.range (fN w)).map (fun k => pinLevel m x (fPin w + k))) m) := by
  rw [turShin, if_neg hb.passes, if_neg (by simp [hr])]

theorem turShin_waits (hb : ShiftBound m x (fPin w) (fN w)) (hr : isrBlocked m x (fN w) = true) : turShin x w m = .ok (.wait, m) := by
  rw [turShin, if_neg hb.passes, if_pos hr]

theorem turGive_next {r : Nat × Mach} (hb : isrBlocked m x (fN w) = false) (hr : regRead m x (fRs w) = r) : turGive x w m =
    .ok (.next, isrShift x ((List.range (fN w)).map (fun k => bit (fN w - 1 - k) r.1)) r.2) := by
  simp only [turGive, hb, hr, Bool.false_eq_true, if_false]

theorem turPush_next {r : Nat × Mach} (hf : rxFull m x = false) (hr : regRead m x (fRs w) = r) : turPush x w m =
    .ok (.next, if fRs w = 6 then setIsc x 0 ((rxPut x r.1 r.2).wr (R.CTX_ISR x) 0) else rxPut x r.1 r.2) := by
  simp only [turPush, hf, hr, Bool.false_eq_true, if_false]

theorem turPull_next {v : QWord} {r : List QWord} (hd : regWritable (fRd w) = true) (ht : txSeen m x = v :: r) : turPull x w m =
    .ok (.next, regWrite x (fRd w) v.v (txTake x m)) := by
  simp [turPull, hd, ht]

theorem turPull_empty (hd : regWritable (fRd w) = true) (ht : txSeen m x = []) : turPull x w m =
    if bit 0 w then .ok (.next, txUnder x m) else .ok (.wait, m) := by
  simp [turPull, hd, ht]

theorem turOutat_next {r : Nat × Mach} (hp : pinBound m x (fPin w) = true) (ht : (m.ctx x).timed.length < 2)
    (hr : regRead m x (fRs w) = r) : turOutat x w m = .ok (.next, r.2.free.2.updCtx x (fun c => { c with
      timed := edgesArm m.now (c.timed ++
        [⟨fPin w, nearInstant m.now8 r.1, bit 0 w, false, m.now + r.2.free.1 % 17, false⟩]) })) := by
  simp [turOutat, hp, Nat.not_le.mpr ht, hr]

theorem turOutat_waits (hp : pinBound m x (fPin w) = true) (ht : 2 ≤ (m.ctx x).timed.length) : turOutat x w m = .ok (.wait, m) := by
  simp [turOutat, hp, ht]

theorem turFlag_next (hf : fFlag w < 48) (hk : bits 1 0 w < 3) : turFlag x w m = .ok (.next, flagPut x (fFlag w)
    (if bits 1 0 w = 2 then !flagRead m x (fFlag w) else bits 1 0 w == 1) false m) := by
  rw [turFlag, if_neg (Nat.not_le.mpr hf)]
  obtain h | h | h : bits 1 0 w = 0 ∨ bits 1 0 w = 1 ∨ bits 1 0 w = 2 := by omega
  all_goals simp [h]

theorem turCrcs_next {d r : Nat × Mach} (hd : regWritable (fRd w) = true) (hrd : regRead m x (fRd w) = d)
    (hrs : regRead d.2 x (fRs w) = r) : turCrcs x w m = .ok (.next, regWrite x (fRd w)
      (crcStep (cfgCrcW (m.rd (R.CTX_CFG x))) (m.rd (R.CTX_CRC_POLY x)) r.1 (fN w) d.1 % 2 ^ 32) r.2) := by
  simp only [turCrcs, hrd, hrs, toReg_writable hd]

theorem turJal_jump (hd : regWritable (fRd w) = true) : turJal x w m =
    .ok (.jump (fTarget w), regWrite x (fRd w) (m.rd (R.CTX_PC x) + 1) m) := if_pos hd
end

/-- Settles O18: the slot's law makes of each instruction's answer the next machine. -/
theorem turretInstructions : Obligations.TurretInstructions := by
  unfold Obligations.TurretInstructions
  intro s x w f m0 pc hs hsound hm0 hpc
  have h : Fetching s x f m0 pc := ⟨hs, hsound, hm0, hpc⟩
  have hstall : (if (m0.ctx x).stall then m0 else txUnder x m0).alarms = m0.alarms ∧
      (if (m0.ctx x).stall then m0 else txUnder x m0).notes = m0.notes := by
    split <;> simp
  refine ⟨fun hi => ?_, fun hi hd => ?_, fun hi hd => ?_, fun hi hd => ?_, fun v hi hd hv => ?_, fun a b v hi hd ha hb hv => ?_,
    ?_, fun hi hd => ?_, fun hi => ?_,
    fun hi hp => ⟨fun hk => ?_, fun hk hw => ?_, fun hk hw => ⟨fun hg => ?_, fun t reach hg => ?_⟩⟩,
    fun hi hf => ⟨fun hc => ?_, fun hc hv => ?_⟩, fun r t hi hr ht => ?_, ?_,
    fun hi hn hb => ⟨fun m1 ho => ?_, fun ho => ?_⟩, fun hi hn hb => ⟨fun hr => ?_, fun hr => ?_⟩,
    fun hi hd => ⟨fun m1 r ho hr => ?_, fun ho => ?_⟩, fun r hi hr => ⟨fun hb => ?_, fun hb => ?_⟩,
    fun r hi => ⟨fun hfull hr => ?_, fun hfull hb => ?_, fun hfull hb => ?_⟩,
    fun hi hd => ⟨fun v r ht => ?_, fun ht hb => ?_, fun ht hb => ?_⟩, fun r hi hp => ⟨fun ht hr => ?_, fun ht => ?_⟩,
    fun hi hf hk => ?_, fun hi => ?_, fun d r hi hd hrd hrs => ?_, fun hi => ?_⟩
  -- NOP, LDI, LDHI, ADDI, MOV, ALU
  · exact h.next_quiet rfl hi ⟨rfl, rfl⟩ rfl
  · exact h.next rfl hi (toReg_writable hd _)
  · exact h.next rfl hi (toReg_writable hd _)
  · exact h.next rfl hi (toReg_writable hd _)
  · exact h.next rfl hi (turMov_next hd hv)
  · exact h.next rfl hi (turAlu_next hd ha hb hv)
  -- BR
  · rintro r goes hi rfl rfl
    have hr := regRead_fields m0 x (fRs w.toNat)
    refine ⟨fun hc h0 h1 => ?_, fun hc h1 => ?_, fun hc h1 => ?_, fun hc h1 h5 => ⟨fun h0 => ?_, fun h0 => ?_⟩, fun hc h1 => ?_,
      fun hc h1 => ?_, fun hc h0 h1 hp => ?_, fun hc h0 h1 hp => ?_, fun hc h0 h1 => ?_, fun hc h0 h1 => ?_, fun hc h0 h1 => ?_,
      fun hc h0 h1 => ?_⟩
    · exact h.branch rfl hi ⟨rfl, rfl⟩ (by simp [turBr, hc, h0, h1])
    · exact h.branch rfl hi hr (by simp [turBr, hc, h1])
    · exact h.branch rfl hi hr (by simp [turBr, hc, h1])
    · exact h.branch rfl hi ⟨rfl, rfl⟩ (by simp [turBr, hc, h1, h0, Nat.not_lt.mpr h5])
    · exact h.branch rfl hi (regWrite_quiet h5 _ _ _) (by simp [turBr, hc, h1, h0, Nat.not_lt.mpr h5])
    · exact h.branch rfl hi hr (by simp [turBr, hc, h1])
    · exact h.branch rfl hi hr (by simp [turBr, hc, h1])
    · exact h.branch rfl hi ⟨rfl, rfl⟩ (by simp [turBr, hc, h0, hp, Nat.le_of_lt_succ h1])
    · exact h.branch rfl hi ⟨rfl, rfl⟩ (by simp [turBr, hc, h0, hp, Nat.le_of_lt_succ h1])
    · exact h.branch rfl hi ⟨rfl, rfl⟩ (by simp [turBr, hc, h0, h1])
    · exact h.branch rfl hi ⟨rfl, rfl⟩ (by simp [turBr, hc, h0, h1])
    · exact h.branch rfl hi ⟨rfl, rfl⟩ (by simp [turBr, hc, h0, h1])
    · exact h.branch rfl hi ⟨rfl, rfl⟩ (by simp [turBr, hc, h0, h1])
  -- JAL, JR
  · exact h.rd_pc ▸ h.jump rfl hi (turJal_jump hd)
  · exact h.jump_quiet rfl hi (regRead_fields ..) rfl
  -- WAITPIN, WAITFLAG, WAITTIME
  · exact h.tests rfl hi ⟨rfl, rfl⟩ ⟨rfl, rfl⟩ (turWaitpin_level hp hk)
  · exact h.now ▸ h.wait_quiet rfl hi (by simp) (turWaitpin_begins hp hk hw)
  · exact h.wait_quiet rfl hi ⟨rfl, rfl⟩ (turWaitpin_waits hp hk hw hg)
  · exact h.now ▸ h.tests rfl hi (by simp) ⟨rfl, rfl⟩ (turWaitpin_got hp hk hw hg)
  · exact h.tests rfl hi ⟨rfl, rfl⟩ ⟨rfl, rfl⟩ (turWaitflag_tests hf hc)
  · exact h.tests rfl hi (by simp) ⟨rfl, rfl⟩ (turWaitflag_consumes hf hc hv)
  · have hq : t.2.alarms = m0.alarms ∧ t.2.notes = m0.notes := by simp [← ht, ← hr]
    exact h.tests rfl hi hq hq (turWaittime_tests hr ht)
  -- SETPIN, SHOUT, SHIN, TAKE, GIVE
  · rintro merge hi hb rfl
    exact h.next rfl hi (turSetpin_next hb)
  · exact h.next rfl hi (turShout_next ⟨hn, hb⟩ ho)
  · exact h.wait_quiet rfl hi hstall (turShout_stalls ⟨hn, hb⟩ ho)
  · exact h.next rfl hi (turShin_next ⟨hn, hb⟩ hr)
  · exact h.wait_quiet rfl hi ⟨rfl, rfl⟩ (turShin_waits ⟨hn, hb⟩ hr)
  · exact h.next rfl hi (turTake_next hd ho hr)
  · exact h.wait_quiet rfl hi hstall (turTake_stalls hd ho)
  · exact h.next rfl hi (turGive_next hb hr)
  · exact h.wait_quiet rfl hi ⟨rfl, rfl⟩ (if_pos hb)
  -- PUSH, PULL
  · exact h.next rfl hi (turPush_next hfull hr)
  · exact h.next_quiet rfl hi (by simp) (by simp [turPush, hfull, hb])
  · exact h.wait_quiet rfl hi ⟨rfl, rfl⟩ (by simp [turPush, hfull, hb])
  · exact h.next rfl hi (turPull_next hd ht)
  · exact h.next_quiet rfl hi (by simp) ((turPull_empty hd ht).trans (if_pos hb))
  · exact h.wait_quiet rfl hi ⟨rfl, rfl⟩ ((turPull_empty hd ht).trans (if_neg (by simp [hb])))
  -- OUTAT, FLAG, SIGNAL, CRCS, HALT
  · rw [← h.now, ← h.now8]
    exact h.next_quiet rfl hi (by simp [← hr]) (turOutat_next hp ht hr)
  · exact h.wait_quiet rfl hi ⟨rfl, rfl⟩ (turOutat_waits hp ht)
  · exact h.next_quiet rfl hi (by simp) (turFlag_next hf hk)
  · exact h.next_quiet rfl hi (by simp) rfl
  · exact h.next rfl hi (turCrcs_next hd hrd hrs)
  · exact h.closes_quiet rfl hi (r := .ok (.done, m0)) rfl (by simp [slotClosed])

end Sys2Proof.Machine

/-! # O19: slots that complete no instruction

A slot that does not open and a word that is another row's leave the machine; every fault is `ctxFault`, whose objects are read here. -/

namespace Sys2Proof.Machine

/-! ## Slots without an instruction -/

theorem turSlot_shut {x : Nat} {m : Mach} (ho : slotOpen m x = false) (op w unused : Nat) (f : Fetch) (run : Mach → SlotRes) :
    turSlot op x w f unused run m = m := by
  simp [turSlot, ho]

section
variable {x w op unused : Nat} {f : Fetch} {m : Mach} {run : Mach → SlotRes} (ho : slotOpen m x = true)
include ho

theorem turSlot_fatal : turSlot op x w .fatal unused run m = (ctxFault x 4 (slotBegin x m)).alarm 6 := by
  rw [turSlot_open ho, if_pos rfl]

variable (hf : f ≠ .fatal)
include hf

theorem turSlot_no_opcode (hw : 0x18 ≤ turWord m (x / 16) (m.rd (R.CTX_PC x)) / 2 ^ 27) :
    turSlot op x w f unused run m = ctxFault x 1 (slotFetched x f m) := by
  rw [turSlot_open ho, if_neg hf, if_pos hw]

theorem turSlot_other_word (h18 : turWord m (x / 16) (m.rd (R.CTX_PC x)) / 2 ^ 27 < 0x18)
    (hw : turWord m (x / 16) (m.rd (R.CTX_PC x)) ≠ op * 2 ^ 27 + w) : turSlot op x w f unused run m = m := by
  rw [turSlot_open ho, if_neg hf, if_neg (Nat.not_le.mpr h18), if_pos hw]

theorem turSlot_unused_bits (hw : turWord m (x / 16) (m.rd (R.CTX_PC x)) = op * 2 ^ 27 + w) (hop : op < 0x18) (hlt : w < 2 ^ 27)
    (hu : w &&& unused ≠ 0) : turSlot op x w f unused run m = ctxFault x 1 (slotFetched x f m) := by
  rw [turSlot_open ho, if_neg hf, hw, opcode_of_word hlt, if_neg (Nat.not_le.mpr hop), if_neg (by simp), if_pos hu]
end

/-! ## What a fault leaves (R349, R352) -/

/-- The pins of a context that goes dark are no objects: they stand in the records of the context and of its channels. -/
@[simp] theorem pinsDark_rd (x : Nat) (o : Obj) (m : Mach) : (pinsDark x m).rd o = m.rd o := by
  refine each_keeps (g := fun n => n.rd o) (fun i n => ?_) _ _
  split
  · rfl
  · split <;> rfl

theorem ctxFault_does (x c : Nat) (m : Mach) : (ctxFault x c m).rd (R.CTX_RUN x) = 0 ∧ (ctxFault x c m).ctxState x = 4 ∧
    (ctxFault x c m).rd (R.CTX_FAULT x) = c * 2 ^ 24 + m.rd (R.CTX_PC x) % 1024 := by
  simp (disch := exact key_ne_of_sub rfl rfl) [ctxFault, ctxRaise, Mach.ctxState, rd_raise, rd_wr_ne]

theorem fetching_clean {s : State} (hs : Settled s) (x : Fin 128) :
    Fetching s x .clean (slotBegin x s.m) (s.m.rd (R.CTX_PC x)) := ⟨hs, by decide, rfl, rfl⟩

/-- Settles O19: each slot is one case of `turSlot_open`. -/
theorem turretFaults : Obligations.TurretFaults := by
  unfold Obligations.TurretFaults
  rintro s x w f word hs rfl
  refine ⟨fun ho => ⟨?_, ?_⟩, fun ho hf h18 hw => ?_, fun ho => ?_, ?_, fun ho hw hu => ?_, fun hi hd => ?_, fun hi hp => ?_,
    fun c m _ => ctxFault_does x c m⟩
  · exact to_of_quiet rfl hs (turSlot_shut ho ..) ⟨rfl, rfl⟩
  · exact to_of_quiet rfl hs (turSlot_shut ho ..) ⟨rfl, rfl⟩
  · exact to_of_quiet rfl hs (turSlot_other_word ho hf h18 (by rwa [Nat.one_mul])) ⟨rfl, rfl⟩
  · exact done_of_eq (turSlot_fatal ho)
  · rintro m0 ho hf h18 rfl
    exact done_of_eq (turSlot_no_opcode ho hf h18)
  · exact done_of_eq (turSlot_unused_bits ho (by decide) (by rwa [Nat.one_mul]) (by decide) w.isLt hu)
  · exact (fetching_clean hs x).closes rfl hi (r := .error 2) (if_neg (by simp [hd]))
  · exact (fetching_clean hs x).closes rfl hi (r := .error 3) (if_pos (by simp [hp]))

end Sys2Proof.Machine

/-! # O20: the commands of engines, contexts, queues and flags

A push that finds its place is written back by `txSettle` at the end of its tick, with the record of its context as it was. Where the
records' keys rise that changes nothing; the statement asks no such order of them. -/

namespace Sys2Proof.Machine

/-! ## Writing back what a map holds -/

theorem mem_of_mapGet_ne {α : Type} {d : α} {k : Nat} {l : List (Nat × α)} (h : mapGet d k l ≠ d) : (k, mapGet d k l) ∈ l := by
  induction l with
  | nil => exact absurd rfl h
  | cons e r ih =>
    by_cases hk : k = e.1
    · simp [mapGet, hk]
    · have hget : mapGet d k (e :: r) = mapGet d k r := if_neg hk
      rw [hget] at h ⊢
      exact List.mem_cons_of_mem e (ih h)

theorem mapPut_mapGet {α : Type} {d : α} {k : Nat} {l : List (Nat × α)} (hs : mapSorted l = true) (h : mapGet d k l ≠ d) :
    mapPut k (mapGet d k l) l = l := by
  induction l with
  | nil => exact absurd rfl h
  | cons e r ih =>
    by_cases hk : k = e.1
    · simp [mapGet, mapPut, hk]
    · have hget : mapGet d k (e :: r) = mapGet d k r := if_neg hk
      rw [hget] at h ⊢
      have hlt : e.1 < k := mapSorted_all hs _ (mem_of_mapGet_ne h)
      rw [mapPut, if_neg hk, if_neg hlt.not_gt, ih (mapSorted_tail hs) h]

theorem updCtx_self {x : Nat} {f : Ctx → Ctx} {m : Mach} (hs : mapSorted m.ctxs = true) (hne : m.ctx x ≠ {})
    (hf : f (m.ctx x) = m.ctx x) : m.updCtx x f = m := by
  rw [Mach.updCtx, hf]
  exact congrArg (fun l => { m with ctxs := l }) ((if_neg hne).trans (mapPut_mapGet hs hne))

/-! ## The pushes of a tick (R342, R343) -/

theorem flatMap_range_singleton {α : Type} (a : α) {r n : Nat} (h : r < n) :
    (List.range n).flatMap (fun k => if r = k then [a] else []) = [a] := by
  induction n with
  | zero => omega
  | succ n ih =>
    rw [List.range_succ, List.flatMap_append]
    obtain rfl | hr : r = n ∨ r < n := by omega
    · have hnone : (List.range r).flatMap (fun k => if r = k then [a] else []) = [] :=
        List.flatMap_eq_nil_iff.mpr fun k hk => if_neg (List.mem_range.mp hk).ne'
      simp [hnone]
    · simp [ih hr, hr.ne]

/-- One new entry behind old ones keeps its place. -/
theorem byWriter_concat {α : Type} {new : α → Bool} {rank : α → Nat} {l : List α} {q : α} (hl : ∀ e ∈ l, new e = false)
    (hq : new q = true) (hr : rank q < 18) : byWriter new rank (l ++ [q]) = l ++ [q] := by
  have hold : (l ++ [q]).filter (fun e => !new e) = l := by
    simpa [hq, List.filter_append] using hl
  have hnew (k : Nat) : (l ++ [q]).filter (fun e => new e && rank e == k) = if rank q = k then [q] else [] := by
    have hnone : l.filter (fun e => new e && rank e == k) = [] := List.filter_eq_nil_iff.mpr fun e he => by simp [hl e he]
    rw [List.filter_append, hnone]
    by_cases hk : rank q = k <;> simp [hq, hk]
  rw [byWriter, hold]
  simp only [hnew, flatMap_range_singleton q hr]

/-- The clause of O20 that `not_turretCommands` refutes, with the contexts' records in rising order, as `mapSet` keeps them: a push that
finds its place leaves nothing to do at the end of its tick. -/
theorem txSettle_fits {x : Nat} {m : Mach} {l : List QWord} {q : QWord} (hs : mapSorted m.ctxs = true)
    (htx : (m.ctx x).tx = l ++ [q]) (hl : ∀ e ∈ l, e.at_ ≠ m.now) (hq : q.at_ = m.now) (hby : q.by_ < 18)
    (hroom : l.length < txDepth m x) : txSettle x m = m := by
  have hne : m.ctx x ≠ {} := fun h => by simp [h] at htx
  have horder : byWriter (fun e => e.at_ == m.now) (·.by_) (l ++ [q]) = l ++ [q] :=
    byWriter_concat (by simpa using hl) (by simpa using hq) hby
  have htake (n : Nat) : (l ++ [q]).take (max (txDepth m x) n) = l ++ [q] :=
    List.take_of_length_le (by simp; omega)
  have hself : m.updCtx x (fun c => { c with
      tx := ((byWriter (fun e => e.at_ == m.now) (·.by_) (m.ctx x).tx).take
        (max (txDepth m x) ((m.ctx x).tx.filter (fun e => e.at_ != m.now)).length)) }) = m :=
    updCtx_self hs hne (by rw [htx, horder, htake, ← htx])
  unfold txSettle
  dsimp only
  rw [hself]
  split
  · simp [Mach.each]
  · rfl

/-! ## Records out of order -/

/-- The reset state with one word in TX of context 0, pushed in the present tick, whose record stands behind that of context 1. -/
def ctxsSwapped : State :=
  ⟨[], { State.reset.m with ctxs := [(1, { tx := [⟨7, 0, 3, 0⟩] }), (0, { tx := [⟨5, 0, 3, 0⟩] })] }⟩

/-- Refutes O20: at the end of its tick a push that finds its place is written back with the record of its context, and in `ctxsSwapped`
`mapSet` puts that record before the one of context 1 and leaves the old one behind it: three records stand where there were two. No write
of a record brings the list out of order, but the statement speaks of every settled state; where the keys rise the clause holds
(`txSettle_fits`). -/
theorem not_turretCommands : ¬ Obligations.TurretCommands := by
  unfold Obligations.TurretCommands
  intro h
  have hs : Settled ctxsSwapped := ⟨rfl, rfl⟩
  obtain ⟨-, -, -, -, -, -, -, -, -, hsettle, -⟩ := h ctxsSwapped .keep 0 0 0 hs
  obtain ⟨hfits, -⟩ := hsettle ⟨5, 0, 3, 0⟩ [] rfl (by decide) rfl (by decide)
  have hmach : txSettle 0 ctxsSwapped.m = ctxsSwapped.m := hfits (by decide)
  exact absurd (congrArg (fun m => m.ctxs.length) hmach) (by decide)

end Sys2Proof.Machine

/-! # O44: the state at reset -/

namespace Sys2Proof.Machine

/-- Settles O44: every part is read off the literal; an object that no entry of the map holds reads its default. -/
theorem resetState : Obligations.ResetState := by
  unfold Obligations.ResetState
  have hcore (i : Fin 3) : (State.reset.m.core i).lvl = 2 ∧ (State.reset.m.core i).xmask = 3 ∧ (State.reset.m.core i).pc = 0 ∧
      (State.reset.m.core i).x = [] ∧ (State.reset.m.core i).held = decide (i = 1) := by
    fin_cases i <;> exact ⟨rfl, rfl, rfl, rfl, rfl⟩
  exact ⟨⟨rfl, rfl⟩, ⟨rfl, rfl, rfl, rfl, rfl⟩, rfl, fun _ => rfl, by decide, hcore, rfl, rfl, rfl, rfl⟩

end Sys2Proof.Machine

/-! # O45, O46, O47, O43: steps settle, go on, and keep the queue's order

What every step does to the queue and to what waits to be acted on is said once for the form `done` of a command and then carried
through the stages of a tick. -/

namespace Sys2Proof.Machine

/-! ## What is left to act on -/

/-- What waits to be acted on within a command: decoder happenings and safety causes (R488, R491). -/
def Mach.signals (m : Mach) : List Note × List Nat := (m.notes, m.alarms)

@[simp] theorem signals_wr (o : Obj) (v : Nat) (m : Mach) : (m.wr o v).signals = m.signals := by simp [Mach.signals]

@[simp] theorem signals_inc (o : Obj) (m : Mach) : (m.inc o).signals = m.signals := by simp [Mach.signals]

@[simp] theorem signals_setEvt (o : Obj) (b : Nat) (m : Mach) : (m.setEvt o b).signals = m.signals := by simp [Mach.signals]

@[simp] theorem signals_assertSrc (id : Nat) (m : Mach) : (m.assertSrc id).signals = m.signals := rfl

@[simp] theorem signals_raise (evt en : Obj) (b src : Nat) (m : Mach) : (m.raise evt en b src).signals = m.signals := by
  simp [Mach.signals]

@[simp] theorem signals_maxTo (o : Obj) (v : Nat) (m : Mach) : (m.maxTo o v).signals = m.signals := by simp [Mach.signals]

@[simp] theorem signals_updEvt (s : Nat) (f : EvtSlot → EvtSlot) (m : Mach) : (m.updEvt s f).signals = m.signals := rfl

@[simp] theorem signals_setEvtSlot (s : Nat) (x : EvtSlot) (m : Mach) : (m.setEvtSlot s x).signals = m.signals := rfl

@[simp] theorem signals_updLane (n : Nat) (f : Lane → Lane) (m : Mach) : (m.updLane n f).signals = m.signals := rfl

@[simp] theorem signals_setLane (n : Nat) (x : Lane) (m : Mach) : (m.setLane n x).signals = m.signals := rfl

@[simp] theorem signals_updCore (i : Nat) (f : Core → Core) (m : Mach) : (m.updCore i f).signals = m.signals := rfl

@[simp] theorem signals_setCore (i : Nat) (c : Core) (m : Mach) : (m.setCore i c).signals = m.signals := rfl

@[simp] theorem signals_updOctet (o : Nat) (f : Octet → Octet) (m : Mach) : (m.updOctet o f).signals = m.signals := rfl

@[simp] theorem signals_setOctet (o : Nat) (x : Octet) (m : Mach) : (m.setOctet o x).signals = m.signals := rfl

@[simp] theorem signals_setOcu (u : Nat) (x : Ocu) (m : Mach) : (m.setOcu u x).signals = m.signals := rfl

@[simp] theorem signals_linkQueue (s : Side) (typ : Nat) (p : List Byte) (m : Mach) : (linkQueue s typ p m).signals = m.signals := by
  simp [Mach.signals]

/-! ## The refresh engine takes the happenings and adds none (R167) -/

@[simp] theorem signals_evtRaise (s b : Nat) (m : Mach) : (evtRaise s b m).signals = m.signals := by
  unfold evtRaise; dsimp only; split_ifs <;> simp

@[simp] theorem signals_evtBlock (s c : Nat) (m : Mach) : (evtBlock s c m).signals = m.signals := by
  unfold evtBlock; dsimp only; split_ifs <;> simp

@[simp] theorem signals_evtMiss (s : Nat) (m : Mach) : (evtMiss s m).signals = m.signals := by simp [evtMiss]

@[simp] theorem signals_evtAim (s : Nat) (above : Int) (m : Mach) : (evtAim s above m).signals = m.signals := by
  unfold evtAim
  split
  · simp
  · dsimp only; split_ifs <;> simp

@[simp] theorem signals_lanUnblock (m : Mach) : (lanUnblock m).signals = m.signals :=
  each_keeps (fun s m => by dsimp only; split_ifs <;> simp [evtNext]) _ m

@[simp] theorem signals_evtCut (s : Nat) (m : Mach) : (evtCut s m).signals = m.signals := by
  unfold evtCut
  dsimp only
  rw [signals_lanUnblock, signals_evtRaise, signals_inc]
  rfl

@[simp] theorem signals_lanCauses (n : Nat) (m : Mach) : (lanCauses n m).signals = m.signals :=
  each_keeps (fun s m => by dsimp only; split_ifs <;> simp) _ m

@[simp] theorem signals_lanSkip (n : Nat) (m : Mach) : (lanSkip n m).signals = m.signals := by simp [lanSkip, lanRaise]

theorem signals_lanTooth (n : Nat) (m : Mach) : (lanTooth n m).signals = m.signals := by
  have hwait (b c : Batch) (m : Mach) : (lanWait n b c m).signals = m.signals := by
    unfold lanWait; dsimp only; split_ifs <;> simp
  unfold lanTooth
  split
  · rfl
  dsimp only
  split_ifs
  · rfl
  · rw [signals_lanSkip]; rfl
  · split
    · rfl
    · rw [hwait]; rfl

theorem signals_lanState (n old new : Nat) (m : Mach) : (lanState n old new m).signals = m.signals := by
  unfold lanState
  dsimp only
  rw [signals_lanUnblock, signals_lanCauses, each_keeps (g := Mach.signals) _ _ _, signals_updLane]
  intro s m
  split_ifs <;> simp

theorem signals_lanDir (n new : Nat) (m : Mach) : (lanDir n new m).signals = m.signals := by
  unfold lanDir
  dsimp only
  rw [signals_lanUnblock, signals_lanCauses]
  split_ifs
  · exact each_keeps (fun s m => by split_ifs <;> simp) _ m
  · rfl

theorem signals_lanNote (m : Mach) (n : Note) : (lanNote m n).signals = m.signals := by
  cases n with
  | tooth n _ => exact signals_lanTooth n m
  | state n old new => exact signals_lanState n old new m
  | dir n _ new => exact signals_lanDir n new m

/-- The happenings of a command are acted on, and none are left. -/
theorem signals_lanNotes (m : Mach) : (lanNotes m).signals = ([], m.alarms) := by
  unfold lanNotes
  rw [show ([], m.alarms) = Mach.signals { m with notes := [] } from rfl]
  generalize { m with notes := [] } = n
  induction m.notes generalizing n with
  | nil => rfl
  | cons a l ih => rw [List.foldl_cons, ih, signals_lanNote]

@[simp] theorem signals_ocuPollAll (m : Mach) : (ocuPollAll m).signals = m.signals :=
  each_keeps (fun u m => by unfold ocuPoll; dsimp only; split_ifs <;> simp) _ m

/-! ## The monitor takes the causes and adds none (R488, R491) -/

@[simp] theorem signals_safRaise (b : Nat) (m : Mach) : (safRaise b m).signals = m.signals := by simp [safRaise]

@[simp] theorem signals_safLog (kind code aux detail : Nat) (m : Mach) : (safLog kind code aux detail m).signals = m.signals := by
  unfold safLog; split_ifs
  · simp
  · rfl

@[simp] theorem signals_statusSync (m : Mach) : (statusSync m).signals = m.signals := by
  unfold statusSync
  dsimp only
  split_ifs
  · rfl
  · rw [signals_linkQueue]; rfl

theorem signals_releaseBack (m : Mach) : (releaseBack m).signals = m.signals := by
  unfold releaseBack
  split
  · dsimp only
    split_ifs <;> simp <;> rfl
  · rfl

theorem signals_causeRecord (s : Nat) (m : Mach) : (causeRecord s m).signals = m.signals := by
  unfold causeRecord
  dsimp only
  split_ifs <;> simp [Mach.signals]

theorem signals_restartOnly (i cause : Nat) (m : Mach) : (restartOnly i cause m).signals = m.signals := by
  have hcore : (restartCore i cause m).signals = m.signals := by simp [restartCore]
  have hhost (m : Mach) : (hostBoot cause m).signals = m.signals := by
    unfold hostBoot
    dsimp only
    split_ifs <;> simp [Mach.signals]
  have hfield (m : Mach) : (fieldBoot cause m).signals = m.signals := by
    unfold fieldBoot
    dsimp only
    split_ifs <;> rfl
  unfold restartOnly
  dsimp only
  split_ifs <;> simp [hcore, hhost, hfield, holdSpire1]

@[simp] theorem signals_causeRestart (s : Nat) (m : Mach) : (causeRestart s m).signals = m.signals := by
  unfold causeRestart; split_ifs
  · rw [signals_restartOnly, signals_inc]
  · rfl

theorem signals_octRunOff (o : Nat) (m : Mach) : (octRunOff o m).signals = m.signals := by
  have hdark (m : Mach) : (octDark o 0xFF m).signals = m.signals := by
    unfold octDark openBlank
    dsimp only
    split_ifs <;> rfl
  have hcarry (m : Mach) : (m.each (List.range 8) (fun j m => m.wr (R.PWM_CARRY o j) 0)).signals = m.signals :=
    each_keeps (fun j m => signals_wr ..) _ m
  unfold octRunOff octStop
  dsimp only
  rw [signals_wr, hcarry, signals_setOctet, hdark]
  exact signals_wr (R.PWM_RUN o) 0 m

theorem signals_safeEnter (s : Nat) (m : Mach) : (safeEnter s m).signals = m.signals := by
  have hoff (m : Mach) : (m.each (List.range 16) (fun o m => octRunOff o m)).signals = m.signals := each_keeps signals_octRunOff _ m
  unfold safeEnter
  dsimp only
  rw [signals_statusSync, signals_safLog]
  split_ifs <;> simp [Mach.class7, hoff] <;> rfl

theorem signals_causeTake (m : Mach) (s : Nat) : (causeTake m s).signals = m.signals := by
  have hlow (m : Mach) : (causeLowest s m).signals = m.signals := by unfold causeLowest; split_ifs <;> simp
  have hrec : (causeRecord s (releaseBack m)).signals = m.signals := by rw [signals_causeRecord, signals_releaseBack]
  unfold causeTake
  extract_lets m0 saf m1 m2
  have h1 : m1.signals = m.signals := by unfold m1; split_ifs <;> exact hrec
  split_ifs <;> simp [m2, h1, hlow, signals_safeEnter, Mach.class7]

/-- The causes of a command have acted, and none are left. -/
theorem signals_causesTake (m : Mach) : (causesTake m).signals = (m.notes, []) := by
  have hfold (l : List Nat) (n : Mach) : (l.foldl causeTake n).signals = n.signals := by
    induction l generalizing n with
    | nil => rfl
    | cons a l ih => rw [List.foldl_cons, ih, signals_causeTake]
  unfold causesTake
  rw [hfold, hfold]
  rfl

/-- Decoder happenings are taken first. -/
theorem notes_taken (m : Mach) : (if m.notes.isEmpty then m else ocuPollAll (lanNotes m)).notes = [] := by
  split_ifs with hn
  · exact List.isEmpty_iff.mp hn
  · have h : (ocuPollAll (lanNotes m)).signals = ([], m.alarms) := by rw [signals_ocuPollAll, signals_lanNotes]
    exact (Prod.mk.inj h).1

/-- After a command's happenings and causes have acted nothing is left to act on. -/
theorem signals_settle (m : Mach) : (settle m).signals = ([], []) := by
  have hn := notes_taken m
  unfold settle
  dsimp only
  generalize (if m.notes.isEmpty then m else ocuPollAll (lanNotes m)) = m1 at hn ⊢
  split_ifs with ha
  · rw [Mach.signals, hn, List.isEmpty_iff.mp ha]
  · rw [signals_causesTake, hn]

/-- What a command leaves is settled. -/
theorem settled_settle (m : Mach) (q : List Instr) : Settled { pending := q, m := settle m } :=
  have h := signals_settle m
  ⟨congrArg Prod.snd h, congrArg Prod.fst h⟩

end Sys2Proof.Machine

namespace Sys2Proof.Machine

/-! ## What a command does to the queue -/

/-- State t has the queue of s, and is settled where s is. -/
def Moves (s t : State) : Prop := t.pending = s.pending ∧ (Settled s → Settled t)

theorem Moves.refl (s : State) : Moves s s := ⟨rfl, id⟩

theorem Moves.trans {s t u : State} (h : Moves s t) (k : Moves t u) : Moves s u := ⟨k.1.trans h.1, k.2 ∘ h.2⟩

theorem moves_settle (s : State) (m : Mach) : Moves s { s with m := settle m } := ⟨rfl, fun _ => settled_settle _ _⟩

/-- Whatever next state the command answers has the same queue and keeps what is settled settled. -/
def Orderly (f : Act) : Prop := ∀ s t : State, f s = .next t → Moves s t

/-- The command answers such a next state from every state. -/
def Passes (f : Act) : Prop := ∀ s, ∃ t, f s = .next t ∧ Moves s t

theorem Passes.orderly {f : Act} (h : Passes f) : Orderly f := fun s t ht => by
  obtain ⟨u, hu, hm⟩ := h s
  cases hu.symm.trans ht
  exact hm

/-- A command that settles what its effect leaves passes. -/
theorem passes_of_settles {f : Act} (h : ∀ s, ∃ m, f s = .next { s with m := settle m }) : Passes f := fun s => by
  obtain ⟨m, hm⟩ := h s
  exact ⟨_, hm, moves_settle s m⟩

theorem orderly_of_settles {f : Act} (h : ∀ s, ∃ m, f s = .next { s with m := settle m }) : Orderly f := (passes_of_settles h).orderly

theorem passes_done (f : Mach → Mach) : Passes (done f) := passes_of_settles fun _ => ⟨_, rfl⟩

theorem orderly_done (f : Mach → Mach) : Orderly (done f) := (passes_done f).orderly

theorem orderly_runWord (i : Fin 3) (w : Nat) (e : CoreEcc) : Orderly (runWord i w e) := by
  intro s t h
  unfold runWord at h
  split at h
  · exact orderly_done id s t h
  split at h
  · exact orderly_done _ s t h
  · exact orderly_done _ s t h
  · cases h

theorem orderly_runKind (kind : Nat → Bool) (i : Fin 3) (w : Nat) : Orderly (runKind kind i w) := by
  intro s t h
  unfold runKind at h
  split at h
  · exact orderly_runWord i _ _ s t h
  · exact orderly_done id s t h

theorem orderly_dapMem (i : Fin 3) (cmd : Nat) (access : Mach → Except CoreStop (Nat × Mach)) : Orderly (dapMem i cmd access) := by
  intro s t h
  unfold dapMem at h
  dsimp only at h
  split at h
  · exact orderly_done _ s t h
  split at h
  · exact orderly_done _ s t h
  · exact orderly_done _ s t h
  · cases h

theorem orderly_execReadMem (core : Fin 3) : Orderly (execReadMem core) := by
  intro s t h
  unfold execReadMem at h
  split at h
  · exact orderly_done _ s t h
  · exact orderly_dapMem _ _ _ s t h

theorem orderly_execPin (side : Side) (ns : Nat) : Orderly (execPin side ns) := by
  intro s t h
  unfold execPin at h
  split at h
  · cases h; exact .refl s
  split at h
  · cases h
  · exact orderly_done _ s t h

/-- Every command is orderly: all but a core's, the debug port's and PIN are `done` of their effect. -/
theorem orderly_exec (c : Instr) : Orderly (exec c) := by
  cases c with
  | ecall core => exact orderly_runWord _ _ _
  | ebreak core compressed => exact orderly_runWord _ _ _
  | xret core => exact orderly_runWord _ _ _
  | wfi core => exact orderly_runWord _ _ _
  | fence core w => exact orderly_runKind _ _ _
  | fenceI core w => exact orderly_runKind _ _ _
  | csrAccess core w => exact orderly_runKind _ _ _
  | xssTopRead core w => exact orderly_runKind _ _ _
  | xssTopWrite core w => exact orderly_runKind _ _ _
  | xssBotRead core w => exact orderly_runKind _ _ _
  | xssBotWrite core w => exact orderly_runKind _ _ _
  | shadowCall core w => exact orderly_runKind _ _ _
  | shadowReturn core w => exact orderly_runKind _ _ _
  | atomic core w => exact orderly_runKind _ _ _
  | instruction core w e => exact orderly_runWord _ _ _
  | readMem core => exact orderly_execReadMem core
  | writeMem core v => exact orderly_dapMem _ _ _
  | pin side ns => exact orderly_execPin side ns
  | _ => exact orderly_of_settles fun _ => ⟨_, rfl⟩

/-! ## Runs of meanings -/

/-- Every meaning of a list passes. -/
def AllPass (l : List Act) : Prop := ∀ f ∈ l, Passes f

@[simp] theorem allPass_nil : AllPass [] := fun _ h => nomatch h

@[simp] theorem allPass_cons {f : Act} {l : List Act} : AllPass (f :: l) ↔ Passes f ∧ AllPass l := List.forall_mem_cons

@[simp] theorem allPass_append {l k : List Act} : AllPass (l ++ k) ↔ AllPass l ∧ AllPass k := List.forall_mem_append

theorem allPass_map {α : Type} {g : α → Act} (h : ∀ a, Passes (g a)) (l : List α) : AllPass (l.map g) :=
  List.forall_mem_map.mpr fun a _ => h a

theorem allPass_flatMap {α : Type} {g : α → List Act} (h : ∀ a, AllPass (g a)) (l : List α) : AllPass (l.flatMap g) := fun f hf => by
  obtain ⟨a, -, ha⟩ := List.mem_flatMap.mp hf
  exact h a f ha

theorem allPass_replicate {n : Nat} {f : Act} (h : Passes f) : AllPass (List.replicate n f) := fun _ hg =>
  List.eq_of_mem_replicate hg ▸ h

theorem allPass_ite {b : Prop} [Decidable b] {l k : List Act} (hl : AllPass l) (hk : AllPass k) : AllPass (if b then l else k) := by
  split_ifs
  · exact hl
  · exact hk

theorem allPass_due {b : Bool} {f : Act} (h : Passes f) : AllPass (due b f) :=
  allPass_ite (allPass_cons.mpr ⟨h, allPass_nil⟩) allPass_nil

theorem allPass_due_settles {b : Bool} {f : Act} (h : ∀ s, ∃ m, f s = .next { s with m := settle m }) : AllPass (due b f) :=
  allPass_due (passes_of_settles h)

theorem allPass_map_settles {α : Type} {g : α → Act} (h : ∀ a s, ∃ m, g a s = .next { s with m := settle m }) (l : List α) :
    AllPass (l.map g) := allPass_map (fun a => passes_of_settles (h a)) l

theorem allPass_dueDo (b : Bool) (f : Mach → Mach) : AllPass (dueDo b f) := allPass_due (passes_done f)

theorem passes_runActs {l : List Act} (h : AllPass l) : Passes (runActs l) := by
  induction l with
  | nil => exact fun s => ⟨s, rfl, .refl s⟩
  | cons f l ih =>
    obtain ⟨hf, hl⟩ := allPass_cons.mp h
    intro s
    obtain ⟨t, ht, hst⟩ := hf s
    obtain ⟨u, hu, htu⟩ := ih hl t
    exact ⟨u, by rw [runActs, ht]; exact hu, hst.trans htu⟩

/-- Every meaning that a stage can bring passes. -/
def StagePasses (st : Stage) : Prop := ∀ m, AllPass (st m)

theorem passes_runStages {l : List Stage} (h : ∀ st ∈ l, StagePasses st) : Passes (runStages l) := by
  induction l with
  | nil => exact fun s => ⟨s, rfl, .refl s⟩
  | cons st l ih =>
    obtain ⟨hst, hl⟩ := List.forall_mem_cons.mp h
    intro s
    obtain ⟨t, ht, h1⟩ := passes_runActs (hst s.m) s
    obtain ⟨u, hu, h2⟩ := ih hl t
    exact ⟨u, by rw [runStages, ht]; exact hu, h1.trans h2⟩

/-! ## The stages of a tick -/

/-- A frame's arrival passes, whatever its type. -/
theorem passes_frameRow (s : Side) (b : List Byte) : Passes (frameRow s b) := by
  unfold frameRow
  dsimp only
  split <;> exact passes_of_settles fun _ => ⟨_, rfl⟩

theorem passes_turRows {f : Fin 128 → BitVec 27 → Fetch → Act} (h : f ∈ turRows) (x : Fin 128) (w : BitVec 27) (e : Fetch) :
    Passes (f x w e) := by
  revert f
  simp only [turRows, List.forall_mem_cons, List.not_mem_nil, false_imp_iff, implies_true, and_true]
  refine ⟨?_, ?_, ?_, ?_, ?_, ?_, ?_, ?_, ?_, ?_, ?_, ?_, ?_, ?_, ?_, ?_, ?_, ?_, ?_, ?_, ?_, ?_, ?_, ?_⟩ <;>
    exact passes_of_settles fun _ => ⟨_, rfl⟩

end Sys2Proof.Machine

namespace Sys2Proof.Machine

theorem allPass_turIssue (m : Mach) (x : Nat) : AllPass (turIssue m x) := by
  unfold turIssue
  split
  · refine allPass_due ?_
    rw [List.getD_eq_getElem?_getD]
    cases h : turRows[turWord m (x / 16) (m.rd (R.CTX_PC x)) / 2 ^ 27]? with
    | none => exact passes_of_settles fun _ => ⟨_, rfl⟩
    | some f => exact passes_turRows (List.mem_of_getElem? h) _ _ _
  · exact allPass_nil

theorem allPass_turTick (e : Fin 8) {s : Mach × List Act} (h : AllPass s.2) : AllPass (turTick e s).2 := by
  unfold turTick
  dsimp only
  split
  · exact h
  split
  · exact allPass_append.mpr ⟨allPass_append.mpr ⟨h, allPass_cons.mpr ⟨passes_of_settles fun _ => ⟨_, rfl⟩, allPass_nil⟩⟩,
      allPass_flatMap (allPass_turIssue _) _⟩
  · exact allPass_append.mpr ⟨h, allPass_flatMap (allPass_turIssue _) _⟩

theorem allPass_turTicks (l : List (Fin 8)) {s : Mach × List Act} (h : AllPass s.2) :
    AllPass (l.foldl (fun s e => turTick e s) s).2 := by
  induction l generalizing s with
  | nil => exact h
  | cons e l ih => exact ih (allPass_turTick e h)

theorem stagePasses_lateEngines : ∀ st ∈ lateEngines, StagePasses st := by
  refine List.forall_mem_cons.mpr ⟨fun m => allPass_dueDo _ _, List.forall_mem_cons.mpr ⟨fun m => ?_, ?_⟩⟩
  · exact allPass_ite allPass_nil (allPass_cons.mpr ⟨passes_done _, allPass_turTicks _ allPass_nil⟩)
  · exact List.forall_mem_singleton.mpr fun m => allPass_cons.mpr ⟨passes_done _, allPass_nil⟩

theorem stagePasses_done (f : Mach → Mach) : StagePasses (fun _ => [done f]) := fun _ => allPass_cons.mpr ⟨passes_done f, allPass_nil⟩

theorem stagePasses_latePeaks : StagePasses latePeaks := fun _ =>
  allPass_flatMap (fun _ => allPass_due_settles fun _ => ⟨_, rfl⟩) _

theorem stagePasses_lateAxes : StagePasses lateAxes := fun _ =>
  allPass_ite allPass_nil (allPass_map_settles (fun _ _ => ⟨_, rfl⟩) _)

theorem stagePasses_lateHandovers : StagePasses lateHandovers := fun _ =>
  allPass_ite allPass_nil (allPass_flatMap (fun n => allPass_due (by split_ifs <;> exact passes_of_settles fun _ => ⟨_, rfl⟩)) _)

theorem stagePasses_lateElement : StagePasses lateElement := fun _ =>
  allPass_ite allPass_nil (allPass_append.mpr ⟨allPass_flatMap (fun _ => allPass_due_settles fun _ => ⟨_, rfl⟩) _,
    allPass_map_settles (fun _ _ => ⟨_, rfl⟩) _⟩)

theorem stagePasses_barArrivals : StagePasses (fun m => done barTaken :: barArrivals m) := fun _ =>
  allPass_cons.mpr ⟨passes_done _, allPass_append.mpr ⟨allPass_map (passes_frameRow _) _, allPass_map (passes_frameRow _) _⟩⟩

theorem stagePasses_lateTriggers : StagePasses lateTriggers := fun _ =>
  allPass_ite allPass_nil (allPass_flatMap (fun _ => allPass_append.mpr ⟨allPass_due_settles fun _ => ⟨_, rfl⟩,
    allPass_replicate (passes_of_settles fun _ => ⟨_, rfl⟩)⟩) _)

theorem stagePasses_lateLoss : StagePasses lateLoss := fun _ =>
  allPass_append.mpr ⟨allPass_due_settles fun _ => ⟨_, rfl⟩, allPass_due_settles fun _ => ⟨_, rfl⟩⟩

theorem stagePasses_lateMeasures : StagePasses lateMeasures := fun _ =>
  allPass_ite allPass_nil (allPass_flatMap (fun _ => allPass_due_settles fun _ => ⟨_, rfl⟩) _)

theorem stagePasses_lateRefreshes : StagePasses lateRefreshes := fun _ =>
  allPass_ite allPass_nil (allPass_flatMap (fun n => by
    split
    · exact allPass_due_settles fun _ => ⟨_, rfl⟩
    · exact allPass_nil) _)

theorem stagePasses_latePulseEnds : StagePasses latePulseEnds := fun _ =>
  allPass_ite allPass_nil (allPass_flatMap (fun n => by
    split
    · exact allPass_due_settles fun _ => ⟨_, rfl⟩
    · exact allPass_nil) _)

theorem stagePasses_latePulseHandovers : StagePasses latePulseHandovers := fun _ =>
  allPass_ite allPass_nil (allPass_flatMap (fun n => by
    split
    · exact allPass_due_settles fun _ => ⟨_, rfl⟩
    · exact allPass_nil) _)

theorem allPass_ctxPlays (m : Mach) (x : Fin 128) : AllPass (ctxPlays m x) :=
  allPass_map (fun b => by split_ifs <;> exact passes_of_settles fun _ => ⟨_, rfl⟩) _

theorem stagePasses_lateTransitions : StagePasses lateTransitions := fun m => by
  refine allPass_ite allPass_nil (allPass_append.mpr ⟨allPass_flatMap (fun c => allPass_append.mpr ⟨?_, ?_⟩) _,
    allPass_flatMap (allPass_ctxPlays m) _⟩)
  · exact allPass_ite (allPass_replicate (passes_of_settles fun _ => ⟨_, rfl⟩)) allPass_nil
  · split
    · exact allPass_due_settles fun _ => ⟨_, rfl⟩
    · exact allPass_nil

theorem stagePasses_lateEdges : StagePasses lateEdges := fun _ =>
  allPass_flatMap (fun _ => allPass_flatMap (fun _ => allPass_map_settles (fun _ _ => ⟨_, rfl⟩) _) _) _

theorem stagePasses_endStages : ∀ st ∈ endStages, StagePasses st := by
  unfold endStages
  simp only [List.forall_mem_append, List.forall_mem_cons, List.not_mem_nil, false_imp_iff, implies_true, and_true]
  exact ⟨⟨⟨fun _ => allPass_map_settles (fun _ _ => ⟨_, rfl⟩) _, stagePasses_latePeaks, stagePasses_lateAxes,
      stagePasses_lateHandovers, stagePasses_lateElement, fun _ => by simp [passes_done], stagePasses_barArrivals, stagePasses_done _,
      fun _ => allPass_map_settles (fun _ _ => ⟨_, rfl⟩) _, fun _ => allPass_map_settles (fun _ _ => ⟨_, rfl⟩) _,
      stagePasses_lateTriggers, stagePasses_lateLoss, fun _ => allPass_dueDo _ _⟩, stagePasses_lateEngines⟩,
    stagePasses_lateMeasures, fun _ => allPass_map_settles (fun _ _ => ⟨_, rfl⟩) _, stagePasses_lateRefreshes, stagePasses_done _,
    stagePasses_latePulseEnds, stagePasses_latePulseHandovers, stagePasses_lateTransitions, stagePasses_lateEdges,
    fun _ => allPass_dueDo _ _, stagePasses_done _, stagePasses_done _, stagePasses_done _, stagePasses_done _⟩

/-! ## The stages that begin a tick -/

theorem stagePasses_earlyTime (old : Mach) : StagePasses (earlyTime old) := fun _ =>
  allPass_append.mpr ⟨allPass_due_settles fun _ => ⟨_, rfl⟩, allPass_due_settles fun _ => ⟨_, rfl⟩⟩

theorem stagePasses_earlyChannels : StagePasses earlyChannels := fun m => by
  refine allPass_ite allPass_nil (allPass_append.mpr ⟨allPass_flatMap (fun c => allPass_append.mpr
    ⟨allPass_ite (allPass_map_settles (fun _ _ => ⟨_, rfl⟩) _) allPass_nil, allPass_due_settles fun _ => ⟨_, rfl⟩⟩) _,
    allPass_map_settles (fun _ _ => ⟨_, rfl⟩) _⟩)

theorem stagePasses_earlyGates : StagePasses earlyGates := fun _ =>
  allPass_ite allPass_nil (allPass_flatMap (fun _ => allPass_due_settles fun _ => ⟨_, rfl⟩) _)

theorem allPass_earlyWheel (m : Mach) (d : Fin 16) : AllPass (earlyWheel m d) := by
  unfold earlyWheel
  extract_lets
  simp only [allPass_append]
  exact ⟨⟨⟨⟨⟨⟨allPass_dueDo _ _, allPass_due_settles fun _ => ⟨_, rfl⟩⟩, allPass_due_settles fun _ => ⟨_, rfl⟩⟩,
    allPass_due_settles fun _ => ⟨_, rfl⟩⟩, allPass_dueDo _ _⟩, allPass_due_settles fun _ => ⟨_, rfl⟩⟩,
    allPass_due_settles fun _ => ⟨_, rfl⟩⟩

theorem stagePasses_earlyCams : StagePasses earlyCams := fun m => by
  refine allPass_ite allPass_nil (allPass_append.mpr ⟨allPass_flatMap (fun _ => allPass_due_settles fun _ => ⟨_, rfl⟩) _,
    allPass_flatMap (fun a => allPass_append.mpr ⟨?_, ?_⟩) _⟩)
  · split
    · exact allPass_due_settles fun _ => ⟨_, rfl⟩
    · exact allPass_nil
  · split
    · exact allPass_due_settles fun _ => ⟨_, rfl⟩
    · exact allPass_nil

theorem stagePasses_earlyMarks : StagePasses earlyMarks := fun _ =>
  allPass_ite allPass_nil (allPass_flatMap (fun _ => allPass_append.mpr ⟨allPass_map_settles (fun _ _ => ⟨_, rfl⟩) _,
    allPass_due_settles fun _ => ⟨_, rfl⟩⟩) _)

theorem stagePasses_earlySlots : StagePasses earlySlots := fun _ =>
  allPass_ite allPass_nil (allPass_flatMap (fun _ => allPass_append.mpr ⟨allPass_due_settles fun _ => ⟨_, rfl⟩,
    allPass_due_settles fun _ => ⟨_, rfl⟩⟩) _)

theorem stagePasses_earlyAngles : StagePasses earlyAngles := fun _ =>
  allPass_ite allPass_nil (allPass_cons.mpr ⟨passes_done _, allPass_flatMap (fun _ => allPass_append.mpr
    ⟨allPass_due_settles fun _ => ⟨_, rfl⟩, allPass_due_settles fun _ => ⟨_, rfl⟩⟩) _⟩)

theorem stagePasses_dueCores : StagePasses dueCores := fun _ =>
  allPass_flatMap (fun _ => allPass_append.mpr ⟨allPass_due_settles fun _ => ⟨_, rfl⟩, allPass_due_settles fun _ => ⟨_, rfl⟩⟩) _

theorem stagePasses_dueMonitor : StagePasses dueMonitor := fun m => by
  have hlate : AllPass (match m.saf.wdrAt with
      | some t => due (decide (t ≤ m.now)) (execWdr .field)
      | none => []) := by
    split
    · exact allPass_due_settles fun _ => ⟨_, rfl⟩
    · exact allPass_nil
  unfold dueMonitor
  extract_lets
  simp only [allPass_append]
  refine ⟨⟨⟨⟨⟨⟨⟨⟨⟨⟨⟨⟨?_, ?_⟩, ?_⟩, ?_⟩, ?_⟩, ?_⟩, ?_⟩, ?_⟩, ?_⟩, ?_⟩, ?_⟩, hlate⟩, ?_⟩
  case refine_5 | refine_12 => exact allPass_flatMap (fun _ => allPass_due_settles fun _ => ⟨_, rfl⟩) _
  all_goals exact allPass_due_settles fun _ => ⟨_, rfl⟩

theorem stagePasses_duePower : StagePasses duePower := fun m => by
  unfold duePower
  simp only [allPass_append]
  refine ⟨⟨⟨⟨⟨⟨⟨⟨?_, ?_⟩, ?_⟩, ?_⟩, ?_⟩, ?_⟩, ?_⟩, ?_⟩, ?_⟩
  all_goals exact allPass_due_settles fun _ => ⟨_, rfl⟩

theorem allPass_dueTraining (m : Mach) (s : Side) : AllPass (dueTraining m s) := by
  unfold dueTraining
  extract_lets
  simp only [allPass_append]
  refine ⟨⟨⟨⟨?_, ?_⟩, ?_⟩, ?_⟩, ?_⟩
  all_goals exact allPass_due_settles fun _ => ⟨_, rfl⟩

theorem stagePasses_dueBarrier : StagePasses dueBarrier := fun m => by
  unfold dueBarrier
  extract_lets
  simp only [allPass_append]
  refine ⟨⟨⟨⟨⟨⟨⟨⟨⟨allPass_dueTraining m .host, allPass_dueTraining m .field⟩, ?_⟩, ?_⟩, ?_⟩, ?_⟩, ?_⟩, ?_⟩, ?_⟩, ?_⟩
  all_goals exact allPass_due_settles fun _ => ⟨_, rfl⟩

/-- An instant of the line cycle that is reached brings its meaning while the network runs. -/
theorem allPass_dueNet_row (m : Mach) {c : Nat → Act} (h : ∀ n, Passes (c n)) (n : Option Nat) :
    AllPass (match n with
      | some n => due (m.on R.NET_RUN && !m.pwr.hSleep) (c n)
      | none => []) := by
  cases n with
  | none => exact allPass_nil
  | some n => exact allPass_due (h n)

theorem stagePasses_dueNet : StagePasses dueNet := fun m => by
  unfold dueNet
  extract_lets
  simp only [allPass_append]
  exact ⟨⟨⟨⟨⟨⟨⟨allPass_flatMap (fun _ => allPass_append.mpr ⟨allPass_due_settles fun _ => ⟨_, rfl⟩, allPass_dueDo _ _⟩) _,
    allPass_dueNet_row m (fun _ => passes_done _) _⟩, allPass_dueNet_row m (fun _ => passes_done _) _⟩,
    allPass_dueNet_row m (fun _ => passes_done _) _⟩, allPass_dueNet_row m (fun _ => passes_of_settles fun _ => ⟨_, rfl⟩) _⟩,
    allPass_map_settles (fun _ _ => ⟨_, rfl⟩) _⟩, allPass_due_settles fun _ => ⟨_, rfl⟩⟩, allPass_dueDo _ _⟩

theorem allPass_dueCan (m : Mach) (k : Fin 2) : AllPass (dueCan m k) := by
  unfold dueCan
  simp only [allPass_append]
  refine ⟨⟨⟨?_, ?_⟩, ?_⟩, ?_⟩
  case refine_2 | refine_4 => exact allPass_flatMap (fun _ => allPass_due_settles fun _ => ⟨_, rfl⟩) _
  all_goals exact allPass_due_settles fun _ => ⟨_, rfl⟩

theorem allPass_dueService (m : Mach) : AllPass (dueService m) := by
  unfold dueService
  simp only [allPass_append]
  refine ⟨⟨⟨allPass_dueDo _ _, allPass_dueDo _ _⟩, ?_⟩, ?_⟩
  all_goals exact allPass_flatMap (fun _ => allPass_flatMap (fun _ => allPass_due_settles fun _ => ⟨_, rfl⟩) _) _

theorem stagePasses_dueHost : StagePasses dueHost := fun m =>
  allPass_ite allPass_nil (allPass_append.mpr ⟨allPass_append.mpr ⟨allPass_dueCan m 0, allPass_dueCan m 1⟩, allPass_dueService m⟩)

theorem stagePasses_beginStages (old : Mach) : ∀ st ∈ beginStages old, StagePasses st := by
  unfold beginStages
  simp only [List.forall_mem_cons, List.not_mem_nil, false_imp_iff, implies_true, and_true]
  exact ⟨stagePasses_earlyTime old, fun _ => allPass_map_settles (fun _ _ => ⟨_, rfl⟩) _, stagePasses_earlyChannels,
    stagePasses_earlyGates, fun m => allPass_ite allPass_nil (allPass_flatMap (allPass_earlyWheel m) _),
    fun _ => allPass_due_settles fun _ => ⟨_, rfl⟩, stagePasses_earlyCams, stagePasses_earlySlots, stagePasses_earlyAngles,
    stagePasses_earlyMarks, fun _ => allPass_ite allPass_nil (allPass_map_settles (fun _ _ => ⟨_, rfl⟩) _), stagePasses_dueMonitor,
    stagePasses_duePower, stagePasses_dueBarrier, fun _ => allPass_due_settles fun _ => ⟨_, rfl⟩, stagePasses_dueNet,
    fun _ => by simp [passes_done], stagePasses_dueHost, fun _ => allPass_flatMap (fun _ => allPass_due_settles fun _ => ⟨_, rfl⟩) _,
    stagePasses_dueCores⟩

/-! ## The tick and the step -/

theorem passes_clockAct : Passes clockAct := fun s => by
  obtain ⟨t, ht, hm⟩ := passes_runActs (allPass_map passes_done (clocks s.m).2) { s with m := settle (clocks s.m).1 }
  exact ⟨t, ht, (moves_settle s _).trans hm⟩

/-- A tick of the clocks with everything that is due in it completes. -/
theorem passes_idle : Passes idle := fun s => by
  obtain ⟨t, ht, h1⟩ := passes_runStages stagePasses_endStages s
  obtain ⟨u, hu, h2⟩ := passes_clockAct t
  obtain ⟨v, hv, h3⟩ := passes_runStages (stagePasses_beginStages t.m) u
  exact ⟨v, by simp only [idle, ht, hu, hv], (h1.trans h2).trans h3⟩

theorem step_nil {s : State} (h : s.pending = []) : step s = idle s := by rw [step, h]

theorem step_cons {s : State} {c : Instr} {rest : List Instr} (h : s.pending = c :: rest) :
    step s = exec c { s with pending := rest } := by rw [step, h]

/-- What a step that answers a next state does to the queue and to what waits to be acted on. -/
theorem step_moves {s t : State} (h : step s = .next t) : t.pending = s.pending.tail ∧ (Settled s → Settled t) := by
  cases hq : s.pending with
  | nil =>
    obtain ⟨h1, h2⟩ := passes_idle.orderly s t (step_nil hq ▸ h)
    exact ⟨h1.trans hq, h2⟩
  | cons c rest => exact orderly_exec c _ t (step_cons hq ▸ h)

/-- Settles O43. -/
theorem stepRunsFrontCommand : Obligations.StepRunsFrontCommand :=
  fun _ _ _ => ⟨rfl, step_cons⟩

/-- Settles O47. -/
theorem queueOrder : Obligations.QueueOrder := fun _ _ h => (step_moves h).1

/-- Settles O45. -/
theorem stepsSettle : Obligations.StepsSettle := fun _ _ hs h => (step_moves h).2 hs

/-! ## The two stops -/

/-- A command completes or is refused at a word of Spire's port region that the spec does not describe (R33). -/
def RunsOrPort (f : Act) (s : State) : Prop := (∃ t, f s = .next t) ∨ ∃ a, f s = .refused (.undescribedPort a)

theorem runsOrPort_done (f : Mach → Mach) (s : State) : RunsOrPort (done f) s := .inl ⟨_, rfl⟩

theorem runsOrPort_runWord (i : Fin 3) (w : Nat) (e : CoreEcc) (s : State) : RunsOrPort (runWord i w e) s := by
  unfold RunsOrPort runWord
  split
  · exact runsOrPort_done id s
  split
  · exact runsOrPort_done _ s
  · exact runsOrPort_done _ s
  next a _ => exact .inr ⟨a, rfl⟩

theorem runsOrPort_dapMem (i : Fin 3) (cmd : Nat) (access : Mach → Except CoreStop (Nat × Mach)) (s : State) :
    RunsOrPort (dapMem i cmd access) s := by
  unfold RunsOrPort dapMem
  dsimp only
  split
  · exact runsOrPort_done _ s
  split
  · exact runsOrPort_done _ s
  · exact runsOrPort_done _ s
  next a _ => exact .inr ⟨a, rfl⟩

theorem runsOrPort_execReadMem (i : Fin 3) (s : State) : RunsOrPort (execReadMem i) s := by
  unfold RunsOrPort execReadMem
  split
  · exact runsOrPort_done _ s
  · exact runsOrPort_dapMem _ _ _ s

/-- The commands that reach memory for a core or its debug port. -/
def reachesPort (c : Instr) (i : Fin 3) : Prop :=
  (∃ (w : Word) (e : CoreEcc), c = .instruction i w e) ∨ c = .readMem i ∨ ∃ v : Word, c = .writeMem i v

theorem runsOrPort_of_reachesPort {c : Instr} {i : Fin 3} (h : reachesPort c i) (s : State) : RunsOrPort (exec c) s := by
  obtain ⟨w, e, rfl⟩ | rfl | ⟨v, rfl⟩ := h
  · exact runsOrPort_runWord i w.toNat e s
  · exact runsOrPort_execReadMem i s
  · exact runsOrPort_dapMem i _ _ s

/-- Every command completes, but for the undefined reset pulse and the undescribed port words. -/
theorem exec_stops (c : Instr) (s : State) : (∃ t, exec c s = .next t) ∨
    (∃ side ns, c = .pin side ns ∧ 200 ≤ ns ∧ ns < 1000 ∧ ∃ r, exec c s = .fault r) ∨
    ∃ a i, exec c s = .refused (.undescribedPort a) ∧ reachesPort c i := by
  by_cases hr : ∃ i, reachesPort c i
  · obtain ⟨i, hi⟩ := hr
    exact (runsOrPort_of_reachesPort hi s).imp_right fun ⟨a, ha⟩ => .inr ⟨a, i, ha, hi⟩
  by_cases hp : ∃ side ns, c = .pin side ns ∧ 200 ≤ ns ∧ ns < 1000
  · obtain ⟨side, ns, rfl, h1, h2⟩ := hp
    have hx : exec (.pin side ns) s = .fault .undefinedResetPulse := by
      change execPin side ns s = _
      rw [execPin, if_neg (by omega), if_pos h2]
    exact .inr (.inl ⟨side, ns, rfl, h1, h2, _, hx⟩)
  obtain ⟨t, ht, -⟩ := everyCommandCompletes c s
    (fun side ns h => by by_contra; exact hp ⟨side, ns, h, by omega⟩)
    (fun i w e _ h => absurd ⟨i, .inl ⟨w, e, h⟩⟩ hr) (fun i _ h => absurd ⟨i, .inr (.inl h)⟩ hr)
    (fun i v _ h => absurd ⟨i, .inr (.inr ⟨v, h⟩)⟩ hr)
  exact .inl ⟨t, ht⟩

/-- Settles O46: a tick passes, and a command stops only where `exec_stops` says. -/
theorem neverStops : Obligations.NeverStops := by
  unfold Obligations.NeverStops
  intro s
  cases hq : s.pending with
  | nil =>
    obtain ⟨t, ht, -⟩ := passes_idle s
    have ht : step s = .next t := (step_nil hq).trans ht
    exact ⟨fun r h => (nomatch ht.symm.trans h), fun r h => (nomatch ht.symm.trans h), fun _ => ⟨t, ht⟩⟩
  | cons c rest =>
    rw [step_cons hq]
    obtain ⟨t, ht⟩ | ⟨side, ns, rfl, h1, h2, r, hr⟩ | ⟨a, i, ha, hi⟩ := exec_stops c { s with pending := rest }
    · exact ⟨fun r h => (nomatch ht.symm.trans h), fun r h => (nomatch ht.symm.trans h), nofun⟩
    · exact ⟨fun _ _ => ⟨side, ns, rest, rfl, h1, h2⟩, fun _ h => (nomatch hr.symm.trans h), nofun⟩
    · refine ⟨fun _ h => (nomatch ha.symm.trans h), fun r h => ⟨a, i, rest, ?_, ?_⟩, nofun⟩
      · cases ha.symm.trans h; rfl
      · obtain ⟨w, e, rfl⟩ | rfl | ⟨v, rfl⟩ := hi
        exacts [.inl ⟨w, e, rfl⟩, .inr (.inl rfl), .inr (.inr ⟨v, rfl⟩)]

end Sys2Proof.Machine

/-! # O49, O4 and O50: frames, their checks, and records

The bytes of a frame, of a record and of a stored block are strings put end to end: a field that was put in at an offset reads back
there, and what follows it is what is left. -/

namespace Sys2Proof.Machine

/-! ## Bytes -/

@[simp] theorem length_toLe (n v : Nat) : (toLe n v).length = n := by
  induction n generalizing v with
  | zero => rfl
  | succ n ih => simp [toLe, ih]

theorem leNat_toLe (n v : Nat) : leNat (toLe n v) = v % 256 ^ n := by
  induction n generalizing v with
  | zero => simp [toLe, leNat, Nat.mod_one]
  | succ n ih =>
    rw [toLe, leNat, ih, BitVec.toNat_ofNat, Nat.pow_succ' (m := 256), Nat.mod_mul]

theorem leNat_toLe_of_lt {n v : Nat} (h : v < 256 ^ n) : leNat (toLe n v) = v := by rw [leNat_toLe, Nat.mod_eq_of_lt h]

theorem crc32Bits_lt (n c : Nat) (h : c < 2 ^ 32) : crc32Bits n c < 2 ^ 32 := by
  induction n generalizing c with
  | zero => exact h
  | succ n ih =>
    rw [crc32Bits]
    split
    · exact ih _ (Nat.xor_lt_two_pow (by omega) (by decide))
    · exact ih _ (by omega)

/-- A CRC has 32 bits. -/
theorem crc32_lt (l : List Byte) : crc32 l < 2 ^ 32 := by
  refine Nat.xor_lt_two_pow (List.foldlRecOn l _ (motive := (· < 2 ^ 32)) (by decide) fun c hc b _ => ?_) (by decide)
  exact crc32Bits_lt 8 _ (Nat.xor_lt_two_pow hc (b.isLt.trans (by decide)))

/-- A field reads what stands at its offset. -/
theorem fieldAt_mid {off n : Nat} {l f : List Byte} (hl : l.length = off) (hf : f.length = n) (r : List Byte) :
    fieldAt off n (l ++ (f ++ r)) = leNat f := by
  rw [fieldAt, List.drop_left' hl, List.take_left' hf]

theorem fieldAt_toLe {off n v : Nat} {l : List Byte} (hl : l.length = off) (h : v < 256 ^ n) (r : List Byte) :
    fieldAt off n (l ++ (toLe n v ++ r)) = v := by
  rw [fieldAt_mid hl (length_toLe n v), leNat_toLe_of_lt h]

/-! ## The ends of the barrier -/

@[simp] theorem updEnd_same (s : Side) (f : BarEnd → BarEnd) (m : Mach) : (m.updEnd s f).barEnd s = f (m.barEnd s) := by cases s <;> rfl

@[simp] theorem updEnd_rd (s : Side) (f : BarEnd → BarEnd) (o : Obj) (m : Mach) : (m.updEnd s f).rd o = m.rd o := by cases s <;> rfl

/-! ## The catalogue (R423) -/

theorem catalogue_bounds {typ dir lo hi : Nat} (h : catalogue typ = some (dir, lo, hi)) : typ ≤ 20 ∧ hi ≤ 56 := by
  unfold catalogue at h
  split at h <;> simp_all <;> omega

theorem catalogueOk_bounds {dst : Side} {typ len : Nat} (h : catalogueOk dst typ len = true) : typ ≤ 20 ∧ len ≤ 56 := by
  unfold catalogueOk at h
  split at h
  · cases h
  next hc =>
    simp only [Bool.and_eq_true, decide_eq_true_eq] at h
    have := catalogue_bounds hc
    omega

/-! ## The bytes of a frame (R418) -/

/-- The bytes of a message that its CRC covers: TYPE, LEN, the number, the payload and its padding. -/
def frameBody (g : Msg) (seq : Nat) : List Byte :=
  toLe 1 g.typ ++ (toLe 1 g.payload.length ++ (toLe 2 seq ++ (g.payload ++
    List.replicate (padLen g.payload.length - g.payload.length) 0)))

theorem frameBytes_eq (g : Msg) (seq : Nat) : frameBytes g seq = frameBody g seq ++ (toLe 4 (crc32 (frameBody g seq)) ++ []) := by
  simp only [frameBytes, frameBody, List.append_assoc, List.append_nil]

theorem le_padLen (n : Nat) : n ≤ padLen n := by unfold padLen; omega

theorem length_frameBody (g : Msg) (seq : Nat) : (frameBody g seq).length = 4 + padLen g.payload.length := by
  have := le_padLen g.payload.length
  simp only [frameBody, List.length_append, length_toLe, List.length_replicate]
  omega

/-- What a receiver reads of a frame: the fields of its head, the payload, and the CRC of what stands before it. -/
theorem frameBytes_fields {g : Msg} (ht : g.typ < 256) (hp : g.payload.length < 256) (seq : Nat) :
    fieldAt 0 1 (frameBytes g seq) = g.typ ∧ fieldAt 1 1 (frameBytes g seq) = g.payload.length ∧
    fieldAt 2 2 (frameBytes g seq) = seq % 65536 ∧ ((frameBytes g seq).drop 4).take g.payload.length = g.payload ∧
    (frameBytes g seq).length = 8 + padLen g.payload.length ∧
    fieldAt (4 + padLen g.payload.length) 4 (frameBytes g seq) =
      crc32 ((frameBytes g seq).take (4 + padLen g.payload.length)) := by
  have hlen := length_frameBody g seq
  have htail : (frameBytes g seq).length = 8 + padLen g.payload.length := by
    rw [frameBytes_eq, List.length_append, hlen]
    simp only [List.length_append, length_toLe, List.length_nil]
    omega
  have hcrc : fieldAt (4 + padLen g.payload.length) 4 (frameBytes g seq) =
      crc32 ((frameBytes g seq).take (4 + padLen g.payload.length)) := by
    rw [frameBytes_eq, fieldAt_toLe hlen (crc32_lt _), List.take_left' hlen]
  refine ⟨?_, ?_, ?_, ?_, htail, hcrc⟩
  all_goals rw [frameBytes_eq, frameBody]; simp only [List.append_assoc]
  · exact fieldAt_toLe (l := []) rfl ht _
  · exact fieldAt_toLe (length_toLe 1 g.typ) hp _
  · rw [← List.append_assoc, fieldAt_mid (by simp) (length_toLe 2 seq), leNat_toLe]
    rfl
  · rw [← List.append_assoc, ← List.append_assoc, List.drop_left' (by simp), List.take_left' rfl]

/-! ## The four checks (R420) -/

section
variable (s : Side) (f : LinkFrame) (m : Mach)

/-- Check 1: the frame came whole over aligned lanes and is as long as its LEN says. -/
def framed : Bool := f.sound && (m.barEnd s).lanes == 15 && f.bytes.length == 8 + padLen (fieldAt 1 1 f.bytes)

/-- Check 2: the CRC is that of what stands before it. -/
def crced : Bool :=
  fieldAt (4 + padLen (fieldAt 1 1 f.bytes)) 4 f.bytes == crc32 (f.bytes.take (4 + padLen (fieldAt 1 1 f.bytes)))

/-- Check 4: a frame other than LINK has the number that the end awaits. -/
def inTurn : Bool := fieldAt 0 1 f.bytes == 1 || fieldAt 2 2 f.bytes == (m.barEnd s).rxSeq

/-- The end after an accepted frame of a type: its silence ends, and it awaits the next number. -/
def heard (typ : Nat) (m : Mach) : Mach :=
  m.updEnd s (fun e => { e with quiet := 0, rxSeq := if typ = 1 then e.rxSeq else (e.rxSeq + 1) % 65536 })

variable {s f m}

/-- The first check that fails drops the frame under its counter; a frame that passes all four is taken. -/
theorem linkAccept_eq (hst : m.barState s = 2 ∨ m.barState s = 3) : linkAccept s f m =
    if framed s f m = false then (none, linkDrop s (cntFrame s) (fieldAt 0 1 f.bytes != 1) m)
    else if crced f = false then (none, linkDrop s (cntCrc s) (fieldAt 0 1 f.bytes != 1) m)
    else if catalogueOk s (fieldAt 0 1 f.bytes) (fieldAt 1 1 f.bytes) = false then
      (none, linkDrop s (cntUnknown s) (fieldAt 0 1 f.bytes != 1) (m.updEnd s (fun e => { e with quiet := 0 })))
    else if inTurn s f m = false then
      (none, linkDrop s (cntSeq s) (fieldAt 0 1 f.bytes != 1) (m.updEnd s (fun e => { e with quiet := 0 })))
    else (some ⟨fieldAt 0 1 f.bytes, (f.bytes.drop 4).take (fieldAt 1 1 f.bytes)⟩, heard s (fieldAt 0 1 f.bytes) m) := by
  unfold linkAccept
  dsimp only
  rw [if_neg (by omega)]
  congr 1
  · simp only [framed, Bool.and_eq_false_iff, Bool.or_eq_true, bne_iff_ne, beq_eq_false_iff_ne, Bool.not_eq_true']
  congr 1
  · simp [crced]
  congr 1
  · simp
  rw [updEnd_same]
  by_cases h1 : fieldAt 0 1 f.bytes = 1
  · simp only [inTurn, heard, h1]
    rfl
  · have ht : (fieldAt 0 1 f.bytes != 1) = true := by simpa using h1
    have htake : (m.updEnd s (fun e => { e with quiet := 0 })).updEnd s (fun e => { e with rxSeq := (e.rxSeq + 1) % 65536 }) =
        heard s (fieldAt 0 1 f.bytes) m := by cases s <;> simp [heard, Mach.updEnd, h1]
    rw [if_neg h1, ht, htake]
    by_cases h2 : fieldAt 2 2 f.bytes = (m.barEnd s).rxSeq <;> simp [inTurn, h1, h2]

end

/-- Settles O49: every field of the frame reads back, so none of the four checks fails. -/
theorem frameRoundTrip : Obligations.FrameRoundTrip := by
  unfold Obligations.FrameRoundTrip
  intro side g seq m hc hst hl hq
  obtain ⟨ht, hp⟩ := catalogueOk_bounds hc
  obtain ⟨h0, h1, h2, hpay, hlen, hcrc⟩ := frameBytes_fields (g := g) (by omega) (by omega) seq
  refine ⟨heard side g.typ m, ?_, ?_, ?_, ?_⟩
  · have hframed : framed side ⟨true, frameBytes g seq⟩ m = true := by simp [framed, hl, h1, hlen]
    have hcrced : crced ⟨true, frameBytes g seq⟩ = true := by simp [crced, h1, hcrc]
    have hturn : inTurn side ⟨true, frameBytes g seq⟩ m = true := by
      simpa [inTurn, h0, h2] using hq
    rw [linkAccept_eq hst]
    simp [hframed, hcrced, hturn, h0, h1, hc, hpay]
  · simp [heard]
  · by_cases h : g.typ = 1
    · simp [heard, h]
    · simp [heard, h, ← hq.resolve_left h]
  · cases side <;> rfl

/-! ## Drops -/

/-- The counters of the four checks. -/
def checkCounters (s : Side) : List Obj := [cntFrame s, cntCrc s, cntUnknown s, cntSeq s]

/-- The counters of the checks are four objects, and none is the end's event register. -/
theorem checkCounters_key {s : Side} {o p : Obj} (ho : o ∈ checkCounters s) (hp : p ∈ checkCounters s) :
    (p ≠ o → p.key ≠ o.key) ∧ o.key ≠ R.BAR_H_EVT.key ∧ o.key ≠ R.BAR_F_EVT.key := by
  have h : ∀ s : Side, ∀ o ∈ checkCounters s, ∀ p ∈ checkCounters s,
      (p ≠ o → p.key ≠ o.key) ∧ o.key ≠ R.BAR_H_EVT.key ∧ o.key ≠ R.BAR_F_EVT.key := by
    intro s; cases s <;> decide
  exact h s o ho p hp

@[simp] theorem barRaise_end (s e : Side) (b : Nat) (m : Mach) : (barRaise s b m).barEnd e = m.barEnd e := by
  cases e <;> simp [Mach.barEnd]

section
variable {s : Side} {o : Obj} (ho : o ∈ checkCounters s) (sequenced : Bool) (m : Mach)
include ho

theorem linkDrop_rd {p : Obj} (hp : p ∈ checkCounters s) : (linkDrop s o sequenced m).rd p = (m.inc o).rd p := by
  obtain ⟨-, hH, hF⟩ := checkCounters_key hp ho
  have hraise : (barRaise s 3 (m.inc o)).rd p = (m.inc o).rd p := by
    cases s
    · exact barRaise_host_rd hH 3 _
    · exact barRaise_field_rd hF 3 _
  unfold linkDrop
  dsimp only
  split_ifs
  · rw [updEnd_rd, hraise]
  · exact hraise

omit ho in
theorem linkDrop_nak : ((linkDrop s o sequenced m).barEnd s).nak = ((m.barEnd s).nak || sequenced) := by
  have hend : (m.inc o).barEnd s = m.barEnd s := by cases s <;> simp [Mach.barEnd]
  unfold linkDrop
  dsimp only
  split_ifs with h <;> simp [h, hend]

omit ho in
theorem linkDrop_quiet : (linkDrop s o sequenced m).alarms = m.alarms ∧ (linkDrop s o sequenced m).notes = m.notes := by
  unfold linkDrop
  dsimp only
  split_ifs <;> simp

end

/-- A frame that is dropped counts under its check, and asks for a resend where it was sequenced. -/
theorem goes_frameDrop {s : State} {side : Side} {f : LinkFrame} {o : Obj} {sequenced : Bool} {m1 : Mach} (hs : Settled s)
    (ho : o ∈ checkCounters side) (h : linkAccept side f s.m = (none, linkDrop side o sequenced m1))
    (hm1 : m1 = s.m ∨ m1 = s.m.updEnd side (fun e => { e with quiet := 0 })) :
    Goes (.frameDrop side f) s (fun m => m.rd o = min 0xFFFFFFFF (s.m.rd o + 1) ∧
      (∀ p ∈ checkCounters side, p ≠ o → m.rd p = s.m.rd p) ∧
      (m.barEnd side).nak = ((s.m.barEnd side).nak || sequenced)) := by
  have heff : frameDropEffect side f s.m = linkDrop side o sequenced m1 := by rw [frameDropEffect, h]
  have hsame : m1.alarms = [] ∧ m1.notes = [] ∧ (∀ p, m1.rd p = s.m.rd p) ∧ (m1.barEnd side).nak = (s.m.barEnd side).nak := by
    obtain rfl | rfl := hm1 <;> simp [hs.1, hs.2]
  obtain ⟨hal, hno, hrd, hnak⟩ := hsame
  obtain ⟨hqa, hqn⟩ := linkDrop_quiet (s := side) (o := o) sequenced m1
  refine Goes.of_to (done_quiet heff (hqa.trans hal) (hqn.trans hno)) ⟨?_, fun p hp hne => ?_, ?_⟩
  · rw [linkDrop_rd ho _ _ ho, rd_inc_same, hrd]
  · rw [linkDrop_rd ho _ _ hp, rd_inc_ne ((checkCounters_key ho hp).1 hne), hrd]
  · rw [linkDrop_nak, hnak]

/-- Settles O4: the four checks are those of `linkAccept_eq`, and a drop counts under its own check alone. -/
theorem frameChecksInOrder : Obligations.FrameChecksInOrder := by
  unfold Obligations.FrameChecksInOrder
  rintro s side f typ len n fr cr li nx hs hst rfl rfl rfl hfr hcr hli hnx
  change fr = framed side f s.m at hfr
  change cr = crced f at hcr
  change nx = inTurn side f s.m at hnx
  subst hfr hcr hli hnx
  have heq := linkAccept_eq (f := f) hst
  refine ⟨fun h1 h2 h3 h4 => ?_, fun h => ?_, fun o h => ?_⟩
  · simp [heq, h1, h2, h3, h4]
  · rw [heq]
    split_ifs <;> simp_all
  · obtain ⟨h1, rfl⟩ | ⟨h1, h2, rfl⟩ | ⟨h1, h2, h3, rfl⟩ | ⟨h1, h2, h3, h4, rfl⟩ := h
    · exact goes_frameDrop hs (by simp [checkCounters]) (by simp [heq, h1]) (.inl rfl)
    · exact goes_frameDrop hs (by simp [checkCounters]) (by simp [heq, h1, h2]) (.inl rfl)
    · exact goes_frameDrop hs (by simp [checkCounters]) (by simp [heq, h1, h2, h3]) (.inr rfl)
    · exact goes_frameDrop hs (by simp [checkCounters]) (by simp [heq, h1, h2, h3, h4]) (.inr rfl)

end Sys2Proof.Machine

namespace Sys2Proof.Machine

/-! ## Cyclic records (R451) -/

/-- A record's head: its type, the length of its data, its channel and a reserved byte. -/
theorem recBytes_eq (r : Rec) (rest : List Byte) : recBytes r ++ rest =
    toLe 1 r.rtype ++ (toLe 1 r.data.length ++ (toLe 1 r.chan ++ ([0] ++ (r.data ++ rest)))) := rfl

theorem length_recBytes (r : Rec) : (recBytes r).length = 4 + r.data.length := by simp [recBytes]; omega

/-- A record at the front of a string is parsed off. -/
theorem parseRecs_recBytes {r : Rec} (ht : r.rtype < 256) (hc : r.chan < 256) (hd : r.data.length < 256) (n : Nat) (rest : List Byte) :
    parseRecs (n + 1) (recBytes r ++ rest) = (parseRecs n rest).map (r :: ·) := by
  have hne : (recBytes r ++ rest).isEmpty = false := rfl
  have hlen : fieldAt 1 1 (recBytes r ++ rest) = r.data.length := fieldAt_toLe (length_toLe 1 r.rtype) hd _
  have htype : fieldAt 0 1 (recBytes r ++ rest) = r.rtype := fieldAt_toLe (l := []) rfl ht _
  have hchan : fieldAt 2 1 (recBytes r ++ rest) = r.chan := fieldAt_toLe (l := toLe 1 r.rtype ++ toLe 1 r.data.length) rfl hc _
  have hdata : ((recBytes r ++ rest).drop 4).take r.data.length = r.data := List.take_left' rfl
  have hrest : (recBytes r ++ rest).drop (4 + r.data.length) = rest := List.drop_left' (length_recBytes r)
  have hle : ¬ (recBytes r ++ rest).length < 4 + r.data.length := by rw [List.length_append, length_recBytes]; omega
  rw [parseRecs]
  simp only [hne, hlen, htype, hchan, hdata, hrest, if_neg hle]
  rfl

theorem parseRecs_flatMap {l : List Rec} (h : ∀ r ∈ l, r.rtype < 256 ∧ r.chan < 256 ∧ r.data.length < 256) {n : Nat}
    (hn : (l.flatMap recBytes).length ≤ n) : parseRecs n (l.flatMap recBytes) = some l := by
  induction l generalizing n with
  | nil => cases n <;> rfl
  | cons r l ih =>
    obtain ⟨⟨ht, hc, hd⟩, hl⟩ := List.forall_mem_cons.mp h
    rw [List.flatMap_cons, List.length_append, length_recBytes] at hn
    obtain ⟨n, rfl⟩ : ∃ k, n = k + 1 := ⟨n - 1, by omega⟩
    rw [List.flatMap_cons, parseRecs_recBytes ht hc hd, ih hl (by omega)]
    rfl

/-! ## The block of stored values (R25, log 30) -/

theorem packVal_append (e : Nat × Nat) (rest : List Byte) : packVal e ++ rest = [0] ++ (toLe 3 e.1 ++ (toLe 8 e.2 ++ rest)) := by
  simp only [packVal, List.append_assoc]

theorem packStr_append (e : Nat × List Byte) (rest : List Byte) :
    packStr e ++ rest = [1] ++ (toLe 3 e.1 ++ (toLe 1 e.2.length ++ (e.2 ++ rest))) := by
  simp only [packStr, List.append_assoc]

theorem length_packVal (e : Nat × Nat) : (packVal e).length = 12 := by simp [packVal]

theorem length_packStr (e : Nat × List Byte) : (packStr e).length = 5 + e.2.length := by simp [packStr]; omega

/-- A value at the front of a block is unpacked. -/
theorem unpackBlock_packVal {e : Nat × Nat} (hk : e.1 < 2 ^ 24) (hv : e.2 < 2 ^ 64) (n : Nat) (rest : List Byte) :
    unpackBlock (n + 1) (packVal e ++ rest) = (e :: (unpackBlock n rest).1, (unpackBlock n rest).2) := by
  have htag : fieldAt 0 1 (packVal e ++ rest) = 0 := rfl
  have hkey : fieldAt 1 3 (packVal e ++ rest) = e.1 := by rw [packVal_append]; exact fieldAt_toLe (l := [0]) rfl hk _
  have hval : fieldAt 4 8 (packVal e ++ rest) = e.2 := by
    rw [packVal_append, ← List.append_assoc]
    exact fieldAt_toLe (by simp) hv _
  have hrest : (packVal e ++ rest).drop 12 = rest := List.drop_left' (length_packVal e)
  have hlen : ¬ (packVal e ++ rest).length < 5 := by rw [List.length_append, length_packVal]; omega
  rw [unpackBlock, if_neg hlen, if_pos htag]
  simp only [hkey, hval, hrest]

/-- A string at the front of a block is unpacked. -/
theorem unpackBlock_packStr {e : Nat × List Byte} (hk : e.1 < 2 ^ 24) (hs : e.2.length < 256) (n : Nat) (rest : List Byte) :
    unpackBlock (n + 1) (packStr e ++ rest) = ((unpackBlock n rest).1, e :: (unpackBlock n rest).2) := by
  have htag : fieldAt 0 1 (packStr e ++ rest) ≠ 0 := Nat.one_ne_zero
  have hkey : fieldAt 1 3 (packStr e ++ rest) = e.1 := by rw [packStr_append]; exact fieldAt_toLe (l := [1]) rfl hk _
  have hcount : fieldAt 4 1 (packStr e ++ rest) = e.2.length := by
    rw [packStr_append, ← List.append_assoc]
    exact fieldAt_toLe (by simp) hs _
  have hstr : ((packStr e ++ rest).drop 5).take e.2.length = e.2 := by
    rw [packStr_append, ← List.append_assoc, ← List.append_assoc, List.drop_left' (by simp), List.take_left' rfl]
  have hrest : (packStr e ++ rest).drop (5 + e.2.length) = rest := List.drop_left' (length_packStr e)
  have hlen : ¬ (packStr e ++ rest).length < 5 := by rw [List.length_append, length_packStr]; omega
  rw [unpackBlock, if_neg hlen, if_neg htag]
  simp only [hkey, hcount, hstr, hrest]

theorem unpackBlock_strs {strs : List (Nat × List Byte)} (h : ∀ e ∈ strs, e.1 < 2 ^ 24 ∧ e.2.length < 256) {n : Nat}
    (hn : (strs.flatMap packStr).length ≤ n) : unpackBlock n (strs.flatMap packStr) = ([], strs) := by
  induction strs generalizing n with
  | nil => cases n <;> rfl
  | cons e l ih =>
    obtain ⟨⟨hk, hs⟩, hl⟩ := List.forall_mem_cons.mp h
    rw [List.flatMap_cons, List.length_append, length_packStr] at hn
    obtain ⟨n, rfl⟩ : ∃ k, n = k + 1 := ⟨n - 1, by omega⟩
    rw [List.flatMap_cons, unpackBlock_packStr hk hs, ih hl (by omega)]

theorem unpackBlock_block {vals : List (Nat × Nat)} {strs : List (Nat × List Byte)} (hv : ∀ e ∈ vals, e.1 < 2 ^ 24 ∧ e.2 < 2 ^ 64)
    (hs : ∀ e ∈ strs, e.1 < 2 ^ 24 ∧ e.2.length < 256) {n : Nat} (hn : (vals.flatMap packVal ++ strs.flatMap packStr).length ≤ n) :
    unpackBlock n (vals.flatMap packVal ++ strs.flatMap packStr) = (vals, strs) := by
  induction vals generalizing n with
  | nil => exact unpackBlock_strs hs hn
  | cons e l ih =>
    obtain ⟨⟨hk, hx⟩, hl⟩ := List.forall_mem_cons.mp hv
    rw [List.flatMap_cons, List.append_assoc, List.length_append, length_packVal] at hn
    obtain ⟨n, rfl⟩ : ∃ k, n = k + 1 := ⟨n - 1, by omega⟩
    rw [List.flatMap_cons, List.append_assoc, unpackBlock_packVal hk hx, ih hl (by omega)]

/-- Settles O50: records and stored values are parsed off one by one. -/
theorem recordsRoundTrip : Obligations.RecordsRoundTrip := by
  unfold Obligations.RecordsRoundTrip
  refine ⟨fun l h => parseRecs_flatMap h le_rfl, ?_⟩
  intro head vals strs b hv hs hb hlen
  let body := vals.flatMap packVal ++ strs.flatMap packStr
  have hb : b = toLe 4 (head.length + body.length + 4) ++ (head ++ body) := by
    rw [hb, packBlock, List.append_assoc, List.length_append]
  have hl : b.length = head.length + body.length + 4 := by rw [hb]; simp; omega
  have hcount : fieldAt 0 4 b = b.length := by
    rw [hl, hb]
    exact fieldAt_toLe (l := []) rfl (by omega) _
  have hhead : b.drop 4 = head ++ body := by rw [hb, List.drop_left' (length_toLe 4 _)]
  refine ⟨?_, ?_, ?_⟩
  · simp only [blockWhole, Bool.and_eq_true, decide_eq_true_eq]
    omega
  · rw [hhead, List.take_left' rfl]
  · rw [← List.drop_drop, hhead, List.drop_left' rfl]
    exact unpackBlock_block hv hs (by change body.length ≤ _; omega)

end Sys2Proof.Machine

/-! # O3: the rearm of the supply

PWR_REARM clears BW on every octet: each octet's clear leaves its own causes without bit 4 and the causes of the others as they are. -/

namespace Sys2Proof.Machine

theorem bit_sub_and_two_pow (i v : Nat) : bit i (v - (v &&& 2 ^ i)) = false := by
  rw [Nat.and_two_pow, ← bit_eq_testBit]
  cases h : bit i v with
  | false => simpa using h
  | true =>
    simp only [bit, beq_iff_eq, beq_eq_false_iff_ne, Bool.toNat_true, one_mul] at h ⊢
    have hpos : 0 < 2 ^ i := Nat.two_pow_pos i
    have hdiv : (v - 2 ^ i) / 2 ^ i = v / 2 ^ i - 1 := by simpa using Nat.sub_mul_div v (2 ^ i) 1
    omega

/-- BW is no cause that a clear leaves for its own tick (R308). -/
theorem bw_and_fresh (c k : Nat) : (c &&& 16) &&& (k &&& 0xF) = 0 := by
  rw [Nat.and_assoc, ← Nat.and_assoc 16, Nat.and_comm 16, Nat.and_assoc k]
  simp

/-- One octet's rearm: BW clears among its causes, and the causes of the other octets stay. -/
theorem octClearCauses_bw {o : Nat} (ho : o < 16) (m : Mach) :
    (bit 4 ((octClearCauses o 16 (octCaught o m)).rd (R.TRP_LATCH_CAUSE o)) = false ∧
      ∀ p < 16, p ≠ o → (octClearCauses o 16 (octCaught o m)).rd (R.TRP_LATCH_CAUSE p) = m.rd (R.TRP_LATCH_CAUSE p)) ∧
    (octClearCauses o 16 (octCaught o m)).signals = m.signals := by
  obtain ⟨⟨hal, hno⟩, -, hrd⟩ := eq_of_offOctet (offOctet_octCaught (o := o) m)
  have hlane {p : Nat} (hp : p < 16) : ¬laneKey o (R.TRP_LATCH_CAUSE p).key := by
    simp only [laneKey, Obj.key, R.TRP_LATCH_CAUSE]; omega
  have hkey {p : Nat} (hne : p ≠ o) : (R.TRP_LATCH_CAUSE p).key ≠ (R.TRP_LATCH_CAUSE o).key := by
    simp only [Obj.key, R.TRP_LATCH_CAUSE]; omega
  have hclear : (octClearCauses o 16 (octCaught o m)).regs =
      ((octCaught o m).wr (R.TRP_LATCH_CAUSE o) (m.rd (R.TRP_LATCH_CAUSE o) - (m.rd (R.TRP_LATCH_CAUSE o) &&& 16))).regs ∧
      (octClearCauses o 16 (octCaught o m)).signals = (octCaught o m).signals := by
    unfold octClearCauses
    simp only [bw_and_fresh, Nat.sub_zero, hrd _ (hlane ho)]
    split_ifs <;> exact ⟨rfl, rfl⟩
  obtain ⟨hregs, hsig⟩ := hclear
  refine ⟨⟨?_, fun p hp hne => ?_⟩, hsig.trans (congrArg₂ Prod.mk hno hal)⟩
  · rw [Mach.rd, hregs, ← Mach.rd, rd_wr_same]
    exact bit_sub_and_two_pow 4 _
  · rw [Mach.rd, hregs, ← Mach.rd, rd_wr_ne (hkey hne), hrd _ (hlane hp)]

theorem bwRearm_signals (m : Mach) : (bwRearm m).signals = m.signals :=
  each_keeps_of (fun _ ho m => (octClearCauses_bw (List.mem_range.mp ho) m).2) m

/-- Where each step of a list establishes its own property and keeps those of the others, all of them hold after the list. -/
theorem each_establishes {f : Nat → Mach → Mach} {P : Nat → Mach → Prop} {n : Nat} (hown : ∀ a < n, ∀ m, P a (f a m))
    (hother : ∀ a < n, ∀ p < n, p ≠ a → ∀ m, P p m → P p (f a m)) {l : List Nat} (hl : ∀ a ∈ l, a < n) {p : Nat} (hp : p < n) {m : Mach}
    (h : p ∈ l ∨ P p m) : P p (m.each l f) := by
  induction l generalizing m with
  | nil => simpa [Mach.each] using h
  | cons a l ih =>
    obtain ⟨ha, hl⟩ := List.forall_mem_cons.mp hl
    refine ih hl ?_
    by_cases hpa : p = a
    · exact .inr (hpa ▸ hown a ha m)
    · exact h.imp (fun h => (List.mem_cons.mp h).resolve_left hpa) (hother a ha p hp hpa m)

theorem bwRearm_clears (m : Mach) : ∀ o < 16, bit 4 ((bwRearm m).rd (R.TRP_LATCH_CAUSE o)) = false := by
  intro o ho
  exact each_establishes (P := fun o m => bit 4 (m.rd (R.TRP_LATCH_CAUSE o)) = false) (fun _ ha m => (octClearCauses_bw ha m).1.1)
    (fun _ ha p hp hne m h => ((octClearCauses_bw ha m).1.2 p hp hne).symm ▸ h) (fun _ => List.mem_range.mp) ho
    (.inl (List.mem_range.mpr ho))

/-- No bit of the field rails stands in their word exactly where the word's rail bits are 0. -/
theorem bits_rails {v : Nat} : bits 12 0 v = 0 ↔ ∀ r ≤ 12, bit r v = false := by
  constructor
  · intro h r hr
    have h : v % 2 ^ 13 = 0 := by simpa [bits] using h
    have hbit := Nat.testBit_mod_two_pow v 13 r
    rw [h, Nat.zero_testBit, decide_eq_true (by omega), Bool.true_and] at hbit
    rw [bit_eq_testBit, ← hbit]
  · intro h
    have h : v % 2 ^ 13 = 0 := by
      refine Nat.eq_of_testBit_eq fun i => ?_
      rw [Nat.testBit_mod_two_pow, Nat.zero_testBit, ← bit_eq_testBit]
      by_cases hi : i < 13
      · simp [h i (by omega)]
      · simp [hi]
    simpa [bits] using h

/-- Settles O3: with no field rail in warning the write rearms every octet, and with one in warning it is out of range. -/
theorem rearmWaitsForFieldRails : Obligations.RearmWaitsForFieldRails := by
  unfold Obligations.RearmWaitsForFieldRails
  intro s w hs
  refine ⟨fun h hm => ?_, fun r hr hb hm => ?_⟩
  · have heff : pwrRearmEffect (1 : Byte).toNat s.m = .ok (bwRearm s.m) := by
      rw [pwrRearmEffect, if_neg (by decide), if_pos (bits_rails.mpr h)]
    obtain ⟨hno, hal⟩ := Prod.mk.inj ((bwRearm_signals s.m).trans (congrArg₂ Prod.mk hs.2 hs.1))
    refine Goes.of_to (done_carried hm heff hal hno) fun o ho => ?_
    simpa using bwRearm_clears s.m o ho
  · have heff : pwrRearmEffect (1 : Byte).toNat s.m = .error .range := by
      rw [pwrRearmEffect, if_neg (by decide), if_neg]
      exact fun h => Bool.false_ne_true ((bits_rails.mp h r hr).symm.trans hb)
    exact done_turned hm heff

end Sys2Proof.Machine

/-! # O52: an assertion at the end of its tick

With one assertion in the tick, no arrival and no group, the end of the tick is the routing of that assertion: what follows it looks at
the sources and changes none. -/

namespace Sys2Proof.Machine

/-- What the routing of an assertion can change: the sources' records, what waits for the barrier, and objects. -/
def Mach.routed (m : Mach) : (List (Nat × Src) × List (Nat × Src)) × List Nat × Barrier × List (Nat × Nat) :=
  ((m.belF.src, m.belH.src), m.asserts, m.bar, m.regs)

/-- What the end of a tick does to the Belfries once the assertions have been routed (R405, R407, R408). -/
def belEnds (m : Mach) : Mach := belInth (belMsix (belGroups .host (belFieldGroups m)))

/-- The machine without the assertions that its Belfries have taken up. -/
def belTaken (m : Mach) : Mach :=
  { m with asserts := [], belF := { m.belF with arr := [] }, belH := { m.belH with arr := [] } }

theorem belTick_one {m : Mach} {id : Nat} (h : m.asserts = [id]) (hF : m.belF.arr = []) (hH : m.belH.arr = []) :
    belTick m = belEnds (belRoute id (belTaken m)) := by
  unfold belTick
  simp only [h, hF, hH, List.map_nil, List.append_nil, List.filter_nil]
  simp [sortNat, insertNat, Mach.each, belEnds, belTaken]

theorem belThaw_of_no_group {m : Mach} (h : m.belF.grp = []) : (belThaw m).belF.grp = [] ∧ (belThaw m).belH = m.belH ∧
    (belThaw m).routed = m.routed := by
  unfold belThaw
  split
  · exact ⟨by simp [h], rfl, rfl⟩
  · exact ⟨h, rfl, rfl⟩

theorem belGroups_of_no_group {s : Side} {m : Mach} (h : (m.bel s).grp = []) : belGroups s m = m := by
  rw [belGroups, h]; rfl

theorem belFieldGroups_of_no_group {m : Mach} (h : m.belF.grp = []) : (belFieldGroups m).belH = m.belH ∧
    (belFieldGroups m).routed = m.routed := by
  obtain ⟨hg, hb, hr⟩ := belThaw_of_no_group h
  unfold belFieldGroups
  split_ifs
  · exact ⟨rfl, rfl⟩
  · rw [belGroups_of_no_group (s := .field) hg]
    exact ⟨hb, hr⟩

theorem routed_belMsix (m : Mach) : (belMsix m).routed = m.routed := by
  have hsend : ∀ (l : List Nat) (n : Mach), (n.each l fun id m =>
      if cfgVec (m.src .host id).cfg ≠ 0 ∧ bit 2 (m.rd R.BEL_H_EXT_CFG) ∧ m.pwr.msixEn
        then m.send .msix [cfgVec (m.src .host id).cfg] else m).routed = n.routed :=
    each_keeps fun id m => by split_ifs <;> rfl
  exact hsend _ m

theorem routed_belInth (m : Mach) : (belInth m).routed = m.routed := by
  unfold belInth
  split_ifs <;> rfl

theorem routed_belEnds {m : Mach} (hF : m.belF.grp = []) (hH : m.belH.grp = []) : (belEnds m).routed = m.routed := by
  obtain ⟨hb, hr⟩ := belFieldGroups_of_no_group hF
  rw [belEnds, routed_belInth, routed_belMsix, belGroups_of_no_group (s := .host) (by rw [Mach.bel, hb, hH]), hr]

/-! ## Machines that are routed alike -/

section
variable {m n : Mach} (h : m.routed = n.routed)
include h

theorem src_of_routed (a : Side) (i : Nat) : m.src a i = n.src a i := by
  simp only [Mach.routed, Prod.mk.injEq] at h
  cases a <;> simp [Mach.src, Mach.bel, h]

theorem asserts_of_routed : m.asserts = n.asserts := by
  simp only [Mach.routed, Prod.mk.injEq] at h
  exact h.2.1

theorem rd_of_routed (o : Obj) : m.rd o = n.rd o := by
  simp only [Mach.routed, Prod.mk.injEq] at h
  simp [Mach.rd, h]

theorem barEnd_of_routed (s : Side) : m.barEnd s = n.barEnd s := by
  simp only [Mach.routed, Prod.mk.injEq] at h
  cases s <;> simp [Mach.barEnd, h]

end

/-! ## The routing of one assertion (R393 to R398) -/

theorem belRoute_none {m : Mach} {id : Nat} (h : srcAlive m id = false ∨ holdSide (cfgTarget (m.rd (srcCfgObj id))) = none) :
    belRoute id m = m := by
  unfold belRoute
  split_ifs with ha
  · simp only [h.resolve_left (by simp [ha])]
  · rfl

theorem belRoute_near {m : Mach} {id cfg : Nat} (ha : srcAlive m id = true) (hc : cfg = m.rd (srcCfgObj id))
    (hs : holdSide (cfgTarget cfg) = some (srcOwner id)) : belRoute id m = belHold (srcOwner id) id 1 cfg m := by
  subst hc
  simp [belRoute, ha, hs]

theorem belRoute_far {m : Mach} {id : Nat} (ha : srcAlive m id = true)
    (hs : holdSide (cfgTarget (m.rd (srcCfgObj id))) = some (Side.other (srcOwner id))) :
    belRoute id m = belForward (srcOwner id) id m := by
  have hne : Side.other (srcOwner id) ≠ srcOwner id := by cases srcOwner id <;> decide
  simp [belRoute, ha, hs, hne]

@[simp] theorem setSrc_same (s : Side) (i : Nat) (x : Src) (m : Mach) : (m.setSrc s i x).src s i = x := by
  cases s <;> exact mapGet_mapSet_same ..

theorem setSrc_ne {s a : Side} {i j : Nat} (h : a ≠ s ∨ j ≠ i) (x : Src) (m : Mach) : (m.setSrc s i x).src a j = m.src a j := by
  cases s <;> cases a <;> simp only [Mach.src, Mach.setSrc, Mach.setBel, Mach.bel, ne_eq, not_true_eq_false, false_or] at h ⊢
  all_goals exact mapGet_mapSet_ne h ..

/-- Where the source is not coalesced, a held assertion changes its record, and SAT counts. -/
theorem belHold_single {cfg : Nat} (h : cfgCoal cfg = false) (s : Side) (id : Nat) (m : Mach) : belHold s id 1 cfg m =
    (m.setSrc s id { m.src s id with
      pend := true
      cnt := min 15 ((m.src s id).cnt + 1)
      sat := (m.src s id).sat || decide (15 ≤ (m.src s id).cnt)
      cfg := cfg }).incBy (cntSat s) ((m.src s id).cnt + 1 - 15) := by
  have hlost : decide (0 < (m.src s id).cnt + 1 - 15) = decide (15 ≤ (m.src s id).cnt) := decide_eq_decide.mpr (by omega)
  simp only [belHold, h, hlost, Bool.false_and, Bool.false_eq_true, if_false]

@[simp] theorem setSrc_grp (s : Side) (i : Nat) (x : Src) (m : Mach) :
    (m.setSrc s i x).belF.grp = m.belF.grp ∧ (m.setSrc s i x).belH.grp = m.belH.grp := by
  cases s <;> exact ⟨rfl, rfl⟩

@[simp] theorem incBy_bel (o : Obj) (n : Nat) (m : Mach) : (m.incBy o n).belF = m.belF ∧ (m.incBy o n).belH = m.belH := by
  unfold Mach.incBy; split_ifs <;> exact ⟨rfl, rfl⟩

@[simp] theorem incBy_src (o : Obj) (n : Nat) (m : Mach) (a : Side) (i : Nat) : (m.incBy o n).src a i = m.src a i := by
  unfold Mach.incBy; split_ifs <;> rfl

theorem belForward_linked {owner : Side} {m : Mach} (h : m.linked owner = true) (he : (m.barEnd owner).evts = []) (id : Nat) :
    belForward owner id m = m.updEnd owner (fun e => { e with evts := [(id, 1)] }) := by
  simp [belForward, h, he, mergeEvt]

theorem belForward_lost {owner : Side} {m : Mach} (h : m.linked owner = false) (id : Nat) :
    belForward owner id m = m.inc (cntFwdLost owner) := by
  simp [belForward, h]

/-- An assertion that goes to the other side leaves both source tables and the groups as they are. -/
theorem belForward_keeps (owner : Side) (id : Nat) (m : Mach) :
    (belForward owner id m).belF = m.belF ∧ (belForward owner id m).belH = m.belH := by
  unfold belForward
  dsimp only
  split_ifs <;> simp

/-- What a tick with one assertion leaves is what its routing leaves, where that begins no group. -/
theorem routed_belTick {m n : Mach} {id : Nat} (h : m.asserts = [id]) (hF : m.belF.arr = []) (hH : m.belH.arr = [])
    (hn : belRoute id (belTaken m) = n) (gF : n.belF.grp = []) (gH : n.belH.grp = []) : (belTick m).routed = n.routed := by
  rw [belTick_one h hF hH, hn, routed_belEnds gF gH]

/-- No assertion is left over, whatever the groups do. -/
theorem asserts_belEnds (m : Mach) : (belEnds m).asserts = m.asserts := by
  have hfire (s : Side) (g : Nat) (m : Mach) : (belFire s g m).asserts = m.asserts := by
    simp only [belFire, Mach.inc_fields, Mach.setGrp_fields]
    exact each_keeps (g := Mach.asserts) (fun e m => by simp) _ m
  have hcheck (s : Side) (g : Nat) (m : Mach) : (belGroupCheck s g m).asserts = m.asserts := by
    unfold belGroupCheck
    dsimp only
    split
    · rfl
    · split_ifs <;> simp [hfire]
  have hgroups (s : Side) (m : Mach) : (belGroups s m).asserts = m.asserts := each_keeps (g := Mach.asserts) (hcheck s) _ m
  have hfield : (belFieldGroups m).asserts = m.asserts := by
    unfold belFieldGroups belThaw
    split_ifs
    · rfl
    · rw [hgroups]; split <;> rfl
  rw [belEnds, asserts_of_routed (routed_belInth _), asserts_of_routed (routed_belMsix _), hgroups, hfield]

/-- Settles O52: the tick leaves what the routing of its assertion leaves. -/
theorem assertionsTaken : Obligations.AssertionsTaken := by
  unfold Obligations.AssertionsTaken
  rintro m id cfg side h - rfl hcfg hF hH gF gH
  have hsrc (a : Side) (i : Nat) : (belTaken m).src a i = m.src a i := by cases a <;> rfl
  have htick {n : Mach} := routed_belTick (n := n) h hF hH
  refine ⟨?_, fun hnone a i => ?_, fun ha hs hc => ?_, fun ha hs => ?_⟩
  · rw [belTick_one h hF hH, asserts_belEnds]
    have hrest := (belStep_belRoute id (belTaken m)).rest
    simp only [hrest]
    rfl
  · have hn : belRoute id (belTaken m) = belTaken m := belRoute_none (hcfg ▸ hnone)
    rw [src_of_routed (htick hn gF gH), hsrc]
  · have hn := (belRoute_near (m := belTaken m) ha hcfg hs).trans (belHold_single hc ..)
    have hr := htick hn (by rw [(incBy_bel ..).1, (setSrc_grp ..).1]; exact gF) (by rw [(incBy_bel ..).2, (setSrc_grp ..).2]; exact gH)
    refine ⟨?_, fun a i hne => ?_⟩
    · rw [src_of_routed hr, incBy_src, setSrc_same, hsrc]
    · rw [src_of_routed hr, incBy_src, setSrc_ne hne, hsrc]
  · have hn := belRoute_far (m := belTaken m) ha (hcfg ▸ hs)
    obtain ⟨hbF, hbH⟩ := belForward_keeps (srcOwner id) id (belTaken m)
    have hr := htick hn (by rw [hbF]; exact gF) (by rw [hbH]; exact gH)
    refine ⟨fun a i => ?_, fun hl he => ?_, fun hl => ?_⟩
    · rw [src_of_routed hr, ← hsrc]
      cases a <;> simp [Mach.src, Mach.bel, hbF, hbH]
    · rw [barEnd_of_routed hr, belForward_linked (m := belTaken m) hl he, updEnd_same]
    · rw [rd_of_routed hr, belForward_lost (m := belTaken m) hl, rd_inc_same]
      rfl

end Sys2Proof.Machine

/-! # O22 and O2: the commands of the Belfries, and claims

A claim takes what `belBest` finds; in a table in rising order of ID that is the one source that no other claimable source passes. -/

namespace Sys2Proof.Machine

/-! ## O22: a frozen group does not fire -/

/-- A field group collects while Keep stands in a debug halt. -/
def frozenGroup : State :=
  { State.reset with m := { State.reset.m with belF := { grp := [(0, { start := some 0 })] } }.updCore 2 (fun c => { c with halted := true }) }

/-- Refutes O22: the fire of a field group is stated without the Keep debug halt, in which R411 has the field Belfry stopped and its
state frozen; there GROUP_FIRE changes nothing, and the group keeps its start. -/
theorem not_belfryCommands : ¬ Obligations.BelfryCommands := by
  unfold Obligations.BelfryCommands
  intro h
  obtain ⟨-, -, -, hfire, -⟩ := h frozenGroup .keep .field ⟨rfl, rfl⟩
  obtain ⟨t, ht, -, hgrp, -⟩ := hfire 0 rfl rfl
  have hstays : exec (.groupFire .field 0) frozenGroup = .next frozenGroup := done_quiet rfl rfl rfl
  cases hstays.symm.trans ht
  exact absurd hgrp (by decide)

/-! ## The order of a source table -/

theorem pairwise_of_mapSorted {α : Type} {l : List (Nat × α)} (h : mapSorted l = true) : l.Pairwise (fun a b => a.1 < b.1) := by
  induction l with
  | nil => exact .nil
  | cons e l ih => exact .cons (mapSorted_all h) (ih (mapSorted_tail h))

/-- Source e is not passed by another of the list: none has a higher PRIO, and none of the same PRIO a lower ID (R402). -/
def Leading (l : List (Nat × Src)) (e : Nat × Src) : Prop :=
  ∀ f ∈ l, cfgPrio f.2.cfg < cfgPrio e.2.cfg ∨ (cfgPrio f.2.cfg = cfgPrio e.2.cfg ∧ e.1 ≤ f.1)

theorem belBest_eq_none {l : List (Nat × Src)} : belBest l = none ↔ l = [] := by
  cases l with
  | nil => simp [belBest]
  | cons e l =>
    simp only [belBest, reduceCtorEq, iff_false]
    split
    · simp
    · split_ifs <;> simp

/-- In a list in rising order of ID the best source is the leading one. -/
theorem belBest_leads {l : List (Nat × Src)} (hl : l.Pairwise (fun a b => a.1 < b.1)) {b : Nat × Src} (h : belBest l = some b) :
    b ∈ l ∧ Leading l b := by
  induction l generalizing b with
  | nil => cases h
  | cons e l ih =>
    obtain ⟨hlt, hl⟩ := List.pairwise_cons.mp hl
    rw [belBest] at h
    split at h
    next hn =>
      cases h
      rw [belBest_eq_none] at hn
      subst hn
      exact ⟨List.mem_cons_self, by simp [Leading]⟩
    next c hc =>
      obtain ⟨hmem, hlead⟩ := ih hl hc
      split_ifs at h with hp <;> cases h
      · refine ⟨List.mem_cons_of_mem _ hmem, List.forall_mem_cons.mpr ⟨.inl hp, hlead⟩⟩
      · refine ⟨List.mem_cons_self, List.forall_mem_cons.mpr ⟨.inr ⟨rfl, le_rfl⟩, fun f hf => ?_⟩⟩
        have := hlt f hf
        obtain h1 | ⟨h1, -⟩ := hlead f hf <;> omega

theorem belBest_of_leading {l : List (Nat × Src)} (hl : l.Pairwise (fun a b => a.1 < b.1)) {e : Nat × Src} (he : e ∈ l)
    (h : Leading l e) : belBest l = some e := by
  cases hb : belBest l with
  | none =>
    rw [belBest_eq_none] at hb
    subst hb
    cases he
  | some b =>
    obtain ⟨hmem, hlead⟩ := belBest_leads hl hb
    have hkey : b.1 = e.1 := by
      have h1 := h b hmem
      have h2 := hlead e he
      omega
    have hnodup : (l.map (·.1)).Nodup := List.pairwise_map.mpr (hl.imp fun h => h.ne)
    rw [List.inj_on_of_nodup_map hnodup hmem he hkey]

/-! ## Claims and peeks (R401, R402) -/

section
variable {s : State} {core : Fin 3}

/-- The sources of a class that a core can claim, in rising order of ID. -/
theorem belClaimable_sorted {m : Mach} (h : mapSorted (m.bel (coreSide core)).src = true) (fast : Bool) :
    (belClaimable m (coreSide core) (coreTarget core) fast).Pairwise (fun a b => a.1 < b.1) := (pairwise_of_mapSorted h).filter _

theorem belClaim_of_best {m : Mach} {fast : Bool} {e : Nat × Src}
    (h : belBest (belClaimable m (coreSide core) (coreTarget core) fast) = some e) : belClaim core fast m =
      (claimWord e.1 e.2, m.setSrc (coreSide core) e.1 { e.2 with
        pend := false, cnt := 0, sat := false, rel := false, svc := coreTarget core }) := by
  simp only [belClaim, h]

theorem belClaim_none {m : Mach} {fast : Bool} (h : belClaimable m (coreSide core) (coreTarget core) fast = []) :
    belClaim core fast m = (0x3FF, m.inc (cntSpur (coreSide core))) := by
  simp only [belClaim, h, belBest]

/-- An access that a core may make is carried out. -/
theorem coreAt_may {kind addr : Nat} (h : MayCore core kind addr s) (f : Mach → Mach) : coreAt core kind addr f s.m = f s.m := by
  simp [coreAt, h.1, h.2]

/-- A quiet access of a core answers its effect. -/
theorem to_coreAt {c : Instr} {kind addr : Nat} {f : Mach → Mach} {m : Mach} (hs : Settled s) (h : MayCore core kind addr s)
    (hc : exec c s = done (coreAt core kind addr f) s) (hf : f s.m = m) (hq : m.alarms = s.m.alarms ∧ m.notes = s.m.notes) :
    To c s m := by
  rw [To, hc]
  exact done_quiet ((coreAt_may h f).trans hf) (hq.1.trans hs.1) (hq.2.trans hs.2)

theorem belPeek_of_best {m : Mach} {fast : Bool} {e : Nat × Src}
    (h : belBest (belClaimable m (coreSide core) (coreTarget core) fast) = some e)
    (ho : ∀ f, belBest (belClaimable m (coreSide core) (coreTarget core) (!fast)) = some f →
      cfgPrio f.2.cfg < cfgPrio e.2.cfg ∨ (fast = true ∧ cfgPrio f.2.cfg = cfgPrio e.2.cfg)) :
    belPeek core m = claimWord e.1 e.2 := by
  unfold belPeek
  dsimp only
  cases fast with
  | true =>
    rw [Bool.not_true] at ho
    rw [h]
    cases hb : belBest (belClaimable m (coreSide core) (coreTarget core) false) with
    | none => rfl
    | some f => exact if_neg (by have := ho f hb; omega)
  | false =>
    rw [Bool.not_false] at ho
    rw [h]
    cases hb : belBest (belClaimable m (coreSide core) (coreTarget core) true) with
    | none => rfl
    | some f => exact if_pos (by have := ho f hb; simpa using this)

end

/-- Settles O2: the table stands in rising order, so a claim and a peek find the leading source. -/
theorem claimTakesHighestPriority : Obligations.ClaimTakesHighestPriority := by
  unfold Obligations.ClaimTakesHighestPriority
  rintro s core side near hs rfl hsorted rfl
  have hbest {fast : Bool} {e : Nat × Src} (he : e ∈ belClaimable s.m (coreSide core) (coreTarget core) fast)
      (hlead : Leading (belClaimable s.m (coreSide core) (coreTarget core) fast) e) :=
    belBest_of_leading (belClaimable_sorted hsorted fast) he hlead
  refine ⟨fun e he hlead hm => ?_, fun e he hlead hm => ?_, fun hn hm => ?_, fun hn hm => ?_, fun hm => ⟨fun fast e he hlead hother => ?_, fun hf hn => ?_⟩⟩
  · exact to_coreAt hs hm rfl (by rw [belClaim_of_best (hbest he hlead)]; rfl) (by simp)
  · exact to_coreAt hs hm rfl (by rw [belClaim_of_best (hbest he hlead)]; rfl) (by simp)
  · exact to_coreAt hs hm rfl (by rw [belClaim_none hn]; rfl) (by simp)
  · exact to_coreAt hs hm rfl (by rw [belClaim_none hn]; rfl) (by simp)
  · have hpeek := belPeek_of_best (hbest he hlead) fun f hf =>
      hother f (belBest_leads (belClaimable_sorted hsorted _) hf).1
    exact to_coreAt hs hm rfl (by rw [hpeek]; rfl) (by simp)
  · have hpeek : belPeek core s.m = 0x3FF := by simp only [belPeek, hf, hn, belBest]
    exact to_coreAt hs hm rfl (by rw [hpeek]; rfl) (by simp)

end Sys2Proof.Machine

/-! # O6, O7, O40, O41 and O42: the cores

An instruction that may be fetched does what `Insn.exec` says of its word. What then holds of a core that retires, enters a level or
takes a fault is said once; the statements read it off. -/

namespace Sys2Proof.Machine

/-! ## One core changes -/

/-- Nothing but core i changed. -/
def CoreStep (i : Nat) (m0 m : Mach) : Prop := (∀ j, j ≠ i → m.core j = m0.core j) ∧ { m with cores := m0.cores } = m0

section
variable {i : Nat} {m0 m : Mach}

theorem CoreStep.refl (i : Nat) (m : Mach) : CoreStep i m m := ⟨fun _ _ => rfl, rfl⟩

theorem CoreStep.setCore (h : CoreStep i m0 m) (c : Core) : CoreStep i m0 (m.setCore i c) :=
  ⟨fun j hj => (m.setCore_ne hj c).trans (h.1 j hj), h.2⟩

theorem CoreStep.updCore (h : CoreStep i m0 m) (f : Core → Core) : CoreStep i m0 (m.updCore i f) := h.setCore _

theorem CoreStep.quiet (h : CoreStep i m0 m) : m.alarms = m0.alarms ∧ m.notes = m0.notes := by
  rw [← h.2]; exact ⟨rfl, rfl⟩

theorem CoreStep.only {c : Core} (h : CoreStep i m0 m) (hc : m.core i = c) : CoreOnly i c m0 m := ⟨hc, h.1, h.2⟩

end

/-! ## A word that may be fetched (R365, R384) -/

/-- The instruction of a fetched word. -/
def insnAt (core : Fin 3) (w v : Nat) : Insn := ⟨core, .clean, v, insnLen w, insnRaw w⟩

section
variable {s : State} {core : Fin 3} {w : Nat}

theorem fetchBar_of_fetches (h : Fetches core w s) : fetchBar s.m core w = none := by
  obtain ⟨-, h1, h2⟩ := h
  unfold fetchBar wordLen
  have hlt := (s.m.core core).pc.isLt
  split_ifs with hw
  · simpa [h1] using h2 hw
  · simp [h1, Nat.mod_eq_of_lt hlt]

theorem coreInsn_of_fetches {v : Nat} (h : Fetches core w s) (hw : w < 2 ^ 32) (hv : insnWord w = some v) :
    coreInsn core w .clean s.m = (insnAt core w v).exec s.m := by
  have hraw : (if wordLen w = 4 then w % 2 ^ 32 else w % 2 ^ 16) = insnRaw w := by
    unfold wordLen insnRaw
    split_ifs <;> omega
  unfold coreInsn
  simp only [fetchBar_of_fetches h, hv, hraw, reduceCtorEq, if_false]
  rfl

theorem eccSeen_clean (i : Fin 3) (w : Nat) (m : Mach) : eccSeen i w .clean m = m := rfl

/-- An instruction that retires. -/
theorem runWord_ok {m : Mach} (hl : coreLive s.m core = true) (h : coreInsn core w .clean s.m = .ok m) :
    runWord core w .clean s = done (fun _ => endStep core.val (s.m.core core).step m) s := by
  unfold runWord
  rw [eccSeen_clean, h]
  simp [hl]

/-- An instruction that faults. -/
theorem runWord_fault {cls code info : Nat} (hl : coreLive s.m core = true)
    (h : coreInsn core w .clean s.m = .error (.fault cls code info)) : runWord core w .clean s =
      done (fun m => endStep core.val (m.core core).step (coreStops core cls code info m)) s := by
  unfold runWord
  rw [eccSeen_clean, h]
  simp only [hl, Bool.not_true, Bool.false_eq_true, if_false, eccSeen_clean]

theorem runKind_of {kind : Nat → Bool} {v : Nat} (hv : insnWord w = some v) (h : kind v = true) :
    runKind kind core w s = runWord core w .clean s := by
  have hw : wordOr0 w = v := by simp [wordOr0, hv]
  rw [runKind, hw, if_pos h]

end

/-! ## The end of an instruction (R389) -/

@[simp] theorem endStep_fields (i : Nat) (b : Bool) (m : Mach) :
    (endStep i b m).alarms = m.alarms ∧ (endStep i b m).notes = m.notes ∧ (endStep i b m).keepMem = m.keepMem ∧
    (endStep i b m).hostMem = m.hostMem ∧ (endStep i b m).regs = m.regs := by
  unfold endStep
  split_ifs <;> simp [Mach.updCore, Mach.setCore]

@[simp] theorem endStep_rd (i : Nat) (b : Bool) (m : Mach) (o : Obj) : (endStep i b m).rd o = m.rd o := by
  rw [Mach.rd, (endStep_fields i b m).2.2.2.2, Mach.rd]

theorem CoreStep.endStep {i : Nat} {m0 m : Mach} (h : CoreStep i m0 m) (b : Bool) : CoreStep i m0 (endStep i b m) := by
  unfold Machine.endStep
  split_ifs
  · exact h.updCore _
  · exact h

/-- A core at the end of an instruction: halted and clocked where a STEP ends (R389). -/
def Core.stepEnd (b : Bool) (c : Core) : Core := if b then { c with step := false, halted := true, gated := false } else c

theorem endStep_core (i : Nat) (b : Bool) (m : Mach) : (endStep i b m).core i = (m.core i).stepEnd b := by
  unfold endStep Core.stepEnd
  split_ifs
  · exact m.updCore_same i _
  · rfl

/-- The core as an instruction has left it before a STEP ends. -/
def stepped (d : Core) (pc : Word) : Core := { d with pc := pc, instret := (d.instret + 1) % 2 ^ 64 }

theorem endStep_retired {i : Nat} {m : Mach} {d : Core} {pc : Word} {b : Bool} (hb : d.step = b) (h : m.core i = stepped d pc) :
    (endStep i b m).core i = retired d pc := by
  subst hb
  rw [endStep_core, h]
  cases hd : d.step <;> simp [stepped, retired, Core.stepEnd, hd]

section
variable {s : State} {core : Fin 3} {w : Nat} {c : Instr}

/-- A command that runs an instruction which retires quietly. -/
theorem to_insn {m : Mach} (hs : Settled s) (hc : exec c s = runWord core w .clean s) (hl : coreLive s.m core = true)
    (h : coreInsn core w .clean s.m = .ok m) (hq : m.alarms = s.m.alarms ∧ m.notes = s.m.notes) :
    To c s (endStep core.val (s.m.core core).step m) := by
  rw [To, hc, runWord_ok hl h]
  exact done_quiet rfl (by simp [hq.1, hs.1]) (by simp [hq.2, hs.2])

/-- An instruction that changes its core alone. -/
theorem goes_retired {m : Mach} {d : Core} {pc : Word} (hs : Settled s) (hc : exec c s = runWord core w .clean s)
    (hl : coreLive s.m core = true) (h : coreInsn core w .clean s.m = .ok m) (hm : CoreStep core s.m m)
    (hd : d.step = (s.m.core core).step) (hcore : m.core core = stepped d pc) : Goes c s (CoreOnly core (retired d pc) s.m) :=
  Goes.of_to (to_insn hs hc hl h hm.quiet) ((hm.endStep _).only (endStep_retired hd hcore))

end

end Sys2Proof.Machine

/-! ## Entries and faults of a core (R366, R367, R371, R373, R374) -/

namespace Sys2Proof.Machine

section
variable {c d : Core} {n k : Nat}

theorem csrGet_csrSet (v : Word) : (c.csrSet n v).csrGet k = if k = n then v else c.csrGet k := by
  split_ifs with h
  · exact h ▸ mapGet_mapSet_same ..
  · exact mapGet_mapSet_ne h ..

theorem stackCsr_cases (l : Nat) : stackCsr l = 0x516 ∨ stackCsr l = 0x716 := by unfold stackCsr; split_ifs <;> simp

/-- An exchange of stack pointers changes x2 and the saved one alone. -/
theorem swapStack_does (l : Nat) :
    (∀ k, (c.swapStack l).csrGet k = if k = stackCsr l then mapGet 0 2 c.x else c.csrGet k) ∧
    mapGet 0 2 (c.swapStack l).x = c.csrGet (stackCsr l) ∧ ∀ r, r ≠ 2 → mapGet 0 r (c.swapStack l).x = mapGet 0 r c.x :=
  ⟨fun _ => csrGet_csrSet _, mapGet_mapSet_same .., fun _ hr => mapGet_mapSet_ne hr ..⟩

/-- The save set of an entry as it is written. -/
def Core.saved (cls l code info : Nat) (resume : Word) (c : Core) : Core :=
  (((c.csrSet (saveBase (decide (6 ≤ cls)) l) (resume &&& 0xFFFFFFFE)).csrSet (saveBase (decide (6 ≤ cls)) l + 1)
    (statusWord (decide (l ≠ c.lvl)) c.fast c.xmask c.lvl)).csrSet (saveBase (decide (6 ≤ cls)) l + 2)
    (BitVec.ofNat 32 (cls * 2 ^ 28 + code))).csrSet (saveBase (decide (6 ≤ cls)) l + 3) (BitVec.ofNat 32 info)

section
variable {cls l code info : Nat} {resume : Word}

/-- The save sets lie apart from the saved stack pointers. -/
theorem saved_stack (j : Nat) : (c.saved cls l code info resume).csrGet (stackCsr j) = c.csrGet (stackCsr j) := by
  have hb : saveBase (decide (6 ≤ cls)) l ∈ [0x720, 0x510, 0x710] := by unfold saveBase; split_ifs <;> simp
  simp only [List.mem_cons, List.not_mem_nil, or_false] at hb
  obtain hj | hj := stackCsr_cases j <;> obtain hb | hb | hb := hb <;> simp [Core.saved, csrGet_csrSet, hj, hb]

/-- An entry's control registers. -/
theorem csrGet_entry (k : Nat) : (c.entry cls l code info resume).csrGet k =
    if l ≠ c.lvl ∧ k = stackCsr l then mapGet 0 2 c.x else (c.saved cls l code info resume).csrGet k := by
  by_cases hl : l = c.lvl
  · simp [Core.entry, Core.csrGet, hl, Core.saved]
  · have h : (c.entry cls l code info resume).csrGet k = ((c.saved cls l code info resume).swapStack l).csrGet k := by
      simp [Core.entry, Core.csrGet, hl, Core.saved]
    rw [h, (swapStack_does l).1]
    simp [hl, Core.saved, Core.csrSet]

/-- An entry's general registers. -/
theorem x_entry : (c.entry cls l code info resume).x = if l ≠ c.lvl then mapSet 0 2 (c.csrGet (stackCsr l)) c.x else c.x := by
  by_cases hl : l = c.lvl
  · simp [Core.entry, hl, Core.csrSet]
  · rw [← saved_stack (cls := cls) (l := l) (code := code) (info := info) (resume := resume) l]
    simp [Core.entry, hl, Core.csrSet, Core.saved, Core.swapStack]

theorem entered_entry : Entered cls l code info resume c (c.entry cls l code info resume) := by
  have hbase : saveBase (decide (6 ≤ cls)) l = if 6 ≤ cls then 0x720 else if l = 1 then 0x510 else 0x710 := by simp [saveBase]
  have hcsr (k : Nat) (hk : k ∈ [0, 1, 2, 3]) : (c.entry cls l code info resume).csrGet (saveBase (decide (6 ≤ cls)) l + k) =
      (c.saved cls l code info resume).csrGet (saveBase (decide (6 ≤ cls)) l + k) := by
    rw [csrGet_entry, if_neg]
    rintro ⟨-, h⟩
    simp only [List.mem_cons, List.not_mem_nil, or_false] at hk
    revert h
    unfold saveBase stackCsr
    split_ifs <;> omega
  unfold Entered
  rw [← hbase]
  refine ⟨(hcsr 0 (by simp)).trans ?_, (hcsr 1 (by simp)).trans ?_, (hcsr 2 (by simp)).trans ?_, (hcsr 3 (by simp)).trans ?_,
    rfl, ?_, ?_, rfl, rfl, rfl, rfl, fun hl => ⟨?_, ?_⟩, fun hl => ?_⟩
  · simp [Core.saved, csrGet_csrSet]
  · simp [Core.saved, csrGet_csrSet]
  · simp [Core.saved, csrGet_csrSet]
  · simp [Core.saved, csrGet_csrSet]
  · by_cases hl : l = c.lvl <;> simp [Core.entry, hl, Core.csrSet, Core.swapStack]
  · by_cases hl : l = c.lvl <;> simp [Core.entry, hl, Core.csrSet, Core.swapStack]
  · simp [csrGet_entry, hl]
  · rw [x_entry, if_pos hl, mapGet_mapSet_same]
  · simp [x_entry, hl]

/-- What an entry leaves of a core. -/
theorem entry_leaves : (∀ j, (c.entry cls l code info resume).ss j = c.ss j) ∧ (c.entry cls l code info resume).instret = c.instret ∧
    (c.entry cls l code info resume).c7 = c.c7 ∧ ∀ r, r ≠ 2 → mapGet 0 r (c.entry cls l code info resume).x = mapGet 0 r c.x := by
  refine ⟨fun j => ?_, ?_, ?_, fun r hr => ?_⟩
  · by_cases hl : l = c.lvl <;> simp [Core.entry, hl, Core.csrSet, Core.swapStack, Core.ss]
  · by_cases hl : l = c.lvl <;> simp [Core.entry, hl, Core.csrSet, Core.swapStack]
  · by_cases hl : l = c.lvl <;> simp [Core.entry, hl, Core.csrSet, Core.swapStack]
  · rw [x_entry]
    split_ifs
    · exact mapGet_mapSet_ne hr ..
    · rfl

/-- The end of a STEP leaves an entry an entry. -/
theorem entered_stop (b : Bool) (h : Entered cls l code info resume c d) :
    Entered cls l code info resume c (d.stepEnd b) := by
  cases b with
  | false => exact h
  | true =>
    obtain ⟨h1, h2, h3, h4, h5, h6, h7, h8, h9, h10, -, h11⟩ := h
    exact ⟨h1, h2, h3, h4, h5, h6, h7, h8, h9, h10, rfl, h11⟩

end

end

end Sys2Proof.Machine

/-! # The safety monitor's operations (R478, R488, R491, R502, R504)

What entering the safe state, a record, an event and a status report leave of the machine. -/

namespace Sys2Proof.Machine

/-! ## What lies off the monitor's reports -/

/-- The machine but for its objects, what a report queues, and the octets, which a safe-state entry stops. -/
def Mach.aside (m : Mach) : Mach :=
  { m with
    regs := [], incNow := [], setNow := [], asserts := [], octets := []
    pwr := { m.pwr with gov := [], asked := [] }
    saf := { m.saf with logQ := [], logSeq := 0, kaFrom := none }
    bar := { m.bar with status := none, f := { m.bar.f with queue := [] } } }

section
variable {m m1 : Mach}

/-- What machines that are alike aside share. -/
theorem eq_of_aside (h : m1.aside = m.aside) :
    m1.cores = m.cores ∧ m1.tb = m.tb ∧ (m1.keepMem = m.keepMem ∧ m1.hostMem = m.hostMem) ∧
    (m1.saf.latchA = m.saf.latchA ∧ m1.saf.latchB = m.saf.latchB) ∧
    (m1.saf.wdrAt = m.saf.wdrAt ∧ m1.saf.diagStart = m.saf.diagStart ∧ m1.saf.test = m.saf.test ∧ m1.saf.relAt = m.saf.relAt ∧
      m1.saf.ss1Start = m.saf.ss1Start ∧ m1.saf.causeAt = m.saf.causeAt) ∧
    (m1.alarms = m.alarms ∧ m1.notes = m.notes) ∧ m1.bar.cstop = m.bar.cstop ∧ m1.barState .field = m.barState .field ∧
    m1.pwr.fSleep = m.pwr.fSleep := by
  have hm {α : Type} (f : Mach → α) : f m1.aside = f m.aside := congrArg f h
  exact ⟨hm (·.cores), hm (·.tb), ⟨hm (·.keepMem), hm (·.hostMem)⟩, ⟨hm (·.saf.latchA), hm (·.saf.latchB)⟩,
    ⟨hm (·.saf.wdrAt), hm (·.saf.diagStart), hm (·.saf.test), hm (·.saf.relAt), hm (·.saf.ss1Start), hm (·.saf.causeAt)⟩,
    ⟨hm (·.alarms), hm (·.notes)⟩, hm (·.bar.cstop), hm (·.bar.f.st), hm (·.pwr.fSleep)⟩

@[simp] theorem aside_wr (o : Obj) (v : Nat) (m : Mach) : (m.wr o v).aside = m.aside := rfl

@[simp] theorem aside_inc (o : Obj) (m : Mach) : (m.inc o).aside = m.aside := rfl

@[simp] theorem aside_safRaise (b : Nat) (m : Mach) : (safRaise b m).aside = m.aside := by
  unfold safRaise Mach.raise
  extract_lets m1
  split_ifs <;> rfl

@[simp] theorem aside_safLog (kind code aux detail : Nat) (m : Mach) : (safLog kind code aux detail m).aside = m.aside := by
  unfold safLog
  split_ifs
  · simp
  · rfl

@[simp] theorem aside_statusSync (m : Mach) : (statusSync m).aside = m.aside := by
  unfold statusSync
  extract_lets m1 c
  split_ifs
  · rfl
  · unfold linkQueue
    split_ifs <;> rfl

theorem aside_octRunOff (o : Nat) (m : Mach) : (octRunOff o m).aside = m.aside := by
  have hdark (m : Mach) : (octDark o 0xFF m).aside = m.aside := by
    unfold octDark openBlank
    dsimp only
    split_ifs <;> rfl
  have hcarry (m : Mach) : (clearCarries o m).aside = m.aside :=
    each_keeps (g := Mach.aside) (fun j m => aside_wr ..) _ m
  unfold octRunOff octStop
  extract_lets m1 m2 m3 m4 c
  calc (m4.wr (R.TRP_LATCH_CAUSE o) (c - c % 8)).aside = m4.aside := aside_wr ..
    _ = m3.aside := hcarry m3
    _ = m2.aside := rfl
    _ = m1.aside := hdark m1
    _ = m.aside := rfl

/-! ## Objects -/

theorem safRaise_rd {o : Obj} (h : o.key ≠ R.SAF_EVT.key) (b : Nat) (m : Mach) : (safRaise b m).rd o = m.rd o := rd_raise h

@[simp] theorem safRaise_evt (b : Nat) (m : Mach) : (safRaise b m).rd R.SAF_EVT = setBit b (m.rd R.SAF_EVT) := rd_raise_same

/-- A record changes no object but those that tell of its loss. -/
theorem safLog_rd {o : Obj} (h : o.key ∉ [R.SAF_EVT.key, R.SAF_CNT_LOG_LOST.key]) (kind code aux detail : Nat) (m : Mach) :
    (safLog kind code aux detail m).rd o = m.rd o := by
  simp only [List.mem_cons, List.not_mem_nil, or_false, not_or] at h
  unfold safLog
  split_ifs
  · rw [safRaise_rd h.1, rd_inc_ne h.2]
  · rfl

/-- A record leaves every event bit that is set. -/
theorem safLog_evt (kind code aux detail : Nat) (m : Mach) : (safLog kind code aux detail m).rd R.SAF_EVT = m.rd R.SAF_EVT ∨
    (safLog kind code aux detail m).rd R.SAF_EVT = setBit 7 (m.rd R.SAF_EVT) := by
  unfold safLog
  split_ifs
  · right
    rw [safRaise_evt, rd_inc_ne (by decide)]
  · exact .inl rfl

@[simp] theorem statusSync_rd (o : Obj) (m : Mach) : (statusSync m).rd o = m.rd o := by
  unfold statusSync
  extract_lets m1 c
  split_ifs
  · rfl
  · rw [linkQueue_rd]; rfl

theorem octRunOff_rd {o : Nat} (ho : o < 16) {p : Obj} (hp : p.key < 0x340000 ∨ 0x352000 ≤ p.key) (m : Mach) :
    (octRunOff o m).rd p = m.rd p := by
  have hcarry (m : Mach) : (clearCarries o m).rd p = m.rd p := each_keeps_of (g := fun m => m.rd p)
    (fun j hj m => rd_wr_ne (by
      have := List.mem_range.mp hj
      simp only [Obj.key, R.PWM_CARRY] at hp ⊢; omega) m 0) m
  unfold octRunOff octStop
  extract_lets m1 m2 m3 m4 c
  calc (m4.wr (R.TRP_LATCH_CAUSE o) (c - c % 8)).rd p = m4.rd p := rd_wr_ne (by simp only [Obj.key, R.TRP_LATCH_CAUSE] at hp ⊢; omega) ..
    _ = m2.rd p := hcarry m3
    _ = m1.rd p := octDark_rd 0xFF m1 p
    _ = (m.wr (R.PWM_RUN o) 0).rd p := rfl
    _ = m.rd p := rd_wr_ne (by simp only [Obj.key, R.PWM_RUN] at hp ⊢; omega) m 0

end

/-! ## Entry (R478) -/

/-- Both latches are de-asserted, and no test pulse and no controlled stop is left. -/
def asserted (m : Mach) : Mach :=
  { m with
    saf := { m.saf with latchA := true, latchB := true, test := none }
    bar := { m.bar with cstop := none } }

theorem aside_asserted (m : Mach) : (asserted m).aside = asserted m.aside := rfl

/-- The entry to the safe state up to what Keep is told of it. -/
def entering (s : Nat) (m : Mach) : Mach :=
  safRaise 0 (((((asserted m).each (List.range 16) (fun o m => octRunOff o m)).wr R.SAF_STATE 1).wr R.SAF_CAUSE s).wr R.SAF_ENTRY_TIME
    m.now |>.inc R.SAF_CNT_ENTRY)

theorem safeEnter_eq (s : Nat) (m : Mach) : safeEnter s m = statusSync (safLog 1 s 0 0
    (if s = 0 ∨ s = 1 ∨ s = 7 then causeRestart s (entering s m) else (entering s m).class7 2 (0x200 + s))) := rfl

theorem aside_entering (s : Nat) (m : Mach) : (entering s m).aside = (asserted m).aside := by
  unfold entering
  rw [aside_safRaise, aside_inc, aside_wr, aside_wr, aside_wr]
  exact each_keeps (g := Mach.aside) aside_octRunOff _ _

/-- The objects of an entry. -/
theorem entering_rd (s : Nat) (m : Mach) : (entering s m).rd R.SAF_STATE = 1 ∧ (entering s m).rd R.SAF_CAUSE = s ∧
    (entering s m).rd R.SAF_ENTRY_TIME = m.now ∧ (entering s m).rd R.SAF_CNT_ENTRY = min 0xFFFFFFFF (m.rd R.SAF_CNT_ENTRY + 1) ∧
    ∀ o : Obj, o.key ∉ [R.SAF_STATE.key, R.SAF_CAUSE.key, R.SAF_ENTRY_TIME.key, R.SAF_CNT_ENTRY.key, R.SAF_EVT.key] →
      (o.key < 0x340000 ∨ 0x352000 ≤ o.key) → (entering s m).rd o = m.rd o := by
  have hoff (o : Obj) (ho : o.key < 0x340000 ∨ 0x352000 ≤ o.key) (n : Mach) :
      (n.each (List.range 16) (fun o m => octRunOff o m)).rd o = n.rd o :=
    each_keeps_of (g := fun n => n.rd o) (fun _ h n => octRunOff_rd (List.mem_range.mp h) ho n) n
  unfold entering
  refine ⟨?_, ?_, ?_, ?_, fun o ho hoct => ?_⟩
  · rw [safRaise_rd (by decide), rd_inc_ne (by decide), rd_wr_ne (by decide), rd_wr_ne (by decide), rd_wr_same]
  · rw [safRaise_rd (by decide), rd_inc_ne (by decide), rd_wr_ne (by decide), rd_wr_same]
  · rw [safRaise_rd (by decide), rd_inc_ne (by decide), rd_wr_same]
  · rw [safRaise_rd (by decide), rd_inc_same, rd_wr_ne (by decide), rd_wr_ne (by decide), rd_wr_ne (by decide), hoff _ (by decide)]
    rfl
  · simp only [List.mem_cons, List.not_mem_nil, or_false, not_or] at ho
    obtain ⟨h1, h2, h3, h4, h5⟩ := ho
    rw [safRaise_rd h5, rd_inc_ne h4, rd_wr_ne h3, rd_wr_ne h2, rd_wr_ne h1, hoff _ hoct]
    rfl

end Sys2Proof.Machine

/-! ## A cause takes effect (R488, R491) -/

namespace Sys2Proof.Machine

/-! ### A release of the tick is taken back (R491) -/

/-- The latches are de-asserted again, and the record and the event of the release are withdrawn. -/
def latchedAgain (m : Mach) : Mach :=
  { m with
    saf := { m.saf with latchA := true, latchB := true, relAt := none, logQ := m.saf.logQ.map (recordTurned m.now) }
    asserts := if bit 1 (m.rd R.SAF_EVT_EN) then m.asserts.erase 372 else m.asserts }

/-- The objects of a release read again as they did before it, what has been latched since included. -/
def unreleased (latched evt cnt : Nat) (m : Mach) : Mach :=
  let m2 := ((latchedAgain m).wr R.SAF_LATCHED (latched ||| m.rd R.SAF_LATCHED)).wr R.SAF_STATE 1
  let m3 := if cnt = 0xFFFFFFFF then m2 else m2.wr R.SAF_CNT_RELEASE (m2.rd R.SAF_CNT_RELEASE - 1)
  if bit 1 evt then m3 else m3.wr R.SAF_EVT (clrBit 1 (m3.rd R.SAF_EVT))

theorem releaseBack_of {m : Mach} {latched evt cnt : Nat} (h : m.saf.relAt = some (m.now, latched, evt, cnt)) :
    releaseBack m = statusSync (safRaise 2 ((unreleased latched evt cnt m).inc R.SAF_CNT_REL_REFUSED)) := by
  unfold releaseBack
  rw [h]
  simp only [ne_eq, not_true_eq_false, if_false]
  rfl

theorem releaseBack_none {m : Mach} (h : releasedNow m = false) : releaseBack m = m := by
  unfold releaseBack
  split
  next t latched evt cnt hrel =>
    rw [releasedNow, hrel] at h
    rw [if_pos (by simpa using h)]
  next => rfl

theorem releaseBack_cases (m : Mach) : releaseBack m = m ∨ ∃ latched evt cnt,
    releaseBack m = statusSync (safRaise 2 ((unreleased latched evt cnt m).inc R.SAF_CNT_REL_REFUSED)) := by
  rcases hrel : m.saf.relAt with _ | ⟨t, latched, evt, cnt⟩
  · exact .inl (releaseBack_none (by simp [releasedNow, hrel]))
  · by_cases ht : t = m.now
    · exact .inr ⟨latched, evt, cnt, releaseBack_of (ht ▸ hrel)⟩
    · exact .inl (releaseBack_none (by simp [releasedNow, hrel, ht]))

theorem unreleased_rd {o : Obj} (h : o.key ∉ [R.SAF_LATCHED.key, R.SAF_STATE.key, R.SAF_CNT_RELEASE.key, R.SAF_EVT.key])
    (latched evt cnt : Nat) (m : Mach) : (unreleased latched evt cnt m).rd o = m.rd o := by
  simp only [List.mem_cons, List.not_mem_nil, or_false, not_or] at h
  obtain ⟨h1, h2, h3, h4⟩ := h
  unfold unreleased
  extract_lets m2 m3
  have hm2 : m2.rd o = m.rd o := by
    unfold m2
    rw [rd_wr_ne h2, rd_wr_ne h1]
    rfl
  have hm3 : m3.rd o = m.rd o := by
    unfold m3
    split_ifs
    · exact hm2
    · rw [rd_wr_ne h3, hm2]
  split_ifs
  · exact hm3
  · rw [rd_wr_ne h4, hm3]

/-! ### Objects apart -/

/-- An object that is none of the safety monitor's and none of an octet's. -/
def Apart (o : Obj) : Prop := (o.key < 0x190000 ∨ 0x190700 ≤ o.key) ∧ (o.key < 0x340000 ∨ 0x352000 ≤ o.key)

section
variable {m m1 : Mach} {s : Nat} {o : Obj}

theorem Apart.ne (h : Apart o) {p : Obj} (hp : 0x190000 ≤ p.key ∧ p.key < 0x190700) : o.key ≠ p.key := by
  obtain ⟨h, -⟩ := h
  omega

theorem safRaise_apart (h : Apart o) (b : Nat) (m : Mach) : (safRaise b m).rd o = m.rd o := safRaise_rd (h.ne (by decide)) b m

theorem safLog_apart (h : Apart o) (kind code aux detail : Nat) (m : Mach) : (safLog kind code aux detail m).rd o = m.rd o := by
  refine safLog_rd ?_ ..
  simp only [List.mem_cons, List.not_mem_nil, or_false, not_or]
  exact ⟨h.ne (by decide), h.ne (by decide)⟩

theorem causeRecord_apart (h : Apart o) (s : Nat) (m : Mach) : (causeRecord s m).rd o = m.rd o := by
  unfold causeRecord
  extract_lets m1 m2
  have h1 : m1.rd o = m.rd o := rd_wr_ne (h.ne (by decide)) ..
  have h2 : m2.rd o = m1.rd o := by
    unfold m2
    split_ifs
    · exact rd_wr_ne (h.ne (by decide)) ..
    · rfl
  exact h2.trans h1

theorem releaseBack_apart (h : Apart o) (m : Mach) : (releaseBack m).rd o = m.rd o := by
  obtain hr | ⟨latched, evt, cnt, hr⟩ := releaseBack_cases m
  · rw [hr]
  · rw [hr, statusSync_rd, safRaise_apart h, rd_inc_ne (h.ne (by decide))]
    refine unreleased_rd ?_ ..
    simp only [List.mem_cons, List.not_mem_nil, or_false, not_or]
    exact ⟨h.ne (by decide), h.ne (by decide), h.ne (by decide), h.ne (by decide)⟩

theorem causeLowest_apart (h : Apart o) (s : Nat) (m : Mach) : (causeLowest s m).rd o = m.rd o := by
  unfold causeLowest
  split_ifs
  · exact rd_wr_ne (h.ne (by decide)) ..
  · rfl

theorem safeEnter_apart (h : Apart o) (hs : s ≠ 1) (m : Mach) : (safeEnter s m).rd o = m.rd o := by
  obtain ⟨-, -, -, -, hrd⟩ := entering_rd s m
  have hent : (entering s m).rd o = m.rd o := by
    refine hrd o ?_ h.2
    simp only [List.mem_cons, List.not_mem_nil, or_false, not_or]
    exact ⟨h.ne (by decide), h.ne (by decide), h.ne (by decide), h.ne (by decide), h.ne (by decide)⟩
  rw [safeEnter_eq, statusSync_rd, safLog_apart h]
  split_ifs
  · rw [causeRestart, if_neg hs, hent]
  · exact hent

/-- A cause other than a lockstep error leaves every object that is none of the monitor's and of the octets. -/
theorem causeTake_apart (h : Apart o) (hs : s ≠ 1) (m : Mach) : (causeTake m s).rd o = m.rd o := by
  have h0 : (causeRecord s (releaseBack m)).rd o = m.rd o := by rw [causeRecord_apart h, releaseBack_apart h]
  unfold causeTake
  extract_lets m0 saf m1 m2
  have h1 : m1.rd o = m.rd o := by
    unfold m1
    split_ifs <;> exact h0
  have h2 : m2.rd o = m.rd o := by rw [← h1]; unfold m2; rw [safRaise_apart h, safLog_apart h]
  split_ifs
  · rw [causeLowest_apart h, causeRestart, if_neg hs, safRaise_apart h, safLog_apart h, h1]
  · rw [safeEnter_apart h hs, h1]
  · exact h2
  · exact h2

/-! ### The cores -/

/-- The cores are alike but for the class 7 entries that wait. -/
def CoresKept (m m1 : Mach) : Prop := ∀ i, ∃ l, m1.core i = { m.core i with c7 := l }

theorem CoresKept.of_eq (h : m1.cores = m.cores) : CoresKept m m1 := fun i => ⟨(m.core i).c7, by rw [Mach.core, h, Mach.core]⟩

theorem CoresKept.trans {m2 : Mach} (h : CoresKept m m1) (h' : CoresKept m1 m2) : CoresKept m m2 := fun i => by
  obtain ⟨l, hl⟩ := h i
  obtain ⟨l', hl'⟩ := h' i
  exact ⟨l', by rw [hl', hl]⟩

theorem coresKept_class7 (j code : Nat) (m : Mach) : CoresKept m (m.class7 j code) := fun i => by
  unfold Mach.class7
  by_cases h : i = j
  · subst h
    exact ⟨_, m.updCore_same i _⟩
  · exact ⟨(m.core i).c7, m.setCore_ne h _⟩

theorem cores_safRaise (b : Nat) (m : Mach) : (safRaise b m).cores = m.cores := (eq_of_aside (aside_safRaise b m)).1

theorem cores_safLog (kind code aux detail : Nat) (m : Mach) : (safLog kind code aux detail m).cores = m.cores :=
  (eq_of_aside (aside_safLog kind code aux detail m)).1

theorem cores_causeRecord (s : Nat) (m : Mach) : (causeRecord s m).cores = m.cores := by
  unfold causeRecord
  extract_lets m1 m2
  unfold m2
  split_ifs <;> rfl

theorem cores_releaseBack (m : Mach) : (releaseBack m).cores = m.cores := by
  obtain hr | ⟨latched, evt, cnt, hr⟩ := releaseBack_cases m
  · rw [hr]
  · rw [hr, (eq_of_aside (aside_statusSync _)).1, cores_safRaise]
    unfold unreleased
    dsimp only
    split_ifs <;> rfl

theorem cores_entering (s : Nat) (m : Mach) : (entering s m).cores = m.cores := (eq_of_aside (aside_entering s m)).1

theorem coresKept_safeEnter (hs : s ≠ 1) (m : Mach) : CoresKept m (safeEnter s m) := by
  rw [safeEnter_eq]
  refine .trans ?_ (.of_eq ((eq_of_aside (aside_statusSync _)).1.trans (cores_safLog ..)))
  split_ifs
  · rw [causeRestart, if_neg hs]
    exact .of_eq (cores_entering s m)
  · exact .trans (.of_eq (cores_entering s m)) (coresKept_class7 _ _ _)

/-- A cause other than a lockstep error leaves the cores but for a class 7 entry. -/
theorem coresKept_causeTake (hs : s ≠ 1) (m : Mach) : CoresKept m (causeTake m s) := by
  have h0 : (causeRecord s (releaseBack m)).cores = m.cores := by rw [cores_causeRecord, cores_releaseBack]
  unfold causeTake
  extract_lets m0 saf m1 m2
  have h1 : m1.cores = m.cores := by
    unfold m1
    split_ifs <;> exact h0
  have h2 : m2.cores = m.cores := by rw [← h1]; unfold m2; rw [cores_safRaise, cores_safLog]
  split_ifs
  · refine .of_eq ?_
    rw [causeRestart, if_neg hs]
    unfold causeLowest
    split_ifs
    · exact (cores_safRaise ..).trans ((cores_safLog ..).trans h1)
    · rw [cores_safRaise, cores_safLog, h1]
  · exact .trans (.of_eq h1) (coresKept_safeEnter hs m1)
  · exact .of_eq h2
  · exact .trans (.of_eq h2) (coresKept_class7 _ _ _)

/-! ### One cause of a command -/

/-- A command's one cause. -/
theorem settle_one (ha : m.alarms = [s]) (hn : m.notes = []) : settle m = causeTake { m with alarms := [] } s := by
  unfold settle causesTake
  simp only [hn, ha, List.isEmpty_nil, if_true, List.isEmpty_cons, Bool.false_eq_true, if_false]
  have hsort : sortNat [s] = [s] := rfl
  rw [hsort]
  cases h : causeSelected m s <;> simp [h]

end

end Sys2Proof.Machine

/-! ## Entry by a cause whose reaction is SAFE (R478, R488) -/

namespace Sys2Proof.Machine

/-- Cause 8 announces the field side's watchdog reset (R492). -/
def announced (s t : Nat) (m : Mach) : Mach :=
  if s = 8 ∧ m.saf.wdrAt = none then { m with saf := { m.saf with wdrAt := some (t + 40000) } } else m

section
variable {s : Nat} {m m1 : Mach}

theorem announced_rd (s t : Nat) (m : Mach) (o : Obj) : (announced s t m).rd o = m.rd o := by
  unfold announced
  split_ifs <;> rfl

theorem causeRecord_rd {o : Obj} (h : o.key ∉ [R.SAF_LATCHED.key, R.SAF_ACTIVE.key]) (s : Nat) (m : Mach) :
    (causeRecord s m).rd o = m.rd o := by
  simp only [List.mem_cons, List.not_mem_nil, or_false, not_or] at h
  unfold causeRecord
  extract_lets m1 m2
  have h2 : m2.rd o = m.rd o := by
    unfold m2
    split_ifs
    · rw [rd_wr_ne h.2, rd_wr_ne h.1]
    · exact rd_wr_ne h.1 ..
  exact h2

theorem causeRecord_bits (s : Nat) (m : Mach) : (causeRecord s m).rd R.SAF_LATCHED = setBit s (m.rd R.SAF_LATCHED) ∧
    (causeRecord s m).rd R.SAF_ACTIVE = if causeHeld s then setBit s (m.rd R.SAF_ACTIVE) else m.rd R.SAF_ACTIVE := by
  unfold causeRecord
  extract_lets m1 m2
  have h2 : m2.rd R.SAF_LATCHED = setBit s (m.rd R.SAF_LATCHED) ∧
      m2.rd R.SAF_ACTIVE = if causeHeld s then setBit s (m.rd R.SAF_ACTIVE) else m.rd R.SAF_ACTIVE := by
    unfold m2
    split_ifs
    · exact ⟨by rw [rd_wr_ne (by decide), rd_wr_same], rd_wr_same ..⟩
    · exact ⟨rd_wr_same .., rd_wr_ne (by decide) ..⟩
  exact h2

theorem causeTake_of_trips (h : Trips s m) : causeTake m s = safeEnter s (announced s m.now (causeRecord s m)) := by
  obtain ⟨hsafe, hsel, hrel⟩ := h
  unfold causeTake
  rw [releaseBack_none hrel]
  extract_lets m0 saf m1 m2
  have h1 : m1 = announced s m.now m0 := rfl
  have hsafe1 : m1.safe = m.safe := by
    rw [h1]
    unfold announced m0 causeRecord
    split_ifs <;> rfl
  rw [hsafe1, hsafe, hsel]
  exact congrArg (safeEnter s) h1

theorem announced_fields (s t : Nat) (m : Mach) : (announced s t m).cores = m.cores ∧ (announced s t m).tb = m.tb := by
  unfold announced
  split_ifs <;> exact ⟨rfl, rfl⟩

/-- The cause that a command's one cause leaves to the entry. -/
def caught (s : Nat) (m : Mach) : Mach := announced s m.now (causeRecord s { m with alarms := [] })

theorem caught_rd {o : Obj} (h : o.key ∉ [R.SAF_LATCHED.key, R.SAF_ACTIVE.key]) (s : Nat) (m : Mach) : (caught s m).rd o = m.rd o :=
  (announced_rd ..).trans (causeRecord_rd h s _)

theorem caught_bits (s : Nat) (m : Mach) : (caught s m).rd R.SAF_LATCHED = setBit s (m.rd R.SAF_LATCHED) ∧
    (caught s m).rd R.SAF_ACTIVE = if causeHeld s then setBit s (m.rd R.SAF_ACTIVE) else m.rd R.SAF_ACTIVE := by
  obtain ⟨h1, h2⟩ := causeRecord_bits s { m with alarms := [] }
  exact ⟨(announced_rd ..).trans h1, (announced_rd ..).trans h2⟩

theorem aside_announced (s t : Nat) (m : Mach) : (announced s t m).aside = announced s t m.aside := apply_ite ..

theorem aside_causeRecord (s : Nat) (m : Mach) :
    (causeRecord s m).aside = { m.aside with saf := { m.aside.saf with causeAt := some m.now } } := by
  unfold causeRecord
  dsimp only
  split_ifs <;> rfl

theorem tb_causeRecord (s : Nat) (m : Mach) : (causeRecord s m).tb = m.tb := by
  unfold causeRecord
  extract_lets m1 m2
  unfold m2
  split_ifs <;> rfl

theorem caught_fields (s : Nat) (m : Mach) : (caught s m).cores = m.cores ∧ (caught s m).tb = m.tb := by
  obtain ⟨h1, h2⟩ := announced_fields s m.now (causeRecord s { m with alarms := [] })
  exact ⟨h1.trans (cores_causeRecord ..), h2.trans (tb_causeRecord ..)⟩

/-- The machine aside as a SAFE cause leaves it, but for Keep's class 7 entry. -/
def safeAside (s : Nat) (m : Mach) : Mach :=
  asserted (announced s m.now { m.aside with alarms := [], saf := { m.aside.saf with causeAt := some m.now } })

theorem aside_entering_caught (s : Nat) (m : Mach) : (entering s (caught s m)).aside = safeAside s m := by
  rw [aside_entering, aside_asserted, caught, aside_announced, aside_causeRecord]
  rfl

/-- A command's one cause, whose reaction is SAFE, enters the safe state. -/
theorem settle_trips (ha : m.alarms = [s]) (hn : m.notes = []) (h : Trips s m) : settle m = safeEnter s (caught s m) := by
  rw [settle_one ha hn]
  exact causeTake_of_trips h

section
variable (ha : m.alarms = [s]) (hn : m.notes = []) (h : Trips s m) (hs : s ≠ 0 ∧ s ≠ 1 ∧ s ≠ 7)
include ha hn h hs

theorem settle_trips_class7 : settle m = statusSync (safLog 1 s 0 0 ((entering s (caught s m)).class7 2 (0x200 + s))) := by
  rw [settle_trips ha hn h, safeEnter_eq, if_neg (by omega)]

/-- The safe state is in force after a command's one SAFE cause (R478). -/
theorem inSafe_settle : InSafe s m (settle m) := by
  rw [settle_trips_class7 ha hn h hs]
  obtain ⟨h1, h2, h3, h4, hrd⟩ := entering_rd s (caught s m)
  obtain ⟨hl, hact⟩ := caught_bits s m
  have hrep (o : Obj) (ho : o.key ∉ [R.SAF_EVT.key, R.SAF_CNT_LOG_LOST.key]) :
      (statusSync (safLog 1 s 0 0 ((entering s (caught s m)).class7 2 (0x200 + s)))).rd o = (entering s (caught s m)).rd o := by
    rw [statusSync_rd, safLog_rd ho]; rfl
  have haside : (statusSync (safLog 1 s 0 0 ((entering s (caught s m)).class7 2 (0x200 + s)))).aside =
      ((entering s (caught s m)).class7 2 (0x200 + s)).aside := by rw [aside_statusSync, aside_safLog]
  obtain ⟨hcores, -, -, ⟨hA, hB⟩, -⟩ := eq_of_aside haside
  obtain ⟨-, -, -, ⟨hA', hB'⟩, -⟩ := eq_of_aside (aside_entering s (caught s m))
  refine ⟨(hrep _ (by decide)).trans h1, (hrep _ (by decide)).trans h2, (hrep _ (by decide)).trans (h3.trans ?_), hA.trans hA',
    hB.trans hB', ?_, ?_, ?_, ?_⟩
  · exact congrArg Timebase.ftb (caught_fields s m).2
  · rw [hrep _ (by decide), hrd _ (by decide) (by decide), hl]
  · rw [hrep _ (by decide), hrd _ (by decide) (by decide), hact]
  · rw [hrep _ (by decide), h4, caught_rd (by decide)]
  · have hcore : (entering s (caught s m)).core 2 = m.core 2 := by
      rw [Mach.core, cores_entering, (caught_fields s m).1, Mach.core]
    rw [Mach.core, hcores, ← Mach.core, Mach.class7, Mach.updCore_same, hcore]

/-- What an entry leaves of a field that neither a report nor an octet's stop touches. -/
theorem settle_trips_field {α : Type} {f : Mach → α} (hf : ∀ n : Mach, f n.aside = f n) (hc : ∀ (n : Mach) i k, f (n.class7 i k) = f n) :
    f (settle m) = f (safeAside s m) := by
  rw [settle_trips_class7 ha hn h hs, ← hf, aside_statusSync, aside_safLog, hf, hc, ← hf, aside_entering_caught]

end

section
variable (ha : m.alarms = [s]) (hn : m.notes = []) (hs : s ≠ 1)
include ha hn hs

/-- A command's one cause other than a lockstep error changes none but the monitor's and the octets' objects. -/
theorem settle_one_apart {o : Obj} (h : Apart o) : (settle m).rd o = m.rd o := by
  rw [settle_one ha hn, causeTake_apart h hs]
  rfl

theorem settle_one_cores : CoresKept m (settle m) := by
  rw [settle_one ha hn]
  exact .trans (.of_eq rfl) (coresKept_causeTake hs _)

end

end

end Sys2Proof.Machine

/-! ## Restarts and faults (R371, R373 to R375) -/

namespace Sys2Proof.Machine

/-- A core at M with every entry masked and no escalation, as a restart leaves it (R375). -/
def Fresh (c : Core) : Prop := c.lvl = 2 ∧ c.xmask = 3 ∧ c.eact = false

section
variable {i cause : Nat} {m : Mach}

@[simp] theorem core_wr (o : Obj) (v : Nat) (m : Mach) (i : Nat) : (m.wr o v).core i = m.core i := rfl

@[simp] theorem core_inc (o : Obj) (m : Mach) (i : Nat) : (m.inc o).core i = m.core i := rfl

theorem updCore_ne {j : Nat} (h : j ≠ i) (f : Core → Core) (m : Mach) : (m.updCore i f).core j = m.core j := m.setCore_ne h _

/-- A restart of a core (R375). -/
theorem restartCore_does (i cause : Nat) (m : Mach) : Fresh ((restartCore i cause m).core i) ∧
    ((restartCore i cause m).core i).held = false ∧ (∀ j, j ≠ i → (restartCore i cause m).core j = m.core j) ∧
    (restartCore i cause m).rd (restartCauseObj i) = cause ∧
    ∀ o : Obj, o.key ≠ (restartCauseObj i).key → (restartCore i cause m).rd o = m.rd o := by
  unfold restartCore
  refine ⟨?_, ?_, fun j hj => ?_, rd_wr_same .., fun o ho => rd_wr_ne ho ..⟩
  · rw [core_wr, Mach.setCore_same]
    exact ⟨rfl, rfl, rfl⟩
  · rw [core_wr, Mach.setCore_same]
  · rw [core_wr, Mach.setCore_ne _ hj]

/-- The boot of the host side sets where Spire0 goes on and what tells of the image. -/
theorem hostBoot_does (cause : Nat) (m : Mach) : (∃ pc g, (hostBoot cause m).core 0 = { m.core 0 with pc := pc, gated := g }) ∧
    (∀ j, j ≠ 0 → (hostBoot cause m).core j = m.core j) ∧
    ∀ o : Obj, o.key ∉ [R.PWR_H_BOOT_STAT.key, R.DIC_HOST_FW_VER.key] → (hostBoot cause m).rd o = m.rd o := by
  unfold hostBoot
  extract_lets m1 sec m2 p m3 h4 m5 a h6
  have h1 : (∀ j, m1.core j = m.core j) ∧ ∀ o, m1.rd o = m.rd o := by unfold m1; split_ifs <;> exact ⟨fun _ => rfl, fun _ => rfl⟩
  clear_value sec p m1
  have h3 : (∀ j, m3.core j = m.core j) ∧ ∀ o : Obj, o.key ≠ R.PWR_H_BOOT_STAT.key → m3.rd o = m.rd o :=
    ⟨fun j => h1.1 j, fun o ho => ((rd_wr_ne ho ..).trans (rd_wr_ne ho ..)).trans (h1.2 o)⟩
  have h5 : (∀ j, m5.core j = m.core j) ∧ ∀ o, m5.rd o = m3.rd o := ⟨h3.1, fun _ => rfl⟩
  clear_value m5 m3 h4 h6
  simp only [List.mem_cons, List.not_mem_nil, or_false, not_or]
  split_ifs
  · refine ⟨⟨(m.core 0).pc, true, ?_⟩, fun j hj => ?_, fun o ho => ?_⟩
    · rw [core_wr, Mach.updCore_same, h3.1]
    · rw [core_wr, updCore_ne hj, h3.1]
    · rw [rd_wr_ne ho.2, Mach.updCore_rd, h3.2 o ho.1]
  · refine ⟨⟨BitVec.ofNat 32 (imgEntry h4), (m.core 0).gated, ?_⟩, fun j hj => ?_, fun o ho => ?_⟩
    · rw [core_wr, Mach.updCore_same, h5.1]
    · rw [core_wr, updCore_ne hj, h5.1]
    · rw [rd_wr_ne ho.2, Mach.updCore_rd, h5.2, h3.2 o ho.1]
  · exact ⟨⟨_, (m.core 0).gated, m.updCore_same 0 _⟩, fun j hj => updCore_ne hj _ m, fun o _ => rfl⟩
  · exact ⟨⟨(m.core 0).pc, true, m.updCore_same 0 _⟩, fun j hj => updCore_ne hj _ m, fun o _ => rfl⟩

/-- The boot of the field side sets where Keep goes on. -/
theorem fieldBoot_does (cause : Nat) (m : Mach) : (∃ pc, (fieldBoot cause m).core 2 = { m.core 2 with pc := pc }) ∧
    (∀ j, j ≠ 2 → (fieldBoot cause m).core j = m.core j) ∧ ∀ o : Obj, (fieldBoot cause m).rd o = m.rd o := by
  unfold fieldBoot
  dsimp only
  split_ifs
  · exact ⟨⟨_, rfl⟩, fun _ _ => rfl, fun _ => rfl⟩
  · exact ⟨⟨_, Mach.updCore_same ..⟩, fun j hj => updCore_ne hj .., fun _ => rfl⟩
  · exact ⟨⟨_, rfl⟩, fun _ _ => rfl, fun _ => rfl⟩

/-- A restart of one core by its own fault (R374, R375). -/
theorem restartOnly_does (h : i < 3) (cause : Nat) (m : Mach) : Fresh ((restartOnly i cause m).core i) ∧
    (∀ j, j ≠ i → (restartOnly i cause m).core j = m.core j) ∧ (restartOnly i cause m).rd (restartCauseObj i) = cause ∧
    ∀ o : Obj, o.key ∉ [(restartCauseObj i).key, R.PWR_H_BOOT_STAT.key, R.DIC_HOST_FW_VER.key] → (restartOnly i cause m).rd o = m.rd o := by
  obtain ⟨hf, -, hne, hcause, hrd⟩ := restartCore_does i cause m
  have hfresh {c d : Core} (hc : Fresh c) {pc : Word} {g u : Bool} (h : d = { c with pc := pc, gated := g, held := u }) : Fresh d :=
    h ▸ hc
  unfold restartOnly
  dsimp only
  generalize restartCore i cause m = m1 at *
  split_ifs with h0 h2 h1
  · subst h0
    obtain ⟨⟨pc, g, hc⟩, hne', hrd'⟩ := hostBoot_does cause m1
    refine ⟨hfresh hf hc, fun j hj => (hne' j hj).trans (hne j hj), (hrd' _ (by decide)).trans hcause, fun o ho => ?_⟩
    obtain ⟨ho1, ho2⟩ := List.mem_cons.not.mp ho |> not_or.mp
    exact (hrd' o ho2).trans (hrd o ho1)
  · subst h2
    obtain ⟨⟨pc, hc⟩, hne', hrd'⟩ := fieldBoot_does cause m1
    exact ⟨hfresh hf hc, fun j hj => (hne' j hj).trans (hne j hj), (hrd' _).trans hcause, fun o ho =>
      (hrd' o).trans (hrd o (List.ne_of_not_mem_cons ho))⟩
  · exact ⟨hf, hne, hcause, fun o ho => hrd o (List.ne_of_not_mem_cons ho)⟩
  · obtain rfl : i = 1 := by omega
    refine ⟨hfresh hf (m1.updCore_same 1 _), fun j hj => (updCore_ne hj ..).trans (hne j hj), hcause,
      fun o ho => hrd o (List.ne_of_not_mem_cons ho)⟩

end

end Sys2Proof.Machine

/-! ## Faults (R366, R371, R373, R374) -/

namespace Sys2Proof.Machine

/-- The objects of a core's escalations lie apart from one another, from its restart's and from the monitor's. -/
theorem faultObjs_apart (i : Fin 3) : (lastEsc i).key ≠ (lastEscPc i).key ∧ (cntEsc i).key ≠ (lastEscPc i).key ∧
    (cntEsc i).key ≠ (lastEsc i).key ∧
    (cntDouble i).key ∉ [(restartCauseObj i).key, R.PWR_H_BOOT_STAT.key, R.DIC_HOST_FW_VER.key] ∧
    Apart (cntDouble i) ∧ Apart (restartCauseObj i) := by
  unfold Apart
  revert i
  decide

section
variable {i : Fin 3} {m : Mach} {cls code info : Nat}

/-- A fault that a core in no escalation takes, or one in an escalation that masks nothing. -/
theorem coreFault_enters (h : (m.core i).xmask = 0 ∨ (m.core i).eact = false) (b : Bool) :
    Faulted i cls code info m (endStep i b (coreFault i cls code info (m.core i).pc m)) ∧
    (coreFault i cls code info (m.core i).pc m).signals = m.signals ∧
    ∃ cls' l code', (coreFault i cls code info (m.core i).pc m).core i = (m.core i).entry cls' l code' info (m.core i).pc := by
  obtain ⟨h1, h2, h3, -⟩ := faultObjs_apart i
  unfold coreFault
  extract_lets c
  by_cases hx : c.xmask = 0
  · rw [if_pos hx]
    refine ⟨⟨fun _ => ?_, fun hn => absurd hx hn, fun hn => absurd hx hn⟩, rfl, _, _, _, Mach.setCore_same ..⟩
    rw [endStep_core, Mach.setCore_same]
    exact entered_stop b entered_entry
  · have he : c.eact = false := h.resolve_left hx
    rw [if_neg hx, he]
    simp only [Bool.false_eq_true, if_false]
    have hcore : ((((m.setCore i (c.entry 6 2 (cls * 256 + code) info (m.core i).pc)).inc (cntEsc i)).wr (lastEsc i)
        (6 * 2 ^ 28 + (cls * 256 + code))).wr (lastEscPc i) ((m.core i).pc &&& 0xFFFFFFFE).toNat).core i =
        c.entry 6 2 (cls * 256 + code) info (m.core i).pc := by
      rw [core_wr, core_wr, core_inc, Mach.setCore_same]
    refine ⟨⟨fun hn => absurd hn hx, fun _ _ => ⟨?_, ?_, ?_, ?_⟩, fun _ hn => absurd (he.symm.trans hn) (by decide)⟩, ?_, _, _, _, hcore⟩
    · rw [endStep_core, hcore]
      exact entered_stop b entered_entry
    · rw [endStep_rd, rd_wr_ne h2, rd_wr_ne h3, rd_inc_same]
      rfl
    · rw [endStep_rd, rd_wr_ne h1, rd_wr_same]
    · rw [endStep_rd, rd_wr_same]
    · rw [signals_wr, signals_wr, signals_inc]
      rfl

/-- A fault in an escalation that masks it restarts the core (R374). -/
theorem coreFault_restarts (hx : (m.core i).xmask ≠ 0) (he : (m.core i).eact = true) (resume : Word) :
    (coreFault i cls code info resume m).signals = (m.notes, if i.val = 2 then m.alarms ++ [7] else m.alarms) ∧
    Fresh ((coreFault i cls code info resume m).core i) ∧ (coreFault i cls code info resume m).rd (restartCauseObj i) = 7 ∧
    (coreFault i cls code info resume m).rd (cntDouble i) = min 0xFFFFFFFF (m.rd (cntDouble i) + 1) := by
  obtain ⟨-, -, -, h4, -⟩ := faultObjs_apart i
  obtain ⟨hf, -, hcause, hrd⟩ := restartOnly_does i.isLt 7 (m.inc (cntDouble i))
  have hsig := signals_restartOnly i 7 (m.inc (cntDouble i))
  rw [signals_inc] at hsig
  unfold coreFault
  dsimp only
  rw [if_neg hx, if_pos he]
  generalize restartOnly i 7 (m.inc (cntDouble i)) = n at *
  obtain ⟨hno, hal⟩ := Prod.mk.inj hsig
  split_ifs
  · exact ⟨by simp [Mach.signals, Mach.alarm, hno, hal], hf, hcause, (hrd _ h4).trans (rd_inc_same ..)⟩
  · exact ⟨by simp [Mach.signals, hno, hal], hf, hcause, (hrd _ h4).trans (rd_inc_same ..)⟩

theorem fresh_stop {c : Core} (b : Bool) (h : Fresh c) :
    Fresh (c.stepEnd b) := by
  cases b <;> exact h

end

section
variable {s : State} {core : Fin 3} {w : Nat} {c : Instr} {cls code info : Nat}

theorem coreStops_eq (h : code ≠ 0xA ∧ code ≠ 0xB) (m : Mach) :
    coreStops core cls code info m = coreFault core cls code info (m.core core).pc m := by
  simp [coreStops, h.1, h.2]

/-- An instruction that faults: the fault is taken, or the core restarts (R371, R373, R374). -/
theorem goes_fault (hs : Settled s) (hc : exec c s = runWord core w .clean s) (hl : coreLive s.m core = true)
    (h : coreInsn core w .clean s.m = .error (.fault cls code info)) (hcode : code ≠ 0xA ∧ code ≠ 0xB) :
    Goes c s (fun m => Faulted core cls code info s.m m ∧ ((s.m.core core).xmask = 0 ∨ (s.m.core core).eact = false →
      ∃ cls' l code' b, m.core core = ((s.m.core core).entry cls' l code' info (s.m.core core).pc).stepEnd b)) := by
  have hrun := hc.trans (runWord_fault hl h)
  simp only [done, coreStops_eq hcode] at hrun
  by_cases hq : (s.m.core core).xmask = 0 ∨ (s.m.core core).eact = false
  · obtain ⟨hf, hsig, cls', l, code', hcore⟩ := coreFault_enters (cls := cls) (code := code) (info := info) hq (s.m.core core).step
    obtain ⟨hno, hal⟩ := Prod.mk.inj hsig
    refine ⟨_, hrun, rfl, ?_⟩
    rw [settle_quiet (by simp [hal, hs.1]) (by simp [hno, hs.2])]
    exact ⟨hf, fun _ => ⟨cls', l, code', _, by rw [endStep_core, hcore]⟩⟩
  · obtain ⟨hx, he⟩ := not_or.mp hq
    have he : (s.m.core core).eact = true := by simpa using he
    obtain ⟨-, -, -, -, hap, hap'⟩ := faultObjs_apart core
    obtain ⟨hsig, hf, hcause, hcnt⟩ := coreFault_restarts (cls := cls) (code := code) (info := info) (i := core) hx he (s.m.core core).pc
    obtain ⟨hno, hal⟩ := Prod.mk.inj hsig
    refine ⟨_, hrun, rfl, ⟨fun hn => absurd hn hx, fun _ hn => absurd (he.symm.trans hn) (by decide), fun _ _ => ?_⟩, fun hn => absurd hn hq⟩
    have hf' := endStep_core core (s.m.core core).step (coreFault core cls code info (s.m.core core).pc s.m) ▸ fresh_stop _ hf
    have hal' := (endStep_fields core (s.m.core core).step (coreFault core cls code info (s.m.core core).pc s.m)).1.trans hal
    have hno' := (endStep_fields core (s.m.core core).step (coreFault core cls code info (s.m.core core).pc s.m)).2.1.trans (hno.trans hs.2)
    rw [hs.1] at hal'
    obtain ⟨h1, h2, h3⟩ := hf'
    by_cases hk : core.val = 2
    · replace hal' := hal'.trans (if_pos hk)
      obtain ⟨l, hl⟩ := settle_one_cores hal' hno' (by decide) core
      exact ⟨by rw [hl]; exact h1, by rw [hl]; exact h2, by rw [hl]; exact h3,
        by rw [settle_one_apart hal' hno' (by decide) hap', endStep_rd, hcause],
        by rw [settle_one_apart hal' hno' (by decide) hap, endStep_rd, hcnt]⟩
    · rw [settle_quiet (hal'.trans (if_neg hk)) hno']
      exact ⟨h1, h2, h3, (endStep_rd ..).trans hcause, (endStep_rd ..).trans hcnt⟩

theorem Goes.mono {P Q : Mach → Prop} (h : Goes c s P) (hpq : ∀ m, P m → Q m) : Goes c s Q := by
  obtain ⟨t, ht, hp, hP⟩ := h
  exact ⟨t, ht, hp, hpq _ hP⟩

theorem goes_faulted (hs : Settled s) (hc : exec c s = runWord core w .clean s) (hl : coreLive s.m core = true)
    (h : coreInsn core w .clean s.m = .error (.fault cls code info)) (hcode : code ≠ 0xA ∧ code ≠ 0xB) :
    Goes c s (Faulted core cls code info s.m) :=
  (goes_fault hs hc hl h hcode).mono fun _ h => h.1

end

end Sys2Proof.Machine

/-! ## O6: the return through a save set (R368) -/

namespace Sys2Proof.Machine

section
variable {c : Core} {base st : Nat}

/-- XRET returns to no level that its save set does not name (R368). -/
theorem xret_faults (hst : st = (c.csrGet (saveBase (decide (c.lvl = 2) && c.eact) c.lvl + 1)).toNat) :
    (bits 1 0 st = 3 → c.xret = .error 2) ∧ (bits 1 0 st ≠ 3 → c.lvl < bits 1 0 st → c.xret = .error 8) := by
  subst hst
  unfold Core.xret
  exact ⟨fun h => by simp [h], fun h3 h => by simp [h3, h]⟩

/-- What XRET leaves of its core (R368). -/
theorem xret_returns (hst : st = (c.csrGet (saveBase (decide (c.lvl = 2) && c.eact) c.lvl + 1)).toNat) (h3 : bits 1 0 st ≠ 3)
    (hle : bits 1 0 st ≤ c.lvl) : ∃ d, c.xret = .ok d ∧ d.lvl = bits 1 0 st ∧ d.fast = bit 4 st ∧
      d.xmask = (if bits 1 0 st = 0 then 0 else bits 3 2 st) ∧ d.pc = c.csrGet (saveBase (decide (c.lvl = 2) && c.eact) c.lvl) ∧
      d.eact = (c.eact && decide (c.lvl ≠ 2)) ∧
      (bit 5 st = true → d.csrGet (stackCsr c.lvl) = mapGet 0 2 c.x ∧ mapGet 0 2 d.x = c.csrGet (stackCsr c.lvl)) ∧
      (bit 5 st = false → d.x = c.x ∧ d.csr = c.csr) := by
  subst hst
  have heact : (c.eact && !(decide (c.lvl = 2) && c.eact)) = (c.eact && decide (c.lvl ≠ 2)) := by cases c.eact <;> simp
  obtain ⟨hcsr, hx, -⟩ := swapStack_does (c := c) c.lvl
  unfold Core.xret
  extract_lets escal base s plvl c1
  rw [if_neg h3, if_neg (Nat.not_lt.mpr hle)]
  have he : c1.eact = c.eact := by unfold c1; split_ifs <;> rfl
  refine ⟨_, rfl, rfl, rfl, rfl, rfl, ?_, fun h5 => ?_, fun h5 => ?_⟩
  · dsimp only
    rw [he]
    exact heact
  · have hc1 : c1 = c.swapStack c.lvl := if_pos h5
    dsimp only
    rw [hc1]
    exact ⟨(hcsr _).trans (if_pos rfl), hx⟩
  · have hc1 : c1 = c := if_neg (by simpa [s] using h5)
    dsimp only
    rw [hc1]
    exact ⟨rfl, rfl⟩

end

section
variable {s : State} {core : Fin 3}

theorem exec_system {w v : Nat} (h : opcodeOf v = 0x73) (m : Mach) : (insnAt core w v).exec m = (insnAt core w v).system m := by
  unfold Insn.exec
  rw [show (insnAt core w v).w = v from rfl, h]
  rfl

theorem coreInsn_xret (h : Fetches core 0x7F000073 s) (hl : 1 ≤ (s.m.core core).lvl) : coreInsn core 0x7F000073 .clean s.m =
    match (s.m.core core).xret with
    | .ok c => .ok (s.m.setCore core { c with instret := (c.instret + 1) % 2 ^ 64 })
    | .error code => .error (.fault 1 code 0x7F000073) := by
  rw [coreInsn_of_fetches h (by decide) (v := 0x7F000073) rfl]
  rw [exec_system (by decide)]
  have hx : (insnAt core 0x7F000073 0x7F000073).system s.m = (insnAt core 0x7F000073 0x7F000073).xret s.m := by
    have h3 : funct3 0x7F000073 = 0 := by decide
    simp [Insn.system, insnAt, h3]
  rw [hx, Insn.xret, if_neg (by change ¬(s.m.core core).lvl = 0; omega)]
  rfl

end

/-- Settles O6: a return takes everything from its save set, and a save set that names no level it may return to is a fault. -/
theorem returnThroughSaveSet : Obligations.ReturnThroughSaveSet := by
  unfold Obligations.ReturnThroughSaveSet
  rintro s core c base st hs rfl hf h1 hbase hst
  have hb : saveBase (decide ((s.m.core core).lvl = 2) && (s.m.core core).eact) (s.m.core core).lvl = base := by
    simp [hbase, saveBase]
  rw [← hb] at hst ⊢
  have hc : exec (.xret core) s = runWord core 0x7F000073 .clean s := rfl
  have hi := coreInsn_xret hf h1
  obtain ⟨hill, hpriv⟩ := xret_faults hst
  refine ⟨fun hle h3 => ?_, fun hlt h3 => ?_, fun h3 => ?_⟩
  · obtain ⟨d, hd, hlvl, hfast, hmask, hpc, heact, hsw, hns⟩ := xret_returns hst h3 hle
    rw [hd] at hi
    have hstep : CoreStep core s.m (s.m.setCore core { d with instret := (d.instret + 1) % 2 ^ 64 }) := (CoreStep.refl _ _).setCore _
    refine Goes.of_to (to_insn hs hc hf.1 hi ⟨rfl, rfl⟩) ?_
    rw [endStep_core, Mach.setCore_same]
    have hend {b : Bool} {e : Core} : ((e.stepEnd b).lvl = e.lvl ∧ (e.stepEnd b).fast = e.fast ∧ (e.stepEnd b).xmask = e.xmask ∧
        (e.stepEnd b).pc = e.pc ∧ (e.stepEnd b).eact = e.eact) ∧ (e.stepEnd b).x = e.x ∧ (e.stepEnd b).csr = e.csr := by
      cases b <;> exact ⟨⟨rfl, rfl, rfl, rfl, rfl⟩, rfl, rfl⟩
    have hcsr {b : Bool} {e : Core} (k : Nat) : (e.stepEnd b).csrGet k = e.csrGet k := by cases b <;> rfl
    obtain ⟨⟨e1, e2, e3, e4, e5⟩, e6, e7⟩ := @hend (s.m.core core).step { d with instret := (d.instret + 1) % 2 ^ 64 }
    refine ⟨e1.trans hlvl, e2.trans hfast, e3.trans hmask, e4.trans hpc, e5.trans heact, fun h5 => ?_, fun h5 => ?_, (hstep.endStep _).2⟩
    · exact ⟨(hcsr _).trans (hsw h5).1, by rw [e6]; exact (hsw h5).2⟩
    · exact ⟨e6.trans (hns h5).1, e7.trans (hns h5).2⟩
  · rw [hpriv h3 hlt] at hi
    exact goes_faulted hs hc hf.1 hi (by decide)
  · rw [hill h3] at hi
    exact goes_faulted hs hc hf.1 hi (by decide)

end Sys2Proof.Machine

/-! ## O7: the faults of the shadow stack (R379) -/

namespace Sys2Proof.Machine

section
variable {s : State} {core : Fin 3} {w v : Nat} {ret : Bool} {t : Word}

theorem coreInsn_jalr (hf : Fetches core w s) (hw : w < 2 ^ 32) (hv : insnWord w = some v) (ho : opcodeOf v = 0x67) (h3 : funct3 v = 0) :
    coreInsn core w .clean s.m = (insnAt core w v).jump (isReturn (rdOf v) (rs1Of v))
      (((s.m.core core).rdX (rs1Of v) + immI v) &&& 0xFFFFFFFE) s.m := by
  rw [coreInsn_of_fetches hf hw hv]
  unfold Insn.exec
  rw [show (insnAt core w v).w = v from rfl, ho]
  exact if_neg (not_not_intro h3)

theorem coreInsn_jal (hf : Fetches core w s) (hw : w < 2 ^ 32) (hv : insnWord w = some v) (ho : opcodeOf v = 0x6F) :
    coreInsn core w .clean s.m = (insnAt core w v).jump false ((s.m.core core).pc + immJ v) s.m := by
  rw [coreInsn_of_fetches hf hw hv]
  unfold Insn.exec
  rw [show (insnAt core w v).w = v from rfl, ho]
  rfl

/-- A jump that the shadow stack bars. -/
theorem jump_error {e : CoreStop} (h : ssJump ret (isCall (rdOf v)) t ((s.m.core core).pc + BitVec.ofNat 32 (insnLen w)) (s.m.core core) =
    .error e) : (insnAt core w v).jump ret t s.m = .error e := by
  unfold Insn.jump
  rw [show ssJump ret (isCall (rdOf (insnAt core w v).w)) t ((insnAt core w v).next s.m) ((insnAt core w v).core s.m) = .error e from h]

/-- A jump that the shadow stack lets through. -/
theorem jump_ok {c : Core} (h : ssJump ret (isCall (rdOf v)) t ((s.m.core core).pc + BitVec.ofNat 32 (insnLen w)) (s.m.core core) =
    .ok c) : (insnAt core w v).jump ret t s.m = .ok (((insnAt core w v).retireAt t (s.m.setCore core c)).updCore core
      (fun d => d.wrX (rdOf v) ((s.m.core core).pc + BitVec.ofNat 32 (insnLen w)))) := by
  unfold Insn.jump
  rw [show ssJump ret (isCall (rdOf (insnAt core w v).w)) t ((insnAt core w v).next s.m) ((insnAt core w v).core s.m) = .ok c from h]
  rfl

/-- What a jump does to the shadow stack. -/
theorem ssJump_off {call : Bool} {link : Word} {c : Core} (h : c.ssOn = false) : ssJump ret call t link c = .ok c := by
  simp [ssJump, h]

theorem ssJump_return {call : Bool} {link : Word} {c : Core} (h : c.ssOn = true) :
    (c.ss c.lvl = [] → ssJump true call t link c = .error (.fault 3 3 t.toNat)) ∧
    (∀ (a : Word) (rest : List Word), c.ss c.lvl = a :: rest → a ≠ t → ssJump true call t link c = .error (.fault 3 1 a.toNat)) ∧
    (∀ rest : List Word, c.ss c.lvl = t :: rest →
      ssJump true call t link c = if call then ssCall link (c.setSs c.lvl rest) else .ok (c.setSs c.lvl rest)) := by
  unfold ssJump
  refine ⟨fun hss => ?_, fun a rest hss hne => ?_, fun rest hss => ?_⟩
  · simp [h, ssReturn, hss]
  · simp [h, ssReturn, hss, hne]
  · simp [h, ssReturn, hss]

theorem ssJump_call {link : Word} {c : Core} (h : c.ssOn = true) : ssJump false true t link c = ssCall link c := by
  simp [ssJump, h]

theorem ssCall_full {link : Word} {c : Core} (h : ssDepth ≤ (c.ss c.lvl).length) : ssCall link c = .error (.fault 3 2 link.toNat) :=
  if_pos h

theorem ssCall_room {link : Word} {c : Core} (h : (c.ss c.lvl).length < ssDepth) :
    ssCall link c = .ok (c.setSs c.lvl (link :: c.ss c.lvl)) := if_neg (Nat.not_le.mpr h)

/-- The words of the two kinds of shadow jump. -/
theorem isShadowReturn_iff : isShadowReturn v = true ↔ opcodeOf v = 0x67 ∧ isReturn (rdOf v) (rs1Of v) = true := by
  simp [isShadowReturn]

theorem isShadowCall_iff : isShadowCall v = true ↔ (opcodeOf v = 0x6F ∨ opcodeOf v = 0x67) ∧ isCall (rdOf v) = true := by
  simp [isShadowCall]

/-- A fault leaves the shadow stacks, the count of retired instructions and every general register but x2 (R379, R384). -/
theorem goes_trap {c : Instr} {code info : Nat} (hs : Settled s) (hc : exec c s = runWord core w .clean s)
    (hl : coreLive s.m core = true) (h : coreInsn core w .clean s.m = .error (.fault 3 code info)) (hcode : code ≠ 0xA ∧ code ≠ 0xB) :
    Goes c s (fun m => Faulted core 3 code info s.m m ∧ ((s.m.core core).xmask = 0 ∨ (s.m.core core).eact = false →
      (∀ l, (m.core core).ss l = (s.m.core core).ss l) ∧ (m.core core).instret = (s.m.core core).instret ∧
        ∀ r, r ≠ 2 → mapGet 0 r (m.core core).x = mapGet 0 r (s.m.core core).x)) := by
  refine (goes_fault hs hc hl h hcode).mono fun m ⟨hf, hq⟩ => ⟨hf, fun hn => ?_⟩
  obtain ⟨cls', l, code', b, hcore⟩ := hq hn
  obtain ⟨hss, hret, -, hx⟩ := entry_leaves (c := s.m.core core) (cls := cls') (l := l) (code := code') (info := info)
    (resume := (s.m.core core).pc)
  rw [hcore]
  cases b <;> exact ⟨hss, hret, hx⟩

end

/-- Settles O7: a shadow stack that bars a jump makes it a fault, and a fault leaves everything but the save set. -/
theorem shadowStackFaults : Obligations.ShadowStackFaults := by
  unfold Obligations.ShadowStackFaults
  intro s core w c v t a rest hs hf hc hv hon faults
  subst hc
  refine ⟨fun hret h3 ht => ?_, fun hcall hkind hdepth => ?_⟩
  · obtain ⟨hop, hr⟩ := isShadowReturn_iff.mp hret
    have hi := coreInsn_jalr hf w.isLt hv hop h3
    rw [hr, ← ht] at hi
    obtain ⟨hempty, hother, -⟩ := ssJump_return (t := t) (call := isCall (rdOf v))
      (link := (s.m.core core).pc + BitVec.ofNat 32 (insnLen w.toNat)) hon
    exact ⟨fun hss hne => goes_trap hs (runKind_of hv hret) hf.1 (hi.trans (jump_error (hother a rest hss hne))) (by decide),
      fun hss => goes_trap hs (runKind_of hv hret) hf.1 (hi.trans (jump_error (hempty hss))) (by decide)⟩
  · obtain ⟨hop, hl⟩ := isShadowCall_iff.mp hcall
    have hi : ∃ t', coreInsn core w.toNat .clean s.m = (insnAt core w.toNat v).jump false t' s.m := by
      by_cases h6 : opcodeOf v = 0x6F
      · exact ⟨_, coreInsn_jal hf w.isLt hv h6⟩
      · obtain ⟨h3, hr⟩ := hkind.resolve_left h6
        exact ⟨_, hr ▸ coreInsn_jalr hf w.isLt hv (hop.resolve_left h6) h3⟩
    obtain ⟨t', hi⟩ := hi
    refine goes_trap hs (runKind_of hv hcall) hf.1 (hi.trans (jump_error ?_)) (by decide)
    rw [hl, ssJump_call hon, ssCall_full hdepth]

end Sys2Proof.Machine

/-! ## How instructions retire (R360, R361, R378) -/

namespace Sys2Proof.Machine

section
variable {core : Fin 3} {w v : Nat}

/-- The instruction of an opcode. -/
theorem exec_opcode (m : Mach) :
    (opcodeOf v = 0x03 → (insnAt core w v).exec m = (insnAt core w v).load m) ∧
    (opcodeOf v = 0x0F → (insnAt core w v).exec m = (insnAt core w v).fence m) ∧
    (opcodeOf v = 0x13 → (insnAt core w v).exec m = (insnAt core w v).opImm m) ∧
    (opcodeOf v = 0x17 → (insnAt core w v).exec m = (insnAt core w v).result ((m.core core).pc + immU v) m) ∧
    (opcodeOf v = 0x23 → (insnAt core w v).exec m = (insnAt core w v).store m) ∧
    (opcodeOf v = 0x2F → (insnAt core w v).exec m = (insnAt core w v).atomic m) ∧
    (opcodeOf v = 0x33 → (insnAt core w v).exec m = (insnAt core w v).op m) ∧
    (opcodeOf v = 0x37 → (insnAt core w v).exec m = (insnAt core w v).result (immU v) m) ∧
    (opcodeOf v = 0x53 → (insnAt core w v).exec m = (insnAt core w v).opFp m) ∧
    (opcodeOf v = 0x63 → (insnAt core w v).exec m = (insnAt core w v).branch m) ∧
    (opcodeOf v = 0x0B → (insnAt core w v).exec m = (insnAt core w v).illegal) := by
  refine ⟨?_, ?_, ?_, ?_, ?_, ?_, ?_, ?_, ?_, ?_, ?_⟩ <;>
    (intro h; unfold Insn.exec; rw [show (insnAt core w v).w = v from rfl, h]; rfl)

/-! ### What an instruction does to its core before it retires -/

section
variable {d : Core} {pc : Word}

theorem wrX_stepped (r : Nat) (x : Word) : (stepped d pc).wrX r x = stepped (d.wrX r x) pc := by
  unfold Core.wrX
  split_ifs <;> rfl

@[simp] theorem wrX_fields (r : Nat) (x : Word) : (d.wrX r x).pc = d.pc ∧ (d.wrX r x).step = d.step := by
  unfold Core.wrX
  split_ifs <;> exact ⟨rfl, rfl⟩

@[simp] theorem setSs_fields (l : Nat) (x : List Word) :
    (d.setSs l x).pc = d.pc ∧ (d.setSs l x).step = d.step ∧ (d.setSs l x).lvl = d.lvl ∧ (d.setSs l x).ss l = x := by
  unfold Core.setSs Core.ss
  split_ifs <;> exact ⟨rfl, rfl, rfl, rfl⟩

theorem setSs_setSs (l : Nat) (x y : List Word) : (d.setSs l x).setSs l y = d.setSs l y := by
  unfold Core.setSs
  split_ifs <;> rfl

@[simp] theorem csrWrite_fields (n : Nat) (x : Word) : (d.csrWrite n x).pc = d.pc ∧ (d.csrWrite n x).step = d.step := by
  have hgive (b : Bool) (l : Nat) : (d.xssGive b l x).pc = d.pc ∧ (d.xssGive b l x).step = d.step := by
    unfold Core.xssGive
    split_ifs <;> simp
  unfold Core.csrWrite
  split_ifs <;> try exact ⟨rfl, rfl⟩
  split
  · split_ifs
    · exact ⟨rfl, rfl⟩
    · exact hgive ..
  · split <;> exact ⟨rfl, rfl⟩

end

/-! ### Retirement -/

section
variable {s : State} {c : Instr} {m : Mach} {d : Core} {pc : Word}
variable (hs : Settled s) (hc : exec c s = runWord core w .clean s) (hl : coreLive s.m core = true)
include hs hc hl

/-- An instruction that retires and goes on at `pc`. -/
theorem goes_retireAt (h : coreInsn core w .clean s.m = .ok ((insnAt core w v).retireAt pc m)) (hm : CoreStep core s.m m)
    (hd : m.core core = d) (hstep : d.step = (s.m.core core).step) : Goes c s (CoreOnly core (retired d pc) s.m) :=
  goes_retired hs hc hl h (hm.updCore _) hstep ((m.updCore_same core _).trans (by rw [hd]; rfl))

/-- An instruction that retires and goes on with the next. -/
theorem goes_retire (h : coreInsn core w .clean s.m = .ok ((insnAt core w v).retire m)) (hm : CoreStep core s.m m)
    (hd : m.core core = d) (hpc : d.pc = (s.m.core core).pc) (hstep : d.step = (s.m.core core).step) :
    Goes c s (CoreOnly core (retired d ((s.m.core core).pc + BitVec.ofNat 32 (insnLen w))) s.m) := by
  have hnext : (insnAt core w v).next m = (s.m.core core).pc + BitVec.ofNat 32 (insnLen w) := by
    rw [← hpc, ← hd]
    rfl
  rw [← hnext]
  exact goes_retireAt hs hc hl h hm hd hstep

/-- An instruction that retires and then changes its core further. -/
theorem goes_retire_upd {f : Core → Core} (h : coreInsn core w .clean s.m = .ok (((insnAt core w v).retireAt pc m).updCore core f))
    (hm : CoreStep core s.m m) {e : Core} (hf : f (stepped (m.core core) pc) = stepped e pc) (hstep : e.step = (s.m.core core).step) :
    Goes c s (CoreOnly core (retired e pc) s.m) := by
  refine goes_retired hs hc hl h ((hm.updCore _).updCore _) hstep ?_
  rw [Mach.updCore_same, ← hf]
  exact congrArg f (m.updCore_same core _)

/-- An instruction with a result in rd. -/
theorem goes_result {x : Word} (h : coreInsn core w .clean s.m = (insnAt core w v).result x m) (hm : CoreStep core s.m m)
    (hd : m.core core = d) (hpc : d.pc = (s.m.core core).pc) (hstep : d.step = (s.m.core core).step) :
    Goes c s (CoreOnly core (retired (d.wrX (rdOf v) x) ((s.m.core core).pc + BitVec.ofNat 32 (insnLen w))) s.m) := by
  have hnext : (insnAt core w v).next m = (s.m.core core).pc + BitVec.ofNat 32 (insnLen w) := by
    rw [← hpc, ← hd]
    rfl
  rw [← hnext]
  refine goes_retire_upd hs hc hl (m := m) h hm ?_ (by simp [hstep])
  rw [hd]
  exact wrX_stepped ..

/-- An instruction whose result is its one effect. -/
theorem goes_result_only {x : Word} (h : coreInsn core w .clean s.m = (insnAt core w v).result x s.m) :
    Goes c s (CoreOnly core (retired ((s.m.core core).wrX (rdOf v) x) ((s.m.core core).pc + BitVec.ofNat 32 (insnLen w))) s.m) :=
  goes_result hs hc hl h (.refl ..) rfl rfl rfl

/-- A jump that the shadow stack lets through (R378). -/
theorem goes_jump {ret : Bool} (hi : coreInsn core w .clean s.m = (insnAt core w v).jump ret pc s.m)
    (h : ssJump ret (isCall (rdOf v)) pc ((s.m.core core).pc + BitVec.ofNat 32 (insnLen w)) (s.m.core core) = .ok d)
    (hstep : d.step = (s.m.core core).step) :
    Goes c s (CoreOnly core (retired (d.wrX (rdOf v) ((s.m.core core).pc + BitVec.ofNat 32 (insnLen w))) pc) s.m) := by
  refine goes_retire_upd hs hc hl (hi.trans (jump_ok h)) ((CoreStep.refl ..).setCore d) ?_ (by simp [hstep])
  rw [Mach.setCore_same]
  exact wrX_stepped ..

end

end

end Sys2Proof.Machine

/-! ## Control registers, memory and the rest (R363, R380, R386) -/

namespace Sys2Proof.Machine

section
variable {s : State} {core : Fin 3} {w v : Nat} {m : Mach}

/-! ### Control registers -/

/-- A control register instruction. -/
theorem coreInsn_csr (hf : Fetches core w s) (hw : w < 2 ^ 32) (hv : insnWord w = some v) (h : isCsr v = true) :
    coreInsn core w .clean s.m = (insnAt core w v).csr s.m := by
  obtain ⟨ho, h3⟩ : opcodeOf v = 0x73 ∧ funct3 v ≠ 0 := by simpa [isCsr] using h
  rw [coreInsn_of_fetches hf hw hv, exec_system ho]
  exact if_pos h3

/-- Whether a control register instruction writes (R363). -/
def csrWrites (v : Nat) : Bool := funct3 v % 4 == 1 || rs1Of v != 0

/-- The operand of a control register instruction. -/
def csrSrc (c : Core) (v : Nat) : Word := if 4 ≤ funct3 v then BitVec.ofNat 32 (rs1Of v) else c.rdX (rs1Of v)

/-- One of a register other than XSS_TOP and XSS_BOT gives the old value and writes the new one. -/
theorem csr_plain {row : Nat × Nat} (hrow : csrRow (bits 31 20 v) = some row) (h4 : funct3 v ≠ 4)
    (hlvl : csrLevel (m.core core) (bits 31 20 v) ≤ (m.core core).lvl) (hx : ∀ p, xssCsr (bits 31 20 v) = some p → p.2 = 0)
    (hro : row.1 = 2 → csrWrites v = false) :
    (insnAt core w v).csr m = (insnAt core w v).result (csrRead m core (bits 31 20 v)) (if csrWrites v then
      m.updCore core (fun c => c.csrWrite (bits 31 20 v)
        (csrNew (funct3 v) (csrRead m core (bits 31 20 v)) (csrSrc (m.core core) v))) else m) := by
  obtain ⟨kind, mask⟩ := row
  have hro' : ¬(kind = 2 ∧ (funct3 v % 4 == 1 || rs1Of v != 0) = true) := fun h => absurd h.2 (Bool.eq_false_iff.mp (hro h.1))
  unfold Insn.csr
  dsimp only
  rw [show (insnAt core w v).w = v from rfl, show (insnAt core w v).core m = m.core core from rfl]
  rw [hrow]
  dsimp only
  rw [if_neg h4, if_neg (Nat.not_lt.mpr hlvl), if_neg hro']
  split
  next l k hxss => exact absurd (hx _ hxss) (by simp)
  next => rfl

/-- XSS_TOP and XSS_BOT are registers that hold what is written. -/
theorem csrRow_xss {n l k : Nat} (h : xssCsr n = some (l, k)) (hk : k ≠ 0) : csrRow n = some (1, 0xFFFFFFFF) := by
  have hn : n ∈ [0x541, 0x542, 0x741, 0x742, 0x745, 0x746] := by
    unfold xssCsr at h
    split_ifs at h <;> simp only [Option.some.injEq, Prod.mk.injEq] at h <;> simp only [List.mem_cons, List.not_mem_nil, or_false] <;> omega
  simp only [List.mem_cons, List.not_mem_nil, or_false] at hn
  obtain rfl | rfl | rfl | rfl | rfl | rfl := hn <;> decide

theorem csr_xss {l k : Nat} (hx : xssCsr (bits 31 20 v) = some (l, k + 1)) (h4 : funct3 v ≠ 4)
    (hlvl : csrLevel (m.core core) (bits 31 20 v) ≤ (m.core core).lvl) :
    (insnAt core w v).csr m = (insnAt core w v).xss l (k == 1) m := by
  unfold Insn.csr
  dsimp only
  rw [show (insnAt core w v).w = v from rfl, show (insnAt core w v).core m = m.core core from rfl]
  rw [csrRow_xss hx (by omega)]
  dsimp only
  rw [if_neg h4, if_neg (Nat.not_lt.mpr hlvl), if_neg (by omega), hx]

/-- A read of XSS_TOP or XSS_BOT takes the entry (R380). -/
theorem xss_read {l : Nat} {bot : Bool} (h2 : funct3 v % 4 = 2) (h0 : rs1Of v = 0) : (insnAt core w v).xss l bot m =
    (insnAt core w v).result ((m.core core).xssTake bot l).1 (m.setCore core ((m.core core).xssTake bot l).2) :=
  if_pos ⟨h2, h0⟩

/-- A write of one puts the entry in (R380). -/
theorem xss_write {l : Nat} {bot : Bool} (h1 : funct3 v % 4 = 1) (h0 : rdOf v = 0) : (insnAt core w v).xss l bot m =
    .ok ((insnAt core w v).retire (m.updCore core (fun c => c.xssGive bot l (csrSrc (m.core core) v)))) := by
  have hn : ¬(funct3 v % 4 = 2 ∧ rs1Of v = 0) := by omega
  exact (if_neg hn).trans (if_pos ⟨h1, h0⟩)

theorem xssTake_nil {c : Core} {l : Nat} (bot : Bool) (h : c.ss l = []) : c.xssTake bot l = (0, c) := by simp [Core.xssTake, h]

theorem xssTake_top {c : Core} {l : Nat} {a : Word} {rest : List Word} (h : c.ss l = a :: rest) :
    c.xssTake false l = (a, c.setSs l rest) := by simp [Core.xssTake, h]

theorem xssTake_bot {c : Core} {l : Nat} {a : Word} {rest : List Word} (h : c.ss l = rest ++ [a]) :
    c.xssTake true l = (a, c.setSs l rest) := by
  unfold Core.xssTake
  rw [h]
  rcases hx : rest ++ [a] with _ | ⟨b, l⟩
  · simp at hx
  · dsimp only
    rw [← hx, if_pos rfl, List.getLast?_concat, List.dropLast_concat]
    rfl

theorem xssGive_room {c : Core} {l : Nat} {x : Word} (h : (c.ss l).length < ssDepth) :
    c.xssGive false l x = c.setSs l (x :: c.ss l) ∧ c.xssGive true l x = c.setSs l (c.ss l ++ [x]) := by
  have hn := Nat.not_le.mpr h
  exact ⟨by simp [Core.xssGive, hn], by simp [Core.xssGive, hn]⟩

/-! ### Words of SRAM -/

/-- A word of SRAM lies in it whole. -/
theorem sram_word {i a : Nat} (h : areaOf i a = .sram) (ha : a % 4 = 0) : ∀ k < 4, areaOf i (a + k) = .sram := by
  intro k hk
  unfold areaOf at h ⊢
  split_ifs at h ⊢
  · unfold keepArea at h ⊢
    split_ifs at h
    rw [if_neg (by omega), if_pos (by omega)]
  · unfold spireArea at h ⊢
    split_ifs at h
    rw [if_neg (by omega), if_pos (by omega)]

theorem sram_lt {i a : Nat} (h : areaOf i a = .sram) : a < 0x10200000 := by
  unfold areaOf at h
  split_ifs at h
  · unfold keepArea at h
    split_ifs at h
    omega
  · unfold spireArea at h
    split_ifs at h
    omega

theorem sram_last {i a : Nat} (h : areaOf i a = .sram) (ha : a % 4 = 0) : areaOf i (lastByte a 4) = .sram := by
  have hlt := sram_lt h
  rw [lastByte, Nat.mod_eq_of_lt (by omega)]
  exact sram_word h ha 3 (by omega)

/-- Reading a word of SRAM changes nothing. -/
theorem areaNat_sram {i a : Nat} (n : Nat) (h : ∀ k < n, areaOf i (a + k) = .sram) (m : Mach) : (areaNat i a n m).2 = m := by
  induction n generalizing a with
  | zero => rfl
  | succ n ih =>
    have hb : (areaByte i a m).2 = m := by
      unfold areaByte
      rw [show areaOf i a = .sram from h 0 (by omega)]
    unfold areaNat
    dsimp only
    rw [hb]
    exact ih fun k hk => by
      have := h (k + 1) (by omega)
      rwa [show a + 1 + k = a + (k + 1) by omega]

theorem coreRead_sram {a : Nat} (h : areaOf core a = .sram) (ha : a % 4 = 0) (hd : denied m core 0 a 4 = false) :
    coreRead core .clean a 4 m = .ok ((areaNat core a 4 m).1, m) := by
  have hlast := sram_last h ha
  unfold coreRead
  rw [h, hlast, hd]
  simp only [reduceCtorEq, Bool.false_eq_true, or_self, if_false, Area.device]
  exact congrArg Except.ok (Prod.ext rfl (areaNat_sram 4 (sram_word h ha) m))

theorem coreWrite_sram {a x : Nat} (h : areaOf core a = .sram) (ha : a % 4 = 0) (hd : denied m core 1 a 4 = false) :
    coreWrite core a 4 x m = .ok (memStore core a 4 x m) := by
  have hlast := sram_last h ha
  unfold coreWrite
  rw [h, hlast, hd]
  rfl

/-- A store changes the memory of its side, and of the cores a reservation alone. -/
theorem memStore_does (a x : Nat) (m : Mach) : (memStore core a 4 x m).core core = m.core core ∧
    (memStore core a 4 x m).signals = m.signals ∧
    (memStore core a 4 x m).keepMem = (if core.val = 2 then memWrN m.keepMem a (toLe 4 x) else m.keepMem) ∧
    (memStore core a 4 x m).hostMem = (if core.val = 2 then m.hostMem else memWrN m.hostMem a (toLe 4 x)) := by
  unfold memStore breakResv
  split_ifs with h
  · exact ⟨rfl, rfl, rfl, rfl⟩
  · exact ⟨updCore_ne (by omega) .., rfl, rfl, rfl⟩

end

section
variable {s : State} {core : Fin 3} {w v : Nat} {c : Instr} {m : Mach}

/-- An instruction that stores a word as it retires. -/
theorem goes_stores {d : Core} {pc : Word} {a x : Nat} {n : Mach} (hs : Settled s) (hc : exec c s = runWord core w .clean s)
    (hl : coreLive s.m core = true) (h : coreInsn core w .clean s.m = .ok m)
    (hm : m.core core = stepped d pc ∧ m.signals = n.signals ∧ m.keepMem = (memStore core a 4 x n).keepMem ∧
      m.hostMem = (memStore core a 4 x n).hostMem) (hn : CoreStep core s.m n) (hstep : d.step = (s.m.core core).step) :
    Goes c s (fun m => m.core core = retired d pc ∧
      m.keepMem = (if core.val = 2 then memWrN s.m.keepMem a (toLe 4 x) else s.m.keepMem) ∧
      m.hostMem = (if core.val = 2 then s.m.hostMem else memWrN s.m.hostMem a (toLe 4 x))) := by
  obtain ⟨hcore, hsig, hkeep, hhost⟩ := hm
  obtain ⟨-, -, hk, hh⟩ := memStore_does (core := core) a x n
  obtain ⟨hno, hal⟩ := Prod.mk.inj hsig
  obtain ⟨hnal, hnno⟩ := hn.quiet
  obtain ⟨-, -, ek, eh, -⟩ := endStep_fields core (s.m.core core).step m
  have hnk : n.keepMem = s.m.keepMem ∧ n.hostMem = s.m.hostMem := by
    rw [← hn.2]
    exact ⟨rfl, rfl⟩
  refine Goes.of_to (to_insn hs hc hl h ⟨hal.trans hnal, hno.trans hnno⟩) ⟨endStep_retired hstep hcore, ?_, ?_⟩
  · rw [ek, hkeep, hk, hnk.1]
  · rw [eh, hhost, hh, hnk.2]

/-! ### Loads, stores and atomics -/

theorem coreInsn_load {a : Nat} (hf : Fetches core w s) (hw : w < 2 ^ 32) (hv : insnWord w = some v) (ho : opcodeOf v = 0x03)
    (h3 : funct3 v = 2) (ha : a = ((s.m.core core).rdX (rs1Of v) + immI v).toNat) :
    coreInsn core w .clean s.m = match coreRead core .clean a 4 s.m with
      | .ok (x, m1) => (insnAt core w v).result (BitVec.ofNat 32 x) m1
      | .error e => .error e := by
  rw [coreInsn_of_fetches hf hw hv, (exec_opcode s.m).1 ho]
  unfold Insn.load
  dsimp only [insnAt]
  rw [h3, if_neg (by omega), ha]
  rfl

theorem coreInsn_atomic (hf : Fetches core w s) (hw : w < 2 ^ 32) (hv : insnWord w = some v) (ho : opcodeOf v = 0x2F)
    (h3 : funct3 v = 2) : coreInsn core w .clean s.m =
      if funct7 v / 4 = 2 then (if rs2Of v = 0 then (insnAt core w v).loadReserved s.m else (insnAt core w v).illegal)
      else if funct7 v / 4 = 3 then (insnAt core w v).storeConditional s.m
      else if (amoWord (funct7 v / 4) 0 0).isSome then (insnAt core w v).amo s.m
      else (insnAt core w v).illegal := by
  obtain ⟨-, -, -, -, -, h, -⟩ := exec_opcode (core := core) (w := w) (v := v) s.m
  rw [coreInsn_of_fetches hf hw hv, h ho]
  exact if_neg (not_not_intro h3)

section
variable {a : Nat} (ha : a = ((m.core core).rdX (rs1Of v)).toNat) (h4 : a % 4 = 0) (hsram : areaOf core a = .sram)
include ha h4 hsram

theorem loadReserved_sram (hd : denied m core 0 a 4 = false) : (insnAt core w v).loadReserved m =
    (insnAt core w v).result (BitVec.ofNat 32 (areaNat core a 4 m).1) (m.updCore core (fun c => { c with resv := some (a / 32) })) := by
  have hx : ((insnAt core w v).a m).toNat = a := ha.symm
  unfold Insn.loadReserved
  dsimp only
  rw [hx, show (insnAt core w v).i = core from rfl, show (insnAt core w v).e = CoreEcc.clean from rfl, hsram, hd,
    if_neg (by simp [Area.atomics]), if_neg (not_not_intro h4), coreRead_sram hsram h4 hd]

theorem storeConditional_sram (hd : denied m core 1 a 4 = false) : (insnAt core w v).storeConditional m =
    if (m.core core).resv = some (a / 32) then (insnAt core w v).result 0 (memStore core a 4 ((m.core core).rdX (rs2Of v)).toNat
      (m.updCore core (fun c => { c with resv := none })))
    else (insnAt core w v).result 1 (m.updCore core (fun c => { c with resv := none })) := by
  have hx : ((insnAt core w v).a m).toNat = a := ha.symm
  unfold Insn.storeConditional
  dsimp only
  rw [hx, show (insnAt core w v).i = core from rfl, hsram, hd, if_neg (by simp [Area.atomics]), if_neg (not_not_intro h4)]
  rfl

theorem amo_sram {n : Word} (hd0 : denied m core 0 a 4 = false) (hd1 : denied m core 1 a 4 = false)
    (hn : amoWord (funct7 v / 4) (BitVec.ofNat 32 (areaNat core a 4 m).1) ((m.core core).rdX (rs2Of v)) = some n) :
    (insnAt core w v).amo m = (insnAt core w v).result (BitVec.ofNat 32 (areaNat core a 4 m).1) (memStore core a 4 n.toNat m) := by
  have hx : ((insnAt core w v).a m).toNat = a := ha.symm
  have hn' : amoWord (funct7 (insnAt core w v).w / 4) (BitVec.ofNat 32 (areaNat core a 4 m).1) ((insnAt core w v).b m) = some n := hn
  unfold Insn.amo
  dsimp only
  rw [hx, show (insnAt core w v).i = core from rfl, show (insnAt core w v).e = CoreEcc.clean from rfl, hsram, hd0, hd1,
    if_neg (by simp [Area.atomics]), if_neg (not_not_intro h4), coreRead_sram hsram h4 hd0]
  dsimp only
  rw [hn']

end

theorem amoWord_isSome {f5 : Nat} {old b : Word} {n : Word} (h : amoWord f5 old b = some n) :
    (amoWord f5 0 0).isSome = true ∧ f5 ≠ 2 ∧ f5 ≠ 3 := by
  unfold amoWord at h ⊢
  split at h <;> simp at h ⊢

end

end Sys2Proof.Machine

/-! ## O40: what the instructions of a core do -/

namespace Sys2Proof.Machine

section
variable {s : State} {core : Fin 3} {w : Word} {c : Core} {v : Nat} {next : Word}
variable (hs : Settled s) (hf : Fetches core w.toNat s) (hc : c = s.m.core core) (hv : insnWord w.toNat = some v)
  (hn : next = c.pc + BitVec.ofNat 32 (insnLen w.toNat))
include hs hf hc hv hn

/-! ### Control registers (R363, R380) -/

theorem csrAccess_goes {n f : Nat} {src old : Word} {row : Nat × Nat} (h : isCsr v = true) (hnn : n = bits 31 20 v) (hff : f = funct3 v)
    (h4 : f ≠ 4) (hsrc : src = if 4 ≤ f then BitVec.ofNat 32 (rs1Of v) else c.rdX (rs1Of v)) (hrow : csrRow n = some row)
    (hlvl : csrLevel c n ≤ c.lvl) (hx : ∀ p, xssCsr n = some p → p.2 = 0) (hold : old = csrRead s.m core n) :
    (f % 4 ≠ 1 → rs1Of v = 0 → Goes (.csrAccess core w) s (CoreOnly core (retired (c.wrX (rdOf v) old) next) s.m)) ∧
    (f % 4 = 1 ∨ rs1Of v ≠ 0 → row.1 ≠ 2 → Goes (.csrAccess core w) s
      (CoreOnly core (retired ((c.csrWrite n (csrNew f old src)).wrX (rdOf v) old) next) s.m)) := by
  subst hc hnn hff hsrc hold hn
  have hi := coreInsn_csr hf w.isLt hv h
  have hk : exec (.csrAccess core w) s = runWord core w.toNat .clean s := runKind_of hv h
  refine ⟨fun h1 h0 => ?_, fun hw hro => ?_⟩
  · have hw : csrWrites v = false := by simp [csrWrites, h1, h0]
    rw [csr_plain hrow h4 hlvl hx fun _ => hw, if_neg (by simp [hw])] at hi
    exact goes_result_only hs hk hf.1 hi
  · have hw : csrWrites v = true := by simpa [csrWrites] using hw
    rw [csr_plain hrow h4 hlvl hx fun h => absurd h hro, if_pos hw] at hi
    exact goes_result hs hk hf.1 hi ((CoreStep.refl ..).updCore _) (Mach.updCore_same ..) (csrWrite_fields ..).1 (csrWrite_fields ..).2

omit hs in
theorem xss_insn {l k : Nat} {i : Instr} {b : Bool} (h : isCsr v = true) (hlvl : csrLevel c (bits 31 20 v) ≤ c.lvl)
    (hx : xssCsr (bits 31 20 v) = some (l, k + 1)) (h3 : funct3 v % 4 = if b then 1 else 2)
    (hk : exec i s = runKind (isXss (k + 1) b) core w.toNat s) :
    exec i s = runWord core w.toNat .clean s ∧
    coreInsn core w.toNat .clean s.m = (insnAt core w.toNat v).xss l (k == 1) s.m := by
  subst hc
  have h4 : funct3 v ≠ 4 := by
    intro h4
    rw [h4] at h3
    cases b <;> simp at h3
  refine ⟨hk.trans (runKind_of hv ?_), (coreInsn_csr hf w.isLt hv h).trans (csr_xss hx h4 hlvl)⟩
  simp [isXss, h, hx, h3]

theorem xssRead_goes {l k : Nat} {i : Instr} (h : isCsr v = true) (hlvl : csrLevel c (bits 31 20 v) ≤ c.lvl)
    (hx : xssCsr (bits 31 20 v) = some (l, k + 1)) (h3 : funct3 v % 4 = 2) (h0 : rs1Of v = 0)
    (hk : exec i s = runKind (isXss (k + 1) false) core w.toNat s) {a : Word} {d : Core} (ht : c.xssTake (k == 1) l = (a, d))
    (hd : d.pc = c.pc ∧ d.step = c.step) : Goes i s (CoreOnly core (retired (d.wrX (rdOf v) a) next) s.m) := by
  obtain ⟨hrun, hi⟩ := xss_insn hf hc hv hn (b := false) h hlvl hx h3 hk
  subst hc hn
  rw [xss_read h3 h0, ht] at hi
  exact goes_result hs hrun hf.1 hi ((CoreStep.refl ..).setCore _) (Mach.setCore_same ..) hd.1 hd.2

theorem xssWrite_goes {l k : Nat} {i : Instr} {a : Word} {d : Core} (h : isCsr v = true) (hlvl : csrLevel c (bits 31 20 v) ≤ c.lvl)
    (hx : xssCsr (bits 31 20 v) = some (l, k + 1)) (h3 : funct3 v % 4 = 1) (h0 : rdOf v = 0)
    (ha : a = if 4 ≤ funct3 v then BitVec.ofNat 32 (rs1Of v) else c.rdX (rs1Of v))
    (hk : exec i s = runKind (isXss (k + 1) true) core w.toNat s) (hg : c.xssGive (k == 1) l a = d)
    (hd : d.pc = c.pc ∧ d.step = c.step) : Goes i s (CoreOnly core (retired d next) s.m) := by
  obtain ⟨hrun, hi⟩ := xss_insn hf hc hv hn (b := true) h hlvl hx h3 hk
  subst hc hn ha
  rw [xss_write h3 h0] at hi
  exact goes_retire hs hrun hf.1 hi ((CoreStep.refl ..).updCore _) ((Mach.updCore_same ..).trans hg) hd.1 hd.2

theorem xss_all_goes (l : Nat) (a : Word) (rest : List Word) (h : isCsr v = true) (hlvl : csrLevel c (bits 31 20 v) ≤ c.lvl) :
    (xssCsr (bits 31 20 v) = some (l, 1) → funct3 v % 4 = 2 → rs1Of v = 0 →
      (c.ss l = a :: rest → Goes (.xssTopRead core w) s (CoreOnly core (retired ((c.setSs l rest).wrX (rdOf v) a) next) s.m)) ∧
      (c.ss l = [] → Goes (.xssTopRead core w) s (CoreOnly core (retired (c.wrX (rdOf v) 0) next) s.m))) ∧
    (xssCsr (bits 31 20 v) = some (l, 2) → funct3 v % 4 = 2 → rs1Of v = 0 →
      (c.ss l = rest ++ [a] → Goes (.xssBotRead core w) s (CoreOnly core (retired ((c.setSs l rest).wrX (rdOf v) a) next) s.m)) ∧
      (c.ss l = [] → Goes (.xssBotRead core w) s (CoreOnly core (retired (c.wrX (rdOf v) 0) next) s.m))) ∧
    (funct3 v % 4 = 1 → rdOf v = 0 → a = (if 4 ≤ funct3 v then BitVec.ofNat 32 (rs1Of v) else c.rdX (rs1Of v)) →
      (c.ss l).length < ssDepth →
      (xssCsr (bits 31 20 v) = some (l, 1) → Goes (.xssTopWrite core w) s
        (CoreOnly core (retired (c.setSs l (a :: c.ss l)) next) s.m)) ∧
      (xssCsr (bits 31 20 v) = some (l, 2) → Goes (.xssBotWrite core w) s
        (CoreOnly core (retired (c.setSs l (c.ss l ++ [a])) next) s.m))) := by
  have hset (x : List Word) : (c.setSs l x).pc = c.pc ∧ (c.setSs l x).step = c.step := ⟨(setSs_fields l x).1, (setSs_fields l x).2.1⟩
  refine ⟨fun hx h2 h0 => ⟨fun hss => ?_, fun hss => ?_⟩, fun hx h2 h0 => ⟨fun hss => ?_, fun hss => ?_⟩,
    fun h1 h0 ha hroom => ⟨fun hx => ?_, fun hx => ?_⟩⟩
  · exact xssRead_goes hs hf hc hv hn h hlvl hx h2 h0 rfl (xssTake_top hss) (hset _)
  · exact xssRead_goes hs hf hc hv hn h hlvl hx h2 h0 rfl (xssTake_nil _ hss) ⟨rfl, rfl⟩
  · exact xssRead_goes hs hf hc hv hn h hlvl hx h2 h0 rfl (xssTake_bot hss) (hset _)
  · exact xssRead_goes hs hf hc hv hn h hlvl hx h2 h0 rfl (xssTake_nil _ hss) ⟨rfl, rfl⟩
  · exact xssWrite_goes hs hf hc hv hn h hlvl hx h1 h0 ha rfl (xssGive_room hroom).1 (hset _)
  · exact xssWrite_goes hs hf hc hv hn h hlvl hx h1 h0 ha rfl (xssGive_room hroom).2 (hset _)

/-! ### Calls and returns (R378, R379) -/

theorem shadowCall_goes {t : Word} (h : isShadowCall v = true) (ht : opcodeOf v = 0x6F ∧ t = c.pc + immJ v ∨
      opcodeOf v = 0x67 ∧ funct3 v = 0 ∧ isReturn (rdOf v) (rs1Of v) = false ∧ t = (c.rdX (rs1Of v) + immI v) &&& 0xFFFFFFFE) :
    (c.ssOn = true → (c.ss c.lvl).length < ssDepth → Goes (.shadowCall core w) s
      (CoreOnly core (retired ((c.setSs c.lvl (next :: c.ss c.lvl)).wrX (rdOf v) next) t) s.m)) ∧
    (c.ssOn = true → ssDepth ≤ (c.ss c.lvl).length → Goes (.shadowCall core w) s (Faulted core 3 2 next.toNat s.m)) ∧
    (c.ssOn = false → Goes (.shadowCall core w) s (CoreOnly core (retired (c.wrX (rdOf v) next) t) s.m)) := by
  subst hc hn
  have hk : exec (.shadowCall core w) s = runWord core w.toNat .clean s := runKind_of hv h
  obtain ⟨-, hl⟩ := isShadowCall_iff.mp h
  have hi : coreInsn core w.toNat .clean s.m = (insnAt core w.toNat v).jump false t s.m := by
    obtain ⟨ho, rfl⟩ | ⟨ho, h3, hr, rfl⟩ := ht
    · exact coreInsn_jal hf w.isLt hv ho
    · exact hr ▸ coreInsn_jalr hf w.isLt hv ho h3
  refine ⟨fun hon hroom => ?_, fun hon hfull => ?_, fun hoff => ?_⟩
  · refine goes_jump hs hk hf.1 hi ?_ (setSs_fields ..).2.1
    rw [hl, ssJump_call hon, ssCall_room hroom]
  · refine goes_faulted hs hk hf.1 (hi.trans (jump_error ?_)) (by decide)
    rw [hl, ssJump_call hon, ssCall_full hfull]
  · exact goes_jump hs hk hf.1 hi (ssJump_off hoff) rfl

theorem shadowReturn_goes {t a : Word} {rest : List Word} (h : isShadowReturn v = true) (h3 : funct3 v = 0)
    (ht : t = (c.rdX (rs1Of v) + immI v) &&& 0xFFFFFFFE) :
    (c.ssOn = true → c.ss c.lvl = t :: rest → rdOf v = 0 → Goes (.shadowReturn core w) s
      (CoreOnly core (retired (c.setSs c.lvl rest) t) s.m)) ∧
    (c.ssOn = true → c.ss c.lvl = t :: rest → rdOf v ≠ 0 → (t :: rest).length ≤ ssDepth → Goes (.shadowReturn core w) s
      (CoreOnly core (retired ((c.setSs c.lvl (next :: rest)).wrX (rdOf v) next) t) s.m)) ∧
    (c.ssOn = true → c.ss c.lvl = a :: rest → a ≠ t → Goes (.shadowReturn core w) s (Faulted core 3 1 a.toNat s.m)) ∧
    (c.ssOn = true → c.ss c.lvl = [] → Goes (.shadowReturn core w) s (Faulted core 3 3 t.toNat s.m)) ∧
    (c.ssOn = false → Goes (.shadowReturn core w) s (CoreOnly core (retired (c.wrX (rdOf v) next) t) s.m)) := by
  subst hc hn
  have hk : exec (.shadowReturn core w) s = runWord core w.toNat .clean s := runKind_of hv h
  obtain ⟨ho, hr⟩ := isShadowReturn_iff.mp h
  have hi : coreInsn core w.toNat .clean s.m = (insnAt core w.toNat v).jump true t s.m := by
    rw [coreInsn_jalr hf w.isLt hv ho h3, hr, ht]
  refine ⟨fun hon hss h0 => ?_, fun hon hss h0 hlen => ?_, fun hon hss hne => ?_, fun hon hss => ?_, fun hoff => ?_⟩
  · have hj := ((ssJump_return (call := isCall (rdOf v)) (link := (s.m.core core).pc + BitVec.ofNat 32 (insnLen w.toNat)) hon).2.2 rest hss)
    rw [h0, if_neg (by decide)] at hj
    have := goes_jump hs hk hf.1 hi (h0 ▸ hj) (setSs_fields ..).2.1
    rwa [h0, Core.wrX, if_pos rfl] at this
  · have hlink : isCall (rdOf v) = true := by
      have : isLink (rs1Of v) = true ∧ (rdOf v = 0 ∨ isLink (rdOf v) = true ∧ rdOf v ≠ rs1Of v) := by simpa [isReturn] using hr
      exact (this.2.resolve_left h0).1
    have hj := ((ssJump_return (call := isCall (rdOf v)) (link := (s.m.core core).pc + BitVec.ofNat 32 (insnLen w.toNat)) hon).2.2 rest hss)
    obtain ⟨-, -, hl, hs'⟩ := setSs_fields (d := s.m.core core) (s.m.core core).lvl rest
    rw [if_pos hlink, ssCall_room (by rw [hl, hs']; simpa using hlen), hl, hs', setSs_setSs] at hj
    exact goes_jump hs hk hf.1 hi hj (setSs_fields ..).2.1
  · exact goes_faulted hs hk hf.1 (hi.trans (jump_error ((ssJump_return hon).2.1 a rest hss hne))) (by decide)
  · exact goes_faulted hs hk hf.1 (hi.trans (jump_error ((ssJump_return hon).1 hss))) (by decide)
  · exact goes_jump hs hk hf.1 hi (ssJump_off hoff) rfl

omit hv in
/-- An instruction with a stored word and a result in rd. -/
theorem goes_store_result {i : Instr} {m : Mach} {d : Core} {a x : Nat} {y : Word} (hk : exec i s = runWord core w.toNat .clean s)
    (hi : coreInsn core w.toNat .clean s.m = (insnAt core w.toNat v).result y (memStore core a 4 x m)) (hm : CoreStep core s.m m)
    (hd : m.core core = d) (hpc : d.pc = c.pc) (hstep : d.step = c.step) : Goes i s (fun m =>
      m.core core = retired (d.wrX (rdOf v) y) next ∧
      m.keepMem = (if core.val = 2 then memWrN s.m.keepMem a (toLe 4 x) else s.m.keepMem) ∧
      m.hostMem = (if core.val = 2 then s.m.hostMem else memWrN s.m.hostMem a (toLe 4 x))) := by
  subst hc
  obtain ⟨hcore, hsig, -⟩ := memStore_does (core := core) a x m
  have hnext : (insnAt core w.toNat v).next (memStore core a 4 x m) = next := by
    rw [hn, ← hpc, ← hd, ← hcore]
    rfl
  refine goes_stores hs hk hf.1 hi ⟨?_, hsig, rfl, rfl⟩ hm (by simp [hstep])
  refine (Mach.updCore_same ..).trans ?_
  rw [Insn.retire, hnext]
  have hret : ((insnAt core w.toNat v).retireAt next (memStore core a 4 x m)).core core = stepped d next := by
    rw [← hd, ← hcore]
    exact Mach.updCore_same ..
  exact (congrArg (Core.wrX (rdOf v) y) hret).trans (wrX_stepped ..)

/-! ### Atomics, loads and stores (R386) -/

theorem atomic_goes {a : Nat} {old n : Word} (ho : opcodeOf v = 0x2F) (h3 : funct3 v = 2) (ha : a = (c.rdX (rs1Of v)).toNat)
    (h4 : a % 4 = 0) (hsram : areaOf core a = .sram) (hold : old = BitVec.ofNat 32 (areaNat core a 4 s.m).1) :
    (funct7 v / 4 = 2 → rs2Of v = 0 → denied s.m core 0 a 4 = false → Goes (.atomic core w) s
      (CoreOnly core (retired ({ c with resv := some (a / 32) }.wrX (rdOf v) old) next) s.m)) ∧
    (funct7 v / 4 = 3 → denied s.m core 1 a 4 = false → c.resv = some (a / 32) → Goes (.atomic core w) s (fun m =>
      m.core core = retired ({ c with resv := none }.wrX (rdOf v) 0) next ∧
      m.keepMem = (if core.val = 2 then memWrN s.m.keepMem a (toLe 4 (c.rdX (rs2Of v)).toNat) else s.m.keepMem) ∧
      m.hostMem = (if core.val = 2 then s.m.hostMem else memWrN s.m.hostMem a (toLe 4 (c.rdX (rs2Of v)).toNat)))) ∧
    (funct7 v / 4 = 3 → denied s.m core 1 a 4 = false → c.resv ≠ some (a / 32) → Goes (.atomic core w) s
      (CoreOnly core (retired ({ c with resv := none }.wrX (rdOf v) 1) next) s.m)) ∧
    (amoWord (funct7 v / 4) old (c.rdX (rs2Of v)) = some n → denied s.m core 0 a 4 = false → denied s.m core 1 a 4 = false →
      Goes (.atomic core w) s (fun m => m.core core = retired (c.wrX (rdOf v) old) next ∧
        m.keepMem = (if core.val = 2 then memWrN s.m.keepMem a (toLe 4 n.toNat) else s.m.keepMem) ∧
        m.hostMem = (if core.val = 2 then s.m.hostMem else memWrN s.m.hostMem a (toLe 4 n.toNat)))) := by
  subst hc hn hold
  have hk : exec (.atomic core w) s = runWord core w.toNat .clean s := runKind_of hv (by simp [isAtomic, ho])
  have hi := coreInsn_atomic hf w.isLt hv ho h3
  refine ⟨fun h5 h2 hd => ?_, fun h5 hd hr => ?_, fun h5 hd hr => ?_, fun hamo hd0 hd1 => ?_⟩
  · rw [if_pos h5, if_pos h2, loadReserved_sram ha h4 hsram hd] at hi
    exact goes_result hs hk hf.1 hi ((CoreStep.refl ..).updCore _) (Mach.updCore_same ..) rfl rfl
  · rw [if_neg (by omega), if_pos h5, storeConditional_sram ha h4 hsram hd, if_pos hr] at hi
    exact goes_store_result hs hf rfl rfl hk hi ((CoreStep.refl ..).updCore _) (Mach.updCore_same ..) rfl rfl
  · rw [if_neg (by omega), if_pos h5, storeConditional_sram ha h4 hsram hd, if_neg hr] at hi
    exact goes_result hs hk hf.1 hi ((CoreStep.refl ..).updCore _) (Mach.updCore_same ..) rfl rfl
  · obtain ⟨hsome, h2, h3⟩ := amoWord_isSome hamo
    rw [if_neg h2, if_neg h3, if_pos hsome, amo_sram ha h4 hsram hd0 hd1 hamo] at hi
    exact goes_store_result hs hf rfl rfl hk hi (.refl ..) rfl rfl rfl

theorem load_goes {a : Nat} (ho : opcodeOf v = 0x03) (h3 : funct3 v = 2) (ha : a = (c.rdX (rs1Of v) + immI v).toNat) (h4 : a % 4 = 0)
    (hsram : areaOf core a = .sram) (hd : denied s.m core 0 a 4 = false) : Goes (.instruction core w .clean) s (CoreOnly core
      (retired (c.wrX (rdOf v) (BitVec.ofNat 32 (areaNat core a 4 s.m).1)) next) s.m) := by
  subst hc hn
  have hi := coreInsn_load hf w.isLt hv ho h3 ha
  rw [coreRead_sram hsram h4 hd] at hi
  exact goes_result_only hs rfl hf.1 hi

theorem store_goes {a : Nat} (ho : opcodeOf v = 0x23) (h3 : funct3 v = 2) (ha : a = (c.rdX (rs1Of v) + immS v).toNat) (h4 : a % 4 = 0)
    (hsram : areaOf core a = .sram) (hd : denied s.m core 1 a 4 = false) : Goes (.instruction core w .clean) s (fun m =>
      m.core core = retired c next ∧
      m.keepMem = (if core.val = 2 then memWrN s.m.keepMem a (toLe 4 (c.rdX (rs2Of v)).toNat) else s.m.keepMem) ∧
      m.hostMem = (if core.val = 2 then s.m.hostMem else memWrN s.m.hostMem a (toLe 4 (c.rdX (rs2Of v)).toNat))) := by
  subst hc hn
  obtain ⟨-, -, -, -, hexec, -⟩ := exec_opcode (core := core) (w := w.toNat) (v := v) s.m
  have hret : CoreStep core s.m ((insnAt core w.toNat v).retire s.m) := (CoreStep.refl ..).updCore _
  have hcore : ((insnAt core w.toNat v).retire s.m).core core = stepped (s.m.core core) _ := Mach.updCore_same ..
  have hd' : denied ((insnAt core w.toNat v).retire s.m) core 1 a 4 = false := by
    have hall (k b : Nat) : (((insnAt core w.toNat v).retire s.m).core core).allows k b = (s.m.core core).allows k b := by
      rw [hcore]
      rfl
    rw [denied, hall, hall]
    exact hd
  have hb : ((s.m.core core).rdX (rs2Of v)).toNat % 2 ^ (8 * 2 ^ 2) = ((s.m.core core).rdX (rs2Of v)).toNat :=
    Nat.mod_eq_of_lt (BitVec.isLt _)
  have hi : coreInsn core w.toNat .clean s.m =
      .ok (memStore core a 4 ((s.m.core core).rdX (rs2Of v)).toNat ((insnAt core w.toNat v).retire s.m)) := by
    rw [coreInsn_of_fetches hf w.isLt hv, hexec ho, ← coreWrite_sram hsram h4 hd', ← hb, ha]
    unfold Insn.store
    dsimp only
    rw [show (insnAt core w.toNat v).w = v from rfl, h3, if_neg (by omega)]
    rfl
  obtain ⟨hc', hsig, -⟩ := memStore_does (core := core) a ((s.m.core core).rdX (rs2Of v)).toNat ((insnAt core w.toNat v).retire s.m)
  exact goes_stores hs rfl hf.1 hi ⟨hc'.trans hcore, hsig, rfl, rfl⟩ hret rfl

/-! ### Integers, branches and floating point -/

theorem integer_goes :
    (opcodeOf v = 0x13 → funct3 v ≠ 1 → funct3 v ≠ 5 → Goes (.instruction core w .clean) s (CoreOnly core
      (retired (c.wrX (rdOf v) (alu (funct3 v) false (c.rdX (rs1Of v)) (immI v))) next) s.m)) ∧
    (opcodeOf v = 0x33 → funct7 v = 0 → Goes (.instruction core w .clean) s (CoreOnly core
      (retired (c.wrX (rdOf v) (alu (funct3 v) false (c.rdX (rs1Of v)) (c.rdX (rs2Of v)))) next) s.m)) ∧
    (opcodeOf v = 0x33 → funct7 v = 1 → Goes (.instruction core w .clean) s (CoreOnly core
      (retired (c.wrX (rdOf v) (mulDiv (funct3 v) (c.rdX (rs1Of v)) (c.rdX (rs2Of v)))) next) s.m)) ∧
    (opcodeOf v = 0x37 → Goes (.instruction core w .clean) s (CoreOnly core (retired (c.wrX (rdOf v) (immU v)) next) s.m)) ∧
    (opcodeOf v = 0x17 → Goes (.instruction core w .clean) s
      (CoreOnly core (retired (c.wrX (rdOf v) (c.pc + immU v)) next) s.m)) ∧
    (opcodeOf v = 0x63 → funct3 v ≠ 2 → funct3 v ≠ 3 → Goes (.instruction core w .clean) s (CoreOnly core (retired c
      (if branchTaken (funct3 v) (c.rdX (rs1Of v)) (c.rdX (rs2Of v)) then c.pc + immB v else next)) s.m)) := by
  subst hc hn
  obtain ⟨-, -, himm, hauipc, -, -, hop, hlui, -, hbr, -⟩ := exec_opcode (core := core) (w := w.toNat) (v := v) s.m
  have hi := coreInsn_of_fetches hf w.isLt hv
  refine ⟨fun ho h1 h5 => ?_, fun ho h7 => ?_, fun ho h7 => ?_, fun ho => ?_, fun ho => ?_, fun ho h2 h3 => ?_⟩
  · exact goes_result_only hs rfl hf.1 (hi.trans ((himm ho).trans ((if_neg h1).trans (if_neg h5))))
  · exact goes_result_only hs rfl hf.1 (hi.trans ((hop ho).trans (if_pos h7)))
  · have h0 : ¬funct7 v = 0 := by omega
    exact goes_result_only hs rfl hf.1 (hi.trans ((hop ho).trans ((if_neg h0).trans (if_pos h7))))
  · exact goes_result_only hs rfl hf.1 (hi.trans (hlui ho))
  · exact goes_result_only hs rfl hf.1 (hi.trans (hauipc ho))
  · have hb := (hbr ho).trans (if_neg (show ¬(funct3 v = 2 ∨ funct3 v = 3) by omega))
    split_ifs with ht
    · exact goes_retireAt hs rfl hf.1 (hi.trans (hb.trans (if_pos ht))) (.refl ..) rfl rfl
    · exact goes_retire hs rfl hf.1 (hi.trans (hb.trans (if_neg ht))) (.refl ..) rfl rfl rfl

theorem fadd_goes {rm : Nat} {r : FRes} (ho : opcodeOf v = 0x53) (h7 : funct7 v = 0) (hr : roundMode c (funct3 v) = some rm)
    (hres : r = fAdd rm (f32 (c.rdF (rs1Of v))) (f32 (c.rdF (rs2Of v)))) : Goes (.instruction core w .clean) s (CoreOnly core
      (retired ((c.wrF (rdOf v) r.1).raiseF r.2) next) s.m) := by
  subst hc hn hres
  obtain ⟨-, -, -, -, -, -, -, -, hfp, -⟩ := exec_opcode (core := core) (w := w.toNat) (v := v) s.m
  have hi := coreInsn_of_fetches hf w.isLt hv
  rw [hfp ho] at hi
  have hadd : (insnAt core w.toNat v).opFp s.m = (insnAt core w.toNat v).resultF
      (fAdd rm (f32 ((s.m.core core).rdF (rs1Of v))) (f32 ((s.m.core core).rdF (rs2Of v)))) s.m := by
    unfold Insn.opFp
    rw [show (insnAt core w.toNat v).w = v from rfl, show (insnAt core w.toNat v).core s.m = s.m.core core from rfl, h7, hr]
    unfold Insn.opFpRound
    dsimp only
    rw [show (insnAt core w.toNat v).w = v from rfl, h7]
    rfl
  rw [hadd] at hi
  exact goes_retire_upd hs rfl hf.1 hi (.refl ..) rfl rfl

theorem fence_goes : (isFence v = true → Goes (.fence core w) s (CoreOnly core (retired c next) s.m)) ∧
    (isFenceI v = true → Goes (.fenceI core w) s (CoreOnly core (retired c next) s.m)) := by
  subst hc hn
  obtain ⟨-, hfence, -⟩ := exec_opcode (core := core) (w := w.toNat) (v := v) s.m
  have hi := coreInsn_of_fetches hf w.isLt hv
  have hgo (ho : opcodeOf v = 0x0F) (h3 : funct3 v < 2) : coreInsn core w.toNat .clean s.m = .ok ((insnAt core w.toNat v).retire s.m) :=
    hi.trans ((hfence ho).trans (if_pos h3))
  refine ⟨fun h => ?_, fun h => ?_⟩
  · obtain ⟨ho, h3⟩ : opcodeOf v = 0x0F ∧ funct3 v = 0 := by simpa [isFence] using h
    exact goes_retire hs (runKind_of hv h) hf.1 (hgo ho (by omega)) (.refl ..) rfl rfl rfl
  · obtain ⟨ho, h3⟩ : opcodeOf v = 0x0F ∧ funct3 v = 1 := by simpa [isFenceI] using h
    exact goes_retire hs (runKind_of hv h) hf.1 (hgo ho (by omega)) (.refl ..) rfl rfl rfl

theorem wfi_goes (hw : w = 0x7F100073) (hl : 1 ≤ c.lvl) : Goes (.wfi core) s
    (CoreOnly core { retired c next with gated := !belWakes s.m core && !c.step } s.m) := by
  subst hc hn hw
  have hv' : v = 0x7F100073 := (Option.some.inj (hv.symm.trans rfl))
  subst hv'
  have h3 : funct3 0x7F100073 = 0 := by decide
  have hl' : ¬(s.m.core core).lvl = 0 := by omega
  have hwfi (k : Nat) : (insnAt core k 0x7F100073).system s.m = (insnAt core k 0x7F100073).wfi s.m := by
    simp [Insn.system, insnAt, h3]
  have hi := coreInsn_of_fetches hf (by decide) hv
  rw [exec_system (by decide), hwfi] at hi
  replace hi := hi.trans (if_neg hl')
  exact goes_retire_upd hs rfl hf.1 hi (.refl ..) (e := { s.m.core core with gated := !belWakes s.m core }) rfl rfl

end

/-- Settles O40: each instruction changes its core as its rule says and retires, or the shadow stack bars it. -/
theorem coreInstructions : Obligations.CoreInstructions := by
  unfold Obligations.CoreInstructions
  intro s core w c v next hs hf hc hv hn
  obtain ⟨hfence, hfenceI⟩ := fence_goes hs hf hc hv hn
  obtain ⟨h13, h33, hmul, hlui, hauipc, hbranch⟩ := integer_goes hs hf hc hv hn
  exact ⟨hfence, hfenceI, wfi_goes hs hf hc hv hn,
    fun n f src old row h hnn hff h4 hsrc hrow hlvl hx hold => csrAccess_goes hs hf hc hv hn h hnn hff h4 hsrc hrow hlvl hx hold,
    fun l a rest h hlvl => xss_all_goes hs hf hc hv hn l a rest h hlvl,
    fun t h ht => shadowCall_goes hs hf hc hv hn h ht,
    fun t a rest h h3 ht => shadowReturn_goes hs hf hc hv hn h h3 ht,
    fun a old n ho h3 ha h4 hsram hold => atomic_goes hs hf hc hv hn ho h3 ha h4 hsram hold,
    h13, h33, hmul, hlui, hauipc, hbranch,
    fun a ho h3 ha h4 hsram hd => load_goes hs hf hc hv hn ho h3 ha h4 hsram hd,
    fun a ho h3 ha h4 hsram hd => store_goes hs hf hc hv hn ho h3 ha h4 hsram hd,
    fun rm r ho h7 hr hres => fadd_goes hs hf hc hv hn ho h7 hr hres⟩

end Sys2Proof.Machine

/-! # O41 and O42: entries, waking and the debug access ports

A debug halt of Keep touches neither the cores but for the halt itself nor what waits to be acted on. -/

namespace Sys2Proof.Machine

/-! ## A halt begins and ends (R30, R389) -/

theorem clockwork_outTransition (c : Nat) (lvl : Bool) (t : Nat) (m : Mach) : (outTransition c lvl t m).clockwork = m.clockwork :=
  clockwork_outApply ..

theorem signals_outTransition (c : Nat) (lvl : Bool) (t : Nat) (m : Mach) : (outTransition c lvl t m).signals = m.signals := by
  obtain ⟨hal, hno⟩ := outTransition_quiet c lvl t m
  exact congrArg₂ Prod.mk hno hal

/-- What waits to be acted on, and what time runs by. -/
def Mach.course (m : Mach) : (List Note × List Nat) × Timebase × Power × List (Nat × Core) := (m.signals, m.clockwork)

theorem course_of {m m1 : Mach} (hs : m1.signals = m.signals) (hc : m1.clockwork = m.clockwork) : m1.course = m.course :=
  congrArg₂ Prod.mk hs hc

theorem eq_of_course {m m1 : Mach} (h : m1.course = m.course) :
    (m1.alarms = m.alarms ∧ m1.notes = m.notes) ∧ m1.tb = m.tb ∧ m1.pwr = m.pwr ∧ m1.cores = m.cores :=
  ⟨⟨congrArg (·.1.2) h, congrArg (·.1.1) h⟩, congrArg (·.2.1) h, congrArg (·.2.2.1) h, congrArg (·.2.2.2) h⟩

theorem course_outTransition (c : Nat) (lvl : Bool) (t : Nat) (m : Mach) : (outTransition c lvl t m).course = m.course :=
  course_of (signals_outTransition ..) (clockwork_outTransition ..)

theorem course_statusSync (m : Mach) : (statusSync m).course = m.course := course_of (signals_statusSync m) (clockwork_statusSync m)

theorem course_pinTake (x : Nat) (d : PinChange) (m : Mach) : (pinTake x d m).course = m.course := by
  unfold pinTake
  extract_lets on m1
  have h1 : m1.course = m.course := rfl
  split
  · exact h1
  · split_ifs
    · rw [course_outTransition, h1]
    · exact h1

theorem course_octsDapHalt (m : Mach) : (octsDapHalt m).course = m.course := by
  have hdark (o mask : Nat) (m : Mach) : (octDark o mask m).course = m.course := by
    unfold octDark openBlank
    dsimp only
    split_ifs <;> rfl
  refine each_keeps (g := Mach.course) (fun o m => ?_) _ m
  split_ifs
  · exact hdark ..
  · rfl

theorem course_keepHaltBegins (m : Mach) : (keepHaltBegins m).course = m.course := by
  have hpins (x : Nat) (m : Mach) : (pinsDrive x m).course = m.course :=
    each_keeps (g := Mach.course) (fun i m => course_pinTake ..) _ _
  have haxes : (axesDapHalt m).course = m.course := 
    each_keeps (g := Mach.course) (f := fun a m => m.updAx a (fun x => { x with pend := none })) (fun _ _ => rfl) _ m
  rw [keepHaltBegins, course_statusSync, ← haxes]
  exact each_keeps (g := Mach.course) hpins _ _

theorem signals_keepHaltEnds (m : Mach) : (keepHaltEnds m).signals = m.signals := by
  have hrest (m : Mach) : (wdRestart (belReleaseHeld m)).signals = m.signals := rfl
  have hocts (m : Mach) : (octsDapResume m).signals = m.signals :=
    each_keeps (g := Mach.signals) (fun o m => by split_ifs <;> rfl) _ m
  have harm (m : Mach) : (lanArmAll m).signals = m.signals :=
    each_keeps (g := Mach.signals) (fun s m => by split_ifs; exacts [signals_evtAim .., rfl]) _ m
  have hlan (m : Mach) : (lanRestart m).signals = m.signals := by
    unfold lanRestart
    split_ifs
    · rw [signals_lanUnblock, harm]
    · rfl
  have hstop (m : Mach) : (lanStop m).signals = m.signals :=
    each_keeps (g := Mach.signals) (fun c m => by unfold angleClear; split_ifs; exacts [signals_outTransition .., rfl]) _ _
  have hchans : (chansRestart m).signals = m.signals :=
    each_keeps (g := Mach.signals) (fun c m => by unfold chanRestart sdDrawn; split_ifs <;> rfl) _ m
  rw [keepHaltEnds, signals_statusSync, hrest, hocts, hlan, hstop, hchans]

theorem course_keepHaltEnds (m : Mach) : (keepHaltEnds m).course = m.course :=
  course_of (signals_keepHaltEnds m) (clockwork_keepHaltEnds m)

section
variable {i : Nat} {m : Mach}

/-- A core halts: nothing but its halt and what stands still with Keep changes (R377, R389). -/
theorem coreHalt_does (i : Nat) (m : Mach) : ((coreHalt i m).alarms = m.alarms ∧ (coreHalt i m).notes = m.notes) ∧
    ((m.core i).halted = false → (coreHalt i m).core i = { m.core i with halted := true, gated := false }) ∧
    ((m.core i).halted = true → (coreHalt i m).core i = { m.core i with resume := false }) := by
  unfold coreHalt
  split_ifs with hh h2
  · exact ⟨⟨rfl, rfl⟩, fun hn => absurd (hn.symm.trans hh) (by decide), fun _ => m.updCore_same i _⟩
  · subst h2
    dsimp only
    obtain ⟨⟨hal, hno⟩, -, -, hcores⟩ := eq_of_course (course_octsDapHalt m)
    have hcore : (octsDapHalt m).core 2 = m.core 2 := by rw [Mach.core, hcores, Mach.core]
    rw [show Mach.when (2 == 2) octsDapHalt m = octsDapHalt m from rfl]
    generalize octsDapHalt m = n at *
    obtain ⟨⟨hal', hno'⟩, -, -, hcores'⟩ := eq_of_course (course_keepHaltBegins
      (n.updCore 2 (fun c => { c with halted := true, gated := false })))
    refine ⟨⟨hal'.trans hal, hno'.trans hno⟩, fun _ => ?_, fun hn => absurd hn hh⟩
    rw [Mach.core, hcores', ← Mach.core, Mach.updCore_same, hcore]
  · have h2' : (i == 2) = false := by simpa using h2
    dsimp only
    rw [h2', Mach.when, if_neg (by decide)]
    exact ⟨⟨rfl, rfl⟩, fun _ => m.updCore_same i _, fun hn => absurd hn hh⟩

/-- A core leaves its halt (R389). -/
theorem coreGoesOn_does (i : Nat) (m : Mach) : ((coreGoesOn i m).alarms = m.alarms ∧ (coreGoesOn i m).notes = m.notes) ∧
    (coreGoesOn i m).core i = { m.core i with halted := false, step := false, resume := false } := by
  unfold coreGoesOn
  dsimp only
  split_ifs
  · obtain ⟨hq, -, -, hcores⟩ := eq_of_course (course_keepHaltEnds
      (m.updCore i (fun c => { c with halted := false, step := false, resume := false })))
    refine ⟨hq, ?_⟩
    rw [Mach.core, hcores, ← Mach.core, Mach.updCore_same]
  · exact ⟨⟨rfl, rfl⟩, m.updCore_same i _⟩

end

end Sys2Proof.Machine

/-! ## The debug access ports (R389, R390) -/

namespace Sys2Proof.Machine

section
variable {s : State} {core : Fin 3} {cmd : Nat} {f : Mach → Mach} {i : Instr}

/-- A command that is not accepted is answered 0xFF and changes nothing. -/
theorem to_shut (hs : Settled s) (hc : exec i s = done f s) (hf : f s.m = s.m.send (.dap core) [0xFF, 0]) :
    To i s (s.m.send (.dap core) [0xFF, 0]) := to_of_quiet hc hs hf ⟨rfl, rfl⟩

/-- A command that is accepted is answered with its echo. -/
theorem to_echo {d : Nat} {m : Mach} (hs : Settled s) (hc : exec i s = done f s) (hf : f s.m = m.send (.dap core) [0x80 + cmd, d])
    (hq : m.alarms = s.m.alarms ∧ m.notes = s.m.notes) : To i s (m.send (.dap core) [0x80 + cmd, d]) :=
  to_of_quiet hc hs hf hq

theorem dapCommand_shut {ok : Bool} (h : ok = false) (m : Mach) : dapCommand core cmd ok f m = m.send (.dap core) [0xFF, 0] := by
  rw [dapCommand, h]
  rfl

theorem dapCommand_ok {ok : Bool} (h : ok = true) (m : Mach) : dapCommand core cmd ok f m = (f m).send (.dap core) [0x80 + cmd, 0] := by
  rw [dapCommand, h]
  rfl

theorem dapMem_shut {access : Mach → Except CoreStop (Nat × Mach)} (h : dapHalted s.m core = false) :
    dapMem core cmd access s = done (dapReply core cmd none) s := by
  unfold dapMem
  dsimp only
  rw [h]
  rfl

theorem dapMem_refused {access : Mach → Except CoreStop (Nat × Mach)} (h : dapHalted s.m core = true) {cls code info : Nat}
    (ha : access (atM core s.m) = .error (.fault cls code info)) : dapMem core cmd access s = done (dapReply core cmd none) s := by
  unfold dapMem
  dsimp only
  rw [h, ha]
  rfl

theorem dapMem_ok {access : Mach → Except CoreStop (Nat × Mach)} (h : dapHalted s.m core = true) {v : Nat} {m : Mach}
    (ha : access (atM core s.m) = .ok (v, m)) : dapMem core cmd access s =
      done (fun _ => (dapAfter core (s.m.core core).lvl m).send (.dap core) [0x80 + cmd, v]) s := by
  unfold dapMem
  dsimp only
  rw [h, ha]
  rfl

/-- What a running core refuses (R390). -/
theorem shut_unhalted (hs : Settled s) (v : Word) (reg : BitVec 16) (h : dapHalted s.m core = false) :
    ∀ i ∈ [Instr.dapResume core, .dapStep core, .ebreakHalt core v, .readReg core reg, .writeReg core reg v, .writeMem core v],
      To i s (s.m.send (.dap core) [0xFF, 0]) := by
  simp only [List.forall_mem_cons, List.not_mem_nil, false_imp_iff, implies_true, and_true]
  have hread : readRegEffect core reg.toNat s.m = s.m.send (.dap core) [0xFF, 0] := by rw [readRegEffect, h]; rfl
  have hwrite : writeRegEffect core reg.toNat v s.m = s.m.send (.dap core) [0xFF, 0] := by rw [writeRegEffect, h]; rfl
  exact ⟨to_shut hs rfl (dapCommand_shut h _), to_shut hs rfl (dapCommand_shut h _), to_shut hs rfl (dapCommand_shut h _),
    to_shut hs rfl hread, to_shut hs rfl hwrite, to_shut hs (dapMem_shut h) rfl⟩

/-- The address commands are refused where neither a halted core nor FTB_SLOW takes them. -/
theorem shut_address (hs : Settled s) (v : Word) (h : dapHalted s.m core = false) (hslow : dapSlow s.m core = false) :
    ∀ i ∈ [Instr.setAddr core v, .readMem core], To i s (s.m.send (.dap core) [0xFF, 0]) := by
  simp only [List.forall_mem_cons, List.not_mem_nil, false_imp_iff, implies_true, and_true]
  have hread : exec (.readMem core) s = done (dapReply core 0x21 none) s :=
    (if_neg (by rw [hslow]; decide)).trans (dapMem_shut h)
  exact ⟨to_shut hs rfl (dapCommand_shut (by rw [h, hslow]; rfl) _), to_shut hs hread rfl⟩

theorem dapHalted_of_shut (h : dapOpen s.m core = false) : dapHalted s.m core = false := by rw [dapHalted, h]; rfl

theorem shut_halt (hs : Settled s) (h : dapOpen s.m core = false) : To (.dapHalt core) s (s.m.send (.dap core) [0xFF, 0]) :=
  to_shut hs rfl (dapCommand_shut h _)

theorem shut_status (hs : Settled s) (h : s.m.saf.dbgLock = true) : To (.dapStatus core) s (s.m.send (.dap core) [0xFF, 0]) :=
  to_shut hs rfl (by unfold dapStatusEffect; rw [h]; rfl)

/-- With DBG_LOCK blown a port answers nothing (R389). -/
theorem locked_shut (hs : Settled s) (v : Word) (reg : BitVec 16) (h : s.m.saf.dbgLock = true) :
    ∀ i ∈ [Instr.dapHalt core, .dapResume core, .dapStep core, .ebreakHalt core v, .readReg core reg,
      .writeReg core reg v, .setAddr core v, .readMem core, .writeMem core v, .dapStatus core],
      To i s (s.m.send (.dap core) [0xFF, 0]) := by
  have hopen : dapOpen s.m core = false := by rw [dapOpen, h]; rfl
  have hslow : dapSlow s.m core = false := by rw [dapSlow, h]; rfl
  have h1 := shut_unhalted hs v reg (dapHalted_of_shut hopen)
  have h2 := shut_address hs v (dapHalted_of_shut hopen) hslow
  simp only [List.forall_mem_cons, List.not_mem_nil, false_imp_iff, implies_true, and_true] at h1 h2 ⊢
  obtain ⟨hres, hstep, heb, hrd, hwr, hwm⟩ := h1
  obtain ⟨hsa, hrm⟩ := h2
  exact ⟨shut_halt hs hopen, hres, hstep, heb, hrd, hwr, hsa, hrm, hwm, shut_status hs h⟩

/-- In SLEEP a port answers nothing but STATUS and a read of FTB_SLOW (log 18). -/
theorem asleep_shut (hs : Settled s) (v : Word) (reg : BitVec 16) (h : dapOpen s.m core = false) :
    ∀ i ∈ [Instr.dapHalt core, .dapResume core, .dapStep core, .ebreakHalt core v, .readReg core reg,
      .writeReg core reg v, .writeMem core v], To i s (s.m.send (.dap core) [0xFF, 0]) := by
  have h1 := shut_unhalted hs v reg (dapHalted_of_shut h)
  simp only [List.forall_mem_cons, List.not_mem_nil, false_imp_iff, implies_true, and_true] at h1 ⊢
  obtain ⟨hres, hstep, heb, hrd, hwr, hwm⟩ := h1
  exact ⟨shut_halt hs h, hres, hstep, heb, hrd, hwr, hwm⟩

/-- A port that reaches its core is in no LCLK mode of SLEEP. -/
theorem dapSlow_of_open (h : dapOpen s.m core = true) : dapSlow s.m core = false := by
  simp only [dapOpen, dapSleeps, Bool.and_eq_true, Bool.not_eq_true'] at h
  by_cases h2 : core.val = 2
  · have hsl := h.2
    rw [if_pos h2] at hsl
    rw [dapSlow, hsl, Bool.and_false]
  · simp [dapSlow, h2]

/-- A running core refuses all but HALT and STATUS (R390). -/
theorem running_shut (hs : Settled s) (v : Word) (reg : BitVec 16) (h : dapOpen s.m core = true) (hr : (s.m.core core).halted = false) :
    ∀ i ∈ [Instr.dapResume core, .dapStep core, .ebreakHalt core v, .readReg core reg, .writeReg core reg v, .setAddr core v,
      .readMem core, .writeMem core v], To i s (s.m.send (.dap core) [0xFF, 0]) := by
  have hh : dapHalted s.m core = false := by rw [dapHalted, hr, Bool.and_false]
  have hslow := dapSlow_of_open h
  have h1 := shut_unhalted hs v reg hh
  have h2 := shut_address hs v hh hslow
  simp only [List.forall_mem_cons, List.not_mem_nil, false_imp_iff, implies_true, and_true] at h1 h2 ⊢
  obtain ⟨hres, hstep, heb, hrd, hwr, hwm⟩ := h1
  exact ⟨hres, hstep, heb, hrd, hwr, h2.1, h2.2, hwm⟩

/-- FTB_SLOW in LCLK mode (R82). -/
theorem slow_goes (hs : Settled s) (v : Word) (hl : s.m.saf.dbgLock = false) (hsl : s.m.pwr.fSleep = true) (h2 : core.val = 2) :
    exec (.setAddr core v) s = .next { s with m := (s.m.setCore core { s.m.core core with dapAddr := v }).send (.dap core) [0xA0, 0] } ∧
    ((s.m.core core).dapAddr.toNat = 0x4080000C → To (.readMem core) s
      ((s.m.setCore core { s.m.core core with dapAddr := (s.m.core core).dapAddr + 4 }).send (.dap core) [0xA1, s.m.rd R.FTB_SLOW])) ∧
    ((s.m.core core).dapAddr.toNat ≠ 0x4080000C → To (.readMem core) s (s.m.send (.dap core) [0xFF, 0])) := by
  have hslow : dapSlow s.m core = true := by simp [dapSlow, hl, hsl, h2]
  have hread : exec (.readMem core) s = done (dapSlowRead core) s := if_pos hslow
  refine ⟨to_of_quiet rfl hs (dapCommand_ok (by rw [hslow, Bool.or_true]) _) ⟨rfl, rfl⟩, fun ha => ?_, fun ha => ?_⟩
  · have ha' : (s.m.core core).dapAddr = ftbSlowAddr := BitVec.eq_of_toNat_eq ha
    exact to_of_quiet hread hs (if_pos ha') ⟨rfl, rfl⟩
  · have ha' : (s.m.core core).dapAddr ≠ ftbSlowAddr := fun h => ha (by rw [h]; rfl)
    exact to_of_quiet hread hs (if_neg ha') ⟨rfl, rfl⟩

/-! ### HALT, RESUME and STATUS -/

theorem dapHalt_goes (hs : Settled s) (h : dapOpen s.m core = true) :
    ∃ t, exec (.dapHalt core) s = .next t ∧ t.pending = s.pending ∧ Replied core [0x81, 0] t.m ∧
      ((s.m.core core).halted = false → t.m.core core = { s.m.core core with halted := true, gated := false }) ∧
      ((s.m.core core).halted = true → t.m.core core = { s.m.core core with resume := false }) := by
  obtain ⟨hq, hrun, hhalt⟩ := coreHalt_does core s.m
  exact ⟨_, to_echo hs rfl (dapCommand_ok h _) hq, rfl, List.mem_cons_self, hrun, hhalt⟩

theorem dapResume_goes (hs : Settled s) (h : dapHalted s.m core = true) (hk : core.val ≠ 2 ∨ s.m.tb.slowFrom = none) :
    ∃ t, exec (.dapResume core) s = .next t ∧ t.pending = s.pending ∧ Replied core [0x82, 0] t.m ∧
      t.m.core core = { s.m.core core with halted := false, step := false, resume := false } := by
  obtain ⟨hq, hcore⟩ := coreGoesOn_does core s.m
  have hres : coreResume core s.m = coreGoesOn core s.m := by
    refine if_neg ?_
    rintro ⟨h2, hslow⟩
    rw [hk.resolve_left (not_not_intro h2)] at hslow
    exact absurd hslow (by decide)
  refine ⟨_, to_echo (core := core) (cmd := 2) (d := 0) hs rfl ((dapCommand_ok h _).trans ?_) hq, rfl, List.mem_cons_self, hcore⟩
  rw [hres]

theorem dapResume_waits (hs : Settled s) (h : dapHalted s.m core = true) (h2 : core.val = 2) (hk : s.m.tb.slowFrom ≠ none) :
    exec (.dapResume core) s =
      .next { s with m := (s.m.setCore core { s.m.core core with resume := true }).send (.dap core) [0x82, 0] } := by
  have hres : coreResume core s.m = s.m.setCore core { s.m.core core with resume := true } := by
    rw [coreResume, if_pos ⟨h2, Option.isSome_iff_ne_none.mpr hk⟩, Mach.updCore, ← h2]
  refine to_echo (d := 0) (cmd := 2) hs rfl ((dapCommand_ok h _).trans ?_) ⟨rfl, rfl⟩
  rw [hres]

theorem dapStatus_goes (hs : Settled s) (h : s.m.saf.dbgLock = false) : exec (.dapStatus core) s = .next { s with
    m := s.m.send (.dap core) [0xB0, if (s.m.core core).halted then 1 else if (s.m.core core).gated then 2 else 0] } :=
  to_of_quiet rfl hs (by unfold dapStatusEffect; rw [h]; rfl) ⟨rfl, rfl⟩

/-! ### Registers -/

section
variable (hs : Settled s) (h : dapHalted s.m core = true) {reg : BitVec 16} {v : Word}
include hs h

theorem readReg_goes {r : Option (Nat × Mach)} (hr : dapRead core reg.toNat s.m = r) :
    (r = none → exec (.readReg core reg) s = .next { s with m := s.m.send (.dap core) [0xFF, 0] }) ∧
    (∀ (d : Nat) (m : Mach), r = some (d, m) → m.alarms = s.m.alarms ∧ m.notes = s.m.notes →
      exec (.readReg core reg) s = .next { s with m := m.send (.dap core) [0x90, d] }) := by
  have hf (m : Mach) (hm : m = s.m) : readRegEffect core reg.toNat m = dapReply core 0x10 r m := by
    rw [hm, readRegEffect, h, ← hr]
    rfl
  refine ⟨fun hn => to_of_quiet rfl hs ((hf _ rfl).trans (by rw [hn]; rfl)) ⟨rfl, rfl⟩, fun d m hn hq =>
    to_of_quiet rfl hs ((hf _ rfl).trans (by rw [hn]; rfl)) hq⟩

theorem writeReg_goes {r : Option (Nat × Mach)} (hr : dapWrite core reg.toNat v s.m = r) :
    (r = none → exec (.writeReg core reg v) s = .next { s with m := s.m.send (.dap core) [0xFF, 0] }) ∧
    (∀ m : Mach, r = some (0, m) → m.alarms = s.m.alarms ∧ m.notes = s.m.notes →
      exec (.writeReg core reg v) s = .next { s with m := m.send (.dap core) [0x91, 0] }) := by
  have hf (m : Mach) (hm : m = s.m) : writeRegEffect core reg.toNat v m = dapReply core 0x11 r m := by
    rw [hm, writeRegEffect, h, ← hr]
    rfl
  refine ⟨fun hn => to_of_quiet rfl hs ((hf _ rfl).trans (by rw [hn]; rfl)) ⟨rfl, rfl⟩, fun m hn hq =>
    to_of_quiet rfl hs ((hf _ rfl).trans (by rw [hn]; rfl)) hq⟩

end

end

end Sys2Proof.Machine

/-! ### Registers and memory through a port -/

namespace Sys2Proof.Machine

section
variable {m : Mach} {core : Fin 3} {reg : Nat} {v : Word}

theorem dapRead_csr (hlt : reg < 0x1000) {row : Nat × Nat} (hrow : csrRow reg = some row) (hx : ∀ p, xssCsr reg = some p → p.2 = 0) :
    dapRead core reg m = some ((csrRead m core reg).toNat, m) := by
  unfold dapRead
  dsimp only
  rw [if_pos hlt, hrow]
  rcases hxs : xssCsr reg with _ | ⟨l, k⟩
  · rfl
  · obtain rfl : k = 0 := hx _ hxs
    rfl

theorem dapRead_xss (hlt : reg < 0x1000) {l : Nat} (hx : xssCsr reg = some (l, 1)) {a : Word} {rest : List Word}
    (hss : (m.core core).ss l = a :: rest) :
    dapRead core reg m = some (a.toNat, m.setCore core ((m.core core).setSs l rest)) := by
  unfold dapRead
  dsimp only
  rw [if_pos hlt, csrRow_xss hx (by decide), hx]
  dsimp only
  rw [show ((0 : Nat) == 1) = false from rfl, xssTake_top hss]

theorem dapRead_none (h : reg < 0x1000 ∧ csrRow reg = none ∨ 0x1080 ≤ reg) : dapRead core reg m = none := by
  unfold dapRead
  dsimp only
  obtain ⟨hlt, hrow⟩ | hge := h
  · rw [if_pos hlt, hrow]
  · rw [if_neg (by omega), if_neg (by omega), dapKey, if_neg (by omega), if_neg (by omega), if_neg (by omega), Option.map_none]

theorem dapRead_pc : dapRead core 0x1040 m = some ((m.core core).pc.toNat, m) := rfl

theorem dapKey_general {r : Nat} (hr : r < 32) : dapKey (0x1000 + r) = some r ∧ dapKey (0x1020 + r) = some (64 + r) := by
  unfold dapKey
  constructor
  · rw [if_pos (by omega), Nat.add_sub_cancel_left]
  · rw [if_neg (by omega), if_pos (by omega), Nat.add_sub_cancel_left]

theorem dapRead_key (h : 0x1000 ≤ reg ∧ reg ≠ 0x1040) {k : Nat} (hk : dapKey reg = some k) :
    dapRead core reg m = some (if k = 0 then 0 else (mapGet 0 k (m.core core).x).toNat, m) := by
  unfold dapRead
  dsimp only
  rw [if_neg (by omega), if_neg h.2, hk, Option.map_some]

theorem dapWrite_csr (hlt : reg < 0x1000) {row : Nat × Nat} (hrow : csrRow reg = some row) :
    (row.1 ≠ 2 → dapWrite core reg v m = some (0, m.setCore core ((m.core core).csrWrite reg v))) ∧
    (row.1 = 2 → dapWrite core reg v m = none) := by
  obtain ⟨kind, mask⟩ := row
  unfold dapWrite
  rw [if_pos hlt, hrow]
  constructor
  · intro h
    split
    next hn => exact absurd hn (by simp)
    next hn => simp only [Option.some.injEq, Prod.mk.injEq] at hn; exact absurd hn.1 h
    next => rfl
  · rintro rfl
    rfl

theorem dapWrite_pc : dapWrite core 0x1040 v m = some (0, m.setCore core { m.core core with pc := v &&& 0xFFFFFFFE }) := rfl

theorem dapWrite_general {r : Nat} (hr : r < 32) : dapWrite core (0x1000 + r) v m =
    some (0, m.setCore core { m.core core with x := if r = 0 then (m.core core).x else mapSet 0 r v (m.core core).x }) := by
  unfold dapWrite
  rw [if_neg (by omega), if_neg (by omega), (dapKey_general hr).1, Option.map_some, Mach.updCore]
  split_ifs <;> rfl

/-! ### Memory -/

theorem atM_fields (core : Fin 3) (m : Mach) : (atM core m).core core = { m.core core with lvl := 2 } ∧
    (atM core m).keepMem = m.keepMem ∧ (atM core m).hostMem = m.hostMem := ⟨m.updCore_same core _, rfl, rfl⟩

/-- At M the regions deny nothing (R365). -/
theorem denied_atM (kind a n : Nat) : denied (atM core m) core kind a n = false := by
  have h (k b : Nat) : ((atM core m).core core).allows k b = true := by
    rw [(atM_fields core m).1]
    rfl
  rw [denied, h, h]
  rfl

/-- SRAM reads the same for every machine with that memory. -/
theorem areaNat_congr {m1 : Mach} {i a : Nat} (hm : m1.keepMem = m.keepMem ∧ m1.hostMem = m.hostMem) (n : Nat)
    (h : ∀ k < n, areaOf i (a + k) = .sram) : (areaNat i a n m1).1 = (areaNat i a n m).1 := by
  induction n generalizing a with
  | zero => rfl
  | succ n ih =>
    have hb (x : Mach) : areaByte i a x = ((memRd (if i = 2 then x.keepMem else x.hostMem) a).toNat, x) := by
      unfold areaByte
      rw [show areaOf i a = .sram from h 0 (by omega)]
    have hrest := ih fun k hk => by
      have := h (k + 1) (by omega)
      rwa [show a + (k + 1) = a + 1 + k by omega] at this
    unfold areaNat
    dsimp only
    rw [hb, hb]
    dsimp only
    rw [hm.1, hm.2, hrest]

/-- The core after an access through the port. -/
theorem dapAfter_does {lvl : Nat} {n : Mach} (hh : (m.core core).halted = true) (hl : lvl = (m.core core).lvl)
    (hn : n.core core = { m.core core with lvl := 2 }) :
    (dapAfter core lvl n).core core = { m.core core with dapAddr := (m.core core).dapAddr + 4 } := by
  rw [dapAfter, Mach.updCore_same, hn, hl]
  exact if_pos hh

/-- SRAM holds no register, and no write to it is shut. -/
theorem haltShut_sram {a : Nat} (ha : a = (m.core core).dapAddr.toNat) (h : areaOf core a = .sram) : haltShut (atM core m) core = false := by
  unfold haltShut
  by_cases h2 : core.val = 2
  · have hreg : regAt ((atM core m).core 2).dapAddr.toNat = none := by
      have := sram_lt h
      rw [← h2, (atM_fields core m).1, ← ha]
      exact if_neg (by omega)
    rw [hreg]
    simp
  · simp [h2]

end

section
variable {s : State} {core : Fin 3} (hs : Settled s) (h : dapHalted s.m core = true) {v : Word} {a : Nat}
  (ha : a = (s.m.core core).dapAddr.toNat)
include hs h ha

theorem readMem_sram (h4 : a % 4 = 0) (hsram : areaOf core a = .sram) :
    ∃ t, exec (.readMem core) s = .next t ∧ t.pending = s.pending ∧ Replied core [0xA1, (areaNat core a 4 s.m).1] t.m ∧
      t.m.core core = { s.m.core core with dapAddr := (s.m.core core).dapAddr + 4 } ∧ t.m.keepMem = s.m.keepMem ∧
      t.m.hostMem = s.m.hostMem := by
  obtain ⟨hopen, hhalt⟩ : dapOpen s.m core = true ∧ (s.m.core core).halted = true := by simpa [dapHalted] using h
  have hacc : dapReadMem core (atM core s.m) = .ok ((areaNat core a 4 s.m).1, atM core s.m) := by
    rw [dapReadMem, (atM_fields core s.m).1, ← ha, coreRead_sram hsram h4 (denied_atM ..),
      areaNat_congr (atM_fields core s.m).2 4 (sram_word hsram h4)]
  have hslow := dapSlow_of_open hopen
  have hc : exec (.readMem core) s = dapMem core 0x21 (dapReadMem core) s := if_neg (by rw [hslow]; decide)
  have hto := to_of_quiet (hc.trans (dapMem_ok h hacc)) hs rfl ⟨rfl, rfl⟩
  have hcore := dapAfter_does hhalt rfl (atM_fields core s.m).1
  exact ⟨_, hto, rfl, List.mem_cons_self, hcore, rfl, rfl⟩

theorem writeMem_sram (h4 : a % 4 = 0) (hsram : areaOf core a = .sram) :
    ∃ t, exec (.writeMem core v) s = .next t ∧ t.pending = s.pending ∧ Replied core [0xA2, 0] t.m ∧
      t.m.core core = { s.m.core core with dapAddr := (s.m.core core).dapAddr + 4 } ∧
      t.m.keepMem = (if core.val = 2 then memWrN s.m.keepMem a (toLe 4 v.toNat) else s.m.keepMem) ∧
      t.m.hostMem = (if core.val = 2 then s.m.hostMem else memWrN s.m.hostMem a (toLe 4 v.toNat)) := by
  obtain ⟨hopen, hhalt⟩ : dapOpen s.m core = true ∧ (s.m.core core).halted = true := by simpa [dapHalted] using h
  obtain ⟨hcore, hsig, hkeep, hhost⟩ := memStore_does (core := core) a v.toNat (atM core s.m)
  obtain ⟨hno, hal⟩ := Prod.mk.inj hsig
  have hacc : dapWriteMem core v.toNat (atM core s.m) = .ok (0, memStore core a 4 v.toNat (atM core s.m)) := by
    rw [dapWriteMem, haltShut_sram ha hsram, if_neg (by decide), (atM_fields core s.m).1, ← ha,
      coreWrite_sram hsram h4 (denied_atM ..)]
  exact ⟨_, to_of_quiet (dapMem_ok h hacc) hs rfl ⟨hal, hno⟩, rfl, List.mem_cons_self,
    dapAfter_does hhalt rfl (hcore.trans (atM_fields core s.m).1), hkeep, hhost⟩

/-- An access where the map holds nothing is refused. -/
theorem mem_nothing (hn : areaOf core a = .nothing) : exec (.readMem core) s = .next { s with m := s.m.send (.dap core) [0xFF, 0] } ∧
    exec (.writeMem core v) s = .next { s with m := s.m.send (.dap core) [0xFF, 0] } := by
  have hrd : dapReadMem core (atM core s.m) = .error (.fault 1 6 a) := by
    rw [dapReadMem, (atM_fields core s.m).1, ← ha, coreRead, hn, if_pos (.inl rfl)]
  have hwr : ∃ code, dapWriteMem core v.toNat (atM core s.m) = .error (.fault 1 code a) := by
    unfold dapWriteMem
    rw [(atM_fields core s.m).1, ← ha]
    split_ifs
    · exact ⟨_, rfl⟩
    · unfold coreWrite
      dsimp only
      rw [hn]
      exact ⟨_, rfl⟩
  obtain ⟨code, hwr⟩ := hwr
  have hslow : dapSlow s.m core = false := dapSlow_of_open (Bool.and_eq_true_iff.mp h).1
  exact ⟨to_shut hs ((if_neg (by rw [hslow]; decide)).trans (dapMem_refused h hrd)) rfl, to_shut hs (dapMem_refused h hwr) rfl⟩

end

end Sys2Proof.Machine

/-! ### The data register and the test access ports (R390, R546) -/

namespace Sys2Proof.Machine

section
variable {core : Fin 3} {v : Word} {reg : BitVec 16} {n cmd : Nat}

/-- The fields of a value of the 64-bit register. -/
theorem dapFields (hcmd : cmd < 256) {p : Nat} (hp : p = 0)
    (hn : n = cmd * 2 ^ 56 + core.val * 2 ^ 54 + p * 2 ^ 48 + reg.toNat * 2 ^ 32 + v.toNat) :
    bits 53 48 n = 0 ∧ bits 55 54 n = core.val ∧ bits 63 56 n = cmd ∧ BitVec.ofNat 16 (bits 47 32 n) = reg ∧ BitVec.ofNat 32 n = v := by
  have hr := reg.isLt
  have hv := v.isLt
  have hc := core.isLt
  subst hp
  refine ⟨by unfold bits; omega, by unfold bits; omega, by unfold bits; omega, ?_, ?_⟩
  · refine BitVec.eq_of_toNat_eq ?_
    rw [BitVec.toNat_ofNat]
    unfold bits
    omega
  · refine BitVec.eq_of_toNat_eq ?_
    rw [BitVec.toNat_ofNat]
    omega

/-- The commands of the register by their number (R390). -/
theorem dapDecode_cmd (hcmd : cmd < 256) {p : Nat} (hp : p = 0)
    (hn : n = cmd * 2 ^ 56 + core.val * 2 ^ 54 + p * 2 ^ 48 + reg.toNat * 2 ^ 32 + v.toNat) :
    (∀ i : Instr, (cmd, i) ∈ [(0x01, Instr.dapHalt core), (0x02, .dapResume core), (0x03, .dapStep core), (0x04, .ebreakHalt core v),
      (0x10, .readReg core reg), (0x11, .writeReg core reg v), (0x20, .setAddr core v), (0x21, .readMem core), (0x22, .writeMem core v),
      (0x30, .dapStatus core)] → dapDecode (coreSide core) n = some i) ∧
    (cmd ∉ [0x01, 0x02, 0x03, 0x04, 0x10, 0x11, 0x20, 0x21, 0x22, 0x30] → dapDecode (coreSide core) n = none) ∧
    ∀ port : Side, port ≠ coreSide core → dapDecode port n = none := by
  obtain ⟨h1, h2, h3, h4, h5⟩ := dapFields hcmd hp hn
  have hbar : ¬(0 ≠ 0 ∨ core.val = 3 ∨ coreSide core ≠ coreSide core) := by
    have := core.isLt
    simp only [ne_eq, not_true_eq_false, false_or, or_false]
    omega
  have hfin : Fin.ofNat 3 core.val = core := Fin.ext (Nat.mod_eq_of_lt core.isLt)
  unfold dapDecode
  dsimp only
  rw [h1, h2, h3, h4, h5, if_neg hbar, hfin]
  refine ⟨fun i hi => ?_, fun hnot => ?_, fun port hport => if_pos (.inr (.inr (Ne.symm hport)))⟩
  · simp only [List.mem_cons, Prod.mk.injEq, List.not_mem_nil, or_false] at hi
    obtain ⟨rfl, rfl⟩ | ⟨rfl, rfl⟩ | ⟨rfl, rfl⟩ | ⟨rfl, rfl⟩ | ⟨rfl, rfl⟩ | ⟨rfl, rfl⟩ | ⟨rfl, rfl⟩ | ⟨rfl, rfl⟩ | ⟨rfl, rfl⟩ |
      ⟨rfl, rfl⟩ := hi <;> rfl
  · simp only [List.mem_cons, List.not_mem_nil, or_false, not_or] at hnot
    split <;> simp_all

end

section
variable {s : State} {port : Side} {n : Nat}

theorem tapCapture_does (s : State) (port : Side) (n : Nat) :
    (s.m.tap port = .idcode → tapCapture s.m port = some (32, if port = .host then 0x18128A47 else 0x28128A47)) ∧
    (s.m.tap port = .dap → tapShift port n s = dapShift port n s ∧
      (s.m.saf.dbgLock = true → tapCapture s.m port = some (64, 0xFF * 2 ^ 56))) := by
  refine ⟨fun h => ?_, fun h => ⟨if_pos h, fun hl => ?_⟩⟩
  · rw [tapCapture, h]
  · rw [tapCapture, h, hl, if_pos rfl]

theorem tapInsn_bypass (h : n < 32) (hn : n ∉ [0x00, 0x01, 0x02, 0x10]) : tapInsn n = .bypass := by
  simp only [List.mem_cons, List.not_mem_nil, or_false, not_or] at hn
  unfold tapInsn
  rw [Nat.mod_eq_of_lt h]
  split <;> simp_all

/-- An unlisted code selects BYPASS (R546). -/
theorem tapLoad_bypass (h : n < 32) (hn : n ∉ [0x00, 0x01, 0x02, 0x10]) : (tapLoad port n s).m.tap port = .bypass := by
  cases port <;>
    exact (congrArg tapInsn (Nat.mod_eq_of_lt h)).trans (tapInsn_bypass h hn)

end

/-! ### Spire1's release and the trace counter (R391) -/

section
variable {c : Instr} {s : State} {w : Writer} {o : Obj} {mach : Bool} {eff : Mach → Eff} {m : Mach} {P : Mach → Prop}

/-- A write that is carried out leaves the machine as its effect left it, but for what it tells its writer. -/
theorem answered_frame (w : Writer) (o : Obj) (m : Mach) :
    { answered w (rankNote w o m) with out := m.out, ranks := m.ranks, redos := m.redos } = m := by
  unfold answered rankNote
  split <;> split_ifs <;> rfl

theorem leads_of_frame (hc : exec c s = done (command w o mach eff) s) (hs : Settled s) (he : eff s.m = .ok m)
    (hq : m.alarms = s.m.alarms ∧ m.notes = s.m.notes)
    (hP : ∀ n : Mach, { n with out := m.out, ranks := m.ranks, redos := m.redos } = m → P n) : Leads c s w o mach P := fun hm =>
  .of_to (writes_of_ok hc hs he hq hm) (hP _ (answered_frame w o m))

end

section
variable {s : State} {w : Writer} {v : Word}

theorem sprRelease_goes (hs : Settled s) (w : Writer) :
    (v.toNat % 2 = 1 → Leads (.sprRelease w 1 v) s w (R.SPR_RELEASE 1) true (fun m =>
      m.rd (R.SPR_RELEASE 1) = 1 ∧ m.core 1 = { s.m.core 1 with held := false })) ∧
    (v.toNat % 2 = 0 → Leads (.sprRelease w 1 v) s w (R.SPR_RELEASE 1) true (fun m =>
      m.rd (R.SPR_RELEASE 1) = 0 ∧ m.core 1 = s.m.core 1)) ∧
    Turns (.sprRelease w 0 v) s w (R.SPR_RELEASE 0) true .range := by
  have hframe {n m : Mach} (h : { n with out := m.out, ranks := m.ranks, redos := m.redos } = m) (o : Obj) :
      n.rd o = m.rd o ∧ n.core 1 = m.core 1 := by
    rw [← h]
    exact ⟨rfl, rfl⟩
  refine ⟨fun h => ?_, fun h => ?_, fun hm => done_turned hm rfl⟩
  · have he : sprReleaseEffect 1 v.toNat s.m =
        .ok ((s.m.wr (R.SPR_RELEASE 1) 1).updCore 1 (fun c => { c with held := false })) := by
      rw [sprReleaseEffect, h]
      rfl
    refine leads_of_frame rfl hs he ⟨rfl, rfl⟩ fun n hn => ?_
    obtain ⟨hrd, hcore⟩ := hframe hn (R.SPR_RELEASE 1)
    exact ⟨hrd.trans ((Mach.updCore_rd ..).trans (rd_wr_same ..)), hcore.trans (Mach.updCore_same ..)⟩
  · have he : sprReleaseEffect 1 v.toNat s.m = .ok (s.m.wr (R.SPR_RELEASE 1) 0) := by
      rw [sprReleaseEffect, h]
      rfl
    refine leads_of_frame rfl hs he ⟨rfl, rfl⟩ fun n hn => ?_
    obtain ⟨hrd, hcore⟩ := hframe hn (R.SPR_RELEASE 1)
    exact ⟨hrd.trans (rd_wr_same ..), hcore⟩

/-- DBG_TRACE_LOST as the dictionary lists it. -/
def dbgTraceRow : Found := ⟨⟨0x3F01, 1, 1, 1, 1, 1, 1, 1, .u32, .ro, false, 0, .s, .any⟩, 0, 0, 0⟩

theorem view_dbgTraceRow (m : Mach) : view m dbgTraceRow = m.rd R.DBG_TRACE_LOST := by
  have h : (viewsA ++ viewsB).find? (fun e => e.1 == dbgTraceRow.row.id) = none := by
    simp [viewsA, viewsB, dbgTraceRow, Row.id]
  rw [view, h]
  rfl

/-- A load of DBG_TRACE_LOST clears it (R391). -/
theorem regLoad_dbgTraceLost (m : Mach) :
    regLoad 0x3F01 1 m = some (m.rd R.DBG_TRACE_LOST % 2 ^ 32, m.clr R.DBG_TRACE_LOST) := by
  have hfind : findObj 0x3F01 1 = some dbgTraceRow := by decide
  have hfree : viewFree dbgTraceRow = false := by decide
  have hid : dbgTraceRow.row.id = 0x3F0101 := by decide
  unfold regLoad regHit
  rw [hfind, Option.map_some]
  dsimp only
  rw [if_pos hid, readObj, hfree, view_dbgTraceRow]
  rfl

theorem dbgTraceLostRead_goes (hs : Settled s) (h : MayCore 2 0 0x40FC0404 s) : To .dbgTraceLostRead s
    ((s.m.clr R.DBG_TRACE_LOST).send (.load 2) [s.m.rd R.DBG_TRACE_LOST % 2 ^ 32]) := by
  refine to_coreAt hs h rfl ?_ ⟨rfl, rfl⟩
  rw [regLoad_dbgTraceLost]
  rfl

end

section
variable {s : State} {core : Fin 3} (hs : Settled s)
include hs

/-- A write that no halt lets through is refused (R311, R312). -/
theorem writeMem_shut (v : Word) (hshut : haltShut s.m core = true) : To (.writeMem core v) s (s.m.send (.dap core) [0xFF, 0]) := by
  have hat : haltShut (atM core s.m) core = true := by
    have hcore : ((atM core s.m).core 2).dapAddr = (s.m.core 2).dapAddr := by
      by_cases h2 : core.val = 2
      · rw [← h2, (atM_fields core s.m).1]
      · rw [atM, updCore_ne (Ne.symm h2)]
    rw [haltShut, hcore]
    exact hshut
  have hacc : dapWriteMem core v.toNat (atM core s.m) = .error (.fault 1 7 ((atM core s.m).core core).dapAddr.toNat) := if_pos hat
  cases h : dapHalted s.m core with
  | false => exact to_shut hs (dapMem_shut h) rfl
  | true => exact to_shut hs (dapMem_refused h hacc) rfl

/-- What a halted core's port does (R390). -/
theorem halted_goes (h : dapHalted s.m core = true) (v : Word) (reg : BitVec 16) :
    (core.val ≠ 2 ∨ s.m.tb.slowFrom = none →
      ∃ t, exec (.dapResume core) s = .next t ∧ t.pending = s.pending ∧ Replied core [0x82, 0] t.m ∧
        t.m.core core = { s.m.core core with halted := false, step := false, resume := false }) ∧
    (core.val = 2 → s.m.tb.slowFrom ≠ none →
      exec (.dapResume core) s = .next { s with m := (s.m.setCore core { s.m.core core with resume := true }).send (.dap core) [0x82, 0] }) ∧
    exec (.dapStep core) s = .next { s with m := (s.m.setCore core { s.m.core core with step := true }).send (.dap core) [0x83, 0] } ∧
    exec (.ebreakHalt core v) s =
      .next { s with m := (s.m.setCore core { s.m.core core with ebreakHalt := bit 0 v.toNat }).send (.dap core) [0x84, 0] } ∧
    exec (.setAddr core v) s = .next { s with m := (s.m.setCore core { s.m.core core with dapAddr := v }).send (.dap core) [0xA0, 0] } ∧
    (reg.toNat = 0x1040 → exec (.readReg core reg) s = .next { s with m := s.m.send (.dap core) [0x90, (s.m.core core).pc.toNat] } ∧
      exec (.writeReg core reg v) s =
        .next { s with m := (s.m.setCore core { s.m.core core with pc := v &&& 0xFFFFFFFE }).send (.dap core) [0x91, 0] }) ∧
    (∀ r : Nat, r < 32 → reg.toNat = 0x1000 + r →
      exec (.readReg core reg) s =
        .next { s with m := s.m.send (.dap core) [0x90, if r = 0 then 0 else (mapGet 0 r (s.m.core core).x).toNat] } ∧
      exec (.writeReg core reg v) s = .next { s with m := (s.m.setCore core
        { s.m.core core with x := if r = 0 then (s.m.core core).x else mapSet 0 r v (s.m.core core).x }).send (.dap core) [0x91, 0] }) ∧
    (∀ r : Nat, r < 32 → reg.toNat = 0x1020 + r →
      exec (.readReg core reg) s = .next { s with m := s.m.send (.dap core) [0x90, (mapGet 0 (64 + r) (s.m.core core).x).toNat] }) ∧
    (∀ row : Nat × Nat, reg.toNat < 0x1000 → csrRow reg.toNat = some row → (∀ p, xssCsr reg.toNat = some p → p.2 = 0) →
      exec (.readReg core reg) s = .next { s with m := s.m.send (.dap core) [0x90, (csrRead s.m core reg.toNat).toNat] } ∧
      (row.1 ≠ 2 → exec (.writeReg core reg v) s =
        .next { s with m := (s.m.setCore core ((s.m.core core).csrWrite reg.toNat v)).send (.dap core) [0x91, 0] }) ∧
      (row.1 = 2 → exec (.writeReg core reg v) s = .next { s with m := s.m.send (.dap core) [0xFF, 0] })) ∧
    (∀ (l : Nat) (a : Word) (rest : List Word), reg.toNat < 0x1000 → xssCsr reg.toNat = some (l, 1) →
      (s.m.core core).ss l = a :: rest → exec (.readReg core reg) s =
        .next { s with m := (s.m.setCore core ((s.m.core core).setSs l rest)).send (.dap core) [0x90, a.toNat] }) ∧
    (reg.toNat < 0x1000 ∧ csrRow reg.toNat = none ∨ 0x1080 ≤ reg.toNat →
      exec (.readReg core reg) s = .next { s with m := s.m.send (.dap core) [0xFF, 0] }) ∧
    (∀ a : Nat, a = (s.m.core core).dapAddr.toNat → a % 4 = 0 → areaOf core a = .sram →
      (∃ t, exec (.readMem core) s = .next t ∧ t.pending = s.pending ∧ Replied core [0xA1, (areaNat core a 4 s.m).1] t.m ∧
        t.m.core core = { s.m.core core with dapAddr := (s.m.core core).dapAddr + 4 } ∧ t.m.keepMem = s.m.keepMem ∧
        t.m.hostMem = s.m.hostMem) ∧
      (∃ t, exec (.writeMem core v) s = .next t ∧ t.pending = s.pending ∧ Replied core [0xA2, 0] t.m ∧
        t.m.core core = { s.m.core core with dapAddr := (s.m.core core).dapAddr + 4 } ∧
        t.m.keepMem = (if core.val = 2 then memWrN s.m.keepMem a (toLe 4 v.toNat) else s.m.keepMem) ∧
        t.m.hostMem = (if core.val = 2 then s.m.hostMem else memWrN s.m.hostMem a (toLe 4 v.toNat)))) ∧
    (∀ a : Nat, a = (s.m.core core).dapAddr.toNat → areaOf core a = .nothing →
      exec (.readMem core) s = .next { s with m := s.m.send (.dap core) [0xFF, 0] } ∧
      exec (.writeMem core v) s = .next { s with m := s.m.send (.dap core) [0xFF, 0] }) := by
  have hq : s.m.alarms = s.m.alarms ∧ s.m.notes = s.m.notes := ⟨rfl, rfl⟩
  have hread {d : Nat} {m : Mach} (hr : dapRead core reg.toNat s.m = some (d, m)) (hm : m.alarms = s.m.alarms ∧ m.notes = s.m.notes) :=
    (readReg_goes hs h hr).2 d m rfl hm
  have hwrite {m : Mach} (hr : dapWrite core reg.toNat v s.m = some (0, m)) (hm : m.alarms = s.m.alarms ∧ m.notes = s.m.notes) :=
    (writeReg_goes hs h hr).2 m rfl hm
  refine ⟨fun hk => dapResume_goes hs h hk, fun h2 hk => dapResume_waits hs h h2 hk, to_of_quiet rfl hs (dapCommand_ok h _) ⟨rfl, rfl⟩,
    to_of_quiet rfl hs (dapCommand_ok h _) ⟨rfl, rfl⟩, to_of_quiet rfl hs (dapCommand_ok (by rw [h]; rfl) _) ⟨rfl, rfl⟩,
    fun hr => ⟨hread (hr ▸ dapRead_pc) hq, hwrite (hr ▸ dapWrite_pc) ⟨rfl, rfl⟩⟩, fun r hlt hr => ⟨?_, ?_⟩, fun r hlt hr => ?_,
    fun row hlt hrow hx => ⟨hread (dapRead_csr hlt hrow hx) hq, fun h2 => hwrite ((dapWrite_csr hlt hrow).1 h2) ⟨rfl, rfl⟩,
      fun h2 => (writeReg_goes hs h ((dapWrite_csr hlt hrow).2 h2)).1 rfl⟩,
    fun l a rest hlt hx hss => hread (dapRead_xss hlt hx hss) ⟨rfl, rfl⟩, fun hr => (readReg_goes hs h (dapRead_none hr)).1 rfl,
    fun a ha h4 hsram => ⟨readMem_sram hs h ha h4 hsram, writeMem_sram hs h ha h4 hsram⟩, fun a ha hn => mem_nothing hs h ha hn⟩
  · exact hread (hr ▸ dapRead_key (by omega) (dapKey_general hlt).1) hq
  · exact hwrite (hr ▸ dapWrite_general hlt) ⟨rfl, rfl⟩
  · have hr' := hread (hr ▸ dapRead_key (m := s.m) (core := core) (by omega) (dapKey_general hlt).2) hq
    rwa [if_neg (by omega)] at hr'

end

/-- Settles O42: each command of a port answers as R390 says, and one that a port does not take changes nothing. -/
theorem debugPort : Obligations.DebugPort := by
  unfold Obligations.DebugPort
  rintro s core c v reg hs rfl
  refine ⟨fun h => locked_shut hs v reg h, fun h => asleep_shut hs v reg h, fun h h2 => shut_address hs v (dapHalted_of_shut h) ?_,
    fun hl hsl h2 => slow_goes hs v hl hsl h2, fun h hr => running_shut hs v reg h hr, fun h => dapHalt_goes hs h,
    fun h => dapStatus_goes hs h, fun h hshut => ?_, fun p d n hp hd hreg => ⟨fun cmd i hi hn => ?_, fun cmd hc hnot hn => ?_⟩,
    fun port n => ?_, fun h hh => ?_, fun w => (sprRelease_goes hs w).1, fun w => (sprRelease_goes hs w).2.1,
    fun w => (sprRelease_goes hs w).2.2, fun h => dbgTraceLostRead_goes hs h⟩
  · simp [dapSlow, h2]
  · exact writeMem_shut hs v hshut
  · have hcmd : cmd < 256 := by
      simp only [List.mem_cons, Prod.mk.injEq, List.not_mem_nil, or_false] at hi
      omega
    rw [hd] at hn
    obtain ⟨hdec, -, hport⟩ := dapDecode_cmd (v := v) (reg := reg) (core := core) hcmd (by rw [hp]; rfl) hn
    exact ⟨hdec i hi, fun port hne => by rw [dapShift, hport port hne]⟩
  · rw [hd] at hn
    exact (dapDecode_cmd (v := v) (reg := reg) (core := core) hc (p := 0) rfl (by rw [hn]; omega)).2.1 hnot
  · obtain ⟨hid, hdap⟩ := tapCapture_does s port n
    exact ⟨hid, hdap, tapLoad_bypass⟩
  · exact halted_goes hs (Bool.and_eq_true_iff.mpr ⟨h, hh⟩) v reg

end Sys2Proof.Machine

/-! ## O41: entries, waking, lockstep and faults (R359, R366, R371, R372, R377) -/

namespace Sys2Proof.Machine

section
variable {s : State} {core : Fin 3} (hs : Settled s)
include hs

/-! ### System instructions -/

omit hs in
theorem coreInsn_system {w v : Nat} (hf : Fetches core w s) (hw : w < 2 ^ 32) (hv : insnWord w = some v) (ho : opcodeOf v = 0x73)
    (h3 : funct3 v = 0) : coreInsn core w .clean s.m =
      if v = 0x00000073 then (insnAt core w v).ecall s.m
      else if v = 0x00100073 then (insnAt core w v).ebreak s.m
      else if v = 0x7F000073 then (insnAt core w v).xret s.m
      else if v = 0x7F100073 then (insnAt core w v).wfi s.m
      else (insnAt core w v).illegal := by
  rw [coreInsn_of_fetches hf hw hv, exec_system ho]
  exact if_neg (not_not_intro h3)

theorem ecall_goes (hf : Fetches core 0x73 s) :
    ((s.m.core core).lvl < 2 → Goes (.ecall core) s (fun m =>
      Entered 2 ((s.m.core core).lvl + 1) ((s.m.core core).lvl + 1) 0 ((s.m.core core).pc + 4) (s.m.core core) (m.core core) ∧
      (m.core core).instret = ((s.m.core core).instret + 1) % 2 ^ 64 ∧ { m with cores := s.m.cores } = s.m)) ∧
    ((s.m.core core).lvl = 2 → Goes (.ecall core) s (Faulted core 1 9 0 s.m)) := by
  have hi := coreInsn_system hf (by decide) (v := 0x73) rfl (by decide) (by decide)
  rw [if_pos rfl] at hi
  refine ⟨fun hl => ?_, fun hl => goes_faulted hs rfl hf.1 (hi.trans (if_pos hl)) (by decide)⟩
  have hl' : ¬(s.m.core core).lvl = 2 := by omega
  obtain ⟨m, hm⟩ : ∃ m, m = ((insnAt core 0x73 0x73).retire s.m).updCore core (fun d =>
      d.entry 2 ((s.m.core core).lvl + 1) ((s.m.core core).lvl + 1) 0 ((insnAt core 0x73 0x73).next s.m)) := ⟨_, rfl⟩
  have hstep : CoreStep core s.m m := hm ▸ ((CoreStep.refl ..).updCore _).updCore _
  have hcore : m.core core = (stepped (s.m.core core) ((s.m.core core).pc + 4)).entry 2 ((s.m.core core).lvl + 1)
      ((s.m.core core).lvl + 1) 0 ((s.m.core core).pc + 4) := by
    have hret : ((insnAt core 0x73 0x73).retire s.m).core core = stepped (s.m.core core) ((s.m.core core).pc + 4) :=
      Mach.updCore_same ..
    rw [hm, Mach.updCore_same, hret]
    rfl
  replace hi : coreInsn core 0x73 .clean s.m = .ok m := (hi.trans (if_neg hl')).trans (by rw [hm]; rfl)
  refine Goes.of_to (to_insn hs rfl hf.1 hi hstep.quiet) ⟨?_, ?_, (hstep.endStep _).2⟩
  · rw [endStep_core, hcore]
    exact entered_stop _ (entered_entry (c := stepped (s.m.core core) ((s.m.core core).pc + 4)))
  · have hinstret (b : Bool) (c : Core) : (c.stepEnd b).instret = c.instret := by cases b <;> rfl
    rw [endStep_core, hcore, hinstret, entry_leaves.2.1]
    rfl

theorem ebreak_goes {short : Bool} (hf : Fetches core (if short then 0x9002 else 0x00100073) s) :
    ((s.m.core core).ebreakHalt = true → s.m.saf.dbgLock = false → Goes (.ebreak core short) s (fun m =>
      (m.core core).halted = true ∧ (m.core core).pc = (s.m.core core).pc ∧ (m.core core).instret = (s.m.core core).instret)) ∧
    ((s.m.core core).ebreakHalt = false ∨ s.m.saf.dbgLock = true → Goes (.ebreak core short) s (Faulted core 1 3 0 s.m)) := by
  have hc : exec (.ebreak core short) s = runWord core (if short then 0x9002 else 0x00100073) .clean s := rfl
  have hw : (if short then 0x9002 else 0x00100073) < 2 ^ 32 ∧ insnWord (if short then 0x9002 else 0x00100073) = some 0x00100073 := by
    cases short <;> decide
  generalize (if short = true then 0x9002 else 0x00100073) = w at *
  have hi := coreInsn_system hf hw.1 hw.2 (by decide) (by decide)
  rw [if_neg (by decide), if_pos rfl] at hi
  refine ⟨fun he hl => ?_, fun h => ?_⟩
  · replace hi : coreInsn core w .clean s.m = .ok (coreHalt core s.m) :=
      hi.trans (if_pos (show ((s.m.core core).ebreakHalt && !s.m.saf.dbgLock) = true by rw [he, hl]; rfl))
    obtain ⟨hq, hrun, hhalt⟩ := coreHalt_does core s.m
    refine Goes.of_to (to_insn hs hc hf.1 hi hq) ?_
    have hend (c : Core) (b : Bool) (h : c.halted = true) : (c.stepEnd b).halted = true ∧ (c.stepEnd b).pc = c.pc ∧
        (c.stepEnd b).instret = c.instret := by
      cases b with
      | false => exact ⟨h, rfl, rfl⟩
      | true => exact ⟨rfl, rfl, rfl⟩
    rw [endStep_core]
    cases hh : (s.m.core core).halted with
    | false => rw [show (coreHalt core s.m).core core = _ from hrun hh]; exact hend _ _ rfl
    | true => rw [show (coreHalt core s.m).core core = _ from hhalt hh]; exact hend _ _ hh
  · refine goes_faulted hs hc hf.1 (hi.trans (if_neg ?_)) (by decide)
    change ¬((s.m.core core).ebreakHalt && !s.m.saf.dbgLock) = true
    obtain h | h := h <;> simp [h]

theorem userBarred_goes (hl : (s.m.core core).lvl = 0) :
    (Fetches core 0x7F000073 s → Goes (.xret core) s (Faulted core 1 8 0x7F000073 s.m)) ∧
    (Fetches core 0x7F100073 s → Goes (.wfi core) s (Faulted core 1 8 0x7F100073 s.m)) := by
  refine ⟨fun hf => ?_, fun hf => ?_⟩
  · have hi := coreInsn_system hf (by decide) (v := 0x7F000073) rfl (by decide) (by decide)
    rw [if_neg (by decide), if_neg (by decide), if_pos rfl] at hi
    exact goes_faulted hs rfl hf.1 (hi.trans (if_pos hl)) (by decide)
  · have hi := coreInsn_system hf (by decide) (v := 0x7F100073) rfl (by decide) (by decide)
    rw [if_neg (by decide), if_neg (by decide), if_neg (by decide), if_pos rfl] at hi
    exact goes_faulted hs rfl hf.1 (hi.trans (if_pos hl)) (by decide)

/-! ### Entries of requests and waking (R372, R377) -/

/-- A due request is entered. -/
theorem interrupt_goes {cls code : Nat} (hl : coreLive s.m core = true) (hh : (s.m.core core).halted = false)
    (hd : entryDue s.m core = some (cls, code)) : To (.interruptEntry core) s (s.m.setCore core
      ({ s.m.core core with c7 := if cls = 7 then (s.m.core core).c7.drop 1 else (s.m.core core).c7 }.entry cls
        (irqLevel (s.m.core core) cls) code 0 (s.m.core core).pc)) := by
  refine to_of_quiet rfl hs ?_ ⟨rfl, rfl⟩
  unfold interruptEffect
  dsimp only
  rw [hl, hh, hd]
  rfl

theorem class7_goes {code : Nat} {rest : List Nat} (hl : coreLive s.m core = true) (hh : (s.m.core core).halted = false)
    (h7 : (s.m.core core).c7 = code :: rest) (ht : irqTaken (s.m.core core) 7 = true) : Goes (.interruptEntry core) s (fun m =>
      Entered 7 2 code 0 (s.m.core core).pc (s.m.core core) (m.core core) ∧ (m.core core).c7 = rest) := by
  have hd : entryDue s.m core = some (7, code) := by
    unfold entryDue
    dsimp only
    rw [h7]
    exact if_pos ht
  refine Goes.of_to (interrupt_goes hs hl hh hd) ?_
  rw [Mach.setCore_same, if_pos rfl]
  refine ⟨entered_entry, entry_leaves.2.2.1.trans ?_⟩
  rw [h7]
  rfl

theorem request_goes {cls : Nat} (hl : coreLive s.m core = true) (hh : (s.m.core core).halted = false)
    (h7 : (s.m.core core).c7 = [] ∨ irqTaken (s.m.core core) 7 = false)
    (hcls : cls = 5 ∨ (cls = 4 ∧ (irqTaken (s.m.core core) 5 = false ∨ belRequest s.m core true = false)))
    (ht : irqTaken (s.m.core core) cls = true) (hr : belRequest s.m core (decide (cls = 5)) = true) :
    Goes (.interruptEntry core) s (fun m =>
      Entered cls (irqLevel (s.m.core core) cls) 0 0 (s.m.core core).pc (s.m.core core) (m.core core) ∧
      (m.core core).c7 = (s.m.core core).c7) := by
  have hnormal : entryDue.normal s.m core (s.m.core core) = some (cls, 0) := by
    unfold entryDue.normal
    obtain rfl | ⟨rfl, hno⟩ := hcls
    · rw [if_pos (by rw [ht]; exact hr)]
    · have hno' : ¬(irqTaken (s.m.core core) 5 && belRequest s.m core true) = true := by
        obtain h | h := hno <;> simp [h]
      rw [if_neg hno', if_pos (by rw [ht]; exact hr)]
  have hd : entryDue s.m core = some (cls, 0) := by
    unfold entryDue
    dsimp only
    split
    next code rest hc7 =>
      obtain h | h := h7
      · exact absurd (hc7.symm.trans h) (by simp)
      · rw [h]
        exact hnormal
    next => exact hnormal
  have hne : ¬cls = 7 := by omega
  refine Goes.of_to (interrupt_goes hs hl hh hd) ?_
  rw [Mach.setCore_same, if_neg hne]
  exact ⟨entered_entry, entry_leaves.2.2.1⟩

theorem coreWake_goes (hg : (s.m.core core).gated = true) (hh : (s.m.core core).held = false)
    (hsl : (if core.val = 2 then s.m.pwr.fSleep else s.m.pwr.hSleep) = false) :
    (belWakes s.m core = true ∨ (s.m.core core).c7 ≠ [] →
      Goes (.coreWake core) s (CoreOnly core { s.m.core core with gated := false } s.m)) ∧
    (belWakes s.m core = false → (s.m.core core).c7 = [] → To (.coreWake core) s s.m) := by
  have hdue : wakeDue s.m core = (belWakes s.m core || !(s.m.core core).c7.isEmpty) := by
    rw [wakeDue, hg, hh, hsl]
    rfl
  refine ⟨fun h => ?_, fun hw h7 => ?_⟩
  · have hd : wakeDue s.m core = true := by
      rw [hdue]
      obtain h | h := h
      · rw [h, Bool.true_or]
      · simp [h]
    exact Goes.of_to (to_of_quiet rfl hs (if_pos hd) ⟨rfl, rfl⟩)
      (((CoreStep.refl ..).updCore _).only (Mach.updCore_same ..))
  · refine to_of_quiet rfl hs (if_neg ?_) ⟨rfl, rfl⟩
    rw [hdue, hw, h7]
    decide

/-! ### Lockstep (R359) -/

omit hs in
theorem saf_restartKeep (cause : Nat) (m : Mach) : (restartOnly 2 cause m).saf = m.saf := by
  have hboot (n : Mach) : (fieldBoot cause n).saf = n.saf := by
    unfold fieldBoot
    dsimp only
    split_ifs <;> rfl
  unfold restartOnly
  dsimp only
  rw [if_neg (by decide), if_pos rfl, hboot]
  rfl

theorem lockstep_goes (ht : Trips 1 s.m) (hh : (s.m.core 2).halted = false) (hsl : s.m.pwr.fSleep = false) :
    Goes .lockstepMismatch s (fun m =>
      m.rd R.KEEP_RESTART_CAUSE = 8 ∧ (m.core 2).lvl = 2 ∧ (m.core 2).xmask = 3 ∧ m.rd R.SAF_STATE = 1 ∧ m.rd R.SAF_CAUSE = 1 ∧
      m.saf.latchA = true ∧ m.saf.latchB = true ∧ m.rd R.KEEP_CNT_LS = min 0xFFFFFFFF (s.m.rd R.KEEP_CNT_LS + 1)) := by
  have heff : lockstepEffect s.m = s.m.alarm 1 := by simp [lockstepEffect, hh, hsl]
  have hrun : exec .lockstepMismatch s = .next { s with m := settle (s.m.alarm 1) } := by
    rw [← heff]
    rfl
  have hal : (s.m.alarm 1).alarms = [1] := by simp [Mach.alarm, hs.1]
  refine ⟨_, hrun, rfl, ?_⟩
  rw [settle_trips (m := s.m.alarm 1) hal hs.2 ht, safeEnter_eq, if_pos (by decide), causeRestart, if_pos rfl]
  obtain ⟨h1, h2, -, -, hrd⟩ := entering_rd 1 (caught 1 (s.m.alarm 1))
  obtain ⟨hf, -, hcause, hrest⟩ := restartOnly_does (i := 2) (by decide) 8 ((entering 1 (caught 1 (s.m.alarm 1))).inc R.KEEP_CNT_LS)
  have hsaf := saf_restartKeep 8 ((entering 1 (caught 1 (s.m.alarm 1))).inc R.KEEP_CNT_LS)
  obtain ⟨-, -, -, ⟨hA, hB⟩, -⟩ := eq_of_aside (aside_entering 1 (caught 1 (s.m.alarm 1)))
  have hincs (n : Mach) (o : Obj) : (n.inc o).saf = n.saf := rfl
  have hass (n : Mach) : (asserted n).saf.latchA = true ∧ (asserted n).saf.latchB = true := ⟨rfl, rfl⟩
  have hls : (entering 1 (caught 1 (s.m.alarm 1))).rd R.KEEP_CNT_LS = s.m.rd R.KEEP_CNT_LS := by
    rw [hrd _ (by decide) (by decide), caught_rd (by decide)]
    rfl
  have hinc (o : Obj) (ho : o.key ≠ R.KEEP_CNT_LS.key) : ((entering 1 (caught 1 (s.m.alarm 1))).inc R.KEEP_CNT_LS).rd o =
      (entering 1 (caught 1 (s.m.alarm 1))).rd o := rd_inc_ne ho ..
  have hcnt : ((entering 1 (caught 1 (s.m.alarm 1))).inc R.KEEP_CNT_LS).rd R.KEEP_CNT_LS =
      min 0xFFFFFFFF ((entering 1 (caught 1 (s.m.alarm 1))).rd R.KEEP_CNT_LS + 1) := rd_inc_same ..
  have hiA : ((entering 1 (caught 1 (s.m.alarm 1))).inc R.KEEP_CNT_LS).saf = (entering 1 (caught 1 (s.m.alarm 1))).saf :=
    hincs _ _
  rw [hls] at hcnt
  generalize ((entering 1 (caught 1 (s.m.alarm 1))).inc R.KEEP_CNT_LS) = n at *
  generalize restartOnly 2 8 n = r at *
  have hrep (o : Obj) (ho : o.key ∉ [R.SAF_EVT.key, R.SAF_CNT_LOG_LOST.key]) : (statusSync (safLog 1 1 0 0 r)).rd o = r.rd o := by
    rw [statusSync_rd, safLog_rd ho]
  have haside : (statusSync (safLog 1 1 0 0 r)).aside = r.aside := by rw [aside_statusSync, aside_safLog]
  obtain ⟨hcores, -, -, ⟨hA', hB'⟩, -⟩ := eq_of_aside haside
  obtain ⟨hl, hx, -⟩ := hf
  refine ⟨(hrep _ (by decide)).trans hcause, ?_, ?_, ?_, ?_, ?_, ?_, ?_⟩
  · rw [Mach.core, hcores]; exact hl
  · rw [Mach.core, hcores]; exact hx
  · rw [hrep _ (by decide), hrest _ (by decide), hinc _ (by decide), h1]
  · rw [hrep _ (by decide), hrest _ (by decide), hinc _ (by decide), h2]
  · rw [hA', hsaf, hiA, hA, (hass _).1]
  · rw [hB', hsaf, hiA, hB, (hass _).2]
  · rw [hrep _ (by decide), hrest _ (by decide), hcnt]

/-! ### Faults of a word (R33, R370) -/

theorem fetchFault_goes {w : Word} (hl : coreLive s.m core = true) (hn : fetchOk s.m core (s.m.core core).pc.toNat = false) :
    Goes (.instruction core w .clean) s (Faulted core 1 1 (s.m.core core).pc.toNat s.m) := by
  refine goes_faulted (w := w.toNat) hs rfl hl ?_ (by decide)
  unfold coreInsn
  dsimp only
  have hbar : fetchBar s.m core w.toNat = some (s.m.core core).pc.toNat := by
    unfold fetchBar
    simp [hn]
  rw [hbar]

theorem illegal_goes {w : Word} {v : Nat} (hv : insnWord w.toNat = some v) (hf : Fetches core w.toNat s) (ho : opcodeOf v = 0x0B) :
    Goes (.instruction core w .clean) s (Faulted core 1 2 (insnRaw w.toNat) s.m) := by
  obtain ⟨-, -, -, -, -, -, -, -, -, -, h⟩ := exec_opcode (core := core) (w := w.toNat) (v := v) s.m
  exact goes_faulted hs rfl hf.1 ((coreInsn_of_fetches hf w.isLt hv).trans (h ho)) (by decide)

theorem csrBarred_goes {w : Word} {v : Nat} (hv : insnWord w.toNat = some v) (hf : Fetches core w.toNat s) (h : isCsr v = true)
    (h4 : funct3 v ≠ 4) (hrow : (csrRow (bits 31 20 v)).isSome = true)
    (hlvl : (s.m.core core).lvl < csrLevel (s.m.core core) (bits 31 20 v)) :
    Goes (.csrAccess core w) s (Faulted core 1 8 (insnRaw w.toNat) s.m) := by
  obtain ⟨⟨kind, mask⟩, hrow⟩ := Option.isSome_iff_exists.mp hrow
  refine goes_faulted hs (runKind_of hv h) hf.1 ((coreInsn_csr hf w.isLt hv h).trans ?_) (by decide)
  unfold Insn.csr
  dsimp only
  rw [show (insnAt core w.toNat v).w = v from rfl, show (insnAt core w.toNat v).core s.m = s.m.core core from rfl, hrow]
  dsimp only
  rw [if_neg h4, if_pos hlvl]
  rfl

omit hs in
/-- A word access of a Spire to a port that the spec does not describe is refused by name (R33). -/
theorem undescribed_refused {w : Word} {v a : Nat} (hv : insnWord w.toNat = some v) (hf : Fetches core w.toNat s)
    (ho : opcodeOf v = 0x03) (h3 : funct3 v = 2) (ha : a = ((s.m.core core).rdX (rs1Of v) + immI v).toNat) (h4 : a % 4 = 0)
    (hd : denied s.m core 0 a 4 = false) (hlo : 0x48003120 ≤ a) (hhi : a < 0x48100000) (hne : core.val ≠ 2) :
    exec (.instruction core w .clean) s = .refused (.undescribedPort a) := by
  have harea (b : Nat) (hb : a ≤ b ∧ b ≤ a + 3) : areaOf core b = .ports := by
    rw [areaOf, if_neg hne, spireArea, if_neg (by omega), if_neg (by omega), if_neg (by omega), if_pos (by omega)]
  have hread : coreRead core .clean a 4 s.m = .error (.port a) := by
    have hlast : areaOf core (lastByte a 4) = .ports := by
      refine harea _ ?_
      unfold lastByte
      omega
    unfold coreRead
    dsimp only
    rw [harea a (by omega), hlast, hd, if_neg (by simp), if_pos (by decide), if_neg (by omega), deviceLoad,
      show a / 4 * 4 = a by omega, harea a (by omega)]
    dsimp only
    rw [if_neg hne, if_neg (by omega), if_neg (by omega), if_neg (by omega)]
  have hi := coreInsn_load hf w.isLt hv ho h3 ha
  rw [hread] at hi
  have hrun : exec (.instruction core w .clean) s = runWord core w.toNat .clean s := rfl
  rw [hrun, runWord, eccSeen_clean, hi, hf.1]
  rfl

theorem dead_stays {w : Word} (hl : coreLive s.m core = false) : To (.instruction core w .clean) s s.m := by
  have hrun : exec (.instruction core w .clean) s = done id s := if_pos (by rw [hl]; rfl)
  exact to_of_quiet hrun hs rfl ⟨rfl, rfl⟩

end

/-- Settles O41: each entry, return and fault is what its rule says, by the kind of the word or the request. -/
theorem coreEntries : Obligations.CoreEntries := by
  unfold Obligations.CoreEntries
  rintro s core c hs rfl
  exact ⟨fun hf => ecall_goes hs hf, fun short hf => ebreak_goes hs hf, fun hl => userBarred_goes hs hl,
    fun code rest hl hh h7 ht => class7_goes hs hl hh h7 ht, fun cls hl hh h7 hcls ht hr => request_goes hs hl hh h7 hcls ht hr,
    fun hg hh hsl => coreWake_goes hs hg hh hsl, fun ht hh hsl => lockstep_goes hs ht hh hsl,
    fun w v hv => ⟨fun hl hn => fetchFault_goes hs hl hn, fun hf => ⟨fun ho => illegal_goes hs hv hf ho,
      fun h h4 hrow hlvl => csrBarred_goes hs hv hf h h4 hrow hlvl,
      fun a ho h3 ha h4 hd hlo hhi hne => undescribed_refused hv hf ho h3 ha h4 hd hlo hhi hne⟩⟩,
    fun hl w => dead_stays hs hl⟩

end Sys2Proof.Machine

/-! # O24: causes with the SAFE reaction enter the safe state (R478, R484 to R493) -/

namespace Sys2Proof.Machine

/-- What of a machine an entry to the safe state tells of. -/
def Mach.watched (m : Mach) : List (Nat × Nat) × List (Nat × Core) × Timebase × Bool × Bool × Option (Nat × Nat × Nat × Nat) :=
  (m.regs, m.cores, m.tb, m.saf.latchA, m.saf.latchB, m.saf.relAt)

section
variable {m n : Mach} {k : Nat}

theorem eq_of_watched (h : n.watched = m.watched) : n.regs = m.regs ∧ n.cores = m.cores ∧ n.tb = m.tb ∧ n.safe = m.safe ∧
    n.saf.relAt = m.saf.relAt := by
  simp only [Mach.watched, Prod.mk.injEq] at h
  obtain ⟨h1, h2, h3, h4, h5, h6⟩ := h
  exact ⟨h1, h2, h3, by rw [Mach.safe, h4, h5, Mach.safe], h6⟩

theorem trips_of_watched (h : n.watched = m.watched) (ht : Trips k m) : Trips k n := by
  obtain ⟨hr, -, htb, hsafe, hrel⟩ := eq_of_watched h
  obtain ⟨h1, h2, h3⟩ := ht
  exact ⟨hsafe.trans h1, by rwa [causeSelected, Mach.rd, hr], by rwa [releasedNow, hrel, Mach.now, htb]⟩

/-- A cause with the SAFE reaction enters the safe state, whatever else its command did. -/
theorem inSafe_of_watched (h : n.watched = m.watched) (ha : n.alarms = [k]) (hn : n.notes = []) (ht : Trips k m)
    (hk : k ≠ 0 ∧ k ≠ 1 ∧ k ≠ 7) : InSafe k m (settle n) := by
  have hin := inSafe_settle ha hn (trips_of_watched h ht) hk
  obtain ⟨hr, hcores, htb, -⟩ := eq_of_watched h
  unfold InSafe Mach.now at hin ⊢
  have hrd (o : Obj) : n.rd o = m.rd o := by rw [Mach.rd, hr, Mach.rd]
  rwa [show n.core 2 = m.core 2 by rw [Mach.core, hcores, Mach.core], htb, hrd, hrd, hrd] at hin

theorem watched_told (w : Writer) (o : Obj) (m : Mach) : (answered w (rankNote w o m)).watched = m.watched := by
  unfold answered rankNote
  split <;> split_ifs <;> rfl

theorem watched_statusSync (m : Mach) : (statusSync m).watched = m.watched := by
  unfold statusSync
  extract_lets m1 c
  split_ifs
  · rfl
  · unfold linkQueue
    split_ifs <;> rfl

end

section
variable {s : State} {c : Instr} {w : Writer} {o : Obj} {k : Nat} {n : Mach} (hs : Settled s) (ht : Trips k s.m)
    (hk : k ≠ 0 ∧ k ≠ 1 ∧ k ≠ 7)
include hs ht hk

/-- A detector's cause enters the safe state. -/
theorem inSafe_goes {f : Mach → Mach} (hc : exec c s = done f s) (hf : f s.m = n.alarm k) (h : n.watched = s.m.watched)
    (hq : n.alarms = s.m.alarms ∧ n.notes = s.m.notes) : Goes c s (InSafe k s.m) := by
  obtain ⟨ha, hn⟩ := hq
  have hx : exec c s = .next { s with m := settle (n.alarm k) } := by rw [hc, done, hf]
  refine ⟨_, hx, rfl, inSafe_of_watched h ?_ (hn.trans hs.2) ht hk⟩
  rw [Mach.alarm, ha, hs.1]
  rfl

/-- A write that is a cause enters the safe state. -/
theorem inSafe_leads {eff : Mach → Eff} (hc : exec c s = done (command w o false eff) s) (he : eff s.m = .ok (s.m.alarm k)) :
    Leads c s w o false (InSafe k s.m) := fun hm => by
  refine ⟨_, hc.trans (done_acts hm he), rfl, inSafe_of_watched (watched_told ..) ?_ ?_ ht hk⟩
  · rw [answered_alarms, rankNote_alarms, Mach.alarm, hs.1]
    rfl
  · rw [answered_notes, rankNote_notes]
    exact hs.2

end

/-! ### The watchdog's cause announces the field's restart (R492) -/

section
variable {m : Mach}

theorem settle_wdrAt (ha : m.alarms = [8]) (hn : m.notes = []) (h : Trips 8 m) (hw : m.saf.wdrAt = none) :
    (settle m).saf.wdrAt = some (m.now + 40000) := by
  rw [settle_trips_field ha hn h (by decide) (f := (·.saf.wdrAt)) (fun _ => rfl) (fun _ _ _ => rfl)]
  unfold safeAside announced
  rw [if_pos ⟨rfl, hw⟩]
  rfl

theorem settle_diagStart (ha : m.alarms = [9]) (hn : m.notes = []) (h : Trips 9 m) :
    (settle m).saf.diagStart = m.saf.diagStart := by
  rw [settle_trips_field ha hn h (by decide) (f := (·.saf.diagStart)) (fun _ => rfl) (fun _ _ _ => rfl)]
  rfl

end

/-! ### A cause of the WARN reaction, and one in the tick of a release -/

section
variable {m : Mach}

/-- A WARN cause sets its bits and tells Keep. -/
theorem causeTake_warn {k : Nat} (hsafe : m.safe = false) (hrel : releasedNow m = false) (hsel : causeSelected m k = false)
    (hk : k ≠ 8 ∧ k ≠ 15) : causeTake m k = (safRaise 4 (safLog 4 k 0 0 (causeRecord k m))).class7 2 (0x200 + k) := by
  unfold causeTake
  rw [releaseBack_none hrel, hsel]
  have hm : (causeRecord k m).safe = m.safe := by
    unfold causeRecord
    dsimp only
    split_ifs <;> rfl
  simp only [hk.1, hk.2, false_and, if_false, hm, hsafe, Bool.false_eq_true]

theorem bit_safRaise_same (b : Nat) (m : Mach) : bit b ((safRaise b m).rd R.SAF_EVT) = true := by
  rw [safRaise_evt, bit_setBit_same]

/-- The objects and the core as a WARN cause leaves them. -/
theorem overtemp_warned (ha : m.alarms = [17]) (hn : m.notes = []) (hsafe : m.safe = false) (hrel : releasedNow m = false)
    (hsel : causeSelected m 17 = false) : (settle m).safe = false ∧ (settle m).rd R.SAF_STATE = m.rd R.SAF_STATE ∧
      (settle m).rd R.SAF_LATCHED = setBit 17 (m.rd R.SAF_LATCHED) ∧ (settle m).rd R.SAF_ACTIVE = setBit 17 (m.rd R.SAF_ACTIVE) ∧
      bit 4 ((settle m).rd R.SAF_EVT) = true ∧ ((settle m).core 2).c7 = (m.core 2).c7 ++ [0x211] := by
  rw [settle_one ha hn, causeTake_warn (m := { m with alarms := [] }) hsafe hrel hsel (by decide)]
  obtain ⟨hl, hact⟩ := causeRecord_bits 17 { m with alarms := [] }
  have hrd (o : Obj) (h : o.key ∉ [R.SAF_EVT.key, R.SAF_CNT_LOG_LOST.key]) (n : Mach) :
      ((safRaise 4 (safLog 4 17 0 0 n)).class7 2 (0x200 + 17)).rd o = n.rd o := by
    change (safRaise 4 (safLog 4 17 0 0 n)).rd o = _
    rw [safRaise_rd (List.ne_of_not_mem_cons h), safLog_rd h]
  have haside (n : Mach) : (safRaise 4 (safLog 4 17 0 0 n)).aside = n.aside := by rw [aside_safRaise, aside_safLog]
  refine ⟨?_, (hrd _ (by decide) _).trans (causeRecord_rd (by decide) ..), (hrd _ (by decide) _).trans hl,
    (hrd _ (by decide) _).trans hact, bit_safRaise_same .., ?_⟩
  · obtain ⟨-, -, -, ⟨hA, hB⟩, -⟩ := eq_of_aside (haside (causeRecord 17 { m with alarms := [] }))
    change ((safRaise 4 (safLog 4 17 0 0 _)).saf.latchA || (safRaise 4 (safLog 4 17 0 0 _)).saf.latchB) = false
    rw [hA, hB]
    exact hsafe
  · obtain ⟨hcores, -⟩ := eq_of_aside (haside (causeRecord 17 { m with alarms := [] }))
    rw [Mach.class7, Mach.updCore_same, Mach.core, hcores, cores_causeRecord]
    rfl

/-- A release that a cause of its tick takes back leaves the safe state in force and counts as refused. -/
theorem releaseBack_does (h : releasedNow m = true) : (releaseBack m).safe = true ∧ (releaseBack m).rd R.SAF_STATE = 1 ∧
    bit 2 ((releaseBack m).rd R.SAF_EVT) = true ∧
    (releaseBack m).rd R.SAF_CNT_REL_REFUSED = min 0xFFFFFFFF (m.rd R.SAF_CNT_REL_REFUSED + 1) := by
  obtain ⟨⟨t, latched, evt, cnt⟩, hrel, ht⟩ : ∃ r, m.saf.relAt = some r ∧ r.1 = m.now := by
    unfold releasedNow at h
    cases hr : m.saf.relAt with
    | none => rw [hr] at h; simp at h
    | some r => rw [hr] at h; exact ⟨r, rfl, by simpa using h⟩
  rw [releaseBack_of (by rw [hrel, ← ht])]
  have hstate : (unreleased latched evt cnt m).rd R.SAF_STATE = 1 := by
    unfold unreleased
    dsimp only
    split_ifs <;> simp only [rd_wr_ne (show R.SAF_STATE.key ≠ R.SAF_EVT.key by decide),
      rd_wr_ne (show R.SAF_STATE.key ≠ R.SAF_CNT_RELEASE.key by decide), rd_wr_same]
  obtain ⟨-, -, -, ⟨hA, hB⟩, -⟩ := eq_of_aside (m1 := statusSync (safRaise 2 ((unreleased latched evt cnt m).inc R.SAF_CNT_REL_REFUSED)))
    (m := unreleased latched evt cnt m) (by rw [aside_statusSync, aside_safRaise, aside_inc])
  have hlatch : (unreleased latched evt cnt m).saf.latchA = true := by
    unfold unreleased
    dsimp only
    split_ifs <;> rfl
  refine ⟨?_, ?_, ?_, ?_⟩
  · rw [Mach.safe, hA, hlatch]
    rfl
  · rw [statusSync_rd, safRaise_rd (by decide), rd_inc_ne (by decide), hstate]
  · rw [statusSync_rd]
    exact bit_safRaise_same ..
  · rw [statusSync_rd, safRaise_rd (by decide), rd_inc_same, unreleased_rd (by decide)]

/-- In the safe state a cause sets its bits and is told of, and the state stays. -/
theorem causeTake_inForce {k : Nat} (h : (releaseBack m).safe = true) (hk : k ≠ 1 ∧ k ≠ 8) :
    causeTake m k = causeLowest k (safRaise 5 (safLog 4 k 0 0 (causeRecord k (releaseBack m)))) := by
  unfold causeTake
  have hm : (causeRecord k (releaseBack m)).safe = (releaseBack m).safe := by
    unfold causeRecord
    dsimp only
    split_ifs <;> rfl
  simp only [hk.2, false_and, if_false, hm, h, if_true]
  rw [causeRestart, if_neg hk.1]

theorem causeLowest_rd {o : Obj} (h : o.key ≠ R.SAF_CAUSE.key) (k : Nat) (m : Mach) : (causeLowest k m).rd o = m.rd o := by
  unfold causeLowest
  split_ifs
  · exact rd_wr_ne h ..
  · rfl

/-- An event bit that is set stays set through a cause of a safe state in force. -/
theorem bit_safRaise {b j : Nat} {m : Mach} (h : bit j (m.rd R.SAF_EVT) = true) : bit j ((safRaise b m).rd R.SAF_EVT) = true := by
  rw [safRaise_evt]
  by_cases hj : j = b
  · rw [hj, bit_setBit_same]
  · exact (bit_putBit_ne hj true _).trans h

theorem bit_safLog {j kind code aux detail : Nat} {m : Mach} (h : bit j (m.rd R.SAF_EVT) = true) :
    bit j ((safLog kind code aux detail m).rd R.SAF_EVT) = true := by
  unfold safLog
  split_ifs
  · exact bit_safRaise (by rwa [rd_inc_ne (by decide)])
  · exact h

theorem overtemp_released (ha : m.alarms = [17]) (hn : m.notes = []) (hrel : releasedNow m = true) :
    (settle m).safe = true ∧ (settle m).rd R.SAF_STATE = 1 ∧ bit 17 ((settle m).rd R.SAF_LATCHED) = true ∧
      bit 2 ((settle m).rd R.SAF_EVT) = true ∧
      (settle m).rd R.SAF_CNT_REL_REFUSED = min 0xFFFFFFFF (m.rd R.SAF_CNT_REL_REFUSED + 1) := by
  obtain ⟨hsafe, hstate, hevt, hcnt⟩ := releaseBack_does (m := { m with alarms := [] }) hrel
  rw [settle_one ha hn, causeTake_inForce hsafe (by decide)]
  generalize releaseBack { m with alarms := [] } = n at *
  obtain ⟨hl, -⟩ := causeRecord_bits 17 n
  have hrd (o : Obj) (h : o.key ∉ [R.SAF_CAUSE.key, R.SAF_EVT.key, R.SAF_CNT_LOG_LOST.key]) :
      (causeLowest 17 (safRaise 5 (safLog 4 17 0 0 (causeRecord 17 n)))).rd o = (causeRecord 17 n).rd o := by
    rw [causeLowest_rd (List.ne_of_not_mem_cons h), safRaise_rd (List.ne_of_not_mem_cons (List.not_mem_of_not_mem_cons h)),
      safLog_rd (List.not_mem_of_not_mem_cons h)]
  refine ⟨?_, ?_, ?_, ?_, ?_⟩
  · have haside (m : Mach) : (causeLowest 17 m).aside = m.aside := by
      unfold causeLowest
      split_ifs <;> rfl
    obtain ⟨-, -, -, ⟨hA, hB⟩, -⟩ := eq_of_aside ((haside _).trans ((aside_safRaise 5 _).trans (aside_safLog 4 17 0 0 (causeRecord 17 n))))
    rw [Mach.safe, hA, hB]
    exact hsafe
  · rw [hrd _ (by decide), causeRecord_rd (by decide), hstate]
  · rw [hrd _ (by decide), hl, bit_setBit_same]
  · rw [causeLowest_rd (by decide)]
    exact bit_safRaise (bit_safLog (by rwa [causeRecord_rd (by decide)]))
  · rw [hrd _ (by decide), causeRecord_rd (by decide), hcnt]
    rfl

end

/-- A test pulse on a line has begun. -/
def pulsed (b : Bool) (m : Mach) : Mach := statusSync { m with saf := { m.saf with test := some (b, m.now) } }

/-! ### The obligation -/

section
variable {s : State} {w : Writer} (hs : Settled s)
include hs

theorem safWdKick_inSafe {key : BitVec 16} (ht : Trips 8 s.m) (hw : s.m.saf.wdrAt = none)
    (hbad : w ≠ .keep ∨ wdGood s.m.saf.wd s.m.now (400 * s.m.rd R.SAF_WD_MIN) key.toNat = false) :
    Leads (.safWdKick w key) s w R.SAF_WD_KICK false (fun m => InSafe 8 s.m m ∧ m.saf.wdrAt = some (s.m.now + 40000)) := fun hm => by
  have he : safKickEffect w key.toNat s.m = s.m.alarm 8 := by
    unfold safKickEffect
    split
    · exact if_neg (by simpa using hbad)
    · rfl
  have hx := done_acts (eff := fun m => .ok (safKickEffect w key.toNat m)) hm (congrArg Except.ok he)
  have ha : (answered w (rankNote w R.SAF_WD_KICK (s.m.alarm 8))).alarms = [8] := by
    rw [answered_alarms, rankNote_alarms, Mach.alarm, hs.1]
    rfl
  have hn : (answered w (rankNote w R.SAF_WD_KICK (s.m.alarm 8))).notes = [] := by
    rw [answered_notes, rankNote_notes]
    exact hs.2
  have hwatch := watched_told w R.SAF_WD_KICK (s.m.alarm 8)
  have hwdr : (answered w (rankNote w R.SAF_WD_KICK (s.m.alarm 8))).saf.wdrAt = none := by
    rw [← hw]
    unfold answered rankNote
    split <;> split_ifs <;> rfl
  refine ⟨_, hx, rfl, inSafe_of_watched hwatch ha hn ht (by decide), ?_⟩
  refine (settle_wdrAt ha hn (trips_of_watched hwatch ht) hwdr).trans ?_
  obtain ⟨-, -, htb, -⟩ := eq_of_watched hwatch
  rw [Mach.now, htb]
  rfl

theorem fieldWatchdogExpiry_inSafe (ht : Trips 8 s.m) (hw : s.m.saf.wdrAt = none) (hp : wdPaused s.m = false) :
    Goes .fieldWatchdogExpiry s (fun m => InSafe 8 s.m m ∧ m.saf.wdrAt = some (s.m.now + 40000)) := by
  have hc : exec .fieldWatchdogExpiry s = .next { s with m := settle (s.m.alarm 8) } := by
    change done fieldWdExpiry s = _
    rw [done, fieldWdExpiry, hp]
    rfl
  have ha : (s.m.alarm 8).alarms = [8] := by rw [Mach.alarm, hs.1]; rfl
  exact ⟨_, hc, rfl, inSafe_of_watched rfl ha hs.2 ht (by decide), settle_wdrAt ha hs.2 ht hw⟩

theorem diagIntervalExpiry_inSafe (ht : Trips 9 s.m) (hp : wdPaused s.m = false) :
    Goes .diagIntervalExpiry s (fun m => InSafe 9 s.m m ∧ m.saf.diagStart = s.m.now) := by
  have hc : exec .diagIntervalExpiry s =
      .next { s with m := settle (({ s.m with saf := { s.m.saf with diagStart := s.m.now } }).alarm 9) } := by
    change done diagExpiry s = _
    rw [done, diagExpiry, hp]
    rfl
  have ha : (({ s.m with saf := { s.m.saf with diagStart := s.m.now } } : Mach).alarm 9).alarms = [9] := by
    change s.m.alarms ++ [9] = _
    rw [hs.1]
    rfl
  exact ⟨_, hc, rfl, inSafe_of_watched rfl ha hs.2 ht (by decide), settle_diagStart ha hs.2 ht⟩

omit hs in
/-- A test pulse begins on a line, as its tick allows (R485). -/
theorem stoPulseEffect_due {b ok : Bool} (ho : s.m.on R.SAF_STO_TEST = true) (hsto : stoOn s.m = true) (hd : stoPulseDue s.m b = true) :
    stoPulseEffect b ok s.m = if ok then pulsed b s.m else (pulsed b s.m).alarm 11 := by
  unfold stoPulseEffect
  rw [ho, hsto, hd]
  rfl

theorem stoTestPulse_inSafe {b : Bool} (ht : Trips 11 s.m) (ho : s.m.on R.SAF_STO_TEST = true) (hsto : stoOn s.m = true)
    (hd : stoPulseDue s.m b = true) : Goes (.stoTestPulse b false) s (InSafe 11 s.m) := by
  have hsig := signals_statusSync { s.m with saf := { s.m.saf with test := some (b, s.m.now) } }
  exact inSafe_goes hs ht (by decide) (f := stoPulseEffect b false) rfl (stoPulseEffect_due ho hsto hd) (watched_statusSync _)
    ⟨congrArg Prod.snd hsig, congrArg Prod.fst hsig⟩

omit hs in
theorem overtemp_goes {P : Mach → Prop} (h : P (settle (s.m.alarm 17))) : Goes .overtemp s P := ⟨_, rfl, rfl, h⟩

end

/-- Settles O24. Each cause's command leaves one cause to act in its tick; `inSafe_settle` is the entry, `causeTake_warn` the WARN
reaction and `releaseBack_does` the release of the same tick. -/
theorem safeStateEntry : Obligations.SafeStateEntry := by
  unfold Obligations.SafeStateEntry
  intro s w hs
  have ha : (s.m.alarm 17).alarms = [17] := by rw [Mach.alarm, hs.1]; rfl
  refine ⟨fun ht => ?_, fun ht h2 => ?_, fun k c hc ht => ?_, fun b ht ho hsto hd => stoTestPulse_inSafe hs ht ho hsto hd,
    fun ht => ?_, fun ht hsto => ?_, fun ht => ?_, fun h1 h2 h3 => ?_, fun h => ?_, fun key ht hw hbad => safWdKick_inSafe hs ht hw hbad,
    fun ht hw hp => fieldWatchdogExpiry_inSafe hs ht hw hp, fun v ht hv => ?_, fun ht hp => diagIntervalExpiry_inSafe hs ht hp⟩
  · exact inSafe_leads hs ht (by decide) rfl rfl
  · exact inSafe_goes hs ht (by decide) (f := ss1TimeoutEffect) rfl (if_pos h2) rfl ⟨rfl, rfl⟩
  · have hne : ∀ k : Fin 5, (if k.val = 4 then 16 else k.val + 2) ≠ 0 ∧ (if k.val = 4 then 16 else k.val + 2) ≠ 1 ∧
        (if k.val = 4 then 16 else k.val + 2) ≠ 7 := by decide
    exact inSafe_goes hs ht (hc ▸ hne k) (f := clockFaultEffect k) rfl (by rw [hc]; rfl) rfl ⟨rfl, rfl⟩
  · exact inSafe_goes hs ht (by decide) (f := stoReadbackEffect) rfl rfl rfl ⟨rfl, rfl⟩
  · exact inSafe_goes hs ht (by decide) (f := kaReadbackEffect) rfl (if_pos hsto) rfl ⟨rfl, rfl⟩
  · exact overtemp_goes (inSafe_of_watched rfl ha hs.2 ht (by decide))
  · exact overtemp_goes (overtemp_warned ha hs.2 h1 h2 h3)
  · exact overtemp_goes (overtemp_released ha hs.2 h)
  · exact inSafe_leads hs ht (by decide) (eff := fun m => .ok (diagSeqEffect v.toNat m)) rfl (congrArg Except.ok (if_neg hv))

end Sys2Proof.Machine

/-! # O25: the commands of the safety monitor (R481 to R503) -/

namespace Sys2Proof.Machine

section
variable {m : Mach}

/-- SS1 has begun (R487). -/
def ss1Begun (m : Mach) : Mach :=
  safLog 5 0 0 0 (safRaise 3 ((({ m with saf := { m.saf with ss1Start := m.now } }).wr R.SAF_STATE 2).class7 2 0x214))

theorem demandSs1_of (h : m.rd R.SAF_STATE = 0) (hr : releasedNow m = false) : demandSs1 m = ss1Begun m := by
  unfold demandSs1
  rw [if_pos ⟨h, by rw [hr]; rfl⟩]
  rfl

theorem safLog_length (h : m.saf.logQ.length < 32) (kind code aux detail : Nat) :
    (safLog kind code aux detail m).saf.logQ.length = m.saf.logQ.length + 1 := by
  rw [safLog, if_neg (by omega)]
  exact List.length_append

theorem safRaise_saf (b : Nat) (m : Mach) : (safRaise b m).saf = m.saf := by
  unfold safRaise Mach.raise
  extract_lets m1
  split_ifs <;> rfl

theorem ss1Begun_does (m : Mach) : (ss1Begun m).rd R.SAF_STATE = 2 ∧ (ss1Begun m).saf.ss1Start = m.now ∧ (ss1Begun m).safe = m.safe ∧
    ((ss1Begun m).core 2).c7 = (m.core 2).c7 ++ [0x214] ∧ bit 3 ((ss1Begun m).rd R.SAF_EVT) = true ∧
    (m.saf.logQ.length < 32 → (ss1Begun m).saf.logQ.length = m.saf.logQ.length + 1) ∧ (ss1Begun m).signals = m.signals := by
  let m1 := (({ m with saf := { m.saf with ss1Start := m.now } }).wr R.SAF_STATE 2).class7 2 0x214
  obtain ⟨hcores, -, -, ⟨hA, hB⟩, ⟨-, -, -, -, hss1, -⟩, -⟩ := eq_of_aside (m1 := ss1Begun m) (m := m1)
    ((aside_safLog ..).trans (aside_safRaise ..))
  refine ⟨?_, hss1, ?_, ?_, bit_safLog (bit_safRaise_same ..), fun h => ?_, ?_⟩
  · rw [ss1Begun, safLog_rd (by decide), safRaise_rd (by decide)]
    exact rd_wr_same { m with saf := { m.saf with ss1Start := m.now } } R.SAF_STATE 2
  · rw [Mach.safe, hA, hB]
    rfl
  · rw [Mach.core, hcores]
    exact congrArg Core.c7 (Mach.updCore_same ..)
  · refine (safLog_length (m := safRaise 3 m1) ?_ ..).trans ?_ <;> rw [safRaise_saf]
    · exact h
    · rfl
  · exact (signals_safLog ..).trans (signals_safRaise ..)

/-! ### Release (R481) -/

/-- The machine of a release, up to what is told of it. -/
def releasing (m : Mach) : Mach :=
  ((({ m with saf := { m.saf with
    latchA := false
    latchB := false
    relAt := some (m.now, m.rd R.SAF_LATCHED, m.rd R.SAF_EVT, m.rd R.SAF_CNT_RELEASE) } }).wr R.SAF_LATCHED 0).wr R.SAF_STATE 0).inc
      R.SAF_CNT_RELEASE

theorem releaseRequest_of {aux : Nat} (h1 : m.rd R.SAF_STATE = 1) (h2 : m.rd R.SAF_ACTIVE = 0) (h3 : m.saf.causeAt ≠ some m.now) :
    releaseRequest aux m = statusSync (safLog 2 0 aux 0 (safRaise 1 (releasing m))) := by
  unfold releaseRequest
  rw [if_pos ⟨h1, h2, h3⟩]
  rfl

theorem releaseRequest_refused {aux : Nat} (h : m.rd R.SAF_STATE ≠ 1 ∨ m.rd R.SAF_ACTIVE ≠ 0 ∨ m.saf.causeAt = some m.now) :
    releaseRequest aux m = releaseRefused aux m := if_neg (by
  rintro ⟨h1, h2, h3⟩
  obtain h | h | h := h <;> contradiction)

theorem released_does (aux : Nat) (m : Mach) : let n := statusSync (safLog 2 0 aux 0 (safRaise 1 (releasing m)))
    n.safe = false ∧ n.rd R.SAF_STATE = 0 ∧ n.rd R.SAF_LATCHED = 0 ∧ bit 1 (n.rd R.SAF_EVT) = true ∧
      n.rd R.SAF_CNT_RELEASE = min 0xFFFFFFFF (m.rd R.SAF_CNT_RELEASE + 1) ∧ n.signals = m.signals := by
  intro n
  have hrd (o : Obj) (h : o.key ∉ [R.SAF_EVT.key, R.SAF_CNT_LOG_LOST.key]) : n.rd o = (releasing m).rd o := by
    rw [show n = statusSync _ from rfl, statusSync_rd, safLog_rd h, safRaise_rd (List.ne_of_not_mem_cons h)]
  obtain ⟨-, -, -, ⟨hA, hB⟩, -⟩ := eq_of_aside (m1 := n) (m := releasing m)
    ((aside_statusSync _).trans ((aside_safLog ..).trans (aside_safRaise ..)))
  unfold releasing at hrd
  refine ⟨?_, ?_, ?_, ?_, ?_, ?_⟩
  · rw [Mach.safe, hA, hB]
    rfl
  · rw [hrd _ (by decide), rd_inc_ne (by decide), rd_wr_same]
  · rw [hrd _ (by decide), rd_inc_ne (by decide), rd_wr_ne (by decide), rd_wr_same]
  · rw [show n = statusSync _ from rfl, statusSync_rd]
    exact bit_safLog (bit_safRaise_same ..)
  · rw [hrd _ (by decide), rd_inc_same, rd_wr_ne (by decide), rd_wr_ne (by decide)]
    rfl
  · rw [show n = statusSync _ from rfl, signals_statusSync, signals_safLog, signals_safRaise, releasing, signals_inc, signals_wr, signals_wr]
    rfl

theorem releaseRefused_does (aux : Nat) (m : Mach) : let n := releaseRefused aux m
    n.saf.latchA = m.saf.latchA ∧ n.saf.latchB = m.saf.latchB ∧ n.rd R.SAF_STATE = m.rd R.SAF_STATE ∧
      n.rd R.SAF_LATCHED = m.rd R.SAF_LATCHED ∧ bit 2 (n.rd R.SAF_EVT) = true ∧
      n.rd R.SAF_CNT_REL_REFUSED = min 0xFFFFFFFF (m.rd R.SAF_CNT_REL_REFUSED + 1) ∧ n.signals = m.signals := by
  intro n
  have hrd (o : Obj) (h : o.key ∉ [R.SAF_EVT.key, R.SAF_CNT_LOG_LOST.key]) : n.rd o = (m.inc R.SAF_CNT_REL_REFUSED).rd o := by
    rw [show n = safRaise 2 _ from rfl, safRaise_rd (List.ne_of_not_mem_cons h), safLog_rd h]
  obtain ⟨-, -, -, ⟨hA, hB⟩, -⟩ := eq_of_aside (m1 := n) (m := m)
    ((aside_safRaise ..).trans ((aside_safLog ..).trans (aside_inc ..)))
  refine ⟨hA, hB, ?_, ?_, bit_safRaise_same .., ?_, ?_⟩
  · rw [hrd _ (by decide), rd_inc_ne (by decide)]
  · rw [hrd _ (by decide), rd_inc_ne (by decide)]
  · rw [hrd _ (by decide), rd_inc_same]
  · exact (signals_safRaise ..).trans ((signals_safLog ..).trans (signals_inc ..))

/-- What a record names as its route costs at most a free value. -/
theorem recordRoute_frame (w : Writer) (m : Mach) : { (recordRoute w m).2 with freeCtr := m.freeCtr } = m := by
  unfold recordRoute routeNo Mach.free
  split
  · split_ifs <;> rfl
  · rfl

end

/-- What a release tells of the machine. -/
def Released (m0 m : Mach) : Prop :=
  m.safe = false ∧ m.rd R.SAF_STATE = 0 ∧ m.rd R.SAF_LATCHED = 0 ∧ bit 1 (m.rd R.SAF_EVT) = true ∧
    m.rd R.SAF_CNT_RELEASE = min 0xFFFFFFFF (m0.rd R.SAF_CNT_RELEASE + 1)

/-- What a refused release leaves of the machine. -/
def ReleaseStopped (m0 m : Mach) : Prop :=
  m.saf.latchA = m0.saf.latchA ∧ m.saf.latchB = m0.saf.latchB ∧ m.rd R.SAF_STATE = m0.rd R.SAF_STATE ∧
    m.rd R.SAF_LATCHED = m0.rd R.SAF_LATCHED ∧ bit 2 (m.rd R.SAF_EVT) = true ∧
    m.rd R.SAF_CNT_REL_REFUSED = min 0xFFFFFFFF (m0.rd R.SAF_CNT_REL_REFUSED + 1)

section
variable {s : State} {c : Instr} {w : Writer} {o : Obj} {mach : Bool} {eff : Mach → Eff} {m : Mach} {P : Mach → Prop}

/-- A write that signals nothing leaves the monitor's state, the cores and the objects as its effect left them. -/
theorem leads_of_told (hc : exec c s = done (command w o mach eff) s) (hs : Settled s) (he : eff s.m = .ok m)
    (hq : m.signals = s.m.signals) (hP : ∀ n : Mach, n.saf = m.saf → n.cores = m.cores → (∀ p, n.rd p = m.rd p) → P n) :
    Leads c s w o mach P :=
  leads_of_frame hc hs he ⟨congrArg Prod.snd hq, congrArg Prod.fst hq⟩
    fun n hn => hP n (by rw [← hn]) (by rw [← hn]) (fun p => by rw [← hn]; rfl)

variable (hs : Settled s)
include hs

theorem ss1_leads (h : s.m.rd R.SAF_STATE = 0) (hr : releasedNow s.m = false) : Leads (.ss1 w) s w R.SAF_DEMAND false (fun m =>
    m.rd R.SAF_STATE = 2 ∧ m.saf.ss1Start = s.m.now ∧ m.safe = s.m.safe ∧ (m.core 2).c7 = (s.m.core 2).c7 ++ [0x214] ∧
      bit 3 (m.rd R.SAF_EVT) = true ∧ (s.m.saf.logQ.length < 32 → m.saf.logQ.length = s.m.saf.logQ.length + 1)) := by
  obtain ⟨h1, h2, h3, h4, h5, h6, hq⟩ := ss1Begun_does s.m
  refine leads_of_told (eff := fun m => .ok (demandSs1 m)) rfl hs (congrArg Except.ok (demandSs1_of h hr)) hq fun n hsaf hcores hrd => ?_
  rw [hrd, hrd, hsaf, Mach.safe, hsaf, Mach.core, hcores]
  exact ⟨h1, h2, h3, h4, h5, h6⟩

theorem safRelease_leads (hw : w ≠ .keep ∨ (s.m.on R.SAF_LOCAL_REL = true ∧ s.m.saf.safLock = false)) (h1 : s.m.rd R.SAF_STATE = 1)
    (h2 : s.m.rd R.SAF_ACTIVE = 0) (h3 : s.m.saf.causeAt ≠ some s.m.now) :
    Leads (.safRelease w 0x736C6572) s w R.SAF_RELEASE true (Released s.m) := by
  obtain ⟨aux, k, he⟩ : ∃ aux k, safReleaseEffect w 0x736C6572 s.m =
      .ok (statusSync (safLog 2 0 aux 0 (safRaise 1 (releasing { s.m with freeCtr := k })))) := by
    unfold safReleaseEffect
    rw [if_neg (by decide)]
    split
    · obtain ⟨hloc, hlock⟩ := hw.resolve_left (by simp)
      refine ⟨0, s.m.freeCtr, ?_⟩
      rw [hloc, hlock, if_pos (by rfl), releaseRequest_of h1 h2 h3]
    · have hf := recordRoute_frame w s.m
      have hk : (recordRoute w s.m).2 = { s.m with freeCtr := (recordRoute w s.m).2.freeCtr } :=
        (congrArg (fun m : Mach => { m with freeCtr := (recordRoute w s.m).2.freeCtr }) hf)
      refine ⟨(recordRoute w s.m).1, (recordRoute w s.m).2.freeCtr, ?_⟩
      rw [← releaseRequest_of (m := { s.m with freeCtr := (recordRoute w s.m).2.freeCtr }) h1 h2 h3, ← hk]
  obtain ⟨r1, r2, r3, r4, r5, hq⟩ := released_does aux { s.m with freeCtr := k }
  refine leads_of_told (eff := safReleaseEffect w 0x736C6572) rfl hs he hq fun n hsaf _ hrd => ?_
  unfold Released
  rw [Mach.safe, hsaf, hrd, hrd, hrd, hrd]
  exact ⟨r1, r2, r3, r4, r5⟩

theorem safRelease_refused (h : s.m.rd R.SAF_STATE ≠ 1 ∨ s.m.rd R.SAF_ACTIVE ≠ 0 ∨ s.m.saf.causeAt = some s.m.now ∨
    (w = .keep ∧ (s.m.on R.SAF_LOCAL_REL = false ∨ s.m.saf.safLock = true))) :
    Leads (.safRelease w 0x736C6572) s w R.SAF_RELEASE true (ReleaseStopped s.m) := by
  obtain ⟨aux, k, he⟩ : ∃ aux k, safReleaseEffect w 0x736C6572 s.m = .ok (releaseRefused aux { s.m with freeCtr := k }) := by
    unfold safReleaseEffect
    rw [if_neg (by decide)]
    split
    · refine ⟨0, s.m.freeCtr, congrArg Except.ok ?_⟩
      split_ifs with hloc
      · simp only [Bool.and_eq_true, Bool.not_eq_true'] at hloc
        refine releaseRequest_refused ?_
        obtain h | h | h | ⟨-, h⟩ := h
        · exact .inl h
        · exact .inr (.inl h)
        · exact .inr (.inr h)
        · obtain h | h := h <;> simp [h] at hloc
      · rfl
    next hw =>
      have hk : (recordRoute w s.m).2 = { s.m with freeCtr := (recordRoute w s.m).2.freeCtr } :=
        congrArg (fun m : Mach => { m with freeCtr := (recordRoute w s.m).2.freeCtr }) (recordRoute_frame w s.m)
      refine ⟨(recordRoute w s.m).1, (recordRoute w s.m).2.freeCtr, congrArg Except.ok ?_⟩
      rw [← hk]
      refine releaseRequest_refused ?_
      rw [hk]
      obtain h | h | h | ⟨h, -⟩ := h
      · exact .inl h
      · exact .inr (.inl h)
      · exact .inr (.inr h)
      · exact absurd h hw
  obtain ⟨r1, r2, r3, r4, r5, r6, hq⟩ := releaseRefused_does aux { s.m with freeCtr := k }
  refine leads_of_told (eff := safReleaseEffect w 0x736C6572) rfl hs he hq fun n hsaf _ hrd => ?_
  unfold ReleaseStopped
  rw [hsaf, hrd, hrd, hrd, hrd]
  exact ⟨r1, r2, r3, r4, r5, r6⟩

/-! ### Fuses and the log (R499, R503) -/

/-- A fuse write through a session is recorded. -/
theorem fuse_leads {v : Nat} {n : Mach} {r : Route} {h : BitVec 8} (hc : exec c s = done (command (.dict r h) o mach (fuseCmdEffect (.dict r h) v)) s)
    (he : fuseCmdEffect (.dict r h) v s.m =
      .ok (safLog 9 ((routeNo r n).2.free.1 % 256) (routeNo r n).1 0 (routeNo r n).2.free.2))
    (hn : n.signals = s.m.signals) (hlog : n.saf.logQ = s.m.saf.logQ) :
    Leads c s (.dict r h) o mach (fun m => m.saf.dbgLock = n.saf.dbgLock ∧ m.saf.safLock = n.saf.safLock ∧
      (s.m.saf.logQ.length < 32 → m.saf.logQ.length = s.m.saf.logQ.length + 1)) := by
  have hfree : { (routeNo r n).2.free.2 with freeCtr := n.freeCtr } = n := by
    unfold routeNo Mach.free
    split_ifs <;> rfl
  generalize (routeNo r n).2.free.1 % 256 = code at he
  generalize (routeNo r n).2.free.2 = f at he hfree
  have hsaf : f.saf = n.saf := by rw [← hfree]
  have hsig : f.signals = n.signals := by rw [← hfree]; rfl
  refine leads_of_told hc hs he ((signals_safLog ..).trans (hsig.trans hn)) fun m hm _ _ => ?_
  rw [hm]
  have hkeep : (safLog 9 code (routeNo r n).1 0 f).saf.dbgLock = f.saf.dbgLock ∧ (safLog 9 code (routeNo r n).1 0 f).saf.safLock = f.saf.safLock := by
    unfold safLog
    split_ifs
    · rw [safRaise_saf]
      exact ⟨rfl, rfl⟩
    · exact ⟨rfl, rfl⟩
  refine ⟨hkeep.1.trans (by rw [hsaf]), hkeep.2.trans (by rw [hsaf]), fun h => ?_⟩
  have hq : f.saf.logQ = s.m.saf.logQ := by rw [hsaf, hlog]
  rw [safLog_length (by rw [hq]; exact h), hq]

theorem fuses_go {r : Route} {h : BitVec 8} :
    (s.m.linked .field = true → Leads (.blowDbgLock (.dict r h)) s (.dict r h) R.SAF_FUSE_CMD true (fun m =>
      m.saf.dbgLock = true ∧ m.saf.safLock = s.m.saf.safLock ∧
      (s.m.saf.logQ.length < 32 → m.saf.logQ.length = s.m.saf.logQ.length + 1))) ∧
    (s.m.linked .field = false → Turns (.blowDbgLock (.dict r h)) s (.dict r h) R.SAF_FUSE_CMD true .notReady) ∧
    (s.m.saf.key.isSome = true → Leads (.blowSafLock (.dict r h)) s (.dict r h) R.SAF_FUSE_CMD true (fun m =>
      m.saf.safLock = true ∧ m.saf.dbgLock = s.m.saf.dbgLock ∧
      (s.m.saf.logQ.length < 32 → m.saf.logQ.length = s.m.saf.logQ.length + 1))) ∧
    (s.m.saf.key = none → Turns (.blowSafLock (.dict r h)) s (.dict r h) R.SAF_FUSE_CMD true .range) := by
  refine ⟨fun hl => ?_, fun hl hm => ?_, fun hk hm => ?_, fun hk hm => ?_⟩
  · exact fuse_leads hs rfl (n := { s.m with saf := { s.m.saf with dbgLock := true } }) (if_pos hl) rfl rfl
  · exact done_turned hm (if_neg (by rw [hl]; decide))
  · obtain ⟨t, ht, hq, h1, h2, h3⟩ := fuse_leads hs (c := .blowSafLock (.dict r h)) rfl
      (n := { s.m with saf := { s.m.saf with safLock := true } }) (if_pos hk) rfl rfl hm
    exact ⟨t, ht, hq, h2, h1, h3⟩
  · exact done_turned hm (if_neg (by rw [hk]; decide))

omit hs in
theorem fuses_barred (hw : ∀ r h, w ≠ .dict r h) : Turns (.blowDbgLock w) s w R.SAF_FUSE_CMD true .machine ∧
    Turns (.blowSafLock w) s w R.SAF_FUSE_CMD true .machine := by
  have he (v : Nat) : fuseCmdEffect w v s.m = .error .machine := by
    unfold fuseCmdEffect
    split
    next r h => exact absurd rfl (hw r h)
    · rfl
  exact ⟨fun hm => done_turned hm (he _), fun hm => done_turned hm (he _)⟩

theorem safLogAppend_goes (v : Word) :
    (s.m.saf.logQ.length < 32 → Writes (.safLogAppend .keep v) s .keep R.SAF_LOG_APPEND false { s.m with saf := { s.m.saf with
      logQ := s.m.saf.logQ ++ [logRecord s.m s.m.saf.logSeq 0x80 0 0 v.toNat]
      logSeq := (s.m.saf.logSeq + 1) % 2 ^ 32 } }) ∧
    (32 ≤ s.m.saf.logQ.length → Writes (.safLogAppend .keep v) s .keep R.SAF_LOG_APPEND false
      ((s.m.inc R.SAF_CNT_LOG_LOST).raise R.SAF_EVT R.SAF_EVT_EN 7 372)) ∧
    (w ≠ .keep → Turns (.safLogAppend w v) s w R.SAF_LOG_APPEND false .range) := by
  refine ⟨fun h => ?_, fun h => ?_, fun hw hm => ?_⟩
  · exact writes_of_ok (eff := logAppendEffect .keep v.toNat) rfl hs (congrArg Except.ok (if_neg (by omega))) ⟨rfl, rfl⟩
  · exact writes_of_ok (eff := logAppendEffect .keep v.toNat) rfl hs (congrArg Except.ok (if_pos h)) (by simp)
  · refine done_turned hm ?_
    unfold logAppendEffect
    split
    · exact absurd rfl hw
    · rfl

theorem logRecordWrite_goes {r : List Byte} {rest : List (List Byte)} (h : s.m.saf.logQ = r :: rest) :
    To .logRecordWrite s ((({ s.m with
      saf := { s.m.saf with logQ := rest }
      fram := memWrN s.m.fram (0xC0000 + 32 * (fieldAt 16 4 r % 8192)) r }).wr R.SAF_LOG_HEAD (fieldAt 16 4 r)).assertSrc 374) := by
  refine to_of_quiet (f := logWriteEffect) rfl hs ?_ (by simp)
  unfold logWriteEffect
  rw [h]
  rfl

/-! ### Watchdog, test pulse, interval -/

theorem stoTestPulse_runs {b : Bool} (ho : s.m.on R.SAF_STO_TEST = true) (hsto : stoOn s.m = true) (hd : stoPulseDue s.m b = true) :
    Goes (.stoTestPulse b true) s (fun m => m.saf.test = some (b, s.m.now) ∧ m.safe = false) := by
  have hsig := signals_statusSync { s.m with saf := { s.m.saf with test := some (b, s.m.now) } }
  have hto : To (.stoTestPulse b true) s (pulsed b s.m) := to_of_quiet (f := stoPulseEffect b true) rfl hs
    (stoPulseEffect_due ho hsto hd) ⟨congrArg Prod.snd hsig, congrArg Prod.fst hsig⟩
  obtain ⟨-, -, -, ⟨hA, hB⟩, ⟨-, -, htest, -⟩, -⟩ := eq_of_aside (m1 := pulsed b s.m) (aside_statusSync _)
  refine .of_to hto ⟨htest, ?_⟩
  rw [Mach.safe, hA, hB]
  simp only [stoOn, Bool.and_eq_true, Bool.not_eq_true'] at hsto
  exact hsto.1.1.1

theorem safWdKick_good {key : BitVec 16} (h : wdGood s.m.saf.wd s.m.now (400 * s.m.rd R.SAF_WD_MIN) key.toNat = true) :
    Writes (.safWdKick .keep key) s .keep R.SAF_WD_KICK false
      { s.m with saf := { s.m.saf with wd := ⟨s.m.now, !s.m.saf.wd.second, false⟩ } } :=
  writes_of_ok (eff := fun m => .ok (safKickEffect .keep key.toNat m)) rfl hs (congrArg Except.ok (if_pos h)) ⟨rfl, rfl⟩

theorem fieldWatchdogWarning_goes (hp : wdPaused s.m = false) (hw : s.m.saf.wd.warned = false) : To .fieldWatchdogWarning s
    (({ s.m with saf := { s.m.saf with wd := { s.m.saf.wd with warned := true } } }).assertSrc 373) :=
  to_of_quiet (f := fieldWdWarning) rfl hs (if_neg (by rw [hp, hw]; decide)) (by simp)

theorem safDiagSeq_good {v : Word} {n : Nat} (hn : n = (s.m.rd R.SAF_DIAG_CNT + 1) % 2 ^ 16)
    (hv : v.toNat = (2 ^ 16 - 1 - n) * 2 ^ 16 + n) : Writes (.safDiagSeq w v) s w R.SAF_DIAG_SEQ false
      (({ s.m with saf := { s.m.saf with diagStart := s.m.now } }).wr R.SAF_DIAG_CNT n) := by
  subst hn
  exact writes_of_ok (eff := fun m => .ok (diagSeqEffect v.toNat m)) rfl hs (congrArg Except.ok (if_pos hv)) (by simp)

theorem causeCleared_goes {n : Fin 22} (h1 : causeHeld n = true) (h2 : causeStands s.m n = false) :
    To (.causeCleared n) s (s.m.wr R.SAF_ACTIVE (clrBit n (s.m.rd R.SAF_ACTIVE))) :=
  to_of_quiet (f := causeClearedEffect n) rfl hs (if_pos (by rw [h1, h2]; rfl)) (by simp)

end

/-- Settles O25. -/
theorem safetyCommands : Obligations.SafetyCommands := by
  unfold Obligations.SafetyCommands
  intro s w hs
  refine ⟨ss1_leads hs, fun h => ?_, safRelease_leads hs, safRelease_refused hs, fun v hv hm => ?_,
    fun n h1 h2 => causeCleared_goes hs h1 h2, fun b => stoTestPulse_runs hs, fun key => safWdKick_good hs,
    fieldWatchdogWarning_goes hs, fun v n => safDiagSeq_good hs, ?_, fun v hv hm => ?_, fun r h hw => hw ▸ fuses_go hs, fuses_barred,
    safLogAppend_goes hs, fun r rest => logRecordWrite_goes hs⟩
  · exact writes_of_ok (eff := fun m => .ok (demandSs1 m)) rfl hs (congrArg Except.ok (if_neg (fun hh => h hh.1))) ⟨rfl, rfl⟩
  · exact done_turned hm (if_pos hv)
  · exact writes_of_ok (eff := keyCommitEffect 0x7379656B) rfl hs (if_pos rfl) ⟨rfl, rfl⟩
  · exact done_turned hm (if_neg hv)

end Sys2Proof.Machine

/-! # O26: resets of either side (R375, R480, R506, R512, R513, R520) -/

namespace Sys2Proof.Machine

/-! ## What the link, the dictionary and the objects leave alone -/

/-- The machine but for its objects, the barrier, the dictionary and the tick's entries. -/
def Mach.trunk (m : Mach) : Mach := { m with regs := [], incNow := [], bar := {}, dic := {}, entries := [] }

section
variable {m m1 : Mach} {side : Side}

/-- What machines of one trunk share. -/
theorem eq_of_trunk (h : m1.trunk = m.trunk) : m1.cores = m.cores ∧ m1.tb = m.tb ∧ m1.pwr = m.pwr ∧ m1.saf = m.saf ∧
    (m1.belF = m.belF ∧ m1.belH = m.belH) ∧ (m1.keepMem = m.keepMem ∧ m1.hostMem = m.hostMem) ∧
    (m1.flash = m.flash ∧ m1.fram = m.fram) ∧ m1.signals = m.signals := by
  have hm {α : Type} (f : Mach → α) : f m1.trunk = f m.trunk := congrArg f h
  exact ⟨hm (·.cores), hm (·.tb), hm (·.pwr), hm (·.saf), ⟨hm (·.belF), hm (·.belH)⟩, ⟨hm (·.keepMem), hm (·.hostMem)⟩,
    ⟨hm (·.flash), hm (·.fram)⟩, hm Mach.signals⟩

theorem trunk_linkQueue (typ : Nat) (p : List Byte) (m : Mach) : (linkQueue side typ p m).trunk = m.trunk := by
  unfold linkQueue
  split_ifs
  · cases side <;> rfl
  · rfl

theorem trunk_updEnd (f : BarEnd → BarEnd) (m : Mach) : (m.updEnd side f).trunk = m.trunk := by
  cases side <;> rfl

theorem trunk_linkSend (g : Msg) (m : Mach) : (linkSend side g m).trunk = m.trunk := trunk_updEnd ..

theorem trunk_linkTake {top : Nat} {other : Mach → Mach} {m : Mach} (h : (other m).trunk = m.trunk) :
    (linkTake side top other m).trunk = m.trunk := by
  unfold linkTake
  split
  · split_ifs
    · rw [trunk_linkSend, trunk_updEnd]
    · exact h
  · exact h

theorem trunk_linkLow (m : Mach) : (linkLow side m).trunk = m.trunk := by
  unfold linkLow
  split_ifs
  · rfl
  · unfold linkEvents
    exact (trunk_linkSend _ _).trans (trunk_updEnd ..)
  · exact trunk_linkTake rfl

theorem trunk_linkAgain (m : Mach) : (linkAgain side m).trunk = m.trunk := by
  unfold linkAgain
  split
  · exact trunk_updEnd ..
  · exact trunk_linkLow m

/-- A message boundary of an end changes only the barrier and its counters. -/
theorem trunk_linkPump (m : Mach) : (linkPump side m).trunk = m.trunk := by
  unfold linkPump
  split_ifs
  · rfl
  · exact trunk_updEnd ..
  · exact trunk_linkAgain m
  · exact trunk_linkTake (trunk_linkAgain m)

theorem trunk_linkFarewell (typ : Nat) (p : List Byte) (m : Mach) : (linkFarewell side typ p m).trunk = m.trunk := by
  have hdrain (n : Nat) (m : Mach) : (linkDrain side n m).trunk = m.trunk := by
    induction n generalizing m with
    | zero => rfl
    | succ n ih => rw [linkDrain, ih, trunk_linkPump]
  exact (hdrain _ _).trans (trunk_linkQueue ..)

theorem trunk_barOff (m : Mach) : (barOff side m).trunk = m.trunk := by
  cases side <;> rfl

theorem trunk_objectsReset (sw : Bool) (m : Mach) : (objectsReset side sw m).trunk = m.trunk := by
  have hvals (l : List (Nat × Nat)) (m : Mach) : (restoreVals l m).trunk = m.trunk :=
    each_keeps (g := Mach.trunk) (fun _ _ => by rfl) l m
  have hstrs (l : List (Nat × List Byte)) (m : Mach) : (restoreStrs l m).trunk = m.trunk :=
    each_keeps (g := Mach.trunk) (fun _ _ => by rfl) l m
  unfold objectsReset
  extract_lets dic m1
  split
  · exact (hstrs _ _).trans (hvals _ m1)
  · rfl

theorem trunk_imageCheck (m : Mach) : (imageCheck m).trunk = m.trunk := by
  unfold imageCheck
  split_ifs <;> rfl

/-- A reset's objects, its link and its note for the tick. -/
theorem trunk_resetObjects (kind : Nat) (sw : Bool) (m : Mach) :
    (entryNote side kind (imageCheck (objectsReset side sw (barOff side m)))).trunk = m.trunk :=
  ((trunk_imageCheck _).trans (trunk_objectsReset sw _)).trans (trunk_barOff m)

end

/-! ## The field side (R375, R480, R512) -/

/-- What a reset of the field side tells of itself but for Keep and its memory. -/
def Mach.fieldShown (m : Mach) := (m.safe, m.belF, (m.tb.ftb, m.tb.lt, m.tb.sclk), (m.fram, m.flash, m.hostMem),
  (m.octets, m.evts, m.chans), (m.pwr.heldF, m.pwr.unpow), m.signals)

section
variable {cause : Nat} {m : Mach}

theorem fieldShown_fieldBoot (cause : Nat) (m : Mach) : (fieldBoot cause m).fieldShown = m.fieldShown := by
  unfold fieldBoot
  dsimp only
  split_ifs <;> rfl

theorem fieldShown_safLog (kind code aux detail : Nat) (m : Mach) : (safLog kind code aux detail m).fieldShown = m.fieldShown := by
  unfold safLog safRaise Mach.raise
  dsimp only
  split_ifs <;> rfl

theorem keepMem_safLog (kind code aux detail : Nat) (m : Mach) : (safLog kind code aux detail m).keepMem = m.keepMem := by
  obtain ⟨-, -, ⟨h, -⟩, -⟩ := eq_of_aside (aside_safLog kind code aux detail m)
  exact h

theorem keepMem_fieldBoot (cause : Nat) (m : Mach) : (fieldBoot cause m).keepMem = if cause ≤ 3 then [] else m.keepMem := by
  unfold fieldBoot
  dsimp only
  split_ifs <;> rfl

/-- Keep restarts, and all but its pc and the hold before LCLK's edge follows. -/
theorem fieldReset_does (cause : Nat) (m : Mach) :
    (fieldReset cause m).fieldShown = (true, {}, (if cause ≤ 3 then 0 else m.tb.ftb, if cause ≤ 3 then 0 else m.tb.lt, m.tb.sclk),
      (m.fram, m.flash, m.hostMem), ([], [], []), (none, m.pwr.unpow), ([], m.alarms)) ∧
    (fieldReset cause m).keepMem = (if cause ≤ 3 then [] else m.keepMem) ∧
    (((fieldReset cause m).core 2).lvl = 2 ∧ ((fieldReset cause m).core 2).xmask = 3 ∧
      ∀ j, j ≠ 2 → (fieldReset cause m).core j = m.core j) ∧
    (fieldReset cause m).rd R.KEEP_RESTART_CAUSE = cause ∧ (fieldReset cause m).rd R.PWR_F_RAIL_STAT = m.pwr.unpow * 2 ^ 16 := by
  have hbase := trunk_resetObjects (side := .field) (if 5 ≤ cause then 1 else 2) (decide (5 ≤ cause)) m
  unfold fieldReset
  extract_lets hard m1 tb profs key bar dic pwr net m2 m3 m4 m5
  obtain ⟨hcores, -, hpwr, -, -, ⟨hkeep, hhost⟩, ⟨hflash, hfram⟩, hsig⟩ := eq_of_trunk hbase
  have h2 : m2.fieldShown = (true, {}, (if cause ≤ 3 then 0 else m.tb.ftb, if cause ≤ 3 then 0 else m.tb.lt, m.tb.sclk),
      (m.fram, m.flash, m.hostMem), ([], [], []), (none, m.pwr.unpow), ([], m.alarms)) := by
    have ha : m1.alarms = m.alarms := congrArg Prod.snd hsig
    rw [← hfram, ← hflash, ← hhost, ← ha, ← hpwr]
    simp only [Mach.fieldShown, Mach.signals, m2, tb, hard, decide_eq_true_eq]
    rfl
  have h2c : m2.cores = m.cores := hcores
  have h2k : m2.keepMem = m.keepMem := hkeep
  have h2u : m2.pwr.unpow = m.pwr.unpow := (congrArg Power.unpow hpwr :)
  clear_value m2
  have h4 : m4.fieldShown = m2.fieldShown ∧ m4.cores = m2.cores ∧ m4.keepMem = m2.keepMem ∧
      m4.rd R.PWR_F_RAIL_STAT = m2.pwr.unpow * 2 ^ 16 := by
    have h3 : m3.rd R.PWR_F_RAIL_STAT = m2.pwr.unpow * 2 ^ 16 := (rd_wr_ne (by decide) ..).trans (rd_wr_same ..)
    unfold m4
    split_ifs
    · exact ⟨rfl, rfl, rfl, (rd_wr_ne (by decide) ..).trans h3⟩
    · exact ⟨rfl, rfl, rfl, h3⟩
  clear_value m4
  obtain ⟨⟨hlvl, hmask, -⟩, -, hne, hcause, hrd⟩ := restartCore_does 2 cause m4
  obtain ⟨⟨pc, hb⟩, hbne, hbrd⟩ := fieldBoot_does cause (restartCore 2 cause m4)
  have h5c (j : Nat) : m5.core j = (fieldBoot cause (restartCore 2 cause m4)).core j := by
    rw [Mach.core, cores_safLog, Mach.core]
  have h5r (o : Obj) (h : o.key ∉ [R.SAF_EVT.key, R.SAF_CNT_LOG_LOST.key]) : m5.rd o = (restartCore 2 cause m4).rd o :=
    (safLog_rd h ..).trans (hbrd o)
  have h5 : m5.fieldShown = m4.fieldShown := (fieldShown_safLog ..).trans (fieldShown_fieldBoot ..)
  have h5k : m5.keepMem = if cause ≤ 3 then [] else m4.keepMem := (keepMem_safLog ..).trans (keepMem_fieldBoot ..)
  have hc5 : (m5.core 2).lvl = 2 ∧ (m5.core 2).xmask = 3 := by rw [h5c, hb]; exact ⟨hlvl, hmask⟩
  have hn5 (j : Nat) (hj : j ≠ 2) : m5.core j = m.core j := by
    rw [h5c, hbne j hj, hne j hj, Mach.core, h4.2.1, h2c, Mach.core]
  have hr5 : m5.rd R.KEEP_RESTART_CAUSE = cause ∧ m5.rd R.PWR_F_RAIL_STAT = m.pwr.unpow * 2 ^ 16 := by
    refine ⟨(h5r _ (by decide)).trans hcause, (h5r _ (by decide)).trans ((hrd _ (by decide)).trans ?_)⟩
    rw [h4.2.2.2, h2u]
  have hs5 := h5.trans (h4.1.trans h2)
  rw [h4.2.2.1, h2k] at h5k
  clear_value m5
  by_cases hslow : tb.slowFrom.isSome = true
  · rw [if_pos hslow]
    refine ⟨hs5, h5k, ⟨?_, ?_, fun j hj => (updCore_ne hj ..).trans (hn5 j hj)⟩, hr5⟩
    · rw [Mach.updCore_same]; exact hc5.1
    · rw [Mach.updCore_same]; exact hc5.2
  · rw [if_neg hslow]
    exact ⟨hs5, h5k, ⟨hc5.1, hc5.2, hn5⟩, hr5⟩

/-- A reset of the field side. -/
theorem sideReset_field (cause : Nat) (m : Mach) : FieldRestarted cause m (sideReset .field cause m) ∧
    (sideReset .field cause m).signals = ([], m.alarms) ∧ (sideReset .field cause m).pwr.unpow = m.pwr.unpow ∧
    (sideReset .field cause m).rd R.PWR_F_RAIL_STAT = m.pwr.unpow * 2 ^ 16 := by
  obtain ⟨hshown, hkeep, ⟨hlvl, hmask, hne⟩, hcause, hrail⟩ := fieldReset_does cause { m with saf := { m.saf with sess := [] } }
  simp only [Mach.fieldShown, Prod.mk.injEq] at hshown
  obtain ⟨hsafe, hbel, ⟨hftb, hlt, hsclk⟩, ⟨hfram, hflash, hhost⟩, ⟨hoct, hevt, hchan⟩, ⟨hheld, hunpow⟩, hsig⟩ := hshown
  unfold sideReset resetHold
  dsimp only
  generalize fieldReset cause { m with saf := { m.saf with sess := [] } } = n at *
  have htime : holdTime cause = 0 ↔ cause = 1 := by
    unfold holdTime
    split_ifs <;> simp [*]
  split_ifs with h0
  · refine ⟨⟨hcause, hlvl, hmask, hsafe, hbel, hftb, hlt, hkeep, hfram, hflash, hhost, hne 0 (by decide), hne 1 (by decide), hoct, hevt,
      hchan, ?_⟩, hsig, hunpow, hrail⟩
    rw [hheld, heldUntil, if_pos (htime.mp h0)]
  · refine ⟨⟨hcause, ?_, ?_, hsafe, hbel, hftb, hlt, hkeep, hfram, hflash, hhost, (updCore_ne (by decide) ..).trans (hne 0 (by decide)),
      (updCore_ne (by decide) ..).trans (hne 1 (by decide)), hoct, hevt, hchan, ?_⟩, hsig, hunpow, hrail⟩
    · rw [Mach.updCore_same]; exact hlvl
    · rw [Mach.updCore_same]; exact hmask
    · change some (n.tb.sclk + holdTime cause) = _
      rw [hsclk, heldUntil, if_neg (mt htime.mpr h0), holdTime, if_neg (mt htime.mpr h0)]

end

/-! ## The host side -/

/-- What a reset of the host side tells of itself but for the Spires. -/
def Mach.hostShown (m : Mach) := ((m.tb.hlt2, m.tb.ftb, m.tb.lt, m.tb.sclk), m.saf.sess, m.belH, (m.pwr.hSleep, m.pwr.heldH, m.pwr.vddio33),
  (m.keepMem, m.fram), m.signals)

section
variable {cause : Nat} {m : Mach}

theorem hostShown_hostBoot (cause : Nat) (m : Mach) : (hostBoot cause m).hostShown = m.hostShown := by
  unfold hostBoot
  extract_lets m1 sec m2 p m3 h4 m5 a h6
  have h1 : m1.hostShown = m.hostShown := by unfold m1; split_ifs <;> rfl
  clear_value sec p m1
  have h3 : m3.hostShown = m.hostShown := h1
  have h5 : m5.hostShown = m3.hostShown := rfl
  clear_value m5 m3 h4 h6
  split_ifs
  · exact h3
  · exact h5.trans h3
  · rfl
  · rfl

theorem persReset_frame (cut : Bool) (m : Mach) : (persReset cut m).hostShown = m.hostShown ∧ (persReset cut m).cores = m.cores := by
  unfold persReset
  dsimp only
  split_ifs <;> exact ⟨rfl, rfl⟩

theorem hostReset_does (cause : Nat) (m : Mach) :
    (hostReset cause m).hostShown = ((0, m.tb.ftb, m.tb.lt, m.tb.sclk), [], { inthLow := m.belH.inthLow }, (false, none, m.pwr.vddio33),
      (m.keepMem, m.fram), m.signals) ∧
    ((hostReset cause m).rd (R.SPR_RESTART_CAUSE 0) = cause ∧ (hostReset cause m).rd (R.SPR_RESTART_CAUSE 1) = cause) ∧
    (((hostReset cause m).core 0).lvl = 2 ∧ ((hostReset cause m).core 0).xmask = 3) ∧
    (((hostReset cause m).core 1).lvl = 2 ∧ ((hostReset cause m).core 1).xmask = 3 ∧ ((hostReset cause m).core 1).held = true) ∧
    (hostReset cause m).core 2 = m.core 2 := by
  have hbase := trunk_resetObjects (side := .host) (if 5 ≤ cause then 1 else 2) (decide (5 ≤ cause)) m
  unfold hostReset
  extract_lets m1 tb bar dic saf pwr m2 cut m3
  obtain ⟨hcores, htb, hpwr, -, ⟨-, hbelH⟩, ⟨hkeep, -⟩, ⟨-, hfram⟩, hsig⟩ := eq_of_trunk hbase
  have h2 : m2.hostShown = ((0, m.tb.ftb, m.tb.lt, m.tb.sclk), [], { inthLow := m.belH.inthLow }, (false, none, m.pwr.vddio33),
      (m.keepMem, m.fram), m.signals) := by
    rw [← htb, ← hbelH, ← hpwr, ← hkeep, ← hfram, ← hsig]
    rfl
  have h2c : m2.cores = m.cores := hcores
  clear_value m2 cut
  have h3 : m3.hostShown = m2.hostShown := (show m3.hostShown = (persReset cut m2).hostShown from rfl).trans (persReset_frame cut m2).1
  have h3c : m3.cores = m.cores := (persReset_frame cut m2).2.trans h2c
  clear_value m3
  obtain ⟨⟨hl0, hm0, -⟩, -, hne0, hc0, -⟩ := restartCore_does 0 cause m3
  have hs0 : (restartCore 0 cause m3).hostShown = m3.hostShown := rfl
  obtain ⟨⟨pc, g, hb⟩, hbne, hbrd⟩ := hostBoot_does cause (restartCore 0 cause m3)
  have hsb := hostShown_hostBoot cause (restartCore 0 cause m3)
  replace hc0 := (hbrd (restartCauseObj 0) (by decide)).trans hc0
  have hb0 : ((hostBoot cause (restartCore 0 cause m3)).core 0).lvl = 2 ∧ ((hostBoot cause (restartCore 0 cause m3)).core 0).xmask = 3 := by
    rw [hb]; exact ⟨hl0, hm0⟩
  have hb2 : (hostBoot cause (restartCore 0 cause m3)).core 2 = m.core 2 := by
    rw [hbne 2 (by decide), hne0 2 (by decide), Mach.core, h3c, Mach.core]
  generalize hostBoot cause (restartCore 0 cause m3) = m4 at *
  obtain ⟨⟨hl1, hm1, -⟩, -, hne1, hc1, hrd1⟩ := restartCore_does 1 cause m4
  have hs1 : (restartCore 1 cause m4).hostShown = m4.hostShown := rfl
  replace hc0 := (hrd1 (restartCauseObj 0) (by decide)).trans hc0
  generalize restartCore 1 cause m4 = m5 at *
  refine ⟨hs1.trans (hsb.trans (hs0.trans (h3.trans h2))), ⟨hc0, hc1⟩, ?_, ?_, ?_⟩
  · rw [holdSpire1, updCore_ne (by decide), hne1 0 (by decide)]
    exact hb0
  · rw [holdSpire1, Mach.updCore_same]
    exact ⟨hl1, hm1, rfl⟩
  · rw [holdSpire1, updCore_ne (by decide), hne1 2 (by decide)]
    exact hb2

/-- A reset of the host side. -/
theorem sideReset_host (cause : Nat) (m : Mach) : HostRestarted cause m (sideReset .host cause m) ∧
    (sideReset .host cause m).signals = m.signals ∧ (sideReset .host cause m).pwr.vddio33 = m.pwr.vddio33 := by
  obtain ⟨hshown, ⟨hc0, hc1⟩, ⟨hl0, hm0⟩, ⟨hl1, hm1, hh1⟩, h2⟩ := hostReset_does cause m
  simp only [Mach.hostShown, Prod.mk.injEq] at hshown
  obtain ⟨⟨hhlt, hftb, hlt, hsclk⟩, hsess, hbel, ⟨hsleep, hheld, hvdd⟩, ⟨hkeep, hfram⟩, hsig⟩ := hshown
  unfold sideReset resetHold
  dsimp only
  generalize hostReset cause m = n at *
  have htime : holdTime cause = 0 ↔ cause = 1 := by
    unfold holdTime
    split_ifs <;> simp [*]
  split_ifs with h0
  · refine ⟨⟨hc0, hc1, hl0, hm0, hl1, hm1, hh1, hhlt, hsess, hbel, hsleep, h2, hkeep, hfram, hftb, hlt, ?_⟩, hsig, hvdd⟩
    rw [hheld, heldUntil, if_pos (htime.mp h0)]
  · refine ⟨⟨hc0, hc1, ?_, ?_, ?_, ?_, ?_, hhlt, hsess, hbel, hsleep, (updCore_ne (by decide) ..).trans h2, hkeep, hfram, hftb, hlt, ?_⟩,
      hsig, hvdd⟩
    · rw [Mach.updCore_same]; exact hl0
    · rw [Mach.updCore_same]; exact hm0
    · rw [updCore_ne (by decide)]; exact hl1
    · rw [updCore_ne (by decide)]; exact hm1
    · rw [updCore_ne (by decide)]; exact hh1
    · change some (n.tb.sclk + holdTime cause) = _
      rw [hsclk, heldUntil, if_neg (mt htime.mpr h0), holdTime, if_neg (mt htime.mpr h0)]

end

/-! ## The obligation -/

section
variable {s : State} {w : Writer} {side : Side} {cause : Nat} {m m1 : Mach}

theorem heldUntil_congr (h : m1.tb = m.tb) (cause : Nat) : heldUntil cause m1 = heldUntil cause m := by
  unfold heldUntil
  rw [h]

/-- A reset of a machine on the same trunk is told in the same terms. -/
theorem restarted_of_trunk {n : Mach} (h : m1.trunk = m.trunk) (hr : Restarted side cause m1 n) : Restarted side cause m n := by
  obtain ⟨hcores, htb, -, -, ⟨-, hbelH⟩, ⟨hkeep, hhost⟩, ⟨hflash, hfram⟩, -⟩ := eq_of_trunk h
  have hcore (i : Nat) : m1.core i = m.core i := by rw [Mach.core, hcores, Mach.core]
  cases side with
  | host => simpa only [Restarted, HostRestarted, htb, hbelH, hkeep, hfram, hcore, heldUntil_congr htb] using hr
  | field => simpa only [Restarted, FieldRestarted, htb, hkeep, hhost, hflash, hfram, hcore, heldUntil_congr htb] using hr

theorem sideReset_does (side : Side) (cause : Nat) (m : Mach) : Restarted side cause m (sideReset side cause m) ∧
    (m.signals = ([], []) → (sideReset side cause m).signals = ([], [])) := by
  cases side with
  | field =>
    obtain ⟨h, hsig, -⟩ := sideReset_field cause m
    exact ⟨h, fun hm => hsig.trans (congrArg (fun x => ([], x.2)) hm)⟩
  | host =>
    obtain ⟨h, hsig, -⟩ := sideReset_host cause m
    exact ⟨h, fun hm => hsig.trans hm⟩

theorem softReset_does (side : Side) (cause : Nat) (m : Mach) : Restarted side cause m (softReset side cause m) ∧
    (m.signals = ([], []) → (softReset side cause m).signals = ([], [])) := by
  have htrunk := trunk_linkFarewell (side := side) 3 (stateMsg (if cause = 6 then 4 else 5) 1) m
  obtain ⟨h, hsig⟩ := sideReset_does side cause (linkFarewell side 3 (stateMsg (if cause = 6 then 4 else 5) 1) m)
  obtain ⟨-, -, -, -, -, -, -, hfare⟩ := eq_of_trunk htrunk
  exact ⟨restarted_of_trunk htrunk h, fun hm => hsig (hfare.trans hm)⟩

variable (hs : Settled s)
include hs

theorem signals_of_settled : s.m.signals = ([], []) := by
  obtain ⟨ha, hn⟩ := hs
  rw [Mach.signals, ha, hn]

/-- A command that is a reset of a side. -/
theorem reset_goes {c : Instr} {f : Mach → Mach} {m : Mach} {P : Mach → Prop} (hc : exec c s = done f s) (hf : f s.m = sideReset side cause m)
    (hm : m.signals = s.m.signals) (hP : P (sideReset side cause m)) : Goes c s P := by
  have hsig : (sideReset side cause m).signals = s.m.signals := by
    rw [(sideReset_does side cause m).2 (hm.trans (signals_of_settled hs)), signals_of_settled hs]
  exact .of_to (to_of_quiet hc hs hf ⟨congrArg Prod.snd hsig, congrArg Prod.fst hsig⟩) hP

theorem sideReset_goes {c : Instr} {f : Mach → Mach} (hc : exec c s = done f s) (hf : f s.m = sideReset side cause s.m) :
    Goes c s (Restarted side cause s.m) := reset_goes hs hc hf rfl (sideReset_does side cause s.m).1

/-- A write that is a reset of a side. -/
theorem reset_leads {c : Instr} {o : Obj} {mach : Bool} {eff : Mach → Eff} {n : Mach} (hc : exec c s = done (command w o mach eff) s)
    (he : eff s.m = .ok n) (hn : n.signals = ([], [])) (hr : Restarted side cause s.m n) : Leads c s w o mach (Restarted side cause s.m) := by
  have hsig : n.signals = s.m.signals := hn.trans (signals_of_settled hs).symm
  refine leads_of_frame hc hs he ⟨congrArg Prod.snd hsig, congrArg Prod.fst hsig⟩ fun k hk => ?_
  have hfield {α : Type} (f : Mach → α) : f { k with out := n.out, ranks := n.ranks, redos := n.redos } = f n := congrArg f hk
  have hrd (o : Obj) : k.rd o = n.rd o := hfield (·.rd o)
  have hcore (i : Nat) : k.core i = n.core i := hfield (·.core i)
  have hsafe : k.safe = n.safe := hfield Mach.safe
  cases side with
  | host =>
    unfold Restarted HostRestarted at hr ⊢
    rwa [hrd, hrd, hcore, hcore, hcore, show k.tb = n.tb from hfield (·.tb), show k.saf = n.saf from hfield (·.saf),
      show k.belH = n.belH from hfield (·.belH), show k.pwr = n.pwr from hfield (·.pwr), show k.keepMem = n.keepMem from hfield (·.keepMem),
      show k.fram = n.fram from hfield (·.fram)]
  | field =>
    unfold Restarted FieldRestarted at hr ⊢
    rwa [hrd, hcore, hcore, hcore, hsafe, show k.tb = n.tb from hfield (·.tb), show k.belF = n.belF from hfield (·.belF),
      show k.pwr = n.pwr from hfield (·.pwr), show k.keepMem = n.keepMem from hfield (·.keepMem),
      show k.hostMem = n.hostMem from hfield (·.hostMem), show k.fram = n.fram from hfield (·.fram),
      show k.flash = n.flash from hfield (·.flash), show k.octets = n.octets from hfield (·.octets),
      show k.evts = n.evts from hfield (·.evts), show k.chans = n.chans from hfield (·.chans)]

theorem por_goes (bank33 unpowered : Byte) (vddio33 : Bool) : Goes (.por side bank33 unpowered vddio33) s (fun m =>
    Restarted side 1 s.m m ∧
    (side = .field → m.pwr.unpow = unpowered.toNat ∧ m.rd R.PWR_F_RAIL_STAT = unpowered.toNat * 2 ^ 16) ∧
    (side = .host → m.pwr.vddio33 = vddio33)) := by
  cases side with
  | field =>
    let m1 : Mach := { s.m with pwr := { s.m.pwr with bank33 := bank33.toNat &&& (255 - unpowered.toNat), unpow := unpowered.toNat } }
    obtain ⟨h, -, hunpow, hrail⟩ := sideReset_field 1 m1
    exact reset_goes hs (f := porEffect .field bank33.toNat unpowered.toNat vddio33) (m := m1) rfl rfl rfl
      ⟨h, fun _ => ⟨hunpow, hrail⟩, nofun⟩
  | host =>
    let m1 : Mach := { s.m with pwr := { s.m.pwr with vddio33 := vddio33 } }
    obtain ⟨h, -, hvdd⟩ := sideReset_host 1 m1
    exact reset_goes hs (f := porEffect .host bank33.toNat unpowered.toNat vddio33) (m := m1) rfl rfl rfl ⟨h, nofun, fun _ => hvdd⟩

theorem swf_writes : Writes (.swf w side) s w (resetObj side) true
    (let m := if s.m.linked side then linkQueue side 19 [2, 0, 0, 0] s.m else s.m
     match side with
     | .host => { m with pwr := { m.pwr with rstH := some (s.m.tb.sclk + 1600) } }
     | .field => { m with pwr := { m.pwr with rstF := some (s.m.tb.sclk + 1600) } }) := by
  have hq : (if s.m.linked side then linkQueue side 19 [2, 0, 0, 0] s.m else s.m).signals = s.m.signals := by
    split_ifs
    · exact signals_linkQueue ..
    · rfl
  refine writes_of_ok (eff := resetEffect side 0x72730003) rfl hs (?_ : _ = Except.ok _) ?_
  · cases side <;> rfl
  · cases side <;> exact ⟨congrArg Prod.snd hq, congrArg Prod.fst hq⟩

theorem swsOther_writes (hl : s.m.linked side = true) :
    Writes (.swsOther w side) s w (resetObj side) true (linkQueue side 19 [1, 0, 0, 0] s.m) := by
  have hq := signals_linkQueue side 19 [1, 0, 0, 0] s.m
  exact writes_of_ok (eff := resetEffect side 0x72730002) rfl hs (if_pos hl) ⟨congrArg Prod.snd hq, congrArg Prod.fst hq⟩

theorem hostWdKick_leads {key : BitVec 16} (h : (∀ n, w ≠ .spire n) ∨
    wdGood s.m.pwr.hWd (hostTicks s.m) (400 * s.m.rd R.PWR_H_WD_MIN) key.toNat = false) :
    Leads (.hostWdKick w key) s w R.PWR_H_WD_KICK false (HostRestarted 4 s.m) := by
  have he : hostKickEffect w key.toNat s.m = sideReset .host 4 s.m := by
    unfold hostKickEffect
    split
    next n => exact if_neg (by simpa using h)
    · rfl
  obtain ⟨hr, hsig⟩ := sideReset_does .host 4 s.m
  exact reset_leads (side := .host) hs (eff := fun m => .ok (hostKickEffect w key.toNat m)) rfl (congrArg Except.ok he)
    (hsig (signals_of_settled hs)) hr

end

/-- Settles O26. `fieldReset_does` and `hostReset_does` say what a reset leaves of each side. -/
theorem resets : Obligations.Resets := by
  unfold Obligations.Resets
  intro s w side hs
  have hsig := signals_of_settled hs
  refine ⟨por_goes hs, sideReset_goes hs (f := sideReset side 2) rfl rfl, fun ns => ⟨fun h => ?_, fun h1 h2 => ?_, fun h => if_pos h⟩,
    sideReset_goes hs (f := sideReset side 4) rfl rfl, ?_, swf_writes hs, (softReset_does side 5 s.m).1, swsOther_writes hs,
    fun hl hm => ?_, fun key => ⟨hostWdKick_leads hs, fun n h => ?_⟩, fun hp => ?_, fun hp hw => ?_⟩
  · have hc : exec (.pin side ns) s = done (sideReset side 3) s := (if_neg (by omega)).trans (if_neg (by omega))
    exact sideReset_goes hs hc rfl
  · exact (if_neg (by omega)).trans (if_pos (by omega))
  · obtain ⟨hr, hq⟩ := softReset_does side 6 s.m
    exact reset_leads hs (eff := resetEffect side 0x72730001) (n := softReset side 6 s.m) rfl rfl (hq hsig) hr
  · have he : swsOtherEffect side s.m = .error .notReady := if_neg (by rw [hl]; decide)
    exact done_turned (eff := resetEffect side 0x72730002) hm he
  · exact writes_of_ok (eff := fun m => .ok (hostKickEffect (.spire n) key.toNat m)) rfl hs (congrArg Except.ok (if_pos h)) ⟨rfl, rfl⟩
  · exact sideReset_goes (side := .host) hs (f := hostWdExpiry) rfl (if_neg (by rw [hp]; decide))
  · exact to_of_quiet (f := hostWdWarning) rfl hs (if_neg (by rw [hp, hw]; decide)) (by simp)

end Sys2Proof.Machine

/-! # What the units of the field side leave of power, link, cores and monitor (R17, R521)

Units stop and restart with a state of the field side. What they leave as it is, is said once for each of them. -/

namespace Sys2Proof.Machine

/-- The number of an object below the units' own. -/
def Mach.low (m : Mach) (o : Obj) : Nat := if o.key < 0x200000 then m.rd o else 0

/-- What is not a unit's: the objects below the units' own, power but for the draws, barrier, cores, memories, time, monitor and
causes. -/
def Mach.helm (m : Mach) := (m.low, { m.pwr with gov := [], asked := [] }, m.bar, m.cores, (m.keepMem, m.hostMem), m.tb, m.saf, m.alarms)

/-- An object of a unit. -/
def OfUnit (o : Obj) : Prop := 0x200000 ≤ o.key

theorem ofUnit_of_idx {o : Obj} (h : 0x2000 ≤ o.idx) : OfUnit o := by
  unfold OfUnit Obj.key
  omega

section
variable {m m1 : Mach}

/-- What machines share whose helm is the same. -/
theorem eq_of_helm (h : m1.helm = m.helm) : (∀ o : Obj, o.key < 0x200000 → m1.rd o = m.rd o) ∧ (m1.bar = m.bar ∧ m1.cores = m.cores) ∧
    (m1.keepMem = m.keepMem ∧ m1.hostMem = m.hostMem) ∧ m1.tb = m.tb ∧ m1.saf = m.saf ∧ m1.alarms = m.alarms ∧
    { m1.pwr with gov := [], asked := [] } = { m.pwr with gov := [], asked := [] } := by
  simp only [Mach.helm, Prod.mk.injEq] at h
  obtain ⟨hlow, hpwr, hbar, hcores, ⟨hk, hh⟩, htb, hsaf, hal⟩ := h
  refine ⟨fun o ho => ?_, ⟨hbar, hcores⟩, ⟨hk, hh⟩, htb, hsaf, hal, hpwr⟩
  have := congrFun hlow o
  simpa only [Mach.low, if_pos ho] using this

end

/-! ## Primitives -/

section
variable {o : Obj}

theorem low_wr (h : OfUnit o) (v : Nat) (m : Mach) : (m.wr o v).low = m.low := by
  funext p
  unfold Mach.low
  split_ifs with hp
  · exact rd_wr_ne (by unfold OfUnit at h; omega) ..
  · rfl

@[simp] theorem helm_wr (h : OfUnit o) (v : Nat) (m : Mach) : (m.wr o v).helm = m.helm := by
  simp only [Mach.helm, low_wr h, Mach.wr_fields]

@[simp] theorem helm_inc (h : OfUnit o) (m : Mach) : (m.inc o).helm = m.helm := helm_wr h _ m

@[simp] theorem helm_setEvt (h : OfUnit o) (b : Nat) (m : Mach) : (m.setEvt o b).helm = m.helm := helm_wr h _ m

@[simp] theorem helm_assertSrc (id : Nat) (m : Mach) : (m.assertSrc id).helm = m.helm := rfl

@[simp] theorem helm_raise (h : OfUnit o) (en : Obj) (b src : Nat) (m : Mach) : (m.raise o en b src).helm = m.helm := by
  unfold Mach.raise
  extract_lets m1
  split_ifs <;> exact helm_setEvt h b m

@[simp] theorem helm_updChan (c : Nat) (f : Chan → Chan) (m : Mach) : (m.updChan c f).helm = m.helm := rfl
@[simp] theorem helm_setChan (c : Nat) (x : Chan) (m : Mach) : (m.setChan c x).helm = m.helm := rfl
@[simp] theorem helm_updEvt (s : Nat) (f : EvtSlot → EvtSlot) (m : Mach) : (m.updEvt s f).helm = m.helm := rfl
@[simp] theorem helm_setEvtSlot (s : Nat) (x : EvtSlot) (m : Mach) : (m.setEvtSlot s x).helm = m.helm := rfl
@[simp] theorem helm_updLane (n : Nat) (f : Lane → Lane) (m : Mach) : (m.updLane n f).helm = m.helm := rfl
@[simp] theorem helm_updCtx (x : Nat) (f : Ctx → Ctx) (m : Mach) : (m.updCtx x f).helm = m.helm := rfl
@[simp] theorem helm_updMov (n : Nat) (f : Mover → Mover) (m : Mach) : (m.updMov n f).helm = m.helm := rfl
@[simp] theorem helm_updOctet (o : Nat) (f : Octet → Octet) (m : Mach) : (m.updOctet o f).helm = m.helm := rfl
@[simp] theorem helm_setOctet (o : Nat) (x : Octet) (m : Mach) : (m.setOctet o x).helm = m.helm := rfl
@[simp] theorem helm_setEngine (e : Nat) (x : Engine) (m : Mach) : (m.setEngine e x).helm = m.helm := rfl
@[simp] theorem helm_setOcu (u : Nat) (x : Ocu) (m : Mach) : (m.setOcu u x).helm = m.helm := rfl
@[simp] theorem helm_setWhl (d : Nat) (x : Whl) (m : Mach) : (m.setWhl d x).helm = m.helm := rfl
@[simp] theorem helm_updWhl (d : Nat) (f : Whl → Whl) (m : Mach) : (m.updWhl d f).helm = m.helm := rfl
@[simp] theorem helm_setVm (v : Nat) (x : Vm) (m : Mach) : (m.setVm v x).helm = m.helm := rfl
@[simp] theorem helm_setAx (a : Nat) (x : Ax) (m : Mach) : (m.setAx a x).helm = m.helm := rfl
@[simp] theorem helm_updAx (a : Nat) (f : Ax → Ax) (m : Mach) : (m.updAx a f).helm = m.helm := rfl
@[simp] theorem helm_setProf (p : Nat) (x : Prof) (m : Mach) : (m.setProf p x).helm = m.helm := rfl
@[simp] theorem helm_note (n : Note) (m : Mach) : (m.note n).helm = m.helm := rfl
@[simp] theorem helm_govRequest (d : Draw) (m : Mach) : (govRequest d m).helm = m.helm := rfl
@[simp] theorem helm_govWithdraw (d : Draw) (m : Mach) : (govWithdraw d m).helm = m.helm := rfl

end

/-! ## The units' objects -/

@[simp] theorem ofUnit_whl (d : Nat) : OfUnit (R.WHL_STATE d) ∧ OfUnit (R.WHL_EVT d) ∧ OfUnit (R.WHL_DIR d) ∧ OfUnit (R.WHL_ENABLE d) := by
  refine ⟨?_, ?_, ?_, ?_⟩ <;> exact ofUnit_of_idx (Nat.le_trans (by decide) (Nat.le_add_right ..))

@[simp] theorem ofUnit_evt (s : Nat) : OfUnit (R.EVT_EVT s) ∧ OfUnit (R.EVT_CNT_MISS s) ∧ OfUnit (R.EVT_CNT_CUT s) := by
  refine ⟨?_, ?_, ?_⟩ <;> exact ofUnit_of_idx (Nat.le_trans (by decide) (Nat.le_add_right ..))

@[simp] theorem ofUnit_lan (n : Nat) : OfUnit (R.LAN_DEC_SKIP n) ∧ OfUnit (R.LAN_PEND n) :=
  ⟨ofUnit_of_idx (Nat.le_trans (by decide) (Nat.le_add_right ..)), ofUnit_of_idx (show 0x2000 ≤ 0x2640 by decide)⟩

@[simp] theorem ofUnit_one : OfUnit R.LAN_EVT ∧ OfUnit R.CAM_EVT := ⟨ofUnit_of_idx (by decide), ofUnit_of_idx (by decide)⟩

@[simp] theorem ofUnit_ax (a : Nat) : OfUnit (R.AX_STATE a) ∧ OfUnit (R.AX_PROF_CUR a) ∧ OfUnit (R.AX_RUN a) := by
  refine ⟨?_, ?_, ?_⟩ <;> exact ofUnit_of_idx (Nat.le_trans (by decide) (Nat.le_add_right ..))

@[simp] theorem ofUnit_ocu (u : Nat) : OfUnit (R.OCU_STATE u) ∧ OfUnit (R.OCU_FILT u) ∧ OfUnit (R.OCU_ACC u) := by
  refine ⟨?_, ?_, ?_⟩ <;> exact ofUnit_of_idx (Nat.le_trans (by decide) (Nat.le_add_right ..))

@[simp] theorem ofUnit_mov (n : Nat) : OfUnit (R.MOV_STATE n) ∧ OfUnit (R.MOV_RUN n) ∧ OfUnit (R.MOV_CUR n) := by
  refine ⟨?_, ?_, ?_⟩ <;> exact ofUnit_of_idx (Nat.le_trans (by decide) (Nat.le_add_right ..))

@[simp] theorem ofUnit_ch (c : Nat) : OfUnit (R.CH_EVT c) ∧ OfUnit (R.CH_CNT_LATE c) ∧ OfUnit (R.CH_CNT_DROP c) := by
  refine ⟨?_, ?_, ?_⟩ <;> exact ofUnit_of_idx (Nat.le_trans (by decide) (Nat.le_add_right ..))

@[simp] theorem ofUnit_out (n : Nat) : OfUnit (R.CTX_STATE n) ∧ OfUnit (R.TUR_RUN n) ∧ OfUnit (R.PWM_RUN n) ∧ OfUnit (R.TRP_LATCH_CAUSE n) := by
  refine ⟨?_, ?_, ?_, ?_⟩ <;> exact ofUnit_of_idx (Nat.le_trans (by decide) (Nat.le_add_right ..))

@[simp] theorem ofUnit_carry (o j : Nat) : OfUnit (R.PWM_CARRY o j) :=
  ofUnit_of_idx (Nat.le_trans (by decide) (Nat.le_trans (Nat.le_add_right ..) (Nat.le_add_right ..)))

/-! ## Decoders -/

@[simp] theorem helm_whlRaise (d b : Nat) (m : Mach) : (whlRaise d b m).helm = m.helm := helm_raise (ofUnit_whl d).2.1 ..

@[simp] theorem helm_plausArm (d : Nat) (m : Mach) : (plausArm d m).helm = m.helm := by
  unfold plausArm
  split
  · rfl
  · dsimp only
    split_ifs <;> rfl

@[simp] theorem helm_whlEnter (d st : Nat) (m : Mach) : (whlEnter d st m).helm = m.helm := by
  unfold whlEnter
  extract_lets old m1 m2
  have h2 : m2.helm = m.helm := by
    unfold m2 m1
    split_ifs <;> simp
  split_ifs
  · rfl
  · rw [helm_note, each_keeps (g := Mach.helm) helm_plausArm, h2]

@[simp] theorem helm_whlSetDir (d v : Nat) (m : Mach) : (whlSetDir d v m).helm = m.helm := by
  unfold whlSetDir
  dsimp only
  split_ifs <;> simp

theorem helm_whlOff (d : Nat) (hold : Bool) (m : Mach) : (whlOff d hold m).helm = m.helm := by
  unfold whlOff
  dsimp only
  split_ifs <;> simp

theorem helm_whlsHalt (m : Mach) : (whlsHalt m).helm = m.helm := each_keeps (fun d m => helm_whlOff d true m) _ m

theorem helm_whlStart (d : Nat) (m : Mach) : (whlStart d m).helm = m.helm := by
  unfold whlStart
  extract_lets x m1
  have h1 : m1.helm = m.helm := by simp [m1]
  exact (helm_whlEnter ..).trans ((each_keeps (g := Mach.helm) (fun i m => helm_updWhl ..) _ m1).trans h1)

theorem helm_whlsRestart (m : Mach) : (whlsRestart m).helm = m.helm :=
  each_keeps (fun d m => by split_ifs <;> simp [helm_whlStart]) _ m

/-! ## The Lantern -/

@[simp] theorem helm_evtRaise (s b : Nat) (m : Mach) : (evtRaise s b m).helm = m.helm := by
  unfold evtRaise
  dsimp only
  split_ifs <;> simp

@[simp] theorem helm_evtBlock (s c : Nat) (m : Mach) : (evtBlock s c m).helm = m.helm := by
  unfold evtBlock
  dsimp only
  split_ifs <;> simp

@[simp] theorem helm_evtMiss (s : Nat) (m : Mach) : (evtMiss s m).helm = m.helm := by simp [evtMiss]

@[simp] theorem helm_evtAim (s : Nat) (above : Int) (m : Mach) : (evtAim s above m).helm = m.helm := by
  unfold evtAim
  split
  · simp
  · dsimp only
    split_ifs <;> simp

@[simp] theorem helm_lanUnblock (m : Mach) : (lanUnblock m).helm = m.helm :=
  each_keeps (fun s m => by dsimp only; split_ifs <;> simp [evtNext]) _ m

theorem helm_lanRestart (m : Mach) : (lanRestart m).helm = m.helm := by
  have harm (m : Mach) : (lanArmAll m).helm = m.helm := each_keeps (fun s m => by split_ifs <;> simp [evtArm]) _ m
  unfold lanRestart
  split_ifs
  · rw [helm_lanUnblock, harm]
  · rfl

theorem helm_outApply (c : Nat) (lvl : Bool) (t : Nat) (m : Mach) : (outApply c lvl t m).2.helm = m.helm := by
  unfold outApply
  extract_lets x again y z put m1
  have h1 : m1.helm = m.helm := by simp [m1, chRaise]
  cases y.last with
  | none => dsimp only; split_ifs <;> rfl
  | some l => dsimp only; split_ifs <;> simp [h1]

theorem helm_lanHalt (m : Mach) : (lanHalt m).helm = m.helm :=
  each_keeps (g := Mach.helm) (fun c m => by unfold angleClear outTransition; split_ifs; exacts [helm_outApply .., rfl]) _ _

@[simp] theorem helm_evtCut (s : Nat) (m : Mach) : (evtCut s m).helm = m.helm := by
  unfold evtCut
  dsimp only
  rw [helm_lanUnblock, helm_evtRaise, helm_inc (ofUnit_evt s).2.2]
  rfl

@[simp] theorem helm_lanCauses (n : Nat) (m : Mach) : (lanCauses n m).helm = m.helm :=
  each_keeps (fun s m => by dsimp only; split_ifs <;> simp) _ m

@[simp] theorem helm_lanSkip (n : Nat) (m : Mach) : (lanSkip n m).helm = m.helm := by simp [lanSkip, lanRaise]

theorem helm_lanTooth (n : Nat) (m : Mach) : (lanTooth n m).helm = m.helm := by
  have hwait (b c : Batch) (m : Mach) : (lanWait n b c m).helm = m.helm := by
    unfold lanWait; dsimp only; split_ifs <;> simp
  unfold lanTooth
  split
  · rfl
  dsimp only
  split_ifs
  · rfl
  · rw [helm_lanSkip]; rfl
  · split
    · rfl
    · rw [hwait]; rfl

theorem helm_lanState (n old new : Nat) (m : Mach) : (lanState n old new m).helm = m.helm := by
  unfold lanState
  dsimp only
  rw [helm_lanUnblock, helm_lanCauses, each_keeps (g := Mach.helm) _ _ _, helm_updLane]
  intro s m
  split_ifs <;> simp

theorem helm_lanDir (n new : Nat) (m : Mach) : (lanDir n new m).helm = m.helm := by
  unfold lanDir
  dsimp only
  rw [helm_lanUnblock, helm_lanCauses]
  split_ifs
  · exact each_keeps (fun s m => by split_ifs <;> simp) _ m
  · rfl

/-- The refresh engine's share of a command's tick. -/
theorem helm_lanNotes (m : Mach) : (lanNotes m).helm = m.helm := by
  have hnote (m : Mach) (n : Note) : (lanNote m n).helm = m.helm := by
    cases n with
    | tooth n _ => exact helm_lanTooth n m
    | state n old new => exact helm_lanState n old new m
    | dir n _ new => exact helm_lanDir n new m
  unfold lanNotes
  rw [show m.helm = Mach.helm { m with notes := [] } from rfl]
  generalize { m with notes := [] } = n
  induction m.notes generalizing n with
  | nil => rfl
  | cons a l ih => rw [List.foldl_cons, ih, hnote]

/-! ## Oculus, axes, virtual masters -/

@[simp] theorem helm_ocuPoll (u : Nat) (m : Mach) : (ocuPoll u m).helm = m.helm := by
  unfold ocuPoll
  dsimp only
  split_ifs <;> simp

theorem helm_ocuPollAll (m : Mach) : (ocuPollAll m).helm = m.helm := each_keeps helm_ocuPoll _ m

theorem helm_ocusHalt (m : Mach) : (ocusHalt m).helm = m.helm := each_keeps (fun u m => by simp [ocuOff]) _ m

theorem helm_ocusRestart (m : Mach) : (ocusRestart m).helm = m.helm :=
  each_keeps (fun u m => by split_ifs <;> simp [ocuWait]) _ m

theorem helm_axStop (a : Nat) (m : Mach) : (axStop a m).helm = m.helm := by
  have hquiet (m : Mach) : (ptQuiet a m).helm = m.helm := each_keeps (fun c m => by split_ifs <;> rfl) _ m
  have hnote (was isNow : Option Nat) (m : Mach) : (vdecNote was isNow m).helm = m.helm := by
    unfold vdecNote
    split_ifs
    · rfl
    · cases was <;> cases isNow <;> rfl
  have henter (m : Mach) : (axEnter a 0 m).helm = m.helm := by
    unfold axEnter
    extract_lets m0 m1 m2
    have h1 : m1.helm = m.helm := (hquiet m0).trans (helm_wr (ofUnit_ax a).1 0 m)
    rw [hnote]
    unfold m2
    split_ifs <;> exact h1
  have hrel (p : Nat) (m : Mach) : (profRelease p m).helm = m.helm := by
    unfold profRelease
    dsimp only
    split_ifs <;> simp [camRaise]
  unfold axStop
  split_ifs
  · rfl
  · exact (hrel _ _).trans ((helm_setAx ..).trans (henter m))

theorem helm_axesHalt (m : Mach) : (axesHalt m).helm = m.helm := each_keeps helm_axStop _ m

theorem helm_axesRestart (m : Mach) : (axesRestart m).helm = m.helm :=
  each_keeps (fun a m => by split_ifs <;> simp [axStart]) _ m

theorem helm_vmsRestart (m : Mach) : (vmsRestart m).helm = m.helm :=
  each_keeps (fun v m => by split_ifs <;> simp [vmStart]) _ m

/-! ## Outputs, Turrets, movers, channels -/

theorem helm_octStop (o : Nat) (m : Mach) : (octStop o m).helm = m.helm := by
  have hdark (m : Mach) : (octDark o 0xFF m).helm = m.helm := by
    unfold octDark openBlank
    dsimp only
    split_ifs <;> rfl
  have hcarry (m : Mach) : (clearCarries o m).helm = m.helm := each_keeps (fun j m => helm_wr (ofUnit_carry o j) 0 m) _ m
  unfold octStop
  extract_lets m1 m2 m3 m4 c
  calc (m4.wr (R.TRP_LATCH_CAUSE o) (c - c % 8)).helm = m4.helm := helm_wr (ofUnit_out o).2.2.2 ..
    _ = m3.helm := hcarry m3
    _ = m1.helm := hdark m1

theorem helm_octsHalt (m : Mach) : (octsHalt m).helm = m.helm :=
  each_keeps (fun o m => by split_ifs <;> simp [helm_octStop]) _ m

theorem helm_octsRestart (m : Mach) : (octsRestart m).helm = m.helm :=
  each_keeps (fun o m => by split_ifs <;> simp) _ m

theorem helm_turStop (e : Nat) (m : Mach) : (turStop e m).helm = m.helm := by
  have hdark (x : Nat) (m : Mach) : (pinsDark x m).helm = m.helm := by
    unfold pinsDark
    refine (each_keeps (g := Mach.helm) (fun i m => ?_) _ _).trans (helm_updCtx ..)
    split
    · rfl
    · split_ifs <;> rfl
  exact (each_keeps (g := Mach.helm) (fun x m => by simp [hdark]) _ _).trans (helm_govWithdraw ..)

theorem helm_tursHalt (m : Mach) : (tursHalt m).helm = m.helm :=
  (each_keeps (g := Mach.helm) (fun x m => helm_updCtx ..) _ _).trans (each_keeps helm_turStop _ m)

theorem helm_tursRestart (m : Mach) : (tursRestart m).helm = m.helm :=
  each_keeps (fun e m => by unfold turRunOnEffect; dsimp only; split_ifs <;> simp) _ m

theorem helm_movsHalt (m : Mach) : (movsHalt m).helm = m.helm :=
  each_keeps (g := Mach.helm) (fun n m => helm_wr (ofUnit_mov n).1 0 m) _ _

theorem helm_movsRestart (m : Mach) : (movsRestart m).helm = m.helm :=
  each_keeps (fun n m => by unfold movStart movFetchAt; dsimp only; split_ifs <;> simp) _ m

theorem helm_chansRestart (m : Mach) : (chansRestart m).helm = m.helm :=
  each_keeps (fun c m => by unfold chanRestart sdDrawn; split_ifs <;> rfl) _ m

/-! ## The field side's units together -/

/-- Units that restart with the return to RUN leave the rest of the field side as it is. -/
theorem helm_fieldRestart (m : Mach) : (fieldRestart m).helm = m.helm := by
  rw [fieldRestart, helm_movsRestart, helm_tursRestart, helm_octsRestart, helm_ocusRestart, helm_axesRestart, helm_vmsRestart,
    helm_lanRestart, helm_whlsRestart]

/-- No sample of a master input and no decoder happening is left. -/
def forgotten (m : Mach) : Mach := { m with nms := [], notes := [] }

/-- The units stopped, before the objects of class V follow. -/
def unitsHalt (m : Mach) : Mach :=
  forgotten (chansRestart (tursHalt (movsHalt (octsHalt (ocusHalt (vmsHalt (axesHalt (lanHalt (whlsHalt m)))))))))

theorem fieldStop_eq (m : Mach) : fieldStop m = belReset .field (volatileReset .field (unitsHalt m)) := rfl

theorem helm_unitsHalt (m : Mach) : (unitsHalt m).helm = m.helm := by
  have hvms (m : Mach) : (vmsHalt m).helm = m.helm := rfl
  have hforgotten (m : Mach) : (forgotten m).helm = m.helm := rfl
  rw [unitsHalt, hforgotten, helm_chansRestart, helm_tursHalt, helm_movsHalt, helm_octsHalt, helm_ocusHalt, hvms, helm_axesHalt, helm_lanHalt, helm_whlsHalt]

end Sys2Proof.Machine

/-! # O27: operating states of both sides (R521 to R524) -/

namespace Sys2Proof.Machine

section
variable {m m1 : Mach} {side : Side}

theorem trunk_statusSync (m : Mach) : (statusSync m).trunk = (kaSync m).trunk := by
  unfold statusSync
  extract_lets m1 c
  split_ifs
  · rfl
  · exact trunk_linkQueue ..

/-- The decoder happenings of a command without a cause leave what is not a unit's. -/
theorem helm_settle (ha : m.alarms = []) : (settle m).helm = m.helm := by
  have h : (if m.notes.isEmpty then m else ocuPollAll (lanNotes m)).helm = m.helm := by
    split_ifs
    · rfl
    · rw [helm_ocuPollAll, helm_lanNotes]
  unfold settle
  extract_lets m1
  have ha1 : m1.alarms = [] := (eq_of_helm h).2.2.2.2.2.1.trans ha
  rw [ha1, if_pos (by rfl)]
  exact h

/-- An object that is not of class V keeps its value with a state of its side. -/
theorem volatileReset_rd {o : Obj} (h : objRet m o.key ≠ .v) : (volatileReset side m).rd o = m.rd o := by
  have hfilter {p : Nat → Bool} (hp : p o.key = true) (l : List (Nat × Nat)) :
      mapGet o.dflt o.key (l.filter (fun e => p e.1)) = mapGet o.dflt o.key l := by
    induction l with
    | nil => rfl
    | cons e l ih =>
      obtain ⟨k, v⟩ := e
      by_cases hk : o.key = k
      · subst hk
        rw [List.filter_cons_of_pos (by exact hp), mapGet, mapGet, if_pos rfl, if_pos rfl]
      · by_cases hpk : p k = true
        · rw [List.filter_cons_of_pos (by exact hpk), mapGet, mapGet, if_neg hk, if_neg hk, ih]
        · rw [List.filter_cons_of_neg (by simpa using hpk), ih, mapGet, if_neg hk]
  exact hfilter (p := fun k => decide (ownerOf (k / 256) ≠ side) || !decide (objRet m k = .v)) (by simp [h]) m.regs

/-- PWR_F_STATE_REQ as the dictionary lists it. -/
def stateReqRow : Found := ⟨row0 0x1180 0x02 .u8 .rw false 0 .s (.rel .fieldReq), 0, 0, 0⟩

theorem objRet_stateReq (m : Mach) : objRet m R.PWR_F_STATE_REQ.key = .s := by
  have hfind : findObj (R.PWR_F_STATE_REQ.key / 256) (R.PWR_F_STATE_REQ.key % 256) = some stateReqRow := by decide
  unfold objRet
  rw [hfind]
  rfl

/-- Entry to HOLD or SLEEP stops the units and leaves what is not theirs, but for class V. -/
theorem fieldStop_does (m : Mach) : (fieldStop m).rd R.PWR_F_STATE_REQ = m.rd R.PWR_F_STATE_REQ ∧
    ((fieldStop m).bar = m.bar ∧ (fieldStop m).cores = m.cores) ∧ (fieldStop m).keepMem = m.keepMem ∧
    (fieldStop m).saf = m.saf ∧ (fieldStop m).signals = ([], m.alarms) ∧
    { (fieldStop m).pwr with gov := [], asked := [] } = { m.pwr with gov := [], asked := [] } := by
  obtain ⟨hlow, hbar, ⟨hkeep, -⟩, -, hsaf, hal, hpwr⟩ := eq_of_helm (helm_unitsHalt m)
  rw [fieldStop_eq]
  have hn : (unitsHalt m).notes = [] := rfl
  generalize unitsHalt m = n at *
  refine ⟨?_, hbar, hkeep, hsaf, ?_, hpwr⟩
  · have hv : (volatileReset .field n).rd R.PWR_F_STATE_REQ = n.rd R.PWR_F_STATE_REQ :=
      volatileReset_rd (by rw [objRet_stateReq]; decide)
    exact hv.trans (hlow _ (by decide))
  · rw [← hal, ← hn]
    rfl

theorem pwr_statusSync (m : Mach) : (statusSync m).pwr = m.pwr := (eq_of_trunk (trunk_statusSync m)).2.2.1

theorem pwr_linkQueue (typ : Nat) (p : List Byte) (m : Mach) : (linkQueue side typ p m).pwr = m.pwr := (eq_of_trunk (trunk_linkQueue typ p m)).2.2.1

theorem pwr_raise (evt en : Obj) (b src : Nat) (m : Mach) : (m.raise evt en b src).pwr = m.pwr := by simp

/-- HOLD entry. -/
theorem holdEntry_does (m : Mach) : (holdEntry m).rd R.PWR_F_STATE = 2 ∧ (holdEntry m).rd R.PWR_F_STATE_REQ = m.rd R.PWR_F_STATE_REQ ∧
    (holdEntry m).pwr.fSleepReq = m.pwr.fSleepReq ∧ bit 0 ((holdEntry m).rd R.PWR_F_EVT) = true ∧
    (holdEntry m).signals = ([], m.alarms) := by
  obtain ⟨hreq, -, -, -, hsig, hpwr⟩ := fieldStop_does m
  unfold holdEntry
  generalize fieldStop m = f at *
  extract_lets m1
  have h1 : m1.rd R.PWR_F_STATE = 2 ∧ m1.rd R.PWR_F_STATE_REQ = m.rd R.PWR_F_STATE_REQ ∧ m1.pwr = f.pwr ∧
      m1.signals = ([], m.alarms) := ⟨rd_wr_same .., (rd_wr_ne (by decide) ..).trans hreq, rfl, hsig⟩
  obtain ⟨h1s, h1r, h1p, h1q⟩ := h1
  clear_value m1
  unfold pwrRaiseF
  refine ⟨?_, ?_, ?_, ?_, ?_⟩
  · rw [rd_raise (by decide), linkQueue_rd, statusSync_rd, h1s]
  · rw [rd_raise (by decide), linkQueue_rd, statusSync_rd, h1r]
  · rw [pwr_raise, pwr_linkQueue, pwr_statusSync, h1p]
    exact (congrArg Power.fSleepReq hpwr :)
  · rw [rd_raise_same, bit_setBit_same]
  · rw [signals_raise, signals_linkQueue, signals_statusSync, h1q]

/-- The return to RUN, up to the restart of the units' own happenings. -/
theorem holdExit_does (m : Mach) : (holdExit m).rd R.PWR_F_STATE = 0 ∧ (holdExit m).rd R.PWR_F_STATE_REQ = m.rd R.PWR_F_STATE_REQ ∧
    (holdExit m).pwr.fSleepReq = m.pwr.fSleepReq ∧ bit 0 ((holdExit m).rd R.PWR_F_EVT) = true ∧ (holdExit m).alarms = m.alarms := by
  unfold holdExit
  extract_lets m1
  obtain ⟨hlow, -, -, -, -, hal, hpwr⟩ := eq_of_helm (helm_fieldRestart m1)
  generalize fieldRestart m1 = f at *
  have h1 : m1.rd R.PWR_F_STATE = 0 ∧ m1.rd R.PWR_F_STATE_REQ = m.rd R.PWR_F_STATE_REQ ∧ bit 0 (m1.rd R.PWR_F_EVT) = true ∧
      m1.pwr = m.pwr ∧ m1.alarms = m.alarms := by
    unfold m1 pwrRaiseF
    refine ⟨?_, ?_, ?_, by simp, by simp⟩
    · rw [rd_raise (by decide), rd_wr_same]
    · rw [rd_raise (by decide), rd_wr_ne (by decide)]
    · rw [rd_raise_same, bit_setBit_same]
  obtain ⟨h1s, h1r, h1e, h1p, h1a⟩ := h1
  have hsig : (linkQueue .field 3 (stateMsg 0 0) (statusSync f)).signals = f.signals := by
    rw [signals_linkQueue, signals_statusSync]
  refine ⟨?_, ?_, ?_, ?_, ?_⟩
  · rw [linkQueue_rd, statusSync_rd, hlow _ (by decide), h1s]
  · rw [linkQueue_rd, statusSync_rd, hlow _ (by decide), h1r]
  · rw [pwr_linkQueue, pwr_statusSync, ← h1p]
    exact (congrArg Power.fSleepReq hpwr :)
  · rw [linkQueue_rd, statusSync_rd, hlow _ (by decide), h1e]
  · exact (congrArg Prod.snd hsig).trans (hal.trans h1a)

/-- SLEEP entry of the field side, where it is due. -/
theorem sleepEntry_does (h1 : m.pwr.fSleepReq = true) (h2 : (m.core 2).gated = true) (h3 : m.inHold = false) (h4 : belWakes m 2 = false) :
    let n := sleepEntryEffect m
    (n.pwr.fSleep = true ∧ n.pwr.fSleepReq = false ∧ n.barState .field = 0 ∧ stoOn n = false ∧ bit 0 (n.rd R.PWR_F_EVT) = true ∧
      n.keepMem = m.keepMem ∧ (n.core 2).x = (m.core 2).x) ∧ n.signals = ([], m.alarms) := by
  obtain ⟨-, ⟨-, hcores⟩, hkeep, -, hsig, -⟩ := fieldStop_does m
  intro n
  have hn : n = sleepEntryEffect m := rfl
  unfold sleepEntryEffect at hn
  rw [h1, h2, h3, h4, if_pos (by rfl)] at hn
  generalize fieldStop m = f at *
  extract_lets m1 m2 at hn
  obtain ⟨hc2, -, -, -, -, ⟨hk2, -⟩, -, hs2⟩ := eq_of_trunk ((trunk_barOff _).trans (trunk_linkFarewell (side := .field) 3 (stateMsg 3 1) m1))
  have hb2 : m2.barState .field = 0 := rfl
  replace hc2 : m2.cores = m.cores := hc2.trans hcores
  replace hk2 : m2.keepMem = m.keepMem := hk2.trans hkeep
  replace hs2 : m2.signals = ([], m.alarms) := hs2.trans hsig
  clear_value m2 m1
  let m3 : Mach := { m2 with pwr := { m2.pwr with fSleep := true, fSleepReq := false } }
  have h3e : n = kaSync (pwrRaiseF 0 m3) := hn
  have hfield (k : Mach) : (kaSync k).pwr = k.pwr ∧ (kaSync k).barState .field = k.barState .field ∧ (kaSync k).keepMem = k.keepMem ∧
      (kaSync k).cores = k.cores ∧ (kaSync k).signals = k.signals ∧ ∀ o, (kaSync k).rd o = k.rd o := ⟨rfl, rfl, rfl, rfl, rfl, fun _ => rfl⟩
  obtain ⟨hp, hb, hk, hc, hs, hr⟩ := hfield (pwrRaiseF 0 m3)
  rw [← h3e] at hp hb hk hc hs hr
  have hpwr : n.pwr = m3.pwr := hp.trans (pwr_raise ..)
  refine ⟨⟨by rw [hpwr], by rw [hpwr], ?_, ?_, ?_, ?_, ?_⟩, ?_⟩
  · rw [hb]
    exact (show (pwrRaiseF 0 m3).barState .field = m2.barState .field from by simp [pwrRaiseF, Mach.barState, Mach.barEnd, m3]).trans hb2
  · unfold stoOn
    rw [hpwr]
    simp [m3]
  · rw [hr, pwrRaiseF, rd_raise_same, bit_setBit_same]
  · rw [hk]
    exact (show (pwrRaiseF 0 m3).keepMem = m2.keepMem from by simp [pwrRaiseF, m3]).trans hk2
  · rw [Mach.core, hc, show (pwrRaiseF 0 m3).cores = m.cores from (by simp [pwrRaiseF, m3] : _ = m2.cores).trans hc2, Mach.core]
  · rw [hs, pwrRaiseF, signals_raise]
    exact hs2

/-- Stage C wakes Keep. -/
theorem wakeKeep_does (m : Mach) : (wakeKeep m).pwr.stage = 4 ∧ (wakeKeep m).pwr.fSleep = false ∧ ((wakeKeep m).core 2).gated = false ∧
    bit 5 ((wakeKeep m).rd R.PWR_F_EVT) = true ∧ bit 0 ((wakeKeep m).rd R.PWR_F_EVT) = true ∧ (wakeKeep m).saf.wd.start = m.now ∧
    (wakeKeep m).saf.diagStart = m.now ∧ (wakeKeep m).signals = m.signals := by
  unfold wakeKeep
  extract_lets pwr m1
  let m2 := wdRestart (m1.updCore 2 (fun c => { c with gated := false }))
  change (pwrRaiseF 5 (pwrRaiseF 0 m2)).pwr.stage = 4 ∧ _
  have h2 : m2.pwr.stage = 4 ∧ m2.pwr.fSleep = false ∧ m2.saf.wd.start = m.now ∧ m2.saf.diagStart = m.now ∧ m2.signals = m.signals :=
    ⟨rfl, rfl, rfl, rfl, rfl⟩
  have h2c : (m2.core 2).gated = false :=
    congrArg Core.gated (Mach.updCore_same m1 2 (fun c => { c with gated := false }))
  have hs : (pwrRaiseF 5 (pwrRaiseF 0 m2)).saf = m2.saf := by simp [pwrRaiseF]
  have hp : (pwrRaiseF 5 (pwrRaiseF 0 m2)).pwr = m2.pwr := by simp [pwrRaiseF]
  have hc : (pwrRaiseF 5 (pwrRaiseF 0 m2)).core 2 = m2.core 2 := by simp [pwrRaiseF, Mach.core]
  obtain ⟨h1, h3, h4, h5, h6⟩ := h2
  refine ⟨hp ▸ h1, hp ▸ h3, hc ▸ h2c, ?_, ?_, hs ▸ h4, hs ▸ h5, ?_⟩
  · rw [pwrRaiseF, rd_raise_same, bit_setBit_same]
  · rw [pwrRaiseF, rd_raise_same, pwrRaiseF, rd_raise_same]
    exact (bit_putBit_ne (by decide) true _).trans (bit_setBit_same ..)
  · exact (signals_raise ..).trans ((signals_raise ..).trans h6)

theorem barTrain_rd {o : Obj} (h : o.key ≠ (stateObj side).key) (m : Mach) : (barTrain side m).rd o = m.rd o := by
  have hwr (m : Mach) : (m.wr (stateObj side) 1).rd o = m.rd o := rd_wr_ne h m 1
  cases side <;> exact hwr _

/-- Stage D, up to the restart of the units' own happenings. -/
theorem wakeStage_last (h : m.pwr.stage = 4) : let n := wakeStageEffect m
    n.pwr.stage = 0 ∧ n.rd R.PWR_F_STATE_REQ = 0 ∧
      n.barState .field = (if m.barState .field = 0 then 1 else m.barState .field) ∧ n.alarms = m.alarms := by
  intro n
  have hn : n = statusSync (fieldRestart (wakeTrain ((stageNext m).wr R.PWR_F_STATE_REQ 0))) := by
    change wakeStageEffect m = _
    unfold wakeStageEffect
    rw [h]
    rfl
  have hbase : (wakeTrain ((stageNext m).wr R.PWR_F_STATE_REQ 0)).pwr.stage = 0 ∧
      (wakeTrain ((stageNext m).wr R.PWR_F_STATE_REQ 0)).rd R.PWR_F_STATE_REQ = 0 ∧
      (wakeTrain ((stageNext m).wr R.PWR_F_STATE_REQ 0)).barState .field = (if m.barState .field = 0 then 1 else m.barState .field) ∧
      (wakeTrain ((stageNext m).wr R.PWR_F_STATE_REQ 0)).alarms = m.alarms := by
    have hstage : (stageNext m).pwr.stage = 0 := by
      change (m.pwr.stage + 1) % 5 = 0
      rw [h]
    have hb : ((stageNext m).wr R.PWR_F_STATE_REQ 0).barState .field = m.barState .field := rfl
    unfold wakeTrain
    rw [hb]
    split_ifs with hoff
    · exact ⟨hstage, (barTrain_rd (by decide) _).trans (rd_wr_same ..), rfl, rfl⟩
    · exact ⟨hstage, rd_wr_same .., hb, rfl⟩
  obtain ⟨b1, b2, b3, b4⟩ := hbase
  generalize wakeTrain ((stageNext m).wr R.PWR_F_STATE_REQ 0) = k at *
  obtain ⟨hlow, ⟨hbar, -⟩, -, -, -, hal, hpwr⟩ := eq_of_helm (helm_fieldRestart k)
  generalize fieldRestart k = f at *
  have hsig := signals_statusSync f
  obtain ⟨-, -, -, -, -, -, -, hbst, -⟩ := eq_of_aside (aside_statusSync f)
  rw [hn]
  refine ⟨?_, ?_, ?_, ?_⟩
  · rw [pwr_statusSync, ← b1]
    exact (congrArg Power.stage hpwr :)
  · rw [statusSync_rd, hlow _ (by decide), b2]
  · rw [hbst, ← b3, Mach.barState, Mach.barEnd, hbar]
    rfl
  · exact (congrArg Prod.snd hsig).trans (hal.trans b4)

/-! ## The host side's SLEEP (R524) -/

/-- Host SLEEP entry, where it is due. -/
theorem hostSleepEntry_does (h1 : m.pwr.hSleepReq = true) (h2 : m.pwr.hSleep = false) (h3 : (m.core 0).gated = true)
    (h4 : (m.core 1).gated = true ∨ (m.core 1).held = true) : let n := hostSleepEntryEffect m
    (n.pwr.hSleep = true ∧ n.pwr.hSleepReq = false ∧ n.barState .host = 0 ∧ n.cans = [] ∧ n.hostMem = m.hostMem ∧
      n.core 0 = m.core 0 ∧ n.core 1 = m.core 1) ∧ n.signals = m.signals := by
  intro n
  have hn : n = hostSleepEntryEffect m := rfl
  have h5 : ((m.core 1).gated || (m.core 1).held) = true := by simpa using h4
  unfold hostSleepEntryEffect at hn
  rw [h1, h2, h3, h5, if_pos (by rfl)] at hn
  obtain ⟨hc, -, -, -, -, ⟨-, hh⟩, -, hs⟩ := eq_of_trunk ((trunk_barOff _).trans (trunk_linkFarewell (side := .host) 3 (stateMsg 3 1) m))
  have hb : (barOff .host (linkFarewell .host 3 (stateMsg 3 1) m)).barState .host = 0 := rfl
  generalize barOff .host (linkFarewell .host 3 (stateMsg 3 1) m) = k at *
  extract_lets dic xfers m2 at hn
  have h2f : m2.barState .host = 0 ∧ m2.cans = [] ∧ m2.hostMem = m.hostMem ∧ m2.cores = m.cores ∧ m2.signals = m.signals :=
    ⟨hb, rfl, hh, hc, hs⟩
  clear_value m2
  obtain ⟨f1, f2, f3, f4, f5⟩ := h2f
  let m3 : Mach := { m2 with pwr := { m2.pwr with hSleep := true, hSleepReq := false } }
  have hm3 : m3.barState .host = 0 ∧ m3.cans = [] ∧ m3.hostMem = m.hostMem ∧ m3.cores = m.cores ∧ m3.signals = m.signals :=
    ⟨f1, f2, f3, f4, f5⟩
  have hp3 : m3.pwr.hSleep = true ∧ m3.pwr.hSleepReq = false := ⟨rfl, rfl⟩
  have h3e : n = pwrRaiseH 0 m3 := hn
  clear_value m3
  obtain ⟨g1, g2, g3, g4, g5⟩ := hm3
  have hcore (i : Nat) : n.core i = m.core i := by
    rw [h3e, Mach.core, show (pwrRaiseH 0 m3).cores = m.cores from (by simp [pwrRaiseH] : _ = m3.cores).trans g4, Mach.core]
  refine ⟨⟨?_, ?_, ?_, ?_, ?_, hcore 0, hcore 1⟩, ?_⟩ <;> rw [h3e, pwrRaiseH]
  · rw [pwr_raise, hp3.1]
  · rw [pwr_raise, hp3.2]
  · exact (by simp [Mach.barState, Mach.barEnd] : _ = m3.barState .host).trans g1
  · exact (by simp : _ = m3.cans).trans g2
  · exact (by simp : _ = m3.hostMem).trans g3
  · exact (signals_raise ..).trans g5

/-- What a CAN controller's boot-up leaves alone. -/
def Mach.ashore (m : Mach) := ((m.rd R.PWR_H_STATE_REQ, m.rd R.PWR_H_EVT), m.pwr, m.bar, m.cores, m.signals)

theorem ashore_wr {o : Obj} (h : 0x150000 ≤ o.key) (v : Nat) (m : Mach) : (m.wr o v).ashore = m.ashore := by
  have hne {p : Obj} (hp : p.key < 0x150000) : p.key ≠ o.key := by omega
  simp only [Mach.ashore, rd_wr_ne (hne (show R.PWR_H_STATE_REQ.key < 0x150000 by decide)),
    rd_wr_ne (hne (show R.PWR_H_EVT.key < 0x150000 by decide)), Mach.wr_fields, signals_wr]

theorem canObj_far (k : Nat) : 0x150000 ≤ (R.CAN_BUS_STATE k).key ∧ 0x150000 ≤ (R.CAN_NMT_STATE k).key := by
  simp only [Obj.key, R.CAN_BUS_STATE, R.CAN_NMT_STATE]
  omega

theorem ashore_canRestart (m : Mach) : (canRestart m).ashore = m.ashore := by
  have htx (k id : Nat) (d : List Byte) (m : Mach) : (canTx k id d m).ashore = m.ashore := by
    unfold canTx
    split_ifs
    · exact ashore_wr (canObj_far k).1 ..
    · rfl
  refine each_keeps (fun k m => ?_) _ m
  split_ifs
  · unfold canBootUp
    rw [ashore_wr (canObj_far k).2, htx, ashore_wr (canObj_far k).2, ashore_wr (canObj_far k).1]
  · rfl

/-- The host side's wake, where it is due. -/
theorem hostWake_does {bar : Bool} (h1 : m.pwr.hSleep = true)
    (h2 : (if bar then m.on R.PWR_H_WAKE_BAR else belCalls m 0 || belCalls m 1) = true) : let n := hostWakeEffect bar m
    (n.pwr.hSleep = false ∧ n.rd R.PWR_H_STATE_REQ = 0 ∧ n.barState .host = 1 ∧ (n.core 0).gated = false ∧ (n.core 1).gated = false ∧
      bit 3 (n.rd R.PWR_H_EVT) = true) ∧ n.signals = m.signals := by
  intro n
  have hn : n = hostWakeEffect bar m := rfl
  unfold hostWakeEffect at hn
  rw [h1, h2, if_pos (by rfl)] at hn
  extract_lets wd wd1 pwr m1 m2 m3 at hn
  have hm2 : m2.pwr.hSleep = false ∧ m2.rd R.PWR_H_STATE_REQ = 0 ∧ m2.signals = m.signals := ⟨rfl, (show m1.rd R.PWR_H_STATE_REQ = 0 from rd_wr_same ..), rfl⟩
  have hc1 : (m2.core 1).gated = false :=
    congrArg Core.gated (Mach.updCore_same (m1.updCore 0 (fun c => { c with gated := false })) 1 (fun c => { c with gated := false }))
  have hc0 : (m2.core 0).gated = false := (congrArg Core.gated (updCore_ne (show 0 ≠ 1 by decide) ..)).trans
    (congrArg Core.gated (Mach.updCore_same m1 0 (fun c => { c with gated := false })))
  clear_value m2
  have hm3 : m3.pwr = m2.pwr ∧ m3.rd R.PWR_H_STATE_REQ = m2.rd R.PWR_H_STATE_REQ ∧ m3.cores = m2.cores ∧ m3.signals = m2.signals := by
    unfold m3
    split_ifs
    · exact ⟨rfl, rd_wr_ne (by decide) .., rfl, signals_wr ..⟩
    · exact ⟨rfl, rfl, rfl, rfl⟩
  clear_value m3
  obtain ⟨g1, g2, g3⟩ := hm2
  obtain ⟨e1, e2, e3, e4⟩ := hm3
  have ht : (barTrain .host m3).pwr = m3.pwr ∧ (barTrain .host m3).rd R.PWR_H_STATE_REQ = m3.rd R.PWR_H_STATE_REQ ∧
      (barTrain .host m3).cores = m3.cores ∧ (barTrain .host m3).signals = m3.signals ∧ (barTrain .host m3).barState .host = 1 :=
    ⟨rfl, barTrain_rd (by decide) m3, rfl, rfl, rfl⟩
  obtain ⟨t1, t2, t3, t4, t5⟩ := ht
  generalize barTrain .host m3 = k at *
  have hcore (i : Nat) : n.core i = m2.core i := by
    rw [hn, Mach.core, show (pwrRaiseH 3 (pwrRaiseH 0 k)).cores = k.cores by simp [pwrRaiseH], t3, e3, Mach.core]
  have hpwr : n.pwr = m2.pwr := by rw [hn, pwrRaiseH, pwr_raise, pwrRaiseH, pwr_raise, t1, e1]
  refine ⟨⟨by rw [hpwr, g1], ?_, ?_, by rw [hcore, hc0], by rw [hcore, hc1], ?_⟩, ?_⟩
  · rw [hn, pwrRaiseH, rd_raise (by decide), pwrRaiseH, rd_raise (by decide), t2, e2, g2]
  · rw [hn]
    exact (by simp [pwrRaiseH, Mach.barState, Mach.barEnd] : _ = k.barState .host).trans t5
  · rw [hn, pwrRaiseH, rd_raise_same, bit_setBit_same]
  · rw [hn, pwrRaiseH, signals_raise, pwrRaiseH, signals_raise, t4, e4, g3]

end

/-! ## The obligation -/

section
variable {s : State} {w : Writer} (hs : Settled s)
include hs

theorem holdRequest_leads (h : s.m.inHold = false) : Leads (.holdRequest w) s w R.PWR_F_STATE_REQ false (fun m =>
    m.rd R.PWR_F_STATE = 2 ∧ m.rd R.PWR_F_STATE_REQ = 2 ∧ m.pwr.fSleepReq = false ∧ stoOn m = false ∧
      bit 0 (m.rd R.PWR_F_EVT) = true) := by
  let m1 := { s.m with pwr := { s.m.pwr with fSleepReq := false } }.wr R.PWR_F_STATE_REQ 2
  obtain ⟨h1, h2, h3, h4, hq⟩ := holdEntry_does m1
  have hsig : (holdEntry m1).signals = s.m.signals := hq.trans (by rw [Mach.signals, hs.2]; rfl)
  have he : fieldReqEffect 2 s.m = .ok (holdEntry m1) := congrArg Except.ok (if_neg (by rw [h]; decide))
  have hm1 : m1.rd R.PWR_F_STATE_REQ = 2 ∧ m1.pwr.fSleepReq = false := ⟨rd_wr_same .., rfl⟩
  generalize holdEntry m1 = k at *
  clear_value m1
  refine leads_of_quiet (eff := fieldReqEffect 2) rfl hs he ⟨congrArg Prod.snd hsig, congrArg Prod.fst hsig⟩ fun n _ hpwr hrd => ?_
  have hstate : n.rd R.PWR_F_STATE = 2 := (hrd _).trans h1
  refine ⟨hstate, (hrd _).trans (h2.trans hm1.1), (congrArg Power.fSleepReq hpwr).trans (h3.trans hm1.2), ?_, ?_⟩
  · have hh : n.inHold = true := by rw [Mach.inHold, hstate]; rfl
    unfold stoOn
    rw [hh]
    simp
  · rw [hrd]
    exact h4

theorem runRequest_leads (h : s.m.inHold = true) : Leads (.runRequest w) s w R.PWR_F_STATE_REQ false (fun m =>
    m.rd R.PWR_F_STATE = 0 ∧ m.rd R.PWR_F_STATE_REQ = 0 ∧ m.pwr.fSleepReq = false ∧ bit 0 (m.rd R.PWR_F_EVT) = true) := fun hm => by
  let m1 := { s.m with pwr := { s.m.pwr with fSleepReq := false } }.wr R.PWR_F_STATE_REQ 0
  obtain ⟨h1, h2, h3, h4, hal⟩ := holdExit_does m1
  have he : fieldReqEffect 0 s.m = .ok (holdExit m1) := congrArg Except.ok (if_pos h)
  have hm1 : m1.rd R.PWR_F_STATE_REQ = 0 ∧ m1.pwr.fSleepReq = false ∧ m1.alarms = [] := ⟨rd_wr_same .., rfl, hs.1⟩
  generalize holdExit m1 = k at *
  clear_value m1
  have hx := done_acts hm he
  have ht : (answered w (rankNote w R.PWR_F_STATE_REQ k)).helm = k.helm := by
    unfold answered rankNote
    split <;> split_ifs <;> rfl
  have hal' : (answered w (rankNote w R.PWR_F_STATE_REQ k)).alarms = [] := by
    rw [answered_alarms, rankNote_alarms, hal, hm1.2.2]
  obtain ⟨hlow, -, -, -, -, -, hpwr⟩ := eq_of_helm ((helm_settle hal').trans ht)
  refine ⟨_, hx, rfl, (hlow _ (by decide)).trans h1, (hlow _ (by decide)).trans (h2.trans hm1.1), ?_, ?_⟩
  · exact (congrArg Power.fSleepReq hpwr :).trans (h3.trans hm1.2.1)
  · rw [hlow _ (by decide)]
    exact h4

theorem wakeStage_goes_last (h : s.m.pwr.stage = 4) : Goes .wakeStage s (fun m =>
    m.pwr.stage = 0 ∧ m.rd R.PWR_F_STATE_REQ = 0 ∧
      m.barState .field = if s.m.barState .field = 0 then 1 else s.m.barState .field) := by
  obtain ⟨h1, h2, h3, hal⟩ := wakeStage_last h
  have hx : exec .wakeStage s = .next { s with m := settle (wakeStageEffect s.m) } := rfl
  obtain ⟨hlow, ⟨hbar, -⟩, -, -, -, -, hpwr⟩ := eq_of_helm (helm_settle (hal.trans hs.1))
  refine ⟨_, hx, rfl, ?_, (hlow _ (by decide)).trans h2, ?_⟩
  · exact (congrArg Power.stage hpwr :).trans h1
  · exact (show (settle (wakeStageEffect s.m)).barState .field = (wakeStageEffect s.m).barState .field by
      rw [Mach.barState, Mach.barEnd, hbar]; rfl).trans h3

theorem wakeStage_goes : (s.m.pwr.stage = 1 → s.m.pwr.granted = true →
      Goes .wakeStage s (fun m => m.pwr.stage = 2 ∧ m.pwr.stageAt = s.m.now ∧ m.pwr.fSleep = s.m.pwr.fSleep)) ∧
    (s.m.pwr.stage = 2 → s.m.pwr.granted = true → To .wakeStage s { s.m with pwr := { s.m.pwr with
      stage := 3, granted := false, stageAt := s.m.now } }) ∧
    (s.m.pwr.stage = 3 → s.m.tb.slowFrom = none → Goes .wakeStage s (fun m =>
      m.pwr.stage = 4 ∧ m.pwr.fSleep = false ∧ (m.core 2).gated = false ∧ bit 5 (m.rd R.PWR_F_EVT) = true ∧
      bit 0 (m.rd R.PWR_F_EVT) = true ∧ m.saf.wd.start = s.m.now ∧ m.saf.diagStart = s.m.now)) ∧
    (s.m.pwr.stage = 3 → s.m.tb.slowFrom ≠ none → To .wakeStage s { s.m with pwr := { s.m.pwr with
      granted := true, stageAt := s.m.now } }) := by
  refine ⟨fun h1 hg => ?_, fun h2 hg => ?_, fun h3 hslow => ?_, fun h3 hslow => ?_⟩
  · have he : wakeStageEffect s.m = govRequest .wake (stageNext s.m) := by
      unfold wakeStageEffect
      rw [h1, hg]
      rfl
    have hto : To .wakeStage s (govRequest .wake (stageNext s.m)) := to_of_quiet (f := wakeStageEffect) rfl hs he ⟨rfl, rfl⟩
    refine .of_to hto ⟨?_, rfl, rfl⟩
    change (s.m.pwr.stage + 1) % 5 = 2
    rw [h1]
  · refine to_of_quiet (f := wakeStageEffect) rfl hs ?_ ⟨rfl, rfl⟩
    unfold wakeStageEffect stageNext
    rw [h2, hg]
    rfl
  · let m1 : Mach := { s.m with pwr := { s.m.pwr with granted := true, stageAt := s.m.now } }
    have he : wakeStageEffect s.m = wakeKeep m1 := by
      unfold wakeStageEffect
      rw [h3]
      dsimp only
      rw [hslow]
      rfl
    obtain ⟨k1, k2, k3, k4, k5, k6, k7, hq⟩ := wakeKeep_does m1
    have hto : To .wakeStage s (wakeKeep m1) := to_of_quiet (f := wakeStageEffect) rfl hs he
      ⟨congrArg Prod.snd hq, congrArg Prod.fst hq⟩
    exact .of_to hto ⟨k1, k2, k3, k4, k5, k6, k7⟩
  · refine to_of_quiet (f := wakeStageEffect) rfl hs ?_ ⟨rfl, rfl⟩
    unfold wakeStageEffect
    rw [h3]
    dsimp only
    rw [Option.isSome_iff_ne_none.mpr hslow]
    rfl

theorem wake_goes {bar : Bool} (h1 : s.m.pwr.fSleep = true) (h2 : s.m.pwr.stage = 0)
    (h3 : (if bar then s.m.on R.PWR_F_WAKE_BAR else belCalls s.m 2) = true) : Goes (.wake bar) s (fun m =>
      m.pwr.stage = 1 ∧ m.pwr.fSleep = true ∧ m.rd R.PWR_F_WAKE_CAUSE = if bar then 2 else 1) := by
  have he : wakeEffect bar s.m = govRequest .wake
      (({ s.m with pwr := { s.m.pwr with stage := 1, granted := false } }).wr R.PWR_F_WAKE_CAUSE (if bar then 2 else 1)) :=
    if_pos (by rw [h1, h2, h3]; rfl)
  have hto := to_of_quiet (c := .wake bar) (f := wakeEffect bar) rfl hs he ⟨rfl, rfl⟩
  exact .of_to hto ⟨rfl, h1, rd_wr_same ..⟩

theorem sleepEntry_goes (h1 : s.m.pwr.fSleepReq = true) (h2 : (s.m.core 2).gated = true) (h3 : s.m.inHold = false)
    (h4 : belWakes s.m 2 = false) : Goes .sleepEntry s (fun m => m.pwr.fSleep = true ∧ m.pwr.fSleepReq = false ∧
      m.barState .field = 0 ∧ stoOn m = false ∧ bit 0 (m.rd R.PWR_F_EVT) = true ∧ m.keepMem = s.m.keepMem ∧
      (m.core 2).x = (s.m.core 2).x) := by
  obtain ⟨hP, hq⟩ := sleepEntry_does h1 h2 h3 h4
  have hto : To .sleepEntry s (sleepEntryEffect s.m) := to_of_quiet (f := sleepEntryEffect) rfl hs rfl
    ⟨congrArg Prod.snd hq, (congrArg Prod.fst hq).trans hs.2.symm⟩
  exact .of_to hto hP

theorem hostSleepEntry_goes (h1 : s.m.pwr.hSleepReq = true) (h2 : s.m.pwr.hSleep = false) (h3 : (s.m.core 0).gated = true)
    (h4 : (s.m.core 1).gated = true ∨ (s.m.core 1).held = true) : Goes .hostSleepEntry s (fun m =>
      m.pwr.hSleep = true ∧ m.pwr.hSleepReq = false ∧ m.barState .host = 0 ∧ m.cans = [] ∧ m.hostMem = s.m.hostMem ∧
      m.core 0 = s.m.core 0 ∧ m.core 1 = s.m.core 1) := by
  obtain ⟨hP, hq⟩ := hostSleepEntry_does h1 h2 h3 h4
  have hto : To .hostSleepEntry s (hostSleepEntryEffect s.m) := to_of_quiet (f := hostSleepEntryEffect) rfl hs rfl
    ⟨congrArg Prod.snd hq, congrArg Prod.fst hq⟩
  exact .of_to hto hP

theorem hostWake_goes {bar : Bool} (h1 : s.m.pwr.hSleep = true)
    (h2 : (if bar then s.m.on R.PWR_H_WAKE_BAR else belCalls s.m 0 || belCalls s.m 1) = true) :
    Goes (.hostWake bar) s (fun m => m.pwr.hSleep = false ∧ m.rd R.PWR_H_STATE_REQ = 0 ∧ m.barState .host = 1 ∧
        (m.core 0).gated = false ∧ (m.core 1).gated = false ∧ bit 3 (m.rd R.PWR_H_EVT) = true) := by
  obtain ⟨⟨p1, p2, p3, p4, p5, p6⟩, hq⟩ := hostWake_does h1 h2
  have hcan := ashore_canRestart (hostWakeEffect bar s.m)
  simp only [Mach.ashore, Prod.mk.injEq] at hcan
  obtain ⟨⟨hreq, hevt⟩, hpwr, hbar, hcores, hsig⟩ := hcan
  replace hsig := hsig.trans hq
  have he : Mach.when (s.m.pwr.hSleep && !(hostWakeEffect bar s.m).pwr.hSleep) canRestart (hostWakeEffect bar s.m) =
      canRestart (hostWakeEffect bar s.m) := by
    rw [h1, p1]
    rfl
  have hto : To (.hostWake bar) s (canRestart (hostWakeEffect bar s.m)) := to_of_quiet
    (f := fun m => Mach.when (m.pwr.hSleep && !(hostWakeEffect bar m).pwr.hSleep) canRestart (hostWakeEffect bar m)) rfl hs he
    ⟨congrArg Prod.snd hsig, congrArg Prod.fst hsig⟩
  refine .of_to hto ⟨by rw [hpwr, p1], by rw [hreq, p2], ?_, ?_, ?_, by rw [hevt, p6]⟩
  · rw [← p3, Mach.barState, Mach.barEnd, hbar]
    rfl
  · rw [Mach.core, hcores, ← Mach.core, p4]
  · rw [Mach.core, hcores, ← Mach.core, p5]

end

/-- Settles O27. -/
theorem operatingStates : Obligations.OperatingStates := by
  unfold Obligations.OperatingStates
  intro s w bar hs
  obtain ⟨hstage1, hstage2, hstage3, hstage3w⟩ := wakeStage_goes hs
  refine ⟨holdRequest_leads hs, fun h => ?_, runRequest_leads hs, fun h => ?_, fun h => ?_, fun h hm => ?_, sleepEntry_goes hs,
    wake_goes hs, hstage1, hstage2, hstage3, hstage3w, wakeStage_goes_last hs, ?_, hostSleepEntry_goes hs, hostWake_goes hs⟩
  · exact writes_of_ok (eff := fieldReqEffect 2) rfl hs (congrArg Except.ok (if_pos h)) ⟨rfl, rfl⟩
  · exact writes_of_ok (eff := fieldReqEffect 0) rfl hs (congrArg Except.ok (if_neg (by rw [h]; decide))) ⟨rfl, rfl⟩
  · have he : fieldReqEffect 3 s.m = _ := (if_neg (by decide)).trans ((if_neg (by decide)).trans (if_pos ⟨rfl, by rw [h]; rfl⟩))
    exact writes_of_ok (eff := fieldReqEffect 3) rfl hs he ⟨rfl, rfl⟩
  · have he : fieldReqEffect 3 s.m = .error .range :=
      (if_neg (by decide)).trans ((if_neg (by decide)).trans (if_neg (by rw [h]; decide)))
    exact done_turned (eff := fieldReqEffect 3) hm he
  · exact writes_of_ok (eff := hostReqEffect 3) rfl hs rfl ⟨rfl, rfl⟩

end Sys2Proof.Machine

/-! # O28: supply, governor, unit stops, boot and PCIe (R508 to R510, R515, R518, R526 to R529) -/

namespace Sys2Proof.Machine

/-! ## A brown-out latches the selected octets (R510) -/

section
variable {o : Nat} {m m1 : Mach}

theorem helm_of_offOctet (h : m1.offOctet o = m.offOctet o) : m1.helm = m.helm := by
  obtain ⟨-, -, hrd⟩ := eq_of_offOctet h
  have hlow : m1.low = m.low := by
    funext p
    unfold Mach.low
    split_ifs with hp
    · refine hrd p fun hk => ?_
      unfold laneKey at hk
      omega
    · rfl
  have hrest : { m1 with regs := [], octets := [] } = { m with regs := [], octets := [] } := congrArg Prod.fst h
  have hm {α : Type} (f : Mach → α) : f { m1 with regs := [], octets := [] } = f { m with regs := [], octets := [] } := congrArg f hrest
  have hpwr : m1.pwr = m.pwr := hm (·.pwr)
  simp only [Mach.helm, hlow, hpwr, show m1.bar = m.bar from hm (·.bar), show m1.cores = m.cores from hm (·.cores),
    show m1.keepMem = m.keepMem from hm (·.keepMem), show m1.hostMem = m.hostMem from hm (·.hostMem), show m1.tb = m.tb from hm (·.tb),
    show m1.saf = m.saf from hm (·.saf), show m1.alarms = m.alarms from hm (·.alarms)]

@[simp] theorem ofUnit_trp (o : Nat) : OfUnit (R.TRP_EVT o) ∧ OfUnit (R.TRP_CNT_ESC o) ∧ OfUnit (R.TRP_CNT_BW o) := by
  refine ⟨?_, ?_, ?_⟩ <;> exact ofUnit_of_idx (Nat.le_trans (by decide) (Nat.le_add_right ..))

theorem helm_octLatch (o c : Nat) (m : Mach) : (octLatch o c m).helm = m.helm := by
  have hdark (m : Mach) : (octDark o 0xFF m).helm = m.helm := helm_of_offOctet (offLanes_iff.mp (offLanes_octDark 0xFF m)).1
  unfold octLatch
  extract_lets x esc m1 m2
  have h1 : m1.helm = m.helm := by
    unfold m1 Mach.when
    split_ifs <;> simp
  have h2 : m2.helm = m.helm := h1
  by_cases hst : x.st = 3
  · rw [if_pos hst, trpRaise, helm_raise (ofUnit_trp o).1, helm_updOctet, hdark, h2]
  · rw [if_neg hst, h2]

/-- A latch changes of the objects its causes, its count and its event. -/
theorem octLatch_rd {p : Obj} (h : p.key ∉ [(R.TRP_LATCH_CAUSE o).key, (R.TRP_CNT_ESC o).key, (R.TRP_EVT o).key]) (c : Nat) (m : Mach) :
    (octLatch o c m).rd p = m.rd p := by
  simp only [List.mem_cons, List.not_mem_nil, or_false, not_or] at h
  obtain ⟨hc, he, hv⟩ := h
  unfold octLatch
  extract_lets x esc m1 m2
  have h1 : m1.rd p = m.rd p := by
    unfold m1 Mach.when
    split_ifs
    · rw [rd_inc_ne he, rd_wr_ne hc]
    · rw [rd_wr_ne hc]
  have h2 : m2.rd p = m.rd p := h1
  by_cases hst : x.st = 3
  · rw [if_pos hst, rd_trpRaise hv]
    exact (octDark_rd (o := o) 0xFF m2 p).trans h2
  · rw [if_neg hst, h2]

/-- One octet's share of a brown-out. -/
def bwStep (o : Nat) (m : Mach) : Mach :=
  if bit o (m.rd R.PWR_BW_SAFE) then octLatch o 4 (trpRaise o 5 ((octCaught o m).inc (R.TRP_CNT_BW o))) else m

theorem bwLatch_eq (m : Mach) : bwLatch m = m.each (List.range 16) bwStep := rfl

theorem helm_bwStep (o : Nat) (m : Mach) : (bwStep o m).helm = m.helm := by
  unfold bwStep
  split_ifs
  · rw [helm_octLatch, trpRaise, helm_raise (ofUnit_trp o).1, helm_inc (ofUnit_trp o).2.2, helm_of_offOctet (offOctet_octCaught m)]
  · rfl

theorem helm_bwLatch (m : Mach) : (bwLatch m).helm = m.helm := each_keeps helm_bwStep _ m

theorem bwSafe_bwStep (o : Nat) (m : Mach) : (bwStep o m).rd R.PWR_BW_SAFE = m.rd R.PWR_BW_SAFE :=
  (eq_of_helm (helm_bwStep o m)).1 _ (by decide)

theorem bwStep_own (m : Mach) : bit o ((bwStep o m).rd R.PWR_BW_SAFE) = true → bit 4 ((bwStep o m).rd (R.TRP_LATCH_CAUSE o)) = true := by
  rw [bwSafe_bwStep]
  intro h
  unfold bwStep
  rw [if_pos h, (octLatch_does o 4 _).2.1, bit_setBit_same]

/-- An octet's causes are left by the others' shares. -/
theorem bwStep_other {p : Nat} (ho : o < 16) (hp : p < 16) (hne : p ≠ o) (m : Mach) :
    (bwStep o m).rd (R.TRP_LATCH_CAUSE p) = m.rd (R.TRP_LATCH_CAUSE p) := by
  have hkey : (R.TRP_LATCH_CAUSE p).key ∉ [(R.TRP_LATCH_CAUSE o).key, (R.TRP_CNT_ESC o).key, (R.TRP_EVT o).key] := by
    simp only [List.mem_cons, List.not_mem_nil, or_false, not_or, Obj.key, R.TRP_LATCH_CAUSE, R.TRP_CNT_ESC, R.TRP_EVT]
    omega
  have hcnt : (R.TRP_LATCH_CAUSE p).key ≠ (R.TRP_CNT_BW o).key := by
    simp only [Obj.key, R.TRP_LATCH_CAUSE, R.TRP_CNT_BW]
    omega
  have hlane : ¬laneKey o (R.TRP_LATCH_CAUSE p).key := by
    simp only [laneKey, Obj.key, R.TRP_LATCH_CAUSE]
    omega
  unfold bwStep
  split_ifs
  · rw [octLatch_rd hkey, rd_trpRaise (fun h => hkey (by simp [h])), rd_inc_ne hcnt]
    exact (eq_of_offOctet (offOctet_octCaught m)).2.2 _ hlane
  · rfl

/-- Every octet that PWR_BW_SAFE selects holds BW after a brown-out. -/
theorem bwLatch_latches (m : Mach) {o : Nat} (ho : o < 16) (h : bit o (m.rd R.PWR_BW_SAFE) = true) :
    bit 4 ((bwLatch m).rd (R.TRP_LATCH_CAUSE o)) = true := by
  have hsafe : (bwLatch m).rd R.PWR_BW_SAFE = m.rd R.PWR_BW_SAFE := (eq_of_helm (helm_bwLatch m)).1 _ (by decide)
  refine each_establishes (P := fun o m => bit o (m.rd R.PWR_BW_SAFE) = true → bit 4 (m.rd (R.TRP_LATCH_CAUSE o)) = true)
    (fun _ _ m => bwStep_own m) (fun a ha p hp hne m hk hb => ?_) (n := 16) (fun _ => List.mem_range.mp) ho
    (.inl (List.mem_range.mpr ho)) (hsafe ▸ h)
  rw [bwSafe_bwStep] at hb
  rw [bwStep_other ha hp hne]
  exact hk hb

end

/-! ## Supervised rails (R508 to R510) -/

section
variable {r : Nat} {m : Mach}

/-- A field rail's first warning, and a further one's. -/
theorem railFieldAssert_does (hb : bit r m.pwr.railF = false) : (railFieldAssert r m).alarms = m.alarms ++ [15] ∧
    bit r ((railFieldAssert r m).rd R.PWR_F_RAIL_STAT) = true ∧
    ((railFieldAssert r m).core 2).c7 = (m.core 2).c7 ++ [0x100 + r] ∧
    ∀ o < 16, bit o (m.rd R.PWR_BW_SAFE) = true → bit 4 ((railFieldAssert r m).rd (R.TRP_LATCH_CAUSE o)) = true := by
  unfold railFieldAssert
  rw [hb, if_neg (by decide)]
  extract_lets first m1 m2
  obtain ⟨hlow, ⟨-, hcores⟩, -, -, -, hal, -⟩ := eq_of_helm (helm_bwLatch m1)
  have h1 : m1.rd R.PWR_F_RAIL_STAT = setBit r m.pwr.railF ∧ m1.rd R.PWR_BW_SAFE = m.rd R.PWR_BW_SAFE ∧ m1.alarms = m.alarms :=
    ⟨rd_wr_same { m with pwr := { m.pwr with railF := setBit r m.pwr.railF } } R.PWR_F_RAIL_STAT _,
      rd_wr_ne (by decide) { m with pwr := { m.pwr with railF := setBit r m.pwr.railF } } _, rfl⟩
  have h1c : (m1.core 2).c7 = (m.core 2).c7 ++ [0x100 + r] :=
    congrArg Core.c7 (Mach.updCore_same (putRailF (setBit r m.pwr.railF) m) 2 (fun c => { c with c7 := c.c7 ++ [0x100 + r] }))
  clear_value m1
  obtain ⟨hstat, hsafe, ha⟩ := h1
  have h2 : m2.alarms = m.alarms ++ [15] ∧ bit r (m2.rd R.PWR_F_RAIL_STAT) = true ∧ (m2.core 2).c7 = (m.core 2).c7 ++ [0x100 + r] ∧
      ∀ o < 16, bit o (m.rd R.PWR_BW_SAFE) = true → bit 4 (m2.rd (R.TRP_LATCH_CAUSE o)) = true := by
    refine ⟨?_, ?_, ?_, fun o ho hb => bwLatch_latches m1 ho (hsafe ▸ hb)⟩
    · rw [← ha, ← hal]
      rfl
    · rw [show m2.rd R.PWR_F_RAIL_STAT = (bwLatch m1).rd R.PWR_F_RAIL_STAT from rfl, hlow _ (by decide), hstat, bit_setBit_same]
    · rw [show m2.core 2 = (bwLatch m1).core 2 from rfl, Mach.core, hcores]
      exact h1c
  clear_value m2
  obtain ⟨e1, e2, e3, e4⟩ := h2
  split_ifs
  · refine ⟨(by simp [pwrRaiseF] : _ = m2.alarms).trans e1, ?_, ?_, fun o ho hb => ?_⟩
    · rw [pwrRaiseF, rd_raise (by decide)]
      exact e2
    · rw [← e3]
      simp [pwrRaiseF, Mach.core]
    · rw [pwrRaiseF, rd_raise (by simp only [Obj.key, R.TRP_LATCH_CAUSE, R.PWR_F_EVT]; omega)]
      exact e4 o ho hb
  · exact ⟨e1, e2, e3, e4⟩

/-- A host rail's warning. -/
theorem railHostAssert_does (hb : bit r m.pwr.railH = false) : (railHostAssert r m).signals = m.signals ∧
    bit r ((railHostAssert r m).rd R.PWR_H_RAIL_STAT) = true ∧
    ((railHostAssert r m).core 0).c7 = (m.core 0).c7 ++ [0x110 + r] ∧ ((railHostAssert r m).core 1).c7 = (m.core 1).c7 ++ [0x110 + r] := by
  unfold railHostAssert
  rw [hb, if_neg (by decide)]
  extract_lets first m1
  have hstat : m1.rd R.PWR_H_RAIL_STAT = setBit r m.pwr.railH :=
    rd_wr_same { m with pwr := { m.pwr with railH := setBit r m.pwr.railH } } R.PWR_H_RAIL_STAT _
  have hc0 : (m1.core 0).c7 = (m.core 0).c7 ++ [0x110 + r] :=
    (congrArg Core.c7 (updCore_ne (show 0 ≠ 1 by decide) ..)).trans (congrArg Core.c7
      (Mach.updCore_same (putRailH (setBit r m.pwr.railH) m) 0 (fun c => { c with c7 := c.c7 ++ [0x110 + r] })))
  have hc1 : (m1.core 1).c7 = (m.core 1).c7 ++ [0x110 + r] :=
    (congrArg Core.c7 (Mach.updCore_same ((putRailH (setBit r m.pwr.railH) m).class7 0 (0x110 + r)) 1
      (fun c => { c with c7 := c.c7 ++ [0x110 + r] }))).trans
      (congrArg (fun c : Core => c.c7 ++ [0x110 + r]) (updCore_ne (show 1 ≠ 0 by decide) _ (putRailH (setBit r m.pwr.railH) m)))
  have hsig : m1.signals = m.signals := rfl
  clear_value m1
  have hcore (i : Nat) : (pwrRaiseH 1 (m1.assertSrc 414)).core i = m1.core i := by simp [pwrRaiseH, Mach.core]
  split_ifs
  · refine ⟨(signals_raise ..).trans hsig, ?_, by rw [hcore, hc0], by rw [hcore, hc1]⟩
    rw [pwrRaiseH, rd_raise (by decide), show (m1.assertSrc 414).rd R.PWR_H_RAIL_STAT = m1.rd R.PWR_H_RAIL_STAT from rfl, hstat,
      bit_setBit_same]
  · refine ⟨hsig, ?_, hc0, hc1⟩
    rw [show (m1.assertSrc 414).rd R.PWR_H_RAIL_STAT = m1.rd R.PWR_H_RAIL_STAT from rfl, hstat, bit_setBit_same]

theorem bit_clrBit_same (b v : Nat) : bit b (clrBit b v) = false := bit_putBit_same b false v

/-- A field rail that recovers, the last one of an episode included. -/
theorem railDeassert_field (hr : r ≤ 12) (hb : bit r m.pwr.railF = true) : (railDeassertEffect r m).signals = m.signals ∧
    bit r ((railDeassertEffect r m).rd R.PWR_F_RAIL_STAT) = false ∧
    (bits 12 0 (clrBit r m.pwr.railF) = 0 → bit 4 ((railDeassertEffect r m).rd R.PWR_F_EVT) = true ∧
      (railDeassertEffect r m).rd R.PWR_F_BW_EPISODES = min 0xFFFFFFFF (m.rd R.PWR_F_BW_EPISODES + 1)) := by
  unfold railDeassertEffect
  rw [if_pos hr, if_pos hb]
  extract_lets m1
  have hstat : m1.rd R.PWR_F_RAIL_STAT = clrBit r m.pwr.railF :=
    rd_wr_same { m with pwr := { m.pwr with railF := clrBit r m.pwr.railF } } R.PWR_F_RAIL_STAT _
  have hcnt : m1.rd R.PWR_F_BW_EPISODES = m.rd R.PWR_F_BW_EPISODES :=
    rd_wr_ne (by decide) { m with pwr := { m.pwr with railF := clrBit r m.pwr.railF } } _
  have hsig : m1.signals = m.signals := rfl
  have hrail : m1.pwr.railF = clrBit r m.pwr.railF := rfl
  clear_value m1
  rw [hrail]
  split_ifs with hlast
  · refine ⟨(signals_raise ..).trans ((signals_inc ..).trans hsig), ?_, fun _ => ⟨?_, ?_⟩⟩
    · rw [pwrRaiseF, rd_raise (by decide), rd_inc_ne (by decide), hstat, bit_clrBit_same]
    · rw [pwrRaiseF, rd_raise_same, bit_setBit_same]
    · rw [pwrRaiseF, rd_raise (by decide), rd_inc_same, hcnt]
  · exact ⟨hsig, by rw [hstat, bit_clrBit_same], fun h => absurd h hlast⟩

theorem railDeassert_host (hr : 16 ≤ r) (hb : bit (r - 16) m.pwr.railH = true) : (railDeassertEffect r m).signals = m.signals ∧
    bit (r - 16) ((railDeassertEffect r m).rd R.PWR_H_RAIL_STAT) = false ∧
    (bits 3 0 (clrBit (r - 16) m.pwr.railH) = 0 → bit 2 ((railDeassertEffect r m).rd R.PWR_H_EVT) = true ∧
      (railDeassertEffect r m).rd R.PWR_H_BW_EPISODES = min 0xFFFFFFFF (m.rd R.PWR_H_BW_EPISODES + 1)) := by
  unfold railDeassertEffect
  rw [if_neg (by omega), if_pos hr, if_pos hb]
  extract_lets m1
  have hstat : m1.rd R.PWR_H_RAIL_STAT = clrBit (r - 16) m.pwr.railH :=
    rd_wr_same { m with pwr := { m.pwr with railH := clrBit (r - 16) m.pwr.railH } } R.PWR_H_RAIL_STAT _
  have hcnt : m1.rd R.PWR_H_BW_EPISODES = m.rd R.PWR_H_BW_EPISODES :=
    rd_wr_ne (by decide) { m with pwr := { m.pwr with railH := clrBit (r - 16) m.pwr.railH } } _
  have hsig : m1.signals = m.signals := rfl
  have hrail : m1.pwr.railH = clrBit (r - 16) m.pwr.railH := rfl
  clear_value m1
  rw [hrail]
  split_ifs with hlast
  · refine ⟨(signals_raise ..).trans ((signals_inc ..).trans hsig), ?_, fun _ => ⟨?_, ?_⟩⟩
    · rw [pwrRaiseH, rd_raise (by decide), rd_inc_ne (by decide), hstat, bit_clrBit_same]
    · rw [pwrRaiseH, rd_raise_same, bit_setBit_same]
    · rw [pwrRaiseH, rd_raise (by decide), rd_inc_same, hcnt]
  · exact ⟨hsig, by rw [hstat, bit_clrBit_same], fun h => absurd h hlast⟩

end

/-! ## The governor (R527, R528) -/

/-- What a draw is granted leaves of the queue, the credits and what waits to be acted on. -/
theorem drawGranted_leaves (d : Draw) (m : Mach) : (drawGranted d m).pwr.gov = m.pwr.gov ∧
    (drawGranted d m).rd R.PWR_INRUSH_CREDITS = m.rd R.PWR_INRUSH_CREDITS ∧ (drawGranted d m).signals = m.signals := by
  cases d with
  | wake => exact ⟨rfl, rfl, rfl⟩
  | octStart o =>
    have hkey : R.PWR_INRUSH_CREDITS.key ≠ (R.PWM_EVT o).key ∧ R.PWR_INRUSH_CREDITS.key ≠ (R.PWM_CNT_LATE o).key := by
      simp only [Obj.key, R.PWR_INRUSH_CREDITS, R.PWM_EVT, R.PWM_CNT_LATE]
      omega
    have hlate (n : Mach) : (pwmRaise o 2 (n.inc (R.PWM_CNT_LATE o))).pwr.gov = n.pwr.gov ∧
        (pwmRaise o 2 (n.inc (R.PWM_CNT_LATE o))).rd R.PWR_INRUSH_CREDITS = n.rd R.PWR_INRUSH_CREDITS ∧
        (pwmRaise o 2 (n.inc (R.PWM_CNT_LATE o))).signals = n.signals := by
      refine ⟨by simp [pwmRaise], ?_, (signals_raise ..).trans (signals_inc ..)⟩
      rw [pwmRaise, rd_raise hkey.1, rd_inc_ne hkey.2]
    unfold drawGranted
    dsimp only
    split_ifs
    · exact hlate _
    · exact ⟨rfl, rfl, rfl⟩
  | octRejoin o => exact ⟨rfl, rfl, rfl⟩
  | tur e => exact ⟨rfl, rfl, rfl⟩

/-- The head draw is granted while the credits cover it. -/
theorem governorGrant_grants {m : Mach} {d : Draw} {rest : List Draw} (hg : m.pwr.gov = d :: rest)
    (hc : drawCost m d ≤ m.rd R.PWR_INRUSH_CREDITS) : (govGrantHead m).pwr.gov = rest ∧
      (govGrantHead m).rd R.PWR_INRUSH_CREDITS = m.rd R.PWR_INRUSH_CREDITS - drawCost m d ∧ bit 1 ((govGrantHead m).rd R.PWR_F_EVT) = true ∧
      (govGrantHead m).signals = m.signals := by
  let m0 : Mach := { m with pwr := { m.pwr with gov := rest } }
  have he : govGrantHead m = govTake d m0 := by
    unfold govGrantHead govGrants
    rw [hg]
    dsimp only
    rw [if_pos hc]
    rfl
  have hcost : drawCost m0 d = drawCost m d := by cases d <;> rfl
  obtain ⟨h1, h2, h3⟩ := drawGranted_leaves d (m0.wr R.PWR_INRUSH_CREDITS (m0.rd R.PWR_INRUSH_CREDITS - drawCost m0 d))
  rw [he, govTake, pwrRaiseF]
  refine ⟨?_, ?_, ?_, ?_⟩
  · rw [pwr_raise, h1]
    rfl
  · rw [rd_raise (by decide), h2, rd_wr_same, hcost]
    rfl
  · rw [rd_raise_same, bit_setBit_same]
  · rw [signals_raise, h3, signals_wr]
    rfl

theorem governorGrant_waits {m : Mach} {d : Draw} {rest : List Draw} (hg : m.pwr.gov = d :: rest)
    (hc : m.rd R.PWR_INRUSH_CREDITS < drawCost m d) : govGrantHead m = m := by
  unfold govGrantHead govGrants
  rw [hg]
  exact if_neg (by omega)

end Sys2Proof.Machine

/-! ## Unit stops (R529) -/

namespace Sys2Proof.Machine

section
variable {k n : Nat} {m : Mach}

theorem outApply_rd {o : Obj} {c : Nat} (h : o.key ∉ [(R.CH_EVT c).key, (R.CH_CNT_LATE c).key, (R.CH_CNT_DROP c).key]) (lvl : Bool)
    (t : Nat) (m : Mach) : (outApply c lvl t m).2.rd o = m.rd o := by
  simp only [List.mem_cons, List.not_mem_nil, or_false, not_or] at h
  obtain ⟨he, hl, hd⟩ := h
  unfold outApply
  extract_lets x again y z put m1
  have h1 : m1.rd o = m.rd o := by rw [show m1 = chRaise c 4 _ from rfl, chRaise, rd_raise he, rd_inc_ne hl]
  have hset (y : Chan) : (m1.setChan c y).rd o = m.rd o := h1
  cases y.last with
  | none => dsimp only; split_ifs <;> rfl
  | some l =>
    dsimp only
    split_ifs
    · rfl
    · rfl
    · exact (rd_inc_ne hd _).trans h1
    · exact h1
    · rfl

theorem lanStop_rd (m : Mach) : (lanStop m).rd R.LAN_RUN = m.rd R.LAN_RUN := by
  refine each_keeps (g := fun m => m.rd R.LAN_RUN) (fun c m => ?_) _ _
  unfold angleClear outTransition
  split_ifs
  · refine outApply_rd ?_ ..
    simp only [List.mem_cons, List.not_mem_nil, or_false, not_or, Obj.key, R.LAN_RUN, R.CH_EVT, R.CH_CNT_LATE, R.CH_CNT_DROP]
    omega
  · rfl

theorem helm_lanStop (m : Mach) : (lanStop m).helm = m.helm :=
  each_keeps (g := Mach.helm) (fun c m => by unfold angleClear outTransition; split_ifs; exacts [helm_outApply .., rfl]) _ _

theorem turStop_rd (e : Nat) (m : Mach) : (turStop e m).rd (R.TUR_RUN n) = m.rd (R.TUR_RUN n) := by
  have hdark (x : Nat) (m : Mach) : (pinsDark x m).rd (R.TUR_RUN n) = m.rd (R.TUR_RUN n) := by
    unfold pinsDark
    refine each_keeps (g := fun m => m.rd (R.TUR_RUN n)) (fun i m => ?_) _ _
    split
    · rfl
    · split_ifs <;> rfl
  have hne (x : Nat) : (R.TUR_RUN n).key ≠ (R.CTX_STATE x).key := by
    simp only [Obj.key, R.TUR_RUN, R.CTX_STATE]
    omega
  have hslot (x : Nat) (f : Ctx → Ctx) (m : Mach) :
      (((pinsDark x m).wr (R.CTX_STATE x) 0).updCtx x f).rd (R.TUR_RUN n) = m.rd (R.TUR_RUN n) := by
    change ((pinsDark x m).wr (R.CTX_STATE x) 0).rd (R.TUR_RUN n) = _
    rw [rd_wr_ne (hne x), hdark]
  exact each_keeps (g := fun m => m.rd (R.TUR_RUN n)) (fun x m => hslot x _ m) _ _

@[simp] theorem ofUnit_ocuEnable (u : Nat) : OfUnit (R.OCU_ENABLE u) := ofUnit_of_idx (Nat.le_trans (by decide) (Nat.le_add_right ..))

/-- The unit of a stop that names one. -/
def UnitNamed (k n : Nat) : Prop :=
  (k = 1 ∧ n ≤ 15) ∨ (k = 2 ∧ n = 0) ∨ (k = 3 ∧ n ≤ 127) ∨ (k = 4 ∧ n ≤ 15) ∨ (k = 5 ∧ n ≤ 15) ∨ (k = 6 ∧ n ≤ 7)

/-- A named unit stops with its run request written 0, and what is not the unit's stays. -/
theorem unitStopped_does (h : UnitNamed k n) (m : Mach) : ∃ m1, unitStopped k n m = some m1 ∧ m1.helm = m.helm ∧
    (k = 1 → m1.rd (R.WHL_ENABLE n) = 0) ∧ (k = 2 → m1.rd R.LAN_RUN = 0) ∧ (k = 5 → m1.rd (R.PWM_RUN n) = 0) ∧
    (k = 6 → m1.rd (R.TUR_RUN n) = 0) := by
  obtain ⟨rfl, hn⟩ | ⟨rfl, rfl⟩ | ⟨rfl, hn⟩ | ⟨rfl, hn⟩ | ⟨rfl, hn⟩ | ⟨rfl, hn⟩ := h
  · refine ⟨whlDisable n m, if_pos hn, ?_, fun _ => ?_, nofun, nofun, nofun⟩
    · rw [whlDisable, helm_whlOff, helm_wr (ofUnit_whl n).2.2.2]
    · rw [whlDisable, (whlOff_off n _).2, rd_wr_same]
  · refine ⟨lanStop (m.wr R.LAN_RUN 0), rfl, ?_, nofun, fun _ => ?_, nofun, nofun⟩
    · rw [helm_lanStop, helm_wr (ofUnit_of_idx (by decide))]
    · rw [lanStop_rd, rd_wr_same]
  · refine ⟨axRunOffEffect n m, if_pos hn, ?_, nofun, nofun, nofun, nofun⟩
    rw [axRunOffEffect, helm_axStop, helm_wr (ofUnit_ax n).2.2]
  · refine ⟨ocuEnableOffEffect n m, if_pos hn, ?_, nofun, nofun, nofun, nofun⟩
    simp [ocuEnableOffEffect, ocuOff]
  · refine ⟨octRunOff n m, if_pos hn, ?_, nofun, nofun, fun _ => ?_, nofun⟩
    · rw [octRunOff, helm_octStop, helm_wr (ofUnit_out n).2.2.1]
    · rw [octRunOff, (octStop_does (by omega) _).2.2.2.1, rd_wr_same]
  · refine ⟨turStop n (m.wr (R.TUR_RUN n) 0), if_pos hn, ?_, nofun, nofun, nofun, fun _ => ?_⟩
    · rw [helm_turStop, helm_wr (ofUnit_out n).2.1]
    · rw [turStop_rd, rd_wr_same]

/-- A stop that names no unit is none. -/
theorem unitStopped_none (h : k = 0 ∨ 6 < k ∨ (k = 2 ∧ n ≠ 0) ∨ ((k = 1 ∨ k = 4 ∨ k = 5) ∧ 15 < n) ∨ (k = 3 ∧ 127 < n) ∨ (k = 6 ∧ 7 < n))
    (m : Mach) : unitStopped k n m = none := by
  obtain rfl | h | ⟨rfl, h⟩ | ⟨rfl | rfl | rfl, h⟩ | ⟨rfl, h⟩ | ⟨rfl, h⟩ := h
  · rfl
  · obtain ⟨j, rfl⟩ : ∃ j, k = j + 7 := ⟨k - 7, by omega⟩
    rfl
  all_goals exact if_neg (by omega)

end

/-! ## The obligation -/

section
variable {s : State} {w : Writer} (hs : Settled s)
include hs

omit hs in
theorem railSupervised_host {r : Nat} (h : 16 ≤ r) (m : Mach) : railSupervised m r = true := by
  unfold railSupervised
  rw [decide_eq_true h, Bool.or_true]

theorem railWarning_field {r : Fin 20} (hsup : railSupervised s.m r = true) (hr : r.val ≤ 12) (hb : bit r s.m.pwr.railF = false)
    (hbor : borNow s.m .field = false) : Acts (.railWarningAssert r) s (fun m => m.alarms = [15] ∧ bit r (m.rd R.PWR_F_RAIL_STAT) = true ∧
      (m.core 2).c7 = (s.m.core 2).c7 ++ [0x100 + r.val] ∧
      ∀ o < 16, bit o (s.m.rd R.PWR_BW_SAFE) = true → bit 4 (m.rd (R.TRP_LATCH_CAUSE o)) = true) := by
  have he : railAssertEffect r s.m = railFieldAssert r s.m := by
    unfold railAssertEffect
    rw [hsup, if_pos hr, hbor, if_pos hr]
    rfl
  obtain ⟨h1, h2, h3, h4⟩ := railFieldAssert_does hb
  have hx : exec (.railWarningAssert r) s = .next { s with m := settle (railFieldAssert r s.m) } := by
    rw [← he]
    rfl
  exact ⟨_, hx, h1.trans (by rw [hs.1]; rfl), h2, h3, h4⟩

theorem railWarning_bor {r : Fin 20} (h : borNow s.m (if r.val ≤ 12 then .field else .host) = true) :
    To (.railWarningAssert r) s s.m := by
  refine to_of_quiet (f := railAssertEffect r) rfl hs ?_ ⟨rfl, rfl⟩
  unfold railAssertEffect
  rw [h, Bool.or_true, if_pos rfl]

theorem railWarning_host {r : Fin 20} (hr : 16 ≤ r.val) (hb : bit (r.val - 16) s.m.pwr.railH = false) (hbor : borNow s.m .host = false) :
    Goes (.railWarningAssert r) s (fun m => bit (r.val - 16) (m.rd R.PWR_H_RAIL_STAT) = true ∧
      (m.core 0).c7 = (s.m.core 0).c7 ++ [0x100 + r.val] ∧ (m.core 1).c7 = (s.m.core 1).c7 ++ [0x100 + r.val]) := by
  have he : railAssertEffect r s.m = railHostAssert (r - 16) s.m := by
    unfold railAssertEffect
    rw [railSupervised_host hr, if_neg (show ¬r.val ≤ 12 by omega), hbor, if_neg (show ¬r.val ≤ 12 by omega)]
    rfl
  obtain ⟨hq, h1, h2, h3⟩ := railHostAssert_does hb
  have hcode : 0x110 + (r.val - 16) = 0x100 + r.val := by omega
  rw [hcode] at h2 h3
  have hto : To (.railWarningAssert r) s (railHostAssert (r - 16) s.m) := to_of_quiet (f := railAssertEffect r) rfl hs he
    ⟨congrArg Prod.snd hq, congrArg Prod.fst hq⟩
  exact .of_to hto ⟨h1, h2, h3⟩

/-- A rail's recovery goes on with what its effect leaves. -/
theorem railRecovery_goes {r : Fin 20} {P : Mach → Prop} (hq : (railDeassertEffect r s.m).signals = s.m.signals)
    (hP : P (railDeassertEffect r s.m)) : Goes (.railWarningDeassert r) s P := by
  have hto : To (.railWarningDeassert r) s (railDeassertEffect r s.m) := to_of_quiet (f := railDeassertEffect r) rfl hs rfl
    ⟨congrArg Prod.snd hq, congrArg Prod.fst hq⟩
  exact .of_to hto hP

theorem governor_goes {d : Draw} {rest : List Draw} (hg : s.m.pwr.gov = d :: rest) :
    (drawCost s.m d ≤ s.m.rd R.PWR_INRUSH_CREDITS → Goes .governorGrant s (fun m => m.pwr.gov = rest ∧
      m.rd R.PWR_INRUSH_CREDITS = s.m.rd R.PWR_INRUSH_CREDITS - drawCost s.m d ∧ bit 1 (m.rd R.PWR_F_EVT) = true)) ∧
    (s.m.rd R.PWR_INRUSH_CREDITS < drawCost s.m d → To .governorGrant s s.m) := by
  refine ⟨fun hc => ?_, fun hc => to_of_quiet (f := govGrantHead) rfl hs (governorGrant_waits hg hc) ⟨rfl, rfl⟩⟩
  obtain ⟨h1, h2, h3, hq⟩ := governorGrant_grants hg hc
  have hto : To .governorGrant s (govGrantHead s.m) := to_of_quiet (f := govGrantHead) rfl hs rfl
    ⟨congrArg Prod.snd hq, congrArg Prod.fst hq⟩
  exact .of_to hto ⟨h1, h2, h3⟩

omit hs in
theorem pwrUnitStop_acts {v : BitVec 16} {k n : Nat} (hv : v.toNat = 256 * k + n) (hn : n < 256) (h : UnitNamed k n)
    (hm : May w R.PWR_UNIT_STOP false s) : Acts (.pwrUnitStop w v) s (fun m => m.rd R.PWR_UNIT_LAST = v.toNat ∧
      m.rd R.PWR_CNT_UNIT = min 0xFFFFFFFF (s.m.rd R.PWR_CNT_UNIT + 1) ∧
      (k = 1 → m.on (R.WHL_ENABLE n) = false) ∧ (k = 2 → m.on R.LAN_RUN = false) ∧ (k = 5 → m.on (R.PWM_RUN n) = false) ∧
      (k = 6 → m.on (R.TUR_RUN n) = false)) := by
  obtain ⟨m1, hm1, hhelm, h1, h2, h5, h6⟩ := unitStopped_does h s.m
  have hk : v.toNat / 256 = k ∧ v.toNat % 256 = n := by omega
  let m2 : Mach := (({ m1 with stopped := (unitRequest k n).key :: m1.stopped }).wr R.PWR_UNIT_LAST v.toNat).inc R.PWR_CNT_UNIT
  have he : unitStopEffect v.toNat s.m = .ok m2 := by
    unfold unitStopEffect
    rw [hk.1, hk.2, hm1]
  have hcnt : m1.rd R.PWR_CNT_UNIT = s.m.rd R.PWR_CNT_UNIT := (eq_of_helm hhelm).1 _ (by decide)
  refine acts_of_carried rfl hm he fun x _ hrd => ?_
  have hunit {o : Obj} (ho : OfUnit o) (hz : m1.rd o = 0) : x.on o = false := by
    have hne {p : Obj} (hp : p.key < 0x200000) : o.key ≠ p.key := by
      unfold OfUnit at ho
      omega
    rw [Mach.on, hrd, show m2.rd o = m1.rd o from (rd_inc_ne (hne (by decide)) _).trans (rd_wr_ne (hne (by decide)) ..), hz]
    rfl
  refine ⟨?_, ?_, fun hk => hunit (ofUnit_whl n).2.2.2 (h1 hk), fun hk => hunit (ofUnit_of_idx (by decide)) (h2 hk),
    fun hk => hunit (ofUnit_out n).2.2.1 (h5 hk), fun hk => hunit (ofUnit_out n).2.1 (h6 hk)⟩
  · rw [hrd]
    exact (rd_inc_ne (by decide) _).trans (rd_wr_same ..)
  · rw [hrd, ← hcnt]
    refine (show m2.rd R.PWR_CNT_UNIT = _ from rd_inc_same _ _).trans ?_
    rw [rd_wr_ne (by decide)]
    rfl

theorem reloadField_leads (h : s.m.bar.fwOut = none) : Leads (.reloadField w) s w R.PWR_H_FW_CMD false (fun m =>
    m.bar.fwOut = (if (pickImage .field s.m).2 = 2 then none else some 0) ∧
      bits 3 2 (m.rd R.PWR_H_BOOT_STAT) = (pickImage .field s.m).2) := by
  have he : fwCmdEffect 1 s.m = .ok (fwStart s.m) := (if_neg (by decide)).trans (if_neg (by rw [h]; decide))
  have hpick : (pickImage .field s.m).2 ≤ 2 := by
    unfold pickImage
    dsimp only
    split_ifs <;> omega
  have hbits {p v : Nat} (hp : p ≤ 2) : bits 3 2 (putBits 3 2 p v) = p := by
    simp only [bits, putBits]
    omega
  have hP : (fwStart s.m).bar.fwOut = (if (pickImage .field s.m).2 = 2 then none else some 0) ∧
      (fwStart s.m).rd R.PWR_H_BOOT_STAT = putBits 3 2 (pickImage .field s.m).2 (s.m.rd R.PWR_H_BOOT_STAT) ∧
      (fwStart s.m).signals = s.m.signals := by
    unfold fwStart
    dsimp only
    split_ifs
    · exact ⟨h, rd_wr_same .., rfl⟩
    · exact ⟨rfl, rd_wr_same .., rfl⟩
  obtain ⟨h1, h2, hq⟩ := hP
  refine leads_of_frame (eff := fwCmdEffect 1) rfl hs he ⟨congrArg Prod.snd hq, congrArg Prod.fst hq⟩ fun n hn => ?_
  have hm {α : Type} (f : Mach → α) : f { n with out := (fwStart s.m).out, ranks := (fwStart s.m).ranks, redos := (fwStart s.m).redos } =
      f (fwStart s.m) := congrArg f hn
  have hb : n.bar.fwOut = (fwStart s.m).bar.fwOut := hm (·.bar.fwOut)
  have hr : n.rd R.PWR_H_BOOT_STAT = (fwStart s.m).rd R.PWR_H_BOOT_STAT := hm (·.rd R.PWR_H_BOOT_STAT)
  exact ⟨hb.trans h1, by rw [hr, h2, hbits hpick]⟩

theorem bootkey_goes {r : Route} {h : BitVec 8} :
    (s.m.saf.bootKey = none → Writes (.bootkeyCommit (.dict r h) 0x6B746F62) s (.dict r h) R.PWR_H_BOOTKEY_CMD true
      { s.m with saf := { s.m.saf with bootKey := some ((List.range 8).flatMap (fun i => toLe 4 (s.m.rd (R.PWR_H_BOOTKEY i)))) } }) ∧
    (∀ v : Word, s.m.saf.bootKey ≠ none ∨ v.toNat ≠ 0x6B746F62 →
      Turns (.bootkeyCommit (.dict r h) v) s (.dict r h) R.PWR_H_BOOTKEY_CMD true .range) := by
  refine ⟨fun hk => ?_, fun v hv hm => ?_⟩
  · exact writes_of_ok (eff := bootkeyEffect (.dict r h) 0x6B746F62) rfl hs (if_pos ⟨rfl, hk⟩) ⟨rfl, rfl⟩
  · refine done_turned (eff := bootkeyEffect (.dict r h) v.toNat) hm (if_neg ?_)
    rintro ⟨h1, h2⟩
    exact hv.elim (absurd h2) (absurd h1)

omit hs in
theorem bootkey_barred (hw : ∀ r h, w ≠ .dict r h) (v : Word) : Turns (.bootkeyCommit w v) s w R.PWR_H_BOOTKEY_CMD true .machine :=
  fun hm => by
    refine done_turned (eff := bootkeyEffect w v.toNat) hm ?_
    unfold bootkeyEffect
    split
    next r h => exact absurd rfl (hw r h)
    · rfl

end

/-- Settles O28. -/
theorem powerCommands : Obligations.PowerCommands := by
  unfold Obligations.PowerCommands
  intro s w hs
  refine ⟨fun r => railWarning_field hs, fun r => railWarning_bor hs, fun r => railWarning_host hs, fun r hr hb => ?_, fun r hr hb => ?_,
    to_of_quiet (f := govCredit) rfl hs rfl ⟨rfl, rfl⟩, fun d rest => governor_goes hs, fun v k n hv hn => ⟨fun h => pwrUnitStop_acts hv hn h,
    fun h hm => ?_⟩, reloadField_leads hs, fun h hm => ?_, fun r h hw => hw ▸ bootkey_goes hs, fun v hw => bootkey_barred hw v,
    fun up perst msix => to_of_quiet (f := pcieEffect up perst msix) rfl hs rfl ⟨rfl, rfl⟩⟩
  · obtain ⟨hq, h1, h2⟩ := railDeassert_field hr hb
    exact railRecovery_goes hs hq ⟨h1, h2⟩
  · obtain ⟨hq, h1, h2⟩ := railDeassert_host hr hb
    exact railRecovery_goes hs hq ⟨h1, h2⟩
  · have hk : v.toNat / 256 = k ∧ v.toNat % 256 = n := by omega
    have he : unitStopEffect v.toNat s.m = .error .range := by
      unfold unitStopEffect
      rw [hk.1, hk.2, unitStopped_none h]
    exact done_turned hm he
  · have he : fwCmdEffect 1 s.m = .error .busy :=
      (if_neg (by decide)).trans (if_pos (Option.isSome_iff_ne_none.mpr h))
    exact done_turned (eff := fwCmdEffect 1) hm he

end Sys2Proof.Machine

/-! # O29: training, upkeep, QUIET and loss of the link

A loss or QUIET closes what the side has under way with the other: answers go out, transfers and sessions close, a store fails. None of it
reaches the ends of the link, the latches, the cores or the clocks; that is said once for each step. -/

namespace Sys2Proof.Machine

/-! ## What giving up requests, transfers and sessions leaves -/

/-- The objects of the link and those the entry of the safe state rests on. -/
def Aboard (k : Nat) : Bool :=
  (decide (0x120000 ≤ k) && decide (k < 0x130000)) ||
    [R.SAF_REACT.key, R.SAF_ACTIVE.key, R.SAF_LATCHED.key, R.SAF_CNT_ENTRY.key].contains k

/-- The numbers of those objects. -/
def Mach.aboard (m : Mach) (o : Obj) : Nat := if Aboard o.key then m.rd o else 0

/-- The ends of the link and the controlled stop. -/
def Barrier.ends (b : Barrier) : BarEnd × BarEnd × Option Nat := (b.h, b.f, b.cstop)

/-- What neither an answer to a requester nor the end of a transfer, a session or a store reaches. -/
def Mach.keel (m : Mach) := (m.aboard, m.bar.ends, m.cores, m.tb, (m.saf.latchA, m.saf.latchB, m.saf.relAt), m.signals)

section
variable {m m1 : Mach} {o : Obj}

theorem eq_of_keel (h : m1.keel = m.keel) : (∀ o : Obj, Aboard o.key = true → m1.rd o = m.rd o) ∧
    (m1.bar.h = m.bar.h ∧ m1.bar.f = m.bar.f ∧ m1.bar.cstop = m.bar.cstop) ∧ m1.cores = m.cores ∧ m1.tb = m.tb ∧
    m1.safe = m.safe ∧ m1.saf.relAt = m.saf.relAt ∧ m1.signals = m.signals := by
  simp only [Mach.keel, Barrier.ends, Prod.mk.injEq] at h
  obtain ⟨hrd, ⟨hh, hf, hc⟩, hcores, htb, ⟨hA, hB, hrel⟩, hsig⟩ := h
  refine ⟨fun o ho => ?_, ⟨hh, hf, hc⟩, hcores, htb, ?_, hrel, hsig⟩
  · have := congrFun hrd o
    simpa only [Mach.aboard, if_pos ho] using this
  · rw [Mach.safe, hA, hB, Mach.safe]

theorem keel_wr (h : Aboard o.key = false) (v : Nat) (m : Mach) : (m.wr o v).keel = m.keel := by
  have hrd : (m.wr o v).aboard = m.aboard := by
    funext p
    unfold Mach.aboard
    split_ifs with hp
    · exact rd_wr_ne (fun he => by rw [he, h] at hp; exact absurd hp (by decide)) ..
    · rfl
  rw [Mach.keel, hrd, signals_wr]
  simp only [Mach.wr_fields]
  rfl

theorem keel_inc (h : Aboard o.key = false) (m : Mach) : (m.inc o).keel = m.keel := keel_wr h _ m

theorem keel_putBit (h : Aboard o.key = false) (b : Nat) (v : Bool) (m : Mach) : (m.putBit o b v).keel = m.keel := keel_wr h _ m

theorem keel_setEvt (h : Aboard o.key = false) (b : Nat) (m : Mach) : (m.setEvt o b).keel = m.keel := keel_wr h _ m

@[simp] theorem keel_assertSrc (id : Nat) (m : Mach) : (m.assertSrc id).keel = m.keel := rfl

theorem keel_send (p : Port) (d : List Nat) (m : Mach) : (m.send p d).keel = m.keel := rfl

theorem keel_raise (h : Aboard o.key = false) (en : Obj) (b src : Nat) (m : Mach) : (m.raise o en b src).keel = m.keel := by
  unfold Mach.raise
  extract_lets m1
  split_ifs <;> exact keel_setEvt h b m

theorem keel_sent (h : Sent m m1) : m1.keel = m.keel := by
  obtain ⟨_, _, _, _, _, rfl⟩ := h
  rfl

theorem keel_abortRecord (r : Route) (idx sub code : Nat) (m : Mach) : (abortRecord r idx sub code m).keel = m.keel := by
  unfold abortRecord
  extract_lets no m1
  have h1 : m1.keel = m.keel := by
    unfold m1
    split <;> rfl
  rw [keel_assertSrc, keel_wr (by decide), keel_wr (by decide), keel_inc (by decide), h1]

end

/-! ## Answers -/

section
variable {m : Mach} {a : Ask}

theorem keel_updCan (k : Nat) (f : Can → Can) (m : Mach) : (m.updCan k f).keel = m.keel := rfl

theorem aboard_of_sub {n : Nat} (h : 0x160000 ≤ n) (hs : 7 ≤ n % 256) : Aboard n = false := by
  unfold Aboard
  rw [Bool.or_eq_false_iff]
  constructor
  · rw [Bool.and_eq_false_iff]
    exact .inr (decide_eq_false (by omega))
  · rw [Bool.eq_false_iff, ne_eq, List.contains_iff_mem]
    intro hn
    have : ∀ k ∈ [R.SAF_REACT.key, R.SAF_ACTIVE.key, R.SAF_LATCHED.key, R.SAF_CNT_ENTRY.key], k % 256 < 7 := by decide
    have := this n hn
    omega

theorem aboard_can (k : Nat) : Aboard (R.CAN_BUS_STATE k).key = false ∧ Aboard (R.CAN_CNT_SDO_ABORT k).key = false := by
  have hc : 0x160000 ≤ (R.CAN_BUS_STATE k).key ∧ (R.CAN_BUS_STATE k).key % 256 = 7 := by
    simp only [R.CAN_BUS_STATE, Obj.key]; omega
  have ha : 0x160000 ≤ (R.CAN_CNT_SDO_ABORT k).key ∧ (R.CAN_CNT_SDO_ABORT k).key % 256 = 10 := by
    simp only [R.CAN_CNT_SDO_ABORT, Obj.key]; omega
  exact ⟨aboard_of_sub hc.1 (by omega), aboard_of_sub ha.1 (by omega)⟩

theorem keel_canTx (k id : Nat) (d : List Byte) (m : Mach) : (canTx k id d m).keel = m.keel := by
  unfold canTx
  split_ifs
  · exact (keel_wr (aboard_can k).1 ..).trans rfl
  · rfl

theorem keel_sdoCancel (k : Nat) (m : Mach) : (sdoCancel k m).keel = m.keel := by
  unfold sdoCancel
  split
  · extract_lets m1
    split_ifs <;> rfl
  · rfl

theorem keel_sdoAbort (k idx sub code : Nat) (m : Mach) : (sdoAbort k idx sub code m).keel = m.keel :=
  (keel_canTx ..).trans (keel_inc (aboard_can k).2 _)

/-- An abort ends an SDO transfer. -/
theorem keel_sdoAnswer_error (k op tag code arg : Nat) (d : List Byte) (m : Mach) :
    (sdoAnswer k op tag (some code) arg d m).keel = m.keel := by
  unfold sdoAnswer
  split
  · rfl
  next x _ =>
    dsimp only
    by_cases h : x.wait = .none ∨ x.wait.op ≠ op ∨ tag ≠ (m.can k).sdoNo
    · rw [if_pos h]
    rw [if_neg h, keel_sdoAbort]
    split_ifs
    · rfl
    · exact keel_sdoCancel ..

theorem keel_tpdoAnswer_error (k tag : Nat) (d : List Byte) (m : Mach) : (tpdoAnswer k tag true d m).keel = m.keel := by
  unfold tpdoAnswer
  split <;> rfl

theorem keel_canDeliver_error (k : Nat) {f : List Byte} (h : fieldAt 7 1 f = 1) (m : Mach) : (canDeliver k a f m).keel = m.keel := by
  unfold canDeliver
  simp only [h, decide_true]
  split
  · exact keel_sdoAnswer_error ..
  · exact keel_tpdoAnswer_error ..
  · rfl

theorem rspFrame_error (op : Nat) (q : Req) (e : Abort) : fieldAt 7 1 (rspFrame op q (.error e)) = 1 := rfl

/-- A requester is told that its request failed. -/
theorem keel_dicAnswer_error (a : Ask) (e : Abort) (m : Mach) : (dicAnswer a (.error e) m).keel = m.keel := by
  unfold dicAnswer
  refine Eq.trans ?_ (keel_abortRecord a.q.route a.q.index.toNat a.q.sub.toNat e.code m)
  by_cases h0 : a.q.route = .can0
  · unfold dicDeliver
    simp only [h0]
    exact keel_canDeliver_error 0 (rspFrame_error ..) _
  · by_cases h1 : a.q.route = .can1
    · unfold dicDeliver
      simp only [h1]
      exact keel_canDeliver_error 1 (rspFrame_error ..) _
    · exact keel_sent (sent_dicDeliver h0 h1 ..)

end

/-! ## Transfers, sessions and stores -/

section
variable {m : Mach}

theorem keel_forwardLost (xid : Nat) (f : Fwd) (m : Mach) : (forwardLost xid f m).keel = m.keel := keel_dicAnswer_error ..

theorem keel_forwardsLost (m : Mach) : (forwardsLost m).keel = m.keel :=
  each_keeps (f := fun (e : Nat × Fwd) m => forwardLost e.1 e.2 m) (g := Mach.keel) (fun e m => keel_forwardLost e.1 e.2 m) m.bar.fwds m

theorem keel_xferClose (h : Nat) (m : Mach) : (xferClose h m).keel = m.keel := by
  unfold xferClose
  split
  · split_ifs <;> rfl
  · rfl

theorem keel_xfersLost (m : Mach) : (xfersLost m).keel = m.keel := each_keeps keel_xferClose ..

theorem keel_safLog (kind code aux detail : Nat) (m : Mach) : (safLog kind code aux detail m).keel = m.keel := by
  unfold safLog
  split_ifs
  · exact (keel_raise (by decide) ..).trans (keel_inc (by decide) _)
  · rfl

theorem keel_sessLog (sub h : Nat) (r : Route) (fail : Bool) (m : Mach) : (sessLog sub h r fail m).keel = m.keel := by
  unfold sessLog
  extract_lets n
  have hn : n.2.keel = m.keel := by
    unfold n routeNo
    split_ifs <;> rfl
  rw [keel_assertSrc, keel_safLog, hn]

theorem keel_sessEnd (h : Nat) (m : Mach) : (sessEnd h m).keel = m.keel := by
  unfold sessEnd
  split
  · split_ifs
    · exact keel_sessLog ..
    · rfl
  · rfl

theorem keel_sessionsLost (m : Mach) : (sessionsLost m).keel = m.keel :=
  (each_keeps keel_sessEnd (m.saf.sess.map Sess.handle) m :)

theorem keel_storeDrop (m : Mach) : (storeDrop m).keel = m.keel := by
  unfold storeDrop
  split_ifs <;> rfl

theorem keel_persDrop (m : Mach) : (persDrop m).keel = m.keel := by
  unfold persDrop
  split_ifs
  · rw [keel_assertSrc, keel_putBit (by decide)]
    rfl
  · rfl

theorem keel_storeAnswer_error (e : Abort) (m : Mach) : (storeAnswer (.error e) m).keel = m.keel := by
  unfold storeAnswer
  extract_lets m1
  split
  · rfl
  · exact (keel_send ..).trans ((keel_abortRecord ..).trans rfl)
  · exact keel_dicAnswer_error ..

theorem keel_storeFail (m : Mach) : (storeFail m).keel = m.keel := by
  unfold storeFail
  split_ifs
  · generalize hn : (m.putBit R.DIC_PERS_STATUS 1 true).putBit R.DIC_PERS_STATUS 0 false = n
    have hk : n.keel = m.keel := by
      rw [← hn, keel_putBit (by decide), keel_putBit (by decide)]
    exact (keel_storeAnswer_error ..).trans ((keel_assertSrc ..).trans hk)
  · rfl

theorem keel_calStop (m : Mach) : (calStop m).keel = m.keel := rfl

end

end Sys2Proof.Machine

/-! # O29, first part: training and upkeep of the link (R416, R417, R421) -/

namespace Sys2Proof.Machine

section
variable {c : Instr} {s : State} {f : Mach → Mach} {P : Mach → Prop} {n : Mach}

/-- A command that leaves nothing to act on. -/
theorem goes_quiet (hs : Settled s) (hc : exec c s = done f s) (hf : f s.m = n) (hq : n.signals = s.m.signals) (hP : P n) : Goes c s P :=
  .of_to (to_of_quiet hc hs hf ⟨congrArg (·.2) hq, congrArg (·.1) hq⟩) hP

end

section
variable {side : Side} {m : Mach}

@[simp] theorem signals_updEnd (side : Side) (f : BarEnd → BarEnd) (m : Mach) : (m.updEnd side f).signals = m.signals := by
  cases side <;> rfl

@[simp] theorem signals_barEnter (side : Side) (st : Nat) (m : Mach) : (barEnter side st m).signals = m.signals := by simp [barEnter]

@[simp] theorem signals_barRaise (side : Side) (b : Nat) (m : Mach) : (barRaise side b m).signals = m.signals := by
  cases side <;> exact signals_raise ..

@[simp] theorem wr_end (o : Obj) (v : Nat) (e : Side) (m : Mach) : (m.wr o v).barEnd e = m.barEnd e := by cases e <;> rfl

@[simp] theorem inc_end (o : Obj) (e : Side) (m : Mach) : (m.inc o).barEnd e = m.barEnd e := by cases e <;> rfl

/-- What entering a state does to the end. -/
@[simp] theorem barEnter_end (side : Side) (st : Nat) (m : Mach) :
    (barEnter side st m).barEnd side = { m.barEnd side with st := st } := (wr_end ..).trans (updEnd_same ..)

theorem barEnter_rd {o : Obj} (h : o.key ≠ (stateObj side).key) (st : Nat) (m : Mach) : (barEnter side st m).rd o = m.rd o :=
  (rd_wr_ne h ..).trans (updEnd_rd ..)

theorem barTrain_end (side : Side) (m : Mach) : (barTrain side m).barEnd side =
    { m.barEnd side with st := 1, ts2 := false, queue := [], replay := [], resend := [], due := false, wire := [] } := by
  rw [barTrain, updEnd_same, barEnter_end]

theorem barLanes_does (side : Side) (v : Nat) (m : Mach) : (barLanes side v m).barEnd side = { m.barEnd side with lanes := v } ∧
    (barLanes side v m).rd (lanesObj side) = v ∧ (barLanes side v m).signals = m.signals :=
  ⟨(wr_end ..).trans (updEnd_same ..), rd_wr_same .., by simp [barLanes]⟩

end

/-! ## Training -/

section
variable {s : State} {side : Side} (hs : Settled s)
include hs

theorem ts1_goes (h : s.m.barState side = 4 ∨ s.m.barState side = 5) : Goes (.ts1Received side) s (fun m => m.barState side = 1 ∧
    (m.barEnd side).ts2 = false ∧ (m.barEnd side).queue = [] ∧ (m.barEnd side).replay = []) := by
  refine goes_quiet (f := ts1Effect side) hs rfl (if_pos h) (by simp [barTrain]) ?_
  simp [Mach.barState, barTrain_end]

theorem aligned_goes (h : s.m.barState side = 1) : Goes (.receiverAligned side) s (fun m => m.barState side = 1 ∧
    m.rd (lanesObj side) = 15 ∧ (m.barEnd side).lanes = 15 ∧ (m.barEnd side).ts2 = true) := by
  obtain ⟨hend, hrd, hsig⟩ := barLanes_does side 15 s.m
  refine goes_quiet (f := alignedEffect side) hs rfl (if_pos h) ((signals_updEnd ..).trans hsig) ?_
  refine ⟨?_, (updEnd_rd ..).trans hrd, ?_, ?_⟩
  · rw [Mach.barState, updEnd_same, hend]
    exact h
  all_goals rw [updEnd_same, hend]

end

section
variable {side : Side} {m : Mach}

/-- The machine in HELLO, before its HELLO is queued. -/
def helloReached (side : Side) (m : Mach) : Mach :=
  hostHello side (barEnter side 2 (m.updEnd side (fun e => { ts2 := true, lanes := 15, evts := e.evts })))

theorem helloReached_does (side : Side) (m : Mach) : (helloReached side m).barEnd side =
    { st := 2, ts2 := true, lanes := 15, evts := (m.barEnd side).evts } ∧ (helloReached side m).signals = m.signals ∧
    (helloReached side m).bar.fieldVer = m.bar.fieldVer ∧
    ∀ o : Obj, o.key ≠ (stateObj side).key → (helloReached side m).rd o = m.rd o := by
  have hend : (barEnter side 2 (m.updEnd side (fun e => { ts2 := true, lanes := 15, evts := e.evts }))).barEnd side =
      { st := 2, ts2 := true, lanes := 15, evts := (m.barEnd side).evts } := by rw [barEnter_end, updEnd_same]
  have hsig : (barEnter side 2 (m.updEnd side (fun e => { ts2 := true, lanes := 15, evts := e.evts }))).signals = m.signals := by simp
  have hrd (o : Obj) (h : o.key ≠ (stateObj side).key) :
      (barEnter side 2 (m.updEnd side (fun e => { ts2 := true, lanes := 15, evts := e.evts }))).rd o = m.rd o :=
    (barEnter_rd h ..).trans (updEnd_rd ..)
  cases side <;> exact ⟨hend, hsig, rfl, hrd⟩

theorem helloPayload_reached (side : Side) (m : Mach) : helloPayload side (helloReached side m) = helloPayload side m := by
  obtain ⟨-, -, hver, hrd⟩ := helloReached_does side m
  cases side <;> simp only [helloPayload, hver] <;> simp (disch := decide) only [hrd]

/-- HELLO waits in a queue of an end in HELLO. -/
theorem linkQueue_hello (h : m.barState side = 2) (p : List Byte) : linkQueue side 2 p m =
    m.updEnd side (fun e => { e with queue := e.queue ++ [(6, ⟨2, p⟩)] }) := if_pos (.inr ⟨h, rfl⟩)

end

section
variable {s : State} {side : Side} (hs : Settled s)
include hs

theorem ts2_goes (h : s.m.barState side = 1) (h2 : (s.m.barEnd side).ts2 = true) (hl : (s.m.barEnd side).lanes = 15) :
    Goes (.ts2Received side) s (fun m => m.barState side = 2 ∧ (m.barEnd side).txSeq = 0 ∧ (m.barEnd side).rxSeq = 0 ∧
      (m.barEnd side).replay = [] ∧ (m.barEnd side).queue = [(6, ⟨2, helloPayload side s.m⟩)]) := by
  obtain ⟨hend, hsig, -, -⟩ := helloReached_does side s.m
  have hst : (helloReached side s.m).barState side = 2 := congrArg BarEnd.st hend
  have he : ts2Effect side s.m = linkQueue side 2 (helloPayload side s.m) (helloReached side s.m) := by
    rw [← helloPayload_reached]
    exact if_pos ⟨h, h2, hl⟩
  rw [linkQueue_hello hst] at he
  refine goes_quiet (f := ts2Effect side) hs rfl he ((signals_updEnd ..).trans hsig) ?_
  simp [Mach.barState, hend]

/-! ## Upkeep -/

theorem linkDue_goes (h : s.m.barState side = 2 ∨ s.m.barState side = 3) (hu : urgent s.m side = false) :
    Goes (.linkDue side) s (fun m => (m.barEnd side).nak = false ∧ (m.barEnd side).due = false ∧
      (m.barEnd side).wire = (s.m.barEnd side).wire ++ [frameBytes ⟨1, toLe 2 (s.m.barEnd side).rxSeq ++
        toLe 1 (boolNat (s.m.barEnd side).nak +
          (if side = .field then 2 * boolNat s.m.keepHalted + 4 * boolNat s.m.safe else 0)) ++ [0]⟩ (s.m.barEnd side).txSeq]) := by
  have he : linkDueEffect side s.m = linkStatus side s.m :=
    (if_neg (by omega)).trans (if_neg (by simp [hu]))
  exact goes_quiet (f := linkDueEffect side) hs rfl he (signals_updEnd ..) ⟨by simp [linkStatus], by simp [linkStatus], by simp [linkStatus]⟩

theorem linkDue_waits (h : s.m.barState side = 2 ∨ s.m.barState side = 3) (hu : urgent s.m side = true) :
    To (.linkDue side) s (s.m.updEnd side (fun e => { e with due := true })) := by
  have he : linkDueEffect side s.m = s.m.updEnd side (fun e => { e with due := true }) :=
    (if_neg (by omega)).trans (if_pos hu)
  refine to_of_quiet (f := linkDueEffect side) rfl hs he ⟨?_, ?_⟩ <;> cases side <;> rfl

theorem replayTimeout_goes (h : s.m.barState side = 2 ∨ s.m.barState side = 3) (hr : (s.m.barEnd side).replay ≠ []) :
    Goes (.replayTimeout side) s (fun m => (m.barEnd side).replay = (s.m.barEnd side).replay ∧
      (m.barEnd side).resend = (s.m.barEnd side).replay ∧ (m.barEnd side).wire = (s.m.barEnd side).wire) := by
  have he : replayTimeoutEffect side s.m = linkResend side s.m := if_pos ⟨h, by simpa using hr⟩
  exact goes_quiet (f := replayTimeoutEffect side) hs rfl he (signals_updEnd ..) (by simp [linkResend])

end

/-- A message that is to be sent again leaves, and is counted. -/
theorem linkAgain_does {side : Side} {m : Mach} {q : Nat × Msg} {rest : List (Nat × Msg)} (h : (m.barEnd side).resend = q :: rest) :
    ((linkAgain side m).barEnd side).wire = (m.barEnd side).wire ++ [frameBytes q.2 q.1] ∧
    ((linkAgain side m).barEnd side).resend = rest ∧ ((linkAgain side m).barEnd side).replay = (m.barEnd side).replay ∧
    (linkAgain side m).rd (cntRetx side) = min 0xFFFFFFFF (m.rd (cntRetx side) + 1) := by
  have heq : linkAgain side m =
      (m.updEnd side (fun e => { e with resend := rest, wire := e.wire ++ [frameBytes q.2 q.1] })).inc (cntRetx side) := by
    unfold linkAgain
    rw [h]
  rw [heq]
  refine ⟨by simp, by simp, by simp, ?_⟩
  rw [rd_inc_same, updEnd_rd]

/-! ## A LINK in LINKED -/

section
variable {side : Side} {m : Mach}

theorem linkAck_keeps (side : Side) (ack : Nat) (m : Mach) : (linkAck side ack m).barState side = m.barState side ∧
    (linkAck side ack m).signals = m.signals := by
  unfold linkAck
  extract_lets l waits kept
  split_ifs
  · exact ⟨rfl, rfl⟩
  · exact ⟨by simp [Mach.barState], signals_updEnd ..⟩

theorem linkContent_keeps (side : Side) (seq : Nat) (p : List Byte) (m : Mach) :
    (linkContent side seq p m).barState side = m.barState side ∧ (linkContent side seq p m).signals = m.signals := by
  unfold linkContent
  extract_lets flags m1 m2 m3 bar
  have h1 : m1.barState side = m.barState side ∧ m1.signals = m.signals := linkAck_keeps ..
  have h2 : m2.barState side = m1.barState side ∧ m2.signals = m1.signals := by
    unfold m2 linkResend
    split_ifs
    · exact ⟨by simp [Mach.barState], signals_updEnd ..⟩
    · exact ⟨rfl, rfl⟩
  have h3 : m3.barState side = m2.barState side ∧ m3.signals = m2.signals := by
    unfold m3
    split_ifs
    · exact ⟨rfl, rfl⟩
    · exact ⟨by simp [Mach.barState], signals_updEnd ..⟩
  have h4 : m3.barState side = m.barState side ∧ m3.signals = m.signals :=
    ⟨h3.1.trans (h2.1.trans h1.1), h3.2.trans (h2.2.trans h1.2)⟩
  split_ifs
  · cases side <;> exact h4
  · exact h4

theorem barTryLink_linked (h : m.barState side = 3) : barTryLink side m = m := if_neg (by omega)

end

theorem link_to {s : State} {side : Side} {f : LinkFrame} {p : List Byte} {m : Mach} (hs : Settled s) (ha : Arrives side 1 p f s m)
    (h : m.barState side = 3) : To (.link side f) s (linkContent side (fieldAt 2 2 f.bytes) p m) := by
  obtain ⟨hst, hsig⟩ := linkContent_keeps side (fieldAt 2 2 f.bytes) p m
  obtain ⟨hal, hno⟩ := settled_of_arrives hs ha
  have hstay : barTryLink side (linkContent side (fieldAt 2 2 f.bytes) p m) = linkContent side (fieldAt 2 2 f.bytes) p m :=
    barTryLink_linked (hst.trans h)
  have hto := to_message (c := .link side f) (act := fun p m => barTryLink side (linkContent side (fieldAt 2 2 f.bytes) p m)) rfl ha
  simp only [hstay] at hto
  exact hto ((congrArg (·.2) hsig :).trans hal) ((congrArg (·.1) hsig :).trans hno)

end Sys2Proof.Machine

/-! # O29, second part: HELLO and the entry to LINKED (R417, R431, R439) -/

namespace Sys2Proof.Machine

section
variable {m : Mach}

@[simp] theorem linkQueue_st (side : Side) (typ : Nat) (p : List Byte) (m : Mach) (e : Side) :
    (linkQueue side typ p m).barState e = m.barState e := by
  unfold linkQueue
  split_ifs
  · cases side <;> cases e <;> rfl
  · rfl

theorem statusSync_st (m : Mach) (e : Side) : (statusSync m).barState e = m.barState e := by
  unfold statusSync
  extract_lets m1 c m2
  split_ifs
  · cases e <;> rfl
  · rw [linkQueue_st]
    cases e <;> rfl

theorem sendRestore_keeps (m : Mach) : (sendRestore m).barState .field = m.barState .field ∧ (sendRestore m).signals = m.signals ∧
    ∀ o : Obj, (sendRestore m).rd o = m.rd o := by
  obtain ⟨hregs, hal, hno⟩ := sendRestore_fields m
  refine ⟨?_, ?_, fun o => by rw [Mach.rd, hregs, Mach.rd]⟩
  · unfold sendRestore
    split <;> exact each_keeps (g := (Mach.barState · .field)) (fun p m => linkQueue_st .field 14 p m .field) _ m
  · rw [Mach.signals, hal, hno, Mach.signals]

/-- Loading a field image begins: what it leaves. -/
theorem fwStart_keeps (m : Mach) : (fwStart m).signals = m.signals ∧ (∀ e, (fwStart m).barState e = m.barState e) ∧
    ((fwStart m).bar.helloVer = m.bar.helloVer ∧ (fwStart m).bar.calLeft = m.bar.calLeft ∧ (fwStart m).bar.adopted = m.bar.adopted) ∧
    ∀ o : Obj, o.key ≠ R.PWR_H_BOOT_STAT.key → (fwStart m).rd o = m.rd o := by
  unfold fwStart
  extract_lets p m1 bar
  have h1 : m1.bar = m.bar ∧ m1.signals = m.signals := ⟨rfl, signals_wr ..⟩
  have hrd (o : Obj) (h : o.key ≠ R.PWR_H_BOOT_STAT.key) : m1.rd o = m.rd o := rd_wr_ne h ..
  split_ifs
  · exact ⟨h1.2, fun e => by cases e <;> rfl, ⟨rfl, rfl, rfl⟩, hrd⟩
  · exact ⟨h1.2, fun e => by cases e <;> rfl, ⟨rfl, rfl, rfl⟩, hrd⟩

/-- The machine at the entry to LINKED, before its entry actions. -/
def linkedReached (side : Side) (m : Mach) : Mach := barRaise side 0 (barEnter side 3 m)

theorem linkedReached_does (side : Side) (m : Mach) : (linkedReached side m).barState side = 3 ∧
    bit 0 ((linkedReached side m).rd (if side = .host then R.BAR_H_EVT else R.BAR_F_EVT)) = true ∧
    (linkedReached side m).signals = m.signals ∧
    ((linkedReached side m).bar.early = m.bar.early ∧ (linkedReached side m).bar.helloVer = m.bar.helloVer) := by
  refine ⟨?_, ?_, by simp [linkedReached], ?_⟩
  · rw [Mach.barState, linkedReached, barRaise_end, barEnter_end]
  · cases side
    · exact barRaise_host_bit ..
    · exact barRaise_field_bit ..
  · cases side <;> simp [linkedReached, barEnter, Mach.updEnd]

/-- What the host takes over at LINKED from a SAFE_STATUS that came before. -/
def hostAdopts (m : Mach) : Mach :=
  match m.bar.early with
  | some (a, b) => adopt a b m
  | none => { m with bar := { m.bar with adopted := false } }

theorem hostAdopts_does (m : Mach) : ((hostAdopts m).bar.h = m.bar.h ∧ (hostAdopts m).bar.helloVer = m.bar.helloVer) ∧
    (hostAdopts m).signals = m.signals ∧ (hostAdopts m).rd R.BAR_H_EVT = m.rd R.BAR_H_EVT ∧
    (∀ a c : Nat, m.bar.early = some (a, c) → (hostAdopts m).bar.adopted = true ∧ (hostAdopts m).rd R.BAR_H_SAFE_CNT_A = a ∧
      (hostAdopts m).rd R.BAR_H_SAFE_CNT_B = c) ∧
    (m.bar.early = none → (hostAdopts m).bar.adopted = false) := by
  unfold hostAdopts
  split
  next a b h =>
    refine ⟨⟨rfl, rfl⟩, ?_, ?_, fun a' c' h' => ?_, fun h' => absurd (h.symm.trans h') (by simp)⟩
    · simp [adopt, Mach.signals]
    · exact (rd_wr_ne (by decide) ..).trans (rd_wr_ne (by decide) ..)
    · obtain ⟨rfl, rfl⟩ : a = a' ∧ b = c' := by simpa [h] using h'
      exact ⟨rfl, (rd_wr_ne (by decide) ..).trans (rd_wr_same ..), rd_wr_same ..⟩
  next h => exact ⟨⟨rfl, rfl⟩, rfl, rfl, fun a c h' => absurd (h.symm.trans h') (by simp), fun _ => rfl⟩

/-- LINKED at the host: calibration, the counters of an early SAFE_STATUS, and a load where the field has no image. -/
theorem barLinked_host (m : Mach) : (barLinked .host m).barState .host = 3 ∧ bit 0 ((barLinked .host m).rd R.BAR_H_EVT) = true ∧
    (barLinked .host m).signals = m.signals ∧ (barLinked .host m).bar.helloVer = m.bar.helloVer ∧ (barLinked .host m).bar.calLeft = 64 ∧
    (∀ a c : Nat, m.bar.early = some (a, c) → (barLinked .host m).bar.adopted = true ∧
      (barLinked .host m).rd R.BAR_H_SAFE_CNT_A = a ∧ (barLinked .host m).rd R.BAR_H_SAFE_CNT_B = c) ∧
    (m.bar.early = none → (barLinked .host m).bar.adopted = false) := by
  obtain ⟨hst, hevt, hsig, hearly, hver⟩ := linkedReached_does .host m
  obtain ⟨⟨hh, hver2⟩, hsig2, hevt2, hsome, hnone⟩ := hostAdopts_does (linkedReached .host m)
  have hst2 : (hostAdopts (linkedReached .host m)).barState .host = 3 := (congrArg BarEnd.st hh :).trans hst
  have heq : barLinked .host m =
      (if (calBegun (hostAdopts (linkedReached .host m))).bar.helloVer = 0 then
        fwStart { calBegun (hostAdopts (linkedReached .host m)) with
          bar := { (calBegun (hostAdopts (linkedReached .host m))).bar with fwOut := none } }
      else calBegun (hostAdopts (linkedReached .host m))) := by
    rw [← calStartEffect_linked (by rw [Mach.linked, hst2]; rfl)]
    rfl
  rw [heq]
  rw [hearly] at hsome hnone
  generalize hostAdopts (linkedReached .host m) = n at *
  split_ifs
  · obtain ⟨ksig, kst, ⟨kver, kcal, kad⟩, krd⟩ := fwStart_keeps { calBegun n with bar := { (calBegun n).bar with fwOut := none } }
    refine ⟨(kst .host).trans hst2, ?_, ksig.trans (hsig2.trans hsig), kver.trans (hver2.trans hver), kcal, fun a c h => ?_,
      fun h => kad.trans (hnone h)⟩
    · rw [krd _ (by decide)]
      exact (congrArg (bit 0) hevt2 :).trans hevt
    · obtain ⟨h1, h2, h3⟩ := hsome a c h
      exact ⟨kad.trans h1, (krd _ (by decide)).trans h2, (krd _ (by decide)).trans h3⟩
  · exact ⟨hst2, (congrArg (bit 0) hevt2 :).trans hevt, hsig2.trans hsig, hver2.trans hver, rfl, hsome, hnone⟩

/-- LINKED at the field: the restored values and SAFE_STATUS go to the host. -/
theorem barLinked_field (m : Mach) : (barLinked .field m).barState .field = 3 ∧ bit 0 ((barLinked .field m).rd R.BAR_F_EVT) = true ∧
    (barLinked .field m).signals = m.signals := by
  obtain ⟨hst, hevt, hsig, -⟩ := linkedReached_does .field m
  obtain ⟨kst, ksig, krd⟩ := sendRestore_keeps (linkedReached .field m)
  have heq : barLinked .field m = statusSync { sendRestore (linkedReached .field m) with
      bar := { (sendRestore (linkedReached .field m)).bar with status := none } } := rfl
  rw [heq, statusSync_st, statusSync_rd, signals_statusSync]
  exact ⟨kst.trans hst, (congrArg (bit 0) (krd _) :).trans hevt, ksig.trans hsig⟩

end

/-! ## HELLO's content -/

section
variable {side : Side} {p : List Byte} {m : Mach}

/-- The end that has heard HELLO, and at the host the version it carries. -/
def helloHeard (side : Side) (p : List Byte) (m : Mach) : Mach :=
  let m1 := m.updEnd side (fun e => { e with gotHello := true })
  if side = .host then { m1 with bar := { m1.bar with helloVer := fieldAt 8 4 p } }.wr R.DIC_FIELD_FW_VER (fieldAt 8 4 p) else m1

theorem helloHeard_does (side : Side) (p : List Byte) (m : Mach) :
    (helloHeard side p m).barEnd side = { m.barEnd side with gotHello := true } ∧
    (helloHeard side p m).signals = m.signals ∧
    (side = .host → (helloHeard side p m).bar.helloVer = fieldAt 8 4 p ∧ (helloHeard side p m).bar.early = m.bar.early) := by
  cases side
  · exact ⟨rfl, signals_wr .., fun _ => ⟨rfl, rfl⟩⟩
  · exact ⟨rfl, rfl, fun h => nomatch h⟩

theorem helloContent_linked (hst : m.barState side = 2) (ha : helloAcked m side = true) :
    helloContent side p m = barLinked side (helloHeard side p m) := by
  obtain ⟨hend, -, -⟩ := helloHeard_does side p m
  have hack : helloAcked (helloHeard side p m) side = true := by simpa only [helloAcked, hend] using ha
  exact if_pos ⟨(congrArg BarEnd.st hend :).trans hst, congrArg BarEnd.gotHello hend, hack⟩

theorem helloContent_waits (ha : helloAcked m side = false) : helloContent side p m = helloHeard side p m := by
  obtain ⟨hend, -, -⟩ := helloHeard_does side p m
  refine if_neg fun ⟨_, _, h⟩ => ?_
  have : helloAcked (helloHeard side p m) side = helloAcked m side := by simp only [helloAcked, hend]
  exact absurd (ha.symm.trans (this.symm.trans h)) (by decide)

end

section
variable {s : State} {side : Side} {f : LinkFrame} {p : List Byte} {m : Mach} (hs : Settled s)
include hs

/-- A message whose content leaves nothing to act on. -/
theorem goes_message {c : Instr} {typ : Nat} {act : List Byte → Mach → Mach} {n : Mach} {P : Mach → Prop}
    (hc : exec c s = done (linkMessage side typ f act) s) (ha : Arrives side typ p f s m) (hn : act p m = n)
    (hq : n.signals = m.signals) (hP : P n) : Goes c s P := by
  subst hn
  obtain ⟨hal, hno⟩ := settled_of_arrives hs ha
  exact .of_to (to_message hc ha ((congrArg (·.2) hq :).trans hal) ((congrArg (·.1) hq :).trans hno)) hP

theorem hello_linked {evt : Obj} (he : evt = if side = .host then R.BAR_H_EVT else R.BAR_F_EVT) (ha : Arrives side 2 p f s m)
    (hst : m.barState side = 2) (hk : helloAcked m side = true) : Goes (.hello side f) s (fun t => t.barState side = 3 ∧
      bit 0 (t.rd evt) = true ∧ (side = .host → t.bar.helloVer = fieldAt 8 4 p ∧ t.bar.calLeft = 64 ∧
        (∀ a c : Nat, m.bar.early = some (a, c) → a < 2 ^ 16 → c < 2 ^ 16 → t.bar.adopted = true ∧
          t.rd R.BAR_H_SAFE_CNT_A = a ∧ t.rd R.BAR_H_SAFE_CNT_B = c) ∧
        (m.bar.early = none → t.bar.adopted = false))) := by
  subst he
  obtain ⟨-, hsig, hhost⟩ := helloHeard_does side p m
  refine goes_message (act := helloContent side) hs rfl ha (helloContent_linked hst hk) ?_ ?_
  · cases side
    · exact (barLinked_host _).2.2.1.trans hsig
    · exact (barLinked_field _).2.2.trans hsig
  · cases side
    · obtain ⟨h1, h2, -, h3, h4, h5, h6⟩ := barLinked_host (helloHeard .host p m)
      obtain ⟨hver, hearly⟩ := hhost rfl
      exact ⟨h1, h2, fun _ => ⟨h3.trans hver, h4, fun a c h _ _ => h5 a c (hearly.trans h), fun h => h6 (hearly.trans h)⟩⟩
    · obtain ⟨h1, h2, -⟩ := barLinked_field (helloHeard .field p m)
      exact ⟨h1, h2, fun h => nomatch h⟩

theorem hello_waits (ha : Arrives side 2 p f s m) (hst : m.barState side = 2) (hk : helloAcked m side = false) :
    Goes (.hello side f) s (fun t => t.barState side = 2 ∧ (t.barEnd side).gotHello = true) := by
  obtain ⟨hend, hsig, -⟩ := helloHeard_does side p m
  exact goes_message (act := helloContent side) hs rfl ha (helloContent_waits hk) hsig
    ⟨(congrArg BarEnd.st hend :).trans hst, congrArg BarEnd.gotHello hend⟩

end

end Sys2Proof.Machine

/-! # O29, last part: QUIET, loss and the controlled stop (R434 to R437) -/

namespace Sys2Proof.Machine

/-! ## What the entry of the safe state rests on -/

/-- The objects, cores, clocks and latches that a cause's record of the safe state speaks of. -/
def Mach.stance (m : Mach) := ((m.rd R.SAF_REACT, m.rd R.SAF_ACTIVE, m.rd R.SAF_LATCHED, m.rd R.SAF_CNT_ENTRY), m.cores, m.tb,
  m.safe, m.saf.relAt)

section
variable {m n : Mach} {k : Nat}

theorem stance_of_keel (h : n.keel = m.keel) : n.stance = m.stance := by
  obtain ⟨hrd, -, hcores, htb, hsafe, hrel, -⟩ := eq_of_keel h
  simp only [Mach.stance, hcores, htb, hsafe, hrel]
  rw [hrd _ (by decide), hrd _ (by decide), hrd _ (by decide), hrd _ (by decide)]

theorem stance_wr {o : Obj} (h : Aboard o.key = false ∨ o.key < 0x130000) (v : Nat) (m : Mach) : (m.wr o v).stance = m.stance := by
  have hne : ∀ p ∈ [R.SAF_REACT, R.SAF_ACTIVE, R.SAF_LATCHED, R.SAF_CNT_ENTRY], p.key ≠ o.key := by
    intro p hp he
    have hfar : ∀ p ∈ [R.SAF_REACT, R.SAF_ACTIVE, R.SAF_LATCHED, R.SAF_CNT_ENTRY], Aboard p.key = true ∧ 0x130000 ≤ p.key := by decide
    obtain ⟨h1, h2⟩ := hfar p hp
    rw [he] at h1 h2
    obtain h | h := h
    · exact absurd (h.symm.trans h1) (by decide)
    · omega
  simp only [Mach.stance]
  rw [rd_wr_ne (hne _ (by decide)), rd_wr_ne (hne _ (by decide)), rd_wr_ne (hne _ (by decide)), rd_wr_ne (hne _ (by decide))]
  rfl

theorem stance_updEnd (side : Side) (f : BarEnd → BarEnd) (m : Mach) : (m.updEnd side f).stance = m.stance := by cases side <;> rfl

theorem trips_of_stance (h : n.stance = m.stance) (ht : Trips k m) : Trips k n := by
  simp only [Mach.stance, Prod.mk.injEq] at h
  obtain ⟨⟨hreact, -, -, -⟩, -, htb, hsafe, hrel⟩ := h
  obtain ⟨h1, h2, h3⟩ := ht
  refine ⟨hsafe.trans h1, ?_, ?_⟩
  · rwa [causeSelected, hreact]
  · rwa [releasedNow, hrel, Mach.now, htb]

theorem inSafe_of_stance (h : n.stance = m.stance) (ha : n.alarms = [k]) (hn : n.notes = []) (ht : Trips k m)
    (hk : k ≠ 0 ∧ k ≠ 1 ∧ k ≠ 7) : InSafe k m (settle n) := by
  have hin := inSafe_settle ha hn (trips_of_stance h ht) hk
  simp only [Mach.stance, Prod.mk.injEq] at h
  obtain ⟨⟨-, hact, hlat, hcnt⟩, hcores, htb, -, -⟩ := h
  unfold InSafe Mach.now at hin ⊢
  rwa [show n.core 2 = m.core 2 by rw [Mach.core, hcores, Mach.core], htb, hact, hlat, hcnt] at hin

theorem updEnd_updEnd (side : Side) (f g : BarEnd → BarEnd) (m : Mach) :
    (m.updEnd side f).updEnd side g = m.updEnd side (fun e => g (f e)) := by cases side <;> rfl

/-- The end at which a message was accepted has heard it; nothing else changed. -/
theorem accepted_updEnd {s : Side} {f : LinkFrame} {g : Msg} (h : linkAccept s f m = (some g, n)) : ∃ F, n = m.updEnd s F := by
  unfold linkAccept at h
  dsimp only at h
  split_ifs at h <;> simp only [Prod.mk.injEq, reduceCtorEq, false_and] at h <;> obtain ⟨-, rfl⟩ := h
  · exact ⟨_, rfl⟩
  · exact ⟨_, updEnd_updEnd ..⟩

end

/-! ## Leaving the link -/

section
variable {side : Side} {m : Mach}

/-- The end enters a state and gives up what it had to send. -/
def leftFor (st : Nat) (side : Side) (m : Mach) : Mach := barDrop side (barEnter side st m)

theorem cntFwdLost_far (side : Side) : Aboard (cntFwdLost side).key = false := by cases side <;> decide

theorem stateObj_low (side : Side) : (stateObj side).key < 0x130000 := by cases side <;> decide

theorem incBy_wr (o : Obj) (n : Nat) (m : Mach) : m.incBy o n = m ∨ ∃ v l, m.incBy o n = { m.wr o v with incNow := l } := by
  by_cases h : n = 0
  · exact .inl (if_pos h)
  · exact .inr ⟨_, _, if_neg h⟩

theorem incBy_rd {o p : Obj} (h : p.key ≠ o.key) (n : Nat) (m : Mach) : (m.incBy o n).rd p = m.rd p := by
  obtain he | ⟨v, l, he⟩ := incBy_wr o n m <;> rw [he]
  exact rd_wr_ne h ..

theorem stance_incBy {o : Obj} (h : Aboard o.key = false) (n : Nat) (m : Mach) : (m.incBy o n).stance = m.stance := by
  obtain he | ⟨v, l, he⟩ := incBy_wr o n m
  · rw [he]
  · rw [he]
    exact stance_wr (.inl h) v m

/-- The end in its next state with nothing left to send. -/
def emptied (st : Nat) (side : Side) (m : Mach) : Mach :=
  (barEnter side st m).updEnd side (fun e => { e with evts := [], queue := [], replay := [], resend := [], due := false })

theorem emptied_does (st : Nat) (side : Side) (m : Mach) :
    (emptied st side m).barEnd side =
      { m.barEnd side with st := st, evts := [], queue := [], replay := [], resend := [], due := false } ∧
    (emptied st side m).signals = m.signals ∧ (emptied st side m).stance = m.stance ∧
    ((emptied st side m).bar.cstop = m.bar.cstop ∧ (emptied st side m).bar.fwds = m.bar.fwds ∧ (emptied st side m).dic = m.dic) ∧
    ∀ o : Obj, o.key ≠ (stateObj side).key → (emptied st side m).rd o = m.rd o := by
  refine ⟨?_, by simp [emptied], ?_, by cases side <;> exact ⟨rfl, rfl, rfl⟩, fun o ho => (updEnd_rd ..).trans (barEnter_rd ho ..)⟩
  · rw [emptied, updEnd_same, barEnter_end]
  · rw [emptied, stance_updEnd, barEnter, stance_wr (.inr (stateObj_low side)), stance_updEnd]

theorem leftFor_counts (st : Nat) (side : Side) (m : Mach) : ∃ n, leftFor st side m = (emptied st side m).incBy (cntFwdLost side) n :=
  ⟨_, rfl⟩

theorem leftFor_does (st : Nat) (side : Side) (m : Mach) :
    (leftFor st side m).barEnd side =
      { m.barEnd side with st := st, evts := [], queue := [], replay := [], resend := [], due := false } ∧
    (leftFor st side m).signals = m.signals ∧ (leftFor st side m).stance = m.stance ∧
    ((leftFor st side m).bar.cstop = m.bar.cstop ∧ (leftFor st side m).bar.fwds = m.bar.fwds ∧ (leftFor st side m).dic = m.dic) ∧
    ∀ o : Obj, Aboard o.key = true → o.key ≠ (stateObj side).key → (leftFor st side m).rd o = m.rd o := by
  obtain ⟨n, he⟩ := leftFor_counts st side m
  obtain ⟨hend, hsig, hstance, hrest, hrd⟩ := emptied_does st side m
  have hfar := cntFwdLost_far side
  have hcount (o : Obj) (ho : Aboard o.key = true) : ((emptied st side m).incBy (cntFwdLost side) n).rd o = (emptied st side m).rd o :=
    incBy_rd (fun h => by rw [h, hfar] at ho; exact absurd ho (by decide)) ..
  have hst := stance_incBy hfar n (emptied st side m)
  obtain hw | ⟨v, l, hw⟩ := incBy_wr (cntFwdLost side) n (emptied st side m) <;> rw [he] <;>
    refine ⟨?_, ?_, hst.trans hstance, ?_, fun o ho hne => (hcount o ho).trans (hrd o hne)⟩ <;> rw [hw]
  · exact hend
  · exact hsig
  · exact hrest
  · cases side <;> exact hend
  · exact hsig
  · exact hrest

end

end Sys2Proof.Machine

/-! ## QUIET, loss and the controlled stop (R434 to R437) -/

namespace Sys2Proof.Machine

section
variable {m n : Mach} {k : Nat}

/-- The entry of the safe state leaves the link and the fragments at the field as they are. -/
theorem settle_trips_link (ha : n.alarms = [k]) (hn : n.notes = []) (ht : Trips k n) (hk : k ≠ 0 ∧ k ≠ 1 ∧ k ≠ 7) :
    (settle n).barState .field = n.barState .field ∧ (settle n).bar.parts = n.bar.parts := by
  have hsafe (f : Mach → Nat × List (Nat × Part)) (hf : ∀ i : Mach, f i.aside = f i)
      (hc : ∀ (i : Mach) j l, f (i.class7 j l) = f i) (hs : f (safeAside k n) = f n.aside) : f (settle n) = f n :=
    (settle_trips_field ha hn ht hk hf hc).trans (hs.trans (hf n))
  have h := hsafe (fun i => (i.barState .field, i.bar.parts)) (fun _ => rfl) (fun _ _ _ => rfl)
    (by unfold safeAside announced; split_ifs <;> rfl)
  exact Prod.mk.inj h

theorem alarm_first (ha : n.signals = ([], [])) : (n.alarm k).alarms = [k] ∧ (n.alarm k).notes = [] := by
  obtain ⟨h1, h2⟩ : n.notes = [] ∧ n.alarms = [] := Prod.mk.inj ha
  exact ⟨by rw [Mach.alarm, h2]; rfl, h1⟩

/-! ## An end that has left the link -/

/-- The event register of an end. -/
def evtObj (side : Side) : Obj := if side = .host then R.BAR_H_EVT else R.BAR_F_EVT

theorem evtObj_low (side : Side) : (evtObj side).key < 0x130000 ∧ (evtObj side).key ≠ (stateObj side).key := by cases side <;> decide

theorem barRaise_rd {o : Obj} {side : Side} (h : o.key ≠ (evtObj side).key) (b : Nat) (m : Mach) : (barRaise side b m).rd o = m.rd o := by
  cases side
  · exact barRaise_host_rd h ..
  · exact barRaise_field_rd h ..

theorem barRaise_bit (side : Side) (b : Nat) (m : Mach) : bit b ((barRaise side b m).rd (evtObj side)) = true := by
  cases side
  · exact barRaise_host_bit ..
  · exact barRaise_field_bit ..

theorem stance_of_fields (h : n.cores = m.cores ∧ n.tb = m.tb ∧ n.saf = m.saf)
    (hrd : ∀ p ∈ [R.SAF_REACT, R.SAF_ACTIVE, R.SAF_LATCHED, R.SAF_CNT_ENTRY], n.rd p = m.rd p) : n.stance = m.stance := by
  obtain ⟨hcores, htb, hsaf⟩ := h
  simp only [Mach.stance, hcores, htb, hsaf, Mach.safe]
  rw [hrd _ (by decide), hrd _ (by decide), hrd _ (by decide), hrd _ (by decide)]

theorem stance_raise {evt : Obj} (h : evt.key < 0x130000) (en : Obj) (b src : Nat) (m : Mach) :
    (m.raise evt en b src).stance = m.stance := by
  refine stance_of_fields (by simp) fun p hp => rd_raise fun he => ?_
  have hfar : ∀ p ∈ [R.SAF_REACT, R.SAF_ACTIVE, R.SAF_LATCHED, R.SAF_CNT_ENTRY], 0x130000 ≤ p.key := by decide
  have := hfar p hp
  omega

theorem stance_barRaise (side : Side) (b : Nat) (m : Mach) : (barRaise side b m).stance = m.stance := by
  cases side <;> exact stance_raise (by decide) ..

end

/-! ## QUIET -/

section
variable {side : Side} {p : List Byte} {m n : Mach}

/-- The end in QUIET with its event raised. -/
def quietReached (side : Side) (m : Mach) : Mach := barRaise side 2 (leftFor 5 side m)

theorem quietReached_does (side : Side) (m : Mach) : ((quietReached side m).barState side = 5 ∧ ((quietReached side m).barEnd side).queue = []) ∧
    bit 2 ((quietReached side m).rd (evtObj side)) = true ∧ (quietReached side m).signals = m.signals ∧
    (quietReached side m).stance = m.stance ∧
    ∀ o : Obj, Aboard o.key = true → o.key ≠ (stateObj side).key → o.key ≠ (evtObj side).key → (quietReached side m).rd o = m.rd o := by
  obtain ⟨hend, hsig, hstance, -, hrd⟩ := leftFor_does 5 side m
  refine ⟨?_, barRaise_bit .., (signals_barRaise ..).trans hsig, (stance_barRaise ..).trans hstance,
    fun o h1 h2 h3 => (barRaise_rd h3 ..).trans (hrd o h1 h2)⟩
  rw [Mach.barState, quietReached, barRaise_end, hend]
  exact ⟨rfl, rfl⟩

/-- What machines of one keel share at an end. -/
theorem end_of_keel (h : n.keel = m.keel) (e : Side) : n.barEnd e = m.barEnd e := by
  obtain ⟨-, ⟨hh, hf, -⟩, -⟩ := eq_of_keel h
  cases e
  · exact hh
  · exact hf

/-- The other side's state is noted at the host. -/
def stateHeard (side : Side) (p : List Byte) (m : Mach) : Mach :=
  if side = .host then { m with bar := { m.bar with peerState := fieldAt 0 1 p } } else m

theorem stateHeard_does (side : Side) (p : List Byte) (m : Mach) : (stateHeard side p m).keel = m.keel ∧
    (side = .host → (stateHeard side p m).bar.peerState = fieldAt 0 1 p) ∧ ∀ o : Obj, (stateHeard side p m).rd o = m.rd o := by
  cases side
  · exact ⟨rfl, fun _ => rfl, fun _ => rfl⟩
  · exact ⟨rfl, (nomatch ·), fun _ => rfl⟩

theorem linked_of_keel (h : n.keel = m.keel) (e : Side) : n.linked e = m.linked e := by
  rw [Mach.linked, Mach.barState, end_of_keel h, Mach.linked, Mach.barState]

theorem stateContent_stays (h : fieldAt 1 1 p ≠ 1 ∨ m.linked side = false) : stateContent side p m = stateHeard side p m := by
  obtain ⟨hk, -⟩ := stateHeard_does side p m
  refine if_neg fun ⟨h1, h2⟩ => ?_
  have h2 : (stateHeard side p m).linked side = true := h2
  rw [linked_of_keel hk] at h2
  exact h.elim (absurd h1 ·) (fun h => absurd (h.symm.trans h2) (by decide))

theorem stateContent_host (h1 : fieldAt 1 1 p = 1) (h2 : m.linked .host = true) :
    stateContent .host p m = persDrop (storeFail (calStop (quietReached .host (stateHeard .host p m)))) := if_pos ⟨h1, h2⟩

theorem stateContent_field (h1 : fieldAt 1 1 p = 1) (h2 : m.linked .field = true) : stateContent .field p m =
    if (storeDrop (quietReached .field m)).rd R.BAR_F_QUIET_REACT = 1 then lossReact (storeDrop (quietReached .field m))
    else storeDrop (quietReached .field m) := if_pos ⟨h1, h2⟩

/-- Whatever keeps the keel of an end in QUIET is in QUIET with its event raised and nothing to send. -/
theorem quiet_of_keel (h : n.keel = (quietReached side m).keel) : n.barState side = 5 ∧ bit 2 (n.rd (evtObj side)) = true ∧
    (n.barEnd side).queue = [] ∧ n.safe = m.safe := by
  obtain ⟨⟨hst, hq⟩, hbit, -, hstance, -⟩ := quietReached_does side m
  obtain ⟨hrd, -, -, -, hsafe, -⟩ := eq_of_keel h
  refine ⟨?_, ?_, ?_, hsafe.trans (congrArg (·.2.2.2.1) hstance)⟩
  · rw [Mach.barState, end_of_keel h]
    exact hst
  · rw [hrd _ (by cases side <;> decide)]
    exact hbit
  · rw [end_of_keel h]
    exact hq

end

section
variable {s : State} {side : Side} {f : LinkFrame} {p : List Byte} {m : Mach}

theorem arrived_safe {typ : Nat} (ha : Arrives side typ p f s m) : m.stance = s.m.stance ∧ m.safe = s.m.safe := by
  obtain ⟨F, rfl⟩ := accepted_updEnd ha.1
  have h := stance_updEnd side F s.m
  exact ⟨h, congrArg (·.2.2.2.1) h⟩

/-- A message whose content leaves one cause to act on. -/
theorem goes_message_caused {c : Instr} {typ : Nat} {act : List Byte → Mach → Mach} {n : Mach} {P : Mach → Prop}
    (hc : exec c s = done (linkMessage side typ f act) s) (ha : Arrives side typ p f s m) (hn : act p m = n)
    (hP : P (settle n)) : Goes c s P := by
  obtain ⟨hacc, hent⟩ := ha
  refine ⟨{ s with m := settle n }, hc.trans ?_, rfl, hP⟩
  simp [done, linkMessage, hacc, hent, hn]

end

section
variable {s : State} {side : Side} {f : LinkFrame} {p : List Byte} {m : Mach} (hs : Settled s)
include hs

theorem state_stays (ha : Arrives side 3 p f s m) (h : fieldAt 1 1 p ≠ 1 ∨ m.linked side = false) :
    Goes (.state side f) s (fun t => t.barState side = m.barState side ∧ (side = .host → t.bar.peerState = fieldAt 0 1 p)) := by
  obtain ⟨hk, hpeer, -⟩ := stateHeard_does side p m
  refine goes_message (act := stateContent side) hs rfl ha (stateContent_stays h) (eq_of_keel hk).2.2.2.2.2.2 ⟨?_, hpeer⟩
  rw [Mach.barState, end_of_keel hk, Mach.barState]

theorem state_quiet (ha : Arrives side 3 p f s m) (h1 : fieldAt 1 1 p = 1) (h2 : m.linked side = true)
    (h3 : side = .host ∨ m.rd R.BAR_F_QUIET_REACT ≠ 1) : Goes (.state side f) s (fun t => t.barState side = 5 ∧
      bit 2 (t.rd (evtObj side)) = true ∧ (t.barEnd side).queue = [] ∧ t.safe = s.m.safe) := by
  obtain ⟨-, hsafe⟩ := arrived_safe ha
  cases side with
  | host =>
    obtain ⟨hk, -, -⟩ := stateHeard_does .host p m
    have hkeel : (persDrop (storeFail (calStop (quietReached .host (stateHeard .host p m))))).keel =
        (quietReached .host (stateHeard .host p m)).keel := by
      rw [keel_persDrop, keel_storeFail, keel_calStop]
    obtain ⟨q1, q2, q3, q4⟩ := quiet_of_keel hkeel
    refine goes_message (act := stateContent .host) hs rfl ha (stateContent_host h1 h2) ?_
      ⟨q1, q2, q3, q4.trans ((eq_of_keel hk).2.2.2.2.1.trans hsafe)⟩
    exact (eq_of_keel hkeel).2.2.2.2.2.2.trans ((quietReached_does ..).2.2.1.trans (eq_of_keel hk).2.2.2.2.2.2)
  | field =>
    have hreact := h3.resolve_left (by decide)
    have hkeel := keel_storeDrop (quietReached .field m)
    obtain ⟨-, -, hsig, -, hrd⟩ := quietReached_does .field m
    have hrd2 : (storeDrop (quietReached .field m)).rd R.BAR_F_QUIET_REACT = m.rd R.BAR_F_QUIET_REACT :=
      ((eq_of_keel hkeel).1 _ (by decide)).trans (hrd _ (by decide) (by decide) (by decide))
    obtain ⟨q1, q2, q3, q4⟩ := quiet_of_keel hkeel
    exact goes_message (act := stateContent .field) hs rfl ha ((stateContent_field h1 h2).trans (if_neg (hrd2 ▸ hreact)))
      ((eq_of_keel hkeel).2.2.2.2.2.2.trans hsig) ⟨q1, q2, q3, q4.trans hsafe⟩

theorem state_trips (ha : Arrives .field 3 p f s m) (h1 : fieldAt 1 1 p = 1) (h2 : m.linked .field = true)
    (h3 : m.rd R.BAR_F_QUIET_REACT = 1) (h4 : m.rd R.BAR_F_LOSS_REACT = 0) (ht : Trips 14 m) :
    Goes (.state .field f) s (fun t => t.barState .field = 5 ∧ InSafe 14 s.m t) := by
  obtain ⟨hstance, -⟩ := arrived_safe ha
  have hkeel := keel_storeDrop (quietReached .field m)
  obtain ⟨-, -, hsig, hst2, hrd⟩ := quietReached_does .field m
  have hrd2 (o : Obj) (h : Aboard o.key = true ∧ o.key ≠ R.BAR_F_STATE.key ∧ o.key ≠ R.BAR_F_EVT.key) :
      (storeDrop (quietReached .field m)).rd o = m.rd o :=
    ((eq_of_keel hkeel).1 _ h.1).trans (hrd _ h.1 h.2.1 h.2.2)
  have heq : stateContent .field p m = (storeDrop (quietReached .field m)).alarm 14 := by
    rw [stateContent_field h1 h2, if_pos ((hrd2 _ (by decide)).trans h3)]
    exact if_pos ((hrd2 _ (by decide)).trans h4)
  obtain ⟨hal, hno⟩ := settled_of_arrives hs ha
  obtain ⟨ca, cn⟩ := alarm_first (k := 14) (((eq_of_keel hkeel).2.2.2.2.2.2.trans hsig).trans (by rw [Mach.signals, hal, hno]))
  have hstanding : ((storeDrop (quietReached .field m)).alarm 14).stance = s.m.stance :=
    (stance_of_keel hkeel).trans (hst2.trans hstance)
  have htrip := trips_of_stance hstance.symm ht
  refine goes_message_caused (act := stateContent .field) rfl ha heq ⟨?_, inSafe_of_stance hstanding ca cn htrip (by decide)⟩
  rw [(settle_trips_link ca cn (trips_of_stance hstanding htrip) (by decide)).1]
  exact (quiet_of_keel hkeel).1

end

end Sys2Proof.Machine

/-! ## Loss and the controlled stop (R434, R436, R437) -/

namespace Sys2Proof.Machine

section
variable {side : Side} {m n : Mach}

theorem stance_inc {o : Obj} (h : o.key < 0x130000) (m : Mach) : (m.inc o).stance = m.stance := stance_wr (.inr h) _ m

/-- The end in LOST with the loss counted and its event raised. -/
def lossReached (side : Side) (m : Mach) : Mach := barRaise side 1 ((leftFor 4 side m).inc (cntLoss side))

theorem cntLoss_low (side : Side) : (cntLoss side).key < 0x130000 ∧ (cntLoss side).key ≠ (evtObj side).key ∧
    (cntLoss side).key ≠ (stateObj side).key ∧ Aboard (cntLoss side).key = true := by cases side <;> decide

theorem lossReached_does (side : Side) (m : Mach) : (lossReached side m).barState side = 4 ∧
    bit 1 ((lossReached side m).rd (evtObj side)) = true ∧
    (lossReached side m).rd (cntLoss side) = min 0xFFFFFFFF (m.rd (cntLoss side) + 1) ∧
    (lossReached side m).signals = m.signals ∧ (lossReached side m).stance = m.stance ∧
    ((lossReached side m).bar.cstop = m.bar.cstop ∧ (lossReached side m).bar.fwds = m.bar.fwds ∧ (lossReached side m).dic = m.dic) ∧
    ∀ o : Obj, Aboard o.key = true → o.key ≠ (stateObj side).key → o.key ≠ (evtObj side).key → o.key ≠ (cntLoss side).key →
      (lossReached side m).rd o = m.rd o := by
  obtain ⟨hend, hsig, hstance, ⟨hc, hf, hd⟩, hrd⟩ := leftFor_does 4 side m
  obtain ⟨hlow, hne, hst, hab⟩ := cntLoss_low side
  refine ⟨?_, barRaise_bit .., ?_, ?_, ?_, ?_, fun o h1 h2 h3 h4 => ?_⟩
  · rw [Mach.barState, lossReached, barRaise_end, inc_end, hend]
  · rw [lossReached, barRaise_rd hne, rd_inc_same, hrd _ hab hst]
  · rw [lossReached, signals_barRaise, signals_inc, hsig]
  · rw [lossReached, stance_barRaise, stance_inc hlow, hstance]
  · rw [lossReached]
    cases side <;> simpa [barRaise] using ⟨hc, hf, hd⟩
  · rw [lossReached, barRaise_rd h3, rd_inc_ne h4, hrd o h1 h2]

end

/-! ### The host gives up what it has under way -/

section
variable {m n : Mach}

/-- A request that no CAN FD controller made. -/
abbrev OffCan (a : Ask) : Prop := a.q.route ≠ .can0 ∧ a.q.route ≠ .can1

theorem forwardLost_waiting {x : Nat} {fw : Fwd} (h : OffCan fw.ask) (m : Mach) : (forwardLost x fw m).dic.waiting = m.dic.waiting ∧
    (forwardLost x fw m).dic.storeFor = m.dic.storeFor := by
  obtain ⟨_, _, _, _, _, hs⟩ := sent_dicDeliver h.1 h.2 (rspFrame fw.ask.op fw.ask.q (.error .unknown))
    (abortRecord fw.ask.q.route fw.ask.q.index.toNat fw.ask.q.sub.toNat Abort.unknown.code
      { m with bar := { m.bar with fwds := mapDel x m.bar.fwds } })
  simp [forwardLost, Machine.dicAnswer, hs]

theorem forwardsLost_does (h : ∀ e ∈ m.bar.fwds, OffCan e.2.ask) : (forwardsLost m).dic.waiting = m.dic.waiting ∧
    (forwardsLost m).dic.storeFor = m.dic.storeFor ∧ (forwardsLost m).bar.fwds = [] := by
  have hk {α : Type} (g : Mach → α) (hg : ∀ x fw, OffCan fw.ask → ∀ m, g (forwardLost x fw m) = g m) :
      g (m.each m.bar.fwds (fun e m => forwardLost e.1 e.2 m)) = g m :=
    each_keeps_of (fun e he m => hg e.1 e.2 (h e he) m) m
  exact ⟨hk (·.dic.waiting) fun _ _ h m => (forwardLost_waiting h m).1, hk (·.dic.storeFor) fun _ _ h m => (forwardLost_waiting h m).2, rfl⟩

theorem xfersLost_does (m : Mach) : (xfersLost m).bar = m.bar ∧ (xfersLost m).dic.storeFor = m.dic.storeFor := by
  have hx (h : Nat) (m : Mach) : (xferClose h m).bar = m.bar ∧ (xferClose h m).dic.storeFor = m.dic.storeFor := by
    unfold xferClose
    split
    · split_ifs <;> exact ⟨rfl, rfl⟩
    · exact ⟨rfl, rfl⟩
  exact ⟨each_keeps (g := Mach.bar) (fun h m => (hx h m).1) .., each_keeps (g := (·.dic.storeFor)) (fun h m => (hx h m).2) ..⟩

theorem storeFail_bar (h : ∀ a, m.dic.storeFor = .ask a → OffCan a) : (storeFail m).bar = m.bar := by
  unfold storeFail
  split_ifs
  · generalize hn : ((m.putBit R.DIC_PERS_STATUS 1 true).putBit R.DIC_PERS_STATUS 0 false).assertSrc 418 = n
    have hbar : n.bar = m.bar := by rw [← hn]; rfl
    have hfor : n.dic.storeFor = m.dic.storeFor := by rw [← hn]; rfl
    by_cases ha : ∃ a, n.dic.storeFor = .ask a
    · obtain ⟨a, ha⟩ := ha
      obtain ⟨h0, h1⟩ := h a (hfor.symm.trans ha)
      unfold storeAnswer
      simp only [ha]
      exact (dicAnswer_error_bar h0 h1 _).trans hbar
    · exact (storeAnswer_fields (not_exists.mp ha) _).1.trans hbar
  · rfl

theorem persDrop_fwds (m : Mach) : (persDrop m).bar.fwds = m.bar.fwds := by
  unfold persDrop
  split_ifs <;> rfl

theorem sessLog_bar (sub h : Nat) (r : Route) (fail : Bool) (m : Mach) : (sessLog sub h r fail m).bar = m.bar := by
  have hno : (routeNo r m).2.bar = m.bar := by
    unfold routeNo
    split_ifs <;> rfl
  unfold sessLog safLog safRaise
  dsimp only
  split_ifs <;> simp [hno]

theorem sessionsLost_does (m : Mach) : (sessionsLost m).bar = m.bar ∧ (sessionsLost m).saf.sess = [] := by
  have hs (h : Nat) (m : Mach) : (sessEnd h m).bar = m.bar := by
    unfold sessEnd
    split
    · split_ifs
      · exact sessLog_bar ..
      · rfl
    · rfl
  exact ⟨(each_keeps (g := Mach.bar) hs (m.saf.sess.map Sess.handle) m :), rfl⟩
end

section
variable {s : State} (hs : Settled s)
include hs

theorem hostLoss_goes (h : s.m.barState .host = 2 ∨ s.m.barState .host = 3) (hw : s.m.dic.waiting = [])
    (hf : ∀ e ∈ s.m.bar.fwds, OffCan e.2.ask) (hst : ∀ a : Ask, s.m.dic.storeFor = .ask a → OffCan a) :
    Goes (.barrierLoss .host) s (fun m => m.barState .host = 4 ∧ m.rd R.BAR_H_LAST_LOSS = s.m.hlt ∧ m.bar.fwds = [] ∧
      m.saf.sess = [] ∧ m.rd R.BAR_H_CNT_LOSS = min 0xFFFFFFFF (s.m.rd R.BAR_H_CNT_LOSS + 1) ∧ bit 1 (m.rd R.BAR_H_EVT) = true) := by
  obtain ⟨l1, l2, l3, l4, l5, ⟨-, l6, l7⟩, -⟩ := lossReached_does .host s.m
  let m2 : Mach := calStop ((lossReached .host s.m).wr R.BAR_H_LAST_LOSS (lossReached .host s.m).hlt)
  obtain ⟨w1, w2, w3⟩ := forwardsLost_does (m := m2) (l6.symm ▸ hf)
  have hrun : dicRun (forwardsLost m2) = forwardsLost m2 :=
    dicRun_idle (w1.trans ((congrArg (·.waiting) l7 :).trans hw))
  have he : barLossEffect .host s.m = sessionsLost (persDrop (storeFail (xfersLost (forwardsLost m2)))) := by
    rw [← hrun]
    exact if_neg (by omega)
  have hstore : ∀ a, (xfersLost (forwardsLost m2)).dic.storeFor = .ask a → OffCan a := by
    rw [(xfersLost_does _).2, w2]
    exact (congrArg (·.storeFor) l7 :).symm ▸ hst
  have hfwds : (sessionsLost (persDrop (storeFail (xfersLost (forwardsLost m2))))).bar.fwds = [] := by
    rw [(sessionsLost_does _).1, persDrop_fwds, storeFail_bar hstore, (xfersLost_does _).1, w3]
  have hkeel : (sessionsLost (persDrop (storeFail (xfersLost (forwardsLost m2))))).keel = m2.keel := by
    rw [keel_sessionsLost, keel_persDrop, keel_storeFail, keel_xfersLost, keel_forwardsLost]
  have hsess := (sessionsLost_does (persDrop (storeFail (xfersLost (forwardsLost m2))))).2
  generalize sessionsLost (persDrop (storeFail (xfersLost (forwardsLost m2)))) = n at *
  obtain ⟨hrd, -, -, -, -, -, hsig⟩ := eq_of_keel hkeel
  refine goes_quiet (f := barLossEffect .host) hs rfl he (hsig.trans l4) ⟨?_, ?_, hfwds, hsess, ?_, ?_⟩
  · rw [Mach.barState, end_of_keel hkeel]
    exact l1
  · rw [hrd _ (by decide)]
    exact (rd_wr_same ..).trans (congrArg (·.2.2.1.hlt2 / 2) l5)
  · rw [hrd _ (by decide)]
    exact (rd_wr_ne (by decide) ..).trans l3
  · rw [hrd _ (by decide)]
    exact (congrArg (bit 1) (rd_wr_ne (by decide) ..)).trans l2

/-- The field has left the link and given up fragments, transfers, stores and sessions; its reaction is still to come. -/
def fieldLost (m : Mach) : Mach :=
  let m2 := (lossReached .field m).wr R.BAR_F_LAST_LOSS (lossReached .field m).now
  sessionsLost (storeDrop (xfersLost { m2 with bar := { m2.bar with parts := [] } }))

omit hs in
theorem fieldLost_does (m : Mach) : (fieldLost m).barState .field = 4 ∧ (fieldLost m).rd R.BAR_F_LAST_LOSS = m.now ∧
    (fieldLost m).rd R.BAR_F_CNT_LOSS = min 0xFFFFFFFF (m.rd R.BAR_F_CNT_LOSS + 1) ∧ (fieldLost m).bar.parts = [] ∧
    (fieldLost m).bar.cstop = m.bar.cstop ∧ (fieldLost m).signals = m.signals ∧ (fieldLost m).stance = m.stance ∧
    (fieldLost m).rd R.BAR_F_LOSS_REACT = m.rd R.BAR_F_LOSS_REACT := by
  obtain ⟨l1, -, l3, l4, l5, ⟨l6, -, -⟩, l8⟩ := lossReached_does .field m
  have hparts : (fieldLost m).bar.parts = [] := by
    have hs (n : Mach) : (storeDrop n).bar.parts = n.bar.parts := by
      unfold storeDrop
      split_ifs <;> rfl
    rw [fieldLost, (sessionsLost_does _).1, hs, (xfersLost_does _).1]
  have hkeel : (fieldLost m).keel = ((lossReached .field m).wr R.BAR_F_LAST_LOSS (lossReached .field m).now).keel := by
    rw [fieldLost, keel_sessionsLost, keel_storeDrop, keel_xfersLost]
    rfl
  have hstance := stance_of_keel hkeel
  obtain ⟨hrd, ⟨-, -, hc⟩, -, -, -, -, hsig⟩ := eq_of_keel hkeel
  refine ⟨?_, ?_, ?_, hparts, hc.trans l6, hsig.trans l4, hstance.trans ((stance_wr (by decide) ..).trans l5), ?_⟩
  · rw [Mach.barState, end_of_keel hkeel]
    exact l1
  · rw [hrd _ (by decide)]
    exact (rd_wr_same ..).trans (congrArg (·.2.2.1.ftb) l5)
  · rw [hrd _ (by decide)]
    exact (rd_wr_ne (by decide) ..).trans l3
  · rw [hrd _ (by decide)]
    exact (rd_wr_ne (by decide) ..).trans (l8 _ (by decide) (by decide) (by decide) (by decide))

omit hs in
theorem barLossEffect_field {m : Mach} (h : m.barState .field = 2 ∨ m.barState .field = 3) :
    barLossEffect .field m = lossReact (fieldLost m) := if_neg (by omega)

theorem fieldLoss_trips (h : s.m.barState .field = 2 ∨ s.m.barState .field = 3) (hr : s.m.rd R.BAR_F_LOSS_REACT = 0)
    (ht : Trips 14 s.m) : Goes (.barrierLoss .field) s (fun m => m.barState .field = 4 ∧
      m.rd R.BAR_F_LAST_LOSS = s.m.now ∧ m.rd R.BAR_F_CNT_LOSS = min 0xFFFFFFFF (s.m.rd R.BAR_F_CNT_LOSS + 1) ∧
      m.bar.parts = [] ∧ InSafe 14 s.m m) := by
  obtain ⟨f1, f2, f3, f4, -, f6, f7, f8⟩ := fieldLost_does s.m
  have he : barLossEffect .field s.m = (fieldLost s.m).alarm 14 :=
    (barLossEffect_field h).trans (if_pos (f8.trans hr))
  have hc : exec (.barrierLoss .field) s = .next { s with m := settle ((fieldLost s.m).alarm 14) } := by
    change done (barLossEffect .field) s = _
    rw [done, he]
  generalize fieldLost s.m = n at *
  obtain ⟨ca, cn⟩ := alarm_first (k := 14) (f6.trans (signals_of_settled hs))
  obtain ⟨k1, k2⟩ := settle_trips_link ca cn (trips_of_stance f7 ht) (by decide)
  have hrd (o : Obj) (h : Apart o) : (settle (n.alarm 14)).rd o = n.rd o := settle_one_apart ca cn (by decide) h
  exact ⟨_, hc, rfl, k1.trans f1, (hrd _ ⟨.inl (by decide), .inl (by decide)⟩).trans f2, (hrd _ ⟨.inl (by decide), .inl (by decide)⟩).trans f3, k2.trans f4,
    inSafe_of_stance f7 ca cn ht (by decide)⟩

theorem fieldLoss_stops (h : s.m.barState .field = 2 ∨ s.m.barState .field = 3) (hr : s.m.rd R.BAR_F_LOSS_REACT ≠ 0)
    (hsafe : s.m.safe = false) (hc : s.m.bar.cstop = none) : Goes (.barrierLoss .field) s (fun m => m.barState .field = 4 ∧
      m.rd R.BAR_F_LAST_LOSS = s.m.now ∧ m.bar.cstop = some s.m.now ∧ bit 7 (m.rd R.BAR_F_EVT) = true ∧ m.safe = false) := by
  obtain ⟨f1, f2, -, -, f5, f6, f7, f8⟩ := fieldLost_does s.m
  have hst := (stance_barRaise .field 7 (fieldLost s.m)).trans f7
  have hsafe2 : (barRaise .field 7 (fieldLost s.m)).safe = false := (congrArg (·.2.2.2.1) hst :).trans hsafe
  have hnone : (barRaise .field 7 (fieldLost s.m)).bar.cstop = none := by simpa using f5.trans hc
  have hnow : (barRaise .field 7 (fieldLost s.m)).now = s.m.now := congrArg (·.2.2.1.ftb) hst
  have he : barLossEffect .field s.m = { barRaise .field 7 (fieldLost s.m) with
      bar := { (barRaise .field 7 (fieldLost s.m)).bar with cstop := some (barRaise .field 7 (fieldLost s.m)).now } } := by
    rw [barLossEffect_field h]
    exact (if_neg (by rw [f8]; exact hr)).trans (if_neg (by rw [hsafe2, hnone]; decide))
  refine goes_quiet (f := barLossEffect .field) hs rfl he ((signals_barRaise ..).trans f6)
    ⟨?_, (barRaise_rd (side := .field) (by decide) ..).trans f2, congrArg some hnow, barRaise_bit .field 7 _, hsafe2⟩
  exact (congrArg BarEnd.st (barRaise_end .field .field 7 _)).trans f1

theorem cstop_goes (hc : s.m.bar.cstop ≠ none) (ht : Trips 14 s.m) : Goes .cstopLimit s (InSafe 14 s.m) := by
  obtain ⟨t, hc⟩ := Option.ne_none_iff_exists'.mp hc
  have he : cstopEffect s.m = s.m.alarm 14 := by
    unfold cstopEffect
    rw [hc]
    exact if_neg (by rw [ht.1]; decide)
  exact inSafe_goes hs ht (by decide) (f := cstopEffect) rfl he rfl ⟨rfl, rfl⟩

end

/-- Settles O29. `linkedReached_does`, `quietReached_does` and `lossReached_does` say what an end's change of state does to it. -/
theorem barrierTraining : Obligations.BarrierTraining := by
  unfold Obligations.BarrierTraining
  intro s side evt hs he
  refine ⟨fun lane => ?_, ts1_goes hs, aligned_goes hs, ts2_goes hs, fun f p m => link_to hs, linkDue_waits hs, linkDue_goes hs,
    replayTimeout_goes hs, fun m q rest => linkAgain_does, fun f p m ha hst => ⟨hello_linked hs he ha hst, hello_waits hs ha hst⟩,
    fun f p m ha => ⟨state_stays hs ha, ?_, ?_⟩, hostLoss_goes hs, fun h => ⟨fieldLoss_trips hs h, fieldLoss_stops hs h⟩, cstop_goes hs⟩
  · have hsig := (barLanes_does side (clrBit lane (s.m.barEnd side).lanes) s.m).2.2
    exact to_of_quiet (f := laneLossEffect side lane) rfl hs rfl ⟨congrArg (·.2) hsig, congrArg (·.1) hsig⟩
  · subst he
    exact state_quiet hs ha
  · rintro h1 h2 rfl
    exact state_trips hs ha h1 h2

end Sys2Proof.Machine

/-! # O30: the safe-state commands over both channels (R427 to R430) -/

namespace Sys2Proof.Machine

/-! ## The host's store ports -/

section
variable {s : State} {b : Bool} {v : Word} (hs : Settled s)
include hs

omit hs in
theorem safeStoreEffect_sends {core n : Nat} {m : Mach} (hc : core = boolNat b) (hl : (m.core core).lvl = 2)
    (hv : n = 0x1E ∨ n = 0x2D ∨ n = 0x4B) : safeStoreEffect b core n m = safeSend b n m :=
  if_pos ⟨hc, hl, by obtain rfl | rfl | rfl := hv <;> rfl⟩

omit hs in
theorem safeStoreEffect_refused {core n : Nat} {m : Mach} (h : core ≠ boolNat b ∨ (m.core core).lvl ≠ 2 ∨
    (n ≠ 0x1E ∧ n ≠ 0x2D ∧ n ≠ 0x4B)) : safeStoreEffect b core n m = storeRefused core (safePort b) m := by
  refine if_neg fun ⟨h1, h2, h3⟩ => ?_
  obtain h | h | ⟨h4, h5, h6⟩ := h
  · exact h h1
  · exact h h2
  · simp [safeCmdOk, h4, h5, h6] at h3

omit hs in
theorem safeSend_does (b : Bool) (cmd : Nat) {m : Mach} (hl : m.linked .host = true) :
    (safeSend b cmd m).rd (hostCnt b) = (m.rd (hostCnt b) + 1) % 2 ^ 16 ∧ (safeSend b cmd m).signals = m.signals ∧
    (safeSend b cmd m).bar.h.queue = m.bar.h.queue ++
      [(1, ⟨if b then 17 else 16, safePayload b cmd ((m.rd (hostCnt b) + 1) % 2 ^ 16)⟩)] := by
  have hlink : (m.wr (hostCnt b) ((m.rd (hostCnt b) + 1) % 65536)).linked .host = true := hl
  refine ⟨(linkQueue_rd ..).trans (rd_wr_same ..), (signals_linkQueue ..).trans (signals_wr ..), ?_⟩
  rw [safeSend, linkQueue_linked hlink]
  cases b <;> rfl

theorem safeStore_goes {c : Instr} {core : Fin 3} (hc : exec c s = done (coreAt core 1 (safePort b) (safeStoreEffect b core v.toNat)) s)
    (hm : MayCore core 1 (safePort b) s) (hb : core.val = boolNat b) (hl : (s.m.core core).lvl = 2)
    (hv : v.toNat = 0x1E ∨ v.toNat = 0x2D ∨ v.toNat = 0x4B) (hk : s.m.linked .host = true) :
    ∃ t, exec c s = .next t ∧ t.pending = s.pending ∧ SafeQueued b v s.m t.m := by
  obtain ⟨hrd, hsig, hq⟩ := safeSend_does b v.toNat hk
  exact ⟨_, to_coreAt hs hm hc (safeStoreEffect_sends hb hl hv) ⟨congrArg (·.2) hsig, congrArg (·.1) hsig⟩, rfl, hrd, hq⟩

omit hs in
theorem safeStore_refused {c : Instr} {core : Fin 3} (hc : exec c s = done (coreAt core 1 (safePort b) (safeStoreEffect b core v.toNat)) s)
    (hm : MayCore core 1 (safePort b) s)
    (h : core.val ≠ boolNat b ∨ (s.m.core core).lvl ≠ 2 ∨ (v.toNat ≠ 0x1E ∧ v.toNat ≠ 0x2D ∧ v.toNat ≠ 0x4B)) :
    exec c s = .next { s with m := settle (storeRefused core (safePort b) s.m) } := by
  rw [hc, done, coreAt_may hm, safeStoreEffect_refused h]

end

/-! ## The copies that wait -/

section
variable {b : Bool} {m : Mach}

theorem copies_setCopies (b : Bool) (l : List SafeCopy) (m : Mach) : copies (setCopies b l m) b = l := by cases b <;> rfl

theorem copies_setCopies_other (b : Bool) (l : List SafeCopy) (m : Mach) : copies (setCopies b l m) (!b) = copies m (!b) := by
  cases b <;> rfl

theorem setCopies_fields (b : Bool) (l : List SafeCopy) (m : Mach) : (setCopies b l m).keel = m.keel ∧ (setCopies b l m).saf = m.saf ∧
    ∀ o : Obj, (setCopies b l m).rd o = m.rd o := by cases b <;> exact ⟨rfl, rfl, fun _ => rfl⟩

theorem signals_setCopies (b : Bool) (l : List SafeCopy) (m : Mach) : (setCopies b l m).signals = m.signals := by cases b <;> rfl

theorem statusSync_copies (m : Mach) (b : Bool) : copies (statusSync m) b = copies m b := by
  have hq (n : Mach) (p : List Byte) : copies (linkQueue .field 18 p n) b = copies n b := by
    unfold linkQueue
    split_ifs <;> rfl
  unfold statusSync
  extract_lets m1 c m2
  split_ifs
  · rfl
  · exact hq ..

/-- The objects of the two counters at the field. -/
theorem fieldCnt_far (b : Bool) : (fieldCnt b).key < 0x130000 ∧ Apart (fieldCnt b) ∧ (fieldCnt b).key ≠ (fieldCnt (!b)).key ∧
    (fieldCnt b).key ∉ [R.SAF_EVT.key, R.SAF_CNT_LOG_LOST.key] := by
  cases b <;> exact ⟨by decide, ⟨.inl (by decide), .inl (by decide)⟩, by decide, by decide⟩

theorem safeDisc_does (m : Mach) : (safeDisc m).signals = m.signals ∧ (safeDisc m).bar = m.bar ∧
    (safeDisc m).rd R.BAR_F_CNT_SAFE_DISC = min 0xFFFFFFFF (m.rd R.BAR_F_CNT_SAFE_DISC + 1) ∧
    bit 6 ((safeDisc m).rd R.BAR_F_EVT) = true :=
  ⟨(signals_barRaise ..).trans (signals_inc ..), (barRaise_fields ..).2.2.trans rfl,
    (barRaise_field_rd (by decide) ..).trans (rd_inc_same ..), barRaise_field_bit ..⟩

end

/-! ## The match that did not come -/

section
variable {s : State} {b : Bool} (hs : Settled s) {o : SafeCopy} {rest : List SafeCopy} (hc : copies s.m (!b) = o :: rest)
include hs hc

theorem safeDiscrepancy_goes (ht : o.told = false) : Goes (.safeDiscrepancy b) s (fun m => copies m (!b) = rest ∧
    m.rd R.BAR_F_CNT_SAFE_DISC = min 0xFFFFFFFF (s.m.rd R.BAR_F_CNT_SAFE_DISC + 1) ∧ bit 6 (m.rd R.BAR_F_EVT) = true ∧
    (o.cmd ≠ 0x4B → copies m b = copies s.m b)) := by
  let m1 : Mach := setCopies (!b) rest s.m
  obtain ⟨m2, hm2, hdef⟩ : ∃ m2, m2 = (if o.cmd = 0x4B then setCopies b (tellCopy (copies m1 b)) m1 else m1) ∧
      safeDiscEffect b s.m = safeDisc m2 := by
    refine ⟨_, rfl, ?_⟩
    unfold safeDiscEffect
    rw [hc]
    exact if_neg (by rw [ht]; decide)
  have hother : copies m2 (!b) = rest := by
    rw [hm2]
    split_ifs
    · exact (copies_setCopies_other ..).trans (copies_setCopies ..)
    · exact copies_setCopies ..
  have hown : o.cmd ≠ 0x4B → copies m2 b = copies s.m b := fun h => by
    rw [hm2, if_neg h]
    cases b <;> rfl
  have hrd (p : Obj) : m2.rd p = s.m.rd p ∧ m2.signals = s.m.signals := by
    rw [hm2]
    split_ifs
    · cases b <;> exact ⟨rfl, rfl⟩
    · cases b <;> exact ⟨rfl, rfl⟩
  obtain ⟨d1, d2, d3, d4⟩ := safeDisc_does m2
  have hcop (e : Bool) : copies (safeDisc m2) e = copies m2 e := by unfold copies; rw [d2]
  exact goes_quiet (f := safeDiscEffect b) hs rfl hdef (d1.trans (hrd R.SAF_EVT).2)
    ⟨(hcop _).trans hother, d3.trans (by rw [(hrd _).1]), d4, fun h => (hcop _).trans (hown h)⟩

theorem safeDiscrepancy_told (ht : o.told = true) : To (.safeDiscrepancy b) s (setCopies (!b) rest s.m) := by
  have he : safeDiscEffect b s.m = setCopies (!b) rest s.m := by
    unfold safeDiscEffect
    rw [hc]
    exact if_pos ht
  refine to_of_quiet (f := safeDiscEffect b) rfl hs he ?_
  cases b <;> exact ⟨rfl, rfl⟩

end

end Sys2Proof.Machine

/-! ## The copies at the field (R428 to R430) -/

namespace Sys2Proof.Machine

section
variable {b : Bool} {p : List Byte} {cmd cnt : Nat} {m : Mach}

theorem safeContent_rejects (h : safeParse b p = none) : safeContent b p m = barRaise .field 5 (m.inc R.BAR_F_CNT_SAFE_REJ) := by
  unfold safeContent
  rw [h]

theorem safeContent_demands (h : safeParse b p = some (cmd, cnt)) (hc : cmd ≠ 0x4B) : safeContent b p m = safeDemandCopy b cmd cnt m := by
  unfold safeContent
  rw [h]
  exact if_neg hc

theorem safeContent_releases (h : safeParse b p = some (0x4B, cnt)) : safeContent b p m = safeReleaseCopy b cnt m := by
  unfold safeContent
  rw [h]
  exact if_pos rfl

/-- A counter brought, and its copy waiting for the other channel's. -/
def copyFirst (b : Bool) (cmd cnt : Nat) (m : Mach) : Mach := copyWait b cmd cnt (m.wr (fieldCnt b) cnt)

theorem copyFirst_does (b : Bool) (cmd cnt : Nat) (m : Mach) : (copyFirst b cmd cnt m).rd (fieldCnt b) = cnt ∧
    (copyFirst b cmd cnt m).stance = m.stance ∧ (copyFirst b cmd cnt m).signals = m.signals ∧
    ∀ o : Obj, o.key ≠ (fieldCnt b).key → (copyFirst b cmd cnt m).rd o = m.rd o := by
  obtain ⟨hk, -, hrd⟩ := setCopies_fields b (copies (m.wr (fieldCnt b) cnt) b ++ [⟨cmd, cnt, (m.wr (fieldCnt b) cnt).now, false⟩])
    (m.wr (fieldCnt b) cnt)
  refine ⟨(hrd _).trans (rd_wr_same ..), (stance_of_keel hk).trans (stance_wr (.inr (fieldCnt_far b).1) ..), ?_,
    fun o h => (hrd o).trans (rd_wr_ne h ..)⟩
  exact (signals_setCopies ..).trans (signals_wr ..)

/-- The first copy of a demand is executed and waits (R429). -/
theorem safeDemandCopy_first (hn : cnt ≠ m.rd (fieldCnt b)) (ho : ∀ o ∈ copies m (!b), o.cmd ≠ cmd) : safeDemandCopy b cmd cnt m =
    statusSync (if cmd = 0x1E then demandSto 19 (copyFirst b cmd cnt m) else demandSs1 (copyFirst b cmd cnt m)) := by
  have hfind : (copies m (!b)).find? (fun o => o.cmd == cmd) = none := by simpa using ho
  unfold safeDemandCopy
  rw [if_neg hn, hfind]
  rfl

/-- The second copy only brings its counter. -/
theorem safeDemandCopy_second {o : SafeCopy} (hn : cnt ≠ m.rd (fieldCnt b))
    (ho : (copies m (!b)).find? (fun e => e.cmd == cmd) = some o) : safeDemandCopy b cmd cnt m =
    statusSync (setCopies (!b) ((copies m (!b)).erase o) (m.wr (fieldCnt b) cnt)) := by
  unfold safeDemandCopy
  rw [if_neg hn, ho]

theorem stance_statusSync (m : Mach) : (statusSync m).stance = m.stance := by
  obtain ⟨hcores, -, -, ⟨hA, hB⟩, -⟩ := eq_of_aside (aside_statusSync m)
  have htb : (statusSync m).tb = m.tb := (eq_of_trunk (trunk_statusSync m)).2.1
  have hsaf : (statusSync m).saf.relAt = m.saf.relAt :=
    (congrArg (·.relAt) (eq_of_trunk (trunk_statusSync m)).2.2.2.1 :)
  simp only [Mach.stance, Mach.safe, hcores, htb, hA, hB, hsaf, statusSync_rd]

end

section
variable {s : State} {f : LinkFrame} {b : Bool} {p : List Byte} {m : Mach} {c : Instr} {cnt : Nat} {P : Mach → Prop}

theorem exec_safe (hc : c = if b then .safeB f else .safeA f) : exec c s = done (safeMessage b f) s := by
  subst hc
  cases b <;> rfl

theorem safeMessage_arrives (ha : Arrives .field (if b then 17 else 16) p f s m) : safeMessage b f s.m = safeContent b p m := by
  obtain ⟨hacc, hent⟩ := ha
  have hst : s.m.barState .field ≠ 4 := fun h => by
    have hn : linkAccept .field f s.m = (none, s.m) := if_pos ⟨by omega, by omega⟩
    rw [hn] at hacc
    exact absurd (congrArg Prod.fst hacc) (by simp)
  unfold safeMessage
  dsimp only
  rw [if_neg (fun h => hst h.1)]
  simp [linkMessage, hacc, hent]

variable (hs : Settled s) (hc : c = if b then .safeB f else .safeA f) (ha : Arrives .field (if b then 17 else 16) p f s m)
include hs hc ha

theorem safe_to {n : Mach} (hn : safeContent b p m = n) (hq : n.signals = m.signals) : To c s n := by
  obtain ⟨hal, hno⟩ := settled_of_arrives hs ha
  rw [To, exec_safe hc]
  exact done_quiet ((safeMessage_arrives ha).trans hn) ((congrArg (·.2) hq :).trans hal) ((congrArg (·.1) hq :).trans hno)

theorem safe_rejected (h : safeParse b p = none) : To c s (barRaise .field 5 (m.inc R.BAR_F_CNT_SAFE_REJ)) :=
  safe_to hs hc ha (safeContent_rejects h) ((signals_barRaise ..).trans (signals_inc ..))

theorem safe_repeated {cmd : Nat} (hcmd : cmd = 0x1E ∨ cmd = 0x2D) (h : safeParse b p = some (cmd, cnt)) (hn : cnt = m.rd (fieldCnt b)) :
    To c s m :=
  safe_to hs hc ha ((safeContent_demands h (by omega)).trans (if_pos hn)) rfl

theorem safe_second {cmd : Nat} {o : SafeCopy} (hcmd : cmd = 0x1E ∨ cmd = 0x2D) (h : safeParse b p = some (cmd, cnt))
    (hn : cnt ≠ m.rd (fieldCnt b)) (ho : (copies m (!b)).find? (fun e => e.cmd == cmd) = some o) :
    Goes c s (fun t => t.rd (fieldCnt b) = cnt ∧ copies t (!b) = (copies m (!b)).erase o ∧ t.safe = m.safe ∧
      t.rd R.SAF_STATE = m.rd R.SAF_STATE) := by
  have heq := (safeContent_demands h (m := m) (by omega)).trans (safeDemandCopy_second hn ho)
  obtain ⟨hk, hsaf, hrd⟩ := setCopies_fields (!b) ((copies m (!b)).erase o) (m.wr (fieldCnt b) cnt)
  have hsig := signals_setCopies (!b) ((copies m (!b)).erase o) (m.wr (fieldCnt b) cnt)
  refine .of_to (safe_to hs hc ha heq ((signals_statusSync _).trans (hsig.trans (signals_wr ..)))) ⟨?_, ?_, ?_, ?_⟩
  · rw [statusSync_rd, hrd, rd_wr_same]
  · rw [statusSync_copies, copies_setCopies]
  · have hst := (stance_statusSync _).trans ((stance_of_keel hk).trans (stance_wr (.inr (fieldCnt_far b).1) cnt m))
    exact congrArg (·.2.2.2.1) hst
  · rw [statusSync_rd, hrd, rd_wr_ne (by cases b <;> decide)]

theorem safe_ss1 (h : safeParse b p = some (0x2D, cnt)) (hn : cnt ≠ m.rd (fieldCnt b)) (ho : ∀ o ∈ copies m (!b), o.cmd ≠ 0x2D)
    (hstate : m.rd R.SAF_STATE = 0) (hrel : releasedNow m = false) :
    Goes c s (fun t => t.rd R.SAF_STATE = 2 ∧ t.saf.ss1Start = m.now ∧ t.rd (fieldCnt b) = cnt) := by
  obtain ⟨hcnt, hstance, hsig, hrd⟩ := copyFirst_does b 0x2D cnt m
  have heq : safeContent b p m = statusSync (ss1Begun (copyFirst b 0x2D cnt m)) := by
    rw [safeContent_demands h (by decide), safeDemandCopy_first hn ho, if_neg (by decide), demandSs1_of]
    · rw [hrd _ (by cases b <;> decide), hstate]
    · have hrel2 : (copyFirst b 0x2D cnt m).saf.relAt = m.saf.relAt := congrArg (·.2.2.2.2) hstance
      have hnow : (copyFirst b 0x2D cnt m).tb = m.tb := congrArg (·.2.2.1) hstance
      rw [releasedNow, hrel2, Mach.now, hnow]
      exact hrel
  obtain ⟨d1, d2, -, -, -, -, d7⟩ := ss1Begun_does (copyFirst b 0x2D cnt m)
  refine .of_to (safe_to hs hc ha heq ((signals_statusSync _).trans (d7.trans hsig))) ⟨?_, ?_, ?_⟩
  · rw [statusSync_rd, d1]
  · obtain ⟨-, -, -, -, ⟨-, -, -, -, h, -⟩, -⟩ := eq_of_aside (aside_statusSync (ss1Begun (copyFirst b 0x2D cnt m)))
    exact h.trans (d2.trans (congrArg (·.2.2.1.ftb) hstance))
  · obtain ⟨-, -, -, hfar⟩ := fieldCnt_far b
    rw [statusSync_rd, ss1Begun, safLog_rd hfar, safRaise_rd (List.ne_of_not_mem_cons hfar)]
    have hne : (fieldCnt b).key ≠ R.SAF_STATE.key := by cases b <;> decide
    exact (rd_wr_ne hne { copyFirst b 0x2D cnt m with saf := _ } 2).trans hcnt

theorem safe_sto (h : safeParse b p = some (0x1E, cnt)) (hn : cnt ≠ m.rd (fieldCnt b)) (ho : ∀ o ∈ copies m (!b), o.cmd ≠ 0x1E)
    (ht : Trips 19 m) : ∃ t, exec c s = .next t ∧ t.pending = s.pending ∧ InSafe 19 s.m t.m ∧ t.m.rd (fieldCnt b) = cnt := by
  obtain ⟨hcnt, hstance, hsig, hrd⟩ := copyFirst_does b 0x1E cnt m
  obtain ⟨hfrom, -⟩ := arrived_safe ha
  obtain ⟨hal, hno⟩ := settled_of_arrives hs ha
  have heq : safeContent b p m = statusSync ((copyFirst b 0x1E cnt m).alarm 19) := by
    rw [safeContent_demands h (by decide), safeDemandCopy_first hn ho]
    rfl
  have hx : exec c s = .next { s with m := settle (statusSync ((copyFirst b 0x1E cnt m).alarm 19)) } := by
    rw [exec_safe hc, done, safeMessage_arrives ha, heq]
  have hst : (statusSync ((copyFirst b 0x1E cnt m).alarm 19)).stance = s.m.stance := (stance_statusSync _).trans (hstance.trans hfrom)
  have hsig2 := signals_statusSync ((copyFirst b 0x1E cnt m).alarm 19)
  have hrd2 : (statusSync ((copyFirst b 0x1E cnt m).alarm 19)).rd (fieldCnt b) = cnt := (statusSync_rd ..).trans hcnt
  obtain ⟨ca, cn⟩ := alarm_first (k := 19) (hsig.trans (show m.signals = ([], []) by rw [Mach.signals, hal, hno]))
  refine ⟨_, hx, rfl, inSafe_of_stance hst ((congrArg (·.2) hsig2 :).trans ca) ((congrArg (·.1) hsig2 :).trans cn)
    (trips_of_stance hfrom.symm ht) (by decide), ?_⟩
  exact (settle_one_apart ((congrArg (·.2) hsig2 :).trans ca) ((congrArg (·.1) hsig2 :).trans cn) (by decide) (fieldCnt_far b).2.1).trans hrd2

theorem safe_waits (h : safeParse b p = some (0x4B, cnt)) (ho : ∀ o ∈ copies m (!b), o.cmd = 0x4B →
    cnt = (m.rd (fieldCnt b) + 1) % 2 ^ 16 → o.cnt ≠ (m.rd (fieldCnt (!b)) + 1) % 2 ^ 16) :
    To c s (setCopies b (copies m b ++ [⟨0x4B, cnt, m.now, false⟩]) m) := by
  have hfind : (copies m (!b)).find? (fun o => o.cmd == 0x4B && nextCnt m (!b) o.cnt && nextCnt m b cnt) = none := by
    rw [List.find?_eq_none]
    intro o hm
    simp only [nextCnt, Bool.and_eq_true, beq_iff_eq, not_and]
    exact fun ⟨h1, h2⟩ h3 => ho o hm h1 h3 h2
  have heq : safeReleaseCopy b cnt m = setCopies b (copies m b ++ [⟨0x4B, cnt, m.now, false⟩]) m := by
    unfold safeReleaseCopy
    rw [hfind]
    rfl
  exact safe_to hs hc ha ((safeContent_releases h).trans heq) (signals_setCopies ..)

theorem safe_release {o : SafeCopy} (h : safeParse b p = some (0x4B, cnt)) (hcnt : cnt = (m.rd (fieldCnt b) + 1) % 2 ^ 16)
    (hm : o ∈ copies m (!b)) (hcmd : o.cmd = 0x4B) (ho : o.cnt = (m.rd (fieldCnt (!b)) + 1) % 2 ^ 16) (hstate : m.rd R.SAF_STATE = 1)
    (hact : m.rd R.SAF_ACTIVE = 0) (hcause : m.saf.causeAt ≠ some m.now) :
    Goes c s (fun t => t.safe = false ∧ t.rd R.SAF_STATE = 0 ∧ t.rd R.SAF_LATCHED = 0 ∧ t.rd (fieldCnt b) = cnt ∧
      t.rd (fieldCnt (!b)) = o.cnt) := by
  obtain ⟨e, hfind, hnext⟩ : ∃ e, (copies m (!b)).find? (fun o => o.cmd == 0x4B && nextCnt m (!b) o.cnt && nextCnt m b cnt) = some e ∧
      e.cnt = o.cnt := by
    have hsome : ((copies m (!b)).find? (fun o => o.cmd == 0x4B && nextCnt m (!b) o.cnt && nextCnt m b cnt)).isSome = true := by
      rw [List.find?_isSome]
      exact ⟨o, hm, by simp [nextCnt, hcmd, ho, hcnt]⟩
    obtain ⟨e, he⟩ := Option.isSome_iff_exists.mp hsome
    have hp := List.find?_some he
    simp only [nextCnt, Bool.and_eq_true, beq_iff_eq] at hp
    exact ⟨e, he, hp.1.2.trans ho.symm⟩
  let m1 : Mach := ((setCopies (!b) ((copies m (!b)).erase e) m).wr (fieldCnt b) cnt).wr (fieldCnt (!b)) e.cnt
  obtain ⟨-, hsaf, hset⟩ := setCopies_fields (!b) ((copies m (!b)).erase e) m
  have hrd (p : Obj) (h1 : p.key ≠ (fieldCnt b).key) (h2 : p.key ≠ (fieldCnt (!b)).key) : m1.rd p = m.rd p :=
    (rd_wr_ne h2 ..).trans ((rd_wr_ne h1 ..).trans (hset p))
  have hfar : R.SAF_STATE.key ≠ (fieldCnt b).key ∧ R.SAF_STATE.key ≠ (fieldCnt (!b)).key ∧ R.SAF_ACTIVE.key ≠ (fieldCnt b).key ∧
      R.SAF_ACTIVE.key ≠ (fieldCnt (!b)).key := by cases b <;> decide
  obtain ⟨f1, f2, f3, f4⟩ := hfar
  have hsaf1 : m1.saf = m.saf := hsaf
  have hnow1 : m1.now = m.now := by cases b <;> rfl
  have heq : safeReleaseCopy b cnt m = statusSync (statusSync (safLog 2 0 0 0 (safRaise 1 (releasing m1)))) := by
    unfold safeReleaseCopy
    rw [hfind, ← releaseRequest_of ((hrd _ f1 f2).trans hstate) ((hrd _ f3 f4).trans hact) (by rw [hsaf1, hnow1]; exact hcause)]
  obtain ⟨r1, r2, r3, -, -, r6⟩ := released_does 0 m1
  have hother (p : Obj) (h : p.key ∉ [R.SAF_EVT.key, R.SAF_CNT_LOG_LOST.key]) (h2 : p.key < 0x130000) :
      (statusSync (safLog 2 0 0 0 (safRaise 1 (releasing m1)))).rd p = m1.rd p := by
    have hlow : ∀ q ∈ [R.SAF_LATCHED, R.SAF_STATE, R.SAF_CNT_RELEASE], 0x130000 ≤ q.key := by decide
    have hne (q : Obj) (hq : q ∈ [R.SAF_LATCHED, R.SAF_STATE, R.SAF_CNT_RELEASE]) : p.key ≠ q.key := by
      have := hlow q hq
      omega
    rw [statusSync_rd, safLog_rd h, safRaise_rd (List.ne_of_not_mem_cons h), releasing, rd_inc_ne (hne _ (by decide)),
      rd_wr_ne (hne _ (by decide)), rd_wr_ne (hne _ (by decide))]
    rfl
  generalize statusSync (safLog 2 0 0 0 (safRaise 1 (releasing m1))) = n at *
  have hsig : m1.signals = m.signals := (signals_wr ..).trans ((signals_wr ..).trans (signals_setCopies ..))
  obtain ⟨a1, -, a3, a4⟩ := fieldCnt_far b
  obtain ⟨b1, -, -, b4⟩ := fieldCnt_far (!b)
  refine .of_to (safe_to hs hc ha ((safeContent_releases h).trans heq) ((signals_statusSync _).trans (r6.trans hsig))) ⟨?_, ?_, ?_, ?_, ?_⟩
  · exact (congrArg (·.2.2.2.1) (stance_statusSync n) :).trans r1
  · rw [statusSync_rd, r2]
  · rw [statusSync_rd, r3]
  · rw [statusSync_rd, hother _ a4 a1]
    exact (rd_wr_ne a3 ..).trans (rd_wr_same ..)
  · rw [statusSync_rd, hother _ b4 b1]
    exact (rd_wr_same ..).trans hnext

end

/-- Settles O30. `safeContent` answers by the copy's command; `safeDemandCopy_first` and `safeDemandCopy_second` say what the two copies
of a demand do. -/
theorem safeChannels : Obligations.SafeChannels := by
  unfold Obligations.SafeChannels
  intro s b hs
  refine ⟨fun v => ⟨fun hm hl hv hk => ⟨?_, ?_⟩, fun core hm h => ⟨?_, ?_⟩⟩, fun f p m c hc ha => ⟨safe_rejected hs hc ha, fun cnt h hn ho ht =>
    ⟨?_, ?_⟩, fun cnt h hn ho h1 h2 => safe_ss1 hs hc ha h hn ho h1 h2, fun cmd cnt hcmd h hn => safe_repeated hs hc ha hcmd h hn,
    fun cmd cnt o hcmd h hn ho => safe_second hs hc ha hcmd h hn ho, fun cnt h ho => safe_waits hs hc ha h ho,
    fun cnt o h h1 h2 h3 h4 h5 h6 h7 => safe_release hs hc ha h h1 h2 h3 h4 h5 h6 h7⟩,
    fun o rest hc => ⟨safeDiscrepancy_goes hs hc, safeDiscrepancy_told hs hc⟩⟩
  · rintro rfl
    exact safeStore_goes (core := 0) hs rfl hm rfl hl hv hk
  · rintro rfl
    exact safeStore_goes (core := 1) hs rfl hm rfl hl hv hk
  · rintro rfl
    exact safeStore_refused rfl hm h
  · rintro rfl
    exact safeStore_refused rfl hm h
  · rintro rfl
    exact safe_sto (c := .safeA f) hs rfl ha h hn ho ht
  · rintro rfl
    exact safe_sto (c := .safeB f) hs rfl ha h hn ho ht

end Sys2Proof.Machine

/-! # O32: what the accepted messages of the catalogue do

A message whose content leaves nothing to act on answers its content (`to_quiet_message`, `goes_message`); each content has an equation
for each of its cases. -/

namespace Sys2Proof.Machine

section
variable {s : State} {side : Side} {f : LinkFrame} {p : List Byte} {m : Mach} (hs : Settled s)

theorem linkMessage_overruled {typ : Nat} {act : List Byte → Mach → Mach} {g : Msg} (hacc : linkAccept side f s.m = (some g, m))
    (ht : g.typ = typ) (he : s.m.entries.any (fun e => e.1 == side) = true) : linkMessage side typ f act s.m = m := by
  subst ht
  simp only [linkMessage, hacc]
  obtain ⟨F, rfl⟩ := accepted_updEnd hacc
  have hent : (s.m.updEnd side F).entries = s.m.entries := by cases side <;> rfl
  rw [if_neg (fun h => h rfl), if_pos he]

/-- Only an end in HELLO or LINKED accepts. -/
theorem accepted_linked {g : Msg} (hacc : linkAccept side f s.m = (some g, m)) : s.m.barState side ≠ 4 := fun h => by
  have hn : linkAccept side f s.m = (none, s.m) := if_pos ⟨by omega, by omega⟩
  exact absurd (congrArg Prod.fst (hn.symm.trans hacc)) (by simp)

/-- A copy that does not come in the tick of a loss declaration is a message like the others. -/
theorem done_safeMessage (b : Bool) (h : s.m.barState .field ≠ 4) :
    done (safeMessage b f) s = done (linkMessage .field (if b then 17 else 16) f (safeContent b)) s := by
  have heq : safeMessage b f s.m = linkMessage .field (if b then 17 else 16) f (safeContent b) s.m := if_neg fun hc => h hc.1
  rw [done, heq, done]

/-- The commands that are a message's arrival act by its content. -/
theorem exec_of_messageOf {c : Instr} {typ : Nat} (hc : messageOf c = some (side, typ, f)) (hst : s.m.barState side ≠ 4) :
    ∃ act, exec c s = done (linkMessage side typ f act) s := by
  unfold messageOf at hc
  split at hc <;> simp only [Option.some.injEq, Prod.mk.injEq, reduceCtorEq] at hc <;> obtain ⟨rfl, rfl, rfl⟩ := hc
  case h_16 => exact ⟨_, done_safeMessage false hst⟩
  case h_17 => exact ⟨_, done_safeMessage true hst⟩
  all_goals exact ⟨_, rfl⟩

include hs

/-- A message whose content leaves nothing to act on answers its content. -/
theorem to_quiet_message {c : Instr} {typ : Nat} {act : List Byte → Mach → Mach} {n : Mach}
    (hc : exec c s = done (linkMessage side typ f act) s) (ha : Arrives side typ p f s m) (hn : act p m = n)
    (hq : n.signals = m.signals) : To c s n := by
  subst hn
  obtain ⟨hal, hno⟩ := settled_of_arrives hs ha
  exact to_message hc ha ((congrArg (·.2) hq :).trans hal) ((congrArg (·.1) hq :).trans hno)

/-- A reset or state entry of the tick wins over a message's content (R440). -/
theorem message_overruled {c : Instr} {g : Msg} (hc : messageOf c = some (side, g.typ, f)) (hacc : linkAccept side f s.m = (some g, m))
    (he : s.m.entries.any (fun e => e.1 == side) = true) : To c s m := by
  obtain ⟨hal, hno⟩ := linkAccept_fields hacc
  obtain ⟨act, hx⟩ := exec_of_messageOf hc (accepted_linked hacc)
  exact hx.trans (done_quiet (linkMessage_overruled hacc rfl he) (hal.trans hs.1) (hno.trans hs.2))

end

/-! ## Requests and cyclic data -/

section
variable {s : State} {side : Side} {f : LinkFrame} {p : List Byte} {m : Mach} {fw : Fwd}

theorem dicRspContent_of (h : m.bar.fwds.find? (fun e => e.1 == fieldAt 0 1 p % 8) = some (fieldAt 0 1 p % 8, fw)) : dicRspContent p m =
    if bit 7 (fieldAt 1 1 p) then forwardDone (fieldAt 0 1 p % 8) fw (fw.got ++ p.drop 4) m
    else { m with bar := { m.bar with
      fwds := mapPut (fieldAt 0 1 p % 8) { fw with got := fw.got ++ p.drop 4, next := fw.next + 1 } m.bar.fwds } } := by
  unfold dicRspContent
  simp only [h]

/-- The machine with a forwarding ended. -/
def forwardEnded (xid : Nat) (m : Mach) : Mach := { m with bar := { m.bar with fwds := mapDel xid m.bar.fwds } }

theorem forwardDone_of {xid : Nat} {l : List Byte} (h0 : fw.ask.q.route ≠ .can0) (h1 : fw.ask.q.route ≠ .can1) (hw : m.dic.waiting = []) :
    forwardDone xid fw l m = dicDeliver fw.ask l (if fieldAt 7 1 l = 1 then
      abortRecord fw.ask.q.route fw.ask.q.index.toNat fw.ask.q.sub.toNat (fieldAt 8 4 l) (forwardEnded xid m) else forwardEnded xid m) := by
  obtain ⟨_, _, _, _, _, hsent⟩ := sent_dicDeliver h0 h1 l (if fieldAt 7 1 l = 1 then
      abortRecord fw.ask.q.route fw.ask.q.index.toNat fw.ask.q.sub.toNat (fieldAt 8 4 l) (forwardEnded xid m) else forwardEnded xid m)
  refine dicRun_idle ?_
  change (dicDeliver fw.ask l (if fieldAt 7 1 l = 1 then abortRecord fw.ask.q.route fw.ask.q.index.toNat fw.ask.q.sub.toNat
    (fieldAt 8 4 l) (forwardEnded xid m) else forwardEnded xid m)).dic.waiting = []
  rw [hsent]
  split_ifs
  · simpa [forwardEnded] using hw
  · exact hw

variable (hs : Settled s)
include hs

theorem dicRsp_kept {x : Nat} (ha : Arrives .host 8 p f s m) (hx : x = fieldAt 0 1 p % 8)
    (hf : m.bar.fwds.find? (fun e => e.1 == x) = some (x, fw)) (hb : bit 7 (fieldAt 1 1 p) = false) : To (.dicRsp f) s { m with bar := { m.bar with
      fwds := mapPut x { fw with got := fw.got ++ p.drop 4, next := fw.next + 1 } m.bar.fwds } } := by
  subst hx
  exact to_quiet_message (act := dicRspContent) hs rfl ha ((dicRspContent_of hf).trans (if_neg (by rw [hb]; decide))) rfl

theorem dicRsp_answers {x : Nat} (ha : Arrives .host 8 p f s m) (hx : x = fieldAt 0 1 p % 8)
    (hf : m.bar.fwds.find? (fun e => e.1 == x) = some (x, fw)) (hb : bit 7 (fieldAt 1 1 p) = true) (hw : m.dic.waiting = [])
    (h0 : fw.ask.q.route ≠ .can0) (h1 : fw.ask.q.route ≠ .can1) (hok : fieldAt 7 1 (fw.got ++ p.drop 4) ≠ 1) :
    To (.dicRsp f) s (dicDeliver fw.ask (fw.got ++ p.drop 4) { m with bar := { m.bar with fwds := mapDel x m.bar.fwds } }) := by
  subst hx
  have heq : dicRspContent p m = dicDeliver fw.ask (fw.got ++ p.drop 4) (forwardEnded (fieldAt 0 1 p % 8) m) := by
    rw [dicRspContent_of hf, if_pos hb, forwardDone_of h0 h1 hw, if_neg hok]
  exact to_quiet_message (act := dicRspContent) hs rfl ha heq (eq_of_keel (keel_sent (sent_dicDeliver h0 h1 ..))).2.2.2.2.2.2

theorem dicRsp_aborts {x : Nat} (ha : Arrives .host 8 p f s m) (hx : x = fieldAt 0 1 p % 8)
    (hf : m.bar.fwds.find? (fun e => e.1 == x) = some (x, fw)) (hb : bit 7 (fieldAt 1 1 p) = true) (hw : m.dic.waiting = [])
    (h0 : fw.ask.q.route ≠ .can0) (h1 : fw.ask.q.route ≠ .can1) (hbad : fieldAt 7 1 (fw.got ++ p.drop 4) = 1) :
    Goes (.dicRsp f) s (fun t => t.bar.fwds = mapDel x m.bar.fwds ∧
      t.rd R.DIC_LAST_ABORT = fieldAt 8 4 (fw.got ++ p.drop 4) ∧
      t.rd R.DIC_ABORT_COUNT = min 0xFFFFFFFF (m.rd R.DIC_ABORT_COUNT + 1)) := by
  subst hx
  have heq : dicRspContent p m = dicDeliver fw.ask (fw.got ++ p.drop 4) (abortRecord fw.ask.q.route fw.ask.q.index.toNat
      fw.ask.q.sub.toNat (fieldAt 8 4 (fw.got ++ p.drop 4)) (forwardEnded (fieldAt 0 1 p % 8) m)) := by
    rw [dicRspContent_of hf, if_pos hb, forwardDone_of h0 h1 hw, if_pos hbad]
  have hrec (code : Nat) (n : Mach) : (abortRecord fw.ask.q.route fw.ask.q.index.toNat fw.ask.q.sub.toNat code n).rd R.DIC_ABORT_COUNT =
      min 0xFFFFFFFF (n.rd R.DIC_ABORT_COUNT + 1) := by
    unfold abortRecord
    dsimp only
    rw [assertSrc_rd, rd_wr_ne (by decide), rd_wr_ne (by decide), rd_inc_same]
    split_ifs <;> rfl
  have hsent := sent_dicDeliver h0 h1 (fw.got ++ p.drop 4) (abortRecord fw.ask.q.route fw.ask.q.index.toNat
      fw.ask.q.sub.toNat (fieldAt 8 4 (fw.got ++ p.drop 4)) (forwardEnded (fieldAt 0 1 p % 8) m))
  have hsig := (eq_of_keel (keel_sent hsent)).2.2.2.2.2.2.trans (eq_of_keel (keel_abortRecord ..)).2.2.2.2.2.2
  refine goes_message (act := dicRspContent) hs rfl ha heq hsig ?_
  obtain ⟨_, _, _, _, _, hsent⟩ := hsent
  rw [hsent]
  refine ⟨?_, abortRecord_rd_last .., hrec ..⟩
  have hbar : (abortRecord fw.ask.q.route fw.ask.q.index.toNat fw.ask.q.sub.toNat (fieldAt 8 4 (fw.got ++ p.drop 4))
      (forwardEnded (fieldAt 0 1 p % 8) m)).bar = (forwardEnded (fieldAt 0 1 p % 8) m).bar := (abortRecord_fields ..).2.2.2
  exact congrArg Barrier.fwds hbar

omit hs in
theorem nmSample_does (n pos speed lt : Nat) (m : Mach) : (nmSample n pos speed lt m).rd (R.NM_POS n) = pos ∧
    (nmSample n pos speed lt m).rd (R.NM_SPEED n) = speed ∧ (nmSample n pos speed lt m).rd (R.NM_LT n) = lt ∧
    (nmSample n pos speed lt m).rd (R.NM_VALID n) = 1 := by
  have h1 : (R.NM_SPEED n).key = (R.NM_POS n).key + 2 := by
    change (0x2820 + n) * 256 + 3 = (0x2820 + n) * 256 + 1 + 2
    omega
  have h2 : (R.NM_LT n).key = (R.NM_POS n).key + 3 := by
    change (0x2820 + n) * 256 + 4 = (0x2820 + n) * 256 + 1 + 3
    omega
  have h3 : (R.NM_VALID n).key = (R.NM_POS n).key + 6 := by
    change (0x2820 + n) * 256 + 7 = (0x2820 + n) * 256 + 1 + 6
    omega
  have hrd (o : Obj) : (nmSample n pos speed lt m).rd o =
      ((((m.wr (R.NM_POS n) pos).wr (R.NM_SPEED n) speed).wr (R.NM_LT n) lt).wr (R.NM_VALID n) 1).rd o := rfl
  refine ⟨?_, ?_, ?_, ?_⟩ <;> rw [hrd]
  · rw [rd_wr_ne (by omega), rd_wr_ne (by omega), rd_wr_ne (by omega), rd_wr_same]
  · rw [rd_wr_ne (by omega), rd_wr_ne (by omega), rd_wr_same]
  · rw [rd_wr_ne (by omega), rd_wr_same]
  · rw [rd_wr_same]

/-- A message in a Keep debug halt is discarded and counted (R438). -/
theorem halted_to {c : Instr} {typ : Nat} {act : List Byte → Mach → Mach} (hc : exec c s = done (linkMessage side typ f act) s)
    (ha : Arrives side typ p f s m) (hn : act p m = m.inc R.BAR_F_CNT_HALT_DROP) : To c s (m.inc R.BAR_F_CNT_HALT_DROP) :=
  to_quiet_message hs hc ha hn (signals_inc ..)

theorem cycIn_goes {r : Rec} {n : Nat} (ha : Arrives .field 9 p f s m) (hh : m.keepHalted = false)
    (hp : parseRecs p.length (p.drop 4) = some [r]) (hr : r.rtype = 1) (hn : n = (mapEnt r.chan (m.rd (R.NET_RXMAP r.chan))).idx) :
    Goes (.cycIn f) s (fun t => t.rd (R.NM_POS n) = fieldAt 0 8 r.data ∧ t.rd (R.NM_SPEED n) = fieldAt 8 4 r.data ∧
      t.rd (R.NM_LT n) = fieldAt 12 8 r.data ∧ t.rd (R.NM_VALID n) = 1) := by
  have heq : cycInContent p m = nmSample n (fieldAt 0 8 r.data) (fieldAt 8 4 r.data) (fieldAt 12 8 r.data) m := by
    unfold cycInContent
    rw [if_neg (by rw [hh]; decide), hp, hn]
    exact if_pos hr
  exact goes_message (act := cycInContent) hs rfl ha heq (by simp [nmSample, Mach.signals]) (nmSample_does ..)

theorem cycOut_goes {l : List Rec} (ha : Arrives .host 10 p f s m) (hp : parseRecs p.length (p.drop 4) = some l)
    (hl : ∀ r ∈ l, r.rtype ≠ 3) : Goes (.cycOut f) s (fun t =>
      (cycSet t (fieldAt 0 4 p)).msgs = (cycSet m (fieldAt 0 4 p)).msgs + 1 ∧
      (cycSet t (fieldAt 0 4 p)).recs = (cycSet m (fieldAt 0 4 p)).recs ++ l) := by
  have hfree : l.filter (fun r => r.rtype == 3) = [] := by simpa [List.filter_eq_nil_iff] using hl
  have hall : l.filter (fun r => r.rtype != 3) = l := by simpa [List.filter_eq_self] using hl
  have heq : cycOutContent p m = keepSet (fieldAt 0 4 p) (setCycSet (fieldAt 0 4 p) { cycSet m (fieldAt 0 4 p) with
      msgs := (cycSet m (fieldAt 0 4 p)).msgs + 1, recs := (cycSet m (fieldAt 0 4 p)).recs ++ l } m) := by
    unfold cycOutContent
    rw [hp]
    dsimp only
    rw [hfree, hall]
    rfl
  have hkeep (c : Nat) (n : Mach) : (keepSet c n).net.sets = n.net.sets ∧ (keepSet c n).signals = n.signals := by
    unfold keepSet
    split_ifs <;> exact ⟨rfl, rfl⟩
  refine goes_message (act := cycOutContent) hs rfl ha heq (hkeep ..).2 ?_
  rw [cycSet, (hkeep ..).1]
  simp [setCycSet, updNet]

theorem event_to {id n : Nat} (ha : Arrives side 11 p f s m) (hp : p.length = 8) (hid : id = fieldAt 0 2 p % 1024)
    (hn : n = min 15 (fieldAt 2 1 p)) (hlt : id < 512) (ho : srcOwner id ≠ side) (hh : side = .field → m.keepHalted = false) :
    To (.event side f) s (m.setBel side { m.bel side with arr := (m.bel side).arr ++ [(id, n + 16, fieldAt 4 4 p)] }) := by
  have heq : eventContent side p m = m.setBel side { m.bel side with arr := (m.bel side).arr ++ [(id, n + 16, fieldAt 4 4 p)] } := by
    unfold eventContent
    rw [hp, hn]
    refine (if_pos (hid ▸ ⟨hlt, ho⟩)).trans ?_
    rw [← hid]
    exact if_neg fun ⟨h1, h2⟩ => by rw [hh h1] at h2; exact absurd h2 (by decide)
  exact to_quiet_message (act := eventContent side) hs rfl ha heq (by cases side <;> rfl)

end

end Sys2Proof.Machine

/-! ## Images, stored values, counters and resets over the link -/

namespace Sys2Proof.Machine

section
variable {s : State} {side : Side} {f : LinkFrame} {p got : List Byte} {m : Mach}

/-- A field of a header lies within the header. -/
theorem fieldAt_take {off n k : Nat} (h : off + n ≤ k) (l : List Byte) : fieldAt off n (l.take k) = fieldAt off n l := by
  unfold fieldAt
  rw [List.drop_take, List.take_take, Nat.min_eq_left (by omega)]

/-- The field with the bytes of a load so far. -/
def loadKept (got : List Byte) (m : Mach) : Mach := { m with bar := { m.bar with fwIn := got } }

theorem fwLoadMessage_of (hh : m.keepHalted = false) (ho : fieldAt 0 4 p = 0 ∨ fieldAt 0 4 p = m.bar.fwIn.length)
    (hg : got = (if fieldAt 0 4 p = 0 then [] else m.bar.fwIn) ++ p.drop 4) : fwLoadMessage p m =
    if got.length < 256 then loadKept got m
    else if !imgHeaderOk .field (got.take 256) then
      fwReport got.length 2 { loadKept got m with bar := { (loadKept got m).bar with fwIn := [] } }
    else if 256 + imgLen got ≤ got.length then
      fwReport got.length (if (fieldImageDone (loadKept got m)).1 then 1 else 2) (fieldImageDone (loadKept got m)).2
    else loadKept got m := by
  subst hg
  exact (if_neg (by rw [hh]; decide)).trans (if_pos ho)

/-- The field with a whole image in place and its core started. -/
def imageStarted (h body : List Byte) (m : Mach) : Mach :=
  (({ m with keepMem := memWrN (memWrN m.keepMem (imgLoad h) body) keptHeader h
             bar := { m.bar with fieldVer := imgVersion h, fwIn := [] } }).updCore 2
    (fun c => { c with pc := BitVec.ofNat 32 (imgEntry h), gated := false })).wr R.DIC_FIELD_FW_VER (imgVersion h)

theorem fieldImageDone_starts {h body : List Byte} (hh : m.bar.fwIn.take 256 = h) (hb : (m.bar.fwIn.drop 256).take (imgLen h) = body)
    (hok : imgHeaderOk .field h = true) (hd : sha256 body = imgDigest h) : fieldImageDone m = (true, imageStarted h body m) := by
  subst hh hb
  exact if_pos (by rw [hok, hd]; exact beq_self_eq_true _)

theorem imageStarted_does (h body : List Byte) (m : Mach) : ((imageStarted h body m).core 2).pc = BitVec.ofNat 32 (imgEntry h) ∧
    ((imageStarted h body m).core 2).gated = false ∧ (imageStarted h body m).bar.fwIn = [] ∧
    (imageStarted h body m).bar.fieldVer = imgVersion h ∧ (imageStarted h body m).rd R.DIC_FIELD_FW_VER = imgVersion h ∧
    (imageStarted h body m).signals = m.signals := by
  refine ⟨?_, ?_, rfl, rfl, rd_wr_same .., ?_⟩
  · rw [imageStarted, core_wr, Mach.updCore_same]
  · rw [imageStarted, core_wr, Mach.updCore_same]
  · rw [imageStarted, signals_wr, signals_updCore]
    rfl

/-- What a report to the host leaves: the cores, the load and the version. -/
theorem fwReport_keeps (n st : Nat) (m : Mach) : (fwReport n st m).cores = m.cores ∧ (fwReport n st m).bar.fwIn = m.bar.fwIn ∧
    (fwReport n st m).bar.fieldVer = m.bar.fieldVer := by
  have htr := eq_of_trunk (trunk_linkQueue (side := .field) 13 (toLe 4 n ++ toLe 4 st) m)
  refine ⟨htr.1, ?_, ?_⟩ <;> unfold fwReport linkQueue <;> split_ifs <;> rfl

variable (hs : Settled s)
include hs

theorem fwLoad_keeps (ha : Arrives .field 12 p f s m) (hh : m.keepHalted = false)
    (ho : fieldAt 0 4 p = 0 ∨ fieldAt 0 4 p = m.bar.fwIn.length)
    (hg : got = (if fieldAt 0 4 p = 0 then [] else m.bar.fwIn) ++ p.drop 4) (hl : got.length < 256) :
    To (.fwLoad f) s { m with bar := { m.bar with fwIn := got } } :=
  to_quiet_message (act := fwLoadMessage) hs rfl ha ((fwLoadMessage_of hh ho hg).trans (if_pos hl)) rfl

theorem fwLoad_starts (ha : Arrives .field 12 p f s m) (hh : m.keepHalted = false)
    (ho : fieldAt 0 4 p = 0 ∨ fieldAt 0 4 p = m.bar.fwIn.length)
    (hg : got = (if fieldAt 0 4 p = 0 then [] else m.bar.fwIn) ++ p.drop 4) (hl : 256 ≤ got.length)
    (hok : imgHeaderOk .field (got.take 256) = true) (hlen : 256 + imgLen (got.take 256) ≤ got.length)
    (hd : sha256 ((got.drop 256).take (imgLen (got.take 256))) = imgDigest (got.take 256)) : Goes (.fwLoad f) s (fun t =>
      (t.core 2).pc = BitVec.ofNat 32 (imgEntry (got.take 256)) ∧ (t.core 2).gated = false ∧ t.bar.fwIn = [] ∧
      t.bar.fieldVer = imgVersion (got.take 256) ∧ t.rd R.DIC_FIELD_FW_VER = imgVersion (got.take 256)) := by
  have hdone := fieldImageDone_starts (m := loadKept got m) rfl rfl hok hd
  have hwhole : 256 + imgLen got ≤ got.length := by
    rwa [imgLen, fieldAt_take (by omega)] at hlen
  have heq : fwLoadMessage p m = fwReport got.length 1
      (imageStarted (got.take 256) ((got.drop 256).take (imgLen (got.take 256))) (loadKept got m)) := by
    rw [fwLoadMessage_of hh ho hg, if_neg (by omega), hok, if_neg (by decide), if_pos hwhole, hdone]
    rfl
  obtain ⟨i1, i2, i3, i4, i5, i6⟩ := imageStarted_does (got.take 256) ((got.drop 256).take (imgLen (got.take 256))) (loadKept got m)
  generalize imageStarted (got.take 256) ((got.drop 256).take (imgLen (got.take 256))) (loadKept got m) = n at *
  obtain ⟨k1, k2, k3⟩ := fwReport_keeps got.length 1 n
  refine goes_message (act := fwLoadMessage) hs rfl ha heq ((signals_linkQueue ..).trans i6) ⟨?_, ?_, k2.trans i3, k3.trans i4,
    (linkQueue_rd ..).trans i5⟩
  · rw [Mach.core, k1, ← Mach.core, i1]
  · rw [Mach.core, k1, ← Mach.core, i2]

theorem fwStatus_to (ha : Arrives .host 13 p f s m) (h : fieldAt 4 1 p = 1 ∨ fieldAt 4 1 p = 2) :
    To (.fwStatus f) s ({ m with bar := { m.bar with fwOut := none } }.assertSrc 412) :=
  to_quiet_message (act := fwStatusContent) hs rfl ha (if_pos h) rfl

/-! ### Stored values -/

omit hs in
theorem restoreContent_of (hk : m.bar.kReady = false) (ho : fieldAt 0 4 p = m.bar.restored.length) (hn : fieldAt 0 4 p ≠ noticeOff)
    (hg : got = m.bar.restored ++ p.drop 4) : persRestoreContent p m = restoreContent p m ∧
    (blockWhole got = false → restoreContent p m = { m with bar := { m.bar with restored := got } }) := by
  refine ⟨if_neg hn, fun hb => ?_⟩
  unfold restoreContent
  rw [hk, Bool.false_and, if_neg (by decide), if_pos ho, ← hg]
  exact if_neg (by rw [hb]; decide)

omit hs in
theorem restoreVals_signals (vals : List (Nat × Nat)) (m : Mach) : (restoreVals vals m).signals = m.signals := by
  refine each_keeps (g := Mach.signals) ?_ _ _
  exact fun _ _ => rfl

omit hs in
theorem restoreStrs_signals (strs : List (Nat × List Byte)) (m : Mach) : (restoreStrs strs m).signals = m.signals := by
  refine each_keeps (g := Mach.signals) ?_ _ _
  exact fun _ _ => rfl

omit hs in
/-- The values of a block come in place without anything to act on. -/
theorem restoreApply_signals (vals : List (Nat × Nat)) (strs : List (Nat × List Byte)) (m : Mach) :
    (restoreApply vals strs m).signals = m.signals := by
  unfold restoreApply
  extract_lets here later dic bar m1
  exact (restoreStrs_signals ..).trans (restoreVals_signals ..)

omit hs in
/-- A whole block is applied, and the host has its values. -/
theorem restoreContent_whole (hk : m.bar.kReady = false) (ho : fieldAt 0 4 p = m.bar.restored.length)
    (hg : got = m.bar.restored ++ p.drop 4) (hb : blockWhole got = true) : (restoreContent p m).bar.kReady = true ∧
    (restoreContent p m).bar.restored = [] ∧ (restoreContent p m).signals = m.signals := by
  let b := unpackBlock got.length (got.drop 13)
  let m2 : Mach := restoreApply b.1 b.2 { m with bar := { m.bar with restored := got } }
  have hs2 : m2.signals = m.signals := restoreApply_signals ..
  let m3 : Mach := ((m2.putBit R.DIC_PERS_STATUS 3 (bit 0 (fieldAt 4 1 got))).wr R.DIC_STORE_COUNT (fieldAt 5 4 got)).wr
    R.DIC_STORED_BYTES (fieldAt 9 4 got)
  have hs3 : m3.signals = m.signals := (signals_wr ..).trans ((signals_wr ..).trans ((signals_wr ..).trans hs2))
  let m4 : Mach := { m3 with bar := { m3.bar with kReady := true, reload := false, restored := [] } }
  have heq : restoreContent p m = if m.bar.reload then (m4.putBit R.DIC_PERS_STATUS 0 false).assertSrc 418 else m4 := by
    unfold restoreContent
    rw [hk, Bool.false_and, if_neg (by decide), if_pos ho, ← hg]
    exact if_pos hb
  rw [heq]
  clear_value m3
  split_ifs
  · exact ⟨rfl, rfl, hs3⟩
  · exact ⟨rfl, rfl, hs3⟩

theorem persRestore_keeps (ha : Arrives .host 14 p f s m) (hk : m.bar.kReady = false) (hn : fieldAt 0 4 p ≠ noticeOff)
    (ho : fieldAt 0 4 p = m.bar.restored.length) (hg : got = m.bar.restored ++ p.drop 4) (hb : blockWhole got = false) :
    To (.persRestore f) s { m with bar := { m.bar with restored := got } } := by
  obtain ⟨h1, h2⟩ := restoreContent_of hk ho hn hg
  exact to_quiet_message (act := persRestoreContent) hs rfl ha (h1.trans (h2 hb)) rfl

theorem persRestore_applies (ha : Arrives .host 14 p f s m) (hk : m.bar.kReady = false) (hn : fieldAt 0 4 p ≠ noticeOff)
    (ho : fieldAt 0 4 p = m.bar.restored.length) (hg : got = m.bar.restored ++ p.drop 4) (hb : blockWhole got = true) :
    Goes (.persRestore f) s (fun t => t.bar.kReady = true ∧ t.bar.restored = []) := by
  obtain ⟨h1, -⟩ := restoreContent_of hk ho hn hg
  obtain ⟨r1, r2, r3⟩ := restoreContent_whole hk ho hg hb
  exact goes_message (act := persRestoreContent) hs rfl ha h1 r3 ⟨r1, r2⟩

omit hs in
theorem persStoreContent_piece (hh : m.keepHalted = false) (hn : fieldAt 0 4 p ≠ noticeOff) : persStoreContent p m = storePiece p m :=
  (if_neg (by rw [hh]; decide)).trans (if_pos hn)

theorem persStore_keeps (ha : Arrives .field 15 p f s m) (hh : m.keepHalted = false) (hn : fieldAt 0 4 p ≠ noticeOff)
    (ho : fieldAt 0 4 p = m.bar.persIn.length) (h0 : fieldAt 0 4 p ≠ 0) :
    To (.persStore f) s { m with bar := { m.bar with persIn := m.bar.persIn ++ p.drop 4 } } := by
  have heq : storePiece p m = { m with bar := { m.bar with persIn := m.bar.persIn ++ p.drop 4 } } := by
    unfold storePiece
    rw [if_neg h0]
    exact if_pos ho
  exact to_quiet_message (act := persStoreContent) hs rfl ha ((persStoreContent_piece hh hn).trans heq) rfl

theorem persStore_captures (ha : Arrives .field 15 p f s m) (hh : m.keepHalted = false) (hn : fieldAt 0 4 p ≠ noticeOff)
    (h0 : fieldAt 0 4 p = 0) : Goes (.persStore f) s (fun t => t.bar.persIn = p.drop 4 ∧ ∃ g, t.dic.storing = some g ∧
      g.vals = kVals m .field ∧ g.strs = kStrs m .field) := by
  have heq : storePiece p m =
      { storeCapture m with bar := { (storeCapture m).bar with persIn := (storeCapture m).bar.persIn ++ p.drop 4 } } := by
    unfold storePiece
    rw [if_pos h0]
    exact if_pos h0
  exact goes_message (act := persStoreContent) hs rfl ha ((persStoreContent_piece hh hn).trans heq) rfl ⟨rfl, _, rfl, rfl, rfl⟩

/-! ### SAFE_STATUS and RESET_REQ -/

theorem safeStatus_known (ha : Arrives .host 18 p f s m) (hl : m.linked .host = true) (hd : m.bar.adopted = true) :
    To (.safeStatus f) s m :=
  to_quiet_message (act := safeStatusContent) hs rfl ha ((if_pos hl).trans (if_pos hd)) rfl

theorem safeStatus_early (ha : Arrives .host 18 p f s m) (hl : m.linked .host = false) : To (.safeStatus f) s { m with bar := { m.bar with
    early := some (m.bar.early.getD (fieldAt 2 2 p, fieldAt 4 2 p)) } } := by
  have heq : safeStatusContent p m =
      { m with bar := { m.bar with early := some (m.bar.early.getD (fieldAt 2 2 p, fieldAt 4 2 p)) } } := by
    unfold safeStatusContent
    rw [hl, if_neg (by decide)]
    cases he : m.bar.early with
    | none => rfl
    | some e =>
      have hbar : { m.bar with early := some e } = m.bar := by rw [← he]
      exact (congrArg (fun b => { m with bar := b }) hbar).symm
  exact to_quiet_message (act := safeStatusContent) hs rfl ha heq rfl

theorem safeStatus_adopted (ha : Arrives .host 18 p f s m) (hl : m.linked .host = true) (hd : m.bar.adopted = false) :
    Goes (.safeStatus f) s (fun t => t.bar.adopted = true ∧ t.rd R.BAR_H_SAFE_CNT_A = fieldAt 2 2 p ∧
      t.rd R.BAR_H_SAFE_CNT_B = fieldAt 4 2 p) := by
  have heq : safeStatusContent p m = adopt (fieldAt 2 2 p) (fieldAt 4 2 p) m := (if_pos hl).trans (if_neg (by rw [hd]; decide))
  exact goes_message (act := safeStatusContent) hs rfl ha heq ((signals_wr ..).trans (signals_wr ..))
    ⟨rfl, (rd_wr_ne (by decide) ..).trans (rd_wr_same ..), rd_wr_same ..⟩

theorem resetReq_goes {cause : Nat} (ha : Arrives side 19 p f s m) (hc : resetReqContent side p m = softReset side cause m) :
    Goes (.resetReq side f) s (Restarted side cause s.m) := by
  obtain ⟨hal, hno⟩ := settled_of_arrives hs ha
  obtain ⟨hres, hsig⟩ := softReset_does side cause m
  have hm : m.signals = ([], []) := by rw [Mach.signals, hal, hno]
  refine goes_message (act := resetReqContent side) hs rfl ha hc ((hsig hm).trans hm.symm) ?_
  obtain ⟨F, rfl⟩ := accepted_updEnd ha.1
  exact restarted_of_trunk (trunk_updEnd F s.m) hres

end

/-- Settles O32: each accepted message answers what its content makes of the machine. -/
theorem barrierMessages : Obligations.BarrierMessages := by
  unfold Obligations.BarrierMessages
  intro s side f p m hs
  refine ⟨fun c g => message_overruled hs, fun fw x ha hx hf => ⟨dicRsp_kept hs ha hx hf, dicRsp_answers hs ha hx hf, dicRsp_aborts hs ha hx hf⟩,
    fun ha hh => halted_to (act := cycInContent) hs rfl ha (if_pos hh), fun r n => cycIn_goes hs, fun l => cycOut_goes hs,
    fun id n => event_to hs, fun ha hh => halted_to (act := fwLoadMessage) hs rfl ha (if_pos hh),
    fun got ha hh ho hg => ⟨fwLoad_keeps hs ha hh ho hg, fwLoad_starts hs ha hh ho hg⟩, fwStatus_to hs,
    fun got ha hk hn ho hg => ⟨persRestore_keeps hs ha hk hn ho hg, persRestore_applies hs ha hk hn ho hg⟩,
    fun ha hh => halted_to (act := persStoreContent) hs rfl ha (if_pos hh),
    fun ha hh hn ho => ⟨persStore_keeps hs ha hh hn ho, persStore_captures hs ha hh hn⟩,
    fun ha => ⟨safeStatus_known hs ha, safeStatus_early hs ha, safeStatus_adopted hs ha⟩,
    fun ha => ⟨fun h => resetReq_goes hs ha (if_pos h), fun h => resetReq_goes hs ha ?_⟩⟩
  exact (if_neg (by omega)).trans (if_pos h)

end Sys2Proof.Machine

/-! # O34: the field dictionary agent

A whole request is executed by `dicExec` and answered in fragments; what `dicExec` gives for each opcode is said once, and whatever leaves
nothing to act on is the command's answer. -/

namespace Sys2Proof.Machine

/-! ## Fragments of a request, and the answer -/

section
variable {s : State} {f : LinkFrame} {p : List Byte} {n m : Mach} {op : Nat} {q : Req} {r : DicRes} {k : Mach} {P : Mach → Prop}

/-- The fragments of the agent's answer wait for the host. -/
def agentReply (x op : Nat) (q : Req) (r : DicRes) (k : Mach) : Mach :=
  k.each (fragments x 0 6 0 (rspFrame op q r)) (fun b k => linkQueue .field 8 b k)

theorem agentReply_keeps {α : Type} {g : Mach → α} (h : ∀ b k, g (linkQueue .field 8 b k) = g k) (x op : Nat) (q : Req) (r : DicRes)
    (k : Mach) : g (agentReply x op q r k) = g k := each_keeps h ..

@[simp] theorem signals_agentReply (x op : Nat) (q : Req) (r : DicRes) (k : Mach) : (agentReply x op q r k).signals = k.signals :=
  agentReply_keeps (g := Mach.signals) (fun b k => signals_linkQueue .field 8 b k) ..

theorem linkQueue_dic (side : Side) (typ : Nat) (b : List Byte) (k : Mach) :
    (linkQueue side typ b k).dic = k.dic ∧ (linkQueue side typ b k).saf = k.saf := by
  unfold linkQueue
  split_ifs
  · cases side <;> exact ⟨rfl, rfl⟩
  · exact ⟨rfl, rfl⟩

theorem agentReply_does (x op : Nat) (q : Req) (r : DicRes) (k : Mach) : (agentReply x op q r k).dic = k.dic ∧
    (agentReply x op q r k).saf = k.saf ∧ ∀ o : Obj, (agentReply x op q r k).rd o = k.rd o :=
  ⟨agentReply_keeps (g := Mach.dic) (fun b k => (linkQueue_dic .field 8 b k).1) ..,
    agentReply_keeps (g := Mach.saf) (fun b k => (linkQueue_dic .field 8 b k).2) ..,
    fun o => agentReply_keeps (g := (Mach.rd · o)) (fun b k => linkQueue_rd .field 8 b o k) ..⟩

/-- The agent without the fragments of an XID. -/
def partDropped (x : Nat) (n : Mach) : Mach := { n with bar := { n.bar with parts := mapDel x n.bar.parts } }

theorem dicReqContent_first (h : fieldAt 1 1 p = 0) : dicReqContent p n = { n with bar := { n.bar with
    parts := mapPut (fieldAt 0 1 p) ⟨p.drop 4, 1, bit 0 (fieldAt 2 1 p)⟩ n.bar.parts } } := by
  simp only [dicReqContent, h]
  rfl

theorem dicReqContent_astray (h : fieldAt 1 1 p % 128 ≠ 0) (ho : fieldAt 1 1 p % 128 ≠ (mapGet {} (fieldAt 0 1 p) n.bar.parts).next) :
    dicReqContent p n = partDropped (fieldAt 0 1 p) n := by
  unfold dicReqContent
  dsimp only
  rw [if_neg h]
  exact if_pos ho

theorem dicReqContent_whole (h : fieldAt 1 1 p = 0x80) :
    dicReqContent p n = agentExec (fieldAt 0 1 p) (p.drop 4) (partDropped (fieldAt 0 1 p) n) := by
  simp only [dicReqContent, h]
  rfl

theorem agentExec_of {x : Nat} {l : List Byte} (hr : reqOf (xidRoute x) 0 l = (op, q)) (hh : m.keepHalted = false)
    (he : dicExec q.route op q m = (r, k)) : agentExec x l m = agentReply x op q r k := by
  unfold agentExec
  rw [hr, hh]
  dsimp only
  rw [if_neg (by decide), he]
  rfl

theorem agentExec_halted {x : Nat} {l : List Byte} (hr : reqOf (xidRoute x) 0 l = (op, q)) (hh : m.keepHalted = true) :
    agentExec x l m = agentReply x op q (.error .halted) m := by
  unfold agentExec
  rw [hr, hh]
  rfl

/-- The content of a whole request at the agent. -/
structure Whole (s : State) (f : LinkFrame) (p : List Byte) (n m : Mach) (op : Nat) (q : Req) : Prop where
  settled : Settled s
  arrives : Arrives .field 7 p f s n
  dropped : m = partDropped (fieldAt 0 1 p) n
  whole : fieldAt 1 1 p = 0x80
  request : reqOf (xidRoute (fieldAt 0 1 p)) 0 (p.drop 4) = (op, q)

variable (hw : Whole s f p n m op q)
include hw

theorem Whole.signals : m.signals = ([], []) := by
  obtain ⟨hal, hno⟩ := settled_of_arrives hw.settled hw.arrives
  rw [hw.dropped]
  exact Prod.ext hno hal

theorem Whole.content : dicReqContent p n = agentExec (fieldAt 0 1 p) (p.drop 4) m := by
  rw [dicReqContent_whole hw.whole, hw.dropped]

theorem Whole.to_halted (hh : m.keepHalted = true) : To (.dicReq f) s (agentReply (fieldAt 0 1 p) op q (.error .halted) m) := by
  refine to_quiet_message (act := dicReqContent) hw.settled rfl hw.arrives (hw.content.trans (agentExec_halted hw.request hh)) ?_
  rw [signals_agentReply, hw.dropped]
  rfl

/-- What a request gives is the command's answer, where it leaves nothing to act on. -/
theorem Whole.to_reply (hh : m.keepHalted = false) (he : dicExec q.route op q m = (r, k)) (hq : k.signals = m.signals) :
    To (.dicReq f) s (agentReply (fieldAt 0 1 p) op q r k) := by
  refine to_quiet_message (act := dicReqContent) hw.settled rfl hw.arrives (hw.content.trans (agentExec_of hw.request hh he)) ?_
  rw [signals_agentReply, hq, hw.dropped]
  rfl

theorem Whole.goes (hh : m.keepHalted = false) (he : dicExec q.route op q m = (r, k)) (hq : k.signals = m.signals)
    (hP : ∀ t : Mach, t.dic = k.dic → t.saf = k.saf → (∀ o : Obj, t.rd o = k.rd o) → P t) : Goes (.dicReq f) s P := by
  obtain ⟨h1, h2, h3⟩ := agentReply_does (fieldAt 0 1 p) op q r k
  exact .of_to (hw.to_reply hh he hq) (hP _ h1 h2 h3)

/-- A request that leaves something to act on is acted on in the same tick. -/
theorem Whole.to_settled (hh : m.keepHalted = false) (he : dicExec q.route op q m = (r, k)) :
    To (.dicReq f) s (settle (agentReply (fieldAt 0 1 p) op q r k)) := by
  obtain ⟨hacc, hent⟩ := hw.arrives
  have hx : linkMessage .field 7 f dicReqContent s.m = agentReply (fieldAt 0 1 p) op q r k := by
    rw [← agentExec_of hw.request hh he, ← hw.content]
    simp [linkMessage, hacc, hent]
  exact congrArg (fun m => Host.Outcome.next { s with m := settle m }) hx

end

/-! ## READ and WRITE -/

section
variable {r : Route} {op : Nat} {q : Req} {m : Mach} {o : Found} {x : Named} {h : Nat} {t : Xfer}

theorem signals_readObj (f : Found) (m : Mach) : (readObj f m).2.signals = m.signals := by
  unfold readObj
  split_ifs <;> rfl

theorem signals_octFirst (f : Found) (m : Mach) : (octFirst f m).signals = m.signals := by
  have hk (n : Mach) : (octKeep f.i n).signals = n.signals := by
    unfold octKeep
    split_ifs <;> rfl
  unfold octFirst
  split_ifs
  · obtain ⟨⟨hal, hno⟩, -⟩ := eq_of_offOctet (offOctet_octCaught (o := f.i) m)
    exact (hk _).trans (Prod.ext hno hal)
  · rfl

theorem signals_rankNote (w : Writer) (o : Obj) (m : Mach) : (rankNote w o m).signals = m.signals := by simp [Mach.signals]

/-- A WRITE that passes its checks is the plain write of its number, after the boundary of its octet's tick. -/
theorem dicExec_write_row (hn : named m q.index.toNat q.sub.toNat = some (.row o)) (ht : o.row.ty ≠ .str) (hb : o.row.ty ≠ .bool)
    (ha : o.row.acc = .rw) (hm : o.row.mach = false) (hlen : q.data.length = o.row.ty.size) (hk : chkOk m o (leNat q.data) = true)
    (ho : overruled m o.obj = false) (hr : outranked m (.dict r q.session) o.obj = false)
    (he : ∀ e ∈ effectsHost ++ effectsSide ++ effectsMotion ++ effectsOutput, e.1 ≠ o.row.id) : dicExec r 2 q m =
    (.ok (0, []), rankNote (.dict r q.session) o.obj ((octFirst o m).wr o.obj (leNat q.data))) := by
  have hw := writeObj_lands (w := .dict r q.session) (by simp [ha]) hm (by simp [ha]) hk he ho hr
  have hplain : plainWrite o (leNat q.data) (octFirst o m) = (octFirst o m).wr o.obj (leNat q.data) := by simp [plainWrite, ha]
  rw [hplain] at hw
  have hbar : writeBar (.dict r q.session) q.index.toNat .rw false false (stillFor m o (leNat q.data)) m = none :=
    writeBar_none (by simp) (by simp)
  have hd : dicWrite (.dict r q.session) (.row o) q.index.toNat q.sub.toNat q.data m =
      .ok (rankNote (.dict r q.session) o.obj ((octFirst o m).wr o.obj (leNat q.data))) := by
    simp [dicWrite, Named.acc, Named.mach, Named.ret, Named.ty, hm, hbar, ha, ht, hlen, hb, hw]
  simp [dicExec, hn, hd]

/-! ## DOMAIN transfers -/

section
variable (hn : named m q.index.toNat q.sub.toNat = some x)
include hn

/-- The transfer that a read opens on a content. -/
def readXfer (q : Req) (c : List Byte) (m : Mach) : Xfer :=
  { route := q.route, idx := q.index.toNat, sub := q.sub.toNat, wr := false, total := c.length, crc := crc32 c, data := c, last := m.tb.sclk }

theorem dicExec_openRead (ha : x.acc ≠ .wo) (hf : freeHandle m = some h) : dicExec q.route 3 q m =
    (.ok ((domCapture m q.index.toNat q.sub.toNat).1.length, toLe 4 (crc32 (domCapture m q.index.toNat q.sub.toNat).1) ++ toLe 1 h),
      setXfer h (readXfer q (domCapture m q.index.toNat q.sub.toNat).1 m) (domCapture m q.index.toNat q.sub.toNat).2) := by
  simp [dicExec, hn, domOpenRead, ha, hf, readXfer]

theorem dicExec_openWrite (ha : x.acc = .rw) (hm : x.mach = false) (hs : domSizeOk m q.index.toNat q.arg.toNat = true)
    (hx : ∀ e ∈ m.dic.xfers, e.2.idx ≠ q.index.toNat ∨ e.2.sub ≠ q.sub.toNat) (hf : freeHandle m = some h) : dicExec q.route 4 q m =
    (.ok (0, toLe 1 h), setXfer h
      { route := q.route, idx := q.index.toNat, sub := q.sub.toNat, wr := true, total := q.arg.toNat, crc := fieldAt 0 4 q.data, data := [],
        last := m.tb.sclk } m) := by
  have hbar : writeBar (.dict q.route q.session) q.index.toNat .rw false false true m = none := writeBar_none (by simp) (by simp)
  have hfree : m.dic.xfers.any (fun e => e.2.wr && !e.2.closed && e.2.idx == q.index.toNat && e.2.sub == q.sub.toNat) = false := by
    rw [List.any_eq_false]
    intro e he
    obtain h | h := hx e he <;> simp [h]
  simp only [dicExec, hn, domOpenWrite, ha, hm, hbar, hs, hfree, hf]
  rfl

variable (ht : getXfer m q.handle.toNat = some t)
include ht

theorem dicExec_segment : dicExec q.route 5 q m = domSegment q.handle.toNat t q.arg.toNat q.data m := by
  simp [dicExec, hn, ht]

theorem dicExec_close : dicExec q.route 6 q m = domClose q.handle.toNat t m := by
  simp [dicExec, hn, ht]

theorem dicExec_cancel : dicExec q.route 7 q m = (.ok (0, []), (delXfer q.handle.toNat m).assertSrc 419) := by
  simp [dicExec, hn, ht]

end

theorem domSegment_astray {off : Nat} {d : List Byte} (h1 : off ≠ t.next ∨ t.total ≤ off) :
    domSegment h t off d m = (.error .sequence, m) := if_pos (by tauto)

theorem domSegment_in {off : Nat} {d : List Byte} (hwr : t.wr = true) (h1 : off = t.next) (h2 : t.next < t.total)
    (h3 : t.next + d.length ≤ t.total) : domSegment h t off d m =
    (.ok (t.next, []), setXfer h { t with data := t.data ++ d, next := t.next + d.length, last := m.tb.sclk } m) := by
  subst h1
  unfold domSegment
  rw [if_neg (by omega), if_pos hwr]

theorem domSegment_out {off : Nat} {d : List Byte} (hwr : t.wr = false) (h1 : off = t.next) (h2 : t.next < t.total) : domSegment h t off d m =
    (.ok (t.next, (t.data.drop t.next).take 240),
      setXfer h { t with next := t.next + ((t.data.drop t.next).take 240).length, last := m.tb.sclk } m) := by
  subst h1
  unfold domSegment
  rw [if_neg (by simp [hwr]; omega), if_neg (by simp [hwr])]

theorem domClose_read (hwr : t.wr = false) : domClose h t m = (.ok (0, []), (delXfer h m).assertSrc 419) := if_pos (by simp [hwr])

theorem domClose_short (hwr : t.wr = true) (hl : t.data.length ≠ t.total) :
    domClose h t m = (.error .size, (delXfer h m).assertSrc 419) := by simp [domClose, hwr, hl]

theorem domClose_crc (hwr : t.wr = true) (hl : t.data.length = t.total) (h0 : t.route ≠ .can0) (h1 : t.route ≠ .can1)
    (hc : crc32 t.data ≠ t.crc) : domClose h t m = (.error .crc, (delXfer h m).assertSrc 419) := by
  simp [domClose, hwr, hl, h0, h1, hc]

theorem domClose_commits {k : Mach} (hwr : t.wr = true) (hl : t.data.length = t.total) (hc : crc32 t.data = t.crc)
    (hk : domCommit t.idx t.sub t.data ((delXfer h m).assertSrc 419) = .ok k) : domClose h t m = (.ok (0, []), k) := by
  simp [domClose, hwr, hl, hc, hk]

end

end Sys2Proof.Machine

/-! ## Safety sessions at the agent (R495 to R497) -/

namespace Sys2Proof.Machine

section
variable {q : Req} {m : Mach} {h : Nat} {e : Sess} {key : List Byte}

/-- With room for one more handle a challenge gets one that no session holds. -/
theorem newHandle_fresh (hl : m.saf.sess.length < 255) (seed : Nat) : sessFind m (newHandle m seed) = none := by
  unfold newHandle
  generalize hL : (List.range 255).map (fun i => 1 + (seed + i) % 255) = L
  cases hf : L.find? (fun h => (sessFind m h).isNone) with
  | some h =>
    have hp := List.find?_some hf
    exact Option.isNone_iff_eq_none.mp hp
  | none =>
    have hnodup : L.Nodup := by
      rw [← hL]
      refine List.nodup_range.map_on fun i hi j hj hij => ?_
      rw [List.mem_range] at hi hj
      omega
    have hsub : L ⊆ m.saf.sess.map Sess.handle := by
      intro h hh
      have hsome := List.find?_eq_none.mp hf h hh
      rw [Bool.not_eq_true, Option.isNone_eq_false_iff] at hsome
      obtain ⟨e, he⟩ := Option.isSome_iff_exists.mp hsome
      exact List.mem_map.mpr ⟨e, List.mem_of_find?_eq_some he, by simpa using List.find?_some he⟩
    have hle := (hnodup.subperm hsub).length_le
    rw [← hL] at hle
    simp only [List.length_map, List.length_range] at hle
    omega

theorem dicExec_session (h0 : q.route ≠ .can0) (h1 : q.route ≠ .can1) : dicExec q.route 8 q m =
    if q.arg.toNat % 256 = 1 then sessChallenge q.route m
    else if q.arg.toNat % 256 = 2 then sessProve q.route (q.arg.toNat / 256 % 256) q.data m
    else if q.arg.toNat % 256 = 3 then
      if q.session = 0 then (.error .session, m) else (.ok (0, []), sessEnd q.session.toNat m)
    else (.error .range, m) := by
  simp [dicExec, dicSession, h0, h1]

/-- The machine with a challenge's session put in. -/
def challenged (r : Route) (m : Mach) : Mach :=
  sessSet ((m.saf.sess.filter (fun s => s.isOpen || s.route != r)) ++
    [⟨newHandle m m.free.1, r, toLe 16 m.free.2.free.1, false, m.now⟩]) m.free.2.free.2

theorem sessChallenge_given (hk : m.saf.key ≠ none) (hlock : m.saf.lockUntil ≤ m.now) (hroom : sessRoom m q.route = true) :
    sessChallenge q.route m = (.ok (newHandle m m.free.1 * 256, toLe 16 m.free.2.free.1), challenged q.route m) := by
  unfold sessChallenge
  rw [if_neg (by simpa using hk), if_neg (by simp [hroom]; omega)]
  rfl

theorem sessFind_challenged (hl : m.saf.sess.length < 255) (r : Route) : sessFind (challenged r m) (newHandle m m.free.1) =
    some ⟨newHandle m m.free.1, r, toLe 16 m.free.2.free.1, false, m.now⟩ := by
  have hfresh := newHandle_fresh hl m.free.1
  have hnone : (m.saf.sess.filter (fun s => s.isOpen || s.route != r)).find? (fun s => s.handle == newHandle m m.free.1) = none := by
    rw [List.find?_eq_none] at *
    exact fun e he => List.find?_eq_none.mp hfresh e (List.mem_of_mem_filter he)
  change ((m.saf.sess.filter (fun s => s.isOpen || s.route != r)) ++ _).find? (fun s => s.handle == newHandle m m.free.1) = _
  rw [List.find?_append, hnone]
  simp

/-! ### PROVE -/

theorem sessLog_tally (sub h : Nat) (r : Route) (fail : Bool) (m : Mach) : (sessLog sub h r fail m).saf.fails = m.saf.fails ∧
    (sessLog sub h r fail m).saf.lockUntil = m.saf.lockUntil := by
  have hno : (routeNo r m).2.saf = m.saf := by
    unfold routeNo
    split_ifs <;> rfl
  unfold sessLog safLog safRaise
  dsimp only
  split_ifs <;> simp [hno]

theorem sessLog_rd {o : Obj} (ho : o.key ∉ [R.SAF_EVT.key, R.SAF_CNT_LOG_LOST.key]) (sub h : Nat) (r : Route) (fail : Bool) (m : Mach) :
    (sessLog sub h r fail m).rd o = m.rd o := by
  have hno : (routeNo r m).2.rd o = m.rd o := by
    unfold routeNo
    split_ifs <;> rfl
  exact (safLog_rd ho ..).trans hno

theorem signals_sessLog (sub h : Nat) (r : Route) (fail : Bool) (m : Mach) : (sessLog sub h r fail m).signals = m.signals :=
  (eq_of_keel (keel_sessLog ..)).2.2.2.2.2.2

/-- A proof that comes in time from the route of its challenge. -/
structure Proves (m : Mach) (r : Route) (h : Nat) (e : Sess) (key : List Byte) : Prop where
  found : sessFind m h = some e
  key : m.saf.key = some key
  shut : e.isOpen = false
  route : e.route = r
  plain : fromSpire r = false
  timely : m.now ≤ e.at_ + 800000000

/-- The session with handle h stands open. -/
def sessOpened (h : Nat) (m : Mach) : Mach :=
  sessSet (m.saf.sess.map (fun x => if x.handle = h then { x with isOpen := true, at_ := m.now } else x)) m

theorem sessFind_opened (hf : sessFind m h = some e) : sessFind (sessOpened h m) h = some { e with isOpen := true, at_ := m.now } := by
  have hh : e.handle = h := by
    have hp := List.find?_some hf
    exact eq_of_beq hp
  change (m.saf.sess.map _).find? (fun s : Sess => s.handle == h) = _
  rw [List.find?_map]
  have hcomp : ((fun s : Sess => s.handle == h) ∘ fun x => if x.handle = h then { x with isOpen := true, at_ := m.now } else x) =
      fun s => s.handle == h := by
    funext x
    dsimp only [Function.comp]
    split_ifs <;> rfl
  rw [hcomp]
  exact (congrArg (Option.map _) hf).trans (congrArg some (if_pos hh))

section
variable {r : Route} {d : List Byte} (hp : Proves m r h e key)
include hp

theorem sessProve_right (hroom : sessRoom m r = true) (hd : d = sessProof key e.nonce (routeBit r) h) : sessProve r h d m =
    (.ok (h * 256, []), sessLog 2 h r false { sessOpened h m with saf := { (sessOpened h m).saf with fails := 0 } }) := by
  obtain ⟨hf, hk, hopen, hroute, hplain, htime⟩ := hp
  have hno : routeNo r m = (routeBit r, m) := if_neg (by rw [hplain]; decide)
  unfold sessProve
  rw [hf, hk]
  dsimp only
  rw [if_neg (by simp [hopen, hroute]; omega), hno]
  dsimp only
  rw [if_neg (not_not.mpr hd), if_neg (by rw [hroom]; decide)]
  rfl

theorem sessProve_wrong (hd : d ≠ sessProof key e.nonce (routeBit r) h) : sessProve r h d m = (.error .session, sessFailed h r m) := by
  obtain ⟨hf, hk, hopen, hroute, hplain, htime⟩ := hp
  have hno : routeNo r m = (routeBit r, m) := if_neg (by rw [hplain]; decide)
  unfold sessProve
  rw [hf, hk]
  dsimp only
  rw [if_neg (by simp [hopen, hroute]; omega), hno]
  exact if_pos hd

end

/-- A failed proof is counted, and three in a row bar challenges. -/
theorem sessFailed_does (h : Nat) (r : Route) (m : Mach) : (sessFailed h r m).saf.sess = m.saf.sess ∧
    (sessFailed h r m).rd R.SAF_CNT_AUTH_FAIL = min 0xFFFFFFFF (m.rd R.SAF_CNT_AUTH_FAIL + 1) ∧
    (m.saf.fails < 2 → (sessFailed h r m).saf.fails = m.saf.fails + 1) ∧
    (2 ≤ m.saf.fails → (sessFailed h r m).saf.fails = 0 ∧ (sessFailed h r m).saf.lockUntil = m.now + 4000000000) ∧
    (sessFailed h r m).signals = m.signals := by
  obtain ⟨-, -, hsess⟩ := sessLog_fields 2 h r true (m.inc R.SAF_CNT_AUTH_FAIL)
  have hrd := (sessLog_rd (o := R.SAF_CNT_AUTH_FAIL) (by decide) 2 h r true (m.inc R.SAF_CNT_AUTH_FAIL)).trans (rd_inc_same ..)
  have hsig := (signals_sessLog 2 h r true (m.inc R.SAF_CNT_AUTH_FAIL)).trans (signals_inc ..)
  by_cases hn : m.saf.fails + 1 < 3
  · rw [show sessFailed h r m = _ from if_pos hn]
    exact ⟨hsess, hrd, fun _ => rfl, fun h => by omega, hsig⟩
  · rw [show sessFailed h r m = _ from if_neg hn]
    exact ⟨hsess, hrd, fun h => by omega, fun _ => ⟨rfl, rfl⟩, hsig⟩

/-! ### CLOSE -/

theorem sessEnd_does (hf : sessFind m h = some e) (ho : e.isOpen = true) : sessFind (sessEnd h m) h = none ∧
    (sessEnd h m).signals = m.signals := by
  rw [sessEnd_open hf ho]
  obtain ⟨-, -, hsess⟩ := sessLog_fields 3 h e.route false (sessSet (m.saf.sess.filter (fun x => x.handle != h)) m)
  refine ⟨?_, (signals_sessLog ..).trans rfl⟩
  rw [sessFind, hsess]
  simp [sessSet]

end

/-! ## The obligation -/

section
variable {s : State} {f : LinkFrame} {p : List Byte} {n m : Mach} {q : Req}

theorem sessFind_congr {t k : Mach} (h : t.saf = k.saf) (i : Nat) : sessFind t i = sessFind k i := by rw [sessFind, h, sessFind]

theorem getXfer_congr {t k : Mach} (h : t.dic = k.dic) (i : Nat) : getXfer t i = getXfer k i := by rw [getXfer, h, getXfer]

variable (hw : Whole s f p n m 8 q) (hh : m.keepHalted = false) (h0 : q.route ≠ .can0) (h1 : q.route ≠ .can1)
include hw hh h0 h1

theorem agent_challenge (hs : q.arg.toNat % 256 = 1) (hk : m.saf.key ≠ none) (hl : m.saf.lockUntil ≤ m.now)
    (hr : sessRoom m q.route = true) (hlen : m.saf.sess.length < 255) : ∃ (h : Nat) (nonce : List Byte), nonce.length = 16 ∧
      Goes (.dicReq f) s (fun k => sessFind k h = some ⟨h, q.route, nonce, false, m.now⟩) := by
  have he := (dicExec_session h0 h1 (m := m)).trans ((if_pos hs).trans (sessChallenge_given hk hl hr))
  exact ⟨_, _, length_toLe .., hw.goes hh he rfl fun t _ ht _ => (sessFind_congr ht _).trans (sessFind_challenged hlen _)⟩

theorem agent_prove {h : Nat} {e : Sess} {key : List Byte} (hs : q.arg.toNat % 256 = 2) (hh2 : h = q.arg.toNat / 256 % 256)
    (hp : Proves m q.route h e key) (hr : sessRoom m q.route = true) :
    (q.data = sessProof key e.nonce (routeBit q.route) h → Goes (.dicReq f) s (fun k =>
      sessFind k h = some { e with isOpen := true, at_ := m.now } ∧ k.saf.fails = 0)) ∧
    (q.data ≠ sessProof key e.nonce (routeBit q.route) h → Goes (.dicReq f) s (fun k => sessFind k h = some e ∧
      k.rd R.SAF_CNT_AUTH_FAIL = min 0xFFFFFFFF (m.rd R.SAF_CNT_AUTH_FAIL + 1) ∧
      (m.saf.fails < 2 → k.saf.fails = m.saf.fails + 1) ∧
      (2 ≤ m.saf.fails → k.saf.fails = 0 ∧ k.saf.lockUntil = m.now + 4000000000))) := by
  have hexec : dicExec q.route 8 q m = sessProve q.route h q.data m := by
    rw [dicExec_session h0 h1, if_neg (by omega), if_pos hs, hh2]
  refine ⟨fun hd => ?_, fun hd => ?_⟩
  · refine hw.goes hh (hexec.trans (sessProve_right hp hr hd)) (signals_sessLog ..) fun t _ ht _ => ?_
    obtain ⟨-, -, hsess⟩ := sessLog_fields 2 h q.route false { sessOpened h m with saf := { (sessOpened h m).saf with fails := 0 } }
    refine ⟨?_, (congrArg (·.fails) ht :).trans (sessLog_tally ..).1⟩
    rw [sessFind_congr ht, sessFind, hsess]
    exact sessFind_opened hp.found
  · obtain ⟨f1, f2, f3, f4, f5⟩ := sessFailed_does h q.route m
    refine hw.goes hh (hexec.trans (sessProve_wrong hp hd)) f5 fun t _ ht hrd => ?_
    refine ⟨?_, (hrd _).trans f2, ?_, ?_⟩
    · rw [sessFind_congr ht, sessFind, f1]
      exact hp.found
    · rw [ht]
      exact f3
    · rw [ht]
      exact f4

theorem agent_close {e : Sess} (hs : q.arg.toNat % 256 = 3) (hq : q.session.toNat ≠ 0) (hf : sessFind m q.session.toNat = some e)
    (ho : e.isOpen = true) : Goes (.dicReq f) s (fun k => sessFind k q.session.toNat = none) := by
  obtain ⟨hnone, hsig⟩ := sessEnd_does hf ho
  have hexec : dicExec q.route 8 q m = (.ok (0, []), sessEnd q.session.toNat m) := by
    rw [dicExec_session h0 h1, if_neg (by omega), if_neg (by omega), if_pos hs, if_neg]
    rintro h
    exact hq (by rw [h]; rfl)
  exact hw.goes hh hexec hsig fun t _ ht _ => (sessFind_congr ht _).trans hnone

end

/-- Settles O34: a whole request is `dicExec` at the agent, and its answer goes out in fragments. -/
theorem fieldAgent : Obligations.FieldAgent := by
  unfold Obligations.FieldAgent
  rintro s f p n m x hs ha rfl hm
  refine ⟨fun h => to_quiet_message (act := dicReqContent) hs rfl ha (dicReqContent_first h) rfl,
    fun h ho => hm ▸ to_quiet_message (act := dicReqContent) hs rfl ha (dicReqContent_astray h ho) rfl, ?_⟩
  rintro op idx sub q w reply h80 hreq rfl rfl rfl rfl
  have hw : Whole s f p n m op q := ⟨hs, ha, hm, h80, hreq⟩
  refine ⟨hw.to_halted, fun hh => ⟨?_, ?_, ?_, ?_, ?_, ?_, ?_⟩⟩
  · rintro o rfl hn ht
    exact hw.to_reply hh (dicExec_read (findObj_of_named hn) ht) (signals_readObj o m)
  · rintro o rfl hn ht hb hacc hmach - - hlen hchk ho hr he
    exact hw.to_reply hh (dicExec_write_row hn ht hb hacc hmach hlen hchk ho hr he)
      ((signals_rankNote ..).trans ((signals_wr ..).trans (signals_octFirst o m)))
  · rintro o h c rfl hn hacc hf hidx rfl
    have hcap : domCapture m q.index.toNat q.sub.toNat = (domContent m q.index.toNat q.sub.toNat, m) := if_neg hidx
    have he := dicExec_openRead hn hacc hf
    rw [hcap] at he
    exact hw.to_reply hh he rfl
  · rintro o h rfl hn hacc hf hidx
    have hcap : domCapture m q.index.toNat q.sub.toNat = ((Config.trace m.freeCtr).take 16777216, { m with freeCtr := m.freeCtr + 1 }) :=
      if_pos hidx
    have he := dicExec_openRead hn hacc hf
    rw [hcap] at he
    refine ⟨(Config.trace m.freeCtr).take 16777216, List.length_take_le .., hw.goes hh he rfl fun t ht _ _ => ?_⟩
    rw [getXfer_congr ht, getXfer_setXfer_same]
    rfl
  · rintro o h rfl hn hacc hmach hsize hx hf
    exact hw.to_reply hh (dicExec_openWrite hn hacc hmach hsize hx hf) rfl
  · intro o t hn ht
    refine ⟨?_, ?_, ?_, ?_, ?_, ?_, ?_, ?_⟩
    · rintro rfl h
      exact hw.to_reply hh ((dicExec_segment hn ht).trans (domSegment_astray h)) rfl
    · rintro rfl h1 h2 h3 h4
      exact hw.to_reply hh ((dicExec_segment hn ht).trans (domSegment_in h1 h2 h3 h4)) rfl
    · rintro rfl h1 h2 h3
      exact hw.to_reply hh ((dicExec_segment hn ht).trans (domSegment_out h1 h2 h3)) rfl
    · rintro rfl h1
      exact hw.to_reply hh ((dicExec_close hn ht).trans (domClose_read h1)) rfl
    · rintro rfl h1 h2
      exact hw.to_reply hh ((dicExec_close hn ht).trans (domClose_short h1 h2)) rfl
    · rintro rfl h1 h2 h3 h4 h5
      exact hw.to_reply hh ((dicExec_close hn ht).trans (domClose_crc h1 h2 h3 h4 h5)) rfl
    · rintro k rfl h1 h2 h3 h4
      exact hw.to_settled hh ((dicExec_close hn ht).trans (domClose_commits h1 h2 h3 h4))
    · rintro rfl
      exact hw.to_reply hh (dicExec_cancel hn ht) rfl
  · rintro rfl h0 h1
    refine ⟨fun hs hk => ?_, agent_challenge hw hh h0 h1, fun h e key hs hh2 hf hk ho hr hsp ht hroom =>
      agent_prove hw hh h0 h1 hs hh2 ⟨hf, hk, ho, hr, hsp, ht⟩ hroom, fun e => agent_close hw hh h0 h1⟩
    exact hw.to_reply hh ((dicExec_session h0 h1).trans ((if_pos hs).trans (if_pos (by simp [hk])))) rfl

end Sys2Proof.Machine

/-! # O36: the Ethernet ports, 802.1AS and scheduled departure (R442 to R449) -/

namespace Sys2Proof.Machine

/-! ## The lock and the state of 802.1AS -/

section
variable {m : Mach} {p : Nat}

@[simp] theorem signals_updNet (f : Net → Net) (m : Mach) : (updNet f m).signals = m.signals := rfl

@[simp] theorem signals_updGptp (f : Gptp → Gptp) (m : Mach) : (updGptp f m).signals = m.signals := rfl

theorem signals_sent {m1 : Mach} (h : Sent m m1) : m1.signals = m.signals := (eq_of_keel (keel_sent h)).2.2.2.2.2.2

theorem signals_netQueue (p : Nat) (f : TxFrame) (m : Mach) : (netQueue p f m).signals = m.signals :=
  signals_sent ((sent_updNet ..).trans (sent_netPump ..))

theorem sent_rd {m1 : Mach} (h : Sent m m1) (o : Obj) : m1.rd o = m.rd o := by
  obtain ⟨_, _, _, _, _, rfl⟩ := h
  rfl

theorem on_wr (o : Obj) (b : Bool) (m : Mach) : (m.wr o (boolNat b)).on o = b := by
  rw [Mach.on, rd_wr_same]
  cases b <;> rfl

/-- The lock reads as it is set; what else changes is its event. -/
theorem asLock_does (b : Bool) (m : Mach) : (asLock b m).on R.NET_AS_LOCKED = b ∧ (asLock b m).net = m.net ∧ (asLock b m).tb = m.tb ∧
    (asLock b m).signals = m.signals ∧
    ∀ o : Obj, o.key ≠ R.NET_AS_LOCKED.key → o.key ≠ R.NET_EVT.key → (asLock b m).rd o = m.rd o := by
  unfold asLock
  by_cases h : m.on R.NET_AS_LOCKED = b
  · rw [if_pos h]
    exact ⟨h, rfl, rfl, rfl, fun _ _ _ => rfl⟩
  rw [if_neg h]
  cases b
  · exact ⟨on_wr _ false m, rfl, rfl, signals_wr .., fun o h1 _ => rd_wr_ne h1 ..⟩
  · have hrd (o : Obj) (h2 : o.key ≠ R.NET_EVT.key) : (netRaise 4 (m.wr R.NET_AS_LOCKED 1)).rd o = (m.wr R.NET_AS_LOCKED 1).rd o := rd_raise h2
    refine ⟨?_, by simp [netRaise], by simp [netRaise], (signals_raise ..).trans (signals_wr ..),
      fun o h1 h2 => (hrd o h2).trans (rd_wr_ne h1 ..)⟩
    exact (congrArg (· % 2 == 1) (hrd R.NET_AS_LOCKED (by decide)) :).trans (on_wr _ true m)

/-- An entered state shows itself, its grandmaster and its slave port. -/
theorem asEnter_does (st gm : Nat) (slave : Option Nat) (m : Mach) : (asEnter st gm slave m).rd R.NET_AS_STATE = st ∧
    (asEnter st gm slave m).rd R.NET_AS_GM_ID = gm ∧ (asEnter st gm slave m).net.gptp.slave = slave ∧
    (asEnter st gm slave m).net.gptp.ann = m.net.gptp.ann ∧ (asEnter st gm slave m).signals = m.signals := by
  unfold asEnter
  extract_lets m1
  have hst : m1.rd R.NET_AS_STATE = st := (rd_wr_ne (by decide) ..).trans (rd_wr_same ..)
  have hgm : m1.rd R.NET_AS_GM_ID = gm := rd_wr_same ..
  have hsig : m1.signals = m.signals := (signals_wr ..).trans (signals_wr ..)
  split_ifs
  · exact ⟨hst, hgm, rfl, rfl, hsig⟩
  · obtain ⟨-, hnet, -, hs, hrd⟩ := asLock_does false (updGptp (fun g => { g with slave := slave, first := true, good := 0, slew := 0 }) m1)
    exact ⟨(hrd _ (by decide) (by decide)).trans hst, (hrd _ (by decide) (by decide)).trans hgm, congrArg (·.gptp.slave) hnet,
      congrArg (·.gptp.ann) hnet, hs.trans hsig⟩

theorem frameIn_rd {o : Obj} (h : 0x141000 ≤ o.key) (hp : p < 16) (m : Mach) : (frameIn p m).rd o = m.rd o := by
  have hk : (R.NET_PORT_CNT_RX p).key < 0x141000 := by
    change (0x1400 + p) * 256 + 6 < 0x141000
    omega
  exact rd_inc_ne (by omega) m

theorem signals_frameIn (p : Nat) (m : Mach) : (frameIn p m).signals = m.signals := signals_inc (R.NET_PORT_CNT_RX p) m

/-- The one announce of another clock decides between the own clock and it. -/
theorem bmca_one {a : AnnounceMsg} (h : m.net.gptp.ann = [(p, a)]) : bmca m =
    if m.rd R.NET_AS_PRIO1 < 255 ∧ vecBetter (ownVector m) (annVector a) = true then asEnter 3 Config.clockIdentity none m
    else asEnter 2 a.gm.toNat (some p) m := by
  unfold bmca
  simp only [h, bestAnn]
  by_cases h1 : m.rd R.NET_AS_PRIO1 < 255 <;> by_cases h2 : vecBetter (ownVector m) (annVector a) = true <;> simp [h1, h2]

theorem bmca_none (h : m.net.gptp.ann = []) : bmca m =
    if m.rd R.NET_AS_PRIO1 < 255 then asEnter 3 Config.clockIdentity none m else asEnter 1 0 none m := by
  unfold bmca
  simp only [h, bestAnn, decide_eq_true_eq]

/-- The lock after a sync: only a good run sets it, only a far offset clears it. -/
theorem syncLock_does (o : Int) (m : Mach) :
    (∀ x : Obj, x.key ≠ R.NET_AS_LOCKED.key → x.key ≠ R.NET_EVT.key → (syncLock o m).rd x = m.rd x) ∧
    (syncLock o m).net.gptp.first = m.net.gptp.first ∧ (syncLock o m).tb = m.tb ∧ (syncLock o m).net.gptp.slew = m.net.gptp.slew ∧
    (syncLock o m).signals = m.signals ∧ (200 < o.natAbs → (syncLock o m).on R.NET_AS_LOCKED = false) ∧
    (o.natAbs ≤ 50 → (syncLock o m).net.gptp.good = m.net.gptp.good + 1 ∧
      (7 ≤ m.net.gptp.good → (syncLock o m).on R.NET_AS_LOCKED = true)) := by
  unfold syncLock
  extract_lets good m1
  by_cases hfar : 200 < o.natAbs
  · rw [if_pos hfar]
    obtain ⟨hl, hnet, htb, hq, hrd⟩ := asLock_does false m1
    exact ⟨hrd, congrArg (·.gptp.first) hnet, htb, congrArg (·.gptp.slew) hnet, hq, fun _ => hl, by omega⟩
  rw [if_neg hfar]
  have hgood (h : o.natAbs ≤ 50) : good = m.net.gptp.good + 1 := if_pos h
  by_cases h8 : 8 ≤ good
  · rw [if_pos h8]
    obtain ⟨hl, hnet, htb, hq, hrd⟩ := asLock_does true m1
    exact ⟨hrd, congrArg (·.gptp.first) hnet, htb, congrArg (·.gptp.slew) hnet, hq, (absurd · hfar),
      fun h => ⟨(congrArg (·.gptp.good) hnet).trans (hgood h), fun _ => hl⟩⟩
  · rw [if_neg h8]
    refine ⟨fun _ _ _ => rfl, rfl, rfl, rfl, rfl, (absurd · hfar), fun h => ⟨hgood h, fun h7 => ?_⟩⟩
    have := hgood h
    omega

/-! ## Departure -/

theorem gateNow_netPump (p g : Nat) (m : Mach) : gateNow (netPump p m) g = gateNow m g := by
  unfold netPump
  split_ifs
  · rfl
  extract_lets q
  split
  · rfl
  extract_lets m1
  change mapGet 0 g (txStamp p _ m1).net.gate = mapGet 0 g m1.net.gate
  unfold txStamp
  dsimp only
  split_ifs <;> rfl

/-- A free port without a gate list sends the only frame of its queue at once; a sync leaves the frame with its stamp behind. -/
theorem netQueue_free {f : TxFrame} (hb : mapGet 0 p m.net.busy ≤ m.hlt) (hg : gclOn m p = false) (hq : mapGet [] p m.net.txq = []) :
    (netQueue p f m).out = ⟨.eth p, f.data⟩ :: m.out ∧
    (f.kind = .sync → mapGet [] p (netQueue p f m).net.txq = [asFrame m 8 [m.hlt + m.rd (R.NET_PORT_LAT_TX p)] .plain]) := by
  let m1 : Mach := updNet (fun n => { n with txq := mapSet [] p (mapGet [] p n.txq ++ [f]) n.txq }) m
  let m2 : Mach := updNet (fun n => { n with txq := mapSet [] p ([f].erase f) n.txq, busy := mapSet 0 p (m1.hlt + wireTime m1 p f.len) n.busy }) m1
  have hq1 : mapGet [] p m1.net.txq = [f] := by
    refine (mapGet_mapSet_same ..).trans ?_
    rw [hq]
    rfl
  have hmay : mayStart m1 p f = true := by simp [mayStart, show gclOn m1 p = false from hg]
  have hpick : pickFrame m1 p [f] = some f := by simp [pickFrame, hmay]
  have he : netQueue p f m = ((txStamp p f m2).send (.eth p) f.data).assertSrc (385 + 4 * p) := by
    change netPump p m1 = _
    unfold netPump
    rw [if_neg (show ¬m1.hlt < mapGet 0 p m1.net.busy from Nat.not_lt.mpr hb)]
    simp only [hq1, hpick]
    rfl
  rw [he]
  refine ⟨?_, fun hk => ?_⟩
  · change _ :: (txStamp p f m2).out = _
    unfold txStamp
    dsimp only
    split_ifs <;> rfl
  · change mapGet [] p (txStamp p f m2).net.txq = _
    unfold txStamp
    rw [if_neg (by rw [hk]; decide)]
    simp only [if_pos hk]
    have hrest : mapGet [] p m2.net.txq = [] := (mapGet_mapSet_same ..).trans (List.erase_cons_head ..)
    change mapGet [] p (mapSet [] p (_ :: mapGet [] p m2.net.txq) m2.net.txq) = _
    rw [mapGet_mapSet_same, hrest]
    rfl

end

/-! ## Ports and gPTP messages -/

section
variable {s : State} {p : Fin 4} (hs : Settled s)
include hs

theorem portLink_to (up : Bool) (he : s.m.on (R.NET_PORT_EN p) = true) (ho : s.m.hostOff = false) :
    To (.portLinkChange p up) s ((s.m.wr (R.NET_PORT_STATUS p) (if up then 1 + 2 * boolNat (portFast s.m p) else 0)).assertSrc (386 + 4 * p)) :=
  to_of_quiet (f := portLinkEffect p up) rfl hs (if_pos (by rw [he, ho]; rfl)) ⟨rfl, rfl⟩

theorem erroredFrame_to (he : s.m.on (R.NET_PORT_EN p) = true) (ho : s.m.hostOff = false) :
    To (.erroredFrame p) s ((s.m.inc (R.NET_PORT_CNT_ERR p)).assertSrc (386 + 4 * p)) :=
  to_of_quiet (f := erroredFrameEffect p) rfl hs (if_pos (by rw [he, ho]; rfl)) ⟨rfl, rfl⟩

theorem announce_goes {f : AnnounceMsg} (ha : asOn s.m p = true) (hd : f.domain.toNat = s.m.rd R.NET_AS_DOMAIN)
    (hn : s.m.net.gptp.ann = []) : Goes (.gptpAnnounce p f) s (fun m => m.net.gptp.ann = [(p.val, f)] ∧
      (s.m.rd R.NET_AS_PRIO1 < 255 → vecBetter (ownVector s.m) (annVector f) = true →
        m.rd R.NET_AS_STATE = 3 ∧ m.rd R.NET_AS_GM_ID = Config.clockIdentity) ∧
      (255 ≤ s.m.rd R.NET_AS_PRIO1 ∨ vecBetter (ownVector s.m) (annVector f) = false →
        m.rd R.NET_AS_STATE = 2 ∧ m.rd R.NET_AS_GM_ID = f.gm.toNat ∧ m.net.gptp.slave = some p.val)) := by
  let m1 : Mach := updGptp (fun g => { g with ann := mapPut p f g.ann }) (frameIn p s.m)
  have hann : m1.net.gptp.ann = [(p.val, f)] := by
    change mapPut p.val f s.m.net.gptp.ann = _
    rw [hn]
    rfl
  have hrd (o : Obj) (h : 0x141000 ≤ o.key) : m1.rd o = s.m.rd o := frameIn_rd h (by omega) s.m
  have hown : ownVector m1 = ownVector s.m := by rw [ownVector, hrd _ (by decide), hrd _ (by decide), ownVector]
  have he : announceEffect p f s.m = bmca m1 := if_pos (by rw [ha, hd]; exact beq_self_eq_true _)
  have hsig : m1.signals = s.m.signals := signals_frameIn p s.m
  rw [bmca_one hann, hrd _ (by decide), hown] at he
  by_cases h : s.m.rd R.NET_AS_PRIO1 < 255 ∧ vecBetter (ownVector s.m) (annVector f) = true
  · rw [if_pos h] at he
    obtain ⟨a1, a2, a3, a4, a5⟩ := asEnter_does 3 Config.clockIdentity none m1
    refine goes_quiet (f := announceEffect p f) hs rfl he (a5.trans hsig) ⟨a4.trans hann, fun _ _ => ⟨a1, a2⟩, fun hn => ?_⟩
    obtain hn | hn := hn
    · omega
    · exact absurd (h.2.symm.trans hn) (by decide)
  · rw [if_neg h] at he
    obtain ⟨a1, a2, a3, a4, a5⟩ := asEnter_does 2 f.gm.toNat (some p) m1
    exact goes_quiet (f := announceEffect p f) hs rfl he (a5.trans hsig)
      ⟨a4.trans hann, fun h1 h2 => absurd ⟨h1, h2⟩ h, fun _ => ⟨a1, a2, a3⟩⟩

theorem announceTimeout_goes {f : AnnounceMsg} (ha : asOn s.m p = true) (hn : s.m.net.gptp.ann = [(p.val, f)]) :
    Goes (.announceReceiptTimeout p) s (fun m => m.net.gptp.ann = [] ∧
      m.rd R.NET_AS_STATE = if s.m.rd R.NET_AS_PRIO1 < 255 then 3 else 1) := by
  let m1 : Mach := updGptp (fun g => { g with ann := mapDel p g.ann }) s.m
  have hann : m1.net.gptp.ann = [] := by
    change mapDel p.val s.m.net.gptp.ann = _
    rw [hn]
    simp [mapDel]
  have he : announceTimeoutEffect p s.m = bmca m1 := if_pos ha
  rw [bmca_none hann, show m1.rd R.NET_AS_PRIO1 = s.m.rd R.NET_AS_PRIO1 from rfl] at he
  split_ifs at he ⊢
  · obtain ⟨a1, -, -, a4, a5⟩ := asEnter_does 3 Config.clockIdentity none m1
    exact goes_quiet (f := announceTimeoutEffect p) hs rfl he (a5.trans rfl) ⟨a4.trans hann, a1⟩
  · obtain ⟨a1, -, -, a4, a5⟩ := asEnter_does 1 0 none m1
    exact goes_quiet (f := announceTimeoutEffect p) hs rfl he (a5.trans rfl) ⟨a4.trans hann, a1⟩

theorem pdelay_goes {t1 t2 t3 t4 : BitVec 64} {a d : Int} (ho : asOn s.m p = true)
    (ha : a = ((t4.toNat : Int) - s.m.rd (R.NET_PORT_LAT_RX p)) - (t1.toNat + s.m.rd (R.NET_PORT_LAT_TX p)) - (t3.toNat - t2.toNat))
    (h1 : 2 * d ≤ a) (h2 : a < 2 * d + 2) (h3 : -(2 ^ 32) ≤ d) :
    Goes (.pdelayMeasurement p t1 t2 t3 t4) s (fun m => linkDelay m p = d) := by
  have hd : a / 2 = d := by omega
  have he : pdelayEffect p t1.toNat t2.toNat t3.toNat t4.toNat s.m =
      updGptp (fun g => { g with delay := mapSet (2 ^ 32) p (d + 2 ^ 32).toNat g.delay }) s.m := by
    unfold pdelayEffect
    rw [if_pos ho]
    dsimp only
    rw [← ha, hd]
  refine goes_quiet (f := pdelayEffect p t1.toNat t2.toNat t3.toNat t4.toNat) hs rfl he rfl ?_
  have hget : linkDelay (updGptp (fun g => { g with delay := mapSet (2 ^ 32) p (d + 2 ^ 32).toNat g.delay }) s.m) p =
      (((d + 2 ^ 32).toNat : Nat) : Int) - 2 ^ 32 :=
    congrArg (fun n : Nat => (n : Int) - 2 ^ 32) (mapGet_mapSet_same ..)
  rw [hget]
  omega

theorem pdelayResponse_to {seq : BitVec 16} {t2 t3 : BitVec 64} (ho : asOn s.m p = true) :
    To (.pdelayResponse p seq t2 t3) s (netQueue p ⟨0, 72, [0x88F7, 3, s.m.rd R.NET_AS_DOMAIN, seq.toNat,
      t2.toNat - s.m.rd (R.NET_PORT_LAT_RX p), t3.toNat + s.m.rd (R.NET_PORT_LAT_TX p)], .event⟩ (rxStamp p t2.toNat (frameIn p s.m))) := by
  have hdom : (rxStamp p t2.toNat (frameIn p s.m)).rd R.NET_AS_DOMAIN = s.m.rd R.NET_AS_DOMAIN := frameIn_rd (by decide) (by omega) s.m
  have he : pdelayResponseEffect p seq.toNat t2.toNat t3.toNat s.m = netQueue p ⟨0, 72, [0x88F7, 3, s.m.rd R.NET_AS_DOMAIN, seq.toNat,
      t2.toNat - s.m.rd (R.NET_PORT_LAT_RX p), t3.toNat + s.m.rd (R.NET_PORT_LAT_TX p)], .event⟩ (rxStamp p t2.toNat (frameIn p s.m)) := by
    rw [← hdom]
    exact if_pos ho
  have hsig := (signals_netQueue p ⟨0, 72, [0x88F7, 3, s.m.rd R.NET_AS_DOMAIN, seq.toNat,
      t2.toNat - s.m.rd (R.NET_PORT_LAT_RX p), t3.toNat + s.m.rd (R.NET_PORT_LAT_TX p)], .event⟩ (rxStamp p t2.toNat (frameIn p s.m))).trans
      (signals_frameIn p s.m)
  exact to_of_quiet (f := pdelayResponseEffect p seq.toNat t2.toNat t3.toNat) rfl hs he ⟨congrArg (·.2) hsig, congrArg (·.1) hsig⟩

theorem gmSync_to (h : s.m.rd R.NET_AS_STATE = 3) : To .grandmasterSync s (s.m.each (List.range 4) (fun k m =>
    if asOn m k then netQueue k ⟨0, 64, [0x88F7, 0, m.rd R.NET_AS_DOMAIN], .sync⟩ m else m)) := by
  have hstep (k : Nat) (m : Mach) : (if asOn m k then netQueue k ⟨0, 64, [0x88F7, 0, m.rd R.NET_AS_DOMAIN], .sync⟩ m else m).signals =
      m.signals := by
    split_ifs
    · exact signals_netQueue ..
    · rfl
  have hsig := each_keeps (g := Mach.signals) hstep (List.range 4) s.m
  exact to_of_quiet (f := gmSyncEffect) rfl hs (if_pos h) ⟨congrArg (·.2) hsig, congrArg (·.1) hsig⟩

theorem arp_to {mac : BitVec 48} {ip target : Word} (hp : portOn s.m p = true) :
    (s.m.rd R.NET_ENCAP = 1 → s.m.rd R.NET_IPV4 ≠ 0 → target.toNat = s.m.rd R.NET_IPV4 → To (.arpRequest p mac ip target) s
      (netQueue p ⟨0, 64, [0x0806, mac.toNat, ip.toNat, target.toNat], .plain⟩ (frameIn p s.m))) ∧
    (s.m.rd R.NET_ENCAP ≠ 1 ∨ target.toNat ≠ s.m.rd R.NET_IPV4 → To (.arpRequest p mac ip target) s (frameIn p s.m)) := by
  refine ⟨fun h1 h2 h3 => ?_, fun h => ?_⟩
  · have hsig := (signals_netQueue p ⟨0, 64, [0x0806, mac.toNat, ip.toNat, target.toNat], .plain⟩ (frameIn p s.m)).trans
      (signals_frameIn p s.m)
    exact to_of_quiet (f := arpEffect p mac.toNat ip.toNat target.toNat) rfl hs ((if_pos hp).trans (if_pos ⟨h1, h2, h3⟩))
      ⟨congrArg (·.2) hsig, congrArg (·.1) hsig⟩
  · refine to_of_quiet (f := arpEffect p mac.toNat ip.toNat target.toNat) rfl hs ((if_pos hp).trans (if_neg ?_)) ⟨rfl, rfl⟩
    rintro ⟨h1, -, h3⟩
    exact h.elim (· h1) (· h3)

theorem cbReset_goes (mac : BitVec 48) : Goes (.cbStreamReset mac) s (fun m => m.net.cb = s.m.net.cb.filter (fun x => x.mac != mac.toNat)) :=
  goes_quiet (f := cbResetEffect mac.toNat) hs rfl rfl rfl rfl

theorem gptpSync_goes {f : SyncMsg} {o : Int} (ha : asOn s.m p = true) (hd : f.domain.toNat = s.m.rd R.NET_AS_DOMAIN)
    (hst : s.m.rd R.NET_AS_STATE = 2) (hsl : s.m.net.gptp.slave = some p.val) (ho : o = syncOffset s.m p f) :
    Goes (.gptpSync p f) s (fun m => m.rd R.NET_AS_OFFSET = ofSigned 32 (satSigned 32 o) ∧ m.net.gptp.first = false ∧
      (s.m.net.gptp.first = true → 1000 < o.natAbs →
        m.tb.hlt2 = ofSigned 65 ((s.m.tb.hlt2 : Int) - 2 * o) ∧ m.on R.NET_AS_LOCKED = false) ∧
      (s.m.net.gptp.first = false ∨ o.natAbs ≤ 1000 → m.tb.hlt2 = s.m.tb.hlt2 ∧ m.net.gptp.slew = -o ∧
        (200 < o.natAbs → m.on R.NET_AS_LOCKED = false) ∧
        (o.natAbs ≤ 50 → m.net.gptp.good = s.m.net.gptp.good + 1 ∧
          (7 ≤ s.m.net.gptp.good → m.on R.NET_AS_LOCKED = true)))) := by
  let m1 : Mach := (rxStamp p f.stamp.toNat (frameIn p s.m)).wrI 32 R.NET_AS_OFFSET (satSigned 32 o)
  have hoff : m1.rd R.NET_AS_OFFSET = ofSigned 32 (satSigned 32 o) := rd_wr_same ..
  have hsig : m1.signals = s.m.signals := (signals_wr ..).trans (signals_frameIn p s.m)
  have he : syncEffect p f s.m = if s.m.net.gptp.first && decide (1000 < o.natAbs) then
      asLock false (updGptp (fun g => { g with first := false, good := 0, slew := 0 })
        { m1 with tb := { m1.tb with hlt2 := ofSigned 65 ((m1.tb.hlt2 : Int) - 2 * o) } })
      else syncLock o (updGptp (fun g => { g with first := false, slew := -o }) m1) := by
    subst ho
    exact if_pos (by simp [ha, hd, hst, hsl])
  by_cases hstep : s.m.net.gptp.first = true ∧ 1000 < o.natAbs
  · rw [if_pos (by simpa using hstep)] at he
    obtain ⟨hl, hnet, htb, hq, hrd⟩ := asLock_does false (updGptp (fun g => { g with first := false, good := 0, slew := 0 })
      { m1 with tb := { m1.tb with hlt2 := ofSigned 65 ((m1.tb.hlt2 : Int) - 2 * o) } })
    refine goes_quiet (f := syncEffect p f) hs rfl he (hq.trans hsig) ⟨(hrd _ (by decide) (by decide)).trans hoff,
      congrArg (·.gptp.first) hnet, fun _ _ => ⟨congrArg (·.hlt2) htb, hl⟩, fun h => ?_⟩
    obtain h | h := h
    · exact absurd (hstep.1.symm.trans h) (by decide)
    · omega
  · rw [if_neg (by simpa using hstep)] at he
    obtain ⟨hrd, hfirst, htb, hslew, hq, hfar, hnear⟩ := syncLock_does o (updGptp (fun g => { g with first := false, slew := -o }) m1)
    exact goes_quiet (f := syncEffect p f) hs rfl he (hq.trans hsig) ⟨(hrd _ (by decide) (by decide)).trans hoff, hfirst,
      fun h1 h2 => absurd ⟨h1, h2⟩ hstep, fun _ => ⟨congrArg (·.hlt2) htb, hslew, hfar, hnear⟩⟩

theorem gateChange_goes {g : Fin 2} (hg : gclOn s.m g = true) : Goes (.gateEntryChange g) s (fun m => gateNow m g =
    if gclLen s.m g ≤ gateNow s.m g + 1 ∨ gclEnd s.m g (gateNow s.m g) = s.m.rd R.NET_CYCLE then 0 else gateNow s.m g + 1) :=
  goes_quiet (f := gateChangeEffect g) hs rfl (if_pos hg)
    (signals_sent ((sent_updNet ..).trans (sent_netPump ..))) ((gateNow_netPump ..).trans (mapGet_mapSet_same ..))

end

/-- The Ethernet, gPTP and gate commands of R442 to R449. Settles O36. -/
theorem networkCommands : Obligations.NetworkCommands := by
  unfold Obligations.NetworkCommands
  intro s p hs
  exact ⟨portLink_to hs, erroredFrame_to hs, fun _ _ => gptpSync_goes hs, fun _ => announce_goes hs,
    fun _ => announceTimeout_goes hs, fun _ _ _ _ _ _ => pdelay_goes hs, fun _ _ _ => pdelayResponse_to hs, gmSync_to hs,
    fun _ _ => netQueue_free, fun _ _ _ => arp_to hs, cbReset_goes hs, fun _ => gateChange_goes hs⟩

end Sys2Proof.Machine

/-! # O37, first part: running the line cycle and the mirror pair (R458, R462 to R467) -/

namespace Sys2Proof.Machine

/-- What the step of one element establishes stands after the list, where the other elements' steps keep it and what it needs. -/
theorem each_at {α : Type} {f : α → Mach → Mach} {I P : Mach → Prop} {a : α} (hneed : ∀ b m, b ≠ a → I m → I (f b m))
    (hset : ∀ m, I m → P (f a m)) (hkeep : ∀ b m, b ≠ a → P m → P (f b m)) {l : List α} (hn : l.Nodup) (ha : a ∈ l) {m : Mach} (h : I m) :
    P (m.each l f) := by
  have hall (l : List α) (hl : a ∉ l) (m : Mach) (h : P m) : P (m.each l f) := by
    induction l generalizing m with
    | nil => exact h
    | cons b l ih =>
      rw [List.mem_cons, not_or] at hl
      exact ih hl.2 _ (hkeep b m (Ne.symm hl.1) h)
  induction l generalizing m with
  | nil => exact absurd ha (List.not_mem_nil)
  | cons b l ih =>
    obtain ⟨hb, hn⟩ := List.nodup_cons.mp hn
    obtain rfl | ha := List.mem_cons.mp ha
    · exact hall l hb _ (hset m h)
    · exact ih hn ha (hneed b m (fun h => hb (h ▸ ha)) h)

/-! ## The state of the mirror pair -/

section
variable {m : Mach}

/-- An entered state shows itself and its event; but for what was heard in it, the network stands. -/
theorem redEnter_does (st : Nat) (m : Mach) : (redEnter st m).rd R.RED_STATE = st ∧
    { (redEnter st m).net with redHeard := m.net.redHeard, redCnt := m.net.redCnt } = m.net ∧ (redEnter st m).signals = m.signals ∧
    (m.rd R.RED_STATE ≠ st → bit 0 ((redEnter st m).rd R.RED_EVT) = true) ∧
    ∀ o : Obj, o.key ≠ R.RED_STATE.key → o.key ≠ R.RED_EVT.key → (redEnter st m).rd o = m.rd o := by
  unfold redEnter
  split_ifs with h
  · exact ⟨h, rfl, rfl, fun hn => absurd h hn, fun _ _ _ => rfl⟩
  · refine ⟨(rd_raise (by decide)).trans (rd_wr_same ..), ?_, (signals_raise ..).trans (signals_wr R.RED_STATE st m), fun _ => ?_,
      fun o h1 h2 => (rd_raise h2).trans (rd_wr_ne h1 ..)⟩
    · simp [redRaise, updNet]
    · rw [redRaise, rd_raise_same, bit_setBit_same]

theorem redOff_does (m : Mach) : (redOff m).rd R.RED_STATE = 0 ∧ (redOff m).rd R.RED_EPOCH = 0 ∧ (redOff m).signals = m.signals ∧
    ∀ o : Obj, o.key ≠ R.RED_STATE.key → o.key ≠ R.RED_EVT.key → o.key ≠ R.RED_EPOCH.key → (redOff m).rd o = m.rd o := by
  obtain ⟨h1, -, h2, -, h3⟩ := redEnter_does 0 m
  exact ⟨(rd_wr_ne (by decide) ..).trans h1, rd_wr_same .., (signals_wr ..).trans h2,
    fun o a1 a2 a3 => (rd_wr_ne a3 ..).trans (h3 o a1 a2)⟩

end

/-! ## Running the cycle -/

/-- An object outside the 16 partners' entries. -/
def OffPtn (o : Obj) : Prop := o.key < 0x142000 ∨ 0x143000 ≤ o.key

section
variable {m : Mach} {p v n : Nat} {o : Obj}

/-- A partner's entry waits or is unused, with nothing missed. -/
theorem ptnSet_does (p n : Nat) (m : Mach) : ((m.wr (R.NET_PTN_STATE p) n).wr (R.NET_PTN_MISSED p) 0).rd (R.NET_PTN_STATE p) = n ∧
    ((m.wr (R.NET_PTN_STATE p) n).wr (R.NET_PTN_MISSED p) 0).rd (R.NET_PTN_MISSED p) = 0 := by
  refine ⟨(rd_wr_ne ?_ ..).trans (rd_wr_same ..), rd_wr_same ..⟩
  simp only [Obj.key, R.NET_PTN_STATE, R.NET_PTN_MISSED]
  omega

theorem ptnSet_rd (h2 : o.key ≠ (R.NET_PTN_STATE p).key) (h3 : o.key ≠ (R.NET_PTN_MISSED p).key) :
    ((m.wr (R.NET_PTN_STATE p) n).wr (R.NET_PTN_MISSED p) 0).rd o = m.rd o := (rd_wr_ne h3 ..).trans (rd_wr_ne h2 ..)

theorem ptnSet_apart (h : OffPtn o) (hp : p < 16) : o.key ≠ (R.NET_PTN_STATE p).key ∧ o.key ≠ (R.NET_PTN_MISSED p).key := by
  simp only [OffPtn, Obj.key, R.NET_PTN_STATE, R.NET_PTN_MISSED] at h ⊢
  omega

/-- Every partner's entry takes the state that g gives its node, with nothing missed. -/
def ptnsSet (g : Nat → Nat) (m : Mach) : Mach :=
  m.each (List.range 16) (fun p m => (m.wr (R.NET_PTN_STATE p) (g (m.rd (R.NET_PTN_NODE p)))).wr (R.NET_PTN_MISSED p) 0)

theorem ptnsSet_does (g : Nat → Nat) (m : Mach) : ∀ p < 16,
    (ptnsSet g m).rd (R.NET_PTN_STATE p) = g (m.rd (R.NET_PTN_NODE p)) ∧ (ptnsSet g m).rd (R.NET_PTN_MISSED p) = 0 := by
  intro p hp
  refine each_at (I := fun x => x.rd (R.NET_PTN_NODE p) = m.rd (R.NET_PTN_NODE p))
    (P := fun x => x.rd (R.NET_PTN_STATE p) = g (m.rd (R.NET_PTN_NODE p)) ∧ x.rd (R.NET_PTN_MISSED p) = 0) (fun b x hb h => ?_)
    (fun x h => ?_) (fun b x hb h => ?_) List.nodup_range (List.mem_range.mpr hp) rfl
  · refine (ptnSet_rd ?_ ?_).trans h <;> simp only [Obj.key, R.NET_PTN_STATE, R.NET_PTN_MISSED, R.NET_PTN_NODE] <;> omega
  · rw [h]
    exact ptnSet_does ..
  · refine ⟨(ptnSet_rd ?_ ?_).trans h.1, (ptnSet_rd ?_ ?_).trans h.2⟩ <;> simp only [Obj.key, R.NET_PTN_STATE, R.NET_PTN_MISSED] <;> omega

theorem ptnsSet_keeps (g : Nat → Nat) (m : Mach) : (ptnsSet g m).net = m.net ∧ (ptnsSet g m).signals = m.signals ∧
    ∀ o : Obj, OffPtn o → (ptnsSet g m).rd o = m.rd o := by
  refine ⟨?_, ?_, fun o ho => ?_⟩
  · refine each_keeps (g := Mach.net) ?_ _ _
    exact fun _ _ => rfl
  · refine each_keeps (g := Mach.signals) ?_ _ _
    exact fun _ _ => (signals_wr ..).trans (signals_wr ..)
  · refine each_keeps_of (g := fun m => m.rd o) (fun p hp x => ?_) _
    obtain ⟨h2, h3⟩ := ptnSet_apart ho (List.mem_range.mp hp)
    exact ptnSet_rd h2 h3

end

section
variable {s : State} {w : Writer} (hs : Settled s)
include hs

theorem netRunOn_leads (hok : netRunOk s.m = true) (hoff : s.m.on R.NET_RUN = false) : Leads (.netRunOn w) s w R.NET_RUN false (fun m =>
    m.on R.NET_RUN = true ∧ m.net.roles = s.m.net.roles ∧ m.net.cycles = [] ∧
    (s.m.on R.RED_EN = true → m.rd R.RED_STATE = 1) ∧ (s.m.on R.RED_EN = false → m.rd R.RED_STATE = s.m.rd R.RED_STATE) ∧
    ∀ p < 16, m.rd (R.NET_PTN_STATE p) = (if s.m.rd (R.NET_PTN_NODE p) = 0 then 0 else 1) ∧ m.rd (R.NET_PTN_MISSED p) = 0) := by
  let m1 : Mach := updNet (fun n => { n with sets := [], lastSet := [], cycles := [], heard := [], redHeard := false, redCnt := 0 })
    (s.m.wr R.NET_RUN 1)
  let m2 : Mach := ptnsSet (fun n => if n = 0 then 0 else 1) m1
  have he : netRunOnEffect s.m = .ok (if m2.on R.RED_EN then redEnter 1 m2 else m2) := by
    simp only [netRunOnEffect, hok, hoff, Bool.not_true, Bool.false_eq_true, if_false]
    rfl
  have hptn : ∀ p < 16, m2.rd (R.NET_PTN_STATE p) = (if m1.rd (R.NET_PTN_NODE p) = 0 then 0 else 1) ∧
    m2.rd (R.NET_PTN_MISSED p) = 0 := ptnsSet_does (fun n => if n = 0 then 0 else 1) m1
  obtain ⟨hnet, hsig, hrd⟩ : m2.net = m1.net ∧ m2.signals = m1.signals ∧ ∀ o : Obj, OffPtn o → m2.rd o = m1.rd o :=
    ptnsSet_keeps (fun n => if n = 0 then 0 else 1) m1
  clear_value m2
  have hrd1 (o : Obj) (h : o.key ≠ R.NET_RUN.key) : m1.rd o = s.m.rd o := rd_wr_ne h s.m 1
  have hnode (p : Nat) (hp : p < 16) : m1.rd (R.NET_PTN_NODE p) = s.m.rd (R.NET_PTN_NODE p) := hrd1 _ (by
    simp only [Obj.key, R.NET_PTN_NODE, R.NET_RUN]
    omega)
  have hrun : m2.rd R.NET_RUN = 1 := (hrd _ (.inl (by decide))).trans (rd_wr_same s.m R.NET_RUN 1)
  have hen : m2.on R.RED_EN = s.m.on R.RED_EN :=
    congrArg (· % 2 == 1) ((hrd _ (.inr (by decide))).trans (hrd1 _ (by decide)))
  have hsig1 : m2.signals = s.m.signals := hsig.trans (signals_wr R.NET_RUN 1 s.m)
  have hptn2 (p : Nat) (hp : p < 16) : m2.rd (R.NET_PTN_STATE p) = (if s.m.rd (R.NET_PTN_NODE p) = 0 then 0 else 1) ∧
      m2.rd (R.NET_PTN_MISSED p) = 0 := by
    rw [← hnode p hp]
    exact hptn p hp
  rw [hen] at he
  cases hred : s.m.on R.RED_EN
  · rw [hred, if_neg Bool.false_ne_true] at he
    refine leads_of_frame (eff := netRunOnEffect) rfl hs he ⟨congrArg (·.2) hsig1, congrArg (·.1) hsig1⟩ fun n hn => ?_
    have hrdn (o : Obj) : n.rd o = m2.rd o := by rw [← hn]; rfl
    have hnn : n.net = m2.net := by rw [← hn]
    rw [hnn, hnet]
    refine ⟨?_, rfl, rfl, fun h => absurd h Bool.false_ne_true,
      fun _ => (hrdn _).trans ((hrd _ (.inr (by decide))).trans (hrd1 _ (by decide))), fun p hp => ?_⟩
    · rw [Mach.on, hrdn, hrun]
      rfl
    · rw [hrdn, hrdn]
      exact hptn2 p hp
  · rw [hred, if_pos rfl] at he
    obtain ⟨hst, hnet2, hsig2, -, hrd2⟩ := redEnter_does 1 m2
    have hq := hsig2.trans hsig1
    refine leads_of_frame (eff := netRunOnEffect) rfl hs he ⟨congrArg (·.2) hq, congrArg (·.1) hq⟩ fun n hn => ?_
    have hrdn (o : Obj) : n.rd o = (redEnter 1 m2).rd o := by rw [← hn]; rfl
    have hnn : n.net = (redEnter 1 m2).net := by rw [← hn]
    have hnet3 := hnet2.trans hnet
    rw [hnn]
    refine ⟨?_, congrArg (·.roles) hnet3, congrArg (·.cycles) hnet3, fun _ => (hrdn _).trans hst, fun h => absurd h.symm Bool.false_ne_true,
      fun p hp => ?_⟩
    · rw [Mach.on, hrdn, hrd2 _ (by decide) (by decide), hrun]
      rfl
    · have hkey : ∀ o ∈ [R.NET_PTN_STATE p, R.NET_PTN_MISSED p], o.key ≠ R.RED_STATE.key ∧ o.key ≠ R.RED_EVT.key := by
        simp only [List.mem_cons, List.not_mem_nil, or_false, forall_eq_or_imp, forall_eq, Obj.key, R.NET_PTN_STATE, R.NET_PTN_MISSED,
          R.RED_STATE, R.RED_EVT]
        omega
      obtain ⟨hk1, hk2⟩ := hkey (R.NET_PTN_STATE p) (by simp)
      obtain ⟨hk3, hk4⟩ := hkey (R.NET_PTN_MISSED p) (by simp)
      rw [hrdn, hrdn, hrd2 _ hk1 hk2, hrd2 _ hk3 hk4]
      exact hptn2 p hp

theorem netRunOff_leads : Leads (.netRunOff w) s w R.NET_RUN false (fun m => m.on R.NET_RUN = false ∧ m.rd R.RED_STATE = 0 ∧
    m.rd R.RED_EPOCH = 0 ∧ ∀ p < 16, m.rd (R.NET_PTN_STATE p) = 0) := by
  obtain ⟨m1, he, hst, hep, hsig⟩ : ∃ m1 : Mach, netRunOffEffect s.m = ptnsSet (fun _ => 0) (m1.wr R.NET_RUN 0) ∧ m1.rd R.RED_STATE = 0 ∧
      m1.rd R.RED_EPOCH = 0 ∧ m1.signals = s.m.signals := by
    by_cases h : s.m.rd R.RED_STATE = 0
    · refine ⟨s.m.wr R.RED_EPOCH 0, ?_, (rd_wr_ne (by decide) ..).trans h, rd_wr_same .., signals_wr ..⟩
      rw [netRunOffEffect, if_pos h]
      rfl
    · obtain ⟨h1, h2, h3, -⟩ := redOff_does s.m
      refine ⟨redOff s.m, ?_, h1, h2, h3⟩
      rw [netRunOffEffect, if_neg h]
      rfl
  obtain ⟨-, hq, hrd⟩ := ptnsSet_keeps (fun _ => 0) (m1.wr R.NET_RUN 0)
  have hptn (p : Nat) (hp : p < 16) : (ptnsSet (fun _ => 0) (m1.wr R.NET_RUN 0)).rd (R.NET_PTN_STATE p) = 0 :=
    (ptnsSet_does (fun _ => 0) (m1.wr R.NET_RUN 0) p hp).1
  generalize ptnsSet (fun _ => 0) (m1.wr R.NET_RUN 0) = m2 at he hq hrd hptn
  have hq := hq.trans ((signals_wr ..).trans hsig)
  refine leads_of_frame (eff := fun m => .ok (netRunOffEffect m)) rfl hs (congrArg Except.ok he) ⟨congrArg (·.2) hq, congrArg (·.1) hq⟩
    fun n hn => ?_
  have hrdn (o : Obj) : n.rd o = m2.rd o := by rw [← hn]; rfl
  refine ⟨?_, (hrdn _).trans ((hrd _ (.inr (by decide))).trans ((rd_wr_ne (by decide) ..).trans hst)),
    (hrdn _).trans ((hrd _ (.inr (by decide))).trans ((rd_wr_ne (by decide) ..).trans hep)), fun p hp => (hrdn _).trans (hptn p hp)⟩
  rw [Mach.on, hrdn, hrd _ (.inl (by decide)), rd_wr_same]
  rfl

/-! ## The mirror pair -/

theorem redEnOff_leads : Leads (.redEnWrite w false) s w R.RED_EN false (fun m => m.on R.RED_EN = false ∧ m.rd R.RED_STATE = 0 ∧
    m.rd R.RED_EPOCH = 0) := by
  obtain ⟨hst, hep, hsig, hrd⟩ := redOff_does (s.m.wr R.RED_EN 0)
  have hq := hsig.trans (signals_wr ..)
  refine leads_of_frame (eff := fun m => .ok (redEnEffect 0 m)) (m := redOff (s.m.wr R.RED_EN 0)) rfl hs rfl ⟨congrArg (·.2) hq, congrArg (·.1) hq⟩ fun n hn => ?_
  have hrdn (o : Obj) : n.rd o = (redOff (s.m.wr R.RED_EN 0)).rd o := by rw [← hn]; rfl
  refine ⟨?_, (hrdn _).trans hst, (hrdn _).trans hep⟩
  rw [Mach.on, hrdn, hrd _ (by decide) (by decide) (by decide), rd_wr_same]
  rfl

theorem redEnOn_leads (h0 : s.m.rd R.RED_STATE = 0) (hrun : s.m.on R.NET_RUN = true) : Leads (.redEnWrite w true) s w R.RED_EN false
    (fun m => m.on R.RED_EN = true ∧ m.rd R.RED_STATE = 1 ∧ bit 0 (m.rd R.RED_EVT) = true) := by
  obtain ⟨hst, -, hsig, hevt, hrd⟩ := redEnter_does 1 (s.m.wr R.RED_EN 1)
  have hq := hsig.trans (signals_wr ..)
  have he : redEnEffect 1 s.m = redEnter 1 (s.m.wr R.RED_EN 1) := by
    rw [redEnEffect, if_neg Nat.one_ne_zero, if_pos ⟨h0, hrun⟩]
  refine leads_of_frame (eff := fun m => .ok (redEnEffect 1 m)) rfl hs (congrArg Except.ok he) ⟨congrArg (·.2) hq, congrArg (·.1) hq⟩
    fun n hn => ?_
  have hrdn (o : Obj) : n.rd o = (redEnter 1 (s.m.wr R.RED_EN 1)).rd o := by rw [← hn]; rfl
  rw [hrdn R.RED_STATE, hrdn R.RED_EVT]
  refine ⟨?_, hst, hevt ?_⟩
  · rw [Mach.on, hrdn, hrd _ (by decide) (by decide), rd_wr_same]
    rfl
  · rw [rd_wr_ne (by decide), h0]
    decide

theorem rejoin_leads (h : s.m.rd R.RED_STATE = 4) : Leads (.rejoin w) s w R.RED_CMD false (fun m =>
    m.rd R.RED_STATE = 2 ∧ m.rd R.RED_EPOCH = ownRoleEpoch s.m) := by
  obtain ⟨hst, -, hsig, -⟩ := redEnter_does 2 s.m
  have hq : ((redEnter 2 s.m).wr R.RED_EPOCH (ownRoleEpoch s.m)).signals = s.m.signals := (signals_wr ..).trans hsig
  refine leads_of_frame (eff := redCmdEffect 1) rfl hs (congrArg Except.ok (if_pos h)) ⟨congrArg (·.2) hq, congrArg (·.1) hq⟩
    fun n hn => ?_
  have hrdn (o : Obj) : n.rd o = ((redEnter 2 s.m).wr R.RED_EPOCH (ownRoleEpoch s.m)).rd o := by rw [← hn]; rfl
  exact ⟨(hrdn _).trans ((rd_wr_ne (by decide) ..).trans hst), (hrdn _).trans (rd_wr_same ..)⟩

theorem yield_leads (h : s.m.rd R.RED_STATE = 3) : Leads (.yield w) s w R.RED_CMD false (fun m =>
    m.rd R.RED_STATE = 2 ∧ m.rd R.RED_EPOCH = s.m.rd R.RED_EPOCH) := by
  obtain ⟨hst, -, hq, -, hrd⟩ := redEnter_does 2 s.m
  refine leads_of_frame (eff := redCmdEffect 2) rfl hs (congrArg Except.ok (if_pos h)) ⟨congrArg (·.2) hq, congrArg (·.1) hq⟩
    fun n hn => ?_
  have hrdn (o : Obj) : n.rd o = (redEnter 2 s.m).rd o := by rw [← hn]; rfl
  exact ⟨(hrdn _).trans hst, (hrdn _).trans (hrd _ (by decide) (by decide))⟩

theorem rejoin_idle (h : s.m.rd R.RED_STATE ≠ 4) : Writes (.rejoin w) s w R.RED_CMD false s.m :=
  writes_of_ok (eff := redCmdEffect 1) rfl hs (congrArg Except.ok (if_neg h)) ⟨rfl, rfl⟩

theorem yield_idle (h : s.m.rd R.RED_STATE ≠ 3) : Writes (.yield w) s w R.RED_CMD false s.m :=
  writes_of_ok (eff := redCmdEffect 2) rfl hs (congrArg Except.ok (if_neg h)) ⟨rfl, rfl⟩

end

end Sys2Proof.Machine

/-! # O37, second part: the start of a line cycle (R453, R456, R463, R467) -/

namespace Sys2Proof.Machine

section
variable {m : Mach} {p q : Nat} {o : Obj}

theorem cycleNum_read {x : Found} (h : findObj 0x1410 0x14 = some x) (m : Mach) : (readObj x m).1 =
    if m.hlt < m.rd R.NET_CYCLE_BASE then 0 else (m.hlt - m.rd R.NET_CYCLE_BASE) / max 1 (m.rd R.NET_CYCLE) % 2 ^ 32 := by
  have hrow : (findObj 0x1410 0x14).map (fun f => (f.row.id, f.row.ty.size)) = some (0x141014, 4) := by decide
  rw [h, Option.map_some, Option.some_inj, Prod.mk.injEq] at hrow
  have hview : view m x = cycleNum m % 2 ^ (8 * 4) := by
    unfold view
    rw [hrow.1, hrow.2]
    rfl
  refine hview.trans ?_
  unfold cycleNum
  split_ifs
  · rfl
  · exact Nat.mod_mod ..

/-! ## Partners -/

/-- A partner's step changes its own entry and the network's event alone. -/
theorem partnerEval_keeps (heard : List Nat) (p : Nat) (m : Mach) : (partnerEval heard p m).net = m.net ∧
    (partnerEval heard p m).signals = m.signals ∧
    (bit 0 (m.rd R.NET_EVT) = true → bit 0 ((partnerEval heard p m).rd R.NET_EVT) = true) ∧
    ∀ o : Obj, o.key ≠ R.NET_EVT.key → o.key ≠ (R.NET_PTN_STATE p).key → o.key ≠ (R.NET_PTN_MISSED p).key →
      o.key ≠ (R.NET_PTN_CNT_LOSS p).key → (partnerEval heard p m).rd o = m.rd o := by
  have hE : R.NET_EVT.key ≠ (R.NET_PTN_STATE p).key ∧ R.NET_EVT.key ≠ (R.NET_PTN_MISSED p).key ∧
      R.NET_EVT.key ≠ (R.NET_PTN_CNT_LOSS p).key := by
    simp only [Obj.key, R.NET_EVT, R.NET_PTN_STATE, R.NET_PTN_MISSED, R.NET_PTN_CNT_LOSS]
    omega
  obtain ⟨hE1, hE2, hE3⟩ := hE
  unfold partnerEval
  extract_lets node c m1
  have hm1 (o : Obj) (h : o.key ≠ (R.NET_PTN_MISSED p).key) : m1.rd o = m.rd o := rd_wr_ne h m c
  split_ifs
  · exact ⟨rfl, rfl, id, fun _ _ _ _ _ => rfl⟩
  · exact ⟨rfl, signals_wr .., fun h => (congrArg (bit 0) (rd_wr_ne hE2 m 0)).trans h, fun o _ _ h3 _ => rd_wr_ne h3 m 0⟩
  · have hrd (o : Obj) (h2 : o.key ≠ (R.NET_PTN_STATE p).key) (h3 : o.key ≠ (R.NET_PTN_MISSED p).key)
        (h4 : o.key ≠ (R.NET_PTN_CNT_LOSS p).key) : ((m1.wr (R.NET_PTN_STATE p) 3).inc (R.NET_PTN_CNT_LOSS p)).rd o = m.rd o :=
      (rd_inc_ne h4 _).trans ((rd_wr_ne h2 ..).trans (hm1 o h3))
    refine ⟨by simp [netRaise, m1], (signals_raise ..).trans ((signals_inc ..).trans ((signals_wr ..).trans (signals_wr ..))),
      fun h => ?_, fun o h1 h2 h3 h4 => (rd_raise h1).trans (hrd o h2 h3 h4)⟩
    rw [netRaise, rd_raise_same, hrd _ hE1 hE2 hE3]
    exact (bit_putBit_ne Nat.zero_ne_one true _).trans h
  · exact ⟨rfl, signals_wr .., fun h => (congrArg (bit 0) (hm1 _ hE2)).trans h, fun o _ _ h3 _ => hm1 o h3⟩

/-- What a cycle start tells of a partner: heard or missed once more, and lost where it has missed enough. -/
def PtnEvaluated (heard : List Nat) (p : Nat) (m0 m : Mach) : Prop :=
  (heard.contains (m0.rd (R.NET_PTN_NODE p)) = true → m.rd (R.NET_PTN_MISSED p) = 0) ∧
  (heard.contains (m0.rd (R.NET_PTN_NODE p)) = false → m.rd (R.NET_PTN_MISSED p) = min 255 (m0.rd (R.NET_PTN_MISSED p) + 1) ∧
    (m0.rd R.NET_LOSS_CYCLES ≤ min 255 (m0.rd (R.NET_PTN_MISSED p) + 1) → m.rd (R.NET_PTN_STATE p) = 3))

theorem partnerEval_does (heard : List Nat) (hn : m.rd (R.NET_PTN_NODE p) ≠ 0) : PtnEvaluated heard p m (partnerEval heard p m) := by
  have hk : (R.NET_PTN_STATE p).key ≠ (R.NET_PTN_MISSED p).key ∧ (R.NET_PTN_MISSED p).key ≠ (R.NET_PTN_STATE p).key ∧
      (R.NET_PTN_STATE p).key ≠ (R.NET_PTN_CNT_LOSS p).key ∧ (R.NET_PTN_MISSED p).key ≠ (R.NET_PTN_CNT_LOSS p).key ∧
      (R.NET_PTN_STATE p).key ≠ R.NET_EVT.key ∧ (R.NET_PTN_MISSED p).key ≠ R.NET_EVT.key := by
    simp only [Obj.key, R.NET_EVT, R.NET_PTN_STATE, R.NET_PTN_MISSED, R.NET_PTN_CNT_LOSS]
    omega
  obtain ⟨hk1, hk2, hk3, hk4, hk5, hk6⟩ := hk
  unfold partnerEval PtnEvaluated
  extract_lets node c m1
  rw [if_neg hn]
  cases hh : heard.contains node
  · rw [if_neg Bool.false_ne_true]
    refine ⟨(absurd · Bool.false_ne_true), fun _ => ?_⟩
    split_ifs with hl
    · exact ⟨(rd_raise hk6).trans ((rd_inc_ne hk4 _).trans ((rd_wr_ne hk2 ..).trans (rd_wr_same ..))),
        fun _ => (rd_raise hk5).trans ((rd_inc_ne hk3 _).trans (rd_wr_same ..))⟩
    · refine ⟨rd_wr_same .., fun h => (rd_wr_ne hk1 m c).trans ?_⟩
      exact not_not.mp fun hne => hl ⟨h, hne⟩
  · rw [if_pos rfl]
    exact ⟨fun _ => rd_wr_same .., fun h => absurd h.symm Bool.false_ne_true⟩

/-- Every partner is evaluated with what was heard, which is then forgotten. -/
theorem partnersEval_does (m : Mach) : (partnersEval m).net = { m.net with heard := [], cycDue := false } ∧
    (partnersEval m).signals = m.signals ∧ (bit 0 (m.rd R.NET_EVT) = true → bit 0 ((partnersEval m).rd R.NET_EVT) = true) ∧
    (∀ o : Obj, OffPtn o → o.key ≠ R.NET_EVT.key → (partnersEval m).rd o = m.rd o) ∧
    ∀ p < 16, m.rd (R.NET_PTN_NODE p) ≠ 0 → PtnEvaluated m.net.heard p m (partnersEval m) := by
  unfold partnersEval
  generalize hm0 : updNet (fun x => { x with heard := [], cycDue := false }) m = m0
  have hrd0 (o : Obj) : m0.rd o = m.rd o := by rw [← hm0]; rfl
  refine ⟨?_, ?_, fun h => ?_, fun o ho he => ?_, fun p hp hn => ?_⟩
  · refine (each_keeps (g := Mach.net) (fun p m => (partnerEval_keeps _ p m).1) ..).trans ?_
    rw [← hm0]
    rfl
  · refine (each_keeps (g := Mach.signals) (fun p m => (partnerEval_keeps _ p m).2.1) ..).trans ?_
    rw [← hm0]
    rfl
  · have hall (l : List Nat) : ∀ x : Mach, bit 0 (x.rd R.NET_EVT) = true →
        bit 0 ((x.each l (partnerEval m.net.heard)).rd R.NET_EVT) = true := by
      induction l with
      | nil => exact fun _ h => h
      | cons p l ih => exact fun x h => ih _ ((partnerEval_keeps _ p x).2.2.1 h)
    exact hall _ _ ((congrArg (bit 0) (hrd0 _)).trans h)
  · refine (each_keeps_of (g := fun m => m.rd o) (fun p hp x => ?_) _).trans (hrd0 o)
    obtain ⟨-, -, -, hkeep⟩ := partnerEval_keeps m.net.heard p x
    obtain ⟨h2, h3⟩ := ptnSet_apart ho (List.mem_range.mp hp)
    refine hkeep o he h2 h3 ?_
    have hp := List.mem_range.mp hp
    simp only [OffPtn, Obj.key, R.NET_PTN_CNT_LOSS] at ho ⊢
    omega
  · have hkey (b : Nat) (hb : b ≠ p) : ∀ o ∈ [R.NET_PTN_STATE p, R.NET_PTN_MISSED p, R.NET_PTN_NODE p], o.key ≠ R.NET_EVT.key ∧
        o.key ≠ (R.NET_PTN_STATE b).key ∧ o.key ≠ (R.NET_PTN_MISSED b).key ∧ o.key ≠ (R.NET_PTN_CNT_LOSS b).key := by
      simp only [List.mem_cons, List.not_mem_nil, or_false, forall_eq_or_imp, forall_eq, Obj.key, R.NET_PTN_STATE, R.NET_PTN_MISSED,
        R.NET_PTN_NODE, R.NET_PTN_CNT_LOSS, R.NET_EVT]
      omega
    have hloss (b : Nat) : R.NET_LOSS_CYCLES.key ≠ R.NET_EVT.key ∧ R.NET_LOSS_CYCLES.key ≠ (R.NET_PTN_STATE b).key ∧
          R.NET_LOSS_CYCLES.key ≠ (R.NET_PTN_MISSED b).key ∧ R.NET_LOSS_CYCLES.key ≠ (R.NET_PTN_CNT_LOSS b).key := by
      simp only [Obj.key, R.NET_PTN_STATE, R.NET_PTN_MISSED, R.NET_PTN_CNT_LOSS, R.NET_EVT, R.NET_LOSS_CYCLES]
      omega
    have hkeep (b : Nat) (x : Mach) (hb : b ≠ p) (o : Obj) (ho : o ∈ [R.NET_PTN_STATE p, R.NET_PTN_MISSED p, R.NET_PTN_NODE p]) :
        (partnerEval m.net.heard b x).rd o = x.rd o := by
      obtain ⟨h1, h2, h3, h4⟩ := hkey b hb o ho
      exact (partnerEval_keeps m.net.heard b x).2.2.2 o h1 h2 h3 h4
    have hS : R.NET_PTN_STATE p ∈ [R.NET_PTN_STATE p, R.NET_PTN_MISSED p, R.NET_PTN_NODE p] := by simp
    have hM : R.NET_PTN_MISSED p ∈ [R.NET_PTN_STATE p, R.NET_PTN_MISSED p, R.NET_PTN_NODE p] := by simp
    have hN : R.NET_PTN_NODE p ∈ [R.NET_PTN_STATE p, R.NET_PTN_MISSED p, R.NET_PTN_NODE p] := by simp
    refine each_at (I := fun x => x.rd (R.NET_PTN_NODE p) = m.rd (R.NET_PTN_NODE p) ∧ x.rd (R.NET_PTN_MISSED p) = m.rd (R.NET_PTN_MISSED p) ∧
      x.rd R.NET_LOSS_CYCLES = m.rd R.NET_LOSS_CYCLES) (P := PtnEvaluated m.net.heard p m) (fun b x hb h => ?_)
      (fun x h => ?_) (fun b x hb h => ?_) List.nodup_range (List.mem_range.mpr hp) ⟨hrd0 _, hrd0 _, hrd0 _⟩
    · obtain ⟨hn, hm, hl⟩ := h
      obtain ⟨l1, l2, l3, l4⟩ := hloss b
      exact ⟨(hkeep b x hb _ hN).trans hn, (hkeep b x hb _ hM).trans hm,
        ((partnerEval_keeps m.net.heard b x).2.2.2 _ l1 l2 l3 l4).trans hl⟩
    · obtain ⟨hn', hm, hl⟩ := h
      have hx := partnerEval_does (m := x) m.net.heard (hn'.trans_ne hn)
      rwa [PtnEvaluated, hn', hm, hl] at hx
    · rw [PtnEvaluated, hkeep b x hb _ hM, hkeep b x hb _ hS]
      exact h

/-! ## The redundancy decisions -/

theorem redDecide_does {m : Mach} {cnt : Nat} (hc : cnt = if m.net.redHeard then 0 else m.net.redCnt + 1) :
    (redDecide m).net.heard = m.net.heard ∧ (redDecide m).signals = m.signals ∧
    (m.rd R.RED_STATE = 1 → m.rd R.RED_LISTEN_CYCLES ≤ cnt →
      (redDecide m).rd R.RED_STATE = 3 ∧ (redDecide m).rd R.RED_EPOCH = (ownRoleEpoch m + 1) % 2 ^ 32) ∧
    (m.rd R.RED_STATE = 2 → m.rd R.RED_TAKEOVER_CYCLES ≤ cnt →
      (redDecide m).rd R.RED_STATE = 3 ∧ (redDecide m).rd R.RED_EPOCH = (m.rd R.RED_EPOCH + 1) % 2 ^ 32 ∧
      (redDecide m).rd R.RED_CNT_TAKEOVER = min 0xFFFFFFFF (m.rd R.RED_CNT_TAKEOVER + 1)) ∧
    ∀ o : Obj, o.key < 0x170000 → (redDecide m).rd o = m.rd o := by
  let m1 : Mach := updNet (fun n => { n with redHeard := false, redCnt := cnt }) m
  obtain ⟨hst, hnet, hsig, -, hrd⟩ := redEnter_does 3 m1
  have hheard : (redEnter 3 m1).net.heard = m.net.heard := congrArg (·.heard) hnet
  have hlow (o : Obj) (h : o.key < 0x170000) : o.key ≠ R.RED_STATE.key ∧ o.key ≠ R.RED_EVT.key ∧ o.key ≠ R.RED_EPOCH.key ∧
      o.key ≠ R.RED_CNT_TAKEOVER.key := by
    simp only [Obj.key, R.RED_STATE, R.RED_EVT, R.RED_EPOCH, R.RED_CNT_TAKEOVER] at h ⊢
    omega
  by_cases h1 : m.rd R.RED_STATE = 1 ∧ m.rd R.RED_LISTEN_CYCLES ≤ cnt
  · have he : redDecide m = (redEnter 3 m1).wr R.RED_EPOCH ((ownRoleEpoch m + 1) % 2 ^ 32) := by
      subst hc
      exact if_pos h1
    rw [he]
    refine ⟨hheard, (signals_wr ..).trans hsig, fun _ _ => ⟨(rd_wr_ne (by decide) ..).trans hst, rd_wr_same ..⟩, fun h2 => ?_, fun o h => ?_⟩
    · omega
    · obtain ⟨n1, n2, n3, -⟩ := hlow o h
      exact (rd_wr_ne n3 ..).trans (hrd o n1 n2)
  by_cases h2 : m.rd R.RED_STATE = 2 ∧ m.rd R.RED_TAKEOVER_CYCLES ≤ cnt
  · have he : redDecide m = redRaise 1 (((redEnter 3 m1).wr R.RED_EPOCH ((m.rd R.RED_EPOCH + 1) % 2 ^ 32)).inc R.RED_CNT_TAKEOVER) := by
      subst hc
      exact (if_neg h1).trans (if_pos h2)
    rw [he]
    refine ⟨?_, (signals_raise ..).trans ((signals_inc ..).trans ((signals_wr ..).trans hsig)), fun h => ?_, fun _ _ => ⟨?_, ?_, ?_⟩,
      fun o h => ?_⟩
    · simpa [redRaise] using hheard
    · omega
    · exact (rd_raise (by decide)).trans ((rd_inc_ne (by decide) _).trans ((rd_wr_ne (by decide) ..).trans hst))
    · exact (rd_raise (by decide)).trans ((rd_inc_ne (by decide) _).trans (rd_wr_same ..))
    · refine (rd_raise (by decide)).trans ((rd_inc_same ..).trans ?_)
      rw [rd_wr_ne (by decide), hrd _ (by decide) (by decide)]
      rfl
    · obtain ⟨n1, n2, n3, n4⟩ := hlow o h
      exact (rd_raise n2).trans ((rd_inc_ne n4 _).trans ((rd_wr_ne n3 ..).trans (hrd o n1 n2)))
  · have he : redDecide m = m1 := by
      subst hc
      exact (if_neg h1).trans (if_neg h2)
    rw [he]
    exact ⟨rfl, rfl, fun a b => absurd ⟨a, b⟩ h1, fun a b => absurd ⟨a, b⟩ h2, fun _ _ => rfl⟩

end

section
variable {s : State} {n : BitVec 64} {cnt : Nat} (hs : Settled s)
include hs

theorem cycleStart_goes (hrun : s.m.on R.NET_RUN = true) (hsl : s.m.pwr.hSleep = false)
    (hc : cnt = (if s.m.net.redHeard then 0 else s.m.net.redCnt + 1)) :
    Goes (.cycleStart n) s (fun m => m.net.heard = [] ∧ bit 0 (m.rd R.NET_EVT) = true ∧
      (∀ p < 16, s.m.rd (R.NET_PTN_NODE p) ≠ 0 → PtnEvaluated s.m.net.heard p s.m m) ∧
      (s.m.rd R.RED_STATE = 1 → s.m.rd R.RED_LISTEN_CYCLES ≤ cnt →
        m.rd R.RED_STATE = 3 ∧ m.rd R.RED_EPOCH = (ownRoleEpoch s.m + 1) % 2 ^ 32) ∧
      (s.m.rd R.RED_STATE = 2 → s.m.rd R.RED_TAKEOVER_CYCLES ≤ cnt →
        m.rd R.RED_STATE = 3 ∧ m.rd R.RED_EPOCH = (s.m.rd R.RED_EPOCH + 1) % 2 ^ 32 ∧
        m.rd R.RED_CNT_TAKEOVER = min 0xFFFFFFFF (s.m.rd R.RED_CNT_TAKEOVER + 1))) := by
  have he : cycleStartEffect s.m = rolesExpire (redDecide (partnersEval (cycleMark s.m))) := if_pos (by rw [hrun, hsl]; rfl)
  have hnet0 : (cycleMark s.m).net = { s.m.net with cycDue := true } := by simp [cycleMark, netRaise, updNet]
  have hsig0 : (cycleMark s.m).signals = s.m.signals := (signals_raise ..).trans rfl
  have hevt0 : bit 0 ((cycleMark s.m).rd R.NET_EVT) = true := by rw [cycleMark, netRaise, rd_raise_same, bit_setBit_same]
  have hrd0 (o : Obj) (h : o.key ≠ R.NET_EVT.key) : (cycleMark s.m).rd o = s.m.rd o := (rd_raise h).trans rfl
  obtain ⟨hnet1, hsig1, hevt1, hrd1, hptn⟩ := partnersEval_does (cycleMark s.m)
  generalize cycleMark s.m = m0 at *
  have hrd2 (o : Obj) (h : 0x170000 ≤ o.key) : (partnersEval m0).rd o = s.m.rd o := by
    have hne : o.key ≠ R.NET_EVT.key := by
      simp only [Obj.key, R.NET_EVT] at h ⊢
      omega
    exact (hrd1 o (.inr (by omega)) hne).trans (hrd0 o hne)
  have hnet2 : (partnersEval m0).net = { s.m.net with heard := [], cycDue := false } := by rw [hnet1, hnet0]
  have hown : ownRoleEpoch (partnersEval m0) = ownRoleEpoch s.m := by
    unfold ownRoleEpoch roleEntry
    rw [hnet2, hrd2 _ (by decide)]
  generalize partnersEval m0 = m1 at *
  have hc1 : cnt = if m1.net.redHeard then 0 else m1.net.redCnt + 1 := by rw [hc, hnet2]
  obtain ⟨hheard, hsig3, hlisten, htake, hrd3⟩ := redDecide_does hc1
  rw [hrd2 _ (by decide), hrd2 _ (by decide), hown] at hlisten
  rw [hrd2 _ (by decide), hrd2 _ (by decide), hrd2 _ (by decide), hrd2 _ (by decide)] at htake
  refine goes_quiet (f := cycleStartEffect) hs rfl he (hsig3.trans (hsig1.trans hsig0))
    ⟨hheard.trans (congrArg (·.heard) hnet2), ?_, fun p hp hn => ?_, hlisten, htake⟩
  · exact (congrArg (bit 0) (hrd3 _ (by decide))).trans (hevt1 hevt0)
  · have hkey : ∀ o ∈ [R.NET_PTN_STATE p, R.NET_PTN_MISSED p, R.NET_PTN_NODE p], o.key ≠ R.NET_EVT.key ∧ o.key < 0x170000 := by
      simp only [List.mem_cons, List.not_mem_nil, or_false, forall_eq_or_imp, forall_eq, Obj.key, R.NET_PTN_STATE, R.NET_PTN_MISSED,
        R.NET_PTN_NODE, R.NET_EVT]
      omega
    obtain ⟨-, hS⟩ := hkey (R.NET_PTN_STATE p) (by simp)
    obtain ⟨hM0, hM⟩ := hkey (R.NET_PTN_MISSED p) (by simp)
    obtain ⟨hN0, -⟩ := hkey (R.NET_PTN_NODE p) (by simp)
    have hx := hptn p hp (by rwa [hrd0 _ hN0])
    rw [PtnEvaluated, hrd0 _ hN0, hrd0 _ hM0, hrd0 _ (by decide), ← hrd3 _ hS, ← hrd3 _ hM, hnet0] at hx
    exact hx

end

end Sys2Proof.Machine

/-! # O37, third part: cyclic data and the frames that carry it (R448 to R464) -/

namespace Sys2Proof.Machine

/-! ## What sampling and sending leave to act on -/

theorem readObj_free (f : Found) (m : Mach) : ∃ k, (readObj f m).2 = { m with freeCtr := k } := by
  unfold readObj
  dsimp only
  split
  · exact ⟨m.free.2.freeCtr, rfl⟩
  · exact ⟨m.freeCtr, rfl⟩

theorem dicRead_free (x : Named) (key : Nat) (m : Mach) : ∃ k, (dicRead x key m).2 = { m with freeCtr := k } := by
  unfold dicRead
  by_cases h : x.ty = .str
  · rw [if_pos h]
    exact ⟨m.freeCtr, rfl⟩
  rw [if_neg h]
  cases x
  · exact readObj_free ..
  · exact ⟨m.freeCtr, rfl⟩

theorem valueRec_free (e : MapEnt) (m : Mach) : ∃ k, (valueRec e m).2 = { m with freeCtr := k } := by
  unfold valueRec
  split
  · exact ⟨m.freeCtr, rfl⟩
  next x _ =>
    obtain ⟨k, h⟩ := dicRead_free x (e.idx * 256 + e.sub) m
    split
    · next h1 => exact ⟨k, by rwa [h1] at h⟩
    · next h1 => exact ⟨k, by rwa [h1] at h⟩

/-- Sampling changes nothing but the free choice of what reads as undefined. -/
theorem sampleRecs_free (t : Nat) (l : List MapEnt) (m : Mach) : ∃ k, (sampleRecs t l m).2 = { m with freeCtr := k } := by
  induction l generalizing m with
  | nil => exact ⟨m.freeCtr, rfl⟩
  | cons e l ih =>
    obtain ⟨k, h⟩ : ∃ k, (sampleRec t e m).2 = { m with freeCtr := k } := by
      unfold sampleRec
      split_ifs
      · exact ⟨m.freeCtr, rfl⟩
      · exact ⟨m.freeCtr, rfl⟩
      · exact valueRec_free e m
    obtain ⟨k', h'⟩ := ih (sampleRec t e m).2
    exact ⟨k', h'.trans (by rw [h])⟩

theorem signals_cycSend (pdu : List Byte) (m : Mach) : (cycSend pdu m).signals = m.signals :=
  each_keeps (g := Mach.signals) (fun _ _ => signals_sent (sent_vlpSend ..)) _ m

/-! ## A frame with a PDU -/

section
variable {s : State} {p : Fin 4} {f : VlpFrame}

theorem vlpMine_frameIn (p : Fin 4) (f : VlpFrame) (m : Mach) : vlpMine (frameIn p m) f = vlpMine m f := by
  have hrd (o : Obj) (h : 0x141000 ≤ o.key) : (frameIn p m).rd o = m.rd o := frameIn_rd h (by omega) m
  simp only [vlpMine, hrd R.NET_ENCAP (by decide), hrd R.NET_ETHERTYPE (by decide), hrd R.NET_UDP_PORT (by decide),
    hrd R.NET_IPV4 (by decide), hrd R.NET_IP_MCAST (by decide)]

/-- An untagged frame of the encapsulation in force gives its PDU of the kind awaited. -/
theorem vlpReceive_of {k : Nat} {act : List Byte → Mach → Mach} {m : Mach} (hp : portOn m p = true) (hm : vlpMine m f = true)
    (hl : frameLen f ≤ 1522) (ht : f.rtag = none) (hok : pduOk f.pdu = true) (hk : fieldAt 1 1 f.pdu = k) :
    vlpReceive p k f act m = act f.pdu (frameIn p m) := by
  have hm' := (vlpMine_frameIn p f m).trans hm
  simp [vlpReceive, hp, hok, hk, hm', ht, Nat.not_lt.mpr hl]

theorem vlpDicReq_to (hp : portOn s.m p = true) (hm : vlpMine s.m f = true) (hl : frameLen f ≤ 1522) (ht : f.rtag = none)
    (hu : f.udp = none) (hok : pduOk f.pdu = true) (hk : fieldAt 1 1 f.pdu = 2) : To (.vlpDicReq p f) s (settle (dicRequest
      ⟨(reqOf .vlp 0 (f.pdu.drop 16)).1, (reqOf .vlp 0 (f.pdu.drop 16)).2, some ⟨p, f.src.toNat, 0, 0⟩⟩ (frameIn p s.m))) := by
  have he := vlpReceive_of (act := fun l m => dicRequest ⟨(reqOf .vlp 0 (l.drop 16)).1, (reqOf .vlp 0 (l.drop 16)).2,
    some ⟨p, f.src.toNat, 0, 0⟩⟩ m) hp hm hl ht hok hk
  refine congrArg (fun m => Host.Outcome.next { s with m := settle m }) (Eq.trans ?_ he)
  unfold vlpDicEffect
  rw [hu]

variable (hs : Settled s)
include hs

theorem vlpCyclic_to (hp : portOn s.m p = true) (hm : vlpMine s.m f = true) (hl : frameLen f ≤ 1522) (ht : f.rtag = none)
    (hok : pduOk f.pdu = true) (hk : fieldAt 1 1 f.pdu = 1) :
    To (.vlpCyclic p f) s (pduHold p f.pdu (rxStamp p f.stamp.toNat (frameIn p s.m))) := by
  have hq := signals_frameIn p s.m
  exact to_of_quiet (f := vlpCyclicEffect p f) rfl hs (vlpReceive_of hp hm hl ht hok hk) ⟨congrArg (·.2) hq, congrArg (·.1) hq⟩

theorem vlpCyclic_long (hp : portOn s.m p = true) (hl : 1522 < frameLen f) (hk : f.pdu.length < 16 ∨ fieldAt 1 1 f.pdu = 1) :
    To (.vlpCyclic p f) s ((s.m.inc (R.NET_PORT_CNT_ERR p)).assertSrc (386 + 4 * p)) := by
  have hkind : (pduOk f.pdu && fieldAt 1 1 f.pdu != 1) = false := by
    obtain h | h := hk
    · simp [pduOk, Nat.not_le.mpr h]
    · simp [h]
  have hon : (s.m.on (R.NET_PORT_EN p) && !s.m.hostOff) = true := by
    simp only [portOn, Bool.and_eq_true] at hp ⊢
    exact ⟨hp.1.1, hp.2⟩
  have he : vlpCyclicEffect p f s.m = erroredFrameEffect p s.m := by
    unfold vlpCyclicEffect vlpReceive
    rw [hp, hkind, if_neg (by decide), if_pos hl]
  exact to_of_quiet (f := vlpCyclicEffect p f) rfl hs (he.trans (if_pos hon)) ⟨rfl, rfl⟩

/-! ## Sampling and sending -/

theorem cycleSample_goes {n : BitVec 64} {r : List Rec × Mach} {m0 : Mach} (hrun : s.m.on R.NET_RUN = true)
    (hsl : s.m.pwr.hSleep = false) (hlk : s.m.linked .field = false)
    (h0 : m0 = { s.m with net := { s.m.net with
      sets := s.m.net.sets.filter (fun e => e.1 == n.toNat % 2 ^ 32 || (e.1 + 1) % 2 ^ 32 == n.toNat % 2 ^ 32) } })
    (hr : r = sampleRecs (cycleTime m0 n.toNat) ((txMap m0).filter (fun e => !e.field)) m0) :
    Goes (.cycleSample n) s (fun m => cycSet m (n.toNat % 2 ^ 32) = { cycSet r.2 (n.toNat % 2 ^ 32) with own := r.1 }) := by
  have hhost : hostSample n.toNat s.m = setCycSet (n.toNat % 2 ^ 32) { cycSet r.2 (n.toNat % 2 ^ 32) with own := r.1 } r.2 := by
    subst h0 hr
    rfl
  obtain ⟨k, hk⟩ : ∃ k, r.2 = { m0 with freeCtr := k } := hr ▸ sampleRecs_free ..
  have hlink : r.2.linked .field = s.m.linked .field := by rw [hk, h0]; rfl
  have he : cycleSampleEffect n.toNat s.m = setCycSet (n.toNat % 2 ^ 32) { cycSet r.2 (n.toNat % 2 ^ 32) with own := r.1 } r.2 := by
    unfold cycleSampleEffect
    rw [hrun, hsl, hhost, if_neg (by decide), fieldSample, if_pos]
    exact (congrArg (fun b => !b || _) (hlink.trans hlk)).trans rfl
  have hq : r.2.signals = s.m.signals := by rw [hk, h0]; rfl
  exact goes_quiet (f := cycleSampleEffect n.toNat) hs rfl he hq (mapGet_mapPut_same ..)

theorem cycleTx_to {n : BitVec 64} {recs : List Rec} {m0 : Mach} (hrun : s.m.on R.NET_RUN = true) (hsl : s.m.pwr.hSleep = false)
    (h4 : s.m.rd R.RED_STATE ≠ 4) :
    (setWhole s.m n.toNat = true → m0 = { s.m with net := { s.m.net with lastSet := setRecs s.m n.toNat } } →
      recs = (if s.m.rd R.RED_STATE = 1 ∨ s.m.rd R.RED_STATE = 2 then [] else setRecs s.m n.toNat) →
      To (.cycleTx n) s (cycSend (cycPdu m0 n.toNat false recs) m0)) ∧
    (setWhole s.m n.toNat = false → m0 = netRaise 3 (s.m.inc R.NET_CNT_LATE) →
      recs = (if s.m.rd R.RED_STATE = 1 ∨ s.m.rd R.RED_STATE = 2 then [] else s.m.net.lastSet) →
      To (.cycleTx n) s (cycSend (cycPdu m0 n.toNat true recs) m0)) := by
  have hgo : ¬(!s.m.on R.NET_RUN || s.m.pwr.hSleep || s.m.rd R.RED_STATE == 4) = true := by simp [hrun, hsl, h4]
  refine ⟨fun hw h0 hr => ?_, fun hw h0 hr => ?_⟩
  · have he : cycleTxEffect n.toNat s.m = cycSend (cycPdu m0 n.toNat false recs) m0 := by
      subst h0 hr
      unfold cycleTxEffect
      rw [if_neg hgo]
      simp only [hw, if_true, keepSet, Bool.not_true]
      rfl
    have hq : (cycSend (cycPdu m0 n.toNat false recs) m0).signals = s.m.signals := (signals_cycSend ..).trans (by rw [h0]; rfl)
    exact to_of_quiet (f := cycleTxEffect n.toNat) rfl hs he ⟨congrArg (·.2) hq, congrArg (·.1) hq⟩
  · have hlast : m0.net.lastSet = s.m.net.lastSet := by simp [h0, netRaise, Mach.inc]
    have he : cycleTxEffect n.toNat s.m = cycSend (cycPdu m0 n.toNat true recs) m0 := by
      rw [hr, ← hlast]
      unfold cycleTxEffect
      rw [if_neg hgo]
      simp only [hw, ← h0, Bool.false_eq_true, if_false, Bool.not_false]
    have hq : (cycSend (cycPdu m0 n.toNat true recs) m0).signals = s.m.signals :=
      (signals_cycSend ..).trans (by rw [h0]; exact (signals_raise ..).trans (signals_inc ..))
    exact to_of_quiet (f := cycleTxEffect n.toNat) rfl hs he ⟨congrArg (·.2) hq, congrArg (·.1) hq⟩

end

end Sys2Proof.Machine

/-! # O37, last part: what a CYCLIC PDU does (R459 to R467) -/

namespace Sys2Proof.Machine

/-- What one partner's entry takes from a node that is heard. -/
def heardStep (node cycle p : Nat) (m : Mach) : Mach :=
  if m.rd (R.NET_PTN_NODE p) = node ∧ node ≠ 0 then
    if m.rd (R.NET_PTN_STATE p) = 3 then netRaise 2 ((m.wr (R.NET_PTN_STATE p) 2).wr (R.NET_PTN_LAST_CYCLE p) cycle)
    else (m.wr (R.NET_PTN_STATE p) 2).wr (R.NET_PTN_LAST_CYCLE p) cycle
  else m

section
variable {m : Mach} {l : List Byte} {recs : List Rec} {role node cycle epoch : Nat}

theorem partnerHeard_steps (node cycle : Nat) (m : Mach) : partnerHeard node cycle m =
    (updNet (fun n => { n with heard := node :: n.heard }) m).each (List.range 16) (heardStep node cycle) := rfl

theorem heardStep_rd {p : Nat} {o : Obj} (h1 : o.key ≠ R.NET_EVT.key) (h2 : o.key ≠ (R.NET_PTN_STATE p).key)
    (h3 : o.key ≠ (R.NET_PTN_LAST_CYCLE p).key) (m : Mach) : (heardStep node cycle p m).rd o = m.rd o := by
  unfold heardStep
  split_ifs
  · exact (rd_raise h1).trans ((rd_wr_ne h3 ..).trans (rd_wr_ne h2 ..))
  · exact (rd_wr_ne h3 ..).trans (rd_wr_ne h2 ..)
  · rfl

theorem partnerHeard_net (node cycle : Nat) (m : Mach) : (partnerHeard node cycle m).net = { m.net with heard := node :: m.net.heard } := by
  rw [partnerHeard_steps]
  refine (each_keeps (g := Mach.net) (fun p m => ?_) ..).trans rfl
  unfold heardStep
  split_ifs
  · simp [netRaise]
  · rfl
  · rfl

theorem partnerHeard_does {k : Nat} (hk : k < 16) (hn : m.rd (R.NET_PTN_NODE k) = node) (h0 : node ≠ 0) :
    (partnerHeard node cycle m).rd (R.NET_PTN_STATE k) = 2 ∧ (partnerHeard node cycle m).rd (R.NET_PTN_LAST_CYCLE k) = cycle := by
  have hkey (b : Nat) (hb : b ≠ k) : ∀ o ∈ [R.NET_PTN_STATE k, R.NET_PTN_LAST_CYCLE k, R.NET_PTN_NODE k], o.key ≠ R.NET_EVT.key ∧
      o.key ≠ (R.NET_PTN_STATE b).key ∧ o.key ≠ (R.NET_PTN_LAST_CYCLE b).key := by
    simp only [List.mem_cons, List.not_mem_nil, or_false, forall_eq_or_imp, forall_eq, Obj.key, R.NET_PTN_STATE, R.NET_PTN_LAST_CYCLE,
      R.NET_PTN_NODE, R.NET_EVT]
    omega
  rw [partnerHeard_steps]
  refine each_at (I := fun x => x.rd (R.NET_PTN_NODE k) = node)
    (P := fun x => x.rd (R.NET_PTN_STATE k) = 2 ∧ x.rd (R.NET_PTN_LAST_CYCLE k) = cycle) (fun b x hb h => ?_) (fun x h => ?_)
    (fun b x hb h => ?_) List.nodup_range (List.mem_range.mpr hk) hn
  · obtain ⟨h1, h2, h3⟩ := hkey b hb (R.NET_PTN_NODE k) (by simp)
    exact (heardStep_rd h1 h2 h3 x).trans h
  · have hne : (R.NET_PTN_STATE k).key ≠ (R.NET_PTN_LAST_CYCLE k).key ∧ (R.NET_PTN_STATE k).key ≠ R.NET_EVT.key ∧
        (R.NET_PTN_LAST_CYCLE k).key ≠ R.NET_EVT.key := by
      simp only [Obj.key, R.NET_PTN_STATE, R.NET_PTN_LAST_CYCLE, R.NET_EVT]
      omega
    obtain ⟨n1, n2, n3⟩ := hne
    have hS := (rd_wr_ne n1 (x.wr (R.NET_PTN_STATE k) 2) cycle).trans (rd_wr_same ..)
    have hL := rd_wr_same (x.wr (R.NET_PTN_STATE k) 2) (R.NET_PTN_LAST_CYCLE k) cycle
    rw [heardStep, if_pos ⟨h, h0⟩]
    split_ifs
    · exact ⟨(rd_raise n2).trans hS, (rd_raise n3).trans hL⟩
    · exact ⟨hS, hL⟩
  · obtain ⟨a1, a2, a3⟩ := hkey b hb (R.NET_PTN_STATE k) (by simp)
    obtain ⟨b1, b2, b3⟩ := hkey b hb (R.NET_PTN_LAST_CYCLE k) (by simp)
    exact ⟨(heardStep_rd a1 a2 a3 x).trans h.1, (heardStep_rd b1 b2 b3 x).trans h.2⟩

/-- Past the format checks a PDU of a running network acts by its ACTIVE flag. -/
theorem cyclicPdu_of (hp : parseRecs l.length (l.drop 16) = some recs) (hok : recs.all recOk = true) (hrun : m.on R.NET_RUN = true) :
    cyclicPdu l m = if bit 0 (fieldAt 5 1 l) then cycActive (fieldAt 4 1 l) (fieldAt 2 2 l) (fieldAt 8 4 l) (fieldAt 12 4 l) recs m
      else partnerHeard (fieldAt 2 2 l) (fieldAt 12 4 l) m := by
  unfold cyclicPdu
  simp only [hp, hok, hrun, Bool.not_true, Bool.false_eq_true, if_false]

theorem cycActive_fresh {e : Nat} (hr : role ≠ m.rd R.RED_ROLE) (hn : roleEntry m role = none) (hf : roleFree m = some e)
    (hc : mapGet 0 role m.net.cycles = 0) : cycActive role node epoch cycle recs m =
      recsApply role cycle recs ({ partnerHeard node cycle (setRole e ⟨role, node, epoch, 0⟩ m) with
        net := { (partnerHeard node cycle (setRole e ⟨role, node, epoch, 0⟩ m)).net with
          cycles := mapPut role (cycle + 1) m.net.cycles } }) := by
  have ht : roleTest role node epoch m = (true, setRole e ⟨role, node, epoch, 0⟩ m) := by simp [roleTest, hr, hn, hf]
  have hcyc : (partnerHeard node cycle (setRole e ⟨role, node, epoch, 0⟩ m)).net.cycles = m.net.cycles := by
    rw [partnerHeard_net]
    rfl
  have hown : (role == m.rd R.RED_ROLE && node != m.rd R.NET_NODE) = false := by simp [hr]
  unfold cycActive
  simp only [ht, hown, Bool.not_true, Bool.false_eq_true, if_false]
  unfold cycAccept
  dsimp only
  rw [if_pos (.inl (by rw [hcyc, hc])), updNet, hcyc]

theorem cycActive_stale {e : Nat} {x : RoleEnt} (hr : role ≠ m.rd R.RED_ROLE) (hx : roleEntry m role = some (e, x))
    (hn : serialNewer epoch x.epoch = false) (hne : epoch ≠ x.epoch ∨ node ≠ x.node) :
    cycActive role node epoch cycle recs m = netRaise 5 (m.inc R.NET_CNT_STALE_EPOCH) := by
  have ht : roleTest role node epoch m = (false, staleEpoch m) := by
    simp [roleTest, hr, hx, hn, not_and_or.mpr hne]
  unfold cycActive
  simp only [ht, Bool.not_false, if_true]
  rfl

theorem framesTake_one {p : Nat} (h : m.net.inbox = [(p, l)]) : framesTake m = cyclicPdu l { m with net := { m.net with inbox := [] } } := by
  rw [framesTake, h]
  rfl

end

/-- The line cycle, the mirror pair and the cyclic data of R448 to R467. Settles O37. -/
theorem cycleCommands : Obligations.CycleCommands := by
  unfold Obligations.CycleCommands
  intro s w hs
  refine ⟨netRunOn_leads hs, fun h => ?_, netRunOff_leads hs, redEnOff_leads hs, redEnOn_leads hs, rejoin_leads hs, rejoin_idle hs,
    yield_leads hs, yield_idle hs, fun _ _ => cycleStart_goes hs, fun _ h => cycleNum_read h s.m, fun _ _ _ => cycleSample_goes hs,
    fun _ _ _ => cycleTx_to hs, fun _ _ => vlpCyclic_to hs, fun _ _ _ => framesTake_one, fun m l recs role node cycle epoch hp hok hrun
      hrole hnode hcyc hep => ?_, fun _ _ => vlpCyclic_long hs, fun _ _ => vlpDicReq_to⟩
  · have he : netRunOnEffect s.m = .error .range := by simp [netRunOnEffect, h]
    exact fun hm => done_turned hm he
  · have hpdu := cyclicPdu_of hp hok hrun
    rw [← hrole, ← hnode, ← hcyc, ← hep] at hpdu
    refine ⟨fun hb => ?_, fun e hb hr hn hf hc => ?_, fun e x hb hr hx hn hne => ?_⟩
    · rw [hb, if_neg Bool.false_ne_true] at hpdu
      rw [hpdu, partnerHeard_net]
      exact ⟨rfl, rfl, fun k hk hk' h0 => partnerHeard_does hk hk' h0⟩
    · rw [hb, if_pos rfl] at hpdu
      exact hpdu.trans (cycActive_fresh hr hn hf hc)
    · rw [hb, if_pos rfl] at hpdu
      exact hpdu.trans (cycActive_stale hr hx hn hne)

end Sys2Proof.Machine

/-! # O38, first part: the bus of a CAN controller (R470) -/

namespace Sys2Proof.Machine

/-! ## What the traffic of a controller reaches -/

/-- The machine without what traffic on a bus reaches: objects, controllers, frames, sources and free choices. -/
def Mach.offBus (m : Mach) : Mach := { m with regs := [], cans := [], out := [], asserts := [], freeCtr := 0, incNow := [] }

section
variable {m m1 : Mach} {k : Nat} {o : Obj}

theorem eq_of_offBus (h : m1.offBus = m.offBus) : m1.dic = m.dic ∧ m1.tb = m.tb ∧ m1.bar = m.bar ∧ m1.saf = m.saf ∧
    m1.hostOff = m.hostOff ∧ m1.signals = m.signals :=
  ⟨(congrArg (·.dic) h :), (congrArg (·.tb) h :), (congrArg (·.bar) h :), (congrArg (·.saf) h :), (congrArg Mach.hostOff h :),
    (congrArg Mach.signals h :)⟩

@[simp] theorem offBus_wr (o : Obj) (v : Nat) (m : Mach) : (m.wr o v).offBus = m.offBus := rfl

@[simp] theorem offBus_inc (o : Obj) (m : Mach) : (m.inc o).offBus = m.offBus := rfl

@[simp] theorem offBus_updCan (k : Nat) (f : Can → Can) (m : Mach) : (m.updCan k f).offBus = m.offBus := rfl

@[simp] theorem offBus_setCan (k : Nat) (c : Can) (m : Mach) : (m.setCan k c).offBus = m.offBus := rfl

@[simp] theorem offBus_assertSrc (id : Nat) (m : Mach) : (m.assertSrc id).offBus = m.offBus := rfl

@[simp] theorem offBus_send (p : Port) (d : List Nat) (m : Mach) : (m.send p d).offBus = m.offBus := rfl

@[simp] theorem offBus_canBusState (k : Nat) (m : Mach) : (canBusState k m).offBus = m.offBus := rfl

@[simp] theorem offBus_canRx (k : Nat) (m : Mach) : (canRx k m).offBus = m.offBus := by
  unfold canRx
  extract_lets high m1 m2
  have h1 : m1.offBus = m.offBus := by
    unfold m1
    split_ifs <;> rfl
  rw [offBus_canBusState, offBus_assertSrc, offBus_updCan, h1]

/-- A frame that goes out. -/
theorem canTx_of {id : Nat} {d : List Byte} (h : canOn m k = true) : canTx k id d m =
    canBusState k (((m.updCan k (fun c => { c with tec := c.tec - 1 })).send (.can k) (canWire m k id d)).assertSrc (401 + 4 * k)) :=
  if_pos h

@[simp] theorem offBus_canTx (k id : Nat) (d : List Byte) (m : Mach) : (canTx k id d m).offBus = m.offBus := by
  by_cases h : canOn m k = true
  · rw [canTx_of h, offBus_canBusState, offBus_assertSrc, offBus_send, offBus_updCan]
  · rw [canTx, if_neg h]

@[simp] theorem offBus_sdoAbort (k idx sub code : Nat) (m : Mach) : (sdoAbort k idx sub code m).offBus = m.offBus := offBus_canTx ..

/-! ## The controller and the objects -/

@[simp] theorem can_wr (o : Obj) (v : Nat) (m : Mach) (k : Nat) : (m.wr o v).can k = m.can k := rfl

@[simp] theorem can_assertSrc (id : Nat) (m : Mach) (k : Nat) : (m.assertSrc id).can k = m.can k := rfl

@[simp] theorem can_canBusState (j : Nat) (m : Mach) (k : Nat) : (canBusState j m).can k = m.can k := rfl

/-- A received frame moves the receive error counter alone. -/
theorem canRx_can (k : Nat) (m : Mach) : ∃ r, (canRx k m).can k = { m.can k with rec_ := r } := by
  unfold canRx
  extract_lets high m1 m2
  refine ⟨if high then 119 + m.free.1 % 9 else (m.can k).rec_ - 1, ?_⟩
  have h1 : m1.can k = m.can k := by
    unfold m1
    split_ifs <;> rfl
  rw [can_canBusState, can_assertSrc, Mach.updCan_same, h1]

@[simp] theorem send_rd (p : Port) (d : List Nat) (m : Mach) (o : Obj) : (m.send p d).rd o = m.rd o := rfl

theorem canBusState_rd (h : o.key ≠ (R.CAN_BUS_STATE k).key) (m : Mach) : (canBusState k m).rd o = m.rd o := rd_wr_ne h m _

theorem canRx_rd (h : o.key ≠ (R.CAN_BUS_STATE k).key) (m : Mach) : (canRx k m).rd o = m.rd o := by
  unfold canRx
  extract_lets high m1 m2
  have h1 : m1.rd o = m.rd o := by
    unfold m1
    split_ifs <;> rfl
  rw [canBusState_rd h, assertSrc_rd, Mach.updCan_rd, h1]

@[simp] theorem can_send (p : Port) (d : List Nat) (m : Mach) (k : Nat) : (m.send p d).can k = m.can k := rfl

/-- A sent frame moves the transmit error counter alone. -/
theorem canTx_can (k id : Nat) (d : List Byte) (m : Mach) : ∃ t, (canTx k id d m).can k = { m.can k with tec := t } := by
  by_cases h : canOn m k = true
  · refine ⟨(m.can k).tec - 1, ?_⟩
    rw [canTx_of h, can_canBusState, can_assertSrc, can_send, Mach.updCan_same]
  · exact ⟨(m.can k).tec, by rw [canTx, if_neg h]⟩

theorem canTx_rd (h : o.key ≠ (R.CAN_BUS_STATE k).key) (id : Nat) (d : List Byte) (m : Mach) : (canTx k id d m).rd o = m.rd o := by
  by_cases hon : canOn m k = true
  · rw [canTx_of hon, canBusState_rd h, assertSrc_rd, send_rd, Mach.updCan_rd]
  · rw [canTx, if_neg hon]

/-- A controller whose counters are 0 sends the frame and stays error active. -/
theorem canTx_on {id : Nat} {d : List Byte} (h : canOn m k = true) (hc : m.can k = {}) :
    (canTx k id d m).out = ⟨.can k, canWire m k id d⟩ :: m.out ∧ (canTx k id d m).rd (R.CAN_BUS_STATE k) = 0 := by
  have hcan : (((m.updCan k (fun c => { c with tec := c.tec - 1 })).send (.can k) (canWire m k id d)).assertSrc (401 + 4 * k)).can k =
      {} := by
    rw [can_assertSrc, can_send, Mach.updCan_same, hc]
    rfl
  rw [canTx_of h]
  refine ⟨rfl, (rd_wr_same ..).trans ?_⟩
  rw [hcan]
  rfl

/-- A controller's objects other than its bus state. -/
theorem ne_busState (k : Nat) : (R.CAN_EN k).key ≠ (R.CAN_BUS_STATE k).key ∧ (R.CAN_NODE_ID k).key ≠ (R.CAN_BUS_STATE k).key ∧
    (R.CAN_DATA_RATE k).key ≠ (R.CAN_BUS_STATE k).key ∧ (R.CAN_NMT_STATE k).key ≠ (R.CAN_BUS_STATE k).key ∧
    (R.CAN_CNT_PDO_RX k).key ≠ (R.CAN_BUS_STATE k).key ∧ (R.CAN_CNT_PDO_TX k).key ≠ (R.CAN_BUS_STATE k).key := by
  simp only [Obj.key, R.CAN_EN, R.CAN_NODE_ID, R.CAN_DATA_RATE, R.CAN_NMT_STATE, R.CAN_CNT_PDO_RX, R.CAN_CNT_PDO_TX, R.CAN_BUS_STATE]
  omega

/-- Answering a writer takes back nothing that was sent. -/
theorem mem_out_answered {w : Writer} {x : Out} (h : x ∈ m.out) : x ∈ (answered w (rankNote w o m)).out := by
  have hr : (rankNote w o m).out = m.out := by
    unfold rankNote
    split <;> rfl
  unfold answered
  split
  · exact List.mem_cons_of_mem _ (hr ▸ h)
  · exact hr ▸ h

theorem dicRun_offBus (h : m1.offBus = m.offBus) (hw : m.dic.waiting = []) : dicRun m1 = m1 :=
  dicRun_idle ((congrArg (·.dic.waiting) h :).trans hw)

end

section
variable {s : State} {k : Fin 2} {w : Writer} {n : Mach} {f : Mach → Mach} {c : Instr} (hs : Settled s)
include hs

/-- A command that stays on the bus is its effect. -/
theorem to_offBus (hc : exec c s = done f s) (hf : f s.m = n) (hq : n.offBus = s.m.offBus) : To c s n := by
  obtain ⟨-, -, -, -, -, hsig⟩ := eq_of_offBus hq
  exact to_of_quiet hc hs hf ⟨congrArg (·.2) hsig, congrArg (·.1) hsig⟩

theorem goes_offBus {P : Mach → Prop} (hc : exec c s = done f s) (hf : f s.m = n) (hq : n.offBus = s.m.offBus) (hP : P n) : Goes c s P :=
  .of_to (to_offBus hs hc hf hq) hP

/-! ## Enabling -/

theorem canEnOff_leads : Leads (.canEnWrite w k false) s w (R.CAN_EN k) false (fun m =>
    m.on (R.CAN_EN k) = false ∧ m.rd (R.CAN_BUS_STATE k) = 3 ∧ m.rd (R.CAN_NMT_STATE k) = 0 ∧ m.can k = {}) := by
  refine leads_of_frame (eff := fun m => .ok (canEnEffect k 0 m)) rfl hs rfl ⟨rfl, rfl⟩ fun n hn => ?_
  have hrd (o : Obj) : n.rd o = (canEnEffect k 0 s.m).rd o := by rw [← hn]; rfl
  have hcan : n.can k = (canEnEffect k 0 s.m).can k := by rw [← hn]; rfl
  have he : canEnEffect k 0 s.m = (((s.m.setCan k {}).wr (R.CAN_EN k) 0).wr (R.CAN_BUS_STATE k) 3).wr (R.CAN_NMT_STATE k) 0 := rfl
  have hkey : (R.CAN_EN k).key ≠ (R.CAN_NMT_STATE k).key ∧ (R.CAN_BUS_STATE k).key ≠ (R.CAN_NMT_STATE k).key := by
    simp only [Obj.key, R.CAN_EN, R.CAN_NMT_STATE, R.CAN_BUS_STATE]
    omega
  obtain ⟨hE, -⟩ := ne_busState k
  rw [Mach.on, hrd, hrd, hrd, hcan, he]
  refine ⟨?_, (rd_wr_ne hkey.2 ..).trans (rd_wr_same ..), rd_wr_same .., ?_⟩
  · rw [rd_wr_ne hkey.1, rd_wr_ne hE, rd_wr_same]
    rfl
  · rw [can_wr, can_wr, can_wr, Mach.setCan_same]

theorem canEnOn_leads (hoff : s.m.on (R.CAN_EN k) = false) (hh : s.m.hostOff = false) :
    Leads (.canEnWrite w k true) s w (R.CAN_EN k) false (fun m => m.on (R.CAN_EN k) = true ∧ m.rd (R.CAN_BUS_STATE k) = 0 ∧
      m.rd (R.CAN_NMT_STATE k) = 127 ∧ ⟨.can k, [0, canRate s.m k, 0x700 + s.m.rd (R.CAN_NODE_ID k), 0]⟩ ∈ m.out) := by
  intro hm
  obtain ⟨m2, hm2⟩ : ∃ m2, m2 = (((s.m.setCan k {}).wr (R.CAN_EN k) 1).wr (R.CAN_BUS_STATE k) 0).wr (R.CAN_NMT_STATE k) 0 := ⟨_, rfl⟩
  have hkey : (R.CAN_EN k).key ≠ (R.CAN_NMT_STATE k).key ∧ (R.CAN_BUS_STATE k).key ≠ (R.CAN_NMT_STATE k).key ∧
      (R.CAN_NODE_ID k).key ≠ (R.CAN_EN k).key ∧ (R.CAN_NODE_ID k).key ≠ (R.CAN_BUS_STATE k).key ∧
      (R.CAN_BITRATE k).key ≠ (R.CAN_EN k).key ∧ (R.CAN_BITRATE k).key ≠ (R.CAN_BUS_STATE k).key ∧
      (R.CAN_BITRATE k).key ≠ (R.CAN_NMT_STATE k).key := by
    simp only [Obj.key, R.CAN_EN, R.CAN_NMT_STATE, R.CAN_BUS_STATE, R.CAN_NODE_ID, R.CAN_BITRATE]
    omega
  obtain ⟨h1, h2, h3, h4, h5, h6, h7⟩ := hkey
  obtain ⟨hE, -⟩ := ne_busState k
  have hen : m2.rd (R.CAN_EN k) = 1 := by rw [hm2, rd_wr_ne h1, rd_wr_ne hE, rd_wr_same]
  have hbus : m2.rd (R.CAN_BUS_STATE k) = 0 := by rw [hm2, rd_wr_ne h2, rd_wr_same]
  have hrate : canRate m2 k = canRate s.m k := by
    rw [canRate, hm2, rd_wr_ne h7, rd_wr_ne h6, rd_wr_ne h5]
    rfl
  have hnode : (((s.m.setCan k {}).wr (R.CAN_EN k) 1).wr (R.CAN_BUS_STATE k) 0).rd (R.CAN_NODE_ID k) = s.m.rd (R.CAN_NODE_ID k) := by
    rw [rd_wr_ne h4, rd_wr_ne h3]
    rfl
  have hon : canOn m2 k = true := by
    have hh2 : m2.hostOff = false := by rw [hm2]; exact hh
    rw [canOn, Mach.on, hen, hbus, hh2]
    rfl
  obtain ⟨m3, hm3⟩ : ∃ m3, m3 = canTx k (0x700 + s.m.rd (R.CAN_NODE_ID k)) [0] m2 := ⟨_, rfl⟩
  have he : canEnEffect k 1 s.m = m3.wr (R.CAN_NMT_STATE k) 127 := by
    rw [hm3, hm2, ← hnode, canEnEffect, if_pos rfl, if_neg (by rw [hoff]; decide)]
    rfl
  have hcan : m2.can k = {} := by
    rw [hm2, can_wr, can_wr, can_wr, Mach.setCan_same]
  obtain ⟨hout, hbus3⟩ := canTx_on (id := 0x700 + s.m.rd (R.CAN_NODE_ID k)) (d := [0]) hon hcan
  rw [← hm3] at hout hbus3
  have hen3 : m3.rd (R.CAN_EN k) = 1 := by rw [hm3, canTx_rd hE, hen]
  have hoffBus : (m3.wr (R.CAN_NMT_STATE k) 127).offBus = s.m.offBus := by
    rw [offBus_wr, hm3, offBus_canTx, hm2]
    rfl
  obtain ⟨-, -, -, -, -, hsig⟩ := eq_of_offBus hoffBus
  refine ⟨_, done_carried (eff := fun m => .ok (canEnEffect k 1 m)) hm (congrArg Except.ok he) ((congrArg (·.2) hsig :).trans hs.1)
    ((congrArg (·.1) hsig :).trans hs.2), rfl, ?_⟩
  have hrd (o : Obj) : (answered w (rankNote w (R.CAN_EN k) (m3.wr (R.CAN_NMT_STATE k) 127))).rd o = (m3.wr (R.CAN_NMT_STATE k) 127).rd o := by
    rw [answered_rd, rankNote_rd]
  refine ⟨?_, (hrd _).trans ((rd_wr_ne h2 ..).trans hbus3), (hrd _).trans (rd_wr_same ..), mem_out_answered ?_⟩
  · exact congrArg (· % 2 == 1) ((hrd _).trans ((rd_wr_ne h1 ..).trans hen3))
  · change _ ∈ m3.out
    rw [hout, canWire, if_pos (by decide), ← hrate]
    exact List.mem_cons_self

end

/-! ## Network management -/

section
variable {m : Mach} {k st : Nat}

theorem sdoCancel_none (h : (m.can k).sdo = none) : sdoCancel k m = m := by
  unfold sdoCancel
  rw [h]

/-- An entered state shows itself. -/
theorem nmtEnter_does (st : Nat) (h : (m.can k).sdo = none) :
    (nmtEnter k st m).rd (R.CAN_NMT_STATE k) = st ∧ (nmtEnter k st m).offBus = m.offBus := by
  unfold nmtEnter
  by_cases h1 : nmtState m k = st
  · rw [if_pos h1]
    exact ⟨h1, rfl⟩
  rw [if_neg h1]
  extract_lets m1 m2
  have h2 : m2 = m1 := by
    unfold m2
    split_ifs
    · exact sdoCancel_none h
    · rfl
  rw [h2]
  exact ⟨rd_wr_same m (R.CAN_NMT_STATE k) st, offBus_updCan ..⟩

/-- A reset node has booted up again and is PRE-OPERATIONAL. -/
theorem nmtReset_does (h : (m.can k).sdo = none) :
    (nmtReset k m).rd (R.CAN_NMT_STATE k) = 127 ∧ (nmtReset k m).offBus = m.offBus := by
  unfold nmtReset canBootUp
  extract_lets m1
  rw [show m1 = m from sdoCancel_none h, offBus_wr, offBus_canTx, offBus_wr, offBus_updCan]
  exact ⟨rd_wr_same .., rfl⟩

/-- What a node's command does to it. -/
def nmtAct (k cmd : Nat) (m : Mach) : Mach :=
  match cmd with
  | 1 => nmtEnter k 5 m
  | 2 => nmtEnter k 4 m
  | 128 => nmtEnter k 127 m
  | 129 => nmtReset k m
  | 130 => nmtReset k m
  | _ => m

theorem nmtAct_does {cmd : Nat} (h : (m.can k).sdo = none) (hc : (cmd, st) ∈ [(1, 5), (2, 4), (128, 127), (129, 127), (130, 127)]) :
    (nmtAct k cmd m).rd (R.CAN_NMT_STATE k) = st ∧ (nmtAct k cmd m).offBus = m.offBus := by
  simp only [List.mem_cons, Prod.mk.injEq, List.not_mem_nil, or_false] at hc
  obtain ⟨rfl, rfl⟩ | ⟨rfl, rfl⟩ | ⟨rfl, rfl⟩ | ⟨rfl, rfl⟩ | ⟨rfl, rfl⟩ := hc
  · exact nmtEnter_does 5 h
  · exact nmtEnter_does 4 h
  · exact nmtEnter_does 127 h
  · exact nmtReset_does h
  · exact nmtReset_does h

theorem nmtAct_unknown {cmd : Nat} (hc : cmd ∉ [1, 2, 128, 129, 130]) : nmtAct k cmd m = m := by
  unfold nmtAct
  split <;> simp_all

theorem sdo_canRx (h : (m.can k).sdo = none) : ((canRx k m).can k).sdo = none := by
  obtain ⟨r, hr⟩ := canRx_can k m
  rw [hr]
  exact h

end

section
variable {s : State} {k : Fin 2} {cmd node : Byte} (hs : Settled s) (hon : canOn s.m k = true) (hw : s.m.dic.waiting = [])
include hs hon

theorem nmt_other (h0 : node.toNat ≠ 0) (h1 : node.toNat ≠ s.m.rd (R.CAN_NODE_ID k)) : To (.nmtCommand k cmd node) s (canRx k s.m) :=
  to_offBus (f := nmtEffect k cmd.toNat node.toNat) hs rfl ((if_neg (by rw [hon]; decide)).trans (if_pos ⟨h0, h1⟩)) (offBus_canRx ..)

include hw

/-- A command for this node acts on what the received frame leaves. -/
theorem nmt_own (hn : node.toNat = 0 ∨ node.toNat = s.m.rd (R.CAN_NODE_ID k)) {n : Mach} (hm : nmtAct k cmd.toNat (canRx k s.m) = n)
    (hq : n.offBus = s.m.offBus) : To (.nmtCommand k cmd node) s n := by
  refine to_offBus (f := nmtEffect k cmd.toNat node.toNat) hs rfl ?_ hq
  unfold nmtEffect
  rw [hon, if_neg (by decide)]
  dsimp only
  rw [if_neg (fun h => hn.elim h.1 h.2)]
  exact (congrArg dicRun hm).trans (dicRun_offBus hq hw)

theorem nmt_enters (hn : node.toNat = 0 ∨ node.toNat = s.m.rd (R.CAN_NODE_ID k)) (hsdo : (s.m.can k).sdo = none) {st : Nat}
    (h : (cmd.toNat, st) ∈ [(1, 5), (2, 4), (128, 127), (129, 127), (130, 127)]) :
    Goes (.nmtCommand k cmd node) s (fun m => m.rd (R.CAN_NMT_STATE k) = st) := by
  obtain ⟨h1, h2⟩ := nmtAct_does (sdo_canRx hsdo) h
  exact .of_to (nmt_own hs hon hw hn rfl (h2.trans (offBus_canRx ..))) h1

theorem nmt_unknown (hn : node.toNat = 0 ∨ node.toNat = s.m.rd (R.CAN_NODE_ID k)) (hc : cmd.toNat ∉ [1, 2, 128, 129, 130]) :
    To (.nmtCommand k cmd node) s (canRx k s.m) :=
  nmt_own hs hon hw hn (nmtAct_unknown hc) (offBus_canRx ..)

end

/-! ## Heartbeats and the bus state -/

section
variable {s : State} {k : Fin 2} (hs : Settled s)
include hs

theorem heartbeatProduce_to (hon : canOn s.m k = true) (hp : s.m.rd (R.CAN_HB_PROD k) ≠ 0) : To (.heartbeatProduce k) s
    (canTx k (0x700 + s.m.rd (R.CAN_NODE_ID k)) (toLe 1 (s.m.rd (R.CAN_NMT_STATE k)))
      (s.m.updCan k (fun c => { c with hbSent := s.m.tb.sclk + 1 }))) :=
  to_offBus (f := hbProduce k) hs rfl (if_pos (by simp [hon, hp])) ((offBus_canTx ..).trans (offBus_updCan ..))

theorem heartbeatConsume_to {i : Fin 4} (hon : canOn s.m k = true) (hb : hbEntry s.m k i = true) :
    To (.heartbeatConsume k i false) s ((canRx k s.m).updCan k (fun c => { c with alive := mapPut i.val s.m.tb.sclk c.alive })) ∧
    (∀ e ∈ (s.m.can k).alive, e.1 = i.val → To (.heartbeatConsume k i true) s
      ((s.m.updCan k (fun c => { c with alive := mapDel i.val c.alive })).assertSrc (402 + 4 * k))) ∧
    ((∀ e ∈ (s.m.can k).alive, e.1 ≠ i.val) → To (.heartbeatConsume k i true) s s.m) := by
  have hgo : ¬(!canOn s.m k || !hbEntry s.m k i) = true := by rw [hon, hb]; decide
  refine ⟨?_, fun e he hi => ?_, fun h => ?_⟩
  · exact to_offBus (f := hbConsume k i false) hs rfl ((if_neg hgo).trans (if_neg Bool.false_ne_true))
      ((offBus_updCan ..).trans (offBus_canRx ..))
  · have hany : (s.m.can k).alive.any (fun e => e.1 == i) = true := List.any_eq_true.mpr ⟨e, he, beq_iff_eq.mpr hi⟩
    exact to_offBus (f := hbConsume k i true) hs rfl ((if_neg hgo).trans ((if_pos rfl).trans (if_pos hany))) rfl
  · have hany : ¬(s.m.can k).alive.any (fun e => e.1 == i) = true := by
      rw [List.any_eq_true]
      rintro ⟨e, he, hi⟩
      exact h e he (beq_iff_eq.mp hi)
    exact to_offBus (f := hbConsume k i true) hs rfl ((if_neg hgo).trans ((if_pos rfl).trans (if_neg hany))) rfl

theorem busError_goes {tx : Bool} {tec rec_ : Nat} (hon : canOn s.m k = true) (ht : tec = (s.m.can k).tec + (if tx then 8 else 0))
    (hr : rec_ = (if tx then (s.m.can k).rec_ else min 255 ((s.m.can k).rec_ + 1))) : Goes (.canBusError k tx) s (fun m =>
      (m.can k).tec = tec ∧ (m.can k).rec_ = rec_ ∧
      m.rd (R.CAN_BUS_STATE k) = (if 255 < tec then 2 else if 127 < tec ∨ 127 < rec_ then 1 else 0)) := by
  obtain ⟨m1, hm1⟩ : ∃ m1, m1 = s.m.updCan k (fun c =>
      if tx then { c with tec := c.tec + 8 } else { c with rec_ := min 255 (c.rec_ + 1) }) := ⟨_, rfl⟩
  have hcan : (m1.can k).tec = tec ∧ (m1.can k).rec_ = rec_ := by
    rw [hm1, Mach.updCan_same, ht, hr]
    cases tx <;> exact ⟨rfl, rfl⟩
  have he : busError k tx s.m = (canBusState k m1).assertSrc (402 + 4 * k) := by
    rw [hm1]
    exact if_neg (by rw [hon]; decide)
  refine goes_offBus (f := busError k tx) hs rfl he ?_ ⟨hcan.1, hcan.2, (rd_wr_same ..).trans ?_⟩
  · rw [offBus_assertSrc, offBus_canBusState, hm1, offBus_updCan]
  · rw [hcan.1, hcan.2]

theorem busOffRecovery_goes (he : s.m.on (R.CAN_EN k) = true) (hb : s.m.rd (R.CAN_BUS_STATE k) = 2) : Goes (.busOffRecovery k) s (fun m =>
    (m.can k).tec = 0 ∧ (m.can k).rec_ = 0 ∧ m.rd (R.CAN_BUS_STATE k) = 0) := by
  obtain ⟨m1, hm1⟩ : ∃ m1, m1 = s.m.updCan k (fun c => { c with tec := 0, rec_ := 0 }) := ⟨_, rfl⟩
  have hcan : (m1.can k).tec = 0 ∧ (m1.can k).rec_ = 0 := by
    rw [hm1, Mach.updCan_same]
    exact ⟨rfl, rfl⟩
  have hx : busRecover k s.m = (canBusState k m1).assertSrc (402 + 4 * k) := by
    rw [hm1]
    exact if_pos (by rw [he, hb]; rfl)
  refine goes_offBus (f := busRecover k) hs rfl hx ?_ ⟨hcan.1, hcan.2, (rd_wr_same ..).trans ?_⟩
  · rw [offBus_assertSrc, offBus_canBusState, hm1, offBus_updCan]
  · rw [hcan.1, hcan.2]
    rfl

end

end Sys2Proof.Machine

/-! # O38, second part: SDO transfers (R471 to R473) -/

namespace Sys2Proof.Machine

section
variable {m : Mach} {k idx sub : Nat} {d : List Byte}

/-- The communication objects stand as before a received frame. -/
theorem commAt_canRx (hk : k < 2) (m : Mach) (idx sub : Nat) : commAt (canRx k m) k idx sub = commAt m k idx sub := by
  obtain ⟨-, hN, -⟩ := ne_busState k
  obtain ⟨-, -, hbar, -⟩ := eq_of_offBus (offBus_canRx k m)
  have hdic (o : Obj) (h : o.key < 0x160000) : (canRx k m).rd o = m.rd o := canRx_rd (by
    simp only [Obj.key, R.CAN_BUS_STATE] at h ⊢
    omega) m
  unfold commAt
  rw [canRx_rd hN, hbar, hdic R.DIC_VENDOR_ID (by decide), hdic R.DIC_PRODUCT_CODE (by decide), hdic R.DIC_HOST_FW_VER (by decide),
    hdic R.DIC_SERIAL (by decide)]

/-- A frame of a client that has no transfer under way begins an upload. -/
theorem sdoFrame_upload (ho : sdoOpen m k = true) (hl : d.length = 8) (hn : (m.can k).sdo = none) (hc : bits 7 5 (fieldAt 0 1 d) = 2) :
    sdoFrame k d m = sdoUpload k (fieldAt 1 2 d) (fieldAt 3 1 d) (canRx k m) := by
  unfold sdoFrame
  rw [if_neg (by rw [ho, hl]; decide)]
  dsimp only
  rw [hc, sdo_canRx hn]
  rfl

/-- A frame with an undefined command aborts. -/
theorem sdoFrame_undefined (ho : sdoOpen m k = true) (hl : d.length = 8) (hn : (m.can k).sdo = none) (hc : 4 < bits 7 5 (fieldAt 0 1 d)) :
    sdoFrame k d m = sdoAbort k (fieldAt 1 2 d) (fieldAt 3 1 d) 0x05040001 (canRx k m) := by
  unfold sdoFrame
  rw [if_neg (by rw [ho, hl]; decide)]
  dsimp only
  split
  · omega
  · omega
  · omega
  · omega
  · omega
  · rw [sdoCancel_none (sdo_canRx hn)]

end

section
variable {s : State} {k : Fin 2} {d : List Byte} {idx sub : Nat} (hs : Settled s) (hl : d.length = 8) (ho : sdoOpen s.m k = true)
  (hidx : idx = fieldAt 1 2 d) (hsub : sub = fieldAt 3 1 d) (hn : (s.m.can k).sdo = none)
include hl ho hidx hsub hn

theorem sdoMapped_to {i : Nat} {x : Sdo} (hc : bits 7 5 (fieldAt 0 1 d) = 2) (hj : jxIndex idx = some i) (hd : isDomain i sub = false)
    (hx : x = { idx := idx, sub := sub, up := true, wait := .upload }) : To (.sdoRequest k d) s (settle (dicRun
      (sdoAsk k 1 i sub 0 0 [] (sdoBegin k x (canRx k s.m))))) := by
  have he : sdoFrame k d s.m = sdoAsk k 1 i sub 0 0 [] (sdoBegin k x (canRx k s.m)) := by
    rw [sdoFrame_upload ho hl hn hc, ← hidx, ← hsub, sdoUpload, sdoCancel_none (sdo_canRx hn), hj, hx]
    exact if_neg (by rw [hd]; decide)
  exact congrArg (fun m => Host.Outcome.next { s with m := settle (dicRun m) }) he

include hs
variable (hw : s.m.dic.waiting = [])
include hw

theorem sdoComm_to {c : CommObj} {x : Sdo} {l : List Byte} {m : Mach} (hc : bits 7 5 (fieldAt 0 1 d) = 2) (hj : jxIndex idx = none)
    (hat : commAt s.m k idx sub = some c) (hx : x = { idx := idx, sub := sub, up := true }) (hb : c.bar k false (canRx k s.m) = none)
    (hm : m = sdoBegin k x (canRx k s.m)) (hr : l = c.read (canRx k s.m) k) (h1 : 1 ≤ l.length) (h4 : l.length ≤ 4) :
    To (.sdoRequest k d) s (sdoSend k ([BitVec.ofNat 8 (0x43 + 4 * (4 - l.length))] ++ sdoMux idx sub ++ l) (setSdo k none m)) := by
  have he : sdoFrame k d s.m = sdoSend k ([BitVec.ofNat 8 (0x43 + 4 * (4 - l.length))] ++ sdoMux idx sub ++ l) (setSdo k none m) := by
    rw [sdoFrame_upload ho hl hn hc, ← hidx, ← hsub, sdoUpload, sdoCancel_none (sdo_canRx hn), hj, commAt_canRx k.isLt, hat]
    dsimp only
    rw [hb, ← hr, hm, hx]
    exact if_pos ⟨h1, h4⟩
  have hq : (sdoFrame k d s.m).offBus = s.m.offBus := by
    rw [he, sdoSend, offBus_canTx, setSdo, offBus_updCan, hm, sdoBegin, offBus_updCan, offBus_canRx]
  exact to_offBus (f := sdoRequestEffect k d) hs rfl ((dicRun_offBus hq hw).trans he) (he ▸ hq)

theorem sdoUndefined_to (hc : 4 < bits 7 5 (fieldAt 0 1 d)) : To (.sdoRequest k d) s (sdoAbort k idx sub 0x05040001 (canRx k s.m)) := by
  have he : sdoFrame k d s.m = sdoAbort k idx sub 0x05040001 (canRx k s.m) := by
    rw [sdoFrame_undefined ho hl hn hc, ← hidx, ← hsub]
  have hq : (sdoFrame k d s.m).offBus = s.m.offBus := by rw [he, offBus_sdoAbort, offBus_canRx]
  exact to_offBus (f := sdoRequestEffect k d) hs rfl ((dicRun_offBus hq hw).trans he) (he ▸ hq)

end

section
variable {s : State} {k : Fin 2} (hs : Settled s) (hw : s.m.dic.waiting = [])
include hs hw

theorem sdoTimeout_aborts {x : Sdo} (hx : (s.m.can k).sdo = some x) (hd : x.dom = false) :
    To (.sdoTimeout k) s (sdoAbort k x.idx x.sub 0x05040000 (setSdo k none s.m)) := by
  have he : sdoExpire k s.m = sdoAbort k x.idx x.sub 0x05040000 (setSdo k none s.m) := by
    have hc : sdoCancel k s.m = setSdo k none s.m := by
      unfold sdoCancel
      rw [hx]
      exact if_neg (by rw [hd, Bool.false_and]; decide)
    unfold sdoExpire
    rw [hx, hc]
  have hq : (sdoExpire k s.m).offBus = s.m.offBus := by rw [he, offBus_sdoAbort, setSdo, offBus_updCan]
  exact to_offBus (f := sdoTimeoutEffect k) hs rfl ((dicRun_offBus hq hw).trans he) (he ▸ hq)

theorem sdoTimeout_idle (hx : (s.m.can k).sdo = none) : To (.sdoTimeout k) s s.m := by
  have he : sdoExpire k s.m = s.m := by
    unfold sdoExpire
    rw [hx]
  exact to_offBus (f := sdoTimeoutEffect k) hs rfl ((congrArg dicRun he).trans (dicRun_idle hw)) rfl

end

end Sys2Proof.Machine

/-! # O38, third part: PDOs (R474) -/

namespace Sys2Proof.Machine

/-- Where one element's step alone changes the machine, the list's is that step. -/
theorem each_only {α : Type} {f : α → Mach → Mach} {a : α} {m : Mach} {l : List α} (hn : l.Nodup) (ha : a ∈ l)
    (hbefore : ∀ b ∈ l, b ≠ a → f b m = m) (hafter : ∀ b ∈ l, b ≠ a → f b (f a m) = f a m) : m.each l f = f a m := by
  have hall (l : List α) (n : Mach) (h : ∀ b ∈ l, f b n = n) : n.each l f = n := by
    induction l with
    | nil => rfl
    | cons b l ih =>
      obtain ⟨hb, hl⟩ := List.forall_mem_cons.mp h
      exact (congrArg (fun x : Mach => x.each l f) hb).trans (ih hl)
  induction l with
  | nil => exact absurd ha List.not_mem_nil
  | cons b l ih =>
    obtain ⟨hb, hn⟩ := List.nodup_cons.mp hn
    obtain rfl | ha := List.mem_cons.mp ha
    · exact hall l _ fun c hc => hafter c (List.mem_cons_of_mem _ hc) (fun h => hb (h ▸ hc))
    · have hba : b ≠ a := fun h => hb (h ▸ ha)
      refine (congrArg (fun x : Mach => x.each l f) (hbefore b List.mem_cons_self hba)).trans (ih hn ha ?_ ?_)
      · exact fun c hc => hbefore c (List.mem_cons_of_mem _ hc)
      · exact fun c hc => hafter c (List.mem_cons_of_mem _ hc)

/-! ## What a controller's PDOs rest on -/

/-- The objects that lay a controller's PDOs down read alike. -/
structure SamePdo (k : Nat) (m1 m : Mach) : Prop where
  far : ∀ o : Obj, 0x160200 ≤ o.key → m1.rd o = m.rd o
  node : m1.rd (R.CAN_NODE_ID k) = m.rd (R.CAN_NODE_ID k)
  rate : m1.rd (R.CAN_DATA_RATE k) = m.rd (R.CAN_DATA_RATE k)

section
variable {m m1 m2 : Mach} {k j : Nat} {rx : Bool}

theorem SamePdo.trans (h2 : SamePdo k m2 m1) (h1 : SamePdo k m1 m) : SamePdo k m2 m :=
  ⟨fun o h => (h2.far o h).trans (h1.far o h), h2.node.trans h1.node, h2.rate.trans h1.rate⟩

/-- Objects that read alike but for the bus state and the counters. -/
theorem samePdo_of (hk : k < 2) (h : ∀ o : Obj, o.key ≠ (R.CAN_BUS_STATE k).key → o.key ≠ (R.CAN_CNT_PDO_RX k).key →
    o.key ≠ (R.CAN_CNT_PDO_TX k).key → m1.rd o = m.rd o) : SamePdo k m1 m := by
  refine ⟨fun o ho => h o ?_ ?_ ?_, h _ ?_ ?_ ?_, h _ ?_ ?_ ?_⟩ <;>
    simp only [Obj.key, R.CAN_BUS_STATE, R.CAN_CNT_PDO_RX, R.CAN_CNT_PDO_TX, R.CAN_NODE_ID, R.CAN_DATA_RATE] at * <;> omega

theorem samePdo_updCan (i : Nat) (f : Can → Can) (m : Mach) : SamePdo k (m.updCan i f) m := ⟨fun _ _ => rfl, rfl, rfl⟩

theorem samePdo_canRx (hk : k < 2) (m : Mach) : SamePdo k (canRx k m) m := samePdo_of hk fun _ h _ _ => canRx_rd h m

theorem pdoCobId_congr (h : SamePdo k m1 m) (rx : Bool) (j : Nat) : pdoCobId m1 rx k j = pdoCobId m rx k j := by
  have hid : ∀ o ∈ [R.CAN_RPDO_COMM_ID k j, R.CAN_TPDO_COMM_ID k j], m1.rd o = m.rd o := by
    intro o ho
    refine h.far o ?_
    simp only [List.mem_cons, List.not_mem_nil, or_false] at ho
    obtain rfl | rfl := ho
    · simp only [Obj.key, R.CAN_RPDO_COMM_ID]
      omega
    · simp only [Obj.key, R.CAN_TPDO_COMM_ID]
      omega
  have hv : m1.rd (if rx then R.CAN_RPDO_COMM_ID k j else R.CAN_TPDO_COMM_ID k j) =
      m.rd (if rx then R.CAN_RPDO_COMM_ID k j else R.CAN_TPDO_COMM_ID k j) := hid _ (by cases rx <;> simp)
  rw [pdoCobId, hv, h.node, pdoCobId]

theorem pdoValid_congr (h : SamePdo k m1 m) (rx : Bool) (j : Nat) : pdoValid m1 rx k j = pdoValid m rx k j := by
  rw [pdoValid, pdoCobId_congr h, pdoValid]

theorem pdoIdent_congr (h : SamePdo k m1 m) (rx : Bool) (j : Nat) : pdoIdent m1 rx k j = pdoIdent m rx k j := by
  rw [pdoIdent, pdoCobId_congr h, pdoIdent]

theorem pdoType_congr (h : SamePdo k m1 m) (rx : Bool) (j : Nat) : pdoType m1 rx k j = pdoType m rx k j := by
  refine h.far _ ?_
  cases rx
  · change 0x160200 ≤ (R.CAN_TPDO_COMM_TYPE k j).key
    simp only [Obj.key, R.CAN_TPDO_COMM_TYPE]
    omega
  · change 0x160200 ≤ (R.CAN_RPDO_COMM_TYPE k j).key
    simp only [Obj.key, R.CAN_RPDO_COMM_TYPE]
    omega

theorem pdoMapped_congr (h : SamePdo k m1 m) (rx : Bool) (j : Nat) : pdoMapped m1 k rx j = pdoMapped m k rx j := by
  have hn : m1.rd (mapNObj k rx j) = m.rd (mapNObj k rx j) := by
    refine h.far _ ?_
    unfold mapNObj
    split_ifs <;> simp only [Obj.key, R.CAN_RPDO_MAP_N, R.CAN_TPDO_MAP_N] <;> omega
  have ht (t : Nat) : m1.rd (mapObj k rx j t) = m.rd (mapObj k rx j t) := by
    refine h.far _ ?_
    unfold mapObj
    split_ifs <;> simp only [Obj.key, R.CAN_RPDO_MAP, R.CAN_TPDO_MAP] <;> omega
  simp only [pdoMapped, pdoEntries, hn, ht]

theorem pdoMax_congr (h : SamePdo k m1 m) : pdoMax m1 k = pdoMax m k := by rw [pdoMax, h.rate, pdoMax]

/-! ## RPDOs -/

theorem rpdoTake_other {cob i : Nat} {d : List Byte} (h : pdoValid m true k i = false ∨ pdoIdent m true k i ≠ cob) :
    rpdoTake k cob d i m = m := by
  refine if_pos ?_
  obtain h | h := h
  · rw [h]
    rfl
  · simp [h]

/-- The RPDO that a frame is. -/
theorem rpdoTake_own {cob : Nat} {d : List Byte} (hv : pdoValid m true k j = true) (hi : pdoIdent m true k j = cob)
    (hb : pdoBytes (pdoMapped m k true j) ≤ d.length) : rpdoTake k cob d j m =
      if pdoType m true k j ≤ 240 then m.updCan k (fun c => { c with held := mapPut j d c.held }) else rpdoApply k j d m := by
  refine if_neg ?_
  simp [hv, hi, Nat.not_lt.mpr hb]

theorem canLenOk_of {n : Nat} : canLenOk m k n = (decide (n ≤ 8) ||
    (m.rd (R.CAN_DATA_RATE k) != 0 && [12, 16, 20, 24, 32, 48, 64].contains n && decide (m.rd (R.CAN_DATA_RATE k) ≤ 4))) := by
  have hrate (r : Nat) : ([0, 1000, 2000, 4000, 5000].getD r 0 != 0) = (r != 0 && decide (r ≤ 4)) := by
    by_cases h : r ≤ 4
    · interval_cases r <;> rfl
    · rw [List.getD_eq_default _ _ (by simp only [List.length_cons, List.length_nil]; omega), decide_eq_false h, Bool.and_false]
      rfl
  rw [canLenOk, canDataRate, hrate, fdLens]
  congr 1
  rw [Bool.and_assoc, Bool.and_assoc]
  congr 1
  exact Bool.and_comm ..

end

section
variable {s : State} {k : Fin 2} {cob : BitVec 11} {d : List Byte} (hs : Settled s) (hon : canOn s.m k = true)

include hs in
theorem rpdo_dropped (h : s.m.rd (R.CAN_NMT_STATE k) ≠ 5 ∨ canLenOk s.m k d.length = false) : To (.rpdo k cob d) s s.m := by
  refine to_offBus (f := rpdoEffect k cob.toNat d) hs rfl (if_neg ?_) rfl
  obtain h | h := h
  · simp [nmtState, h]
  · simp [h]

variable {j : Fin 8} (hst : s.m.rd (R.CAN_NMT_STATE k) = 5) (hl : canLenOk s.m k d.length = true) (hv : pdoValid s.m true k j = true)
  (hi : pdoIdent s.m true k j = cob.toNat)
  (hother : ∀ i : Fin 8, i ≠ j → pdoValid s.m true k i = false ∨ pdoIdent s.m true k i ≠ cob.toNat)
  (hb : pdoBytes (pdoMapped s.m k true j) ≤ d.length)
include hon hst hl hv hi hother hb

/-- A frame that is one RPDO alone is taken by it. -/
theorem rpdoEffect_own {t : Mach} (ht : (if pdoType s.m true k j ≤ 240 then
      (canRx k s.m).updCan k (fun c => { c with held := mapPut j.val d c.held }) else rpdoApply k j d (canRx k s.m)) = t)
    (hafter : ∀ i : Fin 8, i ≠ j → pdoValid t true k i = false ∨ pdoIdent t true k i ≠ cob.toNat) :
    rpdoEffect k cob.toNat d s.m = t := by
  have hsame := samePdo_canRx k.isLt s.m
  have hown : rpdoTake k cob.toNat d j (canRx k s.m) = t := by
    rw [← ht, rpdoTake_own ((pdoValid_congr hsame ..).trans hv) ((pdoIdent_congr hsame ..).trans hi)
      (by rwa [pdoMapped_congr hsame]), pdoType_congr hsame]
  have hgo : (canOn s.m k && nmtState s.m k == 5 && canLenOk s.m k d.length) = true := by simp [hon, nmtState, hst, hl]
  refine (if_pos hgo).trans ((each_only (a := j.val) List.nodup_range (List.mem_range.mpr j.isLt) (fun b hb8 hne => ?_)
    (fun b hb8 hne => ?_)).trans hown)
  · refine rpdoTake_other ?_
    rw [pdoValid_congr hsame, pdoIdent_congr hsame]
    exact hother ⟨b, List.mem_range.mp hb8⟩ fun h => hne (congrArg Fin.val h)
  · rw [hown]
    exact rpdoTake_other (hafter ⟨b, List.mem_range.mp hb8⟩ fun h => hne (congrArg Fin.val h))

include hs in
theorem rpdo_held (hty : pdoType s.m true k j ≤ 240) :
    To (.rpdo k cob d) s ((canRx k s.m).updCan k (fun c => { c with held := mapPut j.val d c.held })) := by
  have hsame : SamePdo k ((canRx k s.m).updCan k (fun c => { c with held := mapPut j.val d c.held })) s.m :=
    (samePdo_updCan ..).trans (samePdo_canRx k.isLt s.m)
  refine to_offBus (f := rpdoEffect k cob.toNat d) hs rfl (rpdoEffect_own hon hst hl hv hi hother hb (if_pos hty) fun i hne => ?_)
    ((offBus_updCan ..).trans (offBus_canRx ..))
  rw [pdoValid_congr hsame, pdoIdent_congr hsame]
  exact hother i hne

theorem rpdo_written {v i sub n : Nat} {t : Mach} (hty : 240 < pdoType s.m true k j) (hmap : pdoMapped s.m k true j = [v])
    (he : pdoEntry v = some (i, sub, n)) (ht : t = pdoWrite k i sub (d.take n) ((canRx k s.m).inc (R.CAN_CNT_PDO_RX k)))
    (hafter : ∀ i : Fin 8, i ≠ j → pdoValid t true k i = false ∨ pdoIdent t true k i ≠ cob.toNat) :
    To (.rpdo k cob d) s (settle t) := by
  have happly : rpdoApply k j d (canRx k s.m) = t := by
    rw [rpdoApply, pdoMapped_congr (samePdo_canRx k.isLt s.m), hmap, ht]
    simp only [rpdoWrites, he]
  exact congrArg (fun m => Host.Outcome.next { s with m := settle m })
    (rpdoEffect_own hon hst hl hv hi hother hb ((if_neg (Nat.not_le.mpr hty)).trans happly) hafter)

end

/-! ## TPDOs of the host's own objects -/

section
variable {m : Mach} {k j : Nat} {d : List Byte} {l : List (Nat × Nat × Nat)}

/-- Where every mapped object is the host's and readable, the data of the instant is complete. -/
theorem tpdoGather_host (fresh : Bool) (hl : l = (pdoMapped m k false j).filterMap pdoEntry)
    (hall : ∀ e ∈ l, ownerOf e.1 = .host ∧ (tpdoHere m e).isSome = true) (hd : d = l.flatMap (fun e => (tpdoHere m e).getD [])) :
    tpdoGather k j fresh m = tpdoReady k j fresh d m := by
  have hfar : ((List.range l.length).zip l).filter (fun e => ownerOf e.2.1 == .field) = [] := by
    rw [List.filter_eq_nil_iff]
    intro e he
    obtain ⟨-, he⟩ := List.of_mem_zip (a := e.1) (b := e.2) he
    rw [(hall _ he).1]
    decide
  have hany : (l.zip (l.map (tpdoHere m))).any (fun e => ownerOf e.1.1 == .host && e.2.isNone) = false := by
    rw [List.any_eq_false]
    intro e he
    obtain ⟨-, he⟩ := List.of_mem_zip (a := e.1) (b := e.2) he
    obtain ⟨x, hx, hxe⟩ := List.mem_map.mp he
    have hsome := (hall x hx).2
    rw [hxe] at hsome
    rw [← Option.not_isSome, hsome]
    simp
  unfold tpdoGather
  rw [← hl]
  dsimp only
  simp only [hfar, hany, List.isEmpty_nil, Bool.not_true, Bool.false_and, Bool.or_false, Bool.false_eq_true, if_false, if_true, hd,
    List.flatMap_map]

/-- Data goes out where the TPDO's inhibit time does not run and the bus can carry it. -/
theorem tpdoReady_sends (hd : d ≠ []) (hmax : d.length ≤ pdoMax m k) (hinh : (∀ e ∈ (m.can k).sent, e.1 ≠ j) ∨
      mapGet 0 j (m.can k).sentAt + 80000 * m.rd (R.CAN_TPDO_COMM_INH k j) ≤ m.tb.sclk) : tpdoReady k j false d m =
    ((canTx k (pdoIdent m false k j) d m).inc (R.CAN_CNT_PDO_TX k)).updCan k (fun c =>
      { c with sent := mapPut j d c.sent, sentAt := mapPut j m.tb.sclk c.sentAt }) := by
  have hfree : ((m.can k).sent.any (fun e => e.1 == j) &&
      decide (m.tb.sclk < mapGet 0 j (m.can k).sentAt + 80000 * m.rd (R.CAN_TPDO_COMM_INH k j))) = false := by
    obtain h | h := hinh
    · rw [List.any_eq_false.mpr fun e he => by simp [h e he], Bool.false_and]
    · rw [decide_eq_false (Nat.not_lt.mpr h), Bool.and_false]
  have hgo : (false || d.isEmpty || decide (pdoMax m k < d.length)) = false := by simp [hd, Nat.not_lt.mpr hmax]
  unfold tpdoReady tpdoPut
  rw [if_neg (by simp)]
  dsimp only
  rw [hfree, hgo, if_neg (by decide)]
  rfl

end

section
variable {s : State} {k : Fin 2} {j : Fin 8} {d : List Byte} {l : List (Nat × Nat × Nat)} (hs : Settled s) (hon : canOn s.m k = true)
include hs hon

theorem tpdoTimer_sends {m1 : Mach} (hst : s.m.rd (R.CAN_NMT_STATE k) = 5) (hl : l = (pdoMapped s.m k false j).filterMap pdoEntry)
    (hv : pdoValid s.m false k j = true) (hty : 254 ≤ pdoType s.m false k j) (hev : s.m.rd (R.CAN_TPDO_COMM_EVTMR k j) ≠ 0)
    (hm1 : m1 = (s.m.updCan k (fun c => { c with timed := mapPut j.val s.m.tb.sclk c.timed })).assertSrc (403 + 4 * k))
    (hall : ∀ e ∈ l, ownerOf e.1 = .host ∧ (tpdoHere m1 e).isSome = true) (hd : d = l.flatMap (fun e => (tpdoHere m1 e).getD []))
    (h0 : d ≠ []) (hmax : d.length ≤ pdoMax s.m k) (hinh : (∀ e ∈ (s.m.can k).sent, e.1 ≠ j.val) ∨
      mapGet 0 j.val (s.m.can k).sentAt + 80000 * s.m.rd (R.CAN_TPDO_COMM_INH k j) ≤ s.m.tb.sclk) :
    To (.tpdoEventTimer k j) s (((canTx k (pdoIdent s.m false k j) d m1).inc (R.CAN_CNT_PDO_TX k)).updCan k (fun c =>
      { c with sent := mapPut j.val d c.sent, sentAt := mapPut j.val s.m.tb.sclk c.sentAt })) := by
  have hsame : SamePdo k m1 s.m := by
    rw [hm1]
    exact ⟨fun _ _ => rfl, rfl, rfl⟩
  have hcan : (m1.can k).sent = (s.m.can k).sent ∧ (m1.can k).sentAt = (s.m.can k).sentAt := by
    rw [hm1, can_assertSrc, Mach.updCan_same]
    exact ⟨rfl, rfl⟩
  have htb : m1.tb = s.m.tb := by rw [hm1]; rfl
  have hrd (o : Obj) : m1.rd o = s.m.rd o := by rw [hm1]; rfl
  have hgo : (canOn s.m k && nmtState s.m k == 5 && pdoValid s.m false k j && decide (254 ≤ pdoType s.m false k j) &&
      s.m.rd (R.CAN_TPDO_COMM_EVTMR k j) != 0) = true := by simp [hon, nmtState, hst, hv, hty, hev]
  have he : tpdoTimer k j s.m = ((canTx k (pdoIdent s.m false k j) d m1).inc (R.CAN_CNT_PDO_TX k)).updCan k (fun c =>
      { c with sent := mapPut j.val d c.sent, sentAt := mapPut j.val s.m.tb.sclk c.sentAt }) := by
    refine (if_pos hgo).trans ?_
    rw [← hm1, tpdoGather_host false (hl.trans (by rw [pdoMapped_congr hsame])) hall hd,
      tpdoReady_sends h0 (by rwa [pdoMax_congr hsame]) (by rwa [hcan.1, hcan.2, hrd, htb]), pdoIdent_congr hsame, htb]
  refine to_offBus (f := tpdoTimer k j) hs rfl he ?_
  rw [offBus_updCan, offBus_inc, offBus_canTx, hm1, offBus_assertSrc, offBus_updCan]

end

end Sys2Proof.Machine

/-! # O38, last part: SYNC and TPDOs of the field's objects (R22, R474) -/

namespace Sys2Proof.Machine

/-! ## SYNC -/

section
variable {m : Mach} {k j : Nat}

theorem samePdo_assertSrc (id : Nat) (m : Mach) : SamePdo k (m.assertSrc id) m := ⟨fun _ _ => rfl, rfl, rfl⟩

@[simp] theorem can_inc (o : Obj) (m : Mach) (k : Nat) : (m.inc o).can k = m.can k := rfl

/-- A TPDO that is off, or waits for no SYNC, does nothing at one. -/
theorem tpdoSync_other (h : pdoValid m false k j = true → 240 < pdoType m false k j) : tpdoSync k j m = m := by
  refine if_pos ?_
  cases hv : pdoValid m false k j
  · rfl
  · rw [decide_eq_true (h hv)]
    rfl

/-- A TPDO whose SYNC has come is gathered with its count begun again. -/
theorem tpdoSync_due (hv : pdoValid m false k j = true) (h1 : 1 ≤ pdoType m false k j) (h240 : pdoType m false k j ≤ 240)
    (hn : pdoType m false k j ≤ mapGet 0 j (m.can k).syncs + 1) : tpdoSync k j m =
      tpdoGather k j false (m.updCan k (fun c => { c with syncs := mapSet 0 j 0 c.syncs })) := by
  have hgo : ¬(!pdoValid m false k j || decide (240 < pdoType m false k j)) = true := by simp [hv, h240]
  exact (if_neg hgo).trans ((if_neg (by omega)).trans (if_neg (by omega)))

end

section
variable {s : State} {k : Fin 2} {m1 : Mach} (hs : Settled s) (hon : canOn s.m k = true) (hm1 : m1 = (canRx k s.m).assertSrc (403 + 4 * k))
include hs hon hm1

theorem sync_idle (hst : s.m.rd (R.CAN_NMT_STATE k) ≠ 5) : To (.sync k) s m1 := by
  have he : syncConsume k s.m = m1 := by
    unfold syncConsume
    rw [if_neg (by rw [hon]; decide), ← hm1]
    exact if_pos hst
  exact to_offBus (f := syncConsume k) hs rfl he (by rw [hm1, offBus_assertSrc, offBus_canRx])

theorem sync_sends {j : Fin 8} {d : List Byte} {m2 : Mach} {l : List (Nat × Nat × Nat)} (hst : s.m.rd (R.CAN_NMT_STATE k) = 5)
    (hheld : (s.m.can k).held = []) (hl : l = (pdoMapped s.m k false j).filterMap pdoEntry)
    (hm2 : m2 = (m1.updCan k (fun c => { c with held := [] })).updCan k (fun c => { c with syncs := mapSet 0 j.val 0 c.syncs }))
    (hother : ∀ i : Fin 8, i ≠ j → pdoValid s.m false k i = true → 240 < pdoType s.m false k i) (hv : pdoValid s.m false k j = true)
    (h1 : 1 ≤ pdoType s.m false k j) (h240 : pdoType s.m false k j ≤ 240)
    (hn : pdoType s.m false k j ≤ mapGet 0 j.val (s.m.can k).syncs + 1) (hsent : ∀ e ∈ (s.m.can k).sent, e.1 ≠ j.val)
    (hall : ∀ e ∈ l, ownerOf e.1 = .host ∧ (tpdoHere m2 e).isSome = true) (hd : d = l.flatMap (fun e => (tpdoHere m2 e).getD []))
    (h0 : d ≠ []) (hmax : d.length ≤ pdoMax s.m k) : Goes (.sync k) s (fun m => mapGet 0 j.val (m.can k).syncs = 0 ∧
      (m.can k).sent = mapPut j.val d (s.m.can k).sent ∧
      m.rd (R.CAN_CNT_PDO_TX k) = min 0xFFFFFFFF (m2.rd (R.CAN_CNT_PDO_TX k) + 1)) := by
  obtain ⟨r, hr⟩ := canRx_can k s.m
  obtain ⟨m0, hm0⟩ : ∃ m0, m0 = m1.updCan k (fun c => { c with held := [] }) := ⟨_, rfl⟩
  rw [← hm0] at hm2
  have hcan0 : m0.can k = { s.m.can k with rec_ := r, held := [] } := by rw [hm0, Mach.updCan_same, hm1, can_assertSrc, hr]
  have hcan2 : m2.can k = { s.m.can k with rec_ := r, held := [], syncs := mapSet 0 j.val 0 (s.m.can k).syncs } := by
    rw [hm2, Mach.updCan_same, hcan0]
  have hsame1 : SamePdo k m1 s.m := by
    rw [hm1]
    exact (samePdo_assertSrc ..).trans (samePdo_canRx k.isLt s.m)
  have hsame0 : SamePdo k m0 s.m := by
    rw [hm0]
    exact (samePdo_updCan ..).trans hsame1
  have hsame2 : SamePdo k m2 s.m := by
    rw [hm2]
    exact (samePdo_updCan ..).trans hsame0
  obtain ⟨m3, hm3⟩ : ∃ m3, m3 = ((canTx k (pdoIdent m2 false k j) d m2).inc (R.CAN_CNT_PDO_TX k)).updCan k (fun c =>
      { c with sent := mapPut j.val d c.sent, sentAt := mapPut j.val m2.tb.sclk c.sentAt }) := ⟨_, rfl⟩
  have hsame3 : SamePdo k m3 s.m := by
    refine SamePdo.trans (samePdo_of k.isLt fun o hB _ hT => ?_) hsame2
    rw [hm3, Mach.updCan_rd, rd_inc_ne hT, canTx_rd hB]
  have hown : tpdoSync k j m0 = m3 := by
    rw [tpdoSync_due ((pdoValid_congr hsame0 ..).trans hv) (by rwa [pdoType_congr hsame0]) (by rwa [pdoType_congr hsame0])
      (by rwa [pdoType_congr hsame0, hcan0]), ← hm2, tpdoGather_host false (hl.trans (by rw [pdoMapped_congr hsame2])) hall hd,
      tpdoReady_sends h0 (by rwa [pdoMax_congr hsame2]) (.inl (by rwa [hcan2])), hm3]
  have he : syncConsume k s.m = m3 := by
    have hheld1 : (m1.can k).held = [] := by rw [hm1, can_assertSrc, hr, ← hheld]
    unfold syncConsume
    rw [if_neg (by rw [hon]; decide), ← hm1]
    dsimp only
    rw [hheld1, ← hm0]
    change (if nmtState s.m k ≠ 5 then m1 else m0.each (List.range 8) (tpdoSync k)) = m3
    refine (if_neg (not_not.mpr hst)).trans ((each_only (a := j.val) List.nodup_range (List.mem_range.mpr j.isLt) (fun b hb hne => ?_)
      (fun b hb hne => ?_)).trans hown)
    · refine tpdoSync_other fun hvb => ?_
      rw [pdoValid_congr hsame0] at hvb
      rw [pdoType_congr hsame0]
      exact hother ⟨b, List.mem_range.mp hb⟩ (fun h => hne (congrArg Fin.val h)) hvb
    · rw [hown]
      refine tpdoSync_other fun hvb => ?_
      rw [pdoValid_congr hsame3] at hvb
      rw [pdoType_congr hsame3]
      exact hother ⟨b, List.mem_range.mp hb⟩ (fun h => hne (congrArg Fin.val h)) hvb
  have hq : m3.offBus = s.m.offBus := by
    rw [hm3, offBus_updCan, offBus_inc, offBus_canTx, hm2, offBus_updCan, hm0, offBus_updCan, hm1, offBus_assertSrc, offBus_canRx]
  obtain ⟨t, ht⟩ := canTx_can k (pdoIdent m2 false k j) d m2
  have hcan3 : (m3.can k).syncs = mapSet 0 j.val 0 (s.m.can k).syncs ∧ (m3.can k).sent = mapPut j.val d (s.m.can k).sent := by
    rw [hm3, Mach.updCan_same, can_inc, ht, hcan2]
    exact ⟨rfl, rfl⟩
  obtain ⟨-, -, -, -, -, hT⟩ := ne_busState k
  refine goes_offBus (f := syncConsume k) hs rfl he hq ⟨?_, ?_, ?_⟩
  · rw [hcan3.1]
    exact mapGet_mapSet_same ..
  · exact hcan3.2
  · rw [hm3, Mach.updCan_rd, rd_inc_same, canTx_rd hT]

end

/-! ## A TPDO whose object is the field's -/

section
variable {m : Mach} {k j : Nat}

/-- A request that passes the checks for the field finds it ready. -/
theorem fieldBar_of_dicBar {op : Nat} {q : Req} (h9 : op ≠ 9) (ho : ownerOf q.index.toNat = .field) (hb : dicBar op q m = none) :
    fieldBar m = none := by
  by_contra hf
  have hsome : (fieldBar m).isSome = true := Option.isSome_iff_ne_none.mpr hf
  unfold dicBar at hb
  dsimp only at hb
  rw [if_neg h9] at hb
  repeat' split at hb
  all_goals simp_all

/-- The checks of a request look at no controller. -/
theorem dicBar_cans (op : Nat) (q : Req) (m : Mach) (c : List (Nat × Can)) (l : List Nat) :
    dicBar op q { m with cans := c, asserts := l } = dicBar op q m := rfl

/-- The one mapped object of a TPDO is asked for at the field, and the job waits for its answer. -/
theorem tpdoGather_field {v i sub n no : Nat} (hmap : pdoMapped m k false j = [v]) (he : pdoEntry v = some (i, sub, n))
    (ho : ownerOf i = .field) (hf : fieldBar m = none) (hjobs : (m.can k).jobs = []) (hno : no = ((m.can k).jobNo + 1) % 4096) :
    tpdoGather k j false m = tpdoAsk k no 0 (i, sub, n) (m.updCan k (fun c => { c with jobNo := no, jobs := [⟨j, no, false, [none]⟩] })) := by
  have hhere : tpdoHere m (i, sub, n) = none := if_pos ho
  unfold tpdoGather
  simp only [hmap, List.filterMap_cons, he, List.filterMap_nil]
  have hfar : [((0 : Nat), i, sub, n)].filter (fun e => ownerOf e.2.1 == .field) = [(0, i, sub, n)] := by simp [ho]
  have hjob : m.updCan k (fun c => { c with jobNo := no, jobs := c.jobs ++ [⟨j, no, false, [none]⟩] }) =
      m.updCan k (fun c => { c with jobNo := no, jobs := [⟨j, no, false, [none]⟩] }) := by
    simp only [Mach.updCan, hjobs, List.nil_append]
  simp [hhere, ho, hf, hfar, ← hno, hjob, Mach.each]

theorem index_lt_of_pdoEntry {v i sub n : Nat} (h : pdoEntry v = some (i, sub, n)) : i < 2 ^ 16 := by
  have hjx {x y : Nat} (hx : jxIndex x = some y) : y < 2 ^ 16 := by
    unfold jxIndex at hx
    split_ifs at hx
    · have := Option.some.inj hx
      omega
    · have := Option.some.inj hx
      omega
  unfold pdoEntry at h
  split at h
  · next x hx =>
    split_ifs at h
    have hi : x = i := congrArg Prod.fst (Option.some.inj h)
    exact hi ▸ hjx hx
  · exact absurd h (by simp)

end

section
variable {s : State} {k : Fin 2} {j : Fin 8} (hs : Settled s) (hi : ServiceIdle s)
include hs hi

theorem tpdoTimer_asks {v i sub n no : Nat} {q : Req} (hon : canOn s.m k = true) (hst : s.m.rd (R.CAN_NMT_STATE k) = 5)
    (hv : pdoValid s.m false k j = true) (hty : 254 ≤ pdoType s.m false k j) (hev : s.m.rd (R.CAN_TPDO_COMM_EVTMR k j) ≠ 0)
    (hmap : pdoMapped s.m k false j = [v]) (he : pdoEntry v = some (i, sub, n)) (ho : ownerOf i = .field)
    (hjobs : (s.m.can k).jobs = []) (hno : no = ((s.m.can k).jobNo + 1) % 4096)
    (hq : q = ⟨canRoute k, 2, true, BitVec.ofNat 16 (16 * no), 0, BitVec.ofNat 16 i, BitVec.ofNat 8 sub, 0, 0, []⟩)
    (hb : dicBar 1 q s.m = none) : ∃ t, exec (.tpdoEventTimer k j) s = .next t ∧ Forwarded 1 q s t ∧
      (t.m.can k).jobs = [⟨j, no, false, [none]⟩] := by
  obtain ⟨hoff, hw, hx, hd⟩ := hi
  have hidx : q.index.toNat = i := by
    rw [hq]
    exact Nat.mod_eq_of_lt (index_lt_of_pdoEntry he)
  have hfield : ownerOf q.index.toNat = .field := by rw [hidx, ho]
  have hask : askField ⟨1, q, none⟩ = true := by simp [askField, hfield]
  have hlink : s.m.linked .host = true := linked_of_dicBar (a := ⟨1, q, none⟩) hb hask
  have hready : fieldBar s.m = none := fieldBar_of_dicBar (by decide) hfield hb
  obtain ⟨m1, hm1⟩ : ∃ m1, m1 = (s.m.updCan k (fun c => { c with timed := mapPut j.val s.m.tb.sclk c.timed })).assertSrc (403 + 4 * k) :=
    ⟨_, rfl⟩
  have hcan1 : (m1.can k).jobs = [] ∧ (m1.can k).jobNo = (s.m.can k).jobNo := by
    rw [hm1, can_assertSrc, Mach.updCan_same]
    exact ⟨hjobs, rfl⟩
  obtain ⟨m2, hm2⟩ : ∃ m2, m2 = m1.updCan k (fun c => { c with jobNo := no, jobs := [⟨j, no, false, [none]⟩] }) := ⟨_, rfl⟩
  have hgather : tpdoGather k j false m1 = dicRequest ⟨1, q, none⟩ m2 := by
    refine (tpdoGather_field ?_ he ho ?_ hcan1.1 (hno.trans (by rw [hcan1.2]))).trans ?_
    · rw [hm1]
      exact hmap
    · rw [hm1]
      exact hready
    · rw [← hm2, hq]
      rfl
  have hgo : (canOn s.m k && nmtState s.m k == 5 && pdoValid s.m false k j && decide (254 ≤ pdoType s.m false k j) &&
      s.m.rd (R.CAN_TPDO_COMM_EVTMR k j) != 0) = true := by simp [hon, nmtState, hst, hv, hty, hev]
  have htimer : tpdoTimer k j s.m = dicRequest ⟨1, q, none⟩ m2 := by
    rw [← hgather, hm1]
    exact if_pos hgo
  have hq2 : m2.offBus = s.m.offBus := by rw [hm2, offBus_updCan, hm1, offBus_assertSrc, offBus_updCan]
  obtain ⟨hdic, htb, hbar, -, hoff2, hsig⟩ := eq_of_offBus hq2
  have hb2 : dicBar 1 q m2 = none := by
    rw [hm2, hm1, ← hb]
    exact dicBar_cans 1 q s.m _ _
  have hsess : sessTouch q.session.toNat m2 = m2 := by
    rw [hq]
    exact if_pos rfl
  have hstep := dicStep_forwarded (a := ⟨1, q, none⟩) hb2 hask (by rw [hbar, hx]) (by rw [hbar, hd])
  rw [hsess, forward_linked (by rw [Mach.linked, Mach.barState, Mach.barEnd, hbar]; exact hlink)] at hstep
  have hrun := dicRequest_idle (hoff2.trans hoff) ((congrArg (·.waiting) hdic).trans hw) hstep ((congrArg (·.waiting) hdic).trans hw)
  refine ⟨_, done_quiet (htimer.trans hrun) ((congrArg (·.2) hsig :).trans hs.1) ((congrArg (·.1) hsig :).trans hs.2),
    ⟨rfl, ?_, (congrArg (·.waiting) hdic).trans hw, ?_⟩, ?_⟩
  · change mapPut 0 _ m2.bar.fwds = _
    rw [hbar, hx, htb]
    rfl
  · change m2.bar.h.queue ++ _ = _
    rw [hbar]
  · change (m2.can k).jobs = _
    rw [hm2, Mach.updCan_same]

end

/-- The controllers as CiA 301 nodes, R470 to R475. Settles O38. -/
theorem canCommands : Obligations.CanCommands := by
  unfold Obligations.CanCommands
  intro s w k hs
  refine ⟨canEnOn_leads hs, canEnOff_leads hs,
    fun cmd node hon hw hsdo => ⟨nmt_other hs hon, fun hn => ⟨fun st => nmt_enters hs hon hw hn hsdo, nmt_unknown hs hon hw hn⟩⟩,
    fun d idx sub hl ho hidx hsub hw hn => ⟨fun c x l m => sdoComm_to hs hl ho hidx hsub hn hw, fun i x => sdoMapped_to hl ho hidx hsub hn,
      sdoUndefined_to hs hl ho hidx hsub hn hw⟩,
    fun hw => ⟨fun x => sdoTimeout_aborts hs hw, sdoTimeout_idle hs hw⟩,
    fun m1 hon hm1 => ⟨sync_idle hs hon hm1, fun j d m2 l => sync_sends hs hon hm1⟩,
    fun cob d hon => ⟨rpdo_dropped hs, fun j hst hl hv hi hother hb => ⟨rpdo_held hs hon hst hl hv hi hother hb,
      fun v i sub n t => rpdo_written hon hst hl hv hi hother hb⟩⟩,
    fun n _ => canLenOk_of,
    fun j d m1 l hon => tpdoTimer_sends hs hon,
    fun j v i sub n no q hi => tpdoTimer_asks hs hi,
    heartbeatProduce_to hs, fun i => heartbeatConsume_to hs, fun tx tec rec_ => busError_goes hs, busOffRecovery_goes hs⟩

end Sys2Proof.Machine
